-- ==== Sys2Proof/Word.lean ====
section
/-! DEFINITION. The word types of the Ivrid machine and their plainest arithmetic (R1, R5, R93). -/
namespace Sys2Proof

/-- One byte. -/
abbrev Byte := BitVec 8
/-- A slot word, a lane, an FP32 bit pattern. -/
abbrev Word := BitVec 32
/-- A scalar register, a system register, an address pattern. -/
abbrev DWord := BitVec 64
/-- A lane mask k0..k7, or the predicates p0..p127 as one pattern. -/
abbrev Mask := BitVec 128

/-- Bits `hi` down to `lo` of `n` (R1). -/
def bitsOf (n hi lo : Nat) : Nat := n / 2 ^ lo % 2 ^ (hi + 1 - lo)

/-- Bit `i` of `n`. -/
def bitOf (n i : Nat) : Bool := n / 2 ^ i % 2 = 1

/-- `sext(v, n)` of R93 on a natural number: the low n bits read as two's complement. -/
def sextNat (v n : Nat) : Int :=
  let u := v % 2 ^ n
  if 2 ^ (n - 1) ≤ u then (u : Int) - 2 ^ n else u

/-- The 64-bit pattern of an unbounded integer (`wrap(v, 64)` of R93). -/
def wrap64 (v : Int) : DWord := BitVec.ofInt 64 v

/-- The 32-bit pattern of an unbounded integer. -/
def wrap32 (v : Int) : Word := BitVec.ofInt 32 v

/-- The little-endian bytes of a natural number, `len` of them (R1). -/
def leBytes : Nat → Nat → List Byte
  | 0, _ => []
  | len + 1, v => BitVec.ofNat 8 v :: leBytes len (v / 256)

/-- The natural number that little-endian bytes hold (R1). -/
def leNat : List Byte → Nat
  | [] => 0
  | b :: bs => b.toNat + 256 * leNat bs

/-- The list 0, 1, …, n − 1. -/
def upTo (n : Nat) : List Nat := List.range n

/-- The `i`-th element of a list, or the given value past its end. -/
def nth {α : Type} (d : α) : List α → Nat → α
  | [], _ => d
  | a :: _, 0 => a
  | _ :: as, i + 1 => nth d as i

/-- The list with its `i`-th element replaced; unchanged past the end. -/
def setNth {α : Type} (v : α) : List α → Nat → List α
  | [], _ => []
  | _ :: as, 0 => v :: as
  | a :: as, i + 1 => a :: setNth v as i

/-- Insertion by rising key; equal keys keep their order. -/
def insertBy {α : Type} (key : α → Nat) (a : α) : List α → List α
  | [] => [a]
  | b :: bs => if key a < key b then a :: b :: bs else b :: insertBy key a bs
/-- The list by rising key; equal keys keep their order. -/
def sortBy {α : Type} (key : α → Nat) (l : List α) : List α := l.foldl (fun acc a => insertBy key a acc) []

end Sys2Proof
end

