-- ==== Sys2Proof/Syntax.lean ====
section
/-! DEFINITION. The instructions: one constructor per row of the table of operations and events. Fields of a word are
the natural numbers its bits hold; events of the device name the unit they happen to. -/
namespace Sys2Proof

/-- The vector unit of an operation that VA and VB share (R218). -/
inductive VUnit where
  | va | vb
  deriving DecidableEq, Repr

/-- The operations and events of the device. -/
inductive Instr where
  /-- Branch target register j := addr (R165). -/
  | btgt (j addr : Nat)
  /-- Call a bundle (or word) address (R166). -/
  | call (addr : Nat)
  /-- Trip count of a sequencer level (R168). -/
  | loop (lvl xc : Nat)
  /-- Stride binding 0 of a level (R168). -/
  | loopS0 (lvl xc xr : Nat)
  /-- Stride binding 1 of a level (R168). -/
  | loopS1 (lvl xc xr : Nat)
  /-- Scalar compare (R171). -/
  | scmp (pd xa xb cc : Nat)
  /-- Scalar compare with an immediate (R171). -/
  | scmpi (pd xa cc imm : Nat)
  /-- Predicate logic (R171). -/
  | plog (pd pa pb o : Nat)
  /-- Predicate move (R171). -/
  | pmov (pd pa : Nat)
  /-- Set a predicate (R171). -/
  | pseti (pd v : Nat)
  /-- Read a system register (R163). -/
  | csrr (xd csr : Nat)
  /-- Write a system register (R163). -/
  | csrw (xs csr : Nat)
  /-- Set bits of a system register (R163). -/
  | csrs (xs csr : Nat)
  /-- Raise a cause (R348). -/
  | trap (code info : Nat)
  /-- Read a return-store entry (R350). -/
  | rstkr (xd idx : Nat)
  /-- Write a return-store entry (R350). -/
  | rstkw (xs idx : Nat)
  /-- Raise BREAK (R348). -/
  | brk (info : Nat)
  /-- Monitored wait (R320). -/
  | waitm (xa xb : Nat)
  /-- Arrive at a barrier (R317). -/
  | barv (scope bid : Nat)
  /-- Wait for a barrier (R317). -/
  | barw (scope bid : Nat)
  /-- Test a barrier (R317). -/
  | bart (scope bid pd : Nat)
  /-- Push a continuation (R188). -/
  | fork (xa : Nat)
  /-- Join a counter (R188). -/
  | join (xa : Nat)
  /-- Steal a continuation (R188). -/
  | steal (pd : Nat)
  /-- Token ready (R372). -/
  | trdy (pd xa : Nat)
  /-- Scalar arithmetic (R173). -/
  | add (xd xa xb : Nat)
  /-- Scalar arithmetic (R173). -/
  | sub (xd xa xb : Nat)
  /-- Scalar arithmetic (R173). -/
  | mul (xd xa xb : Nat)
  /-- Scalar arithmetic (R173). -/
  | mulh (xd xa xb : Nat)
  /-- Scalar arithmetic (R173). -/
  | and_ (xd xa xb : Nat)
  /-- Scalar arithmetic (R173). -/
  | or_ (xd xa xb : Nat)
  /-- Scalar arithmetic (R173). -/
  | xor_ (xd xa xb : Nat)
  /-- Scalar arithmetic (R173). -/
  | shl (xd xa xb : Nat)
  /-- Scalar arithmetic (R173). -/
  | shr (xd xa xb : Nat)
  /-- Scalar arithmetic (R173). -/
  | sra (xd xa xb : Nat)
  /-- Scalar arithmetic (R173). -/
  | min_ (xd xa xb : Nat)
  /-- Scalar arithmetic (R173). -/
  | max_ (xd xa xb : Nat)
  /-- Add an immediate (R173). -/
  | addi (xd xa imm : Nat)
  /-- Load an upper immediate (R173). -/
  | lui (xd imm : Nat)
  /-- Select by a predicate (R173). -/
  | sel (xd xa xb ps : Nat)
  /-- Per-die select (R173). -/
  | dsel (xd xa : Nat)
  /-- Load (R175). -/
  | ld (xd xa w off : Nat)
  /-- Store (R175). -/
  | st (xs xa w off : Nat)
  /-- Acquire (R310). -/
  | acq (scope xa : Nat)
  /-- Release (R310). -/
  | rel (scope xa : Nat)
  /-- Fence (R310). -/
  | fence (scope : Nat)
  /-- Write a walker field (R199). -/
  | wcfg (xa port field : Nat)
  /-- Write a shadow shape field (R202). -/
  | shw (xa eng sh field : Nat)
  /-- Select a current mask (R194). -/
  | ksel (vs ka : Nat)
  /-- Broadcast a scalar (R204). -/
  | xbc (d xa k : Nat)
  /-- Set a scale pointer (R239). -/
  | mscl (xa side grp : Nat)
  /-- Load the sampling parameters (R406). -/
  | samcfgPar (xd xa : Nat)
  /-- Set VOCAB and FMT (R406). -/
  | samcfgVoc (xd xa : Nat)
  /-- Set the mask (R406). -/
  | samcfgMask (xd xa : Nat)
  /-- Set seed and id (R406). -/
  | samcfgSeed (xd xa xb : Nat)
  /-- Sample a row (R406). -/
  | sample (xd xa xb k : Nat)
  /-- Write the legal bitmap (R406). -/
  | maskg (xd xa xb : Nat)
  /-- Write the legal bitmap of the shadow (R406). -/
  | maskgSh (xd xb : Nat)
  /-- Advance a grammar state (R406). -/
  | pdaadv (xd xa xb : Nat)
  /-- Load the shadow (R406). -/
  | pdaadvLd (xd xa : Nat)
  /-- Advance the shadow (R406). -/
  | pdaadvSh (xd xb : Nat)
  /-- Finish a job (R406). -/
  | tokw (xd xa xb : Nat)
  /-- Binary floating point (R208). -/
  | fadd (u : VUnit) (d a b : Nat)
  /-- Binary floating point (R208). -/
  | fsub (u : VUnit) (d a b : Nat)
  /-- Binary floating point (R208). -/
  | fmul (u : VUnit) (d a b : Nat)
  /-- Binary floating point (R208). -/
  | fmin (u : VUnit) (d a b : Nat)
  /-- Binary floating point (R208). -/
  | fmax (u : VUnit) (d a b : Nat)
  /-- Fused multiply-add (R209). -/
  | fma (u : VUnit) (d a b c : Nat)
  /-- Fused multiply-subtract (R209). -/
  | fms (d a b c : Nat)
  /-- Fused negative multiply-add (R209). -/
  | fnma (d a b c : Nat)
  /-- Unary floating point (R210). -/
  | funa (u : VUnit) (d a fn : Nat)
  /-- Integer add (R211). -/
  | iadd (u : VUnit) (d a b : Nat)
  /-- Integer operation (R211). -/
  | isub (d a b : Nat)
  /-- Integer operation (R211). -/
  | imul (d a b : Nat)
  /-- Integer operation (R211). -/
  | iand (d a b : Nat)
  /-- Integer operation (R211). -/
  | ior (d a b : Nat)
  /-- Integer operation (R211). -/
  | ixor (d a b : Nat)
  /-- Integer operation (R211). -/
  | ishl (d a b : Nat)
  /-- Integer operation (R211). -/
  | ishr (d a b : Nat)
  /-- Integer operation (R211). -/
  | isra (d a b : Nat)
  /-- Integer operation (R211). -/
  | imin (d a b : Nat)
  /-- Integer operation (R211). -/
  | imax (d a b : Nat)
  /-- Floating-point compare (R212). -/
  | fcmp (u : VUnit) (kd a b cc : Nat)
  /-- Integer compare (R212). -/
  | icmp (u : VUnit) (kd a b cc : Nat)
  /-- Mask logic (R213). -/
  | klog (kd ka kb o : Nat)
  /-- Lane select (R214). -/
  | vsel (u : VUnit) (d a b k : Nat)
  /-- Convert (R215). -/
  | cvt (u : VUnit) (d a b kind m : Nat)
  /-- Move (R216). -/
  | vmov (u : VUnit) (d a : Nat)
  /-- Immediate (R216). -/
  | vimm (d k imm : Nat)
  /-- Lane broadcast (R216). -/
  | vlane (d a lane : Nat)
  /-- Scratchpad load (R217). -/
  | vld (d xa off : Nat)
  /-- Scratchpad store (R217). -/
  | vst (a xa off : Nat)
  /-- Park a register (R206). -/
  | park (v : Nat)
  /-- Unpark a register (R206). -/
  | unpark (v : Nat)
  /-- Special-function seed (R221). -/
  | sfseed (d a fn : Nat)
  /-- Special-function step (R221). -/
  | sfstep (d a b fn : Nat)
  /-- Load a seed table (R223). -/
  | sftld (xa fn : Nat)
  /-- Row sum (R225). -/
  | rowsum (d a : Nat)
  /-- Row maximum (R225). -/
  | rowmax (d a : Nat)
  /-- Row statistics (R226). -/
  | rowstat (d a b fn : Nat)
  /-- Soft-maximum update (R227). -/
  | smxup (d a b fn : Nat)
  /-- Soft-maximum correction (R228). -/
  | smxfix (d a b : Nat)
  /-- Gather across lanes (R229). -/
  | vperm (d a b : Nat)
  /-- Fixed shuffle (R230). -/
  | vshuf (d a b fn : Nat)
  /-- Prefix (R231). -/
  | vpfx (d a fn : Nat)
  /-- Reduction (R232). -/
  | vred (d a fn : Nat)
  /-- Partial top-k (R233). -/
  | topkp (d a b fn : Nat)
  /-- Power-of-two scale (R234). -/
  | vscl (d a b : Nat)
  /-- Push a stationary row (R244). -/
  | push (a fmt row : Nat)
  /-- One beat (R245). -/
  | shift (a fmt bank row h : Nat)
  /-- Accumulate (R247). -/
  | acc (a bank row h : Nat)
  /-- Drain a half row (R247). -/
  | drain (d bank row h clr : Nat)
  /-- Clear rows (R248). -/
  | mclr (bank row nr : Nat)
  /-- Read a half row (R247). -/
  | acrd (d bank row h : Nat)
  /-- Write a half row (R247). -/
  | acwr (a bank row h : Nat)
  /-- Load the operator program (R254). -/
  | zop (xa : Nat)
  /-- Scan phase (R259). -/
  | sloc (sh sw rev a : Nat)
  /-- Scan phase (R259). -/
  | sup (sh sw rev a : Nat)
  /-- Scan phase (R259). -/
  | sdn (sh sw rev a : Nat)
  /-- Scan phase (R259). -/
  | scry (sh sw rev a : Nat)
  /-- Scan phase (R259). -/
  | sapl (sh sw rev a : Nat)
  /-- Row of a slot := vector (R272). -/
  | zld (a z row : Nat)
  /-- Vector := row of a slot (R272). -/
  | zrd (d z row : Nat)
  /-- Clear a slot (R272). -/
  | zclr (zd : Nat)
  /-- Copy a slot (R272). -/
  | zmov (zd za : Nat)
  /-- Advance a state tile (R274). -/
  | step (z a b : Nat)
  /-- Advance into the next slot (R274). -/
  | stepSpec (z a b : Nat)
  /-- Read the state out (R276). -/
  | sdot (d z c : Nat)
  /-- Tensor command (R288). -/
  | copy (node sh sw xa : Nat)
  /-- Tensor command (R288). -/
  | gath (node sh sw xa : Nat)
  /-- Tensor command (R288). -/
  | scat (node sh sw xa : Nat)
  /-- Scatter-accumulate (R290). -/
  | scacc (node sh sw xa fn : Nat)
  /-- Atomic (R291). -/
  | amo (node xa fn : Nat)
  /-- Prefetch (R292). -/
  | pref (node xa fn : Nat)
  /-- Write a range back (R292). -/
  | rgwb (node xa : Nat)
  /-- Invalidate a range (R292). -/
  | rginv (node xa : Nat)
  /-- Wait for a node (R283). -/
  | xwt (node : Nat)
  /-- Bench transmit (R294). -/
  | btx (a tile : Nat)
  /-- Bench select (R294). -/
  | bsel (d tile : Nat)
  /-- Spill slots (R278). -/
  | zspl (node xa : Nat)
  /-- Copy slots out (R278). -/
  | zsplCopy (node xa : Nat)
  /-- Fill slots (R278). -/
  | zfil (node xa : Nat)
  /-- Remote load (R417). -/
  | rld (d xa : Nat)
  /-- Remote store (R417). -/
  | rst (a xa : Nat)
  /-- Collective write (R420). -/
  | coll (node sh sw xa fn : Nat)
  /-- Post a sampling job (R370). -/
  | smpq (node xa : Nat)
  /-- Flock lookup (R378). -/
  | flkq (node xa fn : Nat)
  /-- Set a watchpoint (R394). -/
  | wpset (node xa : Nat)
  /-- Clear watchpoints (R394). -/
  | wpclr (node xa : Nat)
  /-- Ask for grammar masks (R407). -/
  | mskq (node xa : Nat)
  /-- A BRT TREE word chooses one of five leaves per tile from its predicate tests and may redirect fetch to an armed branch target (R27). -/
  | tree (al t1 t2 t3 t4 : Nat)
  /-- A BRT SEQ word applies begin and end marks, first/last suppression and slot alignment for one loop-sequencer level (R33). -/
  | seq (align lf lvl beg fin : Nat)
  /-- A fixed-latency result or other effect due at bundle m lands once every slot of the core has issued or passed every bundle below m (R43). -/
  | resultLanding (core : Nat)
  /-- An interlocked result arrives in its pending destination no earlier than its minimum latency, and waiting readers proceed (R44). -/
  | interlockedArrival (core : Nat)
  /-- When every result of a halting core has landed or arrived, the core enters halted (R167). -/
  | haltDrainDone (core : Nat)
  /-- Once all results, interlocked destinations and XFR nodes of an ending core are done, its plane empties and the core retires (R142). -/
  | endDrainDone (core : Nat)
  /-- When all results have landed and the shadow plane is ready, the planes swap and fetch resumes at address 0 of the next section (R143). -/
  | planeSwap (core : Nat)
  /-- The last bundle of a section is written into the shadow plane over the plane-load network, making it shadow-ready (R134). -/
  | planeLoadDone (core : Nat)
  /-- At a trap point, results due land, others enter the snapshot, trap registers are written, registers are banked and fetch begins at the handler entry (R344). -/
  | trapEntry (core cause reason arg dmask slot : Nat)
  /-- A write or AMO to a monitored line, loss of the entry or a restore sets EVENT and wakes a sleeper (R321). -/
  | waitmWake (unit line : Nat)
  /-- The WAITM deadline in package time passes and the sleeping tile wakes (R320). -/
  | waitmTimeout (unit : Nat)
  /-- A destination row of a counting COPY lands or reaches home and its bytes are subtracted from the barrier's EXP (R314). -/
  | barrierCount (unit node bytes : Nat)
  /-- One cycle after completion the barrier object inverts PHASE and clears ARR and EXP (R314). -/
  | barrierFlip (kern scope inst bid : Nat)
  /-- After the scope's completion delay, participants see the phase complete and held BARW cores continue (R312). -/
  | barrierCompletionSeen (kern scope inst bid : Nat)
  /-- The drain before a suspension point completes, acting as a release at .pkg, and the suspension takes effect (R186). -/
  | suspensionDrainDone (core : Nat)
  /-- A suspended core pops or steals a record and starts it as a group switch, or appends a regroup record to the held list (R185). -/
  | pickUp (core : Nat)
  /-- When all non-retired cores are suspended with empty deques and a held record exists, every core starts the oldest held record (R179). -/
  | regroup (kern : Nat)
  /-- When all cores are retired or suspended with empty deques and held list, the group retires (R180). -/
  | groupRetire (kern : Nat)
  /-- Once all cores have drained and all jobs are ready, lanes are committed, records admitted, the bucket chosen and the cores resumed (R374). -/
  | iterationBoundary (kern : Nat)
  /-- A write to WAKE or STOP wakes an idle loop kernel sleeping at a boundary with no live lane (R374). -/
  | loopWake (kern : Nat)
  /-- When every participant has reached a phase, settings words are compared and the phase issues on all or raises ILLEGAL (R258). -/
  | scanRendezvous (core : Nat)
  /-- For P > 1 the package-level carries arrive and SCRY's summary, prefix and absent bits land (R266). -/
  | scryCarryArrival (kern inst : Nat)
  /-- A running engine node finishes its accesses and release, applies flags, ends its bank reservation, writes STATUS and credits successors (R282). -/
  | nodeComplete (unit node : Nat)
  /-- A free Colt takes the oldest queued job, samples its rows, computes K0 and sets READY (R371). -/
  | samplingJob (colt : Nat)
  /-- A target serves an arriving RLD or RST request in the peer context and replies with data, acknowledge or error (R416). -/
  | remoteRequestServe (src kind tag va size cid data : Nat)
  /-- A data, acknowledge or error reply reaches the initiator and completes its RLD or RST (R417). -/
  | remoteReply (req okay data : Nat)
  /-- A request unanswered after LTO is completed as an error by the initiator's link unit (R415). -/
  | remoteTimeout (req : Nat)
  /-- A peer performs an arriving COLL message into memory, bumps its counter if CNT is set and acknowledges (R421). `dst` holds DST in
  its low 56 bits; bit 56 is set for the share of an interleaved split, and the bits above say how far past DST the share starts. -/
  | collMessage (src tag fn fmt cnt dst cid size data : Nat)
  /-- A carry flit delivers a scan summary pair exactly one hop after sending (R422). -/
  | carryFlit (kern inst level pos absent data : Nat)
  /-- A pod-barrier arrive message reaches a parent, which forwards or completes the phase when its share and children are done (R423). -/
  | podArrive (kern bid phase rank : Nat)
  /-- A pod-barrier complete message reaches a device, whose local part flips and is passed down the tree (R423). -/
  | podComplete (kern bid phase : Nat)
  /-- A flit that fails its CRC is replayed from the sender's replay buffer (R411). -/
  | flitReplay (port : Nat)
  /-- An enabled port trains with its named peer and becomes UP (R427). -/
  | portUp (port : Nat)
  /-- A doorbell write makes the front end read the queue's WPTR, readying or marking its gang (R111). -/
  | doorbell (val : Nat)
  /-- The front end maps a gang with pending packets into free hardware slots, unmapping or pre-empting others if needed (R110). -/
  | gangMap (gang : Nat)
  /-- Each full 10 ms without dispatch raises a ready gang's effective priority by one (R114). -/
  | priorityAging (gang : Nat)
  /-- A running gang's quantum expires and its context is pre-empted if a gang of equal or higher priority waits on its cores (R115). -/
  | quantumExpiry (gang : Nat)
  /-- When all named cores are shadow-ready and free, flag presets are written and the group is released on a common cycle (R138). -/
  | groupRelease (kern : Nat)
  /-- A graph node completes, decrementing successors' counts and dispatching ready nodes or ending the replay (R125). -/
  | graphNodeComplete (pkt : Nat)
  /-- When every lease and hold on the range has ended, caches are purged, the range is released and the packet completes (R330). -/
  | unmapDrainDone (cid : Nat)
  /-- A write or AMO to a waited line makes the WAIT comparison hold and the packet completes OK (R119). -/
  | waitSatisfied (pkt : Nat)
  /-- TIMEOUT microseconds pass and the WAIT completes with TIMEOUT (R119). -/
  | waitTimeout (pkt : Nat)
  /-- A packet completes and its completion record and interrupt are written and raised if requested (R120). -/
  | packetComplete (pkt : Nat)
  /-- The hub stops every core of a context at a stop cycle and the snapshot and save sections are written (R356). -/
  | preemptStop (cid : Nat)
  /-- The save area is complete and the context enters pre-empted or faulted (R104). -/
  | saveComplete (cid : Nat)
  /-- Once the gang is mapped and saved cores are free, the scheduler restores a pre-empted context (R456). -/
  | contextRestore (cid : Nat)
  /-- After planes, slots, registers and hub state are reloaded, every core resumes on one cycle and snapshot entries replay (R357). -/
  | restoreResume (cid : Nat)
  /-- A snapshot entry lands at B + REM with its flags and counts applied then (R354). -/
  | snapshotReplay (core : Nat)
  /-- At the checkpoint interval the Mule copies every live or loaded slot into the next checkpoint bank (R279). -/
  | checkpoint (cid : Nat)
  /-- The Mule writes images and directory, releases at .pkg and writes DONE (R279). -/
  | checkpointDone (cid : Nat)
  /-- A Mule spill, fill or copy finishes and the slots take their new states (R278). -/
  | muleTransferComplete (unit node : Nat)
  /-- A page walk completes, filling the TLB with a leased translation or raising a fault (R324). -/
  | pageWalk (unit va kind : Nat)
  /-- A cached translation's expiry passes and it is treated as absent (R326). -/
  | leaseExpiry (unit va : Nat)
  /-- The firmware maps a zeroed pool frame for an absent level-0 page and resumes the trapped core (R334). -/
  | hwFaultService (core : Nat)
  /-- DCMD STEP advances a core by one bundle number and halts it again (R359). -/
  | debugStep (core all : Nat)
  /-- DCMD WITHDRAW cancels a pending step (R359). -/
  | debugWithdraw (core all : Nat)
  /-- A DDATA write stores 8 bytes at DADDR under invasive rights and advances DADDR (R436). -/
  | ddataWrite (val : Nat)
  /-- A DCTX write selects the debugged context and sets or clears ATTACH, continuing a halted context on clear (R436). -/
  | dctxWrite (val : Nat)
  /-- A DREQ write lowers the debug state, or raises it if DBGTOK holds a valid signature (R430). -/
  | dbgctlDreq (val : Nat)
  /-- A write of ATTNONCE's last byte makes the security processor write a signed attestation report (R439). -/
  | attestationRequest (val : Nat)
  /-- A FREQ write differing from FREQNOW starts a frequency-step handshake (R432). -/
  | pwrctlFreq (val : Nat)
  /-- A COLTGT write requests a slice-column mask change (R433). -/
  | pwrctlColtgt (val : Nat)
  /-- The firmware darkens columns whose slices served no access for 1 ms (R433). -/
  | columnDarkenIdle (mask : Nat)
  /-- An access missing to a dark column makes the firmware relight it (R433). -/
  | columnRelight (pa : Nat)
  /-- A write to a management register with no behaviour of its own updates its fields under their access codes (R426). -/
  | mgmtRegisterWrite (off val : Nat)
  /-- An ACQ, REL or FENCE completes on every tile where it issued once its invalidations are done, or once its loads have returned, its writes have reached home and its sync-word step is done, releasing the hold on bundle n+1 (R310). -/
  | acqRelFenceComplete (core : Nat)
  /-- Queue-program ADD (R128). -/
  | qAdd (d a b : Nat)
  /-- Queue-program SUB (R128). -/
  | qSub (d a b : Nat)
  /-- Queue-program AND (R128). -/
  | qAnd (d a b : Nat)
  /-- Queue-program OR (R128). -/
  | qOr (d a b : Nat)
  /-- Queue-program XOR (R128). -/
  | qXor (d a b : Nat)
  /-- Queue-program shift left by qb & 63 (R128). -/
  | qShl (d a b : Nat)
  /-- Queue-program logical shift right by qb & 63 (R128). -/
  | qShr (d a b : Nat)
  /-- Queue-program unsigned minimum (R128). -/
  | qMinu (d a b : Nat)
  /-- Queue-program add of a signed 14-bit immediate (R128). -/
  | qAddi (d a imm : Nat)
  /-- Queue-program AND with a zero-extended immediate (R128). -/
  | qAndi (d a imm : Nat)
  /-- Queue-program OR with a zero-extended immediate (R128). -/
  | qOri (d a imm : Nat)
  /-- Queue-program shift left by an immediate (R128). -/
  | qShli (d a imm : Nat)
  /-- Queue-program logical shift right by an immediate (R128). -/
  | qShri (d a imm : Nat)
  /-- Queue-program load of a signed 22-bit immediate (R128). -/
  | qLi (d imm : Nat)
  /-- Queue-program load of 8 bytes from a window (R128). -/
  | qLdw (d a win imm : Nat)
  /-- Queue-program store of 8 bytes into the pkt or st window (R128). -/
  | qStw (d a win imm : Nat)
  /-- Queue-program forward branch if equal (R128). -/
  | qBeq (a b imm : Nat)
  /-- Queue-program forward branch if not equal (R128). -/
  | qBne (a b imm : Nat)
  /-- Queue-program forward branch if unsigned less (R128). -/
  | qBltu (a b imm : Nat)
  /-- Queue-program forward branch if unsigned greater or equal (R128). -/
  | qBgeu (a b imm : Nat)
  /-- Queue-program forward jump (R128). -/
  | qJmp (imm : Nat)
  /-- Queue-program bounded loop over the next LEN words (R128). -/
  | qLoop (d mx len : Nat)
  /-- Queue-program read of package time (R128). -/
  | qPtim (d : Nat)
  /-- Queue-program end that completes the packet SKIPPED without dispatch (R128). -/
  | qSkip (imm : Nat)
  /-- Queue-program end that completes the packet PROG_FAIL and puts the queue in error (R128). -/
  | qFail (imm : Nat)
  /-- Stop the core (R167). -/
  | halt
  /-- End the kernel on the core (R142). -/
  | kend
  /-- Return (R166). -/
  | ret
  /-- Return from the handler (R349). -/
  | eret
  /-- Suspend (R188). -/
  | susp
  /-- Yield (R188). -/
  | yield_
  /-- End the iteration (R373). -/
  | commit
  /-- Enter the next section (R143). -/
  | plsw
  /-- Exchange the planes (R246). -/
  | axch
  /-- Device reset sets PTIME to 0, the security and locked debug states and all reset register values (R16). -/
  | deviceReset
  /-- A reserved request slot at a target frees and the next queued remote request is sent (R413). -/
  | linkQueueGrant
  /-- The front end picks a ready queue by priority and dispatches its head packet after queue program and handle dependencies (R113). -/
  | packetDispatch
  /-- LAUNCH reads the kernel image and starts loading section 0 of each named core (R137). -/
  | launch
  /-- LOOPL launches a loop kernel with its sequence table, buckets and vocabulary size (R361). -/
  | loopl
  /-- The COPY packet copies a memory range between handles (R118). -/
  | packetCopy
  /-- GRAPHR replays a task graph using the current parameter version (R125). -/
  | graphr
  /-- GRAPHP patches a node's parameters into a version buffer and increments VERSION (R126). -/
  | graphp
  /-- BIND writes or clears a region-table entry binding a region to a sync word (R300). -/
  | bind
  /-- UNMAP marks a range, clears its leaf entries and begins waiting for leases and holds to end (R330). -/
  | unmap
  /-- SIGNAL, after earlier packets complete, stores, adds or maxes a word through its atomic unit with a .pkg release (R119). -/
  | signal
  /-- WAIT blocks its queue until a memory word satisfies a comparison (R119). -/
  | wait
  /-- CREATE makes a context with its root, save area and registers and returns its CID (R94). -/
  | ctxcCreate
  /-- DESTROY stops the context, cancels its packets and completes once nothing of it writes memory (R105). -/
  | ctxcDestroy
  /-- SET writes one context register (R121). -/
  | ctxcSet
  /-- RESUME moves a faulted context to pre-empted (R105). -/
  | ctxcResume
  /-- CKPT sets the checkpoint area and interval or takes a checkpoint now (R279). -/
  | ctxcCkpt
  /-- QCREATE creates a software queue in a gang and returns its number (R109). -/
  | ctxcQcreate
  /-- QDESTROY destroys a queue, cancelling its undispatched packets (R112). -/
  | ctxcQdestroy
  /-- QPROG loads and verifies a queue program, replacing the old one or refusing with a reason (R127). -/
  | ctxcQprog
  /-- QRESET takes a queue out of error past its faulting packet (R112). -/
  | ctxcQreset
  /-- GMAP maps a gang into hardware queue slots on host request (R110). -/
  | ctxcGmap
  /-- GUNMAP unmaps a gang, saving each queue's position and program registers (R110). -/
  | ctxcGunmap
  /-- HDROP frees a buffer-handle entry once no packet naming it is pending (R122). -/
  | ctxcHdrop
  /-- FPOOL adds, replaces or withdraws frames of the context's page-fault frame pool (R335). -/
  | ctxcFpool
  /-- A Mule fork copy of a parent slot to a child slot completes (R389). -/
  | forkCopyDone
  /-- After a trapped sequence's slots are spilled, the firmware posts a sequence-trap record and bumps TRAPN (R390). -/
  | sequenceTrapPost
  /-- DCMD HALT freezes every core of the context and takes snapshots (R358). -/
  | debugHalt
  /-- DCMD CONTINUE resumes the halted context's cores under snapshot replay (R358). -/
  | debugContinue
  /-- A DDATA read returns 8 bytes at DADDR in the chosen debug space and advances DADDR (R436). -/
  | ddataRead
  /-- FWCTL LOAD copies a firmware image beside the running one and starts verification (R438). -/
  | fwLoad
  /-- Verification ends with the image ready or discarded with an error code (R438). -/
  | fwVerifyDone
  /-- FWCTL COMMIT enters the committing phase of a hand-over (R438). -/
  | fwCommit
  /-- FWCTL ABORT discards a pending image in phase 1 or 2 (R438). -/
  | fwAbort
  /-- At the first cycle with no packet in the interpreter, the layout test repeats and the new firmware takes over (R438). -/
  | fwCommitPoint
  /-- At stop cycle S every C-die gates its clock and acknowledges the stall (R12). -/
  | frequencyStall
  /-- The PLL relocks at the new frequency and the hub releases the gate on a common resume cycle (R12). -/
  | pllRelock
  /-- Power over 2,200 W or a die over 100 C makes the governor step the frequency down and set GOV (R432). -/
  | governorStepDown
  /-- After 10 ms below both limits the governor steps the frequency back up one step (R432). -/
  | governorStepUp
  /-- A die reaching 110 C makes the device fence itself (R432). -/
  | thermalFence
  /-- In a package-wide stall, moved lines are written back and invalidated and COLMASK changes on every die (R338). -/
  | columnChange
  /-- With IDLE set and no context running the device enters idle (R434). -/
  | enterIdle
  /-- From idle with SR set the device enters HBM self-refresh (R434). -/
  | enterSelfRefresh
  /-- A doorbell, dispatch or IDLE clear returns the device to active within 10 us (R434). -/
  | wakeToActive
  /-- A failed tile, a failed stack, peer or hub port, or a failed stack fences the device at system level, and it takes no further work (R7). -/
  | failedUnitFence
  /-- Queue-program end that dispatches the pkt window as the packet (R128). -/
  | qDone
  deriving DecidableEq, Repr

end Sys2Proof
end

