-- ==== Sys2Proof/WellFormed.lean ====
section
/-! DEFINITION. Which instructions are well formed: every field in the range the spec gives it (R51 to R54, R200, R202,
R210, R215, R219, R221, R223, R230, R244, R291). -/
namespace Sys2Proof

/-- A written predicate is p6 to p127 (R52). -/
def predOk (pd : Nat) : Bool := decide (6 ≤ pd) && decide (pd < 128)

/-- A vector destination with WS clear names v0–v39 or w0–w7 (R37). -/
def dstOk (d : Nat) : Bool := decide (64 ≤ d) || decide (d < 48)

/-- The assigned system registers (R162). -/
def csrKnown (n : Nat) : Bool :=
  [0x000, 0x001, 0x002, 0x003, 0x008, 0x010, 0x011, 0x012, 0x013, 0x014, 0x020, 0x021, 0x022, 0x023, 0x024,
   0x030, 0x031, 0x032, 0x033, 0x040, 0x041, 0x042, 0x050, 0x051].contains n

/-- The fields WCFG writes (R199). -/
def walkerFieldOk (f : Nat) : Bool :=
  decide (f ≤ 2) || (decide (16 ≤ f) && decide (f ≤ 21)) || (decide (24 ≤ f) && decide (f ≤ 29))

/-- The fields of a shape record that an engine has (R200, R202). -/
def shapeFieldOk (eng f : Nat) : Bool := decide (f ≤ 10) || (decide (eng = 1) && decide (11 ≤ f) && decide (f ≤ 14))

/-- The rows of the stationary operand in a format (R244). -/
def matK (fmt : Nat) : Nat :=
  match fmt with
  | 0 => 192
  | 1 => 128
  | 2 => 96
  | _ => 48

/-- The kinds of CVT with their source B and mode (R215). -/
def cvtOk (kind m b : Nat) : Bool :=
  (decide (kind ≤ 1) && decide (b = 0)) || decide (kind = 2)
    || ((decide (kind = 3) || decide (kind = 4)) && decide (b = 0) && decide (m = 0))

/-- The functions SFTLD loads a table for (R223). -/
def sftldOk (fn : Nat) : Bool := decide (fn = 0) || decide (fn = 1) || decide (fn = 3) || decide (fn = 5)

/-- The patterns of VSHUF; the xor patterns have no B (R230). -/
def vshufOk (fn b : Nat) : Bool := decide (fn ≤ 4) || (decide (8 ≤ fn) && decide (fn ≤ 14) && decide (b = 0))

/-- The operations of AMO: FN 10 needs the 32-bit width (R291). -/
def amoOk (fn : Nat) : Bool :=
  decide (fn < 32) && decide (fn % 16 ≤ 11) && (decide (fn % 16 ≠ 10) || decide (16 ≤ fn))


/-- Every field in the range its encoding and its home chapter give (R52 to R54); an event is well formed as it stands. -/
def Instr.wf (i : Instr) : Bool :=
  match i with
  | .halt => true
  | .kend => true
  | .btgt j addr => decide (j < 4) && decide (addr < 2048)
  | .call addr => decide (addr < 2048)
  | .ret => true
  | .loop lvl xc => decide (lvl < 8) && decide (xc < 32) && decide (lvl ≤ 5)
  | .loopS0 lvl xc xr => decide (lvl < 8) && decide (xc < 32) && decide (xr < 32) && decide (lvl ≤ 5)
  | .loopS1 lvl xc xr => decide (lvl < 8) && decide (xc < 32) && decide (xr < 32) && decide (lvl ≤ 5)
  | .scmp pd xa xb cc => decide (pd < 128) && decide (xa < 32) && decide (xb < 32) && decide (cc < 8)
    && decide (cc ≤ 5) && (predOk pd)
  | .scmpi pd xa cc imm => decide (pd < 128) && decide (xa < 32) && decide (cc < 8) && decide (imm < 512)
    && decide (cc ≤ 5) && (predOk pd)
  | .plog pd pa pb o => decide (pd < 128) && decide (pa < 128) && decide (pb < 128) && decide (o < 8)
    && decide (o ≤ 6) && (predOk pd)
  | .pmov pd pa => decide (pd < 128) && decide (pa < 128) && (predOk pd)
  | .pseti pd v => decide (pd < 128) && decide (v < 2) && (predOk pd)
  | .csrr xd csr => decide (xd < 32) && decide (csr < 4096) && (csrKnown csr)
  | .csrw xs csr => decide (xs < 32) && decide (csr < 4096) && (csrKnown csr)
  | .csrs xs csr => decide (xs < 32) && decide (csr < 4096) && (csrKnown csr)
  | .trap code info => decide (code < 256) && decide (info < 65536) && decide (1 ≤ code) && decide (code ≤ 14)
  | .eret => true
  | .rstkr xd idx => decide (xd < 32) && decide (idx < 16)
  | .rstkw xs idx => decide (xs < 32) && decide (idx < 16)
  | .brk info => decide (info < 65536)
  | .waitm xa xb => decide (xa < 32) && decide (xb < 32)
  | .barv scope bid => decide (scope < 8) && decide (bid < 256) && decide (1 ≤ scope) && decide (scope ≤ 5)
  | .barw scope bid => decide (scope < 8) && decide (bid < 256) && decide (1 ≤ scope) && decide (scope ≤ 5)
  | .bart scope bid pd => decide (scope < 8) && decide (bid < 256) && decide (pd < 128) && decide (1 ≤ scope)
    && decide (scope ≤ 5) && (predOk pd)
  | .fork xa => decide (xa < 32)
  | .join xa => decide (xa < 32)
  | .steal pd => decide (pd < 128) && (predOk pd)
  | .susp => true
  | .yield_ => true
  | .trdy pd xa => decide (pd < 128) && decide (xa < 32) && (predOk pd)
  | .commit => true
  | .plsw => true
  | .add xd xa xb => decide (xd < 32) && decide (xa < 32) && decide (xb < 32)
  | .sub xd xa xb => decide (xd < 32) && decide (xa < 32) && decide (xb < 32)
  | .mul xd xa xb => decide (xd < 32) && decide (xa < 32) && decide (xb < 32)
  | .mulh xd xa xb => decide (xd < 32) && decide (xa < 32) && decide (xb < 32)
  | .and_ xd xa xb => decide (xd < 32) && decide (xa < 32) && decide (xb < 32)
  | .or_ xd xa xb => decide (xd < 32) && decide (xa < 32) && decide (xb < 32)
  | .xor_ xd xa xb => decide (xd < 32) && decide (xa < 32) && decide (xb < 32)
  | .shl xd xa xb => decide (xd < 32) && decide (xa < 32) && decide (xb < 32)
  | .shr xd xa xb => decide (xd < 32) && decide (xa < 32) && decide (xb < 32)
  | .sra xd xa xb => decide (xd < 32) && decide (xa < 32) && decide (xb < 32)
  | .min_ xd xa xb => decide (xd < 32) && decide (xa < 32) && decide (xb < 32)
  | .max_ xd xa xb => decide (xd < 32) && decide (xa < 32) && decide (xb < 32)
  | .addi xd xa imm => decide (xd < 32) && decide (xa < 32) && decide (imm < 16384)
  | .lui xd imm => decide (xd < 32) && decide (imm < 524288)
  | .sel xd xa xb ps => decide (xd < 32) && decide (xa < 32) && decide (xb < 32) && decide (ps < 128)
  | .dsel xd xa => decide (xd < 32) && decide (xa < 32) && decide (xa ≤ 28)
  | .ld xd xa w off => decide (xd < 32) && decide (xa < 32) && decide (w < 8) && decide (off < 2048)
    && decide (w ≤ 6)
  | .st xs xa w off => decide (xs < 32) && decide (xa < 32) && decide (w < 8) && decide (off < 2048)
    && decide (w ≤ 3)
  | .acq scope xa => decide (scope < 8) && decide (xa < 32) && decide (scope ≤ 5)
  | .rel scope xa => decide (scope < 8) && decide (xa < 32) && decide (scope ≤ 5)
  | .fence scope => decide (scope < 8) && decide (scope ≤ 5)
  | .wcfg xa port field => decide (xa < 32) && decide (port < 8) && decide (field < 256) && (walkerFieldOk field)
  | .shw xa eng sh field => decide (xa < 32) && decide (eng < 4) && decide (sh < 4) && decide (field < 128)
    && decide (eng ≤ 2) && (shapeFieldOk eng field)
  | .ksel vs ka => decide (vs < 4) && decide (ka < 8) && decide (vs ≤ 1)
  | .xbc d xa k => decide (d < 128) && decide (xa < 32) && decide (k < 4) && decide (k ≤ 2) && (dstOk d)
  | .mscl xa side grp => decide (xa < 32) && decide (side < 2) && decide (grp < 8)
  | .samcfgPar xd xa => decide (xd < 32) && decide (xa < 32)
  | .samcfgVoc xd xa => decide (xd < 32) && decide (xa < 32)
  | .samcfgMask xd xa => decide (xd < 32) && decide (xa < 32)
  | .samcfgSeed xd xa xb => decide (xd < 32) && decide (xa < 32) && decide (xb < 32)
  | .sample xd xa xb k => decide (xd < 32) && decide (xa < 32) && decide (xb < 32) && decide (k < 16)
  | .maskg xd xa xb => decide (xd < 32) && decide (xa < 32) && decide (xb < 32)
  | .maskgSh xd xb => decide (xd < 32) && decide (xb < 32)
  | .pdaadv xd xa xb => decide (xd < 32) && decide (xa < 32) && decide (xb < 32)
  | .pdaadvLd xd xa => decide (xd < 32) && decide (xa < 32)
  | .pdaadvSh xd xb => decide (xd < 32) && decide (xb < 32)
  | .tokw xd xa xb => decide (xd < 32) && decide (xa < 32) && decide (xb < 32)
  | .fadd _ d a b => decide (d < 128) && decide (a < 64) && decide (b < 64) && (dstOk d)
  | .fsub _ d a b => decide (d < 128) && decide (a < 64) && decide (b < 64) && (dstOk d)
  | .fmul _ d a b => decide (d < 128) && decide (a < 64) && decide (b < 64) && (dstOk d)
  | .fmin _ d a b => decide (d < 128) && decide (a < 64) && decide (b < 64) && (dstOk d)
  | .fmax _ d a b => decide (d < 128) && decide (a < 64) && decide (b < 64) && (dstOk d)
  | .fma _ d a b c => decide (d < 128) && decide (a < 64) && decide (b < 64) && decide (c < 32) && (dstOk d)
  | .fms d a b c => decide (d < 128) && decide (a < 64) && decide (b < 64) && decide (c < 32) && (dstOk d)
  | .fnma d a b c => decide (d < 128) && decide (a < 64) && decide (b < 64) && decide (c < 32) && (dstOk d)
  | .funa _ d a fn => decide (d < 128) && decide (a < 64) && decide (fn < 32) && decide (fn ≤ 6) && (dstOk d)
  | .iadd _ d a b => decide (d < 128) && decide (a < 64) && decide (b < 64) && (dstOk d)
  | .isub d a b => decide (d < 128) && decide (a < 64) && decide (b < 64) && (dstOk d)
  | .imul d a b => decide (d < 128) && decide (a < 64) && decide (b < 64) && (dstOk d)
  | .iand d a b => decide (d < 128) && decide (a < 64) && decide (b < 64) && (dstOk d)
  | .ior d a b => decide (d < 128) && decide (a < 64) && decide (b < 64) && (dstOk d)
  | .ixor d a b => decide (d < 128) && decide (a < 64) && decide (b < 64) && (dstOk d)
  | .ishl d a b => decide (d < 128) && decide (a < 64) && decide (b < 64) && (dstOk d)
  | .ishr d a b => decide (d < 128) && decide (a < 64) && decide (b < 64) && (dstOk d)
  | .isra d a b => decide (d < 128) && decide (a < 64) && decide (b < 64) && (dstOk d)
  | .imin d a b => decide (d < 128) && decide (a < 64) && decide (b < 64) && (dstOk d)
  | .imax d a b => decide (d < 128) && decide (a < 64) && decide (b < 64) && (dstOk d)
  | .fcmp _ kd a b cc => decide (kd < 8) && decide (a < 64) && decide (b < 64) && decide (cc < 16)
    && decide (cc ≤ 7)
  | .icmp _ kd a b cc => decide (kd < 8) && decide (a < 64) && decide (b < 64) && decide (cc < 16)
    && decide (cc ≤ 5)
  | .klog kd ka kb o => decide (kd < 8) && decide (ka < 8) && decide (kb < 8) && decide (o < 8) && decide (o ≤ 6)
  | .vsel _ d a b k => decide (d < 128) && decide (a < 64) && decide (b < 64) && decide (k < 8) && (dstOk d)
  | .cvt _ d a b kind m => decide (d < 128) && decide (a < 64) && decide (b < 64) && decide (kind < 8)
    && decide (m < 4) && (cvtOk kind m b) && (dstOk d)
  | .vmov _ d a => decide (d < 128) && decide (a < 64) && (dstOk d)
  | .vimm d k imm => decide (d < 128) && decide (k < 2) && decide (imm < 65536) && (dstOk d)
  | .vlane d a lane => decide (d < 128) && decide (a < 64) && decide (lane < 128) && (dstOk d)
  | .vld d xa off => decide (d < 128) && decide (xa < 32) && decide (off < 4096) && (dstOk d)
  | .vst a xa off => decide (a < 64) && decide (xa < 32) && decide (off < 4096)
  | .park v => decide (v < 64) && decide (v ≤ 39)
  | .unpark v => decide (v < 64) && decide (v ≤ 39)
  | .sfseed d a fn => decide (d < 128) && decide (a < 64) && decide (fn < 32) && decide (fn ≤ 8) && (dstOk d)
  | .sfstep d a b fn => decide (d < 128) && decide (a < 64) && decide (b < 64) && decide (fn < 32)
    && decide (fn ≤ 8) && (dstOk d)
  | .sftld xa fn => decide (xa < 32) && decide (fn < 16) && (sftldOk fn)
  | .rowsum d a => decide (d < 128) && decide (a < 64) && (dstOk d)
  | .rowmax d a => decide (d < 128) && decide (a < 64) && (dstOk d)
  | .rowstat d a b fn => decide (d < 128) && decide (a < 64) && decide (b < 64) && decide (fn < 32)
    && decide (fn ≤ 1) && (decide (fn = 1) || decide (b = 0)) && (dstOk d)
  | .smxup d a b fn => decide (d < 128) && decide (a < 64) && decide (b < 64) && decide (fn < 32)
    && decide (fn ≤ 3) && (decide (fn ≤ 1) || decide (b = 0)) && (dstOk d)
  | .smxfix d a b => decide (d < 128) && decide (a < 64) && decide (b < 64) && (dstOk d)
  | .vperm d a b => decide (d < 128) && decide (a < 64) && decide (b < 64) && (dstOk d)
  | .vshuf d a b fn => decide (d < 128) && decide (a < 64) && decide (b < 64) && decide (fn < 32) && (vshufOk fn b)
    && (dstOk d)
  | .vpfx d a fn => decide (d < 128) && decide (a < 64) && decide (fn < 32) && decide (fn ≤ 4) && (dstOk d)
  | .vred d a fn => decide (d < 128) && decide (a < 64) && decide (fn < 32) && decide (fn ≤ 8) && (dstOk d)
  | .topkp d a b fn => decide (d < 128) && decide (a < 64) && decide (b < 64) && decide (fn < 32) && (dstOk d)
  | .vscl d a b => decide (d < 128) && decide (a < 64) && decide (b < 64) && (dstOk d)
  | .push a fmt row => decide (a < 64) && decide (fmt < 4) && decide (row < 256) && decide (row < matK fmt)
  | .shift a fmt bank row h => decide (a < 64) && decide (fmt < 4) && decide (bank < 8) && decide (row < 256)
    && decide (h < 2) && decide (row ≤ 191) && (decide (h = 0) || decide (fmt ≠ 0))
  | .acc a bank row h => decide (a < 64) && decide (bank < 8) && decide (row < 256) && decide (h < 2)
    && decide (row ≤ 191)
  | .drain d bank row h clr => decide (d < 128) && decide (bank < 8) && decide (row < 256) && decide (h < 2)
    && decide (clr < 2) && decide (row ≤ 191) && decide (64 ≤ d)
  | .mclr bank row nr => decide (bank < 8) && decide (row < 256) && decide (nr < 256) && decide (row + nr ≤ 191)
  | .axch => true
  | .acrd d bank row h => decide (d < 128) && decide (bank < 8) && decide (row < 256) && decide (h < 2)
    && decide (row ≤ 191) && (dstOk d)
  | .acwr a bank row h => decide (a < 64) && decide (bank < 8) && decide (row < 256) && decide (h < 2)
    && decide (row ≤ 191)
  | .zop xa => decide (xa < 32) && decide (xa ≤ 28)
  | .sloc sh sw rev a => decide (sh < 4) && decide (sw < 2) && decide (rev < 2) && decide (a < 64)
    && decide (40 ≤ a) && decide (a ≤ 47)
  | .sup sh sw rev a => decide (sh < 4) && decide (sw < 2) && decide (rev < 2) && decide (a < 64)
    && decide (40 ≤ a) && decide (a ≤ 47)
  | .sdn sh sw rev a => decide (sh < 4) && decide (sw < 2) && decide (rev < 2) && decide (a < 64)
    && decide (40 ≤ a) && decide (a ≤ 47)
  | .scry sh sw rev a => decide (sh < 4) && decide (sw < 2) && decide (rev < 2) && decide (a < 64)
    && decide (40 ≤ a) && decide (a ≤ 47)
  | .sapl sh sw rev a => decide (sh < 4) && decide (sw < 2) && decide (rev < 2) && decide (a < 64)
    && decide (40 ≤ a) && decide (a ≤ 47)
  | .zld a z row => decide (a < 64) && decide (z < 64) && decide (row < 64)
  | .zrd d z row => decide (d < 128) && decide (z < 64) && decide (row < 64) && (dstOk d)
  | .zclr zd => decide (zd < 64)
  | .zmov zd za => decide (zd < 64) && decide (za < 64)
  | .step z a b => decide (z < 64) && decide (a < 64) && decide (b < 64)
  | .stepSpec z a b => decide (z < 64) && decide (a < 64) && decide (b < 64) && decide (z ≤ 62)
  | .sdot d z c => decide (d < 128) && decide (z < 64) && decide (c < 64) && (dstOk d)
  | .copy node sh sw xa => decide (node < 256) && decide (sh < 4) && decide (sw < 2) && decide (xa < 32)
  | .gath node sh sw xa => decide (node < 256) && decide (sh < 4) && decide (sw < 2) && decide (xa < 32)
  | .scat node sh sw xa => decide (node < 256) && decide (sh < 4) && decide (sw < 2) && decide (xa < 32)
  | .scacc node sh sw xa fn => decide (node < 256) && decide (sh < 4) && decide (sw < 2) && decide (xa < 32)
    && decide (fn < 256) && decide (fn ≤ 3)
  | .amo node xa fn => decide (node < 256) && decide (xa < 32) && decide (fn < 256) && (amoOk fn)
  | .pref node xa fn => decide (node < 256) && decide (xa < 32) && decide (fn < 256) && decide (fn ≤ 1)
  | .rgwb node xa => decide (node < 256) && decide (xa < 32)
  | .rginv node xa => decide (node < 256) && decide (xa < 32)
  | .xwt node => decide (node < 256)
  | .btx a tile => decide (a < 64) && decide (tile < 64)
  | .bsel d tile => decide (d < 128) && decide (tile < 64) && (dstOk d)
  | .zspl node xa => decide (node < 256) && decide (xa < 32)
  | .zsplCopy node xa => decide (node < 256) && decide (xa < 32)
  | .zfil node xa => decide (node < 256) && decide (xa < 32)
  | .rld d xa => decide (d < 128) && decide (xa < 32) && (dstOk d)
  | .rst a xa => decide (a < 64) && decide (xa < 32)
  | .coll node sh sw xa fn => decide (node < 256) && decide (sh < 4) && decide (sw < 2) && decide (xa < 32)
    && decide (fn < 256) && decide (fn ≤ 3)
  | .smpq node xa => decide (node < 256) && decide (xa < 32)
  | .flkq node xa fn => decide (node < 256) && decide (xa < 32) && decide (fn < 256) && decide (fn ≤ 1)
  | .wpset node xa => decide (node < 256) && decide (xa < 32)
  | .wpclr node xa => decide (node < 256) && decide (xa < 32)
  | .mskq node xa => decide (node < 256) && decide (xa < 32)
  | .tree al t1 t2 t3 t4 => decide (al < 2) && decide (t1 < 128) && decide (t2 < 128) && decide (t3 < 128) && decide (t4 < 128)
    && decide (al + t1 + t2 + t3 + t4 ≠ 0)
  | .seq align lf lvl beg fin => decide (align < 256) && decide (lf < 4) && decide (lvl ≤ 5) && decide (beg < 2) && decide (fin < 2)
  | .deviceReset => true
  | .resultLanding _ => true
  | .interlockedArrival _ => true
  | .haltDrainDone _ => true
  | .endDrainDone _ => true
  | .planeSwap _ => true
  | .planeLoadDone _ => true
  | .trapEntry _ _ _ _ _ _ => true
  | .waitmWake _ _ => true
  | .waitmTimeout _ => true
  | .barrierCount _ _ _ => true
  | .barrierFlip _ _ _ _ => true
  | .barrierCompletionSeen _ _ _ _ => true
  | .suspensionDrainDone _ => true
  | .pickUp _ => true
  | .regroup _ => true
  | .groupRetire _ => true
  | .iterationBoundary _ => true
  | .loopWake _ => true
  | .scanRendezvous _ => true
  | .scryCarryArrival _ _ => true
  | .nodeComplete _ _ => true
  | .samplingJob _ => true
  | .linkQueueGrant => true
  | .remoteRequestServe _ _ _ _ _ _ _ => true
  | .remoteReply _ _ _ => true
  | .remoteTimeout _ => true
  | .collMessage _ _ _ _ _ _ _ _ _ => true
  | .carryFlit _ _ _ _ _ _ => true
  | .podArrive _ _ _ _ => true
  | .podComplete _ _ _ => true
  | .flitReplay _ => true
  | .portUp _ => true
  | .doorbell _ => true
  | .packetDispatch => true
  | .gangMap _ => true
  | .priorityAging _ => true
  | .quantumExpiry _ => true
  | .launch => true
  | .loopl => true
  | .groupRelease _ => true
  | .packetCopy => true
  | .graphr => true
  | .graphNodeComplete _ => true
  | .graphp => true
  | .bind => true
  | .unmap => true
  | .unmapDrainDone _ => true
  | .signal => true
  | .wait => true
  | .waitSatisfied _ => true
  | .waitTimeout _ => true
  | .ctxcCreate => true
  | .ctxcDestroy => true
  | .ctxcSet => true
  | .ctxcResume => true
  | .ctxcCkpt => true
  | .ctxcQcreate => true
  | .ctxcQdestroy => true
  | .ctxcQprog => true
  | .ctxcQreset => true
  | .ctxcGmap => true
  | .ctxcGunmap => true
  | .ctxcHdrop => true
  | .ctxcFpool => true
  | .packetComplete _ => true
  | .preemptStop _ => true
  | .saveComplete _ => true
  | .contextRestore _ => true
  | .restoreResume _ => true
  | .snapshotReplay _ => true
  | .checkpoint _ => true
  | .checkpointDone _ => true
  | .muleTransferComplete _ _ => true
  | .forkCopyDone => true
  | .sequenceTrapPost => true
  | .pageWalk _ _ _ => true
  | .leaseExpiry _ _ => true
  | .hwFaultService _ => true
  | .debugHalt => true
  | .debugContinue => true
  | .debugStep _ _ => true
  | .debugWithdraw _ _ => true
  | .ddataRead => true
  | .ddataWrite _ => true
  | .dctxWrite _ => true
  | .dbgctlDreq _ => true
  | .attestationRequest _ => true
  | .fwLoad => true
  | .fwVerifyDone => true
  | .fwCommit => true
  | .fwAbort => true
  | .fwCommitPoint => true
  | .pwrctlFreq _ => true
  | .frequencyStall => true
  | .pllRelock => true
  | .governorStepDown => true
  | .governorStepUp => true
  | .thermalFence => true
  | .pwrctlColtgt _ => true
  | .columnChange => true
  | .columnDarkenIdle _ => true
  | .columnRelight _ => true
  | .enterIdle => true
  | .enterSelfRefresh => true
  | .wakeToActive => true
  | .mgmtRegisterWrite _ _ => true
  | .acqRelFenceComplete _ => true
  | .failedUnitFence => true
  | .qAdd d a b => decide (d < 16) && decide (a < 16) && decide (b < 16)
  | .qSub d a b => decide (d < 16) && decide (a < 16) && decide (b < 16)
  | .qAnd d a b => decide (d < 16) && decide (a < 16) && decide (b < 16)
  | .qOr d a b => decide (d < 16) && decide (a < 16) && decide (b < 16)
  | .qXor d a b => decide (d < 16) && decide (a < 16) && decide (b < 16)
  | .qShl d a b => decide (d < 16) && decide (a < 16) && decide (b < 16)
  | .qShr d a b => decide (d < 16) && decide (a < 16) && decide (b < 16)
  | .qMinu d a b => decide (d < 16) && decide (a < 16) && decide (b < 16)
  | .qAddi d a imm => decide (d < 16) && decide (a < 16) && decide (imm < 16384)
  | .qAndi d a imm => decide (d < 16) && decide (a < 16) && decide (imm < 16384)
  | .qOri d a imm => decide (d < 16) && decide (a < 16) && decide (imm < 16384)
  | .qShli d a imm => decide (d < 16) && decide (a < 16) && decide (imm < 16384)
  | .qShri d a imm => decide (d < 16) && decide (a < 16) && decide (imm < 16384)
  | .qLi d imm => decide (d < 16) && decide (imm < 4194304)
  | .qLdw d a win imm => decide (d < 16) && decide (a < 16) && decide (win < 4) && decide (imm < 16384)
  | .qStw d a win imm => decide (d < 16) && decide (a < 16) && decide (win < 4) && decide (imm < 16384)
  | .qBeq a b imm => decide (a < 16) && decide (b < 16) && decide (imm < 16384)
  | .qBne a b imm => decide (a < 16) && decide (b < 16) && decide (imm < 16384)
  | .qBltu a b imm => decide (a < 16) && decide (b < 16) && decide (imm < 16384)
  | .qBgeu a b imm => decide (a < 16) && decide (b < 16) && decide (imm < 16384)
  | .qJmp imm => decide (imm < 16384)
  | .qLoop d mx len => decide (d < 16) && decide (mx < 256) && decide (len < 16384)
  | .qPtim d => decide (d < 16)
  | .qDone => true
  | .qSkip imm => decide (imm < 16384)
  | .qFail imm => decide (imm < 16384)

end Sys2Proof
end

