-- ==== Sys2Proof/Decode.lean ====
section
/-! DEFINITION. Decoding of slot words, single-operation words and queue-program words, total on any word and refusing by
name (R23 to R31, R49 to R63, R128), and after the decoder the encoder, both written from the encoding tables. -/
namespace Sys2Proof

/-- Field of w: width bits from bit lo up. -/
def fieldOf (w lo width : Nat) : Nat := w / 2 ^ lo % 2 ^ width

/-- Why a word is no operation (R49, R54). -/
inductive DecodeErr where
  /-- path tag 7 (R25) -/
  | pathTag
  /-- MAJOR 0 with another bit set (R24) -/
  | nopBits
  /-- an unassigned major or sub-function, or a reserved or out-of-range field (R53, R54) -/
  | unassigned
  /-- a word that its machine or mode does not implement (R63, R345) -/
  | notHere
  deriving DecidableEq, Repr

/-- What a word is: the NOP of its slot, an operation with its path tag, or an illegal word. -/
inductive Decoded where
  | nop
  | op (tag : Nat) (i : Instr)
  | bad (e : DecodeErr)
  deriving DecidableEq, Repr


/-- The slot and the 29 low bits of the slot word of an operation (R23, R50 to R61); none for an event or a queue-program word. -/
def encodeOps (i : Instr) : Option (Nat × Nat) :=
  match i with
  | .halt => some (0, 16777216)
  | .kend => some (0, 33554432)
  | .btgt j addr => some (0, 50331648 + j * 4194304 + addr * 2048)
  | .call addr => some (0, 67108864 + addr * 8192)
  | .ret => some (0, 83886080)
  | .loop lvl xc => some (0, 100663296 + lvl * 2097152 + xc * 16384)
  | .loopS0 lvl xc xr => some (0, 100663296 + lvl * 2097152 + xc * 16384 + xr * 512 + 524288)
  | .loopS1 lvl xc xr => some (0, 100663296 + lvl * 2097152 + xc * 16384 + xr * 512 + 1048576)
  | .scmp pd xa xb cc => some (0, 117440512 + pd * 131072 + xa * 4096 + xb * 128 + cc * 16)
  | .scmpi pd xa cc imm => some (0, 134217728 + pd * 131072 + xa * 4096 + cc * 512 + imm)
  | .plog pd pa pb o => some (0, 150994944 + pd * 131072 + pa * 1024 + pb * 8 + o)
  | .pmov pd pa => some (0, 167772160 + pd * 131072 + pa * 1024)
  | .pseti pd v => some (0, 184549376 + pd * 131072 + v * 65536)
  | .csrr xd csr => some (0, 201326592 + xd * 524288 + csr * 128)
  | .csrw xs csr => some (0, 218103808 + xs * 524288 + csr * 128)
  | .csrs xs csr => some (0, 234881024 + xs * 524288 + csr * 128)
  | .trap code info => some (0, 251658240 + code * 65536 + info)
  | .eret => some (0, 268435456)
  | .rstkr xd idx => some (0, 285212672 + xd * 524288 + idx * 32768)
  | .rstkw xs idx => some (0, 301989888 + xs * 524288 + idx * 32768)
  | .brk info => some (0, 318767104 + info)
  | .waitm xa xb => some (0, 335544320 + xa * 524288 + xb * 16384)
  | .barv scope bid => some (0, 352321536 + scope * 2097152 + bid * 8192)
  | .barw scope bid => some (0, 369098752 + scope * 2097152 + bid * 8192)
  | .bart scope bid pd => some (0, 385875968 + scope * 2097152 + bid * 8192 + pd * 64)
  | .fork xa => some (0, 402653184 + xa * 524288)
  | .join xa => some (0, 419430400 + xa * 524288)
  | .steal pd => some (0, 436207616 + pd * 131072)
  | .susp => some (0, 452984832)
  | .yield_ => some (0, 469762048)
  | .trdy pd xa => some (0, 486539264 + pd * 131072 + xa * 4096)
  | .commit => some (0, 503316480)
  | .plsw => some (0, 520093696)
  | .add xd xa xb => some (1, 16777216 + xd * 524288 + xa * 16384 + xb * 512)
  | .sub xd xa xb => some (1, 16777216 + xd * 524288 + xa * 16384 + xb * 512 + 32)
  | .mul xd xa xb => some (1, 16777216 + xd * 524288 + xa * 16384 + xb * 512 + 64)
  | .mulh xd xa xb => some (1, 16777216 + xd * 524288 + xa * 16384 + xb * 512 + 96)
  | .and_ xd xa xb => some (1, 16777216 + xd * 524288 + xa * 16384 + xb * 512 + 128)
  | .or_ xd xa xb => some (1, 16777216 + xd * 524288 + xa * 16384 + xb * 512 + 160)
  | .xor_ xd xa xb => some (1, 16777216 + xd * 524288 + xa * 16384 + xb * 512 + 192)
  | .shl xd xa xb => some (1, 16777216 + xd * 524288 + xa * 16384 + xb * 512 + 224)
  | .shr xd xa xb => some (1, 16777216 + xd * 524288 + xa * 16384 + xb * 512 + 256)
  | .sra xd xa xb => some (1, 16777216 + xd * 524288 + xa * 16384 + xb * 512 + 288)
  | .min_ xd xa xb => some (1, 16777216 + xd * 524288 + xa * 16384 + xb * 512 + 320)
  | .max_ xd xa xb => some (1, 16777216 + xd * 524288 + xa * 16384 + xb * 512 + 352)
  | .addi xd xa imm => some (1, 33554432 + xd * 524288 + xa * 16384 + imm)
  | .lui xd imm => some (1, 50331648 + xd * 524288 + imm)
  | .sel xd xa xb ps => some (1, 67108864 + xd * 524288 + xa * 16384 + xb * 512 + ps * 4)
  | .dsel xd xa => some (1, 83886080 + xd * 524288 + xa * 16384)
  | .ld xd xa w off => some (1, 100663296 + xd * 524288 + xa * 16384 + w * 2048 + off)
  | .st xs xa w off => some (1, 117440512 + xs * 524288 + xa * 16384 + w * 2048 + off)
  | .acq scope xa => some (1, 134217728 + scope * 2097152 + xa * 65536)
  | .rel scope xa => some (1, 134217728 + scope * 2097152 + xa * 65536 + 16384)
  | .fence scope => some (1, 134217728 + scope * 2097152 + 32768)
  | .wcfg xa port field => some (1, 150994944 + xa * 524288 + port * 65536 + field * 256)
  | .shw xa eng sh field => some (1, 167772160 + xa * 524288 + eng * 131072 + sh * 32768 + field * 256)
  | .ksel vs ka => some (1, 184549376 + vs * 4194304 + ka * 524288)
  | .xbc d xa k => some (1, 201326592 + d * 131072 + xa * 4096 + k * 1024)
  | .mscl xa side grp => some (1, 218103808 + xa * 524288 + side * 262144 + grp * 32768)
  | .samcfgPar xd xa => some (1, 402653184 + xd * 524288 + xa * 16384)
  | .samcfgVoc xd xa => some (1, 402653184 + xd * 524288 + xa * 16384 + 32)
  | .samcfgMask xd xa => some (1, 402653184 + xd * 524288 + xa * 16384 + 64)
  | .samcfgSeed xd xa xb => some (1, 402653184 + xd * 524288 + xa * 16384 + xb * 512 + 96)
  | .sample xd xa xb k => some (1, 419430400 + xd * 524288 + xa * 16384 + xb * 512 + k * 32)
  | .maskg xd xa xb => some (1, 436207616 + xd * 524288 + xa * 16384 + xb * 512)
  | .maskgSh xd xb => some (1, 436207616 + xd * 524288 + xb * 512 + 32)
  | .pdaadv xd xa xb => some (1, 452984832 + xd * 524288 + xa * 16384 + xb * 512)
  | .pdaadvLd xd xa => some (1, 452984832 + xd * 524288 + xa * 16384 + 32)
  | .pdaadvSh xd xb => some (1, 452984832 + xd * 524288 + xb * 512 + 64)
  | .tokw xd xa xb => some (1, 469762048 + xd * 524288 + xa * 16384 + xb * 512)
  | .fadd .va d a b => some (2, 16777216 + d * 131072 + a * 2048 + b * 32)
  | .fadd .vb d a b => some (3, 16777216 + d * 131072 + a * 2048 + b * 32)
  | .fsub .va d a b => some (2, 16777216 + d * 131072 + a * 2048 + b * 32 + 1)
  | .fsub .vb d a b => some (3, 16777216 + d * 131072 + a * 2048 + b * 32 + 1)
  | .fmul .va d a b => some (2, 16777216 + d * 131072 + a * 2048 + b * 32 + 2)
  | .fmul .vb d a b => some (3, 16777216 + d * 131072 + a * 2048 + b * 32 + 2)
  | .fmin .va d a b => some (2, 16777216 + d * 131072 + a * 2048 + b * 32 + 3)
  | .fmin .vb d a b => some (3, 16777216 + d * 131072 + a * 2048 + b * 32 + 3)
  | .fmax .va d a b => some (2, 16777216 + d * 131072 + a * 2048 + b * 32 + 4)
  | .fmax .vb d a b => some (3, 16777216 + d * 131072 + a * 2048 + b * 32 + 4)
  | .fma .va d a b c => some (2, 33554432 + d * 131072 + a * 2048 + b * 32 + c)
  | .fma .vb d a b c => some (3, 33554432 + d * 131072 + a * 2048 + b * 32 + c)
  | .fms d a b c => some (2, 50331648 + d * 131072 + a * 2048 + b * 32 + c)
  | .fnma d a b c => some (2, 67108864 + d * 131072 + a * 2048 + b * 32 + c)
  | .funa .va d a fn => some (2, 83886080 + d * 131072 + a * 2048 + fn)
  | .funa .vb d a fn => some (3, 50331648 + d * 131072 + a * 2048 + fn)
  | .iadd .va d a b => some (2, 100663296 + d * 131072 + a * 2048 + b * 32)
  | .iadd .vb d a b => some (3, 67108864 + d * 131072 + a * 2048 + b * 32)
  | .isub d a b => some (2, 100663296 + d * 131072 + a * 2048 + b * 32 + 1)
  | .imul d a b => some (2, 100663296 + d * 131072 + a * 2048 + b * 32 + 2)
  | .iand d a b => some (2, 100663296 + d * 131072 + a * 2048 + b * 32 + 3)
  | .ior d a b => some (2, 100663296 + d * 131072 + a * 2048 + b * 32 + 4)
  | .ixor d a b => some (2, 100663296 + d * 131072 + a * 2048 + b * 32 + 5)
  | .ishl d a b => some (2, 100663296 + d * 131072 + a * 2048 + b * 32 + 6)
  | .ishr d a b => some (2, 100663296 + d * 131072 + a * 2048 + b * 32 + 7)
  | .isra d a b => some (2, 100663296 + d * 131072 + a * 2048 + b * 32 + 8)
  | .imin d a b => some (2, 100663296 + d * 131072 + a * 2048 + b * 32 + 9)
  | .imax d a b => some (2, 100663296 + d * 131072 + a * 2048 + b * 32 + 10)
  | .fcmp .va kd a b cc => some (2, 117440512 + kd * 2097152 + a * 32768 + b * 512 + cc * 32)
  | .fcmp .vb kd a b cc => some (3, 83886080 + kd * 2097152 + a * 32768 + b * 512 + cc * 32)
  | .icmp .va kd a b cc => some (2, 134217728 + kd * 2097152 + a * 32768 + b * 512 + cc * 32)
  | .icmp .vb kd a b cc => some (3, 100663296 + kd * 2097152 + a * 32768 + b * 512 + cc * 32)
  | .klog kd ka kb o => some (2, 150994944 + kd * 2097152 + ka * 262144 + kb * 32768 + o * 4096)
  | .vsel .va d a b k => some (2, 167772160 + d * 131072 + a * 2048 + b * 32 + k * 4)
  | .vsel .vb d a b k => some (3, 117440512 + d * 131072 + a * 2048 + b * 32 + k * 4)
  | .cvt .va d a b kind m => some (2, 184549376 + d * 131072 + a * 2048 + b * 32 + kind * 4 + m)
  | .cvt .vb d a b kind m => some (3, 134217728 + d * 131072 + a * 2048 + b * 32 + kind * 4 + m)
  | .vmov .va d a => some (2, 201326592 + d * 131072 + a * 2048)
  | .vmov .vb d a => some (3, 150994944 + d * 131072 + a * 2048)
  | .vimm d k imm => some (2, 218103808 + d * 131072 + k * 65536 + imm)
  | .vlane d a lane => some (2, 234881024 + d * 131072 + a * 2048 + lane * 16)
  | .vld d xa off => some (2, 251658240 + d * 131072 + xa * 4096 + off)
  | .vst a xa off => some (2, 268435456 + a * 262144 + xa * 4096 + off)
  | .park v => some (3, 268435456 + v * 262144)
  | .unpark v => some (3, 285212672 + v * 262144)
  | .sfseed d a fn => some (3, 301989888 + d * 131072 + a * 2048 + fn)
  | .sfstep d a b fn => some (3, 318767104 + d * 131072 + a * 2048 + b * 32 + fn)
  | .sftld xa fn => some (3, 335544320 + xa * 524288 + fn * 32768)
  | .rowsum d a => some (3, 352321536 + d * 131072 + a * 2048)
  | .rowmax d a => some (3, 369098752 + d * 131072 + a * 2048)
  | .rowstat d a b fn => some (3, 385875968 + d * 131072 + a * 2048 + b * 32 + fn)
  | .smxup d a b fn => some (3, 402653184 + d * 131072 + a * 2048 + b * 32 + fn)
  | .smxfix d a b => some (3, 419430400 + d * 131072 + a * 2048 + b * 32)
  | .vperm d a b => some (3, 436207616 + d * 131072 + a * 2048 + b * 32)
  | .vshuf d a b fn => some (3, 452984832 + d * 131072 + a * 2048 + b * 32 + fn)
  | .vpfx d a fn => some (3, 469762048 + d * 131072 + a * 2048 + fn)
  | .vred d a fn => some (3, 486539264 + d * 131072 + a * 2048 + fn)
  | .topkp d a b fn => some (3, 503316480 + d * 131072 + a * 2048 + b * 32 + fn)
  | .vscl d a b => some (3, 520093696 + d * 131072 + a * 2048 + b * 32)
  | .push a fmt row => some (4, 16777216 + a * 262144 + fmt * 65536 + row * 32)
  | .shift a fmt bank row h => some (4, 33554432 + a * 262144 + fmt * 65536 + bank * 8192 + row * 32 + h * 16)
  | .acc a bank row h => some (4, 50331648 + a * 262144 + bank * 8192 + row * 32 + h * 16)
  | .drain d bank row h clr => some (4, 67108864 + d * 131072 + bank * 16384 + row * 64 + h * 32 + clr * 16)
  | .mclr bank row nr => some (4, 83886080 + bank * 2097152 + row * 8192 + nr * 32)
  | .axch => some (4, 100663296)
  | .acrd d bank row h => some (4, 117440512 + d * 131072 + bank * 16384 + row * 64 + h * 32)
  | .acwr a bank row h => some (4, 134217728 + a * 262144 + bank * 8192 + row * 32 + h * 16)
  | .zop xa => some (5, 16777216 + xa * 524288)
  | .sloc sh sw rev a => some (5, 33554432 + sh * 4194304 + sw * 2097152 + rev * 1048576 + a * 16384)
  | .sup sh sw rev a => some (5, 50331648 + sh * 4194304 + sw * 2097152 + rev * 1048576 + a * 16384)
  | .sdn sh sw rev a => some (5, 67108864 + sh * 4194304 + sw * 2097152 + rev * 1048576 + a * 16384)
  | .scry sh sw rev a => some (5, 83886080 + sh * 4194304 + sw * 2097152 + rev * 1048576 + a * 16384)
  | .sapl sh sw rev a => some (5, 100663296 + sh * 4194304 + sw * 2097152 + rev * 1048576 + a * 16384)
  | .zld a z row => some (5, 117440512 + a * 262144 + z * 4096 + row * 64)
  | .zrd d z row => some (5, 134217728 + d * 131072 + z * 2048 + row * 32)
  | .zclr zd => some (5, 150994944 + zd * 262144)
  | .zmov zd za => some (5, 167772160 + zd * 262144 + za * 4096)
  | .step z a b => some (5, 184549376 + z * 262144 + a * 4096 + b * 64)
  | .stepSpec z a b => some (5, 184549376 + z * 262144 + a * 4096 + b * 64 + 32)
  | .sdot d z c => some (5, 201326592 + d * 131072 + z * 2048 + c * 32)
  | .copy node sh sw xa => some (6, 16777216 + node * 65536 + sh * 16384 + sw * 8192 + xa * 256)
  | .gath node sh sw xa => some (6, 33554432 + node * 65536 + sh * 16384 + sw * 8192 + xa * 256)
  | .scat node sh sw xa => some (6, 50331648 + node * 65536 + sh * 16384 + sw * 8192 + xa * 256)
  | .scacc node sh sw xa fn => some (6, 67108864 + node * 65536 + sh * 16384 + sw * 8192 + xa * 256 + fn)
  | .amo node xa fn => some (6, 83886080 + node * 65536 + xa * 256 + fn)
  | .pref node xa fn => some (6, 100663296 + node * 65536 + xa * 256 + fn)
  | .rgwb node xa => some (6, 117440512 + node * 65536 + xa * 256)
  | .rginv node xa => some (6, 134217728 + node * 65536 + xa * 256)
  | .xwt node => some (6, 150994944 + node * 65536)
  | .btx a tile => some (6, 167772160 + a * 262144 + tile * 4096)
  | .bsel d tile => some (6, 184549376 + d * 131072 + tile * 2048)
  | .zspl node xa => some (6, 201326592 + node * 65536 + xa * 256)
  | .zsplCopy node xa => some (6, 201326592 + node * 65536 + xa * 256 + 1)
  | .zfil node xa => some (6, 218103808 + node * 65536 + xa * 256)
  | .rld d xa => some (6, 234881024 + d * 131072 + xa * 4096)
  | .rst a xa => some (6, 251658240 + a * 262144 + xa * 8192)
  | .coll node sh sw xa fn => some (6, 268435456 + node * 65536 + sh * 16384 + sw * 8192 + xa * 256 + fn)
  | .smpq node xa => some (6, 285212672 + node * 65536 + xa * 256)
  | .flkq node xa fn => some (6, 301989888 + node * 65536 + xa * 256 + fn)
  | .wpset node xa => some (6, 318767104 + node * 65536 + xa * 256)
  | .wpclr node xa => some (6, 335544320 + node * 65536 + xa * 256)
  | .mskq node xa => some (6, 352321536 + node * 65536 + xa * 256)
  | .tree al t1 t2 t3 t4 => some (7, al * 1073741824 + t1 * 2097152 + t2 * 16384 + t3 * 128 + t4)
  | .seq align lf lvl beg fin => some (7, 2147483648 + align * 8388608 + lf * 2097152 + lvl * 262144 + beg * 131072 + fin * 65536)
  | .deviceReset => none
  | .resultLanding _ => none
  | .interlockedArrival _ => none
  | .haltDrainDone _ => none
  | .endDrainDone _ => none
  | .planeSwap _ => none
  | .planeLoadDone _ => none
  | .trapEntry _ _ _ _ _ _ => none
  | .waitmWake _ _ => none
  | .waitmTimeout _ => none
  | .barrierCount _ _ _ => none
  | .barrierFlip _ _ _ _ => none
  | .barrierCompletionSeen _ _ _ _ => none
  | .suspensionDrainDone _ => none
  | .pickUp _ => none
  | .regroup _ => none
  | .groupRetire _ => none
  | .iterationBoundary _ => none
  | .loopWake _ => none
  | .scanRendezvous _ => none
  | .scryCarryArrival _ _ => none
  | .nodeComplete _ _ => none
  | .samplingJob _ => none
  | .linkQueueGrant => none
  | .remoteRequestServe _ _ _ _ _ _ _ => none
  | .remoteReply _ _ _ => none
  | .remoteTimeout _ => none
  | .collMessage _ _ _ _ _ _ _ _ _ => none
  | .carryFlit _ _ _ _ _ _ => none
  | .podArrive _ _ _ _ => none
  | .podComplete _ _ _ => none
  | .flitReplay _ => none
  | .portUp _ => none
  | .doorbell _ => none
  | .packetDispatch => none
  | .gangMap _ => none
  | .priorityAging _ => none
  | .quantumExpiry _ => none
  | .launch => none
  | .loopl => none
  | .groupRelease _ => none
  | .packetCopy => none
  | .graphr => none
  | .graphNodeComplete _ => none
  | .graphp => none
  | .bind => none
  | .unmap => none
  | .unmapDrainDone _ => none
  | .signal => none
  | .wait => none
  | .waitSatisfied _ => none
  | .waitTimeout _ => none
  | .ctxcCreate => none
  | .ctxcDestroy => none
  | .ctxcSet => none
  | .ctxcResume => none
  | .ctxcCkpt => none
  | .ctxcQcreate => none
  | .ctxcQdestroy => none
  | .ctxcQprog => none
  | .ctxcQreset => none
  | .ctxcGmap => none
  | .ctxcGunmap => none
  | .ctxcHdrop => none
  | .ctxcFpool => none
  | .packetComplete _ => none
  | .preemptStop _ => none
  | .saveComplete _ => none
  | .contextRestore _ => none
  | .restoreResume _ => none
  | .snapshotReplay _ => none
  | .checkpoint _ => none
  | .checkpointDone _ => none
  | .muleTransferComplete _ _ => none
  | .forkCopyDone => none
  | .sequenceTrapPost => none
  | .pageWalk _ _ _ => none
  | .leaseExpiry _ _ => none
  | .hwFaultService _ => none
  | .debugHalt => none
  | .debugContinue => none
  | .debugStep _ _ => none
  | .debugWithdraw _ _ => none
  | .ddataRead => none
  | .ddataWrite _ => none
  | .dctxWrite _ => none
  | .dbgctlDreq _ => none
  | .attestationRequest _ => none
  | .fwLoad => none
  | .fwVerifyDone => none
  | .fwCommit => none
  | .fwAbort => none
  | .fwCommitPoint => none
  | .pwrctlFreq _ => none
  | .frequencyStall => none
  | .pllRelock => none
  | .governorStepDown => none
  | .governorStepUp => none
  | .thermalFence => none
  | .pwrctlColtgt _ => none
  | .columnChange => none
  | .columnDarkenIdle _ => none
  | .columnRelight _ => none
  | .enterIdle => none
  | .enterSelfRefresh => none
  | .wakeToActive => none
  | .mgmtRegisterWrite _ _ => none
  | .acqRelFenceComplete _ => none
  | .failedUnitFence => none
  | .qAdd _ _ _ => none
  | .qSub _ _ _ => none
  | .qAnd _ _ _ => none
  | .qOr _ _ _ => none
  | .qXor _ _ _ => none
  | .qShl _ _ _ => none
  | .qShr _ _ _ => none
  | .qMinu _ _ _ => none
  | .qAddi _ _ _ => none
  | .qAndi _ _ _ => none
  | .qOri _ _ _ => none
  | .qShli _ _ _ => none
  | .qShri _ _ _ => none
  | .qLi _ _ => none
  | .qLdw _ _ _ _ => none
  | .qStw _ _ _ _ => none
  | .qBeq _ _ _ => none
  | .qBne _ _ _ => none
  | .qBltu _ _ _ => none
  | .qBgeu _ _ _ => none
  | .qJmp _ => none
  | .qLoop _ _ _ => none
  | .qPtim _ => none
  | .qDone => none
  | .qSkip _ => none
  | .qFail _ => none

/-- The queue-program word of an operation (R128). -/
def encodeQp (i : Instr) : Option Nat :=
  match i with
  | .qAdd d a b => some (67108864 + d * 4194304 + a * 262144 + b * 16384)
  | .qSub d a b => some (134217728 + d * 4194304 + a * 262144 + b * 16384)
  | .qAnd d a b => some (201326592 + d * 4194304 + a * 262144 + b * 16384)
  | .qOr d a b => some (268435456 + d * 4194304 + a * 262144 + b * 16384)
  | .qXor d a b => some (335544320 + d * 4194304 + a * 262144 + b * 16384)
  | .qShl d a b => some (402653184 + d * 4194304 + a * 262144 + b * 16384)
  | .qShr d a b => some (469762048 + d * 4194304 + a * 262144 + b * 16384)
  | .qMinu d a b => some (536870912 + d * 4194304 + a * 262144 + b * 16384)
  | .qAddi d a imm => some (603979776 + d * 4194304 + a * 262144 + imm)
  | .qAndi d a imm => some (671088640 + d * 4194304 + a * 262144 + imm)
  | .qOri d a imm => some (738197504 + d * 4194304 + a * 262144 + imm)
  | .qShli d a imm => some (805306368 + d * 4194304 + a * 262144 + imm)
  | .qShri d a imm => some (872415232 + d * 4194304 + a * 262144 + imm)
  | .qLi d imm => some (939524096 + d * 4194304 + imm)
  | .qLdw d a win imm => some (1006632960 + d * 4194304 + a * 262144 + win * 16384 + imm)
  | .qStw d a win imm => some (1073741824 + d * 4194304 + a * 262144 + win * 16384 + imm)
  | .qBeq a b imm => some (1140850688 + a * 262144 + b * 16384 + imm)
  | .qBne a b imm => some (1207959552 + a * 262144 + b * 16384 + imm)
  | .qBltu a b imm => some (1275068416 + a * 262144 + b * 16384 + imm)
  | .qBgeu a b imm => some (1342177280 + a * 262144 + b * 16384 + imm)
  | .qJmp imm => some (1409286144 + imm)
  | .qLoop d mx len => some (1476395008 + d * 4194304 + mx * 16384 + len)
  | .qPtim d => some (1543503872 + d * 4194304)
  | .qDone => some (1610612736)
  | .qSkip imm => some (1677721600 + imm)
  | .qFail imm => some (1744830464 + imm)
  | .halt => none
  | .kend => none
  | .btgt _ _ => none
  | .call _ => none
  | .ret => none
  | .loop _ _ => none
  | .loopS0 _ _ _ => none
  | .loopS1 _ _ _ => none
  | .scmp _ _ _ _ => none
  | .scmpi _ _ _ _ => none
  | .plog _ _ _ _ => none
  | .pmov _ _ => none
  | .pseti _ _ => none
  | .csrr _ _ => none
  | .csrw _ _ => none
  | .csrs _ _ => none
  | .trap _ _ => none
  | .eret => none
  | .rstkr _ _ => none
  | .rstkw _ _ => none
  | .brk _ => none
  | .waitm _ _ => none
  | .barv _ _ => none
  | .barw _ _ => none
  | .bart _ _ _ => none
  | .fork _ => none
  | .join _ => none
  | .steal _ => none
  | .susp => none
  | .yield_ => none
  | .trdy _ _ => none
  | .commit => none
  | .plsw => none
  | .add _ _ _ => none
  | .sub _ _ _ => none
  | .mul _ _ _ => none
  | .mulh _ _ _ => none
  | .and_ _ _ _ => none
  | .or_ _ _ _ => none
  | .xor_ _ _ _ => none
  | .shl _ _ _ => none
  | .shr _ _ _ => none
  | .sra _ _ _ => none
  | .min_ _ _ _ => none
  | .max_ _ _ _ => none
  | .addi _ _ _ => none
  | .lui _ _ => none
  | .sel _ _ _ _ => none
  | .dsel _ _ => none
  | .ld _ _ _ _ => none
  | .st _ _ _ _ => none
  | .acq _ _ => none
  | .rel _ _ => none
  | .fence _ => none
  | .wcfg _ _ _ => none
  | .shw _ _ _ _ => none
  | .ksel _ _ => none
  | .xbc _ _ _ => none
  | .mscl _ _ _ => none
  | .samcfgPar _ _ => none
  | .samcfgVoc _ _ => none
  | .samcfgMask _ _ => none
  | .samcfgSeed _ _ _ => none
  | .sample _ _ _ _ => none
  | .maskg _ _ _ => none
  | .maskgSh _ _ => none
  | .pdaadv _ _ _ => none
  | .pdaadvLd _ _ => none
  | .pdaadvSh _ _ => none
  | .tokw _ _ _ => none
  | .fadd _ _ _ _ => none
  | .fsub _ _ _ _ => none
  | .fmul _ _ _ _ => none
  | .fmin _ _ _ _ => none
  | .fmax _ _ _ _ => none
  | .fma _ _ _ _ _ => none
  | .fms _ _ _ _ => none
  | .fnma _ _ _ _ => none
  | .funa _ _ _ _ => none
  | .iadd _ _ _ _ => none
  | .isub _ _ _ => none
  | .imul _ _ _ => none
  | .iand _ _ _ => none
  | .ior _ _ _ => none
  | .ixor _ _ _ => none
  | .ishl _ _ _ => none
  | .ishr _ _ _ => none
  | .isra _ _ _ => none
  | .imin _ _ _ => none
  | .imax _ _ _ => none
  | .fcmp _ _ _ _ _ => none
  | .icmp _ _ _ _ _ => none
  | .klog _ _ _ _ => none
  | .vsel _ _ _ _ _ => none
  | .cvt _ _ _ _ _ _ => none
  | .vmov _ _ _ => none
  | .vimm _ _ _ => none
  | .vlane _ _ _ => none
  | .vld _ _ _ => none
  | .vst _ _ _ => none
  | .park _ => none
  | .unpark _ => none
  | .sfseed _ _ _ => none
  | .sfstep _ _ _ _ => none
  | .sftld _ _ => none
  | .rowsum _ _ => none
  | .rowmax _ _ => none
  | .rowstat _ _ _ _ => none
  | .smxup _ _ _ _ => none
  | .smxfix _ _ _ => none
  | .vperm _ _ _ => none
  | .vshuf _ _ _ _ => none
  | .vpfx _ _ _ => none
  | .vred _ _ _ => none
  | .topkp _ _ _ _ => none
  | .vscl _ _ _ => none
  | .push _ _ _ => none
  | .shift _ _ _ _ _ => none
  | .acc _ _ _ _ => none
  | .drain _ _ _ _ _ => none
  | .mclr _ _ _ => none
  | .axch => none
  | .acrd _ _ _ _ => none
  | .acwr _ _ _ _ => none
  | .zop _ => none
  | .sloc _ _ _ _ => none
  | .sup _ _ _ _ => none
  | .sdn _ _ _ _ => none
  | .scry _ _ _ _ => none
  | .sapl _ _ _ _ => none
  | .zld _ _ _ => none
  | .zrd _ _ _ => none
  | .zclr _ => none
  | .zmov _ _ => none
  | .step _ _ _ => none
  | .stepSpec _ _ _ => none
  | .sdot _ _ _ => none
  | .copy _ _ _ _ => none
  | .gath _ _ _ _ => none
  | .scat _ _ _ _ => none
  | .scacc _ _ _ _ _ => none
  | .amo _ _ _ => none
  | .pref _ _ _ => none
  | .rgwb _ _ => none
  | .rginv _ _ => none
  | .xwt _ => none
  | .btx _ _ => none
  | .bsel _ _ => none
  | .zspl _ _ => none
  | .zsplCopy _ _ => none
  | .zfil _ _ => none
  | .rld _ _ => none
  | .rst _ _ => none
  | .coll _ _ _ _ _ => none
  | .smpq _ _ => none
  | .flkq _ _ _ => none
  | .wpset _ _ => none
  | .wpclr _ _ => none
  | .mskq _ _ => none
  | .tree _ _ _ _ _ => none
  | .seq _ _ _ _ _ => none
  | .deviceReset => none
  | .resultLanding _ => none
  | .interlockedArrival _ => none
  | .haltDrainDone _ => none
  | .endDrainDone _ => none
  | .planeSwap _ => none
  | .planeLoadDone _ => none
  | .trapEntry _ _ _ _ _ _ => none
  | .waitmWake _ _ => none
  | .waitmTimeout _ => none
  | .barrierCount _ _ _ => none
  | .barrierFlip _ _ _ _ => none
  | .barrierCompletionSeen _ _ _ _ => none
  | .suspensionDrainDone _ => none
  | .pickUp _ => none
  | .regroup _ => none
  | .groupRetire _ => none
  | .iterationBoundary _ => none
  | .loopWake _ => none
  | .scanRendezvous _ => none
  | .scryCarryArrival _ _ => none
  | .nodeComplete _ _ => none
  | .samplingJob _ => none
  | .linkQueueGrant => none
  | .remoteRequestServe _ _ _ _ _ _ _ => none
  | .remoteReply _ _ _ => none
  | .remoteTimeout _ => none
  | .collMessage _ _ _ _ _ _ _ _ _ => none
  | .carryFlit _ _ _ _ _ _ => none
  | .podArrive _ _ _ _ => none
  | .podComplete _ _ _ => none
  | .flitReplay _ => none
  | .portUp _ => none
  | .doorbell _ => none
  | .packetDispatch => none
  | .gangMap _ => none
  | .priorityAging _ => none
  | .quantumExpiry _ => none
  | .launch => none
  | .loopl => none
  | .groupRelease _ => none
  | .packetCopy => none
  | .graphr => none
  | .graphNodeComplete _ => none
  | .graphp => none
  | .bind => none
  | .unmap => none
  | .unmapDrainDone _ => none
  | .signal => none
  | .wait => none
  | .waitSatisfied _ => none
  | .waitTimeout _ => none
  | .ctxcCreate => none
  | .ctxcDestroy => none
  | .ctxcSet => none
  | .ctxcResume => none
  | .ctxcCkpt => none
  | .ctxcQcreate => none
  | .ctxcQdestroy => none
  | .ctxcQprog => none
  | .ctxcQreset => none
  | .ctxcGmap => none
  | .ctxcGunmap => none
  | .ctxcHdrop => none
  | .ctxcFpool => none
  | .packetComplete _ => none
  | .preemptStop _ => none
  | .saveComplete _ => none
  | .contextRestore _ => none
  | .restoreResume _ => none
  | .snapshotReplay _ => none
  | .checkpoint _ => none
  | .checkpointDone _ => none
  | .muleTransferComplete _ _ => none
  | .forkCopyDone => none
  | .sequenceTrapPost => none
  | .pageWalk _ _ _ => none
  | .leaseExpiry _ _ => none
  | .hwFaultService _ => none
  | .debugHalt => none
  | .debugContinue => none
  | .debugStep _ _ => none
  | .debugWithdraw _ _ => none
  | .ddataRead => none
  | .ddataWrite _ => none
  | .dctxWrite _ => none
  | .dbgctlDreq _ => none
  | .attestationRequest _ => none
  | .fwLoad => none
  | .fwVerifyDone => none
  | .fwCommit => none
  | .fwAbort => none
  | .fwCommitPoint => none
  | .pwrctlFreq _ => none
  | .frequencyStall => none
  | .pllRelock => none
  | .governorStepDown => none
  | .governorStepUp => none
  | .thermalFence => none
  | .pwrctlColtgt _ => none
  | .columnChange => none
  | .columnDarkenIdle _ => none
  | .columnRelight _ => none
  | .enterIdle => none
  | .enterSelfRefresh => none
  | .wakeToActive => none
  | .mgmtRegisterWrite _ _ => none
  | .acqRelFenceComplete _ => none
  | .failedUnitFence => none

/-- The operation a word of the CTL majors (R55) may be, its fields read off. -/
def candidateCtl (w : Nat) : Option Instr :=
  match fieldOf w 24 5 with
  | 1 => some .halt
  | 2 => some .kend
  | 3 => some (.btgt (fieldOf w 22 2) (fieldOf w 11 11))
  | 4 => some (.call (fieldOf w 13 11))
  | 5 => some .ret
  | 6 => match fieldOf w 19 2 with
    | 0 => some (.loop (fieldOf w 21 3) (fieldOf w 14 5))
    | 1 => some (.loopS0 (fieldOf w 21 3) (fieldOf w 14 5) (fieldOf w 9 5))
    | 2 => some (.loopS1 (fieldOf w 21 3) (fieldOf w 14 5) (fieldOf w 9 5))
    | _ => none
  | 7 => some (.scmp (fieldOf w 17 7) (fieldOf w 12 5) (fieldOf w 7 5) (fieldOf w 4 3))
  | 8 => some (.scmpi (fieldOf w 17 7) (fieldOf w 12 5) (fieldOf w 9 3) (fieldOf w 0 9))
  | 9 => some (.plog (fieldOf w 17 7) (fieldOf w 10 7) (fieldOf w 3 7) (fieldOf w 0 3))
  | 10 => some (.pmov (fieldOf w 17 7) (fieldOf w 10 7))
  | 11 => some (.pseti (fieldOf w 17 7) (fieldOf w 16 1))
  | 12 => some (.csrr (fieldOf w 19 5) (fieldOf w 7 12))
  | 13 => some (.csrw (fieldOf w 19 5) (fieldOf w 7 12))
  | 14 => some (.csrs (fieldOf w 19 5) (fieldOf w 7 12))
  | 15 => some (.trap (fieldOf w 16 8) (fieldOf w 0 16))
  | 16 => some .eret
  | 17 => some (.rstkr (fieldOf w 19 5) (fieldOf w 15 4))
  | 18 => some (.rstkw (fieldOf w 19 5) (fieldOf w 15 4))
  | 19 => some (.brk (fieldOf w 0 16))
  | 20 => some (.waitm (fieldOf w 19 5) (fieldOf w 14 5))
  | 21 => some (.barv (fieldOf w 21 3) (fieldOf w 13 8))
  | 22 => some (.barw (fieldOf w 21 3) (fieldOf w 13 8))
  | 23 => some (.bart (fieldOf w 21 3) (fieldOf w 13 8) (fieldOf w 6 7))
  | 24 => some (.fork (fieldOf w 19 5))
  | 25 => some (.join (fieldOf w 19 5))
  | 26 => some (.steal (fieldOf w 17 7))
  | 27 => some .susp
  | 28 => some .yield_
  | 29 => some (.trdy (fieldOf w 17 7) (fieldOf w 12 5))
  | 30 => some .commit
  | 31 => some .plsw
  | _ => none

/-- The operation a word of the INT majors (R56) may be, its fields read off. -/
def candidateInt (w : Nat) : Option Instr :=
  match fieldOf w 24 5 with
  | 1 => match fieldOf w 5 4 with
    | 0 => some (.add (fieldOf w 19 5) (fieldOf w 14 5) (fieldOf w 9 5))
    | 1 => some (.sub (fieldOf w 19 5) (fieldOf w 14 5) (fieldOf w 9 5))
    | 2 => some (.mul (fieldOf w 19 5) (fieldOf w 14 5) (fieldOf w 9 5))
    | 3 => some (.mulh (fieldOf w 19 5) (fieldOf w 14 5) (fieldOf w 9 5))
    | 4 => some (.and_ (fieldOf w 19 5) (fieldOf w 14 5) (fieldOf w 9 5))
    | 5 => some (.or_ (fieldOf w 19 5) (fieldOf w 14 5) (fieldOf w 9 5))
    | 6 => some (.xor_ (fieldOf w 19 5) (fieldOf w 14 5) (fieldOf w 9 5))
    | 7 => some (.shl (fieldOf w 19 5) (fieldOf w 14 5) (fieldOf w 9 5))
    | 8 => some (.shr (fieldOf w 19 5) (fieldOf w 14 5) (fieldOf w 9 5))
    | 9 => some (.sra (fieldOf w 19 5) (fieldOf w 14 5) (fieldOf w 9 5))
    | 10 => some (.min_ (fieldOf w 19 5) (fieldOf w 14 5) (fieldOf w 9 5))
    | 11 => some (.max_ (fieldOf w 19 5) (fieldOf w 14 5) (fieldOf w 9 5))
    | _ => none
  | 2 => some (.addi (fieldOf w 19 5) (fieldOf w 14 5) (fieldOf w 0 14))
  | 3 => some (.lui (fieldOf w 19 5) (fieldOf w 0 19))
  | 4 => some (.sel (fieldOf w 19 5) (fieldOf w 14 5) (fieldOf w 9 5) (fieldOf w 2 7))
  | 5 => some (.dsel (fieldOf w 19 5) (fieldOf w 14 5))
  | 6 => some (.ld (fieldOf w 19 5) (fieldOf w 14 5) (fieldOf w 11 3) (fieldOf w 0 11))
  | 7 => some (.st (fieldOf w 19 5) (fieldOf w 14 5) (fieldOf w 11 3) (fieldOf w 0 11))
  | 8 => match fieldOf w 14 2 with
    | 0 => some (.acq (fieldOf w 21 3) (fieldOf w 16 5))
    | 1 => some (.rel (fieldOf w 21 3) (fieldOf w 16 5))
    | 2 => some (.fence (fieldOf w 21 3))
    | _ => none
  | 9 => some (.wcfg (fieldOf w 19 5) (fieldOf w 16 3) (fieldOf w 8 8))
  | 10 => some (.shw (fieldOf w 19 5) (fieldOf w 17 2) (fieldOf w 15 2) (fieldOf w 8 7))
  | 11 => some (.ksel (fieldOf w 22 2) (fieldOf w 19 3))
  | 12 => some (.xbc (fieldOf w 17 7) (fieldOf w 12 5) (fieldOf w 10 2))
  | 13 => some (.mscl (fieldOf w 19 5) (fieldOf w 18 1) (fieldOf w 15 3))
  | 24 => match fieldOf w 5 4 with
    | 0 => some (.samcfgPar (fieldOf w 19 5) (fieldOf w 14 5))
    | 1 => some (.samcfgVoc (fieldOf w 19 5) (fieldOf w 14 5))
    | 2 => some (.samcfgMask (fieldOf w 19 5) (fieldOf w 14 5))
    | 3 => some (.samcfgSeed (fieldOf w 19 5) (fieldOf w 14 5) (fieldOf w 9 5))
    | _ => none
  | 25 => some (.sample (fieldOf w 19 5) (fieldOf w 14 5) (fieldOf w 9 5) (fieldOf w 5 4))
  | 26 => match fieldOf w 5 4 with
    | 0 => some (.maskg (fieldOf w 19 5) (fieldOf w 14 5) (fieldOf w 9 5))
    | 1 => some (.maskgSh (fieldOf w 19 5) (fieldOf w 9 5))
    | _ => none
  | 27 => match fieldOf w 5 4 with
    | 0 => some (.pdaadv (fieldOf w 19 5) (fieldOf w 14 5) (fieldOf w 9 5))
    | 1 => some (.pdaadvLd (fieldOf w 19 5) (fieldOf w 14 5))
    | 2 => some (.pdaadvSh (fieldOf w 19 5) (fieldOf w 9 5))
    | _ => none
  | 28 => some (.tokw (fieldOf w 19 5) (fieldOf w 14 5) (fieldOf w 9 5))
  | _ => none

/-- The operation a word of the VA majors (R57) may be, its fields read off. -/
def candidateVa (w : Nat) : Option Instr :=
  match fieldOf w 24 5 with
  | 1 => match fieldOf w 0 5 with
    | 0 => some (.fadd .va (fieldOf w 17 7) (fieldOf w 11 6) (fieldOf w 5 6))
    | 1 => some (.fsub .va (fieldOf w 17 7) (fieldOf w 11 6) (fieldOf w 5 6))
    | 2 => some (.fmul .va (fieldOf w 17 7) (fieldOf w 11 6) (fieldOf w 5 6))
    | 3 => some (.fmin .va (fieldOf w 17 7) (fieldOf w 11 6) (fieldOf w 5 6))
    | 4 => some (.fmax .va (fieldOf w 17 7) (fieldOf w 11 6) (fieldOf w 5 6))
    | _ => none
  | 2 => some (.fma .va (fieldOf w 17 7) (fieldOf w 11 6) (fieldOf w 5 6) (fieldOf w 0 5))
  | 3 => some (.fms (fieldOf w 17 7) (fieldOf w 11 6) (fieldOf w 5 6) (fieldOf w 0 5))
  | 4 => some (.fnma (fieldOf w 17 7) (fieldOf w 11 6) (fieldOf w 5 6) (fieldOf w 0 5))
  | 5 => some (.funa .va (fieldOf w 17 7) (fieldOf w 11 6) (fieldOf w 0 5))
  | 6 => match fieldOf w 0 5 with
    | 0 => some (.iadd .va (fieldOf w 17 7) (fieldOf w 11 6) (fieldOf w 5 6))
    | 1 => some (.isub (fieldOf w 17 7) (fieldOf w 11 6) (fieldOf w 5 6))
    | 2 => some (.imul (fieldOf w 17 7) (fieldOf w 11 6) (fieldOf w 5 6))
    | 3 => some (.iand (fieldOf w 17 7) (fieldOf w 11 6) (fieldOf w 5 6))
    | 4 => some (.ior (fieldOf w 17 7) (fieldOf w 11 6) (fieldOf w 5 6))
    | 5 => some (.ixor (fieldOf w 17 7) (fieldOf w 11 6) (fieldOf w 5 6))
    | 6 => some (.ishl (fieldOf w 17 7) (fieldOf w 11 6) (fieldOf w 5 6))
    | 7 => some (.ishr (fieldOf w 17 7) (fieldOf w 11 6) (fieldOf w 5 6))
    | 8 => some (.isra (fieldOf w 17 7) (fieldOf w 11 6) (fieldOf w 5 6))
    | 9 => some (.imin (fieldOf w 17 7) (fieldOf w 11 6) (fieldOf w 5 6))
    | 10 => some (.imax (fieldOf w 17 7) (fieldOf w 11 6) (fieldOf w 5 6))
    | _ => none
  | 7 => some (.fcmp .va (fieldOf w 21 3) (fieldOf w 15 6) (fieldOf w 9 6) (fieldOf w 5 4))
  | 8 => some (.icmp .va (fieldOf w 21 3) (fieldOf w 15 6) (fieldOf w 9 6) (fieldOf w 5 4))
  | 9 => some (.klog (fieldOf w 21 3) (fieldOf w 18 3) (fieldOf w 15 3) (fieldOf w 12 3))
  | 10 => some (.vsel .va (fieldOf w 17 7) (fieldOf w 11 6) (fieldOf w 5 6) (fieldOf w 2 3))
  | 11 => some (.cvt .va (fieldOf w 17 7) (fieldOf w 11 6) (fieldOf w 5 6) (fieldOf w 2 3) (fieldOf w 0 2))
  | 12 => some (.vmov .va (fieldOf w 17 7) (fieldOf w 11 6))
  | 13 => some (.vimm (fieldOf w 17 7) (fieldOf w 16 1) (fieldOf w 0 16))
  | 14 => some (.vlane (fieldOf w 17 7) (fieldOf w 11 6) (fieldOf w 4 7))
  | 15 => some (.vld (fieldOf w 17 7) (fieldOf w 12 5) (fieldOf w 0 12))
  | 16 => some (.vst (fieldOf w 18 6) (fieldOf w 12 5) (fieldOf w 0 12))
  | _ => none

/-- The operation a word of the VB majors (R58) may be, its fields read off. -/
def candidateVb (w : Nat) : Option Instr :=
  match fieldOf w 24 5 with
  | 1 => match fieldOf w 0 5 with
    | 0 => some (.fadd .vb (fieldOf w 17 7) (fieldOf w 11 6) (fieldOf w 5 6))
    | 1 => some (.fsub .vb (fieldOf w 17 7) (fieldOf w 11 6) (fieldOf w 5 6))
    | 2 => some (.fmul .vb (fieldOf w 17 7) (fieldOf w 11 6) (fieldOf w 5 6))
    | 3 => some (.fmin .vb (fieldOf w 17 7) (fieldOf w 11 6) (fieldOf w 5 6))
    | 4 => some (.fmax .vb (fieldOf w 17 7) (fieldOf w 11 6) (fieldOf w 5 6))
    | _ => none
  | 2 => some (.fma .vb (fieldOf w 17 7) (fieldOf w 11 6) (fieldOf w 5 6) (fieldOf w 0 5))
  | 3 => some (.funa .vb (fieldOf w 17 7) (fieldOf w 11 6) (fieldOf w 0 5))
  | 4 => some (.iadd .vb (fieldOf w 17 7) (fieldOf w 11 6) (fieldOf w 5 6))
  | 5 => some (.fcmp .vb (fieldOf w 21 3) (fieldOf w 15 6) (fieldOf w 9 6) (fieldOf w 5 4))
  | 6 => some (.icmp .vb (fieldOf w 21 3) (fieldOf w 15 6) (fieldOf w 9 6) (fieldOf w 5 4))
  | 7 => some (.vsel .vb (fieldOf w 17 7) (fieldOf w 11 6) (fieldOf w 5 6) (fieldOf w 2 3))
  | 8 => some (.cvt .vb (fieldOf w 17 7) (fieldOf w 11 6) (fieldOf w 5 6) (fieldOf w 2 3) (fieldOf w 0 2))
  | 9 => some (.vmov .vb (fieldOf w 17 7) (fieldOf w 11 6))
  | 16 => some (.park (fieldOf w 18 6))
  | 17 => some (.unpark (fieldOf w 18 6))
  | 18 => some (.sfseed (fieldOf w 17 7) (fieldOf w 11 6) (fieldOf w 0 5))
  | 19 => some (.sfstep (fieldOf w 17 7) (fieldOf w 11 6) (fieldOf w 5 6) (fieldOf w 0 5))
  | 20 => some (.sftld (fieldOf w 19 5) (fieldOf w 15 4))
  | 21 => some (.rowsum (fieldOf w 17 7) (fieldOf w 11 6))
  | 22 => some (.rowmax (fieldOf w 17 7) (fieldOf w 11 6))
  | 23 => some (.rowstat (fieldOf w 17 7) (fieldOf w 11 6) (fieldOf w 5 6) (fieldOf w 0 5))
  | 24 => some (.smxup (fieldOf w 17 7) (fieldOf w 11 6) (fieldOf w 5 6) (fieldOf w 0 5))
  | 25 => some (.smxfix (fieldOf w 17 7) (fieldOf w 11 6) (fieldOf w 5 6))
  | 26 => some (.vperm (fieldOf w 17 7) (fieldOf w 11 6) (fieldOf w 5 6))
  | 27 => some (.vshuf (fieldOf w 17 7) (fieldOf w 11 6) (fieldOf w 5 6) (fieldOf w 0 5))
  | 28 => some (.vpfx (fieldOf w 17 7) (fieldOf w 11 6) (fieldOf w 0 5))
  | 29 => some (.vred (fieldOf w 17 7) (fieldOf w 11 6) (fieldOf w 0 5))
  | 30 => some (.topkp (fieldOf w 17 7) (fieldOf w 11 6) (fieldOf w 5 6) (fieldOf w 0 5))
  | 31 => some (.vscl (fieldOf w 17 7) (fieldOf w 11 6) (fieldOf w 5 6))
  | _ => none

/-- The operation a word of the MAT majors (R59) may be, its fields read off. -/
def candidateMat (w : Nat) : Option Instr :=
  match fieldOf w 24 5 with
  | 1 => some (.push (fieldOf w 18 6) (fieldOf w 16 2) (fieldOf w 5 8))
  | 2 => some (.shift (fieldOf w 18 6) (fieldOf w 16 2) (fieldOf w 13 3) (fieldOf w 5 8) (fieldOf w 4 1))
  | 3 => some (.acc (fieldOf w 18 6) (fieldOf w 13 3) (fieldOf w 5 8) (fieldOf w 4 1))
  | 4 => some (.drain (fieldOf w 17 7) (fieldOf w 14 3) (fieldOf w 6 8) (fieldOf w 5 1) (fieldOf w 4 1))
  | 5 => some (.mclr (fieldOf w 21 3) (fieldOf w 13 8) (fieldOf w 5 8))
  | 6 => some .axch
  | 7 => some (.acrd (fieldOf w 17 7) (fieldOf w 14 3) (fieldOf w 6 8) (fieldOf w 5 1))
  | 8 => some (.acwr (fieldOf w 18 6) (fieldOf w 13 3) (fieldOf w 5 8) (fieldOf w 4 1))
  | _ => none

/-- The operation a word of the SCN majors (R60) may be, its fields read off. -/
def candidateScn (w : Nat) : Option Instr :=
  match fieldOf w 24 5 with
  | 1 => some (.zop (fieldOf w 19 5))
  | 2 => some (.sloc (fieldOf w 22 2) (fieldOf w 21 1) (fieldOf w 20 1) (fieldOf w 14 6))
  | 3 => some (.sup (fieldOf w 22 2) (fieldOf w 21 1) (fieldOf w 20 1) (fieldOf w 14 6))
  | 4 => some (.sdn (fieldOf w 22 2) (fieldOf w 21 1) (fieldOf w 20 1) (fieldOf w 14 6))
  | 5 => some (.scry (fieldOf w 22 2) (fieldOf w 21 1) (fieldOf w 20 1) (fieldOf w 14 6))
  | 6 => some (.sapl (fieldOf w 22 2) (fieldOf w 21 1) (fieldOf w 20 1) (fieldOf w 14 6))
  | 7 => some (.zld (fieldOf w 18 6) (fieldOf w 12 6) (fieldOf w 6 6))
  | 8 => some (.zrd (fieldOf w 17 7) (fieldOf w 11 6) (fieldOf w 5 6))
  | 9 => some (.zclr (fieldOf w 18 6))
  | 10 => some (.zmov (fieldOf w 18 6) (fieldOf w 12 6))
  | 11 => match fieldOf w 5 1 with
    | 0 => some (.step (fieldOf w 18 6) (fieldOf w 12 6) (fieldOf w 6 6))
    | 1 => some (.stepSpec (fieldOf w 18 6) (fieldOf w 12 6) (fieldOf w 6 6))
    | _ => none
  | 12 => some (.sdot (fieldOf w 17 7) (fieldOf w 11 6) (fieldOf w 5 6))
  | _ => none

/-- The operation a word of the XFR majors (R61) may be, its fields read off. -/
def candidateXfr (w : Nat) : Option Instr :=
  match fieldOf w 24 5 with
  | 1 => some (.copy (fieldOf w 16 8) (fieldOf w 14 2) (fieldOf w 13 1) (fieldOf w 8 5))
  | 2 => some (.gath (fieldOf w 16 8) (fieldOf w 14 2) (fieldOf w 13 1) (fieldOf w 8 5))
  | 3 => some (.scat (fieldOf w 16 8) (fieldOf w 14 2) (fieldOf w 13 1) (fieldOf w 8 5))
  | 4 => some (.scacc (fieldOf w 16 8) (fieldOf w 14 2) (fieldOf w 13 1) (fieldOf w 8 5) (fieldOf w 0 8))
  | 5 => some (.amo (fieldOf w 16 8) (fieldOf w 8 5) (fieldOf w 0 8))
  | 6 => some (.pref (fieldOf w 16 8) (fieldOf w 8 5) (fieldOf w 0 8))
  | 7 => some (.rgwb (fieldOf w 16 8) (fieldOf w 8 5))
  | 8 => some (.rginv (fieldOf w 16 8) (fieldOf w 8 5))
  | 9 => some (.xwt (fieldOf w 16 8))
  | 10 => some (.btx (fieldOf w 18 6) (fieldOf w 12 6))
  | 11 => some (.bsel (fieldOf w 17 7) (fieldOf w 11 6))
  | 12 => match fieldOf w 0 8 with
    | 0 => some (.zspl (fieldOf w 16 8) (fieldOf w 8 5))
    | 1 => some (.zsplCopy (fieldOf w 16 8) (fieldOf w 8 5))
    | _ => none
  | 13 => some (.zfil (fieldOf w 16 8) (fieldOf w 8 5))
  | 14 => some (.rld (fieldOf w 17 7) (fieldOf w 12 5))
  | 15 => some (.rst (fieldOf w 18 6) (fieldOf w 13 5))
  | 16 => some (.coll (fieldOf w 16 8) (fieldOf w 14 2) (fieldOf w 13 1) (fieldOf w 8 5) (fieldOf w 0 8))
  | 17 => some (.smpq (fieldOf w 16 8) (fieldOf w 8 5))
  | 18 => some (.flkq (fieldOf w 16 8) (fieldOf w 8 5) (fieldOf w 0 8))
  | 19 => some (.wpset (fieldOf w 16 8) (fieldOf w 8 5))
  | 20 => some (.wpclr (fieldOf w 16 8) (fieldOf w 8 5))
  | 21 => some (.mskq (fieldOf w 16 8) (fieldOf w 8 5))
  | _ => none

/-- The queue-program operation a word may be (R128). -/
def candidateQp (w : Nat) : Option Instr :=
  match fieldOf w 26 6 with
  | 1 => some (.qAdd (fieldOf w 22 4) (fieldOf w 18 4) (fieldOf w 14 4))
  | 2 => some (.qSub (fieldOf w 22 4) (fieldOf w 18 4) (fieldOf w 14 4))
  | 3 => some (.qAnd (fieldOf w 22 4) (fieldOf w 18 4) (fieldOf w 14 4))
  | 4 => some (.qOr (fieldOf w 22 4) (fieldOf w 18 4) (fieldOf w 14 4))
  | 5 => some (.qXor (fieldOf w 22 4) (fieldOf w 18 4) (fieldOf w 14 4))
  | 6 => some (.qShl (fieldOf w 22 4) (fieldOf w 18 4) (fieldOf w 14 4))
  | 7 => some (.qShr (fieldOf w 22 4) (fieldOf w 18 4) (fieldOf w 14 4))
  | 8 => some (.qMinu (fieldOf w 22 4) (fieldOf w 18 4) (fieldOf w 14 4))
  | 9 => some (.qAddi (fieldOf w 22 4) (fieldOf w 18 4) (fieldOf w 0 14))
  | 10 => some (.qAndi (fieldOf w 22 4) (fieldOf w 18 4) (fieldOf w 0 14))
  | 11 => some (.qOri (fieldOf w 22 4) (fieldOf w 18 4) (fieldOf w 0 14))
  | 12 => some (.qShli (fieldOf w 22 4) (fieldOf w 18 4) (fieldOf w 0 14))
  | 13 => some (.qShri (fieldOf w 22 4) (fieldOf w 18 4) (fieldOf w 0 14))
  | 14 => some (.qLi (fieldOf w 22 4) (fieldOf w 0 22))
  | 15 => some (.qLdw (fieldOf w 22 4) (fieldOf w 18 4) (fieldOf w 14 2) (fieldOf w 0 14))
  | 16 => some (.qStw (fieldOf w 22 4) (fieldOf w 18 4) (fieldOf w 14 2) (fieldOf w 0 14))
  | 17 => some (.qBeq (fieldOf w 18 4) (fieldOf w 14 4) (fieldOf w 0 14))
  | 18 => some (.qBne (fieldOf w 18 4) (fieldOf w 14 4) (fieldOf w 0 14))
  | 19 => some (.qBltu (fieldOf w 18 4) (fieldOf w 14 4) (fieldOf w 0 14))
  | 20 => some (.qBgeu (fieldOf w 18 4) (fieldOf w 14 4) (fieldOf w 0 14))
  | 21 => some (.qJmp (fieldOf w 0 14))
  | 22 => some (.qLoop (fieldOf w 22 4) (fieldOf w 14 8) (fieldOf w 0 14))
  | 23 => some (.qPtim (fieldOf w 22 4))
  | 24 => some .qDone
  | 25 => some (.qSkip (fieldOf w 0 14))
  | 26 => some (.qFail (fieldOf w 0 14))
  | _ => none

/-- The operation a word of slot 7 may be (R26, R31). -/
def candidateBrt (w : Nat) : Option Instr :=
  if fieldOf w 31 1 = 1 then
    some (.seq (fieldOf w 23 8) (fieldOf w 21 2) (fieldOf w 18 3) (fieldOf w 17 1) (fieldOf w 16 1))
  else some (.tree (fieldOf w 30 1) (fieldOf w 21 7) (fieldOf w 14 7) (fieldOf w 7 7) (fieldOf w 0 7))

/-- The operation whose fields a word's bits may be, by slot. -/
def candidate (slot w : Nat) : Option Instr :=
  match slot with
  | 0 => candidateCtl w
  | 1 => candidateInt w
  | 2 => candidateVa w
  | 3 => candidateVb w
  | 4 => candidateMat w
  | 5 => candidateScn w
  | 6 => candidateXfr w
  | _ => candidateBrt w

/-- The operation of the low 29 bits of a slot word (the whole word for slot 7): a candidate whose fields are in range and
whose reserved bits are zero, so that its own encoding is the word (R54). -/
def decodeOps (slot w : Nat) : Option Instr :=
  match candidate slot w with
  | some i => if i.wf = true ∧ encodeOps i = some (slot, w) then some i else none
  | none => none

/-- A word of a bundle's slot (R23 to R26, R31, R49). -/
def decodeSlot (slot word : Nat) : Decoded :=
  if word = 0 then .nop
  else if slot = 7 then
    match decodeOps 7 word with
    | some i => .op 0 i
    | none => .bad .unassigned
  else
    let tag := fieldOf word 29 3
    if tag = 7 then .bad .pathTag
    else if fieldOf word 24 5 = 0 then .bad .nopBits
    else match decodeOps slot (word % 536870912) with
      | some i => .op tag i
      | none => .bad .unassigned

/-- The INT majors 24 to 28 exist on a Colt only (R63). -/
def coltOnly (i : Instr) : Bool :=
  match encodeOps i with
  | some (1, w) => decide (24 ≤ fieldOf w 24 5)
  | _ => false

/-- The operations a Colt implements (R63). -/
def onColt (i : Instr) : Bool :=
  match encodeOps i with
  | some (0, w) => [1, 3, 4, 5, 7, 8, 9, 12, 13, 14, 15, 16, 17, 18, 19, 20].contains (fieldOf w 24 5)
  | some (1, w) => [1, 2, 3, 4, 6, 7, 8, 24, 25, 26, 27, 28].contains (fieldOf w 24 5)
  | some (7, _) => true
  | _ => false

/-- The operations that single-operation mode forbids: END, PLSW, the sequencer, group, barrier and loop-kernel words, and
the engine, scan and Bench words whose home chapters say so (R63, R141, R188, R280, R316, R345, R370, R372, R394, R407,
R417, R421); CALL and RET to a tile in handler mode. -/
def bannedSingle (i : Instr) : Bool := 
  match encodeOps i with
  | some (0, w) => let m := fieldOf w 24 5; m = 2 || m = 4 || m = 5 || decide (21 ≤ m)
  | some (4, _) => true
  | some (5, w) => let m := fieldOf w 24 5; decide (2 ≤ m) && decide (m ≤ 10)
  | some (6, w) => [14, 15, 16, 17, 19, 20, 21].contains (fieldOf w 24 5)
  | _ => false

/-- A single-operation word (R62): bits 31–29 are the slot; SL 7 is a TREE with bit 28 reserved. -/
def decodeSingle (colt : Bool) (word : Nat) : Decoded :=
  if word = 0 then .nop
  else
    let sl := fieldOf word 29 3
    let w := word % 536870912
    let i? : Option Instr :=
      if sl = 7 then
        if w < 268435456 then some (.tree 0 (fieldOf w 21 7) (fieldOf w 14 7) (fieldOf w 7 7) (fieldOf w 0 7)) else none
      else decodeOps sl w
    match i? with
    | none => .bad (if sl ≠ 7 ∧ fieldOf word 24 5 = 0 then .nopBits else .unassigned)
    | some i =>
      if colt then (if onColt i then .op 0 i else .bad .notHere)
      else if coltOnly i || bannedSingle i then .bad .notHere else .op 0 i

/-- A queue-program word (R128): fields a form does not use are zero. -/
def decodeQp (w : Nat) : Option Instr :=
  match candidateQp w with
  | some i => if i.wf = true ∧ encodeQp i = some w then some i else none
  | none => none

/-- The slot word of a well-formed operation with path tag 0, and its slot (R23). -/
def encode (i : Instr) : Option (Nat × Nat) := if i.wf then encodeOps i else none

/-- The single-operation word of an operation (R62). -/
def encodeSingle (i : Instr) : Option Nat :=
  match encode i with
  | some (sl, w) => if sl = 7 then (if w < 268435456 then some (3758096384 + w) else none) else some (536870912 * sl + w)
  | none => none

/-- The words the table of operations gives an encoding: Colt words in single-operation form and queue-program words. Where
a word is both (SAMCFG to TOKW share their leading bits with LI and LDW), the Colt's reading is answered (log 5). -/
def decodeTableWord (nbits w : Nat) : Option Instr :=
  if nbits ≠ 32 then none
  else match decodeSingle true w with
    | .op _ i => if coltOnly i then some i else decodeQp w
    | _ => decodeQp w

end Sys2Proof
end

