-- ==== Sys2Proof/Config.lean ====
section
/-! DEFINITION. The fixed facts of one device, and the free values: what the spec leaves open is an opaque constant
without a body, so that nothing can be proved about which value it is. -/
namespace Sys2Proof.Config

/-- A reciprocal seed asked of a value that is no finite non-zero number (log 1): R87 gives rcp_core and rsq_core only for
operands that decompose. -/
opaque sfOutside : Nat → Nat

/-- The home stack of a 64-byte line of package memory (log 2): R8 and R9 speak of a line's home stack, and no rule gives
the interleaving of addresses over the eight stacks. -/
opaque homeStack : Nat → Nat

/-- A fresh open value, drawn with the counter State.freeCount. -/
opaque freeValue : Nat → Nat

/-- Ed25519 (R430, R437): whether a 64-byte signature verifies over a message under a key of the fused list of that number
(log 7); number 8 stands for the debug key list. -/
opaque signatureOk : Nat → List Byte → List Byte → Bool

/-- SHA-512 of a message, 64 bytes as a number (R430, R437, R439; log 7). -/
opaque sha512 : List Byte → Nat

/-- The signature of the device identity key over a message, 64 bytes as a number (R439; log 7). -/
opaque sign : List Byte → Nat

/-- The device identity public key, 32 bytes as a number (R430, R439; log 7). -/
opaque deviceKey : Nat

/-- The fused rollback floor (R437; log 7). -/
opaque rollbackFloor : Nat

/-- Bits 23–16 of DEVID (R426): the device's revision, which no rule gives. -/
opaque deviceRevision : Nat

/-- ARGS of a loop kernel (log 34): R133 gives every kernel an argument block, and no field of a LOOPL packet names it; the
value is open for each packet. -/
opaque looplArgs : List Byte → Nat

/-- The debug spaces 0 and 1 (R436, log 45): R107 lists what sections 3 and 2 hold and gives no byte offsets; which item lies at
an offset of a space is open. -/
opaque debugLayout : Nat → Nat → Nat

/-- WHERE of a snapshot entry (R353, log 46): its fields are named and not placed. -/
opaque snapshotWhere : Nat → Nat

/-- The payload of a snapshot entry whose form is named and not laid out (R353, log 46). -/
opaque snapshotBytes : Nat → List Byte

/-- The attestation report made of its fields (R439, log 47): the fields are listed and not placed. -/
opaque attestationReport : List Byte → List Byte

end Sys2Proof.Config
end

