-- ==== Sys2Proof/Machine/SMap.lean ====
section
/-! DEFINITION. Sparse maps: a list of (key, value) pairs in one canonical form (keys strictly rising, no entry equal
to what an unlisted key reads as). Registers, tiles, cores, memories and tables are held so; equal maps are equal data. -/
namespace Sys2Proof.Machine

/-- A sparse map from numbered places to values. -/
abbrev SMap (β : Type) := List (Nat × β)

/-- What place `k` holds; an unlisted place holds `d`. -/
def sget {β : Type} (d : β) : SMap β → Nat → β
  | [], _ => d
  | (j, v) :: m, k => if j = k then v else sget d m k

/-- The map without an entry at `k`. -/
def sdrop {β : Type} (m : SMap β) (k : Nat) : SMap β := m.filter (fun e => decide (e.1 ≠ k))

/-- The map with an entry (k, v) in key order, whatever v is. -/
def sput {β : Type} : SMap β → Nat → β → SMap β
  | [], k, v => [(k, v)]
  | (j, w) :: m, k, v =>
    if j = k then (k, v) :: m else if k < j then (k, v) :: (j, w) :: m else (j, w) :: sput m k v

/-- Write place `k`: writing what an unlisted place holds removes the entry. -/
def sset {β : Type} [DecidableEq β] (d : β) (m : SMap β) (k : Nat) (v : β) : SMap β :=
  if v = d then sdrop m k else sput m k v

/-- Change place `k` by a function. -/
def smod {β : Type} [DecidableEq β] (d : β) (m : SMap β) (k : Nat) (f : β → β) : SMap β :=
  sset d m k (f (sget d m k))

/-- All keys of the map are at least `lo`, they rise strictly, and no entry equals `d`: the canonical form. -/
def swfFrom {β : Type} [DecidableEq β] (d : β) : Nat → SMap β → Bool
  | _, [] => true
  | lo, (j, v) :: m => decide (lo ≤ j) && decide (v ≠ d) && swfFrom d (j + 1) m

/-- The canonical form of a sparse map. -/
def swf {β : Type} [DecidableEq β] (d : β) (m : SMap β) : Bool := swfFrom d 0 m

end Sys2Proof.Machine
end

