-- ==== Sys2Proof/Machine/Flags.lean ====
section
/-! DEFINITION. The sticky flags (R90), the matrix counters (R91) and their application (R92). -/
namespace Sys2Proof.Machine

/-- The flags an operation collects, in the layout of FLAGS (R90): bit 5 NB, 4 SA, 3 NX, 2 UF, 1 OF, 0 IV. -/
abbrev Flags := BitVec 6

/-- IV: an invalid operation or a signalling NaN operand (R90). -/
def flIV : Flags := 1
/-- OF: a result overflowed, or an infinity was quantised (R90). -/
def flOF : Flags := 2
/-- UF: a result was tiny and inexact, or a BF16 result was flushed (R90). -/
def flUF : Flags := 4
/-- NX: a result was inexact (R90). -/
def flNX : Flags := 8
/-- SA: a value was clamped to a format's range (R90). -/
def flSA : Flags := 16
/-- NB: a quantisation produced a NaN block, or a beat consumed one (R90). -/
def flNB : Flags := 32

/-- The counter increments of one operation in the layout of a snapshot entry's MX byte (R353):
bit 0 INV, 1 SATQ, 2 OVF, 3 NBLK; at most one increment of each (R92). -/
abbrev MxInc := BitVec 4
def mxINV : MxInc := 1
def mxSATQ : MxInc := 2
def mxOVF : MxInc := 4
def mxNBLK : MxInc := 8

/-- MXCNT (R91): four 16-bit counters. -/
structure MxCnt where
  nblk : BitVec 16 := 0
  ovf : BitVec 16 := 0
  satq : BitVec 16 := 0
  inv : BitVec 16 := 0
  deriving DecidableEq, Repr

/-- A counter stops at 0xFFFF and does not wrap (R91). -/
def satInc (c : BitVec 16) (b : Bool) : BitVec 16 := if b && c != 0xFFFF#16 then c + 1 else c

/-- Add one operation's increments (R92). -/
def MxCnt.add (c : MxCnt) (m : MxInc) : MxCnt :=
  { nblk := satInc c.nblk (m.getLsbD 3), ovf := satInc c.ovf (m.getLsbD 2),
    satq := satInc c.satq (m.getLsbD 1), inv := satInc c.inv (m.getLsbD 0) }

/-- MXCNT as the 64-bit register that CSRR reads (R91). -/
def MxCnt.pack (c : MxCnt) : DWord := c.nblk ++ c.ovf ++ c.satq ++ c.inv

/-- MXCNT as CSRW writes it (R91, R92). -/
def MxCnt.unpack (w : DWord) : MxCnt :=
  { nblk := w.extractLsb' 48 16, ovf := w.extractLsb' 32 16,
    satq := w.extractLsb' 16 16, inv := w.extractLsb' 0 16 }

end Sys2Proof.Machine
end

