-- ==== Sys2Proof/Machine/Float.lean ====
section
/-! DEFINITION. FP32, BF16 and I32 arithmetic, exact and then rounded once (R73 to R79, R93). -/
namespace Sys2Proof.Machine

/-- A floating-point operand as an exact value: a NaN (signalling or quiet), an infinity, or the finite number
(−1)^neg · m · 2^e. A zero has m = 0 and keeps its sign. -/
inductive FVal where
  | nan (signalling : Bool)
  | inf (neg : Bool)
  | fin (neg : Bool) (m : Nat) (e : Int)
  deriving DecidableEq, Repr

/-- The rounding modes of R75. -/
inductive RMode where
  | rne | rtz | rup | rdn
  deriving DecidableEq, Repr

/-- The mode of a round field code (R75). -/
def RMode.ofCode (c : Nat) : RMode :=
  match c with
  | 0 => .rne
  | 1 => .rtz
  | 2 => .rup
  | _ => .rdn

/-- The two register floating-point formats (R73). -/
inductive FFmt where
  | fp32 | bf16
  deriving DecidableEq, Repr

/-- The fraction bits of a format (R73). -/
def FFmt.fracBits : FFmt → Nat
  | .fp32 => 23
  | .bf16 => 7

/-- An operation's result bits with the flags it collects (R92). -/
abbrev Fl := Nat × Flags

/-- Read a bit pattern of a format as a value; a BF16 operand with exponent field 0 is a zero of its sign (R77). -/
def fdecode (f : FFmt) (b : Nat) : FVal :=
  let fb := f.fracBits
  let frac := b % 2 ^ fb
  let ex := b / 2 ^ fb % 256
  let neg := b / 2 ^ (fb + 8) % 2 = 1
  if ex = 255 then
    if frac = 0 then .inf neg else .nan (frac < 2 ^ (fb - 1))
  else if ex = 0 then
    match f with
    | .fp32 => .fin neg frac (-149)
    | .bf16 => .fin neg 0 0
  else .fin neg (2 ^ fb + frac) ((ex : Int) - 127 - fb)

/-- The sign bit of a pattern as a number to add. -/
def fsign (f : FFmt) (neg : Bool) : Nat := if neg then 2 ^ (f.fracBits + 8) else 0

/-- The canonical NaN (R76). -/
def fcnan : FFmt → Nat
  | .fp32 => 0x7FC00000
  | .bf16 => 0x7FC0

/-- An infinity. -/
def finf (f : FFmt) (neg : Bool) : Nat := fsign f neg + 255 * 2 ^ f.fracBits

/-- A zero of a sign. -/
def fzero (f : FFmt) (neg : Bool) : Nat := fsign f neg

/-- The largest finite magnitude with a sign. -/
def fmaxFinite (f : FFmt) (neg : Bool) : Nat := fsign f neg + 255 * 2 ^ f.fracBits - 1

/-- ⌊log2 (n · 2^e / d)⌋ for positive n and d. -/
def ilog2Ratio (n : Nat) (e : Int) (d : Nat) : Int :=
  let g : Int := (n.log2 : Int) - d.log2
  -- n/d lies in (2^(g−1), 2^(g+1)): decide whether it reaches 2^g
  let reaches := if g ≥ 0 then decide (d * 2 ^ g.toNat ≤ n) else decide (d ≤ n * 2 ^ (-g).toNat)
  (if reaches then g else g - 1) + e

/-- Divide n · 2^s by d: quotient and whether the remainder is zero, below, at or above one half
(0 exact, 1 below half, 2 half, 3 above half). -/
def divParts (n : Nat) (s : Int) (d : Nat) : Nat × Nat :=
  let num := if s ≥ 0 then n * 2 ^ s.toNat else n
  let den := if s ≥ 0 then d else d * 2 ^ (-s).toNat
  let q := num / den
  let r := num % den
  (q, if r = 0 then 0 else if 2 * r < den then 1 else if 2 * r = den then 2 else 3)

/-- Whether a quotient with those remainder parts is rounded away from zero (R75). -/
def roundsUp (mode : RMode) (neg : Bool) (q part : Nat) : Bool :=
  match mode with
  | .rne => part = 3 || (part = 2 && q % 2 = 1)
  | .rtz => false
  | .rup => part ≠ 0 && !neg
  | .rdn => part ≠ 0 && neg

/-- What an overflow returns (R75). -/
def overflowBits (f : FFmt) (mode : RMode) (neg : Bool) : Nat :=
  match mode with
  | .rne => finf f neg
  | .rtz => fmaxFinite f neg
  | .rup => if neg then fmaxFinite f true else finf f false
  | .rdn => if neg then finf f true else fmaxFinite f false

/-- round_fp32 and round_bf16 of R75 to R77: round the exact real (−1)^neg · n · 2^e / d, where `neg` is also the sign
of an exact zero. -/
def fround (f : FFmt) (mode : RMode) (neg : Bool) (n : Nat) (e : Int) (d : Nat := 1) : Fl :=
  if n = 0 then (fzero f neg, 0) else
  let fb := f.fracBits
  let lg := ilog2Ratio n e d
  let ex : Int := match f with
    | .fp32 => if lg < -126 then -126 else lg
    | .bf16 => lg
  let qe : Int := ex - fb
  let (q, part) := divParts n (e - qe) d
  let m := if roundsUp mode neg q part then q + 1 else q
  let nx : Flags := if part = 0 then 0 else flNX
  -- a carry out of the significand
  let (m, ex) := if m = 2 ^ (fb + 1) then (2 ^ fb, ex + 1) else (m, ex)
  if ex > 127 then (overflowBits f mode neg, flOF ||| flNX)
  else match f with
    | .bf16 => if ex < -126 then (fzero f neg, flUF ||| flNX)
               else (fsign f neg + (ex + 127).toNat * 2 ^ fb + (m - 2 ^ fb), if lg < -126 ∧ part ≠ 0 then nx ||| flUF else nx)
    | .fp32 =>
      let uf : Flags := if lg < -126 ∧ part ≠ 0 then flUF else 0
      if m < 2 ^ fb then (fsign f neg + m, nx ||| uf)
      else (fsign f neg + (ex + 127).toNat * 2 ^ fb + (m - 2 ^ fb), nx ||| uf)

/-- An exact sum of two finite numbers, as sign, magnitude and exponent; `none` for an exact zero. -/
def exactAdd (n1 : Bool) (m1 : Nat) (e1 : Int) (n2 : Bool) (m2 : Nat) (e2 : Int) : Int × Int :=
  let e := if e1 ≤ e2 then e1 else e2
  let a : Int := (m1 : Int) * 2 ^ (e1 - e).toNat
  let b : Int := (m2 : Int) * 2 ^ (e2 - e).toNat
  ((if n1 then -a else a) + (if n2 then -b else b), e)

/-- The sign of an exact zero sum (R75): both operands of one sign keep it; otherwise +0, and −0 in RDN. -/
def zeroSumSign (mode : RMode) (n1 n2 : Bool) : Bool := if n1 = n2 then n1 else decide (mode = .rdn)

/-- A NaN operand: the canonical NaN, with IV when signalling (R76). -/
def nanResult (f : FFmt) (signalling : Bool) : Fl := (fcnan f, if signalling then flIV else 0)

/-- An invalid operation (R76). -/
def invalidResult (f : FFmt) : Fl := (fcnan f, flIV)

/-- Whether a value is a signalling NaN. -/
def FVal.isSnan : FVal → Bool
  | .nan s => s
  | _ => false

def FVal.isNan : FVal → Bool
  | .nan _ => true
  | _ => false

def FVal.isInf : FVal → Bool
  | .inf _ => true
  | _ => false

def FVal.isZero : FVal → Bool
  | .fin _ m _ => m = 0
  | _ => false

/-- The sign of a value; a NaN counts as positive. -/
def FVal.sign : FVal → Bool
  | .nan _ => false
  | .inf n => n
  | .fin n _ _ => n

/-- The value with its sign inverted (exact). -/
def FVal.negate : FVal → FVal
  | .nan s => .nan s
  | .inf n => .inf (!n)
  | .fin n m e => .fin (!n) m e

def FVal.abs : FVal → FVal
  | .nan s => .nan s
  | .inf _ => .inf false
  | .fin _ m e => .fin false m e

/-- Sum of two values rounded once to a format (R75, R76). -/
def faddV (f : FFmt) (mode : RMode) (a b : FVal) : Fl :=
  match a, b with
  | .nan s, .nan t => nanResult f (s || t)
  | .nan s, _ => nanResult f s
  | _, .nan s => nanResult f s
  | .inf n, .inf k => if n = k then (finf f n, 0) else invalidResult f
  | .inf n, _ => (finf f n, 0)
  | _, .inf n => (finf f n, 0)
  | .fin n1 m1 e1, .fin n2 m2 e2 =>
    let (v, e) := exactAdd n1 m1 e1 n2 m2 e2
    if v = 0 then (fzero f (zeroSumSign mode n1 n2), 0)
    else fround f mode (decide (v < 0)) v.natAbs e

/-- Product of two values rounded once to a format (R75, R76). -/
def fmulV (f : FFmt) (mode : RMode) (a b : FVal) : Fl :=
  match a, b with
  | .nan s, .nan t => nanResult f (s || t)
  | .nan s, _ => nanResult f s
  | _, .nan s => nanResult f s
  | .inf n, .inf k => (finf f (n != k), 0)
  | .inf n, .fin k m _ => if m = 0 then invalidResult f else (finf f (n != k), 0)
  | .fin k m _, .inf n => if m = 0 then invalidResult f else (finf f (n != k), 0)
  | .fin n1 m1 e1, .fin n2 m2 e2 => fround f mode (n1 != n2) (m1 * m2) (e1 + e2)

/-- a · b + c rounded once to a format (R93, specials of R76: 0 × ∞ is invalid whatever the addend). -/
def ffmaV (f : FFmt) (mode : RMode) (a b c : FVal) : Fl :=
  let snan := a.isSnan || b.isSnan || c.isSnan
  let zinf := (a.isZero && b.isInf) || (a.isInf && b.isZero)
  if zinf then invalidResult f
  else if a.isNan || b.isNan || c.isNan then nanResult f snan
  else match a, b, c with
  | .fin n1 m1 e1, .fin n2 m2 e2, .fin n3 m3 e3 =>
    let np := n1 != n2
    let (v, e) := exactAdd np (m1 * m2) (e1 + e2) n3 m3 e3
    if v = 0 then (fzero f (zeroSumSign mode np n3), 0)
    else fround f mode (decide (v < 0)) v.natAbs e
  | .fin _ _ _, .fin _ _ _, c => (finf f c.sign, 0)
  | a, b, .inf n3 => if (a.sign != b.sign) = n3 then (finf f n3, 0) else invalidResult f
  | a, b, _ => (finf f (a.sign != b.sign), 0)

/-- Compare two non-NaN values: less, equal or greater; −0 equals +0. -/
def fcmpV (a b : FVal) : Ordering :=
  match a, b with
  | .inf n, .inf k => if n = k then .eq else if n then .lt else .gt
  | .inf n, _ => if n then .lt else .gt
  | _, .inf n => if n then .gt else .lt
  | .fin n1 m1 e1, .fin n2 m2 e2 =>
    let (v, _) := exactAdd n1 m1 e1 (!n2) m2 e2
    if v < 0 then .lt else if v = 0 then .eq else .gt
  | _, _ => .eq

/-- The bits of an exactly representable value in its own format: the operand as read (R77). -/
def fexact (f : FFmt) (b : Nat) : Nat :=
  match fdecode f b with
  | .fin n m _ => if m = 0 then fzero f n else b
  | _ => b

/-- FMIN and FMAX of R208: exact, −0 below +0; a NaN operand gives the canonical NaN. -/
def fminmax (f : FFmt) (isMax : Bool) (a b : Nat) : Fl :=
  let va := fdecode f a
  let vb := fdecode f b
  if va.isNan || vb.isNan then nanResult f (va.isSnan || vb.isSnan)
  else
    let aLess := match fcmpV va vb with
      | .lt => true
      | .gt => false
      | .eq => va.sign && !vb.sign
    -- a is the result of FMIN when it ranks below b
    let takeA := if isMax then !aLess else aLess
    (fexact f (if takeA then a else b), 0)

/-- FADD, FSUB and FMUL on bit patterns of one format (R208). -/
def fadd (f : FFmt) (a b : Nat) : Fl := faddV f .rne (fdecode f a) (fdecode f b)
def fsub (f : FFmt) (a b : Nat) : Fl := faddV f .rne (fdecode f a) (fdecode f b).negate
def fmul (f : FFmt) (a b : Nat) : Fl := fmulV f .rne (fdecode f a) (fdecode f b)
/-- FMA, FMS and FNMA (R209): the product and the addend may be negated before the one rounding. -/
def ffma (f : FFmt) (negP negC : Bool) (a b c : Nat) : Fl :=
  let va := fdecode f a
  let vc := fdecode f c
  ffmaV f .rne (if negP then va.negate else va) (fdecode f b) (if negC then vc.negate else vc)

/-- Round an exact value to an integer in a mode: the integer and whether it changed. -/
def roundInt (mode : RMode) (neg : Bool) (m : Nat) (e : Int) : Int × Bool :=
  let (q, part) := divParts m e 1
  let r := if roundsUp mode neg q part then q + 1 else q
  (if neg then -(r : Int) else r, part ≠ 0)

/-- An operand's pattern as an operation reads it: a BF16 operand with exponent field 0 is a zero of its sign (R77). -/
def readsAs (f : FFmt) (a : Nat) : Nat :=
  match f with
  | .bf16 => if a / 128 % 256 = 0 then a / 32768 * 32768 else a
  | .fp32 => a
/-- FUNA functions of R210 on one element. -/
def funa (f : FFmt) (fn : Nat) (a : Nat) : Fl :=
  let sb := 2 ^ (f.fracBits + 8)
  match fn with
  | 0 => let v := readsAs f a; (if v < sb then v + sb else v - sb, 0)
  | 1 => (readsAs f a % sb, 0)
  | 6 => match fdecode f a with
    | .nan s => nanResult f s
    | .inf n => (if n then fzero f false else a, 0)
    | .fin n m _ => (if n then fzero f false else if m = 0 then fzero f false else a, 0)
  | _ =>
    let mode : RMode := match fn with
      | 2 => .rne
      | 3 => .rtz
      | 4 => .rup
      | _ => .rdn
    match fdecode f a with
    | .nan s => nanResult f s
    | .inf n => (finf f n, 0)
    | .fin n m e =>
      if m = 0 then (fzero f n, 0) else
      let (v, chg) := roundInt mode n m e
      let (r, _) := fround f .rne n v.natAbs 0
      (r, if chg then flNX else 0)

/-- FP32 to I32 (R79). -/
def f2i (mode : RMode) (a : Nat) : Nat × Flags :=
  match fdecode .fp32 a with
  | .nan _ => (0, flIV)
  | .inf n => (if n then 0x80000000 else 0x7FFFFFFF, flIV ||| flSA)
  | .fin n m e =>
    let (v, chg) := roundInt mode n m e
    if v > 2147483647 then (0x7FFFFFFF, flIV ||| flSA)
    else if v < -2147483648 then (0x80000000, flIV ||| flSA)
    else ((wrap32 v).toNat, if chg then flNX else 0)

/-- I32 to FP32 (R79). -/
def i2f (mode : RMode) (a : Nat) : Fl :=
  let v := sextNat a 32
  fround .fp32 mode (decide (v < 0)) v.natAbs 0

/-- FP32 to BF16 (R79). -/
def f2bf (mode : RMode) (a : Nat) : Fl :=
  match fdecode .fp32 a with
  | .nan s => nanResult .bf16 s
  | .inf n => (finf .bf16 n, 0)
  | .fin n m e => fround .bf16 mode n m e

/-- BF16 to FP32, exact (R79): an operand with exponent field 0 gives a signed zero; a NaN gives the canonical NaN (R76). -/
def bf2f (a : Nat) : Fl :=
  match fdecode .bf16 a with
  | .nan s => nanResult .fp32 s
  | .inf n => (finf .fp32 n, 0)
  | .fin n m e => fround .fp32 .rne n m e

/-- round_fp32 of an exact value in RNE, flags dropped. -/
def rnd32 (v : FVal) : Nat :=
  match v with
  | .nan _ => fcnan .fp32
  | .inf n => finf .fp32 n
  | .fin n m e => (fround .fp32 .rne n m e).1

/-- FP32 shorthand, results with flags. -/
def add32 (a b : Nat) : Fl := fadd .fp32 a b
def sub32 (a b : Nat) : Fl := fsub .fp32 a b
def mul32 (a b : Nat) : Fl := fmul .fp32 a b
def fma32 (a b c : Nat) : Fl := ffma .fp32 false false a b c
def dec32 (a : Nat) : FVal := fdecode .fp32 a
def neg32 (a : Nat) : Nat := (funa .fp32 0 a).1
def abs32 (a : Nat) : Nat := (funa .fp32 1 a).1
def nan32 (a : Nat) : Bool := (dec32 a).isNan
/-- a < b on FP32 patterns; false with a NaN. -/
def lt32 (a b : Nat) : Bool := !(nan32 a) && !(nan32 b) && fcmpV (dec32 a) (dec32 b) = .lt
def le32 (a b : Nat) : Bool := !(nan32 a) && !(nan32 b) && fcmpV (dec32 a) (dec32 b) ≠ .gt
def eq32 (a b : Nat) : Bool := !(nan32 a) && !(nan32 b) && fcmpV (dec32 a) (dec32 b) = .eq

/-- 1.0, −∞, +∞ and +0 in FP32. -/
def one32 : Nat := 0x3F800000
def ninf32 : Nat := 0xFF800000
def pinf32 : Nat := 0x7F800000

/-- FCMP of R212: the truth value and the flags. -/
def fcmpCC (cc : Nat) (a b : Nat) : Bool × Flags :=
  let va := dec32 a
  let vb := dec32 b
  let sn : Flags := if va.isSnan || vb.isSnan then flIV else 0
  if va.isNan || vb.isNan then
    match cc with
    | 0 => (false, sn)
    | 1 => (true, sn)
    | 6 => (true, sn)
    | 7 => (false, sn)
    | _ => (false, flIV)
  else
    let o := fcmpV va vb
    match cc with
    | 0 => (o = .eq, 0)
    | 1 => (o ≠ .eq, 0)
    | 2 => (o = .lt, 0)
    | 3 => (o ≠ .gt, 0)
    | 4 => (o = .gt, 0)
    | 5 => (o ≠ .lt, 0)
    | 6 => (false, 0)
    | _ => (true, 0)

/-- ICMP of R212: signed, or unsigned for ltu (4) and geu (5). CC codes 2 lt, 3 ge. -/
def icmpCC (cc : Nat) (a b : Nat) : Bool :=
  let sa := sextNat a 32
  let sb := sextNat b 32
  match cc with
  | 0 => a = b
  | 1 => a ≠ b
  | 2 => sa < sb
  | 3 => sa ≥ sb
  | 4 => a < b
  | _ => a ≥ b

end Sys2Proof.Machine
end

