-- ==== Sys2Proof/Machine/Mx.lean ====
section
/-! DEFINITION. The narrow block formats MXINT4 to MXINT16: value, quantisation and beat accumulation (R80 to R84, R93). -/
namespace Sys2Proof.Machine

/-- An MXINT block: its scale E and sixteen codes, as integers (R80). -/
structure MxBlock where
  e : Nat
  codes : List Int
  deriving DecidableEq, Repr

/-- mx_value of R93: canonical NaN when E = 255, else c · 2^(E − 127 − (b − 2)). -/
def mxValue (b : Nat) (e : Nat) (c : Int) : FVal :=
  if e = 255 then .nan false
  else .fin (decide (c < 0)) c.natAbs ((e : Int) - 127 - ((b : Int) - 2))

/-- The larger of two finite magnitudes m · 2^e, as (m, e). -/
def magMax (a b : Nat × Int) : Nat × Int :=
  match fcmpV (.fin false a.1 a.2) (.fin false b.1 b.2) with
  | .lt => b
  | _ => a

/-- The largest finite magnitude among values; (0, 0) when there is none (R93). -/
def largestMag : List FVal → Nat × Int
  | [] => (0, 0)
  | .fin _ m e :: vs => magMax (m, e) (largestMag vs)
  | _ :: vs => largestMag vs

/-- sat_int of R93. -/
def satInt (v : Int) (n : Nat) : Int × Flags :=
  if v > 2 ^ (n - 1) - 1 then (2 ^ (n - 1) - 1, flSA)
  else if v < -(2 ^ (n - 1)) then (-(2 ^ (n - 1)), flSA)
  else (v, 0)

/-- The code of one element at scale E, its flags and whether it is inexact (R93). -/
def mxCode (b : Nat) (e : Nat) (x : FVal) : Int × Flags × Bool :=
  match x with
  | .nan _ => (0, 0, false)
  | .inf n => (if n then -(2 ^ (b - 1)) else 2 ^ (b - 1) - 1, flOF ||| flSA, false)
  | .fin n m ex =>
    let (r, chg) := roundInt .rne n m (ex + 127 - (e : Int) + (b : Int) - 2)
    let (c, fl) := satInt r b
    (c, fl, chg)

/-- mx_quantise of R93. -/
def mxQuantise (x : List FVal) (b : Nat) (quiet : Bool) : MxBlock × Flags :=
  if x.any FVal.isNan then ({ e := 255, codes := List.replicate 16 0 }, flNB)
  else
    let (m, me) := largestMag x
    let lg := ilog2Ratio m me 1
    let e := if m = 0 then 0 else (lg + 127).toNat
    let cs := x.map (mxCode b e)
    let fl := cs.foldl (fun f c => f ||| c.2.1) 0
    let inexact := cs.any (fun c => c.2.2)
    let nx : Flags := if inexact && !quiet then flNX else 0
    let uf : Flags := if inexact && !quiet && m ≠ 0 && lg + 127 < 0 then flUF else 0
    ({ e := e, codes := cs.map (fun c => c.1) }, fl ||| nx ||| uf)

/-- The MXCNT increment of a quantisation: SATQ when it clamped an element or quantised an infinity (R91). -/
def mxQuantInc (fl : Flags) : MxInc := if fl.getLsbD 4 then mxSATQ else 0

/-- Code i of the element bytes of a block, read as one little-endian bit string (R81). -/
def mxCodeAt (b : Nat) (bits i : Nat) : Int := sextNat (bits / 2 ^ (b * i)) b

/-- A block from its 2b element bytes and its scale (R81). -/
def mxUnpack (b : Nat) (bytes : List Byte) (e : Nat) : MxBlock :=
  { e := e, codes := (upTo 16).map (mxCodeAt b (leNat bytes)) }

/-- The element bytes of a block (R81). -/
def mxPack (b : Nat) (codes : List Int) : List Byte :=
  leBytes (2 * b) (codes.foldr (fun c acc => acc * 2 ^ b + (c % (2 ^ b : Int)).toNat) 0)

/-- The exact integer dot product of two code lists. -/
def codeDot : List Int → List Int → Int
  | a :: as, b :: bs => a * b + codeDot as bs
  | _, _ => 0

/-- mx_block_product of R84, with the flags and the counter increments of the product. -/
def mxBlockProduct (b : Nat) (x y : MxBlock) : Nat × Flags × MxInc :=
  if x.e = 255 || y.e = 255 then (fcnan .fp32, flNB, mxNBLK)
  else
    let s := codeDot x.codes y.codes
    let (r, fl) := fround .fp32 .rne (decide (s < 0)) s.natAbs
      ((x.e : Int) + y.e - 254 - 2 * ((b : Int) - 2))
    (r, fl, if fl.getLsbD 1 then mxOVF else 0)

/-- The counter increments of one accumulating sum (R84): OVF on overflow, INV on ∞ + (−∞). -/
def accInc (fl : Flags) (wasInvalid : Bool) : MxInc :=
  (if fl.getLsbD 1 then mxOVF else 0) ||| (if wasInvalid then mxINV else 0)

/-- One accumulator element plus one product or addend (R84). -/
def accAdd (acc t : Nat) : Nat × Flags × MxInc :=
  let (r, fl) := add32 acc t
  let inv := match dec32 acc, dec32 t with
    | .inf a, .inf b => a != b
    | _, _ => false
  (r, fl, accInc fl inv)

/-- mat_accumulate of R84 over the K-blocks of a beat, in increasing order. -/
def matAccumulate (b : Nat) : Nat → List MxBlock → List MxBlock → Nat × Flags × MxInc
  | acc, x :: xs, y :: ys =>
    let (t, f1, c1) := mxBlockProduct b x y
    let (r, f2, c2) := accAdd acc t
    let (r', f3, c3) := matAccumulate b r xs ys
    (r', f1 ||| f2 ||| f3, c1 ||| c2 ||| c3)
  | acc, _, _ => (acc, 0, 0)

end Sys2Proof.Machine
end

