-- ==== Sys2Proof/Machine/SeedTables.lean ====
section
/-! DEFINITION. The default seed tables of R85 and the constants of R87, each the FP32 pattern of the rounded exact real
that the rule names (computed outside Lean from the rule's formula). -/
namespace Sys2Proof.Machine

/-- Seed table RCP of R85: 1 / (1 + (2j + 1)/256) at 12 significant bits, entries 0 to 31. -/
def rcpTable0 : List Nat := [
  0x3F7F0000, 0x3F7D1000, 0x3F7B2000, 0x3F793000, 0x3F775000, 0x3F757000, 0x3F73A000, 0x3F71D000,
  0x3F701000, 0x3F6E5000, 0x3F6C9000, 0x3F6AE000, 0x3F694000, 0x3F679000, 0x3F65F000, 0x3F646000,
  0x3F62C000, 0x3F613000, 0x3F5FB000, 0x3F5E2000, 0x3F5CB000, 0x3F5B3000, 0x3F59C000, 0x3F585000,
  0x3F56E000, 0x3F558000, 0x3F541000, 0x3F52C000, 0x3F516000, 0x3F501000, 0x3F4EC000, 0x3F4D7000]

/-- Seed table RCP of R85: 1 / (1 + (2j + 1)/256) at 12 significant bits, entries 32 to 63. -/
def rcpTable1 : List Nat := [
  0x3F4C3000, 0x3F4AE000, 0x3F49A000, 0x3F487000, 0x3F473000, 0x3F460000, 0x3F44D000, 0x3F43A000,
  0x3F428000, 0x3F415000, 0x3F403000, 0x3F3F1000, 0x3F3DF000, 0x3F3CE000, 0x3F3BD000, 0x3F3AB000,
  0x3F39A000, 0x3F38A000, 0x3F379000, 0x3F369000, 0x3F359000, 0x3F349000, 0x3F339000, 0x3F329000,
  0x3F31A000, 0x3F30A000, 0x3F2FB000, 0x3F2EC000, 0x3F2DD000, 0x3F2CF000, 0x3F2C0000, 0x3F2B2000]

/-- Seed table RCP of R85: 1 / (1 + (2j + 1)/256) at 12 significant bits, entries 64 to 95. -/
def rcpTable2 : List Nat := [
  0x3F2A4000, 0x3F295000, 0x3F288000, 0x3F27A000, 0x3F26C000, 0x3F25F000, 0x3F251000, 0x3F244000,
  0x3F237000, 0x3F22A000, 0x3F21D000, 0x3F210000, 0x3F204000, 0x3F1F7000, 0x3F1EB000, 0x3F1DF000,
  0x3F1D3000, 0x3F1C7000, 0x3F1BB000, 0x3F1AF000, 0x3F1A3000, 0x3F198000, 0x3F18C000, 0x3F181000,
  0x3F176000, 0x3F16B000, 0x3F15F000, 0x3F155000, 0x3F14A000, 0x3F13F000, 0x3F134000, 0x3F12A000]

/-- Seed table RCP of R85: 1 / (1 + (2j + 1)/256) at 12 significant bits, entries 96 to 127. -/
def rcpTable3 : List Nat := [
  0x3F11F000, 0x3F115000, 0x3F10B000, 0x3F101000, 0x3F0F6000, 0x3F0EC000, 0x3F0E3000, 0x3F0D9000,
  0x3F0CF000, 0x3F0C5000, 0x3F0BC000, 0x3F0B2000, 0x3F0A9000, 0x3F0A0000, 0x3F096000, 0x3F08D000,
  0x3F084000, 0x3F07B000, 0x3F072000, 0x3F069000, 0x3F060000, 0x3F058000, 0x3F04F000, 0x3F046000,
  0x3F03E000, 0x3F035000, 0x3F02D000, 0x3F025000, 0x3F01C000, 0x3F014000, 0x3F00C000, 0x3F004000]

/-- Seed table RCP of R85: 1 / (1 + (2j + 1)/256) at 12 significant bits. -/
def rcpTable : List Nat := rcpTable0 ++ rcpTable1 ++ rcpTable2 ++ rcpTable3

/-- Seed table RSQ of R85: 1 / sqrt(2^p (1 + (2i + 1)/128)), j = 64p + i, at 12 significant bits, entries 0 to 31. -/
def rsqTable0 : List Nat := [
  0x3F7F0000, 0x3F7D1000, 0x3F7B2000, 0x3F794000, 0x3F777000, 0x3F75B000, 0x3F73F000, 0x3F723000,
  0x3F708000, 0x3F6EE000, 0x3F6D4000, 0x3F6BB000, 0x3F6A2000, 0x3F68A000, 0x3F672000, 0x3F65B000,
  0x3F644000, 0x3F62E000, 0x3F618000, 0x3F602000, 0x3F5ED000, 0x3F5D8000, 0x3F5C3000, 0x3F5AF000,
  0x3F59B000, 0x3F588000, 0x3F574000, 0x3F562000, 0x3F54F000, 0x3F53D000, 0x3F52B000, 0x3F519000]

/-- Seed table RSQ of R85: 1 / sqrt(2^p (1 + (2i + 1)/128)), j = 64p + i, at 12 significant bits, entries 32 to 63. -/
def rsqTable1 : List Nat := [
  0x3F508000, 0x3F4F7000, 0x3F4E6000, 0x3F4D5000, 0x3F4C5000, 0x3F4B4000, 0x3F4A5000, 0x3F495000,
  0x3F485000, 0x3F476000, 0x3F467000, 0x3F458000, 0x3F44A000, 0x3F43B000, 0x3F42D000, 0x3F41F000,
  0x3F411000, 0x3F404000, 0x3F3F6000, 0x3F3E9000, 0x3F3DC000, 0x3F3CF000, 0x3F3C2000, 0x3F3B6000,
  0x3F3A9000, 0x3F39D000, 0x3F391000, 0x3F385000, 0x3F379000, 0x3F36D000, 0x3F361000, 0x3F356000]

/-- Seed table RSQ of R85: 1 / sqrt(2^p (1 + (2i + 1)/128)), j = 64p + i, at 12 significant bits, entries 64 to 95. -/
def rsqTable2 : List Nat := [
  0x3F345000, 0x3F32F000, 0x3F319000, 0x3F304000, 0x3F2F0000, 0x3F2DB000, 0x3F2C8000, 0x3F2B4000,
  0x3F2A1000, 0x3F28F000, 0x3F27C000, 0x3F26B000, 0x3F259000, 0x3F248000, 0x3F237000, 0x3F227000,
  0x3F216000, 0x3F207000, 0x3F1F7000, 0x3F1E8000, 0x3F1D9000, 0x3F1CA000, 0x3F1BB000, 0x3F1AD000,
  0x3F19F000, 0x3F191000, 0x3F184000, 0x3F176000, 0x3F169000, 0x3F15C000, 0x3F150000, 0x3F143000]

/-- Seed table RSQ of R85: 1 / sqrt(2^p (1 + (2i + 1)/128)), j = 64p + i, at 12 significant bits, entries 96 to 127. -/
def rsqTable3 : List Nat := [
  0x3F137000, 0x3F12B000, 0x3F11F000, 0x3F113000, 0x3F107000, 0x3F0FC000, 0x3F0F1000, 0x3F0E6000,
  0x3F0DB000, 0x3F0D0000, 0x3F0C5000, 0x3F0BB000, 0x3F0B0000, 0x3F0A6000, 0x3F09C000, 0x3F092000,
  0x3F089000, 0x3F07F000, 0x3F075000, 0x3F06C000, 0x3F063000, 0x3F05A000, 0x3F051000, 0x3F048000,
  0x3F03F000, 0x3F036000, 0x3F02D000, 0x3F025000, 0x3F01D000, 0x3F014000, 0x3F00C000, 0x3F004000]

/-- Seed table RSQ of R85: 1 / sqrt(2^p (1 + (2i + 1)/128)), j = 64p + i, at 12 significant bits. -/
def rsqTable : List Nat := rsqTable0 ++ rsqTable1 ++ rsqTable2 ++ rsqTable3

/-- Seed table EXP of R85: 2^(j/128), entries 0 to 31. -/
def expTable0 : List Nat := [
  0x3F800000, 0x3F80B1ED, 0x3F8164D2, 0x3F8218AF, 0x3F82CD87, 0x3F838359, 0x3F843A29, 0x3F84F1F6,
  0x3F85AAC3, 0x3F866491, 0x3F871F62, 0x3F87DB35, 0x3F88980F, 0x3F8955EE, 0x3F8A14D5, 0x3F8AD4C6,
  0x3F8B95C2, 0x3F8C57CA, 0x3F8D1ADF, 0x3F8DDF04, 0x3F8EA43A, 0x3F8F6A81, 0x3F9031DC, 0x3F90FA4D,
  0x3F91C3D3, 0x3F928E72, 0x3F935A2B, 0x3F9426FF, 0x3F94F4F0, 0x3F95C3FF, 0x3F96942D, 0x3F97657D]

/-- Seed table EXP of R85: 2^(j/128), entries 32 to 63. -/
def expTable1 : List Nat := [
  0x3F9837F0, 0x3F990B88, 0x3F99E046, 0x3F9AB62B, 0x3F9B8D3A, 0x3F9C6573, 0x3F9D3EDA, 0x3F9E196E,
  0x3F9EF532, 0x3F9FD228, 0x3FA0B051, 0x3FA18FAF, 0x3FA27043, 0x3FA3520F, 0x3FA43516, 0x3FA51958,
  0x3FA5FED7, 0x3FA6E595, 0x3FA7CD94, 0x3FA8B6D5, 0x3FA9A15B, 0x3FAA8D26, 0x3FAB7A3A, 0x3FAC6897,
  0x3FAD583F, 0x3FAE4934, 0x3FAF3B79, 0x3FB02F0E, 0x3FB123F6, 0x3FB21A32, 0x3FB311C4, 0x3FB40AAF]

/-- Seed table EXP of R85: 2^(j/128), entries 64 to 95. -/
def expTable2 : List Nat := [
  0x3FB504F3, 0x3FB60094, 0x3FB6FD92, 0x3FB7FBF0, 0x3FB8FBAF, 0x3FB9FCD2, 0x3FBAFF5B, 0x3FBC034A,
  0x3FBD08A4, 0x3FBE0F68, 0x3FBF179A, 0x3FC0213B, 0x3FC12C4D, 0x3FC238D2, 0x3FC346CD, 0x3FC4563F,
  0x3FC5672A, 0x3FC67991, 0x3FC78D75, 0x3FC8A2D8, 0x3FC9B9BE, 0x3FCAD226, 0x3FCBEC15, 0x3FCD078C,
  0x3FCE248C, 0x3FCF4319, 0x3FD06334, 0x3FD184DF, 0x3FD2A81E, 0x3FD3CCF1, 0x3FD4F35B, 0x3FD61B5E]

/-- Seed table EXP of R85: 2^(j/128), entries 96 to 127. -/
def expTable3 : List Nat := [
  0x3FD744FD, 0x3FD87039, 0x3FD99D16, 0x3FDACB94, 0x3FDBFBB8, 0x3FDD2D82, 0x3FDE60F5, 0x3FDF9613,
  0x3FE0CCDF, 0x3FE2055B, 0x3FE33F89, 0x3FE47B6D, 0x3FE5B907, 0x3FE6F85B, 0x3FE8396A, 0x3FE97C38,
  0x3FEAC0C7, 0x3FEC0719, 0x3FED4F30, 0x3FEE9910, 0x3FEFE4BA, 0x3FF13231, 0x3FF28177, 0x3FF3D290,
  0x3FF5257D, 0x3FF67A41, 0x3FF7D0DF, 0x3FF9295A, 0x3FFA83B3, 0x3FFBDFED, 0x3FFD3E0C, 0x3FFE9E11]

/-- Seed table EXP of R85: 2^(j/128). -/
def expTable : List Nat := expTable0 ++ expTable1 ++ expTable2 ++ expTable3

/-- Seed table LOG of R85, members .v: log2(1 + j/128), entries 0 to 31. -/
def logVTable0 : List Nat := [
  0x00000000, 0x3C37F286, 0x3CB73CB4, 0x3D08E68F, 0x3D35D69C, 0x3D626FD6, 0x3D8759C5, 0x3D9D517F,
  0x3DB31FB8, 0x3DC8C50B, 0x3DDE4212, 0x3DF39761, 0x3E0462C4, 0x3E0EE68D, 0x3E19574F, 0x3E23B550,
  0x3E2E00D2, 0x3E383A17, 0x3E42615F, 0x3E4C76E8, 0x3E567AF1, 0x3E606DB6, 0x3E6A4F72, 0x3E74205F,
  0x3E7DE0B6, 0x3E83C857, 0x3E88983F, 0x3E8D602E, 0x3E92203D, 0x3E96D888, 0x3E9B8926, 0x3EA03232]

/-- Seed table LOG of R85, members .v: log2(1 + j/128), entries 32 to 63. -/
def logVTable1 : List Nat := [
  0x3EA4D3C2, 0x3EA96DF0, 0x3EAE00D2, 0x3EB28C7F, 0x3EB7110E, 0x3EBB8E96, 0x3EC0052B, 0x3EC474E4,
  0x3EC8DDD4, 0x3ECD4012, 0x3ED19BB0, 0x3ED5F0C4, 0x3EDA3F60, 0x3EDE8797, 0x3EE2C97D, 0x3EE70525,
  0x3EEB3A9F, 0x3EEF69FF, 0x3EF39355, 0x3EF7B6B4, 0x3EFBD42B, 0x3EFFEBCD, 0x3F01FED4, 0x3F0404E8,
  0x3F060828, 0x3F08089E, 0x3F0A0650, 0x3F0C0146, 0x3F0DF989, 0x3F0FEF1F, 0x3F11E20F, 0x3F13D260]

/-- Seed table LOG of R85, members .v: log2(1 + j/128), entries 64 to 95. -/
def logVTable2 : List Nat := [
  0x3F15C01A, 0x3F17AB44, 0x3F1993E3, 0x3F1B7A00, 0x3F1D5DA0, 0x3F1F3ECA, 0x3F211D84, 0x3F22F9D5,
  0x3F24D3C2, 0x3F26AB53, 0x3F28808C, 0x3F2A5374, 0x3F2C2411, 0x3F2DF268, 0x3F2FBE80, 0x3F31885C,
  0x3F335004, 0x3F35157D, 0x3F36D8CB, 0x3F3899F5, 0x3F3A58FF, 0x3F3C15EE, 0x3F3DD0C8, 0x3F3F8991,
  0x3F41404F, 0x3F42F506, 0x3F44A7BA, 0x3F465872, 0x3F480731, 0x3F49B3FB, 0x3F4B5ED7, 0x3F4D07C7]

/-- Seed table LOG of R85, members .v: log2(1 + j/128), entries 96 to 127. -/
def logVTable3 : List Nat := [
  0x3F4EAED0, 0x3F5053F7, 0x3F51F740, 0x3F5398AF, 0x3F553848, 0x3F56D60F, 0x3F587209, 0x3F5A0C3A,
  0x3F5BA4A4, 0x3F5D3B4E, 0x3F5ED039, 0x3F60636A, 0x3F61F4E5, 0x3F6384AD, 0x3F6512C7, 0x3F669F35,
  0x3F6829FB, 0x3F69B31E, 0x3F6B3A9F, 0x3F6CC083, 0x3F6E44CD, 0x3F6FC781, 0x3F7148A1, 0x3F72C832,
  0x3F744636, 0x3F75C2B0, 0x3F773DA4, 0x3F78B714, 0x3F7A2F04, 0x3F7BA578, 0x3F7D1A71, 0x3F7E8DF2]

/-- Seed table LOG of R85, members .v: log2(1 + j/128). -/
def logVTable : List Nat := logVTable0 ++ logVTable1 ++ logVTable2 ++ logVTable3

/-- Seed table LOG of R85, members .c: 1 / (1 + j/128), entries 0 to 31. -/
def logCTable0 : List Nat := [
  0x3F800000, 0x3F7E03F8, 0x3F7C0FC1, 0x3F7A232D, 0x3F783E10, 0x3F76603E, 0x3F74898D, 0x3F72B9D6,
  0x3F70F0F1, 0x3F6F2EB7, 0x3F6D7304, 0x3F6BBDB3, 0x3F6A0EA1, 0x3F6865AC, 0x3F66C2B4, 0x3F652598,
  0x3F638E39, 0x3F61FC78, 0x3F607038, 0x3F5EE95C, 0x3F5D67C9, 0x3F5BEB62, 0x3F5A740E, 0x3F5901B2,
  0x3F579436, 0x3F562B81, 0x3F54C77B, 0x3F53680D, 0x3F520D21, 0x3F50B6A0, 0x3F4F6475, 0x3F4E168A]

/-- Seed table LOG of R85, members .c: 1 / (1 + j/128), entries 32 to 63. -/
def logCTable1 : List Nat := [
  0x3F4CCCCD, 0x3F4B8728, 0x3F4A4588, 0x3F4907DA, 0x3F47CE0C, 0x3F46980C, 0x3F4565C8, 0x3F443730,
  0x3F430C31, 0x3F41E4BC, 0x3F40C0C1, 0x3F3FA030, 0x3F3E82FA, 0x3F3D6910, 0x3F3C5264, 0x3F3B3EE7,
  0x3F3A2E8C, 0x3F392144, 0x3F381703, 0x3F370FBB, 0x3F360B61, 0x3F3509E7, 0x3F340B41, 0x3F330F63,
  0x3F321643, 0x3F311FD4, 0x3F302C0B, 0x3F2F3ADE, 0x3F2E4C41, 0x3F2D602B, 0x3F2C7692, 0x3F2B8F6A]

/-- Seed table LOG of R85, members .c: 1 / (1 + j/128), entries 64 to 95. -/
def logCTable2 : List Nat := [
  0x3F2AAAAB, 0x3F29C84A, 0x3F28E83F, 0x3F280A81, 0x3F272F05, 0x3F2655C4, 0x3F257EB5, 0x3F24A9CF,
  0x3F23D70A, 0x3F23065E, 0x3F2237C3, 0x3F216B31, 0x3F20A0A1, 0x3F1FD80A, 0x3F1F1166, 0x3F1E4CAD,
  0x3F1D89D9, 0x3F1CC8E1, 0x3F1C09C1, 0x3F1B4C70, 0x3F1A90E8, 0x3F19D723, 0x3F191F1A, 0x3F1868C8,
  0x3F17B426, 0x3F17012E, 0x3F164FDA, 0x3F15A025, 0x3F14F209, 0x3F144581, 0x3F139A86, 0x3F12F114]

/-- Seed table LOG of R85, members .c: 1 / (1 + j/128), entries 96 to 127. -/
def logCTable3 : List Nat := [
  0x3F124925, 0x3F11A2B4, 0x3F10FDBC, 0x3F105A38, 0x3F0FB824, 0x3F0F177A, 0x3F0E7835, 0x3F0DDA52,
  0x3F0D3DCB, 0x3F0CA29C, 0x3F0C08C1, 0x3F0B7034, 0x3F0AD8F3, 0x3F0A42F8, 0x3F09AE41, 0x3F091AC7,
  0x3F088889, 0x3F07F781, 0x3F0767AB, 0x3F06D905, 0x3F064B8A, 0x3F05BF37, 0x3F053408, 0x3F04A9FA,
  0x3F042108, 0x3F039930, 0x3F03126F, 0x3F028CC0, 0x3F020821, 0x3F01848E, 0x3F010204, 0x3F008081]

/-- Seed table LOG of R85, members .c: 1 / (1 + j/128). -/
def logCTable : List Nat := logCTable0 ++ logCTable1 ++ logCTable2 ++ logCTable3

/-- KE of R87: 128/ln 2. -/
def cKE : Nat := 0x4338AA3B
/-- LH of R87: ln 2/128. -/
def cLH : Nat := 0x3BB17218
/-- LL of R87: ln 2/128 − LH. -/
def cLL : Nat := 0xAD82E308
/-- LN2 of R87: ln 2. -/
def cLN2 : Nat := 0x3F317218
/-- C3 of R87: 1/6. -/
def cC3 : Nat := 0x3E2AAAAB
/-- Q1 of R87: 1/ln 2. -/
def cQ1 : Nat := 0x3FB8AA3B
/-- Q2 of R87: −1/(2 ln 2). -/
def cQ2 : Nat := 0xBF38AA3B
/-- Q3 of R87: 1/(3 ln 2). -/
def cQ3 : Nat := 0x3EF6384F
/-- Q4 of R87: −1/(4 ln 2). -/
def cQ4 : Nat := 0xBEB8AA3B
/-- T1 of R87: −1/3. -/
def cT1 : Nat := 0xBEAAAAAB
/-- T2 of R87: 2/15. -/
def cT2 : Nat := 0x3E088889
/-- T3 of R87: −17/315. -/
def cT3 : Nat := 0xBD5D0DD1

end Sys2Proof.Machine
end

