-- ==== Sys2Proof/Machine/Sfun.lean ====
section
/-! DEFINITION. The special functions sf_seed and sf_step (R85 to R87), the row statistics (R88) and the soft-maximum
update (R89). -/
namespace Sys2Proof.Machine

/-- The four seed tables of a tile (R85): FP32 patterns; LOG is a table of pairs held as two lists. -/
structure SeedTabs where
  rcp : List Nat := rcpTable
  rsq : List Nat := rsqTable
  exp : List Nat := expTable
  logV : List Nat := logVTable
  logC : List Nat := logCTable
  deriving DecidableEq, Repr

/-- The special functions, in the order of their FN codes (R58, R86). -/
inductive SfFn where
  | rcp | rsqrt | sqrt | exp2 | exp | log2 | tanh | sigmoid | silu
  deriving DecidableEq, Repr

/-- The function an FN field names; 9 and above are reserved (R58). -/
def SfFn.ofCode (c : Nat) : Option SfFn :=
  match c with
  | 0 => some .rcp
  | 1 => some .rsqrt
  | 2 => some .sqrt
  | 3 => some .exp2
  | 4 => some .exp
  | 5 => some .log2
  | 6 => some .tanh
  | 7 => some .sigmoid
  | 8 => some .silu
  | _ => none

/-- decompose of R87 for a finite non-zero magnitude m · 2^e: the exponent and the top `k` fraction bits. -/
def decompose (m : Nat) (e : Int) (k : Nat) : Int × Nat :=
  let lg := m.log2
  (e + lg, m * 2 ^ k / 2 ^ lg - 2 ^ k)

/-- A table value times (−1)^neg · 2^k, rounded once; a signalling entry of a table that SFTLD loaded sets IV where the
rounding is not quiet, as the addition of log2 does (R76, log 99). -/
def scale32 (v : Nat) (neg : Bool) (k : Int) : Fl :=
  match dec32 v with
  | .nan sg => nanResult .fp32 sg
  | .inf n => (finf .fp32 (n != neg), 0)
  | .fin n m e => fround .fp32 .rne (n != neg) m (e + k)

/-- rcp_core of R87. -/
def rcpCore (t : SeedTabs) (x : Nat) : Fl :=
  match dec32 x with
  | .fin n m e =>
    if m = 0 then (Config.sfOutside x, 0) else
    let (ex, j) := decompose m e 7
    scale32 (nth 0 t.rcp j) n (-ex)
  | _ => (Config.sfOutside x, 0)

/-- rsq_core of R87. -/
def rsqCore (t : SeedTabs) (x : Nat) : Fl :=
  match dec32 x with
  | .fin _ m e =>
    if m = 0 then (Config.sfOutside x, 0) else
    let (ex, i) := decompose m e 6
    let p := (ex % 2).toNat
    scale32 (nth 0 t.rsq (64 * p + i)) false (-((ex - p) / 2))
  | _ => (Config.sfOutside x, 0)

/-- exp_k of R87: the scaled argument u. -/
def expU (isExp : Bool) (x : Nat) : Nat := (mul32 x (if isExp then cKE else 0x43000000)).1

/-- round_int_ne of a finite FP32 value. -/
def intOf32 (u : Nat) : Int :=
  match dec32 u with
  | .fin n m e => (roundInt .rne n m e).1
  | _ => 0

/-- An exact integer as an FP32 operand. -/
def ofInt32 (k : Int) : Nat := (fround .fp32 .rne (decide (k < 0)) k.natAbs 0).1

/-- u ≥ 16384 and u ≤ −19200 (R87). -/
def uHigh (u : Nat) : Bool := le32 0x46800000 u
def uLow (u : Nat) : Bool := le32 u 0xC6960000

/-- sf_seed for exp2 and exp (R87). -/
def expSeed (t : SeedTabs) (isExp : Bool) (x : Nat) : Fl :=
  if x = pinf32 then (pinf32, 0) else if x = ninf32 then (0, 0) else
  let u := expU isExp x
  if uHigh u then (pinf32, flOF ||| flNX) else if uLow u then (0, flUF ||| flNX) else
  let k := intOf32 u
  scale32 (nth 0 t.exp (k % 128).toNat) false (k / 128)

/-- sf_step for exp2 and exp on finite non-zero x and y (R87). -/
def expStep (isExp : Bool) (x y : Nat) : Fl :=
  let u := expU isExp x
  if uHigh u || uLow u then (y, 0) else
  let nk := ofInt32 (-(intOf32 u))
  let t := if isExp then (fma32 nk cLL (fma32 nk cLH x).1).1
           else (mul32 (fma32 nk 0x3C000000 x).1 cLN2).1
  let q := (mul32 (fma32 (fma32 cC3 t 0x3F000000).1 t one32).1 t).1
  fma32 y q y

/-- Whether a pattern is zero or infinite. -/
def zeroOrInf (x : Nat) : Bool := (dec32 x).isZero || (dec32 x).isInf

/-- A NaN operand of sf_seed or sf_step (R87). -/
def sfNan (x y : Nat) : Option Fl :=
  if nan32 x || nan32 y then some (nanResult .fp32 ((dec32 x).isSnan || (dec32 y).isSnan)) else none

/-- exp_def of R87. -/
def expDef (t : SeedTabs) (x : Nat) : Nat :=
  if nan32 x then fcnan .fp32 else
  let y := (expSeed t true x).1
  if nan32 y then fcnan .fp32
  else if zeroOrInf x || zeroOrInf y then y else (expStep true x y).1
/-- The explicit set_flag calls of exp_def: those of its seed's range; its roundings are quiet (R87). -/
def expDefFlags (x : Nat) : Flags :=
  if nan32 x || (dec32 x).isInf then 0
  else if uHigh (expU true x) then flOF ||| flNX else if uLow (expU true x) then flUF ||| flNX else 0

/-- What quot_parts of R87 returns, with the flags that the exp_def in it sets. -/
inductive Quot where
  | final (v : Nat) (fl : Flags)
  | parts (num w : Nat) (neg : Bool) (fl : Flags)
  deriving DecidableEq, Repr

/-- quot_parts of R87. -/
def quotParts (t : SeedTabs) (fn : SfFn) (x : Nat) : Quot :=
  match fn with
  | .sigmoid =>
    if x = pinf32 then .final one32 0 else if x = ninf32 then .final 0 0 else
    let w := (add32 one32 (expDef t (neg32 x))).1
    if w = pinf32 then .final 0 (expDefFlags (neg32 x)) else .parts one32 w false (expDefFlags (neg32 x))
  | .silu =>
    if x = pinf32 then .final pinf32 0 else if x = ninf32 then .final 0x80000000 0 else
    let w := (add32 one32 (expDef t (neg32 x))).1
    if w = pinf32 then .final 0x80000000 (expDefFlags (neg32 x)) else .parts (abs32 x) w (dec32 x).sign (expDefFlags (neg32 x))
  | _ =>
    let a := abs32 x
    let neg := (dec32 x).sign
    if a = 0 then .final x 0
    else if le32 0x41200000 a then .final (if neg then 0xBF800000 else one32) 0
    else if lt32 a 0x3D800000 then
      let s2 := (mul32 x x).1
      let q := (fma32 (fma32 cT3 s2 cT2).1 s2 cT1).1
      .final (fma32 (mul32 q s2).1 x x).1 0
    else
      let b := (mul32 0xC0000000 a).1
      let s := expDef t b
      .parts (sub32 one32 s).1 (add32 one32 s).1 neg (expDefFlags b)

/-- A result with its sign multiplied in (sg of R87); a NaN stays canonical. -/
def withSign (neg : Bool) (r : Fl) : Fl := if neg && !(nan32 r.1) then (neg32 r.1, r.2) else r

/-- sf_seed of R87. Every rounding inside rcp_core, rsq_core and quot_parts is quiet; the flags that the exp_def in quot_parts sets by
name are not. -/
def sfSeed (t : SeedTabs) (fn : SfFn) (x : Nat) : Fl :=
  match sfNan x 0 with
  | some r => r
  | none =>
    let neg := (dec32 x).sign
    let below0 := neg && !(dec32 x).isZero
    match fn with
    | .rcp =>
      if (dec32 x).isZero then (finf .fp32 neg, 0) else if (dec32 x).isInf then (fzero .fp32 neg, 0)
      else ((rcpCore t x).1, 0)
    | .rsqrt =>
      if below0 then invalidResult .fp32 else if (dec32 x).isZero then (finf .fp32 neg, 0)
      else if x = pinf32 then (0, 0) else ((rsqCore t x).1, 0)
    | .sqrt =>
      if below0 then invalidResult .fp32 else if (dec32 x).isZero || x = pinf32 then (x, 0)
      else mul32 x (rsqCore t x).1
    | .exp2 => expSeed t false x
    | .exp => expSeed t true x
    | .log2 =>
      if below0 then invalidResult .fp32 else
      match dec32 x with
      | .fin _ m e =>
        if m = 0 then (ninf32, 0) else
        let (ex, j) := decompose m e 7
        add32 (ofInt32 ex) (nth 0 t.logV j)
      | _ => (pinf32, 0)
    | .tanh | .sigmoid | .silu =>
      match quotParts t fn x with
      | .final v fl => (v, fl)
      | .parts num w sg fl =>
        let r := withSign sg (mul32 num (rcpCore t w).1)
        (r.1, r.2 ||| fl)

/-- sf_step of R87. -/
def sfStep (t : SeedTabs) (fn : SfFn) (x y : Nat) : Fl :=
  match sfNan x y with
  | some r => r
  | none =>
    match fn with
    | .tanh | .sigmoid | .silu =>
      match quotParts t fn x with
      | .final _ fl => (y, fl)
      | .parts num w sg fl =>
        let a := abs32 y
        let r := (fma32 (neg32 w) a num).1
        let z := withSign sg (fma32 r (rcpCore t w).1 a)
        (z.1, z.2 ||| fl)
    | _ =>
      if zeroOrInf x || zeroOrInf y then (y, 0) else
      match fn with
      | .rcp => fma32 y (fma32 (neg32 x) y one32).1 y
      | .rsqrt =>
        let r := (fma32 (neg32 (mul32 x y).1) y one32).1
        fma32 (mul32 y 0x3F000000).1 r y
      | .sqrt =>
        let r := (fma32 (neg32 y) y x).1
        fma32 r (mul32 0x3F000000 (rcpCore t y).1).1 y
      | .exp2 => expStep false x y
      | .exp => expStep true x y
      | _ =>
        match dec32 x with
        | .fin _ m e =>
          let lg := m.log2
          let (_, j) := decompose m e 7
          -- m − 1 − j/128, exact: (128 m − (128 + j) 2^lg) / (128 · 2^lg)
          let dn := m * 128 - (128 + j) * 2 ^ lg
          let u := (fmulV .fp32 .rne (.fin false dn (-7 - (lg : Int))) (dec32 (nth 0 t.logC j))).1
          let q := (mul32 (fma32 (fma32 (fma32 cQ4 u cQ3).1 u cQ2).1 u cQ1).1 u).1
          add32 y q
        | _ => (y, 0)

/-- One Welford state: count, mean, second moment (R88). -/
structure Wf where
  n : Nat
  mean : Nat
  m2 : Nat
  deriving DecidableEq, Repr

/-- n / d rounded to FP32 in RNE. -/
def ratio32 (n d : Nat) : Fl := if d = 0 then (0, 0) else fround .fp32 .rne false n 0 d

/-- An FP32 value divided by a positive integer, rounded once. -/
def divInt32 (q n : Nat) : Fl :=
  match dec32 q with
  | .nan s => nanResult .fp32 s
  | .inf k => (finf .fp32 k, 0)
  | .fin k m e => if n = 0 then (0, 0) else fround .fp32 .rne k m e n

/-- welford_merge of R88. -/
def welfordMerge (a b : Wf) : Wf × Flags :=
  if b.n = 0 then (a, 0) else if a.n = 0 then (b, 0) else
  let n := a.n + b.n
  let (d, f1) := sub32 b.mean a.mean
  let (r, f2) := ratio32 b.n n
  let (mu, f3) := fma32 d r a.mean
  let (dd, f4) := mul32 d d
  let (w, f5) := ratio32 (a.n * b.n) n
  let (t, f6) := mul32 dd w
  let (qs, f7) := add32 a.m2 b.m2
  let (q, f8) := add32 qs t
  let q := if !(nan32 q) && le32 q 0 then 0 else q
  ({ n := n, mean := mu, m2 := q }, f1 ||| f2 ||| f3 ||| f4 ||| f5 ||| f6 ||| f7 ||| f8)

/-- One level of the fixed tree: adjacent pairs, left operand lower lanes (R88, R93). -/
def pairUp {α : Type} (f : α → α → α × Flags) : List α → List α × Flags
  | a :: b :: rest =>
    let (c, f1) := f a b
    let (cs, f2) := pairUp f rest
    (c :: cs, f1 ||| f2)
  | l => (l, 0)

/-- The fixed binary tree over lanes, `fuel` levels (seven for 128 lanes). -/
def treeFold {α : Type} (f : α → α → α × Flags) : Nat → List α → List α × Flags
  | 0, l => (l, 0)
  | fuel + 1, l =>
    let (l1, f1) := pairUp f l
    let (l2, f2) := treeFold f fuel l1
    (l2, f1 ||| f2)

/-- row_stat of R88: mean, variance, count and flags. -/
def rowStat (st : List Wf) : Nat × Nat × Nat × Flags :=
  let (l, fl) := treeFold welfordMerge 7 st
  let r := nth { n := 0, mean := 0, m2 := 0 } l 0
  if r.n = 0 then (0, 0, 0, fl) else
  let (v, f2) := divInt32 r.m2 r.n
  (r.mean, v, r.n, fl ||| f2)

/-- lane_tree_sum of R93. -/
def laneTreeSum (l : List Nat) : Fl :=
  let (r, fl) := treeFold add32 7 l
  (nth 0 r 0, fl)

/-- The node of lane_tree_max (R93): the left operand on equal values, NaN if either is NaN. -/
def maxNode (a b : Nat) : Fl :=
  if nan32 a || nan32 b then nanResult .fp32 ((dec32 a).isSnan || (dec32 b).isSnan)
  else (if lt32 a b then b else a, 0)

/-- lane_tree_max of R93. -/
def laneTreeMax (l : List Nat) : Fl :=
  let (r, fl) := treeFold maxNode 7 l
  (nth 0 r 0, fl)

/-- smx_update of R89: the new maximum, the new sum, the correction factor and the flags. -/
def smxUpdate (t : SeedTabs) (mOld sOld : Nat) (x : List Nat) : Nat × Nat × Nat × Flags :=
  let (mt, f1) := laneTreeMax x
  let (mNew, f2) := maxNode mOld mt
  if mNew = ninf32 then (ninf32, 0, one32, f1 ||| f2) else
  let dOld := sub32 mOld mNew
  let (c, f3) : Fl := if mOld = ninf32 then (0, 0) else (expDef t dOld.1, dOld.2)
  let es := x.map (fun v => sub32 v mNew)
  let f4 := es.foldl (fun f r => f ||| r.2) 0
  let (sum, f5) := laneTreeSum (es.map (fun r => expDef t r.1))
  let (sNew, f6) := fma32 sOld c sum
  (mNew, sNew, c, f1 ||| f2 ||| f3 ||| f4 ||| f5 ||| f6)

end Sys2Proof.Machine
end

