-- ==== Sys2Proof/Machine/Tile.lean ====
section
/-! DEFINITION. The record types of one tile (or Colt) and of what is in flight on a core (R155, R353). -/
namespace Sys2Proof.Machine

/-- The format tag of a vector register or latch (R73). -/
inductive Tag where
  | empty | fp32 | bf16 | i32
  deriving DecidableEq, Repr

/-- The tag code of R73. -/
def Tag.code : Tag → Nat
  | .empty => 0
  | .fp32 => 1
  | .bf16 => 2
  | .i32 => 3

/-- The tag of a code of R73. -/
def Tag.ofCode : Nat → Tag
  | 1 => .fp32
  | 2 => .bf16
  | 3 => .i32
  | _ => .empty

/-- 128 lanes of 32 bits with a tag (R73). An EMPTY register lists no lanes; a lane not listed reads zero (R190). -/
structure Vec where
  tag : Tag := .empty
  lanes : List Word := []
  deriving DecidableEq, Repr

/-- Lane i (R73, R190). -/
def Vec.lane (v : Vec) (i : Nat) : Nat := (nth 0#32 v.lanes i).toNat

/-- The vector whose lane i is `f i`. -/
def Vec.mk' (t : Tag) (f : Nat → Nat) : Vec := { tag := t, lanes := (upTo 128).map (fun i => BitVec.ofNat 32 (f i)) }

/-- A walker port's parameters and indices (R195, R196). -/
structure Walker where
  ctrl : DWord := 0
  base : DWord := 0
  astride : BitVec 32 := 0
  counts : SMap (BitVec 24) := []
  strides : SMap (BitVec 32) := []
  idx : SMap Nat := []
  a : Nat := 0
  deriving DecidableEq, Repr

/-- A stationary plane of the matrix array (R236): open, or filled with a format (b, origin). Codes are held per
(row, column), scales per (K-block, column), staged FP32 values per (row, column). -/
structure SPlane where
  isOpen : Bool := true
  fmt : Nat := 0
  raw : Bool := true
  codes : SMap Int := []
  scales : SMap Nat := []
  staged : SMap Nat := []
  deriving DecidableEq, Repr

/-- The states of a state slot (R269). -/
inductive SlotSt where
  | free | loaded | live | spilling | spilled
  deriving DecidableEq, Repr

/-- A state slot: its record and its bytes (R268). `before` is the state a spilling slot returns to (R269); `owners` lists the Mule
transfers that name it in the order of their posts: the first owns it, and each other one starts when those before it are complete
(R270). -/
structure Slot where
  st : SlotSt := .free
  before : SlotSt := .free
  image : Nat := 0
  bytes : SMap Byte := []
  owners : List Nat := []
  deriving DecidableEq, Repr

/-- The scan states of a tile (R257). -/
inductive ScanSt where
  | idle | local | up | carried | down
  deriving DecidableEq, Repr

/-- The states of an engine node (R281). -/
inductive NodeSt where
  | idle | waiting | running
  deriving DecidableEq, Repr

/-- A command as its node holds it: the instruction, its descriptor and where that lies, the shapes it took at issue, the
translations it holds (granule, physical granule, NC), how many of them, the first ones, are of the source of a COPY, GATH or SCAT, the
bytes it has still to count, and the rows it has done. -/
structure NodeCmd where
  instr : Instr
  desc : List Byte := []
  shA : SMap DWord := []
  shB : SMap DWord := []
  xlate : List (Nat × Nat) := []
  reads : Nat := 0
  dpos : Nat := 0
  cid : Nat := 0
  progress : Nat := 0
  result : Nat := 0
  deriving DecidableEq, Repr

/-- A node of the engine-command graph (R281). -/
structure Node where
  st : NodeSt := .idle
  count : Int := 0
  cmd : Option NodeCmd := none
  deriving DecidableEq, Repr

/-- A monitor-table entry (R319): a 64-byte line, its EVENT bit, the sleeper and its deadline. `age` orders the entries
by their latest WAITM. -/
structure MonEntry where
  line : Nat
  event : Bool := false
  asleep : Bool := false
  deadline : Option Nat := none
  age : Nat := 0
  deriving DecidableEq, Repr

/-- A cached leaf translation (R325, R326). -/
structure TlbEntry where
  cid : Nat
  vbase : Nat
  size : Nat
  frame : Nat
  rd : Bool
  wr : Bool
  sec : Bool
  nc : Bool
  expiry : Nat
  deriving DecidableEq, Repr

/-- A walk-cache entry (R325, R326): a level-3 or level-2 table entry by its level and the address bits that index down to it, with
the table it points to. -/
structure WalkEntry where
  cid : Nat
  level : Nat
  index : Nat
  table : Nat
  expiry : Nat
  deriving DecidableEq, Repr

/-- A cached 64-byte line of a read cache, an Adit cache or a home L2; `dirty` lists which of its bytes a write has
changed (R295, R296). -/
structure Line where
  bytes : List Byte := []
  dirty : SMap Bool := []
  deriving DecidableEq, Repr

/-- A request that waits for banks of a tile (R286): the slot word of a core, by its bundle number, the banks, and whether it is an engine
command, which reserves them. -/
structure BankAsk where
  core : Nat
  slot : Nat
  bn : Nat
  banks : Nat
  cmd : Bool
  deriving DecidableEq, Repr

/-- The registers of one tile. A Colt uses the scalar part of the same record (R64, R155). -/
structure Tile where
  x : SMap DWord := []
  p : Mask := 0
  bt : SMap (BitVec 12) := []
  arm : BitVec 4 := 0
  hx : SMap DWord := []
  hbt : SMap (BitVec 12) := []
  harm : BitVec 4 := 0
  k : SMap Mask := []
  curA : Nat := 0
  curB : Nat := 0
  v : SMap Vec := []
  latch : SMap (Option Vec) := []
  walk : SMap Walker := []
  shLive : SMap (SMap DWord) := []
  shShadow : SMap (SMap DWord) := []
  flags : Flags := 0
  mx : MxCnt := {}
  ldt : Nat := 0
  cvt : Bool := false
  parked : BitVec 40 := 0
  pool : Bool := false
  abank : Nat := 0
  sbase : Nat := 0
  parkTag : SMap Tag := []
  seed : SeedTabs := {}
  plane0 : SPlane := {}
  plane1 : SPlane := {}
  liveIs1 : Bool := false
  sa : SMap DWord := []
  sb : SMap DWord := []
  acc : SMap Word := []
  spad : SMap Byte := []
  slots : SMap Slot := []
  prog : Option (List Word) := none
  scanSt : ScanSt := .idle
  sabs : Bool := false
  xabs : Bool := false
  settings : List DWord := []
  held : List (Nat × Nat) := []
  /-- what the phases in flight have computed and not yet pushed or landed: rows by issue bundle and number -/
  scanBuf : SMap (List Nat × List Nat) := []
  nodes : SMap Node := []
  resv : List (Nat × Nat) := []
  /-- the requests that wait for banks of the tile, in arrival order (R286) -/
  waits : List BankAsk := []
  bench : SMap (Option Vec) := []
  lastph : SMap (Option Bool) := []
  mule : List Nat := []
  mon : List MonEntry := []
  tlb : List TlbEntry := []
  rc : SMap Line := []
  /-- writes of monitored lines that reached the tile in a package-wide stall, in arrival order (R13) -/
  wakes : List Nat := []
  deriving DecidableEq, Repr

/-- A scan element's rows as values, the a component and the b component, row by row; none is absent (R250). -/
abbrev Pair := Option (List Nat × List Nat)

/-- One element row of a streaming phase (R264): its issue bundle, its number j of R rows each, the phase, the format and
width, the program and the prefix it took at issue, and where its two rows lie: a scratchpad unit, or memory. -/
structure ScanRow where
  n0 : Nat
  j : Nat
  rows : Nat
  sloc : Bool
  bf16 : Bool
  w : Nat
  prog : List Word
  left : Pair := none
  src : Option Nat
  aA : Nat
  aB : Nat
  ncA : Bool := false
  ncB : Bool := false
  deriving DecidableEq, Repr

/-- An SCRY with P > 1 in flight at the root tile of one die's block (R256, R259, R266): its instance (the unit of its first
tile), kernel, place q among the D roots in scan order, slots, format and shape, package levels, this package's position in
scan order and P, REV, the tile's program and its summary at issue. -/
structure ScryRec where
  inst : Nat
  /-- the cores of the instance's block, and the operation's word -/
  ncores : Nat
  word : Nat
  kern : Nat
  q : Nat
  nroots : Nat
  zs : Nat
  zx : Nat
  bf16 : Bool
  rows : Nat
  w : Nat
  lp : Nat
  pq : Nat
  npkg : Nat
  rev : Bool
  prog : List Word
  u : Pair
  deriving DecidableEq, Repr

/-- Where a result in flight lands: the entry kinds of R353, and the effects a bundle stages for its own end. -/
inductive Eff where
  /-- kind 1: destination field D of the slot's unit, latch and register, enabled lanes `en` -/
  | vec (d : Nat) (v : Vec) (en : Mask)
  /-- kind 1, latch only -/
  | latch (l : Nat) (v : Vec)
  /-- kind 2 -/
  | xreg (r : Nat) (v : DWord)
  /-- kind 2 with STRIDE -/
  | stride (r : Nat) (c : DWord)
  /-- kinds 3 and 4 -/
  | pred (p : Nat) (b : Bool)
  | mask (k : Nat) (m : Mask)
  /-- kind 5 to a scratchpad stream, and kind 6: bytes with their scratchpad addresses -/
  | spad (cells : List (Nat × Byte))
  /-- kind 5 to a memory stream, and kind 15: bytes with their physical addresses; NC page? -/
  | mem (cells : List (Nat × Byte)) (nc : Bool)
  /-- kind 7: the K-block products of each column, added in order (R84, R245) -/
  | accProd (bank row c0 : Nat) (cols : List (List Nat))
  /-- kind 7: an addend per column (ACC) -/
  | accAdd (bank row c0 : Nat) (vals : List Nat)
  /-- kind 7: values replacing columns (ACWR, MCLR, DRAIN clear) -/
  | accSet (bank row c0 : Nat) (vals : List Nat)
  | accClear (bank row nrows : Nat)
  /-- kind 8 -/
  | slotBytes (z : Nat) (cells : List (Nat × Byte))
  | slotClear (z : Nat)
  /-- kind 9 -/
  | pushRow (plane1 : Bool) (fmt : Nat) (raw : Bool) (row : Nat) (codes : List Int) (scales : List Nat) (vals : List Nat)
  | planeOpenAs (plane1 : Bool) (fmt : Nat) (raw : Bool)
  | axch
  | scalePtr (b : Bool) (n : Nat) (v : DWord) (isMscl : Bool)
  /-- kind 10: system, branch-target, sequencer, walker, shape and mask-number registers -/
  | csr (num : Nat) (v : DWord) (setOnly : Bool)
  | bt (j : Nat) (v : BitVec 12)
  | loopCount (lvl : Nat) (v : BitVec 24)
  | loopStride (lvl which r : Nat) (v : DWord)
  | rstk (idx : Nat) (v : DWord)
  | wcfg (port field : Nat) (v : DWord)
  | shw (key field : Nat) (v : DWord)
  | ksel (vb : Bool) (k : Nat)
  | zop (prog : List Word)
  /-- kind 11 -/
  | seedTab (fn : Nat) (bytes : List Byte)
  /-- kind 12 -/
  | xpost (node : Nat) (cmd : NodeCmd)
  | rstPost (ra : DWord) (bytes : List Byte)
  /-- kind 13: the arrival at a tile, and the transmit that sends it with its delay -/
  | benchSend (code : Nat) (v : Vec) (delay : Nat)
  | bench (src : Nat) (v : Vec)
  /-- kind 14: summary (true) or prefix (false) pair, `none` for absent, rows as bytes -/
  | scanPair (summary : Bool) (z : Nat) (pair : Option (List (Nat × Byte) × List (Nat × Byte)))
  /-- SLOC and SAPL: a row popped and combined, a row pushed (issue bundle, row, format, width, ELEM, memory?, addresses), and
  the phase's landing (issue bundle, SLOC?, summary slot, elements, rows, format, width) -/
  | scanPop (r : ScanRow)
  | scanPush (n0 j : Nat) (bf16 : Bool) (w elem : Nat) (toMem : Bool) (aA aB : Nat) (ncA ncB : Bool)
  | scanEnd (n0 : Nat) (sloc : Bool) (z m rows : Nat) (bf16 : Bool) (w : Nat)
  /-- SCRY with P > 1, whose pairs are pending until its carry arrives; and the summaries that leave at issue -/
  | scry (r : ScryRec)
  | scryStart (inst : Nat)
  /-- PARK and UNPARK (R206) -/
  | park (vn : Nat) (v : Vec) (pool : Bool) (abank sbase : Nat)
  | unpark (vn : Nat) (v : Vec)
  /-- LD whose bytes have not been taken yet: destination, physical address, size, sign extension, NC -/
  | load (r : Nat) (pa size : Nat) (sx nc : Bool)
  /-- STEAL (0) or TRDY of a lane (1 + lane), whose predicate is pending -/
  | predPending (p src : Nat)
  /-- RLD, whose vector is pending: destination field, request number plus one (0 until it is queued), the tag it will carry,
  and the push of a walker destination: bytes (0 for none), to memory?, its address, NC -/
  | remote (d : Nat) (req : Nat) (tag : Tag) (plen : Nat) (toMem : Bool) (addr : Nat) (nc : Bool)
  /-- an RLD's request enters the link queue -/
  | rldPost (ra : DWord)
  /-- effects staged for the end of the issuing bundle -/
  | walkAdv (port : Nat) (by_ : Nat)
  /-- the vector a stream has given the bundle in issue (R36) -/
  | popped (port : Nat) (v : Vec)
  | shSwap (key : Nat)
  | tlbFill (e : TlbEntry)
  | fill (lines : List Nat) (nc : Bool)
  | hold (ports : List Nat) (until_ : Nat)
  | scanState (st : ScanSt) (settings : List DWord)
  | reserve (node banks : Nat)
  | planeFmt
  | barArrive (scope bid : Nat)
  | waitm (pa timeout : Nat)
  /-- a read in the atomic unit makes its line atomic-only (R182, R296) -/
  | atomic (pa : Nat)
  | none_
  deriving DecidableEq, Repr

/-- A result in flight (R352, R353): the bundle it is due at, its issue bundle and slot, the tile it belongs to, what it
does, and the flags and counts it applies at landing (R92). `pend` marks an interlocked result that has not arrived; `vg` lists the
virtual granules of the package memory that it reads or writes when it lands (R327, R353). -/
structure Entry where
  due : Nat
  issue : Nat
  slot : Nat
  unit : Nat
  eff : Eff
  fl : Flags := 0
  mx : MxInc := 0
  inter : Bool := false
  pend : Bool := false
  vg : List Nat := []
  deriving DecidableEq, Repr

end Sys2Proof.Machine
end

