-- ==== Sys2Proof/Machine/CoreRec.lean ====
section
/-! DEFINITION. The record types of one core (R155, R156), its planes (R134), its loop sequencer (R32) and the bundle it
is issuing. -/
namespace Sys2Proof.Machine

/-- The states of a core (R156). -/
inductive CoreSt where
  | idle | running | stalled | trapped | halted | suspended
  deriving DecidableEq, Repr

/-- The states of a configuration plane (R134). -/
inductive PlaneSt where
  | empty | loading | shadowReady | active | draining
  deriving DecidableEq, Repr

/-- A bundle: eight slot words, slot 0 first (R22). -/
abbrev Bundle := List Nat

/-- A configuration plane: its state, the section in it and its bundles; LIM is their number (R136). -/
structure Plane where
  st : PlaneSt := .empty
  sec : Nat := 0
  kern : Nat := 0
  code : List Bundle := []
  deriving DecidableEq, Repr

/-- One level of the loop sequencer (R32). -/
structure Level where
  active : Bool := false
  beg : Nat := 0
  count : BitVec 24 := 0
  idx : Nat := 0
  s0r : Nat := 0
  s0c : DWord := 0
  s1r : Nat := 0
  s1c : DWord := 0
  deriving DecidableEq, Repr

/-- What the control operation of a bundle does to fetch (R161). -/
inductive Action where
  | none | kend | swap | halt | call | ret
  deriving DecidableEq, Repr

/-- Why a core does not issue its next bundle: the holding conditions of R156. -/
inductive Hold where
  | none
  /-- HALT waits for its results (R167) -/
  | haltDrain
  /-- END and PLSW wait (R142, R143) -/
  | endDrain
  | plswDrain
  /-- the drain of SUSP, YIELD and a suspending JOIN (R186, R188); YIELD and JOIN carry their bundle's address, JOIN its
  counter's -/
  | suspDrain
  | yieldDrain (addr : Nat)
  | joinDrain (counter addr : Nat)
  /-- FORK holds the CTL slot until the core's writes have reached home (R188): its record, and the JOINC that it read at issue -/
  | forkWait (record joinc : Nat)
  /-- WAITM sleeps on some tiles (R320) -/
  | waitm
  /-- BARW waits on some tiles (R317): scope, object, dies -/
  | barw (scope bid : Nat) (dies : List Nat)
  /-- XWT waits for a node (R283) -/
  | xwt (node : Nat)
  /-- ACQ, REL or FENCE in progress (R310): kind (0 acq, 1 rel, 2 fence), scope, (tile, sync word) pairs, 0 for none -/
  | sync (kind scope : Nat) (words : List (Nat × Nat))
  /-- COMMIT waits for the iteration boundary (R373) -/
  | boundary
  /-- a PAGE fault waits for its service (R101, R334): its slot, when it was raised (R333), whether SPLIT.PGF sent it to the host
  then (R102), and the die, the REASON with its level and access kind, and the address of each die that raised it; no entry is
  left once the fault has gone to the host -/
  | page (slot raised : Nat) (host : Bool) (raisers : List (Nat × Nat × Nat))
  deriving DecidableEq, Repr

/-- The bundle in issue: its address and words, the leaf each die took, the next slot to issue, and what its operations
have staged for its end: the effects (with the unit each belongs to), the next address, the control action, and the holds
or the trap that follows it. -/
structure Issue where
  addr : Nat
  words : Bundle
  leaves : List Nat := [5, 5, 5, 5]
  slot : Nat := 0
  staged : List Entry := []
  next : Nat := 0
  action : Action := .none
  after : List Hold := []
  /-- TRAP or BRK issued: cause code, INFO, SYN and the dies (R348) -/
  post : Option (Nat × Nat × Bool × List Nat) := none
  /-- a BARV ends the Bench transfer phase with this bundle (R293) -/
  leavesPhase : Bool := false
  /-- the BRT operation has been executed -/
  brtDone : Bool := false
  /-- the level whose END mark this bundle carries -/
  fin : Option Nat := none
  /-- the sequencer levels and the walkers of the four tiles as they stood before this bundle's BEG (R33, R47, R196) -/
  lvls0 : SMap Level := []
  walks0 : List (SMap Walker) := []
  deriving DecidableEq, Repr

/-- A debugger breakpoint (R360). -/
structure Breakpoint where
  valid : Bool := false
  kern : Nat := 0
  addr : Nat := 0
  deriving DecidableEq, Repr

/-- A core (R155). -/
structure CoreRec where
  st : CoreSt := .idle
  cid : Nat := 0
  group : Nat := 0
  plane0 : Plane := {}
  plane1 : Plane := {}
  activeIs1 : Bool := false
  secs : List (List Bundle) := []
  hstore : SMap Nat := []
  hlen : Nat := 1024
  kernelHstore : Option (SMap Nat × Nat) := none
  bn : Nat := 0
  pc : Nat := 0
  lvls : SMap Level := []
  rstk : SMap (BitVec 12) := []
  rdepth : Nat := 0
  cause : BitVec 8 := 0
  reason : BitVec 8 := 0
  trapPc : BitVec 12 := 0
  trapInfo : DWord := 0
  trapOrg : DWord := 0
  karg0 : DWord := 0
  karg1 : DWord := 0
  kernid : DWord := 0
  /-- handler mode: the word address of the next handler word (R344, R345) -/
  handler : Option Nat := none
  issue : Option Issue := none
  inflight : List Entry := []
  hold : Hold := .none
  /-- further holds of the same bundle, taken one after the other -/
  holdQ : List Hold := []
  /-- the deque: hardware entries, head first, and the two ends of the spill chain, 0 for none (R183) -/
  deque : List Nat := []
  spTail : Nat := 0
  spHead : Nat := 0
  curRec : Option Nat := none
  curAll : Bool := false
  retired : Bool := false
  /-- the first bundle of the Bench transfer phase the core is in, and which phase of which object it is (R293) -/
  benchFrom : Option Nat := none
  benchId : Nat := 0
  /-- the `.die` objects, with their phases, at which it has arrived and whose transfer phase it has neither entered nor passed by (R293) -/
  benchOwed : List Nat := []
  bps : SMap Breakpoint := []
  /-- a debugger halt: the state it left (R156) -/
  haltedFrom : Option CoreSt := none
  stepPending : Bool := false
  /-- the level whose own return fetched the bundle at pc (R33) -/
  retLvl : Option Nat := none
  /-- TRAP or BRK has issued: cause, INFO, SYN and dies, taken at the next bundle (R348) -/
  pendTrap : Option (Nat × Nat × Bool × List Nat) := none
  /-- the core's stop: a context stop or a debugger halt froze it at this state (R352, R356, R358) -/
  frozen : Bool := false
  /-- the next bundle does not match breakpoints: the debugger has continued or stepped from one (log 9) -/
  bpSkip : Bool := false
  occ : Nat := 0
  drl : Nat := 0
  deriving DecidableEq, Repr

end Sys2Proof.Machine
end

