-- ==== Sys2Proof/Machine/HubRec.lean ====
section
/-! DEFINITION. The record types of contexts (R94 to R105), queues and packets (R109 to R129), groups (R178), loop kernels
(R361 to R376), Colts (R405), the link (R410 to R423) and the platform (R426 to R439). -/
namespace Sys2Proof.Machine

/-- The states of a context (R103). -/
inductive CtxSt where
  | absent | created | resident | running | preempted | faulted | destroyed
  deriving DecidableEq, Repr

/-- An entry of the region table (R300): VALID, base, length, sync word. UNBIND clears VALID alone. -/
structure Region where
  valid : Bool := false
  base : Nat := 0
  bytes : Nat := 0
  sync : Nat := 0
  deriving DecidableEq, Repr

/-- A buffer handle (R122, R123). `named` lists the packets that name it and have not completed; `drop` waits for them. -/
structure Handle where
  base : Nat := 0
  bytes : Nat := 0
  transient : Bool := false
  writer : Option Nat := none
  readers : List Nat := []
  overflow : Bool := false
  named : List Nat := []
  drop : Bool := false
  deriving DecidableEq, Repr

/-- A Flock entry (R377): its tag, oldest token first, and its tokens, most recent first. -/
structure FlockEntry where
  tag : List Nat := []
  toks : List Nat := []
  deriving DecidableEq, Repr

/-- An unmapping range (R329, R330): the range, its mark time T_m, the packet, and the frames its leaves named with the sizes of
their pages. -/
structure Unmapping where
  base : Nat
  bytes : Nat
  tm : Nat
  pkt : Nat
  frames : List (Nat × Nat) := []
  deriving DecidableEq, Repr

/-- A fault record (R333) as its 32 bytes. -/
abbrev FaultRec := List Byte

/-- What a save keeps of a context beside its save area (R107): its cores and tiles with their numbers, the layout, and the bytes that it
wrote of contents without a layout, by section and unit. While the save area holds those bytes, they stand for these records; the other
sections are read back (log 39). -/
structure Saved where
  cores : List (Nat × CoreRec) := []
  tiles : List (Nat × Tile) := []
  layout : Nat := 1
  opens : List (Nat × List (List Byte)) := []
  deriving DecidableEq, Repr

/-- What the iteration sequencer holds of a sequence beside its record in memory, from one loop to the next (R376): how many tokens must
still enter HIST before Flock takes any (R377), the committed tokens not yet in the token ring, each with the place in the stream after
its last byte (R393), and whether it trapped while SPLIT.WPT was set, so that its slots stay reserved (R102, R390). -/
structure SeqMem where
  short : Nat := 0
  owed : List (Nat × Nat) := []
  reserved : Bool := false
  deriving DecidableEq, Repr

/-- A context (R94, R95). -/
structure Ctx where
  st : CtxSt := .absent
  root : Nat := 0
  save : Nat := 0
  split : BitVec 7 := 0
  lease : Nat := 20
  depth : Nat := 0
  pend : Nat := 0
  seed : DWord := 0
  gnone : DWord := 0
  regions : SMap Region := []
  handles : SMap Handle := []
  flock : SMap FlockEntry := []
  /-- what the sequencer holds of the sequences of its tables, by the address of the record -/
  seqs : SMap SeqMem := []
  pool : List Nat := []
  taken : List Nat := []
  unmaps : List Unmapping := []
  ckptInterval : Nat := 0
  ckptArea : Nat := 0
  /-- the context in whose space the checkpoint area lies: that of the queue that set it (R118) -/
  ckptCid : Nat := 0
  ckptBytes : Nat := 0
  ckptBank : Nat := 0
  ckptSeq : Nat := 0
  ckptLast : Nat := 0
  ckptNow : Bool := false
  /-- the checkpoint in progress: its bank's address, CSEQ and START, and the slots it copies (unit, slot) (R279) -/
  ckptRun : Option (Nat × Nat × Nat) := none
  ckptBusy : List (Nat × Nat) := []
  hstore : SMap Nat := []
  saved : Option Saved := none
  faults : List FaultRec := []
  /-- a stop in progress: the state it ends in (R104, R105), and the packet of a destroy that waits (R105) -/
  stopping : Option CtxSt := none
  destroyPkt : Option Nat := none
  restoring : Bool := false
  /-- the status with which the scheduler last refused to restore it (R107, R108), 0 for none -/
  refused : Nat := 0
  /-- for what its pre-emption makes room (R115, R456): the packet at a place of a queue (0), a node of a replay (1), a context (2) -/
  room : List (Nat × Nat × Nat) := []
  /-- the cores on which a kernel of the context has been released: its slots stay there (R139, R269) -/
  used : List Nat := []
  deriving DecidableEq, Repr

/-- The states of a software queue (R112). -/
inductive QueueSt where
  | absent | created | idle | ready | blocked | error | destroyed
  deriving DecidableEq, Repr

/-- A verified queue program (R127, R129): its words and its windows (LOG2, BASE), entry i for window i. -/
structure QProg where
  words : List Nat := []
  windows : List (Nat × Nat) := []
  deriving DecidableEq, Repr

/-- A software queue (R111, R112). `vis` pairs write indices with the time a doorbell showed them; `heads` holds the packets
from the read index on that have been through the queue program, each with the STATUS and DETAIL that SKIP or FAIL gave it;
`out` lists its packets dispatched and not completed; `descCid` is the context in whose space its descriptor lies: that of the
queue that created it (R118). -/
structure Queue where
  st : QueueSt := .absent
  cid : Nat := 0
  descCid : Nat := 0
  gang : Nat := 0
  desc : Nat := 0
  ring : Nat := 0
  logn : Nat := 6
  wptr : Nat := 0
  rptr : Nat := 0
  vis : List (Nat × Nat) := []
  prog : Option QProg := none
  nextProg : Option QProg := none
  q : SMap DWord := []
  heads : List (Option (Nat × Nat) × List Byte) := []
  out : List Nat := []
  mapped : Bool := false
  deriving DecidableEq, Repr

/-- A gang (R110, R114, R115). `agingFrom` is where the 10 ms in progress began; `lastDispatch` is its last dispatch's place in the
device-wide count of them. -/
structure Gang where
  prio : Nat := 0
  quant : Nat := 2000
  eff : Nat := 0
  agingFrom : Nat := 0
  marked : Bool := false
  mapped : Bool := false
  /-- who serves its need to be mapped, settled when that was raised: the host, or the front end (R101, R102) -/
  asks : Option Bool := none
  turnStart : Option Nat := none
  lastQueue : Nat := 0
  lastDispatch : Nat := 0
  deriving DecidableEq, Repr

/-- A packet from its dispatch to its completion; its key is its place in the front-end order (R113). `outcome` holds STATUS
and DETAIL once its completion is due; `deadline`, `watch` (the word's physical address, VALUE and CMP) and `seen` (a write has
satisfied CMP) belong to WAIT (R119); `node` names the replay and node that dispatched it. -/
structure Pkt where
  queue : Nat := 0
  cid : Nat := 0
  bytes : List Byte := []
  hands : List (Nat × Nat) := []
  node : Option (Nat × Nat) := none
  fused : Option Nat := none
  kern : Nat := 0
  started : Bool := false
  outcome : Option (Nat × Nat) := none
  deadline : Option Nat := none
  watch : Option (Nat × Nat × Nat) := none
  seen : Bool := false
  deriving DecidableEq, Repr

/-- The bytecode interpreter with a packet in progress (R128). -/
structure Interp where
  queue : Nat := 0
  pc : Nat := 0
  q : SMap DWord := []
  loops : List (Nat × Nat × Nat) := []
  pkt : List Byte := []
  prog : QProg := {}
  deriving DecidableEq, Repr

/-- A running replay (R125): its graph, buffer, the predecessor counts, the nodes not yet dispatched or in flight, and the
STATUS and DETAIL of the node that ended it. -/
structure Replay where
  graph : Nat := 0
  nnode : Nat := 0
  buf : Nat := 0
  counts : SMap Nat := []
  waiting : List Nat := []
  flying : List Nat := []
  result : Option (Nat × Nat) := none
  deriving DecidableEq, Repr

/-- The states of a group (R178). -/
inductive GroupSt where
  | absent | loading | running | regrouping | retired
  deriving DecidableEq, Repr

/-- The states of a barrier object (R313). An object of a group that is not running is idle: the group holds none of it. -/
inductive BarSt where
  | idle | armed | arriving | complete
  deriving DecidableEq, Repr

/-- A request of the debugger that waits for the end of a package-wide stall (R435, R436). -/
inductive DebugReq where
  | halt | cont | step (core all : Nat) | withdraw (core all : Nat) | breakpoint (v : Nat) | breakpointRead | read | write (v : Nat)
  /-- a write of DCTX that continues a halted context, and the continue that a lowered debug state asks for (R430, R436) -/
  | dctx (v : Nat) | free (cid : Nat)
  deriving DecidableEq, Repr

/-- A barrier object (R313). NPART is computed from the group's cores that have not retired (R312, R314). The complete state
lasts one cycle; participants see PHASE as `seenPhase` (R312); `arrives` counts the pod children's messages of the phase and
`sent` says that this device's own has left (R423). -/
structure Barrier where
  st : BarSt := .armed
  phase : Bool := false
  seenPhase : Bool := false
  arr : Nat := 0
  exp : Nat := 0
  arrives : Nat := 0
  sent : Bool := false
  deriving DecidableEq, Repr

/-- A sampling job (R370, R371). -/
structure Job where
  group : Nat
  lane : Nat
  npos : Nat
  fmt : Nat
  logits : Nat
  deriving DecidableEq, Repr

/-- The iteration sequencer's state of one running loop kernel (R361 to R374). -/
structure LoopRec where
  seqt : Nat := 0
  nseq : Nat := 0
  vocab : Nat := 0
  maxit : Nat := 0
  tag : Nat := 0
  irq : Bool := false
  buckets : List (Nat × Nat × Nat) := []
  occ : Nat := 0
  drl : Nat := 0
  depth : Nat := 0
  iter : Nat := 0
  lanes : List Nat := []
  /-- lanes that hold a job of this iteration, with NPOS and the SEED in force at the last boundary -/
  jobs : SMap Nat := []
  seed : DWord := 0
  asleep : Bool := false
  /-- the line of WAKE while the loop sleeps, and whether a write has reached it since (R374) -/
  wakeLine : Option Nat := none
  woken : Bool := false
  deriving DecidableEq, Repr

/-- A deque of record addresses (R183): hardware entries, head first, and the two ends of the spill chain, 0 for none. -/
structure Deq where
  hw : List Nat := []
  spTail : Nat := 0
  spHead : Nat := 0
  deriving DecidableEq, Repr

/-- A group, keyed by its kernel number (R138, R140, R177 to R180), with its barrier objects (R312). -/
structure Group where
  st : GroupSt := .absent
  cid : Nat := 0
  cores : List Nat := []
  pkts : List Nat := []
  args : Nat := 0
  args2 : Nat := 0
  later : Nat := 0
  presets : List (Nat × Nat) := []
  hstores : SMap (Option (SMap Nat × Nat)) := []
  /-- the sections of each core's image, and the cores that have retired by END (R142) -/
  secs : SMap (List (List Bundle)) := []
  left : List Nat := []
  /-- the deques of the cores that have retired by END, which stay victims (R184), by core -/
  deques : SMap Deq := []
  held : List Nat := []
  regroup : Option (Nat × List Nat) := none
  barriers : SMap (Option Barrier) := []
  loop : Option LoopRec := none
  /-- the splice map of a fused kernel (R154): for each core, the origin (kernel, address) of each fused address -/
  origins : SMap (List (Nat × Nat)) := []
  trapped : Option Nat := none
  /-- the tiles that raise ILLEGAL when they reach a scan phase, since their instance met one that overlaps it (R258): pairs
  of the phase and the tile -/
  spoiled : List (Nat × Nat) := []
  deriving DecidableEq, Repr

/-- The shadow grammar state of a Colt (R406): the memory state it was copied from, and what it has changed. -/
structure Shadow where
  auto : Nat := 0
  state : Nat := 0
  sp : Nat := 0
  limit : Nat := 0
  stack : Nat := 0
  overlay : List (Nat × Nat) := []
  ok : Bool := false
  deriving DecidableEq, Repr

/-- Sampling parameters (R397). -/
structure SPar where
  temp : Nat := 0x3F800000
  topk : Nat := 0
  topp : Nat := 0x3F800000
  minp : Nat := 0
  deriving DecidableEq, Repr

/-- A Colt beside its register file, which is unit 256 + c: its job, its handler store's next word, its return store and trap
registers (R64), and what SAMCFG has loaded (R406). -/
structure ColtRec where
  cid : Nat := 0
  job : Option Job := none
  running : Bool := false
  pc : Nat := 0
  rstk : SMap (BitVec 12) := []
  rdepth : Nat := 0
  cause : BitVec 16 := 0
  trapPc : BitVec 12 := 0
  trapInfo : DWord := 0
  par : SPar := {}
  vocab : Nat := 0
  bf16 : Bool := false
  mask : Option Nat := none
  seed : DWord := 0
  id : DWord := 0
  shadow : Shadow := {}
  deriving DecidableEq, Repr

/-- A remote request from its queueing to its completion (R413, R414): KIND of R410, issuing unit, target (pod and position),
remote address, bytes, size, node for COLL, issue time and whether it holds a slot; `kern` is the kernel that issued it. A COLL stands in
the queue from its post on, and is `ready` once its node has run (R414, log 109). A request whose context has been destroyed after it was
sent is an `orphan`: it keeps its slot until its reply (R105, R413). -/
structure Req where
  kind : Nat
  unit : Nat
  kern : Nat := 0
  cid : Nat := 0
  target : Nat
  va : Nat
  size : Nat
  data : List Byte := []
  /-- COLL: the places of its bytes past the destination (offset, length) -/
  runs : List (Nat × Nat) := []
  fn : Nat := 0
  fmt : Nat := 0
  cnt : Bool := false
  reqNo : Nat := 0
  node : Nat := 256
  ready : Bool := true
  orphan : Bool := false
  sent : Bool := false
  sentAt : Nat := 0
  deriving DecidableEq, Repr

/-- A message on the link as it leaves the device (R410): its header fields and payload bytes, with what a request names (the context, the
address and size, for COLL its function, format, counter and places), and the port it leaves by (R427); 16 stands for the device's own hub,
which a message to the device itself loops through (R416). -/
structure Msg where
  dest : Nat
  src : Nat
  vc : Nat
  kind : Nat
  tag : Nat
  data : List Byte := []
  cid : Nat := 0
  va : Nat := 0
  size : Nat := 0
  fn : Nat := 0
  fmt : Nat := 0
  cnt : Bool := false
  runs : List (Nat × Nat) := []
  port : Nat := 16
  deriving DecidableEq, Repr
/-- NBEAT (R410): the beats of 16 bytes that the payload fills. -/
def Msg.nbeat (m : Msg) : Nat := (m.data.length + 15) / 16

/-- A carry flit that has come in (R422), as the hub holds it: kernel, instance, tree level, the package position in scan order it
comes from, and the pair's values as one number, least significant first. A level of 255 says that a route of the instance has
failed. -/
structure CarryIn where
  kern : Nat
  inst : Nat
  level : Nat
  pos : Nat
  absent : Bool
  data : Nat
  deriving DecidableEq, Repr

/-- A carry flit that leaves (R422): kernel, instance, tree level, the package position in scan order it goes to, the pair, and the port
and the partner device of its level's route (R428). -/
structure Carry where
  kern : Nat
  inst : Nat
  level : Nat
  pos : Nat
  pair : Pair
  port : Nat := 0
  dest : Nat := 0
  deriving DecidableEq, Repr

/-- A pod-barrier message that has left this device (R423), or waits for a slot of the collective channel (R413): arrive or complete, its
destination, JOBID, BID and phase, and its port (R427). -/
structure PodMsg where
  complete : Bool
  dest : Nat
  job : Nat
  bid : Nat
  phase : Bool
  port : Nat := 0
  deriving DecidableEq, Repr

/-- A port (R427). -/
structure Port where
  en : Bool := false
  up : Bool := false
  down : Bool := false
  fails : Nat := 0
  peerPort : Nat := 0
  peerDev : Nat := 0
  deriving DecidableEq, Repr

/-- A package-wide stall waiting or in progress (R12, R338): a frequency step, or a column mask. -/
inductive StallReq where
  | freq (step : Nat)
  | cols (mask : Nat)
  deriving DecidableEq, Repr

/-- A pending firmware image (R437): VERSION, LAYOUTS, and where its bytes lie in host memory with their number. -/
structure FwImage where
  version : Nat
  layouts : Nat
  base : Nat
  size : Nat
  manifest : List Byte := []
  body : List Byte := []
  deriving DecidableEq, Repr

/-- The hub die and the rest of the device. -/
structure Hub where
  queues : SMap Queue := []
  gangs : SMap Gang := []
  hwslots : SMap Nat := []
  lastGang : SMap Nat := []
  /-- how many packets have been dispatched, and the gangs whose map requests wait for the host, in posting order (R110) -/
  dispatches : Nat := 0
  mapReqs : List Nat := []
  pkts : SMap Pkt := []
  nextPkt : Nat := 1
  hand : Option Nat := none
  interp : Option Interp := none
  replays : SMap Replay := []
  nextKern : Nat := 1
  groups : SMap Group := []
  loading : List Nat := []
  irqs : Nat := 0
  colts : SMap ColtRec := []
  /-- the words of the Colt routine loaded (R64, R371) -/
  routine : List Nat := []
  jobs : List Job := []
  /-- sequence traps to post: kernel, record, PTIME of the trap, the slots to spill with their images (R390) -/
  seqTraps : List (Nat × Nat × Nat × List (Nat × Nat)) := []
  /-- fork copies to make: kernel, source and destination slot as 64 × unit + slot (R389) -/
  forkCopies : List (Nat × Nat × Nat) := []
  carriesIn : List CarryIn := []
  carriesOut : List Carry := []
  podMsgs : List PodMsg := []
  podWaits : List PodMsg := []
  /-- link unit -/
  reqs : List Req := []
  nextReq : Nat := 0
  sentMsgs : List Msg := []
  ports : SMap Port := []
  routes : SMap Nat := []
  selfid : Nat := 0
  podsize : Nat := 1
  hbeat : Nat := 20000
  bridge : Nat := 1
  rtidx : Nat := 0
  lto : Nat := 1000
  jobctx : Nat := 0
  jobrank : Nat := 0
  cridx : Nat := 0
  crdata : SMap Nat := []
  jobmap : SMap Nat := []
  /-- host side: memory behind the bridge, and the fault ring -/
  hostMem : SMap Byte := []
  fqbase : Nat := 0
  fqhead : Nat := 0
  /-- security and debug -/
  secure : Bool := false
  dstate : Nat := 0
  derr : Bool := false
  dbgtok : SMap Byte := []
  nonce : SMap Byte := []
  dctx : Nat := 0
  attach : Bool := false
  dref : Bool := false
  dhalts : Nat := 0
  haltCtx : Option Nat := none
  haltPending : List Nat := []
  bpsel : Nat := 0
  daddr : Nat := 0
  ddata : Nat := 0
  /-- power -/
  coltgt : Nat := 255
  colmask : Nat := 255
  freq : Nat := 0
  freqnow : Nat := 0
  gov : Bool := false
  idleReq : Bool := false
  srReq : Bool := false
  idle : Bool := false
  /-- a doorbell or a dispatch has asked for the active state (R434) -/
  wake : Bool := false
  selfRefresh : Bool := false
  stalls : List StallReq := []
  stalled : Bool := false
  /-- the running cores that the stall in progress holds (R156), and the replies that have come meanwhile, in arrival order (R13) -/
  stallCores : List Nat := []
  heldReplies : List (Nat × Option (List Byte)) := []
  /-- the debugger's requests that the stall in progress holds, in arrival order (R435) -/
  debugWaits : List DebugReq := []
  fenced : Bool := false
  /-- firmware -/
  fwPhase : Nat := 0
  fwErr : Nat := 0
  runver : Nat := 0
  runlay : Nat := 2
  runImage : List Byte := []
  pendImage : Option FwImage := none
  fwCommit : Bool := false
  deriving DecidableEq, Repr

end Sys2Proof.Machine
end

