-- ==== Sys2Proof/Machine/State.lean ====
section
/-! DEFINITION. The state of the machine as plain data, the reasons it can stop, and the state after reset. -/
namespace Sys2Proof.Machine

/-- Who acts next (log 3): a core issues its next slot or handler word, a Colt its next word, or the bytecode interpreter
its next word. -/
inductive Actor where
  | idle
  | core (k : Nat)
  | colt (c : Nat)
  | qprog
  deriving DecidableEq, Repr

/-- One entry of the schedule (log 3): an agent acts, an event of the device happens, package time passes, or the host
writes eight bytes of package or of host memory, reads a register of the window, or a message in transit passes. -/
inductive Choice where
  | act (a : Actor)
  | happen (i : Instr)
  | tick (ns : Nat)
  | hostStore (pa v : Nat)
  | hostMem (addr v : Nat)
  | hostRead (off : Nat)
  | transit (m : Msg)
  deriving DecidableEq, Repr

/-- Why the machine stops. -/
inductive Fault where
  /-- A physical address at or above the 512 GiB of package memory (R10): raised by step when the schedule's host writes
  there; safe: the spec gives no memory at such an address. -/
  | noSuchMemory (pa : Nat)
  deriving DecidableEq, Repr

/-- Why a step has no meaning. -/
inductive Refusal where
  /-- An instruction whose meaning is not written: raised by its arm of exec; safe: nothing is claimed about it. -/
  | notModelled (mnemonic : String)
  deriving DecidableEq, Repr

/-- Package memory: (physical address, byte) pairs; an unlisted byte reads as 0 (log 13). -/
abbrev Memory := SMap Byte
/-- The canonical form: addresses strictly rising, no listed byte equal to 0. -/
def Memory.wf (m : Memory) : Bool := swf 0#8 m

/-- The state of the device (R155, and the home chapters of each part). `turn`, `sched` and `freeCount` are the model's own:
who acts, in what order agents and events take turns, and the counter of open values. -/
structure State where
  tiles : SMap Tile := []
  cores : SMap CoreRec := []
  mem : Memory := []
  l2 : SMap (SMap Line) := []
  adit : SMap (SMap Line) := []
  atomicOnly : SMap Bool := []
  dieTlb : SMap (List TlbEntry) := []
  walkCache : SMap (List WalkEntry) := []
  ctxs : SMap Ctx := []
  hub : Hub := {}
  ptime : Nat := 0
  turn : Actor := .idle
  sched : List Choice := []
  freeCount : Nat := 0
  deriving DecidableEq, Repr

/-- The machine right after reset (R16, R162, R192, R429): every register at the reset value its table gives, package time
zero, every core idle, the debug state locked, context 0 in existence. Registers without a stated reset value hold zero
(log 4). -/
def State.reset : State :=
  { ctxs := [(0, { st := .created })] }

end Sys2Proof.Machine
end

