-- ==== Sys2Proof/Machine/Ops.lean ====
section
/-! DEFINITION. The named operations over the state: where each register lives, and what an operation may answer. -/
namespace Sys2Proof.Machine

/-- What a step answers. -/
abbrev Out := Host.Outcome State Fault Refusal

/-- What an operation's look at its operands can end in instead of a result: a precise trap of the bundle (R47) with its
cause code, REASON and ARG (R339), a wait of its slot (R41), or a wait that holds the whole core: for STEAL or TRDY, or of a
BARV (R156, R317). -/
inductive Stop where
  | trap (cause : Nat) (reason : Nat) (arg : Nat)
  | wait
  | bank (u banks : Nat) (cmd : Bool)
  | hold
  deriving DecidableEq, Repr

/-- A result, or a stop. -/
abbrev Res := Except Stop

/-- The cause codes of R6. -/
def cILLEGAL : Nat := 1
def cILLEGAL_BUNDLE : Nat := 2
def cTAG_MISMATCH : Nat := 3
def cLATCH_EMPTY : Nat := 4
def cPLANE_END : Nat := 5
def cRSTK_OVF : Nat := 6
def cRSTK_EMPTY : Nat := 7
def cPAGE : Nat := 8
def cACCESS : Nat := 9
def cMISALIGN : Nat := 10
def cBANK : Nat := 11
def cBREAK : Nat := 12
def cSOFTWARE : Nat := 13
def cSEQUENCE : Nat := 14

/-- Raise a cause with REASON 0 (R339). -/
def raise {α : Type} (cause arg : Nat) : Res α := .error (.trap cause 0 arg)
/-- Raise a cause with a REASON (R339). -/
def raiseR {α : Type} (cause reason arg : Nat) : Res α := .error (.trap cause reason arg)
/-- The slot waits (R41). -/
def stall {α : Type} : Res α := .error .wait
/-- The slot waits for banks of tile u: an engine command, or an access (R286). -/
def bankStall {α : Type} (u banks : Nat) (cmd : Bool) : Res α := .error (.bank u banks cmd)
/-- The core is held (R156). -/
def holdCore {α : Type} : Res α := .error .hold
/-- Raise unless a condition holds. -/
def check (b : Bool) (cause arg : Nat) : Res Unit := if b then .ok () else raise cause arg

/-- The number of tile `die` of core `k`; a Colt c is unit 256 + c. -/
def unitOf (k die : Nat) : Nat := 4 * k + die
def coltUnit (c : Nat) : Nat := 256 + c

/-- The tile (or Colt register) record of a unit. -/
def State.tile (s : State) (u : Nat) : Tile := sget {} s.tiles u
def State.setTile (s : State) (u : Nat) (t : Tile) : State := { s with tiles := sset {} s.tiles u t }
def State.modTile (s : State) (u : Nat) (f : Tile → Tile) : State := s.setTile u (f (s.tile u))

/-- The record of core k. -/
def State.core (s : State) (k : Nat) : CoreRec := sget {} s.cores k
def State.setCore (s : State) (k : Nat) (c : CoreRec) : State := { s with cores := sset {} s.cores k c }
def State.modCore (s : State) (k : Nat) (f : CoreRec → CoreRec) : State := s.setCore k (f (s.core k))

/-- The core moves to a state of R156; under a debugger halt, the state that a continue returns it to. -/
def CoreRec.enter (c : CoreRec) (st : CoreSt) : CoreRec :=
  if c.haltedFrom.isSome then { c with haltedFrom := some st } else { c with st := st }
/-- Gated work stands still while a package-wide stall is in progress (R12). -/
def State.unlessStalled (s t : State) : State := if s.hub.stalled then s else t

/-- The record of a context (R94). -/
def State.ctx (s : State) (c : Nat) : Ctx := sget {} s.ctxs c
def State.setCtx (s : State) (c : Nat) (x : Ctx) : State := { s with ctxs := sset {} s.ctxs c x }
def State.modCtx (s : State) (c : Nat) (f : Ctx → Ctx) : State := s.setCtx c (f (s.ctx c))

/-- Draw a fresh index for a free value. -/
def State.fresh (s : State) : State := { s with freeCount := s.freeCount + 1 }

/-- A lane mask of all ones (R192). -/
def allOnes : Mask := BitVec.allOnes 128

/-- x[r] in the register file; x0 reads as zero (R157). -/
def Tile.getX (t : Tile) (r : Nat) : DWord := if r = 0 then 0 else sget 0 t.x r
/-- A write of x0 is discarded (R52). -/
def Tile.setX (t : Tile) (r : Nat) (v : DWord) : Tile := if r = 0 then t else { t with x := sset 0 t.x r v }
/-- The handler copies of x24–x31 (R344). -/
def Tile.getHX (t : Tile) (r : Nat) : DWord := if 24 ≤ r then sget 0 t.hx r else t.getX r
def Tile.setHX (t : Tile) (r : Nat) (v : DWord) : Tile := if 24 ≤ r then { t with hx := sset 0 t.hx r v } else t.setX r v

/-- The predicates (R158): p0 is 1, p1–p4 name the die, p5 the lead die; a Colt holds no die predicate. -/
def predOf (t : Tile) (u i : Nat) : Bool :=
  if i = 0 then true
  else if i ≤ 4 then u < 256 && u % 4 = i - 1
  else if i = 5 then u < 256 && u % 4 = u / 4 % 4
  else t.p.getLsbD i
/-- Write pi; p0–p5 are never written (R52). -/
def Tile.setP (t : Tile) (i : Nat) (b : Bool) : Tile :=
  if i ≤ 5 then t else
  { t with p := if b then t.p ||| BitVec.twoPow 128 i else t.p &&& ~~~(BitVec.twoPow 128 i) }

def Tile.getK (t : Tile) (i : Nat) : Mask := sget allOnes t.k i
def Tile.setK (t : Tile) (i : Nat) (m : Mask) : Tile := { t with k := sset allOnes t.k i m }
def Tile.getV (t : Tile) (i : Nat) : Vec := sget {} t.v i
def Tile.setV (t : Tile) (i : Nat) (v : Vec) : Tile := { t with v := sset {} t.v i v }
def Tile.getLatch (t : Tile) (i : Nat) : Option Vec := sget none t.latch i
def Tile.setLatch (t : Tile) (i : Nat) (v : Vec) : Tile := { t with latch := sset none t.latch i (some v) }
def Tile.getBt (t : Tile) (j : Nat) : BitVec 12 := sget 0 t.bt j
def Tile.getWalk (t : Tile) (i : Nat) : Walker := sget {} t.walk i
def Tile.setWalk (t : Tile) (i : Nat) (w : Walker) : Tile := { t with walk := sset {} t.walk i w }
def Tile.getSlot (t : Tile) (z : Nat) : Slot := sget {} t.slots z
def Tile.setSlot (t : Tile) (z : Nat) (v : Slot) : Tile := { t with slots := sset {} t.slots z v }
def Tile.getNode (t : Tile) (n : Nat) : Node := sget {} t.nodes n
def Tile.setNode (t : Tile) (n : Nat) (v : Node) : Tile := { t with nodes := sset {} t.nodes n v }
/-- Field f of the live copy of a shape; the key is engine × 4 + number (R200). -/
def Tile.shape (t : Tile) (key f : Nat) : DWord := sget 0 (sget [] t.shLive key) f
/-- The stationary planes by role (R236). -/
def Tile.livePlane (t : Tile) : SPlane := if t.liveIs1 then t.plane1 else t.plane0
def Tile.shadowPlane (t : Tile) : SPlane := if t.liveIs1 then t.plane0 else t.plane1

/-- Scratchpad bytes (R217): 4 MiB. -/
def spadSize : Nat := 4194304
def Tile.spadByte (t : Tile) (a : Nat) : Byte := sget 0 t.spad a
def Tile.spadBytes (t : Tile) (a len : Nat) : List Byte := (upTo len).map (fun i => t.spadByte (a + i))
def Tile.spadNat (t : Tile) (a len : Nat) : Nat := leNat (t.spadBytes a len)
/-- Write bytes given with their addresses. -/
def putCells (m : SMap Byte) : List (Nat × Byte) → SMap Byte
  | [] => m
  | (a, b) :: cs => putCells (sset 0 m a b) cs
/-- Consecutive bytes with their addresses. -/
def cellsAt (a : Nat) : List Byte → List (Nat × Byte)
  | [] => []
  | b :: bs => (a, b) :: cellsAt (a + 1) bs
def Tile.putSpad (t : Tile) (a : Nat) (bs : List Byte) : Tile := { t with spad := putCells t.spad (cellsAt a bs) }

/-- An accumulator element (R241). -/
def accIndex (bank row col : Nat) : Nat := (bank * 192 + row) * 256 + col
def Tile.accAt (t : Tile) (bank row col : Nat) : Nat := (sget 0 t.acc (accIndex bank row col)).toNat
def Tile.setAcc (t : Tile) (bank row col v : Nat) : Tile :=
  { t with acc := sset 0 t.acc (accIndex bank row col) (BitVec.ofNat 32 v) }

/-- The operation in issue: its machine, unit, slot and bundle, and whether it stands in single-operation mode
(a handler word or Colt code, R62). -/
structure OpCtx where
  s : State
  u : Nat
  slot : Nat
  n : Nat
  single : Bool

def OpCtx.t (c : OpCtx) : Tile := c.s.tile c.u
def OpCtx.k (c : OpCtx) : Nat := c.u / 4
def OpCtx.core (c : OpCtx) : CoreRec := c.s.core c.k
def OpCtx.die (c : OpCtx) : Nat := c.u % 4
def OpCtx.isColt (c : OpCtx) : Bool := decide (256 ≤ c.u)
/-- The results in flight of the core, as a bundle's reads see them; single-operation code sees none (R354). -/
def OpCtx.flight (c : OpCtx) : List Entry := if c.single then [] else c.core.inflight

/-- The latest interlocked result in flight for a scalar register: a value that has arrived, or pending (R44). -/
def pendX (u r : Nat) : List Entry → Option (Option DWord)
  | [] => none
  | e :: es =>
    match pendX u r es with
    | some v => some v
    | none =>
      if e.unit = u && e.inter then
        match e.eff with
        | .xreg q v => if q = r then some (some v) else none
        | .load q _ _ _ _ => if q = r then some none else none
        | _ => none
      else none

/-- x[r] as an operation reads it: x0 is zero, the bank in single-operation mode on a tile (R344), and a pending
destination is waited for (R44). -/
def rx (c : OpCtx) (r : Nat) : Res DWord :=
  if r = 0 then .ok 0
  else if c.single then .ok (if c.isColt then c.t.getX r else c.t.getHX r)
  else match pendX c.u r c.flight with
    | none => .ok (c.t.getX r)
    | some (some v) => .ok v
    | some none => stall

/-- The latest interlocked result in flight for a predicate. -/
def pendP (u p : Nat) : List Entry → Option (Option Bool)
  | [] => none
  | e :: es =>
    match pendP u p es with
    | some v => some v
    | none =>
      if e.unit = u && e.inter then
        match e.eff with
        | .pred q b => if q = p then some (some b) else none
        | .predPending q _ => if q = p then some none else none
        | _ => none
      else none

/-- p[i] as an operation reads it (R158, R44). -/
def rp (c : OpCtx) (i : Nat) : Res Bool :=
  if i ≤ 5 then .ok (predOf c.t c.u i)
  else match pendP c.u i c.flight with
    | none => .ok (predOf c.t c.u i)
    | some (some b) => .ok b
    | some none => holdCore

/-- One result or effect of an operation: its latency (0: staged for the end of its bundle), what it does, the flags and counts it
carries (R92), and the virtual granules it holds. -/
structure Post where
  lat : Nat
  eff : Eff
  fl : Flags := 0
  mx : MxInc := 0
  inter : Bool := false
  pend : Bool := false
  vg : List Nat := []

end Sys2Proof.Machine
end

