-- ==== Sys2Proof/Machine/Mem.lean ====
section
/-! DEFINITION. Package memory, the caches in front of it, page walks and translation (R9, R295 to R298, R322 to R328, R336). -/
namespace Sys2Proof.Machine

/-- Package memory is 512 GiB (R10). -/
def memSize : Nat := 549755813888

/-- The bytes at a physical address, at the stack die. -/
def State.memBytes (s : State) (pa len : Nat) : List Byte := (upTo len).map (fun i => sget 0 s.mem (pa + i))
def State.memNat (s : State) (pa len : Nat) : Nat := leNat (s.memBytes pa len)

/-- A wake event of a monitored line: EVENT is set, or the sleeper wakes and takes it (R320, R321). -/
def MonEntry.wake (e : MonEntry) : MonEntry := { e with event := !e.asleep, asleep := false, deadline := none }

/-- A tile's entry on a line takes a wake event (R321). -/
def Tile.wakeLine (t : Tile) (ln : Nat) : Tile := { t with mon := t.mon.map (fun e => if e.line = ln then e.wake else e) }
/-- A write or an AMO to a line sets EVENT in every monitor entry on it (R321); in a package-wide stall the event waits before
the tile (R13). -/
def wakeLineIn (held : Bool) (ln : Nat) : SMap Tile → SMap Tile
  | [] => []
  | (u, t) :: ts =>
    (u, if held && t.mon.any (fun e => decide (e.line = ln)) then { t with wakes := t.wakes ++ [ln] } else t.wakeLine ln) :: wakeLineIn held ln ts
/-- The comparison of a WAIT's word with its VALUE (R118). -/
def waitCmp (cmp v w : Nat) : Bool :=
  match cmp with
  | 0 => decide (v ≤ w)
  | 1 => decide (w = v)
  | _ => decide (w ≠ v)
/-- A WAIT whose TIMEOUT has not passed (R119). -/
def Pkt.inTime (p : Pkt) (now : Nat) : Bool := match p.deadline with
  | some dl => decide (now < dl)
  | none => true
/-- After every write to its word's line the front end evaluates a WAIT's comparison, until its TIMEOUT has passed (R119). -/
def noteWait (mem : Memory) (now ln : Nat) (p : Pkt) : Pkt :=
  match p.watch with
  | some (pa, v, cmp) =>
    if pa / 64 = ln ∧ p.inTime now ∧ waitCmp cmp v (leNat ((upTo 8).map (fun i => sget 0 mem (pa + i)))) then { p with seen := true } else p
  | none => p
def State.noteWaits (s : State) (ln : Nat) : State :=
  if s.hub.pkts.any (fun p => p.2.watch.isSome) then
    { s with hub := { s.hub with pkts := s.hub.pkts.map (fun p => (p.1, noteWait s.mem s.ptime ln p.2)) } }
  else s
/-- A write to its WAKE wakes a loop that sleeps (R374). -/
def noteLoop (ln : Nat) (g : Group) : Group :=
  { g with loop := g.loop.map (fun l => if l.wakeLine = some ln then { l with woken := true } else l) }
def Group.sleepsOn (g : Group) (ln : Nat) : Bool := match g.loop with
  | some l => decide (l.wakeLine = some ln)
  | none => false
def State.noteLoops (s : State) (ln : Nat) : State :=
  if s.hub.groups.any (fun g => g.2.sleepsOn ln) then
    { s with hub := { s.hub with groups := s.hub.groups.map (fun g => (g.1, noteLoop ln g.2)) } }
  else s
/-- What a write to a line does beside its bytes: monitors, waits of the front end and sleeping loops see it (R119, R321, R374). -/
def State.touchLine (s : State) (ln : Nat) : State := ({ s with tiles := wakeLineIn s.hub.stalled ln s.tiles }.noteWaits ln).noteLoops ln

/-- Write bytes at the stack die: hub-originated accesses, the Mule, atomics (R9, R296). -/
def State.putMem (s : State) (pa : Nat) (bs : List Byte) : State :=
  let s1 := { s with mem := putCells s.mem (cellsAt pa bs) }
  (upTo (bs.length / 64 + 2)).foldl (fun s j =>
    let ln := pa / 64 + j
    if ln * 64 < pa + bs.length then s.touchLine ln else s) s1
def State.putMemNat (s : State) (pa len v : Nat) : State := s.putMem pa (leBytes len v)

/-- The C-die whose stacks a line's home is among (R8). -/
def homeDie (ln : Nat) : Nat := Config.homeStack ln % 8 / 2
/-- The peer port of die d towards die e (R8); the Adit cache of the same number serves it. -/
def peerPort (d e : Nat) : Nat := (e + 4 - d) % 4 - 1
def aditKey (d e : Nat) : Nat := 3 * d + peerPort d e

def State.l2Line (s : State) (d ln : Nat) : Line := sget {} (sget [] s.l2 d) ln
def State.setL2 (s : State) (d ln : Nat) (l : Line) : State :=
  { s with l2 := smod [] s.l2 d (fun m => sset {} m ln l) }
def State.aditLine (s : State) (key ln : Nat) : Line := sget {} (sget [] s.adit key) ln
def State.setAdit (s : State) (key ln : Nat) (l : Line) : State :=
  { s with adit := smod [] s.adit key (fun m => sset {} m ln l) }
def State.isAtomic (s : State) (ln : Nat) : Bool := sget false s.atomicOnly ln
/-- A line is held when its bytes are listed. -/
def Line.held (l : Line) : Bool := !l.bytes.isEmpty

/-- The bytes of a line that its die has written. -/
def Line.written (l : Line) (ln : Nat) : List (Nat × Byte) :=
  (cellsAt (64 * ln) l.bytes).filter (fun c => sget false l.dirty (c.1 % 64))
/-- Write the dirty bytes of a home-L2 line to its stack die; the line stays valid (R292, R304). A byte that the die has not
written is not stored back: R303 promises it to the party that wrote it past this cache. -/
def State.writeBack (s : State) (d ln : Nat) : State :=
  let l := s.l2Line d ln
  if l.held && !l.dirty.isEmpty then
    ((({ s with mem := putCells s.mem (l.written ln) }).setL2 d ln { l with dirty := [] }).noteWaits ln).noteLoops ln
  else s
/-- Write back if dirty, then invalidate. -/
def State.flushL2 (s : State) (d ln : Nat) : State := (s.writeBack d ln).setL2 d ln {}

/-- A line becomes atomic-only: the home L2 first writes it back and invalidates it, and no cache holds it (R296). -/
def State.markAtomic (s : State) (ln : Nat) : State :=
  let s1 := (upTo 4).foldl (fun s d => s.flushL2 d ln) s
  { s1 with
    atomicOnly := sset false s1.atomicOnly ln true
    adit := s1.adit.map (fun p => (p.1, sdrop p.2 ln))
    tiles := s1.tiles.map (fun p => (p.1, { p.2 with rc := sdrop p.2.rc ln })) }

/-- The 64 bytes a tile's read of a line returns (R295, R336): its read cache, then the home L2 of its own die or the Adit
cache of the port, then the stack die. NC and atomic-only lines are held nowhere. A Colt reads at the stack die. -/
def State.peekLine (s : State) (u ln : Nat) (nc : Bool) : List Byte :=
  let home := s.memBytes (64 * ln) 64
  if 256 ≤ u || nc || s.isAtomic ln then home
  else
    let r := sget {} (s.tile u).rc ln
    if r.held then r.bytes
    else
      let l := if homeDie ln = u % 4 then s.l2Line (u % 4) ln else s.aditLine (aditKey (u % 4) (homeDie ln)) ln
      if l.held then l.bytes else home

/-- h(pa) (R337). -/
def hashCol (pa : Nat) : Nat := (upTo 11).foldl (fun h i => Nat.xor h (bitsOf pa (3 * i + 8) (3 * i + 6))) 0
/-- col(pa) under a mask of powered columns (R337). -/
def columnOf (mask pa : Nat) : Nat :=
  if bitOf mask (hashCol pa) then hashCol pa
  else
    let p := (upTo 8).filter (fun c => bitOf mask c)
    nth 0 p (bitsOf pa 17 6 % p.length)
/-- The lines that the caches hold (R7, R20): 64 KiB of a read cache, 16 MiB of an Adit cache, 12 slices of 2 MiB of an L2 column. -/
def rcLines : Nat := 1024
def aditLines : Nat := 262144
def columnLines : Nat := 393216
/-- Which of the lines held leaves a full cache is open (log 91). -/
def victim (s : State) (m : SMap Line) : Nat := (nth (0, {}) m (Config.freeValue s.freeCount % m.length)).1
/-- Room for a line in the read cache of a tile, in an Adit cache, in its column of a die's L2: a line that leaves an L2 is written
back first. -/
def State.roomRc (s : State) (u ln : Nat) : State :=
  let m := (s.tile u).rc
  if m.length < rcLines ∨ (sget {} m ln).held then s else (s.modTile u (fun t => { t with rc := sdrop t.rc (victim s m) })).fresh
def State.roomAdit (s : State) (key ln : Nat) : State :=
  let m := sget [] s.adit key
  if m.length < aditLines ∨ (sget {} m ln).held then s else (s.setAdit key (victim s m) {}).fresh
def State.roomL2 (s : State) (d ln : Nat) : State :=
  let m := sget [] s.l2 d
  if m.length < columnLines ∨ (sget {} m ln).held then s
  else
    let col := m.filter (fun l => decide (columnOf s.hub.colmask (64 * l.1) = columnOf s.hub.colmask (64 * ln)))
    if col.length < columnLines then s else (s.flushL2 d (victim s col)).fresh

/-- The lines a read allocates (R336): the read cache, and the home L2 or, for the accesses that R336 lists, the Adit cache it
arrives through. -/
def State.fillLineA (s : State) (u ln : Nat) (nc viaAdit : Bool) : State :=
  if 256 ≤ u || nc || s.isAtomic ln then s
  else
    let bs := s.peekLine u ln nc
    let s1 := (s.roomRc u ln).modTile u (fun t => { t with rc := sset {} t.rc ln { bytes := bs } })
    if homeDie ln = u % 4 then
      if (s1.l2Line (u % 4) ln).held then s1 else (s1.roomL2 (u % 4) ln).setL2 (u % 4) ln { bytes := s.memBytes (64 * ln) 64 }
    else
      let key := aditKey (u % 4) (homeDie ln)
      if !viaAdit || (s1.aditLine key ln).held then s1 else (s1.roomAdit key ln).setAdit key ln { bytes := s.memBytes (64 * ln) 64 }
def State.fillLine (s : State) (u ln : Nat) (nc : Bool) : State := s.fillLineA u ln nc true

/-- The bytes of a physical range as unit u reads them. -/
def State.peek (s : State) (u pa len : Nat) (nc : Bool) : List Byte :=
  (upTo len).map (fun i => nth 0#8 (s.peekLine u ((pa + i) / 64) nc) ((pa + i) % 64))
/-- The lines of a physical range. -/
def linesOf (pa len : Nat) : List Nat :=
  if len = 0 then [] else (upTo ((pa + len - 1) / 64 - pa / 64 + 1)).map (fun i => pa / 64 + i)

/-- A write that leaves die d through a peer port drops the line from that port's Adit cache (R296). -/
def State.passPort (s : State) (d ln : Nat) : State := if homeDie ln = d then s else s.setAdit (aditKey d (homeDie ln)) ln {}
/-- One byte written by a tile (R296, R298): a line of the die's own stacks goes to the home L2, dirty; a posted write to
another die's line, and a write to an NC or atomic-only line, goes to the stack die. The tile's read cache and the port's
Adit cache drop the line. -/
def State.storeByte (s : State) (u : Nat) (nc : Bool) (c : Nat × Byte) : State :=
  let ln := c.1 / 64
  let s := s.modTile u (fun t => if 256 ≤ u then t else { t with rc := sdrop t.rc ln })
  if 256 ≤ u then { s with mem := sset 0 s.mem c.1 c.2 }
  else if nc || s.isAtomic ln then { s with mem := sset 0 s.mem c.1 c.2 }.passPort (u % 4) ln
  else if homeDie ln = u % 4 then
    let s := s.roomL2 (u % 4) ln
    let l := s.l2Line (u % 4) ln
    let bs := if l.held then l.bytes else s.memBytes (64 * ln) 64
    s.setL2 (u % 4) ln { bytes := setNth c.2 bs (c.1 % 64), dirty := sset false l.dirty (c.1 % 64) true }
  else
    { s with mem := sset 0 s.mem c.1 c.2 }.passPort (u % 4) ln
/-- The first of each run of equal numbers. -/
def runHeads : List Nat → List Nat
  | [] => []
  | [a] => [a]
  | a :: b :: l => if a = b then runHeads (b :: l) else a :: runHeads (b :: l)
/-- A tile's (or Colt's) store of bytes; every line written wakes its monitors (R321). -/
def State.store (s : State) (u : Nat) (nc : Bool) (cells : List (Nat × Byte)) : State :=
  let s1 := cells.foldl (fun s c => s.storeByte u nc c) s
  (runHeads (cells.map (fun c => c.1 / 64))).foldl (fun s ln => s.touchLine ln) s1

/-- The granule of one 64 KiB page. -/
def granule (va : Nat) : Nat := va / 65536

/-- The index of a virtual address at a level (R322). -/
def vaIndex (va lvl : Nat) : Nat :=
  match lvl with
  | 3 => bitsOf va 55 47
  | 2 => bitsOf va 46 31
  | 1 => bitsOf va 30 21
  | _ => bitsOf va 20 16
/-- The page a leaf of a level maps (R322). -/
def pageSize (lvl : Nat) : Nat :=
  match lvl with
  | 2 => 2147483648
  | 1 => 2097152
  | _ => 65536
/-- The size of the table that an entry of a level points to (R322). -/
def tableSize (lvl : Nat) : Nat :=
  match lvl with
  | 3 => 524288
  | 2 => 8192
  | _ => 256

/-- A fault of a walk: cause, REASON of R333, level. -/
structure WalkFault where
  cause : Nat
  reason : Nat
  level : Nat
  deriving DecidableEq, Repr

/-- The levels of a walk from `lvl` down (R324). -/
def walkFrom (s : State) (va : Nat) : Nat → Nat → Except WalkFault (Nat × Nat × Nat)
  | lvl, t =>
    let e := s.memNat (t + 8 * vaIndex va lvl) 8
    let addr := bitsOf e 47 8 * 256
    if e % 2 = 0 then .error ⟨cPAGE, 1, lvl⟩
    else
      let leaf := bitOf e 1
      let bad := bitsOf e 63 48 ≠ 0 || bitsOf e 7 6 ≠ 0 || (lvl = 3 && leaf) || (lvl = 0 && !leaf)
        || (if leaf then addr % pageSize lvl ≠ 0 else addr % tableSize lvl ≠ 0 || memSize ≤ addr)
      if bad then .error ⟨cPAGE, 3, lvl⟩
      else if leaf then .ok (addr, lvl, e)
      else match lvl with
        | 0 => .error ⟨cPAGE, 3, 0⟩
        | l + 1 => walkFrom s va l addr

/-- Whether an address lies in one of the context's unmapping ranges (R324, R329). -/
def Ctx.unmapping (x : Ctx) (va : Nat) : Bool := x.unmaps.any (fun r => decide (r.base ≤ va) && decide (va < r.base + r.bytes))

/-- The walk-cache entry of a level that a walk of unit u finds (R325, R326); the hub has no walk cache. -/
def walkHit (s : State) (u cid va lvl : Nat) : Option WalkEntry :=
  if 256 ≤ u then none
  else (sget [] s.walkCache (u % 4)).find? (fun e => e.cid = cid && e.level = lvl && e.index = va / 2 ^ (if lvl = 3 then 47 else 31) && s.ptime < e.expiry)
/-- Where a walk of unit u starts: the level and the table. -/
def walkStart (s : State) (u cid va : Nat) : Nat × Nat :=
  match walkHit s u cid va 2 with
  | some e => (1, e.table)
  | none => match walkHit s u cid va 3 with
    | some e => (2, e.table)
    | none => (3, (s.ctx cid).root)
/-- walk of R324 by unit u, without the permission check: the translation it finds, with its lease (R326). From the mark of an
UNMAP on, an address of its range whose leaf is clear faults UNMAPPING too (R331). -/
def walkBy (s : State) (u cid va : Nat) : Except WalkFault TlbEntry :=
  let x := s.ctx cid
  let st := walkStart s u cid va
  if 2 ^ 56 ≤ va then .error ⟨cACCESS, 6, 3⟩
  else match walkFrom s va st.1 st.2 with
    | .error f => .error (if f.reason = 1 ∧ x.unmapping va then { f with reason := 2 } else f)
    | .ok (frame, lvl, e) =>
      if x.unmapping va then .error ⟨cPAGE, 2, lvl⟩
      else .ok { cid := cid, vbase := va / pageSize lvl * pageSize lvl, size := pageSize lvl, frame := frame,
                 rd := bitOf e 2, wr := bitOf e 3, sec := bitOf e 4, nc := bitOf e 5,
                 expiry := s.ptime + x.lease * 1000 }

/-- A walk that starts at the root, as the hub's do. -/
def walk (s : State) (cid va : Nat) : Except WalkFault TlbEntry := walkBy s 256 cid va

/-- What an access asks of a translation (R291, R324, R333): 0 read, 1 write, 2 read-write of FORK and JOIN, 3 Mule read, 4 Mule write,
5 an AMO that writes, 6 an AMO that loads. -/
def permitted (s : State) (e : TlbEntry) (kind : Nat) : Option Nat :=
  let ok := match kind with
    | 0 => e.rd
    | 1 => e.wr
    | 2 => e.rd && e.wr
    | 3 => e.rd
    | 6 => e.rd
    | _ => e.wr
  if !ok then some 4 else if e.sec && !s.hub.secure then some 5 else none

/-- A usable cached translation (R326). -/
def tlbHit (s : State) (cid va : Nat) (l : List TlbEntry) : Option TlbEntry :=
  l.find? (fun e => e.cid = cid && e.vbase ≤ va && va < e.vbase + e.size && s.ptime < e.expiry)

/-- The context of the job a Colt runs (R162). -/
def State.coltCid (s : State) (c : Nat) : Nat := (sget {} s.hub.colts c).cid

/-- The context a unit's accesses belong to: the core's, or that of the Colt's job (R162). -/
def State.cidOf (s : State) (u : Nat) : Nat := if 256 ≤ u then s.coltCid (u - 256) else (s.core (u / 4)).cid

/-- KIND of a fault record (R333): 0 read, 1 write, 2 read-write, AMOs among them, 3 Mule. -/
def recordKind (kind : Nat) : Nat := if 5 ≤ kind then 2 else min kind 3
/-- The REASON of a walk fault with its LEVEL and KIND for the fault record (R333): bit 13 marks a walk fault, bits 11–10
the kind, 9–8 the level, 7–0 REASON. TRAPCAUSE takes the low eight bits. -/
def walkReason (kind level reason : Nat) : Nat := reason + 256 * level + 1024 * recordKind kind + 8192
/-- The level whose leaf maps a page of this size. -/
def levelOfSize (size : Nat) : Nat := if size = 65536 then 0 else if size = 2097152 then 1 else 2

/-- Translate one address for an access (R324 to R328): tile TLB, die TLB, walk; an access that a cached translation
refuses first walks again. Answers the physical address, the NC bit and the translation to keep. -/
def translate (s : State) (u cid va kind : Nat) : Except WalkFault (Nat × TlbEntry) :=
  let fresh : Except WalkFault TlbEntry :=
    match walkBy s u cid va with
    | .error f => .error f
    | .ok e => match permitted s e kind with
      | some r => .error ⟨cACCESS, r, levelOfSize e.size⟩
      | none => .ok e
  let cached : Option TlbEntry :=
    if 256 ≤ u then none
    else match tlbHit s cid va (s.tile u).tlb with
      | some e => some e
      | none => tlbHit s cid va (sget [] s.dieTlb (u % 4))
  let pick : Except WalkFault TlbEntry := match cached with
    | some e => if (permitted s e kind).isNone then .ok e else fresh
    | none => fresh
  match pick with
  | .error f => .error f
  | .ok e => .ok (e.frame + (va - e.vbase), e)

/-- Translation as an operation uses it: a fault is its trap, with the faulting address as ARG (R339); the translation is
kept in the TLBs. -/
def xlate (c : OpCtx) (va kind : Nat) : Res (Nat × Bool × List Post) :=
  if 2 ^ 56 ≤ va then raiseR cACCESS (walkReason kind 3 6) va
  else match translate c.s c.u (c.s.cidOf c.u) va kind with
    | .error f => raiseR f.cause (walkReason kind f.level f.reason) va
    | .ok (pa, e) => .ok (pa, e.nc, if c.isColt then [] else [{ lat := 0, eff := .tlbFill e }])

/-- access_check of R175: range, alignment, translation, permission, in that order. -/
def accessCheck (c : OpCtx) (va : Int) (size align kind : Nat) : Res (Nat × Bool × List Post) := do
  if va < 0 ∨ 2 ^ 56 ≤ va then raiseR cACCESS (walkReason kind 3 6) (wrap64 va).toNat
  else if va.toNat % align ≠ 0 then raise cMISALIGN va.toNat
  else if 2 ^ 56 < va.toNat + size then raiseR cACCESS (walkReason kind 3 6) va.toNat
  else xlate c va.toNat kind

/-- Translate every 64 KiB granule of a range (R287); the answer pairs each granule with its physical granule and twice
its NC bit. -/
def xlateGranules (c : OpCtx) (kind : Nat) : List Nat → Res (List (Nat × Nat))
  | [] => .ok []
  | g :: gs => do
    let (pa, nc, _) ← xlate c (65536 * g) kind
    let rest ← xlateGranules c kind gs
    .ok ((g, 2 * (pa / 65536) + (if nc then 1 else 0)) :: rest)
def granulesOf (va len : Nat) : List Nat :=
  if len = 0 then [] else (upTo (granule (va + len - 1) - granule va + 1)).map (fun i => granule va + i)
/-- Every byte of a virtual range, checked and translated; the first faulting byte is reported (R287, R333). -/
def xlateRange (c : OpCtx) (va len kind : Nat) : Res (List (Nat × Nat)) :=
  if 2 ^ 56 < va + len then raiseR cACCESS (walkReason kind 3 6) (max va (2 ^ 56))
  else match xlateGranules c kind (granulesOf va len) with
    | .error (.trap ca r a) => .error (.trap ca r (if a < va then va else a))
    | r => r

/-- The translations that an engine command has taken are kept in the TLBs, their leases with them (R325, R326, R330). -/
def leasePosts (c : OpCtx) (kind : Nat) (xl : List (Nat × Nat)) : List Post :=
  if c.isColt then [] else xl.filterMap (fun g => match translate c.s c.u (c.s.cidOf c.u) (65536 * g.1) kind with
    | .ok (_, e) => some { lat := 0, eff := .tlbFill e }
    | .error _ => none)
/-- The physical address and NC bit of a byte under held translations (R327). -/
def heldPa (xl : List (Nat × Nat)) (va : Nat) : Nat × Bool :=
  match xl.find? (fun p => p.1 = granule va) with
  | some p => (p.2 / 2 * 65536 + va % 65536, p.2 % 2 = 1)
  | none => (0, true)
/-- Bytes of a virtual range under held translations, as unit u reads them. -/
def State.peekHeld (s : State) (u : Nat) (xl : List (Nat × Nat)) (va len : Nat) : List Byte :=
  (upTo len).map (fun i =>
    let (pa, nc) := heldPa xl (va + i)
    nth 0#8 (s.peekLine u (pa / 64) nc) (pa % 64))
/-- A store through held translations. -/
def State.storeHeld (s : State) (u : Nat) (xl : List (Nat × Nat)) (va : Nat) (bs : List Byte) : State :=
  let cells := (cellsAt va bs).map (fun c => (heldPa xl c.1, c.2))
  let part := fun (nc : Bool) => (cells.filter (fun c => decide (c.1.2 = nc))).map (fun c => (c.1.1, c.2))
  (s.store u false (part false)).store u true (part true)
/-- The lines of a virtual range are allocated in the caches of unit u, as its reads do; of another die's stack those that R336 lists. -/
def State.fillHeld (s : State) (u : Nat) (xl : List (Nat × Nat)) (va len : Nat) (viaAdit : Bool := true) : State :=
  (upTo (len / 64 + 2)).foldl (fun s j =>
    let a := va / 64 * 64 + 64 * j
    if a < va + len then
      let (pa, nc) := heldPa xl a
      s.fillLineA u (pa / 64) nc viaAdit
    else s) s

/-- A hub, Colt or host read of a context's memory at the stack die: none where a byte has no readable translation. -/
def State.hubRead (s : State) (cid va len : Nat) : Option (List Byte) :=
  (upTo len).mapM (fun i =>
    match translate s 256 cid (va + i) 0 with
    | .ok (pa, _) => some (sget 0 s.mem pa)
    | .error _ => none)
def State.hubNat (s : State) (cid va len : Nat) : Option Nat := (s.hubRead cid va len).map leNat
/-- A hub write of a context's memory at the stack die, all its bytes before anything sees it; a byte without a writable translation is
not written. -/
def State.hubWrite (s : State) (cid va : Nat) (bs : List Byte) : State :=
  let cells := (cellsAt va bs).filterMap (fun c => match translate s 256 cid c.1 1 with
    | .ok (pa, _) => some (pa, c.2)
    | .error _ => none)
  (runHeads (cells.map (fun c => c.1 / 64))).foldl (fun s ln => s.touchLine ln) { s with mem := putCells s.mem cells }

end Sys2Proof.Machine
end

