-- ==== Sys2Proof/Machine/Operands.lean ====
section
/-! DEFINITION. Every operand form: selectors, tags and walkers (R36, R37, R74, R193, R195 to R198). -/
namespace Sys2Proof.Machine

/-- The control fields of a walker (R195). -/
def Walker.kind (w : Walker) : Nat := bitsOf w.ctrl.toNat 2 0
def Walker.tag (w : Walker) : Tag := Tag.ofCode (bitsOf w.ctrl.toNat 4 3 + 1)
def Walker.elem (w : Walker) : Nat := 512 / 2 ^ bitsOf w.ctrl.toNat 6 5
def Walker.qtile (w : Walker) : Nat := bitsOf w.ctrl.toNat 8 7

/-- walker_addr of R196 with an access count. -/
def Walker.addrAt (w : Walker) (a : Nat) : Int :=
  (w.base.toNat : Int) + a * w.astride.toInt
    + (upTo 6).foldl (fun s j => s + ((sget (0 : Nat) w.idx j : Nat) : Int) * (sget 0#32 w.strides j).toInt) 0

/-- Accesses that operations of the bundle in issue have already staged on a port of the unit. -/
def stagedAdv (u port : Nat) : List Entry → Nat
  | [] => 0
  | e :: es => (match e.eff with
    | .walkAdv p b => if e.unit = u && p = port then b else 0
    | _ => 0) + stagedAdv u port es
def OpCtx.staged (c : OpCtx) : List Entry :=
  if c.single then [] else match c.core.issue with
    | some i => i.staged
    | none => []

/-- A port held by a scan phase in flight (R265). -/
def portHeld (c : OpCtx) (port : Nat) : Bool :=
  c.t.held.any (fun h => h.1 = port && c.n < h.2)
    || c.staged.any (fun e => decide (e.unit = c.u) && (match e.eff with
      | .hold ps _ => ps.contains port
      | _ => false))

/-- An access to a scratchpad range stalls while an engine command in flight reserves one of its banks (R198, R286). -/
def bankReserved (t : Tile) (a len : Nat) : Bool :=
  t.resv.any (fun r => (upTo 32).any (fun j => bitOf r.2 j && decide (131072 * j < a + len) && decide (a < 131072 * (j + 1))))
/-- The banks of a scratchpad range, as a mask. -/
def banksOf (a len : Nat) : Nat :=
  ((upTo 32).filter (fun j => decide (131072 * j < a + len) && decide (a < 131072 * (j + 1)))).foldl (fun m j => m + 2 ^ j) 0
/-- A request still waits while its core tries the same word. -/
def BankAsk.waits (s : State) (r : BankAsk) : Bool :=
  let c := s.core r.core
  decide (c.bn = r.bn) && (match c.issue with
    | some i => decide (i.slot = r.slot)
    | none => c.handler.isSome)
/-- A request of another core that arrived before this one waits for one of the banks (R286): of two accesses neither waits for the other. -/
def askedBefore (c : OpCtx) (u banks : Nat) (cmd : Bool) : Bool :=
  ((c.s.tile u).waits.takeWhile (fun r => !(decide (r.core = c.k) && decide (r.slot = c.slot) && decide (r.bn = c.n) && decide (r.cmd = cmd)))).any (fun r =>
    (cmd || r.cmd) && decide (r.core ≠ c.k) && decide (Nat.land r.banks banks ≠ 0) && r.waits c.s)
def spadFree (c : OpCtx) (u a len : Nat) : Res Unit :=
  if bankReserved (c.s.tile u) a len || askedBefore c u (banksOf a len) false then bankStall u (banksOf a len) false else .ok ()

/-- The checks of one walker access at an address (R196): range, then alignment. -/
def walkerRange (w : Walker) (a : Int) : Res Nat :=
  let spad := w.kind ≤ 3
  if a < 0 ∨ (spad ∧ a > spadSize - w.elem) ∨ (¬spad ∧ a ≥ 2 ^ 56) then
    raiseR cACCESS (if spad then 6 else walkReason (if w.kind = 5 then 1 else 0) 3 6) (wrap64 a).toNat
  else if a.toNat % w.elem ≠ 0 then raise cMISALIGN a.toNat
  else .ok a.toNat

/-- A vector of the lanes that bytes fill, other lanes zero (R197). -/
def vecOfBytes (t : Tag) (bs : List Byte) : Vec :=
  Vec.mk' t (fun i => leNat ((bs.drop (4 * i)).take 4))

/-- An earlier LD of the tile that has not taken its bytes: it does before a later access of the tile (R43, R176). -/
def loadLeft (c : OpCtx) : Bool :=
  (c.flight ++ c.staged).any (fun e => decide (e.unit = c.u) && e.pend && (match e.eff with
    | .load _ _ _ _ _ => true
    | _ => false))

/-- The vector that an earlier slot of the bundle in issue has popped from a port of the tile (R36). -/
def stagedPop (u port : Nat) (es : List Entry) : Option Vec :=
  es.findSome? (fun e => match e.eff with
    | .popped p v => if e.unit = u ∧ p = port then some v else none
    | _ => none)
/-- The next vector of a walker stream, popped once by a bundle: every read of the port in it gets that vector (R36, R197). -/
def popWalker (c : OpCtx) (port : Nat) : Res (Vec × List Post) := do
  let w := c.t.getWalk port
  check (!portHeld c port) cILLEGAL 0
  match stagedPop c.u port c.staged with
  | some v => .ok (v, [])
  | none => do
  check (w.kind = 1 || w.kind = 3 || w.kind = 4) cILLEGAL 0
  let a ← walkerRange w (w.addrAt w.a)
  let adv : List Post := if stagedAdv c.u port c.staged = 0 then [{ lat := 0, eff := .walkAdv port 1 }] else []
  if w.kind = 4 then
    let (pa, nc, ps) ← xlate c a 0
    if loadLeft c then stall
    let v := vecOfBytes w.tag (c.s.peek c.u pa w.elem nc)
    .ok (v, adv ++ ps ++ [{ lat := 0, eff := .fill (linesOf pa w.elem) nc }, { lat := 0, eff := .popped port v }])
  else
    let u := if w.kind = 3 then unitOf (4 * (c.k / 4) + w.qtile) c.die else c.u
    spadFree c u a w.elem
    let v := vecOfBytes w.tag ((c.s.tile u).spadBytes a w.elem)
    .ok (v, adv ++ [{ lat := 0, eff := .popped port v }])

def landsIn (slot d sel : Nat) : Bool :=
  let (lb, n) := match slot with
    | 1 => (62, 2)
    | 2 => (48, 4)
    | 3 => (52, 4)
    | 4 => (56, 2)
    | 5 => (58, 2)
    | _ => (60, 2)
  sel = lb + d % 64 % n || (d < 64 && d = sel)
/-- What an interlocked result in flight gives a register or latch, `sel` 0–39 or 48–63: its vector, none inside while it is pending. -/
def givesV (u sel : Nat) (e : Entry) : Option (Option Vec) :=
  if e.unit = u && e.inter then
    match e.eff with
    | .vec d v _ => if landsIn e.slot d sel then some (some v) else none
    | .remote d _ _ _ _ _ _ => if landsIn e.slot d sel then some none else none
    | _ => none
  else none
/-- The interlocked results in flight for a register or latch: a read waits while one is pending, and else sees the latest issued
(R44, R417). -/
def pendV (u sel : Nat) (es : List Entry) : Option (Option Vec) :=
  let got := es.filterMap (givesV u sel)
  if got.contains none then some none else got.getLast?

/-- A vector as a read sees it: the bits of an EMPTY one are zero (R190). -/
def Vec.seen (v : Vec) : Vec := if v.tag = .empty then {} else v
/-- The operand a selector names, with its tag and the staged effects of reading it (R36). -/
def readSel (c : OpCtx) (sel : Nat) : Res (Vec × List Post) :=
  if 40 ≤ sel ∧ sel < 48 then popWalker c (sel - 40)
  else match pendV c.u sel c.flight with
    | some (some v) => .ok (v, [])
    | some none => stall
    | none =>
      if sel < 40 then .ok ((c.t.getV sel).seen, [])
      else match c.t.getLatch sel with
        | some v => .ok (v, [])
        | none => raise cLATCH_EMPTY sel

/-- The ARG of a TAG_MISMATCH (R339). -/
def tagArg (sel : Nat) (carried expected : Tag) : Nat := sel + 256 * carried.code + 4096 * expected.code

/-- A source as an operation of an expected tag reads it: the value converted under TAGMODE.CVT, the flags of the
conversion over the lanes given, and the staged effects (R74). -/
structure Src where
  v : Vec
  fl : Flags := 0
  posts : List Post := []

/-- Lane-wise implicit conversion (R74, R79). -/
def convertVec (toI : Bool) (v : Vec) (lanes : Nat → Bool) : Vec × Flags :=
  let f := fun i => if toI then f2i .rne (v.lane i) else i2f .rne (v.lane i)
  (Vec.mk' (if toI then .i32 else .fp32) (fun i => (f i).1),
   (upTo 128).foldl (fun fl i => if lanes i then fl ||| (f i).2 else fl) 0)

/-- read_src with a tag check (R74); `lanes` are the lanes whose conversion flags count (R193). -/
def readAs (c : OpCtx) (sel : Nat) (expected : Tag) (lanes : Nat → Bool := fun _ => true) : Res Src := do
  let (v, ps) ← readSel c sel
  if v.tag = expected ∧ expected ≠ .empty then .ok { v := v, posts := ps }
  else if c.t.cvt ∧ v.tag = .fp32 ∧ expected = .i32 then
    let (w, fl) := convertVec true v lanes
    .ok { v := w, fl := fl, posts := ps }
  else if c.t.cvt ∧ v.tag = .i32 ∧ expected = .fp32 then
    let (w, fl) := convertVec false v lanes
    .ok { v := w, fl := fl, posts := ps }
  else raise cTAG_MISMATCH (tagArg sel v.tag expected)

/-- A source that must carry exactly a tag and is never converted (R214, R230). -/
def readExact (c : OpCtx) (sel : Nat) (expected : Tag) : Res Src := do
  let (v, ps) ← readSel c sel
  if v.tag = expected then .ok { v := v, posts := ps } else raise cTAG_MISMATCH (tagArg sel v.tag expected)

/-- A source accepting any tag except EMPTY. -/
def readNonEmpty (c : OpCtx) (sel : Nat) : Res Src := do
  let (v, ps) ← readSel c sel
  if v.tag = .empty then raise cTAG_MISMATCH (tagArg sel .empty .empty) else .ok { v := v, posts := ps }

/-- The operation format f and operand A of R207: A's own tag, or FP32 with A converted. -/
def readFloat (c : OpCtx) (sel : Nat) (lanes : Nat → Bool) : Res (FFmt × Src) := do
  let (v, ps) ← readSel c sel
  match v.tag with
  | .fp32 => .ok (.fp32, { v := v, posts := ps })
  | .bf16 => .ok (.bf16, { v := v, posts := ps })
  | .i32 =>
    if c.t.cvt then
      let (w, fl) := convertVec false v lanes
      .ok (.fp32, { v := w, fl := fl, posts := ps })
    else raise cTAG_MISMATCH (tagArg sel .i32 .fp32)
  | .empty => raise cTAG_MISMATCH (tagArg sel .empty .fp32)

/-- The tag of an operation format. -/
def FFmt.tag : FFmt → Tag
  | .fp32 => .fp32
  | .bf16 => .bf16

/-- The selector a C code names (R51). -/
def cSel (code : Nat) : Nat :=
  if code < 16 then code else if code < 24 then 40 + (code - 16) else if code < 28 then 48 + (code - 24)
  else 52 + (code - 28)

/-- The mask in force for a slot: the register its current-mask number names (R192). -/
def curMask (c : OpCtx) : Mask := c.t.getK (if c.slot = 3 then c.t.curB else c.t.curA)
def enabled (m : Mask) (i : Nat) : Bool := m.getLsbD i

/-- write_dst (R37, R193): the latch and register landing, and for a walker destination the push, whose address is fixed
and checked at issue (R197). -/
def dstPosts (c : OpCtx) (d lat : Nat) (v : Vec) (en : Mask) (fl : Flags := 0) (inter : Bool := false) :
    Res (List Post) := do
  let main : Post := { lat := lat, eff := .vec d v en, fl := fl, inter := inter }
  if 40 ≤ d ∧ d < 48 then
    let port := d - 40
    let w := c.t.getWalk port
    check (!portHeld c port) cILLEGAL 0
    check (w.kind = 2 || w.kind = 5) cILLEGAL 0
    let a ← walkerRange w (w.addrAt (w.a + stagedAdv c.u port c.staged))
    let adv : Post := { lat := 0, eff := .walkAdv port 1 }
    let bytes := (upTo w.elem).filterMap (fun j =>
      if enabled en (j / 4) then some (j, BitVec.ofNat 8 (v.lane (j / 4) / 256 ^ (j % 4))) else none)
    if w.kind = 2 then
      spadFree c c.u a w.elem
      .ok [main, { lat := lat, eff := .spad (bytes.map (fun p => (a + p.1, p.2))), inter := inter }, adv]
    else
      let (pa, nc, ps) ← xlate c a 1
      .ok ([main, { lat := lat, eff := .mem (bytes.map (fun p => (pa + p.1, p.2))) nc, inter := inter, vg := [granule a] }, adv] ++ ps)
  else .ok [main]

end Sys2Proof.Machine
end

