-- ==== Sys2Proof/Machine/Csr.lean ====
section
/-! DEFINITION. The system registers: what each holds and how each field takes a write (R4, R162, R163, and the tables of
the home chapters); the return store (R160, R350); the banked registers of handler mode (R344). -/
namespace Sys2Proof.Machine

/-- The tile of the lead die of core k (R17). -/
def leadUnit (k : Nat) : Nat := unitOf k (k % 4)

/-- A tile whose core is in handler mode uses the handler copies of x24–x31, bt0–bt3 and BTCFG (R344). -/
def State.banked (s : State) (u : Nat) : Bool := decide (u < 256) && (s.core (u / 4)).handler.isSome
def State.writeX (s : State) (u r : Nat) (v : DWord) : State :=
  s.modTile u (fun t => if s.banked u then t.setHX r v else t.setX r v)
def State.readX (s : State) (u r : Nat) : DWord := if s.banked u then (s.tile u).getHX r else (s.tile u).getX r
def State.writeBt (s : State) (u j : Nat) (v : BitVec 12) : State :=
  let b := s.banked u
  s.modTile u (fun t => if b then { t with hbt := sset 0 t.hbt j v } else { t with bt := sset 0 t.bt j v })
def State.readBt (s : State) (u j : Nat) : BitVec 12 :=
  if s.banked u then sget 0 (s.tile u).hbt j else sget 0 (s.tile u).bt j
def State.armOf (s : State) (u : Nat) : BitVec 4 := if s.banked u then (s.tile u).harm else (s.tile u).arm

def State.colt (s : State) (c : Nat) : ColtRec := sget {} s.hub.colts c
def State.setColt (s : State) (c : Nat) (r : ColtRec) : State := { s with hub := { s.hub with colts := sset {} s.hub.colts c r } }
def State.modColt (s : State) (c : Nat) (f : ColtRec → ColtRec) : State := s.setColt c (f (s.colt c))

/-- The groups, packets, queues and gangs of the hub. -/
def State.group (s : State) (kern : Nat) : Group := sget {} s.hub.groups kern
def State.setGroup (s : State) (kern : Nat) (g : Group) : State := { s with hub := { s.hub with groups := sset {} s.hub.groups kern g } }
def State.modGroup (s : State) (kern : Nat) (f : Group → Group) : State := s.setGroup kern (f (s.group kern))
def State.groupOf (s : State) (k : Nat) : Group := s.group (s.core k).group

/-- PARKST (R205). -/
def Tile.parkst (t : Tile) : Nat :=
  t.sbase + 16384 * t.abank + (if t.pool then 131072 else 0) + 16777216 * t.parked.toNat

/-- A system register as it stands (R163). Unit 256 + c is Colt c. A read of PTIME gives the hub's count exactly, the model's choice
within the 4 ns that R16 allows (log 102). -/
def csrValue (s : State) (u num : Nat) : Nat :=
  let t := s.tile u
  let c := s.core (u / 4)
  let x := s.ctx (s.cidOf u)
  let r := s.colt (u - 256)
  let isColt : Bool := decide (256 ≤ u)
  match num with
  | 0x000 => if isColt then 4 else u % 4
  | 0x001 => if isColt then 256 + (u - 256) else u / 4
  | 0x002 => s.cidOf u
  | 0x003 => c.group % 2 ^ 32 + (if c.curRec.isSome then 2 ^ 32 else 0)
  | 0x008 => s.ptime % 2 ^ 64
  | 0x010 => t.flags.toNat
  | 0x011 => t.mx.pack.toNat
  | 0x012 => 2 * t.ldt + (if t.cvt then 1 else 0)
  | 0x013 => (s.armOf u).toNat
  | 0x014 => t.parkst
  | 0x020 => x.split.toNat
  | 0x021 => x.lease
  | 0x022 => 256 * x.pend + x.depth
  | 0x023 => x.seed.toNat
  | 0x024 => x.gnone.toNat
  | 0x030 => c.karg0.toNat
  | 0x031 => c.karg1.toNat
  | 0x032 => c.trapOrg.toNat
  | 0x033 => c.kernid.toNat
  | 0x040 => if isColt then r.cause.toNat else c.reason.toNat * 256 + c.cause.toNat
  | 0x041 => if isColt then r.trapPc.toNat else c.trapPc.toNat
  | 0x042 => if isColt then r.trapInfo.toNat else c.trapInfo.toNat
  | 0x050 => if isColt then 0 else c.occ
  | 0x051 => if isColt then 0 else c.drl
  | _ => 0

/-- A CSRW or CSRS lands (R163): each RW field takes its value, or the or of the two; a write to an RO field is discarded
(R4). TRAPPC is held once for the core and takes the lead die's value (log 8). -/
def csrApply (s : State) (u num : Nat) (v : DWord) (setOnly : Bool) : State :=
  let old := csrValue s u num
  let w := if setOnly then Nat.lor old v.toNat else v.toNat
  match num with
  | 0x010 => s.modTile u (fun t => { t with flags := BitVec.ofNat 6 w })
  | 0x011 => s.modTile u (fun t => { t with mx := MxCnt.unpack (BitVec.ofNat 64 w) })
  | 0x012 => s.modTile u (fun t =>
      { t with cvt := bitOf w 0, ldt := if bitsOf w 2 1 = 3 then t.ldt else bitsOf w 2 1 })
  | 0x013 =>
    let b := s.banked u
    s.modTile u (fun t => if b then { t with harm := BitVec.ofNat 4 w } else { t with arm := BitVec.ofNat 4 w })
  | 0x014 => s.modTile u (fun t =>
      { t with pool := bitOf w 17, abank := bitsOf w 16 14,
               sbase := if bitsOf w 12 0 ≤ 8152 then bitsOf w 12 0 else t.sbase })
  | 0x041 =>
    if 2048 < bitsOf w 11 0 then s
    else if 256 ≤ u then s.modColt (u - 256) (fun r => { r with trapPc := BitVec.ofNat 12 w })
    else if u = leadUnit (u / 4) then s.modCore (u / 4) (fun c => { c with trapPc := BitVec.ofNat 12 w })
    else s
  | _ => s

/-- The return store of the unit: the core's, or the Colt's own (R64, R160). -/
def State.rstkGet (s : State) (u i : Nat) : BitVec 12 :=
  if 256 ≤ u then sget 0 (s.colt (u - 256)).rstk i else sget 0 (s.core (u / 4)).rstk i
def State.rdepthOf (s : State) (u : Nat) : Nat :=
  if 256 ≤ u then (s.colt (u - 256)).rdepth else (s.core (u / 4)).rdepth
/-- RSTKW lands (R350): bit 62 clear writes the entry, bit 63 set writes the depth. -/
def State.rstkApply (s : State) (u idx : Nat) (v : DWord) : State :=
  let put := fun (m : SMap (BitVec 12)) => if v.getLsbD 62 then m else sset 0 m idx (v.setWidth 12)
  let depth := fun d => if v.getLsbD 63 then bitsOf v.toNat 20 16 else d
  if 256 ≤ u then s.modColt (u - 256) (fun c => { c with rstk := put c.rstk, rdepth := depth c.rdepth })
  else s.modCore (u / 4) (fun c => { c with rstk := put c.rstk, rdepth := depth c.rdepth })

end Sys2Proof.Machine
end

