-- ==== Sys2Proof/Machine/Node.lean ====
section
/-! DEFINITION. The node graph of a tile (R281, R282) and the barrier objects that commands and arrivals count in
(R312 to R314). -/
namespace Sys2Proof.Machine

/-- The instance of a scope that contains a unit (R312). -/
def instanceOf (u scope : Nat) : Nat :=
  match scope with
  | 1 => u / 4
  | 2 => u / 16
  | 3 => u % 4
  | _ => 0
/-- The key of a barrier object in its group. -/
def barrierKey (scope inst bid : Nat) : Nat := (scope * 64 + inst) * 256 + bid

/-- NPART of an object of an instance (R312, R314): the tiles of the group's cores in it that have not retired. -/
def Group.npart (g : Group) (key : Nat) : Nat :=
  let scope := key / 16384
  let inst := key / 256 % 64
  let live := g.cores.filter (fun k => !(g.left.contains k))
  match scope with
  | 1 => if live.contains inst then 4 else 0
  | 2 => 4 * (live.filter (fun k => decide (k / 4 = inst))).length
  | 3 => live.length
  | _ => 4 * live.length
/-- Whether the tiles of a core are participants of an object (R312). -/
def keyHas (key k : Nat) : Bool :=
  match key / 16384 with
  | 1 => decide (key / 256 % 64 = k)
  | 2 => decide (key / 256 % 64 = k / 4)
  | _ => true
/-- An object that no event but leaves has met (R314): armed at first, arriving once a participant has left, and flipped with the last. -/
def Group.freshBarrier (g : Group) (key : Nat) : Barrier :=
  if g.npart key = 0 then { phase := true } else if g.left.any (keyHas key) then { st := .arriving } else {}
def Group.barrier (g : Group) (key : Nat) : Barrier := (sget none g.barriers key).getD (g.freshBarrier key)
def Group.setBarrier (g : Group) (key : Nat) (b : Barrier) : Group := { g with barriers := sset none g.barriers key (some b) }
/-- A phase that is complete flips (R314). -/
def Barrier.flip (b : Barrier) : Barrier :=
  { b with st := .armed, phase := !b.phase, arr := 0, exp := 0, arrives := 0, sent := false }
/-- The object as the next event finds it: the complete state lasts one cycle only (R314). -/
def Barrier.settled (b : Barrier) : Barrier := if b.st = .complete then b.flip else b
/-- A phase completes when every participant has arrived and every counted byte has come, with none left too (R314). -/
def Barrier.test (b : Barrier) (npart : Nat) : Barrier :=
  if decide (b.arr = npart) && decide (b.exp = 0) then { b with st := .complete } else b
/-- The context's pod job has this device alone in its pod: no tree term (R423, R428). -/
def State.podAlone (s : State) (cid : Nat) : Bool :=
  bitOf s.hub.jobctx 63 && decide (bitsOf s.hub.jobctx 41 32 = cid) && decide (bitsOf s.hub.jobrank 41 32 ≤ 1)
/-- This device's rank, the ranks of its children, and the device of a rank, in the pod job (R423, R428). -/
def State.podRank (s : State) : Nat := bitsOf s.hub.jobrank 8 0
def State.podChildren (s : State) : List Nat :=
  ((upTo 8).map (fun i => 8 * s.podRank + 1 + i)).filter (fun r => decide (r < bitsOf s.hub.jobrank 41 32))
/-- The device of a rank, where JOBMAP names one (R428). -/
def State.podDevice (s : State) (rank : Nat) : Option Nat :=
  let e := sget 0 s.hub.jobmap rank
  if bitOf e 63 then some (s.hub.selfid / 512 * 512 + bitsOf e 8 0) else none
/-- A port is UP (R427). -/
def portIsUp (p : Port) : Bool := p.en && p.up && !p.down
/-- The port by which a message to a destination leaves: the lowest in its mask that is UP (R427). -/
def State.outPort (s : State) (dest : Nat) : Option Nat :=
  let e := sget 0 s.hub.routes dest
  if bitOf e 63 then (upTo 16).find? (fun p => bitOf e p && portIsUp (sget {} s.hub.ports p)) else none
/-- A destination is fenced (R427): its entry is not VALID, or its mask holds no UP port. -/
def State.destFenced (s : State) (dest : Nat) : Bool := (s.outPort dest).isNone

/-- What leaves by a port has got its flits through: a run of failed replays ends (R411, log 104). -/
def State.portUsed (s : State) (p : Nat) : State := { s with hub := { s.hub with ports := smod {} s.hub.ports p (fun q => { q with fails := 0 }) } }
/-- The channel of a kind (R410, R413): COLL uses the collective one. -/
def reqChannel (kind : Nat) : Nat := if kind = 5 then 2 else 0
/-- One of the eight slots at a target is free on a channel (R413). -/
def State.slotFor (s : State) (target channel : Nat) : Bool :=
  decide ((s.hub.reqs.filter (fun x => x.sent && decide (x.target = target) && decide (reqChannel x.kind = channel))).length < 8)
/-- A pod-barrier message leaves by its port on the collective channel (R423, R427), or waits for a slot (R413, log 109); none leaves for a
device that JOBMAP does not name or that is fenced. -/
def State.podOut (s : State) (m : PodMsg) : State :=
  if !(s.slotFor m.dest 2) then { s with hub := { s.hub with podWaits := s.hub.podWaits ++ [m] } }
  else match s.outPort m.dest with
    | some p => ({ s with hub := { s.hub with podMsgs := s.hub.podMsgs ++ [{ m with port := p }] } }).portUsed p
    | none => s
def State.podSend (s : State) (complete : Bool) (rank bid : Nat) (phase : Bool) : State :=
  match s.podDevice rank with
  | some d => s.podOut { complete := complete, dest := d, job := bitsOf s.hub.jobctx 15 0, bid := bid, phase := phase }
  | none => s
/-- No device of the job is fenced, as far as this device knows (R423): itself, and every rank that JOBMAP names. -/
def State.podWhole (s : State) : Bool :=
  !s.hub.fenced && (upTo (bitsOf s.hub.jobrank 41 32)).all (fun r => decide (r = s.podRank) || (match s.podDevice r with
    | some d => !(s.destFenced d)
    | none => false))
/-- Completion at this device: rank 0 completes the phase, a message completes it elsewhere; the word goes down the tree. -/
def State.podFinish (s : State) (kern key : Nat) : State :=
  let g := s.group kern
  let b := g.barrier key
  s.podChildren.foldl (fun s r => s.podSend true r (key % 256) b.phase) (s.setGroup kern (g.setBarrier key { b with st := .complete }))
/-- A `.pod` object whose local part has done its share, and whose children's arrives have come, reports it (R423), unless a device of the
job is fenced. -/
def State.podProgress (s : State) (kern key : Nat) : State :=
  let g := s.group kern
  let b := g.barrier key
  let inJob := bitOf s.hub.jobctx 63 && decide (bitsOf s.hub.jobctx 41 32 = g.cid) && s.podWhole
  let share := decide (0 < g.npart key) && decide (b.arr = g.npart key) && decide (b.exp = 0)
  if !(inJob && share) || b.sent || b.arrives ≠ s.podChildren.length then s
  else
    let s1 := s.setGroup kern (g.setBarrier key { b with sent := true })
    if s.podRank = 0 then s1.podFinish kern key else s1.podSend false ((s.podRank - 1) / 8) (key % 256) b.phase
def State.barTest (s : State) (kern key : Nat) : State :=
  let g := s.group kern
  if decide (key / 16384 = 5) && !(s.podAlone g.cid) then s.podProgress kern key
  else s.setGroup kern (g.setBarrier key ((g.barrier key).test (g.npart key)))
/-- An event of an object that is armed or arriving, and the test for completion (R314). -/
def State.barMod (s : State) (kern key : Nat) (f : Barrier → Barrier) : State :=
  (s.modGroup kern (fun g => g.setBarrier key { f (g.barrier key).settled with st := .arriving })).barTest kern key

/-- The object a COPY names, when it names one (R280, R314). -/
def abarKey (u : Nat) (d : List Byte) : Option Nat :=
  let b8 := leNat ((d.drop 8).take 1)
  if bitOf b8 7 then some (barrierKey (bitsOf b8 2 0) (instanceOf u (bitsOf b8 2 0)) (leNat ((d.drop 9).take 1))) else none

/-- The slots that a Mule command names (R278): first slot, number, 0 for any other command. -/
def NodeCmd.slots (c : NodeCmd) : Nat × Nat :=
  match c.instr with
  | .zspl _ _ => (leNat ((c.desc.drop 24).take 1), leNat ((c.desc.drop 25).take 1) + 1)
  | .zsplCopy _ _ => (leNat ((c.desc.drop 24).take 1), leNat ((c.desc.drop 25).take 1) + 1)
  | .zfil _ _ => (leNat ((c.desc.drop 24).take 1), leNat ((c.desc.drop 25).take 1) + 1)
  | _ => (0, 0)
/-- The Mule transfers of a tile by number (R277): a node of it, a checkpoint, a fork copy (by its destination as 64 × unit + slot),
a sequence trap (by its kernel and record). -/
def ckptXfer : Nat := 256
def forkXfer (dst : Nat) : Nat := 512 + dst
def trapXfer (kern r : Nat) : Nat := 1048576 + 2048 * kern + r
/-- A slot that a Mule transfer takes is spilling (R269); the transfers that name it follow one another in the order of their posts
(R270). -/
def Slot.take (z : Slot) (x : Nat) : Slot :=
  { z with st := .spilling, before := if z.st = .spilling then z.before else z.st, owners := z.owners ++ [x] }
/-- The transfers that still name a slot are those given: without one it is in the state it held before. -/
def Slot.disown (z : Slot) (rest : List Nat) : Slot :=
  if z.st = .spilling ∧ rest.isEmpty then { z with st := z.before, before := .free, owners := [] } else { z with owners := rest }
/-- A transfer has left a slot as `v`: the next one that names it has it now (R270). -/
def Slot.after (z : Slot) (x : Nat) (v : Slot) : Slot :=
  let rest := z.owners.erase x
  if rest.isEmpty then { v with before := .free, owners := [] } else { v with st := .spilling, before := v.st, owners := rest }
/-- The slots a posted command names are spilling (R278). -/
def Tile.takeSlots (t : Tile) (n : Nat) (cmd : NodeCmd) : Tile :=
  (upTo cmd.slots.2).foldl (fun t i => t.setSlot (cmd.slots.1 + i) ((t.getSlot (cmd.slots.1 + i)).take n)) t
/-- A Mule command that runs joins the tile's transfers in launch order (R277). -/
def Tile.launch (t : Tile) (n : Nat) (runs : Bool) : Tile :=
  match (t.getNode n).cmd with
  | some cmd => if runs && decide (0 < cmd.slots.2) && !(t.mule.contains n) then { t with mule := t.mule ++ [n] } else t
  | none => t
/-- A transfer owns every slot of the tile that it names (R270). -/
def Tile.claims (t : Tile) (x : Nat) : Bool := t.slots.all (fun z => !(z.2.owners.contains x) || decide (z.2.owners.head? = some x))
/-- A transfer waits for another: for a slot that the other owns, or that a transfer owns which waits for the other in its turn (R270). -/
def Tile.waitsFor (t : Tile) : Nat → Nat → Nat → Bool
  | 0, _, _ => false
  | fuel + 1, y, x => t.slots.any (fun z => z.2.owners.contains y && (match z.2.owners.head? with
      | some h => decide (h ≠ y) && (decide (h = x) || t.waitsFor fuel h x)
      | none => false))
/-- A launched transfer may run (R270, R277, log 98): it owns its slots, and it comes first in launch order, but for one ahead of it that
waits for it. -/
def Tile.mayMove (t : Tile) (x : Nat) : Bool :=
  t.claims x && (match t.mule.head? with
    | some y => decide (y = x) || t.waitsFor 64 y x
    | none => true)
/-- A transfer of the tile is complete. -/
def Tile.moved (t : Tile) (x : Nat) : Tile := { t with mule := t.mule.filter (fun y => decide (y ≠ x)) }

/-- The target device of a remote address (R416): its position in this device's pod. -/
def State.remoteTarget (s : State) (ra : Nat) : Nat := s.hub.selfid / 512 % 16 * 512 + bitsOf ra 61 53
def remoteSize (ra : Nat) : Nat := 512 / 2 ^ bitsOf ra 63 62
/-- A request enters the link queue (R414); it keeps its number until its reply. -/
def State.queueReq (s : State) (r : Req) : State :=
  { s with hub := { s.hub with reqs := s.hub.reqs ++ [{ r with reqNo := s.hub.nextReq }], nextReq := s.hub.nextReq + 1 } }
/-- The request of a COLL enters the link queue with its post (R414); it is ready once the node has run. -/
def postColl (s : State) (u n : Nat) (cmd : NodeCmd) : State :=
  match cmd.instr with
  | .coll _ _ _ _ _ => s.queueReq { kind := 5, unit := u, kern := (s.core (u / 4)).group, cid := cmd.cid, target := leNat ((cmd.desc.drop 24).take 2),
                                     va := 0, size := 0, node := n, ready := false }
  | _ => s
/-- A command posts (R281): its node waits for its predecessors, or runs. A COPY that names a barrier adds its bytes to
the expected ones (R314); `bytes` is `progress` at the post. -/
def nodePost (s : State) (u n : Nat) (cmd : NodeCmd) : State :=
  let nd := (s.tile u).getNode n
  let pred := leNat (cmd.desc.take 1)
  let count := nd.count + pred
  let s1 := s.modTile u (fun t => ((t.setNode n
    { st := if 0 < count then .waiting else .running, count := count, cmd := some cmd }).takeSlots n cmd).launch n (decide (count ≤ 0)))
  match abarKey u cmd.desc with
  | some key => s1.barMod (s.core (u / 4)).group key (fun b => { b with exp := b.exp + cmd.progress })
  | none => postColl s1 u n cmd

/-- A predecessor's credit (R281); under a debugger halt a waiting node stays waiting (R284). -/
def Node.credit (n : Node) (halted : Bool := false) : Node :=
  match n.st with
  | .idle => if n.count ≤ -256 then n else { n with count := n.count - 1 }
  | .waiting => if n.count - 1 ≤ 0 ∧ !halted then { n with st := .running, count := n.count - 1 } else { n with count := n.count - 1 }
  | .running => n
/-- A node of the tile takes a credit; a Mule command that it starts is launched. -/
def Tile.creditNode (t : Tile) (m : Nat) (halted : Bool) : Tile :=
  let nd := (t.getNode m).credit halted
  (t.setNode m nd).launch m (decide (nd.st = .running))
/-- The waiting nodes that have all their credits run once the debugger lets the core go on (R284). -/
def Tile.startReady (t : Tile) : Tile :=
  t.nodes.foldl (fun t n => if n.2.st = .waiting ∧ n.2.count ≤ 0 then (t.setNode n.1 { n.2 with st := .running }).launch n.1 true else t) t

/-- Completion (R282): flags, the end of the reservation, the STATUS word where the command has one, the credits. `desc` is
where the descriptor stands. -/
def nodeDone (s : State) (u n : Nat) (fl : Flags) : State :=
  let t := s.tile u
  match (t.getNode n).cmd with
  | none => s
  | some cmd =>
    let b1 := leNat ((cmd.desc.drop 1).take 1)
    let t1 := { t with resv := t.resv.filter (fun r => r.1 ≠ n), flags := t.flags ||| fl }
    let t2 := t1.setNode n {}
    let halted := decide (s.hub.haltCtx = some (s.core (u / 4)).cid)
    let t3 := if bitOf b1 5 then t2.creditNode (leNat ((cmd.desc.drop 2).take 1)) halted else t2
    let t4 := if bitOf b1 6 then t3.creditNode (leNat ((cmd.desc.drop 3).take 1)) halted else t3
    s.setTile u t4

/-- A Bench arrival (R294): register `src` of tile `tile` on the sender's die. -/
def benchArrive (s : State) (u code : Nat) (v : Vec) : State :=
  s.modTile (unitOf (code / 64) (u % 4)) (fun t => { t with bench := sset none t.bench (code % 64) (some v) })

/-- A transmit leaves (R293, R294): at a target in the sender's phase it arrives δ phase bundles later; at any other tile it
waits for that tile's next bundle. -/
def benchLeave (s : State) (u code : Nat) (v : Vec) (delay : Nat) : State :=
  let a := s.core (u / 4)
  let k := code / 64
  let b := s.core k
  let due := match a.benchFrom, b.benchFrom with
    | some fa, some fb => if a.group = b.group ∧ a.benchId = b.benchId then fb + (a.bn - fa) + delay else b.bn
    | _, _ => b.bn
  if b.st = .idle then benchArrive s u code v
  else s.modCore k (fun c => { c with inflight := c.inflight ++
    [{ due := due, issue := due - delay, slot := 6, unit := unitOf k (u % 4), eff := .bench code v }] })

/-- BARV issues on a participant (R314, R317): one more arrival, and the phase it arrived in. -/
def barArriveTile (s : State) (u scope bid : Nat) : State :=
  let key := barrierKey scope (instanceOf u scope) bid
  let kern := (s.core (u / 4)).group
  let ph := ((s.group kern).barrier key).settled.phase
  let s0 := if scope = 3 then s.modCore (u / 4) (fun c => { c with benchOwed := c.benchOwed ++ [2 * bid + (if ph then 1 else 0)] }) else s
  let s1 := s0.modTile u (fun t => { t with lastph := sset none t.lastph (scope * 256 + bid) (some ph) })
  s1.barMod kern key (fun b => { b with arr := b.arr + 1 })

/-- An RLD posts its request (R417): the latest result that waits for one takes its number. -/
def linkPostRld (s : State) (u : Nat) (ra : DWord) : State :=
  let a := ra.toNat
  let n := s.hub.nextReq + 1
  let s1 := s.queueReq { kind := 1, unit := u, kern := (s.core (u / 4)).group, cid := s.cidOf u, target := s.remoteTarget a, va := bitsOf a 52 0, size := remoteSize a }
  s1.modCore (u / 4) (fun c => { c with inflight := c.inflight.map (fun e => match e.eff with
    | .remote d 0 t pl m ad nc => if e.unit = u then { e with eff := .remote d n t pl m ad nc } else e
    | _ => e) })
/-- An RST posts its request (R417). -/
def linkPostRst (s : State) (u : Nat) (ra : DWord) (bs : List Byte) : State :=
  let a := ra.toNat
  s.queueReq { kind := 2, unit := u, kern := (s.core (u / 4)).group, cid := s.cidOf u, target := s.remoteTarget a, va := bitsOf a 52 0,
               size := remoteSize a, data := bs }

end Sys2Proof.Machine
end

