-- ==== Sys2Proof/Machine/ScanCore.lean ====
section
/-! DEFINITION. Operator programs and combine (R250 to R252), the streamed rows of SLOC and SAPL (R259, R264), and the
package levels of SCRY (R259, R422, R428). -/
namespace Sys2Proof.Machine

/-- The fields of a micro-step (R251). -/
def msOp (w : Word) : Nat := bitsOf w.toNat 31 29
def msDst (w : Word) : Nat := bitsOf w.toNat 28 26
def msX (w : Word) : Nat := bitsOf w.toNat 25 23
def msY (w : Word) : Nat := bitsOf w.toNat 22 20
def msZ (w : Word) : Nat := bitsOf w.toNat 19 17
/-- The words before the first END (R251). -/
def progBody (p : List Word) : List Word := p.takeWhile (fun w => msOp w ≠ 0)
/-- The operator length s (R251). -/
def progLen (p : List Word) : Nat := (progBody p).length
/-- Walk a program checking that no operand names t0, t1, oa or ob before it is written; answers what was written. -/
def progWrites : List Word → List Nat → Option (List Nat)
  | [], ws => some ws
  | w :: rest, ws =>
    let okR := fun r => r < 4 || ws.contains r
    if okR (msX w) && okR (msY w) && (msOp w ≠ 3 || okR (msZ w)) then progWrites rest (msDst w :: ws) else none
/-- A program is valid (R251). -/
def progValid (p : List Word) : Bool :=
  let b := progBody p
  decide (1 ≤ b.length)
  && (p.drop b.length).all (fun w => w = 0)
  && b.all (fun w => msOp w ≤ 5 && 4 ≤ msDst w && bitsOf w.toNat 16 0 = 0 && (msOp w = 3 || msZ w = 0))
  && (match progWrites b [] with
      | none => false
      | some ws => ws.contains 6 && ws.contains 7)

/-- One micro-step on the eight operator registers (R252). -/
def microStep (f : FFmt) (r : List Nat) (w : Word) : List Nat × Flags :=
  let x := nth 0 r (msX w)
  let y := nth 0 r (msY w)
  let z := nth 0 r (msZ w)
  let (v, fl) : Fl := match msOp w with
    | 1 => fmul f x y
    | 2 => fadd f x y
    | 3 => ffma f false false x y z
    | 4 => fminmax f true x y
    | _ => fminmax f false x y
  (setNth v r (msDst w), fl)
/-- combine of R252 on one position of two present elements: (oa, ob) and flags. -/
def combine (f : FFmt) (prog : List Word) (la lb ra rb : Nat) : Nat × Nat × Flags :=
  let (r, fl) := (progBody prog).foldl (fun (acc : List Nat × Flags) w =>
    let (r', g) := microStep f acc.1 w
    (r', acc.2 ||| g)) ([la, lb, ra, rb, 0, 0, 0, 0], (0 : Flags))
  (nth 0 r 6, nth 0 r 7, fl)

/-- The bytes of an element of a format (R250). -/
def FFmt.size : FFmt → Nat
  | .fp32 => 4
  | .bf16 => 2
def fmtOne : FFmt → Nat
  | .fp32 => 0x3F800000
  | .bf16 => 0x3F80


/-- The value format of a scan. -/
def scanFmt (bf16 : Bool) : FFmt := if bf16 then .bf16 else .fp32
/-- combine of R252 on lists of values, position by position. -/
def combineRows (f : FFmt) (prog : List Word) (l r : List Nat × List Nat) : (List Nat × List Nat) × Flags :=
  let out := (upTo l.1.length).map (fun i => combine f prog (nth 0 l.1 i) (nth 0 l.2 i) (nth 0 r.1 i) (nth 0 r.2 i))
  ((out.map (·.1), out.map (·.2.1)), out.foldl (fun g x => g ||| x.2.2) 0)
/-- combine of R252 with absent elements as exact identities. -/
def combinePair (f : FFmt) (prog : List Word) (l r : Pair) : Pair × Flags :=
  match l, r with
  | none, _ => (r, 0)
  | _, none => (l, 0)
  | some a, some b => let (p, fl) := combineRows f prog a b; (some p, fl)

/-- The values of a row of W values as bytes, and read back (R250, R264). -/
def rowValues (f : FFmt) (w : Nat) (bs : List Byte) : List Nat := (upTo w).map (fun i => leNat ((bs.drop (f.size * i)).take f.size))
def valueBytes (f : FFmt) (vs : List Nat) : List Byte := vs.flatMap (fun v => leBytes f.size v)
/-- The cells of a state slot that a component of a pair fills (R250). -/
def pairCells (f : FFmt) (w : Nat) (vs : List Nat) : List (Nat × Byte) :=
  (upTo ((vs.length + w - 1) / w)).flatMap (fun r => cellsAt (512 * r) (valueBytes f ((vs.drop (w * r)).take w)))
/-- A pair as a landing writes it. -/
def pairEff (summary : Bool) (z : Nat) (f : FFmt) (w : Nat) (p : Pair) : Eff :=
  .scanPair summary z (match p with
    | none => none
    | some (a, b) => some (pairCells f w a, pairCells f w b))

/-- Where a phase keeps its fold, its flags and its rows until they are pushed. -/
def bufAcc (n0 r : Nat) : Nat := n0 * 2 ^ 33 + r
def bufFlags (n0 : Nat) : Nat := n0 * 2 ^ 33 + 64
def bufRow (n0 j : Nat) : Nat := n0 * 2 ^ 33 + 2 ^ 32 + j

/-- One element row is popped and combined (R259, R264): SLOC folds it, SAPL puts the prefix before it. -/
def scanPopAt (s : State) (u : Nat) (r : ScanRow) (bsA bsB : List Byte) : State :=
  let f := scanFmt r.bf16
  let t := s.tile u
  let e := (rowValues f r.w bsA, rowValues f r.w bsB)
  let left : Pair :=
    if r.sloc then (if r.j < r.rows then none else some (sget ([], []) t.scanBuf (bufAcc r.n0 (r.j % r.rows))))
    else match r.left with
      | none => none
      | some (a, b) => some ((a.drop (r.w * (r.j % r.rows))).take r.w, (b.drop (r.w * (r.j % r.rows))).take r.w)
  let (out, fl) := combinePair f r.prog left (some e)
  let v := out.getD ([], [])
  let old := (sget ([], []) t.scanBuf (bufFlags r.n0)).1.headD 0
  let b1 := sset ([], []) t.scanBuf (bufRow r.n0 r.j) v
  let b2 := if r.sloc then sset ([], []) b1 (bufAcc r.n0 (r.j % r.rows)) v else b1
  let nf := Nat.lor old fl.toNat
  s.setTile u { t with scanBuf := sset ([], []) b2 (bufFlags r.n0) (if nf = 0 then ([], []) else ([nf], [])) }
/-- A row is pushed: ELEM bytes, the values, then zeros (R264). -/
def scanPushBytes (t : Tile) (n0 j : Nat) (bf16 : Bool) (elem : Nat) : List Byte × List Byte × Tile :=
  let f := scanFmt bf16
  let (a, b) := sget ([], []) t.scanBuf (bufRow n0 j)
  let pad := fun vs => let bs := valueBytes f vs; bs ++ List.replicate (elem - bs.length) 0
  (pad a, pad b, { t with scanBuf := sset ([], []) t.scanBuf (bufRow n0 j) ([], []) })
/-- The fold and the flags of a phase at its landing, taken out of the buffer. -/
def scanTake (t : Tile) (n0 m rows : Nat) : Pair × Flags × Tile :=
  let accs := (upTo rows).map (fun r => sget ([], []) t.scanBuf (bufAcc n0 r))
  let fl : Flags := BitVec.ofNat 6 ((sget ([], []) t.scanBuf (bufFlags n0)).1.headD 0)
  let keep := t.scanBuf.filter (fun p => !(decide (bufAcc n0 0 ≤ p.1) && decide (p.1 ≤ bufFlags n0)))
  (if m = 0 then none else some (accs.flatMap (·.1), accs.flatMap (·.2)), fl, { t with scanBuf := keep })

/-- sweep_up of R259 over a list of places: the summaries and each place's flags, levels d to hi − 1. -/
def sweepUp (f : FFmt) (progs : List (List Word)) : Nat → Nat → List (Pair × Flags) → List (Pair × Flags)
  | 0, _, us => us
  | fuel + 1, d, us =>
    sweepUp f progs fuel (d + 1) ((upTo us.length).map (fun t =>
      let u := nth (none, 0) us t
      if t % 2 ^ (d + 1) = 2 ^ (d + 1) - 1 then
        let (p, g) := combinePair f (nth [] progs t) (nth (none, 0) us (t - 2 ^ d)).1 u.1
        (p, u.2 ||| g)
      else u))
/-- sweep_down of R259 over a list of places, levels fuel − 1 to 0. -/
def sweepDown (f : FFmt) (progs : List (List Word)) (us : List Pair) : Nat → List (Pair × Flags) → List (Pair × Flags)
  | 0, xs => xs
  | d + 1, xs =>
    sweepDown f progs us d ((upTo xs.length).map (fun t =>
      let x := nth (none, 0) xs t
      if t % 2 ^ (d + 1) = 2 ^ (d + 1) - 1 then
        let (p, g) := combinePair f (nth [] progs t) x.1 (nth none us (t - 2 ^ d))
        (p, x.2 ||| g)
      else if (t + 2 ^ d) % 2 ^ (d + 1) = 2 ^ (d + 1) - 1 then ((nth (none, 0) xs (t + 2 ^ d)).1, x.2)
      else x))

/-- Whether package position p of an instance is padding (R256): positions P and above, counted from the other end under
REV. -/
def ScryRec.padding (r : ScryRec) (p : Nat) : Bool := decide (r.npkg ≤ (if r.rev then 2 ^ r.lp - 1 - p else p))
/-- The levels at which this package is the right child of its pair, from 0 up. -/
def ScryRec.rightLevels (r : ScryRec) : Nat := ((upTo r.lp).takeWhile (fun l => bitOf r.pq l)).length
/-- The way up from position p at level l (R256, R259): at each level the left partner from which a right child takes a summary, or
none where the right half beneath is all padding, whose parent then copies: the package acts for that position from there on. With it
the level at which the way ends in a left child and its right partner, none at the top. -/
def ScryRec.path (r : ScryRec) : Nat → Nat → Nat → List (Option (Nat × Nat)) × Option (Nat × Nat)
  | 0, _, _ => ([], none)
  | fuel + 1, l, p =>
    if bitOf p l then
      let rest := r.path fuel (l + 1) p
      (some (p, p - 2 ^ l) :: rest.1, rest.2)
    else if r.padding (p + 1) then
      let rest := r.path fuel (l + 1) (p + 2 ^ l)
      (none :: rest.1, rest.2)
    else ([], some (l, p + 2 ^ l))
/-- The levels of the way up, and where it ends. -/
def ScryRec.hops (r : ScryRec) : List (Option (Nat × Nat)) := (r.path r.lp 0 r.pq).1
def ScryRec.above (r : ScryRec) : Option (Nat × Nat) := (r.path r.lp 0 r.pq).2
/-- A level fails when its route is not VALID or its partner is fenced, or the device is in no pod job of the context
(R422, R428). -/
def scryFails (s : State) (r : ScryRec) : Bool :=
  let cid := (s.group r.kern).cid
  let job := bitOf s.hub.jobctx 63 && decide (bitsOf s.hub.jobctx 41 32 = cid)
  let bad := fun l =>
    let e := sget 0 s.hub.crdata l
    !job || !(bitOf e 63) || s.destFenced (bitsOf e 28 16)
  ((upTo r.lp).zip r.hops).any (fun h => match h.2 with
      | some (_, from_) => !(r.padding from_) && bad h.1
      | none => false)
    || (match r.above with
      | some (l, _) => bad l
      | none => false)
    || s.hub.carriesIn.any (fun c => decide (c.kern = r.kern) && decide (c.inst = r.inst) && decide (c.level = 255))
/-- The values of a flit as an instance of this shape reads them. -/
def CarryIn.pair (c : CarryIn) (r : ScryRec) : Pair :=
  let n := r.rows * r.w
  let sz := (scanFmt r.bf16).size
  let val := fun i => bitsOf c.data (8 * sz * (i + 1) - 1) (8 * sz * i)
  if c.absent then none else some ((upTo n).map val, (upTo n).map (fun i => val (n + i)))
/-- The flits of an instance from a position at a level. -/
def CarryIn.isFrom (c : CarryIn) (r : ScryRec) (level pos : Nat) : Bool :=
  decide (c.kern = r.kern) && decide (c.inst = r.inst) && decide (c.level = level) && decide (c.pos = pos)
/-- The pair that came in from a position at a level, the oldest that waits; the outer none says that it has not come. -/
def carryFrom (s : State) (r : ScryRec) (level pos : Nat) : Option Pair :=
  (s.hub.carriesIn.find? (fun c => c.isFrom r level pos)).map (fun c => c.pair r)

/-- The package levels at this package (R259): going up from `u`, the summaries of its left partners by level (outer none where one
has not come), its own at the top, and its flags. A level that is copied, or at which the package acts for a padding position,
computes no summary (log 100). -/
def scryUp (s : State) (r : ScryRec) : Nat → List (Option (Nat × Nat)) → Pair → Flags → List Pair → Option (Pair × Flags × List Pair)
  | _, [], u, fl, ls => some (u, fl, ls)
  | l, none :: hs, u, fl, ls => scryUp s r (l + 1) hs u fl (ls ++ [none])
  | l, some (p, from_) :: hs, u, fl, ls =>
    match (if r.padding from_ then some none else carryFrom s r l from_) with
    | none => none
    | some v =>
      let (w, g) := if r.padding p then (u, 0) else combinePair (scanFmt r.bf16) r.prog v u
      scryUp s r (l + 1) hs w (fl ||| g) (ls ++ [v])
/-- Going down (R259): the prefix sent to the left partner of each level, and the prefix left at level 0; a level that was copied
passes the prefix on. -/
def scryDown (r : ScryRec) (ls : List Pair) : Nat → Pair → Flags → List (Nat × Nat × Pair) → Pair × Flags × List (Nat × Nat × Pair)
  | 0, x, fl, sent => (x, fl, sent)
  | l + 1, x, fl, sent => match nth none r.hops l with
    | none => scryDown r ls l x fl sent
    | some (_, to_) =>
      let (p, g) := combinePair (scanFmt r.bf16) r.prog x (nth none ls l)
      scryDown r ls l p (fl ||| g) (sent ++ [(l, to_, x)])

/-- The SCRY records of an instance, first root first, those of a saved context among them (R267). -/
def scryRecs (s : State) (kern inst : Nat) : List (Nat × Entry × ScryRec) :=
  let saved := s.ctxs.flatMap (fun x => match x.2.saved with
    | some v => v.cores
    | none => [])
  let all := (s.cores ++ saved).flatMap (fun p => p.2.inflight.filterMap (fun e => match e.eff with
    | .scry r => if r.inst = inst ∧ r.kern = kern then some (p.1, e, r) else none
    | _ => none))
  (upTo 4).filterMap (fun q => all.find? (fun x => decide (x.2.2.q = q)))

/-- What an instance has computed so far: the roots' summaries and flags after the die levels, the flits it has sent, and,
once every carry has come, the roots' prefixes. -/
structure ScryOut where
  us : List (Pair × Flags) := []
  top : Flags := 0
  sent : List Carry := []
  done : Option (Pair × List (Pair × Flags)) := none

def scryRun (s : State) (kern inst : Nat) : ScryOut :=
  let rs := (scryRecs s kern inst).map (·.2.2)
  match rs.reverse with
  | [] => {}
  | r :: _ =>
    let f := scanFmt r.bf16
    let ld := Nat.log2 r.nroots
    let progs := rs.map (·.prog)
    let us := sweepUp f progs ld 0 (rs.map (fun r => (r.u, 0)))
    let route := fun (l : Nat) => sget 0 s.hub.crdata l
    let mk := fun (l pos : Nat) (p : Pair) =>
      ({ kern := r.kern, inst := inst, level := l, pos := pos, pair := p, port := bitsOf (route l) 35 32, dest := bitsOf (route l) 28 16 } : Carry)
    match scryUp s r 0 r.hops (nth (none, 0) us (r.nroots - 1)).1 0 [] with
    | none => { us := us }
    | some (u, fl, ls) =>
      let up := match r.above with
        | some (l, pos) => [mk l pos u]
        | none => []
      let x? : Option Pair := match r.above with
        | some (l, pos) => carryFrom s r l pos
        | none => some none
      match x? with
      | none => { us := us, top := fl, sent := up }
      | some x =>
        let (x0, fl2, down) := scryDown r ls r.hops.length x fl []
        let xs := sweepDown f progs (us.map (·.1)) ld ((upTo r.nroots).map (fun q => if q = r.nroots - 1 then (x0, 0) else (none, 0)))
        { us := us, top := fl2, sent := up ++ (down.filter (fun p => !(r.padding p.2.1))).map (fun p => mk p.1 p.2.1 p.2.2), done := some (u, xs) }

/-- Two flits of one step of an instance, whatever route each took. -/
def Carry.same (a b : Carry) : Bool := decide ({ a with port := 0, dest := 0 } = { b with port := 0, dest := 0 })
/-- The flits that an instance can send leave, each once and over the route that its level has then (R422, R428). -/
def scrySend (s : State) (kern inst : Nat) : State :=
  let new := (scryRun s kern inst).sent.filter (fun c => !(s.hub.carriesOut.any c.same))
  { s with hub := { s.hub with carriesOut := s.hub.carriesOut ++ new } }

end Sys2Proof.Machine
end

