-- ==== Sys2Proof/Machine/Land.lean ====
section
/-! DEFINITION. How results land (R37 to R39, R43, R92, R193): one operation for every entry kind, and the landing of every
result due at a bundle. -/
namespace Sys2Proof.Machine

/-- A vector landing in a register under a mask (R193): disabled lanes keep what the register holds. -/
def mergeVec (old v : Vec) (en : Mask) : Vec :=
  if en = allOnes then v else Vec.mk' v.tag (fun i => if enabled en i then v.lane i else old.lane i)
/-- The latch receives zeros in disabled lanes (R193). -/
def latchVec (v : Vec) (en : Mask) : Vec :=
  if en = allOnes then v else Vec.mk' v.tag (fun i => if enabled en i then v.lane i else 0)
/-- The latch of a unit's slot that destination field D names: DST mod n (R37). -/
def latchOf (slot d : Nat) : Nat :=
  match slot with
  | 1 => 62 + d % 64 % 2
  | 2 => 48 + d % 64 % 4
  | 3 => 52 + d % 64 % 4
  | 4 => 56 + d % 64 % 2
  | 5 => 58 + d % 64 % 2
  | _ => 60 + d % 64 % 2

/-- Bytes written to a state slot make it live (R269). -/
def Slot.write (z : Slot) (cells : List (Nat × Byte)) : Slot :=
  { z with st := .live, bytes := putCells z.bytes cells }

/-- The result of adding K-block products and addends to a row of the accumulator, with flags and counts (R84). -/
def accAddCols (t : Tile) (bank row : Nat) : Nat → List (List Nat) → Tile × Flags × MxInc
  | _, [] => (t, 0, 0)
  | c, ps :: rest =>
    let step := ps.foldl (fun (r : Nat × Flags × MxInc) p =>
      let (v, f, m) := accAdd r.1 p
      (v, r.2.1 ||| f, r.2.2 ||| m)) (t.accAt bank row c, (0 : Flags), (0 : MxInc))
    let (t', f, m) := accAddCols (t.setAcc bank row c step.1) bank row (c + 1) rest
    (t', step.2.1 ||| f, step.2.2 ||| m)
def accSetCols (t : Tile) (bank row : Nat) : Nat → List Nat → Tile
  | _, [] => t
  | c, v :: vs => accSetCols (t.setAcc bank row c v) bank row (c + 1) vs
def accClearRows (t : Tile) (bank row nrows : Nat) : Tile :=
  { t with acc := t.acc.filter (fun p =>
      !(decide (accIndex bank row 0 ≤ p.1) && decide (p.1 < accIndex bank (row + nrows) 0))) }

/-- A write of one stationary row (R244). -/
def SPlane.put (p : SPlane) (row : Nat) (codes : List Int) (scales : List Nat) (vals : List Nat) : SPlane :=
  let put {β : Type} [DecidableEq β] (d : β) (base : Nat) (m : SMap β) (l : List β) : SMap β :=
    (l.foldl (fun (acc : SMap β × Nat) v => (sset d acc.1 (base + acc.2) v, acc.2 + 1)) (m, 0)).1
  { p with codes := put 0 (row * 192) p.codes codes
           scales := put 0 (row / 16 * 192) p.scales scales
           staged := put 0 (row * 192) p.staged vals }

/-- At AXCH a float-origin plane is quantised: per column and K-block of 16 staged rows, quiet (R246); its flags and counter
increments are collected over all of them, at most one for a counter (R92, log 95). -/
def SPlane.quantise (p : SPlane) : SPlane × Flags × MxInc :=
  if p.isOpen || p.raw then (p, 0, 0) else
  let blocks := (upTo 3).flatMap (fun kb => (upTo 48).map (fun j => (kb, j)))
  blocks.foldl (fun (acc : SPlane × Flags × MxInc) b =>
    let vals := (upTo 16).map (fun i => dec32 (sget 0 p.staged ((16 * b.1 + i) * 192 + b.2)))
    let (q, fl) := mxQuantise vals 16 true
    let codes := (q.codes.zip (upTo 16)).foldl (fun m ci => sset 0 m ((16 * b.1 + ci.2) * 192 + b.2) ci.1) acc.1.codes
    ({ acc.1 with codes := codes, scales := sset 0 acc.1.scales (b.1 * 192 + b.2) q.e },
     acc.2.1 ||| fl, acc.2.2 ||| mxQuantInc fl)) (p, (0 : Flags), (0 : MxInc))

/-- AXCH (R246): the planes exchange; the plane that becomes live is quantised, and the one that becomes shadow is open. -/
def Tile.exchangePlanes (t : Tile) : Tile × Flags × MxInc :=
  let (q, fl, m) := t.shadowPlane.quantise
  if t.liveIs1 then ({ t with liveIs1 := false, plane0 := q, plane1 := {} }, fl, m)
  else ({ t with liveIs1 := true, plane1 := q, plane0 := {} }, fl, m)

/-- The parameters that WCFG writes (R195, R199); a write of ctrl sets the indices and the count to 0. -/
def Walker.setField (w : Walker) (field : Nat) (v : DWord) : Walker :=
  match field with
  | 0 => { w with ctrl := v, idx := [], a := 0 }
  | 1 => { w with base := v }
  | 2 => { w with astride := v.setWidth 32 }
  | f =>
    if 16 ≤ f ∧ f ≤ 21 then { w with counts := sset 0 w.counts (f - 16) (v.setWidth 24) }
    else if 24 ≤ f ∧ f ≤ 29 then { w with strides := sset 0 w.strides (f - 24) (v.setWidth 32) }
    else w

/-- A tile TLB keeps 64 translations, the oldest replaced first (R325). -/
def tlbAdd (n : Nat) (e : TlbEntry) (l : List TlbEntry) : List TlbEntry :=
  (e :: l.filter (fun x => !(x.cid = e.cid && x.vbase = e.vbase && x.size = e.size))).take n

/-- A walk cache keeps 64 table entries, the oldest replaced first (R325, log 91). -/
def walkAdd (e : WalkEntry) (l : List WalkEntry) : List WalkEntry :=
  (e :: l.filter (fun x => !(x.cid = e.cid && x.level = e.level && x.index = e.index))).take 64
/-- The table entries that a walk which found `e` has read are cached with its expiry (R325, R326). -/
def State.walkFill (s : State) (u : Nat) (e : TlbEntry) : State :=
  let entry := fun (lvl t : Nat) => s.memNat (t + 8 * vaIndex e.vbase lvl) 8
  let table := fun (lvl t : Nat) => if entry lvl t % 2 = 1 ∧ !(bitOf (entry lvl t) 1) then some (bitsOf (entry lvl t) 47 8 * 256) else none
  let keep := fun (lvl t : Nat) (s : State) =>
    let w : WalkEntry := { cid := e.cid, level := lvl, index := e.vbase / 2 ^ (if lvl = 3 then 47 else 31), table := t, expiry := e.expiry }
    { s with walkCache := smod [] s.walkCache (u % 4) (walkAdd w) }
  let low := fun (t : Nat) (s : State) => match table 2 t with
    | some t1 => keep 2 t1 s
    | none => s
  match walkStart s u e.cid e.vbase with
  | (3, root) => match table 3 root with
    | some t2 => low t2 (keep 3 t2 s)
    | none => s
  | (2, t) => low t s
  | _ => s
/-- A translation that a lookup found is kept in the tile TLB and the die TLB; one that neither held came from a walk (R325, R326). -/
def State.tlbKeep (s : State) (u : Nat) (e : TlbEntry) : State :=
  let known := (s.tile u).tlb.contains e || (sget [] s.dieTlb (u % 4)).contains e
  let s1 := if known then s else s.walkFill u e
  ({ s1 with dieTlb := smod [] s1.dieTlb (u % 4) (tlbAdd 2048 e) }).modTile u (fun t => { t with tlb := tlbAdd 64 e t.tlb })

/-- A level of the loop sequencer (R32). -/
def CoreRec.lvl (c : CoreRec) (l : Nat) : Level := sget {} c.lvls l
def CoreRec.setLvl (c : CoreRec) (l : Nat) (v : Level) : CoreRec := { c with lvls := sset {} c.lvls l v }

/-- WAITM takes effect (R319, R320): the line is atomic-only; an event that has come is taken; else the unit sleeps on its
entry, installed in place of the one that has gone longest without a WAITM when the table is full. -/
def monitorWait (s : State) (u pa timeout : Nat) : State :=
  let ln := pa / 64
  let s1 := s.markAtomic ln
  s1.modTile u (fun t =>
    let age := (t.mon.foldl (fun m e => max m e.age) 0) + 1
    let dl := if timeout = 0 then none else some (s.ptime + timeout)
    match t.mon.find? (fun e => decide (e.line = ln)) with
    | some e =>
      let e' : MonEntry := if e.event then { e with event := false, age := age } else { e with asleep := true, deadline := dl, age := age }
      { t with mon := t.mon.map (fun x => if x.line = ln then e' else x) }
    | none =>
      let oldest := t.mon.foldl (fun m e => min m e.age) age
      let kept := if t.mon.length < 16 then t.mon else t.mon.filter (fun e => decide (e.age ≠ oldest))
      { t with mon := kept ++ [{ line := ln, asleep := true, deadline := dl, age := age }] })

/-- The effect of one result on the machine, with the flags and counts that are found only at landing. -/
def applyEff (s : State) (u slot : Nat) (e : Eff) : State × Flags × MxInc :=
  let t := s.tile u
  let tile (t' : Tile) : State × Flags × MxInc := (s.setTile u t', 0, 0)
  match e with
  | .vec d v en =>
    let t1 := t.setLatch (latchOf slot d) (latchVec v en)
    tile (if d < 40 then t1.setV d (mergeVec (t1.getV d) v en) else t1)
  | .latch l v => tile (t.setLatch l v)
  | .xreg r v => (s.writeX u r v, 0, 0)
  | .stride r c => tile (t.setX r (t.getX r + c))
  | .pred p b => tile (t.setP p b)
  | .mask k m => tile (t.setK k m)
  | .spad cells => tile { t with spad := putCells t.spad cells }
  | .mem cells nc => (s.store u nc cells, 0, 0)
  | .accProd bank row c0 cols =>
    let (t', f, m) := accAddCols t bank row c0 cols
    (s.setTile u t', f, m)
  | .accAdd bank row c0 vals =>
    let (t', f, m) := accAddCols t bank row c0 (vals.map (fun v => [v]))
    (s.setTile u t', f, m)
  | .accSet bank row c0 vals => tile (accSetCols t bank row c0 vals)
  | .accClear bank row nrows => tile (accClearRows t bank row nrows)
  | .slotBytes z cells => tile (t.setSlot z ((t.getSlot z).write cells))
  | .slotClear z => tile (t.setSlot z {})
  | .pushRow pl _ _ row codes scales vals =>
    tile (if pl then { t with plane1 := t.plane1.put row codes scales vals }
          else { t with plane0 := t.plane0.put row codes scales vals })
  | .planeOpenAs pl fmt raw =>
    let q : SPlane := { isOpen := false, fmt := fmt, raw := raw }
    tile (if pl then { t with plane1 := q } else { t with plane0 := q })
  | .axch =>
    let (t', f, m) := t.exchangePlanes
    (s.setTile u t', f, m)
  | .scalePtr b n v _ => tile (if b then { t with sb := sset 0 t.sb n v } else { t with sa := sset 0 t.sa n v })
  | .csr num v so => (csrApply s u num v so, 0, 0)
  | .bt j v => (s.writeBt u j v, 0, 0)
  | .loopCount l v => (s.modCore (u / 4) (fun c => c.setLvl l { c.lvl l with count := v }), 0, 0)
  | .loopStride l which r v =>
    (s.modCore (u / 4) (fun c => c.setLvl l
      (if which = 0 then { c.lvl l with s0r := r, s0c := v } else { c.lvl l with s1r := r, s1c := v })), 0, 0)
  | .rstk idx v => (s.rstkApply u idx v, 0, 0)
  | .wcfg port f v => tile (t.setWalk port ((t.getWalk port).setField f v))
  | .shw key f v => tile { t with shShadow := smod [] t.shShadow key (fun m => sset 0 m f v) }
  | .ksel vb k => tile (if vb then { t with curB := k } else { t with curA := k })
  | .zop prog => tile { t with prog := some prog }
  | .seedTab fn bs =>
    let w := fun i => leNat ((bs.drop (4 * i)).take 4)
    let tab := (upTo 128).map w
    tile { t with seed := match fn with
      | 0 => { t.seed with rcp := tab }
      | 1 => { t.seed with rsq := tab }
      | 3 => { t.seed with exp := tab }
      | _ => { t.seed with logV := (upTo 128).map (fun i => w (2 * i))
                           logC := (upTo 128).map (fun i => w (2 * i + 1)) } }
  | .xpost node cmd => (nodePost s u node cmd, 0, 0)
  | .rstPost ra bs => (linkPostRst s u ra bs, 0, 0)
  | .rldPost ra => (linkPostRld s u ra, 0, 0)
  | .bench code v => (benchArrive s u code v, 0, 0)
  | .benchSend code v delay => (benchLeave s u code v delay, 0, 0)
  | .scanPair summary z pair =>
    match pair with
    | none => tile (if summary then { t with sabs := true } else { t with xabs := true })
    | some (a, b) =>
      let t1 := (t.setSlot z ((t.getSlot z).write a))
      let t2 := t1.setSlot (z + 1) ((t1.getSlot (z + 1)).write b)
      tile (if summary then { t2 with sabs := false } else { t2 with xabs := false })
  | .scanPop r =>
    let rd := fun (a : Nat) (nc : Bool) => match r.src with
      | some q => (s.tile q).spadBytes a ((scanFmt r.bf16).size * r.w)
      | none => s.peek u a ((scanFmt r.bf16).size * r.w) nc
    (scanPopAt s u r (rd r.aA r.ncA) (rd r.aB r.ncB), 0, 0)
  | .scanPush n0 j bf16 w elem toMem aA aB ncA ncB =>
    let (ba, bb, t1) := scanPushBytes t n0 j bf16 elem
    let _ := w
    if toMem then (((s.setTile u t1).store u ncA (cellsAt aA ba)).store u ncB (cellsAt aB bb), 0, 0)
    else tile ((t1.putSpad aA ba).putSpad aB bb)
  | .scanEnd n0 sloc z m rows bf16 w =>
    let (p, fl, t1) := scanTake t n0 m rows
    if sloc then
      let f := scanFmt bf16
      match p with
      | none => (s.setTile u { t1 with sabs := true }, fl, 0)
      | some (a, b) =>
        let t2 := t1.setSlot z ((t1.getSlot z).write (pairCells f w a))
        let t3 := t2.setSlot (z + 1) ((t2.getSlot (z + 1)).write (pairCells f w b))
        (s.setTile u { t3 with sabs := false }, fl, 0)
    else (s.setTile u t1, fl, 0)
  | .scry _ => (s, 0, 0)
  | .scryStart inst => (scrySend s (s.core (u / 4)).group inst, 0, 0)
  | .park vn v pool abank sbase =>
    let bytes := (upTo 512).map (fun j => BitVec.ofNat 8 (v.lane (j / 4) / 256 ^ (j % 4)))
    let t1 := if pool then t.putSpad (sbase * 512 + 512 * vn) bytes
      else accSetCols t abank (152 + vn) 0 ((upTo 128).map v.lane)
    tile ({ t1 with parked := t1.parked ||| BitVec.twoPow 40 vn, parkTag := sset .empty t1.parkTag vn v.tag }.setV vn {})
  | .unpark vn v =>
    tile (({ t with parked := t.parked &&& ~~~(BitVec.twoPow 40 vn) }.setV vn v).setLatch (52 + vn % 4) v)
  | .load r pa size sx nc =>
    let w := leNat (s.peek u pa size nc)
    let v : DWord := if sx then wrap64 (sextNat w (8 * size)) else BitVec.ofNat 64 w
    (((linesOf pa size).foldl (fun s l => s.fillLine u l nc) s).writeX u r v, 0, 0)
  | .predPending _ _ => (s, 0, 0)
  | .remote _ _ _ _ _ _ _ => (s, 0, 0)
  | .walkAdv port b => tile (t.setWalk port { t.getWalk port with a := (t.getWalk port).a + b })
  | .popped _ _ => (s, 0, 0)
  | .shSwap key =>
    let l := sget [] t.shLive key
    let h := sget [] t.shShadow key
    tile { t with shLive := sset [] t.shLive key h, shShadow := sset [] t.shShadow key l }
  | .tlbFill e => (s.tlbKeep u e, 0, 0)
  | .fill lines nc => (lines.foldl (fun s l => s.fillLine u l nc) s, 0, 0)
  | .hold ports til => tile { t with held := ports.map (fun p => (p, til)) ++ t.held.filter (fun h => !(ports.contains h.1)) }
  | .scanState st set => tile { t with scanSt := st, settings := set }
  | .reserve node banks => tile { t with resv := t.resv ++ [(node, banks)] }
  | .planeFmt => (s, 0, 0)
  | .barArrive scope bid => (barArriveTile s u scope bid, 0, 0)
  | .waitm pa timeout => (monitorWait s u pa timeout, 0, 0)
  | .atomic pa => (s.markAtomic (pa / 64), 0, 0)
  | .none_ => (s, 0, 0)

/-- The entry with an LD's bytes taken (R176): what lands later is a scalar value. -/
def arriveLoad (s : State) (e : Entry) : State × Entry :=
  match e.eff with
  | .load r pa size sx nc =>
    let w := leNat (s.peek e.unit pa size nc)
    let v : DWord := if sx then wrap64 (sextNat w (8 * size)) else BitVec.ofNat 64 w
    ((linesOf pa size).foldl (fun s l => s.fillLine e.unit l nc) s, { e with eff := .xreg r v, pend := false })
  | _ => (s, { e with pend := false })

/-- Apply flags and counts to a unit (R92). -/
def Tile.applyFlags (t : Tile) (f : Flags) (m : MxInc) : Tile := { t with flags := t.flags ||| f, mx := t.mx.add m }

/-- One result lands (R92): its effect, then its flags and counts, once. -/
def landEntry (s : State) (e : Entry) : State :=
  let (s1, f, m) := applyEff s e.unit e.slot e.eff
  if (e.fl ||| f) = 0 ∧ (e.mx ||| m) = 0 then s1
  else s1.modTile e.unit (fun t => t.applyFlags (e.fl ||| f) (e.mx ||| m))

/-- The order of landings (R38, R34, R239): due bundle; then ordinary results, MSCL, stride additions, and the rows that a scan
phase pops, which see every result that lands at their bundle (R198, R264); then issue bundle, then slot. Insertion keeps entries of equal rank in the order given. -/
def Entry.rank (e : Entry) : Nat :=
  match e.eff with
  | .stride _ _ => 2
  | .scalePtr _ _ _ true => 1
  | .scanPop _ => 3
  | _ => 0
def Entry.before (a b : Entry) : Bool :=
  if a.due ≠ b.due then decide (a.due < b.due)
  else if a.rank ≠ b.rank then decide (a.rank < b.rank)
  else if a.issue ≠ b.issue then decide (a.issue < b.issue)
  else decide (a.slot < b.slot)
def insertEntry (e : Entry) : List Entry → List Entry
  | [] => [e]
  | x :: xs => if x.before e || !(e.before x) then x :: insertEntry e xs else e :: x :: xs
def sortEntries : List Entry → List Entry
  | [] => []
  | e :: es => insertEntry e (sortEntries es)

/-- Before an access of a tile to memory lands (a store, a push, a scan's row, a command, a remote store), its earlier loads take
their bytes (R43, R176). -/
def arriveEarlier (s : State) (k : Nat) (due : List Entry) : State :=
  let c := s.core k
  c.inflight.reverse.foldl (fun s e =>
    let needed := e.pend && due.any (fun d => decide (d.unit = e.unit) && decide (e.issue < d.due) && (match d.eff with
      | .mem _ _ => true
      | .xpost _ _ => true
      | .rstPost _ _ => true
      | .scanPop r => r.src.isNone
      | .scanPush _ _ _ _ _ toMem _ _ _ _ => toMem
      | _ => false))
    match e.eff, needed with
    | .load _ _ _ _ _, true =>
      let (s1, e') := arriveLoad s e
      s1.modCore k (fun c => { c with inflight := c.inflight.map (fun x => if x = e then e' else x) })
    | _, _ => s) s

/-- Every result of the core due at or before bundle m that has arrived lands, in the order of R38. -/
def landUpTo (s0 : State) (k m : Nat) : State :=
  let s := arriveEarlier s0 k ((s0.core k).inflight.filter (fun e => decide (e.due ≤ m) && !e.pend))
  let c := s.core k
  let due := c.inflight.filter (fun e => decide (e.due ≤ m) && !e.pend)
  let rest := c.inflight.filter (fun e => !(decide (e.due ≤ m) && !e.pend))
  (sortEntries due.reverse).foldl landEntry (s.setCore k { c with inflight := rest })

/-- Every result that has arrived lands, whatever bundle it is due at: a drain (R142, R167, R186). -/
def landAll (s : State) (k : Nat) : State :=
  let c := s.core k
  let rest := c.inflight.filter (fun e => e.pend)
  (sortEntries (c.inflight.filter (fun e => !e.pend)).reverse).foldl landEntry (s.setCore k { c with inflight := rest })

end Sys2Proof.Machine
end

