-- ==== Sys2Proof/Machine/Deque.lean ====
section
/-! DEFINITION. What an acquire and a release do to the caches (R304), the continuation records and deques of a group (R181 to
R184), and the arrival of interlocked results (R44, R176, R188, R372). -/
namespace Sys2Proof.Machine

/-- Every dirty line of a die's home L2 is written to its stack die; the lines stay (R304). -/
def writeBackDie (s : State) (d : Nat) : State := (sget [] s.l2 d).foldl (fun s p => s.writeBack d p.1) s
/-- What a scope acquire invalidates on the acquiring tile's die (R304): the tile's read cache; at a multi-die scope also
the three Adit caches and the home L2, written back first. -/
def acquireAt (s : State) (u scope : Nat) : State :=
  if 256 ≤ u then s
  else
    let s1 := s.modTile u (fun t => { t with rc := [] })
    if scope = 0 ∨ scope = 3 then s1
    else
      let d := u % 4
      let s2 := writeBackDie s1 d
      { s2 with l2 := sset [] s2.l2 d []
                adit := [0, 1, 2].foldl (fun m p => sset [] m (3 * d + p) []) s2.adit }
/-- The valid regions of a context whose sync word is in physical line ln (R300). -/
def boundTo (s : State) (cid ln : Nat) : List Region :=
  ((s.ctx cid).regions.map (·.2)).filter (fun r => r.valid && match walk s cid r.sync with
    | .ok e => decide ((e.frame + (r.sync - e.vbase)) / 64 = ln)
    | .error _ => false)
/-- Physical line ln belongs to a region: some granule of the region translates to the line's. -/
def inRegion (s : State) (cid ln : Nat) (r : Region) : Bool :=
  (granulesOf r.base r.bytes).any (fun g => match walk s cid (65536 * g) with
    | .ok e =>
      let va := 65536 * g + 64 * ln % 65536
      decide (granule (e.frame + (65536 * g - e.vbase)) = granule (64 * ln)) && decide (r.base ≤ va) && decide (va < r.base + r.bytes)
    | .error _ => false)
/-- What an acquire of the sync word in line w invalidates (R301, R304): the lines of the regions bound to it; every line
when more than eight regions name it. -/
def acquireWord (s : State) (u scope w : Nat) : State :=
  let cid := s.cidOf u
  let rs := boundTo s cid w
  if 8 < rs.length then acquireAt s u scope
  else if 256 ≤ u then s
  else
    let covered := fun ln => rs.any (inRegion s cid ln)
    let drop := fun (m : SMap Line) => m.filter (fun p => !covered p.1)
    let s1 := s.modTile u (fun t => { t with rc := drop t.rc })
    if scope = 0 ∨ scope = 3 then s1
    else
      let d := u % 4
      let s2 := (sget [] s1.l2 d).foldl (fun s p => if covered p.1 then s.flushL2 d p.1 else s) s1
      { s2 with adit := [0, 1, 2].foldl (fun m p => smod [] m (3 * d + p) drop) s2.adit }
/-- What a release does beside waiting (R304, log 10). -/
def releaseAt (s : State) (u scope : Nat) : State :=
  if 256 ≤ u ∨ scope = 0 ∨ scope = 3 then s else writeBackDie s (u % 4)
/-- A device access to a context's memory that all parties agree on: the home L2 gives up the line first, and the stack die
answers (R182). None where the address has no translation. -/
def State.devPa (s : State) (cid va : Nat) : Option Nat := match translate s 256 cid va 0 with
  | .ok (pa, _) => some pa
  | .error _ => none
def State.devFlush (s : State) (pa : Nat) : State := (upTo 4).foldl (fun s d => s.flushL2 d (pa / 64)) s
def State.devGet (s : State) (cid va len : Nat) : Nat := match s.devPa cid va with
  | some pa => (s.devFlush pa).memNat pa len
  | none => 0
def State.devPut (s : State) (cid va len v : Nat) : State := match s.devPa cid va with
  | some pa => (s.devFlush pa).putMemNat pa len v
  | none => s
/-- As devPut, on a line that only the atomic unit touches. -/
def State.atomPut (s : State) (cid va len v : Nat) : State := match s.devPa cid va with
  | some pa => (s.markAtomic (pa / 64)).putMemNat pa len v
  | none => s

/-- The fields of a continuation record and of a join counter (R181, R182). -/
def recHeader (s : State) (cid r : Nat) : Nat := s.devGet cid r 8
def recAll (h : Nat) : Bool := bitOf h 24
/-- ENTRY; the device itself may have written address 2,048 there, one past the last (R188). -/
def recEntry (h : Nat) : Nat := if bitsOf h 11 0 = 2048 then 2048 else bitsOf h 10 0
def recArg (s : State) (cid r i : Nat) : Nat := s.devGet cid (r + 8 + 8 * i) 8
def recJoinc (s : State) (cid r : Nat) : Nat := s.devGet cid (r + 40) 8
def recLink (s : State) (cid r : Nat) : Nat := s.devGet cid (r + 48) 8
def setRecStatus (s : State) (cid r v : Nat) : State := s.devPut cid (r + 2) 1 v
def setRecEntry (s : State) (cid r v : Nat) : State := s.devPut cid r 2 (bitsOf (recHeader s cid r) 15 12 * 4096 + v % 4096)
def setRecLink (s : State) (cid r v : Nat) : State := s.devPut cid (r + 48) 8 v

/-- push_head (R183): with 32 entries in hardware the tail entry first moves to the newer end of the chain. -/
def pushHead (s : State) (k r : Nat) : State :=
  let c := s.core k
  if c.deque.length < 32 then s.setCore k { c with deque := r :: c.deque }
  else
    let t := nth 0 c.deque 31
    let keep := r :: c.deque.take 31
    if c.spTail = 0 then s.setCore k { c with deque := keep, spTail := t, spHead := t }
    else (setRecLink s c.cid c.spHead t).setCore k { c with deque := keep, spHead := t }
/-- push_tail (R183). -/
def pushTail (s : State) (k r : Nat) : State :=
  let c := s.core k
  if c.spTail ≠ 0 then (setRecLink s c.cid r c.spTail).setCore k { c with spTail := r }
  else if c.deque.length < 32 then s.setCore k { c with deque := c.deque ++ [r] }
  else s.setCore k { c with spTail := r, spHead := r }
/-- The deque of core k of a group: its own, or the one it left with the group when it retired by END (R184). -/
def State.deq (s : State) (kern k : Nat) : Deq :=
  let g := s.group kern
  if g.left.contains k then sget {} g.deques k
  else let c := s.core k; { hw := c.deque, spTail := c.spTail, spHead := c.spHead }
def State.setDeq (s : State) (kern k : Nat) (d : Deq) : State :=
  if (s.group kern).left.contains k then s.modGroup kern (fun g => { g with deques := sset {} g.deques k d })
  else s.modCore k (fun c => { c with deque := d.hw, spTail := d.spTail, spHead := d.spHead })
/-- A deque holds no record. -/
def Deq.isEmpty (d : Deq) : Bool := d.hw.isEmpty && decide (d.spTail = 0)
/-- The oldest record of the chain leaves it. -/
def takeChain (s : State) (kern k : Nat) : State × Option Nat :=
  let d := s.deq kern k
  if d.spTail = 0 then (s, none)
  else if d.spTail = d.spHead then (s.setDeq kern k { d with spTail := 0, spHead := 0 }, some d.spTail)
  else (s.setDeq kern k { d with spTail := recLink s (s.group kern).cid d.spTail }, some d.spTail)
/-- pop_head and take_tail (R183). -/
def popHead (s : State) (k : Nat) : State × Option Nat :=
  match (s.core k).deque with
  | r :: rest => (s.modCore k (fun c => { c with deque := rest }), some r)
  | [] => takeChain s (s.core k).group k
def takeTail (s : State) (kern k : Nat) : State × Option Nat :=
  let d := s.deq kern k
  if d.spTail ≠ 0 then takeChain s kern k
  else match d.hw.reverse with
    | r :: rest => (s.setDeq kern k { d with hw := rest.reverse }, some r)
    | [] => (s, none)

/-- The victims of core k in quad-ring order, of its own group (R184). -/
def quadRing (g : List Nat) (k : Nat) : List Nat :=
  let q := k / 4
  (((upTo 3).map (fun i => 4 * q + (k + 1 + i) % 4)) ++ ((upTo 15).flatMap (fun j =>
    (upTo 4).map (fun i => 4 * ((q + j + 1) % 16) + i)))).filter (fun v => g.contains v)
/-- The first record that a sweep over victims takes. -/
def sweep (s : State) (kern : Nat) : List Nat → State × Option Nat
  | [] => (s, none)
  | v :: vs => match takeTail s kern v with
    | (s1, some r) => (s1, some r)
    | (s1, none) => sweep s1 kern vs
/-- STEAL's step (R188): a record lands at the core's own head. -/
def stealStep (s : State) (k : Nat) : State × Bool :=
  match sweep s (s.core k).group (quadRing (s.groupOf k).cores k) with
  | (s1, some r) => (pushHead s1 k r, true)
  | (s1, none) => (s1, false)

/-- The sequence table of the loop kernel of a group, reached at the stack dies (R364, R366). -/
def seqAddr (l : LoopRec) (r off : Nat) : Nat := l.seqt + 1024 + 256 * r + off
def seqGet (s : State) (cid : Nat) (a len : Nat) : Nat := (s.hubNat cid a len).getD 0
/-- Bytes that a die has written into its home L2 and that are not yet at the stack die are lost (R366). -/
def State.dropDirty (s : State) (pas : List Nat) : State :=
  pas.foldl (fun s pa =>
    let d := homeDie (pa / 64)
    let l := s.l2Line d (pa / 64)
    if sget false l.dirty (pa % 64) then s.setL2 d (pa / 64) { l with dirty := sset false l.dirty (pa % 64) false } else s) s
/-- A boundary writes a field that the device writes: what a tile has written there is lost (R366). -/
def State.devWrite (s : State) (cid va : Nat) (bs : List Byte) : State :=
  (s.dropDirty ((upTo bs.length).filterMap (fun i => s.devPa cid (va + i)))).hubWrite cid va bs
def seqPut (s : State) (cid : Nat) (a len v : Nat) : State := s.hubWrite cid a (leBytes len v)
/-- The READY bit of a lane is set (R364, R372). -/
def laneReady (s : State) (cid : Nat) (l : LoopRec) (j : Nat) : Bool := bitOf (seqGet s cid (l.seqt + 128 + j / 8) 1) (j % 8)
/-- Whether a pending result can arrive: a load, a STEAL, or a TRDY whose lane's READY bit is set. -/
def canArrive (s : State) (e : Entry) : Bool :=
  e.pend && (match e.eff with
    | .load _ _ _ _ _ => true
    | .predPending _ src =>
      if src = 0 then true
      else match (s.groupOf (e.unit / 4)).loop with
        | some l => laneReady s (s.groupOf (e.unit / 4)).cid l (src - 1)
        | none => false
    | _ => false)
/-- One pending result arrives (R44, R176): an LD takes its bytes; a STEAL acts once for the core, with one result on all its
tiles (R188); a TRDY acquires at `.pkg` on its tile and reports whether the job left SAMPLE[0] to commit (R372). -/
def arriveOne (s : State) (k : Nat) (e : Entry) : State :=
  if !(canArrive s e && (s.core k).inflight.contains e) then s
  else match e.eff with
  | .load _ _ _ _ _ =>
    let (s1, e') := arriveLoad s e
    s1.modCore k (fun c => { c with inflight := c.inflight.map (fun x => if x = e then e' else x) })
  | .predPending p src =>
    if src = 0 then
      let (s1, b) := stealStep s k
      s1.modCore k (fun c => { c with inflight := c.inflight.map (fun x =>
        if x.pend ∧ x.issue = e.issue ∧ x.slot = e.slot ∧ x.eff = e.eff then { x with eff := .pred p b, pend := false } else x) })
    else
      let g := s.groupOf k
      let b := match g.loop with
        | some l => decide (seqGet s g.cid (seqAddr l (nth 65535 l.lanes (src - 1)) 216) 1 % 4 = 0)
        | none => false
      (acquireAt s e.unit 4).modCore k (fun c => { c with inflight := c.inflight.map (fun x =>
        if x = e then { x with eff := .pred p b, pend := false } else x) })
  | _ => s
/-- Every pending result of the core that can arrive does, oldest first. -/
def arriveAll (s : State) (k : Nat) : State := (s.core k).inflight.foldl (fun s e => arriveOne s k e) s

end Sys2Proof.Machine
end

