-- ==== Sys2Proof/Machine/Trap.lean ====
section
/-! DEFINITION. Taking a trap (R47, R333, R339 to R346): one operation for every cause, with the fault records, the page
service's hold and the abandonment of a kernel; and the return from a handler (R349). -/
namespace Sys2Proof.Machine

/-- The active and the shadow plane of a core (R134). -/
def CoreRec.active (c : CoreRec) : Plane := if c.activeIs1 then c.plane1 else c.plane0
def CoreRec.shadow (c : CoreRec) : Plane := if c.activeIs1 then c.plane0 else c.plane1
def CoreRec.setActive (c : CoreRec) (p : Plane) : CoreRec := if c.activeIs1 then { c with plane1 := p } else { c with plane0 := p }
def CoreRec.setShadow (c : CoreRec) (p : Plane) : CoreRec := if c.activeIs1 then { c with plane0 := p } else { c with plane1 := p }

/-- TRAPORG for a trap point of core k (R154): KERN, SPL and ADDR through the splice map of a fused kernel. -/
def trapOrgOf (s : State) (k pc : Nat) : Nat :=
  let c := s.core k
  let m := sget [] (s.group c.group).origins k
  if m.isEmpty then bitsOf c.kernid.toNat 31 0 * 2 ^ 32 + pc
  else
    let lim := m.length
    let (kern, addr) := if pc < lim then nth (0, 0) m pc
      else let l := nth (0, 0) m (lim - 1); (l.1, min 2048 (l.2 + (pc - lim + 1)))
    kern * 2 ^ 32 + 65536 + addr

/-- The dies of a mask, and a mask of dies. -/
def diesOf (m : Nat) : List Nat := (upTo 4).filter (fun d => bitOf m d)
def maskOfDies (l : List Nat) : Nat := (upTo 4).foldl (fun m d => if l.contains d then m + 2 ^ d else m) 0

/-- What one die raised: its REASON with the walk fault's level and kind, and its ARG. -/
structure Raiser where
  die : Nat
  reason : Nat
  arg : Nat
  deriving DecidableEq, Repr

/-- The fault record of one die (R333). -/
def faultRecord (va kind reason level die core slot org when_ : Nat) : FaultRec :=
  leBytes 8 va ++ leBytes 1 kind ++ leBytes 1 reason ++ leBytes 1 level ++ leBytes 1 die ++ leBytes 1 core ++ leBytes 1 slot
  ++ leBytes 2 0 ++ leBytes 4 (org / 2 ^ 32) ++ leBytes 2 (bitsOf org 11 0) ++ leBytes 1 (bitsOf org 16 16) ++ leBytes 1 0
  ++ leBytes 8 when_
def raiserRecord (k slot org when_ : Nat) (r : Raiser) : FaultRec :=
  faultRecord r.arg (bitsOf r.reason 11 10) (bitsOf r.reason 7 0) (bitsOf r.reason 9 8) r.die k slot org when_

/-- The host reaches this device (R424): through its own bridge where EN is set, or over the management channel through the bridge device. -/
def State.hostPath (s : State) : Bool :=
  bitOf s.hub.bridge 0 || (decide (bitsOf s.hub.bridge 28 16 ≠ s.hub.selfid) && !(s.destFenced (bitsOf s.hub.bridge 28 16)))
/-- An interrupt to the host (R120, R376), where there is a path for it (R424). -/
def State.interrupt (s : State) (wanted : Bool) : State :=
  if wanted ∧ s.hostPath then { s with hub := { s.hub with irqs := s.hub.irqs + 1 } } else s
/-- A record goes to the host fault ring (R426): lost while FQBASE is 0. -/
def postFault (s : State) (r : FaultRec) : State :=
  let h := s.hub
  if h.fqbase = 0 ∨ !s.hostPath then s
  else { s with hub := { h with
    hostMem := putCells h.hostMem (cellsAt (h.fqbase + 32 * (h.fqhead % 128)) r)
    fqhead := (h.fqhead + 1) % 2 ^ 64 } }

/-- A packet's outcome is due (R120). -/
def State.pkt (s : State) (p : Nat) : Pkt := sget {} s.hub.pkts p
def State.setPkt (s : State) (p : Nat) (k : Pkt) : State := { s with hub := { s.hub with pkts := sset {} s.hub.pkts p k } }
def pktOutcome (s : State) (p status detail : Nat) : State :=
  let k := s.pkt p
  if k.outcome.isSome then s else s.setPkt p { k with outcome := some (status, detail) }

/-- A context with no group left goes from running to resident (R103). -/
def ctxSettle (s : State) (cid : Nat) : State :=
  let x := s.ctx cid
  if x.st = .running ∧ !(s.hub.groups.any (fun g => decide (g.2.cid = cid) && decide (g.2.st ≠ .retired) && decide (g.2.st ≠ .absent)))
  then s.setCtx cid { x with st := .resident } else s

/-- The shadow plane goes when it holds a section of the core's own kernel; a kernel that waits behind it keeps its load (R134, R137). -/
def CoreRec.dropOwnShadow (c : CoreRec) : CoreRec := if c.shadow.kern = c.group then c.setShadow {} else c
/-- A core leaves its kernel: idle, its planes empty but for one loaded for the next kernel; its tiles keep their registers (R142). -/
def CoreRec.vacate (c0 : CoreRec) : CoreRec :=
  let c := (c0.setActive {}).dropOwnShadow
  { c with st := .idle, secs := [], issue := none, inflight := [], hold := .none, holdQ := [], handler := none,
           deque := [], spTail := 0, spHead := 0, curRec := none, curAll := false, retired := false, benchFrom := none, benchOwed := [],
           kernelHstore := none, pendTrap := none, retLvl := none, haltedFrom := none, frozen := false, stepPending := false, bpSkip := false,
           lvls := c.lvls.map (fun l => (l.1, { l.2 with active := false })), occ := 0, drl := 0 }
/-- Waiting commands of a stopped kernel are dropped, with their claims on slots; running ones, and the transfers of the hub, complete
(R340). -/
def Tile.dropWaiting (t : Tile) : Tile :=
  let live := t.nodes.filter (fun n => decide (n.2.st = .running))
  let stays := fun (e : Nat) => decide (256 ≤ e) || decide ((t.getNode e).st = .running)
  { t with nodes := live
           resv := t.resv.filter (fun r => (t.getNode r.1).st = .running)
           slots := t.slots.map (fun p => (p.1, p.2.disown (p.2.owners.filter stays))) }
def dropTiles (s : State) (k : Nat) : State :=
  (upTo 4).foldl (fun s d => s.modTile (unitOf k d) Tile.dropWaiting) s

/-- The group of a kernel ends: its cores leave, its barrier objects go idle, and it is retired (R178, R314). -/
def groupEnd (s : State) (kern : Nat) : State :=
  let g := s.group kern
  let s1 := g.cores.foldl (fun s k => if (s.core k).group = kern then dropTiles (s.modCore k CoreRec.vacate) k else s) s
  (s1.setGroup kern { g with st := .retired, barriers := [], held := [], regroup := none, deques := [] })

/-- The kernel of core k is abandoned with a cause (R340): its records are posted, every core of the group stops, and its
packets complete with TRAPPED. -/
def abandon (s : State) (k cause : Nat) (recs : List FaultRec) : State :=
  let kern := (s.core k).group
  let g := s.group kern
  let s1 := recs.foldl postFault s
  let s2 := (groupEnd s1 kern).modGroup kern (fun g => { g with trapped := some cause })
  ctxSettle (g.pkts.foldl (fun s p => pktOutcome s p 9 cause) s2) g.cid

/-- Whether an interlocked result of the core is still pending. -/
def pendingLeft (s : State) (k : Nat) : Bool := (s.core k).inflight.any (fun e => e.pend)

/-- The handler store in force (R131, R343): the kernel's, or the context's, whose unloaded words are zero. -/
def CoreRec.store (c : CoreRec) : SMap Nat × Nat := c.kernelHstore.getD (c.hstore, 1024)
/-- The entry of a cause in the handler store. -/
def CoreRec.entryOf (c : CoreRec) (cause : Nat) : Nat := sget 0 c.store.1 cause % 1024

/-- The bundle in issue is dropped: nothing of it takes effect (R47). -/
def dropIssue (s : State) (k : Nat) : State :=
  let c := s.core k
  match c.issue with
  | none => s
  | some i =>
    let s1 := (upTo 4).foldl (fun s d => s.modTile (unitOf k d) (fun t => { t with walk := nth t.walk i.walks0 d })) s
    s1.setCore k { c with issue := none, lvls := i.lvls0 }

/-- The trap registers are written (R341). -/
def writeTrapRegs (s : State) (k cause slotInfo : Nat) (rs : List Raiser) : State :=
  let c := s.core k
  let r := rs.headD ⟨0, 0, 0⟩
  s.setCore k { c with
    cause := BitVec.ofNat 8 cause, reason := BitVec.ofNat 8 r.reason, trapPc := BitVec.ofNat 12 c.pc,
    trapInfo := BitVec.ofNat 64 (r.arg % 2 ^ 56 * 256 + maskOfDies (rs.map (·.die)) * 16 + slotInfo),
    trapOrg := BitVec.ofNat 64 (trapOrgOf s k c.pc) }

/-- The state slots that a result writes when it lands. -/
def Eff.slots : Eff → List Nat
  | .slotBytes z _ => [z]
  | .slotClear z => [z]
  | .scanPair _ z _ => [z, z + 1]
  | .scanEnd _ sloc z _ _ _ _ => if sloc then [z, z + 1] else []
  | _ => []
/-- A result that may not land yet: it writes a slot that a transfer owns (R278), or it is a scan row in a scratchpad bank that a
command reserves (R198, R264, R286). -/
def heldBack (s : State) (e : Entry) : Bool :=
  e.eff.slots.any (fun z => decide (((s.tile e.unit).getSlot z).st = .spilling)) || (match e.eff with
    | .scanPop r => (match r.src with
      | some q => [r.aA, r.aB].any (fun a => bankReserved (s.tile q) a 1)
      | none => false)
    | .scanPush _ _ _ _ _ toMem aA aB _ _ => !toMem && [aA, aB].any (fun a => bankReserved (s.tile e.unit) a 1)
    | _ => false)
/-- A result due at or before bundle m is held back: none lands before it may. -/
def landsLate (s : State) (k m : Nat) : Bool := (s.core k).inflight.any (fun e => decide (e.due ≤ m) && heldBack s e)
/-- The same for every result in flight, whatever bundle it is due at: a drain. -/
def drainsLate (s : State) (k : Nat) : Bool := (s.core k).inflight.any (heldBack s)

/-- The bundle in issue has issued a scan phase, on which other tiles may count (R258, R261). -/
def Issue.phased (i : Issue) : Bool := i.staged.any (fun e => match e.eff with
  | .scanState _ _ => true
  | _ => false)
/-- A stop meets a bundle in issue (R352, R356, R358): its slots that have issued stand ahead of the others where one of them is a scan
phase, its loads taking their bytes; else nothing of it has taken effect. -/
def stopIssue (s : State) (k : Nat) : State :=
  match (s.core k).issue with
  | some i => if i.phased then i.staged.foldl (fun s e => match e.eff with
      | .load _ _ _ _ _ =>
        let (s1, e') := arriveLoad s e
        s1.modCore k (fun c => { c with issue := c.issue.map (fun i => { i with staged := i.staged.map (fun x => if x = e then e' else x) }) })
      | _ => s) s else dropIssue s k
  | none => s
/-- Interlocked results that can arrive do, and what is due at or before the base lands, unless it may not yet (R352). -/
def settleBase (s : State) (k : Nat) : State :=
  let s1 := arriveAll s k
  if landsLate s1 k (s1.core k).bn then s1 else landUpTo s1 k (s1.core k).bn
/-- What arrives at a core that has stopped joins what it stands on: due at or before the base, it lands (R352). -/
def rebase (s : State) (k : Nat) : State := if (s.core k).frozen then settleBase s k else s
/-- A core stops for the debugger (R352, R358). A suspended core stays suspended (R156) and picks nothing up. -/
def haltCore (s : State) (k : Nat) : State :=
  (settleBase (stopIssue s k) k).modCore k (fun c => match c.st with
    | .suspended => { c with frozen := true, stepPending := false }
    | _ => { c with haltedFrom := some c.st, st := .halted, frozen := true, stepPending := false })
/-- A stepped core has advanced: it halts again (R359). -/
def stepEnd (s : State) (k : Nat) : State :=
  let c := s.core k
  if !c.stepPending then s
  else if c.haltedFrom.isSome then s.setCore k { c with frozen := true, stepPending := false }
  else haltCore s k
/-- The debugger halts every core of a context (R358): each freezes with its snapshot, its state kept for the continue. -/
def haltCtx (s : State) (cid : Nat) : State :=
  let s1 := s.cores.foldl (fun s p =>
    if p.2.cid ≠ cid ∨ p.2.st = .idle then s else if p.2.haltedFrom.isNone then haltCore s p.1 else s.modCore p.1 (fun c => { c with frozen := true })) s
  { s1 with hub := { s1.hub with haltCtx := some cid
                                 dhalts := if s.hub.haltCtx.isSome then s.hub.dhalts else (s.hub.dhalts + 1) % 65536 } }

/-- A trap of core k at its trap point (R47, R344): a trap in handler mode, or a cause without a handler, abandons the
kernel; a PAGE fault waits for its service; a BREAK of a breakpoint or BRK under an attached invasive debugger halts the context (R360);
any other cause enters its handler. All but the first wait until every pending interlocked result has arrived (R352, R419). `slotInfo` is TRAPINFO bits 3–0. -/
def takeTrap (s0 : State) (k cause slotInfo : Nat) (rs : List Raiser) : State :=
  let s := dropIssue s0 k
  let c := s.core k
  let org := trapOrgOf s k c.pc
  let recs := (rs.filter (fun r => bitOf r.reason 13)).map (raiserRecord k (slotInfo % 8) org s.ptime)
  if c.handler.isSome then abandon s k cause recs
  else
  let s1 := arriveAll s k
  if pendingLeft s1 k || landsLate s1 k c.bn then s1
  else if cause = cPAGE then
    (writeTrapRegs s1 k cause slotInfo rs).modCore k (fun c => { c with
      st := .stalled, pendTrap := none, benchFrom := none, benchOwed := [],
      hold := .page (slotInfo % 8) s.ptime (bitOf (s.ctx c.cid).split.toNat 0) (rs.map (fun r => (r.die, r.reason, r.arg))) })
  else if cause = cBREAK ∧ !(bitOf slotInfo 3) ∧ s.hub.dstate = 2 ∧ s.hub.attach ∧ s.hub.dctx = c.cid then
      haltCtx ((writeTrapRegs s1 k cause slotInfo rs).modCore k (fun c => { c with bpSkip := c.pendTrap.isNone, pendTrap := none, benchFrom := none, benchOwed := [] })) c.cid
    else if c.entryOf cause < 16 then abandon (writeTrapRegs s1 k cause slotInfo rs) k cause recs
    else
      let s2 := landUpTo s1 k c.bn
      let s3 := writeTrapRegs s2 k cause slotInfo rs
      s3.modCore k (fun c => { c with st := .trapped, handler := some (c.entryOf cause), benchFrom := none, benchOwed := [],
                                       pendTrap := none, hold := .none })

/-- TRAP_ENTRY as an event of a core: the cause, REASON, ARG, dies and slot it is given (R342, R344). -/
def execTrapEntry (core cause reason arg dmask slot : Nat) (s : State) : Host.Outcome State Fault Refusal :=
  if 64 ≤ core ∨ cause = 0 ∨ 14 < cause ∨ s.hub.stalled then .next s
  else .next (takeTrap s core cause slot ((diesOf dmask).map (fun d => ⟨d, reason, arg⟩)))

/-- ERET (R349): the program's registers and the sequencer are back, and every slot resumes at TRAPPC as bundle n. -/
def leaveHandler (s : State) (k : Nat) : State :=
  s.modCore k (fun c => { c with handler := none, st := .running, pc := c.trapPc.toNat,
                                 retLvl := if c.trapPc.toNat = c.pc then c.retLvl else none })

end Sys2Proof.Machine
end

