-- ==== Sys2Proof/Machine/Issue.lean ====
section
/-! DEFINITION. How an operation issues (R18, R25, R39 to R41, R44, R47, R62): on the tiles of the bundle in issue, on the
four tiles of a handler word, or on a Colt; and how a bundle opens, is checked, and ends (R33 to R35, R46, R49, R136, R242). -/
namespace Sys2Proof.Machine

/-- Whether an operation with a path tag issues under a leaf (R25). -/
def tagIssues (tag leaf : Nat) : Bool :=
  match tag with
  | 0 => true
  | 6 => decide (1 ≤ leaf) && decide (leaf ≤ 4)
  | t => decide (t = leaf)

/-- The dies on which the word of a slot issues. -/
def Issue.dies (i : Issue) (slot : Nat) : List Nat :=
  let tag := nth 0 i.words slot / 2 ^ 29 % 8
  (upTo 4).filter (fun d => tagIssues tag (nth 5 i.leaves d))

/-- The next slot from `i.slot` on whose word issues on some die, with its operation (R25). -/
def nextOp (i : Issue) : Option (Nat × Instr) :=
  (upTo 7).findSome? (fun sl =>
    if sl < i.slot then none
    else match decodeSlot sl (nth 0 i.words sl) with
      | .op _ op => if (i.dies sl).isEmpty then none else some (sl, op)
      | _ => none)

/-- A post as the entry it makes. -/
def Post.entry (p : Post) (n slot u : Nat) : Entry :=
  { due := n + p.lat, issue := n, slot := slot, unit := u, eff := p.eff, fl := p.fl, mx := p.mx, inter := p.inter, pend := p.pend, vg := p.vg }

/-- Two effects with one destination register of the interlocked kinds (R44, R176). A latch keeps each landing until the next one, in
whatever order they come (R37, R418). -/
def sameDest (slotA : Nat) (a : Eff) (slotB : Nat) (b : Eff) : Bool :=
  let dest (_slot : Nat) (e : Eff) : Nat × Nat :=
    match e with
    | .xreg r _ => (1, r)
    | .load r _ _ _ _ => (1, r)
    | .stride r _ => (1, r)
    | .pred p _ => (2, p)
    | .predPending p _ => (2, p)
    | .vec d _ _ => (if d < 40 then 3 else 0, d)
    | .remote d _ _ _ _ _ _ => (if d < 40 then 3 else 0, d)
    | .park vn _ _ _ _ => (3, vn)
    | .unpark vn _ => (3, vn)
    | _ => (0, 0)
  let x := dest slotA a
  let y := dest slotB b
  decide (x = y) && decide (x.1 ≠ 0)
/-- A result that would land in a pending destination waits for the arrival (R176). -/
def destPending (fl : List Entry) (es : List Entry) : Bool :=
  es.any (fun e => fl.any (fun f => f.pend && decide (f.unit = e.unit) && sameDest f.slot f.eff e.slot e.eff))
/-- An interlocked result that has arrived lands before a later write of its destination (R176). -/
def capArrived (es : List Entry) (fl : List Entry) : List Entry :=
  fl.map (fun f => if f.inter && !f.pend && es.any (fun e => decide (f.unit = e.unit) && decide (e.due < f.due)
      && sameDest f.slot f.eff e.slot e.eff) then { f with due := f.issue } else f)

/-- The operations of one slot word on the dies it issues on: what each die raises, whether one waits, and the entries. A word
waits before it traps: its causes are those of all its dies, at its issue (R42, R44, R342). -/
structure Ran where
  traps : List (Nat × Nat × Nat × Nat) := []
  wait : Bool := false
  held : Bool := false
  asks : List (Nat × Nat × Bool) := []
  entries : List Entry := []

/-- One operation that names a walker port in several operand fields pops it once (R36). -/
def onePop : List Nat → List Post → List Post
  | _, [] => []
  | seen, p :: ps => match p.eff with
    | .walkAdv port _ => if seen.contains port then onePop seen ps else p :: onePop (port :: seen) ps
    | _ => p :: onePop seen ps

def runOn (s : State) (k slot n : Nat) (single : Bool) (op : OpCtx → Res (List Post)) (dies : List Nat) : Ran :=
  dies.foldl (fun (r : Ran) d =>
    let u := unitOf k d
    match op { s := s, u := u, slot := slot, n := n, single := single } with
    | .ok ps => { r with entries := r.entries ++ (onePop [] ps).map (fun p => p.entry n slot u) }
    | .error .wait => { r with wait := true }
    | .error (.bank b m cmd) => { r with wait := true, asks := r.asks ++ [(b, m, cmd)] }
    | .error .hold => { r with wait := true, held := true }
    | .error (.trap c re a) => { r with traps := r.traps ++ [(d, c, re, a)] }) {}

/-- The trap of a slot word: the lowest die's cause, on every die that raised it; ILLEGAL and ILLEGAL_BUNDLE report the
slot word (R339, R342). -/
def trapOf (s : State) (k slot word : Nat) (ts : List (Nat × Nat × Nat × Nat)) : State :=
  match ts with
  | [] => s
  | (_, cause, _, _) :: _ =>
    takeTrap s k cause slot ((ts.filter (fun t => t.2.1 = cause)).map (fun t =>
      ⟨t.1, t.2.2.1, if cause = cILLEGAL ∨ cause = cILLEGAL_BUNDLE then word else t.2.2.2⟩))

/-- The word a handler runs. -/
def handlerWord (s : State) (k : Nat) : Nat :=
  let c := s.core k
  sget 0 c.store.1 (c.handler.getD 0)

/-- A load of the bundle in issue takes its bytes (R176). -/
def arriveStaged (s : State) (k : Nat) : State :=
  match (s.core k).issue with
  | none => s
  | some i => match i.staged.find? (fun e => e.pend && (match e.eff with
      | .load _ _ _ _ _ => true
      | _ => false)) with
    | none => s
    | some e =>
      let (s1, e') := arriveLoad s e
      s1.modCore k (fun c => { c with issue := some { i with staged := i.staged.map (fun x => if x = e then e' else x) } })
/-- A slot that waits: the oldest pending result of the core that can arrive does (R44, R176). -/
def arriveOldest (s : State) (k : Nat) : State :=
  match (s.core k).inflight.find? (canArrive s) with
  | some e => arriveOne s k e
  | none => arriveStaged s k
/-- The word that waits holds its core (R156): the core is stalled until the word issues, unless a result can arrive at once. -/
def slotWaits (s : State) (k : Nat) (held : Bool) : State :=
  if held && !(s.core k).inflight.any (canArrive s) then s.modCore k (fun c => { c with st := .stalled }) else arriveOldest s k

/-- The word of a slot that waits for banks takes its place among the requests of the tiles (R286). -/
def joinBanks (s : State) (k slot bn : Nat) (asks : List (Nat × Nat × Bool)) : State :=
  asks.foldl (fun s a => s.modTile a.1 (fun t =>
    let live := t.waits.filter (BankAsk.waits s)
    { t with waits := if live.any (fun r => decide (r.core = k) && decide (r.slot = slot) && decide (r.bn = bn) && decide (r.cmd = a.2.2)) then live
                      else live ++ [{ core := k, slot := slot, bn := bn, banks := a.2.1, cmd := a.2.2 }] })) s

/-- READY bit `lane` is set by an atomic OR (R371). -/
def setReady (s : State) (cid : Nat) (l : LoopRec) (lane : Nat) : State :=
  let a := l.seqt + 128 + lane / 8
  let s1 := match translate s 256 cid a 1 with
    | .ok (pa, _) => s.markAtomic (pa / 64)
    | .error _ => s
  seqPut s1 cid a 1 (Nat.lor (seqGet s cid a 1) (2 ^ (lane % 8)))
/-- A job faults (R405): JREP bit 1 and the lane's READY bit. -/
def jobFault (s : State) (j : Job) : State :=
  let g := s.group j.group
  match g.loop with
  | none => s
  | some l =>
    let r := nth 65535 l.lanes j.lane
    let a := seqAddr l r 216
    let s1 := if r < l.nseq then seqPut s g.cid a 1 (Nat.lor (seqGet s g.cid a 1) 2) else s
    setReady s1 g.cid l j.lane
/-- A trap on a Colt faults its job and leaves the trap registers to the firmware (R64). -/
def coltTrap (s : State) (c cause reason arg slot : Nat) : State :=
  let r := s.colt c
  let s1 := s.setColt c { r with running := false, job := none, cause := BitVec.ofNat 16 (reason % 256 * 256 + cause),
                                 trapPc := BitVec.ofNat 12 r.pc, trapInfo := BitVec.ofNat 64 (arg % 2 ^ 56 * 256 + slot) }
  match r.job with
  | some j => jobFault s1 j
  | none => s1

/-- Single-operation code applies its results at once (R345). -/
def applyNow (s : State) (es : List Entry) : State := es.foldl landEntry s

/-- What an operation does to the issue of its bundle beside its results. -/
abbrev Upd := State → Nat → List Nat → Issue → Issue
/-- What an operation does after its results in single-operation mode: to the core or Colt. -/
abbrev After := State → Nat → State
def nextWord (s : State) (k : Nat) : State := s.modCore k (fun c => { c with handler := c.handler.map (· + 1) })
def nextColt (s : State) (c : Nat) : State := s.modColt c (fun r => { r with pc := r.pc + 1 })

/-- An operation of a slot issues: `op` on each tile it issues on; `upd` on the bundle in issue; `aft` after a handler word,
`aftC` after a Colt word. An operation that is not the one in turn changes nothing. -/
def issueWith (s : State) (slot : Nat) (op : OpCtx → Res (List Post)) (upd : Upd := fun _ _ _ i => i)
    (aft : After := nextWord) (aftC : After := nextColt) : Out :=
  match s.turn with
  | .core k =>
    let c := s.core k
    if c.handler.isSome then
      let w := handlerWord s k
      let r := runOn s k slot c.bn true op [0, 1, 2, 3]
      if r.wait then .next (joinBanks s k slot c.bn r.asks)
      else if !r.traps.isEmpty then .next (trapOf s k slot w r.traps)
      else .next (stepEnd (aft (applyNow s r.entries) k) k)
    else match c.issue with
      | none => .next s
      | some i =>
        if !(i.brtDone && decide (i.slot = slot)) then .next s
        else
          let dies := i.dies slot
          let r := runOn s k slot c.bn false op dies
          if r.wait then .next (joinBanks (slotWaits s k r.held) k slot c.bn r.asks)
          else if !r.traps.isEmpty then .next (trapOf s k slot (nth 0 i.words slot) r.traps)
          else if destPending c.inflight r.entries then .next (arriveOldest s k)
          else .next (s.setCore k { c with st := .running,
                                           issue := some (upd s k dies { i with slot := slot + 1, staged := i.staged ++ r.entries }) })
  | .colt c =>
    let u := coltUnit c
    match op { s := s, u := u, slot := slot, n := 0, single := true } with
    | .ok ps => .next (aftC (applyNow s (ps.map (fun p => p.entry 0 slot u))) c)
    | .error .wait => .next s
    | .error (.bank _ _ _) => .next s
    | .error .hold => .next s
    | .error (.trap ca re a) =>
      .next (coltTrap s c ca re (if ca = cILLEGAL then nth 0 s.hub.routine (s.colt c).pc else a) slot)
  | _ => .next s

/-- An operation with results only. -/
def issueTiles (s : State) (slot : Nat) (op : OpCtx → Res (List Post)) : Out := issueWith s slot op

/-- The lead die's tile, or a Colt, which is its own. -/
def OpCtx.isLead (c : OpCtx) : Bool := c.isColt || decide (c.u = leadUnit c.k)

/-- Whether a bundle aligns all eight slots (R45). -/
def alignsAll (w7 : Nat) : Bool :=
  match decodeSlot 7 w7 with
  | .op _ (.tree al _ _ _ _) => decide (al = 1)
  | .op _ (.seq align _ _ _ _) => decide (align = 255)
  | _ => false

/-- The bundle checks of R46 and R242: the slot and the dies at fault. -/
def bundleChecks (s : State) (k : Nat) (words : Bundle) : Option (Nat × List Nat) :=
  let major (sl : Nat) := fieldOf (nth 0 words sl) 24 5
  let al := alignsAll (nth 0 words 7)
  if !al && (major 5 = 3 || major 5 = 4 || major 5 = 5) then some (5, [0, 1, 2, 3])
  else if !al && (major 6 = 10 || major 6 = 11) then some (6, [0, 1, 2, 3])
  else if major 3 = 16 ∨ major 3 = 17 then
    let bank? : Option Nat := match decodeSlot 4 (nth 0 words 4) with
      | .op _ (.acc _ b _ _) => some b
      | .op _ (.drain _ b _ _ _) => some b
      | .op _ (.acrd _ b _ _) => some b
      | .op _ (.acwr _ b _ _) => some b
      | .op _ (.mclr b _ _) => some b
      | _ => none
    match bank? with
    | none => none
    | some b =>
      let dies := (upTo 4).filter (fun d => let t := s.tile (unitOf k d); !t.pool && decide (t.abank = b))
      if dies.isEmpty then none else some (3, dies)
  else none
/-- The state after the bundle checks of a bundle whose BRT word has acted. -/
def checked (s : State) (k : Nat) (i : Issue) (ok : State) : State :=
  match bundleChecks s k i.words with
  | some (sl, dies) => takeTrap s k cILLEGAL_BUNDLE sl (dies.map (fun d => ⟨d, 0, nth 0 i.words sl⟩))
  | none => ok

/-- The first slot whose word is illegal (R47, R49). -/
def badSlot (words : Bundle) : Option Nat :=
  (upTo 8).find? (fun sl => match decodeSlot sl (nth 0 words sl) with
    | .nop => false
    | .op _ i => coltOnly i
    | .bad _ => true)

/-- A core that may issue: it has no hold, is not frozen, and no package-wide stall or fence is in force (R12, R434). A core
that a word of its bundle holds tries that word again (R156). -/
def canIssue (s : State) (c : CoreRec) : Bool :=
  !c.frozen && !s.hub.stalled && !s.hub.fenced && decide (c.hold = .none)
    && (if c.handler.isSome then decide (c.st = .trapped) else decide (c.st = .running ∨ c.st = .stalled))

/-- A core in a transfer phase waits for every core in phase with it that has not issued as many phase bundles, and for every core that
has completed the barrier and has still to issue its BARW (R293, log 105). -/
def benchWaits (s : State) (c : CoreRec) : Bool :=
  match c.benchFrom with
  | none => false
  | some f => s.cores.any (fun p => decide (p.2.group = c.group) && (p.2.benchOwed.contains c.benchId
    || decide (p.2.benchId = c.benchId) && (match p.2.benchFrom with
      | some g => decide (p.2.bn - g < c.bn - f)
      | none => false)))

/-- The breakpoint that matches the next bundle (R360). -/
def breakpointHit (s : State) (k : Nat) : Option Nat :=
  let c := s.core k
  let org := trapOrgOf s k c.pc
  if c.bpSkip then none
  else (upTo 8).find? (fun i => let b := sget {} c.bps i
    b.valid && decide (b.kern = org / 2 ^ 32) && decide (b.addr = bitsOf org 11 0))

/-- The walkers of the four tiles. -/
def walkersOf (s : State) (k : Nat) : List (SMap Walker) := (upTo 4).map (fun d => (s.tile (unitOf k d)).walk)
/-- Every port of the four tiles at a mark of level lvl (R196). -/
def markWalkers (s : State) (k : Nat) (f : Walker → Walker) : State :=
  (upTo 4).foldl (fun s d => s.modTile (unitOf k d) (fun t =>
    (upTo 8).foldl (fun t p => t.setWalk p (f (t.getWalk p))) t)) s

/-- BEG of a level acts (R33, R196). -/
def beginMark (s : State) (k lvl addr : Nat) : State :=
  (markWalkers s k (fun w => { w with idx := sset 0 w.idx lvl 0, a := 0 })).modCore k (fun c =>
    c.setLvl lvl { c.lvl lvl with active := true, beg := addr, idx := 0 })

/-- END of an active level (R33, R34, R196): the next address, the stride additions due at bundle `due`. -/
def finishMark (s : State) (k lvl fall n due : Nat) : State × Nat :=
  let c := s.core k
  let l := c.lvl lvl
  let loops := decide (l.idx < l.count.toNat)
  let s1 := markWalkers s k (fun w =>
    if loops then { w with idx := sset 0 w.idx lvl ((sget 0 w.idx lvl + 1) % ((sget 0#24 w.counts lvl).toNat + 1)), a := 0 }
    else { w with a := 0 })
  let strides := (upTo 4).flatMap (fun d => [(l.s0r, l.s0c), (l.s1r, l.s1c)].filterMap (fun p =>
    if p.1 = 0 then none
    else some ({ due := due, issue := n, slot := 7, unit := unitOf k d, eff := .stride p.1 p.2 } : Entry)))
  let s2 := s1.modCore k (fun c =>
    { c.setLvl lvl (if loops then { l with idx := l.idx + 1 } else { l with active := false }) with
      inflight := capArrived strides c.inflight ++ strides, retLvl := if loops then some lvl else none })
  (s2, if loops then l.beg else fall)

/-- A level binds a stride to a register that is pending: its END waits for the arrival, to which it adds (R34, R176). -/
def stridePending (s : State) (k lvl : Nat) : Bool :=
  let l := (s.core k).lvl lvl
  (s.core k).inflight.any (fun f => f.pend && [l.s0r, l.s1r].any (fun r => decide (r ≠ 0) && sameDest f.slot f.eff 7 (.stride r 0)))

/-- A bundle whose BRT word is a SEQ (R33, R35, R49): BEG, the LF test, and the bundle checks; a suppressed bundle then passes
with its marks and without a bundle number. -/
def seqAct (s : State) (k : Nat) (i : Issue) (lf lvl beg fin : Nat) : State :=
  let c := s.core k
  let s1 := if beg = 1 ∧ c.retLvl ≠ some lvl then beginMark s k lvl i.addr else s
  let l := (s1.core k).lvl lvl
  let first := decide (l.idx = 0)
  let last := decide (l.idx = l.count.toNat)
  let suppressed := l.active && (match lf with
    | 0 => false
    | 1 => !first
    | 2 => !last
    | _ => !(first || last))
  if suppressed then
    let s2 := s1.modCore k (fun c => { c with issue := none, retLvl := none })
    let (s3, pc) := if fin = 1 then finishMark s2 k lvl (i.addr + 1) c.bn c.bn else (s2, i.addr + 1)
    checked s1 k i (s3.modCore k (fun c => { c with pc := pc }))
  else if fin = 1 ∧ !l.active then
    takeTrap s1 k cILLEGAL_BUNDLE 7 ([0, 1, 2, 3].map (fun d => ⟨d, 0, nth 0 i.words 7⟩))
  else
    let i' := { i with brtDone := true, fin := if fin = 1 then some lvl else none }
    checked s1 k i (s1.modCore k (fun c => { c with issue := some i' }))

/-- The next bundle of a running core opens: the landings due at it (R39, R43), a trap that TRAP or BRK has left for it
(R348), its breakpoint (R360), PLANE_END (R136), its decode checks (R49), its bundle checks. Every bundle is checked, one that LF
will suppress too (R49). -/
def openBundle (s0 : State) (k : Nat) : State :=
  if landsLate s0 k (s0.core k).bn || benchWaits s0 (s0.core k) then s0 else
  let s := landUpTo s0 k (s0.core k).bn
  let c := s.core k
  match c.pendTrap with
  | some (cause, info, syn, dies) => takeTrap s k cause (if syn then 8 else if cause = cILLEGAL then 5 else 0) (dies.map (fun d => ⟨d, 0, info⟩))
  | none =>
  match breakpointHit s k with
  | some b => takeTrap s k cBREAK 0 ([0, 1, 2, 3].map (fun d => ⟨d, 0, 256 + b⟩))
  | none =>
  if c.active.code.length ≤ c.pc then takeTrap s k cPLANE_END 0 [⟨k % 4, 0, c.pc⟩]
  else
    let words := nth [] c.active.code c.pc
    let i : Issue := { addr := c.pc, words := words, next := c.pc + 1, lvls0 := c.lvls, walks0 := walkersOf s k }
    let s1 := s.setCore k { c with issue := some i, bpSkip := false, st := .running }
    match badSlot words with
    | some sl => takeTrap s1 k cILLEGAL sl ([0, 1, 2, 3].map (fun d => ⟨d, 0, nth 0 words sl⟩))
    | none =>
      if nth 0 words 7 = 0 then
        checked s1 k i (s1.setCore k { c with issue := some { i with brtDone := true }, bpSkip := false, st := .running })
      else s1

/-- Stride additions and fixed-latency results of the bundle that ends are put in flight, after arrived interlocked results
they would overtake have been brought forward (R176). -/
def stage (c : CoreRec) (es : List Entry) : CoreRec := { c with inflight := capArrived es c.inflight ++ es }

/-- The core takes holds, one after the other; without one it goes on. -/
def CoreRec.holdAll (c : CoreRec) (hs : List Hold) : CoreRec :=
  match hs with
  | [] => c
  | h :: rest => { c with hold := h, holdQ := rest, st := .stalled }
/-- The hold in force ends: the next one is taken, or the core runs again; a halted core does so once it is continued. -/
def CoreRec.unhold (c : CoreRec) : CoreRec :=
  match c.holdQ with
  | [] => { c with hold := .none }.enter .running
  | h :: rest => { c with hold := h, holdQ := rest }.enter .stalled
/-- The holds of one bundle in the order they are waited for: ACQ, REL and FENCE complete beside any other wait, and before a
suspension (R186, R310). -/
def holdOrder (hs : List Hold) : List Hold :=
  let sync : Hold → Bool := fun h => match h with
    | .sync _ _ _ => true
    | _ => false
  hs.filter sync ++ hs.filter (fun h => !sync h)

/-- END or PLSW has issued: the active plane drains (R134). -/
def CoreRec.drains (c : CoreRec) : CoreRec := c.setActive { c.active with st := .draining }
/-- A bundle ends: its staged effects take place, its results are in flight, its END mark acts, and fetch goes on (R161). -/
def endBundle (s : State) (k : Nat) : State :=
  let c := s.core k
  match c.issue with
  | none => s
  | some i =>
    let n := c.bn
    let now := i.staged.filter (fun e => decide (e.due ≤ n))
    let later := i.staged.filter (fun e => !(decide (e.due ≤ n)))
    let s1 := s.setCore k { stage c later with issue := none, retLvl := none, benchOwed := if i.leavesPhase then [] else c.benchOwed }
    let s2 := now.foldl landEntry s1
    let (s3, fall) := match i.fin with
      | some lvl => finishMark s2 k lvl i.next n (n + 1)
      | none => (s2, i.next)
    let top := (sget 0 c.rstk (c.rdepth - 1)).toNat
    let s4 := s3.modCore k (fun d => match i.action with
      | .call => { d with pc := i.next, rstk := sset 0 d.rstk d.rdepth (BitVec.ofNat 12 (i.addr + 1)), rdepth := d.rdepth + 1,
                          retLvl := none }
      | .ret => { d with pc := top, rdepth := d.rdepth - 1, retLvl := none }
      | .kend => ({ d with pc := i.addr + 1, benchFrom := none, benchOwed := [] }).drains
      | .swap => ({ d with pc := fall, benchFrom := none, benchOwed := [] }).drains
      | .halt => { d with pc := fall }
      | .none => { d with pc := fall })
    let drain : List Hold := match i.action with
      | .kend => [.endDrain]
      | .swap => [.plswDrain]
      | .halt => [.haltDrain]
      | _ => []
    stepEnd (s4.modCore k (fun d => ({ d with bn := n + 1, pendTrap := i.post.or d.pendTrap, benchFrom := if i.leavesPhase then none else d.benchFrom }).holdAll (holdOrder (i.after ++ drain)))) k

end Sys2Proof.Machine
end

