-- ==== Sys2Proof/Machine/Control.lean ====
section
/-! DEFINITION. The branch tree and the sequencer marks, the control-flow, loop, predicate, system-register and trap
instructions of CTL, and the drains that end HALT, END and PLSW (R26 to R35, R136, R142, R143, R161 to R171, R347 to R350). -/
namespace Sys2Proof.Machine

/-- One test of a TREE (R26). -/
def treeTest (c : OpCtx) (t : Nat) : Res Bool := do
  let b ← rp c (t % 64)
  .ok (b != decide (t / 64 % 2 = 1))
/-- The leaf a tile takes (R27). -/
def treeLeaf (c : OpCtx) (t1 t2 t3 t4 : Nat) : Res Nat := do
  if ← treeTest c t1 then .ok 1
  else if ← treeTest c t2 then .ok 2
  else if ← treeTest c t3 then .ok 3
  else if ← treeTest c t4 then .ok 4
  else .ok 5
/-- The redirect of a leaf (R27). -/
def leafTarget (s : State) (u leaf : Nat) : Option Nat :=
  if leaf ≤ 4 ∧ (s.armOf u).getLsbD (leaf - 1) then some (s.readBt u (leaf - 1)).toNat else none

/-- The control action of a CTL operation and the address it gives, for the comparison of R161. SUSP and YIELD are none of the operations
of its table, so their address is the armed target or the next one; that they differ from not issuing is R188. -/
def ctlAction (s : State) (k : Nat) (i : Instr) (next : Nat) : Nat × Nat :=
  match i with
  | .kend => (1, 0)
  | .plsw => (2, 0)
  | .halt => (3, next)
  | .call addr => (4, addr)
  | .ret => (5, (s.rstkGet (leadUnit k) (s.rdepthOf (leadUnit k) - 1)).toNat)
  | .susp => (6, next)
  | .yield_ => (7, next)
  | .commit => (8, 0)
  | _ => (0, next)

/-- A tree in a bundle (R27, R29, R161): the leaves, the comparison of the four fetch outcomes, the bundle checks. -/
def treeBundle (s : State) (k t1 t2 t3 t4 : Nat) (i : Issue) : Out :=
  let c := s.core k
  let leaf (d : Nat) := treeLeaf { s := s, u := unitOf k d, slot := 7, n := c.bn, single := false } t1 t2 t3 t4
  match (upTo 4).mapM leaf with
  | .error e => .next (slotWaits s k (decide (e = .hold)))
  | .ok leaves =>
    let outcome (d : Nat) : Nat × Nat :=
      let next := (leafTarget s (unitOf k d) (nth 5 leaves d)).getD (i.addr + 1)
      match decodeSlot 0 (nth 0 i.words 0) with
      | .op tag op => if tagIssues tag (nth 5 leaves d) then ctlAction s k op next else (0, next)
      | _ => (0, next)
    let lead := outcome (k % 4)
    let differ := (upTo 4).filter (fun d => decide (outcome d ≠ lead))
    if differ.isEmpty then
      let i' := { i with leaves := leaves, brtDone := true, next := lead.2 }
      let i'' := if lead.1 = 0 ∨ lead.1 = 3 then i' else
        { i' with next := (leafTarget s (unitOf k (k % 4)) (nth 5 leaves (k % 4))).getD (i.addr + 1) }
      .next (checked s k i (s.setCore k { c with st := .running, issue := some i'' }))
    else
      let sl := if differ.any (fun d => decide ((outcome d).1 ≠ lead.1)) then 0 else 7
      .next (takeTrap s k cILLEGAL_BUNDLE sl (differ.map (fun d => ⟨d, 0, nth 0 i.words sl⟩)))

/-- A single-operation tree in handler mode (R62, R345). -/
def treeHandler (s : State) (k t1 t2 t3 t4 : Nat) : Out :=
  let c := s.core k
  let leaf (d : Nat) := treeLeaf { s := s, u := unitOf k d, slot := 7, n := c.bn, single := true } t1 t2 t3 t4
  match (upTo 4).mapM leaf with
  | .error _ => .next s
  | .ok leaves =>
    let target (d : Nat) := leafTarget s (unitOf k d) (nth 5 leaves d)
    if (upTo 4).any (fun d => decide (target d ≠ target 0)) then
      .next (takeTrap s k cILLEGAL_BUNDLE 7 ([0, 1, 2, 3].map (fun d => ⟨d, 0, handlerWord s k⟩)))
    else match target 0 with
      | some a => .next (stepEnd (s.modCore k (fun c => { c with handler := some a })) k)
      | none => .next (stepEnd (nextWord s k) k)

/-- TREE (R27). -/
def execTree (al t1 t2 t3 t4 : Nat) (s : State) : Out :=
  match s.turn with
  | .core k =>
    if (s.core k).handler.isSome then treeHandler s k t1 t2 t3 t4
    else match (s.core k).issue with
      | some i => if i.brtDone || decide (2 ≤ al) then .next s else treeBundle s k t1 t2 t3 t4 i
      | none => .next s
  | .colt c =>
    let u := coltUnit c
    match treeLeaf { s := s, u := u, slot := 7, n := 0, single := true } t1 t2 t3 t4 with
    | .error _ => .next s
    | .ok leaf => match leafTarget s u leaf with
      | some a => .next (s.modColt c (fun r => { r with pc := a }))
      | none => .next (nextColt s c)
  | _ => .next s

/-- SEQ (R33 to R35): it exists in bundles only. Its ALIGN bits change cycles only (R40, R45). -/
def execSeq (align lf lvl beg fin : Nat) (s : State) : Out :=
  match s.turn with
  | .core k => match (s.core k).issue with
    | some i =>
      if i.brtDone || decide (256 ≤ align) then .next s
      else if fin = 1 ∧ (((s.core k).lvl lvl).active || decide (beg = 1)) ∧ stridePending s k lvl then .next (arriveOldest s k)
      else .next (seqAct s k i lf lvl beg fin)
    | none => .next s
  | _ => .next s

/-- Nothing is read and nothing lands. -/
def opNone (_ : OpCtx) : Res (List Post) := .ok []

/-- A Colt's job ends at HALT (R405). -/
def coltStop (s : State) (c : Nat) : State := s.modColt c (fun r => { r with running := false, job := none, pc := r.pc + 1 })
/-- HALT (R167); in a handler the core halts still trapped, and goes on at the next word. -/
def execHalt (s : State) : Out :=
  issueWith s 0 opNone (fun _ _ _ i => { i with action := .halt })
    (fun s k => (nextWord s k).modCore k (fun c => { c with st := .halted, haltedFrom := some .trapped })) coltStop

/-- END (R142). -/
def execKend (s : State) : Out := issueWith s 0 opNone (fun _ _ _ i => { i with action := .kend })
/-- PLSW (R143): PLANE_END without a further section, which names the lead die (R136). -/
def opPlsw (c : OpCtx) : Res (List Post) :=
  if !c.isLead || decide (c.core.active.sec + 1 < c.core.secs.length) then .ok [] else raise cPLANE_END c.core.pc
def execPlsw (s : State) : Out := issueWith s 0 opPlsw (fun _ _ _ i => { i with action := .swap })

/-- BTGT (R165). -/
def execBtgt (j addr : Nat) (s : State) : Out :=
  issueTiles s 0 (fun _ => .ok [{ lat := 1, eff := .bt j (BitVec.ofNat 12 addr) }])
/-- CALL (R166); on a Colt it acts on the Colt's own store. -/
def opCall (c : OpCtx) : Res (List Post) := check (c.s.rdepthOf c.u < 16) cRSTK_OVF 0 >>= fun _ => .ok []
def execCall (addr : Nat) (s : State) : Out :=
  issueWith s 0 opCall (fun _ _ _ i => { i with action := .call, next := addr }) nextWord
    (fun s c => s.modColt c (fun r =>
      { r with rstk := sset 0 r.rstk r.rdepth (BitVec.ofNat 12 (r.pc + 1)), rdepth := r.rdepth + 1, pc := addr }))
/-- RET (R166). -/
def opRet (c : OpCtx) : Res (List Post) := check (0 < c.s.rdepthOf c.u) cRSTK_EMPTY 0 >>= fun _ => .ok []
def execRet (s : State) : Out :=
  issueWith s 0 opRet (fun _ _ _ i => { i with action := .ret }) nextWord
    (fun s c => s.modColt c (fun r => { r with rdepth := r.rdepth - 1, pc := (sget 0 r.rstk (r.rdepth - 1)).toNat }))

/-- The LOOP forms (R168, R169): read and effective on the lead die only. -/
def opLoop (lvl xc : Nat) (which : Option Nat) (xr : Nat) (c : OpCtx) : Res (List Post) := do
  if !c.isLead then .ok []
  else
    let v ← rx c xc
    match which with
    | none => .ok [{ lat := 1, eff := .loopCount lvl (v.setWidth 24) }]
    | some w => .ok [{ lat := 1, eff := .loopStride lvl w xr v }]
def execLoop (lvl xc : Nat) (s : State) : Out := issueTiles s 0 (opLoop lvl xc none 0)
def execLoopS0 (lvl xc xr : Nat) (s : State) : Out := issueTiles s 0 (opLoop lvl xc (some 0) xr)
def execLoopS1 (lvl xc xr : Nat) (s : State) : Out := issueTiles s 0 (opLoop lvl xc (some 1) xr)

/-- cmp of R171 on 64-bit patterns. -/
def scmp (cc : Nat) (a b : DWord) : Bool :=
  match cc with
  | 0 => a == b
  | 1 => a != b
  | 2 => decide (a.toInt < b.toInt)
  | 3 => decide (b.toInt ≤ a.toInt)
  | 4 => decide (a.toNat < b.toNat)
  | _ => decide (b.toNat ≤ a.toNat)
/-- plog of R171. -/
def plogOp (o : Nat) (a b : Bool) : Bool :=
  match o with
  | 0 => a && b
  | 1 => a || b
  | 2 => a != b
  | 3 => a && !b
  | 4 => a || !b
  | 5 => !(a && b)
  | _ => !(a || b)
/-- A predicate lands at n + 1 (R171). -/
def predPost (pd : Nat) (b : Bool) : List Post := [{ lat := 1, eff := .pred pd b }]
def opScmp (pd xa xb cc : Nat) (c : OpCtx) : Res (List Post) := do
  let a ← rx c xa
  let b ← rx c xb
  .ok (predPost pd (scmp cc a b))
def opScmpi (pd xa cc imm : Nat) (c : OpCtx) : Res (List Post) := do
  let a ← rx c xa
  .ok (predPost pd (scmp cc a (wrap64 (sextNat imm 9))))
def opPlog (pd pa pb o : Nat) (c : OpCtx) : Res (List Post) := do
  let a ← rp c pa
  let b ← rp c pb
  .ok (predPost pd (plogOp o a b))
def opPmov (pd pa : Nat) (c : OpCtx) : Res (List Post) := do
  let a ← rp c pa
  .ok (predPost pd a)
def execScmp (pd xa xb cc : Nat) (s : State) : Out := issueTiles s 0 (opScmp pd xa xb cc)
def execScmpi (pd xa cc imm : Nat) (s : State) : Out := issueTiles s 0 (opScmpi pd xa cc imm)
def execPlog (pd pa pb o : Nat) (s : State) : Out := issueTiles s 0 (opPlog pd pa pb o)
def execPmov (pd pa : Nat) (s : State) : Out := issueTiles s 0 (opPmov pd pa)
def execPseti (pd v : Nat) (s : State) : Out := issueTiles s 0 (fun _ => .ok (predPost pd (decide (v = 1))))

/-- The system registers of a Colt (R162). -/
def coltCsr (num : Nat) : Bool :=
  [0x000, 0x001, 0x002, 0x008, 0x010, 0x011, 0x012, 0x013, 0x040, 0x041, 0x042, 0x050, 0x051].contains num
def csrHere (c : OpCtx) (num : Nat) : Res Unit := check (!c.isColt || coltCsr num) cILLEGAL 0
/-- CSRR (R163). -/
def opCsrr (xd num : Nat) (c : OpCtx) : Res (List Post) := do
  csrHere c num
  .ok [{ lat := 2, eff := .xreg xd (BitVec.ofNat 64 (csrValue c.s c.u num)) }]
/-- CSRW and CSRS (R163). -/
def opCsrw (xs num : Nat) (setOnly : Bool) (c : OpCtx) : Res (List Post) := do
  csrHere c num
  let v ← rx c xs
  .ok [{ lat := 1, eff := .csr num v setOnly }]
def execCsrr (xd csr : Nat) (s : State) : Out := issueTiles s 0 (opCsrr xd csr)
def execCsrw (xs csr : Nat) (s : State) : Out := issueTiles s 0 (opCsrw xs csr false)
def execCsrs (xs csr : Nat) (s : State) : Out := issueTiles s 0 (opCsrw xs csr true)

/-- TRAP and BRK (R348): taken at the next bundle, on every die on which they issued; in handler mode they abandon the
kernel (R346), and on a Colt they fault the job (R64). -/
def raiseNext (s : State) (cause info : Nat) (syn : Bool) : Out :=
  let bits := if syn then 8 else 0
  issueWith s 0 opNone (fun _ _ dies i => { i with post := some (cause, info, syn, dies) })
    (fun s k => takeTrap (nextWord s k) k cause bits ([0, 1, 2, 3].map (fun d => ⟨d, 0, info⟩)))
    (fun s c => coltTrap (nextColt s c) c cause 0 info bits)
def execTrap (code info : Nat) (s : State) : Out := raiseNext s code info true
def execBrk (info : Nat) (s : State) : Out := raiseNext s cBREAK info false

/-- ERET (R349): ILLEGAL outside handler mode. -/
def opEret (c : OpCtx) : Res (List Post) := check (c.single && !c.isColt) cILLEGAL 0 >>= fun _ => .ok []
def execEret (s : State) : Out := issueWith s 0 opEret (fun _ _ _ i => i) leaveHandler

/-- RSTKR (R350). -/
def opRstkr (xd idx : Nat) (c : OpCtx) : Res (List Post) :=
  let u := if c.isColt then c.u else leadUnit c.k
  .ok [{ lat := 1, eff := .xreg xd (BitVec.ofNat 64 ((c.s.rstkGet u idx).toNat + c.s.rdepthOf u * 65536)) }]
/-- RSTKW (R350): read, checked and effective on the lead die only. -/
def opRstkw (xs idx : Nat) (c : OpCtx) : Res (List Post) := do
  if !c.isLead then .ok []
  else
    let v ← rx c xs
    check (v.getLsbD 62 || decide (bitsOf v.toNat 11 0 ≤ 2048)) cILLEGAL 0
    check (!(v.getLsbD 63) || decide (bitsOf v.toNat 20 16 ≤ 16)) cILLEGAL 0
    .ok [{ lat := 1, eff := .rstk idx v }]
def execRstkr (xd idx : Nat) (s : State) : Out := issueTiles s 0 (opRstkr xd idx)
def execRstkw (xs idx : Nat) (s : State) : Out := issueTiles s 0 (opRstkw xs idx)

/-- Everything of a core in flight lands, if every interlocked result can arrive and none of them is held
back (R142, R167, R186, R278). -/
def drainCore (s : State) (k : Nat) : Option State :=
  let s1 := arriveAll s k
  if pendingLeft s1 k || drainsLate s1 k then none else some (landAll s1 k)
/-- No engine node of the core is waiting or running (R142). -/
def nodesIdle (s : State) (k : Nat) : Bool := (upTo 4).all (fun d => (s.tile (unitOf k d)).nodes.all (fun n => decide (n.2.st = .idle)))
/-- No remote request of the core is outstanding (R186, R418): every posted write has reached its home. -/
def remoteIdle (s : State) (k : Nat) : Bool := s.hub.reqs.all (fun r => decide (r.unit / 4 ≠ k) || decide (256 ≤ r.unit))
/-- The active bits of the sequencer are cleared (R142, R143). -/
def clearLevels (c : CoreRec) : CoreRec := { c with lvls := c.lvls.map (fun l => (l.1, { l.2 with active := false })) }

/-- HALT's drain ends (R167). -/
def execHaltDrainDone (core : Nat) (s : State) : Out :=
  let c := s.core core
  if c.hold ≠ .haltDrain ∨ c.frozen ∨ s.hub.stalled then .next s
  else match drainCore s core with
    | none => .next s
    | some s1 => .next (s1.modCore core (fun c => { c with hold := .none, st := .halted, haltedFrom := some .running }))

/-- A core has left: the objects of its instances that an event has met are arriving, and are tested (R314). -/
def retestBarriers (s : State) (kern k : Nat) : State :=
  (s.group kern).barriers.foldl (fun s p => if keyHas p.1 k then s.barMod kern p.1 (fun b => b) else s) s
/-- A core retires by END (R142): its plane empties, its tiles leave their barrier objects, and
its deque stays with the group (R184). -/
def retireCore (s : State) (k : Nat) : State :=
  let kern := (s.core k).group
  let s1 := s.modCore k (fun c => clearLevels { c.setActive {} with st := .idle, hold := .none, issue := none, retired := true,
                                                                     benchFrom := none, benchOwed := [], handler := none, retLvl := none })
  let c := s.core k
  let d : Deq := { hw := c.deque, spTail := c.spTail, spHead := c.spHead }
  let s2 := s1.modCore k (fun c => { c with deque := [], spTail := 0, spHead := 0 })
  retestBarriers (s2.modGroup kern (fun g =>
    { g with left := if g.left.contains k then g.left else g.left ++ [k], deques := sset {} g.deques k d })) kern k
/-- END's drain ends (R142). -/
def execEndDrainDone (core : Nat) (s : State) : Out :=
  let c := s.core core
  if c.hold ≠ .endDrain ∨ c.frozen ∨ s.hub.stalled then .next s
  else match drainCore s core with
    | none => .next s
    | some s1 => if nodesIdle s1 core then .next (retireCore s1 core) else .next s

/-- The next section enters the plane just emptied (R143). -/
def loadSection (c : CoreRec) (sec : Nat) : CoreRec :=
  if sec < c.secs.length then
    c.setShadow { st := .loading, sec := sec, kern := bitsOf c.kernid.toNat 31 0, code := nth [] c.secs sec }
  else c.setShadow {}
/-- PLSW completes (R143): the planes swap once everything has landed and the next section is there. -/
def execPlaneSwap (core : Nat) (s : State) : Out :=
  let c := s.core core
  if c.hold ≠ .plswDrain ∨ c.frozen ∨ s.hub.stalled ∨ c.shadow.st ≠ .shadowReady ∨ c.shadow.sec ≠ c.active.sec + 1 then .next s
  else match drainCore s core with
    | none => .next s
    | some s1 => .next (s1.modCore core (fun c =>
        let c1 := c.setShadow { c.shadow with st := .active }
        let c2 := clearLevels { c1 with activeIs1 := !c1.activeIs1 }
        loadSection { c2 with hold := .none, st := .running, pc := 0, retLvl := none } (c2.active.sec + 1)))

/-- A section is loaded (R134, R135): the planes of the cores that one C-die leads load one after another in ascending order. -/
def execPlaneLoadDone (core : Nat) (s : State) : Out :=
  let c := s.core core
  let lower := (upTo (core / 4)).any (fun q => decide ((s.core (4 * q + core % 4)).shadow.st = .loading))
  if c.shadow.st = .loading ∧ !lower ∧ !s.hub.stalled then .next (s.setCore core (c.setShadow { c.shadow with st := .shadowReady })) else .next s

/-- Results due land (R39, R43). -/
def execResultLanding (core : Nat) (s : State) : Out :=
  let c := s.core core
  if c.issue.isSome ∨ c.handler.isSome ∨ c.frozen ∨ s.hub.stalled ∨ landsLate s core c.bn then .next s else .next (landUpTo s core c.bn)
/-- The oldest pending load takes its bytes and arrives (R44, R176). -/
def execInterlockedArrival (core : Nat) (s : State) : Out := .next (s.unlessStalled (rebase (arriveOldest s core) core))

end Sys2Proof.Machine
end

