-- ==== Sys2Proof/Machine/Scalar.lean ====
section
/-! DEFINITION. The scalar arithmetic, loads and stores of INT (R172 to R176), and ACQ, REL and FENCE (R304, R309, R310). -/
namespace Sys2Proof.Machine

/-- A scalar result (R157, R173). -/
def xPost (xd lat : Nat) (v : DWord) : List Post := [{ lat := lat, eff := .xreg xd v }]
/-- A three-register operation of R173. -/
def opInt (xd xa xb lat : Nat) (f : DWord → DWord → DWord) (c : OpCtx) : Res (List Post) := do
  let a ← rx c xa
  let b ← rx c xb
  .ok (xPost xd lat (f a b))
/-- The high half of the signed product (R173). -/
def mulhOp (a b : DWord) : DWord := wrap64 (a.toInt * b.toInt / 2 ^ 64)
/-- The shifts take bits 5–0 of xB (R173). -/
def shlOp (a b : DWord) : DWord := a <<< (b.toNat % 64)
def shrOp (a b : DWord) : DWord := a >>> (b.toNat % 64)
def sraOp (a b : DWord) : DWord := a.sshiftRight (b.toNat % 64)
def minOp (a b : DWord) : DWord := if a.toInt ≤ b.toInt then a else b
def maxOp (a b : DWord) : DWord := if b.toInt ≤ a.toInt then a else b
def execAdd (xd xa xb : Nat) (s : State) : Out := issueTiles s 1 (opInt xd xa xb 1 (· + ·))
def execSub (xd xa xb : Nat) (s : State) : Out := issueTiles s 1 (opInt xd xa xb 1 (· - ·))
def execMul (xd xa xb : Nat) (s : State) : Out := issueTiles s 1 (opInt xd xa xb 3 (· * ·))
def execMulh (xd xa xb : Nat) (s : State) : Out := issueTiles s 1 (opInt xd xa xb 3 mulhOp)
def execAnd (xd xa xb : Nat) (s : State) : Out := issueTiles s 1 (opInt xd xa xb 1 (· &&& ·))
def execOr (xd xa xb : Nat) (s : State) : Out := issueTiles s 1 (opInt xd xa xb 1 (· ||| ·))
def execXor (xd xa xb : Nat) (s : State) : Out := issueTiles s 1 (opInt xd xa xb 1 (· ^^^ ·))
def execShl (xd xa xb : Nat) (s : State) : Out := issueTiles s 1 (opInt xd xa xb 1 shlOp)
def execShr (xd xa xb : Nat) (s : State) : Out := issueTiles s 1 (opInt xd xa xb 1 shrOp)
def execSra (xd xa xb : Nat) (s : State) : Out := issueTiles s 1 (opInt xd xa xb 1 sraOp)
def execMin (xd xa xb : Nat) (s : State) : Out := issueTiles s 1 (opInt xd xa xb 1 minOp)
def execMax (xd xa xb : Nat) (s : State) : Out := issueTiles s 1 (opInt xd xa xb 1 maxOp)
/-- ADDI (R173). -/
def opAddi (xd xa imm : Nat) (c : OpCtx) : Res (List Post) := do
  let a ← rx c xa
  .ok (xPost xd 1 (a + wrap64 (sextNat imm 14)))
def execAddi (xd xa imm : Nat) (s : State) : Out := issueTiles s 1 (opAddi xd xa imm)
/-- LUI (R173). -/
def execLui (xd imm : Nat) (s : State) : Out :=
  issueTiles s 1 (fun _ => .ok (xPost xd 1 (wrap64 (sextNat imm 19 * 8192))))
/-- SEL (R173). -/
def opSel (xd xa xb ps : Nat) (c : OpCtx) : Res (List Post) := do
  let a ← rx c xa
  let b ← rx c xb
  let p ← rp c ps
  .ok (xPost xd 1 (if p then a else b))
def execSel (xd xa xb ps : Nat) (s : State) : Out := issueTiles s 1 (opSel xd xa xb ps)
/-- DSEL reads the register of the reading tile (R173). -/
def opDsel (xd xa : Nat) (c : OpCtx) : Res (List Post) := do
  let a ← rx c (xa + c.die)
  .ok (xPost xd 1 a)
def execDsel (xd xa : Nat) (s : State) : Out := issueTiles s 1 (opDsel xd xa)

/-- The bytes of an access width (R174). -/
def widthOf (w : Nat) : Nat :=
  match w with
  | 0 => 1
  | 1 => 2
  | 2 => 4
  | 3 => 8
  | 4 => 1
  | 5 => 2
  | _ => 4
/-- The address of LD and ST (R175). -/
def memAddr (x : DWord) (off : Nat) : Nat := (x + wrap64 (sextNat off 11)).toNat
/-- LD (R175, R176): interlocked, its bytes taken at one moment between issue and arrival. -/
def opLd (xd xa w off : Nat) (c : OpCtx) : Res (List Post) := do
  let x ← rx c xa
  let size := widthOf w
  let (pa, nc, ps) ← accessCheck c (memAddr x off) size size 0
  .ok ({ lat := 8, eff := .load xd pa size (decide (4 ≤ w)) nc, inter := true, pend := !c.single } :: ps)
/-- ST (R175): the bytes land at n + 1. -/
def opSt (xs xa w off : Nat) (c : OpCtx) : Res (List Post) := do
  let x ← rx c xa
  let v ← rx c xs
  let size := widthOf w
  let (pa, nc, ps) ← accessCheck c (memAddr x off) size size 1
  .ok ({ lat := 1, eff := .mem (cellsAt pa (leBytes size v.toNat)) nc, vg := [granule (memAddr x off)] } :: ps)
def execLd (xd xa w off : Nat) (s : State) : Out := issueTiles s 1 (opLd xd xa w off)
def execSt (xs xa w off : Nat) (s : State) : Out := issueTiles s 1 (opSt xs xa w off)

/-- A `.pod` release waits for the acknowledgement of every RST of its party (R304, R418). -/
def rstOutstanding (s : State) (u : Nat) : Bool := s.hub.reqs.any (fun r => decide (r.unit = u) && decide (r.kind = 2))

/-- The effect of ACQ, REL or FENCE on one tile or Colt (R310): kind 0, 1, 2; `pa` the sync word plus 1, 0 for none. -/
def syncDone (s : State) (u kind scope pa : Nat) : State :=
  let mark := fun (s : State) => if pa = 0 then s else s.markAtomic ((pa - 1) / 64)
  match kind with
  | 0 => if pa = 0 then acquireAt s u scope else acquireWord (mark s) u scope ((pa - 1) / 64)
  | 1 =>
    let s1 := mark (releaseAt s u scope)
    if pa = 0 then s1 else s1.putMemNat (pa - 1) 8 (s1.memNat (pa - 1) 8 + 1)
  | _ => releaseAt s u scope

/-- sync_check of R310: the physical sync word plus 1; 0 for the scope form. -/
def syncCheck (c : OpCtx) (xa kind : Nat) : Res (Nat × List Post) := do
  if xa = 0 then .ok (0, [])
  else
    let v ← rx c xa
    let (pa, _, ps) ← accessCheck c v.toNat 1 64 kind
    .ok (pa + 1, ps)
/-- The sync words of the dies an instruction issued on. -/
def syncWords (s : State) (k n : Nat) (single : Bool) (xa kind : Nat) (dies : List Nat) : List (Nat × Nat) :=
  dies.map (fun d => (d, match syncCheck { s := s, u := unitOf k d, slot := 1, n := n, single := single } xa kind with
    | .ok (pa, _) => pa
    | .error _ => 0))
/-- ACQ, REL and FENCE at issue (R310): every slot is held at n + 1; single-operation code completes them at once, a `.pod`
release once the acknowledgements of the party's RSTs are there (R304). -/
def opSync (kind scope xa : Nat) (c : OpCtx) : Res (List Post) := do
  let (_, ps) ← syncCheck c xa (if kind = 1 then 1 else 0)
  if c.single ∧ kind ≠ 0 ∧ scope = 5 ∧ rstOutstanding c.s c.u then stall else .ok ps
def syncOp (kind scope xa : Nat) (s : State) : Out :=
  let rw := if kind = 1 then 1 else 0
  issueWith s 1 (opSync kind scope xa)
    (fun s k dies i => if dies.isEmpty then i else
      { i with after := i.after ++ [.sync kind scope (syncWords s k (s.core k).bn false xa rw dies)] })
    (fun s k => nextWord ((syncWords s k (s.core k).bn true xa rw [0, 1, 2, 3]).foldl (fun s p =>
      syncDone s (unitOf k p.1) kind scope p.2) s) k)
    (fun s c => nextColt (match syncCheck { s := s, u := coltUnit c, slot := 1, n := 0, single := true } xa rw with
      | .ok (pa, _) => syncDone s (coltUnit c) kind scope pa
      | .error _ => s) c)
def execAcq (scope xa : Nat) (s : State) : Out := syncOp 0 scope xa s
def execRel (scope xa : Nat) (s : State) : Out := syncOp 1 scope xa s
def execFence (scope : Nat) (s : State) : Out := syncOp 2 scope 0 s

/-- ACQ, REL or FENCE completes on every tile (R310): earlier loads have taken their bytes (R299), and the writes due by bundle
n + 1 are home; a release or fence waits for the loads to return, at `.pod` for the acknowledgement of every RST too (R304, R418). It completes in a stopped core too (R311). -/
def execAcqRelFenceComplete (core : Nat) (s : State) : Out :=
  let c := s.core core
  match c.hold with
  | .sync kind scope words =>
    let s1 := arriveAll s core
    let loading := (s1.core core).inflight.any (fun e => e.pend && words.any (fun p => decide (unitOf core p.1 = e.unit)) && (match e.eff with
      | .load _ _ _ _ _ => true
      | .remote _ _ _ _ _ _ _ => true
      | _ => false))
    if s.hub.stalled ∨ landsLate s1 core c.bn ∨ kind ≠ 0 ∧ loading then .next s
    else
      let s2 := landUpTo s1 core c.bn
      if kind ≠ 0 ∧ scope = 5 ∧ words.any (fun p => rstOutstanding s2 (unitOf core p.1)) then .next s2
      else
      let s3 := words.foldl (fun s p => syncDone s (unitOf core p.1) kind scope p.2) s2
      .next (s3.modCore core CoreRec.unhold)
  | _ => .next s

end Sys2Proof.Machine
end

