-- ==== Sys2Proof/Machine/Barrier.lean ====
section
/-! DEFINITION. Barrier instructions, the barrier networks and the monitored wait (R312 to R321, R423). -/
namespace Sys2Proof.Machine

/-- The object of a scope's instance that contains a unit, and the phase of the tile's last arrival (R312, R313). -/
def barOf (s : State) (u scope bid : Nat) : Barrier := (s.groupOf (u / 4)).barrier (barrierKey scope (instanceOf u scope) bid)
def lastPh (t : Tile) (scope bid : Nat) : Option Bool := sget none t.lastph (scope * 256 + bid)

/-- BARV (R317): a tile that has arrived in this phase waits for the flip; an object that is complete counts it in the next
phase. -/
def opBarv (scope bid : Nat) (c : OpCtx) : Res (List Post) :=
  if lastPh c.t scope bid = some (barOf c.s c.u scope bid).settled.phase then holdCore
  else .ok [{ lat := 0, eff := .barArrive scope bid }]
def execBarv (scope bid : Nat) (s : State) : Out :=
  issueWith s 0 (opBarv scope bid) (fun _ _ _ i => { i with leavesPhase := true })

/-- BARW (R317): ILLEGAL before any arrival; it holds every slot from n + 1. -/
def opBarw (scope bid : Nat) (c : OpCtx) : Res (List Post) := do
  check (lastPh c.t scope bid).isSome cILLEGAL 0
  .ok []
def execBarw (scope bid : Nat) (s : State) : Out :=
  issueWith s 0 (opBarw scope bid) (fun _ _ dies i =>
    if dies.isEmpty then i else { i with after := i.after ++ [.barw scope bid dies] })
/-- The completion of the phase that a tile last arrived in is seen (R312, R317): the object has flipped since, and its
completion delay has run. -/
def phaseSeen (s : State) (u scope bid : Nat) : Bool :=
  let b := barOf s u scope bid
  let l := lastPh (s.tile u) scope bid
  decide (l ≠ some b.phase) && decide (l ≠ some b.seenPhase)
/-- BART (R317). -/
def opBart (scope bid pd : Nat) (c : OpCtx) : Res (List Post) := do
  check (lastPh c.t scope bid).isSome cILLEGAL 0
  .ok (predPost pd (phaseSeen c.s c.u scope bid))
def execBart (scope bid pd : Nat) (s : State) : Out := issueTiles s 0 (opBart scope bid pd)

/-- WAITM (R320): the line is checked as a sync word is, without the alignment step. -/
def opWaitm (xa xb : Nat) (c : OpCtx) : Res (List Post) := do
  let v ← rx c xa
  let w ← rx c xb
  let (pa, _, ps) ← accessCheck c (v.toNat / 64 * 64) 1 1 0
  if loadLeft c then stall
  .ok ({ lat := 0, eff := .waitm pa w.toNat } :: ps)
def execWaitm (xa xb : Nat) (s : State) : Out :=
  issueWith s 0 (opWaitm xa xb) (fun _ _ dies i => if dies.isEmpty then i else { i with after := i.after ++ [.waitm] })

/-- A unit sleeps in a WAITM (R320). -/
def asleep (s : State) (u : Nat) : Bool := (s.tile u).mon.any (fun e => e.asleep)
def coreAsleep (s : State) (k : Nat) : Bool := (upTo 4).any (fun d => asleep s (unitOf k d))

/-- The dies of a core on which a BARW waits for an object (R317), none when no such wait is in force. -/
def CoreRec.barwDies (c : CoreRec) (scope bid : Nat) : List Nat :=
  match c.hold with
  | .barw sc b dies => if sc = scope ∧ b = bid then dies else []
  | _ => []
/-- The transfer phase that a BARW at `.die` scope opens (R293): the object, and the phase whose completion opened it. -/
def benchPhase (s : State) (u bid : Nat) : Nat := 2 * bid + (if lastPh (s.tile u) 3 bid = some true then 1 else 0)
/-- A core of the group waits with this core for a `.die` object that some of its dies have seen complete and some have not: the
cores that complete a barrier enter its transfer phase together (R293). -/
def phaseSplit (s : State) (k bid : Nat) : Bool :=
  s.cores.any (fun p => decide (p.2.group = (s.core k).group) && !p.2.frozen &&
    (let ds := p.2.barwDies 3 bid
     ds.any (fun d => phaseSeen s (unitOf p.1 d) 3 bid) && !ds.all (fun d => phaseSeen s (unitOf p.1 d) 3 bid)))
/-- The BARW of core k at `.die` scope ends, and those of the cores that complete it with k: each is in the phase (R293). -/
def enterPhase (s : State) (k bid : Nat) : State :=
  s.cores.foldl (fun s p =>
    let ds := p.2.barwDies 3 bid
    if p.2.group = (s.core k).group ∧ !p.2.frozen ∧ !ds.isEmpty ∧ ds.all (fun d => phaseSeen s (unitOf p.1 d) 3 bid) then
      s.modCore p.1 (fun c => ({ c with benchFrom := some c.bn, benchId := benchPhase s (unitOf p.1 (ds.headD 0)) bid, benchOwed := [] }).unhold)
    else s) s
/-- A hold whose wait is over ends: WAITM, BARW (which at `.die` scope opens a transfer phase, R293) and XWT. -/
def retryHold (s : State) (k : Nat) : State :=
  let c := s.core k
  if c.frozen then s
  else match c.hold with
  | .waitm => if coreAsleep s k then s else s.modCore k CoreRec.unhold
  | .barw scope bid dies =>
    if dies.all (fun d => phaseSeen s (unitOf k d) scope bid) then
      if scope ≠ 3 then s.modCore k CoreRec.unhold
      else if phaseSplit s k bid then s else enterPhase s k bid
    else s
  | .xwt n =>
    if (upTo 4).all (fun d => decide (((s.tile (unitOf k d)).getNode n).st = .idle)) then s.modCore k CoreRec.unhold else s
  | _ => s
/-- Every core re-evaluates its wait; in a package-wide stall none does (R12). -/
def retryHolds (s : State) : State := s.unlessStalled (s.cores.foldl (fun s p => retryHold s p.1) s)

/-- A write of a monitored line that came to a unit in a package-wide stall reaches it after the resume, in arrival order, and is
the wake event of R321 (R13); any other write is one when it is made. -/
def execWaitmWake (unit line : Nat) (s : State) : Out :=
  match (s.tile unit).wakes with
  | ln :: rest =>
    if s.hub.stalled ∨ ln ≠ line then .next s
    else .next (retryHolds (s.modTile unit (fun t => { t.wakeLine ln with wakes := rest })))
  | [] => .next s
/-- A deadline has passed: it wakes only the sleeper (R321); in a frequency stall it fires at resume (R14). -/
def execWaitmTimeout (unit : Nat) (s : State) : Out :=
  if s.hub.stalled then .next s
  else .next (retryHolds (s.modTile unit (fun t => { t with mon := t.mon.map (fun e =>
    match e.deadline with
    | some dl => if e.asleep && decide (dl ≤ s.ptime) then { e with asleep := false, deadline := none, event := false } else e
    | none => e) })))

/-- The group's context stands in its save area: its objects keep what was saved (R313), and the hub keeps what comes for them. -/
def State.groupAway (s : State) (kern : Nat) : Bool := (s.ctx (s.group kern).cid).saved.isSome
/-- A phase that is complete flips one cycle later (R314); a package-wide stall delays it (R318). -/
def execBarrierFlip (kern scope inst bid : Nat) (s : State) : Out :=
  let key := barrierKey scope inst bid
  let b := (s.group kern).barrier key
  if b.st = .complete ∧ !s.hub.stalled ∧ !(s.groupAway kern) then .next (s.modGroup kern (fun g => g.setBarrier key b.flip)) else .next s
/-- The participants see the completion (R312): waits on it end. -/
def execBarrierCompletionSeen (kern scope inst bid : Nat) (s : State) : Out :=
  let key := barrierKey scope inst bid
  let b := ((s.group kern).barrier key).settled
  .next (if s.hub.stalled ∨ s.groupAway kern then s else (retryHolds (s.modGroup kern (fun g => g.setBarrier key { b with seenPhase := b.phase }))))

/-- An arrive message of a child comes in (R423). -/
def execPodArrive (kern bid phase rank : Nat) (s : State) : Out :=
  let key := barrierKey 5 0 bid
  let g := s.group kern
  let b := (g.barrier key).settled
  if g.st ≠ .running ∨ s.hub.stalled ∨ s.groupAway kern ∨ b.phase ≠ decide (phase = 1) ∨ !(s.podChildren.contains rank) then .next s
  else .next ((s.setGroup kern (g.setBarrier key { b with arrives := b.arrives + 1 })).podProgress kern key)
/-- The complete message reaches this device (R423): it goes on down the tree, and the local part flips. -/
def execPodComplete (kern bid phase : Nat) (s : State) : Out :=
  let key := barrierKey 5 0 bid
  let g := s.group kern
  let b := g.barrier key
  if g.st ≠ .running ∨ s.hub.stalled ∨ s.groupAway kern ∨ b.phase ≠ decide (phase = 1) ∨ !b.sent ∨ b.st = .complete ∨ !s.podWhole then .next s
  else .next (s.podFinish kern key)

end Sys2Proof.Machine
end

