-- ==== Sys2Proof/Machine/Vector.lean ====
section
/-! DEFINITION. The vector arithmetic, compares, moves and scratchpad accesses of VA and its subset in VB (R207 to R218),
the mask and broadcast operations of INT (R194, R204) and parking (R206). -/
namespace Sys2Proof.Machine

/-- The slot of a shared operation (R218). -/
def vslot : VUnit → Nat
  | .va => 2
  | .vb => 3

/-- A result per lane with flags collected from the enabled lanes (R193, R207). -/
def laneMap (t : Tag) (en : Mask) (f : Nat → Fl) : Vec × Flags :=
  let r := (upTo 128).map f
  (Vec.mk' t (fun i => if enabled en i then (nth (0, 0) r i).1 else 0),
   (upTo 128).foldl (fun fl i => if enabled en i then fl ||| (nth (0, 0) r i).2 else fl) 0)

/-- An elementwise operation on one lane of a format: BF16 lanes hold two elements (R73, R207). -/
def onElems (f : FFmt) (op : Nat → Nat → Nat → Fl) (a b c : Nat) : Fl :=
  match f with
  | .fp32 => op a b c
  | .bf16 =>
    let (lo, f1) := op (a % 65536) (b % 65536) (c % 65536)
    let (hi, f2) := op (a / 65536) (b / 65536) (c / 65536)
    (lo + 65536 * hi, f1 ||| f2)

/-- A float operation of R207 on two sources. -/
def floatOp2 (d a b lat : Nat) (op : FFmt → Nat → Nat → Fl) (c : OpCtx) : Res (List Post) := do
  let en := curMask c
  let (f, sa) ← readFloat c a (enabled en)
  let sb ← readAs c b f.tag (enabled en)
  let (v, fl) := laneMap f.tag en (fun i => onElems f (fun x y _ => op f x y) (sa.v.lane i) (sb.v.lane i) 0)
  let ps ← dstPosts c d lat v en (fl ||| sa.fl ||| sb.fl)
  .ok (ps ++ sa.posts ++ sb.posts)

/-- A fused multiply-add of R209. -/
def floatOp3 (d a b cc lat : Nat) (negP negC : Bool) (c : OpCtx) : Res (List Post) := do
  let en := curMask c
  let (f, sa) ← readFloat c a (enabled en)
  let sb ← readAs c b f.tag (enabled en)
  let sc ← readAs c (cSel cc) f.tag (enabled en)
  let (v, fl) := laneMap f.tag en (fun i =>
    onElems f (fun x y z => ffma f negP negC x y z) (sa.v.lane i) (sb.v.lane i) (sc.v.lane i))
  let ps ← dstPosts c d lat v en (fl ||| sa.fl ||| sb.fl ||| sc.fl)
  .ok (ps ++ sa.posts ++ sb.posts ++ sc.posts)

/-- A unary float operation (R210). -/
def floatOp1 (d a lat : Nat) (op : FFmt → Nat → Fl) (c : OpCtx) : Res (List Post) := do
  let en := curMask c
  let (f, sa) ← readFloat c a (enabled en)
  let (v, fl) := laneMap f.tag en (fun i => onElems f (fun x _ _ => op f x) (sa.v.lane i) 0 0)
  let ps ← dstPosts c d lat v en (fl ||| sa.fl)
  .ok (ps ++ sa.posts)

/-- An integer operation of R211: I32, wrapping, no flag of its own. -/
def intOp2 (d a b lat : Nat) (op : Nat → Nat → Nat) (c : OpCtx) : Res (List Post) := do
  let en := curMask c
  let sa ← readAs c a .i32 (enabled en)
  let sb ← readAs c b .i32 (enabled en)
  let (v, _) := laneMap .i32 en (fun i => (op (sa.v.lane i) (sb.v.lane i), 0))
  let ps ← dstPosts c d lat v en (sa.fl ||| sb.fl)
  .ok (ps ++ sa.posts ++ sb.posts)

/-- The lane functions of R211 on 32-bit patterns. -/
def lIadd (a b : Nat) : Nat := (a + b) % 2 ^ 32
def lIsub (a b : Nat) : Nat := (a + 2 ^ 32 - b) % 2 ^ 32
def lImul (a b : Nat) : Nat := a * b % 2 ^ 32
def lIand (a b : Nat) : Nat := Nat.land a b
def lIor (a b : Nat) : Nat := Nat.lor a b
def lIxor (a b : Nat) : Nat := Nat.xor a b
def lIshl (a b : Nat) : Nat := a * 2 ^ (b % 32) % 2 ^ 32
def lIshr (a b : Nat) : Nat := a / 2 ^ (b % 32)
def lIsra (a b : Nat) : Nat := (wrap32 (sextNat a 32 / 2 ^ (b % 32))).toNat
def lImin (a b : Nat) : Nat := if sextNat a 32 ≤ sextNat b 32 then a else b
def lImax (a b : Nat) : Nat := if sextNat a 32 ≥ sextNat b 32 then a else b

/-- A mask from its bits. -/
def maskOf (f : Nat → Bool) : Mask := (upTo 128).foldl (fun m i => if f i then m ||| BitVec.twoPow 128 i else m) 0

/-- FCMP (R212): FP32 sources, disabled lanes give 0, lands at n + 2. -/
def opFcmp (kd a b cc : Nat) (c : OpCtx) : Res (List Post) := do
  let en := curMask c
  let sa ← readAs c a .fp32 (enabled en)
  let sb ← readAs c b .fp32 (enabled en)
  let r := (upTo 128).map (fun i => fcmpCC cc (sa.v.lane i) (sb.v.lane i))
  let m := maskOf (fun i => enabled en i && (nth (false, 0) r i).1)
  let fl := (upTo 128).foldl (fun fl i => if enabled en i then fl ||| (nth (false, 0) r i).2 else fl) 0
  .ok ([{ lat := 2, eff := .mask kd m, fl := fl ||| sa.fl ||| sb.fl }] ++ sa.posts ++ sb.posts)

/-- ICMP (R212). -/
def opIcmp (kd a b cc : Nat) (c : OpCtx) : Res (List Post) := do
  let en := curMask c
  let sa ← readAs c a .i32 (enabled en)
  let sb ← readAs c b .i32 (enabled en)
  let m := maskOf (fun i => enabled en i && icmpCC cc (sa.v.lane i) (sb.v.lane i))
  .ok ([{ lat := 2, eff := .mask kd m, fl := sa.fl ||| sb.fl }] ++ sa.posts ++ sb.posts)

/-- The logic operations of R51 on masks. -/
def maskLogic (o : Nat) (a b : Mask) : Mask :=
  match o with
  | 0 => a &&& b
  | 1 => a ||| b
  | 2 => a ^^^ b
  | 3 => a &&& ~~~b
  | 4 => a ||| ~~~b
  | 5 => ~~~(a &&& b)
  | _ => ~~~(a ||| b)

/-- KLOG (R213). -/
def opKlog (kd ka kb o : Nat) (c : OpCtx) : Res (List Post) :=
  .ok [{ lat := 1, eff := .mask kd (maskLogic o (c.t.getK ka) (c.t.getK kb)) }]

/-- VSEL (R214). -/
def opVsel (d k a b : Nat) (c : OpCtx) : Res (List Post) := do
  let en := curMask c
  let sa ← readNonEmpty c a
  let sb ← readExact c b sa.v.tag
  let kk := c.t.getK k
  let v := Vec.mk' sa.v.tag (fun i => if enabled kk i then sa.v.lane i else sb.v.lane i)
  let ps ← dstPosts c d 1 v en
  .ok (ps ++ sa.posts ++ sb.posts)

/-- CVT (R215, R79). -/
def opCvt (kind m d a b : Nat) (c : OpCtx) : Res (List Post) := do
  let en := curMask c
  let mode := RMode.ofCode m
  match kind with
  | 0 =>
    let sa ← readAs c a .fp32 (enabled en)
    let (v, fl) := laneMap .i32 en (fun i => f2i mode (sa.v.lane i))
    let ps ← dstPosts c d 3 v en (fl ||| sa.fl)
    .ok (ps ++ sa.posts)
  | 1 =>
    let sa ← readAs c a .i32 (enabled en)
    let (v, fl) := laneMap .fp32 en (fun i => i2f mode (sa.v.lane i))
    let ps ← dstPosts c d 3 v en (fl ||| sa.fl)
    .ok (ps ++ sa.posts)
  | 2 =>
    let sa ← readAs c a .fp32 (enabled en)
    let sb ← readAs c b .fp32 (enabled en)
    let (v, fl) := laneMap .bf16 en (fun i =>
      let (lo, f1) := f2bf mode (sa.v.lane i)
      let (hi, f2) := f2bf mode (sb.v.lane i)
      (lo + 65536 * hi, f1 ||| f2))
    let ps ← dstPosts c d 3 v en (fl ||| sa.fl ||| sb.fl)
    .ok (ps ++ sa.posts ++ sb.posts)
  | _ =>
    let sa ← readAs c a .bf16 (enabled en)
    let (v, fl) := laneMap .fp32 en (fun i =>
      bf2f (if kind = 3 then sa.v.lane i % 65536 else sa.v.lane i / 65536))
    let ps ← dstPosts c d 3 v en fl
    .ok (ps ++ sa.posts)

/-- VMOV (R216): any tag. -/
def opVmov (d a : Nat) (c : OpCtx) : Res (List Post) := do
  let en := curMask c
  let (v, ps0) ← readSel c a
  let ps ← dstPosts c d 1 v en
  .ok (ps ++ ps0)

/-- VIMM (R216). -/
def opVimm (d k imm : Nat) (c : OpCtx) : Res (List Post) :=
  let v := if k = 0 then Vec.mk' .i32 (fun _ => (wrap32 (sextNat imm 16)).toNat)
    else Vec.mk' .fp32 (fun _ => imm * 65536)
  dstPosts c d 1 v (curMask c)

/-- VLANE (R216). -/
def opVlane (d a lane : Nat) (c : OpCtx) : Res (List Post) := do
  let (v, ps0) ← readSel c a
  let ps ← dstPosts c d 2 (Vec.mk' v.tag (fun _ => v.lane lane)) (curMask c)
  .ok (ps ++ ps0)

/-- The scratchpad address of VLD and VST (R217): range, then alignment, then the bank reservations. -/
def vmAddr (c : OpCtx) (xa off : Nat) : Res Nat := do
  let b ← rx c xa
  let a : Int := (b.toNat : Int) + sextNat off 12 * 512
  if a < 0 ∨ a > spadSize - 512 then raiseR cACCESS 6 (wrap64 a).toNat
  else if a.toNat % 512 ≠ 0 then raise cMISALIGN a.toNat
  else
    spadFree c c.u a.toNat 512
    .ok a.toNat

/-- VLD (R217): the tag is TAGMODE.LDT at issue (R191). -/
def opVld (d xa off : Nat) (c : OpCtx) : Res (List Post) := do
  let a ← vmAddr c xa off
  dstPosts c d 6 (vecOfBytes (Tag.ofCode (c.t.ldt + 1)) (c.t.spadBytes a 512)) (curMask c)

/-- VST (R217): enabled lanes only, any tag. -/
def opVst (a xa off : Nat) (c : OpCtx) : Res (List Post) := do
  let s ← vmAddr c xa off
  let (v, ps0) ← readSel c a
  let en := curMask c
  let cells := (upTo 512).filterMap (fun j =>
    if enabled en (j / 4) then some (s + j, BitVec.ofNat 8 (v.lane (j / 4) / 256 ^ (j % 4))) else none)
  .ok ({ lat := 1, eff := .spad cells } :: ps0)

/-- PARK (R206). -/
def opPark (vn : Nat) (c : OpCtx) : Res (List Post) := do
  if c.t.pool then spadFree c c.u (c.t.sbase * 512 + 512 * vn) 512
  match pendV c.u vn c.flight with
  | some none => stall
  | some (some v) => .ok [{ lat := 2, eff := .park vn v c.t.pool c.t.abank c.t.sbase }]
  | none => .ok [{ lat := 2, eff := .park vn (c.t.getV vn).seen c.t.pool c.t.abank c.t.sbase }]

/-- The row of the park pool that vn belongs to (R205). -/
def parkRow (t : Tile) (vn : Nat) : Vec :=
  if t.pool then vecOfBytes (sget .empty t.parkTag vn) (t.spadBytes (t.sbase * 512 + 512 * vn) 512)
  else Vec.mk' (sget .empty t.parkTag vn) (fun i => t.accAt t.abank (152 + vn) i)

/-- UNPARK (R206): ILLEGAL when the row holds nothing parked. -/
def opUnpark (vn : Nat) (c : OpCtx) : Res (List Post) := do
  check (c.t.parked.getLsbD vn) cILLEGAL 0
  if c.t.pool then spadFree c c.u (c.t.sbase * 512 + 512 * vn) 512
  .ok [{ lat := 4, eff := .unpark vn (parkRow c.t vn) }]

/-- KSEL (R194). -/
def opKsel (vs ka : Nat) (_ : OpCtx) : Res (List Post) := .ok [{ lat := 1, eff := .ksel (vs = 1) ka }]

/-- XBC (R204): ignores masks. -/
def opXbc (d xa k : Nat) (c : OpCtx) : Res (List Post) := do
  let v ← rx c xa
  let tag : Tag := match k with
    | 0 => .i32
    | 1 => .fp32
    | _ => .bf16
  dstPosts c d 1 (Vec.mk' tag (fun _ => v.toNat % 2 ^ 32)) allOnes

/-- WCFG's checks of a value (R195). -/
def wcfgOk (field : Nat) (v : DWord) : Bool :=
  let n := v.toNat
  match field with
  | 0 => bitsOf n 63 9 = 0 && bitsOf n 4 3 ≠ 3 && bitsOf n 2 0 ≤ 5
  | 1 => true
  | f => if 16 ≤ f ∧ f ≤ 21 then bitsOf n 63 24 = 0 else decide (v = wrap64 (sextNat n 32))

/-- WCFG (R199): a held port or a value outside its limits raises ILLEGAL (R195, R265). -/
def opWcfg (xa port field : Nat) (c : OpCtx) : Res (List Post) := do
  check (!portHeld c port) cILLEGAL 0
  let v ← rx c xa
  check (wcfgOk field v) cILLEGAL 0
  .ok [{ lat := 1, eff := .wcfg port field v }]

/-- SHW (R202). -/
def opShw (xa eng sh field : Nat) (c : OpCtx) : Res (List Post) := do
  let v ← rx c xa
  .ok [{ lat := 1, eff := .shw (4 * eng + sh) field v }]

def execFadd (u : VUnit) (d a b : Nat) (s : State) : Out := issueTiles s (vslot u) (floatOp2 d a b 4 fadd)
def execFsub (u : VUnit) (d a b : Nat) (s : State) : Out := issueTiles s (vslot u) (floatOp2 d a b 4 fsub)
def execFmul (u : VUnit) (d a b : Nat) (s : State) : Out := issueTiles s (vslot u) (floatOp2 d a b 4 fmul)
def execFmin (u : VUnit) (d a b : Nat) (s : State) : Out :=
  issueTiles s (vslot u) (floatOp2 d a b 2 (fun f => fminmax f false))
def execFmax (u : VUnit) (d a b : Nat) (s : State) : Out :=
  issueTiles s (vslot u) (floatOp2 d a b 2 (fun f => fminmax f true))
def execFma (u : VUnit) (d a b c : Nat) (s : State) : Out := issueTiles s (vslot u) (floatOp3 d a b c 4 false false)
def execFms (d a b c : Nat) (s : State) : Out := issueTiles s 2 (floatOp3 d a b c 4 false true)
def execFnma (d a b c : Nat) (s : State) : Out := issueTiles s 2 (floatOp3 d a b c 4 true false)
def execFuna (u : VUnit) (d a fn : Nat) (s : State) : Out := issueTiles s (vslot u) (floatOp1 d a 2 (fun f => funa f fn))
def execIadd (u : VUnit) (d a b : Nat) (s : State) : Out := issueTiles s (vslot u) (intOp2 d a b 1 lIadd)
def execIsub (d a b : Nat) (s : State) : Out := issueTiles s 2 (intOp2 d a b 1 lIsub)
def execImul (d a b : Nat) (s : State) : Out := issueTiles s 2 (intOp2 d a b 3 lImul)
def execIand (d a b : Nat) (s : State) : Out := issueTiles s 2 (intOp2 d a b 1 lIand)
def execIor (d a b : Nat) (s : State) : Out := issueTiles s 2 (intOp2 d a b 1 lIor)
def execIxor (d a b : Nat) (s : State) : Out := issueTiles s 2 (intOp2 d a b 1 lIxor)
def execIshl (d a b : Nat) (s : State) : Out := issueTiles s 2 (intOp2 d a b 1 lIshl)
def execIshr (d a b : Nat) (s : State) : Out := issueTiles s 2 (intOp2 d a b 1 lIshr)
def execIsra (d a b : Nat) (s : State) : Out := issueTiles s 2 (intOp2 d a b 1 lIsra)
def execImin (d a b : Nat) (s : State) : Out := issueTiles s 2 (intOp2 d a b 1 lImin)
def execImax (d a b : Nat) (s : State) : Out := issueTiles s 2 (intOp2 d a b 1 lImax)
def execFcmp (u : VUnit) (kd a b cc : Nat) (s : State) : Out := issueTiles s (vslot u) (opFcmp kd a b cc)
def execIcmp (u : VUnit) (kd a b cc : Nat) (s : State) : Out := issueTiles s (vslot u) (opIcmp kd a b cc)
def execKlog (kd ka kb o : Nat) (s : State) : Out := issueTiles s 2 (opKlog kd ka kb o)
def execVsel (u : VUnit) (d a b k : Nat) (s : State) : Out := issueTiles s (vslot u) (opVsel d k a b)
def execCvt (u : VUnit) (d a b kind m : Nat) (s : State) : Out := issueTiles s (vslot u) (opCvt kind m d a b)
def execVmov (u : VUnit) (d a : Nat) (s : State) : Out := issueTiles s (vslot u) (opVmov d a)
def execVimm (d k imm : Nat) (s : State) : Out := issueTiles s 2 (opVimm d k imm)
def execVlane (d a lane : Nat) (s : State) : Out := issueTiles s 2 (opVlane d a lane)
def execVld (d xa off : Nat) (s : State) : Out := issueTiles s 2 (opVld d xa off)
def execVst (a xa off : Nat) (s : State) : Out := issueTiles s 2 (opVst a xa off)
def execPark (v : Nat) (s : State) : Out := issueTiles s 3 (opPark v)
def execUnpark (v : Nat) (s : State) : Out := issueTiles s 3 (opUnpark v)
def execKsel (vs ka : Nat) (s : State) : Out := issueTiles s 1 (opKsel vs ka)
def execXbc (d xa k : Nat) (s : State) : Out := issueTiles s 1 (opXbc d xa k)
def execWcfg (xa port field : Nat) (s : State) : Out :=
  issueTiles s 1 (opWcfg xa port field)
def execShw (xa eng sh field : Nat) (s : State) : Out := issueTiles s 1 (opShw xa eng sh field)

end Sys2Proof.Machine
end

