-- ==== Sys2Proof/Machine/Transfer.lean ====
section
/-! DEFINITION. The engine commands at issue: descriptors, shapes, checks and the post of the node
(R278, R280, R283, R286 to R294). What a node does when it runs is in NodeRun.lean. -/
namespace Sys2Proof.Machine

/-- The descriptor at x[XA] (R280): range, alignment, reservation, then the header checks. -/
def readDesc (c : OpCtx) (xa : Nat) : Res (List Byte × Nat) := do
  let v ← rx c xa
  let a := v.toNat
  if a > spadSize - 32 then raiseR cACCESS 6 a
  else if a % 32 ≠ 0 then raise cMISALIGN a
  else
    spadFree c c.u a 32
    .ok (c.t.spadBytes a 32, a)

/-- Field of a descriptor: bytes lo .. lo + len − 1. -/
def dfield (d : List Byte) (lo len : Nat) : Nat := leNat ((d.drop lo).take len)
def dPRED (d : List Byte) : Nat := dfield d 0 1
def dACQ (d : List Byte) : Bool := bitOf (dfield d 1 1) 0
def dREL (d : List Byte) : Bool := bitOf (dfield d 1 1) 1
def dSCOPE (d : List Byte) : Nat := bitsOf (dfield d 1 1) 4 2
def dS0V (d : List Byte) : Bool := bitOf (dfield d 1 1) 5
def dS1V (d : List Byte) : Bool := bitOf (dfield d 1 1) 6
def dSUCC0 (d : List Byte) : Nat := dfield d 2 1
def dSUCC1 (d : List Byte) : Nat := dfield d 3 1
def dBANKS (d : List Byte) : Nat := dfield d 4 4
def dABV (d : List Byte) : Bool := bitOf (dfield d 8 1) 7
def dASCOPE (d : List Byte) : Nat := bitsOf (dfield d 8 1) 2 0
def dABID (d : List Byte) : Nat := dfield d 9 1

/-- The header checks of R280. -/
def headerOk (d : List Byte) (isCopy : Bool) : Bool :=
  !(bitOf (dfield d 1 1) 7) && decide (dSCOPE d ≤ 5) && bitsOf (dfield d 8 1) 6 3 = 0 && dfield d 10 6 = 0
  && (!(dABV d) || (isCopy && 1 ≤ dASCOPE d && dASCOPE d ≤ 5))

/-- A result in flight that posts a command of the node (R281). -/
def postsTo (node : Nat) : Eff → Bool
  | .xpost n _ => n = node
  | _ => false
/-- A command stalls while its node is busy, or a post of it is still to land (R281). -/
def nodeFree (c : OpCtx) (node : Nat) : Res Unit :=
  if (c.t.getNode node).st ≠ .idle ∨ c.flight.any (fun e => e.unit = c.u && postsTo node e.eff) then stall else .ok ()
/-- A command stalls while a mask of the reservation table meets its BANKS, or a request that arrived before it does (R286): a walker of
another core of the quad may wait for a bank of the tile, too. -/
def banksFree (c : OpCtx) (banks : Nat) : Res Unit :=
  if c.t.resv.any (fun r => Nat.land r.2 banks ≠ 0) || askedBefore c c.u banks true then bankStall c.u banks true else .ok ()
/-- A command of format XC takes its descriptor: it stalls for its node, for the descriptor's bank and for its BANKS, and every check
comes when it issues (R280, R281, R286). -/
def openDesc (c : OpCtx) (node xa : Nat) : Res (List Byte × Nat) := do
  nodeFree c node
  let r ← readDesc c xa
  banksFree c (dBANKS r.1)
  .ok r

/-- Every byte of a scratchpad range lies in the banks of BANKS; else BANK with the first byte outside (R286). -/
def banksCover (banks a len : Nat) : Res Unit :=
  if len = 0 then .ok () else
  match (upTo ((a + len - 1) / 131072 - a / 131072 + 1)).find? (fun i => !(bitOf banks (a / 131072 + i))) with
  | none => .ok ()
  | some i => raise cBANK (if i = 0 then a else 131072 * (a / 131072 + i))
/-- A scratchpad range: ACCESS outside 0 to 4 MiB − 1 (R287). -/
def spadRange (a : Int) (len : Nat) : Res Unit :=
  if a < 0 ∨ a + len > spadSize then raiseR cACCESS 6 (wrap64 a).toNat else .ok ()

/-- The two results every accepted command posts: its reservation at issue and its node, landing at n + 1 (R281, R286). -/
def postNode (node : Nat) (cmd : NodeCmd) : List Post :=
  [{ lat := 0, eff := .reserve node (dBANKS cmd.desc) }, { lat := 1, eff := .xpost node cmd }]

/-- The exchange of a live and a shadow shape by SW (R203), staged once per operation. -/
def swapPosts (key sw : Nat) : List Post := if sw = 1 then [{ lat := 0, eff := .shSwap key }] else []
/-- The shape that an operation with SW reads: the copy that has just become live (R203). -/
def shapeAfter (t : Tile) (key swKey sw : Nat) : SMap DWord :=
  if sw = 1 ∧ key = swKey then sget [] t.shShadow key else sget [] t.shLive key
def sf (m : SMap DWord) (f : Nat) : DWord := sget 0 m f

/-- The element bits of a shape format (R287). -/
def elemBits (fmt : Nat) : Nat :=
  match fmt with
  | 0 => 32
  | 1 => 16
  | 2 => 32
  | 3 => 4
  | 4 => 6
  | 5 => 8
  | _ => 16

/-- die_range of R201 as a list of index runs (first, count): one run for blocks, one per index for interleave. -/
def dieRange (e die mode : Nat) : List (Nat × Nat) :=
  if mode = 0 then
    let cc := (e + 3) / 4
    let lo := min e (die * cc)
    let hi := min e (lo + cc)
    if lo < hi then [(lo, hi - lo)] else []
  else (upTo ((e + 3 - die) / 4)).map (fun j => (4 * j + die, 1))
def runsCount (l : List (Nat × Nat)) : Nat := l.foldl (fun s r => s + r.2) 0

/-- A die's share of a tensor: the index runs of each dimension (R201). -/
def dimShare (m : SMap DWord) (die dim : Nat) : List (Nat × Nat) :=
  let e := (sf m (1 + dim)).toNat
  let sp := (sf m 10).toNat
  if bitsOf sp 2 0 = dim then dieRange e die (bitsOf sp 4 3) else if e = 0 then [] else [(0, e)]
/-- The split field of a shape (R200, R201): DIM 4 to 6 and MODE 2 and 3 are refused; its other bits read as zero (R2). -/
def splitOk (m : SMap DWord) : Bool :=
  let sp := (sf m 10).toNat
  (bitsOf sp 2 0 ≤ 3 || bitsOf sp 2 0 = 7) && bitsOf sp 4 3 ≤ 1

/-- The runs of a share as an index list. -/
def runsList (l : List (Nat × Nat)) : List Nat := l.flatMap (fun r => (upTo r.2).map (fun i => r.1 + i))
/-- The rows of a tensor over indices of its dimensions 1 to 3, in lexicographic order of (i3, i2, i1) (R288): the start byte of each. -/
def rowsOver (m : SMap DWord) (l1 l2 l3 : List Nat) : List Int :=
  l3.flatMap (fun (i3 : Nat) => l2.flatMap (fun (i2 : Nat) => l1.map (fun (i1 : Nat) =>
    ((sf m 0).toNat : Int) + i1 * (sf m 5).toInt + i2 * (sf m 6).toInt + i3 * (sf m 7).toInt)))
/-- The rows of a die's share. -/
def shareRows (m : SMap DWord) (die : Nat) : List Int :=
  rowsOver m (runsList (dimShare m die 1)) (runsList (dimShare m die 2)) (runsList (dimShare m die 3))
/-- The byte pieces (offset, length) of a row's share of dimension 0. -/
def rowPieces (m : SMap DWord) (die : Nat) : List (Nat × Nat) :=
  let b := elemBits (sf m 8).toNat
  (dimShare m die 0).map (fun r => (r.1 * b / 8, r.2 * b / 8))
/-- The scratchpad (or virtual) pieces that a tensor's share touches. -/
def sharePieces (m : SMap DWord) (die : Nat) : List (Int × Nat) :=
  (shareRows m die).flatMap (fun a => (rowPieces m die).map (fun p => (a + p.1, p.2)))

/-- The bytes of a row along dimension 0, and every byte of a tensor as pieces (R287): none with a zero extent. -/
def rowBytes (m : SMap DWord) : Nat := (sf m 1).toNat * elemBits (sf m 8).toNat / 8
def wholePieces (m : SMap DWord) : List (Int × Nat) :=
  if sf m 1 = 0 then [] else (rowsOver m (upTo (sf m 2).toNat) (upTo (sf m 3).toNat) (upTo (sf m 4).toNat)).map (fun a => (a, rowBytes m))

/-- The shape checks of R287; a share of whole bytes on every die. -/
def tensorOk (m : SMap DWord) : Bool :=
  let fmt := (sf m 8).toNat
  let b := elemBits fmt
  decide (fmt ≤ 6) && splitOk m && (sf m 1).toNat * b % 8 = 0
  && (b % 8 = 0 || (upTo 4).all (fun die => (dimShare m die 0).all (fun r => r.1 * b % 8 = 0 && r.2 * b % 8 = 0)))
/-- Base and strides are multiples of the element size, or of one byte for narrow formats (R287). -/
def tensorAligned (m : SMap DWord) : Bool :=
  let es := match (sf m 8).toNat with
    | 0 => 4
    | 1 => 2
    | 2 => 4
    | _ => 1
  (sf m 0).toNat % es = 0 && (sf m 5).toInt % es = 0 && (sf m 6).toInt % es = 0 && (sf m 7).toInt % es = 0

/-- Range checks of all pieces of one tensor (R287). -/
def piecesOk (spad : Bool) (kind : Nat) : List (Int × Nat) → Res Unit
  | [] => .ok ()
  | (a, len) :: ps => do
    if spad then spadRange a len
    else if a < 0 ∨ 2 ^ 56 < a + len then raiseR cACCESS (walkReason kind 3 6) (if a < 0 then (wrap64 a).toNat else max a.toNat (2 ^ 56))
    piecesOk spad kind ps
/-- Translations (R287) or bank coverage (R286) of all pieces. -/
def piecesXlate (c : OpCtx) (kind : Nat) : List (Int × Nat) → Res (List (Nat × Nat))
  | [] => .ok []
  | (a, len) :: ps => do
    let x ← xlateRange c a.toNat len kind
    let r ← piecesXlate c kind ps
    .ok (x ++ r)
def piecesBanks (banks : Nat) : List (Int × Nat) → Res Unit
  | [] => .ok ()
  | (a, len) :: ps => do
    banksCover banks a.toNat len
    piecesBanks banks ps

/-- Every byte of a tensor checked (R287): its translations, empty for the scratchpad. -/
def tensorCheck (c : OpCtx) (m : SMap DWord) (spad : Bool) (kind : Nat) : Res (List (Nat × Nat)) := do
  let ps := wholePieces m
  piecesOk spad kind ps
  check (tensorAligned m) cMISALIGN (sf m 0).toNat
  if spad then .ok [] else piecesXlate c kind ps

/-- The pair of shapes of a tensor command (R287): source shSH and destination sh((SH + 1) mod 4), after SW. -/
def shapePair (c : OpCtx) (sh sw : Nat) : SMap DWord × SMap DWord :=
  (shapeAfter c.t (8 + sh) (8 + sh) sw, shapeAfter c.t (8 + (sh + 1) % 4) (8 + sh) sw)

/-- COPY at issue (R287, R288, R289). The reserved bits of a descriptor outside its header read as zero, here and in every command
whose chapter names no trap for them (R2, R280). -/
def opCopy (i : Instr) (node sh sw xa : Nat) (c : OpCtx) : Res (List Post) := do
  let (d, _) ← openDesc c node xa
  let (a, b) := shapePair c sh sw
  let sp := dfield d 16 1
  check (headerOk d true) cILLEGAL 0
  check (tensorOk a && tensorOk b && (sf a 8) = (sf b 8)) cILLEGAL 0
  check ((upTo 4).all (fun k => runsCount (dimShare a c.die k) = runsCount (dimShare b c.die k))) cILLEGAL 0
  let xs ← tensorCheck c a (bitOf sp 0) 0
  let xd ← tensorCheck c b (bitOf sp 1) 1
  if bitOf sp 0 then piecesBanks (dBANKS d) (sharePieces a c.die)
  if bitOf sp 1 then piecesBanks (dBANKS d) (sharePieces b c.die)
  .ok (swapPosts (8 + sh) sw ++
    postNode node { instr := i, desc := d, shA := a, shB := b, xlate := xs ++ xd, reads := xs.length, cid := c.s.cidOf c.u,
                    progress := (sharePieces b c.die).foldl (fun s p => s + p.2) 0 }
    ++ leasePosts c 0 xs ++ leasePosts c 1 xd)

/-- The row pieces along dimension 1 of GATH and SCAT (R288). -/
def rowOf (m : SMap DWord) (q : Int) : Int := ((sf m 0).toNat : Int) + q * (sf m 5).toInt
def allRows (m : SMap DWord) (n : Nat) : List (Int × Nat) :=
  (upTo (max (sf m 2).toNat n)).map (fun (q : Nat) => (rowOf m q, rowBytes m))
/-- A tensor of GATH or SCAT with a zero extent: nothing moves (R287). -/
def emptyRows (m : SMap DWord) : Bool := decide (sf m 1 = 0) || decide (sf m 2 = 0)

/-- SPACE and IDX of GATH and SCAT share byte 16 (R287, R288): SPACE is bits 1–0 of the word at bytes 19–16, IDX its
multiple of 4 (log 6). -/
def dSPACE (d : List Byte) : Nat := dfield d 16 4 % 4
def dIDX (d : List Byte) : Nat := dfield d 16 4 / 4 * 4

/-- GATH and SCAT at issue (R287, R288). The shape whose rows the indices name is `a` for GATH and `b` for SCAT; of the other
one every row that q counts is checked too (log 12). -/
def opGathScat (i : Instr) (gath : Bool) (node sh sw xa : Nat) (c : OpCtx) : Res (List Post) := do
  let (d, da) ← openDesc c node xa
  let (a, b) := shapePair c sh sw
  let sp := dSPACE d
  let idx := dIDX d
  let n := dfield d 20 4
  check (headerOk d false && decide (1 ≤ n) && decide (n ≤ 65536)) cILLEGAL 0
  check (tensorOk a && tensorOk b && (sf a 8) = (sf b 8)
    && sf a 3 = 1 && sf a 4 = 1 && sf b 3 = 1 && sf b 4 = 1
    && bitsOf (sf a 10).toNat 2 0 = 7 && bitsOf (sf b 10).toNat 2 0 = 7) cILLEGAL 0
  spadRange idx (4 * n)
  let ra := if emptyRows a then [] else allRows a (if gath then 0 else n)
  let rb := if emptyRows b then [] else allRows b (if gath then n else 0)
  piecesOk (bitOf sp 0) 0 ra
  piecesOk (bitOf sp 1) 1 rb
  check (tensorAligned a && tensorAligned b) cMISALIGN (sf a 0).toNat
  let xs ← if bitOf sp 0 then .ok [] else piecesXlate c 0 ra
  let xd ← if bitOf sp 1 then .ok [] else piecesXlate c 1 rb
  if bitOf sp 0 then piecesBanks (dBANKS d) ra
  if bitOf sp 1 then piecesBanks (dBANKS d) rb
  banksCover (dBANKS d) idx (4 * n)
  banksCover (dBANKS d) (da + 28) 4
  .ok (swapPosts (8 + sh) sw ++
    postNode node { instr := i, desc := d, shA := a, shB := b, xlate := xs ++ xd, reads := xs.length, dpos := da, cid := c.s.cidOf c.u }
    ++ leasePosts c 0 xs ++ leasePosts c 1 xd)

/-- SCACC at issue (R290). -/
def opScacc (i : Instr) (node sh sw xa : Nat) (c : OpCtx) : Res (List Post) := do
  let (d, da) ← openDesc c node xa
  let m := shapeAfter c.t (8 + sh) (8 + sh) sw
  let idx := dfield d 16 4
  let n := dfield d 20 4
  let val := dfield d 24 4
  let fmt := (sf m 8).toNat
  let es := elemBits fmt / 8
  let base := (sf m 0).toNat
  let ext := (sf m 1).toNat
  check (headerOk d false && decide (fmt ≤ 2) && sf m 2 = 1 && sf m 3 = 1 && sf m 4 = 1
    && decide (1 ≤ n) && decide (n ≤ 65536)) cILLEGAL 0
  check (idx % 4 = 0) cMISALIGN idx
  check (val % es = 0) cMISALIGN val
  check (base % es = 0) cMISALIGN base
  spadRange idx (4 * n)
  spadRange val (es * n)
  spadRange base (es * ext)
  banksCover (dBANKS d) idx (4 * n)
  banksCover (dBANKS d) val (es * n)
  banksCover (dBANKS d) base (es * ext)
  banksCover (dBANKS d) (da + 28) 4
  .ok (swapPosts (8 + sh) sw ++ postNode node { instr := i, desc := d, shA := m, dpos := da, cid := c.s.cidOf c.u })

/-- AMO at issue (R291). -/
def opAmo (i : Instr) (node xa fn : Nat) (c : OpCtx) : Res (List Post) := do
  let (d, _) ← openDesc c node xa
  let addr := dfield d 16 8
  let opb := dfield d 24 4
  let size := if bitOf fn 4 then 4 else 8
  check (headerOk d false) cILLEGAL 0
  check (opb % 8 = 0) cMISALIGN opb
  spadRange opb 24
  banksCover (dBANKS d) opb 24
  if 2 ^ 56 ≤ addr then raiseR cACCESS (walkReason 5 3 6) addr
  check (addr % size = 0) cMISALIGN addr
  let xl ← xlateRange c addr size (if fn % 16 = 11 then 6 else 5)
  .ok (postNode node { instr := i, desc := d, xlate := xl, cid := c.s.cidOf c.u } ++ leasePosts c (if fn % 16 = 11 then 6 else 5) xl)

/-- The granules of a range that translate for a read, the others left out (R292). -/
def granulesMapped (c : OpCtx) (addr n : Nat) : List (Nat × Nat) :=
  (granulesOf addr n).filterMap (fun g =>
    match xlate c (65536 * g) 0 with
    | .ok (pa, nc, _) => some (g, 2 * (pa / 65536) + (if nc then 1 else 0))
    | .error _ => none)
/-- PREF, RGWB and RGINV at issue (R292): PREF takes no trap beyond those of its descriptor. -/
def opCache (i : Instr) (pref : Bool) (node xa : Nat) (c : OpCtx) : Res (List Post) := do
  let (d, _) ← openDesc c node xa
  let addr := dfield d 16 8
  let n := dfield d 24 4
  check (headerOk d false && decide (1 ≤ n) && decide (n ≤ 2 ^ 31)) cILLEGAL 0
  let xl : List (Nat × Nat) ←
    if pref then .ok (granulesMapped c addr n)
    else xlateRange c addr n 0
  .ok (postNode node { instr := i, desc := d, xlate := xl, cid := c.s.cidOf c.u } ++ leasePosts c 0 xl)

/-- ZSPL and ZFIL at issue (R278). -/
def opMule (i : Instr) (fill : Bool) (node xa : Nat) (c : OpCtx) : Res (List Post) := do
  let (d, _) ← openDesc c node xa
  let addr := dfield d 16 8
  let z := dfield d 24 1
  let nz := dfield d 25 1
  check (headerOk d false && decide (z + nz ≤ 63)) cILLEGAL 0
  if 2 ^ 56 < addr + 32768 * (nz + 1) then raiseR cACCESS (walkReason 3 3 6) (max addr (2 ^ 56))
  check (addr % 512 = 0) cMISALIGN addr
  let xl ← xlateRange c addr (32768 * (nz + 1)) (if fill then 3 else 4)
  .ok (postNode node { instr := i, desc := d, xlate := xl, cid := c.s.cidOf c.u } ++ leasePosts c (if fill then 3 else 4) xl)

/-- The Bench delay (R294). -/
def benchDelay (s t : Nat) : Nat :=
  let dist := fun a b => if a ≤ b then b - a else a - b
  4 + dist (s / 8) (t / 8) + dist (s % 8) (t % 8)
/-- BTX (R294): ILLEGAL outside a transfer phase (R293). The post names the target tile. -/
def opBtx (a tile : Nat) (c : OpCtx) : Res (List Post) := do
  check c.core.benchFrom.isSome cILLEGAL 0
  let sa ← readNonEmpty c a
  .ok ({ lat := 0, eff := .benchSend (64 * tile + c.k) sa.v (benchDelay c.k tile) } :: sa.posts)
/-- BSEL (R294). -/
def opBsel (d tile : Nat) (c : OpCtx) : Res (List Post) := do
  check c.core.benchFrom.isSome cILLEGAL 0
  match sget none c.t.bench tile with
  | none => raise cLATCH_EMPTY (tile + 64)
  | some v => dstPosts c d 1 v allOnes

def execCopy (node sh sw xa : Nat) (s : State) : Out := issueTiles s 6 (opCopy (.copy node sh sw xa) node sh sw xa)
def execGath (node sh sw xa : Nat) (s : State) : Out := issueTiles s 6 (opGathScat (.gath node sh sw xa) true node sh sw xa)
def execScat (node sh sw xa : Nat) (s : State) : Out := issueTiles s 6 (opGathScat (.scat node sh sw xa) false node sh sw xa)
def execScacc (node sh sw xa fn : Nat) (s : State) : Out :=
  issueTiles s 6 (opScacc (.scacc node sh sw xa fn) node sh sw xa)
def execAmo (node xa fn : Nat) (s : State) : Out := issueTiles s 6 (opAmo (.amo node xa fn) node xa fn)
def execPref (node xa fn : Nat) (s : State) : Out := issueTiles s 6 (opCache (.pref node xa fn) true node xa)
def execRgwb (node xa : Nat) (s : State) : Out := issueTiles s 6 (opCache (.rgwb node xa) false node xa)
def execRginv (node xa : Nat) (s : State) : Out := issueTiles s 6 (opCache (.rginv node xa) false node xa)
def execZspl (node xa : Nat) (s : State) : Out := issueTiles s 6 (opMule (.zspl node xa) false node xa)
def execZsplCopy (node xa : Nat) (s : State) : Out := issueTiles s 6 (opMule (.zsplCopy node xa) false node xa)
def execZfil (node xa : Nat) (s : State) : Out := issueTiles s 6 (opMule (.zfil node xa) true node xa)
def execBtx (a tile : Nat) (s : State) : Out := issueTiles s 6 (opBtx a tile)
def execBsel (d tile : Nat) (s : State) : Out := issueTiles s 6 (opBsel d tile)

end Sys2Proof.Machine
end

