-- ==== Sys2Proof/Machine/Engine.lean ====
section
/-! DEFINITION. What the tensor, atomic, cache and Mule commands do when their nodes run (R269, R277, R278, R282, R288 to
R292), and XWT (R283). -/
namespace Sys2Proof.Machine

/-- The bytes of a list of pieces of a tensor: of the scratchpad, or of memory under the held translations. -/
def piecesRead (s : State) (u : Nat) (cmd : NodeCmd) (spad : Bool) (ps : List (Int × Nat)) : List Byte :=
  ps.flatMap (fun p => if spad then (s.tile u).spadBytes p.1.toNat p.2 else s.peekHeld u cmd.xlate p.1.toNat p.2)
/-- Bytes written over a list of pieces, in order. -/
def piecesWrite (s : State) (u : Nat) (cmd : NodeCmd) (spad : Bool) : List (Int × Nat) → List Byte → State
  | [], _ => s
  | p :: ps, bs =>
    let part := bs.take p.2
    let s1 := if spad then s.modTile u (fun t => t.putSpad p.1.toNat part) else s.storeHeld u cmd.xlate p.1.toNat part
    piecesWrite s1 u cmd spad ps (bs.drop p.2)
/-- The lines a read from memory allocates (R336): a SCAT source allocates no Adit line. -/
def piecesFill (s : State) (u : Nat) (cmd : NodeCmd) (spad : Bool) (ps : List (Int × Nat)) : State :=
  let viaAdit := match cmd.instr with
    | .scat _ _ _ _ => false
    | _ => true
  if spad then s else ps.foldl (fun s p => s.fillHeld u cmd.xlate p.1.toNat p.2 viaAdit) s
/-- One row moves: read whole, then written (R288). -/
def moveRow (s : State) (u : Nat) (cmd : NodeCmd) (sps dps : Bool) (src dst : List (Int × Nat)) : State :=
  let bs := piecesRead s u cmd sps src
  piecesWrite (piecesFill s u cmd sps src) u cmd dps dst bs

/-- The rows of a share, each as its pieces (R288). -/
def shareRowPieces (m : SMap DWord) (die : Nat) : List (List (Int × Nat)) :=
  (shareRows m die).map (fun a => (rowPieces m die).map (fun p => (a + p.1, p.2)))
/-- The rows of a COPY: source and destination pieces. -/
def copyRows (u : Nat) (cmd : NodeCmd) : List (List (Int × Nat) × List (Int × Nat)) :=
  (shareRowPieces cmd.shA (u % 4)).zip (shareRowPieces cmd.shB (u % 4))
/-- One row of a COPY moves, and its bytes are counted at the barrier it names (R289). -/
def copyRow (s : State) (u : Nat) (cmd : NodeCmd) (r : List (Int × Nat) × List (Int × Nat)) : State :=
  let sp := dfield cmd.desc 16 1
  let s1 := moveRow s u cmd (bitOf sp 0) (bitOf sp 1) r.1 r.2
  match abarKey u cmd.desc with
  | some key => s1.barMod (s.core (u / 4)).group key (fun b => { b with exp := b.exp - r.2.foldl (fun n p => n + p.2) 0 })
  | none => s1
/-- The rows a COPY has still to move. -/
def copyRest (s : State) (u : Nat) (cmd : NodeCmd) : State :=
  ((copyRows u cmd).drop cmd.result).foldl (fun s r => copyRow s u cmd r) s

/-- A signed I32 index of a list in the scratchpad. -/
def idxAt (s : State) (u a q : Nat) : Int := sextNat ((s.tile u).spadNat (a + 4 * q) 4) 32
/-- STATUS of a GATH, SCAT or SCACC in its descriptor (R282, R288). -/
def putStatus (s : State) (u : Nat) (cmd : NodeCmd) (off v : Nat) : State := s.modTile u (fun t => t.putSpad (cmd.dpos + off) (leBytes 4 v))
/-- GATH and SCAT (R288). -/
def gathScatRun (s : State) (u : Nat) (cmd : NodeCmd) (gath : Bool) : State :=
  let sp := dSPACE cmd.desc
  let ext := (sf (if gath then cmd.shA else cmd.shB) 2).toNat
  let still := emptyRows cmd.shA || emptyRows cmd.shB
  let (s1, skipped) := (upTo (dfield cmd.desc 20 4)).foldl (fun (acc : State × Nat) q =>
    let i := idxAt acc.1 u (dIDX cmd.desc) q
    if i < 0 ∨ (ext : Int) ≤ i then (acc.1, acc.2 + 1)
    else if still then acc
    else
      let row := fun (m : SMap DWord) (j : Int) => [(rowOf m j, rowBytes m)]
      let src := row cmd.shA (if gath then i else q)
      let dst := row cmd.shB (if gath then q else i)
      (moveRow acc.1 u cmd (bitOf sp 0) (bitOf sp 1) src dst, acc.2)) (s, 0)
  putStatus s1 u cmd 28 skipped

/-- op_f of R290 on elements of a format 0 FP32, 1 BF16, 2 I32. -/
def accumOp (fmt fn x y : Nat) : Fl :=
  let f : FFmt := if fmt = 1 then .bf16 else .fp32
  match fn with
  | 0 => if fmt = 2 then ((x + y) % 2 ^ 32, 0) else fadd f x y
  | 1 => if fmt = 2 then (if sextNat y 32 < sextNat x 32 then y else x, 0) else fminmax f false x y
  | 2 => if fmt = 2 then (if sextNat x 32 < sextNat y 32 then y else x, 0) else fminmax f true x y
  | _ => (Nat.lor x y, 0)
/-- One window of SCACC merged in stream order (R290): the merged values in order of first appearance, the skipped count,
the flags. -/
def scaccMerge (fmt fn ext : Nat) : List (Int × Nat) → List (Nat × Nat) → Nat → Flags → List (Nat × Nat) × Nat × Flags
  | [], m, k, fl => (m, k, fl)
  | (i, v) :: rest, m, k, fl =>
    if i < 0 ∨ (ext : Int) ≤ i then scaccMerge fmt fn ext rest m (k + 1) fl
    else match m.find? (fun p => decide (p.1 = i.toNat)) with
      | none => scaccMerge fmt fn ext rest (m ++ [(i.toNat, v)]) k fl
      | some p =>
        let (w, g) := accumOp fmt fn p.2 v
        scaccMerge fmt fn ext rest (m.map (fun x => if x.1 = i.toNat then (x.1, w) else x)) k (fl ||| g)
/-- SCACC (R290). -/
def scaccRun (s : State) (u : Nat) (cmd : NodeCmd) (fn : Nat) : State × Flags :=
  let fmt := (sf cmd.shA 8).toNat
  let es := elemBits fmt / 8
  let base := (sf cmd.shA 0).toNat
  let ext := (sf cmd.shA 1).toNat
  let n := dfield cmd.desc 20 4
  let (s1, skipped, fl) := (upTo ((n + 63) / 64)).foldl (fun (acc : State × Nat × Flags) w =>
    let ents := (upTo (min 64 (n - 64 * w))).map (fun j =>
      (idxAt acc.1 u (dfield cmd.desc 16 4) (64 * w + j), (acc.1.tile u).spadNat (dfield cmd.desc 24 4 + es * (64 * w + j)) es))
    let (m, k, g) := scaccMerge fmt fn ext ents [] 0 0
    let (s', g') := m.foldl (fun (a : State × Flags) p =>
      let (v, h) := accumOp fmt fn ((a.1.tile u).spadNat (base + es * p.1) es) p.2
      (a.1.modTile u (fun t => t.putSpad (base + es * p.1) (leBytes es v)), a.2 ||| h)) (acc.1, g)
    (s', acc.2.1 + k, acc.2.2 ||| g')) (s, 0, (0 : Flags))
  (putStatus s1 u cmd 28 skipped, fl)

/-- The new value of an AMO (R291); `b` is the width in bits. -/
def amoNew (op b old opd cmp : Nat) : Fl :=
  match op with
  | 0 => (opd, 0)
  | 1 => (if old = cmp then opd else old, 0)
  | 2 => ((old + opd) % 2 ^ b, 0)
  | 3 => (Nat.land old opd, 0)
  | 4 => (Nat.lor old opd, 0)
  | 5 => (Nat.xor old opd, 0)
  | 6 => (if sextNat old b < sextNat opd b then opd else old, 0)
  | 7 => (if sextNat opd b < sextNat old b then opd else old, 0)
  | 8 => (max old opd, 0)
  | 9 => (min old opd, 0)
  | 10 => add32 old opd
  | _ => (old, 0)
/-- AMO (R291): the line is atomic-only, the old value goes to the block; one that loads is an event of the line too (R321). -/
def amoRun (s : State) (u : Nat) (cmd : NodeCmd) (fn : Nat) : State × Flags :=
  let addr := dfield cmd.desc 16 8
  let opb := dfield cmd.desc 24 4
  let size := if bitOf fn 4 then 4 else 8
  let (pa, _) := heldPa cmd.xlate addr
  let s1 := s.markAtomic (pa / 64)
  let old := s1.memNat pa size
  let t := s1.tile u
  let (new, fl) := amoNew (fn % 16) (8 * size) old (t.spadNat opb size) (t.spadNat (opb + 8) size)
  let s2 := if fn % 16 = 11 then s1.touchLine (pa / 64) else s1.putMemNat pa size new
  (s2.modTile u (fun t => t.putSpad (opb + 16) (leBytes 8 old)), fl)

/-- Whether a physical line belongs to a virtual range under held translations. -/
def lineIn (xl : List (Nat × Nat)) (va len ln : Nat) : Bool :=
  xl.any (fun p => decide (p.2 / 2 = ln / 1024) &&
    (let a := p.1 * 65536 + ln % 1024 * 64
     decide (va < a + 64) && decide (a < va + len)))
/-- PREF, RGWB and RGINV (R292); of the two prefetches only `pref.l2` allocates Adit lines (R336). -/
def prefRun (s : State) (u : Nat) (cmd : NodeCmd) (l2 : Bool) : State :=
  let s1 := s.fillHeld u cmd.xlate (dfield cmd.desc 16 8) (dfield cmd.desc 24 4) l2
  if l2 then s1.modTile u (fun t => { t with rc := (s.tile u).rc }) else s1
def rgwbRun (s : State) (cmd : NodeCmd) : State :=
  let inR := lineIn cmd.xlate (dfield cmd.desc 16 8) (dfield cmd.desc 24 4)
  (upTo 4).foldl (fun s d => (sget [] s.l2 d).foldl (fun s p => if inR p.1 then s.writeBack d p.1 else s) s) s
def rginvRun (s : State) (u : Nat) (cmd : NodeCmd) : State :=
  let inR := lineIn cmd.xlate (dfield cmd.desc 16 8) (dfield cmd.desc 24 4)
  let s1 := rgwbRun s cmd
  let keep := fun (m : SMap Line) => m.filter (fun p => !(inR p.1))
  let d := u % 4
  { s1 with
    l2 := s1.l2.map (fun p => (p.1, keep p.2))
    adit := s1.adit.map (fun p => if p.1 / 3 = d then (p.1, keep p.2) else p)
    tiles := s1.tiles.map (fun p => if p.1 < 256 ∧ p.1 % 4 = d then (p.1, { p.2 with rc := keep p.2.rc }) else p) }

/-- The home L2 of every die gives up a line before the Mule touches it (R277). -/
def muleFlush (s : State) (ln : Nat) : State := (upTo 4).foldl (fun s d => s.flushL2 d ln) s
/-- The Mule of die d writes bytes of a virtual range: home L2 lines first, then the stack die, by a peer port for another die's (R277,
R296). -/
def muleWrite (s : State) (d : Nat) (xl : List (Nat × Nat)) (va : Nat) (bs : List Byte) : State :=
  (upTo ((bs.length + 63) / 64)).foldl (fun s j =>
    let (pa, _) := heldPa xl (va + 64 * j)
    ((muleFlush s (pa / 64)).putMem pa ((bs.drop (64 * j)).take 64)).passPort d (pa / 64)) s
/-- The Mule reads a virtual range. -/
def muleRead (s : State) (xl : List (Nat × Nat)) (va len : Nat) : State × List Byte :=
  let s1 := (upTo ((len + 63) / 64)).foldl (fun s j => muleFlush s ((heldPa xl (va + 64 * j)).1 / 64)) s
  (s1, (upTo (len / 64)).flatMap (fun j => s1.memBytes (heldPa xl (va + 64 * j)).1 64))
/-- Transfer x leaves a slot as `v` (R269, R270). -/
def slotRelease (s : State) (u x z : Nat) (v : Slot) : State := s.modTile u (fun t => t.setSlot z ((t.getSlot z).after x v))
/-- A Mule transfer beside the nodes takes a slot, and is launched on its tile (R269, R277). -/
def takeSlot (s : State) (x key : Nat) : State :=
  s.modTile (key / 64) (fun t => (fun (t : Tile) => { t with mule := if t.mule.contains x then t.mule else t.mule ++ [x] })
    (t.setSlot (key % 64) ((t.getSlot (key % 64)).take x)))
/-- The transfer may run on the tiles of all its slots; it is complete there. -/
def mayMoveAll (s : State) (x : Nat) (keys : List Nat) : Bool := keys.all (fun k => (s.tile (k / 64)).mayMove x)
def movedAll (s : State) (x : Nat) (keys : List Nat) : State := keys.foldl (fun s k => s.modTile (k / 64) (fun t => t.moved x)) s
/-- A ZSPL or ZFIL moves its slots (R278): a move zeroes them, a copy or a fill leaves them loaded. -/
def muleRun (s : State) (u n : Nat) (cmd : NodeCmd) : State :=
  let (z0, nz) := cmd.slots
  let addr := dfield cmd.desc 16 8
  (upTo nz).foldl (fun s i =>
    let z := z0 + i
    let va := addr + 32768 * i
    let sl := (s.tile u).getSlot z
    let bytes := (upTo 32768).map (fun a => sget 0 sl.bytes a)
    match cmd.instr with
    | .zfil _ _ =>
      let (s1, bs) := muleRead s cmd.xlate va 32768
      slotRelease s1 u n z { st := .loaded, image := va, bytes := putCells [] (cellsAt 0 bs) }
    | .zspl _ _ =>
      slotRelease (muleWrite s (u % 4) cmd.xlate va bytes) u n z { st := .spilled, image := va }
    | _ =>
      slotRelease (muleWrite s (u % 4) cmd.xlate va bytes) u n z { st := .loaded, image := va, bytes := sl.bytes }) s

/-- XWT (R283): every slot is held at n + 1 until the node is idle on all four tiles; a handler waits in place. -/
def opXwt (node : Nat) (c : OpCtx) : Res (List Post) :=
  if c.single ∧ (upTo 4).any (fun d => decide (((c.s.tile (unitOf c.k d)).getNode node).st ≠ .idle)) then stall else .ok []
def execXwt (node : Nat) (s : State) : Out :=
  issueWith s 6 (opXwt node) (fun s k dies i =>
    if dies.isEmpty || (upTo 4).all (fun d => decide (((s.tile (unitOf k d)).getNode node).st = .idle)) then i
    else { i with after := i.after ++ [.xwt node] })

/-- The acquire and the release of a command (R282, R285). -/
def nodeAcquire (s : State) (u : Nat) (cmd : NodeCmd) : State := if dACQ cmd.desc then acquireAt s u (dSCOPE cmd.desc) else s
def nodeRelease (s : State) (u : Nat) (cmd : NodeCmd) : State := if dREL cmd.desc then releaseAt s u (dSCOPE cmd.desc) else s
/-- Completion (R282), and the waits that it ends. -/
def nodeFinish (s : State) (u n : Nat) (cmd : NodeCmd) (fl : Flags) : State := retryHold (nodeDone (nodeRelease s u cmd) u n fl) (u / 4)

end Sys2Proof.Machine
end

