-- ==== Sys2Proof/Machine/Group.lean ====
section
/-! DEFINITION. Group switches, continuations and the group instructions (R139, R177 to R189). -/
namespace Sys2Proof.Machine

/-- What a group switch empties in a tile (R139, R186, and the chapters of each part); a release also clears FLAGS, MXCNT,
TAGMODE, the handler bank and every LASTPH (R139, R313, R344). -/
def Tile.groupSwitch (release : Bool) (t : Tile) : Tile :=
  let t1 := { t with
    x := [], p := 0, bt := [], arm := 0, k := [], curA := 0, curB := 0, v := [], latch := [], walk := [], shLive := [],
    shShadow := [], parked := 0, pool := false, abank := 0, sbase := 0, parkTag := [], seed := {}, plane0 := {}, plane1 := {},
    liveIs1 := false, sa := [], sb := [], prog := none, scanSt := .idle, settings := [], held := [], scanBuf := [],
    nodes := [], resv := [], bench := [], mule := t.mule.filter (fun x => decide (256 ≤ x)) }
  if release then { t1 with flags := 0, mx := {}, ldt := 0, cvt := false, hx := [], hbt := [], harm := 0, lastph := [] } else t1
/-- A group switch of a core (R32, R160): the loop levels with their counts and bindings (R169), and the return store too. -/
def coreSwitch (s : State) (k : Nat) (release : Bool) : State :=
  ((upTo 4).foldl (fun s d => s.modTile (unitOf k d) (Tile.groupSwitch release)) s).modCore k (fun c =>
    { c with lvls := [], rstk := [], rdepth := 0, retLvl := none, benchFrom := none, benchOwed := [], issue := none })

/-- A core starts a record (R185): an acquire at `.pkg` on its tiles, a group switch, the arguments in x1 to x5. A record whose
line has no translation is not started. -/
def startRecord (s : State) (k r : Nat) (all : Bool) : State :=
  let cid := (s.core k).cid
  let s1 := setRecStatus s cid r 2
  let s2 := (upTo 4).foldl (fun s d => acquireAt s (unitOf k d) 4) s1
  let s3 := coreSwitch s2 k false
  let args := (upTo 4).map (recArg s1 cid r)
  let s4 := (upTo 4).foldl (fun s d => s.modTile (unitOf k d) (fun t =>
    ((upTo 4).foldl (fun t i => t.setX (i + 1) (BitVec.ofNat 64 (nth 0 args i))) t).setX 5 (BitVec.ofNat 64 r))) s3
  s4.modCore k (fun c => { c with st := .running, hold := .none, holdQ := [], curRec := some r, curAll := all, pc := recEntry (recHeader s1 cid r) })

/-- The record a suspended core finds (R185): its own head, else a victim's tail. -/
def findRecord (s : State) (k : Nat) : State × Option Nat :=
  match popHead s k with
  | (s1, some r) => (s1, some r)
  | (s1, none) => sweep s1 (s1.core k).group (quadRing (s1.groupOf k).cores k)
/-- pick_up (R185): regroup records join the held list. -/
def pickUp (s : State) (k : Nat) : Nat → State
  | 0 => s
  | fuel + 1 =>
    let c := s.core k
    if c.st ≠ .suspended ∨ c.frozen then s
    else match findRecord s k with
      | (_, none) => s
      | (s1, some r) =>
        if (s.devPa c.cid r).isNone then s
        else if recAll (recHeader s1 c.cid r) then
          pickUp (s1.modGroup c.group (fun g => { g with held := g.held ++ [r], st := .regrouping })) k fuel
        else startRecord s1 k r false
def execPickUp (core : Nat) (s : State) : Out := .next (if s.hub.stalled ∨ s.hub.fenced then s else pickUp s core 4096)

/-- The core suspends (R186): the group switch, and pick_up. -/
def suspend (s : State) (k : Nat) : State :=
  let s1 := (coreSwitch s k false).modCore k (fun c => { c with st := .suspended, hold := .none, holdQ := [], curRec := none, curAll := false })
  pickUp s1 k 4096

/-- A core whose work on a group's records is over: no deque of the group holds a record (R179, R180). -/
def dequesEmpty (s : State) (kern : Nat) : Bool := (s.group kern).cores.all (fun k => (s.deq kern k).isEmpty)
/-- Every core that has not retired by END is suspended. -/
def allSuspended (s : State) (g : Group) : Bool := g.cores.all (fun k => g.left.contains k || decide ((s.core k).st = .suspended))

/-- The regroup (R179): every core that has not retired starts the oldest held record. A group that still holds a record for a
later regroup stays regrouping. -/
def execRegroup (kern : Nat) (s : State) : Out :=
  let g := s.group kern
  match g.held with
  | [] => .next s
  | r :: rest =>
    if g.st ≠ .regrouping ∨ !(allSuspended s g) ∨ !(dequesEmpty s kern) ∨ (s.devPa g.cid r).isNone
      ∨ g.cores.any (fun k => (s.core k).group = kern ∧ (s.core k).frozen) ∨ s.hub.stalled then .next s
    else
      let live := g.cores.filter (fun k => !(g.left.contains k))
      let s1 := s.setGroup kern { g with st := if rest.isEmpty then .running else .regrouping, held := rest, regroup := some (r, live) }
      .next (live.foldl (fun s k => startRecord s k r true) s1)

/-- The kernel of a group completes (R120, R180): its cores retire and its packets take their outcome. -/
def groupComplete (s : State) (kern : Nat) : State :=
  let g := s.group kern
  let s1 := groupEnd s kern
  ctxSettle (g.pkts.foldl (fun s p => pktOutcome s p 0 0) s1) g.cid
/-- The remote stores of a kernel that have not been acknowledged (R142, R418). -/
def postsLeft (s : State) (kern : Nat) : Bool := s.hub.reqs.any (fun r => decide (r.kern = kern) && decide (r.kind = 2))
/-- The retirement condition of R180, once the kernel's posted writes have reached their homes (R142). -/
def execGroupRetire (kern : Nat) (s : State) : Out :=
  let g := s.group kern
  if (g.st ≠ .running ∧ g.st ≠ .regrouping) ∨ !(allSuspended s g) ∨ !(dequesEmpty s kern) ∨ !g.held.isEmpty ∨ s.hub.stalled ∨ postsLeft s kern
    ∨ g.cores.any (fun k => (s.core k).group = kern ∧ (s.core k).frozen) then .next s
  else .next (groupComplete s kern)

/-- FORK at issue (R188): the record and its counter are checked on the lead die; the core holds until its writes are home. -/
def opFork (xa : Nat) (c : OpCtx) : Res (List Post) := do
  if !c.isLead then .ok []
  else
    let a ← rx c xa
    let (pa, _, ps) ← accessCheck c a.toNat 64 64 2
    let j := leNat (c.s.peek c.u (pa + 40) 8 false)
    if j = 0 then .ok ps
    else
      let (_, _, ps2) ← accessCheck c j 64 64 2
      .ok (ps ++ ps2)
/-- The register that an operation of the lead die reads. -/
def leadX (s : State) (k xa : Nat) : Nat :=
  match rx { s := s, u := leadUnit k, slot := 0, n := (s.core k).bn, single := false } xa with
  | .ok v => v.toNat
  | .error _ => 0
/-- JOINC of the record at a, as the FORK of core k reads it at issue. -/
def forkJoinc (s : State) (k a : Nat) : Nat :=
  match accessCheck { s := s, u := leadUnit k, slot := 0, n := (s.core k).bn, single := false } a 64 64 2 with
  | .ok (pa, _, _) => leNat (s.peek (leadUnit k) (pa + 40) 8 false)
  | .error _ => 0
def execFork (xa : Nat) (s : State) : Out :=
  issueWith s 0 (opFork xa) (fun s k dies i =>
    if dies.contains (k % 4) then { i with after := i.after ++ [.forkWait (leadX s k xa) (forkJoinc s k (leadX s k xa))] } else i)
/-- FORK takes effect (R188): a release at `.pkg`, the record's header and link, the counter j that it checked, the push. -/
def forkStep (s : State) (k a j : Nat) : State :=
  let s1 := landUpTo s k (s.core k).bn
  let s2 := (upTo 4).foldl (fun s d => releaseAt s (unitOf k d) 4) s1
  let c := s2.core k
  let h := recHeader s2 c.cid a
  let s3 := s2.devPut c.cid a 8 (c.group % 2 ^ 32 * 2 ^ 32 + bitsOf h 31 24 * 2 ^ 24 + 65536 + bitsOf h 15 0)
  let s4 := setRecLink s3 c.cid a 0
  let s5 := if j = 0 then s4 else s4.atomPut c.cid j 8 (s4.devGet c.cid j 8 + 1)
  (pushHead s5 k a).modCore k CoreRec.unhold

/-- JOIN at issue (R188). -/
def joinCount (s : State) (k a : Nat) : Nat := s.devGet (s.core k).cid a 8
/-- What the operations of the counter's atomic unit leave of its line: no cache holds it (R182). -/
def State.atomMark (s : State) (cid va : Nat) : State := match s.devPa cid va with
  | some pa => s.markAtomic (pa / 64)
  | none => s
def opJoin (xa : Nat) (c : OpCtx) : Res (List Post) := do
  if !c.isLead then .ok []
  else
    let a ← rx c xa
    let (pa, _, ps) ← accessCheck c a.toNat 64 64 2
    check (joinCount c.s c.k a.toNat = 0 || (c.core.curRec.isSome && !c.core.curAll)) cILLEGAL 0
    .ok ({ lat := 0, eff := .atomic pa } :: ps)
/-- A JOIN that suspends and issues on the lead die only beside some others changes fetch there alone (R188): the core, the slot
word and the dies that differ. What the JOIN itself raises at its address or for want of a continuation comes first. -/
def joinSplit (xa : Nat) (s : State) : Option (Nat × Nat × List Nat) :=
  match s.turn with
  | .core k => match (s.core k).issue with
    | some i =>
      let dies := i.dies 0
      match opJoin xa { s := s, u := leadUnit k, slot := 0, n := (s.core k).bn, single := false } with
      | .ok _ =>
        if i.brtDone ∧ i.slot = 0 ∧ dies.contains (k % 4) ∧ dies.length < 4 ∧ joinCount s k (leadX s k xa) ≠ 0 then
          some (k, nth 0 i.words 0, (upTo 4).filter (fun d => !(dies.contains d)))
        else none
      | .error _ => none
    | none => none
  | _ => none
def execJoin (xa : Nat) (s : State) : Out :=
  match joinSplit xa s with
  | some (k, w, ds) => .next (takeTrap s k cILLEGAL_BUNDLE 0 (ds.map (fun d => ⟨d, 0, w⟩)))
  | none =>
    issueWith s 0 (opJoin xa) (fun s k dies i =>
      if !(dies.contains (k % 4)) then i
      else if joinCount s k (leadX s k xa) = 0 then { i with after := i.after ++ [.sync 0 4 ([0, 1, 2, 3].map (fun d => (d, 0)))] }
      else { i with after := i.after ++ [.joinDrain (leadX s k xa) i.addr] })

/-- STEAL (R188): one pending predicate on every tile of the core. -/
def opSteal (pd : Nat) (_ : OpCtx) : Res (List Post) := .ok [{ lat := 1, eff := .predPending pd 0, inter := true, pend := true }]
def execSteal (pd : Nat) (s : State) : Out :=
  issueWith s 0 (opSteal pd) (fun s k dies i =>
    let n := (s.core k).bn
    let more : List Entry := ((upTo 4).filter (fun d => !(dies.contains d))).map (fun d =>
      { due := n + 1, issue := n, slot := 0, unit := unitOf k d, eff := .predPending pd 0, inter := true, pend := true })
    { i with staged := i.staged ++ more })

/-- SUSP (R188). -/
def execSusp (s : State) : Out := issueWith s 0 opNone (fun _ _ _ i => { i with after := i.after ++ [.suspDrain] })
/-- YIELD (R188): ILLEGAL outside a continuation and in a regroup record. -/
def opYield (c : OpCtx) : Res (List Post) := check (c.core.curRec.isSome && !c.core.curAll) cILLEGAL 0 >>= fun _ => .ok []
def execYield (s : State) : Out := issueWith s 0 opYield (fun _ _ _ i => { i with after := i.after ++ [.yieldDrain i.addr] })

/-- The records of a waiter chain become READY and are pushed (R188). The bound is the number of 64-byte lines of package memory:
no chain of different records is longer. -/
def wakeChain (s : State) (k : Nat) : Nat → Nat → State
  | 0, _ => s
  | fuel + 1, w =>
    if w = 0 then s
    else
      let cid := (s.core k).cid
      let next := recLink s cid w
      wakeChain (pushHead (setRecStatus s cid w 1) k w) k fuel next
/-- The end of a record at SUSP (R182, R188): DONE, and its counter's decrement with the wakes of a zero; a COUNT of 0
stays, and nothing is written or woken. -/
def finishRecord (s : State) (k r : Nat) : State :=
  let cid := (s.core k).cid
  let s1 := setRecStatus s cid r 4
  let j := recJoinc s1 cid r
  if j = 0 then s1
  else
    let n := s1.devGet cid j 8
    let s2 := if n = 0 then s1.atomMark cid j else s1.atomPut cid j 8 (n - 1)
    if n ≠ 1 then s2
    else
      let w := s2.devGet cid (j + 8) 8
      (wakeChain s2 k (memSize / 64) w).atomPut cid (j + 8) 8 0
/-- SUSP after its drain (R179, R188). -/
def suspStep (s : State) (k : Nat) : State :=
  let c := s.core k
  match c.curRec with
  | none => suspend s k
  | some r =>
    if c.curAll then
      let g := s.group c.group
      let rest := match g.regroup with
        | some (_, ks) => ks.filter (fun x => decide (x ≠ k))
        | none => []
      let s1 := s.setGroup c.group { g with regroup := if rest.isEmpty then none else some (r, rest) }
      if rest.isEmpty then suspend (finishRecord s1 k r) k else suspend s1 k
    else suspend (finishRecord s k r) k
/-- YIELD after its drain (R188). -/
def yieldStep (s : State) (k addr : Nat) : State :=
  let c := s.core k
  match c.curRec with
  | none => suspend s k
  | some r => suspend (pushTail (setRecStatus (setRecEntry s c.cid r (addr + 1)) c.cid r 1) k r) k
/-- JOIN after its drain (R188): the core goes on when the counter has reached 0 meanwhile, else its record waits. -/
def joinStep (s0 : State) (k a addr : Nat) : State :=
  let s := s0.atomMark (s0.core k).cid a
  let c := s.core k
  if joinCount s k a = 0 then
    ((upTo 4).foldl (fun s d => acquireAt s (unitOf k d) 4) s).modCore k CoreRec.unhold
  else match c.curRec with
    | none => suspend s k
    | some r =>
      let s1 := setRecStatus (setRecEntry s c.cid r (addr + 1)) c.cid r 3
      let s2 := setRecLink s1 c.cid r (s1.devGet c.cid (a + 8) 8)
      suspend (s2.atomPut c.cid (a + 8) 8 r) k

/-- The drain of a suspension point ends (R186): a release at `.pkg`, and the action. -/
def execSuspensionDrainDone (core : Nat) (s : State) : Out :=
  let c := s.core core
  let go (f : State → State) : Out :=
    if c.frozen ∨ s.hub.stalled then .next s
    else match drainCore s core with
      | none => .next s
      | some s1 =>
        if nodesIdle s1 core && remoteIdle s1 core then .next (f ((upTo 4).foldl (fun s d => releaseAt s (unitOf core d) 4) s1)) else .next s
  match c.hold with
  | .suspDrain => go (fun s => suspStep s core)
  | .yieldDrain addr => go (fun s => yieldStep s core addr)
  | .joinDrain a addr => go (fun s => joinStep s core a addr)
  | _ => .next s

/-- A core's own next act when it is held: FORK's step, or the waits that end by themselves. -/
def heldStep (s : State) (k : Nat) : State :=
  let c := s.core k
  match c.hold with
  | .forkWait a j => if c.frozen || s.hub.stalled || landsLate s k c.bn then s else forkStep s k a j
  | _ => s.unlessStalled (retryHold s k)

end Sys2Proof.Machine
end

