-- ==== Sys2Proof/Machine/Packet.lean ====
section
/-! DEFINITION. Packets, queues and buffer handles (R109 to R123): the fields and limits of a packet, what taking it from its
queue does, its outcome, the handles it names and the packets that hold it. -/
namespace Sys2Proof.Machine

/-- `len` bytes of a record from byte `off`. -/
def field (b : List Byte) (off len : Nat) : Nat := leNat ((b.drop off).take len)
/-- The header of a packet (R117). -/
def pOP (b : List Byte) : Nat := field b 0 1
def pBAR (b : List Byte) : Bool := bitOf (field b 0 2) 8
def pCPL (b : List Byte) : Bool := bitOf (field b 0 2) 9
def pIRQ (b : List Byte) : Bool := bitOf (field b 0 2) 10
def pTAG (b : List Byte) : Nat := field b 2 2
def pCPLADDR (b : List Byte) : Nat := field b 8 8
/-- SUB and CID of a context-control packet (R118). -/
def pSUB (b : List Byte) : Nat := field b 16 1
def pCID (b : List Byte) : Nat := field b 20 4

/-- The status codes of R120. -/
def stOK : Nat := 0
def stBAD_PACKET : Nat := 1
def stBAD_VALUE : Nat := 2
def stBAD_STATE : Nat := 3
def stTIMEOUT : Nat := 4
def stSKIPPED : Nat := 5
def stPROG_REFUSED : Nat := 6
def stPROG_FAIL : Nat := 7
def stLAYOUT_UNKNOWN : Nat := 8
def stTRAPPED : Nat := 9
def stCANCELLED : Nat := 10
def stDENIED : Nat := 11
def stHANDLES_FULL : Nat := 12

/-- Whether two byte ranges share a byte. -/
def overlaps (a la b lb : Nat) : Bool := decide (a < b + lb) && decide (b < a + la)

/-- The limits of a packet's command (R117, R118, R121); those of UNMAP and BIND's range are refusals of the command (R300,
R329, log 31). -/
def packetOk (b : List Byte) : Bool :=
  (!(pCPL b) || decide (pCPLADDR b % 16 = 0)) && (match pOP b with
  | 1 => decide (field b 16 8 % 4096 = 0) && decide (field b 24 8 % 64 = 0) && decide (field b 40 2 ≤ 64)
  | 2 => decide (field b 16 8 % 4096 = 0) && decide (field b 40 2 ≤ 64) && decide (2 ≤ field b 44 4) && decide (field b 44 4 ≤ 1048576)
  | 3 => decide (1 ≤ field b 32 8) && decide (field b 32 8 ≤ 2 ^ 40) && !(overlaps (field b 16 8) (field b 32 8) (field b 24 8) (field b 32 8))
  | 4 => decide (field b 16 8 % 64 = 0)
  | 5 =>
    let off := field b 28 2
    let len := field b 30 2
    decide (off % 8 = 0) && decide (len % 8 = 0) && decide (8 ≤ len) && decide (off + len ≤ 48)
      && (if bitOf (field b 40 1) 0 then decide (field b 32 8 % 8 = 0) else decide (len = 8))
  | 6 => decide (field b 40 2 ≤ 255) && decide (field b 32 8 % 64 = 0)
  | 7 => true
  | 8 => decide (field b 16 8 % 8 = 0) && decide (field b 32 1 ≤ 2)
  | 9 => decide (field b 32 1 ≤ 2)
  | 10 => match pSUB b with
    | 2 => decide (field b 24 1 ≤ 4)
    | 7 => decide (1 ≤ field b 26 2) && decide (field b 26 2 ≤ 512) && decide (1 ≤ field b 28 2) && decide (field b 28 2 ≤ 512)
    | 12 => decide (1 ≤ field b 32 4) && decide (field b 32 4 ≤ 65536) && decide (field b 36 1 ≤ 2)
    | n => decide (n ≤ 12)
  | _ => false)

/-- Queues and gangs by number; a gang's key joins its context's number and its own. -/
def State.queue (s : State) (q : Nat) : Queue := sget {} s.hub.queues q
def State.setQueue (s : State) (q : Nat) (v : Queue) : State := { s with hub := { s.hub with queues := sset {} s.hub.queues q v } }
def State.modQueue (s : State) (q : Nat) (f : Queue → Queue) : State := s.setQueue q (f (s.queue q))
def State.gang (s : State) (g : Nat) : Gang := sget {} s.hub.gangs g
def State.setGang (s : State) (g : Nat) (v : Gang) : State := { s with hub := { s.hub with gangs := sset {} s.hub.gangs g v } }
def State.modGang (s : State) (g : Nat) (f : Gang → Gang) : State := s.setGang g (f (s.gang g))
def gangKey (cid g : Nat) : Nat := cid * 256 + g
def Queue.gangOf (q : Queue) : Nat := gangKey q.cid q.gang
/-- The queues of a gang in ascending number: those created and not destroyed. -/
def State.gangQueues (s : State) (g : Nat) : List (Nat × Queue) :=
  s.hub.queues.filter (fun p => decide (p.2.gangOf = g) && decide (p.2.st ≠ .absent) && decide (p.2.st ≠ .destroyed))
/-- Packets published and not taken (R111). -/
def Queue.pending (q : Queue) : Nat := (q.wptr + 2 ^ 32 - q.rptr) % 2 ^ 32
/-- The bytes of ring packet i as the front end reads them; a packet that it cannot read has none (log 32). -/
def ringPacket (s : State) (q : Queue) (i : Nat) : List Byte :=
  (s.hubRead q.cid (q.ring + 64 * (i % 2 ^ q.logn)) 64).getD []
/-- The time at which a doorbell made packet i visible (R128). -/
def visTime (q : Queue) (i : Nat) : Nat :=
  match q.vis.find? (fun p => decide ((p.1 + 2 ^ 32 - q.rptr) % 2 ^ 32 > (i + 2 ^ 32 - q.rptr) % 2 ^ 32)) with
  | some p => p.2
  | none => 0

/-- A queue of the gang is ready (R114). -/
def State.gangWaits (s : State) (g : Nat) : Bool := (s.gangQueues g).any (fun p => decide (p.2.st = .ready))
/-- One level for each full 10 ms that a gang with a ready queue has dispatched nothing (R114). -/
def ageGang (s : State) (g : Nat) : State :=
  if (s.gang g).mapped && s.gangWaits g then
    s.modGang g (fun v =>
      let n := (s.ptime - v.agingFrom) / 10000000
      { v with eff := max v.eff (min 7 (v.eff + n)), agingFrom := v.agingFrom + 10000000 * n })
  else s
def ageGangs (s : State) : State := s.hub.gangs.foldl (fun s g => ageGang s g.1) s
/-- A queue with packets is ready; the gang's waiting begins with its first ready queue (R112, R114). -/
def queueReady (s : State) (q : Nat) : State :=
  let v := s.queue q
  let s1 := if s.gangWaits v.gangOf then s else s.modGang v.gangOf (fun g => { g with agingFrom := s.ptime })
  s1.setQueue q { v with st := if v.pending = 0 then .idle else .ready }

/-- The read index moves past a packet, and is written to the descriptor (R111); the doorbells that showed packets now behind it
are forgotten. -/
def advance (s : State) (q : Nat) : State :=
  let v := s.queue q
  let r := (v.rptr + 1) % 2 ^ 32
  let ahead := fun (p : Nat × Nat) => decide ((p.1 + 2 ^ 32 - r) % 2 ^ 32 ≠ 0) && decide ((p.1 + 2 ^ 32 - r) % 2 ^ 32 ≤ (v.wptr + 2 ^ 32 - r) % 2 ^ 32)
  (s.setQueue q { v with rptr := r, heads := v.heads.drop 1, vis := v.vis.filter ahead }).hubWrite v.descCid (v.desc + 12) (leBytes 4 r)

/-- A new packet record; its key is its place in the front-end order (R113). -/
def addPkt (s : State) (p : Pkt) : State × Nat :=
  let id := s.hub.nextPkt
  ({ s with hub := { s.hub with nextPkt := id + 1, pkts := sset {} s.hub.pkts id p } }, id)
/-- The head packet leaves its queue, with an outcome when it is not dispatched. -/
def takePkt (s : State) (q : Nat) (bytes : List Byte) (outcome : Option (Nat × Nat)) : State × Nat :=
  let (s1, id) := addPkt s { queue := q, cid := (s.queue q).cid, bytes := bytes, outcome := outcome }
  let s2 := advance (s1.modQueue q (fun v => { v with out := v.out ++ [id] })) q
  let v := s2.queue q
  (s2.setQueue q { v with st := if v.pending = 0 then .idle else .ready }, id)
/-- The head packet completes with a status, and its queue enters error (R112): the read index stays at it until QRESET. -/
def failPkt (s : State) (q : Nat) (bytes : List Byte) (status detail : Nat) : State :=
  let (s1, id) := addPkt s { queue := q, cid := (s.queue q).cid, bytes := bytes, outcome := some (status, detail) }
  s1.modQueue q (fun v => { v with st := .error, out := v.out ++ [id] })

/-- The handle-list entries of a packet (R118, R122): handle, mode, flags, base, length. COPY names its handles itself. -/
structure HEntry where
  handle : Nat
  mode : Nat
  transient : Bool
  base : Nat
  bytes : Nat
  deriving DecidableEq, Repr
def parseHandles (bs : List Byte) (n : Nat) : List HEntry :=
  (upTo n).map (fun i =>
    { handle := field bs (32 * i) 4, mode := field bs (32 * i + 4) 1, transient := bitOf (field bs (32 * i + 5) 1) 0,
      base := field bs (32 * i + 8) 8, bytes := field bs (32 * i + 16) 8 })
/-- The handle list of a packet; none where the front end cannot read it (R133). -/
def handlesOf (s : State) (cid : Nat) (b : List Byte) : Option (List HEntry) :=
  match pOP b with
  | 1 => (s.hubRead cid (field b 32 8) (32 * field b 40 2)).map (fun bs => parseHandles bs (field b 40 2))
  | 2 => (s.hubRead cid (field b 32 8) (32 * field b 40 2)).map (fun bs => parseHandles bs (field b 40 2))
  | 3 =>
    let one (h mode base : Nat) : List HEntry := if h = 0 then [] else [{ handle := h, mode := mode, transient := false, base := base, bytes := field b 32 8 }]
    some (one (field b 40 4) 1 (field b 16 8) ++ one (field b 44 4) 2 (field b 24 8))
  | _ => some []
/-- The limits of a handle-list entry (R122). -/
def HEntry.ok (e : HEntry) : Bool := decide (e.handle ≠ 0) && decide (1 ≤ e.mode) && decide (e.mode ≤ 3) && decide (e.bytes ≠ 0)
/-- The ranges that the table and earlier entries give each handle: none where one differs (R122). -/
def namedRanges (m : SMap (Nat × Nat)) : List HEntry → Option (SMap (Nat × Nat))
  | [] => some m
  | e :: es =>
    let r := sget (0, 0) m e.handle
    if r = (0, 0) then namedRanges (sput m e.handle (e.base, e.bytes)) es
    else if r = (e.base, e.bytes) then namedRanges m es else none
/-- The status that a packet's handles give it: none, BAD_PACKET, BAD_VALUE or HANDLES_FULL (R117, R122). -/
def handlesStatus (x : Ctx) (es : List HEntry) : Option Nat :=
  if es.any (fun e => !e.ok) then some stBAD_PACKET
  else match namedRanges (x.handles.map (fun h => (h.1, (h.2.base, h.2.bytes)))) es with
    | none => some stBAD_VALUE
    | some m => if 4096 < m.length then some stHANDLES_FULL else none
/-- One mode for each handle that a packet names, the union of its entries'. -/
def mergeHandles : List HEntry → List HEntry → List HEntry
  | acc, [] => acc
  | acc, e :: es =>
    if acc.any (fun a => decide (a.handle = e.handle)) then
      mergeHandles (acc.map (fun a => if a.handle = e.handle then
        { a with mode := Nat.lor a.mode e.mode, transient := a.transient || e.transient } else a)) es
    else mergeHandles (acc ++ [e]) es

/-- A packet has not completed. -/
def State.open_ (s : State) (p : Nat) : Bool := s.hub.pkts.any (fun x => decide (x.1 = p))
/-- A handle holds a packet that names it with a mode (R123). -/
def Handle.holds (s : State) (h : Handle) (mode : Nat) : Bool :=
  let writer := match h.writer with
    | some w => s.open_ w
    | none => false
  if bitOf mode 1 then writer || (if h.overflow then h.named.any s.open_ else h.readers.any s.open_) else writer
def handlesHold (s : State) (cid : Nat) (es : List HEntry) : Bool :=
  es.any (fun e => (sget {} (s.ctx cid).handles e.handle).holds s e.mode)

/-- Every read-cache and Adit line that covers a range of the context is invalidated on every C-die (R123, R308). -/
def invalidateRange (s : State) (cid va len : Nat) : State :=
  let pages := (upTo (len / 65536 + 2)).filterMap (fun i =>
    let a := va / 65536 * 65536 + 65536 * i
    if a < va + len then (s.devPa cid a).map (fun pa => (a, pa)) else none)
  let inR (ln : Nat) : Bool := pages.any (fun p => decide (p.2 / 65536 = ln / 1024) &&
    (let a := p.1 + ln % 1024 * 64
     decide (va < a + 64) && decide (a < va + len)))
  let keep := fun (m : SMap Line) => m.filter (fun p => !(inR p.1))
  { s with adit := s.adit.map (fun p => (p.1, keep p.2)), tiles := s.tiles.map (fun p => (p.1, { p.2 with rc := keep p.2.rc })) }
/-- Every home-L2 line of a range is given up on every die, written back first if `back` (R308). -/
def dropL2Range (s : State) (cid va len : Nat) (back : Bool) : State :=
  (upTo (len / 64 + 2)).foldl (fun s i =>
    let a := va / 64 * 64 + 64 * i
    if a < va + len then match s.devPa cid a with
      | some pa => (upTo 4).foldl (fun s d => if back then s.flushL2 d (pa / 64) else s.setL2 d (pa / 64) {}) s
      | none => s
    else s) s

/-- At dispatch a packet takes its place at every handle it names (R122, R123); the first reader of a handle without a recorded
writer finds no line of it in a home L2 (R308). -/
def useHandles (s0 : State) (cid p : Nat) (es : List HEntry) : State :=
  let s := es.foldl (fun s e =>
    let h := sget {} (s0.ctx cid).handles e.handle
    if bitOf e.mode 0 && h.writer.isNone && h.readers.isEmpty && !h.overflow then dropL2Range s cid e.base e.bytes false else s) s0
  let s1 := es.foldl (fun s e => s.modCtx cid (fun x =>
    let h := sget {} x.handles e.handle
    let h1 := { h with base := e.base, bytes := e.bytes, transient := h.transient || e.transient, named := h.named ++ [p] }
    let h2 := if bitOf e.mode 1 then { h1 with writer := some p, readers := [], overflow := false }
      else if h1.readers.length < 8 then { h1 with readers := h1.readers ++ [p] }
      else { h1 with overflow := true }
    { x with handles := sset {} x.handles e.handle h2 })) s
  let s2 := s1.setPkt p { s1.pkt p with hands := es.map (fun e => (e.handle, e.mode)) }
  es.foldl (fun s e => if bitOf e.mode 0 then invalidateRange s cid e.base e.bytes else s) s2

/-- The packets that a queue has published and not dispatched, with their bytes (R111); the head of a queue in error has completed
(R112). -/
def published (s : State) (q : Queue) : List (List Byte) :=
  ((upTo q.pending).map (fun i => match q.heads.drop i with
    | h :: _ => h.2
    | [] => ringPacket s q (q.rptr + i))).drop (if q.st = .error then 1 else 0)
/-- The packet of a replay's node: its header from the graph, its body from the replay's buffer (R124, R125). -/
def nodePacket (s : State) (cid : Nat) (r : Replay) (i : Nat) : Option (List Byte) := do
  let nodes ← s.hubNat cid (r.graph + 8) 8
  let params ← s.hubNat cid (r.graph + 24) 8
  let h ← s.hubRead cid (nodes + 64 * i) 16
  let b ← s.hubRead cid (params + 48 * (r.nnode * r.buf + i)) 48
  some (h ++ b)
/-- The packets of the context that are published in its queues and not dispatched, with the one in hand (R147). -/
def inQueues (s : State) (cid : Nat) : List (List Byte) :=
  let inHand := match s.hub.hand with
    | some p => if (s.pkt p).cid = cid then [(s.pkt p).bytes] else []
    | none => []
  inHand ++ (s.hub.queues.filter (fun p => decide (p.2.cid = cid) && decide (p.2.st ≠ .absent) && decide (p.2.st ≠ .destroyed))).flatMap (fun p => published s p.2)
/-- The packets of the context that are not dispatched: those of its queues, and the nodes of its replays. -/
def undispatched (s : State) (cid : Nat) : List (List Byte) :=
  inQueues s cid ++ (s.hub.replays.filter (fun r => decide ((s.pkt r.1).cid = cid))).flatMap (fun r => r.2.waiting.filterMap (nodePacket s cid r.2))
/-- The handle entries of those packets. -/
def namesOf (s : State) (cid : Nat) (bs : List (List Byte)) : List HEntry := bs.flatMap (fun b => (handlesOf s cid b).getD [])
/-- A dropped handle leaves the table once no packet that names it is undispatched or running (R122). -/
def settleHandle (s : State) (cid h : Nat) : State :=
  let e := sget {} (s.ctx cid).handles h
  if e.drop && e.named.isEmpty && !((namesOf s cid (undispatched s cid)).any (fun n => decide (n.handle = h))) then
    s.modCtx cid (fun x => { x with handles := sset {} x.handles h {} })
  else s
/-- Every dropped handle of a context that nothing names any more leaves the table. -/
def settleHandles (s : State) (cid : Nat) : State :=
  ((s.ctx cid).handles.filter (fun h => h.2.drop)).foldl (fun s h => settleHandle s cid h.1) s
/-- A packet completes at its handles (R122, R123, R308): the home L2s give up the ranges it wrote, written back, and it names them no more. -/
def leaveHandles (s : State) (p : Nat) : State :=
  let k := s.pkt p
  k.hands.foldl (fun s h =>
    let e := sget {} (s.ctx k.cid).handles h.1
    let s1 := if bitOf h.2 1 then dropL2Range s k.cid e.base e.bytes true else s
    let e1 : Handle := { e with named := e.named.filter (fun n => decide (n ≠ p)) }
    s1.modCtx k.cid (fun x => { x with handles := sset {} x.handles h.1 e1 })) s

/-- The packet that the front end has in hand, if its command is `op` (R113). In a package-wide stall the front end waits, and no command
runs (R12, log 107). -/
def inHand (s : State) (op : Nat) : Option (Nat × Pkt) :=
  match s.hub.hand with
  | some p => if pOP (s.pkt p).bytes = op ∧ !s.hub.stalled then some (p, s.pkt p) else none
  | none => none
def handDone (s : State) : State := { s with hub := { s.hub with hand := none } }
/-- The packet in hand completes with a status (R120). -/
def answer (s : State) (p status detail : Nat) : State := handDone (pktOutcome s p status detail)

end Sys2Proof.Machine
end

