-- ==== Sys2Proof/Machine/QueueProg.lean ====
section
/-! DEFINITION. The queue-program interpreter: its operations (R128) and its verifier (R127, R129). -/
namespace Sys2Proof.Machine

/-- q[i]; q0 reads zero (R128). -/
def Interp.get (p : Interp) (i : Nat) : DWord := if i = 0 then 0 else sget 0 p.q i
/-- A write of q0 is discarded. -/
def Interp.put (p : Interp) (i : Nat) (v : DWord) : Interp := if i = 0 then p else { p with q := sset 0 p.q i v }

/-- The address and the loops after a word, given the next address (R128): at the end of the innermost body the loop counts,
and a body's last pass leaves it. -/
def qpNext (pc : Nat) : List (Nat × Nat × Nat) → Nat × List (Nat × Nat × Nat)
  | [] => (pc, [])
  | (first, last, left) :: rest =>
    if pc ≤ last then (pc, (first, last, left) :: rest)
    else if 1 < left then (first, (first, last, left - 1) :: rest)
    else qpNext pc rest
/-- The interpreter goes to an address. -/
def Interp.goto (p : Interp) (pc : Nat) : Interp :=
  let r := qpNext pc p.loops
  { p with pc := r.1, loops := r.2 }

/-- A word of the program in progress acts; without one nothing happens. -/
def qpStep (s : State) (f : Interp → Interp) : Out :=
  match s.hub.interp with
  | none => .next s
  | some p => .next { s with hub := { s.hub with interp := some (f p) } }
/-- An operation that writes qd and goes on. -/
def qpAlu (s : State) (d : Nat) (f : Interp → DWord) : Out := qpStep s (fun p => (p.put d (f p)).goto (p.pc + 1))

def execQAdd (d a b : Nat) (s : State) : Out := qpAlu s d (fun p => p.get a + p.get b)
def execQSub (d a b : Nat) (s : State) : Out := qpAlu s d (fun p => p.get a - p.get b)
def execQAnd (d a b : Nat) (s : State) : Out := qpAlu s d (fun p => p.get a &&& p.get b)
def execQOr (d a b : Nat) (s : State) : Out := qpAlu s d (fun p => p.get a ||| p.get b)
def execQXor (d a b : Nat) (s : State) : Out := qpAlu s d (fun p => p.get a ^^^ p.get b)
def execQShl (d a b : Nat) (s : State) : Out := qpAlu s d (fun p => p.get a <<< ((p.get b).toNat % 64))
def execQShr (d a b : Nat) (s : State) : Out := qpAlu s d (fun p => p.get a >>> ((p.get b).toNat % 64))
def execQMinu (d a b : Nat) (s : State) : Out := qpAlu s d (fun p => if (p.get b).toNat < (p.get a).toNat then p.get b else p.get a)
def execQAddi (d a imm : Nat) (s : State) : Out := qpAlu s d (fun p => p.get a + wrap64 (sextNat imm 14))
def execQAndi (d a imm : Nat) (s : State) : Out := qpAlu s d (fun p => p.get a &&& BitVec.ofNat 64 imm)
def execQOri (d a imm : Nat) (s : State) : Out := qpAlu s d (fun p => p.get a ||| BitVec.ofNat 64 imm)
def execQShli (d a imm : Nat) (s : State) : Out := qpAlu s d (fun p => p.get a <<< imm)
def execQShri (d a imm : Nat) (s : State) : Out := qpAlu s d (fun p => p.get a >>> imm)
def execQLi (d imm : Nat) (s : State) : Out := qpAlu s d (fun _ => wrap64 (sextNat imm 22))

/-- The offset of an LDW or STW in its window (R128). -/
def winOffset (p : Interp) (a imm size : Nat) : Nat := ((p.get a).toNat + imm) % 2 ^ 64 % size / 8 * 8
/-- LDW (R128). What a window's address that does not translate reads as is left open (log 33). -/
def execQLdw (d a win imm : Nat) (s : State) : Out :=
  match s.hub.interp with
  | none => .next s
  | some p =>
    if win = 0 then qpAlu s d (fun p => BitVec.ofNat 64 (field p.pkt (winOffset p a imm 64) 8))
    else
      let w := nth (0, 0) p.prog.windows win
      match s.hubNat (s.queue p.queue).cid (w.2 + winOffset p a imm (2 ^ w.1)) 8 with
      | some v => qpAlu s d (fun _ => BitVec.ofNat 64 v)
      | none => qpAlu s.fresh d (fun _ => BitVec.ofNat 64 (Config.freeValue s.freeCount))
/-- STW (R128): the copy of the packet, or memory. -/
def execQStw (d a win imm : Nat) (s : State) : Out :=
  match s.hub.interp with
  | none => .next s
  | some p =>
    let v := leBytes 8 (p.get d).toNat
    if win = 0 then
      let o := winOffset p a imm 64
      qpStep s (fun p => { p with pkt := p.pkt.take o ++ v ++ p.pkt.drop (o + 8) }.goto (p.pc + 1))
    else
      let w := nth (0, 0) p.prog.windows win
      qpStep (s.hubWrite (s.queue p.queue).cid (w.2 + winOffset p a imm (2 ^ w.1)) v) (fun p => p.goto (p.pc + 1))

/-- A branch (R128). -/
def qpBranch (s : State) (imm : Nat) (c : Interp → Bool) : Out := qpStep s (fun p => p.goto (if c p then p.pc + imm else p.pc + 1))
def execQBeq (a b imm : Nat) (s : State) : Out := qpBranch s imm (fun p => decide (p.get a = p.get b))
def execQBne (a b imm : Nat) (s : State) : Out := qpBranch s imm (fun p => decide (p.get a ≠ p.get b))
def execQBltu (a b imm : Nat) (s : State) : Out := qpBranch s imm (fun p => decide ((p.get a).toNat < (p.get b).toNat))
def execQBgeu (a b imm : Nat) (s : State) : Out := qpBranch s imm (fun p => decide ((p.get b).toNat ≤ (p.get a).toNat))
def execQJmp (imm : Nat) (s : State) : Out := qpStep s (fun p => p.goto (p.pc + imm))
/-- LOOP (R128): count 0 skips the body. -/
def execQLoop (d mx len : Nat) (s : State) : Out :=
  qpStep s (fun p =>
    let count := if d = 0 then mx else min (p.get d).toNat mx
    if count = 0 ∨ len = 0 then p.goto (p.pc + 1 + len)
    else { p with pc := p.pc + 1, loops := (p.pc + 1, p.pc + len, count) :: p.loops })
def execQPtim (d : Nat) (s : State) : Out := qpAlu s d (fun _ => BitVec.ofNat 64 s.ptime)

/-- The run ends: q8–q15 stay with the queue, and the packet stands ready with the fate the program gave it (R128). -/
def qpEnd (s : State) (fate : Option (Nat × Nat)) : Out :=
  match s.hub.interp with
  | none => .next s
  | some p =>
    let s1 := s.modQueue p.queue (fun q => { q with
      heads := q.heads ++ [(fate, p.pkt)], q := p.q.filter (fun r => decide (8 ≤ r.1)) })
    .next { s1 with hub := { s1.hub with interp := none }, turn := .idle }
def execQDone (s : State) : Out := qpEnd s none
def execQSkip (imm : Nat) (s : State) : Out := qpEnd s (some (stSKIPPED, imm))
def execQFail (imm : Nat) (s : State) : Out := qpEnd s (some (stPROG_FAIL, imm))

/-- The registers at entry to a run on packet i (R128); a program just loaded zeroes q8–q15 (R127). -/
def startProg (s : State) (qn i : Nat) : State :=
  let q := s.queue qn
  let (prog, kept) := match q.nextProg with
    | some n => (some n, [])
    | none => (q.prog, q.q)
  match prog with
  | none => s
  | some pr =>
    let p0 : Interp := { queue := qn, q := kept, pkt := ringPacket s q i, prog := pr }
    let p1 := ((p0.put 1 (BitVec.ofNat 64 i)).put 2 (BitVec.ofNat 64 qn)).put 3 (BitVec.ofNat 64 (visTime q i))
    let s1 := s.setQueue qn { q with prog := prog, nextProg := none, q := kept }
    { s1 with hub := { s1.hub with interp := some p1 }, turn := .qprog }

/-- The LOOP bodies of a program: the word of the LOOP, the body's first and last word, MAX. -/
def qpBodies (ws : List Nat) : List (Nat × Nat × Nat) :=
  (upTo ws.length).filterMap (fun i => match decodeQp (nth 0 ws i) with
    | some (.qLoop _ mx len) => some (i + 1, i + len, mx)
    | _ => none)
/-- The bodies that contain a word. -/
def bodiesAt (bs : List (Nat × Nat × Nat)) (i : Nat) : List (Nat × Nat × Nat) := bs.filter (fun b => decide (b.1 ≤ i) && decide (i ≤ b.2.1))
/-- The target of a branch or jump. -/
def qpTarget (w i : Nat) : Option (Nat × Nat) :=
  match decodeQp w with
  | some (.qBeq _ _ imm) => some (imm, i + imm)
  | some (.qBne _ _ imm) => some (imm, i + imm)
  | some (.qBltu _ _ imm) => some (imm, i + imm)
  | some (.qBgeu _ _ imm) => some (imm, i + imm)
  | some (.qJmp imm) => some (imm, i + imm)
  | _ => none
/-- Whether the window of an LDW or STW is present, writable and covers the offset (R129). -/
def qpWindowOk (wins : List (Nat × Nat)) (win imm : Nat) (store : Bool) : Bool :=
  let size := if win = 0 then 64 else 2 ^ (nth (0, 0) wins win).1
  (win = 0 || decide ((nth (0, 0) wins win).1 ≠ 0)) && !(store && decide (2 ≤ win)) && decide (imm % 8 = 0) && decide (imm < size)
/-- The refusal reasons of R129, 0 for a program that passes: the lowest that applies. -/
def qpVerify (ws : List Nat) (wins : List (Nat × Nat)) (budget : Nat) : Nat :=
  let n := ws.length
  let at_ := fun (f : Nat → Nat → Bool) => (upTo n).any (fun i => f i (nth 0 ws i))
  let bs := qpBodies ws
  let nested := fun (b : Nat × Nat × Nat) => bs.all (fun c =>
    decide (c.2.1 < b.1) || decide (b.2.1 < c.1) || (decide (c.1 ≤ b.1) && decide (b.2.1 ≤ c.2.1)) || (decide (b.1 ≤ c.1) && decide (c.2.1 ≤ b.2.1)))
  let cost := (upTo n).foldl (fun k i => k + (bodiesAt bs i).foldl (fun m b => m * b.2.2) 1) 0
  if at_ (fun _ w => (decodeQp w).isNone || (match decodeQp w with
      | some (.qLoop _ mx _) => decide (mx = 0)
      | some (.qShli _ _ imm) => decide (64 ≤ imm)
      | some (.qShri _ _ imm) => decide (64 ≤ imm)
      | _ => false)) then 1
  else if at_ (fun i w => match qpTarget w i with
      | some (imm, t) => decide (imm < 1) || decide (n ≤ t)
      | none => false) then 2
  else if at_ (fun i w => match qpTarget w i with
      | some (_, t) => bs.any (fun b => (decide (b.1 ≤ i) && decide (i ≤ b.2.1)) != (decide (b.1 ≤ t) && decide (t ≤ b.2.1)))
      | none => false) then 3
  else if bs.any (fun b => decide (n ≤ b.2.1) || !(nested b) || bs.any (fun c => decide (c.1 < b.1) && decide (b.1 ≤ c.2.1 + 1) && decide (c.2.1 < b.2.1)) || decide (4 < (bodiesAt bs b.1).length)) then 4
  else if at_ (fun _ w => match decodeQp w with
      | some (.qLdw _ _ win imm) => !(qpWindowOk wins win imm false)
      | some (.qStw _ _ win imm) => !(qpWindowOk wins win imm true)
      | _ => false) then 5
  else if !(match decodeQp (nth 0 ws (n - 1)) with
      | some .qDone => true
      | some (.qSkip _) => true
      | some (.qFail _) => true
      | _ => false) || !(bodiesAt bs (n - 1)).isEmpty then 6
  else if budget < cost then 7 else 0
/-- The window table (R127): LOG2 and BASE; none where an entry is out of its limits. -/
def qpWindows (bs : List Byte) : Option (List (Nat × Nat)) :=
  let w := (upTo 4).map (fun i => let e := field bs (8 * i) 8; (bitsOf e 63 59, bitsOf e 55 0))
  let ok := fun i hi => let e := nth (0, 0) w i
    decide (e.1 = 0) || (decide (3 ≤ e.1) && decide (e.1 ≤ hi) && decide (e.2 % 2 ^ e.1 = 0))
  if ok 1 16 && ok 2 20 && ok 3 20 then some w else none

end Sys2Proof.Machine
end

