-- ==== Sys2Proof/Machine/Kernel.lean ====
section
/-! DEFINITION. Kernel images, their argument blocks and bucket tables as the front end reads them (R130 to R133, R145, R361). -/
namespace Sys2Proof.Machine

/-- The image of one core (R131): its sections and, with HWORDS non-zero, its handler code. -/
structure CoreImg where
  core : Nat
  secs : List (List Bundle)
  handler : Option (SMap Nat × Nat)
  deriving DecidableEq, Repr

/-- An image (R130): its flags, cores in ascending order, flag table (offset, preset), and where it lies. -/
structure Image where
  base : Nat
  flags : Nat
  cores : List CoreImg
  presets : List (Nat × Nat)
  summary : Nat
  splice : Nat
  buckets : List (Nat × Nat × Nat) := []
  deriving DecidableEq, Repr

/-- Consecutive 32-bit words. -/
def wordsOf (bs : List Byte) : List Nat := (upTo (bs.length / 4)).map (fun i => field bs (4 * i) 4)
/-- A section's bundles (R22). -/
def bundlesOf (bs : List Byte) : List Bundle := (upTo (bs.length / 32)).map (fun i => wordsOf ((bs.drop (32 * i)).take 32))
/-- The section at entry j of a section table (R131). -/
def readSection (s : State) (cid base tab j : Nat) : Option (List Bundle) := do
  let e ← s.hubRead cid (base + tab + 16 * j) 16
  let nb := field e 8 4
  if nb = 0 ∨ 2048 < nb then none
  else (s.hubRead cid (base + field e 0 8) (32 * nb)).map bundlesOf
/-- A core's handler code as a store of that many words (R131, R343). -/
def readHandler (s : State) (cid va n : Nat) : Option (Option (SMap Nat × Nat)) :=
  if n = 0 then some none
  else (s.hubRead cid va (4 * n)).map (fun bs =>
    some ((upTo n).foldl (fun m i => sset 0 m i (field bs (4 * i) 4)) [], n))
/-- One entry of the core directory (R131). -/
def readCore (s : State) (cid base cdir i core : Nat) : Option CoreImg := do
  let e ← s.hubRead cid (base + cdir + 32 * i) 32
  let nsec := field e 2 2
  let hw := field e 4 4
  if field e 0 2 ≠ core ∨ nsec = 0 ∨ 16 < nsec ∨ 1024 < hw then none
  else
    let secs ← (upTo nsec).mapM (readSection s cid base (field e 8 8))
    let h ← readHandler s cid (base + field e 16 8) hw
    some { core := core, secs := secs, handler := h }
/-- The flag table (R132). -/
def readFlags (s : State) (cid va n bytes : Nat) : Option (List (Nat × Nat)) := do
  let bs ← s.hubRead cid va (16 * n)
  let fl := (upTo n).map (fun i => (field bs (16 * i) 4, field bs (16 * i + 8) 8))
  let offs := fl.map (·.1)
  if fl.all (fun f => decide (f.1 % 8 = 0) && decide (f.1 < bytes)) && decide (offs.eraseDups.length = offs.length) then some fl else none
/-- The bucket table (R361): occupancy, draft length and entry of each bucket. -/
def bucketsOk (l : List (Nat × Nat × Nat)) : Bool :=
  let pairs := l.map (fun b => (b.1, b.2.1))
  let occs := (l.map (·.1)).eraseDups
  let drls := (l.map (fun b => b.2.1)).eraseDups
  l.all (fun b => decide (8 ≤ b.1) && decide (b.1 ≤ 256) && [0, 2, 4, 8].contains b.2.1 && decide (b.2.2 ≤ 2047))
    && decide (pairs.eraseDups.length = pairs.length) && drls.contains 0
    && occs.all (fun o => drls.all (fun d => pairs.contains (o, d)))
def readBuckets (s : State) (cid va : Nat) : Option (List (Nat × Nat × Nat)) := do
  let nb ← s.hubNat cid (va - 4) 4
  if nb = 0 ∨ 24 < nb then none
  else
    let bs ← s.hubRead cid va (8 * nb)
    let l := (upTo nb).map (fun i => (2 ^ field bs (8 * i) 1, field bs (8 * i + 1) 1, field bs (8 * i + 2) 2))
    if bucketsOk l then some l else none
/-- An image as its packet needs it: none where a limit is broken or a byte cannot be read (R130, R133, R361). -/
def readImage (s : State) (cid va : Nat) (loop : Bool) : Option Image := do
  let h ← s.hubRead cid va 64
  let cores := (upTo 64).filter (fun k => bitOf (field h 8 8) k)
  let nflag := field h 16 4
  let fbytes := field h 20 4
  if field h 0 4 ≠ 0x4E52454B ∨ field h 4 2 ≠ 1 ∨ field h 6 1 ≠ (if loop then 1 else 0) ∨ cores.isEmpty ∨ 64 < nflag
    ∨ fbytes % 8 ≠ 0 ∨ 4096 < fbytes then none
  else
    let cimgs ← ((upTo cores.length).zip cores).mapM (fun p => readCore s cid va (field h 24 8) p.1 p.2)
    let fl ← readFlags s cid (va + field h 32 8) nflag fbytes
    let bk ← if loop then readBuckets s cid (va + field h 48 8) else some []
    if loop ∧ cimgs.any (fun c => decide (c.secs.length ≠ 1)) then none
    else some { base := va, flags := field h 7 1, cores := cimgs, presets := fl, summary := field h 40 8, splice := field h 48 8, buckets := bk }

/-- ARGS of a LAUNCH or LOOPL packet (R118, log 34). -/
def argsOf (b : List Byte) : Nat := if pOP b = 1 then field b 24 8 else Config.looplArgs b
/-- The argument block's FLAGBASE and REPORT (R133). -/
def readArgs (s : State) (cid args nflag : Nat) : Option (Nat × Nat) := do
  let a ← s.hubRead cid args 64
  let fb := field a 0 8
  let rep := field a 8 8
  if fb % 64 ≠ 0 ∨ (fb = 0 ∧ nflag ≠ 0) ∨ (fb ≠ 0 ∧ nflag = 0) ∨ rep % 256 ≠ 0 then none else some (fb, rep)

/-- What a LAUNCH or LOOPL packet would run: its image, its handle list as it stands and by handle, FLAGBASE and REPORT. -/
structure Plan where
  bytes : List Byte
  img : Image
  raw : List HEntry
  hands : List HEntry
  flagbase : Nat
  report : Nat
  deriving DecidableEq, Repr

/-- A sequence table as a LOOPL may name it (R364): aligned, readable, NSEQ 1 to 1,024. -/
def seqtOk (s : State) (cid b : Nat) : Bool :=
  decide (b % 1024 = 0) && (match s.hubRead cid b 8 with
    | some h => decide (1 ≤ field h 4 2) && decide (field h 4 2 ≤ 1024)
    | none => false)

/-- The checks of a LAUNCH or LOOPL at its dispatch (R117, R118, R122, R130, R133, R361, R364); `before` holds the handles of a
packet dispatched ahead of it (R146). -/
def planOf (s : State) (cid : Nat) (b : List Byte) (before : List HEntry) : Except Nat Plan :=
  match handlesOf s cid b with
  | none => .error stBAD_VALUE
  | some hs =>
    if hs.any (fun e => !e.ok) then .error stBAD_PACKET
    else match readImage s cid (field b 16 8) (decide (pOP b = 2)) with
    | none => .error stBAD_VALUE
    | some img => match readArgs s cid (argsOf b) img.presets.length with
      | none => .error stBAD_VALUE
      | some (fb, rep) =>
        if pOP b = 2 ∧ !(seqtOk s cid (field b 24 8)) then .error stBAD_VALUE
        else match handlesStatus (s.ctx cid) (before ++ hs) with
          | some st => .error st
          | none => .ok { bytes := b, img := img, raw := hs, hands := mergeHandles [] hs, flagbase := fb, report := rep }

end Sys2Proof.Machine
end

