-- ==== Sys2Proof/Machine/Rename.lean ====
section
/-! DEFINITION. The fields of a slot word that name registers, predicates, walker ports and bundle addresses, and their rewriting
by the maps of a splice (R148, R149). -/
namespace Sys2Proof.Machine

/-- The maps of one image's rewriting: scalar registers, predicates, operand selectors, destinations (0 to 63), walker ports and
bundle addresses, and whether KARG0 becomes KARG1. -/
structure RegMap where
  x : Nat → Nat
  p : Nat → Nat
  sel : Nat → Nat
  dst : Nat → Nat
  port : Nat → Nat
  addr : Nat → Nat
  karg : Bool

/-- A 7-bit destination: WS is unchanged (R37, R149). -/
def RegMap.dst7 (m : RegMap) (d : Nat) : Nat := d / 64 * 64 + m.dst (d % 64)
/-- A C code (R51). -/
def RegMap.code (m : RegMap) (c : Nat) : Nat :=
  let s := m.sel (cSel c)
  if s < 16 then s else if 40 ≤ s ∧ s < 48 then s - 24 else c
/-- A CSRR of KARG0 in the later image reads KARG1 (R149). -/
def RegMap.csr (m : RegMap) (n : Nat) : Nat := if m.karg && n = 0x030 then 0x031 else n
/-- A TREE test. -/
def RegMap.test (m : RegMap) (t : Nat) : Nat := t / 64 * 64 + m.p (t % 64) % 64

/-- An instruction with its fields rewritten; one without such fields stays as it is. -/
def renameInstr (mp : RegMap) (i : Instr) : Instr :=
  match i with
  | .tree al t1 t2 t3 t4 => .tree al (mp.test t1) (mp.test t2) (mp.test t3) (mp.test t4)
  | .btgt j addr => .btgt j (mp.addr addr)
  | .call addr => .call (mp.addr addr)
  | .loop lvl xc => .loop lvl (mp.x xc)
  | .loopS0 lvl xc xr => .loopS0 lvl (mp.x xc) (mp.x xr)
  | .loopS1 lvl xc xr => .loopS1 lvl (mp.x xc) (mp.x xr)
  | .scmp pd xa xb cc => .scmp (mp.p pd) (mp.x xa) (mp.x xb) cc
  | .scmpi pd xa cc imm => .scmpi (mp.p pd) (mp.x xa) cc imm
  | .plog pd pa pb o => .plog (mp.p pd) (mp.p pa) (mp.p pb) o
  | .pmov pd pa => .pmov (mp.p pd) (mp.p pa)
  | .pseti pd v => .pseti (mp.p pd) v
  | .csrr xd csr => .csrr (mp.x xd) (mp.csr csr)
  | .csrw xs csr => .csrw (mp.x xs) csr
  | .csrs xs csr => .csrs (mp.x xs) csr
  | .rstkr xd idx => .rstkr (mp.x xd) idx
  | .rstkw xs idx => .rstkw (mp.x xs) idx
  | .waitm xa xb => .waitm (mp.x xa) (mp.x xb)
  | .bart scope bid pd => .bart scope bid (mp.p pd)
  | .fork xa => .fork (mp.x xa)
  | .join xa => .join (mp.x xa)
  | .steal pd => .steal (mp.p pd)
  | .trdy pd xa => .trdy (mp.p pd) (mp.x xa)
  | .add xd xa xb => .add (mp.x xd) (mp.x xa) (mp.x xb)
  | .sub xd xa xb => .sub (mp.x xd) (mp.x xa) (mp.x xb)
  | .mul xd xa xb => .mul (mp.x xd) (mp.x xa) (mp.x xb)
  | .mulh xd xa xb => .mulh (mp.x xd) (mp.x xa) (mp.x xb)
  | .and_ xd xa xb => .and_ (mp.x xd) (mp.x xa) (mp.x xb)
  | .or_ xd xa xb => .or_ (mp.x xd) (mp.x xa) (mp.x xb)
  | .xor_ xd xa xb => .xor_ (mp.x xd) (mp.x xa) (mp.x xb)
  | .shl xd xa xb => .shl (mp.x xd) (mp.x xa) (mp.x xb)
  | .shr xd xa xb => .shr (mp.x xd) (mp.x xa) (mp.x xb)
  | .sra xd xa xb => .sra (mp.x xd) (mp.x xa) (mp.x xb)
  | .min_ xd xa xb => .min_ (mp.x xd) (mp.x xa) (mp.x xb)
  | .max_ xd xa xb => .max_ (mp.x xd) (mp.x xa) (mp.x xb)
  | .addi xd xa imm => .addi (mp.x xd) (mp.x xa) imm
  | .lui xd imm => .lui (mp.x xd) imm
  | .sel xd xa xb ps => .sel (mp.x xd) (mp.x xa) (mp.x xb) (mp.p ps)
  | .dsel xd xa => .dsel (mp.x xd) (mp.x xa)
  | .ld xd xa w off => .ld (mp.x xd) (mp.x xa) w off
  | .st xs xa w off => .st (mp.x xs) (mp.x xa) w off
  | .acq scope xa => .acq scope (mp.x xa)
  | .rel scope xa => .rel scope (mp.x xa)
  | .wcfg xa port field => .wcfg (mp.x xa) (mp.port port) field
  | .shw xa eng sh field => .shw (mp.x xa) eng sh field
  | .xbc d xa k => .xbc (mp.dst7 d) (mp.x xa) k
  | .mscl xa side grp => .mscl (mp.x xa) side (mp.port grp)
  | .fadd u d a b => .fadd u (mp.dst7 d) (mp.sel a) (mp.sel b)
  | .fsub u d a b => .fsub u (mp.dst7 d) (mp.sel a) (mp.sel b)
  | .fmul u d a b => .fmul u (mp.dst7 d) (mp.sel a) (mp.sel b)
  | .fmin u d a b => .fmin u (mp.dst7 d) (mp.sel a) (mp.sel b)
  | .fmax u d a b => .fmax u (mp.dst7 d) (mp.sel a) (mp.sel b)
  | .fma u d a b c => .fma u (mp.dst7 d) (mp.sel a) (mp.sel b) (mp.code c)
  | .fms d a b c => .fms (mp.dst7 d) (mp.sel a) (mp.sel b) (mp.code c)
  | .fnma d a b c => .fnma (mp.dst7 d) (mp.sel a) (mp.sel b) (mp.code c)
  | .funa u d a fn => .funa u (mp.dst7 d) (mp.sel a) fn
  | .iadd u d a b => .iadd u (mp.dst7 d) (mp.sel a) (mp.sel b)
  | .isub d a b => .isub (mp.dst7 d) (mp.sel a) (mp.sel b)
  | .imul d a b => .imul (mp.dst7 d) (mp.sel a) (mp.sel b)
  | .iand d a b => .iand (mp.dst7 d) (mp.sel a) (mp.sel b)
  | .ior d a b => .ior (mp.dst7 d) (mp.sel a) (mp.sel b)
  | .ixor d a b => .ixor (mp.dst7 d) (mp.sel a) (mp.sel b)
  | .ishl d a b => .ishl (mp.dst7 d) (mp.sel a) (mp.sel b)
  | .ishr d a b => .ishr (mp.dst7 d) (mp.sel a) (mp.sel b)
  | .isra d a b => .isra (mp.dst7 d) (mp.sel a) (mp.sel b)
  | .imin d a b => .imin (mp.dst7 d) (mp.sel a) (mp.sel b)
  | .imax d a b => .imax (mp.dst7 d) (mp.sel a) (mp.sel b)
  | .fcmp u kd a b cc => .fcmp u kd (mp.sel a) (mp.sel b) cc
  | .icmp u kd a b cc => .icmp u kd (mp.sel a) (mp.sel b) cc
  | .vsel u d a b k => .vsel u (mp.dst7 d) (mp.sel a) (mp.sel b) k
  | .cvt u d a b kind m => .cvt u (mp.dst7 d) (mp.sel a) (if kind = 2 then mp.sel b else b) kind m
  | .vmov u d a => .vmov u (mp.dst7 d) (mp.sel a)
  | .vimm d k imm => .vimm (mp.dst7 d) k imm
  | .vlane d a lane => .vlane (mp.dst7 d) (mp.sel a) lane
  | .vld d xa off => .vld (mp.dst7 d) (mp.x xa) off
  | .vst a xa off => .vst (mp.sel a) (mp.x xa) off
  | .park v => .park (mp.sel v)
  | .unpark v => .unpark (mp.sel v)
  | .sfseed d a fn => .sfseed (mp.dst7 d) (mp.sel a) fn
  | .sfstep d a b fn => .sfstep (mp.dst7 d) (mp.sel a) (mp.sel b) fn
  | .sftld xa fn => .sftld (mp.x xa) fn
  | .rowsum d a => .rowsum (mp.dst7 d) (mp.sel a)
  | .rowmax d a => .rowmax (mp.dst7 d) (mp.sel a)
  | .rowstat d a b fn => .rowstat (mp.dst7 d) (mp.sel a) (if fn = 1 then mp.sel b else b) fn
  | .smxup d a b fn => .smxup (mp.dst7 d) (mp.sel a) (if fn ≤ 1 then mp.sel b else b) fn
  | .smxfix d a b => .smxfix (mp.dst7 d) (mp.sel a) (mp.sel b)
  | .vperm d a b => .vperm (mp.dst7 d) (mp.sel a) (mp.sel b)
  | .vshuf d a b fn => .vshuf (mp.dst7 d) (mp.sel a) (if fn ≤ 4 then mp.sel b else b) fn
  | .vpfx d a fn => .vpfx (mp.dst7 d) (mp.sel a) fn
  | .vred d a fn => .vred (mp.dst7 d) (mp.sel a) fn
  | .topkp d a b fn => .topkp (mp.dst7 d) (mp.sel a) (mp.sel b) fn
  | .vscl d a b => .vscl (mp.dst7 d) (mp.sel a) (mp.sel b)
  | .push a fmt row => .push (mp.sel a) fmt row
  | .shift a fmt bank row h => .shift (mp.sel a) fmt bank row h
  | .acc a bank row h => .acc (mp.sel a) bank row h
  | .drain d bank row h clr => .drain (mp.dst7 d) bank row h clr
  | .acrd d bank row h => .acrd (mp.dst7 d) bank row h
  | .acwr a bank row h => .acwr (mp.sel a) bank row h
  | .zop xa => .zop (mp.x xa)
  | .sloc sh sw rev a => .sloc sh sw rev (mp.sel a)
  | .sup sh sw rev a => .sup sh sw rev (mp.sel a)
  | .sdn sh sw rev a => .sdn sh sw rev (mp.sel a)
  | .scry sh sw rev a => .scry sh sw rev (mp.sel a)
  | .sapl sh sw rev a => .sapl sh sw rev (mp.sel a)
  | .zld a z row => .zld (mp.sel a) z row
  | .zrd d z row => .zrd (mp.dst7 d) z row
  | .step z a b => .step z (mp.sel a) (mp.sel b)
  | .stepSpec z a b => .stepSpec z (mp.sel a) (mp.sel b)
  | .sdot d z c => .sdot (mp.dst7 d) z (mp.sel c)
  | .copy node sh sw xa => .copy node sh sw (mp.x xa)
  | .gath node sh sw xa => .gath node sh sw (mp.x xa)
  | .scat node sh sw xa => .scat node sh sw (mp.x xa)
  | .scacc node sh sw xa fn => .scacc node sh sw (mp.x xa) fn
  | .amo node xa fn => .amo node (mp.x xa) fn
  | .pref node xa fn => .pref node (mp.x xa) fn
  | .rgwb node xa => .rgwb node (mp.x xa)
  | .rginv node xa => .rginv node (mp.x xa)
  | .btx a tile => .btx (mp.sel a) tile
  | .bsel d tile => .bsel (mp.dst7 d) tile
  | .zspl node xa => .zspl node (mp.x xa)
  | .zsplCopy node xa => .zsplCopy node (mp.x xa)
  | .zfil node xa => .zfil node (mp.x xa)
  | .rld d xa => .rld (mp.dst7 d) (mp.x xa)
  | .rst a xa => .rst (mp.sel a) (mp.x xa)
  | .coll node sh sw xa fn => .coll node sh sw (mp.x xa) fn
  | .smpq node xa => .smpq node (mp.x xa)
  | .flkq node xa fn => .flkq node (mp.x xa) fn
  | .wpset node xa => .wpset node (mp.x xa)
  | .wpclr node xa => .wpclr node (mp.x xa)
  | .mskq node xa => .mskq node (mp.x xa)
  | other => other

/-- A slot word with its fields rewritten, its path tag kept. -/
def renameWord (m : RegMap) (slot w : Nat) : Nat :=
  match decodeSlot slot w with
  | .op tag i => match encodeOps (renameInstr m i) with
    | some (_, v) => v + (if slot = 7 then 0 else tag * 2 ^ 29)
    | none => w
  | _ => w

end Sys2Proof.Machine
end

