-- ==== Sys2Proof/Machine/Splice.lean ====
section
/-! DEFINITION. The Splicer (R145 to R154): its checks, the renumbering, the fused image, the splice map and the report. -/
namespace Sys2Proof.Machine

/-- A splice mark of one core (R145): the body, its nest, and the eight walker descriptors. -/
structure Mark where
  level : Nat
  nnest : Nat
  beg : Nat
  fin : Nat
  nest : List Nat
  walkers : List (List Byte)
  deriving DecidableEq, Repr
def parseMark (e : List Byte) : Mark :=
  let nn := field e 3 1
  { level := field e 2 1, nnest := nn, beg := field e 4 2, fin := field e 6 2,
    nest := (upTo (min nn 6)).map (fun i => let w := field e (8 + 4 * i) 4; bitsOf w 31 29 * 2 ^ 24 + bitsOf w 23 0)
    walkers := (upTo 8).map (fun j => (e.drop (32 + 96 * j)).take 96) }
/-- The marks of the named cores, in core order: the table's entries stand in ascending core order (log 35). A core without
one, or a mark that lies outside its section, gives none. -/
def readMarks (s : State) (cid va : Nat) : List CoreImg → Nat → Option (List Mark)
  | [], _ => some []
  | c :: cs, j => do
    let e ← s.hubRead cid (va + 800 * j) 800
    let m := parseMark e
    let n := (nth [] c.secs 0).length
    if field e 0 2 ≠ c.core ∨ m.nnest = 0 ∨ 6 < m.nnest ∨ m.fin < m.beg ∨ n ≤ m.fin then none
    else
      let rest ← readMarks s cid va cs (j + 1)
      some (m :: rest)
/-- The usage records of the named cores (R145). -/
def readUsage (s : State) (cid va n : Nat) : Option (List (List Byte)) := (upTo n).mapM (fun i => s.hubRead cid (va + 128 * i) 128)
/-- The union of usage records: every field is a set of bits. -/
def unionRec (rs : List (List Byte)) : List Byte := rs.foldl (fun a r => List.zipWith (fun x y => x ||| y) a r) (List.replicate 128 0)
/-- The fields of a usage record. -/
def uVREG (r : List Byte) : Nat := field r 0 8
def uXREG (r : List Byte) : Nat := field r 8 4
def uKREG (r : List Byte) : Nat := field r 28 1
def uWREG (r : List Byte) : Nat := field r 29 1
def uBTREG (r : List Byte) : Nat := field r 30 1
def uSHREG (r : List Byte) : Nat := field r 32 2
def uNODES (r : List Byte) : Nat := field r 34 32
def uSPBANK (r : List Byte) : Nat := field r 66 4
def uACBANK (r : List Byte) : Nat := field r 70 1
def uZSLOT (r : List Byte) : Nat := field r 72 8
def uPTEST (r : List Byte) : Nat := field r 80 8
def uVCF (r : List Byte) : Nat := field r 88 8
def uLIVEIN (r : List Byte) : Nat := field r 96 2
def uLATWR (r : List Byte) : Nat := field r 98 2
def uSECT (r : List Byte) : Nat := field r 100 1
def uPINX (r : List Byte) : Nat := field r 101 4
def uPINW (r : List Byte) : Nat := field r 105 1
def uPNAME (r : List Byte) : Nat := field r 106 16

/-- One image of a pair, with what the Splicer reads of it. -/
structure Side where
  plan : Plan
  use : List (List Byte)
  marks : List Mark
  deriving DecidableEq, Repr
def readSide (s : State) (cid : Nat) (p : Plan) : Option Side := do
  if p.img.splice = 0 then none
  else
    let m ← readMarks s cid (p.img.base + p.img.splice) p.img.cores 0
    let u ← readUsage s cid (p.img.base + p.img.summary) p.img.cores.length
    some { plan := p, use := u, marks := m }
/-- The only section of core i of a side. -/
def Side.code (x : Side) (i : Nat) : List Bundle := match x.plan.img.cores.drop i with
  | c :: _ => nth [] c.secs 0
  | [] => []
def Side.mark (x : Side) (i : Nat) : Mark := nth (parseMark []) x.marks i
def Side.total (x : Side) : List Byte := unionRec x.use

/-- A walker descriptor of core i and port j as the Splicer compares it: direction, handle, pattern, TRANSIENT (R145). -/
structure Desc where
  dir : Nat
  handle : Nat
  pattern : List Byte
  transient : Bool
  deriving DecidableEq, Repr
def Side.desc (x : Side) (hs : List HEntry) (i j : Nat) : Desc :=
  let w := nth [] (x.mark i).walkers j
  { dir := field w 0 1 % 4, transient := bitOf (field w 0 1) 2, pattern := (w.drop 8).take 80,
    handle := match hs.drop (field w 2 2) with
      | h :: _ => h.handle
      | [] => 0 }

/-- The predicates that a body's trees test beyond p0 to p5 (R146). -/
def bodyTests (x : Side) (i : Nat) : Bool :=
  let m := x.mark i
  ((x.code i).drop m.beg).take (m.fin + 1 - m.beg) |>.any (fun b => match decodeSlot 7 (nth 0 b 7) with
    | .op _ (.tree _ t1 t2 t3 t4) => [t1, t2, t3, t4].any (fun t => decide (5 < t % 64))
    | _ => false)
/-- SECT, the trees and the handler code of core i (check 4 of R146). -/
def sectionBad (a b : Side) (i : Nat) : Bool :=
  let ra := nth [] a.use i
  let rb := nth [] b.use i
  let h : Side → Option (SMap Nat × Nat) := fun x => match x.plan.img.cores.drop i with
    | c :: _ => c.handler
    | [] => none
  !(bitOf (uSECT ra) 2 && bitOf (uSECT ra) 3 && bitOf (uSECT rb) 2 && bitOf (uSECT rb) 3)
    || bitOf (uSECT ra) 1 || bitOf (uSECT rb) 0
    || (bodyTests a i && bitOf (uBTREG ra) 4) || (bodyTests b i && bitOf (uBTREG rb) 4) || decide (h a ≠ h b)

/-- Bits of a mask in ascending order, from `lo` below `hi`. -/
def bitsIn (m lo hi : Nat) : List Nat := (upTo hi).filter (fun j => decide (lo ≤ j) && bitOf m j)
def meets (x y : Nat) : Bool := decide (Nat.land x y ≠ 0)

/-- Steps 2 to 5 of R148: a number free of A's and of those picked is kept; else the lowest free one that is congruent; pinned
numbers are kept and taken from the start. None where a step finds no number. -/
def renumber (aSet pinned cong lo hi : Nat) : List Nat → List Nat → List (Nat × Nat) → Option (List (Nat × Nat))
  | [], _, m => some m
  | j :: js, picked, m =>
    if bitOf pinned j then renumber aSet pinned cong lo hi js (j :: picked) ((j, j) :: m)
    else
      let free := fun k => !(bitOf aSet k) && !(picked.contains k) && !(bitOf pinned k)
      let k? := if free j then some j
        else (upTo hi).find? (fun k => decide (lo ≤ k) && decide (k % cong = j % cong) && free k)
      match k? with
      | some k => renumber aSet pinned cong lo hi js (k :: picked) ((j, k) :: m)
      | none => none
def mapAt (m : List (Nat × Nat)) (j : Nat) : Nat := match m.find? (fun p => decide (p.1 = j)) with
  | some p => p.2
  | none => j

/-- Step 1 of R148: the forwarding registers, as (producer port, consumer port, register). -/
def forwardRegs (aV bVCF : Nat) : List (Nat × Nat) → List (Nat × Nat × Nat) → Option (List (Nat × Nat × Nat))
  | [], m => some m
  | (i, j) :: rest, m =>
    let top := if bitOf bVCF (40 + j) then 16 else 40
    match (upTo top).find? (fun f => decide (f % 4 = i % 4) && !(bitOf aV f) && !(m.any (fun p => decide (p.2.2 = f)))) with
    | some f => forwardRegs aV bVCF rest (m ++ [(i, j, f)])
    | none => none

/-- The matched pairs of R147: (producer port, consumer port). -/
def matchPairs (a b : Side) (ha hb : List HEntry) (n : Nat) : List (Nat × Nat) :=
  (upTo 8).foldl (fun acc j =>
    match (upTo 8).find? (fun i => !(acc.any (fun p => decide (p.1 = i))) && (upTo n).all (fun c =>
        let x := a.desc ha c i
        let y := b.desc hb c j
        decide (x.dir = 2) && decide (y.dir = 1) && decide (x.handle = y.handle) && decide (x.pattern = y.pattern))) with
    | some i => acc ++ [(i, j)]
    | none => acc) []

/-- What a splice that passes gives: per core the fused section and the origin of each address; and the maps of the report. -/
structure Fused where
  code : List (List Bundle)
  origin : List (List (Bool × Nat))
  vmap : List (Nat × Nat)
  xmap : List (Nat × Nat)
  wmap : List (Nat × Nat)
  pmap : List (Nat × Nat)
  fwd : List (Nat × Nat × Nat)
  matched : List (Nat × Nat)
  deriving DecidableEq, Repr

/-- The layout of a fused core (R149): for each fused address, whether it is A's, and its address there. -/
def fusedOrder (ma mb : Mark) (na nb : Nat) : List (Bool × Nat) :=
  let r := fun (x : Bool) (lo hi : Nat) => (upTo (hi - lo)).map (fun i => (x, lo + i))
  r true 0 ma.beg ++ r false 0 mb.beg ++ r true ma.beg (ma.fin + 1) ++ r false mb.beg (mb.fin + 1)
    ++ r true (ma.fin + 1) na ++ r false (mb.fin + 1) nb
/-- The address map f of an image; an address it does not hold stays as it is. -/
def fusedAddr (order : List (Bool × Nat)) (isA : Bool) (addr : Nat) : Nat :=
  match order.findIdx? (fun p => decide (p = (isA, addr))) with
  | some i => i
  | none => addr
/-- A SEQ word with END (bit 16) or BEG (bit 17) cleared (R149); only a SEQ has bit 31 set. -/
def clearMark (w bit : Nat) : Nat := if bitOf w 31 && bitOf w bit then w - 2 ^ bit else w

/-- One fused bundle (R149). -/
def fusedBundle (order : List (Bool × Nat)) (a b : Side) (i : Nat) (f : Fused) (aW : Nat) (o : Bool × Nat) : Bundle :=
  let ma := a.mark i
  let mb := b.mark i
  let id := fun (n : Nat) => n
  if o.1 then
    let body := decide (ma.beg ≤ o.2) && decide (o.2 ≤ ma.fin)
    let dst := fun d => match f.fwd.find? (fun p => decide (40 + p.1 = d)) with
      | some p => if body then p.2.2 else d
      | none => d
    let rm : RegMap := { x := id, p := id, sel := id, dst := dst, port := id, addr := fusedAddr order true, karg := false }
    let ws := (upTo 8).map (fun sl =>
      let w := renameWord rm sl (nth 0 (nth [] (a.code i) o.2) sl)
      match decodeSlot sl w with
      | .op _ .kend => if sl = 0 then 0 else w
      | _ => w)
    if o.2 = ma.fin then setNth (clearMark (nth 0 ws 7) 16) ws 7 else ws
  else
    let body := decide (mb.beg ≤ o.2) && decide (o.2 ≤ mb.fin)
    let dropped := fun j => f.fwd.any (fun p => decide (p.2.1 = j))
    let port := fun j => if dropped j then j else mapAt f.wmap j
    let sel := fun v => if v < 40 then mapAt f.vmap v
      else if v < 48 then match f.fwd.find? (fun p => decide (p.2.1 = v - 40)) with
        | some p => if body then p.2.2 else v
        | none => 40 + port (v - 40)
      else v
    let dst := fun d => if d < 40 then mapAt f.vmap d else if d < 48 then 40 + port (d - 40) else d
    let rm : RegMap := { x := mapAt f.xmap, p := mapAt f.pmap, sel := sel, dst := dst, port := port,
                         addr := fusedAddr order false, karg := true }
    let ws := (upTo 8).map (fun sl =>
      let w0 := nth 0 (nth [] (b.code i) o.2) sl
      match decodeSlot sl w0 with
      | .op _ (.wcfg _ p _) => if dropped p && bitOf aW p then 0 else renameWord rm sl w0
      | _ => renameWord rm sl w0)
    if o.2 = mb.beg then setNth (clearMark (nth 0 ws 7) 17) ws 7 else ws

/-- The renumbering of R148, with the refusal reasons 9 to 12 of R146. -/
def renumberAll (ra rb : List Byte) (fwdPairs : List (Nat × Nat)) (matched : List (Nat × Nat)) : Except Nat Fused :=
  let fwd? := forwardRegs (uVREG ra) (uVCF rb) fwdPairs []
  let cons := fwdPairs.map (·.2)
  match renumber (uPNAME ra) 0 1 6 128 (bitsIn (uPNAME rb) 6 128) [] [] with
  | none => .error 9
  | some pmap =>
  if (bitsIn (uPTEST rb) 6 64).any (fun j => decide (63 < mapAt pmap j)) then .error 9
  else if meets (uPINW rb) (uWREG ra) then .error 10
  else match renumber (uWREG ra) (uPINW rb) 4 0 8 ((bitsIn (uWREG rb) 0 8).filter (fun j => !(cons.contains j))) [] [] with
  | none => .error 10
  | some wmap =>
  if meets (uPINX rb) (uXREG ra) then .error 11
  else match renumber (uXREG ra) (uPINX rb) 1 1 32 (bitsIn (uXREG rb) 1 32) [] [] with
  | none => .error 11
  | some xmap =>
  match fwd? with
  | none => .error 12
  | some fwd => match renumber (uVREG ra) 0 4 0 40 (bitsIn (uVREG rb) 0 40) (fwd.map (fun p => p.2.2)) [] with
    | none => .error 12
    | some vmap =>
      if (bitsIn (uVCF rb) 0 40).any (fun j => decide (15 < mapAt vmap j)) then .error 12
      else .ok { code := [], origin := [], vmap := vmap, xmap := xmap, wmap := wmap, pmap := pmap, fwd := fwd, matched := matched }

/-- The checks of R146 in order, and the fused kernel (R148, R149): a refusal reason, or the fused code. `reads` lists the handles
that a published packet other than B names for reading; `transient` those the table or the packets mark (R147, log 36). -/
def spliceOf (pa pb : Plan) (sa sb : Option Side) (reads transient : List Nat) : Except Nat Fused :=
  let ha := pa.raw
  let hb := pb.raw
  let n := pa.img.cores.length
  if pa.img.flags % 8 ≠ 7 ∨ pb.img.flags % 8 ≠ 7 ∨ bitOf (field pa.bytes 42 1) 0 ∨ bitOf (field pb.bytes 42 1) 0 then .error 1
  else if pa.img.cores.map (·.core) ≠ pb.img.cores.map (·.core) then .error 2
  else match sa, sb with
  | some a, some b =>
    let ra := a.total
    let rb := b.total
    if !(ha.any (fun x => bitOf x.mode 1 && hb.any (fun y => bitOf y.mode 0 && decide (x.handle = y.handle)))) then .error 3
    else if (upTo n).any (sectionBad a b) then .error 4
    else if (upTo n).any (fun i => decide ((a.mark i).level ≠ (b.mark i).level) || decide ((a.mark i).nnest ≠ (b.mark i).nnest)
        || decide ((a.mark i).nest ≠ (b.mark i).nest)) then .error 5
    else if (upTo n).any (fun c => (upTo 8).any (fun i => (upTo 8).any (fun j =>
        let x := a.desc ha c i
        let y := b.desc hb c j
        decide (x.dir = 2) && decide (y.dir = 1) && decide (x.handle = y.handle) && decide (x.pattern ≠ y.pattern)))) then .error 6
    else if (upTo n).any (fun i => meets (uLIVEIN (nth [] a.use i)) (uLATWR (nth [] b.use i))
        || meets (uLIVEIN (nth [] b.use i)) (uLATWR (nth [] a.use i))) then .error 7
    else if meets (uKREG ra) (uKREG rb) || meets (uBTREG ra % 16) (uBTREG rb % 16) || meets (uSHREG ra) (uSHREG rb)
        || meets (uNODES ra) (uNODES rb) || meets (uSPBANK ra) (uSPBANK rb) || meets (uACBANK ra) (uACBANK rb)
        || meets (uZSLOT ra) (uZSLOT rb) then .error 8
    else
      let matched := matchPairs a b ha hb n
      let fw := ((upTo 8).filterMap (fun i => matched.find? (fun p => decide (p.1 = i)))).filter (fun p =>
        (upTo n).all (fun c =>
          let x := a.desc ha c p.1
          (transient.contains x.handle || x.transient) && !(reads.contains x.handle)))
      match renumberAll ra rb fw matched with
      | .error r => .error r
      | .ok f =>
        if (upTo n).any (fun i => decide (2048 < (a.code i).length + (b.code i).length)) then .error 13
        else
          let order := (upTo n).map (fun i => fusedOrder (a.mark i) (b.mark i) (a.code i).length (b.code i).length)
          .ok { f with origin := order
                       code := (upTo n).map (fun i => (nth [] order i).map (fusedBundle (nth [] order i) a b i f (uWREG ra))) }
  | _, _ => .error 2

/-- A byte of a report's map. -/
def mapByte (m : List (Nat × Nat)) (j : Nat) : Byte := match m.find? (fun p => decide (p.1 = j)) with
  | some p => BitVec.ofNat 8 p.2
  | none => 255
/-- The splice report (R153). -/
def spliceReport (status kerna kernb : Nat) (f : Option Fused) : List Byte :=
  let m (g : Fused → List (Nat × Nat)) (n : Nat) : List Byte := match f with
    | some x => (upTo n).map (mapByte (g x))
    | none => List.replicate n 255
  leBytes 4 status ++ leBytes 4 0 ++ leBytes 4 kerna ++ leBytes 4 kernb ++ m (·.vmap) 40 ++ m (·.xmap) 32 ++ m (·.wmap) 8
    ++ m (·.pmap) 128 ++ m (fun x => x.fwd.map (fun p => (p.1, 128 + p.2.2))) 8 ++ m (·.matched) 8 ++ List.replicate 16 0

end Sys2Proof.Machine
end

