-- ==== Sys2Proof/Machine/FrontEnd.lean ====
section
/-! DEFINITION. The front end: gangs and their slots (R110), stops of contexts (R103, R104, R115), doorbells (R111), the choice
and the holds of packets (R113 to R116, R119, R123, R137), the launch of kernels (R137, R146, R149), their release (R138, R139) and
the completion of packets (R120, R152). -/
namespace Sys2Proof.Machine

/-- The hardware slots in use (R110). -/
def freeSlots (s : State) : List Nat := (upTo 128).filter (fun i => decide (sget 0 s.hub.hwslots i = 0))
/-- Where a gang stands in the gang-slot order of R114: the lowest hardware slot of its queues (log 108). -/
def gangSlot (s : State) (g : Nat) : Nat := ((s.hub.hwslots.filter (fun p => decide ((s.queue (p.2 - 1)).gangOf = g))).map (·.1)).headD 0
/-- A gang's need to be mapped is raised: SPLIT.GANG of that moment says who serves it (R101, R102). -/
def askMap (s : State) (g : Nat) : State :=
  if (s.gang g).asks.isSome ∨ (s.gang g).mapped ∨ (s.gangQueues g).isEmpty then s
  else s.modGang g (fun v => { v with asks := some (bitOf (s.ctx (g / 256)).split.toNat 1) })
/-- Every gang of a pre-empted context is to be mapped again (R456). -/
def askMaps (s : State) (cid : Nat) : State :=
  (s.hub.gangs.filter (fun g => decide (g.1 / 256 = cid))).foldl (fun s g => askMap s g.1) s
/-- The tiles of a core are a context's when it first becomes resident (R269, log 37): the core is idle, and its last kernel was not of
another context that still has its slots there. -/
def tilesFor (s : State) (cid k : Nat) : Bool :=
  let c := s.core k
  decide (c.st = .idle) && (decide (c.cid = cid) || !((s.ctx c.cid).used.contains k))
/-- A context first becomes resident: every slot of its tiles is zeroed (R269). -/
def becomeResident (s : State) (cid : Nat) : State :=
  { s.modCtx cid (fun x => { x with st := .resident }) with
    tiles := s.tiles.map (fun t => if t.1 < 256 ∧ tilesFor s cid (t.1 / 4) then (t.1, { t.2 with slots := [] }) else t) }
/-- A gang takes a slot for each of its queues; queues in error stay there (R110, R112). -/
def mapGang (s : State) (g : Nat) : State :=
  let qs := s.gangQueues g
  let slots := (freeSlots s).take qs.length
  let hw : SMap Nat := (slots.zip qs).foldl (fun m p => sset 0 m p.1 (p.2.1 + 1)) s.hub.hwslots
  let s1 := { s with hub := { s.hub with hwslots := hw } }
  let s2 := s1.modGang g (fun v => { v with mapped := true, marked := false, asks := none, agingFrom := s.ptime })
  let s2 := { s2 with hub := { s2.hub with mapReqs := s2.hub.mapReqs.filter (fun r => decide (r ≠ g)) } }
  let s3 := qs.foldl (fun s p => s.modQueue p.1 (fun q => { q with
    mapped := true, st := if q.st = .created then (if q.pending = 0 then .idle else .ready) else q.st })) s2
  if (s.ctx (g / 256)).st = .created then becomeResident s3 (g / 256) else s3
/-- A gang gives up its slots (R110, R112). -/
def unmapGang (s0 : State) (g : Nat) : State :=
  let s := ageGang s0 g
  let qs := s.gangQueues g
  let keep := s.hub.hwslots.filter (fun p => !(qs.any (fun q => decide (q.1 + 1 = p.2))))
  let s1 := ({ s with hub := { s.hub with hwslots := keep } }).modGang g (fun v => { v with mapped := false })
  let s2 := qs.foldl (fun s p => s.modQueue p.1 (fun q => { q with
    mapped := false
    st := if q.st = .idle ∨ q.st = .ready ∨ q.st = .blocked then .created else q.st })) s1
  if qs.any (fun q => decide (q.2.pending ≠ 0)) then askMap s2 g else s2
def State.mappedGangs (s : State) : List (Nat × Gang) := s.hub.gangs.filter (fun p => p.2.mapped)
/-- A stop of a context begins (R104, R105): a host event joins a pre-emption in progress. -/
def beginStop (s : State) (cid : Nat) (final : CtxSt) : State :=
  let x := s.ctx cid
  match x.stopping with
  | some f => s.setCtx cid { x with stopping := some (if final = .faulted then .faulted else f) }
  | none => if x.st = .running ∨ x.st = .resident then s.setCtx cid { x with stopping := some final } else s

/-- The running gangs of a context: those whose kernels have been dispatched and not retired (R115). -/
def runningGangs (s : State) (cid : Nat) : List Nat :=
  (s.hub.groups.filter (fun g => decide (g.2.cid = cid) && decide (g.2.st ≠ .absent) && decide (g.2.st ≠ .retired))).flatMap (fun g =>
    g.2.pkts.map (fun p => (s.queue (s.pkt p).queue).gangOf)) |>.eraseDups
/-- The effective priority of a gang (R114). -/
def effOf (s : State) (g : Nat) : Nat := (s.gang g).eff
/-- The mapped gangs that restore a pre-empted context, and their effective priority (R456): those whose kernels it has saved, or any
when it has saved none (log 96). -/
def restoreGangs (s : State) (cid : Nat) : List (Nat × Gang) :=
  let own := runningGangs s cid
  s.mappedGangs.filter (fun p => decide (p.1 / 256 = cid) && (own.isEmpty || own.contains p.1))
def ctxEff (s : State) (cid : Nat) : Nat := ((restoreGangs s cid).map (fun p => p.2.eff)).foldl max 0

/-- A core is busy for LAUNCH and LOOPL (R137), or its context is stopping or being restored (R115). -/
def coreBusy (s : State) (k : Nat) : Bool :=
  let c := s.core k
  decide (c.shadow.st ≠ .empty) || (decide (c.st ≠ .idle) && ((s.ctx c.cid).stopping.isSome || (s.ctx c.cid).restoring))
/-- The context whose kernel makes a core busy. -/
def busyFor (s : State) (k : Nat) : Nat :=
  let c := s.core k
  if c.shadow.st ≠ .empty then (s.group c.shadow.kern).cid else c.cid
/-- A context is pre-empted, and makes room for what waits for its cores (R115, R456). -/
def preemptFor (s : State) (cid : Nat) (keys : List (Nat × Nat × Nat)) : State :=
  (beginStop s cid .preempted).modCtx cid (fun x => { x with room := (x.room ++ keys).eraseDups })
/-- A running context that holds cores for which one of effective priority `eff` waits is pre-empted when all its running gangs have
a lower one (R103, R115). -/
def contend (s : State) (eff own : Nat) (key : Nat × Nat × Nat) (holders : List Nat) : State :=
  (holders.eraseDups.filter (fun h => decide (h ≠ own))).foldl (fun s h =>
    let gs := runningGangs s h
    if (s.ctx h).st = .running ∧ !gs.isEmpty ∧ gs.all (fun g => decide (effOf s g < eff)) then preemptFor s h [key] else s) s

/-- A doorbell or a dispatch returns an idle device to active (R434). -/
def State.askActive (s : State) : State := if s.hub.idle then { s with hub := { s.hub with wake := true } } else s
/-- DOORBELL: a queue number is written to the doorbell (R111). -/
def execDoorbell (val : Nat) (s0 : State) : Out :=
  let s := s0.askActive
  let q := s.queue val
  if q.st = .absent ∨ q.st = .destroyed ∨ q.st = .error ∨ s.hub.fenced ∨ !s.hostPath then .next s0
  else match s.hubNat q.descCid (q.desc + 8) 4 with
    | none => .next s
    | some w =>
      if 2 ^ q.logn < (w + 2 ^ 32 - q.rptr) % 2 ^ 32 then
        if q.st = .created then .next (askMap (s.modGang q.gangOf (fun g => { g with marked := true })) q.gangOf)
        else .next (failPkt (s.setQueue val { q with wptr := w, vis := q.vis ++ [(w, s.ptime)] }) val (ringPacket s q q.rptr) stBAD_VALUE 0)
      else
        let s1 := s.setQueue val { q with wptr := w, vis := if w = q.wptr then q.vis else q.vis ++ [(w, s.ptime)] }
        if q.st = .created then
          let s2 := s1.modGang q.gangOf (fun g => { g with marked := g.marked || decide (w ≠ q.rptr) })
          .next (if (s2.gang q.gangOf).marked then askMap s2 q.gangOf else s2)
        else if q.st = .idle then .next (queueReady s1 val) else .next s1

/-- The number of resident contexts, those being restored among them (R94). -/
def residents (s : State) : Nat :=
  (s.ctxs.filter (fun x => decide (x.2.st = .resident) || decide (x.2.st = .running) || x.2.restoring)).length

/-- The gangs that the front end may unmap: with SPLIT.GANG the host unmaps a context's gangs (R110). -/
def State.ownMapped (s : State) : List (Nat × Gang) := s.mappedGangs.filter (fun p => !(bitOf (s.ctx (p.1 / 256)).split.toNat 1))
/-- A gang whose queues are all idle leaves. The last gang of a resident context takes it with it, saved; that of a running one stays
(R103). -/
def leaveIdle (s : State) (g : Nat) : State :=
  let cid := g / 256
  let last := !(s.mappedGangs.any (fun q => decide (q.1 / 256 = cid) && decide (q.1 ≠ g)))
  if last ∧ (s.ctx cid).st = .running then s
  else if last ∧ (s.ctx cid).st = .resident then beginStop (unmapGang s g) cid .preempted
  else unmapGang s g
/-- GANG_MAP: the front end maps a gang itself (R110): idle gangs leave first, the least recently dispatched first; then the
context of the mapped gang of the lowest effective priority below is pre-empted. A need that was raised under SPLIT.GANG it posts to the
host instead, once (R101, R102). -/
def execGangMap (gang : Nat) (s : State) : Out :=
  let x := s.ctx (gang / 256)
  let qs := s.gangQueues gang
  let wanted := (s.gang gang).marked || qs.any (fun p => decide (p.2.pending ≠ 0)) || decide (x.st = .preempted)
  if (s.gang gang).mapped ∨ qs.isEmpty ∨ !wanted ∨ x.st = .absent ∨ x.st = .destroyed ∨ s.hub.stalled then .next s
  else
  let s := askMap s gang
  if (s.gang gang).asks = some true then
    .next (if s.hub.mapReqs.contains gang then s else { s with hub := { s.hub with mapReqs := s.hub.mapReqs ++ [gang] } })
  else if x.st = .created ∧ 32 ≤ residents s then .next s
  else
    let s := ageGangs s
    let need := qs.length
    let idleGangs := sortBy (fun (p : Nat × Gang) => p.2.lastDispatch)
      (s.ownMapped.filter (fun p => (s.gangQueues p.1).all (fun q => decide (q.2.st = .idle))))
    let s1 := idleGangs.foldl (fun s p => if need ≤ (freeSlots s).length then s else leaveIdle s p.1) s
    let s2 :=
      if need ≤ (freeSlots s1).length then s1
      else match sortBy (fun (p : Nat × Gang) => p.2.eff) (s1.ownMapped.filter (fun p => decide (p.2.eff < (s.gang gang).eff))) with
        | p :: _ => beginStop (unmapGang s1 p.1) (p.1 / 256) .preempted
        | [] => s1
    if need ≤ (freeSlots s2).length then .next (mapGang s2 gang) else .next s2

/-- PRIORITY_AGING (R114). -/
def execPriorityAging (gang : Nat) (s : State) : Out := .next (ageGang s gang)

/-- A LAUNCH as it would be dispatched: its plan, and the next packet of its queue with its plan and what the Splicer finds
(R146). -/
structure LaunchPlan where
  a : Plan
  b : Option (List Byte × Plan × Except Nat Fused) := none
/-- The plan of a LAUNCH or LOOPL packet; `next` is the packet behind it, published and past its queue program. -/
def launchPlan (s : State) (cid : Nat) (bytes : List Byte) (next : Option (List Byte)) : Except Nat LaunchPlan :=
  match planOf s cid bytes [] with
  | .error e => .error e
  | .ok a =>
    match next with
    | none => .ok { a := a }
    | some nb =>
      if pOP bytes ≠ 1 ∨ pOP nb ≠ 1 ∨ pBAR nb ∨ !(packetOk nb) then .ok { a := a }
      else match planOf s cid nb a.raw with
        | .error _ => .ok { a := a }
        | .ok b =>
          let names := namesOf s cid (inQueues s cid)
          let others := names.filter (fun e => bitOf e.mode 0)
          let once := b.raw.filter (fun e => bitOf e.mode 0)
          let reads := (others.map (·.handle)).filter (fun h =>
            decide ((once.filter (fun e => decide (e.handle = h))).length < (others.filter (fun e => decide (e.handle = h))).length))
          let trans := ((s.ctx cid).handles.filter (fun h => h.2.transient)).map (·.1)
            ++ (a.raw.filter (fun e => e.transient)).map (·.handle)
          .ok { a := a, b := some (nb, b, spliceOf a b (readSide s cid a) (readSide s cid b) reads trans) }
/-- The packet behind the head one, when it is published and its queue program has passed it with DONE. -/
def nextHead (hs : List (Option (Nat × Nat) × List Byte)) : Option (List Byte) :=
  match hs with
  | (none, b) :: _ => some b
  | _ => none
/-- The handles of a launch: those of both packets of a fused pair (R151). -/
def LaunchPlan.hands (l : LaunchPlan) : List HEntry :=
  match l.b with
  | some (_, b, .ok _) => mergeHandles l.a.hands b.hands
  | _ => l.a.hands
def LaunchPlan.cores (l : LaunchPlan) : List Nat := l.a.img.cores.map (·.core)

/-- The buffers of a graph held by running replays (R126). -/
def heldBufs (s : State) (cid graph : Nat) : List Nat :=
  (s.hub.replays.filter (fun r => decide (r.2.graph = graph) && decide ((s.pkt r.1).cid = cid))).map (fun r => r.2.buf)
/-- What holds a packet, beside its queue (R115, R119, R123, R126, R137): for GRAPHP, all four buffers held. -/
def packetHeld (s : State) (cid : Nat) (b : List Byte) (next : Option (List Byte)) : Bool :=
  match pOP b with
  | 1 => !(((s.ctx cid).st = .resident ∨ (s.ctx cid).st = .running) ∧ (s.ctx cid).stopping.isNone) || (match launchPlan s cid b next with
    | .error _ => false
    | .ok l => l.cores.any (coreBusy s) || handlesHold s cid l.hands)
  | 2 => !(((s.ctx cid).st = .resident ∨ (s.ctx cid).st = .running) ∧ (s.ctx cid).stopping.isNone) || (match launchPlan s cid b none with
    | .error _ => false
    | .ok l => l.cores.any (coreBusy s) || handlesHold s cid l.hands)
  | 3 => match handlesOf s cid b with
    | some hs => handlesHold s cid hs
    | none => false
  | 5 => [0, 1, 2, 3].all (fun i => (heldBufs s cid (field b 16 8)).contains i)
  | _ => false
/-- A WAIT of the queue is outstanding (R119). -/
def waiting (s : State) (q : Queue) : Bool := q.out.any (fun p => decide (pOP (s.pkt p).bytes = 9) && (s.pkt p).outcome.isNone)
/-- What holds the head packet of a queue (R113, R119). -/
def headHeld (s : State) (q : Queue) : Bool :=
  waiting s q || (match q.heads with
    | (none, b) :: rest => ((pBAR b || decide (pOP b = 8)) && !q.out.isEmpty) || packetHeld s q.cid b (nextHead rest)
    | _ => false)
/-- Queues whose holding condition has ended are ready again (R112). -/
def unblock (s : State) : State :=
  s.hub.queues.foldl (fun s p => if p.2.st = .blocked ∧ !(headHeld s (s.queue p.1)) then queueReady s p.1 else s) s
/-- The busy cores for which a LAUNCH or LOOPL waits that nothing else holds (R115). -/
def coresWanted (s : State) (cid : Nat) (b : List Byte) : List Nat :=
  if pOP b ≠ 1 ∧ pOP b ≠ 2 then []
  else match launchPlan s cid b none with
    | .error _ => []
    | .ok l =>
      if ((s.ctx cid).st = .resident ∨ (s.ctx cid).st = .running) ∧ (s.ctx cid).stopping.isNone ∧ !(handlesHold s cid l.hands) then l.cores.filter (coreBusy s)
      else []

/-- Whether a status at dispatch puts the queue in error: an entry of the handle list out of its limits (R117, R122). -/
def handleListBad (s : State) (cid : Nat) (b : List Byte) : Bool :=
  match handlesOf s cid b with
  | some hs => hs.any (fun e => !e.ok)
  | none => false
/-- A gang dispatches a packet (R110, R114, R115): its priority returns to its base, its turn is running. -/
def gangDispatched (s : State) (g : Nat) : State :=
  let s1 := s.modGang g (fun v => { v with
    eff := v.prio, agingFrom := s.ptime, lastDispatch := s.hub.dispatches + 1, turnStart := some (v.turnStart.getD s.ptime) })
  { s1 with hub := { s1.hub with dispatches := s1.hub.dispatches + 1 } }
/-- A queue dispatches a packet (R114): the next choice at its gang's priority, and within the gang, goes on behind it. -/
def queueDispatched (s : State) (q : Nat) : State :=
  let g := (s.queue q).gangOf
  let v := s.gang g
  let s1 := s.modGang g (fun v => { v with lastQueue := q + 1 })
  gangDispatched { s1 with hub := { s1.hub with lastGang := sset 0 s1.hub.lastGang v.eff (gangSlot s g + 1) } } g
/-- The chosen queue (R113, R128, R146): its program runs on the head packet, and on the next one where the head is a LAUNCH; a
packet that the program has ended or that breaks its limits completes; a held one blocks the queue; any other is in hand. -/
def tryQueue (s : State) (qn : Nat) : State :=
  let q := s.queue qn
  let hasProg := q.prog.isSome || q.nextProg.isSome
  match q.heads with
  | [] =>
    if hasProg then startProg s qn q.rptr
    else s.setQueue qn { q with heads := [(none, ringPacket s q q.rptr)] }
  | (some (st, d), b) :: _ =>
    if st = stPROG_FAIL then failPkt s qn b st d else (takePkt s qn b (some (st, d))).1
  | (none, b) :: rest =>
    if !(packetOk b) || ((pOP b = 1 ∨ pOP b = 2) && handleListBad s q.cid b) then failPkt s qn b stBAD_PACKET 0
    else if pOP b = 1 ∧ rest.isEmpty ∧ 1 < q.pending then
      if hasProg then startProg s qn ((q.rptr + 1) % 2 ^ 32)
      else s.setQueue qn { q with heads := q.heads ++ [(none, ringPacket s q ((q.rptr + 1) % 2 ^ 32))] }
    else if headHeld s q then (ageGang s q.gangOf).setQueue qn { q with st := .blocked }
    else
      let (s1, id) := takePkt (queueDispatched s qn) qn b none
      { s1 with hub := { s1.hub with hand := some id } }

/-- The queue that dispatches next (R114). -/
def chooseQueue (s : State) : Option Nat :=
  let ready := fun (g : Nat) => (s.gangQueues g).filter (fun p => decide (p.2.st = .ready))
  let gs := s.mappedGangs.filter (fun p => !(ready p.1).isEmpty)
  let best := (gs.map (fun p => p.2.eff)).foldl max 0
  let top : List (Nat × Gang) := sortBy (fun (p : Nat × Gang) => gangSlot s p.1) (gs.filter (fun p => decide (p.2.eff = best)))
  let last := sget 0 s.hub.lastGang best
  let g? := match top.find? (fun p => decide (last ≤ gangSlot s p.1)) with
    | some p => some p
    | none => top.head?
  match g? with
  | none => none
  | some g =>
    let rq := ready g.1
    match rq.find? (fun p => decide (g.2.lastQueue ≤ p.1)) with
    | some p => some p.1
    | none => (rq.map (·.1)).head?

/-- The node of a replay that is next, with its packet (R125): the lowest whose predecessors have completed. -/
def replayNext (s : State) (rid : Nat) (r : Replay) : Option (Nat × List Byte) :=
  if r.result.isSome then none
  else (r.waiting.find? (fun i => decide (sget 0 r.counts i = 0))).map (fun i => (i, (nodePacket s (s.pkt rid).cid r i).getD []))
/-- It may dispatch now, if nothing holds it; a held one holds back the higher nodes of its replay (log 97). -/
def replayReady (s : State) (rid : Nat) (r : Replay) : Option (Nat × List Byte) :=
  match replayNext s rid r with
  | none => none
  | some (i, b) => if packetOk b && packetHeld s (s.pkt rid).cid b none then none else some (i, b)
/-- A LAUNCH or LOOPL that waits for busy cores alone (R115): its place, as room is made for it, its gang, its context and those that hold
its cores. -/
structure Blocked where
  key : Nat × Nat × Nat
  gang : Nat
  cid : Nat
  holders : List Nat
  deriving DecidableEq, Repr
/-- Those in blocked queues, and those that are a replay's next node. -/
def blockedLaunches (s : State) : List Blocked :=
  let one := fun (key : Nat × Nat × Nat) (g cid : Nat) (b : List Byte) =>
    ({ key := key, gang := g, cid := cid, holders := (coresWanted s cid b).map (busyFor s) } : Blocked)
  s.hub.queues.filterMap (fun p =>
    let q := p.2
    match q.heads with
    | (none, b) :: _ => if q.st = .blocked ∧ !(waiting s q) ∧ !(pBAR b && !q.out.isEmpty) then some (one (0, p.1, q.rptr) q.gangOf q.cid b) else none
    | _ => none)
  ++ s.hub.replays.filterMap (fun p =>
    match replayNext s p.1 p.2 with
    | some (i, b) => if packetOk b then some (one (1, p.1, i) (s.queue (s.pkt p.1).queue).gangOf (s.pkt p.1).cid b) else none
    | none => none)
/-- Each presses the holders of its cores (R115). -/
def pressHeld (s : State) : State := (blockedLaunches s).foldl (fun s b => contend s (effOf s b.gang) b.cid b.key b.holders) s
def chooseNode (s : State) : Option (Nat × Replay × Nat × List Byte) :=
  s.hub.replays.findSome? (fun p => (replayReady s p.1 p.2).map (fun x => (p.1, p.2, x.1, x.2)))
/-- A node of a replay is in hand, dispatched for its replay's gang (R114, R115); one that breaks its limits completes with
BAD_PACKET. -/
def tryNode (s : State) (rid : Nat) (r : Replay) (i : Nat) (b : List Byte) : State :=
  let k := s.pkt rid
  let bad := !(packetOk b) || ((pOP b = 1 ∨ pOP b = 2) && handleListBad s k.cid b)
  let node : Pkt := { queue := k.queue, cid := k.cid, bytes := b, node := some (rid, i), outcome := if bad then some (stBAD_PACKET, 0) else none }
  let (s1, id) := addPkt (if bad then s else gangDispatched s (s.queue k.queue).gangOf) node
  let r1 := { r with waiting := r.waiting.filter (fun j => decide (j ≠ i)), flying := r.flying ++ [i] }
  { s1 with hub := { s1.hub with replays := sset {} s1.hub.replays rid r1, hand := if bad then none else some id } }

/-- PACKET_DISPATCH (R113, R114, R125): one packet at a time; a ready node of a replay goes before the packets of the queues, that of
the replay dispatched first before the others' (log 97). -/
def execPacketDispatch (s : State) : Out :=
  if s.hub.hand.isSome ∨ s.hub.interp.isSome ∨ s.hub.fenced ∨ s.hub.stalled then .next s
  else
    let s1 := pressHeld (unblock (ageGangs s))
    match chooseNode s1 with
    | some (rid, r, i, b) => .next (tryNode s1.askActive rid r i b)
    | none => match chooseQueue s1 with
      | some q => .next (tryQueue s1.askActive q)
      | none => .next s1

/-- A LAUNCH or LOOPL is being dispatched: its kernel starts before a save or a restore completes, since a dispatch has one place
in the front-end order (R113). -/
def launchInHand (s : State) : Bool :=
  match s.hub.hand with
  | some p => decide (pOP (s.pkt p).bytes = 1) || decide (pOP (s.pkt p).bytes = 2)
  | none => false
/-- What a pre-emption makes room for goes before the pre-empted context is restored, as soon as nothing else holds it (R115, R456,
log 94). -/
def roomWanted (s : State) (key : Nat × Nat × Nat) : Bool :=
  match key with
  | (0, q, r) => let v := s.queue q
    (decide (v.st = .ready) || decide (v.st = .blocked)) && decide (v.rptr = r) && !(headHeld s v)
  | (1, rid, i) => s.hub.replays.any (fun p => decide (p.1 = rid) && (match replayReady s p.1 p.2 with
    | some (j, b) => decide (j = i) && packetOk b
    | none => false))
  | (_, c, _) => decide ((s.ctx c).st = .preempted) && !(s.ctx c).restoring && !(restoreGangs s c).isEmpty
/-- The contexts that hold the cores of a context to restore (R456): cores with saved state of it, and cores whose shadow plane takes a
kernel of it that is dispatched and not released (R134). -/
def restoreHolders (s : State) (cid : Nat) : List Nat :=
  let saved : List Nat := match (s.ctx cid).saved with
    | some v => v.cores.map (·.1)
    | none => []
  let waits : List Nat := (s.hub.groups.filter (fun g => decide (g.2.cid = cid) && decide (g.2.st = .loading))).flatMap (fun g => g.2.cores)
  ((saved.filter (fun k => decide ((s.core k).st ≠ .idle) || decide ((s.core k).shadow.st ≠ .empty))).map (fun k =>
      if (s.core k).st ≠ .idle then (s.core k).cid else busyFor s k))
    ++ (waits.filter (fun k => decide ((s.core k).shadow.st ≠ .empty))).map (busyFor s)

/-- QUANTUM_EXPIRY (R115, R456): the running gang has used its quantum, and a LAUNCH or LOOPL of one of equal or higher effective
priority is blocked on its context's cores, or a context waits to be restored on them. -/
def execQuantumExpiry (gang : Nat) (s0 : State) : Out :=
  let s := ageGangs s0
  let g := s.gang gang
  let cid := gang / 256
  match g.turnStart with
  | none => .next s0
  | some t =>
    let blocked := ((blockedLaunches s).filter (fun b => decide (b.cid ≠ cid) && decide (g.eff ≤ effOf s b.gang) && b.holders.contains cid)).map (·.key)
    let restores := (s.ctxs.filter (fun p => decide (p.2.st = .preempted) && !p.2.restoring && decide (p.1 ≠ cid) && decide (g.eff ≤ ctxEff s p.1)
      && (restoreHolders s p.1).contains cid && !(restoreGangs s p.1).isEmpty)).map (fun p => (2, p.1, 0))
    let keys := blocked ++ restores
    if (s.ctx cid).st = .running ∧ t + g.quant * 1000 ≤ s.ptime ∧ (runningGangs s cid).contains gang ∧ !keys.isEmpty ∧ !s.hub.stalled then
      .next ((preemptFor s cid keys).setGang gang { g with turnStart := none })
    else .next s0

/-- The next kernel number (R140). -/
def takeKern (s : State) : State × Nat :=
  let n := s.hub.nextKern
  ({ s with hub := { s.hub with nextKern := if (n + 1) % 2 ^ 32 = 0 then 1 else n + 1 } }, n)
/-- Section 0 starts to load into the shadow plane of a core (R137). -/
def loadFirst (s : State) (kern k : Nat) : State :=
  let secs := sget [] (s.group kern).secs k
  s.modCore k (fun c => c.setShadow { st := .loading, sec := 0, kern := kern, code := nth [] secs 0 })
/-- The presets of a plan (R132, R149). -/
def Plan.presets (p : Plan) : List (Nat × Nat) := p.img.presets.map (fun f => (p.flagbase + f.1, f.2))
/-- A kernel is dispatched (R137, R149): its group and sections, and the loads of its cores' shadow planes. -/
def startKernel (s : State) (kern later cid : Nat) (pkts : List Nat) (l : LaunchPlan) (loop : Option LoopRec) : State :=
  let fused : Option (Plan × Fused) := match l.b with
    | some (_, b, .ok f) => some (b, f)
    | _ => none
  let cores := l.cores
  let secs : SMap (List (List Bundle)) := match fused with
    | some (_, f) => (cores.zip f.code).foldl (fun m p => sset [] m p.1 [p.2]) []
    | none => l.a.img.cores.foldl (fun m c => sset [] m c.core c.secs) []
  let origins : SMap (List (Nat × Nat)) := match fused with
    | some (_, f) => (cores.zip f.origin).foldl (fun m p => sset [] m p.1 (p.2.map (fun o => (if o.1 then kern else later, o.2)))) []
    | none => []
  let g : Group := {
    st := .loading, cid := cid, cores := cores, pkts := pkts, args := argsOf l.a.bytes, later := later,
    args2 := match fused with
      | some (b, _) => argsOf b.bytes
      | none => 0
    presets := l.a.presets ++ (match fused with
      | some (b, _) => b.presets
      | none => [])
    hstores := l.a.img.cores.foldl (fun m c => sset none m c.core c.handler) []
    secs := secs, origins := origins, loop := loop }
  let s1 := s.setGroup kern g
  let s2 := { s1 with hub := { s1.hub with loading := s1.hub.loading ++ [kern] } }
  cores.foldl (fun s k => loadFirst s kern k) s2

/-- LAUNCH (R118, R130 to R133, R137, R146, R151 to R153). -/
def execLaunch (s : State) : Out :=
  if s.hub.fenced then .next s
  else match inHand s 1 with
  | none => .next s
  | some (p, k) =>
    let nxt := if k.node.isSome then none else nextHead (s.queue k.queue).heads
    match launchPlan s k.cid k.bytes nxt with
    | .error st => .next (answer s p st 0)
    | .ok l =>
      let (s1, kern) := takeKern s
      match l.b with
      | some (nb, b, .ok f) =>
        let (s2, later) := takeKern s1
        let (s3, pb) := takePkt s2 k.queue nb none
        let s4 := if b.report = 0 then s3 else s3.hubWrite k.cid b.report (spliceReport 0 kern later (some f))
        let s5 := (s4.setPkt p { s4.pkt p with kern := kern, started := true, fused := some pb }).setPkt pb
          { s4.pkt pb with kern := later, started := true }
        let s6 := useHandles (useHandles s5 k.cid p l.a.hands) k.cid pb b.hands
        .next (handDone (startKernel s6 kern later k.cid [p, pb] l none))
      | some (_, b, .error r) =>
        let s2 := if b.report = 0 then s1 else s1.hubWrite k.cid b.report (spliceReport r kern 0 none)
        let s3 := useHandles (s2.setPkt p { s2.pkt p with kern := kern, started := true }) k.cid p l.a.hands
        .next (handDone (startKernel s3 kern 0 k.cid [p] { l with b := none } none))
      | none =>
        let s2 := useHandles (s1.setPkt p { s1.pkt p with kern := kern, started := true }) k.cid p l.a.hands
        .next (handDone (startKernel s2 kern 0 k.cid [p] l none))

/-- LOOPL (R118, R361, R364): TRAPN counts from here. -/
def execLoopl (s : State) : Out :=
  if s.hub.fenced then .next s
  else match inHand s 2 with
  | none => .next s
  | some (p, k) => match launchPlan s k.cid k.bytes none with
    | .error st => .next (answer s p st 0)
    | .ok l =>
      let (s1, kern) := takeKern s
      let seqt := field k.bytes 24 8
      let loop : LoopRec := { seqt := seqt, nseq := (s.hubNat k.cid (seqt + 4) 2).getD 0, vocab := field k.bytes 44 4,
                              maxit := field k.bytes 48 8, tag := pTAG k.bytes, irq := pIRQ k.bytes, buckets := l.a.img.buckets,
                              lanes := List.replicate 256 65535 }
      let s2 := (s1.hubWrite k.cid (seqt + 168) (leBytes 8 0)).setPkt p { s1.pkt p with kern := kern, started := true }
      .next (handDone (startKernel (useHandles s2 k.cid p l.a.hands) kern 0 k.cid [p] l (some loop)))

/-- A core is released with a kernel (R138, R139, R143): its planes, its launch registers, its handler store; its state slots,
scratchpad and accumulator stay. -/
def releaseCore (s : State) (kern : Nat) (g : Group) (k : Nat) : State :=
  let s0 := (upTo 4).foldl (fun s d => acquireAt s (unitOf k d) 4) s
  let s1 := coreSwitch s0 k true
  s1.modCore k (fun c =>
    let c1 := c.setShadow { c.shadow with st := .active }
    let c2 := { c1 with
      activeIs1 := !c1.activeIs1, st := .running, cid := g.cid, group := kern, secs := sget [] g.secs k, bn := 0, pc := 0,
      karg0 := BitVec.ofNat 64 g.args, karg1 := BitVec.ofNat 64 g.args2,
      kernid := BitVec.ofNat 64 (g.later * 2 ^ 32 + kern), kernelHstore := sget none g.hstores k,
      hstore := (s.ctx g.cid).hstore, hold := .none, holdQ := [], issue := none, inflight := [], handler := none,
      cause := 0, reason := 0, trapPc := 0, trapInfo := 0, trapOrg := 0,
      deque := [], spTail := 0, spHead := 0, curRec := none, curAll := false, retired := false, benchFrom := none, benchOwed := [],
      pendTrap := none, retLvl := none, haltedFrom := none, frozen := false, bpSkip := false, occ := 0, drl := 0 }
    loadSection (c2.setShadow {}) 1)
/-- The context of a kernel lets it be released: it is resident, and no stop, restore or debugger halt is on it (R104, R358). -/
def mayRelease (s : State) (kern : Nat) : Bool :=
  let cid := (s.group kern).cid
  let x := s.ctx cid
  (decide (x.st = .resident) || decide (x.st = .running)) && x.stopping.isNone && !x.restoring && decide (s.hub.haltCtx ≠ some cid)
/-- GROUP_RELEASE (R138): the presets, the release at `.pkg`, and every core of the group at bundle address 0, the kernels in their
front-end order. -/
def execGroupRelease (kern : Nat) (s : State) : Out :=
  let g := s.group kern
  let ready := g.cores.all (fun k =>
    let c := s.core k
    decide (c.st = .idle) && decide (c.shadow.st = .shadowReady) && decide (c.shadow.kern = kern) && nodesIdle s k)
  let earlier := (s.hub.loading.takeWhile (fun n => decide (n ≠ kern))).any (mayRelease s)
  if g.st ≠ .loading ∨ !ready ∨ earlier ∨ !(mayRelease s kern) ∨ s.hub.stalled ∨ s.hub.fenced ∨ s.hub.idle then .next s
  else
    let s1 := g.presets.foldl (fun s f => s.hubWrite g.cid f.1 (leBytes 8 f.2)) s
    let s2 := s1.setGroup kern { g with st := .running, barriers := [], left := [], held := [], regroup := none }
    let s3 := { s2 with hub := { s2.hub with loading := s2.hub.loading.filter (fun n => decide (n ≠ kern)) } }
    let s4 := g.cores.foldl (fun s k => releaseCore s kern g k) s3
    .next (s4.modCtx g.cid (fun x => { x with st := .running, used := (x.used ++ g.cores).eraseDups }))

/-- A context whose destruction waits for its packets and for the replies to its last requests completes it (R105). -/
def settleDestroy (s : State) (cid : Nat) : State :=
  let x := s.ctx cid
  match x.destroyPkt with
  | none => s
  | some p =>
    if s.hub.pkts.any (fun k => decide (k.1 ≠ p) && decide (k.2.cid = cid)) ∨ s.hub.reqs.any (fun r => r.orphan && decide (r.cid = cid)) then s
    else (pktOutcome s p stOK 0).setCtx cid { x with destroyPkt := none }
/-- A gang without a dispatched kernel has ended its turn (R115). -/
def settleTurn (s : State) (g : Nat) : State :=
  if (runningGangs s (g / 256)).contains g then s else s.modGang g (fun v => { v with turnStart := none })
/-- The completion record, the interrupt, the handles; the packet is gone (R120, R308). -/
def finishPkt (s : State) (p : Nat) : State :=
  let k := s.pkt p
  match k.outcome with
  | none => s
  | some (st, d) =>
    let rec_ := leBytes 4 st ++ leBytes 2 (pTAG k.bytes) ++ leBytes 2 d ++ leBytes 8 s.ptime
    let s1 := leaveHandles s p
    let s2 := if pCPL k.bytes then s1.hubWrite k.cid (pCPLADDR k.bytes) rec_ else s1
    let s3 := s2.modQueue k.queue (fun q => { q with out := q.out.filter (fun x => decide (x ≠ p)) })
    let s4 := { s3.interrupt (pIRQ k.bytes) with hub := { (s3.interrupt (pIRQ k.bytes)).hub with
      pkts := sset {} s3.hub.pkts p {}, replays := sset {} s3.hub.replays p {} } }
    settleTurn (settleDestroy (settleHandles s4 k.cid) k.cid) (s4.queue k.queue).gangOf
/-- PACKET_COMPLETE (R120, R152): a fused pair's records follow one another. -/
def execPacketComplete (pkt : Nat) (s : State) : Out :=
  let k := s.pkt pkt
  let later := s.hub.pkts.any (fun x => decide (x.2.fused = some pkt))
  if k.outcome.isNone ∨ k.node.isSome ∨ later ∨ s.hub.stalled then .next s
  else match k.fused with
    | some b => .next (finishPkt (finishPkt s pkt) b)
    | none => .next (finishPkt s pkt)

end Sys2Proof.Machine
end

