-- ==== Sys2Proof/Machine/Command.lean ====
section
/-! DEFINITION. The queue commands beside the launches: copies, task graphs, bindings, unmappings, signals and waits (R118, R119,
R124 to R126, R300, R329 to R331). -/
namespace Sys2Proof.Machine

/-- The pages of a range, by the first address of each 64 KiB granule. -/
def granuleBases (va len : Nat) : List Nat := (granulesOf va len).map (fun g => 65536 * g)
/-- The hub may read, or write, every byte of a range of the context. -/
def hubMay (s : State) (cid va len kind : Nat) : Bool :=
  (granuleBases va len).all (fun a => match translate s 256 cid (max a va) kind with
    | .ok _ => true
    | .error _ => false)

/-- PACKET_COPY (R118, R122): the bytes move at the stack dies; a range without a translation is BAD_VALUE (log 38). -/
def execPacketCopy (s : State) : Out :=
  match inHand s 3 with
  | none => .next s
  | some (p, k) =>
    let src := field k.bytes 16 8
    let dst := field k.bytes 24 8
    let n := field k.bytes 32 8
    let hs := (handlesOf s k.cid k.bytes).getD []
    match handlesStatus (s.ctx k.cid) hs with
    | some st => .next (answer s p st 0)
    | none =>
      let s1 := useHandles s k.cid p (mergeHandles [] hs)
      if !(hubMay s1 k.cid src n 0) || !(hubMay s1 k.cid dst n 1) then .next (answer s1 p stBAD_VALUE 0)
      else .next (answer (s1.hubWrite k.cid dst ((s1.hubRead k.cid src n).getD [])) p stOK 0)

/-- The header of a task graph (R124): NNODE, NODES, DEPS, PARAMS, VERSION, CURBUF. -/
structure GraphHdr where
  nnode : Nat
  nodes : Nat
  deps : Nat
  params : Nat
  version : Nat
  curbuf : Nat
  deriving DecidableEq, Repr
/-- A header whose MAGIC or NNODE is not one of R124 is no graph (log 97). -/
def readGraph (s : State) (cid g : Nat) : Option GraphHdr := do
  let h ← s.hubRead cid g 64
  let n := field h 4 2
  if field h 0 4 ≠ 0x47525048 ∨ n = 0 ∨ 4096 < n then none
  else some { nnode := n, nodes := field h 8 8, deps := field h 16 8, params := field h 24 8, version := field h 32 4, curbuf := field h 36 1 }
/-- VERSION and CURBUF are written by the front end. -/
def putVersion (s : State) (cid g v buf : Nat) : State := (s.hubWrite cid (g + 32) (leBytes 4 v)).hubWrite cid (g + 36) (leBytes 1 buf)
/-- Version 1: bytes 63–16 of every node go to buffer 0 (R124). None where a node cannot be read. -/
def firstVersion (s : State) (cid g : Nat) (h : GraphHdr) : Option (State × GraphHdr) :=
  if h.version ≠ 0 then some (s, h)
  else match (upTo h.nnode).mapM (fun i => s.hubRead cid (h.nodes + 64 * i + 16) 48) with
    | none => none
    | some bs => some (putVersion (s.hubWrite cid h.params bs.flatten) cid g 1 0, { h with version := 1, curbuf := 0 })

/-- A replay that can go no further completes (R125): OK, the failing node's status, or BAD_VALUE when nodes remain that nothing
can start. -/
def settleReplay (s : State) (rid : Nat) : State :=
  let r : Replay := sget {} s.hub.replays rid
  if !r.flying.isEmpty then s
  else match r.result with
    | some (st, d) => pktOutcome s rid st d
    | none =>
      if r.waiting.isEmpty then pktOutcome s rid stOK 0
      else if r.waiting.all (fun i => decide (sget 0 r.counts i ≠ 0)) then pktOutcome s rid stBAD_VALUE (r.waiting.foldl min 65535)
      else s
/-- GRAPHR (R124, R125): the replay takes the current version's buffer; a header out of its limits is BAD_VALUE (log 97). -/
def execGraphr (s : State) : Out :=
  match inHand s 4 with
  | none => .next s
  | some (p, k) =>
    let g := field k.bytes 16 8
    match readGraph s k.cid g with
    | none => .next (answer s p stBAD_VALUE 0)
    | some h =>
      let ops := (upTo h.nnode).map (fun i => (s.hubNat k.cid (h.nodes + 64 * i) 1).getD 0)
      if ops.any (fun o => !([1, 2, 3, 6, 7, 8, 9].contains o)) then .next (answer s p stBAD_VALUE 0)
      else match firstVersion s k.cid g h with
        | none => .next (answer s p stBAD_VALUE 0)
        | some (s1, h1) =>
          let counts := (upTo h1.nnode).foldl (fun m i => sset 0 m i ((s1.hubNat k.cid (h1.deps + 16 * i) 2).getD 0)) ([] : SMap Nat)
          let r : Replay := { graph := g, nnode := h1.nnode, buf := h1.curbuf, counts := counts, waiting := upTo h1.nnode }
          .next (settleReplay (handDone { s1 with hub := { s1.hub with replays := sset {} s1.hub.replays p r } }) p)
/-- The successors of a node (R124); an NSUCC above 6 is read as 6 (log 97). -/
def successors (s : State) (cid deps i : Nat) : List Nat :=
  let d := (s.hubRead cid (deps + 16 * i) 16).getD []
  (upTo (min (field d 2 2) 6)).map (fun j => field d (4 + 2 * j) 2)
/-- GRAPH_NODE_COMPLETE (R125): the node's packet completes, and its successors' counts fall, or the replay ends with its
status; the nodes that are then not dispatched write no record (log 97). -/
def execGraphNodeComplete (pkt : Nat) (s : State) : Out :=
  let k := s.pkt pkt
  if s.hub.stalled then .next s else
  match k.node, k.outcome with
  | some (rid, i), some (st, _) =>
    let s1 := finishPkt s pkt
    let r : Replay := sget {} s1.hub.replays rid
    let fl := r.flying.filter (fun j => decide (j ≠ i))
    let deps := (s1.hubNat k.cid (r.graph + 16) 8).getD 0
    let r1 : Replay :=
      if st = stOK then { r with flying := fl, counts := (successors s1 k.cid deps i).foldl (fun m j => sset 0 m j (sget 0 m j - 1)) r.counts }
      else { r with flying := fl, waiting := [], result := some (r.result.getD (st, i)) }
    if s1.hub.replays.any (fun x => decide (x.1 = rid)) then
      .next (settleReplay { s1 with hub := { s1.hub with replays := sset {} s1.hub.replays rid r1 } } rid)
    else .next s1
  | _, _ => .next s
/-- GRAPHP (R126). -/
def execGraphp (s : State) : Out :=
  match inHand s 5 with
  | none => .next s
  | some (p, k) =>
    let b := k.bytes
    let g := field b 16 8
    let node := field b 24 4
    let off := field b 28 2
    let len := field b 30 2
    match readGraph s k.cid g with
    | none => .next (answer s p stBAD_VALUE 0)
    | some h =>
      if h.nnode ≤ node then .next (answer s p stBAD_VALUE 0)
      else match (if bitOf (field b 40 1) 0 then s.hubRead k.cid (field b 32 8) len else some ((b.drop 32).take 8)) with
        | none => .next (answer s p stBAD_VALUE 0)
        | some v => match firstVersion s k.cid g h with
          | none => .next (answer s p stBAD_VALUE 0)
          | some (s1, h1) =>
            let held := heldBufs s1 k.cid g
            let size := 48 * h1.nnode
            let free := (upTo 4).find? (fun i => !(held.contains i))
            if !(held.contains h1.curbuf) then
              let s2 := s1.hubWrite k.cid (h1.params + size * h1.curbuf + 48 * node + off) v
              .next (answer (putVersion s2 k.cid g (h1.version + 1) h1.curbuf) p stOK 0)
            else match free with
              | none => .next s
              | some f =>
                let cur := (s1.hubRead k.cid (h1.params + size * h1.curbuf) size).getD []
                let s2 := (s1.hubWrite k.cid (h1.params + size * f) cur).hubWrite k.cid (h1.params + size * f + 48 * node + off) v
                .next (answer (putVersion s2 k.cid g (h1.version + 1) f) p stOK 0)

/-- An acquire of the context is in progress (R300): issued, and not yet completed. -/
def acquiring (s : State) (cid : Nat) : Bool :=
  s.cores.any (fun p =>
    let after := match p.2.issue with
      | some i => i.after
      | none => []
    decide (p.2.cid = cid) && (p.2.hold :: p.2.holdQ ++ after).any (fun h => match h with
      | .sync kind _ _ => decide (kind = 0)
      | _ => false))
/-- BIND (R296, R300): refused entries change nothing; it waits for the acquires in progress; SYNC becomes atomic-only. -/
def execBind (s : State) : Out :=
  match inHand s 6 with
  | none => .next s
  | some (p, k) =>
    let b := k.bytes
    let x := s.ctx k.cid
    let base := field b 16 8
    let len := field b 24 8
    let sync := field b 32 8
    let idx := field b 40 2
    if bitOf (field b 42 1) 0 then
      if acquiring s k.cid then .next s
      else .next (answer (s.setCtx k.cid { x with regions := smod {} x.regions idx (fun r => { r with valid := false }) }) p stOK 0)
    else
      let others := x.regions.filter (fun r => r.2.valid && decide (r.1 ≠ idx))
      let bad := decide (base % 64 ≠ 0) || decide (len % 64 ≠ 0) || decide (len < 64) || decide (2 ^ 40 < len) || decide (2 ^ 56 < base + len)
        || others.any (fun r => overlaps base len r.2.base r.2.bytes)
        || others.any (fun r => decide (r.2.base ≤ sync) && decide (sync < r.2.base + r.2.bytes))
        || (decide (base ≤ sync) && decide (sync < base + len))
      if bad then .next (answer s p stBAD_VALUE 0)
      else if acquiring s k.cid then .next s
      else
        let s1 := s.setCtx k.cid { x with regions := sset {} x.regions idx { valid := true, base := base, bytes := len, sync := sync } }
        let s2 := match s1.devPa k.cid sync with
          | some pa => s1.markAtomic (pa / 64)
          | none => s1
        .next (answer s2 p stOK 0)

/-- The leaf entry that maps an address (R324): its address, level, frame and value. -/
def leafFrom (s : State) (va : Nat) : Nat → Nat → Option (Nat × Nat × Nat × Nat)
  | lvl, t =>
    let a := t + 8 * vaIndex va lvl
    let e := s.memNat a 8
    let addr := bitsOf e 47 8 * 256
    if e % 2 = 0 then none
    else if bitOf e 1 then some (a, lvl, addr, e)
    else match lvl with
      | 0 => none
      | l + 1 => leafFrom s va l addr
def leafAt (s : State) (cid va : Nat) : Option (Nat × Nat × Nat × Nat) := leafFrom s va 3 (s.ctx cid).root
/-- UNMAP marks its range and clears its leaves at their stack dies (R330, steps 1 and 2). -/
def startUnmap (s : State) (p cid base len : Nat) : State :=
  let leaves := ((granuleBases base len).filterMap (fun a => leafAt s cid a)).eraseDups
  let u : Unmapping := { base := base, bytes := len, tm := s.ptime, pkt := p, frames := leaves.map (fun l => (l.2.2.1, pageSize l.2.1)) }
  let s1 := leaves.foldl (fun s l => s.putMemNat l.1 8 (l.2.2.2 - 1)) s
  (s1.modCtx cid (fun x => { x with unmaps := x.unmaps ++ [u] })).setPkt p { s1.pkt p with started := true }
/-- UNMAP (R329): a range that is misaligned, reaches 2^56 or cuts a larger page is BAD_VALUE; with all 64 ranges in use the packet
waits outside its queue. -/
def execUnmap (s : State) : Out :=
  match inHand s 7 with
  | none => .next s
  | some (p, k) =>
    let base := field k.bytes 16 8
    let len := field k.bytes 24 8
    let cuts := (granuleBases base len).any (fun a => match leafAt s k.cid a with
      | some l =>
        let vb := a / pageSize l.2.1 * pageSize l.2.1
        decide (vb < base) || decide (base + len < vb + pageSize l.2.1)
      | none => false)
    if base % 65536 ≠ 0 ∨ len % 65536 ≠ 0 ∨ 2 ^ 56 < base + len ∨ cuts then .next (answer s p stBAD_VALUE 0)
    else if 64 ≤ (s.ctx k.cid).unmaps.length then .next (handDone s)
    else .next (handDone (startUnmap s p k.cid base len))
/-- The physical addresses that a result in flight still reads or writes (R327). -/
def Eff.holdsPa (e : Eff) : List Nat :=
  match e with
  | .mem cells _ => cells.map (·.1)
  | .load _ pa size _ _ => [pa, pa + size - 1]
  | .scanPop r => if r.src.isNone then [r.aA, r.aB] else []
  | .scanPush _ _ _ _ _ toMem aA aB _ _ => if toMem then [aA, aB] else []
  | .remote _ _ _ plen toMem addr _ => if toMem && decide (plen ≠ 0) then [addr] else []
  | .waitm pa _ => [pa]
  | .atomic pa => [pa]
  | .fill lines _ => lines.map (fun l => 64 * l)
  | _ => []
/-- A result in flight that holds a translation of the range: of an address in its frames, or of a granule of a command to post; or
that will keep one of its leaves. -/
def Entry.leases (e : Entry) (u : Unmapping) : Bool :=
  let inF := fun (pa : Nat) => u.frames.any (fun f => decide (f.1 ≤ pa) && decide (pa < f.1 + f.2))
  e.eff.holdsPa.any inF || (match e.eff with
    | .tlbFill t => overlaps t.vbase t.size u.base u.bytes
    | .xpost _ c => c.xlate.any (fun g => decide (u.base ≤ 65536 * g.1) && decide (65536 * g.1 < u.base + u.bytes))
    | _ => false)
/-- A synchronisation that still has its sync word to reach in the range's frames. -/
def Hold.leases (h : Hold) (u : Unmapping) : Bool :=
  match h with
  | .sync _ _ words => words.any (fun w => decide (w.2 ≠ 0) && u.frames.any (fun f => decide (f.1 ≤ w.2 - 1) && decide (w.2 - 1 < f.1 + f.2)))
  | _ => false
/-- Whether a lease or a hold on a range is left (R327, R330): a cached translation that has not expired, a command's, or that of an
access on its way to its home. A memory-bound stream reads nothing ahead here (R198), so its hold is each access's own. -/
def leased (s : State) (cid : Nat) (u : Unmapping) : Bool :=
  let inTlb := fun (l : List TlbEntry) => l.any (fun e => decide (e.cid = cid) && decide (s.ptime < e.expiry) && overlaps e.vbase e.size u.base u.bytes)
  s.tiles.any (fun t => inTlb t.2.tlb || t.2.nodes.any (fun n => match n.2.cmd with
      | some c => decide (c.cid = cid) && c.xlate.any (fun g => decide (u.base ≤ 65536 * g.1) && decide (65536 * g.1 < u.base + u.bytes))
      | none => false))
    || s.dieTlb.any (fun d => inTlb d.2)
    || s.cores.any (fun k => decide (k.2.cid = cid) && (k.2.inflight.any (fun e => e.leases u) || (k.2.hold :: k.2.holdQ).any (fun h => h.leases u) || (match k.2.issue with
      | some i => i.staged.any (fun e => e.leases u)
      | none => false)))
/-- The lines of frames leave every cache, written back first; marks and monitors on them go (R330, step 4). -/
def purgeFrames (s : State) (fr : List (Nat × Nat)) : State :=
  let inF := fun (ln : Nat) => fr.any (fun f => decide (f.1 ≤ 64 * ln) && decide (64 * ln < f.1 + f.2))
  let keep := fun (m : SMap Line) => m.filter (fun p => !(inF p.1))
  let s1 := (upTo 4).foldl (fun s d => (sget [] s.l2 d).foldl (fun s p => if inF p.1 then s.writeBack d p.1 else s) s) s
  let entries := fun (t : Tile) => { t with mon := t.mon.filter (fun m => !(inF m.line)) }
  retryHolds { s1 with
    ctxs := s1.ctxs.map (fun x => (x.1, { x.2 with saved := x.2.saved.map (fun v => { v with tiles := v.tiles.map (fun t => (t.1, entries t.2)) }) }))
    hub := { s1.hub with pkts := s1.hub.pkts.map (fun p => (p.1, match p.2.watch with
      | some w => if inF (w.1 / 64) then { p.2 with watch := none } else p.2
      | none => p.2)) }
    l2 := s1.l2.map (fun p => (p.1, keep p.2))
    adit := s1.adit.map (fun p => (p.1, keep p.2))
    atomicOnly := s1.atomicOnly.filter (fun p => !(inF p.1))
    tiles := s1.tiles.map (fun p => (p.1, { entries p.2 with rc := keep p.2.rc })) }
/-- The frames of the context's pool among a list, in granules (R330, R335). -/
def poolBack (x : Ctx) (fr : List (Nat × Nat)) : Ctx :=
  let back := x.taken.filter (fun t => fr.any (fun f => decide (f.1 ≤ t) && decide (t < f.1 + f.2)))
  { x with pool := sortBy (fun n => n) (x.pool ++ back), taken := x.taken.filter (fun t => !(back.contains t)) }
/-- The UNMAPs of a context that wait start as ranges are free, in front-end order (R329). -/
def startWaiting (s : State) (cid : Nat) : Nat → State
  | 0 => s
  | fuel + 1 =>
    if 64 ≤ (s.ctx cid).unmaps.length then s
    else match s.hub.pkts.find? (fun p => decide (p.2.cid = cid) && decide (pOP p.2.bytes = 7) && !p.2.started && p.2.outcome.isNone
        && decide (s.hub.hand ≠ some p.1)) with
      | some (p, k) => startWaiting (startUnmap s p cid (field k.bytes 16 8) (field k.bytes 24 8)) cid fuel
      | none => s
/-- UNMAP_DRAIN_DONE (R330, steps 3 to 5): the oldest range whose leases and holds have ended; when it is the oldest of all, the
UNMAPs that wait start (R329). -/
def execUnmapDrainDone (cid : Nat) (s : State) : Out :=
  let x := s.ctx cid
  match x.unmaps.find? (fun u => !(leased s cid u)) with
  | none => .next s
  | some u =>
    if s.hub.stalled then .next s else
    let s1 := purgeFrames s u.frames
    let s2 := s1.modCtx cid (fun x => poolBack { x with unmaps := x.unmaps.filter (fun v => decide (v ≠ u)) } u.frames)
    let s3 := pktOutcome s2 u.pkt stOK 0
    .next (if x.unmaps.head? = some u then startWaiting s3 cid 64 else s3)

/-- SIGNAL (R119): store, add or unsigned maximum on the word, at its atomic unit, after a release at `.pkg`. -/
def execSignal (s : State) : Out :=
  match inHand s 8 with
  | none => .next s
  | some (p, k) =>
    let ev := field k.bytes 16 8
    let v := field k.bytes 24 8
    match translate s 256 k.cid ev 2 with
    | .error _ => .next (answer s p stBAD_VALUE 0)
    | .ok (pa, _) =>
      let s1 := s.markAtomic (pa / 64)
      let old := s1.memNat pa 8
      let new := match field k.bytes 32 1 with
        | 0 => v
        | 1 => (old + v) % 2 ^ 64
        | _ => max old v
      .next (answer (s1.putMemNat pa 8 new) p stOK 0)

/-- The comparison of a WAIT (R118, R119); none where the word cannot be read. -/
def waitHolds (s : State) (k : Pkt) : Option Bool :=
  (s.hubNat k.cid (field k.bytes 16 8) 8).map (fun w => waitCmp (field k.bytes 32 1) (field k.bytes 24 8) w)
/-- A write has satisfied an outstanding WAIT before its TIMEOUT passed (R119). -/
def waitMet (s : State) (k : Pkt) : Bool := k.seen || (k.inTime s.ptime && decide (waitHolds s k = some true))
/-- A queue goes on after its WAIT (R119). -/
def waitOver (s : State) (p st : Nat) : State :=
  let k := s.pkt p
  let s1 := pktOutcome s p st 0
  if k.node.isNone ∧ (s1.queue k.queue).st = .blocked ∧ !(headHeld s1 (s1.queue k.queue)) then queueReady s1 k.queue else s1
/-- WAIT (R119): it completes at once, or holds its queue blocked. -/
def execWait (s : State) : Out :=
  match inHand s 9 with
  | none => .next s
  | some (p, k) => match waitHolds s k with
    | none => .next (answer s p stBAD_VALUE 0)
    | some true => .next (answer s p stOK 0)
    | some false =>
      let us := field k.bytes 40 8
      let word := (s.devPa k.cid (field k.bytes 16 8)).map (fun pa => (pa, field k.bytes 24 8, field k.bytes 32 1))
      let s1 := handDone (s.setPkt p { k with started := true, watch := word, deadline := if us = 0 then none else some (s.ptime + 1000 * us) })
      if k.node.isSome then .next s1
      else .next (s1.modQueue k.queue (fun q => { q with st := if q.st = .ready ∨ q.st = .idle then .blocked else q.st }))
/-- WAIT_SATISFIED and WAIT_TIMEOUT (R119): a WAIT that a write has satisfied does not time out. -/
def execWaitSatisfied (pkt : Nat) (s : State) : Out :=
  let k := s.pkt pkt
  if pOP k.bytes = 9 ∧ k.started ∧ k.outcome.isNone ∧ waitMet s k ∧ !s.hub.stalled then .next (waitOver s pkt stOK) else .next s
def execWaitTimeout (pkt : Nat) (s : State) : Out :=
  let k := s.pkt pkt
  match k.deadline with
  | some dl => if pOP k.bytes = 9 ∧ k.started ∧ k.outcome.isNone ∧ dl ≤ s.ptime ∧ !(waitMet s k) ∧ !s.hub.stalled then .next (waitOver s pkt stTIMEOUT) else .next s
  | none => .next s

end Sys2Proof.Machine
end

