-- ==== Sys2Proof/Machine/Slots.lean ====
section
/-! DEFINITION. State slots: moves, STEP and SDOT, and ZOP (R254, R268 to R276). -/
namespace Sys2Proof.Machine

/-- A slot that an SCRY with P > 1 has pending (R266), or that is spilling, stalls every SCN operation that would read or write
it (R44, R270). -/
def slotPending (c : OpCtx) (z : Nat) : Bool :=
  c.flight.any (fun e => decide (e.unit = c.u) && (match e.eff with
    | .scry r => [r.zs, r.zs + 1, r.zx, r.zx + 1].contains z
    | _ => false))
def slotFree (c : OpCtx) (z : Nat) : Res Unit :=
  if (c.t.getSlot z).st = .spilling || slotPending c z then stall
  else .ok ()
/-- A slot's bytes as an operation reads them: a free or spilled slot returns zeros (R270). -/
def slotBytes (t : Tile) (z a len : Nat) : List Byte :=
  let sl := t.getSlot z
  if sl.st = .free || sl.st = .spilled then List.replicate len 0
  else (upTo len).map (fun i => sget 0 sl.bytes (a + i))

/-- ZLD (R272). -/
def opZld (z row a : Nat) (c : OpCtx) : Res (List Post) := do
  slotFree c z
  let sa ← readNonEmpty c a
  let bytes := (upTo 512).map (fun j => BitVec.ofNat 8 (sa.v.lane (j / 4) / 256 ^ (j % 4)))
  .ok ({ lat := 3, eff := .slotBytes z (cellsAt (512 * row) bytes) } :: sa.posts)
/-- ZRD (R272): the tag is TAGMODE.LDT at issue; masks are ignored. -/
def opZrd (d z row : Nat) (c : OpCtx) : Res (List Post) := do
  slotFree c z
  dstPosts c d 3 (vecOfBytes (Tag.ofCode (c.t.ldt + 1)) (slotBytes c.t z (512 * row) 512)) allOnes
/-- ZCLR (R272). -/
def opZclr (z : Nat) (c : OpCtx) : Res (List Post) := do
  slotFree c z
  .ok [{ lat := 1, eff := .slotClear z }]
/-- ZMOV (R272): all 32 KiB, the destination live. -/
def opZmov (zd za : Nat) (c : OpCtx) : Res (List Post) := do
  slotFree c za
  slotFree c zd
  .ok [{ lat := 2, eff := .slotBytes zd (cellsAt 0 (slotBytes c.t za 0 32768)) }]

/-- The state-tile shape of scn.sh0 (R273): format, R, W, or none when it is illegal. -/
def stepShape (t : Tile) : Option (FFmt × Nat × Nat) :=
  let fmt := (t.shape 4 8).toNat
  let w := (t.shape 4 12).toNat
  if fmt > 1 then none
  else if bitsOf w 63 40 ≠ 0 || bitsOf w 23 14 ≠ 0 || bitsOf w 7 7 ≠ 0 then none
  else some (if fmt = 0 then .fp32 else .bf16, bitsOf w 13 8 + 1, bitsOf w 6 0 + 1)
/-- round_f of an FP32 lane to the state format (R274). -/
def toFmt (f : FFmt) (x : Nat) : Fl :=
  match f with
  | .fp32 => (canonOr x, if (dec32 x).isSnan then flIV else 0)
  | .bf16 => f2bf .rne x
where canonOr (x : Nat) : Nat := if nan32 x then fcnan .fp32 else x

/-- A state value of row r, position j. -/
def slotVal (t : Tile) (z : Nat) (f : FFmt) (r j : Nat) : Nat := leNat (slotBytes t z (512 * r + f.size * j) f.size)

/-- The product of two FP32 lanes rounded once to the state format (R274). -/
def mulTo (f : FFmt) (x y : Nat) : Fl := fmulV f .rne (dec32 x) (dec32 y)

/-- STEP (R274) into slot zd; the lanes that the shape does not name are not read, and their conversion sets no flag. -/
def opStep (z zd a b : Nat) (c : OpCtx) : Res (List Post) := do
  let (f, r, w) ← match stepShape c.t with
    | some x => .ok x
    | none => raise cILLEGAL 0
  check (r = 1 || w ≤ 64) cILLEGAL 0
  let prog ← match c.t.prog with
    | some p => .ok p
    | none => raise cILLEGAL 0
  slotFree c z
  slotFree c zd
  let sa ← readAs c a .fp32 (fun i => decide (i < w))
  let sb ← readAs c b .fp32 (fun i => decide (i < w) || (decide (1 < r) && decide (64 ≤ i) && decide (i < 64 + r)))
  let pos := (upTo r).flatMap (fun i => (upTo w).map (fun j => (i, j)))
  let vals := pos.map (fun p =>
    let (ra, f1) := toFmt f (sa.v.lane p.2)
    let (rb, f2) := if r = 1 then toFmt f (sb.v.lane p.2) else mulTo f (sb.v.lane (64 + p.1)) (sb.v.lane p.2)
    let (_, ob, f3) := combine f prog (fmtOne f) (slotVal c.t z f p.1 p.2) ra rb
    (512 * p.1 + f.size * p.2, ob, f1 ||| f2 ||| f3))
  let cells := vals.flatMap (fun v => cellsAt v.1 (leBytes f.size v.2.1))
  let fl := vals.foldl (fun g v => g ||| v.2.2) 0
  .ok ([{ lat := 7, eff := .slotBytes zd cells, fl := fl ||| sa.fl ||| sb.fl }] ++ sa.posts ++ sb.posts)

/-- SDOT (R276); a signalling BF16 state value sets IV as it becomes an operand (R76). -/
def opSdot (d z cs : Nat) (c : OpCtx) : Res (List Post) := do
  let (f, r, w) ← match stepShape c.t with
    | some x => .ok x
    | none => raise cILLEGAL 0
  slotFree c z
  let sc ← readAs c cs .fp32 (fun i => decide (i < if r = 1 then w else r))
  let val : Nat → Nat → Fl := fun i j =>
    let x := slotVal c.t z f i j
    match f with
    | .fp32 => (x, 0)
    | .bf16 => bf2f x
  let lanes := (upTo 128).map (fun j =>
    if j < w then
      if r = 1 then let y := mul32 (sc.v.lane j) (val 0 j).1; (y.1, y.2 ||| (val 0 j).2)
      else (upTo r).foldl (fun (acc : Fl) i =>
        let (y, g) := fma32 (sc.v.lane i) (val i j).1 acc.1
        (y, acc.2 ||| g ||| (val i j).2)) (0, 0)
    else (0, 0))
  let fl := lanes.foldl (fun g x => g ||| x.2) 0
  let ps ← dstPosts c d 5 (Vec.mk' .fp32 (fun i => (nth (0, 0) lanes i).1)) allOnes (fl ||| sc.fl)
  .ok (ps ++ sc.posts)

/-- ZOP (R254): ILLEGAL when the program is not valid; the tile keeps its program. -/
def opZop (xa : Nat) (c : OpCtx) : Res (List Post) := do
  let x0 ← rx c xa
  let x1 ← rx c (xa + 1)
  let x2 ← rx c (xa + 2)
  let x3 ← rx c (xa + 3)
  let prog := [x0, x1, x2, x3].flatMap (fun v => [v.extractLsb' 0 32, v.extractLsb' 32 32])
  check (progValid prog) cILLEGAL 0
  .ok [{ lat := 2, eff := .zop prog }]

def execZld (a z row : Nat) (s : State) : Out := issueTiles s 5 (opZld z row a)
def execZrd (d z row : Nat) (s : State) : Out := issueTiles s 5 (opZrd d z row)
def execZclr (zd : Nat) (s : State) : Out := issueTiles s 5 (opZclr zd)
def execZmov (zd za : Nat) (s : State) : Out := issueTiles s 5 (opZmov zd za)
def execStep (z a b : Nat) (s : State) : Out := issueTiles s 5 (opStep z z a b)
def execStepSpec (z a b : Nat) (s : State) : Out := issueTiles s 5 (opStep z (z + 1) a b)
def execSdot (d z cs : Nat) (s : State) : Out := issueTiles s 5 (opSdot d z cs)
def execZop (xa : Nat) (s : State) : Out := issueTiles s 5 (opZop xa)

end Sys2Proof.Machine
end

