-- ==== Sys2Proof/Machine/Snapshot.lean ====
section
/-! DEFINITION. Snapshot entries and the section 4 of a save that they fill (R352, R353). -/
namespace Sys2Proof.Machine

/-- The kind, the index and the payload of an entry (R353); none for the payload whose form is not laid out (log 46). A walker push is of
KIND 5 with the result that it belongs to (`formAmong`). -/
def entryForm (e : Entry) : Nat × Nat × Option (List Byte) :=
  let vecBytes := fun (v : Vec) => (upTo 128).flatMap (fun i => leBytes 4 (v.lane i))
  match e.eff with
  | .vec d v _ => (1, d, some (vecBytes v))
  | .latch l v => (1, l, some (vecBytes v))
  | .remote d _ _ _ _ _ _ => (1, d, none)
  | .unpark n v => (1, n, some (vecBytes v))
  | .xreg r v => (2, r, some (leBytes 8 v.toNat))
  | .stride r c => (2, r, some (leBytes 8 c.toNat))
  | .load r _ _ _ _ => (2, r, none)
  | .pred p b => (3, p, some (leBytes 16 (if b then 1 else 0)))
  | .predPending p _ => (3, p, none)
  | .mask k m => (4, k, some (leBytes 16 m.toNat))
  | .spad cells => (6, 0, some (cells.map (·.2)))
  | .mem cells _ => (15, 0, some (cells.map (·.2)))
  | .accProd b _ _ cols => (7, b, some (cols.flatMap (fun l => l.flatMap (leBytes 4))))
  | .accAdd b _ _ vs => (7, b, some (vs.flatMap (leBytes 4)))
  | .accSet b _ _ vs => (7, b, some (vs.flatMap (leBytes 4)))
  | .accClear b _ n => (7, b, some (List.replicate (768 * n) 0))
  | .slotBytes z cells => (8, z, some (cells.map (·.2)))
  | .slotClear z => (8, z, some (List.replicate 32768 0))
  | .pushRow _ _ _ r _ _ _ => (9, r % 256, none)
  | .planeOpenAs _ _ _ => (9, 0, none)
  | .axch => (9, 0, none)
  | .scalePtr _ n v _ => (9, n, some (leBytes 8 v.toNat))
  | .csr n v _ => (10, n % 256, some (leBytes 8 v.toNat))
  | .bt j v => (10, j, some (leBytes 8 v.toNat))
  | .loopCount l v => (10, l, some (leBytes 8 v.toNat))
  | .loopStride l _ _ v => (10, l, some (leBytes 8 v.toNat))
  | .rstk i v => (10, i, some (leBytes 8 v.toNat))
  | .seedTab n bs => (11, n, some bs)
  | .xpost n cmd => (12, n, some cmd.desc)
  | .bench c v => (13, c, some (vecBytes v ++ leBytes 1 v.tag.code))
  | .scanPush _ _ _ _ _ _ _ _ _ _ => (5, 0, none)
  | .scanPair _ z _ => (14, z, none)
  | .scanEnd _ _ z _ _ _ _ => (14, z, none)
  | .scry r => (14, r.zs, none)
  | .rstPost _ bs => (15, 0, some bs)
  | .park n v _ _ _ => (1, n, some (vecBytes v))
  | _ => (10, 0, none)
/-- A number that stands for an entry in what is open of its form. -/
def entryKey (e : Entry) : Nat := ((e.unit * 8 + e.slot) * 2 ^ 64 + e.issue) * 2 ^ 64 + e.due
/-- The last element of a list of cells. -/
def lastCell (cells : List (Nat × Byte)) : Nat := (cells.getLast?.getD (0, 0)).1
/-- WHERE of the state-slot rows that cells cover (R353, R453): the first row, the row count − 1, the first value and the value count − 1,
a byte each; a value is `size` bytes of a row of 512. -/
def rowsWhere (size : Nat) (cells : List (Nat × Byte)) : Nat :=
  let a := (cells.headD (0, 0)).1
  let b := lastCell cells
  a / 512 + 256 * (b / 512 - a / 512) + 65536 * (a % 512 / size) + 16777216 * (b % 512 / size - a % 512 / size)
/-- The bytes of a value of a STEP in the tile's shape (R273), as its entry shows them; 4 for the operations on whole rows. -/
def stepSize (s : State) (e : Entry) (cells : List (Nat × Byte)) : Nat :=
  if cells.length % 512 = 0 then 4 else match stepShape (s.tile e.unit) with
    | some (.bf16, _) => 2
    | _ => 4
/-- WHERE of an entry (R353): the scratchpad, virtual or remote address of a write, the rows of a state slot; open where the packing is not
laid out (log 46). -/
def entryWhere (s : State) (e : Entry) : Nat :=
  match e.eff with
  | .spad (c :: _) => c.1
  | .mem (c :: _) _ => 65536 * e.vg.headD 0 + c.1 % 65536
  | .rstPost ra _ => ra.toNat
  | .slotBytes _ cells => rowsWhere (stepSize s e cells) cells
  | .slotClear _ => rowsWhere 4 [(0, 0), (32767, 0)]
  | _ => Config.snapshotWhere (entryKey e)
/-- An entry that is the result of an operation: the rows that a scan phase has still to read are not (R352). -/
def isResult (e : Entry) : Bool :=
  match e.eff with
  | .scanPop _ => false
  | _ => true
/-- A vector result with a walker destination, and the write of the same operation: a push is one entry of KIND 5 (R353). -/
def isPushOf (e f : Entry) : Bool :=
  decide (e.unit = f.unit ∧ e.slot = f.slot ∧ e.issue = f.issue ∧ e.due = f.due) && (match e.eff, f.eff with
    | .vec d _ _, .spad _ => decide (40 ≤ d) && decide (d < 48)
    | .vec d _ _, .mem _ _ => decide (40 ≤ d) && decide (d < 48)
    | _, _ => false)
/-- The kind, the index, the payload and WHERE of an entry among its tile's entries. -/
def formAmong (s : State) (es : List Entry) (e : Entry) : Nat × Nat × Option (List Byte) × Nat :=
  let (kind, idx, payload) := entryForm e
  match es.find? (isPushOf e) with
  | some f => (5, idx - 40, (entryForm f).2.2, entryWhere s f)
  | none => (kind, idx, payload, entryWhere s e)
/-- A snapshot entry's bytes for base B (R353); zeros pad a payload to a multiple of 16 (R453). -/
def entryBytes (s : State) (base : Nat) (es : List Entry) (e : Entry) : List Byte :=
  let (kind, idx, payload, place) := formAmong s es e
  let body0 := payload.getD (Config.snapshotBytes (entryKey e))
  let body := body0 ++ List.replicate ((16 - body0.length % 16) % 16) 0
  let stride := match e.eff with
    | .stride _ _ => 128
    | _ => 0
  let tag := match e.eff with
    | .vec _ v _ => v.tag.code
    | .latch _ v => v.tag.code
    | .remote _ _ t _ _ _ _ => t.code
    | .park _ v _ _ _ => v.tag.code
    | .unpark _ v => v.tag.code
    | .bench _ v => v.tag.code
    | _ => 0
  leBytes 4 (e.due - base) ++ leBytes 4 (e.issue + 2 ^ 32 - base % 2 ^ 32) ++ leBytes 1 kind ++ leBytes 1 idx
    ++ leBytes 1 (e.slot % 8 + 16 * tag + (if e.inter then 64 else 0) + stride) ++ leBytes 1 e.fl.toNat ++ leBytes 1 e.mx.toNat ++ leBytes 3 0
    ++ leBytes 8 place ++ leBytes 4 body.length ++ leBytes 4 0 ++ body
/-- The snapshot of a tile in the layout of section 4 (R353): by due bundle, then issue bundle, then slot. The slots ahead of the base
have issued into it too (R352). -/
def snapshotOf (s : State) (u : Nat) : List Byte :=
  let c := s.core (u / 4)
  let ahead := match c.issue with
    | some i => i.staged
    | none => []
  let es := (c.inflight ++ ahead).filter (fun e => decide (e.unit = u) && decide (c.bn < e.due) && isResult e)
  (sortBy (fun e => (e.due * 2 ^ 64 + e.issue) * 8 + e.slot) (es.filter (fun f => !(es.any (fun e => isPushOf e f))))).flatMap
    (entryBytes s c.bn es)

end Sys2Proof.Machine
end

