-- ==== Sys2Proof/Machine/Context.lean ====
section
/-! DEFINITION. Stopping, saving, restoring and destroying a context, and its checkpoints (R103 to R108, R267, R271, R279, R284,
R321, R352 to R357, R419, R456). -/

/-- What a save area holds of contents that R107 lists and does not lay out (log 39): of a core's registers, of its planes, of a tile's
registers and tables, of the hub-held generation state, of the context registers and BTCFG defaults. -/
opaque Sys2Proof.Config.saveCore : Sys2Proof.Machine.CoreRec → List Sys2Proof.Byte
opaque Sys2Proof.Config.savePlanes : Sys2Proof.Machine.CoreRec → List Sys2Proof.Byte
opaque Sys2Proof.Config.saveTile : Sys2Proof.Machine.Tile → List Sys2Proof.Byte
opaque Sys2Proof.Config.saveHub : Sys2Proof.Machine.SMap Sys2Proof.Machine.FlockEntry → Sys2Proof.Machine.SMap Sys2Proof.Machine.SeqMem → List (Nat × Sys2Proof.Machine.LoopRec) → List Sys2Proof.Byte
opaque Sys2Proof.Config.saveContext : Sys2Proof.Machine.Ctx → List Sys2Proof.Byte
/-- What a restore makes of such bytes when somebody has changed them since the save (log 39). -/
opaque Sys2Proof.Config.restoredCore : List Sys2Proof.Byte → Option Sys2Proof.Machine.CoreRec
opaque Sys2Proof.Config.restoredTile : List Sys2Proof.Byte → Option Sys2Proof.Machine.Tile
opaque Sys2Proof.Config.restoredHub : List Sys2Proof.Byte → Option (Sys2Proof.Machine.SMap Sys2Proof.Machine.FlockEntry × Sys2Proof.Machine.SMap Sys2Proof.Machine.SeqMem × Sys2Proof.Machine.SMap Sys2Proof.Machine.LoopRec)
opaque Sys2Proof.Config.restoredContext : List Sys2Proof.Byte → Option Sys2Proof.Machine.Ctx

namespace Sys2Proof.Machine

/-- The cores of a context that are not idle. -/
def coresOf (s : State) (cid : Nat) : List Nat :=
  (s.cores.filter (fun p => decide (p.2.cid = cid) && decide (p.2.st ≠ .idle))).map (·.1)
/-- The cores that hold state of a context: those not idle, and those idle ones whose last kernel was the context's, with the state
slots it left on their tiles (R139, R269, R271). -/
def keptCores (s : State) (cid : Nat) : List Nat :=
  (s.cores.filter (fun p => decide (p.2.cid = cid) && (decide (p.2.st ≠ .idle) || (s.ctx cid).used.contains p.1))).map (·.1)
/-- The tiles of cores, in unit order. -/
def unitsOf (ks : List Nat) : List Nat := ks.flatMap (fun k => (upTo 4).map (unitOf k))
/-- The kernels of a context that are dispatched and not released. -/
def loadingOf (s : State) (cid : Nat) : List (Nat × Group) :=
  s.hub.groups.filter (fun g => decide (g.2.cid = cid) && decide (g.2.st = .loading))

/-- Issue of a core stops, with every interlocked result that can arrive, and what is due at or before the base lands (R352, R356). -/
def freeze (s : State) (k : Nat) : State := (settleBase (stopIssue s k) k).modCore k (fun c => { c with frozen := true })
/-- A core whose loop kernel sleeps in its boundary, which has begun and completes before the context's save does (R374). -/
def asleepAt (s : State) (k : Nat) : Bool := match (s.groupOf k).loop with
  | some l => l.asleep
  | none => false
/-- PREEMPT_STOP (R356): every core of a context whose stop has begun stops; a stop stands still in a frequency stall (R15). -/
def execPreemptStop (cid : Nat) (s : State) : Out :=
  if (s.ctx cid).stopping.isNone ∨ s.hub.stalled then .next s
  else .next (((coresOf s cid).filter (fun k => !(asleepAt s k))).foldl freeze s)

/-- A plane as the save keeps it: a loading one is empty and loads again (R134). -/
def CoreRec.savedAs (c0 : CoreRec) : CoreRec :=
  let c := if c0.shadow.kern = c0.group then c0 else c0.setShadow {}
  { c with hold := (match c.hold with
             | .page _ _ _ _ => .none
             | h => h)
           st := (match c.hold with
             | .page _ _ _ _ => if c.haltedFrom.isSome then .halted else if c.handler.isSome then .trapped else .running
             | _ => c.st) }
/-- A tile as a save keeps it beside sections 5 and 6: its registers, tables and slot records. Scratchpad, accumulator and the bytes of
slots come back from the save area, from images or as zeros (R271). -/
def Tile.savedAs (t : Tile) : Tile :=
  { t with spad := [], acc := [], slots := t.slots.map (fun z => (z.1, { z.2 with bytes := [] })), tlb := [], rc := [] }
/-- The shadow planes of kernels that wait for their release are given up (R134). -/
def dropLoading (s : State) (cid : Nat) : State :=
  (loadingOf s cid).foldl (fun s g => g.2.cores.foldl (fun s k =>
    if (s.core k).shadow.st ≠ .empty ∧ (s.core k).shadow.kern = g.1 then s.modCore k (fun c => c.setShadow {}) else s) s) s
/-- A tile gives up what belongs to the program on it; scratchpad and accumulator stay (R139). -/
def Tile.leave (t : Tile) : Tile := { t with nodes := [], resv := [], mule := [], bench := [], mon := [], slots := [] }
/-- Cores are given up, with their tiles. -/
def leaveCores (s : State) (ks : List Nat) : State :=
  ks.foldl (fun s k => (upTo 4).foldl (fun s d => s.modTile (unitOf k d) Tile.leave) (s.modCore k CoreRec.vacate)) s
/-- The complete state of a barrier object lasts one cycle (R314): the objects that a save keeps have flipped, and their
participants have seen it. -/
def settleBarriers (s : State) (cid : Nat) : State :=
  { s with hub := { s.hub with groups := s.hub.groups.map (fun g => if g.2.cid = cid then
      (g.1, { g.2 with barriers := g.2.barriers.map (fun b => (b.1, b.2.map (fun o => { o.settled with seenPhase := o.settled.phase }))) }) else g) } }

/-- A run of `len` bytes replaces what its addresses held: its cells name those of its bytes that are not zero, past its start. -/
def putRun (m : Memory) (a len : Nat) (cells : List (Nat × Byte)) : Memory :=
  let cs := cells.filter (fun c => decide (c.1 < len) && decide (c.2 ≠ 0))
  let at_ := cs.map (fun c => (a + c.1, c.2))
  if swf 0 cs then m.filter (fun c => decide (c.1 < a)) ++ at_ ++ m.filter (fun c => decide (a + len ≤ c.1))
  else putCells (m.filter (fun c => decide (c.1 < a) || decide (a + len ≤ c.1))) at_
/-- Whether a line lies in a physical range. -/
def lineMeets (pa len ln : Nat) : Bool := decide (pa < 64 * ln + 64) && decide (64 * ln < pa + len)
/-- A long run of bytes written at the stack dies (R9): the lines of it that a monitor, a WAIT or a sleeping loop watches see the
write. -/
def State.putLong (s : State) (pa len : Nat) (cells : List (Nat × Byte)) : State :=
  let watched := s.tiles.flatMap (fun t => t.2.mon.map (·.line)) ++ s.hub.pkts.filterMap (fun p => p.2.watch.map (fun w => w.1 / 64))
    ++ s.hub.groups.filterMap (fun g => g.2.loop.bind (fun l => l.wakeLine))
  (watched.filter (lineMeets pa len)).eraseDups.foldl (fun s ln => s.touchLine ln) { s with mem := putRun s.mem pa len cells }
/-- Before the Mule touches a physical range, the home L2 of every line writes it back and holds it no longer (R277). -/
def muleTouch (s : State) (pa len : Nat) : State :=
  s.l2.foldl (fun s m => (m.2.filter (fun l => lineMeets pa len l.1)).foldl (fun s l => s.flushL2 m.1 l.1) s) s
/-- A long write by the Mule of die d; what leaves the die drops the Adit lines of the port it leaves through (R277, R296). -/
def muleLong (s : State) (d pa len : Nat) (cells : List (Nat × Byte)) : State :=
  let s1 := muleTouch s pa len
  State.putLong { s1 with adit := s1.adit.map (fun m => if m.1 / 3 = d then (m.1, m.2.filter (fun l => !(lineMeets pa len l.1))) else m) } pa len cells

/-- What one unit puts into a section: the die whose Mule writes it, if one does, the number of its bytes, and those of them that are
not zero, past its start. -/
structure Part where
  mule : Option Nat := none
  len : Nat
  cells : List (Nat × Byte)
  deriving DecidableEq, Repr
/-- One section of a save: its kind, its units, what each puts into it, and the bound of all its units together (R107, R108). -/
structure Section where
  kind : Nat
  units : Nat
  parts : List Part
  bound : Nat
  deriving DecidableEq, Repr
def Section.len (x : Section) : Nat := (x.parts.map (·.len)).foldl (· + ·) 0
/-- The cells that `bs` makes past a place. -/
def Part.ofBytes (bs : List Byte) : Part := { len := bs.length, cells := (cellsAt 0 bs).filter (fun c => decide (c.2 ≠ 0)) }
/-- Section 5 of a tile: the scratchpad, then the accumulator, whose word i has its bytes from 4 i on (R107, log 39). -/
def spadBytes : Nat := 4194304
def accBytes : Nat := 1572864
def Part.ofTile (t : Tile) : Part :=
  { len := spadBytes + accBytes
    cells := t.spad ++ t.acc.flatMap (fun w => (cellsAt (spadBytes + 4 * w.1) (leBytes 4 w.2.toNat)).filter (fun c => decide (c.2 ≠ 0))) }
/-- An entry of the region table (R300). -/
def Region.entry (r : Region) : List Byte :=
  leBytes 8 r.base ++ leBytes 8 r.bytes ++ leBytes 8 (r.sync / 64 * 64 + (if r.valid then 1 else 0)) ++ leBytes 8 0
/-- The region table of a context (R300). -/
def Ctx.table (x : Ctx) : List Byte := (upTo 256).flatMap (fun i => (sget {} x.regions i).entry)
/-- The loop kernels of a context. -/
def loopsOf (s : State) (cid : Nat) : List (Nat × LoopRec) :=
  (s.hub.groups.filter (fun g => decide (g.2.cid = cid))).filterMap (fun g => g.2.loop.map (fun l => (g.1, l)))
/-- What a save writes of the contents without a layout, by section and unit (log 39). -/
def openParts (s : State) (cid : Nat) (ks : List Nat) : List (Nat × List (List Byte)) :=
  let x := s.ctx cid
  let us := unitsOf ks
  [(2, ks.map (fun k => (Config.saveCore (s.core k).savedAs).take 16384)),
   (3, us.map (fun u => (Config.saveTile (s.tile u).savedAs).take 196608)),
   (4, us.map (fun u => (snapshotOf s u).take 1048576)),
   (8, ks.map (fun k => (Config.savePlanes (s.core k).savedAs).take 131072)),
   (7, [(Config.saveHub x.flock x.seqs (loopsOf s cid)).take 5242880]),
   (1, [(Config.saveContext x).take 8192])]
def openOf (l : List (Nat × List (List Byte))) (kind : Nat) : List (List Byte) := sget [] l kind
/-- The sections of layout 1 in the order in which they are written (R107, R108, R356). Section 4, section 5, the images of section 6 and
the region table of section 1 are laid out; of the others, and before the table, every byte is open (log 39). -/
def saveSections (s : State) (cid : Nat) (ks : List Nat) (opens : List (Nat × List (List Byte))) : List Section :=
  let us := unitsOf ks
  let live := us.flatMap (fun u => ((s.tile u).slots.filter (fun z => decide (z.2.st = .live))).map (fun z => (u, z.2)))
  let parts := fun (kind : Nat) => (openOf opens kind).map Part.ofBytes
  [{ kind := 2, units := ks.length, parts := parts 2, bound := 1048576 },
   { kind := 3, units := us.length, parts := parts 3, bound := 50331648 },
   { kind := 4, units := us.length, parts := parts 4, bound := 268435456 },
   { kind := 5, units := us.length, parts := us.map (fun u => Part.ofTile (s.tile u)), bound := 1476395008 },
   { kind := 8, units := ks.length, parts := parts 8, bound := 8388608 },
   { kind := 7, units := 1, parts := parts 7, bound := 5242880 },
   { kind := 6, units := live.length, parts := live.map (fun z => { mule := some (z.1 % 4), len := 32768, cells := z.2.bytes }), bound := 536870912 },
   { kind := 1, units := 1, parts := parts 1 ++ [Part.ofBytes (s.ctx cid).table], bound := 16384 }]
/-- Where sections come to lie: each behind the one before it, at an open distance within their bounds (R108, log 39). `fin` is where
the last one ends, `cum` the sum of the bounds so far, `draw` the free value of the next distance. -/
def placeSections (draw cum fin : Nat) : List Section → List (Nat × Section)
  | [] => []
  | x :: xs =>
    let off := fin + Config.freeValue draw % (cum - fin + 1)
    (off, x) :: placeSections (draw + 1) (cum + x.bound) (off + x.len) xs
/-- The parts of a section are written one behind the other. -/
def putParts (s : State) (pa : Nat) : List Part → State
  | [] => s
  | x :: xs => putParts (match x.mule with
      | some d => muleLong s d pa x.len x.cells
      | none => s.putLong pa x.len x.cells) (pa + x.len) xs
/-- The header of the save area (R106). -/
def saveHeader (s : State) (faulted : Bool) (size dir nsec : Nat) : List Byte :=
  leBytes 4 0x53454358 ++ leBytes 2 1 ++ leBytes 2 (if faulted then 2 else 1) ++ leBytes 8 size ++ leBytes 8 s.ptime
    ++ leBytes 8 dir ++ leBytes 4 nsec ++ leBytes 28 0
/-- The bound of the header and directory, and with it the sum of the section bounds of layout 1 (R108): 2,291,792 KiB. -/
def saveHead : Nat := 65536
def saveBound : Nat := 2291792 * 1024
/-- The save area is written (R104, R106 to R108, R356): the sections that reach no further than memory does, the directory, the
header last. -/
def writeSave (s : State) (cid : Nat) (ks : List Nat) (opens : List (Nat × List (List Byte))) (faulted : Bool) : State :=
  let base := (s.ctx cid).save
  let dir := 64 + Config.freeValue s.freeCount % (saveHead - 64 - 128 + 1)
  let placed := placeSections (s.freeCount + 16) saveHead (dir + 128) (saveSections s cid ks opens)
  let fits := placed.takeWhile (fun p => decide (base + p.1 + p.2.len ≤ memSize))
  let size := fits.foldl (fun n p => max n (p.1 + p.2.len)) (dir + 16 * fits.length)
  let s1 := fits.foldl (fun s p => putParts s (base + p.1) p.2.parts) s
  let s2 := s1.putMem (base + dir) (fits.flatMap (fun p => leBytes 4 p.2.kind ++ leBytes 4 p.2.units ++ leBytes 8 p.1))
  { s2.putMem base (saveHeader s faulted size dir fits.length) with freeCount := s.freeCount + 32 }
/-- What keeps a save open (R271, R311, R352, R356, R419): a core that has not stopped, a result without its arrival but for an SCRY's
(R267), a fault or a synchronisation in progress, a running command, a remote request, a transfer of the Mule, a launch in hand. -/
def saveBusy (s : State) (cid : Nat) : Bool :=
  let mine := fun (kern : Nat) => decide ((s.group kern).cid = cid)
  (coresOf s cid).any (fun k => let c := s.core k
    !c.frozen || asleepAt s k || landsLate s k c.bn || c.inflight.any (fun e => e.pend && (match e.eff with
      | .scry _ => false
      | _ => true)) || (c.hold :: c.holdQ).any (fun h => match h with
      | .page _ _ _ rs => !rs.isEmpty
      | .sync _ _ _ => true
      | _ => false))
    || (unitsOf (keptCores s cid)).any (fun u => (s.tile u).nodes.any (fun n => decide (n.2.st = .running)))
    || s.hub.reqs.any (fun r => decide (r.cid = cid) && r.ready && !r.orphan) || (s.ctx cid).ckptRun.isSome || s.hub.forkCopies.any (fun f => mine f.1)
    || s.hub.seqTraps.any (fun t => mine t.1) || launchInHand s
/-- SAVE_COMPLETE (R104, R356, R419): once nothing keeps the save open, the context's cores are kept, its save area is written, and
the state is entered. -/
def execSaveComplete (cid : Nat) (s0 : State) : Out :=
  match (s0.ctx cid).stopping with
  | none => .next s0
  | some final =>
    if s0.hub.stalled then .next s0
    else
      let s := (coresOf s0 cid).foldl rebase s0
      if saveBusy s cid then .next s
      else
        let ks := keptCores s cid
        let opens := openParts s cid ks
        let s1 := writeSave s cid ks opens (decide (final = .faulted))
        let kept : Saved := {
          cores := ks.map (fun k => (k, (s.core k).savedAs))
          tiles := (unitsOf ks).map (fun u => (u, (s.tile u).savedAs))
          opens := opens }
        let s2 := (leaveCores (dropLoading (settleBarriers s1 cid) cid) ks).modCtx cid (fun x => { x with st := final, stopping := none, saved := some kept })
        .next (if final = .preempted then askMaps s2 cid else s2)

/-- A translation that a restore finds missing: the unit, the slot and the kind of the access that needs it, its address, the
fault. -/
structure Missing where
  unit : Nat
  slot : Nat
  va : Nat
  kind : Nat
  fault : WalkFault
  deriving DecidableEq, Repr
/-- The translations of granules, each with the KIND of its access, taken again (R284), as a command holds them; or the first that is
missing. -/
def retranslate (s : State) (cid unit slot : Nat) : List (Nat × Nat) → Except Missing (List (Nat × Nat))
  | [] => .ok []
  | (g, kind) :: gs => match walk s cid (65536 * g) with
    | .error f => .error ⟨unit, slot, 65536 * g, kind, f⟩
    | .ok e => match retranslate s cid unit slot gs with
      | .error x => .error x
      | .ok rest => .ok ((g, 2 * ((e.frame + (65536 * g - e.vbase)) / 65536) + (if e.nc then 1 else 0)) :: rest)
/-- KIND of the access that translation i of a command serves (R333). -/
def NodeCmd.kindAt (c : NodeCmd) (i : Nat) : Nat :=
  match c.instr with
  | .amo _ _ _ => 2
  | .mskq _ _ => 1
  | .copy _ _ _ _ => if i < c.reads then 0 else 1
  | .gath _ _ _ _ => if i < c.reads then 0 else 1
  | .scat _ _ _ _ => if i < c.reads then 0 else 1
  | _ => if 0 < c.slots.2 then 3 else 0
/-- The granules whose translations a command holds, each with the KIND of its access. -/
def NodeCmd.granules (c : NodeCmd) : List (Nat × Nat) := ((upTo c.xlate.length).zip c.xlate).map (fun p => (p.2.1, c.kindAt p.1))
/-- The granules whose translations a result in flight holds, each with the KIND of its access. -/
def Entry.granules (e : Entry) : List (Nat × Nat) :=
  match e.eff with
  | .mem _ _ => e.vg.map (fun g => (g, 1))
  | .scanPop r => if r.src.isNone then e.vg.map (fun g => (g, 0)) else []
  | .scanPush _ _ _ _ _ toMem _ _ _ _ => if toMem then e.vg.map (fun g => (g, 1)) else []
  | .xpost _ c => c.granules
  | _ => []
/-- A result in flight under translations taken again. -/
def Entry.reseat (e : Entry) (xl : List (Nat × Nat)) : Entry :=
  let new := fun (i pa : Nat) => heldPa xl (65536 * nth 0 e.vg i + pa % 65536)
  { e with eff := match e.eff with
      | .mem cells nc => .mem (cells.map (fun c => ((new 0 c.1).1, c.2))) (if cells.isEmpty then nc else (new 0 0).2)
      | .scanPop r => if r.src.isNone then .scanPop { r with aA := (new 0 r.aA).1, aB := (new 1 r.aB).1, ncA := (new 0 r.aA).2, ncB := (new 1 r.aB).2 } else .scanPop r
      | .scanPush n0 j bf w el true aA aB _ _ => .scanPush n0 j bf w el true (new 0 aA).1 (new 1 aB).1 (new 0 aA).2 (new 1 aB).2
      | .xpost n c => .xpost n { c with xlate := xl }
      | f => f }
/-- A core as a restore brings it back: its results in flight with fresh translations (R284). -/
def restoreCore (s : State) (cid : Nat) (c : CoreRec) : Except Missing CoreRec := do
  let again := fun (e : Entry) => match retranslate s cid e.unit e.slot e.granules with
    | .ok xl => Except.ok (e.reseat xl)
    | .error m => .error m
  let es ← c.inflight.mapM again
  let is : Option Issue ← match c.issue with
    | some i => (i.staged.mapM again).map (fun l => some { i with staged := l })
    | none => .ok none
  .ok { c with inflight := es, issue := is, frozen := true }
/-- The bytes at `pa` as cells past it. -/
def cellsFrom (m : Memory) (pa len : Nat) : List (Nat × Byte) :=
  (m.filter (fun c => decide (pa ≤ c.1) && decide (c.1 < pa + len))).map (fun c => (c.1 - pa, c.2))
/-- The live slots of tiles in the order of their images in section 6. -/
def liveOf (ts : List (Nat × Tile)) : List (Nat × Nat) :=
  ts.flatMap (fun t => (t.2.slots.filter (fun z => decide (z.2.st = .live))).map (fun z => (t.1, z.1)))
/-- The place of an element in a list. -/
def placeOf {α : Type} [DecidableEq α] (l : List α) (a : α) : Nat := (l.takeWhile (fun b => decide (b ≠ a))).length
/-- Where the directory of a save area places the section of a kind (R106). No directory of layout 1 has more entries than the bound of
header and directory admits. -/
def sectionAt (s : State) (x : Ctx) (kind : Nat) : Option Nat :=
  let dir := x.save + s.memNat (x.save + 24) 8
  ((upTo (min 4092 (s.memNat (x.save + 32) 4))).find? (fun i => decide (s.memNat (dir + 16 * i) 4 = kind))).map
    (fun i => x.save + s.memNat (dir + 16 * i + 8) 8)
/-- A save area that a restore can read: of a layout that the firmware declares, with every section (R107, R108). -/
def readable (s : State) (x : Ctx) : Bool :=
  bitOf s.hub.runlay (s.memNat (x.save + 4) 2) && [1, 2, 3, 4, 5, 6, 7, 8].all (fun kind => (sectionAt s x kind).isSome)
/-- The bytes that part i of an open section has now; none when they are those that the save wrote. -/
def changedPart (s : State) (x : Ctx) (v : Saved) (kind i : Nat) : Option (List Byte) :=
  let ps := openOf v.opens kind
  let was := nth [] ps i
  let now := s.memBytes ((sectionAt s x kind).getD 0 + ((ps.take i).map List.length).foldl (· + ·) 0) was.length
  if now = was then none else some now
/-- A core as its save area has it: sections 2, 8 and the entries of its tiles (R357). -/
def savedCore (s : State) (cid : Nat) (x : Ctx) (v : Saved) (k : Nat) (c : CoreRec) : CoreRec :=
  let i := placeOf (v.cores.map (·.1)) k
  let now := [changedPart s x v 2 i, changedPart s x v 8 i] ++ (upTo 4).map (fun d => changedPart s x v 4 (4 * i + d))
  if now.all Option.isNone then c else { (Config.restoredCore (now.flatMap (fun b => b.getD []))).getD {} with cid := cid }
/-- A tile as its save area has it: section 3, scratchpad and accumulator from section 5, and its live slots from section 6 (R271,
R357). -/
def savedTile (s : State) (x : Ctx) (v : Saved) (u : Nat) (t : Tile) : Tile :=
  let i := placeOf (v.tiles.map (·.1)) u
  let t1 := match changedPart s x v 3 i with
    | none => t
    | some bs => (Config.restoredTile bs).getD {}
  let five := (sectionAt s x 5).getD 0 + (spadBytes + accBytes) * i
  let six := (sectionAt s x 6).getD 0
  let lives := liveOf v.tiles
  { t1 with
    spad := cellsFrom s.mem five spadBytes
    acc := (cellsFrom s.mem (five + spadBytes) accBytes).foldl (fun m c => smod 0 m (c.1 / 4) (fun w => w + BitVec.ofNat 32 (c.2.toNat * 256 ^ (c.1 % 4)))) []
    slots := t1.slots.map (fun z => if z.2.st = .live then (z.1, { z.2 with bytes := cellsFrom s.mem (six + 32768 * placeOf lives (u, z.1)) 32768 }) else z) }
/-- Section 1 and section 7 come back to the context and its loop kernels (R107, R357): the region table as it stands in memory. -/
def Region.ofEntry (bs : List Byte) : Region :=
  { valid := bitOf (field bs 16 8) 0, base := field bs 0 8, bytes := field bs 8 8, sync := field bs 16 8 / 64 * 64 }
def savedContext (s : State) (x : Ctx) (v : Saved) : Ctx :=
  let y := match changedPart s x v 1 0 with
    | none => x
    | some bs => let r := (Config.restoredContext bs).getD {}
      { x with split := r.split, lease := r.lease, depth := r.depth, pend := r.pend, seed := r.seed, gnone := r.gnone }
  let z := match changedPart s x v 7 0 with
    | none => y
    | some bs => let h := (Config.restoredHub bs).getD ([], [], [])
      { y with flock := h.1, seqs := h.2.1 }
  let table := (sectionAt s x 1).getD 0 + (nth [] (openOf v.opens 1) 0).length
  { z with regions := (upTo 256).foldl (fun m i => sset {} m i (Region.ofEntry (s.memBytes (table + 32 * i) 32))) [] }
def savedLoops (s : State) (cid : Nat) (x : Ctx) (v : Saved) : State :=
  match changedPart s x v 7 0 with
  | none => s
  | some bs =>
    let ls := ((Config.restoredHub bs).getD ([], [], [])).2.2
    { s with hub := { s.hub with groups := s.hub.groups.map (fun g =>
        if g.2.cid = cid ∧ g.2.loop.isSome then (g.1, { g.2 with loop := some (sget {} ls g.1) }) else g) } }
/-- The ranges that the Mule reads at a restore leave the home L2s first (R271, R277): the images of section 6 and those of loaded
slots. -/
def restoreTouch (s : State) (cid : Nat) (v : Saved) : State :=
  let s1 := muleTouch s ((sectionAt s (s.ctx cid) 6).getD 0) (32768 * (liveOf v.tiles).length)
  v.tiles.foldl (fun s t => (t.2.slots.filter (fun z => decide (z.2.st = .loaded))).foldl (fun s z => dropL2Range s cid z.2.image 32768 true) s) s1
/-- A tile as a restore brings it back (R271, R284, R321): loaded slots from their images, commands with fresh translations, a wake
event in every monitor entry. -/
def restoreTile (s : State) (cid u : Nat) (t : Tile) : Except Missing Tile := do
  let nodes ← t.nodes.mapM (fun n => match n.2.cmd with
    | some c => match retranslate s cid u 6 c.granules with
      | .ok xl => .ok (n.1, { n.2 with cmd := some { c with xlate := xl } })
      | .error e => .error e
    | none => .ok n)
  let slots ← t.slots.mapM (fun z =>
    if z.2.st = .loaded then match retranslate s cid u 6 ((granulesOf z.2.image 32768).map (fun g => (g, 3))), s.hubRead cid z.2.image 32768 with
      | .error e, _ => .error e
      | .ok _, some bs => .ok (z.1, { z.2 with bytes := putCells [] (cellsAt 0 bs) })
      | .ok _, none => .error ⟨u, 6, z.2.image, 3, ⟨cACCESS, 4, 0⟩⟩
    else .ok z)
  .ok { t with nodes := nodes, slots := slots, tlb := (s.tile u).tlb, rc := (s.tile u).rc, mon := t.mon.map (·.wake) }

/-- The level-0 entry that a fault of reason ABSENT at level 0 found clear: its address (R334). -/
def leafSlot (s : State) (cid va : Nat) : Option Nat :=
  let next := fun (lvl t : Nat) =>
    let e := s.memNat (t + 8 * vaIndex va lvl) 8
    if e % 2 = 1 ∧ !(bitOf e 1) then some (bitsOf e 47 8 * 256) else none
  match next 3 (s.ctx cid).root with
  | none => none
  | some t2 => match next 2 t2 with
    | none => none
    | some t1 => match next 1 t1 with
      | none => none
      | some t0 => some (t0 + 8 * vaIndex va 0)
/-- The hardware service (R334): a zeroed frame, and its leaf with V, LEAF, RD and W. -/
def serveFault (s : State) (cid frame slot : Nat) : State :=
  let s1 := s.putMem frame (List.replicate 65536 0)
  let s2 := s1.putMemNat slot 8 (frame + 0b1111)
  s2.modCtx cid (fun x => { x with pool := x.pool.filter (fun f => decide (f ≠ frame)), taken := x.taken ++ [frame] })
/-- The frame and the leaf with which the hardware serves a fault (R334): reason ABSENT at level 0 outside every unmapping range, from
a pool that is not empty. -/
def served (s : State) (cid reason level va : Nat) : Option (Nat × Nat) :=
  let x := s.ctx cid
  if reason = 1 ∧ level = 0 ∧ !(x.unmapping va) then match x.pool, leafSlot s cid va with
    | f :: _, some a => some (f, a)
    | _, _ => none
  else none
/-- A restore that misses a translation has it served as a page fault of the context (R101, R284): from the pool, and the restore goes
on; or the context, which the restore makes running, enters faulted by that host event in the same step, with the record, named in
TRAPINFO of its core's saved registers, and its save area says so (R103, R104, R356; log 106). -/
def restoreFault (s : State) (cid : Nat) (v : Saved) (m : Missing) : State :=
  let x := s.ctx cid
  match (if bitOf x.split.toNat 0 then none else served s cid m.fault.reason m.fault.level m.va) with
  | some (f, a) => serveFault s cid f a
  | none =>
    let k := m.unit / 4
    let c := sget {} v.cores k
    let r := faultRecord m.va m.kind m.fault.reason m.fault.level (m.unit % 4) k m.slot (trapOrgOf (s.setCore k c) k c.pc) s.ptime
    let info := BitVec.ofNat 64 (m.va % 2 ^ 56 * 256 + 2 ^ (m.unit % 4) * 16 + m.slot)
    ((postFault s r).putMemNat (x.save + 6) 2 2 |>.putMemNat (x.save + 16) 8 s.ptime).setCtx cid { x with
      st := .faulted, faults := x.faults ++ [r],
      saved := some { v with cores := smod {} v.cores k (fun c => if x.faults.isEmpty then { c with trapInfo := info } else c) } }
/-- CONTEXT_RESTORE (R107, R108, R357, R456): the cores that hold saved state are free and a gang is mapped; holders of lower effective
priority are pre-empted, and what the context's own pre-emption made room for goes first (R115). A layout that the firmware does not
declare, or a save that did not fit, is refused with LAYOUT_UNKNOWN. -/
def execContextRestore (cid : Nat) (s0 : State) : Out :=
  let s := ageGangs s0
  let x := s.ctx cid
  match x.saved with
  | none => .next s0
  | some v =>
    if x.st ≠ .preempted ∨ x.restoring ∨ (restoreGangs s cid).isEmpty ∨ s.hub.stalled then .next s0
    else if !(readable s x) then .next (s.setCtx cid { x with refused := stLAYOUT_UNKNOWN })
    else if 32 ≤ residents s ∨ launchInHand s ∨ x.room.any (roomWanted s) then .next s
    else
      let held := restoreHolders s cid
      if !held.isEmpty then .next (contend s (ctxEff s cid) cid (2, cid, 0) held)
      else
        let s0 := restoreTouch s cid v
        let back : Except Missing (List (Nat × Tile) × List (Nat × CoreRec)) := do
          let ts ← v.tiles.mapM (fun t => (restoreTile s0 cid t.1 (savedTile s0 x v t.1 t.2)).map (fun r => (t.1, r)))
          let cs ← v.cores.mapM (fun c => (restoreCore s0 cid (savedCore s0 cid x v c.1 c.2)).map (fun r => (c.1, r)))
          .ok (ts, cs)
        match back with
        | .error m => .next (restoreFault s0 cid v m)
        | .ok (ts, cs) =>
          let s1 := ts.foldl (fun s t => s.setTile t.1 t.2) (savedLoops s0 cid x v)
          let s2 := cs.foldl (fun s c => s.setCore c.1 c.2) s1
          let s3 := (loadingOf s2 cid).foldl (fun s g => g.2.cores.foldl (fun s k => loadFirst s g.1 k) s) s2
          .next (s3.setCtx cid { savedContext s0 x v with restoring := true, refused := 0, room := [] })
/-- With its context's resume a running gang's turn begins anew (R115, R456). -/
def startTurns (s : State) (cid : Nat) : State :=
  (runningGangs s cid).foldl (fun s g => s.modGang g (fun v => { v with turnStart := some s.ptime })) s
/-- RESTORE_RESUME (R134, R354, R357): once every plane is shadow-ready again, those of kernels not yet released among them, the cores
resume at their positions. -/
def execRestoreResume (cid : Nat) (s : State) : Out :=
  let x := s.ctx cid
  match x.saved with
  | none => .next s
  | some v =>
    let ks := v.cores.map (·.1) ++ (loadingOf s cid).flatMap (fun g => g.2.cores)
    if !x.restoring ∨ ks.any (fun k => decide ((s.core k).shadow.st = .loading)) ∨ s.hub.stalled then .next s
    else
      let s1 := v.cores.foldl (fun s c => s.modCore c.1 (fun r => { r with frozen := decide ((r.haltedFrom.isSome ∨ r.st = .suspended) ∧ s.hub.haltCtx = some cid) })) s
      let runs := v.cores.any (fun c => decide (c.2.st ≠ .idle))
      let s2 := startTurns (s1.setCtx cid { x with restoring := false, saved := none, faults := [], st := if runs then .running else .resident }) cid
      if s.hub.haltPending.contains cid then
        .next { haltCtx s2 cid with hub := { (haltCtx s2 cid).hub with haltPending := s.hub.haltPending.filter (fun c => decide (c ≠ cid)) } }
      else .next s2
/-- SNAPSHOT_REPLAY (R354): the entries due at the bundle that resumes land. -/
def execSnapshotReplay (core : Nat) (s : State) : Out :=
  let c := s.core core
  if c.frozen ∨ c.handler.isSome ∨ c.issue.isSome ∨ c.st = .idle ∨ s.hub.stalled ∨ landsLate s core c.bn then .next s
  else .next (landUpTo s core c.bn)

/-- The slots that a checkpoint copies (R279): every live or loaded slot of the context's tiles, in unit and slot order. A slot that
another transfer owns is in the state it held before. -/
def ckptSlots (s : State) (cid : Nat) : List (Nat × Nat × Slot) :=
  (unitsOf (keptCores s cid)).flatMap (fun u =>
    ((s.tile u).slots.filter (fun z => decide (z.2.st = .live) || decide (z.2.st = .loaded))).map (fun z => (u, z.1, z.2)))
/-- A write of a context's memory by the Mule of die d (R277, R296). -/
def ctxWrite (s : State) (d cid va : Nat) (bs : List Byte) : State :=
  (upTo (bs.length / 64 + 2)).foldl (fun s i =>
    let a := va / 64 * 64 + 64 * i
    if a < va + bs.length then match s.devPa cid a with
      | some pa => s.passPort d (pa / 64)
      | none => s
    else s) ((dropL2Range s cid va bs.length true).hubWrite cid va bs)
/-- The header of a checkpoint bank (R279). -/
def ckptHeader (nimg cseq start done skip : Nat) : List Byte :=
  leBytes 4 0x544B4843 ++ leBytes 4 nimg ++ leBytes 8 cseq ++ leBytes 8 start ++ leBytes 8 done ++ leBytes 1 skip ++ leBytes 31 0
/-- Where the bank of the next checkpoint lies (R279). -/
def Ctx.ckptBase (x : Ctx) : Nat := x.ckptArea + x.ckptBank * (x.ckptBytes / 2)
/-- CHECKPOINT (R101, R279): due at the interval in hardware mode, or on a command; too many slots are skipped, and the next checkpoint
takes the same bank, so that the last completed one stays. -/
def execCheckpoint (cid : Nat) (s : State) : Out :=
  let x := s.ctx cid
  let due := x.ckptNow || (decide (x.ckptInterval ≠ 0) && !(bitOf x.split.toNat 6) && decide (x.ckptLast + 1000 * x.ckptInterval ≤ s.ptime))
  if x.st ≠ .running ∨ x.stopping.isSome ∨ !due ∨ x.ckptBytes = 0 ∨ x.ckptRun.isSome ∨ s.hub.stalled then .next s
  else
    let zs := ckptSlots s cid
    let seq := x.ckptSeq + 1
    if (x.ckptBytes / 2 - 32768) / 32768 < zs.length ∨ 4095 < zs.length then
      .next ((ctxWrite s 0 x.ckptCid x.ckptBase (ckptHeader 0 seq s.ptime 0 1)).modCtx cid (fun x =>
        { x with ckptSeq := seq, ckptNow := false, ckptLast := s.ptime }))
    else
      let s1 := ctxWrite s 0 x.ckptCid x.ckptBase (ckptHeader zs.length seq s.ptime 0 0)
      let s2 := zs.foldl (fun s z => takeSlot s ckptXfer (64 * z.1 + z.2.1)) s1
      .next (s2.modCtx cid (fun x => { x with ckptSeq := seq, ckptNow := false, ckptBank := 1 - x.ckptBank, ckptRun := some (x.ckptBase, seq, s.ptime),
                                              ckptBusy := zs.map (fun z => (z.1, z.2.1)) }))
/-- CHECKPOINT_DONE (R269, R277, R279): when it is the turn of its transfers, the images, the directory, then DONE; each slot returns to
its state. -/
def execCheckpointDone (cid : Nat) (s : State) : Out :=
  let x := s.ctx cid
  let keys := x.ckptBusy.map (fun p => 64 * p.1 + p.2)
  match x.ckptRun with
  | none => .next s
  | some (base, seq, start) =>
    if !(mayMoveAll s ckptXfer keys) ∨ s.hub.stalled then .next s
    else
      let slot := fun (p : Nat × Nat) => (s.tile p.1).getSlot p.2
      let n := x.ckptBusy.length
      let s1 := ((upTo n).zip x.ckptBusy).foldl (fun s p =>
        ctxWrite s (p.2.1 % 4) x.ckptCid (base + 32768 * (p.1 + 1)) ((upTo 32768).map (fun a => sget 0 (slot p.2).bytes a))) s
      let dir := x.ckptBusy.flatMap (fun p => leBytes 1 (p.1 / 4) ++ leBytes 1 (p.1 % 4) ++ leBytes 1 p.2
        ++ leBytes 1 (if (slot p).before = .loaded then 2 else 3) ++ leBytes 4 0)
      let s2 := ctxWrite s1 0 x.ckptCid (base + 64) dir
      let s3 := ctxWrite s2 0 x.ckptCid base (ckptHeader n seq start s.ptime 0)
      let s4 := x.ckptBusy.foldl (fun s p => let z := (s.tile p.1).getSlot p.2
        slotRelease s p.1 ckptXfer p.2 { z with st := z.before }) (movedAll s3 ckptXfer keys)
      .next (s4.modCtx cid fun y => { y with ckptBusy := [], ckptRun := none, ckptLast := s.ptime })

/-- Every packet of the context that has not completed is cancelled, and what its queues have published (R105, R112). -/
def cancelQueue (s : State) (q : Nat) : State :=
  let v := s.queue q
  let s1 := (published s v).foldl (fun s b =>
    let (s', id) := addPkt s { queue := q, cid := v.cid, bytes := b, outcome := some (stCANCELLED, 0) }
    s'.modQueue q (fun w => { w with out := w.out ++ [id] })) s
  let s2 := s1.modQueue q (fun w => { w with st := .destroyed, mapped := false, rptr := w.wptr, heads := [] })
  { s2 with hub := { s2.hub with hwslots := s2.hub.hwslots.filter (fun h => decide (h.2 ≠ q + 1))
                                 interp := match s2.hub.interp with
                                   | some i => if i.queue = q then none else some i
                                   | none => none } }
/-- The kernels of a context leave the device: its cores, their tiles' commands, its planes, jobs, requests and translations. -/
def clearContext (s : State) (cid : Nat) : State :=
  let s2 := leaveCores (dropLoading s cid) (keptCores s cid)
  let mine := fun (kern : Nat) => decide ((s.group kern).cid = cid)
  let drop := fun (l : List TlbEntry) => l.filter (fun e => decide (e.cid ≠ cid))
  let h := s2.hub
  { s2 with
    tiles := s2.tiles.map (fun t => (t.1, { t.2 with tlb := drop t.2.tlb }))
    dieTlb := s2.dieTlb.map (fun t => (t.1, drop t.2))
    walkCache := s2.walkCache.map (fun t => (t.1, t.2.filter (fun e => decide (e.cid ≠ cid))))
    hub := { h with
      groups := h.groups.map (fun g => if g.2.cid = cid then (g.1, { g.2 with st := .retired, barriers := [], held := [], regroup := none, loop := none, deques := [] }) else g)
      loading := h.loading.filter (fun n => !(mine n))
      jobs := h.jobs.filter (fun j => !(mine j.group))
      seqTraps := h.seqTraps.filter (fun t => !(mine t.1))
      forkCopies := h.forkCopies.filter (fun t => !(mine t.1))
      carriesIn := h.carriesIn.filter (fun c => !(mine c.kern))
      carriesOut := h.carriesOut.filter (fun c => !(mine c.kern))
      reqs := (h.reqs.filter (fun r => decide (r.cid ≠ cid) || (r.sent && decide (r.target ≠ h.selfid)))).map (fun r =>
        if r.cid = cid then { r with orphan := true, unit := 1024, kern := 0 } else r)
      mapReqs := h.mapReqs.filter (fun g => decide (g / 256 ≠ cid))
      replays := h.replays.filter (fun r => decide ((s.pkt r.1).cid ≠ cid))
      haltCtx := if h.haltCtx = some cid then none else h.haltCtx
      haltPending := h.haltPending.filter (fun c => decide (c ≠ cid))
      colts := h.colts.map (fun c => if c.2.cid = cid ∧ c.2.job.isSome then (c.1, { c.2 with running := false, job := none }) else c) } }
/-- A destroy (R105, R308, R331, R335): the context is stopped, what its packets and cores have written reaches memory, its packets are
cancelled, its queues, pool and state gone; the packet completes when the records have been written. -/
def destroyCtx (s : State) (cid p : Nat) : State :=
  let mine := s.hub.pkts.filter (fun k => decide (k.2.cid = cid) && decide (k.1 ≠ p))
  let s0 := (upTo 4).foldl writeBackDie (mine.foldl (fun s k => leaveHandles s k.1) s)
  let nodes := (s0.hub.replays.filter (fun r => decide ((s.pkt r.1).cid = cid))).flatMap (fun r =>
    r.2.waiting.filterMap (fun i => (nodePacket s0 cid r.2 i).map (fun b => ((s.pkt r.1).queue, b))))
  let s1 := nodes.foldl (fun s n => (addPkt s { queue := n.1, cid := cid, bytes := n.2, outcome := some (stCANCELLED, 0) }).1) (clearContext s0 cid)
  let s2 := mine.foldl (fun s k => pktOutcome s k.1 stCANCELLED 0) s1
  let s3 := (s2.hub.queues.filter (fun q => decide (q.2.cid = cid) && decide (q.2.st ≠ .absent) && decide (q.2.st ≠ .destroyed))).foldl
    (fun s q => cancelQueue s q.1) s2
  let off : Nat × Gang → Nat × Gang := fun g => if g.1 / 256 = cid then (g.1, { g.2 with mapped := false, marked := false }) else g
  let s4 := { s3 with hub := { s3.hub with gangs := s3.hub.gangs.map off } }
  let x := s.ctx cid
  settleDestroy (handDone (s4.setCtx cid { st := .destroyed, root := x.root, save := x.save, lease := x.lease, split := x.split,
                                           destroyPkt := some p })) cid

end Sys2Proof.Machine
end

