-- ==== Sys2Proof/Machine/CtxControl.lean ====
section
/-! DEFINITION. The context-control sub-operations (R94 to R105, R109 to R115, R121, R122, R127, R279, R335). -/
namespace Sys2Proof.Machine

/-- A context-control packet in hand with its sub-operation: none when another packet is in hand. -/
def ctxcHand (s : State) (sub : Nat) : Option (Nat × Pkt) :=
  match inHand s 10 with
  | some (p, k) => if pSUB k.bytes = sub then some (p, k) else none
  | none => none
/-- The context that a sub-operation other than CREATE names, or its refusal (R121): DENIED, BAD_VALUE for none, BAD_STATE for a
destroyed one (R103). -/
def ctxcTarget (s : State) (k : Pkt) : Except Nat Nat :=
  let c := pCID k.bytes
  if k.cid ≠ 0 ∧ c ≠ k.cid then .error stDENIED
  else match (s.ctx c).st with
    | .absent => .error stBAD_VALUE
    | .destroyed => .error stBAD_STATE
    | _ => .ok c
/-- A sub-operation that a context answers. -/
def onContext (s : State) (sub : Nat) (f : Nat → Pkt → Nat → Ctx → State) : Out :=
  match ctxcHand s sub with
  | none => .next s
  | some (p, k) => match ctxcTarget s k with
    | .error st => .next (answer s p st 0)
    | .ok c => .next (f p k c (s.ctx c))

/-- A speculation depth (R98, R121). -/
def depthOk (v : Nat) : Bool := [0, 2, 4, 8].contains v
/-- GNONE without its reserved bits (R100). -/
def gnoneOf (v : Nat) : Nat := v / 2 ^ 32 * 2 ^ 32 + v % 4
/-- A loop kernel of the context is running (R98). -/
def loopRunning (s : State) (cid : Nat) : Bool :=
  s.hub.groups.any (fun g => decide (g.2.cid = cid) && g.2.loop.isSome && decide (g.2.st = .running ∨ g.2.st = .regrouping))

/-- CREATE (R94 to R100, R121). Its CID field is held to R121 as any other sub-operation's: DENIED and BAD_VALUE. The model's choice,
log 79: the new context takes the lowest free number, and BAD_VALUE answers when none is free. -/
def execCtxcCreate (s : State) : Out :=
  match ctxcHand s 0 with
  | none => .next s
  | some (p, k) =>
    if k.cid ≠ 0 ∧ pCID k.bytes ≠ k.cid then .next (answer s p stDENIED 0)
    else if (s.ctx (pCID k.bytes)).st = .absent then .next (answer s p stBAD_VALUE 0)
    else
    let b := k.bytes
    let root := field b 24 8
    let save := field b 32 8
    let lease := field b 48 2 % 1024
    let depth := field b 50 1
    let gn := gnoneOf (field b 52 8)
    let free := (upTo 1023).find? (fun i => (s.ctx (i + 1)).st = .absent ∨ ((s.ctx (i + 1)).st = .destroyed ∧ (s.ctx (i + 1)).destroyPkt.isNone))
    match free with
    | none => .next (answer s p stBAD_VALUE 0)
    | some i =>
      if root % 4096 ≠ 0 ∨ memSize ≤ root ∨ save % 65536 ≠ 0 ∨ memSize ≤ save ∨ 1000 < lease ∨ !(depthOk depth) ∨ gn % 4 = 3 then
        .next (answer s p stBAD_VALUE 0)
      else
        let x : Ctx := { st := .created, root := root, save := save, seed := BitVec.ofNat 64 (field b 40 8),
                         lease := if lease = 0 then 20 else lease, depth := depth, pend := depth,
                         split := BitVec.ofNat 7 (field b 51 1), gnone := BitVec.ofNat 64 gn }
        .next (answer (s.setCtx (i + 1) x) p stOK (i + 1))
/-- DESTROY (R105): context 0 cannot be destroyed (R94). -/
def execCtxcDestroy (s : State) : Out :=
  onContext s 1 (fun p _ c _ => if c = 0 then answer s p stBAD_VALUE 0 else destroyCtx s c p)
/-- SET (R95 to R100, R121). A packet with a REG of 5 to 255, which names no register, does not come here: it is out of its limits and
BAD_PACKET (`packetOk`, log 82). -/
def execCtxcSet (s : State) : Out :=
  onContext s 2 (fun p k c x =>
    let v := field k.bytes 32 8
    let bad := answer s p stBAD_VALUE 0
    let put := fun (y : Ctx) => answer (s.setCtx c y) p stOK 0
    match field k.bytes 24 1 with
    | 0 => put { x with split := BitVec.ofNat 7 v }
    | 1 => if v % 1024 = 0 ∨ 1000 < v % 1024 then bad else put { x with lease := v % 1024 }
    | 2 => if depthOk v then put { x with pend := v, depth := if loopRunning s c then x.depth else v } else bad
    | 3 => put { x with seed := BitVec.ofNat 64 v }
    | 4 => if v % 4 = 3 then bad else put { x with gnone := BitVec.ofNat 64 (gnoneOf v) }
    | _ => bad)
/-- RESUME (R103, R105). -/
def execCtxcResume (s : State) : Out :=
  onContext s 3 (fun p _ c x =>
    if x.st = .faulted then answer (askMaps (s.setCtx c { x with st := .preempted, faults := [] }) c) p stOK 0 else answer s p stBAD_STATE 0)
/-- CKPT (R118, R121, R279): it completes when its settings are taken; AREA is an address of the issuing context's space. An AREA of 0
keeps the area set earlier with its length, which must be writable still (log 40). The interval counts from the previous checkpoint, and
from the command while there is none. -/
def execCtxcCkpt (s : State) : Out :=
  onContext s 4 (fun p k c x =>
    let iv := field k.bytes 24 8
    let area := field k.bytes 32 8
    let bytes := field k.bytes 40 8
    let y := if area = 0 then x else { x with ckptArea := area, ckptBytes := bytes, ckptBank := 0, ckptCid := k.cid }
    if y.ckptArea % 65536 ≠ 0 ∨ bytes < 131072 ∨ bytes % 65536 ≠ 0 ∨ y.ckptBytes = 0 ∨ 2 ^ 56 < y.ckptArea + y.ckptBytes
      ∨ !(hubMay s y.ckptCid y.ckptArea y.ckptBytes 1) then answer s p stBAD_VALUE 0
    else
      let z := if iv = 0 then { y with ckptNow := true } else { y with ckptInterval := iv, ckptLast := if x.ckptSeq = 0 then s.ptime else x.ckptLast }
      answer (s.setCtx c z) p stOK 0)

/-- QCREATE (R109, R111, R114, R115, R118); a queue that joins a mapped gang takes a slot of its own, and without a free one the gang is
unmapped until it can be mapped whole (log 42). QUANT and PRIO of the gang are those of its first queue: a later QUANT is checked and
not taken, the model's choice (log 42). -/
def execCtxcQcreate (s : State) : Out :=
  onContext s 5 (fun p k c _ =>
    let b := k.bytes
    let home := k.cid
    let desc := field b 24 8
    let gang := field b 32 1
    let prio := field b 33 1
    let quant := if field b 36 4 = 0 then 2000 else field b 36 4
    let g := gangKey c gang
    let mates := s.gangQueues g
    let bad := answer s p stBAD_VALUE 0
    match (upTo 4096).find? (fun q => (s.queue q).st = .absent ∨ ((s.queue q).st = .destroyed ∧ (s.queue q).out.isEmpty)), s.hubRead home desc 64 with
    | some q, some d =>
      let ring := field d 0 8
      let logn := field d 16 1
      if 7 < prio ∨ quant < 100 ∨ 100000 < quant ∨ 16 ≤ mates.length ∨ (!mates.isEmpty ∧ (s.gang g).prio ≠ prio)
        ∨ ring % 4096 ≠ 0 ∨ logn < 6 ∨ 20 < logn then bad
      else
        let s1 := s.setQueue q { st := .created, cid := c, descCid := home, gang := gang, desc := desc, ring := ring, logn := logn,
                                 wptr := field d 12 4, rptr := field d 12 4 }
        let s2 := if mates.isEmpty then s1.setGang g { prio := prio, quant := quant, eff := prio, agingFrom := s.ptime } else s1
        let s3 := match (s2.gang g).mapped, freeSlots s2 with
          | false, _ => s2
          | true, h :: _ => ({ s2 with hub := { s2.hub with hwslots := sset 0 s2.hub.hwslots h (q + 1) } }).modQueue q (fun v =>
              { v with mapped := true, st := .idle })
          | true, [] => (unmapGang s2 g).modGang g (fun v => { v with marked := true }) |> (askMap · g)
        answer s3 p stOK q
    | _, _ => bad)
/-- The queue that a sub-operation names, or its refusal (R121). -/
def onQueue (s : State) (sub : Nat) (f : Nat → Pkt → Nat → Queue → State) : Out :=
  onContext s sub (fun p k c _ =>
    let q := field k.bytes 24 2
    let v := s.queue q
    if v.st = .absent then answer s p stBAD_VALUE 0
    else if v.cid ≠ c then answer s p stDENIED 0
    else f p k q v)
/-- QDESTROY (R112). -/
def execCtxcQdestroy (s : State) : Out :=
  onQueue s 6 (fun p _ q v => if v.st = .destroyed then answer s p stBAD_STATE 0 else answer (cancelQueue s q) p stOK 0)
/-- QPROG (R118, R127, R129): the code and the window table lie in the issuing context's space. -/
def execCtxcQprog (s : State) : Out :=
  onQueue s 7 (fun p k q v =>
    let b := k.bytes
    if v.st = .destroyed then answer s p stBAD_STATE 0
    else match s.hubRead k.cid (field b 32 8) (4 * field b 28 2), s.hubRead k.cid (field b 40 8) 32 with
      | some code, some wt => match qpWindows wt with
        | none => answer s p stBAD_VALUE 0
        | some wins =>
          let ws := wordsOf code
          let r := qpVerify ws wins (field b 26 2)
          if r ≠ 0 then answer s p stPROG_REFUSED r
          else answer (s.setQueue q { v with nextProg := some { words := ws, windows := wins } }) p stOK 0
      | _, _ => answer s p stBAD_VALUE 0)
/-- QRESET (R112): idle or ready, whether its gang is mapped or not (log 42); a queue of an unmapped gang dispatches nothing. -/
def execCtxcQreset (s : State) : Out :=
  onQueue s 8 (fun p _ q v => if v.st ≠ .error then answer s p stBAD_STATE 0 else answer (queueReady (advance s q) q) p stOK 0)
/-- GMAP (R110, R121): every queue of the gang must be unmapped, and enough slots free. -/
def execCtxcGmap (s : State) : Out :=
  onContext s 9 (fun p k c x =>
    let g := gangKey c (field k.bytes 24 1)
    let qs := s.gangQueues g
    if qs.isEmpty then answer s p stBAD_VALUE 0
    else if qs.any (fun q => decide (q.2.st ≠ .created)) ∨ (freeSlots s).length < qs.length ∨ (x.st = .created ∧ 32 ≤ residents s) then answer s p stBAD_STATE 0
    else answer (mapGang s g) p stOK 0)
/-- GUNMAP (R103, R110, R121): a resident context whose last gang leaves is saved (log 41). -/
def execCtxcGunmap (s : State) : Out :=
  onContext s 10 (fun p k c x =>
    let g := gangKey c (field k.bytes 24 1)
    let qs := s.gangQueues g
    let last := !(s.mappedGangs.any (fun m => decide (m.1 / 256 = c) && decide (m.1 ≠ g)))
    if qs.isEmpty then answer s p stBAD_VALUE 0
    else if qs.any (fun q => decide (q.2.st ≠ .idle) && decide (q.2.st ≠ .ready) && decide (q.2.st ≠ .blocked)) ∨ (last ∧ x.st = .running) then
      answer s p stBAD_STATE 0
    else
      let s1 := unmapGang s g
      answer (if last ∧ x.st = .resident then beginStop s1 c .preempted else s1) p stOK 0)
/-- HDROP (R121, R122). -/
def execCtxcHdrop (s : State) : Out :=
  onContext s 11 (fun p k c x =>
    let h := field k.bytes 24 4
    let e := sget {} x.handles h
    if !(x.handles.any (fun q => decide (q.1 = h))) then answer s p stBAD_VALUE 0
    else
      let s1 := s.setCtx c { x with handles := sset {} x.handles h { e with drop := true } }
      answer (settleHandle s1 c h) p stOK 0)
/-- FPOOL (R118, R121, R335): the list lies in the issuing context's space. -/
def execCtxcFpool (s : State) : Out :=
  onContext s 12 (fun p k c x =>
    let b := k.bytes
    let n := field b 32 4
    let mode := field b 36 1
    match s.hubRead k.cid (field b 24 8) (8 * n) with
    | none => answer s p stBAD_VALUE 0
    | some bs =>
      let fr := (upTo n).map (fun i => field bs (8 * i) 8)
      let inPools := (s.ctxs.filter (fun y => decide (mode ≠ 1) || decide (y.1 ≠ c))).flatMap (fun y => y.2.pool)
      let pool : List Nat := match mode with
        | 0 => sortBy (fun f => f) (x.pool ++ fr)
        | 1 => sortBy (fun f => f) fr
        | _ => x.pool.filter (fun f => !(fr.contains f))
      if fr.any (fun f => decide (f % 65536 ≠ 0) || decide (memSize < f + 65536)) ∨ 65536 < pool.length
        ∨ (mode ≠ 2 ∧ (fr.any (fun f => inPools.contains f) ∨ fr.eraseDups.length ≠ fr.length)) then answer s p stBAD_VALUE 0
      else answer (s.setCtx c { x with pool := pool }) p stOK (min 65535 pool.length))

end Sys2Proof.Machine
end

