-- ==== Sys2Proof/Machine/Grammar.lean ====
section
/-! DEFINITION. The sequence table (R364 to R366), Flock (R377) and the grammar engine (R401, R402). -/
namespace Sys2Proof.Machine

/-- One record of a running loop kernel: the kernel, its context, the loop as the boundary found it, the record's index. -/
structure SeqRef where
  kern : Nat
  cid : Nat
  l : LoopRec
  r : Nat
  deriving DecidableEq, Repr
/-- A field of the record, at its byte offset in R365. -/
def SeqRef.get (q : SeqRef) (s : State) (off len : Nat) : Nat := seqGet s q.cid (seqAddr q.l q.r off) len
def SeqRef.post (q : SeqRef) (s : State) (off len v : Nat) : State := seqPut s q.cid (seqAddr q.l q.r off) len v
/-- A field that a boundary writes (R366). -/
def SeqRef.put (q : SeqRef) (s : State) (off len v : Nat) : State := s.devWrite q.cid (seqAddr q.l q.r off) (leBytes len v)
/-- What the sequencer holds of the sequence. -/
def SeqRef.mem (q : SeqRef) (s : State) : SeqMem := sget {} (s.ctx q.cid).seqs (seqAddr q.l q.r 0)
def SeqRef.modMem (q : SeqRef) (s : State) (f : SeqMem → SeqMem) : State :=
  s.modCtx q.cid (fun x => { x with seqs := smod {} x.seqs (seqAddr q.l q.r 0) f })
def SeqRef.loop (q : SeqRef) (s : State) : LoopRec := (s.group q.kern).loop.getD {}
def State.modLoop (s : State) (kern : Nat) (f : LoopRec → LoopRec) : State := s.modGroup kern (fun g => { g with loop := g.loop.map f })

/-- The byte offsets of the record fields (R365). -/
def rSTATE : Nat := 0
def rREQ : Nat := 1
def rACCEPT : Nat := 2
def rNCOMMIT : Nat := 3
def rLANE : Nat := 4
def rGFROM : Nat := 6
def rSTATUS : Nat := 7
def rID : Nat := 8
def rSEED : Nat := 16
def rSFLAGS : Nat := 24
def rPOS : Nat := 32
def rMAXTOK : Nat := 40
def rPROMPT : Nat := 48
def rPLEN : Nat := 56
def rPDONE : Nat := 60
def rSLOTS : Nat := 64
def rWATCH : Nat := 72
def rGRAM : Nat := 80
def rSPARAM : Nat := 88
def rOUT : Nat := 96
def rHIST : Nat := 128
def rGUESS : Nat := 144
def rK0 : Nat := 176
def rSAMPLE : Nat := 180
def rJREP : Nat := 216

/-- The sequence states of R365. -/
def qRETIRED : Nat := 0
def qADMITTED : Nat := 1
def qPREFILL : Nat := 2
def qDECODING : Nat := 3
def qHELD : Nat := 4
def qSTOPPED : Nat := 5
def qFORKED : Nat := 6
def qTRAPPED : Nat := 7
/-- A live record (R368). -/
def liveState (st : Nat) : Bool := decide (1 ≤ st) && decide (st ≤ 3)

def SeqRef.hist (q : SeqRef) (s : State) : List Nat := [0, 1, 2].map (fun i => q.get s (rHIST + 4 * i) 4)
def SeqRef.guess (q : SeqRef) (s : State) (p : Nat) : Nat := q.get s (rGUESS + 4 * p) 4
def SeqRef.sample (q : SeqRef) (s : State) (p : Nat) : Nat := q.get s (rSAMPLE + 4 * p) 4
/-- GFROM and GUESS after a commit: the given guesses, then HIST[2] (R375). -/
def SeqRef.window (q : SeqRef) (s : State) (gs : List Nat) : State :=
  let h2 := q.get s (rHIST + 8) 4
  (upTo 8).foldl (fun s p => q.put s (rGUESS + 4 * p) 4 (nth h2 gs p)) (q.put s rGFROM 1 gs.length)

/-- The index of three tokens in Flock (R377). -/
def fhash (a b c : Nat) : Nat := Nat.xor (Nat.xor (a * 0x9E3779B1) (b * 0x85EBCA77)) (c * 0xC2B2AE3D) % 2 ^ 32 / 2 ^ 16
def flockIndex (h : List Nat) : Nat := fhash (nth 0 h 0) (nth 0 h 1) (nth 0 h 2)
/-- flock_fill (R377). -/
def flockFill (s : State) (q : SeqRef) (t : Nat) : State :=
  let h := q.hist s
  if bitOf (q.get s rSFLAGS 1) 1 ∨ (q.mem s).short ≠ 0 then s
  else s.modCtx q.cid (fun x =>
    let e := sget {} x.flock (flockIndex h)
    let e1 : FlockEntry := if e.tag = h then { e with toks := (t :: e.toks.filter (fun y => decide (y ≠ t))).take 8 } else { tag := h, toks := [t] }
    { x with flock := sset {} x.flock (flockIndex h) e1 })
/-- A token enters HIST, with or without a Flock fill (R375, R377). -/
def enterTok (s : State) (q : SeqRef) (fill : Bool) (t : Nat) : State :=
  let s1 := if fill then flockFill s q t else s
  let h := q.hist s
  let s2 := q.modMem (q.put s1 rHIST 4 (nth 0 h 1)) (fun m => { m with short := m.short - 1 })
  q.put (q.put s2 (rHIST + 4) 4 (nth 0 h 2)) (rHIST + 8) 4 t

/-- A grammar state as the engine works on it (R402): AUTO, STATE, SP, LIMIT, STACK, the stack symbols that differ from memory
(depth, symbol), and whether it keeps its limits. -/
structure Pda where
  auto : Nat := 0
  st : Nat := 0
  sp : Nat := 0
  limit : Nat := 0
  stack : Nat := 0
  syms : List (Nat × Nat) := []
  ok : Bool := false
  deriving DecidableEq, Repr
/-- A rule (R401). -/
structure GRule where
  kind : Nat
  op : Nat
  sym : Nat
  next : Nat
  lo : Nat
  hi : Nat
  sel : Nat
  deriving DecidableEq, Repr

/-- The state at an address: without its limits where it cannot be read (R402, R457). -/
def readPda (s : State) (cid a : Nat) : Pda :=
  match s.hubRead cid a 64 with
  | none => {}
  | some b =>
    let limit := field b 14 2
    { auto := field b 0 8, st := field b 8 4, sp := field b 12 2, limit := limit, stack := field b 16 8,
      ok := decide (1 ≤ limit) && decide (limit ≤ 4096) && decide (field b 16 8 % 64 = 0) && decide (field b 12 2 ≤ limit) }
/-- The top symbol: 0 for an empty stack (R402). -/
def Pda.top (s : State) (cid : Nat) (p : Pda) : Option Nat :=
  if p.sp = 0 then some 0
  else match p.syms.find? (fun o => decide (o.1 = p.sp - 1)) with
    | some o => some o.2
    | none => s.hubNat cid (p.stack + (p.sp - 1)) 1
/-- The memory may be read, or written, byte for byte by the hub. -/
def reach (s : State) (cid va len kind : Nat) : Bool :=
  len = 0 || (decide (va + len ≤ 2 ^ 56) && hubMay s cid va len kind)
def parseRule (b : List Byte) : GRule :=
  { kind := field b 0 1, op := field b 1 1, sym := field b 2 1, next := field b 4 4, lo := field b 8 4, hi := field b 12 4, sel := field b 8 8 }
/-- The limits of a rule (R401, R457): a bitmap must be readable for the whole vocabulary. -/
def GRule.ok (s : State) (cid vocab nstate nsym : Nat) (r : GRule) : Bool :=
  decide (r.kind ≤ 1) && decide (r.op ≤ 3) && decide (r.next < nstate)
  && (if r.op = 1 ∨ r.op = 3 then decide (1 ≤ r.sym) && decide (r.sym < nsym) else decide (r.sym = 0))
  && (r.kind = 0 || (decide (r.sel % 64 = 0) && reach s cid r.sel ((vocab + 7) / 8) 0))
/-- The rules of the configuration that a state is in: none where its state, header, entry or a rule breaks its limits or cannot
be read (R401, R402, R457). -/
def Pda.rules (s : State) (cid vocab : Nat) (p : Pda) : Option (List GRule) := do
  if !p.ok then none
  let h ← s.hubRead cid p.auto 64
  let nstate := field h 4 4
  let nsym := field h 8 2
  let conf := field h 16 8
  if field h 0 4 ≠ 0x41445050 ∨ nstate = 0 ∨ 65536 < nstate ∨ nsym = 0 ∨ 256 < nsym ∨ conf % 16 ≠ 0 ∨ nstate ≤ p.st then none
  let g ← p.top s cid
  if nsym ≤ g then none
  let e ← s.hubRead cid (conf + 16 * (p.st * nsym + g)) 16
  let base := field e 0 8
  let nr := field e 8 4
  if base % 16 ≠ 0 ∨ 65535 < nr then none
  let bs ← s.hubRead cid base (16 * nr)
  let rs := (upTo nr).map (fun i => parseRule ((bs.drop (16 * i)).take 16))
  if rs.all (GRule.ok s cid vocab nstate nsym) then some rs else none
/-- A rule's selector holds a token (R401). -/
def GRule.holds (s : State) (cid : Nat) (r : GRule) (t : Nat) : Bool :=
  if r.kind = 0 then decide (r.lo ≤ t) && decide (t ≤ r.hi)
  else bitOf ((s.hubNat cid (r.sel + t / 8) 1).getD 0) (t % 8)
/-- A rule acts on stack and state, where it can (R402); `cap` bounds the symbols held beside memory (R406). -/
def Pda.run (cap : Nat) (p : Pda) (r : GRule) : Option Pda :=
  let write (d : Nat) : Option Pda :=
    let written := (d, r.sym) :: p.syms.filter (fun o => decide (o.1 ≠ d))
    if cap < written.length then none else some { p with syms := written, sp := d + 1, st := r.next }
  match r.op with
  | 0 => some { p with st := r.next }
  | 1 => if p.sp < p.limit then write p.sp else none
  | 2 => if p.sp = 0 then none else some { p with sp := p.sp - 1, syms := p.syms.filter (fun o => decide (o.1 ≠ p.sp - 1)), st := r.next }
  | _ => if p.sp = 0 then none else write (p.sp - 1)
/-- A token under the rules of a configuration: the first rule that holds it decides (R402). -/
def Pda.stepWith (s : State) (cid cap : Nat) (p : Pda) (rs : List GRule) (t : Nat) : Option Pda :=
  match rs.find? (fun r => r.holds s cid t) with
  | some r => p.run cap r
  | none => none
/-- The symbols a mask engine's walk or a commit may hold beside memory: as many as a stack has. -/
def noCap : Nat := 65536
/-- A legal token's successor state. -/
def Pda.step (s : State) (cid vocab cap : Nat) (p : Pda) (t : Nat) : Option Pda :=
  match p.rules s cid vocab with
  | some rs => p.stepWith s cid cap rs t
  | none => none
/-- The state reached through a list of guesses (R405, R407). -/
def Pda.through (s : State) (cid vocab : Nat) : Pda → List Nat → Option Pda
  | p, [] => some p
  | p, t :: ts => match p.step s cid vocab noCap t with
    | some p1 => Pda.through s cid vocab p1 ts
    | none => none
/-- The legal bitmap of a state over a vocabulary, in whole 64-byte lines, and the number of legal tokens (R406, R407). -/
def legalTokens (s : State) (cid vocab cap : Nat) (p : Pda) : List Bool :=
  match p.rules s cid vocab with
  | some rs => (upTo vocab).map (fun t => (p.stepWith s cid cap rs t).isSome)
  | none => List.replicate vocab false
def maskLines (vocab : Nat) : Nat := (vocab + 511) / 512 * 64
def maskBytes (vocab : Nat) (bits : List Bool) : List Byte :=
  (upTo (maskLines vocab)).map (fun i => BitVec.ofNat 8 ((upTo 8).foldl (fun m j => if nth false bits (8 * i + j) then m + 2 ^ j else m) 0))
/-- A state goes back to memory: its written symbols, STATE and SP (R402); where it can be written. -/
def pdaWritable (s : State) (cid a : Nat) (p : Pda) : Bool :=
  reach s cid (a + 8) 6 1 && p.syms.all (fun o => reach s cid (p.stack + o.1) 1 1)
def storePda (s : State) (cid a : Nat) (p : Pda) : State :=
  let s1 := p.syms.foldl (fun s o => s.hubWrite cid (p.stack + o.1) (leBytes 1 o.2)) s
  s1.hubWrite cid (a + 8) (leBytes 4 p.st ++ leBytes 2 p.sp)
/-- ERR of a grammar state is set, where it can be written (R402, R457). -/
def setErr (s : State) (cid a : Nat) : State := s.hubWrite cid (a + 24) (leBytes 1 1)

end Sys2Proof.Machine
end

