-- ==== Sys2Proof/Machine/Watch.lean ====
section
/-! DEFINITION. The watchpoint unit (R380 to R393, R457): tables and entries, evaluation at a commit, delivery, sequence traps,
slot lists and forks. -/
namespace Sys2Proof.Machine

/-- The kinds and actions of an entry (R381). -/
def wTOKENS : Nat := 1
def wCLASS : Nat := 2
def wBYTES : Nat := 3
def wANY : Nat := 4
def aSTOP : Nat := 1
def aFORK : Nat := 2
def aINJECT : Nat := 3
def aNOTIFY : Nat := 4
def aTRAP : Nat := 5
/-- The fields of an entry (R381). -/
def weKind (e : List Byte) : Nat := field e 0 1
def weAction (e : List Byte) : Nat := field e 1 1
def weLen (e : List Byte) : Nat := field e 2 1
def weFlags (e : List Byte) : Nat := field e 3 1
def weNinj (e : List Byte) : Nat := field e 5 1
def weCount (e : List Byte) : Nat := field e 8 8
def wePattern (e : List Byte) (p : Nat) : Nat := field e (32 + 4 * p) 4
def weInject (e : List Byte) (p : Nat) : Nat := field e (64 + 4 * p) 4
/-- Bytes lo up to hi of a record are zero. -/
def zeros (b : List Byte) (lo hi : Nat) : Bool := decide (field b lo (hi - lo) = 0)
/-- A valid entry (R381). -/
def weValid (vocab nseq : Nat) (e : List Byte) : Bool :=
  let k := weKind e
  let a := weAction e
  let n := weLen e
  decide (1 ≤ k) && decide (k ≤ 4) && decide (1 ≤ a) && decide (a ≤ 5) && decide (weFlags e < 4)
  && (if k = wANY then decide (n = 1) else decide (1 ≤ n) && decide (n ≤ (if k = wBYTES then 32 else 8)))
  && (k = wTOKENS || zeros e 4 5)
  && (if a = aINJECT then decide (1 ≤ weNinj e) && decide (weNinj e ≤ 16) else zeros e 5 6)
  && zeros e 7 8
  && (k = wCLASS || zeros e 16 24)
  && (if a = aNOTIFY then decide (field e 24 8 % 8 = 0) else zeros e 24 32)
  && (if k = wTOKENS then (upTo n).all (fun p => decide (wePattern e p < vocab)) && zeros e (32 + 4 * n) 64
      else if k = wBYTES then zeros e (32 + n) 64 else zeros e 32 64)
  && (if a = aINJECT then (upTo (weNinj e)).all (fun p => decide (weInject e p < vocab)) && zeros e (64 + 4 * weNinj e) 128
      else if a = aFORK then decide (field e 64 8 < nseq) && zeros e 72 128 else zeros e 64 128)
/-- Where entry i of a table lies (R380). -/
def entryAt (w i : Nat) : Nat := w + 256 + 128 * i
/-- The table of a record can be reached (R380, R457). -/
def tableOk (s : State) (cid w : Nat) : Bool := reach s cid w 2304 0 && reach s cid w 2304 1
/-- The armed entries of a table, with their numbers. -/
def armedEntries (s : State) (cid w : Nat) : List (Nat × List Byte) :=
  let armed := (s.hubNat cid w 2).getD 0
  ((upTo 16).filter (fun i => bitOf armed i)).map (fun i => (i, (s.hubRead cid (entryAt w i) 128).getD []))
/-- Invalid armed entries are disarmed with RESULT 3 (R381). -/
def disarmInvalid (s : State) (q : SeqRef) (w : Nat) : State :=
  (armedEntries s q.cid w).foldl (fun s e =>
    if weValid q.l.vocab q.l.nseq e.2 then s
    else (s.devWrite q.cid (entryAt w e.1 + 6) (leBytes 1 3)).devWrite q.cid w (leBytes 2 ((s.hubNat q.cid w 2).getD 0 - 2 ^ e.1))) s

/-- The bytes of a token (R382); none where they cannot be reached. -/
def tokBytes (s : State) (cid tokb t : Nat) : Option (List Byte) := do
  let e ← s.hubRead cid (tokb + 8 * t) 8
  s.hubRead cid (tokb + field e 0 4) (min 64 (field e 4 2))

/-- The delivery header of a record, when it has one that keeps its limits (R391). -/
def outOf (s : State) (q : SeqRef) : Option (List Byte) :=
  let out := q.get s rOUT 8
  match (if out = 0 then none else s.hubRead q.cid out 64) with
  | none => none
  | some h => if 6 ≤ field h 8 1 ∧ field h 8 1 ≤ 24 ∧ 4 ≤ field h 9 1 ∧ field h 9 1 ≤ 20 then some h else none
/-- Where stream byte i and token i of this boundary go (R391). -/
def byteSlot (h : List Byte) (i : Nat) : Nat := field h 0 8 + (field h 24 8 + i) % 2 ^ field h 8 1
def tokSlot (h : List Byte) (i : Nat) : Nat := field h 16 8 + 4 * ((field h 32 8 + i) % 2 ^ field h 9 1)
/-- The delivery memory that a stream of n bytes and m tokens needs can be written (R457). -/
def outReach (s : State) (q : SeqRef) (n m : Nat) : Bool :=
  let out := q.get s rOUT 8
  if out = 0 then true
  else reach s q.cid out 64 0 && reach s q.cid out 64 1 && (match outOf s q with
    | none => true
    | some h => (upTo n).all (fun i => reach s q.cid (byteSlot h i) 1 1) && (upTo m).all (fun i => reach s q.cid (tokSlot h i) 4 1))

/-- How a boundary treats a lane's stream (R392). -/
inductive Deliver where
  | hold
  | all
  | cut (at_ : Nat)
  deriving DecidableEq, Repr
/-- The held bytes of a table: the last HELDN of BTAIL (R380). -/
def heldBytes (s : State) (cid w : Nat) : List Byte :=
  match (if w = 0 then none else s.hubRead cid w 256) with
  | none => []
  | some h => ((h.drop 64).take (min 32 (field h 3 1))).drop (field h 3 1 - field h 2 1)
/-- A list ends in another. -/
def endsIn (l p : List Byte) : Bool := decide (p.length ≤ l.length) && decide (l.drop (l.length - p.length) = p)
/-- The longest suffix of the stream that is a proper prefix of a pattern (R392). -/
def holdLen (stream : List Byte) (pats : List (List Byte)) : Nat :=
  pats.foldl (fun h p => (upTo p.length).foldl (fun h n => if h < n ∧ endsIn stream (p.take n) then n else h) h) 0
/-- The token-to-bytes table is read (R382). -/
def needsBytes (s : State) (q : SeqRef) (es : List (Nat × List Byte)) : Bool :=
  es.any (fun e => decide (weKind e.2 = wBYTES)) || decide (q.get s rOUT 8 ≠ 0)
/-- Delivery at a boundary (R391 to R393): `held` is what the lane held before it, `toks` what it commits. -/
def deliver (s : State) (q : SeqRef) (held : List Byte) (toks : List Nat) (how : Deliver) : State :=
  let w := q.get s rWATCH 8
  if w = 0 then s
  else
    let es := (armedEntries s q.cid w).filter (fun e => weValid q.l.vocab q.l.nseq e.2)
    let tokb := (s.hubNat q.cid (w + 8) 8).getD 0
    let bytesOf (t : Nat) : List Byte := if needsBytes s q es then (tokBytes s q.cid tokb t).getD [] else []
    let (stream, ends) := toks.foldl (fun (a : List Byte × List (Nat × Nat)) t =>
      let b := a.1 ++ bytesOf t
      (b, a.2 ++ [(t, b.length)])) (held, (q.mem s).owed)
    let pats := (es.filter (fun e => decide (weKind e.2 = wBYTES) && [aSTOP, aTRAP, aINJECT].contains (weAction e.2))).map (fun e =>
      (e.2.drop 32).take (weLen e.2))
    let h := match how with
      | .hold => holdLen stream pats
      | _ => 0
    let d := match how with
      | .hold => stream.length - h
      | .all => stream.length
      | .cut n => min n stream.length
    let ready := (ends.filter (fun e => decide (e.2 ≤ d))).map (·.1)
    let left := match how with
      | .hold => (ends.filter (fun e => decide (d < e.2))).map (fun e => (e.1, e.2 - d))
      | _ => []
    let s1 := q.modMem (s.devWrite q.cid (w + 2) (leBytes 1 h)) (fun m => { m with owed := left })
    match outOf s q with
    | none => s1
    | some o =>
      let s2 := (upTo d).foldl (fun s i => s.hubWrite q.cid (byteSlot o i) [nth 0 stream i]) s1
      let s3 := ((upTo ready.length).zip ready).foldl (fun s p => s.hubWrite q.cid (tokSlot o p.1) (leBytes 4 p.2)) s2
      s3.hubWrite q.cid (q.get s rOUT 8 + 24) (leBytes 8 (field o 24 8 + d) ++ leBytes 8 (field o 32 8 + ready.length))

/-- A slot list (R389): SPILL, and its entries as (unit, first slot, count); no list is an empty one; none where it cannot be read
or its length breaks its limit. -/
def slotList (s : State) (cid a : Nat) : Option (Nat × List (Nat × Nat × Nat)) :=
  if a = 0 then some (0, [])
  else do
    let h ← s.hubRead cid a 16
    let nt := field h 0 2
    if nt = 0 ∨ 256 < nt then none
    let bs ← s.hubRead cid (a + 16) (8 * nt)
    some (field h 8 8, (upTo nt).map (fun i => (4 * field bs (8 * i) 1 + field bs (8 * i + 1) 1, field bs (8 * i + 2) 1, field bs (8 * i + 3) 1 + 1)))
/-- The slots of a list in order as 64 × unit + slot, each with its image address; entries that name no slot of a tile have
images and no slot. -/
def listSlots (l : Nat × List (Nat × Nat × Nat)) : List (Nat × Nat) :=
  let all := l.2.flatMap (fun e => (upTo e.2.2).map (fun i => if e.1 < 256 ∧ e.2.1 + i < 64 then some (64 * e.1 + e.2.1 + i) else none))
  ((upTo all.length).zip all).filterMap (fun p => p.2.map (fun k => (k, l.1 + 32768 * p.1)))
def recSlots (s : State) (q : SeqRef) : List (Nat × Nat) := match slotList s q.cid (q.get s rSLOTS 8) with
  | some l => listSlots l
  | none => []
/-- A sequence trap (R390): TCAUSE, TENTRY, TWHEN, the state, and the spill of its slots by the firmware; whether they stay reserved is
settled here (R102). -/
def seqTrap (s : State) (q : SeqRef) (tcause tentry : Nat) : State :=
  let w := q.get s rWATCH 8
  let s1 := if w = 0 then s
    else (s.devWrite q.cid (w + 16) (leBytes 1 tcause ++ leBytes 1 tentry)).devWrite q.cid (w + 24) (leBytes 8 s.ptime)
  let s2 := q.put (q.put s1 rSTATE 1 qTRAPPED) rSTATUS 1 tcause
  let wpt := bitOf (s.ctx q.cid).split.toNat 2
  let s3 := (recSlots s2 q).foldl (fun s k => takeSlot s (trapXfer q.kern q.r) k.1) (q.modMem s2 (fun m => { m with reserved := wpt }))
  { s3 with hub := { s3.hub with seqTraps := s3.hub.seqTraps ++ [(q.kern, q.r, s.ptime, recSlots s2 q)] } }

/-- What an evaluation ends with beside its tokens (R385, R386, R403, R457): the acting entry where one does. -/
inductive WAct where
  | none
  | stop
  | fork (e : Nat)
  | inject (e : Nat)
  | trap (e : Nat)
  | noLegal
  | memFail
  deriving DecidableEq, Repr
/-- An evaluation in progress (R383 to R385). -/
structure WAcc where
  s : State
  pda : Option Pda
  err : Bool := false
  tt : List Nat
  bt : List Byte
  spos : Nat
  armed : Nat
  cnt : SMap Nat := []
  acted : List Nat := []
  toks : List Nat := []
/-- What an evaluation looks at: the record, its table, its valid armed entries, TOKB, whether bytes are read, GRAM, POS and the tokens
it still owes the ring. -/
structure WEnv where
  q : SeqRef
  w : Nat
  ents : List (Nat × List Byte)
  tokb : Nat
  need : Bool
  gram : Nat
  pos : Nat
  owed : Nat

/-- TTAIL and BTAIL of a table's header (R380). -/
def tokTail (h : List Byte) : List Nat := (upTo (min 8 (field h 4 1))).map (fun i => field h (32 + 4 * i) 4)
def byteTail (h : List Byte) : List Byte := (h.drop 64).take (min 32 (field h 3 1))
def putTails (s : State) (cid w : Nat) (tt : List Nat) (bt : List Byte) : State :=
  (s.devWrite cid (w + 3) (leBytes 1 bt.length ++ leBytes 1 tt.length)).devWrite cid (w + 32)
    ((tt ++ List.replicate (8 - tt.length) 0).flatMap (leBytes 4) ++ bt ++ List.replicate (32 - bt.length) 0)
/-- The class bits of the last tokens of a CLASS entry (R383); none where its bitmap cannot be read. -/
def classMatch (s : State) (cid : Nat) (e : List Byte) (tt : List Nat) : Option Bool :=
  if tt.length < weLen e then some false
  else ((tt.drop (tt.length - weLen e)).mapM (fun t => (s.hubNat cid (field e 16 8 + t / 8) 1).map (fun b => bitOf b (t % 8)))).map (fun l => l.all id)
/-- A TOKENS match (R383). -/
def tokensMatch (e : List Byte) (tt : List Nat) : Bool :=
  let n := weLen e
  decide (n ≤ tt.length) && (upTo n).all (fun p => bitOf (field e 4 1) p || decide (nth 0 (tt.drop (tt.length - n)) p = wePattern e p))
/-- The first of a token's bytes at which a BYTES entry matches (R383). -/
def bytesMatch (e : List Byte) (bt tb : List Byte) : Option Nat :=
  (upTo tb.length).find? (fun i => endsIn ((bt ++ tb.take (i + 1)).drop (bt.length + i + 1 - min 32 (bt.length + i + 1))) ((e.drop 32).take (weLen e)))
/-- The last n elements. -/
def lastN {α : Type} (n : Nat) (l : List α) : List α := l.drop (l.length - n)

/-- A legal candidate advances the grammar state in memory (R403). -/
def advanceGram (s : State) (v : WEnv) (pda : Option Pda) : State := match pda with
  | some p => storePda s v.q.cid v.gram p
  | none => s
/-- What one candidate does (R383 to R386, R403): the evaluation goes on, or ends with an action and a cut of the stream. -/
def watchTok (v : WEnv) (a : WAcc) (t : Nat) : WAcc × Option (WAct × Option Nat) :=
  let s := a.s
  let cid := v.q.cid
  let gram : Option (Option Pda) := match a.pda with
    | none => some none
    | some p => (p.step s cid v.q.l.vocab noCap t).map some
  match gram with
  | none => ({ a with err := a.err || (match a.pda with
      | some p => (p.rules s cid v.q.l.vocab).isNone
      | none => false) }, some (.noLegal, none))
  | some pda =>
    let fail := ((a, some (.memFail, none)) : WAcc × Option (WAct × Option Nat))
    if (match pda with
      | some p => !(pdaWritable s cid v.gram p)
      | none => false) then fail
    else if v.w = 0 then ({ a with s := advanceGram s v pda, pda := pda, toks := a.toks ++ [t] }, none)
    else match (if v.need then tokBytes s cid v.tokb t else some []), (v.ents.mapM (fun e =>
        if weKind e.2 = wCLASS then classMatch s cid e.2 (lastN 8 (a.tt ++ [t])) else some false)) with
      | some tb, some classes =>
        if !(outReach s v.q (a.spos + tb.length) (v.owed + a.toks.length + 1)) then fail
        else
          let tt := lastN 8 (a.tt ++ [t])
          let hit (i : Nat) (e : List Byte) : Bool :=
            if weKind e = wTOKENS then tokensMatch e tt
            else if weKind e = wCLASS then nth false classes i
            else if weKind e = wBYTES then (bytesMatch e a.bt tb).isSome else true
          let hits := ((upTo v.ents.length).zip v.ents).filter (fun p => bitOf a.armed p.2.1 && hit p.1 p.2.2)
          let count := fun (e : Nat × List Byte) => match a.cnt.find? (fun c => decide (c.1 = e.1)) with
            | some c => c.2
            | none => weCount e.2
          let budget := hits.filter (fun p => bitOf (weFlags p.2.2) 0)
          let cnt := budget.foldl (fun m p => sput m p.2.1 (count p.2 - 1)) a.cnt
          let acting := (hits.map (·.2)).filter (fun e => !(bitOf (weFlags e.2) 0) || decide (count e ≤ 1))
          let notes := acting.filter (fun e => decide (weAction e.2 = aNOTIFY))
          let j := a.toks.length
          let s1 := notes.foldl (fun s e =>
            let na := field e.2 24 8
            if reach s cid na 8 1 then s.atomPut cid na 8 (v.q.r * 2 ^ 32 + e.1 * 2 ^ 24 + (v.pos + j) % 2 ^ 24) else s) (advanceGram s v pda)
          let term := acting.find? (fun e => decide (weAction e.2 ≠ aNOTIFY))
          let did := notes ++ term.toList
          let armed := (did.filter (fun e => bitOf (weFlags e.2) 1)).foldl (fun m e => if bitOf m e.1 then m - 2 ^ e.1 else m) a.armed
          let a1 : WAcc := { a with s := s1, pda := pda, tt := tt, bt := lastN 32 (a.bt ++ tb), spos := a.spos + tb.length, armed := armed,
                                    cnt := cnt, acted := a.acted ++ did.map (·.1), toks := a.toks ++ [t] }
          match term with
          | none => (a1, if acting.isEmpty then none else some (.none, none))
          | some e =>
            let cut := match bytesMatch e.2 a.bt tb with
              | some i => if weKind e.2 = wBYTES ∧ weAction e.2 ≠ aFORK then some (a.spos + i + 1 - weLen e.2) else none
              | none => none
            (a1, some (match weAction e.2 with
              | 1 => .stop
              | 2 => .fork e.1
              | 3 => .inject e.1
              | _ => .trap e.1, cut))
      | _, _ => fail
/-- watch_eval (R385). -/
def watchAll (v : WEnv) : WAcc → List Nat → WAcc × WAct × Option Nat
  | a, [] => (a, .none, none)
  | a, t :: ts => match watchTok v a t with
    | (a1, none) => watchAll v a1 ts
    | (a1, some r) => (a1, r.1, r.2)

/-- The evaluation of the candidates of a lane, and what it writes back (R383 to R388, R402, R403): the grammar state, the tails,
ARMED, COUNT, RESULT and, for INJECT, the feed. -/
def evaluate (s : State) (q : SeqRef) (cands : List Nat) : State × List Nat × WAct × Option Nat :=
  let w := q.get s rWATCH 8
  let gram := q.get s rGRAM 8
  let pos := q.get s rPOS 8
  let maxtok := q.get s rMAXTOK 8
  let cs := if maxtok = 0 then cands else cands.take (maxtok - pos)
  if cs.isEmpty then (s, [], .none, none)
  else if w ≠ 0 ∧ !(tableOk s q.cid w) then (s, [], .memFail, none)
  else
    let h := (s.hubRead q.cid w 256).getD []
    let ents := if w = 0 then [] else (armedEntries s q.cid w).filter (fun e => weValid q.l.vocab q.l.nseq e.2)
    let v : WEnv := { q := q, w := w, ents := ents, tokb := field h 8 8, need := w ≠ 0 && needsBytes s q ents, gram := gram, pos := pos,
                      owed := (q.mem s).owed.length }
    let a0 : WAcc := { s := s, pda := if gram = 0 then none else some (readPda s q.cid gram)
                       tt := tokTail h, bt := byteTail h, spos := (heldBytes s q.cid w).length, armed := field h 0 2 }
    let (a, act, cut) := watchAll v a0 cs
    let s2 := if a.err then setErr a.s q.cid gram else a.s
    if w = 0 then (s2, a.toks, act, cut)
    else
      let s4 := putTails (s2.devWrite q.cid w (leBytes 2 a.armed)) q.cid w a.tt a.bt
      let s5 := a.cnt.foldl (fun s c => s.devWrite q.cid (entryAt w c.1 + 8) (leBytes 8 c.2)) s4
      let s6 := a.acted.foldl (fun s i => s.devWrite q.cid (entryAt w i + 6) (leBytes 1 1)) s5
      let s7 := match act with
        | .inject i =>
          let e := (s.hubRead q.cid (entryAt w i) 128).getD []
          (s6.devWrite q.cid (w + 96) ((upTo (weNinj e)).flatMap (fun p => leBytes 4 (weInject e p)))).devWrite q.cid (w + 5) (leBytes 1 (weNinj e) ++ leBytes 1 0)
        | _ => s6
      (s7, a.toks, act, cut)

/-- The counts of a slot list, in order (R389). -/
def listShape (l : Nat × List (Nat × Nat × Nat)) : List Nat := l.2.map (fun e => e.2.2)
/-- FORK (R389): the child takes the parent's record and watchpoint state, and its slots are to be copied after the resume; a refused
fork leaves RESULT 2. -/
def forkChild (s : State) (q : SeqRef) (entry : Nat) : State :=
  let w := q.get s rWATCH 8
  let e := (s.hubRead q.cid (entryAt w entry) 128).getD []
  let c : SeqRef := { q with r := field e 64 8 }
  let lp := slotList s q.cid (q.get s rSLOTS 8)
  let lc := slotList s q.cid (c.get s rSLOTS 8)
  match lp, lc with
  | some a, some b =>
    if c.get s rSTATE 1 ≠ qRETIRED ∨ c.get s rREQ 1 ≠ 0 ∨ listShape a ≠ listShape b then s.devWrite q.cid (entryAt w entry + 6) (leBytes 1 2)
    else
      let copy := fun (s : State) (off len : Nat) => c.put s off len (q.get s off len)
      let s1 := copy (copy (copy (copy (copy s rHIST 12) rPOS 8) rGUESS 32) rGFROM 1) rACCEPT 1
      let cw := c.get s1 rWATCH 8
      let h := (s1.hubRead q.cid w 256).getD []
      let s2 := if cw = 0 then s1
        else (s1.devWrite q.cid (cw + 2) ((h.drop 2).take 3)).devWrite q.cid (cw + 32) ((h.drop 32).take 64)
      let s3 := c.modMem (c.put s2 rSTATE 1 qFORKED) (fun m => { m with short := (q.mem s).short, owed := (q.mem s).owed })
      { s3 with hub := { s3.hub with forkCopies := s3.hub.forkCopies ++
        ((listSlots a).zip (listSlots b)).map (fun p => (q.kern, p.1.1, p.2.1)) } }
  | _, _ => s.devWrite q.cid (entryAt w entry + 6) (leBytes 1 2)

end Sys2Proof.Machine
end

