-- ==== Sys2Proof/Machine/Sequence.lean ====
section
/-! DEFINITION. TRDY and COMMIT (R372, R373), the boundary of a loop kernel (R362, R363, R367, R368, R374 to R376, R388, R404), its
sleep, fork copies and the posting of sequence traps (R389, R390). -/
namespace Sys2Proof.Machine

/-- The loop of the group that a unit works for; ILLEGAL in an ordinary kernel (R370, R372, R373). -/
def loopHere (c : OpCtx) : Res LoopRec :=
  match (c.s.groupOf c.k).loop with
  | some l => if c.isColt then raise cILLEGAL 0 else .ok l
  | none => raise cILLEGAL 0
/-- The record on a lane of the iteration: none for an idle lane, or one not below occ′ (R370, R372). -/
def laneRec (l : LoopRec) (j : Nat) : Option Nat :=
  let r := nth 65535 l.lanes j
  if r = 65535 ∨ l.occ ≤ j then none else some r

/-- TRDY (R372). -/
def opTrdy (pd xa : Nat) (c : OpCtx) : Res (List Post) := do
  let l ← loopHere c
  let v ← rx c xa
  check (decide (v.toNat ≤ 255)) cILLEGAL 0
  if (laneRec l v.toNat).isNone then .ok [{ lat := 2, eff := .pred pd false, inter := true }]
  else .ok [{ lat := 2, eff := .predPending pd (1 + v.toNat), inter := true, pend := true }]
def execTrdy (pd xa : Nat) (s : State) : Out := issueTiles s 0 (opTrdy pd xa)

/-- COMMIT (R373): the core drains and waits for the boundary. -/
def opCommit (c : OpCtx) : Res (List Post) := loopHere c >>= fun _ => .ok []
def execCommit (s : State) : Out := issueWith s 0 opCommit (fun _ _ _ i => { i with after := i.after ++ [.boundary] })

/-- No legal token after the committed `toks` (R404): the token of policy 1 enters the tails (R383), and needs the memory that any
committed token needs (R457). -/
def noLegalEnd (s : State) (q : SeqRef) (held : List Byte) (toks : List Nat) : State :=
  let x := s.ctx q.cid
  let policy := x.gnone.toNat % 4
  let fb := x.gnone.toNat / 2 ^ 32
  let w := q.get s rWATCH 8
  let stop := fun (s : State) (status : Nat) => q.put (q.put s rSTATE 1 qSTOPPED) rSTATUS 1 status
  if bitOf x.split.toNat 3 then deliver (q.put s rSTATE 1 qHELD) q held toks .hold
  else if policy = 2 then seqTrap (deliver s q held toks .all) q 6 0xFF
  else if policy = 1 ∧ fb < q.l.vocab then
    let bytes := fun (t : Nat) => if w ≠ 0 ∧ needsBytes s q (armedEntries s q.cid w) then tokBytes s q.cid ((s.hubNat q.cid (w + 8) 8).getD 0) t else some []
    match (toks ++ [fb]).mapM bytes, bytes fb with
    | some bs, some b =>
      if w ≠ 0 ∧ !(tableOk s q.cid w && outReach s q (held.length + bs.flatten.length) ((q.mem s).owed.length + toks.length + 1)) then
        seqTrap (deliver s q held toks .all) q 5 0xFD
      else
        let h := (s.hubRead q.cid w 256).getD []
        let s1 := enterTok (if w = 0 then s else putTails s q.cid w (lastN 8 (tokTail h ++ [fb])) (lastN 32 (byteTail h ++ b))) q false fb
        deliver (stop (q.put s1 rPOS 8 (q.get s1 rPOS 8 + 1)) 4) q held (toks ++ [fb]) .all
    | _, _ => seqTrap (deliver s q held toks .all) q 5 0xFD
  else deliver (stop s 3) q held toks .all

/-- The job of a lane is committed (R375). -/
def commitJob (s : State) (q : SeqRef) (npos drl2 k0 : Nat) (held : List Byte) : State :=
  let jrep := q.get s rJREP 1
  if bitOf jrep 1 then seqTrap (deliver s q held [] .all) q 6 0xFE
  else if bitOf jrep 0 then
    let gram := q.get s rGRAM 8
    let s1 := if gram ≠ 0 ∧ ((readPda s q.cid gram).rules s q.cid q.l.vocab).isNone then setErr s q.cid gram else s
    noLegalEnd s1 q held []
  else
    let (s1, toks, act, cut) := evaluate s q ((upTo (min k0 8 + 1)).map (q.sample s))
    let s2 := toks.foldl (fun s t => enterTok s q true t) s1
    let pos := q.get s2 rPOS 8 + toks.length
    let k := toks.length - 1
    let gs := match act with
      | .inject _ => []
      | _ => (upTo (min (npos - 1 - k) drl2)).map (fun g => q.sample s2 (k + 1 + g))
    let s3 := q.put (q.put (q.put (q.put (q.window s2 gs) rPOS 8 pos) rACCEPT 1 k) rNCOMMIT 1 toks.length) rSTATE 1 qDECODING
    let full := decide (q.get s3 rMAXTOK 8 ≠ 0) && decide (pos = q.get s3 rMAXTOK 8)
    let how := fun (other : Deliver) => match cut with
      | some n => .cut n
      | none => other
    let go := fun (s : State) => if full then deliver (q.put (q.put s rSTATE 1 qSTOPPED) rSTATUS 1 1) q held toks (how .all)
      else deliver s q held toks (how .hold)
    match act with
    | .none => go s3
    | .fork e => forkChild (go s3) q e
    | .inject _ => go s3
    | .stop => deliver (q.put (q.put s3 rSTATE 1 qSTOPPED) rSTATUS 1 2) q held toks (how .all)
    | .trap e => seqTrap (deliver s3 q held toks (how .all)) q 5 e
    | .memFail => seqTrap (deliver s3 q held toks .all) q 5 0xFD
    | .noLegal => noLegalEnd s3 q held toks

/-- commit_lane (R375, R388): `drl2` is the draft length of the next iteration. -/
def commitLane (s0 : State) (q : SeqRef) (lane drl2 : Nat) : State :=
  let w := q.get s0 rWATCH 8
  let wok := w = 0 || tableOk s0 q.cid w
  let s := if w ≠ 0 ∧ wok then disarmInvalid s0 q w else s0
  let held := heldBytes s q.cid w
  let npos := sget 0 q.l.jobs lane
  let plen := q.get s rPLEN 4
  let pdone := q.get s rPDONE 4
  let quiet := fun (s : State) => q.put (q.put s rNCOMMIT 1 0) rACCEPT 1 0
  let lost := fun (s : State) => seqTrap (deliver (quiet s) q held [] .all) q 5 0xFD
  if pdone < plen then
    let c := min (q.l.drl + 1) (plen - pdone)
    match (upTo c).mapM (fun i => s.hubNat q.cid (q.get s rPROMPT 8 + 4 * (pdone + i)) 4) with
    | none => lost s
    | some ts =>
      let s1 := ts.foldl (fun s t => enterTok s q false t) s
      let s2 := quiet (q.put (q.put s1 rPDONE 4 (pdone + c)) rPOS 8 (q.get s1 rPOS 8 + c))
      if pdone + c < plen then q.put s2 rSTATE 1 qPREFILL
      else if npos = 0 then q.put s2 rSTATE 1 qDECODING
      else commitJob (q.put s2 rSTATE 1 qDECODING) q npos drl2 0 held
  else if !wok then lost s
  else
    let h := if w = 0 then [] else (s.hubRead q.cid w 256).getD []
    let feedn := min 16 (field h 5 1)
    if feedn ≠ 0 then
      let fd := min feedn (field h 6 1 + q.l.drl + 1)
      let s1 := quiet (s.devWrite q.cid (w + 6) (leBytes 1 fd))
      if fd < feedn then s1
      else
        let ts := (upTo feedn).map (fun i => field h (96 + 4 * i) 4)
        let need := needsBytes s q ((armedEntries s q.cid w).filter (fun e => weValid q.l.vocab q.l.nseq e.2))
        let bs := if need then ts.mapM (tokBytes s q.cid (field h 8 8)) else some []
        match bs with
        | none => lost s1
        | some bs =>
          if !(outReach s q (held.length + bs.flatten.length) ((q.mem s).owed.length + feedn)) then lost s1
          else
            let s2 := ts.foldl (fun s t => enterTok s q false t) s1
            let s3 := q.put (q.put s2 rPOS 8 (q.get s2 rPOS 8 + feedn)) rNCOMMIT 1 feedn
            let s4 := (deliver s3 q held ts .all).devWrite q.cid (w + 2) (leBytes 4 0)
            if npos = 0 then q.put s4 rSTATE 1 qDECODING else commitJob (q.put s4 rSTATE 1 qDECODING) q npos drl2 0 []
    else if npos = 0 then q.put (quiet s) rSTATE 1 qDECODING
    else commitJob s q npos drl2 (q.get s rK0 4) held

/-- The largest occupancy, and the bucket for n live records and a depth (R362): occ′, drl′, ENTRY. -/
def LoopRec.cap (l : LoopRec) : Nat := (l.buckets.map (·.1)).foldl max 0
def LoopRec.draft (l : LoopRec) (d : Nat) : Nat := ((l.buckets.map (fun b => b.2.1)).filter (fun r => decide (r ≤ d))).foldl max 0
def LoopRec.bucket (l : LoopRec) (n d : Nat) : Nat × Nat × Nat :=
  let drl := l.draft d
  let occ := ((l.buckets.map (·.1)).filter (fun o => decide (n ≤ o))).foldl min l.cap
  (l.buckets.find? (fun b => decide (b.1 = occ) && decide (b.2.1 = drl))).getD (occ, drl, 0)

/-- A record of the loop of kernel `kern`. -/
def State.seqRef (s : State) (kern r : Nat) : SeqRef := { kern := kern, cid := (s.group kern).cid, l := (s.group kern).loop.getD {}, r := r }
def State.recState (s : State) (kern r : Nat) : Nat := (s.seqRef kern r).get s rSTATE 1
/-- A record whose injected unit has still to commit (R388). -/
def feeding (s : State) (q : SeqRef) : Bool :=
  let w := q.get s rWATCH 8
  w ≠ 0 && decide ((s.hubNat q.cid (w + 5) 1).getD 0 ≠ 0)
/-- The live records, in ascending index. -/
def liveRecs (s : State) (kern : Nat) : List Nat := (upTo (s.seqRef kern 0).l.nseq).filter (fun r => liveState (s.recState kern r))

/-- A request other than an admission or a resume is acted on, or cleared (R367, R388). -/
def actRequest (s : State) (q : SeqRef) : State :=
  let st := q.get s rSTATE 1
  let done := fun (s : State) => q.put s rREQ 1 0
  match q.get s rREQ 1 with
  | 0 => s
  | 1 => if st = qRETIRED then s else done s
  | 2 => if st = qHELD ∨ st = qSTOPPED ∨ st = qTRAPPED then q.put (done s) rSTATE 1 qRETIRED else done s
  | 3 => if st = qHELD then s else done s
  | 4 => if st = qDECODING then (if feeding s q then s else q.put (done s) rSTATE 1 qHELD) else done s
  | _ => done s
/-- A held record resumes where there is room (R367). -/
def actResume (s : State) (q : SeqRef) : State :=
  if q.get s rSTATE 1 = qHELD ∧ q.get s rREQ 1 = 3 ∧ (liveRecs s q.kern).length < q.l.cap then q.put (q.put s rREQ 1 0) rSTATE 1 qDECODING else s
/-- A forked record is admitted, or retires without room (R367, R368): what the fork gave it stays, the rest is as at an admission (R380). -/
def admitFork (s : State) (q : SeqRef) : State :=
  if (liveRecs s q.kern).length < q.l.cap then
    let s1 := q.put (q.put (q.put (q.put s rPDONE 4 0) rNCOMMIT 1 0) rSTATUS 1 0) rSTATE 1 qDECODING
    let w := q.get s1 rWATCH 8
    if w = 0 then s1 else (s1.devWrite q.cid (w + 5) (leBytes 2 0)).devWrite q.cid (w + 16) (leBytes 1 0)
  else q.put (q.put s rSTATE 1 qRETIRED) rSTATUS 1 7
/-- An admission that a trapped record's slots defer (R390): of a record that trapped while SPLIT.WPT was set (R102). -/
def deferred (s : State) (q : SeqRef) : Bool :=
  let mine := (recSlots s q).map (·.1)
  (s.ctx q.cid).seqs.any (fun m => m.2.reserved && decide (seqGet s q.cid (m.1 + rSTATE) 1 = qTRAPPED)
    && ((slotList s q.cid (seqGet s q.cid (m.1 + rSLOTS) 8)).elim [] listSlots).any (fun k => mine.contains k.1))
/-- A record with REQ = 1 is admitted (R367, R368, R380). -/
def admitRec (s : State) (q : SeqRef) : State :=
  if q.get s rSTATE 1 ≠ qRETIRED ∨ q.get s rREQ 1 ≠ 1 ∨ q.l.cap ≤ (liveRecs s q.kern).length ∨ deferred s q then s
  else
    let s1 := [rREQ, rACCEPT, rNCOMMIT, rSTATUS].foldl (fun s f => q.put s f 1 0) (q.put s rPDONE 4 0)
    let s2 := q.put (q.window s1 []) rSTATE 1 qADMITTED
    let w := q.get s2 rWATCH 8
    let s3 := if w = 0 then s2 else (s2.devWrite q.cid (w + 2) (leBytes 5 0)).devWrite q.cid (w + 16) (leBytes 1 0)
    q.modMem s3 (fun m => { m with short := 3, owed := [] })

/-- Every record in turn. -/
def eachRec (s : State) (kern : Nat) (rs : List Nat) (f : State → SeqRef → State) : State := rs.foldl (fun s r => f s (s.seqRef kern r)) s
/-- The cores of a group that have not retired. -/
def Group.liveCores (g : Group) : List Nat := g.cores.filter (fun k => !(g.left.contains k))

/-- The loop ends (R376): live records stop, every core ends as END does. -/
def endLoop (s : State) (kern : Nat) : State :=
  let s1 := eachRec s kern (liveRecs s kern) (fun s q =>
    deliver (q.put (q.put s rSTATE 1 qSTOPPED) rSTATUS 1 8) q (heldBytes s q.cid (q.get s rWATCH 8)) [] .all)
  let s2 := s1.modLoop kern (fun l => { l with asleep := false, wakeLine := none })
  (s2.group kern).liveCores.foldl retireCore s2

/-- A core resumes at the bucket's ENTRY (R363, R374): an acquire at `.pkg` on its tiles, its loop levels inactive. -/
def resumeCore (occ drl entry : Nat) (s : State) (k : Nat) : State :=
  let s1 := (upTo 4).foldl (fun s d => acquireAt s (unitOf k d) 4) s
  s1.modCore k (fun c => { clearLevels c with hold := .none, holdQ := [], st := .running, pc := entry, retLvl := none, occ := occ, drl := drl })

/-- The second part of the boundary (R374): admissions, SPECD, the bucket; a loop without a live record sleeps. -/
def openIteration (s : State) (kern : Nat) (forked : List Nat) : State :=
  let all := upTo (s.seqRef kern 0).l.nseq
  let s1 := eachRec (eachRec s kern all actRequest) kern all actResume
  let s2 := eachRec (eachRec s1 kern forked admitFork) kern all admitRec
  let g := s2.group kern
  let x := s2.ctx g.cid
  let s3 := s2.setCtx g.cid { x with depth := x.pend }
  let live := liveRecs s3 kern
  let n := live.length
  let l := g.loop.getD {}
  let line := match translate s3 256 g.cid (l.seqt + 64) 0 with
    | .ok (pa, _) => some (pa / 64)
    | .error _ => none
  if n = 0 then s3.modLoop kern (fun l => { l with asleep := true, wakeLine := line, woken := false })
  else
    let (occ, drl, entry) := l.bucket n x.pend
    let lanes := live ++ List.replicate (256 - n) 65535
    let l1 : LoopRec := { l with occ := occ, drl := drl, depth := x.pend, iter := l.iter + 1, lanes := lanes, jobs := [], seed := x.seed, asleep := false, wakeLine := none }
    let s4 := s3.modLoop kern (fun _ => l1)
    let s5 := s4.devWrite g.cid (l.seqt + 16) (leBytes 8 (l.iter + 1))
    let s6 := s5.devWrite g.cid (l.seqt + 512) (lanes.flatMap (leBytes 2))
    let s7 := s6.devWrite g.cid (l.seqt + 128) (List.replicate 32 0)
    let s8 := eachRec s7 kern all (fun s q => q.put (q.put s rLANE 2 (match (upTo n).find? (fun j => decide (nth 65535 live j = q.r)) with
      | some j => j
      | none => 65535)) rJREP 1 0)
    g.liveCores.foldl (resumeCore ((l.iter + 1) % 2 ^ 32 * 2 ^ 32 + occ * 2 ^ 16 + n) (256 * x.pend + drl) entry) s8

/-- Every core of a loop kernel that has not retired waits at its COMMIT, drained (R374). -/
def allAtCommit (s : State) (kern : Nat) : Bool :=
  let g := s.group kern
  decide (g.st = .running) && !g.liveCores.isEmpty && !s.hub.stalled && !s.hub.fenced
  && g.liveCores.all (fun k => let c := s.core k
    decide (c.group = kern) && decide (c.hold = .boundary) && !c.frozen && nodesIdle s k)
/-- The drains of several cores. -/
def drainAll (s : State) : List Nat → Option State
  | [] => some s
  | k :: ks => match drainCore s k with
    | some s1 => drainAll s1 ks
    | none => none
/-- STOP is acted on (R374, R388): not while a live lane's injected unit has still to commit. -/
def stopNow (s : State) (kern : Nat) : Bool :=
  let q := s.seqRef kern 0
  decide (seqGet s q.cid (q.l.seqt + 24) 1 = 1) && !((liveRecs s kern).any (fun r => feeding s (s.seqRef kern r)))
/-- ITERATION_BOUNDARY (R374). -/
def execIterationBoundary (kern : Nat) (s : State) : Out :=
  let g := s.group kern
  match g.loop with
  | none => .next s
  | some l =>
    if !(allAtCommit s kern) ∨ l.asleep ∨ !(l.jobs.all (fun j => laneReady s g.cid l j.1)) then .next s
    else match drainAll s g.liveCores with
      | none => .next s
      | some s1 =>
        let forked := (upTo l.nseq).filter (fun r => decide (s1.recState kern r = qFORKED))
        let drl2 := l.draft (s1.ctx g.cid).pend
        let s2 := ((upTo 256).zip l.lanes).foldl (fun s p =>
          if p.2 < l.nseq ∧ liveState (s.recState kern p.2) then commitLane s (s.seqRef kern p.2) p.1 drl2 else s) s1
        let s3 := (s2.hub.forkCopies.drop s1.hub.forkCopies.length).foldl (fun s c => takeSlot (takeSlot s (forkXfer c.2.2) c.2.1) (forkXfer c.2.2) c.2.2) s2
        if stopNow s3 kern ∨ (l.maxit ≠ 0 ∧ l.iter + 1 = l.maxit) then .next (endLoop s3 kern)
        else .next (openIteration s3 kern forked)
/-- LOOP_WAKE (R374): a write has reached WAKE, or STOP is 1. -/
def execLoopWake (kern : Nat) (s : State) : Out :=
  let l := (s.group kern).loop.getD {}
  if !l.asleep ∨ !(allAtCommit s kern) then .next s
  else if seqGet s (s.group kern).cid (l.seqt + 24) 1 = 1 then .next (endLoop s kern)
  else if l.woken then .next (openIteration s kern ((upTo l.nseq).filter (fun r => decide (s.recState kern r = qFORKED))))
  else .next s

/-- FORK_COPY_DONE (R269, R277, R389): the oldest launched fork copy whose turn it is completes: the source returns to its state, the
destination is live. -/
def execForkCopyDone (s : State) : Out :=
  match s.hub.forkCopies.find? (fun c => (s.tile (c.2.2 / 64)).mule.contains (forkXfer c.2.2) && mayMoveAll s (forkXfer c.2.2) [c.2.1, c.2.2]) with
  | none => .next s
  | some (kern, a, b) =>
    if s.hub.stalled then .next s
    else
      let x := forkXfer b
      let src := (s.tile (a / 64)).getSlot (a % 64)
      let s1 := movedAll { s with hub := { s.hub with forkCopies := s.hub.forkCopies.erase (kern, a, b) } } x [a, b]
      let s2 := slotRelease s1 (a / 64) x (a % 64) { src with st := src.before }
      let bytes := if src.before = .free ∨ src.before = .spilled then [] else src.bytes
      .next (slotRelease s2 (b / 64) x (b % 64) { (s2.tile (b / 64)).getSlot (b % 64) with st := .live, bytes := bytes })
/-- SEQUENCE_TRAP_POST (R277, R390): the oldest trap whose turn it is: its slots have been spilled, and its record is posted. -/
def execSequenceTrapPost (s : State) : Out :=
  match s.hub.seqTraps.find? (fun t => mayMoveAll s (trapXfer t.1 t.2.1) (t.2.2.2.map (·.1))) with
  | none => .next s
  | some (kern, r, when_, slots) =>
    if s.hub.stalled then .next s else
    let x := trapXfer kern r
    let q := s.seqRef kern r
    let s1 := movedAll { s with hub := { s.hub with seqTraps := s.hub.seqTraps.erase (kern, r, when_, slots) } } x (slots.map (·.1))
    let s2 := slots.foldl (fun s k =>
      let z := (s.tile (k.1 / 64)).getSlot (k.1 % 64)
      slotRelease (ctxWrite s (k.1 / 64 % 4) q.cid k.2 ((upTo 32768).map (fun a => sget 0 z.bytes a))) (k.1 / 64) x (k.1 % 64)
        { z with st := .spilled, image := k.2, bytes := [] }) s1
    let trapq := seqGet s2 q.cid (q.l.seqt + 160) 8
    let n := seqGet s2 q.cid (q.l.seqt + 168) 8
    if trapq = 0 then .next s2
    else
      let s3 := s2.hubWrite q.cid (trapq + 16 * (n % 256)) (leBytes 4 9 ++ leBytes 2 q.l.tag ++ leBytes 2 r ++ leBytes 8 when_)
      let s4 := s3.devWrite q.cid (q.l.seqt + 168) (leBytes 8 (n + 1))
      .next (s4.interrupt q.l.irq)

end Sys2Proof.Machine
end

