-- ==== Sys2Proof/Machine/Sample.lean ====
section
/-! DEFINITION. Sampling (R397 to R400), the Colt instructions (R406), the sampling jobs (R371, R405), and the sequence commands
SMPQ, FLKQ, WPSET, WPCLR and MSKQ (R370, R378, R394, R407). -/
namespace Sys2Proof.Machine

/-- What a parameter block is refused with (R397, R406), or the parameters. -/
def readPar (b : List Byte) : Except Nat SPar :=
  let temp := field b 0 4
  let topk := field b 4 2
  let topp := field b 8 4
  let minp := field b 12 4
  if !((dec32 temp).isZero || (lt32 0 temp && lt32 temp pinf32)) then .error 1
  else if 1024 < topk then .error 2
  else if !(lt32 0 topp) then .error 3
  else if !(le32 0 minp && le32 minp one32) then .error 4
  else if field b 6 2 ≠ 0 ∨ field b 16 48 ≠ 0 then .error 7
  else .ok { temp := temp, topk := topk, topp := topp, minp := minp }

/-- draw (R399). -/
def drawMul : List Nat := [0xBF58476D1CE4E5B9, 0x94D049BB133111EB, 0xE7037ED1A0B428DB, 0xC6BC279692B5CC83]
def draw (seed id q k : Nat) : Nat :=
  let w (x : Nat) : Nat := x % 2 ^ 64
  let h0 := Nat.xor (Nat.xor (Nat.xor (w seed) (w (id * 0xA24BAED4963EE407))) (w (q * 0xD6E8FEB86659FD93))) (w (k * 0x8CB92BA72F3D8DD7))
  drawMul.foldl (fun h m =>
    let h1 := Nat.xor h (h / 2 ^ 31)
    let h2 := w (h1 * m)
    Nat.xor h2 (h2 / 2 ^ 29)) h0 / 2 ^ 40

/-- A candidate: its token, its x and its e (R398). -/
structure Cand where
  tok : Nat
  x : Nat
  e : Nat
  deriving DecidableEq, Repr
/-- Rank order (R398, R233): x descending, a NaN below every number, then the token ascending; candidates come in ascending token order. -/
def candInsert (c : Cand) : List Cand → List Cand
  | [] => [c]
  | d :: ds => if lt32 d.x c.x ∨ (nan32 d.x ∧ !(nan32 c.x)) then c :: d :: ds else d :: candInsert c ds
def candSort (l : List Cand) : List Cand := l.foldl (fun acc c => candInsert c acc) []
/-- The running sums cs of e in rank order (R398). -/
def cumSums : Nat → List Cand → List Nat
  | _, [] => []
  | c, d :: ds => let v := (add32 c d.e).1
    v :: cumSums v ds
/-- The list through the first place where a sum passes a test; all of it if none does. -/
def firstWhere (ok : Nat → Bool) (cs : List Nat) : Option Nat := (upTo cs.length).find? (fun i => ok (nth 0 cs i))
/-- rcp_def (R87). -/
def rcpDef (x : Nat) : Nat :=
  let y0 := (sfSeed {} .rcp x).1
  let y1 := (sfStep {} .rcp x y0).1
  (sfStep {} .rcp x y1).1
/-- sample_row (R398) on FP32 logits, with the 24-bit draw u. -/
def sampleRow (logits : List Nat) (legal : Nat → Bool) (par : SPar) (u : Nat) : Option Nat :=
  let cand := ((upTo logits.length).zip logits).filter (fun p => legal p.1 && !(nan32 p.2) && decide (p.2 ≠ ninf32))
  match cand with
  | [] => none
  | first :: _ =>
    if (dec32 par.temp).isZero then some (cand.foldl (fun b p => if lt32 b.2 p.2 then p else b) first).1
    else
      let rt := rcpDef par.temp
      let xs := cand.map (fun p => (p.1, (mul32 p.2 rt).1))
      let m := xs.foldl (fun m p => if lt32 m p.2 ∨ (nan32 m ∧ !(nan32 p.2)) then p.2 else m) (xs.headD (0, 0)).2
      let es := xs.map (fun p => (⟨p.1, p.2, if m = pinf32 then (if p.2 = pinf32 then one32 else 0) else expDef {} (sub32 p.2 m).1⟩ : Cand))
      let r0 := candSort es
      let r1 := if par.topk = 0 then r0 else r0.take par.topk
      let cs1 := cumSums 0 r1
      let r2 := if lt32 par.topp one32 then
          (let tau := (mul32 par.topp (cs1.getLastD 0)).1
           match firstWhere (fun v => le32 tau v) cs1 with
           | some i => r1.take (i + 1)
           | none => r1)
        else r1
      let r3 := if lt32 0 par.minp then r2.filter (fun c => !(lt32 c.e par.minp)) else r2
      let cs3 := cumSums 0 r3
      let v := (mul32 (fround .fp32 .rne false u (-24)).1 (cs3.getLastD 0)).1
      let pick := match firstWhere (fun x => lt32 v x) cs3 with
        | some i => r3.drop i
        | none => r3.drop (r3.length - 1)
      (pick.head?).map (·.tok)
/-- The logits of a row as FP32 patterns (R398): BF16 widens exactly. -/
def rowLogits (bf16 : Bool) (bs : List Byte) : List Nat :=
  if bf16 then (upTo (bs.length / 2)).map (fun i => (bf2f (field bs (2 * i) 2)).1) else (upTo (bs.length / 4)).map (fun i => field bs (4 * i) 4)
/-- A bit of a bitmap given as bytes. -/
def bitAt (bs : List Byte) (t : Nat) : Bool := bitOf (nth 0#8 bs (t / 8)).toNat (t % 8)

/-- A Colt instruction: `f` answers the machine and what lands in XD, before the next word (R345, R406); a trap faults the job. -/
def coltOp (s : State) (xd : Nat) (f : OpCtx → Nat → Res (State × Nat)) : Out :=
  match s.turn with
  | .colt c =>
    let u := coltUnit c
    match f { s := s, u := u, slot := 1, n := 0, single := true } c with
    | .ok (s1, v) => .next (nextColt (s1.modTile u (fun t => t.setX xd (BitVec.ofNat 64 v))) c)
    | .error .wait => .next s
    | .error (.bank _ _ _) => .next s
    | .error .hold => .next s
    | .error (.trap ca re a) => .next (coltTrap s c ca re (if ca = cILLEGAL then nth 0 s.hub.routine (s.colt c).pc else a) 1)
  | _ => .next s
/-- A memory operand of a Colt (R406): its address's alignment, then every byte of it. -/
def coltRange (c : OpCtx) (va : DWord) (len align kind : Nat) : Res Unit := do
  let _ ← accessCheck c va.toNat 1 align kind
  let _ ← xlateRange c va.toNat len kind
  .ok ()
/-- A refused SAMCFG faults the job, and the Colt takes no further word of it (R405). -/
def refuseCfg (s : State) (c : Nat) : State :=
  match (s.colt c).job with
  | some j => jobFault (s.modColt c (fun r => { r with running := false, job := none })) j
  | none => s

def execSamcfgPar (xd xa : Nat) (s : State) : Out :=
  coltOp s xd (fun o c => do
    let a ← rx o xa
    if a = 0 then .ok (s.modColt c (fun r => { r with par := {} }), 0)
    else
      coltRange o a 64 64 0
      match readPar ((s.hubRead (s.coltCid c) a.toNat 64).getD []) with
      | .ok p => .ok (s.modColt c (fun r => { r with par := p }), 0)
      | .error e => .ok (refuseCfg s c, e))
def execSamcfgVoc (xd xa : Nat) (s : State) : Out :=
  coltOp s xd (fun o c => do
    let a ← rx o xa
    let v := bitsOf a.toNat 20 0
    if v = 0 ∨ 2 ^ 20 < v ∨ a.toNat ≠ v + 2 ^ 32 * bitsOf a.toNat 32 32 then .ok (refuseCfg s c, 5)
    else .ok (s.modColt c (fun r => { r with vocab := v, bf16 := bitOf a.toNat 32 }), 0))
def execSamcfgMask (xd xa : Nat) (s : State) : Out :=
  coltOp s xd (fun o c => do
    let a ← rx o xa
    if a.toNat % 64 ≠ 0 then .ok (refuseCfg s c, 6)
    else
      if a ≠ 0 then coltRange o a (((s.colt c).vocab + 7) / 8) 1 0
      .ok (s.modColt c (fun r => { r with mask := if a = 0 then none else some a.toNat }), 0))
def execSamcfgSeed (xd xa xb : Nat) (s : State) : Out :=
  coltOp s xd (fun o c => do
    let a ← rx o xa
    let b ← rx o xb
    .ok (s.modColt c (fun r => { r with seed := a, id := b }), 0))

/-- SAMPLE (R406): ILLEGAL before SAMCFG.VOC; every byte of the row, and of the bitmap in force, is read. -/
def execSample (xd xa xb k : Nat) (s : State) : Out :=
  coltOp s xd (fun o c => do
    let a ← rx o xa
    let b ← rx o xb
    let r := s.colt c
    check (decide (r.vocab ≠ 0)) cILLEGAL 0
    let len := r.vocab * (if r.bf16 then 2 else 4)
    coltRange o a len 64 0
    let bits : Option (List Byte) ← match r.mask with
      | none => .ok none
      | some m => coltRange o (BitVec.ofNat 64 m) ((r.vocab + 7) / 8) 1 0 >>= fun _ => .ok (s.hubRead (s.coltCid c) m ((r.vocab + 7) / 8))
    let row := rowLogits r.bf16 ((s.hubRead (s.coltCid c) a.toNat len).getD [])
    let legal (t : Nat) : Bool := match bits with
      | none => true
      | some bs => bitAt bs t
    match sampleRow row legal r.par (draw r.seed.toNat r.id.toNat b.toNat k) with
    | some t => .ok (s, t)
    | none => .ok (s, 2 ^ 64 - 1))

/-- The shadow as the engine works on it: at most 16 symbols of its own (R406). -/
def shadowCap : Nat := 16
def Shadow.pda (h : Shadow) : Pda := { auto := h.auto, st := h.state, sp := h.sp, limit := h.limit, stack := h.stack, syms := h.overlay, ok := h.ok }
def Pda.shadow (p : Pda) : Shadow := { auto := p.auto, state := p.st, sp := p.sp, limit := p.limit, stack := p.stack, overlay := p.syms, ok := p.ok }
/-- The legal bitmap of a state goes to x[B], and the count to XD. -/
def maskTo (s : State) (o : OpCtx) (c xb cap : Nat) (p : Pda) : Res (State × Nat) := do
  let b ← rx o xb
  let v := (s.colt c).vocab
  check (decide (v ≠ 0)) cILLEGAL 0
  coltRange o b (maskLines v) 64 1
  let bits := legalTokens s (s.coltCid c) v cap p
  .ok (s.hubWrite (s.coltCid c) b.toNat (maskBytes v bits), (bits.filter id).length)
def execMaskg (xd xa xb : Nat) (s : State) : Out :=
  coltOp s xd (fun o c => do
    let a ← rx o xa
    check (decide ((s.colt c).vocab ≠ 0)) cILLEGAL 0
    coltRange o a 64 1 0
    maskTo s o c xb noCap (readPda s (s.coltCid c) a.toNat))
def execMaskgSh (xd xb : Nat) (s : State) : Out :=
  coltOp s xd (fun o c => maskTo s o c xb shadowCap (s.colt c).shadow.pda)
/-- PDAADV (R406): nothing changes on an illegal token. -/
def execPdaadv (xd xa xb : Nat) (s : State) : Out :=
  coltOp s xd (fun o c => do
    let a ← rx o xa
    let t ← rx o xb
    coltRange o a 64 1 1
    let cid := s.coltCid c
    match (readPda s cid a.toNat).step s cid (s.colt c).vocab noCap t.toNat with
    | none => .ok (s, 1)
    | some p =>
      let _ ← p.syms.mapM (fun y => xlate o (p.stack + y.1) 1)
      .ok (storePda s cid a.toNat p, 0))
def execPdaadvLd (xd xa : Nat) (s : State) : Out :=
  coltOp s xd (fun o c => do
    let a ← rx o xa
    coltRange o a 64 1 0
    .ok (s.modColt c (fun r => { r with shadow := (readPda s (s.coltCid c) a.toNat).shadow }), 0))
def execPdaadvSh (xd xb : Nat) (s : State) : Out :=
  coltOp s xd (fun o c => do
    let t ← rx o xb
    match (s.colt c).shadow.pda.step s (s.coltCid c) (s.colt c).vocab shadowCap t.toNat with
    | none => .ok (s, 1)
    | some p => .ok (s.modColt c (fun r => { r with shadow := p.shadow }), 0))

/-- TOKW (R406): K0, the NOLEGAL report, the release, and READY by an atomic OR. -/
def execTokw (xd xa xb : Nat) (s : State) : Out :=
  coltOp s xd (fun o c => do
    let a ← rx o xa
    let b ← rx o xb
    let cid := s.coltCid c
    coltRange o a 8 1 0
    let r := bitsOf b.toNat 9 0
    if seqGet s cid (a.toNat + 4) 2 ≤ r then .ok (s, 1)
    else
      let rec_ := a.toNat + 1024 + 256 * r
      let lane := bitsOf b.toNat 23 16
      coltRange o (BitVec.ofNat 64 (rec_ + rK0)) 4 1 1
      coltRange o (BitVec.ofNat 64 (rec_ + rJREP)) 1 1 1
      coltRange o (BitVec.ofNat 64 (a.toNat + 128 + lane / 8)) 1 1 1
      let rep := seqGet s cid (rec_ + rJREP) 1
      let s1 := seqPut s cid (rec_ + rK0) 4 (bitsOf b.toNat 27 24)
      let s2 := seqPut s1 cid (rec_ + rJREP) 1 (rep / 2 * 2 + bitsOf b.toNat 28 28)
      .ok (setReady s2 cid { seqt := a.toNat } lane, 0))

/-- The rows of a job that are valid (R405): each row's token, up to the first whose guess prefix is illegal or that has no legal
token; none where a row cannot be read. -/
def jobRows (s : State) (cid : Nat) (q : SeqRef) (j : Job) (par : SPar) (seed id : Nat) : Nat → Nat → Option Pda → Option (List Nat)
  | 0, _, _ => some []
  | n + 1, p, pda =>
    let size := if j.fmt = 1 then 2 else 4
    let rowb := (q.l.vocab * size + 63) / 64 * 64
    match s.hubRead cid (j.logits + p * rowb) (q.l.vocab * size) with
    | none => none
    | some bs =>
      let bits := pda.map (fun d => legalTokens s cid q.l.vocab noCap d)
      let legal (t : Nat) : Bool := match bits with
        | none => true
        | some m => nth false m t
      match sampleRow (rowLogits (decide (j.fmt = 1)) bs) legal par (draw seed id (q.get s rPOS 8 + p) 0) with
      | none => some []
      | some t =>
        let rest := fun (d : Option Pda) => (jobRows s cid q j par seed id n (p + 1) d).map (fun ts => t :: ts)
        match pda with
        | none => rest none
        | some d => if n = 0 then some [t] else match d.step s cid q.l.vocab noCap (q.guess s p) with
          | some d1 => rest (some d1)
          | none => some [t]
/-- K0 (R371, R405): the guesses that the samples match, capped below the valid rows. -/
def matched (s : State) (q : SeqRef) : Nat → List Nat → Nat
  | p, t :: ts => if q.guess s p = t then 1 + matched s q (p + 1) ts else 0
  | _, [] => 0
/-- The firmware's job routine (R371, R405): SAMPLE, K0, the NOLEGAL report, READY; a refused parameter block or an unreadable row
faults the job. -/
def runJob (s : State) (j : Job) : State :=
  let q := s.seqRef j.group (nth 65535 ((s.group j.group).loop.getD {}).lanes j.lane)
  let sp := q.get s rSPARAM 8
  let par : Option SPar := if sp = 0 then some {} else match s.hubRead q.cid sp 64 with
    | none => none
    | some b => if sp % 64 ≠ 0 then none else (readPar b).toOption
  let own := bitOf (q.get s rSFLAGS 1) 0
  let seed := if own then q.get s rSEED 8 else q.l.seed.toNat
  let gram := q.get s rGRAM 8
  match par.bind (fun p => jobRows s q.cid q j p seed (q.get s rID 8) j.npos 0 (if gram = 0 then none else some (readPda s q.cid gram))) with
  | none => jobFault s j
  | some ts =>
    let s1 := (upTo j.npos).foldl (fun s p => q.post s (rSAMPLE + 4 * p) 4 (nth 0xFFFFFFFF ts p)) s
    let k0 := min (matched s1 q 0 (ts.take (j.npos - 1))) (ts.length - 1)
    let rep := q.get s1 rJREP 1
    let s2 := q.post (q.post s1 rK0 4 k0) rJREP 1 (rep / 2 * 2 + (if ts.isEmpty then 1 else 0))
    setReady s2 q.cid q.l j.lane
/-- A Colt starts the routine in its store on a job (R405): x1 to x8, every other register 0; its work area is an open address. -/
def startJob (s : State) (c : Nat) (j : Job) : State :=
  let l := (s.group j.group).loop.getD {}
  let size := if j.fmt = 1 then 2 else 4
  let xs := [l.seqt, nth 65535 l.lanes j.lane, j.lane, j.logits, j.npos + 256 * j.fmt, (l.vocab * size + 63) / 64 * 64, l.vocab, Config.freeValue s.freeCount]
  let t : Tile := (upTo 8).foldl (fun t i => t.setX (i + 1) (BitVec.ofNat 64 (nth 0 xs i))) {}
  let r : ColtRec := { cid := (s.group j.group).cid, job := some j, running := true, pc := 0 }
  ({ s with freeCount := s.freeCount + 1 }.setTile (coltUnit c) t).setColt c r
/-- SAMPLING_JOB (R371, R405): the lowest free Colt takes the oldest job: it runs the routine in its store, or, with none loaded here,
the whole job at once as the firmware's routine does it (log 43). -/
def execSamplingJob (colt : Nat) (s : State) : Out :=
  match s.hub.jobs with
  | [] => .next s
  | j :: rest =>
    let free := (upTo 16).find? (fun c => (s.colt c).job.isNone && !(s.colt c).running)
    if free ≠ some colt ∨ s.hub.stalled ∨ s.hub.fenced then .next s
    else
      let s1 := { s with hub := { s.hub with jobs := rest } }
      if s.hub.routine.isEmpty then .next (runJob s1 j) else .next (startJob s1 colt j)

/-- The LANE of a sequence command, below 256 (R370, R378, R394, R407). -/
def dLANE (d : List Byte) : Nat := dfield d 16 2
/-- SMPQ at issue (R370). -/
def opSmpq (i : Instr) (node xa : Nat) (c : OpCtx) : Res (List Post) := do
  let (d, da) ← openDesc c node xa
  let l ← loopHere c
  let npos := dfield d 18 1
  let fmt := dfield d 19 1
  let logits := dfield d 24 8
  check (headerOk d false && decide (dLANE d ≤ 255) && decide (fmt ≤ 1) && decide (1 ≤ npos) && decide (npos ≤ l.drl + 1)) cILLEGAL 0
  check (logits % 64 = 0) cMISALIGN logits
  let size := if fmt = 1 then 2 else 4
  let rowb := (l.vocab * size + 63) / 64 * 64
  let xl ← (upTo npos).mapM (fun p => xlateRange c (logits + p * rowb) (l.vocab * size) 0)
  banksCover (dBANKS d) (da + 20) 4
  .ok (postNode node { instr := i, desc := d, xlate := xl.flatten, dpos := da, cid := c.s.cidOf c.u } ++ leasePosts c 0 xl.flatten)
/-- FLKQ at issue (R378). -/
def opFlkq (i : Instr) (node xa : Nat) (c : OpCtx) : Res (List Post) := do
  let (d, da) ← openDesc c node xa
  let _ ← loopHere c
  let out := dfield d 20 4
  check (headerOk d false && decide (dLANE d ≤ 255)) cILLEGAL 0
  if out ≠ 0xFFFFFFFF then
    check (out % 4 = 0) cMISALIGN out
    spadRange out 36
    banksCover (dBANKS d) out 36
  .ok (postNode node { instr := i, desc := d, dpos := da, cid := c.s.cidOf c.u })
/-- WPSET and WPCLR at issue (R394). -/
def opWpset (i : Instr) (node xa : Nat) (c : OpCtx) : Res (List Post) := do
  let (d, da) ← openDesc c node xa
  let _ ← loopHere c
  let src := dfield d 20 4
  check (headerOk d false && decide (dLANE d ≤ 255) && decide (dfield d 18 1 ≤ 15) && dfield d 19 1 = 0 && dfield d 24 4 = 0) cILLEGAL 0
  check (src % 16 = 0) cMISALIGN src
  spadRange src 128
  banksCover (dBANKS d) src 128
  banksCover (dBANKS d) (da + 28) 4
  .ok (postNode node { instr := i, desc := d, dpos := da, cid := c.s.cidOf c.u })
def opWpclr (i : Instr) (node xa : Nat) (c : OpCtx) : Res (List Post) := do
  let (d, da) ← openDesc c node xa
  let _ ← loopHere c
  check (headerOk d false && decide (dLANE d ≤ 255) && dfield d 20 8 = 0) cILLEGAL 0
  banksCover (dBANKS d) (da + 28) 4
  .ok (postNode node { instr := i, desc := d, dpos := da, cid := c.s.cidOf c.u })
/-- MSKQ at issue (R407). -/
def opMskq (i : Instr) (node xa : Nat) (c : OpCtx) : Res (List Post) := do
  let (d, da) ← openDesc c node xa
  let l ← loopHere c
  let n := dfield d 18 1
  let spad := bitOf (dfield d 19 1) 0
  let dest := dfield d 24 8
  let len := n * maskLines l.vocab
  check (headerOk d false && decide (dLANE d ≤ 255) && decide (1 ≤ n) && decide (n ≤ l.drl + 1) && decide (dfield d 19 1 ≤ 1)) cILLEGAL 0
  check (dest % 64 = 0) cMISALIGN dest
  if spad then
    spadRange dest len
    banksCover (dBANKS d) dest len
  let xl : List (Nat × Nat) ← if spad then .ok [] else xlateRange c dest len 1
  banksCover (dBANKS d) (da + 20) 4
  .ok (postNode node { instr := i, desc := d, xlate := xl, dpos := da, cid := c.s.cidOf c.u } ++ leasePosts c 1 xl)

def execSmpq (node xa : Nat) (s : State) : Out := issueTiles s 6 (opSmpq (.smpq node xa) node xa)
def execFlkq (node xa fn : Nat) (s : State) : Out := issueTiles s 6 (opFlkq (.flkq node xa fn) node xa)
def execWpset (node xa : Nat) (s : State) : Out := issueTiles s 6 (opWpset (.wpset node xa) node xa)
def execWpclr (node xa : Nat) (s : State) : Out := issueTiles s 6 (opWpclr (.wpclr node xa) node xa)
def execMskq (node xa : Nat) (s : State) : Out := issueTiles s 6 (opMskq (.mskq node xa) node xa)

/-- The loop and the record that a running sequence command of a unit acts on: none for an idle lane. -/
def laneOf (s : State) (u : Nat) (cmd : NodeCmd) : Option SeqRef :=
  let kern := (s.core (u / 4)).group
  (laneRec ((s.group kern).loop.getD {}) (dLANE cmd.desc)).map (s.seqRef kern)
/-- SMPQ runs (R370, R371); none while the sampling queue is full: the node stays running. -/
def smpqRun (s : State) (u : Nat) (cmd : NodeCmd) : Option State :=
  let kern := (s.core (u / 4)).group
  let l := (s.group kern).loop.getD {}
  let lane := dLANE cmd.desc
  match laneOf s u cmd with
  | none => some (setReady (putStatus s u cmd 20 1) cmd.cid l lane)
  | some _ =>
    if sget 0 l.jobs lane ≠ 0 then some (putStatus s u cmd 20 2)
    else if 1024 ≤ s.hub.jobs.length then none
    else
      let npos := dfield cmd.desc 18 1
      let s1 := s.modLoop kern (fun l => { l with jobs := sset 0 l.jobs lane npos })
      let j : Job := { group := kern, lane := lane, npos := npos, fmt := dfield cmd.desc 19 1, logits := dfield cmd.desc 24 8 }
      some (putStatus { s1 with hub := { s1.hub with jobs := s1.hub.jobs ++ [j] } } u cmd 20 0)
/-- FLKQ runs (R378). -/
def flkqRun (s : State) (u : Nat) (cmd : NodeCmd) (seed : Bool) : State :=
  let out := dfield cmd.desc 20 4
  let toks : List Nat := match laneOf s u cmd with
    | none => []
    | some q =>
      let h := q.hist s
      let e := sget {} (s.ctx q.cid).flock (flockIndex h)
      if e.tag = h then e.toks else []
  let s1 := if out = 0xFFFFFFFF then s
    else s.modTile u (fun t => t.putSpad out (leBytes 4 toks.length ++ (upTo 8).flatMap (fun i => leBytes 4 (nth 0xFFFFFFFF toks i))))
  match laneOf s u cmd with
  | none => s1
  | some q =>
    if !seed then s1
    else
      let from_ := q.get s rGFROM 1
      (upTo (min toks.length (q.l.drl - from_))).foldl (fun s i => q.post s (rGUESS + 4 * (from_ + i)) 4 (nth 0 toks i)) s1
/-- WPSET and WPCLR run (R394). -/
def wpsetRun (s : State) (u : Nat) (cmd : NodeCmd) : State :=
  match laneOf s u cmd with
  | none => putStatus s u cmd 28 1
  | some q =>
    let w := q.get s rWATCH 8
    let img := (s.tile u).spadBytes (dfield cmd.desc 20 4) 128
    let i := dfield cmd.desc 18 1
    if w = 0 then putStatus s u cmd 28 3
    else if !(weValid q.l.vocab q.l.nseq img) then putStatus s u cmd 28 2
    else
      let s1 := s.hubWrite q.cid (entryAt w i) (setNth 0#8 img 6)
      putStatus (s1.hubWrite q.cid w (leBytes 2 (Nat.lor ((s1.hubNat q.cid w 2).getD 0) (2 ^ i)))) u cmd 28 0
def wpclrRun (s : State) (u : Nat) (cmd : NodeCmd) : State :=
  match laneOf s u cmd with
  | none => putStatus s u cmd 28 1
  | some q =>
    let w := q.get s rWATCH 8
    let armed := (s.hubNat q.cid w 2).getD 0
    if w = 0 then putStatus s u cmd 28 3
    else putStatus (s.hubWrite q.cid w (leBytes 2 (armed - Nat.land armed (dfield cmd.desc 18 2)))) u cmd 28 0
/-- MSKQ runs (R407). -/
def mskqRun (s : State) (u : Nat) (cmd : NodeCmd) : State :=
  match laneOf s u cmd with
  | none => putStatus s u cmd 20 1
  | some q =>
    let gram := q.get s rGRAM 8
    if gram = 0 then putStatus s u cmd 20 1
    else
      let p0 := readPda s q.cid gram
      let states := (upTo (dfield cmd.desc 18 1)).map (fun p => p0.through s q.cid q.l.vocab ((upTo p).map (q.guess s)))
      let lines := maskLines q.l.vocab
      let dest := dfield cmd.desc 24 8
      let s1 := ((upTo states.length).zip states).foldl (fun t p =>
        let bits := match p.2 with
          | some d => maskBytes q.l.vocab (legalTokens s q.cid q.l.vocab noCap d)
          | none => List.replicate lines 0
        if bitOf (dfield cmd.desc 19 1) 0 then t.modTile u (fun x => x.putSpad (dest + p.1 * lines) bits)
        else t.storeHeld u cmd.xlate (dest + p.1 * lines) bits) s
      putStatus s1 u cmd 20 (if states.any (·.isNone) then 2 else 0)

end Sys2Proof.Machine
end

