-- ==== Sys2Proof/Machine/Link.lean ====
section
/-! DEFINITION. The link (R410 to R421, R427): remote loads and stores, the link queue and its reserved slots, serving and
completing requests, COLL, replays and ports. -/
namespace Sys2Proof.Machine

/-- The devices in this device's pod, and the pods of the system (R427). -/
def State.podDevices (s : State) : Nat := s.hub.podsize % 1024
def State.pods (s : State) : Nat := max 1 (bitsOf s.hub.podsize 20 16)
/-- Requests that wait in the link queue (R414); a request leaves it when it takes its slot. -/
def queued (s : State) : Nat := (s.hub.reqs.filter (fun r => !r.sent)).length
/-- A result that will enter the link queue when it lands. -/
def Entry.queues (e : Entry) : Bool :=
  match e.eff with
  | .rldPost _ => true
  | .rstPost _ _ => true
  | .xpost _ c => (match c.instr with
    | .coll _ _ _ _ _ => true
    | _ => false)
  | _ => false
/-- The queue has no place for what is in it, what is issued and not yet in it, and the word that issues, one entry for each of its dies
(R414). -/
def linkFull (c : OpCtx) : Bool :=
  let coming := (c.s.cores.map (fun p => ((p.2.inflight ++ (match p.2.issue with
    | some i => i.staged
    | none => [])).filter Entry.queues).length)).foldl (· + ·) 0
  let dies := match c.core.issue with
    | some i => (i.dies 6).length
    | none => 4
  decide (4096 < queued c.s + coming + dies)

/-- remote_check (R417): the remote address in a register. -/
def remoteCheck (c : OpCtx) (xa : Nat) : Res DWord := do
  let v ← rx c xa
  if c.s.podDevices ≤ bitsOf v.toNat 61 53 then raiseR cACCESS 6 v.toNat
  else if bitsOf v.toNat 52 0 % remoteSize v.toNat ≠ 0 then raise cMISALIGN v.toNat
  else .ok v
/-- RLD (R417): the destination, a walker push with its address, and the request. -/
def opRld (d xa : Nat) (c : OpCtx) : Res (List Post) := do
  let ra ← remoteCheck c xa
  if linkFull c then stall
  else
    let tag := Tag.ofCode (c.t.ldt + 1)
    let ps ← dstPosts c d 64 { tag := tag } allOnes 0 true
    let push : Nat × Bool × Nat × Bool := ps.foldl (fun x p => match p.eff with
      | .spad cells => (cells.length, false, (cells.headD (0, 0)).1, false)
      | .mem cells nc => (cells.length, true, (cells.headD (0, 0)).1, nc)
      | _ => x) (0, false, 0, false)
    let vg := ps.flatMap (fun p => p.vg)
    let rest := ps.filter (fun p => decide (p.lat = 0))
    let main : Post := { lat := 64, eff := .remote d 0 tag push.1 push.2.1 push.2.2.1 push.2.2.2, inter := true, pend := true, vg := vg }
    .ok ([main, { lat := 0, eff := .rldPost ra }] ++ rest)
def execRld (d xa : Nat) (s : State) : Out := issueTiles s 6 (opRld d xa)
/-- RST (R417): the bytes are taken at issue, the request is queued at n + 1. -/
def opRst (a xa : Nat) (c : OpCtx) : Res (List Post) := do
  let ra ← remoteCheck c xa
  if linkFull c then stall
  else
    let sa ← readNonEmpty c a
    let bytes := (upTo (remoteSize ra.toNat)).map (fun j => BitVec.ofNat 8 (sa.v.lane (j / 4) / 256 ^ (j % 4)))
    .ok ({ lat := 1, eff := .rstPost ra bytes } :: sa.posts)
def execRst (a xa : Nat) (s : State) : Out := issueTiles s 6 (opRst a xa)

/-- COLL at issue (R420, R421): the source shape, the peer, the destination. -/
def opColl (i : Instr) (node sh sw xa : Nat) (c : OpCtx) : Res (List Post) := do
  let (d, da) ← openDesc c node xa
  if linkFull c then stall
  let m := shapeAfter c.t (8 + sh) (8 + sh) sw
  let dst := dfield d 16 8
  let peer := dfield d 24 2
  let spad := sharePieces m c.die
  check (headerOk d false && decide (dst < 2 ^ 53) && decide (peer < 2 ^ 13) && decide (dfield d 26 1 ≤ 1) && dfield d 27 5 = 0) cILLEGAL 0
  check (decide (peer / 512 < c.s.pods) && decide (peer % 512 < c.s.podDevices)) cILLEGAL 0
  check (decide ((sf m 8).toNat ≤ 2) && sf m 2 = 1 && sf m 3 = 1 && sf m 4 = 1 && tensorOk m) cILLEGAL 0
  check (dst % 64 = 0) cMISALIGN dst
  let _ ← tensorCheck c m true 0
  piecesBanks (dBANKS d) spad
  .ok (swapPosts (8 + sh) sw ++ postNode node { instr := i, desc := d, shA := m, dpos := da, cid := c.s.cidOf c.u })
def execColl (node sh sw xa fn : Nat) (s : State) : Out := issueTiles s 6 (opColl (.coll node sh sw xa fn) node sh sw xa)
/-- The runs of a share in pieces that one message can carry, 65,536 bytes of payload at most (R410): message by message. -/
def collPieces (runs : List (Nat × Nat)) : List (List (Nat × Nat)) :=
  let cut := runs.flatMap (fun r => (upTo ((r.2 + 65535) / 65536)).map (fun i => (r.1 + 65536 * i, min 65536 (r.2 - 65536 * i))))
  let all := cut.foldl (fun (a : List (List (Nat × Nat)) × List (Nat × Nat) × Nat) r =>
    if a.2.2 + r.2 ≤ 65536 then (a.1, a.2.1 ++ [r], a.2.2 + r.2) else (a.1 ++ [a.2.1], [r], r.2)) ([], [], 0)
  all.1 ++ [all.2.1]
/-- The requests of a running COLL of a unit (R420, R421): the bytes of its die's share, with their places, and the counter with the last
of them (log 109). -/
def collReqs (s : State) (u n : Nat) (cmd : NodeCmd) (fn : Nat) : List Req :=
  let rows := shareRows cmd.shA (u % 4)
  let runs := if rows.isEmpty then [] else rowPieces cmd.shA (u % 4)
  let base := (sf cmd.shA 0).toNat
  let ps := collPieces runs
  (ps.zip (upTo ps.length)).map (fun p =>
    { kind := 5, unit := u, kern := (s.core (u / 4)).group, cid := cmd.cid, target := dfield cmd.desc 24 2, va := dfield cmd.desc 16 8,
      size := p.1.foldl (fun n r => n + r.2) 0, data := p.1.flatMap (fun r => (s.tile u).spadBytes (base + r.1) r.2), runs := p.1,
      fn := fn, fmt := (sf cmd.shA 8).toNat, cnt := bitOf (dfield cmd.desc 26 1) 0 && decide (p.2 + 1 = ps.length), node := n })

/-- A request of the COLL of a node. -/
def Req.ofNode (r : Req) (u n : Nat) : Bool := decide (r.kind = 5) && decide (r.unit = u) && decide (r.node = n)
/-- A queued request may take one of the eight slots at its target (R413). -/
def grantable (s : State) (r : Req) : Bool := !r.sent && r.ready && s.slotFor r.target (reqChannel r.kind)
/-- A message leaves by its port (R427); one to a fenced destination is lost. -/
def State.sendMsg (s : State) (m : Msg) : State :=
  if m.dest = s.hub.selfid then { s with hub := { s.hub with sentMsgs := s.hub.sentMsgs ++ [m] } }
  else match s.outPort m.dest with
    | some p => ({ s with hub := { s.hub with sentMsgs := s.hub.sentMsgs ++ [{ m with port := p }] } }).portUsed p
    | none => s
/-- A message in transit through this device goes on by this device's own entry for its destination (R427). -/
def State.transit (s : State) (m : Msg) : State := if m.dest = s.hub.selfid ∨ s.hub.fenced then s else s.sendMsg m
/-- A reply shows that what left by the port of its request has arrived: a run of failed replays ends (R411, log 104). -/
def portWorks (s : State) (dest : Nat) : State :=
  match s.outPort dest with
  | some p => s.portUsed p
  | none => s
/-- An RLD's result is there (R417): the vector, and the push of a walker destination. -/
def remoteEntries (e : Entry) (req : Nat) (data : Option (List Byte)) : List Entry :=
  match e.eff with
  | .remote d n tag plen toMem addr nc =>
    if n ≠ req + 1 then [e]
    else
      let bs := data.getD []
      let v : Vec := if data.isSome then vecOfBytes tag bs else {}
      let main := { e with eff := .vec d v allOnes, pend := false }
      if plen = 0 then [main]
      else
        let cells := cellsAt addr ((upTo plen).map (nth 0#8 bs))
        [main, { e with eff := if toMem then .mem cells nc else .spad cells, pend := false }]
  | _ => [e]
/-- A request completes (R417, R421): with data, with an acknowledgement, or as an error; its slot frees. What comes for a
core that has stopped joins the state it stands on (R352). -/
def completeReq (s : State) (r : Req) (data : Option (List Byte)) : State :=
  let s1 := { s with hub := { s.hub with reqs := s.hub.reqs.filter (fun x => decide (x.reqNo ≠ r.reqNo)) } }
  if r.orphan then settleDestroy s1 r.cid
  else if r.kind = 1 then rebase (s1.modCore (r.unit / 4) (fun c => { c with inflight := c.inflight.flatMap (fun e => remoteEntries e r.reqNo data) })) (r.unit / 4)
  else s1
/-- What comes for a request: it completes, or in a package-wide stall is held to the resume, in arrival order (R13). -/
def arriveReq (s : State) (r : Req) (data : Option (List Byte)) : State :=
  if s.hub.stalled then { s with hub := { s.hub with heldReplies := s.hub.heldReplies ++ [(r.reqNo, data)] } } else completeReq s r data
/-- What the stall has held is delivered (R13). -/
def deliverHeld (s : State) : State :=
  s.hub.heldReplies.foldl (fun s h => match s.hub.reqs.find? (fun r => decide (r.reqNo = h.1)) with
    | some r => completeReq s r h.2
    | none => s) { s with hub := { s.hub with heldReplies := [] } }
/-- A request that is sent and that nothing has come for yet. -/
def awaited (s : State) (req : Nat) : Option Req :=
  s.hub.reqs.find? (fun r => r.sent && decide (r.reqNo = req) && !(s.hub.heldReplies.any (fun h => decide (h.1 = req))))
/-- A request to a fenced device (R415); this device reaches itself through its own hub. -/
def noRoute (s : State) (r : Req) : Bool := !r.sent && r.ready && decide (r.target ≠ s.hub.selfid) && s.destFenced r.target
/-- The request message of a queued request (R410). -/
def Req.msg (r : Req) (selfid : Nat) : Msg :=
  { dest := r.target, src := selfid, vc := reqChannel r.kind, kind := r.kind, tag := r.reqNo % 2 ^ 32, data := r.data, cid := r.cid, va := r.va,
    size := r.size, fn := r.fn, fmt := r.fmt, cnt := r.cnt, runs := r.runs }
/-- LINK_QUEUE_GRANT (R413 to R415): a request to a fenced device completes as an error at once; the first queued request that a slot is
free for is sent; then the pod-barrier messages that wait for a slot. -/
def execLinkQueueGrant (s : State) : Out :=
  match s.hub.reqs.find? (noRoute s) with
  | some r => .next (arriveReq { s with hub := { s.hub with reqs := s.hub.reqs.map (fun x => if x.reqNo = r.reqNo then { x with sent := true } else x) } } r none)
  | none => match s.hub.reqs.find? (grantable s) with
    | none => match s.hub.podWaits with
      | m :: rest => if s.slotFor m.dest 2 then .next ({ s with hub := { s.hub with podWaits := rest } }.podOut m) else .next s
      | [] => .next s
    | some r =>
      let s1 := { s with hub := { s.hub with reqs := s.hub.reqs.map (fun x => if x.reqNo = r.reqNo then { x with sent := true, sentAt := s.ptime } else x) } }
      if r.target = s.hub.selfid then .next s1 else .next (s1.sendMsg (r.msg s.hub.selfid))

/-- The peer context of a request for context `cid` (R416, R428). -/
def peerContext (s : State) (cid : Nat) : Bool :=
  bitOf s.hub.jobctx 63 && decide (bitsOf s.hub.jobctx 41 32 = cid) && decide ((s.ctx cid).st ≠ .absent) && decide ((s.ctx cid).st ≠ .destroyed)
/-- A target-side failure (R416): a record with DIE 0xFF to the host. Without a peer context REASON is open (log 44). -/
def peerFault (s : State) (cid va kind : Nat) (f : WalkFault) : State :=
  if peerContext s cid then postFault s (faultRecord va kind f.reason f.level 255 0 0 0 s.ptime)
  else postFault s.fresh (faultRecord va kind (Config.freeValue s.freeCount) 3 255 0 0 0 s.ptime)
/-- The first byte of a peer's range that cannot be accessed, with its fault (R416): kind 0 read, 1 write, 2 read-write. -/
def peerCheck (s : State) (cid va len kind : Nat) : Option (Nat × WalkFault) :=
  if !(peerContext s cid) then some (va, ⟨cACCESS, 0, 3⟩)
  else (granuleBases va len).findSome? (fun a => match translate s 256 cid (max a va) kind with
    | .ok _ => none
    | .error f => some (max a va, f))
/-- An RLD or RST is performed at the target (R416, R417): its reply. -/
def serveRemote (s : State) (kind cid va size : Nat) (data : List Byte) : State × Option (List Byte) :=
  match peerCheck s cid va size (if kind = 1 then 0 else 1) with
  | some (a, f) => (peerFault s cid a (if kind = 1 then 0 else 1) f, none)
  | none => if kind = 1 then (s, some ((s.hubRead cid va size).getD [])) else (s.hubWrite cid va data, some [])
/-- A COLL is performed at the peer (R421): elements in ascending order, then the counter through the atomic unit. -/
def serveColl (s : State) (cid va fn fmt : Nat) (cnt : Bool) (runs : List (Nat × Nat)) (data : List Byte) : State × Bool :=
  let es := elemBits fmt / 8
  let kind := if fn = 0 then 1 else 2
  let bad := (runs.findSome? (fun r => peerCheck s cid (va + r.1) r.2 kind)).or (if cnt then peerCheck s cid (va - 64) 8 2 else peerCheck s cid va 0 0)
  match bad with
  | some (a, f) => (peerFault s cid a kind f, false)
  | none =>
    let op := if fn = 1 then 0 else if fn = 2 then 2 else 1
    let (s1, _) := runs.foldl (fun (acc : State × List Byte) r =>
      let part := acc.2.take r.2
      let t := (upTo (r.2 / es)).foldl (fun t i =>
        let a := va + r.1 + es * i
        let src := leNat ((part.drop (es * i)).take es)
        let new := if fn = 0 then src else (accumOp fmt op ((t.hubNat cid a es).getD 0) src).1
        t.hubWrite cid a (leBytes es new)) acc.1
      (t, acc.2.drop r.2)) (s, data)
    (if cnt then s1.atomPut cid (va - 64) 8 (((s1.hubNat cid (va - 64) 8).getD 0 + 1) % 2 ^ 64) else s1, true)

/-- This device's own requests to itself that its hub has not performed yet, in arrival order (R416). -/
def ownPending (s : State) (coll : Bool) : Option Req :=
  s.hub.reqs.find? (fun r => r.sent && decide (r.target = s.hub.selfid) && decide (decide (r.kind = 5) = coll)
    && !(s.hub.sentMsgs.any (fun m => decide (m.dest = s.hub.selfid) && decide (m.tag = r.reqNo % 2 ^ 32))))
/-- Another device of this pod (R413). -/
def podPeer (s : State) (src : Nat) : Bool := decide (src ≠ s.hub.selfid) && decide (src / 512 = s.hub.selfid / 512) && decide (src % 512 < s.podDevices)
/-- REMOTE_REQUEST_SERVE (R413, R416, R417): an RLD or RST of device `src`; of this device itself, its oldest own request. What arrives in a
package-wide stall waits in the port's buffer and is served after the resume (R13). -/
def execRemoteRequestServe (src kind tag va size cid data : Nat) (s : State) : Out :=
  if s.hub.fenced ∨ s.hub.stalled then .next s
  else
    let reply := fun (kind tag : Nat) (r : State × Option (List Byte)) => r.1.sendMsg
      { dest := src, src := s.hub.selfid, vc := 1, kind := if r.2.isNone then 6 else if kind = 1 then 4 else 3, tag := tag % 2 ^ 32, data := r.2.getD [] }
    if src = s.hub.selfid then match ownPending s false with
      | some r => .next (reply r.kind r.reqNo (serveRemote s r.kind r.cid r.va r.size r.data))
      | none => .next s
    else if !(podPeer s src) ∨ (kind ≠ 1 ∧ kind ≠ 2) ∨ !([64, 128, 256, 512].contains size) ∨ va % size ≠ 0 then .next s
    else .next (reply kind tag (serveRemote s kind cid va size (leBytes size data)))
/-- The places of a share's bytes past DST (R201, R421): one run from `off` on, or, for an interleaved split, every fourth element. -/
def shareRuns (fmt off inter size : Nat) : List (Nat × Nat) :=
  let es := elemBits fmt / 8
  if inter = 1 then (upTo (size / es)).map (fun j => (off + 4 * es * j, es)) else [(off, size)]
/-- COLL_MESSAGE (R420, R421): a COLL of device `src`, in one run or interleaved; of this device itself, its oldest own one. In a stall it
waits (R13). The bits of `at_` above DST say where the share lies: bit 56 that it is interleaved, the others how far past DST it starts. -/
def execCollMessage (src tag fn fmt cnt at_ cid size data : Nat) (s : State) : Out :=
  let dst := at_ % 2 ^ 56
  if s.hub.fenced ∨ s.hub.stalled then .next s
  else
    let reply := fun (tag : Nat) (r : State × Bool) => r.1.sendMsg
      { dest := src, src := s.hub.selfid, vc := 2, kind := if r.2 then 3 else 6, tag := tag % 2 ^ 32 }
    if src = s.hub.selfid then match ownPending s true with
      | some r => .next (reply r.reqNo (serveColl s r.cid r.va r.fn r.fmt r.cnt r.runs r.data))
      | none => .next s
    else if s.pods ≤ src / 512 ∨ 3 < fn ∨ 2 < fmt ∨ dst % 64 ≠ 0 ∨ 2 ^ 53 ≤ dst ∨ 65536 < size then .next s
    else .next (reply tag (serveColl s cid dst fn fmt (decide (cnt = 1)) (shareRuns fmt (at_ / 2 ^ 57) (at_ / 2 ^ 56 % 2) size) (leBytes size data)))

/-- REMOTE_REPLY (R417): a reply completes its request; that of this device's own hub is the message it sent. -/
def execRemoteReply (req okay data : Nat) (s : State) : Out :=
  match awaited s req with
  | none => .next s
  | some r =>
    if r.target = s.hub.selfid then
      let mine := fun (m : Msg) => decide (m.dest = s.hub.selfid) && decide (m.tag = req % 2 ^ 32)
      match s.hub.sentMsgs.find? mine with
      | none => .next s
      | some m =>
        let s1 := { s with hub := { s.hub with sentMsgs := s.hub.sentMsgs.filter (fun x => !(mine x)) } }
        .next (arriveReq s1 r (if m.kind = 6 then none else some m.data))
    else .next (arriveReq (portWorks s r.target) r (if okay = 1 then some (leBytes r.size data) else none))
/-- REMOTE_TIMEOUT (R415). -/
def execRemoteTimeout (req : Nat) (s : State) : Out :=
  match awaited s req with
  | none => .next s
  | some r => if r.sentAt + 1000 * s.hub.lto ≤ s.ptime then .next (arriveReq s r none) else .next s

/-- FLIT_REPLAY (R411): a port that fails 16 replays in a row is taken down. -/
def execFlitReplay (port : Nat) (s : State) : Out :=
  let p := sget {} s.hub.ports port
  if 16 ≤ port ∨ !(portIsUp p) then .next s
  else
    let p1 : Port := { p with fails := p.fails + 1, down := decide (16 ≤ p.fails + 1), up := decide (p.fails + 1 < 16) }
    .next { s with hub := { s.hub with ports := sset {} s.hub.ports port p1 } }
/-- PORT_UP (R427): an enabled port that has not been taken down has trained with its peer. -/
def execPortUp (port : Nat) (s : State) : Out :=
  let p := sget {} s.hub.ports port
  if 16 ≤ port ∨ !p.en ∨ p.down then .next s
  else .next { s with hub := { s.hub with ports := sset {} s.hub.ports port { p with up := true } } }

end Sys2Proof.Machine
end

