-- ==== Sys2Proof/Machine/NodeRun.lean ====
section
/-! DEFINITION. A running engine node carries out its command and completes (R277, R278, R281, R282, R289, R314, R420). -/
namespace Sys2Proof.Machine

/-- What a command does between its acquire and its release: the state and the flags, or none while it must go on running
(R282, R371, R414, R421); a Mule command ends with its own event. -/
def runCmd (s : State) (u n : Nat) (cmd : NodeCmd) : Option (State × Flags) :=
  match cmd.instr with
  | .copy _ _ _ _ => some (copyRest s u cmd, 0)
  | .gath _ _ _ _ => some (gathScatRun s u cmd true, 0)
  | .scat _ _ _ _ => some (gathScatRun s u cmd false, 0)
  | .scacc _ _ _ _ fn => some (scaccRun s u cmd fn)
  | .amo _ _ fn => some (amoRun s u cmd fn)
  | .pref _ _ fn => some (prefRun s u cmd (decide (fn = 1)), 0)
  | .rgwb _ _ => some (rgwbRun s cmd, 0)
  | .rginv _ _ => some (rginvRun s u cmd, 0)
  | .zspl _ _ => none
  | .zsplCopy _ _ => none
  | .zfil _ _ => none
  | .smpq _ _ => (smpqRun s u cmd).map (fun s => (s, 0))
  | .flkq _ _ fn => some (flkqRun s u cmd (decide (fn = 1)), 0)
  | .wpset _ _ => some (wpsetRun s u cmd, 0)
  | .wpclr _ _ => some (wpclrRun s u cmd, 0)
  | .mskq _ _ => some (mskqRun s u cmd, 0)
  | .coll _ _ _ _ _ => if s.hub.reqs.any (fun r => r.ofNode u n) then none else some (s, 0)
  | _ => some (s, 0)
/-- The requests of a COLL that its node has made ready take the place in the link queue that it had from its post on (R410, R414, R420). -/
def launchColl (s : State) (u n : Nat) (cmd : NodeCmd) (fn : Nat) (place : Req) : State :=
  let s0 := nodeAcquire s u cmd
  let rs := collReqs s0 u n cmd fn
  let numbered := (rs.zip (upTo rs.length)).map (fun r => { r.1 with reqNo := if r.2 = 0 then place.reqNo else s0.hub.nextReq + r.2 - 1 })
  { s0 with hub := { s0.hub with reqs := s0.hub.reqs.flatMap (fun r => if r.reqNo = place.reqNo then numbered else [r])
                                 nextReq := s0.hub.nextReq + (rs.length - 1) } }
/-- The place of a COLL in the link queue before its node has run. -/
def collPlace (s : State) (u n : Nat) : Option Req := s.hub.reqs.find? (fun r => r.ofNode u n && !r.ready)
/-- NODE_COMPLETE (R282): acquire, the command's accesses, release, completion. -/
def execNodeComplete (unit node : Nat) (s : State) : Out :=
  let nd := (s.tile unit).getNode node
  match nd.cmd with
  | none => .next s
  | some cmd =>
    if nd.st ≠ .running ∨ s.hub.stalled ∨ s.hub.fenced ∨ (dREL cmd.desc ∧ dSCOPE cmd.desc = 5 ∧ rstOutstanding s unit) then .next s
    else match cmd.instr, collPlace s unit node with
      | .coll _ _ _ _ fn, some r => .next (launchColl s unit node cmd fn r)
      | i, _ =>
        let begun := decide (cmd.result ≠ 0) || (match i with
          | .coll _ _ _ _ _ => true
          | _ => false)
        match runCmd (if begun then s else nodeAcquire s unit cmd) unit node cmd with
        | none => .next s
        | some (s1, fl) => .next (nodeFinish s1 unit node cmd fl)
/-- BARRIER_COUNT (R289, R314): the next row of a counting COPY lands, and its bytes are counted. -/
def execBarrierCount (unit node bytes : Nat) (s : State) : Out :=
  let nd := (s.tile unit).getNode node
  match nd.cmd with
  | none => .next s
  | some cmd => match cmd.instr, abarKey unit cmd.desc, (copyRows unit cmd).drop cmd.result with
    | .copy _ _ _ _, some _, r :: _ =>
      if nd.st ≠ .running ∨ s.hub.stalled ∨ s.hub.fenced ∨ r.2.foldl (fun n p => n + p.2) 0 ≠ bytes then .next s
      else
        let s0 := if cmd.result = 0 then nodeAcquire s unit cmd else s
        let s1 := copyRow s0 unit cmd r
        .next (s1.modTile unit (fun t => t.setNode node { t.getNode node with cmd := some { cmd with result := cmd.result + 1 } }))
    | _, _, _ => .next s
/-- MULE_TRANSFER_COMPLETE (R270, R277, R278): a launched command of the tile whose turn it is. -/
def execMuleTransferComplete (unit node : Nat) (s : State) : Out :=
  let t := s.tile unit
  let nd := t.getNode node
  match nd.cmd with
  | some cmd =>
    if nd.st ≠ .running ∨ !(t.mule.contains node) ∨ !(t.mayMove node) ∨ s.hub.stalled ∨ s.hub.fenced ∨ (dREL cmd.desc ∧ dSCOPE cmd.desc = 5 ∧ rstOutstanding s unit) then .next s
    else
      let s1 := muleRun (nodeAcquire s unit cmd) unit node cmd
      .next (nodeFinish (s1.modTile unit (fun t => t.moved node)) unit node cmd 0)
  | none => .next s

end Sys2Proof.Machine
end

