-- ==== Sys2Proof/Machine/Debug.lean ====
section
/-! DEFINITION. The debug port (R358 to R360, R435, R436) and the debug state (R429, R430). -/
namespace Sys2Proof.Machine

/-- PSTATE (R433): one state, by precedence. -/
def State.pstate (s : State) : Nat :=
  if s.hub.selfRefresh then 4 else if s.hub.idle then 3 else if s.hub.stalled then 1 else if s.hub.colmask ≠ 255 then 2 else 0

/-- What a debug request's cell of R435 says of it. -/
inductive Right where
  | allowed | waits | refused
  deriving DecidableEq, Repr

/-- The right T of R435: counters, trap and fault records and the trace stream, in every state but locked and in self-refresh. -/
def traceRight (s : State) : Right :=
  if s.hub.dstate = 0 then .refused
  else match s.pstate with
    | 1 => .waits
    | 4 => .refused
    | _ => .allowed
/-- The table of R435 for H, RD and W: only open and invasive holds any; idle leaves reads and writes of memory. -/
def debugRight (s : State) (memory : Bool) : Right :=
  if s.hub.dstate ≠ 2 then .refused
  else match s.pstate with
    | 0 => .allowed
    | 2 => .allowed
    | 1 => .waits
    | 3 => if memory then .allowed else .refused
    | _ => .refused
/-- A refused request sets DERR and REF and has no effect (R435, R436). -/
def debugRefuse (s : State) : State := { s with hub := { s.hub with derr := true, dref := true } }
/-- Whether a context is resident (R103). -/
def isResident (s : State) (cid : Nat) : Bool := decide ((s.ctx cid).st = .resident) || decide ((s.ctx cid).st = .running)
/-- The cores of a context that are halted, by the debugger or by HALT (R156). -/
def haltedCores (s : State) (cid : Nat) : List Nat :=
  (s.cores.filter (fun p => decide (p.2.cid = cid) && decide (p.2.st = .halted))).map (·.1)
/-- A context is halted once every snapshot has closed and its running nodes have completed (R284, R352, R358). -/
def ctxHalted (s : State) (cid : Nat) : Bool :=
  decide (s.hub.haltCtx = some cid) && s.cores.all (fun p => decide (p.2.cid ≠ cid) || (!(pendingLeft s p.1)
    && (upTo 4).all (fun d => (s.tile (unitOf p.1 d)).nodes.all (fun n => decide (n.2.st ≠ .running)))))

/-- DCMD HALT (R358, R436): held for a context that is not resident. -/
def debugHalt (s : State) : State :=
  let cid := s.hub.dctx
  if s.hub.haltCtx = some cid then s
  else if !(isResident s cid) ∨ (s.ctx cid).restoring then { s with hub := { s.hub with haltPending := (s.hub.haltPending ++ [cid]).eraseDups } }
  else haltCtx s cid

/-- A halted core goes on from the state it left (R156, R354); a stop of its context keeps it frozen. -/
def debugResume (step : Bool) (s : State) (k : Nat) : State :=
  let c := s.core k
  let x := s.ctx c.cid
  match c.haltedFrom with
  | none => s
  | some st =>
    let s1 := (upTo 4).foldl (fun s d => s.modTile (unitOf k d) Tile.startReady) s
    s1.setCore k { c with st := st, haltedFrom := none, stepPending := step, frozen := x.stopping.isSome || x.restoring }
/-- A suspended core, which a halt only freezes, may pick up again. -/
def thaw (s : State) (cid : Nat) : State :=
  let stays := (s.ctx cid).stopping.isSome || (s.ctx cid).restoring
  { s with cores := s.cores.map (fun p => if p.2.cid = cid ∧ p.2.st = .suspended then (p.1, { p.2 with frozen := stays }) else p) }
/-- The halted context is continued (R358): every core goes on, those that HALT stopped among them (R167), and no step stays pending. -/
def continueCtx (s : State) (cid : Nat) : State :=
  let s1 := (haltedCores s cid).foldl (debugResume false) (thaw s cid)
  { s1 with hub := { s1.hub with haltCtx := none }
            cores := s1.cores.map (fun p => if p.2.cid = cid then (p.1, { p.2 with stepPending := false }) else p) }
/-- DCMD CONTINUE (R354, R358, R436): nothing for a context that is not halted by the debugger. -/
def debugContinue (s : State) : State :=
  let cid := s.hub.dctx
  if s.hub.haltCtx = some cid then continueCtx s cid else s

/-- The cores that a step or a withdrawal names (R359, R436): every core of the context, or one with its Bench issue domain. -/
def steppedCores (s : State) (core all : Nat) : List Nat :=
  let cid := s.hub.dctx
  let mine := (s.cores.filter (fun p => decide (p.2.cid = cid) && decide (p.2.st ≠ .idle))).map (·.1)
  if all ≠ 0 then mine
  else if (s.core core).benchFrom.isSome then
    mine.filter (fun k => decide (k = core) || (decide ((s.core k).group = (s.core core).group) && decide ((s.core k).benchId = (s.core core).benchId)
      && (s.core k).benchFrom.isSome))
  else mine.filter (fun k => decide (k = core))
/-- DCMD STEP (R359). -/
def debugStep (core all : Nat) (s : State) : State :=
  if s.hub.haltCtx ≠ some s.hub.dctx then s
  else (steppedCores s core all).foldl (fun s k => if (s.core k).st = .halted then debugResume true s k else s) s
/-- DCMD WITHDRAW (R359): a pending step ends without its bundle. -/
def debugWithdraw (core all : Nat) (s : State) : State := (steppedCores s core all).foldl stepEnd s

/-- A write of DCTX (R436): refused while a context is halted, but for clearing ATTACH, which continues it first. -/
def writeDctx (s : State) (val : Nat) : State :=
  let att := bitOf val 63
  let s1 := match s.hub.haltCtx with
    | some cid => if att ∨ !s.hub.attach then s else continueCtx s cid
    | none => s
  if s1.hub.haltCtx.isSome then { s1 with hub := { s1.hub with dref := true } }
  else { s1 with hub := { s1.hub with
    dctx := bitsOf val 9 0, attach := att, dref := false, dhalts := if att ∧ !s.hub.attach then 0 else s1.hub.dhalts } }
/-- DCTX: a write that continues a halted context waits for the end of a package-wide stall, through which the context stays halted (R15). -/
def execDctxWrite (val : Nat) (s : State) : Out :=
  if s.hub.stalled ∧ s.hub.haltCtx.isSome ∧ s.hub.attach ∧ !(bitOf val 63) then .next { s with hub := { s.hub with debugWaits := s.hub.debugWaits ++ [DebugReq.dctx val] } }
  else .next (writeDctx s val)

/-- The debug state changes (R430): a halted context is continued first; in a package-wide stall it stays halted to the resume (R15). -/
def setDstate (s : State) (d : Nat) : State :=
  let s1 := match s.hub.haltCtx with
    | some cid => if s.hub.dstate ≤ d then s else if s.hub.stalled then { s with hub := { s.hub with debugWaits := s.hub.debugWaits ++ [DebugReq.free cid] } }
      else continueCtx s cid
    | none => s
  { s1 with hub := { s1.hub with dstate := d, derr := false, haltPending := if d = 2 then s1.hub.haltPending else [] } }
/-- The message whose digest an unlock token signs (R430). -/
def unlockMessage (s : State) (d : Nat) : List Byte := leBytes 32 Config.deviceKey ++ leBytes 8 s.hub.fqhead ++ leBytes 1 d
/-- The 64 bytes of DBGTOK. -/
def State.token (s : State) : List Byte := (upTo 64).map (fun i => sget 0 s.hub.dbgtok i)
/-- DREQ (R430): lowering always takes effect; a raise needs the token, and invasive an open device. -/
def execDbgctlDreq (val : Nat) (s : State) : Out :=
  let d := val % 4
  if d = 3 then .next { s with hub := { s.hub with derr := true } }
  else if d ≤ s.hub.dstate then .next (setDstate s d)
  else if (d = 2 ∧ s.hub.secure) ∨ !(Config.signatureOk 8 s.token (leBytes 64 (Config.sha512 (unlockMessage s d)))) then
    .next { s with hub := { s.hub with derr := true } }
  else .next (setDstate s d)

/-- The 16 bytes of a lane mask or predicate register, in two words. -/
def predMask (t : Tile) (u : Nat) : Mask := BitVec.ofNat 128 ((upTo 128).foldl (fun n i => if predOf t u i then n + 2 ^ i else n) 0)
def half (m : Mask) (i : Nat) : Nat := bitsOf m.toNat (64 * i + 63) (64 * i)
def setHalf (m : Mask) (i v : Nat) : Mask :=
  BitVec.ofNat 128 (if i = 0 then half m 1 * 2 ^ 64 + v % 2 ^ 64 else v % 2 ^ 64 * 2 ^ 64 + half m 0)
/-- Two lanes of a vector, and their replacement. -/
def lanePair (v : Vec) (j : Nat) : Nat := v.lane (2 * j) + 2 ^ 32 * v.lane (2 * j + 1)
def setLanePair (v : Vec) (j w : Nat) : Vec :=
  Vec.mk' v.tag (fun i => if i = 2 * j then w % 2 ^ 32 else if i = 2 * j + 1 then w / 2 ^ 32 else v.lane i)
/-- A walker's parameters and indices by number (R195). -/
def walkerItem (w : Walker) (f : Nat) : Nat :=
  match f with
  | 0 => w.ctrl.toNat
  | 1 => w.base.toNat
  | 2 => w.astride.toNat
  | 3 => w.a
  | f => if f < 16 then sget 0 w.idx (f - 8) else if f < 24 then (sget 0 w.counts (f - 16)).toNat else (sget 0 w.strides (f - 24)).toNat
def setWalkerItem (w : Walker) (f v : Nat) : Walker :=
  match f with
  | 0 => { w with ctrl := BitVec.ofNat 64 v }
  | 3 => { w with a := v }
  | f => if 8 ≤ f ∧ f < 16 then { w with idx := sset 0 w.idx (f - 8) v } else w.setField f (BitVec.ofNat 64 v)

/-- A seed table by number: RCP, RSQ, EXP, and the values and corrections of LOG (R85, R224). -/
def seedTable (t : SeedTabs) (n : Nat) : List Nat :=
  match n with
  | 0 => t.rcp
  | 1 => t.rsq
  | 2 => t.exp
  | 3 => t.logV
  | _ => t.logC
def setSeedTable (t : SeedTabs) (n : Nat) (l : List Nat) : SeedTabs :=
  match n with
  | 0 => { t with rcp := l }
  | 1 => { t with rsq := l }
  | 2 => { t with exp := l }
  | 3 => { t with logV := l }
  | _ => { t with logC := l }
/-- An element of a list is replaced; a list without it stays. -/
def putNth {α : Type} (l : List α) (i : Nat) (v : α) : List α := (l.zip (upTo l.length)).map (fun e => if e.2 = i then v else e.1)
/-- A stationary plane's state and contents by number (R236): its state, a code, a scale, a staged value. -/
def planeItem (p : SPlane) (j : Nat) : Nat :=
  match j % 4 with
  | 0 => (if p.isOpen then 1 else 0) + (if p.raw then 2 else 0) + 4 * p.fmt
  | 1 => ((sget 0 p.codes (j / 4)) % 2 ^ 64).toNat
  | 2 => sget 0 p.scales (j / 4)
  | _ => sget 0 p.staged (j / 4)
def setPlaneItem (p : SPlane) (j v : Nat) : SPlane :=
  match j % 4 with
  | 0 => { p with isOpen := bitOf v 0, raw := bitOf v 1, fmt := v / 4 % 4 }
  | 1 => { p with codes := sset 0 p.codes (j / 4) (wrap64 v).toInt }
  | 2 => { p with scales := sset 0 p.scales (j / 4) v }
  | _ => { p with staged := sset 0 p.staged (j / 4) v }
/-- The scan state of a tile with SABS and XABS (R257). -/
def scanItem (t : Tile) : Nat :=
  (match t.scanSt with
    | .idle => 0
    | .local => 1
    | .up => 2
    | .carried => 3
    | .down => 4) + (if t.sabs then 8 else 0) + (if t.xabs then 16 else 0)
def setScanItem (t : Tile) (v : Nat) : Tile :=
  { t with scanSt := (match v % 8 with
                        | 0 => .idle
                        | 1 => .local
                        | 2 => .up
                        | 3 => .carried
                        | _ => .down)
           sabs := bitOf v 3, xabs := bitOf v 4 }
/-- A node's state and count (R281). -/
def nodeItem (n : Node) : Nat :=
  (match n.st with
    | .idle => 0
    | .waiting => 1
    | .running => 2) + 4 * (n.count % 2 ^ 32).toNat

/-- The state of a slot as a number, and back (R269). -/
def SlotSt.code (z : SlotSt) : Nat :=
  match z with
  | .free => 0
  | .loaded => 2
  | .live => 3
  | .spilling => 4
  | .spilled => 5
def SlotSt.ofCode (v : Nat) : SlotSt :=
  match v % 8 with
  | 2 => .loaded
  | 3 => .live
  | 4 => .spilling
  | 5 => .spilled
  | _ => .free
/-- An item of a tile in the layout of section 3 (R107), as 8 bytes: its kind is the code's low part; none where the code names
no item. What R206, R224, R236, R238, R254, R257, R269, R281, R294, R313 and R344 save with the tile stands there too. -/
def tileItem (s : State) (u code : Nat) : Option Nat :=
  let t := s.tile u
  let i := code / 32
  match code % 32 with
  | 0 => some (s.readX u (i % 32)).toNat
  | 1 => some (half (predMask t u) (i % 2))
  | 2 => some (half (t.getK (i / 2 % 8)) (i % 2))
  | 3 => some (lanePair (t.getV (i / 64 % 40)) (i % 64))
  | 4 => some (t.getV (i % 40)).tag.code
  | 5 => some (lanePair ((t.getLatch (48 + i / 64 % 16)).getD {}) (i % 64))
  | 6 => some (match t.getLatch (48 + i % 16) with
    | some v => v.tag.code
    | none => 0)
  | 7 => some (walkerItem (t.getWalk (i / 32 % 8)) (i % 32))
  | 8 => some (t.shape (i / 16 % 12) (i % 16)).toNat
  | 9 => some (sget 0 (sget [] t.shShadow (i / 16 % 12)) (i % 16)).toNat
  | 10 => some (csrValue s u (16 + i % 5))
  | 11 => some (match (t.mon.drop (i % 16)).head? with
    | some e => 64 * e.line + (if e.event then 1 else 0)
    | none => 0)
  | 12 => some (if i % 2 = 0 then t.curA else t.curB)
  | 13 => some (nth 0 (seedTable t.seed (i / 128 % 5)) (i % 128))
  | 14 => some (if s.banked u then t.getX (24 + i % 8) else t.getHX (24 + i % 8)).toNat
  | 15 => some (if s.banked u then (sget 0 t.bt (i % 4)).toNat else (sget 0 t.hbt (i % 4)).toNat)
  | 16 => some (if s.banked u then t.arm.toNat else t.harm.toNat)
  | 17 => some (sget 0 (if i / 8 % 2 = 0 then t.sa else t.sb) (i % 8)).toNat
  | 18 => some (planeItem (if i % 2 = 0 then t.livePlane else t.shadowPlane) (i / 2))
  | 19 => some (match t.prog with
    | some l => (nth 0 l (2 * i)).toNat + 2 ^ 32 * (nth 0 l (2 * i + 1)).toNat
    | none => 0)
  | 20 => some (scanItem t)
  | 21 => some (nth 0 t.settings (i % 8)).toNat
  | 22 => some (match sget none t.bench (i / 64 % 64) with
    | some v => lanePair v (i % 64)
    | none => 0)
  | 23 => some (match sget none t.bench (i % 64) with
    | some v => v.tag.code + 4
    | none => 0)
  | 24 => some (match sget none t.lastph (i % 2048) with
    | some b => if b then 3 else 2
    | none => 0)
  | 25 => some (nodeItem (t.getNode (i % 256)))
  | 26 => some (sget Tag.empty t.parkTag (i % 40)).code
  | 27 => some (t.getSlot (i % 64)).st.code
  | 28 => some (t.getSlot (i % 64)).image
  | _ => none
/-- A write of an item (R355): it counts as landing before the base. Predicates p0 to p5 and x0 keep their values (R52). -/
def setTileItem (s : State) (u code v : Nat) : State :=
  let i := code / 32
  let w := BitVec.ofNat 64 v
  match code % 32 with
  | 0 => s.writeX u (i % 32) w
  | 1 => s.modTile u (fun t => { t with p := setHalf (predMask t u) (i % 2) v })
  | 2 => s.modTile u (fun t => t.setK (i / 2 % 8) (setHalf (t.getK (i / 2 % 8)) (i % 2) v))
  | 3 => s.modTile u (fun t => t.setV (i / 64 % 40) (setLanePair (t.getV (i / 64 % 40)) (i % 64) v))
  | 4 => s.modTile u (fun t => t.setV (i % 40) { t.getV (i % 40) with tag := Tag.ofCode (v % 4) })
  | 5 => s.modTile u (fun t => t.setLatch (48 + i / 64 % 16) (setLanePair ((t.getLatch (48 + i / 64 % 16)).getD {}) (i % 64) v))
  | 6 => s.modTile u (fun t =>
      if v % 4 = 0 then { t with latch := sset none t.latch (48 + i % 16) none }
      else t.setLatch (48 + i % 16) { (t.getLatch (48 + i % 16)).getD {} with tag := Tag.ofCode (v % 4) })
  | 7 => s.modTile u (fun t => t.setWalk (i / 32 % 8) (setWalkerItem (t.getWalk (i / 32 % 8)) (i % 32) v))
  | 8 => s.modTile u (fun t => { t with shLive := smod [] t.shLive (i / 16 % 12) (fun m => sset 0 m (i % 16) w) })
  | 9 => s.modTile u (fun t => { t with shShadow := smod [] t.shShadow (i / 16 % 12) (fun m => sset 0 m (i % 16) w) })
  | 10 => csrApply s u (16 + i % 5) w false
  | 11 => s.modTile u (fun t => { t with mon := (t.mon.zip (upTo t.mon.length)).map (fun e =>
      if e.2 = i % 16 then { e.1 with line := v / 64, event := bitOf v 0 } else e.1) })
  | 12 => s.modTile u (fun t => if i % 2 = 0 then { t with curA := v % 8 } else { t with curB := v % 8 })
  | 13 => s.modTile u (fun t =>
      { t with seed := setSeedTable t.seed (i / 128 % 5) (putNth (seedTable t.seed (i / 128 % 5)) (i % 128) (v % 2 ^ 32)) })
  | 14 => let b := s.banked u
    s.modTile u (fun t => if b then t.setX (24 + i % 8) w else t.setHX (24 + i % 8) w)
  | 15 => let b := s.banked u
    s.modTile u (fun t => if b then { t with bt := sset 0 t.bt (i % 4) (BitVec.ofNat 12 v) } else { t with hbt := sset 0 t.hbt (i % 4) (BitVec.ofNat 12 v) })
  | 16 => let b := s.banked u
    s.modTile u (fun t => if b then { t with arm := BitVec.ofNat 4 v } else { t with harm := BitVec.ofNat 4 v })
  | 17 => s.modTile u (fun t => if i / 8 % 2 = 0 then { t with sa := sset 0 t.sa (i % 8) w } else { t with sb := sset 0 t.sb (i % 8) w })
  | 18 => s.modTile u (fun t =>
      if decide (i % 2 = 0) = t.liveIs1 then { t with plane1 := setPlaneItem t.plane1 (i / 2) v } else { t with plane0 := setPlaneItem t.plane0 (i / 2) v })
  | 19 => s.modTile u (fun t => { t with prog := t.prog.map (fun l =>
      putNth (putNth l (2 * i) (BitVec.ofNat 32 v)) (2 * i + 1) (BitVec.ofNat 32 (v / 2 ^ 32))) })
  | 20 => s.modTile u (fun t => setScanItem t v)
  | 21 => s.modTile u (fun t => { t with settings := putNth t.settings (i % 8) w })
  | 22 => s.modTile u (fun t =>
      let x := (sget none t.bench (i / 64 % 64)).map (fun x => setLanePair x (i % 64) v)
      { t with bench := sset none t.bench (i / 64 % 64) x })
  | 23 => s.modTile u (fun t =>
      let x : Vec := (sget none t.bench (i % 64)).getD {}
      { t with bench := sset none t.bench (i % 64) (if bitOf v 2 then some { x with tag := Tag.ofCode (v % 4) } else none) })
  | 24 => s.modTile u (fun t => { t with lastph := sset none t.lastph (i % 2048) (if bitOf v 1 then some (bitOf v 0) else none) })
  | 25 => s.modTile u (fun t => t.setNode (i % 256) { t.getNode (i % 256) with count := (BitVec.ofNat 32 (v / 4)).toInt })
  | 26 => s.modTile u (fun t => { t with parkTag := sset Tag.empty t.parkTag (i % 40) (Tag.ofCode (v % 4)) })
  | 27 => s.modTile u (fun t => t.setSlot (i % 64) { t.getSlot (i % 64) with st := SlotSt.ofCode v })
  | 28 => s.modTile u (fun t => t.setSlot (i % 64) { t.getSlot (i % 64) with image := v })
  | _ => s
/-- A barrier object's STATE, PHASE, ARR and EXP (R313). -/
def barrierItem (b : Barrier) : Nat :=
  (match b.st with
    | .idle => 0
    | .armed => 1
    | .arriving => 2
    | .complete => 3) + (if b.phase then 4 else 0) + 16 * (b.arr % 2 ^ 16) + 2 ^ 32 * (b.exp % 2 ^ 32)
def setBarrierItem (b : Barrier) (v : Nat) : Barrier :=
  { b with st := (match v % 4 with
                    | 0 => .idle
                    | 1 => .armed
                    | 2 => .arriving
                    | _ => .complete)
           phase := bitOf v 2, arr := bitsOf v 19 4, exp := bitsOf v 63 32 }
/-- A configuration plane's state and section (R134). -/
def planeHead (p : Plane) : Nat :=
  (match p.st with
    | .empty => 0
    | .loading => 1
    | .shadowReady => 2
    | .active => 3
    | .draining => 4) + 256 * p.sec + 2 ^ 32 * p.kern
/-- A slot word of a plane is replaced. -/
def CoreRec.setCodeWord (c : CoreRec) (active : Bool) (b sl w : Nat) : CoreRec :=
  let put := fun (p : Plane) => { p with code := putNth p.code b (putNth (nth [] p.code b) sl w) }
  if active = c.activeIs1 then { c with plane1 := put c.plane1 } else { c with plane0 := put c.plane0 }
/-- An item of a core in the layout of section 2 (R107): the sequencer levels, the return store, the deque, the branch targets, the
issue position, handler mode with its word (R356), the trap registers (R341), the held list (R180) and the barrier objects (R313), and the planes of section 8. -/
def coreItem (s : State) (k code : Nat) : Option Nat :=
  let c := s.core k
  let i := code / 16
  let l := c.lvl (i / 8 % 6)
  match code % 16 with
  | 0 => some (match i % 8 with
    | 0 => if l.active then 1 else 0
    | 1 => l.beg
    | 2 => l.count.toNat
    | 3 => l.idx
    | 4 => l.s0r
    | 5 => l.s0c.toNat
    | 6 => l.s1r
    | _ => l.s1c.toNat)
  | 1 => some (sget 0 c.rstk (i % 16)).toNat
  | 2 => some c.rdepth
  | 3 => some (nth 0 (s.deq c.group k).hw (i % 32))
  | 4 => some (if i % 2 = 0 then (s.deq c.group k).spHead else (s.deq c.group k).spTail)
  | 5 => some (s.readBt (unitOf k (i / 4 % 4)) (i % 4)).toNat
  | 6 => some c.bn
  | 7 => some (match c.handler with
    | some a => a + 1
    | none => 0)
  | 8 => some (csrValue s (leadUnit k) (if i % 4 = 3 then 0x032 else 0x040 + i % 4))
  | 9 => some (nth 0 (s.groupOf k).held (i % 64))
  | 10 => some (match ((s.groupOf k).barriers.drop (i / 2)).head? with
    | some b => if i % 2 = 0 then b.1 else barrierItem (b.2.getD {})
    | none => 0)
  | 11 => some (planeHead (if i % 2 = 0 then c.active else c.shadow))
  | 12 => some (nth 0 (nth [] (if i % 2 = 0 then c.active else c.shadow).code (i / 16)) (i / 2 % 8))
  | _ => none
def setCoreItem (s : State) (k code v : Nat) : State :=
  let i := code / 16
  let n := i / 8 % 6
  let g := (s.core k).group
  let d := s.deq g k
  match code % 16 with
  | 0 => s.modCore k (fun c =>
      let l := c.lvl n
      c.setLvl n (match i % 8 with
        | 0 => { l with active := bitOf v 0 }
        | 1 => { l with beg := v % 4096 }
        | 2 => { l with count := BitVec.ofNat 24 v }
        | 3 => { l with idx := v % 2 ^ 24 }
        | 4 => { l with s0r := v % 32 }
        | 5 => { l with s0c := BitVec.ofNat 64 v }
        | 6 => { l with s1r := v % 32 }
        | _ => { l with s1c := BitVec.ofNat 64 v }))
  | 1 => s.modCore k (fun c => { c with rstk := sset 0 c.rstk (i % 16) (BitVec.ofNat 12 v) })
  | 2 => s.modCore k (fun c => { c with rdepth := min 16 (v % 32) })
  | 3 => s.setDeq g k { d with hw := (d.hw.zip (upTo d.hw.length)).map (fun e => if e.2 = i % 32 then v else e.1) }
  | 4 => s.setDeq g k (if i % 2 = 0 then { d with spHead := v } else { d with spTail := v })
  | 5 => s.writeBt (unitOf k (i / 4 % 4)) (i % 4) (BitVec.ofNat 12 v)
  | 7 => s.modCore k (fun c => { c with handler := c.handler.map (fun _ => v % 1024 - 1) })
  | 8 => if i % 4 = 1 then csrApply s (leadUnit k) 0x041 (BitVec.ofNat 64 v) false else s
  | 6 => s.modCore k (fun c => { c with bn := v })
  | 9 => s.modGroup g (fun x => { x with held := putNth x.held (i % 64) v })
  | 10 => match ((s.group g).barriers.drop (i / 2)).head? with
    | some b => if i % 2 = 0 then s else s.modGroup g (fun x => x.setBarrier b.1 (setBarrierItem (b.2.getD {}) v))
    | none => s
  | 12 => s.modCore k (fun c => c.setCodeWord (decide (i % 2 = 0)) (i / 16) (i / 2 % 8) (v % 2 ^ 32))
  | _ => s

/-- The fields of DADDR (R436). -/
def dSpace (a : Nat) : Nat := bitsOf a 63 60
def dCore (a : Nat) : Nat := bitsOf a 59 54
def dDie (a : Nat) : Nat := bitsOf a 53 52
def dOffset (a : Nat) : Nat := bitsOf a 47 0
def dUnit (a : Nat) : Nat := unitOf (dCore a) (dDie a)
/-- DADDR advances by 8. -/
def dAdvance (s : State) : State :=
  let a := s.hub.daddr
  { s with hub := { s.hub with daddr := a / 2 ^ 48 * 2 ^ 48 + (dOffset a + 8) % 2 ^ 48 } }
/-- Whether the debug spaces 0 to 5 may be accessed: the context that the core belongs to is the halted one. -/
def dReady (s : State) : Bool :=
  decide (dSpace s.hub.daddr = 6) || decide (6 < dSpace s.hub.daddr) || (ctxHalted s s.hub.dctx && decide ((s.core (dCore s.hub.daddr)).cid = s.hub.dctx))
/-- A space whose range ends below the offset, or a fault of space 6, sets REF and reads zero. -/
def dFail (s : State) : State := dAdvance { s with hub := { s.hub with dref := true, ddata := 0 } }
def dGot (s : State) (v : Nat) : State := dAdvance { s with hub := { s.hub with ddata := v } }
/-- The state of an accumulator word and its successor (R241, R436). -/
def accWord (t : Tile) (off : Nat) : Nat := (sget 0 t.acc (off / 4)).toNat
/-- DDATA_READ (R436). -/
def ddataRead (s : State) : State :=
  let a := s.hub.daddr
  let u := dUnit a
  let t := s.tile u
  let off := dOffset a
  if !(dReady s) then { s with hub := { s.hub with dref := true, ddata := 0 } }
  else match dSpace a with
    | 0 => match tileItem s u (Config.debugLayout 0 off) with
      | some v => dGot s (v % 2 ^ 64)
      | none => dGot s.fresh (Config.freeValue s.freeCount % 2 ^ 64)
    | 1 => match coreItem s (dCore a) (Config.debugLayout 1 off) with
      | some v => dGot s (v % 2 ^ 64)
      | none => dGot s.fresh (Config.freeValue s.freeCount % 2 ^ 64)
    | 2 => if off < (snapshotOf s u).length then dGot s (leNat (((snapshotOf s u).drop off).take 8)) else dGot s 0
    | 3 => if off ≤ spadSize - 8 then dGot s (t.spadNat off 8) else dFail s
    | 4 => if off + 8 ≤ 1572864 then dGot s (accWord t off + 2 ^ 32 * accWord t (off + 4)) else dFail s
    | 5 => if off + 8 ≤ 2097152 then dGot s (leNat ((upTo 8).map (fun i => sget 0 (t.getSlot ((off + i) / 32768)).bytes ((off + i) % 32768)))) else dFail s
    | 6 => match s.hubNat s.hub.dctx off 8 with
      | some v => dGot s v
      | none => dFail s
    | _ => dFail s
/-- A byte of a state slot is written; the slot's state stays (R269, R355). -/
def putSlotByte (t : Tile) (a : Nat) (b : Byte) : Tile :=
  let z := t.getSlot (a / 32768)
  t.setSlot (a / 32768) { z with bytes := sset 0 z.bytes (a % 32768) b }
/-- A write of a context's memory that needs every byte writable (R324, R436). -/
def dMemWrite (s : State) (cid va v : Nat) : Option State :=
  if (upTo 8).all (fun i => match translate s 256 cid (va + i) 1 with
    | .ok _ => true
    | .error _ => false) then some (s.hubWrite cid va (leBytes 8 v)) else none
/-- DDATA_WRITE (R355, R436): space 2 is read-only. -/
def ddataWrite (val : Nat) (s : State) : State :=
  let a := s.hub.daddr
  let u := dUnit a
  let off := dOffset a
  let bs := leBytes 8 val
  let bad := dAdvance { s with hub := { s.hub with dref := true } }
  let done := fun (t : State) => dAdvance { t with hub := { t.hub with ddata := val % 2 ^ 64 } }
  if !(dReady s) then { s with hub := { s.hub with dref := true } }
  else match dSpace a with
    | 0 => done (setTileItem s u (Config.debugLayout 0 off) (val % 2 ^ 64))
    | 1 => done (setCoreItem s (dCore a) (Config.debugLayout 1 off) (val % 2 ^ 64))
    | 3 => if off ≤ spadSize - 8 then done (s.modTile u (fun t => t.putSpad off bs)) else bad
    | 4 => if off + 8 ≤ 1572864 then done (s.modTile u (fun t =>
        { t with acc := sset 0 (sset 0 t.acc (off / 4) (BitVec.ofNat 32 val)) (off / 4 + 1) (BitVec.ofNat 32 (val / 2 ^ 32)) })) else bad
    | 5 => if off + 8 ≤ 2097152 then done (s.modTile u (fun t => (cellsAt off bs).foldl (fun t c => putSlotByte t c.1 c.2) t)) else bad
    | 6 => match dMemWrite s s.hub.dctx off val with
      | some t => done t
      | none => bad
    | _ => bad

/-- DSTAT (R436). -/
def State.dstat (s : State) : Nat :=
  let cid := s.hub.dctx
  let c := if !(isResident s cid) then 3 else if ctxHalted s cid then 2 else if s.hub.haltCtx = some cid ∨ s.hub.haltPending.contains cid then 1 else 0
  c + (if s.cores.any (fun p => decide (p.2.cid = cid) && p.2.stepPending) then 256 else 0) + (if s.hub.dref then 512 else 0) + 2 ^ 32 * s.hub.dhalts
/-- BPDATA of the breakpoint that BPSEL selects (R436). -/
def State.bpdata (s : State) : Nat :=
  let b := sget {} (s.core (bitsOf s.hub.bpsel 5 0)).bps (bitsOf s.hub.bpsel 10 8)
  b.kern + 2 ^ 32 * b.addr + (if b.valid then 2 ^ 63 else 0)
def setBpdata (s : State) (val : Nat) : State :=
  s.modCore (bitsOf s.hub.bpsel 5 0) (fun c => { c with
    bps := sset {} c.bps (bitsOf s.hub.bpsel 10 8) { valid := bitOf val 63, kern := bitsOf val 31 0, addr := bitsOf val 43 32 } })

/-- What a request of the debugger does where its cell of R435 allows it. -/
def DebugReq.act (r : DebugReq) (s : State) : State :=
  match r with
  | .halt => debugHalt s
  | .cont => debugContinue s
  | .step core all => debugStep core all s
  | .withdraw core all => debugWithdraw core all s
  | .breakpoint v => setBpdata s v
  | .breakpointRead => s
  | .read => ddataRead s
  | .write v => ddataWrite v s
  | .dctx v => writeDctx s v
  | .free cid => if s.hub.haltCtx = some cid then continueCtx s cid else s
/-- Whether a request is an access of memory, which an idle device leaves. -/
def DebugReq.memory (r : DebugReq) (s : State) : Bool :=
  match r with
  | .read => decide (dSpace s.hub.daddr = 6)
  | .write _ => decide (dSpace s.hub.daddr = 6)
  | _ => false
/-- A request under its cell of R435: refused, where a read returns 0; held until the stall ends; or carried out. -/
def debugAsk (s : State) (r : DebugReq) : State :=
  match debugRight s (r.memory s) with
  | .refused =>
    let s1 := debugRefuse s
    if r = .read then { s1 with hub := { s1.hub with ddata := 0 } } else s1
  | .waits => { s with hub := { s.hub with debugWaits := s.hub.debugWaits ++ [r] } }
  | .allowed => r.act { s with hub := { s.hub with dref := false } }
/-- The requests that a stall has held are served in arrival order; a write of DCTX and the continue of a lowered debug state need no right. -/
def serveDebug (s : State) : State :=
  s.hub.debugWaits.foldl (fun s r => match r with
    | .dctx _ => r.act s
    | .free _ => r.act s
    | _ => debugAsk s r) { s with hub := { s.hub with debugWaits := [] } }

def execDebugHalt (s : State) : Out := .next (debugAsk s .halt)
def execDebugContinue (s : State) : Out := .next (debugAsk s .cont)
def execDebugStep (core all : Nat) (s : State) : Out := .next (debugAsk s (.step core all))
def execDebugWithdraw (core all : Nat) (s : State) : Out := .next (debugAsk s (.withdraw core all))
def execDdataRead (s : State) : Out := .next (debugAsk s .read)
def execDdataWrite (val : Nat) (s : State) : Out := .next (debugAsk s (.write val))

end Sys2Proof.Machine
end

