-- ==== Sys2Proof/Machine/Matrix.lean ====
section
/-! DEFINITION. The matrix slot and the scale pointers (R235 to R249, R239). -/
namespace Sys2Proof.Machine

/-- The width b of a format code (R235). -/
def matB (fmt : Nat) : Nat :=
  match fmt with
  | 0 => 4
  | 1 => 6
  | 2 => 8
  | _ => 16

/-- The origin of an operand row (R237): packed raw codes, or 48 float values. -/
inductive RowSrc where
  | raw (codes : List Int)
  | float (vals : List Nat)

/-- An operand row under R237: raw codes only from a walker of TAG I32; FP32 and BF16 only with FMT 3. -/
def readRow (c : OpCtx) (a fmt : Nat) : Res (RowSrc × List Post) := do
  let (v, ps) ← readSel c a
  let isWalker := decide (40 ≤ a ∧ a < 48)
  match v.tag with
  | .i32 =>
    if isWalker then
      let bits := (upTo 24).foldr (fun i acc => acc * 2 ^ 32 + v.lane i) 0
      .ok (.raw ((upTo (matK fmt)).map (fun i => mxCodeAt (matB fmt) bits i)), ps)
    else raise cTAG_MISMATCH (tagArg a .i32 .fp32)
  | .fp32 =>
    if fmt = 3 then .ok (.float ((upTo 48).map v.lane), ps)
    else raise cTAG_MISMATCH (tagArg a .fp32 .i32)
  | .bf16 =>
    if fmt = 3 then
      .ok (.float ((upTo 48).map (fun i =>
        let l := v.lane (i / 2)
        (bf2f (if i % 2 = 0 then l % 65536 else l / 65536)).1)), ps)
    else raise cTAG_MISMATCH (tagArg a .bf16 .i32)
  | .empty => raise cTAG_MISMATCH (tagArg a .empty .fp32)

/-- The scale bytes at a pointer; a range outside the scratchpad raises ACCESS (R238). -/
def scaleBytes (c : OpCtx) (p len : Nat) : Res (List Nat) := do
  if p + len > spadSize then raiseR cACCESS 6 p
  else
    spadFree c c.u p len
    .ok ((c.t.spadBytes p len).map BitVec.toNat)

/-- Whether the shadow plane, as the operations before this one have bound it, is open or of another format. A PUSH
still in flight has already opened the plane at its own issue bundle. -/
def planeFmtMatch (p : SPlane) (fmt : Nat) (raw : Bool) : Bool := p.isOpen || (p.fmt = fmt && p.raw = raw)

/-- The tag that a source carries (R339). -/
def carriedTag (c : OpCtx) (a : Nat) : Res Tag := do
  let (v, _) ← readSel c a
  .ok v.tag

/-- PUSH (R244): binds to the plane that is shadow at issue. -/
def opPush (a fmt row : Nat) (c : OpCtx) : Res (List Post) := do
  let p := c.t.shadowPlane
  let which := !c.t.liveIs1
  let (src, ps) ← readRow c a fmt
  let raw := match src with
    | .raw _ => true
    | .float _ => false
  let carried ← carriedTag c a
  check (planeFmtMatch p fmt raw) cTAG_MISMATCH (tagArg a carried (if p.raw then .i32 else .fp32))
  let opening : List Post := if p.isOpen then [{ lat := 0, eff := .planeOpenAs which fmt raw }] else []
  match src with
  | .raw codes =>
    let n := matK fmt
    let sb := (sget 0#64 c.t.sb (a - 40)).toNat
    let sc ← scaleBytes c (sb + row / 16 * n) n
    .ok (opening ++ [{ lat := 2, eff := .pushRow which fmt true row codes sc [] }] ++ ps)
  | .float vals => .ok (opening ++ [{ lat := 2, eff := .pushRow which fmt false row [] [] vals }] ++ ps)

/-- The K-blocks of a raw row with their scales. -/
def rawBlocks (codes : List Int) (scales : List Nat) : List MxBlock :=
  (upTo scales.length).map (fun kb => { e := nth 0 scales kb, codes := (codes.drop (16 * kb)).take 16 })
/-- Column j of a plane as K-blocks (R245). -/
def colBlocks (p : SPlane) (fmt j : Nat) : List MxBlock :=
  (upTo (matK fmt / 16)).map (fun kb =>
    { e := sget 0 p.scales (kb * 192 + j), codes := (upTo 16).map (fun i => sget 0 p.codes ((16 * kb + i) * 192 + j)) })

/-- The products of one column, with their flags and counts (R84). -/
def colProducts (b : Nat) : List MxBlock → List MxBlock → List Nat × Flags × MxInc
  | x :: xs, y :: ys =>
    let (t, f, m) := mxBlockProduct b x y
    let (r, f', m') := colProducts b xs ys
    (t :: r, f ||| f', m ||| m')
  | _, _ => ([], 0, 0)

/-- SHIFT (R245): one beat; the product row lands 24 bundles later. -/
def opShift (a fmt bank row h : Nat) (c : OpCtx) : Res (List Post) := do
  let p := c.t.livePlane
  let carried ← carriedTag c a
  check (!p.isOpen && matB p.fmt = matB fmt) cTAG_MISMATCH (tagArg a carried .empty)
  let (src, ps) ← readRow c a fmt
  let (blocks, qf, qm, adv) : List MxBlock × Flags × MxInc × List Post ← match src with
    | .raw codes =>
      let q := sget 0#64 c.t.sa (a - 40)
      let sc ← scaleBytes c q.toNat (matK fmt / 16)
      .ok (rawBlocks codes sc, (0 : Flags), (0 : MxInc),
        [{ lat := 1, eff := .scalePtr false (a - 40) (q + BitVec.ofNat 64 (matK fmt / 16)) false }])
    | .float vals =>
      let bs := (upTo 3).map (fun kb => mxQuantise (((vals.drop (16 * kb)).take 16).map dec32) 16 true)
      .ok (bs.map (fun r => r.1), bs.foldl (fun f r => f ||| r.2) 0,
        bs.foldl (fun m r => m ||| mxQuantInc r.2) 0, [])
  let cols := (upTo (matK fmt)).map (fun j => colProducts (matB fmt) blocks (colBlocks p fmt j))
  let fl := cols.foldl (fun f r => f ||| r.2.1) qf
  let mx := cols.foldl (fun m r => m ||| r.2.2) qm
  .ok ([{ lat := 24, eff := .accProd bank row (128 * h) (cols.map (fun r => r.1)), fl := fl, mx := mx }] ++ adv ++ ps)

/-- ACC (R247). -/
def opAcc (a bank row h : Nat) (c : OpCtx) : Res (List Post) := do
  let sa ← readAs c a .fp32
  .ok ([{ lat := 4, eff := .accAdd bank row (128 * h) ((upTo 128).map sa.v.lane), fl := sa.fl }] ++ sa.posts)
/-- ACWR (R247). -/
def opAcwr (a bank row h : Nat) (c : OpCtx) : Res (List Post) := do
  let sa ← readAs c a .fp32
  .ok ([{ lat := 2, eff := .accSet bank row (128 * h) ((upTo 128).map sa.v.lane), fl := sa.fl }] ++ sa.posts)
/-- The half row as a vector. -/
def halfRow (t : Tile) (bank row h : Nat) : Vec := Vec.mk' .fp32 (fun i => t.accAt bank row (128 * h + i))
/-- ACRD (R247). -/
def opAcrd (d bank row h : Nat) (c : OpCtx) : Res (List Post) := dstPosts c d 4 (halfRow c.t bank row h) allOnes
/-- DRAIN (R247): with CLR the half row is cleared as a landing at n, after every other landing at n. -/
def opDrain (d bank row h clr : Nat) (c : OpCtx) : Res (List Post) := do
  let ps ← dstPosts c d 4 (halfRow c.t bank row h) allOnes
  .ok (ps ++ (if clr = 1 then [{ lat := 0, eff := .accSet bank row (128 * h) ((upTo 128).map (fun _ => 0)) }] else []))
/-- MCLR (R248). -/
def opMclr (bank row nr : Nat) (_ : OpCtx) : Res (List Post) :=
  .ok [{ lat := 1, eff := .accClear bank row (nr + 1) }]
/-- AXCH (R246). -/
def opAxch (_ : OpCtx) : Res (List Post) := .ok [{ lat := 1, eff := .axch }]
/-- MSCL (R239). -/
def opMscl (xa side grp : Nat) (c : OpCtx) : Res (List Post) := do
  let v ← rx c xa
  .ok [{ lat := 3, eff := .scalePtr (side = 1) grp v true }]

def execPush (a fmt row : Nat) (s : State) : Out := issueTiles s 4 (opPush a fmt row)
def execShift (a fmt bank row h : Nat) (s : State) : Out := issueTiles s 4 (opShift a fmt bank row h)
def execAcc (a bank row h : Nat) (s : State) : Out := issueTiles s 4 (opAcc a bank row h)
def execDrain (d bank row h clr : Nat) (s : State) : Out := issueTiles s 4 (opDrain d bank row h clr)
def execMclr (bank row nr : Nat) (s : State) : Out := issueTiles s 4 (opMclr bank row nr)
def execAxch (s : State) : Out := issueTiles s 4 opAxch
def execAcrd (d bank row h : Nat) (s : State) : Out := issueTiles s 4 (opAcrd d bank row h)
def execAcwr (a bank row h : Nat) (s : State) : Out := issueTiles s 4 (opAcwr a bank row h)
def execMscl (xa side grp : Nat) (s : State) : Out := issueTiles s 1 (opMscl xa side grp)

end Sys2Proof.Machine
end

