-- ==== Sys2Proof/Machine/Page.lean ====
section
/-! DEFINITION. Walks that fill the TLBs, leases that run out, and the service of page faults (R101, R104, R324 to R326, R333 to
R335). -/
namespace Sys2Proof.Machine

/-- PAGE_WALK (R324 to R326): a walk for a unit completes; a translation that permits the access is cached with its lease. -/
def execPageWalk (unit va kind : Nat) (s : State) : Out :=
  if 256 ≤ unit ∨ s.hub.stalled ∨ (s.core (unit / 4)).st = .idle then .next s
  else match walkBy s unit (s.cidOf unit) va with
    | .error _ => .next s
    | .ok e => match permitted s e kind with
      | some _ => .next s
      | none => .next (landEntry s { due := 0, issue := 0, slot := 0, unit := unit, eff := .tlbFill e })
/-- LEASE_EXPIRY (R326): entries whose expiry has come are absent; in a frequency stall it waits (R14). -/
def execLeaseExpiry (unit va : Nat) (s : State) : Out :=
  if s.hub.stalled then .next s
  else
    let dead := fun (e : TlbEntry) => decide (e.expiry ≤ s.ptime) && decide (e.vbase ≤ va) && decide (va < e.vbase + e.size)
    let s1 := s.modTile unit (fun t => { t with tlb := t.tlb.filter (fun e => !(dead e)) })
    .next { s1 with dieTlb := smod [] s1.dieTlb (unit % 4) (fun l => l.filter (fun e => !(dead e))) }

/-- A PAGE fault that has been served: the core issues again at its trap point (R334). -/
def resumeFault (s : State) (k : Nat) : State :=
  s.modCore k (fun c => { c with hold := .none }.enter (if c.handler.isSome then .trapped else .running))
/-- A PAGE fault goes to the host (R104, R333): its records, the stop of the context in faulted. The trap registers were written
when the trap was taken (R341). -/
def faultToHost (s : State) (k slot raised : Nat) (rs : List (Nat × Nat × Nat)) : State :=
  let c := s.core k
  let raisers := rs.map (fun r => (⟨r.1, r.2.1, r.2.2⟩ : Raiser))
  let recs := (raisers.filter (fun r => bitOf r.reason 13)).map (raiserRecord k slot (trapOrgOf s k c.pc) raised)
  let s1 := recs.foldl postFault s
  let s2 := s1.modCore k (fun c => { c with hold := .page slot raised true [] })
  beginStop (s2.modCtx c.cid (fun x => { x with faults := x.faults ++ recs })) c.cid .faulted
/-- HW_FAULT_SERVICE (R101, R334, R335): a fault of reason ABSENT at level 0 outside every unmapping range is served from the pool,
one granule once, whose other raisers then resume; every other one, host-assisted service or an empty pool passes it to the host. -/
def execHwFaultService (core : Nat) (s : State) : Out :=
  let c := s.core core
  match c.hold with
  | .page slot raised host ((d, reason, va) :: more) =>
    if s.hub.stalled then .next s else
    let mine := !host && decide (reason % 256 = 1) && decide (bitsOf reason 9 8 = 0)
    match walk s c.cid va, mine with
    | .ok _, true => .next (resumeFault s core)
    | _, _ => match (if mine then served s c.cid 1 0 va else none) with
      | some (f, a) => .next (resumeFault (serveFault s c.cid f a) core)
      | none => .next (faultToHost s core slot raised ((d, reason, va) :: more))
  | _ => .next s

end Sys2Proof.Machine
end

