-- ==== Sys2Proof/Machine/Scan.lean ====
section
/-! DEFINITION. The five scan phases, their rendezvous and the carries of SCRY (R255 to R267). -/
namespace Sys2Proof.Machine

/-- The settings a phase reads from its shape (R255). -/
structure ScanSet where
  f : FFmt
  npkg : Nat
  ppos : Nat
  ld : Nat
  lc : Nat
  m : Nat
  rows : Nat
  w : Nat
  zs : Nat
  zx : Nat
  out : Nat
  rev : Nat
  word : List DWord

def scanSettings (m : SMap DWord) (rev : Nat) : Option ScanSet :=
  let part := (sf m 11).toNat
  let til := (sf m 12).toNat
  let sl := (sf m 13).toNat
  let po := (sf m 14).toNat
  let p := bitsOf part 29 16
  let zs := bitsOf sl 5 0
  let zx := bitsOf sl 13 8
  if 1 < (sf m 8).toNat ∨ bitsOf part 63 45 ≠ 0 ∨ bitsOf part 31 30 ≠ 0 ∨ bitsOf part 15 6 ≠ 0 ∨ bitsOf part 3 3 ≠ 0
    ∨ bitsOf til 63 40 ≠ 0 ∨ bitsOf til 23 14 ≠ 0 ∨ bitsOf til 7 7 ≠ 0 ∨ bitsOf sl 63 14 ≠ 0 ∨ bitsOf sl 7 6 ≠ 0
    ∨ 8 ≤ po ∨ p = 0 ∨ 8192 < p ∨ p ≤ bitsOf part 44 32 ∨ bitsOf part 5 4 = 3 ∨ bitsOf part 2 0 = 7
    ∨ zs = 63 ∨ zx = 63 ∨ zs = zx ∨ zs + 1 = zx ∨ zs = zx + 1 then none
  else some { f := if sf m 8 = 0 then .fp32 else .bf16, npkg := p, ppos := bitsOf part 44 32, ld := bitsOf part 5 4,
              lc := bitsOf part 2 0, m := bitsOf til 39 24, rows := bitsOf til 13 8 + 1, w := bitsOf til 6 0 + 1,
              zs := zs, zx := zx, out := po, rev := rev,
              word := [sf m 8, sf m 11, sf m 12, sf m 13, sf m 14, BitVec.ofNat 64 rev] }

/-- ⌈log2 P⌉ (R256). -/
def ScanSet.lp (x : ScanSet) : Nat := ((upTo 14).find? (fun l => decide (x.npkg ≤ 2 ^ l))).getD 13
def ScanSet.bf16 (x : ScanSet) : Bool := decide (x.f.size = 2)
/-- The first core and the first die of the instance of a tile (R256). -/
def ScanSet.base (x : ScanSet) (k : Nat) : Nat := k / 2 ^ x.lc * 2 ^ x.lc
def ScanSet.dieBase (x : ScanSet) (d : Nat) : Nat := d / 2 ^ x.ld * 2 ^ x.ld

/-- The settings, the program, the scan state and the block of a phase, checked at issue (R254 to R257): what a phase other
than SLOC must find. -/
def scanPrep (c : OpCtx) (sh sw rev : Nat) (need : Option ScanSt) : Res (ScanSet × List Word) := do
  let x ← match scanSettings (shapeAfter c.t (4 + sh) (4 + sh) sw) rev with
    | some x => .ok x
    | none => raise cILLEGAL 0
  let prog ← match c.t.prog with
    | some p => .ok p
    | none => raise cILLEGAL 0
  check (match need with
    | none => true
    | some st => decide (c.t.scanSt = st) && decide (c.t.settings = x.word)) cILLEGAL 0
  let g := c.s.groupOf c.k
  check ((upTo (2 ^ x.lc)).all (fun i => g.cores.contains (x.base c.k + i))) cILLEGAL 0
  .ok (x, prog)

/-- A pair of slots as an element; the absent bit given (R250, R257). -/
def readPair (t : Tile) (absent : Bool) (z : Nat) (x : ScanSet) : Pair :=
  if absent then none
  else
    let comp := fun z => (upTo x.rows).flatMap (fun r => (upTo x.w).map (fun j => slotVal t z x.f r j))
    some (comp z, comp (z + 1))

/-- One stream access of a streaming phase (R263): its address in a scratchpad, or its physical address in memory with its virtual
granule; the lines that it reads are allocated (R336). A reserved bank stalls the access that meets it: at issue only one of the first
`now` accesses (R198, R264). -/
def scanAddr (c : OpCtx) (w : Walker) (now i : Nat) (kind : Nat) : Res (Nat × Bool × Nat × List Post) := do
  let a ← walkerRange w (w.addrAt (w.a + i))
  if w.kind = 4 ∨ w.kind = 5 then
    let (pa, nc, ps) ← xlate c a kind
    let fill : List Post := if kind = 0 then [{ lat := 0, eff := .fill (linesOf pa w.elem) nc }] else []
    .ok (pa, nc, granule a, ps ++ fill)
  else
    if i < now then spadFree c (if w.kind = 3 then unitOf (4 * (c.k / 4) + w.qtile) c.die else c.u) a w.elem
    .ok (a, false, 0, [])
def scanAddrs (c : OpCtx) (w : Walker) (now kind : Nat) : List Nat → Res (List (Nat × Bool × Nat × List Post))
  | [] => .ok []
  | i :: is => do
    let x ← scanAddr c w now i kind
    let r ← scanAddrs c w now kind is
    .ok (x :: r)

/-- SLOC and SAPL (R259, R263 to R266); an operation of the same bundle that has popped, pushed or configured one of its ports makes it
raise (R265, log 101). `step` bundles from one element row to the next, the prefix of SAPL as `left`. -/
def scanStream (c : OpCtx) (x : ScanSet) (prog : List Word) (sloc : Bool) (a step : Nat) (left : Pair) : Res (List Post) := do
  let pin := a - 40
  let win := c.t.getWalk pin
  let wout := c.t.getWalk x.out
  let n := x.m * x.rows
  let need := x.f.size * x.w
  check ((win.kind = 1 || win.kind = 3 || win.kind = 4) && (wout.kind = 2 || wout.kind = 5) && x.out ≠ pin
    && need ≤ win.elem && need ≤ wout.elem && !portHeld c pin && !portHeld c x.out
    && stagedAdv c.u pin c.staged = 0 && stagedAdv c.u x.out c.staged = 0
    && !(c.staged.any (fun e => decide (e.unit = c.u) && (match e.eff with
      | .wcfg p _ _ => decide (p = pin) || decide (p = x.out)
      | _ => false)))) cILLEGAL 0
  if win.tag ≠ x.f.tag then raise cTAG_MISMATCH (tagArg a win.tag x.f.tag)
  let ins ← scanAddrs c win 2 0 (upTo (2 * n))
  let outs ← scanAddrs c wout 0 1 (upTo (2 * n))
  let lat := max 1 (n * step)
  let src := if win.kind = 4 then none else some (if win.kind = 3 then unitOf (4 * (c.k / 4) + win.qtile) c.die else c.u)
  let zero : Nat × Bool × Nat × List Post := (0, false, 0, [])
  let rows := (upTo n).flatMap (fun j =>
    let ia := nth zero ins (2 * j)
    let ib := nth zero ins (2 * j + 1)
    let oa := nth zero outs (2 * j)
    let ob := nth zero outs (2 * j + 1)
    let row : ScanRow :=
      { n0 := c.n, j := j, rows := x.rows, sloc := sloc, bf16 := x.bf16, w := x.w, prog := prog, left := left, src := src,
        aA := ia.1, aB := ib.1, ncA := ia.2.1, ncB := ib.2.1 }
    [({ lat := j * step, eff := .scanPop row, vg := [ia.2.2.1, ib.2.2.1] } : Post),
     { lat := (j + 1) * step, eff := .scanPush c.n j x.bf16 x.w wout.elem (decide (wout.kind = 5)) oa.1 ob.1 oa.2.1 ob.2.1,
       vg := [oa.2.2.1, ob.2.2.1] }])
  .ok ((if n = 0 then [] else [{ lat := 0, eff := .walkAdv pin (2 * n) }, { lat := 0, eff := .walkAdv x.out (2 * n) }])
    ++ [{ lat := 0, eff := .hold [pin, x.out] (c.n + lat) },
        { lat := 0, eff := .scanState (if sloc then .local else .down) x.word }]
    ++ rows ++ [{ lat := lat, eff := .scanEnd c.n sloc x.zs x.m x.rows x.bf16 x.w }]
    ++ ins.flatMap (·.2.2.2) ++ outs.flatMap (·.2.2.2))

/-- SLOC (R257, R259). -/
def opSloc (sh sw rev a : Nat) (c : OpCtx) : Res (List Post) := do
  let (x, prog) ← scanPrep c sh sw rev none
  slotFree c x.zs
  slotFree c (x.zs + 1)
  let ps ← scanStream c x prog true a (1 + progLen prog) none
  .ok (swapPosts (4 + sh) sw ++ ps)
/-- SAPL (R257, R259). -/
def opSapl (sh sw rev a : Nat) (c : OpCtx) : Res (List Post) := do
  let (x, prog) ← scanPrep c sh sw rev (some .down)
  slotFree c x.zx
  slotFree c (x.zx + 1)
  let ps ← scanStream c x prog false a 1 (readPair c.t c.t.xabs x.zx x)
  .ok (swapPosts (4 + sh) sw ++ ps)
def execSloc (sh sw rev a : Nat) (s : State) : Out := issueTiles s 5 (opSloc sh sw rev a)
def execSapl (sh sw rev a : Nat) (s : State) : Out := issueTiles s 5 (opSapl sh sw rev a)

/-- The rendezvous phases (R257). -/
inductive TreePhase where
  | sup | scry | sdn
  deriving DecidableEq, Repr
def TreePhase.from_ : TreePhase → ScanSt
  | .sup => .local
  | .scry => .up
  | .sdn => .carried
def TreePhase.to_ : TreePhase → ScanSt
  | .sup => .up
  | .scry => .carried
  | .sdn => .down
def TreePhase.code : TreePhase → Nat
  | .sup => 0
  | .scry => 1
  | .sdn => 2
/-- The phase of an instruction, with its SH, SW and REV. -/
def treePhase : Instr → Option (TreePhase × Nat × Nat × Nat)
  | .sup sh sw rev _ => some (.sup, sh, sw, rev)
  | .scry sh sw rev _ => some (.scry, sh, sw, rev)
  | .sdn sh sw rev _ => some (.sdn, sh, sw, rev)
  | _ => none

/-- A tile of a core that stands at a phase: its settings and program, or its stop. -/
structure AtPhase where
  k : Nat
  d : Nat
  ph : TreePhase
  sh : Nat
  sw : Nat
  res : Res (ScanSet × List Word)
/-- The look of one tile at its phase (R254 to R257, R270). -/
def treeLook (ph : TreePhase) (sh sw rev : Nat) (c : OpCtx) : Res (ScanSet × List Word) := do
  let (x, prog) ← scanPrep c sh sw rev (some ph.from_)
  slotFree c x.zs
  slotFree c (x.zs + 1)
  slotFree c x.zx
  slotFree c (x.zx + 1)
  .ok (x, prog)
/-- The tiles of core k that stand at a phase, each with what its look finds; none when the core is not at one. -/
def phaseOf (s : State) (k : Nat) : List AtPhase :=
  let c := s.core k
  match c.issue with
  | none => []
  | some i =>
    if !(canIssue s c && i.brtDone && c.handler.isNone) then []
    else match nextOp i with
      | some (5, op) => match treePhase op with
        | none => []
        | some (ph, sh, sw, rev) => (i.dies 5).map (fun d =>
            { k := k, d := d, ph := ph, sh := sh, sw := sw,
              res := treeLook ph sh sw rev { s := s, u := unitOf k d, slot := 5, n := c.bn, single := false } })
      | _ => []

/-- The tiles that a tile's rendezvous waits for (R256, R258): the cores of its block, on its die for SUP and SDN, on the dies
of its die group for SCRY. -/
def partsOf (a : AtPhase) (x : ScanSet) : List (Nat × Nat) :=
  (upTo (2 ^ x.lc)).flatMap (fun i =>
    (if a.ph = .scry then (upTo (2 ^ x.ld)).map (fun j => x.dieBase a.d + j) else [a.d]).map (fun d => (x.base a.k + i, d)))

/-- The cores that a core's rendezvous reaches, by repeated steps over the participants; none when some participant has not
reached the same phase. -/
def gather (s : State) (ph : TreePhase) : Nat → List Nat → Option (List AtPhase)
  | 0, _ => none
  | fuel + 1, ks =>
    let ats := ks.flatMap (phaseOf s)
    let parts := ats.flatMap (fun a => match a.res with
      | .ok (x, _) => partsOf a x
      | .error _ => [])
    let ready := ks.all (fun k => let l := ats.filter (fun a => decide (a.k = k))
      !l.isEmpty && l.all (fun a => decide (a.ph = ph) && a.res.isOk))
    if !ready then none
    else
      let more := (parts.map (·.1)).eraseDups.filter (fun k => !(ks.contains k))
      if !more.isEmpty then gather s ph fuel (ks ++ more)
      else if parts.all (fun p => ats.any (fun a => decide (a.k = p.1) && decide (a.d = p.2))) then some ats
      else none

def AtPhase.set (a : AtPhase) : Option (ScanSet × List Word) := match a.res with
  | .ok x => some x
  | .error _ => none
/-- The tiles whose instance shows two settings words, or meets an instance that does (R258). -/
def mismatched (ats : List AtPhase) : List (Nat × Nat) :=
  let word := fun (a : AtPhase) => (a.set.map (·.1.word)).getD []
  let parts := fun (a : AtPhase) => (a.set.map (fun x => partsOf a x.1)).getD []
  let linked := fun (a b : AtPhase) => (parts a).contains (b.k, b.d) || (parts b).contains (a.k, a.d)
  let bad0 := ats.filter (fun a => ats.any (fun b => linked a b && decide (word a ≠ word b)))
  let grow := fun (bad : List AtPhase) =>
    ats.filter (fun a => bad.any (fun b => (decide (a.k = b.k) && decide (a.d = b.d)) || linked a b))
  if bad0.isEmpty then [] else (grow (grow (grow bad0))).map (fun a => (a.k, a.d))

/-- The position of a tile inside its block, and of its die inside its die group, in scan order (R256). -/
def scanPlace (x : ScanSet) (k d : Nat) : Nat × Nat :=
  let c := k % 2 ^ x.lc
  let q := d % 2 ^ x.ld
  if x.rev = 1 then (2 ^ x.lc - 1 - c, 2 ^ x.ld - 1 - q) else (c, q)
def findPlace (ats : List AtPhase) (x : ScanSet) (a : AtPhase) (c q : Nat) : Option AtPhase :=
  ats.find? (fun b => (partsOf a x).contains (b.k, b.d) && decide (scanPlace x b.k b.d = (c, q)))

/-- This package's position among the package positions, in scan order (R256). -/
def ScanSet.pq (x : ScanSet) : Nat := if x.rev = 1 then 2 ^ x.lp - 1 - x.ppos else x.ppos
/-- The flits in the hub that come from a position of this package itself, in an instance at its SCRY: another device claims the
position (R422, log 103). -/
def claims (s : State) (ats : List AtPhase) : List CarryIn :=
  s.hub.carriesIn.filter (fun c => decide (c.level ≠ 255) && ats.any (fun a => match a.set with
    | some (x, _) => decide (a.ph = .scry) && decide (1 < x.npkg) && decide (c.kern = (s.core a.k).group)
        && decide (c.inst = unitOf (x.base a.k) (x.dieBase a.d)) && decide (c.pos = x.pq)
    | none => false))

/-- The package hop in cycles, ⌈450 × f⌉, at the frequency step in force (R266, R431). -/
def packageHop (s : State) : Nat := nth 1485 [1485, 1305, 1080, 810, 540] s.hub.freqnow
/-- The results of a phase on one tile (R259, R266). -/
def treePosts (s : State) (ats : List AtPhase) (a : AtPhase) (x : ScanSet) (prog : List Word) : List Post :=
  let n := 2 ^ x.lc
  let (c, q) := scanPlace x a.k a.d
  let tileOf := fun (b : Option AtPhase) => match b with
    | some b => s.tile (unitOf b.k b.d)
    | none => {}
  let progOf := fun (b : Option AtPhase) => ((b.bind AtPhase.set).map (·.2)).getD []
  let sumOf := fun (b : Option AtPhase) => let t := tileOf b; readPair t t.sabs x.zs x
  let sl := progLen prog
  match a.ph with
  | .sup =>
    let row := (upTo n).map (fun i => findPlace ats x a i q)
    let us := sweepUp x.f (row.map progOf) x.lc 0 (row.map (fun b => (sumOf b, 0)))
    let (u, fl) := nth (none, 0) us c
    [{ lat := max 1 (x.lc * (2 + sl)), eff := if c % 2 = 1 then pairEff true x.zs x.f x.w u else .none_, fl := fl }]
  | .sdn =>
    let row := (upTo n).map (fun i => findPlace ats x a i q)
    let us := row.map sumOf
    let xs0 := row.map (fun b => let t := tileOf b; (readPair t t.xabs x.zx x, (0 : Flags)))
    let (p, fl) := nth (none, 0) (sweepDown x.f (row.map progOf) us x.lc xs0) c
    [{ lat := max 1 (x.lc * (2 + sl)), eff := if x.lc = 0 then .none_ else pairEff false x.zx x.f x.w p, fl := fl }]
  | .scry =>
    if c ≠ n - 1 then []
    else
      let roots := (upTo (2 ^ x.ld)).map (fun j => findPlace ats x a c j)
      let lat := max 1 (2 * x.ld * (14 + sl))
      if x.npkg = 1 then
        let us := sweepUp x.f (roots.map progOf) x.ld 0 (roots.map (fun b => (sumOf b, 0)))
        let xs := sweepDown x.f (roots.map progOf) (us.map (·.1)) x.ld (roots.map (fun _ => ((none : Pair), (0 : Flags))))
        let (u, f1) := nth (none, 0) us q
        let (p, f2) := nth (none, 0) xs q
        [{ lat := lat, eff := if q % 2 = 1 then pairEff true x.zs x.f x.w u else .none_, fl := f1 ||| f2 },
         { lat := lat, eff := pairEff false x.zx x.f x.w p }]
      else
        let inst := unitOf (x.base a.k) (x.dieBase a.d)
        [{ lat := lat + 2 * x.lp * (packageHop s + sl), inter := true, pend := true,
           eff := .scry { inst := inst, ncores := n, word := ((s.core a.k).issue.map (fun i => nth 0 i.words 5)).getD 0, kern := (s.core a.k).group, q := q, nroots := 2 ^ x.ld, zs := x.zs, zx := x.zx,
                          bf16 := x.bf16, rows := x.rows, w := x.w, lp := x.lp, pq := x.pq, npkg := x.npkg,
                          rev := decide (x.rev = 1), prog := prog, u := sumOf (some a) } }]

/-- The tiles of the instance that a tile's phase names (R256). -/
def instTiles (a : AtPhase) (x : ScanSet) : List (Nat × Nat) :=
  (upTo (2 ^ x.lc)).flatMap (fun i => (upTo (2 ^ x.ld)).map (fun j => (x.base a.k + i, x.dieBase a.d + j)))
/-- The instances that meet: an instance of the same group whose block shares a core with another's and that shows another settings word
makes both raise (R258, log 93). The answer lists every participant of both with the phase at which its instance stands. -/
def overlapping (s : State) (k : Nat) : List (Nat × Nat × Nat) :=
  let others := s.cores.map (·.1) |>.filter (fun j => decide ((s.core j).group = (s.core k).group))
  let ats := others.flatMap (phaseOf s)
  ((phaseOf s k).flatMap (fun a => ats.flatMap (fun b => match a.set, b.set with
    | some x, some y =>
      let ta := instTiles a x.1
      let tb := instTiles b y.1
      if x.1.word ≠ y.1.word ∧ ta ≠ tb ∧ (ta.map (·.1)).any (fun j => (tb.map (·.1)).contains j)
      then (ta.filter (fun p => a.ph = .scry || p.2 = a.d)).map (fun p => (a.ph.code, p))
        ++ (tb.filter (fun p => b.ph = .scry || p.2 = b.d)).map (fun p => (b.ph.code, p)) else []
    | _, _ => []))).eraseDups
/-- The tiles of core k that raise ILLEGAL since their instance has met one that overlaps it. -/
def spoiledHere (s : State) (k : Nat) : List (Nat × Nat) :=
  ((phaseOf s k).filter (fun a => (s.groupOf k).spoiled.contains (a.ph.code, unitOf a.k a.d))).map (fun a => (a.k, a.d))
/-- The phase raises ILLEGAL at its bundle on the tiles listed, which stand at it. -/
def phaseRaises (s : State) (tiles : List (Nat × Nat)) : State :=
  ((tiles.map (·.1)).eraseDups).foldl (fun s' k' =>
    let ds := (tiles.filter (fun p => decide (p.1 = k'))).map (·.2)
    match (s.core k').issue with
    | some i => takeTrap s' k' cILLEGAL 5 (ds.map (fun d => ⟨d, 0, nth 0 i.words 5⟩))
    | none => s') s

/-- A rendezvous of core k (R258): an instance that overlaps another with another settings word raises ILLEGAL; else nothing
happens until every participant stands at the phase; then it raises ILLEGAL where settings words differ, or on all of them where
another device claims their position (R422), or it issues on all of them. -/
def rendezvous (s : State) (k : Nat) : State :=
  match phaseOf s k with
  | [] => s
  | a0 :: _ =>
    let kern := (s.core k).group
    let gone := spoiledHere s k
    let lap := overlapping s k
    if !gone.isEmpty then
      phaseRaises (s.modGroup kern (fun g => { g with
        spoiled := g.spoiled.filter (fun e => !(gone.any (fun p => decide (e = (a0.ph.code, unitOf p.1 p.2))))) })) gone
    else if !lap.isEmpty then
      let stands := fun (p : Nat × Nat × Nat) => (phaseOf s p.2.1).any (fun b => decide (b.d = p.2.2) && decide (b.ph.code = p.1))
      phaseRaises (s.modGroup kern (fun g => { g with
        spoiled := g.spoiled ++ (lap.filter (fun p => !stands p)).map (fun p => (p.1, unitOf p.2.1 p.2.2)) })) ((lap.filter stands).map (·.2)).eraseDups
    else match gather s a0.ph 65 [k] with
    | none => s
    | some ats =>
      let bad := mismatched ats
      let ks := (ats.map (·.k)).eraseDups
      let cs := claims s ats
      if !bad.isEmpty then phaseRaises s bad
      else if !cs.isEmpty then
        phaseRaises { s with hub := { s.hub with carriesIn := s.hub.carriesIn.filter (fun c => !(cs.contains c)) } } (ats.map (fun a => (a.k, a.d)))
      else
        ks.foldl (fun s' k' =>
          let c := s.core k'
          let es := (ats.filter (fun a => decide (a.k = k'))).flatMap (fun a => match a.set with
            | none => []
            | some (x, prog) =>
              let start : List Post := if a.ph = .scry ∧ 1 < x.npkg then
                [{ lat := 0, eff := .scryStart (unitOf (x.base a.k) (x.dieBase a.d)) }] else []
              let st : Post := { lat := 0, eff := .scanState a.ph.to_ x.word }
              (swapPosts (4 + a.sh) a.sw ++ [st] ++ treePosts s ats a x prog ++ start).map (fun p => p.entry c.bn 5 (unitOf a.k a.d)))
          s'.modCore k' (fun c => { c with issue := c.issue.map (fun i => { i with slot := 6, staged := i.staged ++ es }) })) s

/-- SUP, SCRY and SDN at issue: their own traps, else the rendezvous. -/
def treeIssue (s : State) (ph : TreePhase) (sh sw rev : Nat) : Out :=
  match s.turn with
  | .core k =>
    let c := s.core k
    match c.issue with
    | none => .next s
    | some i =>
      if !(i.brtDone && decide (i.slot = 5)) then .next s
      else
        let r := runOn s k 5 c.bn false (fun o => do
          let _ ← treeLook ph sh sw rev o
          .ok []) (i.dies 5)
        if r.wait then .next (joinBanks (arriveOldest s k) k 5 c.bn r.asks)
        else if !r.traps.isEmpty then .next (trapOf s k 5 (nth 0 i.words 5) r.traps)
        else .next (rendezvous s k)
  | _ => .next s
def execSup (sh sw rev _a : Nat) (s : State) : Out := treeIssue s .sup sh sw rev
def execScry (sh sw rev _a : Nat) (s : State) : Out := treeIssue s .scry sh sw rev
def execSdn (sh sw rev _a : Nat) (s : State) : Out := treeIssue s .sdn sh sw rev
/-- The rendezvous as an event of a waiting core (R258). -/
def execScanRendezvous (core : Nat) (s : State) : Out := .next (s.unlessStalled (rendezvous s core))

/-- A device learns that another claims its position after the SCRY has issued (R422, log 103): the SCRY lands nothing, and every
participant here raises ILLEGAL at its next bundle. -/
def claimRaises (s : State) (kern inst : Nat) : State :=
  match (scryRecs s kern inst).head? with
  | none => s
  | some (_, _, r) =>
    let hit := fun (k : Nat) (c : CoreRec) =>
      if c.group = kern ∧ c.st ≠ .idle ∧ inst / 4 ≤ k ∧ k < inst / 4 + r.ncores then
        { c with inflight := c.inflight.filter (fun e => match e.eff with
                   | .scry x => decide (x.inst ≠ inst)
                   | _ => true)
                 pendTrap := some (cILLEGAL, r.word, false, (upTo r.nroots).map (fun j => inst % 4 + j)) } else c
    let all := fun (l : List (Nat × CoreRec)) => l.map (fun p => (p.1, hit p.1 p.2))
    { s with cores := all s.cores
             ctxs := s.ctxs.map (fun x => (x.1, { x.2 with saved := x.2.saved.map (fun v => { v with cores := all v.cores }) })) }
/-- What the carries of an instance that has issued bring about (R422): a flit from this package's own position is another device's
claim; else what they let the package compute leaves. -/
def carriesTaken (s : State) (kern inst : Nat) : State :=
  match (scryRecs s kern inst).head? with
  | none => s
  | some (_, _, r) =>
    let own := fun (c : CarryIn) => decide (c.kern = kern) && decide (c.inst = inst) && decide (c.level ≠ 255) && decide (c.pos = r.pq)
    if s.hub.carriesIn.any own then
      claimRaises { s with hub := { s.hub with carriesIn := s.hub.carriesIn.filter (fun c => !(own c)) } } kern inst
    else scrySend s kern inst
/-- A carry flit arrives (R422): the hub holds it, whether the SCRY has issued here or is saved with its context (R261, R267); in a
stall what it brings about waits for the resume (R13). -/
def execCarryFlit (kern inst level pos absent data : Nat) (s : State) : Out :=
  let c : CarryIn := { kern := kern, inst := inst, level := level, pos := pos, absent := decide (absent = 1), data := data }
  let s1 := { s with hub := { s.hub with carriesIn := s.hub.carriesIn ++ [c] } }
  if s.hub.stalled then .next s1 else .next (carriesTaken s1 kern inst)
/-- The flits of an SCRY that has landed are gone; those of the instance's next one stay, each level and position in arrival order. -/
def takeCarries (cs : List CarryIn) (r : ScryRec) : List CarryIn :=
  let used := (r.hops.zip (upTo r.lp)).filterMap (fun h => h.1.map (fun p => (h.2, p.2))) ++ r.above.toList
  (used.foldl (fun (l : List CarryIn) u => l.eraseP (fun c => c.isFrom r u.1 u.2)) cs).filter (fun c =>
    !(decide (c.kern = r.kern) && decide (c.inst = r.inst) && decide (c.level = 255)))

/-- The carry of an instance has come: its pairs arrive at every root and land at the bundle due (R44, R259, R266); absent everywhere when
a route has failed (R422). Of a context that is saved the hub holds the arrival (R267). -/
def execScryCarryArrival (kern inst : Nat) (s : State) : Out :=
  let rs := scryRecs s kern inst
  match rs.head? with
  | none => .next s
  | some (_, _, r0) =>
    if rs.length ≠ r0.nroots ∨ rs.any (fun x => !((s.core x.1).inflight.contains x.2.1)) ∨ s.hub.stalled then .next s
    else
      let failed := scryFails s r0
      let o := scryRun s kern inst
      match failed, o.done with
      | false, none => .next s
      | _, done =>
        let last := r0.nroots - 1
        let s1 := rs.foldl (fun s x =>
          let (k, e, r) := x
          let f := scanFmt r.bf16
          let (u, fu) := nth (none, 0) o.us r.q
          let (top, xs) := done.getD (none, [])
          let (p, fp) := if failed then ((none : Pair), (0 : Flags)) else nth (none, 0) xs r.q
          let u' : Pair := if failed then none else if r.q = last then top else u
          let writesU := failed || decide (r.q % 2 = 1) || (decide (r.q = last) && decide (0 < r.rightLevels))
          let fl : Flags := if failed then 0 else fu ||| fp ||| (if r.q = last then o.top else 0)
          let e1 : Entry := { e with eff := if writesU then pairEff true r.zs f r.w u' else .none_, pend := false, fl := fl }
          let e2 : Entry := { e with eff := pairEff false r.zx f r.w p, pend := false }
          rebase (s.modCore k (fun c => { c with inflight := c.inflight.flatMap (fun y => if y = e then [e1, e2] else [y]) })) k) s
        let keep := fun (c : Carry) => !(decide (c.kern = kern) && decide (c.inst = inst))
        .next { s1 with hub := { s1.hub with carriesIn := takeCarries s1.hub.carriesIn r0, carriesOut := s1.hub.carriesOut.filter keep } }

/-- The slots that an SCN operation of a tile reads or writes (R266, R270, R272 to R276). -/
def scnSlots (c : OpCtx) (i : Instr) : List Nat :=
  let phase := fun (sh sw rev : Nat) (f : ScanSet → List Nat) =>
    ((scanSettings (shapeAfter c.t (4 + sh) (4 + sh) sw) rev).map f).getD []
  let both := fun (x : ScanSet) => [x.zs, x.zs + 1, x.zx, x.zx + 1]
  match i with
  | .zld _ z _ => [z]
  | .zrd _ z _ => [z]
  | .zclr z => [z]
  | .zmov zd za => [zd, za]
  | .step z _ _ => [z]
  | .stepSpec z _ _ => [z, z + 1]
  | .sdot _ z _ => [z]
  | .sloc sh sw rev _ => phase sh sw rev both
  | .sapl sh sw rev _ => phase sh sw rev both
  | .sup sh sw rev _ => phase sh sw rev both
  | .scry sh sw rev _ => phase sh sw rev both
  | .sdn sh sw rev _ => phase sh sw rev both
  | _ => []
/-- The pairs of an SCRY that have arrived on a tile before the bundle they are due at and that the SCN operation `i` of core k meets:
its read waits for them, and they land (R44, R266). -/
def metPairs (s : State) (k : Nat) (is : Issue) (i : Instr) : List Entry :=
  (s.core k).inflight.filter (fun e => e.inter && !e.pend && (match e.eff with
    | .scanPair _ z _ => (is.dies 5).any (fun d => decide (e.unit = unitOf k d)
        && (scnSlots { s := s, u := unitOf k d, slot := 5, n := (s.core k).bn, single := false } i).any (fun y => decide (y = z ∨ y = z + 1)))
    | _ => false))
/-- The pairs met land. -/
def landMet (s : State) (k : Nat) (es : List Entry) : State :=
  es.foldl landEntry (s.modCore k (fun c => { c with inflight := c.inflight.filter (fun e => !(es.contains e)) }))

end Sys2Proof.Machine
end

