-- ==== Sys2Proof/Machine/Platform.lean ====
section
/-! DEFINITION. The platform: reset (R16), fencing (R7, R432), frequency steps and column changes (R11 to R15, R337, R338, R431 to
R433), idle and self-refresh (R434), firmware hand-over and attestation (R437 to R439), and the management registers (R426 to R428). -/
namespace Sys2Proof.Machine

/-- DEVICE_RESET (R16, R429): the state of reset; package memory, what the fuses and the booted firmware fix, and what stands outside
the device are as they were (log 48). -/
def execDeviceReset (s : State) : Out :=
  .next { State.reset with
    mem := s.mem, sched := s.sched, freeCount := s.freeCount,
    hub := { secure := s.hub.secure, runver := s.hub.runver, runlay := s.hub.runlay, runImage := s.hub.runImage, hostMem := s.hub.hostMem } }

/-- The device takes no further work (R7). -/
def fence (s : State) : State := { s with hub := { s.hub with fenced := true } }
/-- FAILED_UNIT_FENCE (R7). -/
def execFailedUnitFence (s : State) : Out := .next (fence s)
/-- THERMAL_FENCE (R432). -/
def execThermalFence (s : State) : Out := .next (fence s)

/-- The frequency step that is asked for last, or the one in force. -/
def lastFreq (s : State) : Nat :=
  s.hub.stalls.foldl (fun f r => match r with
    | .freq g => g
    | .cols _ => f) s.hub.freqnow
/-- A package-wide stall joins those that wait, in arrival order (R15, R433). -/
def askStall (s : State) (r : StallReq) : State := { s with hub := { s.hub with stalls := s.hub.stalls ++ [r] } }
/-- A write of PWRCTL.FREQ (R431, R432): 5 to 7 are discarded; one that differs from FREQNOW starts a step. -/
def writeFreq (s : State) (v : Nat) : State :=
  if 5 ≤ v then s
  else
    let s1 := { s with hub := { s.hub with freq := v, gov := s.hub.gov && decide (v < lastFreq s) } }
    if v = s.hub.freqnow ∧ lastFreq s = v then s1 else askStall s1 (.freq v)
def execPwrctlFreq (val : Nat) (s : State) : Out := .next (writeFreq s val)
/-- Every C-die's clock is gated at the stop cycle (R12): the cores that run are stalled (R156). -/
def gate (s : State) : State :=
  { s with cores := s.cores.map (fun p => if p.2.st = .running then (p.1, { p.2 with st := .stalled }) else p)
           hub := { s.hub with stalled := true, stallCores := (s.cores.filter (fun p => decide (p.2.st = .running))).map (·.1) } }
/-- The common resume (R12): every core goes on as it was, what came during the stall is delivered in arrival order (R13), and the
debugger's requests that it held are served (R435). -/
def ungate (s : State) : State :=
  let s1 := { s with cores := s.cores.map (fun p => if p.2.st = .stalled ∧ s.hub.stallCores.contains p.1 then (p.1, { p.2 with st := .running }) else p)
                     hub := { s.hub with stalled := false, stallCores := [] } }
  let came := (s.hub.carriesIn.map (fun c => (c.kern, c.inst))).eraseDups
  serveDebug (retryHolds (came.foldl (fun s c => carriesTaken s c.1 c.2) (deliverHeld s1)))
/-- FREQUENCY_STALL (R12). -/
def execFrequencyStall (s : State) : Out :=
  match s.hub.stalls with
  | .freq _ :: _ => if s.hub.stalled ∨ s.hub.idle then .next s else .next (gate s)
  | _ => .next s
/-- PLL_RELOCK (R12): the new frequency, and the common resume. GOV says whether the governor still holds FREQNOW below FREQ. -/
def execPllRelock (s : State) : Out :=
  match s.hub.stalls with
  | .freq f :: rest =>
    if s.hub.stalled then .next (ungate { s with hub := { s.hub with stalls := rest, freqnow := f, gov := s.hub.gov && decide (s.hub.freq < f) } })
    else .next s
  | _ => .next s
/-- GOVERNOR_STEP_DOWN (R432). -/
def execGovernorStepDown (s : State) : Out :=
  if lastFreq s < 4 then .next (askStall { s with hub := { s.hub with gov := true } } (.freq (lastFreq s + 1))) else .next s
/-- GOVERNOR_STEP_UP (R432): one step up while the governor holds FREQNOW below FREQ. -/
def execGovernorStepUp (s : State) : Out :=
  if s.hub.gov ∧ s.hub.freq < lastFreq s then .next (askStall s (.freq (lastFreq s - 1))) else .next s

/-- The lines of a die's L2 that a change of mask moves are written back and invalidated (R338). -/
def moveLines (s : State) (new d : Nat) : State :=
  ((sget [] s.l2 d).filter (fun l => decide (columnOf s.hub.colmask (64 * l.1) ≠ columnOf new (64 * l.1)))).foldl (fun s l => s.flushL2 d l.1) s
/-- COLUMN_CHANGE (R338): it gates the dies as a frequency step does; in the stall the moved lines leave, COLMASK takes its value on every
die, and the dies resume (log 55). -/
def execColumnChange (s : State) : Out :=
  match s.hub.stalls with
  | .cols m :: rest =>
    if s.hub.idle then .next s
    else if !s.hub.stalled then .next (gate s)
    else
      let s1 := (upTo 4).foldl (fun s d => moveLines s m d) s
      .next (ungate { s1 with hub := { s1.hub with colmask := m, stalls := rest } })
  | _ => .next s
/-- REHASH and FWHO of context 0 act on the whole device (R96). -/
def State.rehash (s : State) : Bool := bitOf (s.ctx 0).split.toNat 4
def State.fwho (s : State) : Bool := bitOf (s.ctx 0).split.toNat 5
/-- The mask that is asked for last, or the one in force. -/
def lastMask (s : State) : Nat :=
  s.hub.stalls.foldl (fun m r => match r with
    | .cols n => n
    | .freq _ => m) s.hub.colmask
/-- A write of PWRCTL.COLTGT (R431, R433): 0 is discarded. -/
def writeColtgt (s : State) (v : Nat) : State :=
  let v := v % 256
  if v = 0 then s
  else
    let s1 := { s with hub := { s.hub with coltgt := v } }
    if (if s.rehash then v = s.hub.coltgt else v = lastMask s) then s1 else askStall s1 (.cols v)
def execPwrctlColtgt (val : Nat) (s : State) : Out := .next (writeColtgt s val)
/-- COLUMN_DARKEN_IDLE (R433): further columns go dark in hardware mode; one stays powered (R337). -/
def execColumnDarkenIdle (mask : Nat) (s : State) : Out :=
  let new := Nat.xor (lastMask s) (Nat.land (lastMask s) (mask % 256))
  if s.rehash ∨ new = 0 ∨ new = lastMask s then .next s else .next (askStall s (.cols new))
/-- COLUMN_RELIGHT (R433): the column that an access misses to, of those the firmware darkened on its own. -/
def execColumnRelight (pa : Nat) (s : State) : Out :=
  let h := hashCol pa
  if s.rehash ∨ bitOf (lastMask s) h ∨ !(bitOf s.hub.coltgt h) then .next s
  else .next (askStall s (.cols (lastMask s + 2 ^ h)))

/-- ENTER_IDLE (R434): IDLE is set and no context is running. -/
def execEnterIdle (s : State) : Out :=
  if !s.hub.idleReq ∨ s.hub.idle ∨ s.hub.stalled ∨ s.ctxs.any (fun x => decide (x.2.st = .running)) then .next s
  else .next { s with hub := { s.hub with idle := true, wake := false } }
/-- ENTER_SELF_REFRESH (R434). -/
def execEnterSelfRefresh (s : State) : Out :=
  if s.hub.idle ∧ s.hub.srReq then .next { s with hub := { s.hub with selfRefresh := true } } else .next s
/-- WAKE_TO_ACTIVE (R434): after a doorbell, a dispatch or IDLE := 0; self-refresh ends first. -/
def execWakeToActive (s : State) : Out :=
  if s.hub.idle ∧ (s.hub.wake ∨ !s.hub.idleReq) then
    .next { s with hub := { s.hub with idle := false, selfRefresh := false, wake := false } }
  else .next s

/-- Bytes of host memory (R424, R426). -/
def State.hostBytes (s : State) (a n : Nat) : List Byte := (upTo n).map (fun i => sget 0 s.hub.hostMem (a + i))
/-- FW_LOAD (R426, R438): the image beside the running one; ERR 5 with a phase in progress or without a ring address. -/
def execFwLoad (s : State) : Out :=
  if s.hub.fqbase = 0 ∨ s.hub.fwPhase ≠ 0 then .next { s with hub := { s.hub with fwErr := 5 } }
  else
    let m := s.hostBytes (s.hub.fqbase + 4096) 256
    let size := leNat ((m.drop 16).take 8)
    let img : FwImage := { version := leNat ((m.drop 4).take 2), layouts := leNat ((m.drop 6).take 2), base := s.hub.fqbase + 4096, size := size,
                           manifest := m, body := s.hostBytes (s.hub.fqbase + 4096 + 256) size }
    .next { s with hub := { s.hub with fwPhase := 1, fwErr := 0, pendImage := some img } }
/-- The image is discarded with an error (R438). -/
def fwDiscard (s : State) (err : Nat) : State := { s with hub := { s.hub with fwPhase := 0, fwErr := err, pendImage := none } }
/-- LAYOUT_BUSY (R107, R438): a saved context's layout lacks its bit. -/
def layoutBusy (s : State) (layouts : Nat) : Bool :=
  s.ctxs.any (fun x => match x.2.saved with
    | some v => !(bitOf layouts v.layout)
    | none => false)
/-- The tests of an image (R437, R438): the first error, 0 for none. -/
def fwTest (s : State) (i : FwImage) : Nat :=
  let key := leNat ((i.manifest.drop 9).take 1)
  let sig := (i.manifest.drop 128).take 64
  if 8 ≤ key ∨ !(Config.signatureOk key sig (leBytes 64 (Config.sha512 (i.manifest.take 128)))) then 1
  else if leNat ((i.manifest.drop 64).take 64) ≠ Config.sha512 i.body % 2 ^ 512 then 2
  else if i.version < Config.rollbackFloor then 3
  else if layoutBusy s i.layouts then 4 else 0
/-- FW_VERIFY_DONE (R438): ready or discarded; without host assistance it commits at once. -/
def execFwVerifyDone (s : State) : Out :=
  match s.hub.pendImage with
  | none => .next s
  | some i =>
    if s.hub.fwPhase ≠ 1 then .next s
    else if fwTest s i ≠ 0 then .next (fwDiscard s (fwTest s i))
    else .next { s with hub := { s.hub with fwPhase := if s.fwho then 2 else 3 } }
/-- FW_COMMIT (R438). -/
def execFwCommit (s : State) : Out :=
  if s.hub.fwPhase = 2 then .next { s with hub := { s.hub with fwPhase := 3 } } else .next s
/-- FW_ABORT (R438). -/
def execFwAbort (s : State) : Out :=
  if s.hub.fwPhase = 1 ∨ s.hub.fwPhase = 2 then .next (fwDiscard s 0) else .next s
/-- FW_COMMIT_POINT (R438): the interpreter holds no packet; the layout test again, then the switch. -/
def execFwCommitPoint (s : State) : Out :=
  match s.hub.pendImage with
  | none => .next s
  | some i =>
    if s.hub.fwPhase ≠ 3 ∨ s.hub.interp.isSome then .next s
    else if layoutBusy s i.layouts then .next (fwDiscard s 4)
    else .next { s with hub := { s.hub with fwPhase := 0, fwErr := 0, pendImage := none, runver := i.version, runlay := i.layouts,
                                            runImage := i.manifest ++ i.body } }

/-- The fields of an attestation report above its signature, in the order of R439. -/
def reportFields (s : State) : List Byte :=
  let h := s.hub
  let pend := match h.pendImage with
    | some i => (i.version, Config.sha512 (i.manifest ++ i.body))
    | none => (0, 0)
  (upTo 32).map (fun i => sget 0 h.nonce i) ++ leBytes 32 Config.deviceKey ++ leBytes 1 (if h.secure then 1 else 0) ++ leBytes 1 h.dstate
    ++ leBytes 2 h.runver ++ leBytes 64 (Config.sha512 h.runImage) ++ leBytes 2 pend.1 ++ leBytes 64 pend.2 ++ leBytes 1 h.fwPhase ++ leBytes 8 s.ptime
/-- ATTESTATION_REQUEST (R439): a write of the last eight bytes of ATTNONCE; no report without a ring address (R426). -/
def execAttestationRequest (val : Nat) (s : State) : Out :=
  let s1 := { s with hub := { s.hub with nonce := putCells s.hub.nonce (cellsAt 24 (leBytes 8 val)) } }
  if s.hub.fqbase = 0 ∨ !s.hostPath then .next s1
  else
    let f := reportFields s1
    let r := Config.attestationReport (f ++ leBytes 64 (Config.sign (leBytes 64 (Config.sha512 f))))
    .next { s1 with hub := { s1.hub with hostMem := putCells s1.hub.hostMem (cellsAt (s.hub.fqbase + 8192) r) } }

/-- A write of RTDATA (R427): FENCED is read-only. -/
def writeRoute (s : State) (v : Nat) : State :=
  { s with hub := { s.hub with routes := sset 0 s.hub.routes s.hub.rtidx (bitsOf v 15 0 + (if bitOf v 63 then 2 ^ 63 else 0)) } }
/-- A write of PORTp (R427): clearing EN takes the port out; setting it again retrains and clears FAILS; a port that names another peer
has not trained with it. -/
def writePort (s : State) (p v : Nat) : State :=
  let q := sget {} s.hub.ports p
  let en := bitOf v 63
  let q1 : Port := { q with en := en, peerPort := bitsOf v 35 32, peerDev := bitsOf v 28 16 }
  let q2 : Port := if !en then { q1 with up := false } else if !q.en then { q1 with up := false, down := false, fails := 0 }
    else { q1 with up := q.up && decide (q1.peerPort = q.peerPort) && decide (q1.peerDev = q.peerDev) }
  { s with hub := { s.hub with ports := sset {} s.hub.ports p q2 } }
/-- The fields of a register that are kept, from a list of (high, low) bit positions. -/
def keepFields (fs : List (Nat × Nat)) (v : Nat) : Nat := fs.foldl (fun n f => n + bitsOf v f.1 f.2 * 2 ^ f.2) 0
/-- A register of R426 to R428 takes a value; a value that its table discards changes nothing. -/
def writeReg (s : State) (off v : Nat) : State :=
  let h := s.hub
  let put := fun (h : Hub) => { s with hub := h }
  match off with
  | 0x18 => if 100 ≤ v ∧ v ≤ 100000 then put { h with lto := v } else s
  | 0x40 => put { h with fqbase := v / 4096 * 4096 }
  | 0x100 => put { h with selfid := bitsOf v 12 0 }
  | 0x108 =>
    let n := bitsOf v 9 0
    let p := bitsOf v 20 16
    if 1 ≤ n ∧ n ≤ 512 ∧ 1 ≤ p ∧ p ≤ 16 then put { h with podsize := n + 2 ^ 16 * p } else s
  | 0x110 => if 1000 ≤ v ∧ v ≤ 1000000 then put { h with hbeat := v } else s
  | 0x118 => put { h with bridge := keepFields [(0, 0), (28, 16)] v }
  | 0x120 => put { h with rtidx := bitsOf v 12 0 }
  | 0x128 => writeRoute s v
  | 0x140 => put { h with jobctx := keepFields [(63, 63), (41, 32), (15, 0)] v }
  | 0x148 => put { h with jobrank := keepFields [(8, 0), (41, 32)] v }
  | 0x150 => put { h with cridx := bitsOf v 3 0 }
  | 0x158 => put { h with crdata := sset 0 h.crdata h.cridx (keepFields [(63, 63), (35, 32), (28, 16)] v) }
  | 0x318 => put { h with bpsel := keepFields [(5, 0), (10, 8)] v }
  | 0x328 => put { h with daddr := keepFields [(63, 52), (47, 0)] v }
  | _ =>
    if 0x80 ≤ off ∧ off < 0xC0 then put { h with dbgtok := putCells h.dbgtok (cellsAt (off - 0x80) (leBytes 8 v)) }
    else if 0xC0 ≤ off ∧ off < 0xD8 then put { h with nonce := putCells h.nonce (cellsAt (off - 0xC0) (leBytes 8 v)) }
    else if 0x180 ≤ off ∧ off < 0x200 then writePort s ((off - 0x180) / 8) v
    else if 0x1000 ≤ off ∧ off < 0x2000 then put { h with jobmap := sset 0 h.jobmap ((off - 0x1000) / 8) (keepFields [(63, 63), (8, 0)] v) }
    else s
/-- A write of PWRCTL as a whole (R431). -/
def writePwrctl (s : State) (v : Nat) : State :=
  let s1 := { s with hub := { s.hub with srReq := bitOf v 7, idleReq := bitOf v 6 } }
  writeColtgt (writeFreq s1 (v % 8)) (bitsOf v 23 16)
/-- MGMT_REGISTER_WRITE (R426): a 64-bit write of the window. A register whose write is an event of its own acts as that event;
other offsets and offsets that are no register's start are discarded. Without a host path only BRIDGE can be written, by which the driver
opens one (R424). -/
def execMgmtRegisterWrite (off val : Nat) (s : State) : Out :=
  let v := val % 2 ^ 64
  if off % 8 ≠ 0 ∨ (!s.hostPath ∧ off ≠ 0x118) then .next s
  else match off with
    | 0x10 => if v < 4096 then execDoorbell v s else .next s
    | 0x20 => .next (writePwrctl s v)
    | 0x30 => execDbgctlDreq (bitsOf v 9 8) s
    | 0x38 => match v % 4 with
      | 1 => execFwLoad s
      | 2 => execFwCommit s
      | 3 => execFwAbort s
      | _ => .next s
    | 0xD8 => execAttestationRequest v s
    | 0x300 => execDctxWrite v s
    | 0x308 =>
      let all := if bitOf v 23 then 1 else 0
      match v % 16 with
      | 1 => execDebugHalt s
      | 2 => execDebugContinue s
      | 3 => execDebugStep (bitsOf v 21 16) all s
      | 4 => execDebugWithdraw (bitsOf v 21 16) all s
      | _ => .next s
    | 0x320 => .next (debugAsk s (.breakpoint v))
    | 0x330 => execDdataWrite v s
    | _ => .next (writeReg s off v)

/-- What a read of the window by the host does (R435, R436): DDATA and BPDATA are accesses of the debugger. -/
def mgmtReadEffect (s : State) (off : Nat) : State :=
  match off with
  | 0x320 => debugAsk s .breakpointRead
  | 0x330 => debugAsk s .read
  | _ => s
/-- What a 64-bit read of the window gives (R426 to R439): write-only and unlisted registers read as zero. A read of DDATA is the
event DDATA_READ. -/
def State.mgmtRead (s : State) (off : Nat) : Nat :=
  let h := s.hub
  match off with
  | 0x00 => 0x9400 + 65536 * (Config.deviceRevision % 256)
  | 0x18 => h.lto
  | 0x20 => h.freq + (if h.idleReq then 64 else 0) + (if h.srReq then 128 else 0) + 65536 * h.coltgt
  | 0x28 => h.freqnow + 256 * s.pstate + (if h.gov ∧ h.freq < h.freqnow then 2048 else 0) + (if h.colmask ≠ 255 then 4096 else 0) + 65536 * h.colmask
  | 0x30 => h.dstate + (if h.secure then 16 else 0) + (if h.derr then 2048 else 0)
  | 0x38 => 256 * h.fwPhase + 4096 * h.fwErr + 2 ^ 32 * h.runver + 2 ^ 48 * (match h.pendImage with
    | some i => i.version
    | none => 0)
  | 0x40 => h.fqbase
  | 0x48 => h.fqhead
  | 0x100 => h.selfid
  | 0x108 => h.podsize
  | 0x110 => h.hbeat
  | 0x118 => h.bridge
  | 0x120 => h.rtidx
  | 0x128 => sget 0 h.routes h.rtidx + (if s.destFenced h.rtidx then 2 ^ 62 else 0)
  | 0x140 => h.jobctx
  | 0x148 => h.jobrank
  | 0x150 => h.cridx
  | 0x158 => sget 0 h.crdata h.cridx
  | 0x300 => h.dctx + (if h.attach then 2 ^ 63 else 0)
  | 0x310 => s.dstat
  | 0x318 => h.bpsel
  | 0x320 => if debugRight s false = .refused then 0 else s.bpdata
  | 0x328 => h.daddr
  | 0x330 => h.ddata
  | _ =>
    if off % 8 ≠ 0 then 0
    else if 0x180 ≤ off ∧ off < 0x200 then
      let p := sget {} h.ports ((off - 0x180) / 8)
      (if p.en then 2 ^ 63 else 0) + (if portIsUp p then 2 ^ 62 else 0) + 2 ^ 40 * p.fails + 2 ^ 32 * p.peerPort + 2 ^ 16 * p.peerDev
    else if 0x1000 ≤ off ∧ off < 0x2000 then sget 0 h.jobmap ((off - 0x1000) / 8)
    else 0

end Sys2Proof.Machine
end

