-- ==== Sys2Proof/Machine/Special.lean ====
section
/-! DEFINITION. Special functions, row operations and lane operations of VB (R219 to R234). -/
namespace Sys2Proof.Machine

/-- SFSEED and SFSTEP (R221): lane by lane, with the seed tables in force at issue. -/
def opSfseed (d a fn : Nat) (c : OpCtx) : Res (List Post) := do
  let en := curMask c
  let sa ← readAs c a .fp32 (enabled en)
  let f := (SfFn.ofCode fn).getD .rcp
  let (v, fl) := laneMap .fp32 en (fun i => sfSeed c.t.seed f (sa.v.lane i))
  let ps ← dstPosts c d 3 v en (fl ||| sa.fl)
  .ok (ps ++ sa.posts)
def opSfstep (d a b fn : Nat) (c : OpCtx) : Res (List Post) := do
  let en := curMask c
  let sa ← readAs c a .fp32 (enabled en)
  let sb ← readAs c b .fp32 (enabled en)
  let f := (SfFn.ofCode fn).getD .rcp
  let (v, fl) := laneMap .fp32 en (fun i => sfStep c.t.seed f (sa.v.lane i) (sb.v.lane i))
  let ps ← dstPosts c d 4 v en (fl ||| sa.fl ||| sb.fl)
  .ok (ps ++ sa.posts ++ sb.posts)

/-- SFTLD (R223): range, alignment, reservation; the table changes at n + 16 (R224). -/
def opSftld (xa fn : Nat) (c : OpCtx) : Res (List Post) := do
  let v ← rx c xa
  let size := if fn = 5 then 1024 else 512
  let a := v.toNat
  if a > spadSize - size then raiseR cACCESS 6 a
  else if a % 512 ≠ 0 then raise cMISALIGN a
  else
    spadFree c c.u a size
    .ok [{ lat := 16, eff := .seedTab fn (c.t.spadBytes a size) }]

/-- One level of row_tree: adjacent pairs with absent lanes passed through (R220). -/
def rowPair {α : Type} (op : α → α → α × Flags) : List (Option α) → List (Option α) × Flags
  | a :: b :: rest =>
    let (r, f1) : Option α × Flags := match a, b with
      | some x, some y =>
        let (z, f) := op x y
        (some z, f)
      | none, y => (y, 0)
      | x, none => (x, 0)
    let (rs, f2) := rowPair op rest
    (r :: rs, f1 ||| f2)
  | l => (l, 0)
def rowLevels {α : Type} (op : α → α → α × Flags) : Nat → List (Option α) → List (Option α) × Flags
  | 0, l => (l, 0)
  | n + 1, l =>
    let (l1, f1) := rowPair op l
    let (l2, f2) := rowLevels op n l1
    (l2, f1 ||| f2)
/-- row_tree of R220 over 128 lanes. -/
def rowTree {α : Type} (op : α → α → α × Flags) (l : List (Option α)) : Option α × Flags :=
  let (r, f) := rowLevels op 7 l
  (nth none r 0, f)

/-- The present lanes of a row as operands of a tree (R220). -/
def present (en : Mask) (v : Vec) : List (Option Nat) :=
  (upTo 128).map (fun i => if enabled en i then some (v.lane i) else none)
/-- A signalling NaN in a present lane sets IV (R225, R232). -/
def snanFlag (en : Mask) (v : Vec) : Flags :=
  if (upTo 128).any (fun i => enabled en i && (dec32 (v.lane i)).isSnan) then flIV else 0
/-- A single present NaN gives the canonical NaN (R225). -/
def canon32 (x : Nat) : Nat := if nan32 x then fcnan .fp32 else x

/-- ROWSUM and ROWMAX (R225). -/
def opRow (isMax : Bool) (d a : Nat) (c : OpCtx) : Res (List Post) := do
  let en := curMask c
  let sa ← readAs c a .fp32 (enabled en)
  let (r, fl) := rowTree (if isMax then maxNode else add32) (present en sa.v)
  let x := match r with
    | some v => canon32 v
    | none => if isMax then ninf32 else 0
  let ps ← dstPosts c d 6 (Vec.mk' .fp32 (fun i => if enabled en i then x else 0)) en
    (fl ||| snanFlag en sa.v ||| sa.fl)
  .ok (ps ++ sa.posts)

/-- The packed statistics vector (R226). -/
def packedStat (en : Mask) (w : Nat → Nat) : Vec :=
  Vec.mk' .fp32 (fun i => if enabled en i ∧ i < 4 then w i else 0)
/-- A count lane that the merge accepts: a non-negative integer at most 2^24 (R226). -/
def countOf (x : Nat) : Option Nat :=
  match dec32 x with
  | .fin neg m e =>
    if m = 0 then some 0 else if neg then none else
    let (v, chg) := roundInt .rtz false m e
    if chg || v > 16777216 then none else some v.toNat
  | _ => none

/-- ROWSTAT (R226): the row form and the merge form. A state that a merge passes on has its NaNs made canonical, a signalling one with
IV (R76). -/
def opRowstat (d a b fn : Nat) (c : OpCtx) : Res (List Post) := do
  let en := curMask c
  let read := fun i => if fn = 0 then enabled en i else decide (i = 0 ∨ i = 2 ∨ i = 3)
  let sa ← readAs c a .fp32 read
  if fn = 0 then
    let st : List Wf := (upTo 128).map (fun i =>
      if enabled en i then { n := 1, mean := sa.v.lane i, m2 := 0 } else { n := 0, mean := 0, m2 := 0 })
    let (l, f0) := treeFold welfordMerge 7 st
    let q := (nth { n := 0, mean := 0, m2 := 0 } l 0)
    let (mu, var, n, fl) := rowStat st
    let r := packedStat en (fun i => if i = 0 then canon32 mu else if i = 1 then canon32 var else if i = 2 then ofInt32 n else canon32 q.m2)
    let ps ← dstPosts c d 8 r en (f0 ||| fl ||| snanFlag en sa.v ||| sa.fl)
    .ok (ps ++ sa.posts)
  else
    let sb ← readAs c b .fp32 read
    match countOf (sa.v.lane 2), countOf (sb.v.lane 2) with
    | some na, some nb =>
      let (w, f1) := welfordMerge { n := na, mean := sa.v.lane 0, m2 := sa.v.lane 3 }
        { n := nb, mean := sb.v.lane 0, m2 := sb.v.lane 3 }
      let (var, f2) : Fl := if w.n = 0 then (0, 0) else divInt32 w.m2 w.n
      let r := packedStat en (fun i =>
        if i = 0 then canon32 w.mean else if i = 1 then canon32 var else if i = 2 then ofInt32 w.n else canon32 w.m2)
      let sn : Nat → Flags := fun x => if (dec32 x).isSnan then flIV else 0
      let ps ← dstPosts c d 8 r en (f1 ||| f2 ||| sn w.mean ||| sn w.m2 ||| sa.fl ||| sb.fl)
      .ok (ps ++ sa.posts ++ sb.posts)
    | _, _ =>
      let ps ← dstPosts c d 8 (packedStat en (fun _ => fcnan .fp32)) en (flIV ||| sa.fl ||| sb.fl)
      .ok (ps ++ sa.posts ++ sb.posts)

/-- smx_update over the present lanes (R227): absent lanes take no part in the maximum or the sum; a NaN in s makes
m_new one, and the difference m_old − m_new is of the m held (R76). The model's choice, log 99: with m_new = −∞ every weight is +0, though smx_update returns before it has defined e. -/
def smxPresent (t : SeedTabs) (mOld sOld : Nat) (en : Mask) (v : Vec) :
    Nat × Nat × Nat × (Nat → Nat) × Flags :=
  let x := present en v
  let (mt, f1) := rowTree maxNode x
  let (mMax, f2) := match mt with
    | some m => maxNode mOld m
    | none => (mOld, 0)
  let mNew := if nan32 sOld then fcnan .fp32 else mMax
  let sn := snanFlag en v
  if mNew = ninf32 then (ninf32, 0, one32, fun _ => 0, f1 ||| f2 ||| sn) else
  let (c, f3) : Fl :=
    if mOld = ninf32 then (0, 0) else
    let (dl, f) := sub32 mOld mNew
    (expDef t dl, f)
  let ds := (upTo 128).map (fun i => sub32 (v.lane i) mNew)
  let f4 := (upTo 128).foldl (fun f i => if enabled en i then f ||| (nth (0, 0) ds i).2 else f) 0
  let es := ds.map (fun r => expDef t r.1)
  let e := fun i => nth 0 es i
  let (sum, f5) := rowTree add32 ((upTo 128).map (fun i => if enabled en i then some (e i) else none))
  let (sNew, f6) := fma32 sOld c (sum.getD 0)
  (canon32 mNew, sNew, c, e, f1 ||| f2 ||| sn ||| f3 ||| f4 ||| f5 ||| f6)

/-- SMXUP (R227). Where m_old = −∞ meets a NaN in the row, the model follows R227, every result NaN, and not the c = +0 of R89's text
(log 99). -/
def opSmxup (d a b fn : Nat) (c : OpCtx) : Res (List Post) := do
  let en := curMask c
  let sa ← readAs c a .fp32 (enabled en)
  let sb : Src ← if fn ≤ 1 then readAs c b .fp32 (fun i => decide (i < 2))
    else .ok { v := Vec.mk' .fp32 (fun i => if i = 0 then ninf32 else 0) }
  let (m, s, cf, e, fl) := smxPresent c.t.seed (sb.v.lane 0) (sb.v.lane 1) en sa.v
  let nan := nan32 m
  let r := Vec.mk' .fp32 (fun i =>
    if !(enabled en i) then 0
    else if fn % 2 = 1 then (if nan then fcnan .fp32 else e i)
    else if i = 0 then m else if i = 1 then (if nan then fcnan .fp32 else s)
    else if i = 2 then (if nan then fcnan .fp32 else cf) else 0)
  let ps ← dstPosts c d 8 r en (fl ||| sa.fl ||| sb.fl)
  .ok (ps ++ sa.posts ++ sb.posts)

/-- SMXFIX (R228). -/
def opSmxfix (d a b : Nat) (c : OpCtx) : Res (List Post) := do
  let en := curMask c
  let sa ← readAs c a .fp32 (enabled en)
  let sb ← readAs c b .fp32 (fun i => decide (i = 2))
  let (v, fl) := laneMap .fp32 en (fun i => mul32 (sa.v.lane i) (sb.v.lane 2))
  let ps ← dstPosts c d 4 v en (fl ||| sa.fl ||| sb.fl)
  .ok (ps ++ sa.posts ++ sb.posts)

/-- VPERM (R229). -/
def opVperm (d a b : Nat) (c : OpCtx) : Res (List Post) := do
  let en := curMask c
  let sa ← readNonEmpty c a
  let sb ← readAs c b .i32 (enabled en)
  let ps ← dstPosts c d 3 (Vec.mk' sa.v.tag (fun i => sa.v.lane (sb.v.lane i % 128))) en sb.fl
  .ok (ps ++ sa.posts ++ sb.posts)

/-- The VSHUF patterns (R230). -/
def shufLane (fn : Nat) (a b : Vec) (i : Nat) : Nat :=
  match fn with
  | 0 => if i % 2 = 0 then a.lane (i / 2) else b.lane ((i - 1) / 2)
  | 1 => if i % 2 = 0 then a.lane (64 + i / 2) else b.lane (64 + (i - 1) / 2)
  | 2 => if i < 64 then a.lane (2 * i) else b.lane (2 * (i - 64))
  | 3 => if i < 64 then a.lane (2 * i + 1) else b.lane (2 * (i - 64) + 1)
  | 4 => if i < 64 then a.lane i else b.lane (i - 64)
  | f => a.lane (Nat.xor i (2 ^ (f - 8)))
/-- VSHUF (R230). -/
def opVshuf (d a b fn : Nat) (c : OpCtx) : Res (List Post) := do
  let en := curMask c
  let sa ← readNonEmpty c a
  let sb : Src ← if fn ≤ 4 then readExact c b sa.v.tag else .ok { v := {} }
  let ps ← dstPosts c d 3 (Vec.mk' sa.v.tag (shufLane fn sa.v sb.v)) en
  .ok (ps ++ sa.posts ++ sb.posts)

/-- vpfx of R231 from lane i on: the prefix so far (absent at first), the exclusive sum, the outputs. -/
def vpfxFrom (fn : Nat) (en : Mask) (v : Vec) : List Nat → Option Nat → Nat → List (Nat × Nat) × Flags
  | [], _, _ => ([], 0)
  | i :: is, p, sum =>
    if enabled en i then
      let x := v.lane i
      if fn = 4 then
        let (r, f) := vpfxFrom fn en v is p ((sum + x) % 2 ^ 32)
        ((i, sum) :: r, f)
      else
        let (q, f1) : Fl := match p with
          | none => (x, if fn = 1 && (dec32 x).isSnan then flIV else 0)
          | some y => match fn with
            | 0 => add32 y x
            | 1 => maxNode y x
            | 2 => ((y + x) % 2 ^ 32, 0)
            | _ => (lImax y x, 0)
        let (r, f2) := vpfxFrom fn en v is (some q) sum
        ((i, q) :: r, f1 ||| f2)
    else vpfxFrom fn en v is p sum
/-- VPFX (R231). -/
def opVpfx (d a fn : Nat) (c : OpCtx) : Res (List Post) := do
  let en := curMask c
  let tag : Tag := if fn ≤ 1 then .fp32 else .i32
  let sa ← readAs c a tag (enabled en)
  let (o, fl) := vpfxFrom fn en sa.v (upTo 128) none 0
  let v := Vec.mk' tag (fun i => sget 0 o i)
  let ps ← dstPosts c d 5 v en (fl ||| sa.fl)
  .ok (ps ++ sa.posts)

/-- The rank order of R233 on values: whether a ranks strictly above b; −0 equals +0, a NaN ranks below −∞. -/
def valueAbove (a b : Nat) : Bool :=
  match nan32 a, nan32 b with
  | true, _ => false
  | false, true => true
  | false, false => lt32 b a
def valueTied (a b : Nat) : Bool := !(valueAbove a b) && !(valueAbove b a)
/-- Candidate (value, id, lane) x ranks before y (R233). -/
def ranksBefore (x y : Nat × Nat × Nat) : Bool :=
  if valueTied x.1 y.1 then
    (if x.2.1 = y.2.1 then decide (x.2.2 < y.2.2) else decide (sextNat x.2.1 32 < sextNat y.2.1 32))
  else valueAbove x.1 y.1
/-- Insert a candidate into a list in rank order. -/
def rankInsert (x : Nat × Nat × Nat) : List (Nat × Nat × Nat) → List (Nat × Nat × Nat)
  | [] => [x]
  | y :: ys => if ranksBefore x y then x :: y :: ys else y :: rankInsert x ys
def rankSort : List (Nat × Nat × Nat) → List (Nat × Nat × Nat)
  | [] => []
  | x :: xs => rankInsert x (rankSort xs)

/-- Fold the present lanes of an integer reduction. -/
def intRed (op : Nat → Nat → Nat) (z : Nat) (en : Mask) (v : Vec) : Nat :=
  (upTo 128).foldl (fun s i => if enabled en i then op s (v.lane i) else s) z
/-- The node of `vred.fmin` (R232): the left operand on equality, NaN if either is NaN. -/
def minNode (a b : Nat) : Fl :=
  if nan32 a || nan32 b then nanResult .fp32 ((dec32 a).isSnan || (dec32 b).isSnan)
  else (if lt32 b a then b else a, 0)
/-- VRED (R232): lane 0 of the result. -/
def vredValue (fn : Nat) (en : Mask) (v : Vec) : Nat × Flags :=
  match fn with
  | 0 =>
    let (r, f) := rowTree add32 (present en v)
    ((r.map canon32).getD 0, f ||| snanFlag en v)
  | 1 =>
    let (r, f) := rowTree maxNode (present en v)
    ((r.map canon32).getD ninf32, f ||| snanFlag en v)
  | 2 =>
    let (r, f) := rowTree minNode (present en v)
    ((r.map canon32).getD pinf32, f ||| snanFlag en v)
  | 3 => (intRed lIadd 0 en v, 0)
  | 4 => (intRed lImax 0x80000000 en v, 0)
  | 5 => (intRed lImin 0x7FFFFFFF en v, 0)
  | 6 => (intRed lIor 0 en v, 0)
  | 7 => (intRed lIand 0xFFFFFFFF en v, 0)
  | _ =>
    let cand := (upTo 128).filterMap (fun i => if enabled en i then some (v.lane i, 0, i) else none)
    (match rankSort cand with
      | [] => 0xFFFFFFFF
      | x :: _ => x.2.2, 0)
def opVred (d a fn : Nat) (c : OpCtx) : Res (List Post) := do
  let en := curMask c
  let sa ← readAs c a (if fn ≤ 2 ∨ fn = 8 then .fp32 else .i32) (enabled en)
  let (x, fl) := vredValue fn en sa.v
  let v := Vec.mk' (if fn ≤ 2 then .fp32 else .i32) (fun i => if i = 0 then x else 0)
  let ps ← dstPosts c d 6 v en (fl ||| sa.fl)
  .ok (ps ++ sa.posts)

/-- TOPKP (R233). -/
def opTopkp (d a b fn : Nat) (c : OpCtx) : Res (List Post) := do
  let en := curMask c
  let sa ← readAs c a .fp32 (enabled en)
  let sb ← readAs c b .i32 (enabled en)
  let k := fn % 16 + 1
  let best := (rankSort ((upTo 128).filterMap (fun i =>
    if enabled en i then some (sa.v.lane i, sb.v.lane i, i) else none))).take k
  let ids := decide (16 ≤ fn)
  let fill := if ids then 0xFFFFFFFF else ninf32
  let v := Vec.mk' (if ids then .i32 else .fp32) (fun i =>
    let x := nth (fill, fill, 0) best i
    if ids then x.2.1 else x.1)
  let ps ← dstPosts c d 8 v en (sa.fl ||| sb.fl)
  .ok (ps ++ sa.posts ++ sb.posts)

/-- VSCL (R234): a × 2^clamp(b, −300, 300), exact and then rounded once. -/
def sclElem (f : FFmt) (x : Nat) (b : Int) : Fl :=
  match fdecode f x with
  | .nan s => nanResult f s
  | .inf n => (finf f n, 0)
  | .fin n m e => fround f .rne n m (e + b)
def opVscl (d a b : Nat) (c : OpCtx) : Res (List Post) := do
  let en := curMask c
  let (f, sa) ← readFloat c a (enabled en)
  let sb ← readAs c b .i32 (enabled en)
  let (v, fl) := laneMap f.tag en (fun i =>
    let x := sextNat (sb.v.lane i) 32
    let k : Int := if x < -300 then -300 else if x > 300 then 300 else x
    onElems f (fun y _ _ => sclElem f y k) (sa.v.lane i) 0 0)
  let ps ← dstPosts c d 2 v en (fl ||| sa.fl ||| sb.fl)
  .ok (ps ++ sa.posts ++ sb.posts)

def execSfseed (d a fn : Nat) (s : State) : Out := issueTiles s 3 (opSfseed d a fn)
def execSfstep (d a b fn : Nat) (s : State) : Out := issueTiles s 3 (opSfstep d a b fn)
def execSftld (xa fn : Nat) (s : State) : Out := issueTiles s 3 (opSftld xa fn)
def execRowsum (d a : Nat) (s : State) : Out := issueTiles s 3 (opRow false d a)
def execRowmax (d a : Nat) (s : State) : Out := issueTiles s 3 (opRow true d a)
def execRowstat (d a b fn : Nat) (s : State) : Out := issueTiles s 3 (opRowstat d a b fn)
def execSmxup (d a b fn : Nat) (s : State) : Out := issueTiles s 3 (opSmxup d a b fn)
def execSmxfix (d a b : Nat) (s : State) : Out := issueTiles s 3 (opSmxfix d a b)
def execVperm (d a b : Nat) (s : State) : Out := issueTiles s 3 (opVperm d a b)
def execVshuf (d a b fn : Nat) (s : State) : Out := issueTiles s 3 (opVshuf d a b fn)
def execVpfx (d a fn : Nat) (s : State) : Out := issueTiles s 3 (opVpfx d a fn)
def execVred (d a fn : Nat) (s : State) : Out := issueTiles s 3 (opVred d a fn)
def execTopkp (d a b fn : Nat) (s : State) : Out := issueTiles s 3 (opTopkp d a b fn)
def execVscl (d a b : Nat) (s : State) : Out := issueTiles s 3 (opVscl d a b)

end Sys2Proof.Machine
end

