-- ==== Sys2Proof/Machine/Dispatch.lean ====
section
/-! DEFINITION. One arm per operation or event: the call of its meaning. -/
namespace Sys2Proof.Machine

/-- What an operation or event does to the machine. -/
def exec (i : Instr) (s : State) : Host.Outcome State Fault Refusal :=
  match i with
  | .halt => Sys2Proof.Machine.execHalt s
  | .kend => Sys2Proof.Machine.execKend s
  | .btgt j addr => Sys2Proof.Machine.execBtgt j addr s
  | .call addr => Sys2Proof.Machine.execCall addr s
  | .ret => Sys2Proof.Machine.execRet s
  | .loop lvl xc => Sys2Proof.Machine.execLoop lvl xc s
  | .loopS0 lvl xc xr => Sys2Proof.Machine.execLoopS0 lvl xc xr s
  | .loopS1 lvl xc xr => Sys2Proof.Machine.execLoopS1 lvl xc xr s
  | .scmp pd xa xb cc => Sys2Proof.Machine.execScmp pd xa xb cc s
  | .scmpi pd xa cc imm => Sys2Proof.Machine.execScmpi pd xa cc imm s
  | .plog pd pa pb o => Sys2Proof.Machine.execPlog pd pa pb o s
  | .pmov pd pa => Sys2Proof.Machine.execPmov pd pa s
  | .pseti pd v => Sys2Proof.Machine.execPseti pd v s
  | .csrr xd csr => Sys2Proof.Machine.execCsrr xd csr s
  | .csrw xs csr => Sys2Proof.Machine.execCsrw xs csr s
  | .csrs xs csr => Sys2Proof.Machine.execCsrs xs csr s
  | .trap code info => Sys2Proof.Machine.execTrap code info s
  | .eret => Sys2Proof.Machine.execEret s
  | .rstkr xd idx => Sys2Proof.Machine.execRstkr xd idx s
  | .rstkw xs idx => Sys2Proof.Machine.execRstkw xs idx s
  | .brk info => Sys2Proof.Machine.execBrk info s
  | .waitm xa xb => Sys2Proof.Machine.execWaitm xa xb s
  | .barv scope bid => Sys2Proof.Machine.execBarv scope bid s
  | .barw scope bid => Sys2Proof.Machine.execBarw scope bid s
  | .bart scope bid pd => Sys2Proof.Machine.execBart scope bid pd s
  | .fork xa => Sys2Proof.Machine.execFork xa s
  | .join xa => Sys2Proof.Machine.execJoin xa s
  | .steal pd => Sys2Proof.Machine.execSteal pd s
  | .susp => Sys2Proof.Machine.execSusp s
  | .yield_ => Sys2Proof.Machine.execYield s
  | .trdy pd xa => Sys2Proof.Machine.execTrdy pd xa s
  | .commit => Sys2Proof.Machine.execCommit s
  | .plsw => Sys2Proof.Machine.execPlsw s
  | .add xd xa xb => Sys2Proof.Machine.execAdd xd xa xb s
  | .sub xd xa xb => Sys2Proof.Machine.execSub xd xa xb s
  | .mul xd xa xb => Sys2Proof.Machine.execMul xd xa xb s
  | .mulh xd xa xb => Sys2Proof.Machine.execMulh xd xa xb s
  | .and_ xd xa xb => Sys2Proof.Machine.execAnd xd xa xb s
  | .or_ xd xa xb => Sys2Proof.Machine.execOr xd xa xb s
  | .xor_ xd xa xb => Sys2Proof.Machine.execXor xd xa xb s
  | .shl xd xa xb => Sys2Proof.Machine.execShl xd xa xb s
  | .shr xd xa xb => Sys2Proof.Machine.execShr xd xa xb s
  | .sra xd xa xb => Sys2Proof.Machine.execSra xd xa xb s
  | .min_ xd xa xb => Sys2Proof.Machine.execMin xd xa xb s
  | .max_ xd xa xb => Sys2Proof.Machine.execMax xd xa xb s
  | .addi xd xa imm => Sys2Proof.Machine.execAddi xd xa imm s
  | .lui xd imm => Sys2Proof.Machine.execLui xd imm s
  | .sel xd xa xb ps => Sys2Proof.Machine.execSel xd xa xb ps s
  | .dsel xd xa => Sys2Proof.Machine.execDsel xd xa s
  | .ld xd xa w off => Sys2Proof.Machine.execLd xd xa w off s
  | .st xs xa w off => Sys2Proof.Machine.execSt xs xa w off s
  | .acq scope xa => Sys2Proof.Machine.execAcq scope xa s
  | .rel scope xa => Sys2Proof.Machine.execRel scope xa s
  | .fence scope => Sys2Proof.Machine.execFence scope s
  | .wcfg xa port field => Sys2Proof.Machine.execWcfg xa port field s
  | .shw xa eng sh field => Sys2Proof.Machine.execShw xa eng sh field s
  | .ksel vs ka => Sys2Proof.Machine.execKsel vs ka s
  | .xbc d xa k => Sys2Proof.Machine.execXbc d xa k s
  | .mscl xa side grp => Sys2Proof.Machine.execMscl xa side grp s
  | .samcfgPar xd xa => Sys2Proof.Machine.execSamcfgPar xd xa s
  | .samcfgVoc xd xa => Sys2Proof.Machine.execSamcfgVoc xd xa s
  | .samcfgMask xd xa => Sys2Proof.Machine.execSamcfgMask xd xa s
  | .samcfgSeed xd xa xb => Sys2Proof.Machine.execSamcfgSeed xd xa xb s
  | .sample xd xa xb k => Sys2Proof.Machine.execSample xd xa xb k s
  | .maskg xd xa xb => Sys2Proof.Machine.execMaskg xd xa xb s
  | .maskgSh xd xb => Sys2Proof.Machine.execMaskgSh xd xb s
  | .pdaadv xd xa xb => Sys2Proof.Machine.execPdaadv xd xa xb s
  | .pdaadvLd xd xa => Sys2Proof.Machine.execPdaadvLd xd xa s
  | .pdaadvSh xd xb => Sys2Proof.Machine.execPdaadvSh xd xb s
  | .tokw xd xa xb => Sys2Proof.Machine.execTokw xd xa xb s
  | .fadd u d a b => Sys2Proof.Machine.execFadd u d a b s
  | .fsub u d a b => Sys2Proof.Machine.execFsub u d a b s
  | .fmul u d a b => Sys2Proof.Machine.execFmul u d a b s
  | .fmin u d a b => Sys2Proof.Machine.execFmin u d a b s
  | .fmax u d a b => Sys2Proof.Machine.execFmax u d a b s
  | .fma u d a b c => Sys2Proof.Machine.execFma u d a b c s
  | .fms d a b c => Sys2Proof.Machine.execFms d a b c s
  | .fnma d a b c => Sys2Proof.Machine.execFnma d a b c s
  | .funa u d a fn => Sys2Proof.Machine.execFuna u d a fn s
  | .iadd u d a b => Sys2Proof.Machine.execIadd u d a b s
  | .isub d a b => Sys2Proof.Machine.execIsub d a b s
  | .imul d a b => Sys2Proof.Machine.execImul d a b s
  | .iand d a b => Sys2Proof.Machine.execIand d a b s
  | .ior d a b => Sys2Proof.Machine.execIor d a b s
  | .ixor d a b => Sys2Proof.Machine.execIxor d a b s
  | .ishl d a b => Sys2Proof.Machine.execIshl d a b s
  | .ishr d a b => Sys2Proof.Machine.execIshr d a b s
  | .isra d a b => Sys2Proof.Machine.execIsra d a b s
  | .imin d a b => Sys2Proof.Machine.execImin d a b s
  | .imax d a b => Sys2Proof.Machine.execImax d a b s
  | .fcmp u kd a b cc => Sys2Proof.Machine.execFcmp u kd a b cc s
  | .icmp u kd a b cc => Sys2Proof.Machine.execIcmp u kd a b cc s
  | .klog kd ka kb o => Sys2Proof.Machine.execKlog kd ka kb o s
  | .vsel u d a b k => Sys2Proof.Machine.execVsel u d a b k s
  | .cvt u d a b kind m => Sys2Proof.Machine.execCvt u d a b kind m s
  | .vmov u d a => Sys2Proof.Machine.execVmov u d a s
  | .vimm d k imm => Sys2Proof.Machine.execVimm d k imm s
  | .vlane d a lane => Sys2Proof.Machine.execVlane d a lane s
  | .vld d xa off => Sys2Proof.Machine.execVld d xa off s
  | .vst a xa off => Sys2Proof.Machine.execVst a xa off s
  | .park v => Sys2Proof.Machine.execPark v s
  | .unpark v => Sys2Proof.Machine.execUnpark v s
  | .sfseed d a fn => Sys2Proof.Machine.execSfseed d a fn s
  | .sfstep d a b fn => Sys2Proof.Machine.execSfstep d a b fn s
  | .sftld xa fn => Sys2Proof.Machine.execSftld xa fn s
  | .rowsum d a => Sys2Proof.Machine.execRowsum d a s
  | .rowmax d a => Sys2Proof.Machine.execRowmax d a s
  | .rowstat d a b fn => Sys2Proof.Machine.execRowstat d a b fn s
  | .smxup d a b fn => Sys2Proof.Machine.execSmxup d a b fn s
  | .smxfix d a b => Sys2Proof.Machine.execSmxfix d a b s
  | .vperm d a b => Sys2Proof.Machine.execVperm d a b s
  | .vshuf d a b fn => Sys2Proof.Machine.execVshuf d a b fn s
  | .vpfx d a fn => Sys2Proof.Machine.execVpfx d a fn s
  | .vred d a fn => Sys2Proof.Machine.execVred d a fn s
  | .topkp d a b fn => Sys2Proof.Machine.execTopkp d a b fn s
  | .vscl d a b => Sys2Proof.Machine.execVscl d a b s
  | .push a fmt row => Sys2Proof.Machine.execPush a fmt row s
  | .shift a fmt bank row h => Sys2Proof.Machine.execShift a fmt bank row h s
  | .acc a bank row h => Sys2Proof.Machine.execAcc a bank row h s
  | .drain d bank row h clr => Sys2Proof.Machine.execDrain d bank row h clr s
  | .mclr bank row nr => Sys2Proof.Machine.execMclr bank row nr s
  | .axch => Sys2Proof.Machine.execAxch s
  | .acrd d bank row h => Sys2Proof.Machine.execAcrd d bank row h s
  | .acwr a bank row h => Sys2Proof.Machine.execAcwr a bank row h s
  | .zop xa => Sys2Proof.Machine.execZop xa s
  | .sloc sh sw rev a => Sys2Proof.Machine.execSloc sh sw rev a s
  | .sup sh sw rev a => Sys2Proof.Machine.execSup sh sw rev a s
  | .sdn sh sw rev a => Sys2Proof.Machine.execSdn sh sw rev a s
  | .scry sh sw rev a => Sys2Proof.Machine.execScry sh sw rev a s
  | .sapl sh sw rev a => Sys2Proof.Machine.execSapl sh sw rev a s
  | .zld a z row => Sys2Proof.Machine.execZld a z row s
  | .zrd d z row => Sys2Proof.Machine.execZrd d z row s
  | .zclr zd => Sys2Proof.Machine.execZclr zd s
  | .zmov zd za => Sys2Proof.Machine.execZmov zd za s
  | .step z a b => Sys2Proof.Machine.execStep z a b s
  | .stepSpec z a b => Sys2Proof.Machine.execStepSpec z a b s
  | .sdot d z c => Sys2Proof.Machine.execSdot d z c s
  | .copy node sh sw xa => Sys2Proof.Machine.execCopy node sh sw xa s
  | .gath node sh sw xa => Sys2Proof.Machine.execGath node sh sw xa s
  | .scat node sh sw xa => Sys2Proof.Machine.execScat node sh sw xa s
  | .scacc node sh sw xa fn => Sys2Proof.Machine.execScacc node sh sw xa fn s
  | .amo node xa fn => Sys2Proof.Machine.execAmo node xa fn s
  | .pref node xa fn => Sys2Proof.Machine.execPref node xa fn s
  | .rgwb node xa => Sys2Proof.Machine.execRgwb node xa s
  | .rginv node xa => Sys2Proof.Machine.execRginv node xa s
  | .xwt node => Sys2Proof.Machine.execXwt node s
  | .btx a tile => Sys2Proof.Machine.execBtx a tile s
  | .bsel d tile => Sys2Proof.Machine.execBsel d tile s
  | .zspl node xa => Sys2Proof.Machine.execZspl node xa s
  | .zsplCopy node xa => Sys2Proof.Machine.execZsplCopy node xa s
  | .zfil node xa => Sys2Proof.Machine.execZfil node xa s
  | .rld d xa => Sys2Proof.Machine.execRld d xa s
  | .rst a xa => Sys2Proof.Machine.execRst a xa s
  | .coll node sh sw xa fn => Sys2Proof.Machine.execColl node sh sw xa fn s
  | .smpq node xa => Sys2Proof.Machine.execSmpq node xa s
  | .flkq node xa fn => Sys2Proof.Machine.execFlkq node xa fn s
  | .wpset node xa => Sys2Proof.Machine.execWpset node xa s
  | .wpclr node xa => Sys2Proof.Machine.execWpclr node xa s
  | .mskq node xa => Sys2Proof.Machine.execMskq node xa s
  | .tree al t1 t2 t3 t4 => Sys2Proof.Machine.execTree al t1 t2 t3 t4 s
  | .seq align lf lvl beg fin => Sys2Proof.Machine.execSeq align lf lvl beg fin s
  | .deviceReset => Sys2Proof.Machine.execDeviceReset s
  | .resultLanding core => Sys2Proof.Machine.execResultLanding core s
  | .interlockedArrival core => Sys2Proof.Machine.execInterlockedArrival core s
  | .haltDrainDone core => Sys2Proof.Machine.execHaltDrainDone core s
  | .endDrainDone core => Sys2Proof.Machine.execEndDrainDone core s
  | .planeSwap core => Sys2Proof.Machine.execPlaneSwap core s
  | .planeLoadDone core => Sys2Proof.Machine.execPlaneLoadDone core s
  | .trapEntry core cause reason arg dmask slot => Sys2Proof.Machine.execTrapEntry core cause reason arg dmask slot s
  | .waitmWake unit line => Sys2Proof.Machine.execWaitmWake unit line s
  | .waitmTimeout unit => Sys2Proof.Machine.execWaitmTimeout unit s
  | .barrierCount unit node bytes => Sys2Proof.Machine.execBarrierCount unit node bytes s
  | .barrierFlip kern scope inst bid => Sys2Proof.Machine.execBarrierFlip kern scope inst bid s
  | .barrierCompletionSeen kern scope inst bid => Sys2Proof.Machine.execBarrierCompletionSeen kern scope inst bid s
  | .suspensionDrainDone core => Sys2Proof.Machine.execSuspensionDrainDone core s
  | .pickUp core => Sys2Proof.Machine.execPickUp core s
  | .regroup kern => Sys2Proof.Machine.execRegroup kern s
  | .groupRetire kern => Sys2Proof.Machine.execGroupRetire kern s
  | .iterationBoundary kern => Sys2Proof.Machine.execIterationBoundary kern s
  | .loopWake kern => Sys2Proof.Machine.execLoopWake kern s
  | .scanRendezvous core => Sys2Proof.Machine.execScanRendezvous core s
  | .scryCarryArrival kern inst => Sys2Proof.Machine.execScryCarryArrival kern inst s
  | .nodeComplete unit node => Sys2Proof.Machine.execNodeComplete unit node s
  | .samplingJob colt => Sys2Proof.Machine.execSamplingJob colt s
  | .linkQueueGrant => Sys2Proof.Machine.execLinkQueueGrant s
  | .remoteRequestServe src kind tag va size cid data => Sys2Proof.Machine.execRemoteRequestServe src kind tag va size cid data s
  | .remoteReply req okay data => Sys2Proof.Machine.execRemoteReply req okay data s
  | .remoteTimeout req => Sys2Proof.Machine.execRemoteTimeout req s
  | .collMessage src tag fn fmt cnt dst cid size data => Sys2Proof.Machine.execCollMessage src tag fn fmt cnt dst cid size data s
  | .carryFlit kern inst level pos absent data => Sys2Proof.Machine.execCarryFlit kern inst level pos absent data s
  | .podArrive kern bid phase rank => Sys2Proof.Machine.execPodArrive kern bid phase rank s
  | .podComplete kern bid phase => Sys2Proof.Machine.execPodComplete kern bid phase s
  | .flitReplay port => Sys2Proof.Machine.execFlitReplay port s
  | .portUp port => Sys2Proof.Machine.execPortUp port s
  | .doorbell val => Sys2Proof.Machine.execDoorbell val s
  | .packetDispatch => Sys2Proof.Machine.execPacketDispatch s
  | .gangMap gang => Sys2Proof.Machine.execGangMap gang s
  | .priorityAging gang => Sys2Proof.Machine.execPriorityAging gang s
  | .quantumExpiry gang => Sys2Proof.Machine.execQuantumExpiry gang s
  | .launch => Sys2Proof.Machine.execLaunch s
  | .loopl => Sys2Proof.Machine.execLoopl s
  | .groupRelease kern => Sys2Proof.Machine.execGroupRelease kern s
  | .packetCopy => Sys2Proof.Machine.execPacketCopy s
  | .graphr => Sys2Proof.Machine.execGraphr s
  | .graphNodeComplete pkt => Sys2Proof.Machine.execGraphNodeComplete pkt s
  | .graphp => Sys2Proof.Machine.execGraphp s
  | .bind => Sys2Proof.Machine.execBind s
  | .unmap => Sys2Proof.Machine.execUnmap s
  | .unmapDrainDone cid => Sys2Proof.Machine.execUnmapDrainDone cid s
  | .signal => Sys2Proof.Machine.execSignal s
  | .wait => Sys2Proof.Machine.execWait s
  | .waitSatisfied pkt => Sys2Proof.Machine.execWaitSatisfied pkt s
  | .waitTimeout pkt => Sys2Proof.Machine.execWaitTimeout pkt s
  | .ctxcCreate => Sys2Proof.Machine.execCtxcCreate s
  | .ctxcDestroy => Sys2Proof.Machine.execCtxcDestroy s
  | .ctxcSet => Sys2Proof.Machine.execCtxcSet s
  | .ctxcResume => Sys2Proof.Machine.execCtxcResume s
  | .ctxcCkpt => Sys2Proof.Machine.execCtxcCkpt s
  | .ctxcQcreate => Sys2Proof.Machine.execCtxcQcreate s
  | .ctxcQdestroy => Sys2Proof.Machine.execCtxcQdestroy s
  | .ctxcQprog => Sys2Proof.Machine.execCtxcQprog s
  | .ctxcQreset => Sys2Proof.Machine.execCtxcQreset s
  | .ctxcGmap => Sys2Proof.Machine.execCtxcGmap s
  | .ctxcGunmap => Sys2Proof.Machine.execCtxcGunmap s
  | .ctxcHdrop => Sys2Proof.Machine.execCtxcHdrop s
  | .ctxcFpool => Sys2Proof.Machine.execCtxcFpool s
  | .packetComplete pkt => Sys2Proof.Machine.execPacketComplete pkt s
  | .preemptStop cid => Sys2Proof.Machine.execPreemptStop cid s
  | .saveComplete cid => Sys2Proof.Machine.execSaveComplete cid s
  | .contextRestore cid => Sys2Proof.Machine.execContextRestore cid s
  | .restoreResume cid => Sys2Proof.Machine.execRestoreResume cid s
  | .snapshotReplay core => Sys2Proof.Machine.execSnapshotReplay core s
  | .checkpoint cid => Sys2Proof.Machine.execCheckpoint cid s
  | .checkpointDone cid => Sys2Proof.Machine.execCheckpointDone cid s
  | .muleTransferComplete unit node => Sys2Proof.Machine.execMuleTransferComplete unit node s
  | .forkCopyDone => Sys2Proof.Machine.execForkCopyDone s
  | .sequenceTrapPost => Sys2Proof.Machine.execSequenceTrapPost s
  | .pageWalk unit va kind => Sys2Proof.Machine.execPageWalk unit va kind s
  | .leaseExpiry unit va => Sys2Proof.Machine.execLeaseExpiry unit va s
  | .hwFaultService core => Sys2Proof.Machine.execHwFaultService core s
  | .debugHalt => Sys2Proof.Machine.execDebugHalt s
  | .debugContinue => Sys2Proof.Machine.execDebugContinue s
  | .debugStep core all => Sys2Proof.Machine.execDebugStep core all s
  | .debugWithdraw core all => Sys2Proof.Machine.execDebugWithdraw core all s
  | .ddataRead => Sys2Proof.Machine.execDdataRead s
  | .ddataWrite val => Sys2Proof.Machine.execDdataWrite val s
  | .dctxWrite val => Sys2Proof.Machine.execDctxWrite val s
  | .dbgctlDreq val => Sys2Proof.Machine.execDbgctlDreq val s
  | .attestationRequest val => Sys2Proof.Machine.execAttestationRequest val s
  | .fwLoad => Sys2Proof.Machine.execFwLoad s
  | .fwVerifyDone => Sys2Proof.Machine.execFwVerifyDone s
  | .fwCommit => Sys2Proof.Machine.execFwCommit s
  | .fwAbort => Sys2Proof.Machine.execFwAbort s
  | .fwCommitPoint => Sys2Proof.Machine.execFwCommitPoint s
  | .pwrctlFreq val => Sys2Proof.Machine.execPwrctlFreq val s
  | .frequencyStall => Sys2Proof.Machine.execFrequencyStall s
  | .pllRelock => Sys2Proof.Machine.execPllRelock s
  | .governorStepDown => Sys2Proof.Machine.execGovernorStepDown s
  | .governorStepUp => Sys2Proof.Machine.execGovernorStepUp s
  | .thermalFence => Sys2Proof.Machine.execThermalFence s
  | .pwrctlColtgt val => Sys2Proof.Machine.execPwrctlColtgt val s
  | .columnChange => Sys2Proof.Machine.execColumnChange s
  | .columnDarkenIdle mask => Sys2Proof.Machine.execColumnDarkenIdle mask s
  | .columnRelight pa => Sys2Proof.Machine.execColumnRelight pa s
  | .enterIdle => Sys2Proof.Machine.execEnterIdle s
  | .enterSelfRefresh => Sys2Proof.Machine.execEnterSelfRefresh s
  | .wakeToActive => Sys2Proof.Machine.execWakeToActive s
  | .mgmtRegisterWrite off val => Sys2Proof.Machine.execMgmtRegisterWrite off val s
  | .acqRelFenceComplete core => Sys2Proof.Machine.execAcqRelFenceComplete core s
  | .failedUnitFence => Sys2Proof.Machine.execFailedUnitFence s
  | .qAdd d a b => Sys2Proof.Machine.execQAdd d a b s
  | .qSub d a b => Sys2Proof.Machine.execQSub d a b s
  | .qAnd d a b => Sys2Proof.Machine.execQAnd d a b s
  | .qOr d a b => Sys2Proof.Machine.execQOr d a b s
  | .qXor d a b => Sys2Proof.Machine.execQXor d a b s
  | .qShl d a b => Sys2Proof.Machine.execQShl d a b s
  | .qShr d a b => Sys2Proof.Machine.execQShr d a b s
  | .qMinu d a b => Sys2Proof.Machine.execQMinu d a b s
  | .qAddi d a imm => Sys2Proof.Machine.execQAddi d a imm s
  | .qAndi d a imm => Sys2Proof.Machine.execQAndi d a imm s
  | .qOri d a imm => Sys2Proof.Machine.execQOri d a imm s
  | .qShli d a imm => Sys2Proof.Machine.execQShli d a imm s
  | .qShri d a imm => Sys2Proof.Machine.execQShri d a imm s
  | .qLi d imm => Sys2Proof.Machine.execQLi d imm s
  | .qLdw d a win imm => Sys2Proof.Machine.execQLdw d a win imm s
  | .qStw d a win imm => Sys2Proof.Machine.execQStw d a win imm s
  | .qBeq a b imm => Sys2Proof.Machine.execQBeq a b imm s
  | .qBne a b imm => Sys2Proof.Machine.execQBne a b imm s
  | .qBltu a b imm => Sys2Proof.Machine.execQBltu a b imm s
  | .qBgeu a b imm => Sys2Proof.Machine.execQBgeu a b imm s
  | .qJmp imm => Sys2Proof.Machine.execQJmp imm s
  | .qLoop d mx len => Sys2Proof.Machine.execQLoop d mx len s
  | .qPtim d => Sys2Proof.Machine.execQPtim d s
  | .qDone => Sys2Proof.Machine.execQDone s
  | .qSkip imm => Sys2Proof.Machine.execQSkip imm s
  | .qFail imm => Sys2Proof.Machine.execQFail imm s

end Sys2Proof.Machine
end

