-- ==== Sys2Proof/Machine/Fetch.lean ====
section
/-! DEFINITION. What each agent runs next: a core its bundle's next operation or its handler's next word (R39, R49, R62, R343,
R345), a Colt the next word of its job routine (R405), the bytecode interpreter its next word (R128); and where withFetchWord
places a word. -/
namespace Sys2Proof.Machine

/-- What an agent does next: it changes the state without an instruction, or it runs one. -/
inductive Fetched where
  | quiet (s : State)
  | op (i : Instr) (s : State)

/-- A core's next act. -/
def fetchCore (s : State) (k : Nat) : Fetched :=
  let c := s.core k
  if !canIssue s c then .quiet (heldStep s k)
  else if coreAsleep s k then .quiet s
  else match c.handler with
    | some a =>
      let w := handlerWord s k
      let ill := takeTrap s k cILLEGAL ((w / 2 ^ 29) % 8) ([0, 1, 2, 3].map (fun d => ⟨d, 0, w⟩))
      if c.store.2 ≤ a then .quiet ill
      else match decodeSingle false w with
        | .nop => .quiet (stepEnd (nextWord s k) k)
        | .bad _ => .quiet ill
        | .op _ i => .op i s
    | none =>
      match c.issue with
      | none => .quiet (openBundle s k)
      | some i =>
        if i.brtDone then
          match nextOp i with
          | some (sl, op) =>
            if sl = 5 ∧ !(metPairs s k i op).isEmpty then .quiet (landMet s k (metPairs s k i op))
            else .op op (s.setCore k { c with issue := some { i with slot := sl } })
          | none => .quiet (endBundle s k)
        else match decodeSlot 7 (nth 0 i.words 7) with
          | .op _ op => .op op s
          | _ => .quiet s

/-- A Colt's next act: the word of its store at its address, in single-operation form (R62, R63, R405). -/
def fetchColt (s : State) (c : Nat) : Fetched :=
  let r := s.colt c
  if !r.running || asleep s (coltUnit c) || s.hub.stalled || s.hub.fenced then .quiet s
  else
    let w := nth 0 s.hub.routine r.pc
    if 1024 ≤ r.pc ∨ s.hub.routine.length ≤ r.pc then .quiet (coltTrap s c cPLANE_END 0 r.pc 0)
    else match decodeSingle true w with
      | .nop => .quiet (nextColt s c)
      | .bad _ => .quiet (coltTrap s c cILLEGAL 0 w (w / 2 ^ 29))
      | .op _ i => .op i s

/-- The interpreter's next word (R128). -/
def fetchQp (s : State) : Fetched :=
  match s.hub.interp with
  | none => .quiet s
  | some p => if s.hub.fenced ∨ s.hub.stalled then .quiet s else match decodeQp (nth 0 p.prog.words p.pc) with
    | some i => .op i s
    | none => .quiet s

/-- The agent in turn. -/
def fetch (s : State) : Fetched :=
  match s.turn with
  | .idle => .quiet s
  | .core k => fetchCore s k
  | .colt c => fetchColt s c
  | .qprog => fetchQp s

/-- The next choice of the schedule takes its place (log 3): the state in which the agent in turn acts, or the event. -/
def schedule (s : State) : Except Fault Fetched :=
  match s.sched with
  | [] => .ok (fetch s)
  | ch :: rest =>
    let s1 := { s with sched := rest }
    match ch with
    | .act a => .ok (fetch { s1 with turn := a })
    | .happen i => .ok (.op i { s1 with turn := .idle })
    | .tick ns => .ok (.quiet { s1 with turn := .idle, ptime := s.ptime + ns })
    | .hostStore pa v =>
      if memSize < pa + 8 then .error (.noSuchMemory pa)
      else if !s.hostPath then .ok (.quiet { s1 with turn := .idle })
      else .ok (.quiet ({ s1 with turn := .idle }.putMemNat (pa / 8 * 8) 8 v))
    | .hostMem a v =>
      .ok (.quiet { s1 with turn := .idle, hub := { s.hub with hostMem := putCells s.hub.hostMem (cellsAt a (leBytes 8 v)) } })
    | .hostRead off => .ok (.quiet (mgmtReadEffect { s1 with turn := .idle } off))
    | .transit m => .ok (.quiet ({ s1 with turn := .idle }.transit m))

/-- Place a word as the next one of its machine: a Colt word at word 0 of the job routine of Colt 0, which runs; any other as
a queue program of one word in the interpreter. -/
def placeWord (s : State) (w : Nat) : State :=
  match decodeSingle true w with
  | .op _ i =>
    if coltOnly i then
      { s with turn := .colt 0, sched := [],
               hub := { s.hub with routine := w :: s.hub.routine.drop 1
                                   colts := sset {} s.hub.colts 0 { sget {} s.hub.colts 0 with running := true, pc := 0 } } }
    else { s with turn := .qprog, sched := [], hub := { s.hub with interp := some { prog := { words := [w] } } } }
  | _ => { s with turn := .qprog, sched := [], hub := { s.hub with interp := some { prog := { words := [w] } } } }

end Sys2Proof.Machine
end

