-- ==== Sys2Proof/Machine/Step.lean ====
section
/-! DEFINITION. The step of the machine, and the state with a word placed where the next step fetches it. -/
namespace Sys2Proof.Machine

/-- One step: the schedule's next choice, or the agent in turn (log 3). -/
def step (s : State) : Host.Outcome State Fault Refusal :=
  match schedule s with
  | .error f => .fault f
  | .ok (.quiet t) => .next t
  | .ok (.op i t) => exec i t

/-- The state with a word of the opcode table placed as the next one its machine runs (log 11). -/
def State.withFetchWord (s : State) (_nbits w : Nat) : State := placeWord s w

end Sys2Proof.Machine
end

