-- ==== Sys2Proof/Safety.lean ====
section
/-! DEFINITION. What counts as a safe run, and the words in which the claims speak of an operation at issue. -/
namespace Sys2Proof
open Machine

/-- A step from s is safe when it answers a next state. -/
def SafeStep (s : State) : Prop := ∃ t, step s = .next t

/-- A run of n steps from s is safe when it ends in a state. -/
def SafeRun (n : Nat) (s : State) : Prop := ∃ t, core.run n s = .next t

/-- What a write to memory leaves in the hub beside its bytes: the comparisons of waiting packets (R119) and the wakes of sleeping loops
(R374). Nothing else of the hub differs between s and t. -/
def NotedOnly (s t : State) : Prop :=
  { t.hub with pkts := s.hub.pkts, groups := s.hub.groups } = s.hub
    ∧ ∀ kern, { t.group kern with loop := (s.group kern).loop } = s.group kern
        ∧ (t.group kern).loop.map (fun l => { l with woken := false }) = (s.group kern).loop.map (fun l => { l with woken := false })

/-- What the operation in slot `sl` of core k's bundle sees on die d. -/
def look (s : State) (k sl d : Nat) : OpCtx := { s := s, u := unitOf k d, slot := sl, n := (s.core k).bn, single := false }

/-- What a handler word of slot `sl` sees on die d of core k. -/
def lookWord (s : State) (k sl d : Nat) : OpCtx := { s := s, u := unitOf k d, slot := sl, n := (s.core k).bn, single := true }

/-- What a word of slot `sl` sees on Colt c. -/
def lookColt (s : State) (c sl : Nat) : OpCtx := { s := s, u := coltUnit c, slot := sl, n := 0, single := true }

/-- Core k is in turn with its bundle i in issue, its branch word done, slot `sl` next, and no interlocked result of the core is
outstanding. -/
structure InSlot (s : State) (k sl : Nat) (i : Issue) : Prop where
  core : k < 64
  turn : s.turn = .core k
  normal : (s.core k).handler = none
  issue : (s.core k).issue = some i
  branched : i.brtDone = true
  slot : i.slot = sl
  quiet : ∀ e ∈ (s.core k).inflight, e.pend = false

/-- An access of unit u's scratchpad, of `len` bytes at a, finds its banks open: none is reserved, and no command of another core that
asked first waits for one (R286). -/
abbrev BanksOpen (c : OpCtx) (u a len : Nat) : Prop :=
  bankReserved (c.s.tile u) a len = false ∧ askedBefore c u (banksOf a len) false = false

/-- The command of node `node` whose descriptor x[x] names can issue (R280, R281, R286): the node is idle with no post to it in flight,
and the descriptor `d` at byte a of the scratchpad is in range and aligned, in open banks, and its BANKS meet no reservation and none that
another core waits for and asked for first. -/
abbrev Opens (c : OpCtx) (node x : Nat) (d : List Byte) (a : Nat) : Prop :=
  (c.t.getNode node).st = .idle ∧ (∀ e ∈ c.flight, e.unit = c.u → postsTo node e.eff = false)
    ∧ rx c x = .ok (BitVec.ofNat 64 a) ∧ a + 32 ≤ 2 ^ 22 ∧ 32 ∣ a ∧ BanksOpen c c.u a 32
    ∧ d = c.t.spadBytes a 32 ∧ (∀ r ∈ c.t.resv, Nat.land r.2 (dBANKS d) = 0) ∧ askedBefore c c.u (dBANKS d) true = false

/-- Core k is in turn in handler mode, at a handler word. -/
structure InHandler (s : State) (k : Nat) : Prop where
  core : k < 64
  turn : s.turn = .core k
  handler : (s.core k).handler.isSome = true

/-- The results that posts `ps d` make on the dies on which slot `sl` issues, in die order; a walker port pops once (R36). -/
def resultsOf (s : State) (k sl : Nat) (i : Issue) (ps : Nat → List Post) : List Entry :=
  (i.dies sl).flatMap (fun d => (onePop [] (ps d)).map (fun p => p.entry (s.core k).bn sl (unitOf k d)))

/-- The state after slot `sl` has issued with results `es`: they are staged with the bundle, the next slot is due, and the core runs
(R156). Nothing else changes. -/
def issued (s : State) (k sl : Nat) (i : Issue) (es : List Entry) : State :=
  s.setCore k { s.core k with st := .running, issue := some { i with slot := sl + 1, staged := i.staged ++ es } }

/-- The state after slot `sl` has issued with results `es` and changed its bundle by `f`. -/
def issuedBy (s : State) (k sl : Nat) (i : Issue) (es : List Entry) (f : Issue → Issue) : State :=
  s.setCore k { s.core k with st := .running, issue := some (f { i with slot := sl + 1, staged := i.staged ++ es }) }

/-- The state after a Colt's word with posts `ps`: its results have landed, and the next word is due. -/
def coltDone (s : State) (c sl : Nat) (ps : List Post) : State :=
  nextColt (applyNow s (ps.map (fun p => p.entry 0 sl (coltUnit c)))) c

end Sys2Proof
end

