-- ==== Sys2Proof/Certificates/Slice0/Obligations.lean ====
section
/-! DEFINITION. The statements for the provers. -/
open Sys2Proof Sys2Proof.Machine

/-- R173: the integer instructions. A wide statement: sixteen instructions, each with its value and latency, and the landing. R44 has DSEL wait for the register it reads; the step that this wait takes, an arrival of the oldest result, is the choice of log entries 3 and 17, and no rule of the spec. -/
def Obligations.IntResults : Prop :=
  (∀ (s : State) (k d a b : Nat) (i : Issue) (op : Instr) (lat : Nat) (f : DWord → DWord → DWord) (va vb : Nat → DWord),
    (op, lat, f) ∈ ([(.add d a b, 1, fun x y => x + y), (.sub d a b, 1, fun x y => x - y), (.mul d a b, 3, fun x y => x * y),
      (.mulh d a b, 3, fun x y => BitVec.ofInt 64 (x.toInt * y.toInt / 2 ^ 64)),
      (.and_ d a b, 1, fun x y => x &&& y), (.or_ d a b, 1, fun x y => x ||| y), (.xor_ d a b, 1, fun x y => x ^^^ y),
      (.shl d a b, 1, fun x y => x <<< (y.toNat % 64)), (.shr d a b, 1, fun x y => x >>> (y.toNat % 64)),
      (.sra d a b, 1, fun x y => x.sshiftRight (y.toNat % 64)),
      (.min_ d a b, 1, fun x y => if x.toInt ≤ y.toInt then x else y),
      (.max_ d a b, 1, fun x y => if y.toInt ≤ x.toInt then x else y)] : List (Instr × Nat × (DWord → DWord → DWord))) →
    InSlot s k 1 i → (∀ e ∈ i.dies 1, rx (look s k 1 e) a = .ok (va e)) → (∀ e ∈ i.dies 1, rx (look s k 1 e) b = .ok (vb e)) →
    exec op s = .next (issued s k 1 i (resultsOf s k 1 i (fun e => [{ lat := lat, eff := .xreg d (f (va e) (vb e)) }]))))
  ∧ (∀ (s : State) (k d a m : Nat) (i : Issue) (va : Nat → DWord), InSlot s k 1 i → (∀ e ∈ i.dies 1, rx (look s k 1 e) a = .ok (va e)) →
    exec (.addi d a m) s = .next (issued s k 1 i (resultsOf s k 1 i
      (fun e => [{ lat := 1, eff := .xreg d (va e + BitVec.ofInt 64 (sextNat m 14)) }]))))
  ∧ (∀ (s : State) (k d m : Nat) (i : Issue), InSlot s k 1 i →
    exec (.lui d m) s = .next (issued s k 1 i (resultsOf s k 1 i
      (fun _ => [{ lat := 1, eff := .xreg d (BitVec.ofInt 64 (sextNat m 19 * 2 ^ 13)) }]))))
  ∧ (∀ (s : State) (k d a b p : Nat) (i : Issue) (va vb : Nat → DWord) (vp : Nat → Bool), InSlot s k 1 i →
    (∀ e ∈ i.dies 1, rx (look s k 1 e) a = .ok (va e)) → (∀ e ∈ i.dies 1, rx (look s k 1 e) b = .ok (vb e)) →
    (∀ e ∈ i.dies 1, rp (look s k 1 e) p = .ok (vp e)) →
    exec (.sel d a b p) s = .next (issued s k 1 i (resultsOf s k 1 i
      (fun e => [{ lat := 1, eff := .xreg d (if vp e then va e else vb e) }]))))
  ∧ (∀ (s : State) (k d a : Nat) (i : Issue) (va : Nat → DWord), InSlot s k 1 i →
    (∀ e ∈ i.dies 1, rx (look s k 1 e) (a + (look s k 1 e).die) = .ok (va e)) →
    exec (.dsel d a) s = .next (issued s k 1 i (resultsOf s k 1 i (fun e => [{ lat := 1, eff := .xreg d (va e) }]))))
  ∧ (∀ (s : State) (k d a e : Nat) (i : Issue), k < 64 → s.turn = .core k → (s.core k).handler = none → (s.core k).issue = some i →
    i.brtDone = true → i.slot = 1 → e ∈ i.dies 1 → rx (look s k 1 e) (a + (look s k 1 e).die) = .error .wait →
    exec (.dsel d a) s = .next (arriveOldest s k))
  ∧ (∀ (s : State) (e : Entry) (d : Nat) (v : DWord), e.eff = .xreg d v → e.fl = 0 → e.mx = 0 →
    landEntry s e = s.writeX e.unit d v)

/-- R280 to R290 and R325: the tensor commands at issue. Log entry 6: SPACE and IDX of GATH and SCAT stand in overlapping bits of the descriptor, and the split is the model's reading. Log entry 12: the rows checked at issue are all that the count names. -/
def Obligations.TensorCommands : Prop :=
  (∀ (s : State) (k node sh sw x : Nat) (i : Issue) (D : Nat → List Byte) (da : Nat → Nat) (xs xd : Nat → List (Nat × Nat)), InSlot s k 6 i →
    (∀ e ∈ i.dies 6, let c := look s k 6 e
      let A := (shapePair c sh sw).1
      let B := (shapePair c sh sw).2
      let sp := dfield (D e) 16 1
      Opens c node x (D e) (da e) ∧ headerOk (D e) true = true
        ∧ tensorOk A = true ∧ tensorOk B = true ∧ sf A 8 = sf B 8
        ∧ (∀ j < 4, runsCount (dimShare A e j) = runsCount (dimShare B e j))
        ∧ tensorCheck c A (sp.testBit 0) 0 = .ok (xs e) ∧ tensorCheck c B (sp.testBit 1) 1 = .ok (xd e)
        ∧ (sp.testBit 0 = true → piecesBanks (dBANKS (D e)) (sharePieces A e) = .ok ())
        ∧ (sp.testBit 1 = true → piecesBanks (dBANKS (D e)) (sharePieces B e) = .ok ())) →
    exec (.copy node sh sw x) s = .next (issued s k 6 i (resultsOf s k 6 i (fun e => let c := look s k 6 e
      let n := ((sharePieces (shapePair c sh sw).2 e).map (fun p => p.2)).sum
      (if sw = 1 then [{ lat := 0, eff := .shSwap (8 + sh) }] else []) ++
        [{ lat := 0, eff := .reserve node (dBANKS (D e)) },
         { lat := 1, eff := .xpost node { instr := .copy node sh sw x, desc := D e, shA := (shapePair c sh sw).1, shB := (shapePair c sh sw).2, xlate := xs e ++ xd e, reads := (xs e).length, cid := (s.core k).cid, progress := n } }]
        ++ leasePosts c 0 (xs e) ++ leasePosts c 1 (xd e)))))
  ∧ (∀ (s : State) (k node sh sw x : Nat) (i : Issue) (op : Instr) (gath : Bool) (D : Nat → List Byte) (da : Nat → Nat) (xs xd : Nat → List (Nat × Nat)),
    (op, gath) ∈ ([(.gath node sh sw x, true), (.scat node sh sw x, false)] : List (Instr × Bool)) → InSlot s k 6 i →
    (∀ e ∈ i.dies 6, let c := look s k 6 e
      let A := (shapePair c sh sw).1
      let B := (shapePair c sh sw).2
      let n := dfield (D e) 20 4
      let ra := if emptyRows A then [] else allRows A (if gath then 0 else n)
      let rb := if emptyRows B then [] else allRows B (if gath then n else 0)
      let src := (dSPACE (D e)).testBit 0
      let dst := (dSPACE (D e)).testBit 1
      Opens c node x (D e) (da e) ∧ headerOk (D e) false = true ∧ 1 ≤ n ∧ n ≤ 65536
        ∧ tensorOk A = true ∧ tensorOk B = true ∧ sf A 8 = sf B 8
        ∧ (∀ m ∈ [A, B], sf m 3 = 1 ∧ sf m 4 = 1 ∧ (sf m 10).toNat % 8 = 7)
        ∧ dIDX (D e) + 4 * n ≤ 2 ^ 22 ∧ piecesOk src 0 ra = .ok () ∧ piecesOk dst 1 rb = .ok ()
        ∧ tensorAligned A = true ∧ tensorAligned B = true
        ∧ (if src then xs e = [] ∧ piecesBanks (dBANKS (D e)) ra = .ok () else piecesXlate c 0 ra = .ok (xs e))
        ∧ (if dst then xd e = [] ∧ piecesBanks (dBANKS (D e)) rb = .ok () else piecesXlate c 1 rb = .ok (xd e))
        ∧ banksCover (dBANKS (D e)) (dIDX (D e)) (4 * n) = .ok () ∧ banksCover (dBANKS (D e)) (da e + 28) 4 = .ok ()) →
    exec op s = .next (issued s k 6 i (resultsOf s k 6 i (fun e => let c := look s k 6 e
      (if sw = 1 then [{ lat := 0, eff := .shSwap (8 + sh) }] else []) ++
        [{ lat := 0, eff := .reserve node (dBANKS (D e)) },
         { lat := 1, eff := .xpost node { instr := op, desc := D e, shA := (shapePair c sh sw).1, shB := (shapePair c sh sw).2, xlate := xs e ++ xd e, reads := (xs e).length, dpos := da e, cid := (s.core k).cid } }]
        ++ leasePosts c 0 (xs e) ++ leasePosts c 1 (xd e)))))
  ∧ (∀ (s : State) (k node sh sw x fn : Nat) (i : Issue) (D : Nat → List Byte) (da : Nat → Nat), InSlot s k 6 i →
    (∀ e ∈ i.dies 6, let c := look s k 6 e
      let m := shapeAfter c.t (8 + sh) (8 + sh) sw
      let idx := dfield (D e) 16 4
      let n := dfield (D e) 20 4
      let val := dfield (D e) 24 4
      let es := elemBits (sf m 8).toNat / 8
      let base := (sf m 0).toNat
      Opens c node x (D e) (da e) ∧ headerOk (D e) false = true ∧ (sf m 8).toNat ≤ 2 ∧ sf m 2 = 1 ∧ sf m 3 = 1 ∧ sf m 4 = 1
        ∧ 1 ≤ n ∧ n ≤ 65536 ∧ 4 ∣ idx ∧ es ∣ val ∧ es ∣ base
        ∧ idx + 4 * n ≤ 2 ^ 22 ∧ val + es * n ≤ 2 ^ 22 ∧ base + es * (sf m 1).toNat ≤ 2 ^ 22
        ∧ banksCover (dBANKS (D e)) idx (4 * n) = .ok () ∧ banksCover (dBANKS (D e)) val (es * n) = .ok ()
        ∧ banksCover (dBANKS (D e)) base (es * (sf m 1).toNat) = .ok () ∧ banksCover (dBANKS (D e)) (da e + 28) 4 = .ok ()) →
    exec (.scacc node sh sw x fn) s = .next (issued s k 6 i (resultsOf s k 6 i (fun e => let c := look s k 6 e
      (if sw = 1 then [{ lat := 0, eff := .shSwap (8 + sh) }] else []) ++
        [{ lat := 0, eff := .reserve node (dBANKS (D e)) },
         { lat := 1, eff := .xpost node { instr := .scacc node sh sw x fn, desc := D e, shA := shapeAfter c.t (8 + sh) (8 + sh) sw, dpos := da e, cid := (s.core k).cid } }]))))

/-- R278, R291 and R292: the commands that name a range of memory. -/
def Obligations.AddressCommands : Prop :=
  (∀ (s : State) (k node x fn : Nat) (i : Issue) (D : Nat → List Byte) (da : Nat → Nat) (xl : Nat → List (Nat × Nat)), InSlot s k 6 i →
    (∀ e ∈ i.dies 6, let c := look s k 6 e
      let a := dfield (D e) 16 8
      let b := dfield (D e) 24 4
      let size := if fn.testBit 4 then 4 else 8
      Opens c node x (D e) (da e) ∧ headerOk (D e) false = true ∧ 8 ∣ b ∧ b + 24 ≤ 2 ^ 22
        ∧ banksCover (dBANKS (D e)) b 24 = .ok () ∧ a < 2 ^ 56 ∧ size ∣ a
        ∧ xlateRange c a size (if fn % 16 = 11 then 6 else 5) = .ok (xl e) ) →
    exec (.amo node x fn) s = .next (issued s k 6 i (resultsOf s k 6 i (fun e =>
      [{ lat := 0, eff := .reserve node (dBANKS (D e)) },
       { lat := 1, eff := .xpost node { instr := .amo node x fn, desc := D e, xlate := xl e, cid := (s.core k).cid } }] ++ leasePosts (look s k 6 e) (if fn % 16 = 11 then 6 else 5) (xl e)))))
  ∧ (∀ (s : State) (k node x : Nat) (i : Issue) (op : Instr) (D : Nat → List Byte) (da : Nat → Nat) (xl : Nat → List (Nat × Nat)),
    op ∈ ([.rgwb node x, .rginv node x] : List Instr) → InSlot s k 6 i →
    (∀ e ∈ i.dies 6, let c := look s k 6 e
      let n := dfield (D e) 24 4
      Opens c node x (D e) (da e) ∧ headerOk (D e) false = true ∧ 1 ≤ n ∧ n ≤ 2 ^ 31
        ∧ xlateRange c (dfield (D e) 16 8) n 0 = .ok (xl e) ) →
    exec op s = .next (issued s k 6 i (resultsOf s k 6 i (fun e =>
      [{ lat := 0, eff := .reserve node (dBANKS (D e)) },
       { lat := 1, eff := .xpost node { instr := op, desc := D e, xlate := xl e, cid := (s.core k).cid } }] ++ leasePosts (look s k 6 e) 0 (xl e)))))
  ∧ (∀ (s : State) (k node x fn : Nat) (i : Issue) (D : Nat → List Byte) (da : Nat → Nat), InSlot s k 6 i →
    (∀ e ∈ i.dies 6, let c := look s k 6 e
      let n := dfield (D e) 24 4
      Opens c node x (D e) (da e) ∧ headerOk (D e) false = true ∧ 1 ≤ n ∧ n ≤ 2 ^ 31) →
    exec (.pref node x fn) s = .next (issued s k 6 i (resultsOf s k 6 i (fun e =>
      [{ lat := 0, eff := .reserve node (dBANKS (D e)) },
       { lat := 1, eff := .xpost node { instr := .pref node x fn, desc := D e, xlate := granulesMapped (look s k 6 e) (dfield (D e) 16 8) (dfield (D e) 24 4), cid := (s.core k).cid } }]
        ++ leasePosts (look s k 6 e) 0 (granulesMapped (look s k 6 e) (dfield (D e) 16 8) (dfield (D e) 24 4))))))
  ∧ (∀ (s : State) (k node x kind : Nat) (i : Issue) (op : Instr) (D : Nat → List Byte) (da : Nat → Nat) (xl : Nat → List (Nat × Nat)),
    (op, kind) ∈ ([(.zspl node x, 4), (.zsplCopy node x, 4), (.zfil node x, 3)] : List (Instr × Nat)) → InSlot s k 6 i →
    (∀ e ∈ i.dies 6, let c := look s k 6 e
      let a := dfield (D e) 16 8
      let nz := dfield (D e) 25 1
      Opens c node x (D e) (da e) ∧ headerOk (D e) false = true ∧ dfield (D e) 24 1 + nz ≤ 63
        ∧ a + 32768 * (nz + 1) ≤ 2 ^ 56 ∧ 512 ∣ a ∧ xlateRange c a (32768 * (nz + 1)) kind = .ok (xl e)) →
    exec op s = .next (issued s k 6 i (resultsOf s k 6 i (fun e =>
      [{ lat := 0, eff := .reserve node (dBANKS (D e)) },
       { lat := 1, eff := .xpost node { instr := op, desc := D e, xlate := xl e, cid := (s.core k).cid } }] ++ leasePosts (look s k 6 e) kind (xl e)))))

/-- R254 and R268 to R276: the state slots. -/
def Obligations.StateSlotOperations : Prop :=
  (∀ (s : State) (k a z row : Nat) (i : Issue) (A : Nat → Src), InSlot s k 5 i →
    (∀ e ∈ i.dies 5, slotFree (look s k 5 e) z = .ok () ∧ readNonEmpty (look s k 5 e) a = .ok (A e)) →
    exec (.zld a z row) s = .next (issued s k 5 i (resultsOf s k 5 i (fun e =>
      let bytes := (List.range 512).map (fun j => BitVec.ofNat 8 ((A e).v.lane (j / 4) / 256 ^ (j % 4)))
      { lat := 3, eff := .slotBytes z (cellsAt (512 * row) bytes) } :: (A e).posts))))
  ∧ (∀ (s : State) (k d z row : Nat) (i : Issue) (ps : Nat → List Post), InSlot s k 5 i →
    (∀ e ∈ i.dies 5, let c := look s k 5 e
      slotFree c z = .ok () ∧ dstPosts c d 3 (vecOfBytes (nth .empty [.fp32, .bf16, .i32] c.t.ldt) (slotBytes c.t z (512 * row) 512)) allOnes = .ok (ps e)) →
    exec (.zrd d z row) s = .next (issued s k 5 i (resultsOf s k 5 i ps)))
  ∧ (∀ (s : State) (k z : Nat) (i : Issue), InSlot s k 5 i → (∀ e ∈ i.dies 5, slotFree (look s k 5 e) z = .ok ()) →
    exec (.zclr z) s = .next (issued s k 5 i (resultsOf s k 5 i (fun _ => [{ lat := 1, eff := .slotClear z }]))))
  ∧ (∀ (s : State) (k z y : Nat) (i : Issue), InSlot s k 5 i →
    (∀ e ∈ i.dies 5, slotFree (look s k 5 e) y = .ok () ∧ slotFree (look s k 5 e) z = .ok ()) →
    exec (.zmov z y) s = .next (issued s k 5 i (resultsOf s k 5 i (fun e =>
      [{ lat := 2, eff := .slotBytes z (cellsAt 0 (slotBytes (look s k 5 e).t y 0 32768)) }]))))
  ∧ (∀ (s : State) (k z zt a b : Nat) (i : Issue) (op : Instr) (f : Nat → FFmt) (r w : Nat → Nat) (prog : Nat → List Word) (A B : Nat → Src),
    (op, zt) ∈ ([(.step z a b, z), (.stepSpec z a b, z + 1)] : List (Instr × Nat)) → InSlot s k 5 i →
    (∀ e ∈ i.dies 5, let c := look s k 5 e
      stepShape c.t = some (f e, r e, w e) ∧ (r e = 1 ∨ w e ≤ 64) ∧ c.t.prog = some (prog e)
        ∧ slotFree c z = .ok () ∧ slotFree c zt = .ok () ∧ readAs c a .fp32 (fun j => decide (j < w e)) = .ok (A e)
        ∧ readAs c b .fp32 (fun j => decide (j < w e) || (decide (1 < r e) && decide (64 ≤ j) && decide (j < 64 + r e))) = .ok (B e)) →
    let alpha := fun e j => toFmt (f e) ((A e).v.lane j)
    let beta := fun e p j => if r e = 1 then toFmt (f e) ((B e).v.lane j) else mulTo (f e) ((B e).v.lane (64 + p)) ((B e).v.lane j)
    let new := fun e p j => combine (f e) (prog e) (fmtOne (f e)) (slotVal (look s k 5 e).t z (f e) p j) (alpha e j).1 (beta e p j).1
    let pos := fun e => (List.range (r e)).flatMap (fun p => (List.range (w e)).map (fun j => (p, j)))
    exec op s = .next (issued s k 5 i (resultsOf s k 5 i (fun e =>
      [{ lat := 7, eff := .slotBytes zt ((pos e).flatMap (fun q => cellsAt (512 * q.1 + (f e).size * q.2) (leBytes (f e).size (new e q.1 q.2).2.1))),
         fl := (pos e).foldl (fun g q => g ||| ((alpha e q.2).2 ||| (beta e q.1 q.2).2 ||| (new e q.1 q.2).2.2)) 0 ||| (A e).fl ||| (B e).fl }]
        ++ (A e).posts ++ (B e).posts))))
  ∧ (∀ (s : State) (k d z a : Nat) (i : Issue) (f : Nat → FFmt) (r w : Nat → Nat) (A : Nat → Src) (ps : Nat → List Post), InSlot s k 5 i →
    (∀ e ∈ i.dies 5, let c := look s k 5 e
      let val : Nat → Nat → Fl := fun p j => if f e = .bf16 then bf2f (slotVal c.t z (f e) p j) else (slotVal c.t z (f e) p j, 0)
      let lane : Nat → Fl := fun j =>
        if w e ≤ j then (0, 0)
        else if r e = 1 then ((mul32 ((A e).v.lane j) (val 0 j).1).1, (mul32 ((A e).v.lane j) (val 0 j).1).2 ||| (val 0 j).2)
        else (List.range (r e)).foldl (fun (acc : Fl) p =>
          ((fma32 ((A e).v.lane p) (val p j).1 acc.1).1, acc.2 ||| (fma32 ((A e).v.lane p) (val p j).1 acc.1).2 ||| (val p j).2)) (0, 0)
      let lanes := (List.range 128).map lane
      stepShape c.t = some (f e, r e, w e) ∧ slotFree c z = .ok ()
        ∧ readAs c a .fp32 (fun j => decide (j < if r e = 1 then w e else r e)) = .ok (A e)
        ∧ dstPosts c d 5 (Vec.mk' .fp32 (fun j => (nth (0, 0) lanes j).1)) allOnes (lanes.foldl (fun g x => g ||| x.2) 0 ||| (A e).fl) = .ok (ps e)) →
    exec (.sdot d z a) s = .next (issued s k 5 i (resultsOf s k 5 i (fun e => ps e ++ (A e).posts))))
  ∧ (∀ (s : State) (k x : Nat) (i : Issue) (v : Nat → Nat → DWord), InSlot s k 5 i →
    (∀ e ∈ i.dies 5, (∀ j < 4, rx (look s k 5 e) (x + j) = .ok (v e j))
      ∧ progValid ((List.range 4).flatMap (fun j => [(v e j).extractLsb' 0 32, (v e j).extractLsb' 32 32])) = true) →
    exec (.zop x) s = .next (issued s k 5 i (resultsOf s k 5 i (fun e =>
      [{ lat := 2, eff := .zop ((List.range 4).flatMap (fun j => [(v e j).extractLsb' 0 32, (v e j).extractLsb' 32 32])) }]))))
  ∧ (∀ (z : Slot) (cells : List (Nat × Byte)) (a : Nat), (z.write cells).st = .live
      ∧ ((∀ c ∈ cells, c.1 ≠ a) → sget 0 (z.write cells).bytes a = sget 0 z.bytes a))

/-- R255 to R266: the scan phases and their rendezvous. Log entry 26: the participants are the tiles that the block names on the dies. Log entry 103: a carry held from the position of the own package is how R422's claim of another device shows, the model's choice. -/
def Obligations.ScanOperations : Prop :=
  (∀ (s : State) (k sh sw rev a : Nat) (i : Issue) (op : Instr) (X : Nat → ScanSet) (prog : Nat → List Word) (ps : Nat → List Post)
      (sloc : Bool),
    (op, sloc) ∈ ([(.sloc sh sw rev a, true), (.sapl sh sw rev a, false)] : List (Instr × Bool)) → InSlot s k 5 i →
    (∀ e ∈ i.dies 5, let c := look s k 5 e
      let z := if sloc then (X e).zs else (X e).zx
      scanPrep c sh sw rev (if sloc then none else some .down) = .ok (X e, prog e)
        ∧ slotFree c z = .ok () ∧ slotFree c (z + 1) = .ok ()
        ∧ scanStream c (X e) (prog e) sloc a (if sloc then 1 + progLen (prog e) else 1)
            (if sloc then none else readPair c.t c.t.xabs (X e).zx (X e)) = .ok (ps e)) →
    exec op s = .next (issued s k 5 i (resultsOf s k 5 i (fun e =>
      (if sw = 1 then [{ lat := 0, eff := .shSwap (4 + sh) }] else []) ++ ps e))))
  ∧ (∀ (s : State) (k sh sw rev a : Nat) (i : Issue) (op : Instr) (ph : TreePhase) (X : Nat → ScanSet × List Word),
    (op, ph) ∈ ([(.sup sh sw rev a, .sup), (.scry sh sw rev a, .scry), (.sdn sh sw rev a, .sdn)] : List (Instr × TreePhase)) →
    InSlot s k 5 i → (∀ e ∈ i.dies 5, treeLook ph sh sw rev (look s k 5 e) = .ok (X e)) →
    exec op s = .next (rendezvous s k))
  ∧ (∀ (s : State) (k : Nat) (a : AtPhase) (l : List AtPhase), phaseOf s k = a :: l → spoiledHere s k = [] → overlapping s k = [] →
      gather s a.ph 65 [k] = none → rendezvous s k = s)
  ∧ (∀ (s : State) (k k' : Nat) (a : AtPhase) (l ats : List AtPhase) (i' : Issue), phaseOf s k = a :: l → spoiledHere s k = [] → overlapping s k = [] →
      gather s a.ph 65 [k] = some ats →
      mismatched ats = [] → claims s ats = [] → k' ∈ ats.map (fun b => b.k) → (s.core k').issue = some i' →
      ∃ es : List Entry, (((rendezvous s k).core k').issue = some { i' with slot := 6, staged := i'.staged ++ es })
        ∧ ∀ b ∈ ats, b.k = k' → ∀ x prog, b.res = .ok (x, prog) →
          ∃ f ∈ es, f.unit = unitOf b.k b.d ∧ f.eff = .scanState b.ph.to_ x.word)
  ∧ (TreePhase.sup.to_ = .up ∧ TreePhase.scry.to_ = .carried ∧ TreePhase.sdn.to_ = .down
      ∧ TreePhase.sup.from_ = .local ∧ TreePhase.scry.from_ = .up ∧ TreePhase.sdn.from_ = .carried)
  ∧ (∀ (s : State) (k : Nat), s.hub.stalled = false → exec (.scanRendezvous k) s = .next (rendezvous s k))
  ∧ (∀ (s : State) (k : Nat) (a : AtPhase) (l ats : List AtPhase), phaseOf s k = a :: l → spoiledHere s k = [] → overlapping s k = [] →
      gather s a.ph 65 [k] = some ats → mismatched ats = [] → claims s ats ≠ [] →
      rendezvous s k = phaseRaises { s with hub := { s.hub with carriesIn := s.hub.carriesIn.filter (fun c => !(claims s ats).contains c) } }
        (ats.map (fun b => (b.k, b.d))))

/-- R283, R293, R294, R417 and R418. That ACCESS for a device outside PODSIZE has REASON 6 is the choice of log entry 74: R417 gives ACCESS alone. -/
def Obligations.BenchAndRemoteOperations : Prop :=
  (∀ (s : State) (k a tile n : Nat) (i : Issue) (A : Nat → Src), InSlot s k 6 i → (s.core k).benchFrom = some n →
    (∀ e ∈ i.dies 6, readNonEmpty (look s k 6 e) a = .ok (A e)) →
    exec (.btx a tile) s = .next (issued s k 6 i (resultsOf s k 6 i (fun e =>
      let far := 4 + ((k : Int) / 8 - tile / 8).natAbs + ((k : Int) % 8 - tile % 8).natAbs
      { lat := 0, eff := .benchSend (64 * tile + k) (A e).v far } :: (A e).posts))))
  ∧ (∀ (s : State) (k d tile n : Nat) (i : Issue) (v : Nat → Vec) (ps : Nat → List Post), InSlot s k 6 i → (s.core k).benchFrom = some n →
    (∀ e ∈ i.dies 6, let c := look s k 6 e
      sget none c.t.bench tile = some (v e) ∧ dstPosts c d 1 (v e) allOnes = .ok (ps e)) →
    exec (.bsel d tile) s = .next (issued s k 6 i (resultsOf s k 6 i ps)))
  ∧ (∀ (s : State) (k e a tile d : Nat), k < 64 → e < 4 → (s.core k).benchFrom = none →
      opBtx a tile (look s k 6 e) = raise cILLEGAL 0 ∧ opBsel d tile (look s k 6 e) = raise cILLEGAL 0)
  ∧ (∀ (s : State) (k d x : Nat) (i : Issue) (ra : Nat → DWord), (d < 40 ∨ 48 ≤ d) → InSlot s k 6 i → (∀ e ∈ i.dies 6, linkFull (look s k 6 e) = false) →
    (∀ e ∈ i.dies 6, remoteCheck (look s k 6 e) x = .ok (ra e)) →
    exec (.rld d x) s = .next (issued s k 6 i (resultsOf s k 6 i (fun e =>
      let tag := Tag.ofCode ((look s k 6 e).t.ldt + 1)
      [{ lat := 64, eff := .remote d 0 tag 0 false 0 false, inter := true, pend := true }, { lat := 0, eff := .rldPost (ra e) }]))))
  ∧ (∀ (s : State) (k d x : Nat) (i : Issue) (ra : Nat → DWord) (ps : Nat → List Post), InSlot s k 6 i → (∀ e ∈ i.dies 6, linkFull (look s k 6 e) = false) →
    (∀ e ∈ i.dies 6, let c := look s k 6 e
      remoteCheck c x = .ok (ra e) ∧ dstPosts c d 64 { tag := Tag.ofCode (c.t.ldt + 1) } allOnes 0 true = .ok (ps e)) →
    ∃ t, exec (.rld d x) s = .next t ∧ t.mem = s.mem ∧ t.tiles = s.tiles)
  ∧ (∀ (s : State) (k a x : Nat) (i : Issue) (ra : Nat → DWord) (A : Nat → Src), InSlot s k 6 i → (∀ e ∈ i.dies 6, linkFull (look s k 6 e) = false) →
    (∀ e ∈ i.dies 6, remoteCheck (look s k 6 e) x = .ok (ra e) ∧ readNonEmpty (look s k 6 e) a = .ok (A e)) →
    exec (.rst a x) s = .next (issued s k 6 i (resultsOf s k 6 i (fun e =>
      let bytes := (List.range (remoteSize (ra e).toNat)).map (fun j => BitVec.ofNat 8 ((A e).v.lane (j / 4) / 256 ^ (j % 4)))
      { lat := 1, eff := .rstPost (ra e) bytes } :: (A e).posts))))
  ∧ (∀ (c : OpCtx) (x : Nat) (v : DWord), rx c x = .ok v →
      (c.s.podDevices ≤ v.toNat / 2 ^ 53 % 2 ^ 9 → remoteCheck c x = raiseR cACCESS 6 v.toNat)
      ∧ (v.toNat / 2 ^ 53 % 2 ^ 9 < c.s.podDevices → ¬ remoteSize v.toNat ∣ v.toNat % 2 ^ 53 → remoteCheck c x = raise cMISALIGN v.toNat)
      ∧ (v.toNat / 2 ^ 53 % 2 ^ 9 < c.s.podDevices → remoteSize v.toNat ∣ v.toNat % 2 ^ 53 → remoteCheck c x = .ok v))
  ∧ (∀ (s : State) (k n : Nat) (i : Issue), InSlot s k 6 i → i.dies 6 ≠ [] →
    exec (.xwt n) s = .next (if (List.range 4).all (fun d => ((s.tile (unitOf k d)).getNode n).st = .idle) then issued s k 6 i []
      else issuedBy s k 6 i [] (fun j => { j with after := j.after ++ [.xwt n] })))

/-- R370, R378, R394, R407 and R420: the commands of the sequence engine and COLL at issue. -/
def Obligations.SequenceCommands : Prop :=
  (∀ (s : State) (k node x : Nat) (i : Issue) (l : LoopRec) (D : Nat → List Byte) (da : Nat → Nat) (xl : Nat → List (List (Nat × Nat))),
    InSlot s k 6 i → (s.groupOf k).loop = some l →
    (∀ e ∈ i.dies 6, let c := look s k 6 e
      let npos := dfield (D e) 18 1
      let size := if dfield (D e) 19 1 = 1 then 2 else 4
      let a := dfield (D e) 24 8
      Opens c node x (D e) (da e) ∧ headerOk (D e) false = true ∧ dfield (D e) 16 2 < 256 ∧ dfield (D e) 19 1 ≤ 1 ∧ 1 ≤ npos ∧ npos ≤ l.drl + 1
        ∧ 64 ∣ a ∧ (List.range npos).mapM (fun p => xlateRange c (a + p * ((l.vocab * size + 63) / 64 * 64)) (l.vocab * size) 0) = .ok (xl e)
        ∧ banksCover (dBANKS (D e)) (da e + 20) 4 = .ok () ) →
    exec (.smpq node x) s = .next (issued s k 6 i (resultsOf s k 6 i (fun e =>
      [{ lat := 0, eff := .reserve node (dBANKS (D e)) },
       { lat := 1, eff := .xpost node { instr := .smpq node x, desc := D e, xlate := (xl e).flatten, dpos := da e, cid := (s.core k).cid } }] ++ leasePosts (look s k 6 e) 0 (xl e).flatten))))
  ∧ (∀ (s : State) (k node x fn : Nat) (i : Issue) (l : LoopRec) (op : Instr) (ok : List Byte → Nat → Bool) (D : Nat → List Byte) (da : Nat → Nat),
    (op, ok) ∈ ([(.flkq node x fn, fun d _ => decide (dfield d 20 4 = 2 ^ 32 - 1
          ∨ (dfield d 20 4 % 4 = 0 ∧ dfield d 20 4 + 36 ≤ 2 ^ 22 ∧ banksCover (dBANKS d) (dfield d 20 4) 36 = .ok ()))),
      (.wpset node x, fun d a => decide (dfield d 18 1 ≤ 15 ∧ dfield d 19 1 = 0 ∧ dfield d 24 4 = 0 ∧ dfield d 20 4 % 16 = 0
          ∧ dfield d 20 4 + 128 ≤ 2 ^ 22 ∧ banksCover (dBANKS d) (dfield d 20 4) 128 = .ok () ∧ banksCover (dBANKS d) (a + 28) 4 = .ok ())),
      (.wpclr node x, fun d a => decide (dfield d 20 8 = 0 ∧ banksCover (dBANKS d) (a + 28) 4 = .ok ()))]
        : List (Instr × (List Byte → Nat → Bool))) →
    InSlot s k 6 i → (s.groupOf k).loop = some l →
    (∀ e ∈ i.dies 6, let c := look s k 6 e
      Opens c node x (D e) (da e) ∧ headerOk (D e) false = true ∧ dfield (D e) 16 2 < 256 ∧ ok (D e) (da e) = true) →
    exec op s = .next (issued s k 6 i (resultsOf s k 6 i (fun e =>
      [{ lat := 0, eff := .reserve node (dBANKS (D e)) },
       { lat := 1, eff := .xpost node { instr := op, desc := D e, dpos := da e, cid := (s.core k).cid } }]))))
  ∧ (∀ (s : State) (k node x : Nat) (i : Issue) (l : LoopRec) (D : Nat → List Byte) (da : Nat → Nat) (xl : Nat → List (Nat × Nat)),
    InSlot s k 6 i → (s.groupOf k).loop = some l →
    (∀ e ∈ i.dies 6, let c := look s k 6 e
      let n := dfield (D e) 18 1
      let dest := dfield (D e) 24 8
      let len := n * maskLines l.vocab
      Opens c node x (D e) (da e) ∧ headerOk (D e) false = true ∧ dfield (D e) 16 2 < 256 ∧ dfield (D e) 19 1 ≤ 1 ∧ 1 ≤ n ∧ n ≤ l.drl + 1 ∧ 64 ∣ dest
        ∧ (if dfield (D e) 19 1 = 1 then dest + len ≤ 2 ^ 22 ∧ banksCover (dBANKS (D e)) dest len = .ok () ∧ xl e = []
            else xlateRange c dest len 1 = .ok (xl e))
        ∧ banksCover (dBANKS (D e)) (da e + 20) 4 = .ok () ) →
    exec (.mskq node x) s = .next (issued s k 6 i (resultsOf s k 6 i (fun e =>
      [{ lat := 0, eff := .reserve node (dBANKS (D e)) },
       { lat := 1, eff := .xpost node { instr := .mskq node x, desc := D e, xlate := xl e, dpos := da e, cid := (s.core k).cid } }] ++ leasePosts (look s k 6 e) 1 (xl e)))))
  ∧ (∀ (s : State) (k node x fn : Nat) (i : Issue) (op : Instr) (D : Nat → List Byte) (da : Nat → Nat),
    op ∈ ([.smpq node x, .flkq node x fn, .wpset node x, .wpclr node x, .mskq node x] : List Instr) → InSlot s k 6 i →
    (s.groupOf k).loop = none → i.dies 6 ≠ [] → (∀ e ∈ i.dies 6, Opens (look s k 6 e) node x (D e) (da e)) →
    exec op s = .next (trapOf s k 6 (nth 0 i.words 6) ((i.dies 6).map (fun e => (e, cILLEGAL, 0, 0)))))
  ∧ (∀ (s : State) (k node sh sw x fn : Nat) (i : Issue) (D : Nat → List Byte) (da : Nat → Nat) (xl : Nat → List (Nat × Nat)), InSlot s k 6 i →
    (∀ e ∈ i.dies 6, linkFull (look s k 6 e) = false) →
    (∀ e ∈ i.dies 6, let c := look s k 6 e
      let m := shapeAfter c.t (8 + sh) (8 + sh) sw
      let dst := dfield (D e) 16 8
      let peer := dfield (D e) 24 2
      Opens c node x (D e) (da e) ∧ headerOk (D e) false = true ∧ dst < 2 ^ 53 ∧ peer < 2 ^ 13 ∧ dfield (D e) 26 1 ≤ 1 ∧ dfield (D e) 27 5 = 0
        ∧ peer / 512 < s.pods ∧ peer % 512 < s.podDevices ∧ (sf m 8).toNat ≤ 2 ∧ sf m 2 = 1 ∧ sf m 3 = 1 ∧ sf m 4 = 1 ∧ tensorOk m = true
        ∧ 64 ∣ dst ∧ tensorCheck c m true 0 = .ok (xl e) ∧ piecesBanks (dBANKS (D e)) (sharePieces m e) = .ok ()) →
    exec (.coll node sh sw x fn) s = .next (issued s k 6 i (resultsOf s k 6 i (fun e => let c := look s k 6 e
      (if sw = 1 then [{ lat := 0, eff := .shSwap (8 + sh) }] else []) ++
        [{ lat := 0, eff := .reserve node (dBANKS (D e)) },
         { lat := 1, eff := .xpost node { instr := .coll node sh sw x fn, desc := D e, shA := shapeAfter c.t (8 + sh) (8 + sh) sw, dpos := da e, cid := (s.core k).cid } }]))))

/-- R372 and R373. -/
def Obligations.LoopKernelWords : Prop :=
  (∀ (s : State) (k d x : Nat) (i : Issue) (l : LoopRec) (v : Nat → DWord), InSlot s k 0 i → (s.groupOf k).loop = some l →
    (∀ e ∈ i.dies 0, rx (look s k 0 e) x = .ok (v e) ∧ (v e).toNat ≤ 255) →
    exec (.trdy d x) s = .next (issued s k 0 i (resultsOf s k 0 i (fun e =>
      if (laneRec l (v e).toNat).isNone then [{ lat := 2, eff := .pred d false, inter := true }]
      else [{ lat := 2, eff := .predPending d (1 + (v e).toNat), inter := true, pend := true }]))))
  ∧ (∀ (s : State) (k : Nat) (i : Issue) (l : LoopRec), InSlot s k 0 i → (s.groupOf k).loop = some l →
    exec .commit s = .next (issuedBy s k 0 i [] (fun j => { j with after := j.after ++ [.boundary] })))
  ∧ (∀ (s : State) (k d x : Nat) (i : Issue), InSlot s k 0 i → (s.groupOf k).loop = none → i.dies 0 ≠ [] →
    exec (.trdy d x) s = .next (trapOf s k 0 (nth 0 i.words 0) ((i.dies 0).map (fun e => (e, cILLEGAL, 0, 0))))
      ∧ exec .commit s = .next (trapOf s k 0 (nth 0 i.words 0) ((i.dies 0).map (fun e => (e, cILLEGAL, 0, 0)))))
  ∧ (∀ (s : State) (k p j : Nat) (e : Entry) (l : LoopRec), e ∈ (s.core k).inflight → e.pend = true → e.eff = .predPending p (1 + j) →
      e.unit / 4 = k → (s.groupOf k).loop = some l → laneReady s (s.groupOf k).cid l j = true →
      let b := decide (seqGet s (s.groupOf k).cid (seqAddr l (nth 65535 l.lanes j) 216) 1 % 4 = 0)
      ((arriveOne s k e).core k).inflight = (s.core k).inflight.map (fun x => if x = e then { x with eff := .pred p b, pend := false } else x)
        ∧ (arriveOne s k e).tiles = (acquireAt s e.unit 4).tiles)

/-- R406 over R397 to R400 and R405: what each Colt instruction leaves. -/
def Obligations.ColtSampling : Prop :=
  let done := fun (t : State) (c d : Nat) (v : DWord) => nextColt (t.modTile (coltUnit c) (fun r => r.setX d v)) c
  (∀ (s : State) (c d a : Nat) (v : DWord), s.turn = .colt c → rx (lookColt s c 1) a = .ok v →
    (v = 0 → exec (.samcfgPar d a) s = .next (done (s.modColt c (fun r => { r with par := {} })) c d 0))
    ∧ (v ≠ 0 → coltRange (lookColt s c 1) v 64 64 0 = .ok () → ∀ p, readPar ((s.hubRead (s.coltCid c) v.toNat 64).getD []) = .ok p →
        exec (.samcfgPar d a) s = .next (done (s.modColt c (fun r => { r with par := p })) c d 0))
    ∧ (v ≠ 0 → coltRange (lookColt s c 1) v 64 64 0 = .ok () → ∀ e, readPar ((s.hubRead (s.coltCid c) v.toNat 64).getD []) = .error e →
        exec (.samcfgPar d a) s = .next (done (refuseCfg s c) c d (BitVec.ofNat 64 e)))
    ∧ (v.toNat % 2 ^ 21 = 0 ∨ 2 ^ 20 < v.toNat % 2 ^ 21 ∨ v.toNat ≠ v.toNat % 2 ^ 21 + 2 ^ 32 * (v.toNat / 2 ^ 32 % 2) →
        exec (.samcfgVoc d a) s = .next (done (refuseCfg s c) c d 5))
    ∧ (∀ n fmt, 1 ≤ n → n ≤ 2 ^ 20 → fmt ≤ 1 → v.toNat = n + 2 ^ 32 * fmt →
        exec (.samcfgVoc d a) s = .next (done (s.modColt c (fun r => { r with vocab := n, bf16 := decide (fmt = 1) })) c d 0))
    ∧ (v = 0 → exec (.samcfgMask d a) s = .next (done (s.modColt c (fun r => { r with mask := none })) c d 0))
    ∧ (v ≠ 0 → 64 ∣ v.toNat → coltRange (lookColt s c 1) v (((s.colt c).vocab + 7) / 8) 1 0 = .ok () →
        exec (.samcfgMask d a) s = .next (done (s.modColt c (fun r => { r with mask := some v.toNat })) c d 0))
    ∧ (¬ 64 ∣ v.toNat → exec (.samcfgMask d a) s = .next (done (refuseCfg s c) c d 6)))
  ∧ (∀ (s : State) (c d a b : Nat) (v w : DWord), s.turn = .colt c → rx (lookColt s c 1) a = .ok v → rx (lookColt s c 1) b = .ok w →
    exec (.samcfgSeed d a b) s = .next (done (s.modColt c (fun r => { r with seed := v, id := w })) c d 0)
    ∧ ((s.colt c).vocab = 0 → let stop := Host.Outcome.next (coltTrap s c cILLEGAL 0 (nth 0 s.hub.routine (s.colt c).pc) 1)
        (∀ q, exec (.sample d a b q) s = stop) ∧ exec (.maskg d a b) s = stop ∧ exec (.maskgSh d b) s = stop)
    ∧ (∀ (q : Nat) (bits : Option (List Byte)), (s.colt c).vocab ≠ 0 →
        coltRange (lookColt s c 1) v ((s.colt c).vocab * (if (s.colt c).bf16 then 2 else 4)) 64 0 = .ok () →
        (match (s.colt c).mask with
          | none => bits = none
          | some m => coltRange (lookColt s c 1) (BitVec.ofNat 64 m) (((s.colt c).vocab + 7) / 8) 1 0 = .ok ()
              ∧ bits = s.hubRead (s.coltCid c) m (((s.colt c).vocab + 7) / 8)) →
        let r := s.colt c
        let row := rowLogits r.bf16 ((s.hubRead (s.coltCid c) v.toNat (r.vocab * (if r.bf16 then 2 else 4))).getD [])
        let legal := fun (n : Nat) => match bits with
          | none => true
          | some bs => bitAt bs n
        exec (.sample d a b q) s = .next (done s c d
          (match sampleRow row legal r.par (draw r.seed.toNat r.id.toNat w.toNat q) with
            | some n => BitVec.ofNat 64 n
            | none => BitVec.allOnes 64)))
    ∧ ((s.colt c).vocab ≠ 0 → coltRange (lookColt s c 1) v 64 1 0 = .ok () →
        coltRange (lookColt s c 1) w (maskLines (s.colt c).vocab) 64 1 = .ok () →
        let bits := legalTokens s (s.coltCid c) (s.colt c).vocab noCap (readPda s (s.coltCid c) v.toNat)
        exec (.maskg d a b) s = .next (done (s.hubWrite (s.coltCid c) w.toNat (maskBytes (s.colt c).vocab bits)) c d
          (BitVec.ofNat 64 (bits.filter id).length)))
    ∧ ((s.colt c).vocab ≠ 0 → coltRange (lookColt s c 1) w (maskLines (s.colt c).vocab) 64 1 = .ok () →
        let bits := legalTokens s (s.coltCid c) (s.colt c).vocab shadowCap (s.colt c).shadow.pda
        exec (.maskgSh d b) s = .next (done (s.hubWrite (s.coltCid c) w.toNat (maskBytes (s.colt c).vocab bits)) c d
          (BitVec.ofNat 64 (bits.filter id).length)))
    ∧ (coltRange (lookColt s c 1) v 64 1 1 = .ok () →
        (readPda s (s.coltCid c) v.toNat).step s (s.coltCid c) (s.colt c).vocab noCap w.toNat = none →
        exec (.pdaadv d a b) s = .next (done s c d 1))
    ∧ (coltRange (lookColt s c 1) v 64 1 1 = .ok () → ∀ p l,
        (readPda s (s.coltCid c) v.toNat).step s (s.coltCid c) (s.colt c).vocab noCap w.toNat = some p →
        p.syms.mapM (fun y => xlate (lookColt s c 1) (p.stack + y.1) 1) = .ok l →
        exec (.pdaadv d a b) s = .next (done (storePda s (s.coltCid c) v.toNat p) c d 0))
    ∧ (coltRange (lookColt s c 1) v 64 1 0 = .ok () →
        exec (.pdaadvLd d a) s = .next (done (s.modColt c (fun r => { r with shadow := (readPda s (s.coltCid c) v.toNat).shadow })) c d 0))
    ∧ ((s.colt c).shadow.pda.step s (s.coltCid c) (s.colt c).vocab shadowCap w.toNat = none →
        exec (.pdaadvSh d b) s = .next (done s c d 1))
    ∧ (∀ p, (s.colt c).shadow.pda.step s (s.coltCid c) (s.colt c).vocab shadowCap w.toNat = some p →
        exec (.pdaadvSh d b) s = .next (done (s.modColt c (fun r => { r with shadow := p.shadow })) c d 0))
    ∧ (coltRange (lookColt s c 1) v 8 1 0 = .ok () → seqGet s (s.coltCid c) (v.toNat + 4) 2 ≤ w.toNat % 2 ^ 10 →
        exec (.tokw d a b) s = .next (done s c d 1))
    ∧ (let r := w.toNat % 2 ^ 10
       let q := v.toNat + 1024 + 256 * r
       let lane := w.toNat / 2 ^ 16 % 256
       coltRange (lookColt s c 1) v 8 1 0 = .ok () → r < seqGet s (s.coltCid c) (v.toNat + 4) 2 →
       coltRange (lookColt s c 1) (BitVec.ofNat 64 (q + rK0)) 4 1 1 = .ok () → coltRange (lookColt s c 1) (BitVec.ofNat 64 (q + rJREP)) 1 1 1 = .ok () →
       coltRange (lookColt s c 1) (BitVec.ofNat 64 (v.toNat + 128 + lane / 8)) 1 1 1 = .ok () →
       let s1 := seqPut s (s.coltCid c) (q + rK0) 4 (w.toNat / 2 ^ 24 % 16)
       let s2 := seqPut s1 (s.coltCid c) (q + rJREP) 1 (seqGet s (s.coltCid c) (q + rJREP) 1 / 2 * 2 + w.toNat / 2 ^ 28 % 2)
       exec (.tokw d a b) s = .next (done (setReady s2 (s.coltCid c) { seqt := v.toNat } lane) c d 0)))

/-- R62, R64 and R345 on a Colt, with the registers of R162. -/
def Obligations.ColtScalarForms : Prop :=
  (∀ (s : State) (c d a b lat : Nat) (op : Instr) (f : DWord → DWord → DWord) (v w : DWord), s.turn = .colt c →
    (op, lat, f) ∈ ([(.add d a b, 1, fun x y => x + y), (.sub d a b, 1, fun x y => x - y), (.mul d a b, 3, fun x y => x * y),
      (.and_ d a b, 1, fun x y => x &&& y), (.or_ d a b, 1, fun x y => x ||| y), (.xor_ d a b, 1, fun x y => x ^^^ y),
      (.shl d a b, 1, fun x y => x <<< (y.toNat % 64)), (.shr d a b, 1, fun x y => x >>> (y.toNat % 64)),
      (.mulh d a b, 3, fun x y => BitVec.ofInt 64 (x.toInt * y.toInt / 2 ^ 64)), (.sra d a b, 1, fun x y => x.sshiftRight (y.toNat % 64)),
      (.min_ d a b, 1, fun x y => if x.toInt ≤ y.toInt then x else y), (.max_ d a b, 1, fun x y => if y.toInt ≤ x.toInt then x else y)] : List (Instr × Nat × (DWord → DWord → DWord))) →
    rx (lookColt s c 1) a = .ok v → rx (lookColt s c 1) b = .ok w →
    exec op s = .next (coltDone s c 1 [{ lat := lat, eff := .xreg d (f v w) }]))
  ∧ (∀ (s : State) (c d a m : Nat) (v : DWord), s.turn = .colt c → rx (lookColt s c 1) a = .ok v →
    exec (.addi d a m) s = .next (coltDone s c 1 [{ lat := 1, eff := .xreg d (v + BitVec.ofInt 64 (sextNat m 14)) }])
      ∧ exec (.lui d m) s = .next (coltDone s c 1 [{ lat := 1, eff := .xreg d (BitVec.ofInt 64 (sextNat m 19 * 2 ^ 13)) }]))
  ∧ (∀ (s : State) (c d a b o : Nat) (v w : Bool), s.turn = .colt c → rp (lookColt s c 0) a = .ok v → rp (lookColt s c 0) b = .ok w → o < 7 →
    exec (.plog d a b o) s = .next (coltDone s c 0
      (let r := nth false [v && w, v || w, v ^^ w, v && !w, v || !w, !(v && w), !(v || w)] o
       [{ lat := 1, eff := .pred d r }])))
  ∧ (∀ (s : State) (c j n : Nat), s.turn = .colt c →
    exec (.btgt j n) s = .next (coltDone s c 0 [{ lat := 1, eff := .bt j (BitVec.ofNat 12 n) }]))
  ∧ (∀ (s : State) (c d n : Nat), s.turn = .colt c → n ∈ [0x000, 0x001, 0x002, 0x008, 0x010, 0x011, 0x012, 0x013, 0x040, 0x041, 0x042, 0x050, 0x051] →
    exec (.csrr d n) s = .next (coltDone s c 0 [{ lat := 2, eff := .xreg d (BitVec.ofNat 64 (csrValue s (coltUnit c) n)) }])
      ∧ ∀ v, rx (lookColt s c 0) d = .ok v → exec (.csrw d n) s = .next (coltDone s c 0 [{ lat := 1, eff := .csr n v false }])
        ∧ exec (.csrs d n) s = .next (coltDone s c 0 [{ lat := 1, eff := .csr n v true }]))
  ∧ (∀ (s : State) (c d n : Nat), n ∉ [0x000, 0x001, 0x002, 0x008, 0x010, 0x011, 0x012, 0x013, 0x040, 0x041, 0x042, 0x050, 0x051] →
    opCsrr d n (lookColt s c 0) = raise cILLEGAL 0 ∧ opCsrw d n false (lookColt s c 0) = raise cILLEGAL 0 ∧ opCsrw d n true (lookColt s c 0) = raise cILLEGAL 0)
  ∧ (∀ (s : State) (c : Nat) (ps : List Post), (coltDone s c 1 ps) = nextColt ((ps.map (fun p => p.entry 0 1 (coltUnit c))).foldl landEntry s) c)
  ∧ (∀ (s : State) (c : Nat), (nextColt s c).colt c = { s.colt c with pc := (s.colt c).pc + 1 } ∧ (nextColt s c).tiles = s.tiles
      ∧ (nextColt s c).mem = s.mem)
  ∧ (∀ (s : State) (c d a b cc m : Nat) (v w : DWord), s.turn = .colt c → rx (lookColt s c 0) a = .ok v → rx (lookColt s c 0) b = .ok w → cc < 6 →
    let is : DWord → Bool := fun y => nth false [v == y, v != y, v.slt y, y.sle v, v.ult y, y.ule v] cc
    exec (.scmp d a b cc) s = .next (coltDone s c 0 [{ lat := 1, eff := .pred d (is w) }])
      ∧ exec (.scmpi d a cc m) s = .next (coltDone s c 0 [{ lat := 1, eff := .pred d (is (BitVec.ofInt 64 (sextNat m 9))) }]))
  ∧ (∀ (s : State) (c d a b p : Nat) (v w : DWord) (q : Bool), s.turn = .colt c → rx (lookColt s c 1) a = .ok v → rx (lookColt s c 1) b = .ok w →
    rp (lookColt s c 1) p = .ok q → exec (.sel d a b p) s = .next (coltDone s c 1 [{ lat := 1, eff := .xreg d (if q then v else w) }]))
  ∧ (∀ (s : State) (c d x w off size pa : Nat) (sx nc : Bool) (v : DWord) (ps : List Post), s.turn = .colt c →
    (w, size, sx) ∈ ([(0, 1, false), (1, 2, false), (2, 4, false), (3, 8, false), (4, 1, true), (5, 2, true), (6, 4, true)] : List (Nat × Nat × Bool)) →
    rx (lookColt s c 1) x = .ok v → accessCheck (lookColt s c 1) (v + BitVec.ofInt 64 (sextNat off 11)).toNat size size 0 = .ok (pa, nc, ps) →
    exec (.ld d x w off) s = .next (coltDone s c 1 ({ lat := 8, eff := .load d pa size sx nc, inter := true } :: ps)))
  ∧ (∀ (s : State) (c b x w off size pa : Nat) (nc : Bool) (v y : DWord) (ps : List Post), s.turn = .colt c →
    (w, size) ∈ ([(0, 1), (1, 2), (2, 4), (3, 8)] : List (Nat × Nat)) → rx (lookColt s c 1) x = .ok v → rx (lookColt s c 1) b = .ok y →
    accessCheck (lookColt s c 1) (v + BitVec.ofInt 64 (sextNat off 11)).toNat size size 1 = .ok (pa, nc, ps) →
    exec (.st b x w off) s = .next (coltDone s c 1 ({ lat := 1, eff := .mem ((List.range size).map (fun j => (pa + j, y.extractLsb' (8 * j) 8))) nc, vg := [(v + BitVec.ofInt 64 (sextNat off 11)).toNat / 65536] } :: ps)))
  ∧ (∀ (s : State) (c w : Nat), s.turn = .colt c → s.sched = [] → (s.colt c).running = true → asleep s (coltUnit c) = false → s.hub.stalled = false → s.hub.fenced = false →
    (s.colt c).pc < 1024 → (s.colt c).pc < s.hub.routine.length → nth 0 s.hub.routine (s.colt c).pc = w → w / 2 ^ 24 = 10 ∨ w / 2 ^ 24 = 11 →
    step s = .next (coltTrap s c cILLEGAL 0 w 0))

/-- R304 to R320: the words that wait or order. -/
def Obligations.WaitsAndBarriers : Prop :=
  (∀ (s : State) (k x y : Nat) (i : Issue) (v w : Nat → DWord) (pa : Nat → Nat) (nc : Nat → Bool) (ps : Nat → List Post), InSlot s k 0 i → i.dies 0 ≠ [] →
    (∀ e ∈ i.dies 0, rx (look s k 0 e) x = .ok (v e) ∧ rx (look s k 0 e) y = .ok (w e)
      ∧ accessCheck (look s k 0 e) ((v e).toNat / 64 * 64) 1 1 0 = .ok (pa e, nc e, ps e) ∧ loadLeft (look s k 0 e) = false) →
    exec (.waitm x y) s = .next (issuedBy s k 0 i (resultsOf s k 0 i (fun e => { lat := 0, eff := .waitm (pa e) (w e).toNat } :: ps e))
      (fun j => { j with after := j.after ++ [.waitm] })))
  ∧ (∀ (s : State) (k scope bid : Nat) (i : Issue), InSlot s k 0 i →
    (∀ e ∈ i.dies 0, lastPh ((look s k 0 e).t) scope bid ≠ some (barOf s (unitOf k e) scope bid).settled.phase) →
    exec (.barv scope bid) s = .next (issuedBy s k 0 i (resultsOf s k 0 i (fun _ => [{ lat := 0, eff := .barArrive scope bid }]))
      (fun j => { j with leavesPhase := true })))
  ∧ (∀ (s : State) (k scope bid e : Nat) (i : Issue), InSlot s k 0 i → e ∈ i.dies 0 →
    lastPh ((look s k 0 e).t) scope bid = some (barOf s (unitOf k e) scope bid).settled.phase →
    exec (.barv scope bid) s = .next (s.setCore k { s.core k with st := .stalled }))
  ∧ (∀ (s : State) (k scope bid p : Nat) (i : Issue), InSlot s k 0 i → i.dies 0 ≠ [] →
    (∀ e ∈ i.dies 0, (lastPh ((look s k 0 e).t) scope bid).isSome = true) →
    exec (.barw scope bid) s = .next (issuedBy s k 0 i [] (fun j => { j with after := j.after ++ [.barw scope bid (i.dies 0)] }))
    ∧ exec (.bart scope bid p) s = .next (issued s k 0 i (resultsOf s k 0 i (fun e =>
        let u := unitOf k e
        [{ lat := 1, eff := .pred p (decide (lastPh (s.tile u) scope bid ≠ some (barOf s u scope bid).phase
          ∧ lastPh (s.tile u) scope bid ≠ some (barOf s u scope bid).seenPhase)) }]))))
  ∧ (∀ (s : State) (k scope bid p : Nat) (i : Issue), InSlot s k 0 i → i.dies 0 ≠ [] →
    (∀ e ∈ i.dies 0, lastPh ((look s k 0 e).t) scope bid = none) →
    exec (.barw scope bid) s = .next (trapOf s k 0 (nth 0 i.words 0) ((i.dies 0).map (fun e => (e, cILLEGAL, 0, 0))))
    ∧ exec (.bart scope bid p) s = .next (trapOf s k 0 (nth 0 i.words 0) ((i.dies 0).map (fun e => (e, cILLEGAL, 0, 0)))))
  ∧ (∀ (s : State) (k scope x kind : Nat) (i : Issue) (op : Instr) (pa : Nat → Nat) (ps : Nat → List Post),
    (op, kind) ∈ ([(.acq scope x, 0), (.rel scope x, 1)] : List (Instr × Nat)) → InSlot s k 1 i → i.dies 1 ≠ [] →
    (∀ e ∈ i.dies 1, syncCheck (look s k 1 e) x (if kind = 1 then 1 else 0) = .ok (pa e, ps e)) →
    exec op s = .next (issuedBy s k 1 i (resultsOf s k 1 i ps)
      (fun j => { j with after := j.after ++ [.sync kind scope ((i.dies 1).map (fun e => (e, pa e)))] })))
  ∧ (∀ (s : State) (k scope : Nat) (i : Issue), InSlot s k 1 i → i.dies 1 ≠ [] →
    exec (.fence scope) s = .next (issuedBy s k 1 i []
      (fun j => { j with after := j.after ++ [.sync 2 scope ((i.dies 1).map (fun e => (e, 0)))] })))
  ∧ (∀ (c : OpCtx) (x kind : Nat) (v : DWord) (pa : Nat) (nc : Bool) (ps : List Post), x ≠ 0 → rx c x = .ok v →
      accessCheck c v.toNat 1 64 kind = .ok (pa, nc, ps) → syncCheck c x kind = .ok (pa + 1, ps))
  ∧ (∀ (c : OpCtx) (kind : Nat), syncCheck c 0 kind = .ok (0, []))

/-- R186 and R188: the words of group kernels. -/
def Obligations.GroupWords : Prop :=
  (∀ (s : State) (k x : Nat) (i : Issue) (a : DWord) (pa : Nat) (nc : Bool) (ps ps2 : List Post), InSlot s k 0 i → k % 4 ∈ i.dies 0 →
    rx (look s k 0 (k % 4)) x = .ok a → accessCheck (look s k 0 (k % 4)) a.toNat 64 64 2 = .ok (pa, nc, ps) →
    (let j := leNat (s.peek (leadUnit k) (pa + 40) 8 false)
     if j = 0 then ps2 = [] else ∃ pj ncj, accessCheck (look s k 0 (k % 4)) j 64 64 2 = .ok (pj, ncj, ps2)) →
    exec (.fork x) s = .next (issuedBy s k 0 i (resultsOf s k 0 i (fun e => if e = k % 4 then ps ++ ps2 else []))
      (fun j => { j with after := j.after ++ [.forkWait a.toNat (leNat (s.peek (leadUnit k) (pa + 40) 8 false))] })))
  ∧ (∀ (s : State) (k x : Nat) (i : Issue), InSlot s k 0 i → k % 4 ∉ i.dies 0 →
    exec (.fork x) s = .next (issued s k 0 i []) ∧ exec (.join x) s = .next (issued s k 0 i []))
  ∧ (∀ (s : State) (k x : Nat) (i : Issue) (a : DWord) (pa : Nat) (nc : Bool) (ps : List Post), InSlot s k 0 i → k % 4 ∈ i.dies 0 →
    rx (look s k 0 (k % 4)) x = .ok a → accessCheck (look s k 0 (k % 4)) a.toNat 64 64 2 = .ok (pa, nc, ps) →
    (joinCount s k a.toNat = 0 →
      exec (.join x) s = .next (issuedBy s k 0 i (resultsOf s k 0 i (fun e => if e = k % 4 then { lat := 0, eff := .atomic pa } :: ps else []))
        (fun j => { j with after := j.after ++ [.sync 0 4 [(0, 0), (1, 0), (2, 0), (3, 0)]] })))
    ∧ (joinCount s k a.toNat ≠ 0 → (i.dies 0).length = 4 → (s.core k).curRec.isSome = true → (s.core k).curAll = false →
      exec (.join x) s = .next (issuedBy s k 0 i (resultsOf s k 0 i (fun e => if e = k % 4 then { lat := 0, eff := .atomic pa } :: ps else []))
        (fun j => { j with after := j.after ++ [.joinDrain a.toNat i.addr] })))
    ∧ (joinCount s k a.toNat ≠ 0 → (i.dies 0).length < 4 → (s.core k).curRec.isSome = true → (s.core k).curAll = false →
      exec (.join x) s = .next (takeTrap s k cILLEGAL_BUNDLE 0 (((upTo 4).filter (fun d => !((i.dies 0).contains d))).map (fun d => ⟨d, 0, nth 0 i.words 0⟩)))))
  ∧ (∀ (s : State) (k p : Nat) (i : Issue), InSlot s k 0 i → i.dies 0 = [0, 1, 2, 3] →
    exec (.steal p) s = .next (issued s k 0 i (resultsOf s k 0 i (fun _ =>
      [{ lat := 1, eff := .predPending p 0, inter := true, pend := true }]))))
  ∧ (∀ (s : State) (k p d : Nat) (i : Issue), InSlot s k 0 i → d < 4 →
    ∃ j e, exec (.steal p) s = .next (s.setCore k { s.core k with st := .running, issue := some j }) ∧ e ∈ j.staged
      ∧ e.unit = unitOf k d ∧ e.eff = .predPending p 0 ∧ e.pend = true ∧ e.due = (s.core k).bn + 1)
  ∧ (∀ (s : State) (k : Nat) (i : Issue), InSlot s k 0 i →
    exec .susp s = .next (issuedBy s k 0 i [] (fun j => { j with after := j.after ++ [.suspDrain] })))
  ∧ (∀ (s : State) (k : Nat) (i : Issue), InSlot s k 0 i → (s.core k).curRec.isSome = true → (s.core k).curAll = false →
    exec .yield_ s = .next (issuedBy s k 0 i [] (fun j => { j with after := j.after ++ [.yieldDrain i.addr] })))
  ∧ (∀ (s : State) (k e : Nat), e < 4 → ((s.core k).curRec = none ∨ (s.core k).curAll = true) → opYield (look s k 0 e) = raise cILLEGAL 0)

/-- R128: the queue-program operations that compute, load and store. -/
def Obligations.QueueProgramOperations : Prop :=
  ((∀ (s : State) (p : Interp) (d a b imm : Nat), s.hub.interp = some p →
    ∀ e ∈ ([(.qAdd d a b, p.get a + p.get b), (.qSub d a b, p.get a - p.get b), (.qAnd d a b, p.get a &&& p.get b),
        (.qOr d a b, p.get a ||| p.get b), (.qXor d a b, p.get a ^^^ p.get b),
        (.qShl d a b, p.get a <<< ((p.get b).toNat % 64)), (.qShr d a b, p.get a >>> ((p.get b).toNat % 64)),
        (.qMinu d a b, if (p.get b).toNat < (p.get a).toNat then p.get b else p.get a),
        (.qAddi d a imm, p.get a + BitVec.ofInt 64 (if imm % 16384 < 8192 then (imm % 16384 : Nat) else (imm % 16384 : Int) - 16384)),
        (.qAndi d a imm, p.get a &&& BitVec.ofNat 64 imm), (.qOri d a imm, p.get a ||| BitVec.ofNat 64 imm),
        (.qShli d a imm, p.get a <<< imm), (.qShri d a imm, p.get a >>> imm),
        (.qLi d imm, BitVec.ofInt 64 (if imm % 4194304 < 2097152 then (imm % 4194304 : Nat) else (imm % 4194304 : Int) - 4194304)),
        (.qPtim d, BitVec.ofNat 64 s.ptime)] : List (Instr × DWord)),
      exec e.1 s = .next { s with hub := { s.hub with interp := some ((p.put d e.2).goto (p.pc + 1)) } })
  ∧ (∀ (p : Interp) (i j : Nat) (v : DWord), (p.put i v).get j = if j = 0 then 0 else if j = i then v else p.get j)
  ∧ (∀ (p : Interp) (pc : Nat), (p.goto pc).q = p.q ∧ (p.goto pc).pkt = p.pkt ∧ (p.goto pc).prog = p.prog
      ∧ (p.loops = [] → (p.goto pc).pc = pc ∧ (p.goto pc).loops = [])))
  ∧ ((∀ (s : State) (p : Interp) (d a imm : Nat), s.hub.interp = some p →
    let o := ((p.get a).toNat + imm) % 2 ^ 64 % 64 / 8 * 8
    exec (.qLdw d a 0 imm) s = .next { s with hub := { s.hub with interp := some (
      (p.put d (BitVec.ofNat 64 (leNat ((p.pkt.drop o).take 8)))).goto (p.pc + 1)) } }
    ∧ exec (.qStw d a 0 imm) s = .next { s with hub := { s.hub with interp := some (
      { p with pkt := p.pkt.take o ++ leBytes 8 (p.get d).toNat ++ p.pkt.drop (o + 8) }.goto (p.pc + 1)) } })
  ∧ (∀ (s : State) (p : Interp) (d a win imm v lg base : Nat), s.hub.interp = some p → win ≠ 0 → nth (0, 0) p.prog.windows win = (lg, base) →
    let va := base + ((p.get a).toNat + imm) % 2 ^ 64 % 2 ^ lg / 8 * 8
    (s.hubNat (s.queue p.queue).cid va 8 = some v →
      exec (.qLdw d a win imm) s = .next { s with hub := { s.hub with interp := some ((p.put d (BitVec.ofNat 64 v)).goto (p.pc + 1)) } })
    ∧ ((s.hubWrite (s.queue p.queue).cid va (leBytes 8 (p.get d).toNat)).hub.interp = some p →
      exec (.qStw d a win imm) s = .next (let t := s.hubWrite (s.queue p.queue).cid va (leBytes 8 (p.get d).toNat)
        { t with hub := { t.hub with interp := some (p.goto (p.pc + 1)) } }))))

/-- R128: branches, LOOP, and the three ways a run ends (STATUS 5 SKIPPED and 7 PROG_FAIL, R120). -/
def Obligations.QueueProgramControl : Prop :=
  (∀ (s : State) (p : Interp) (a b imm : Nat), s.hub.interp = some p →
    ∀ e ∈ ([(.qBeq a b imm, decide (p.get a = p.get b)), (.qBne a b imm, decide (p.get a ≠ p.get b)),
        (.qBltu a b imm, decide ((p.get a).toNat < (p.get b).toNat)), (.qBgeu a b imm, decide ((p.get b).toNat ≤ (p.get a).toNat)),
        (.qJmp imm, true)] : List (Instr × Bool)),
      exec e.1 s = .next { s with hub := { s.hub with interp := some (p.goto (if e.2 then p.pc + imm else p.pc + 1)) } })
  ∧ (∀ (s : State) (p : Interp) (d mx len : Nat), s.hub.interp = some p →
    let count := if d = 0 then mx else min (p.get d).toNat mx
    exec (.qLoop d mx len) s = .next { s with hub := { s.hub with interp := some (
      if count = 0 ∨ len = 0 then p.goto (p.pc + 1 + len)
      else { p with pc := p.pc + 1, loops := (p.pc + 1, p.pc + len, count) :: p.loops }) } })
  ∧ (∀ (p : Interp) (first last left pc : Nat) (rest : List (Nat × Nat × Nat)), p.loops = (first, last, left) :: rest →
      (pc ≤ last → p.goto pc = { p with pc := pc })
      ∧ (last < pc → 1 < left → p.goto pc = { p with pc := first, loops := (first, last, left - 1) :: rest })
      ∧ (last < pc → left ≤ 1 → p.goto pc = { p with loops := rest }.goto pc))
  ∧ (∀ (s : State) (p : Interp) (imm : Nat), s.hub.interp = some p →
    ∀ e ∈ ([(.qDone, none), (.qSkip imm, some (5, imm)), (.qFail imm, some (7, imm))] : List (Instr × Option (Nat × Nat))),
    ∃ t, exec e.1 s = .next t ∧ t.hub.interp = none ∧ t.turn = .idle ∧ t.mem = s.mem ∧ t.tiles = s.tiles ∧ t.cores = s.cores ∧ t.ctxs = s.ctxs
      ∧ t.queue p.queue = { s.queue p.queue with heads := (s.queue p.queue).heads ++ [(e.2, p.pkt)],
                                                 q := p.q.filter (fun r => decide (8 ≤ r.1)) }
      ∧ ∀ n, n ≠ p.queue → t.queue n = s.queue n)

/-- R26, R27, R29, R161: the branch tree. -/
def Obligations.BranchTree : Prop :=
  (∀ (c : OpCtx) (t1 t2 t3 t4 : Nat) (b1 b2 b3 b4 : Bool),
    rp c (t1 % 64) = .ok b1 → rp c (t2 % 64) = .ok b2 → rp c (t3 % 64) = .ok b3 → rp c (t4 % 64) = .ok b4 →
    treeLeaf c t1 t2 t3 t4 = .ok (if b1 ≠ t1.testBit 6 then 1 else if b2 ≠ t2.testBit 6 then 2 else if b3 ≠ t3.testBit 6 then 3
      else if b4 ≠ t4.testBit 6 then 4 else 5))
  ∧ (∀ (s : State) (k al t1 t2 t3 t4 act nx : Nat) (i : Issue) (L : Nat → Nat), k < 64 → s.turn = .core k → (s.core k).handler = none → (s.core k).issue = some i → i.brtDone = false → al < 2 →
    (∀ d, d < 4 → treeLeaf (look s k 7 d) t1 t2 t3 t4 = .ok (L d)) → bundleChecks s k i.words = none →
    (∀ d, d < 4 → (match decodeSlot 0 (nth 0 i.words 0) with
          | .op tag op => if tagIssues tag (L d) then ctlAction s k op ((leafTarget s (unitOf k d) (L d)).getD (i.addr + 1))
              else (0, (leafTarget s (unitOf k d) (L d)).getD (i.addr + 1))
          | _ => (0, (leafTarget s (unitOf k d) (L d)).getD (i.addr + 1))) = (act, nx)) →
    exec (.tree al t1 t2 t3 t4) s = .next (s.setCore k { s.core k with st := .running, issue := some { i with
      leaves := [L 0, L 1, L 2, L 3], brtDone := true,
      next := if act = 0 ∨ act = 3 then nx else (leafTarget s (leadUnit k) (L (k % 4))).getD (i.addr + 1) } }))
  ∧ (∀ (s : State) (k al t1 t2 t3 t4 d : Nat) (i : Issue) (L : Nat → Nat), k < 64 → s.turn = .core k → (s.core k).handler = none → (s.core k).issue = some i → i.brtDone = false → al < 2 → d < 4 →
    (∀ d, d < 4 → treeLeaf (look s k 7 d) t1 t2 t3 t4 = .ok (L d)) → nth 0 i.words 0 = 0 →
    (leafTarget s (unitOf k d) (L d)).getD (i.addr + 1) ≠ (leafTarget s (leadUnit k) (L (k % 4))).getD (i.addr + 1) →
    ∃ rs, exec (.tree al t1 t2 t3 t4) s = .next (takeTrap s k cILLEGAL_BUNDLE 7 rs) ∧ rs.any (fun r => decide (r.die = d)) = true)
  ∧ (∀ (s : State) (k al t1 t2 t3 t4 : Nat) (L : Nat → Nat) (g : Option Nat), InHandler s k → (s.core k).stepPending = false →
    (∀ d, d < 4 → treeLeaf (lookWord s k 7 d) t1 t2 t3 t4 = .ok (L d) ∧ leafTarget s (unitOf k d) (L d) = g) →
    exec (.tree al t1 t2 t3 t4) s = .next (match g with
      | some a => s.modCore k (fun c => { c with handler := some a })
      | none => nextWord s k))
  ∧ (∀ (s : State) (c al t1 t2 t3 t4 l : Nat), s.turn = .colt c → treeLeaf (lookColt s c 7) t1 t2 t3 t4 = .ok l →
    exec (.tree al t1 t2 t3 t4) s = .next (match leafTarget s (coltUnit c) l with
      | some a => s.modColt c (fun r => { r with pc := a })
      | none => nextColt s c))

/-- R32, R33, R35: the marks of the loop sequencer. -/
def Obligations.SequencerMarks : Prop :=
  (∀ (s : State) (k align lf lvl beg fin : Nat) (i : Issue), k < 64 → s.turn = .core k → (s.core k).handler = none → (s.core k).issue = some i → i.brtDone = false → align < 256 → lf < 4 → (beg = 1 → (s.core k).retLvl = some lvl) →
    bundleChecks s k i.words = none → (fin = 1 → ((s.core k).lvl lvl).active = true ∧ stridePending s k lvl = false) →
    (let l := (s.core k).lvl lvl
     l.active = true → (lf = 1 → l.idx = 0) ∧ (lf = 2 → l.idx = l.count.toNat) ∧ (lf = 3 → l.idx = 0 ∨ l.idx = l.count.toNat)) →
    exec (.seq align lf lvl beg fin) s
      = .next (s.setCore k { s.core k with issue := some { i with brtDone := true, fin := if fin = 1 then some lvl else none } }))
  ∧ (∀ (s : State) (k align lf lvl fin : Nat) (i : Issue), k < 64 → s.turn = .core k → (s.core k).handler = none → (s.core k).issue = some i → i.brtDone = false → align < 256 → lf < 4 → (s.core k).retLvl ≠ some lvl →
    (lf = 2 → ((s.core k).lvl lvl).count.toNat = 0) → (fin = 1 → stridePending s k lvl = false) →
    bundleChecks (beginMark s k lvl i.addr) k i.words = none →
    exec (.seq align lf lvl 1 fin) s = .next ((beginMark s k lvl i.addr).modCore k (fun c =>
      { c with issue := some { i with brtDone := true, fin := if fin = 1 then some lvl else none } })))
  ∧ (∀ (s : State) (k lvl addr : Nat), k < 64 →
    (beginMark s k lvl addr).core k = { s.core k with lvls := sset {} (s.core k).lvls lvl (
        { (s.core k).lvl lvl with active := true, beg := addr, idx := 0 }) }
    ∧ (∀ j, j ≠ k → (beginMark s k lvl addr).core j = s.core j)
    ∧ (∀ d p, d < 4 → p < 8 → ((beginMark s k lvl addr).tile (unitOf k d)).getWalk p
        = let w := (s.tile (unitOf k d)).getWalk p
          { w with idx := sset 0 w.idx lvl 0, a := 0 })
    ∧ (∀ u, u / 4 ≠ k → (beginMark s k lvl addr).tile u = s.tile u) ∧ (beginMark s k lvl addr).mem = s.mem)
  ∧ (∀ (s : State) (k align lf lvl : Nat) (i : Issue), k < 64 → s.turn = .core k → (s.core k).handler = none → (s.core k).issue = some i → i.brtDone = false → align < 256 → ((s.core k).lvl lvl).active = false →
    ∃ rs, exec (.seq align lf lvl 0 1) s = .next (takeTrap s k cILLEGAL_BUNDLE 7 rs))
  ∧ (∀ (s : State) (k align lf lvl beg : Nat) (i : Issue), k < 64 → s.turn = .core k → (s.core k).handler = none → (s.core k).issue = some i → i.brtDone = false → align < 256 → ((s.core k).lvl lvl).active = true → stridePending s k lvl = true →
    exec (.seq align lf lvl beg 1) s = .next (arriveOldest s k))
  ∧ (∀ (s s1 : State) (k align lf lvl beg : Nat) (i : Issue), k < 64 → s.turn = .core k → (s.core k).handler = none → (s.core k).issue = some i → i.brtDone = false → align < 256 →
    s1 = (if beg = 1 ∧ (s.core k).retLvl ≠ some lvl then beginMark s k lvl i.addr else s) → ((s1.core k).lvl lvl).active = true →
    bundleChecks s1 k i.words = none → (let l := (s1.core k).lvl lvl
     (lf = 1 ∧ l.idx ≠ 0) ∨ (lf = 2 ∧ l.idx ≠ l.count.toNat) ∨ (lf = 3 ∧ l.idx ≠ 0 ∧ l.idx ≠ l.count.toNat)) →
    (∃ t, exec (.seq align lf lvl beg 0) s = .next t ∧ t.core k = { s1.core k with issue := none, retLvl := none, pc := i.addr + 1 }
      ∧ (∀ j, j ≠ k → t.core j = s1.core j) ∧ { t with cores := s1.cores } = s1)
    ∧ (stridePending s k lvl = false → exec (.seq align lf lvl beg 1) s =
      .next (let r := finishMark (s1.setCore k { s1.core k with issue := none, retLvl := none }) k lvl (i.addr + 1) (s.core k).bn (s.core k).bn
             r.1.setCore k { r.1.core k with pc := r.2 })))
  ∧ (∀ (s : State) (k align lf lvl sl : Nat) (i : Issue) (ds : List Nat), k < 64 → s.turn = .core k → (s.core k).handler = none → (s.core k).issue = some i → i.brtDone = false → align < 256 →
    bundleChecks s k i.words = some (sl, ds) →
    exec (.seq align lf lvl 0 0) s = .next (takeTrap s k cILLEGAL_BUNDLE sl (ds.map (fun d => ⟨d, 0, nth 0 i.words sl⟩))))

/-- R33, R34 and R196: what END does when its bundle ends. -/
def Obligations.LoopEnd : Prop :=
  (∀ (s : State) (k lvl fall n due : Nat), k < 64 →
    let l := (s.core k).lvl lvl
    let r := finishMark s k lvl fall n due
    let sums : List Entry := [0, 1, 2, 3].flatMap (fun d => ([(l.s0r, l.s0c), (l.s1r, l.s1c)].filter (fun p => p.1 ≠ 0)).map
        (fun p => { due := due, issue := n, slot := 7, unit := unitOf k d, eff := .stride p.1 p.2 }))
    (l.idx < l.count.toNat → r.2 = l.beg ∧ (r.1.core k).lvl lvl = { l with idx := l.idx + 1 } ∧ (r.1.core k).retLvl = some lvl)
    ∧ (l.count.toNat ≤ l.idx → r.2 = fall ∧ (r.1.core k).lvl lvl = { l with active := false } ∧ (r.1.core k).retLvl = none)
    ∧ (∀ m, m ≠ lvl → (r.1.core k).lvl m = (s.core k).lvl m)
    ∧ (∀ j, j ≠ k → r.1.core j = s.core j) ∧ r.1.mem = s.mem ∧ r.1.ctxs = s.ctxs ∧ r.1.hub = s.hub
    ∧ (r.1.core k).inflight = capArrived sums (s.core k).inflight ++ sums
    ∧ ∀ d p, d < 4 → p < 8 →
        ((r.1.tile (unitOf k d)).getWalk p).a = 0
        ∧ (l.idx < l.count.toNat → sget 0 ((r.1.tile (unitOf k d)).getWalk p).idx lvl
            = (sget 0 ((s.tile (unitOf k d)).getWalk p).idx lvl + 1) % ((sget 0#24 ((s.tile (unitOf k d)).getWalk p).counts lvl).toNat + 1))
        ∧ (l.count.toNat ≤ l.idx → ((r.1.tile (unitOf k d)).getWalk p).idx = ((s.tile (unitOf k d)).getWalk p).idx))
  ∧ (∀ (s : State) (u sl r n due : Nat) (v : DWord), landEntry s { due := due, issue := n, slot := sl, unit := u, eff := .stride r v }
      = s.setTile u ((s.tile u).setX r ((s.tile u).getX r + v)))

/-- R44, R134, R142, R143, R167 and R176: the events of a core that need no instruction in issue. -/
def Obligations.CoreDrains : Prop :=
  (∀ (s s1 : State) (k : Nat), (s.core k).frozen = false → s.hub.stalled = false → drainCore s k = some s1 →
    ((s.core k).hold = .haltDrain → exec (.haltDrainDone k) s = .next (s1.setCore k { s1.core k with hold := .none, st := .halted, haltedFrom := some .running }))
    ∧ ((s.core k).hold = .endDrain → nodesIdle s1 k = true → ∃ t, exec (.endDrainDone k) s = .next t
        ∧ (t.core k).st = .idle ∧ (t.core k).retired = true ∧ (t.core k).active = {} ∧ (t.core k).hold = .none ∧ (t.core k).issue = none
        ∧ (∀ l, ((t.core k).lvl l).active = false) ∧ (∀ j, j ≠ k → t.core j = s1.core j) ∧ t.tiles = s1.tiles ∧ t.mem = s1.mem
        ∧ k ∈ (t.group (s1.core k).group).left ∧ (t.core k).deque = []
        ∧ sget {} (t.group (s1.core k).group).deques k = { hw := (s1.core k).deque, spTail := (s1.core k).spTail, spHead := (s1.core k).spHead })
    ∧ ((s.core k).hold = .plswDrain → (s.core k).shadow.st = .shadowReady → (s.core k).shadow.sec = (s.core k).active.sec + 1 →
        ∃ t, exec (.planeSwap k) s = .next t
        ∧ (t.core k).st = .running ∧ (t.core k).pc = 0 ∧ (t.core k).hold = .none ∧ (t.core k).active = { (s1.core k).shadow with st := .active }
        ∧ (∀ l, ((t.core k).lvl l).active = false)
        ∧ (let n := (s1.core k).shadow.sec + 1
           (n < (s1.core k).secs.length → (t.core k).shadow.st = .loading ∧ (t.core k).shadow.sec = n ∧ (t.core k).shadow.code = nth [] (s1.core k).secs n)
           ∧ ((s1.core k).secs.length ≤ n → (t.core k).shadow = {}))
        ∧ (∀ j, j ≠ k → t.core j = s1.core j) ∧ { t with cores := s1.cores } = s1))
  ∧ (∀ (s : State) (k : Nat), (∀ e ∈ (s.core k).inflight, e.pend = false) → drainsLate s k = false → drainCore s k = some (landAll s k))
  ∧ (∀ (s : State) (k : Nat), (s.core k).shadow.st = .loading → s.hub.stalled = false →
    (∀ q, q < k / 4 → (s.core (4 * q + k % 4)).shadow.st ≠ .loading) →
    exec (.planeLoadDone k) s = .next (s.setCore k ((s.core k).setShadow { (s.core k).shadow with st := .shadowReady })))
  ∧ (∀ (s : State) (k : Nat), (s.core k).issue = none → (s.core k).handler = none → (s.core k).frozen = false →
    s.hub.stalled = false → landsLate s k (s.core k).bn = false →
    exec (.resultLanding k) s = .next (landUpTo s k (s.core k).bn))
  ∧ (∀ (s : State) (k r pa size : Nat) (sx nc : Bool) (e : Entry) (rest : List Entry), (s.core k).inflight = e :: rest → e.pend = true →
    e.eff = .load r pa size sx nc → s.hub.stalled = false →
    ∃ t, exec (.interlockedArrival k) s = .next (if (s.core k).frozen then settleBase t k else t) ∧ NotedOnly s t ∧ t.ctxs = s.ctxs ∧ (∀ j, j ≠ k → t.core j = s.core j)
      ∧ (∀ u, (t.tile u).x = (s.tile u).x ∧ (t.tile u).v = (s.tile u).v)
      ∧ (let v : DWord := if sx then wrap64 (sextNat (leNat (s.peek e.unit pa size nc)) (8 * size)) else BitVec.ofNat 64 (leNat (s.peek e.unit pa size nc))
         t.core k = { s.core k with inflight := (e :: rest).map (fun x => if x = e then { e with pend := false, eff := .xreg r v } else x) }))

/-- R47, R340 to R345: taking a trap as one operation. -/
def Obligations.TrapEntry : Prop :=
  (∀ (s : State) (k cause reason arg dmask slot : Nat), k < 64 → 1 ≤ cause → cause ≤ 14 → cause ≠ 8 → s.hub.stalled = false → (s.core k).issue = none →
    (s.core k).handler = none → (∀ e ∈ (s.core k).inflight, e.pend = false) → ¬(cause = 12 ∧ s.hub.dstate = 2 ∧ s.hub.attach = true) →
    16 ≤ (s.core k).entryOf cause → dmask % 16 ≠ 0 → dmask < 16 → slot < 16 → landsLate s k (s.core k).bn = false →
    let s1 := landUpTo s k (s.core k).bn
    (s1.core k).pc = (s.core k).pc →
    ∃ t, exec (.trapEntry k cause reason arg dmask slot) s = .next t
      ∧ (t.core k).st = .trapped ∧ (t.core k).handler = some ((s1.core k).entryOf cause)
      ∧ (t.core k).cause = BitVec.ofNat 8 cause ∧ (t.core k).reason = BitVec.ofNat 8 reason ∧ (t.core k).trapPc = BitVec.ofNat 12 (s.core k).pc
      ∧ (t.core k).trapInfo = BitVec.ofNat 64 (arg % 2 ^ 56 * 256 + dmask * 16 + slot)
      ∧ (t.core k).trapOrg = BitVec.ofNat 64 (trapOrgOf s1 k (s1.core k).pc)
      ∧ (t.core k).lvls = (s1.core k).lvls ∧ (t.core k).pc = (s1.core k).pc ∧ (t.core k).bn = (s1.core k).bn
      ∧ (∀ j, j ≠ k → t.core j = s1.core j) ∧ { t with cores := s1.cores } = s1)
  ∧ (∀ (s : State) (k cause reason arg dmask slot : Nat), k < 64 → 1 ≤ cause → cause ≤ 14 → s.hub.stalled = false → (s.core k).issue = none →
      dmask ≠ 0 → dmask < 16 → slot < 16 → (∀ e ∈ (s.core k).inflight, e.pend = false) → landsLate s k (s.core k).bn = false →
    let regs : CoreRec := { s.core k with cause := BitVec.ofNat 8 cause, reason := BitVec.ofNat 8 reason, trapPc := BitVec.ofNat 12 (s.core k).pc, trapInfo := BitVec.ofNat 64 (arg % 2 ^ 56 * 256 + dmask * 16 + slot), trapOrg := BitVec.ofNat 64 (trapOrgOf s k (s.core k).pc) }
    let recs := if reason.testBit 13 then ((List.range 4).filter (fun d => dmask.testBit d)).map (fun d =>
      raiserRecord k (slot % 8) (trapOrgOf s k (s.core k).pc) s.ptime { die := d, reason := reason, arg := arg }) else []
    (cause = 8 → (s.core k).handler = none → exec (.trapEntry k 8 reason arg dmask slot) s = .next (s.setCore k
      { regs with st := .stalled, pendTrap := none, benchFrom := none, benchOwed := [], hold := .page (slot % 8) s.ptime ((s.ctx (s.core k).cid).split.getLsbD 0) (((List.range 4).filter (fun d => dmask.testBit d)).map (fun d => (d, reason, arg))) }))
    ∧ (cause ≠ 8 → (s.core k).handler = none → ¬(cause = 12 ∧ s.hub.dstate = 2 ∧ s.hub.attach = true) →
        (s.core k).entryOf cause < 16 → exec (.trapEntry k cause reason arg dmask slot) s = .next (abandon (s.setCore k regs) k cause recs))
    ∧ ((s.core k).handler.isSome = true → exec (.trapEntry k cause reason arg dmask slot) s = .next (abandon s k cause recs)))
  ∧ (∀ (s : State) (k cause sl : Nat) (rs : List Raiser) (i : Issue), (s.core k).issue = some i →
      takeTrap s k cause sl rs = takeTrap (dropIssue s k) k cause sl rs
      ∧ ((dropIssue s k).core k) = { s.core k with issue := none, lvls := i.lvls0 } ∧ (dropIssue s k).mem = s.mem
      ∧ (∀ d, d < 4 → ((dropIssue s k).tile (unitOf k d)) = { s.tile (unitOf k d) with walk := nth (s.tile (unitOf k d)).walk i.walks0 d }))
  ∧ (∀ (s : State) (k cause reason arg dmask slot : Nat), s.hub.stalled = true → exec (.trapEntry k cause reason arg dmask slot) s = .next s)
  ∧ (∀ (s : State) (k cause sl : Nat) (rs : List Raiser) (e : Entry), (s.core k).issue = none → (s.core k).handler = none → e ∈ (s.core k).inflight →
      (e.pend = true ∨ (e.due ≤ (s.core k).bn ∧ heldBack s e = true)) → (∀ x ∈ (s.core k).inflight, canArrive s x = false) →
      takeTrap s k cause sl rs = s)

/-- R346, whole: a trap raised in handler mode. TRAPPED is STATUS 9 of R120. -/
def Obligations.TrapInHandler : Prop :=
  (∀ (s : State) (k cause sl : Nat) (rs : List Raiser), (s.core k).handler.isSome = true → k ∈ (s.groupOf k).cores →
    let t := takeTrap s k cause sl rs
    (t.core k).handler = none ∧ (t.core k).st = .idle ∧ (t.core k).cause = (s.core k).cause ∧ (t.core k).reason = (s.core k).reason
    ∧ (t.group (s.core k).group).st = .retired
    ∧ ∀ p ∈ (s.groupOf k).pkts, (s.pkt p).outcome = none → (t.pkt p).outcome = some (9, cause))
  ∧ (∀ (s : State) (k code info : Nat), InHandler s k → k ∈ (s.groupOf k).cores →
    ∃ t, exec (.trap code info) s = .next t ∧ (t.core k).handler = none ∧ (t.core k).st = .idle ∧ (t.core k).cause = (s.core k).cause
    ∧ (t.group (s.core k).group).st = .retired
    ∧ ∀ p ∈ (s.groupOf k).pkts, (s.pkt p).outcome = none → (t.pkt p).outcome = some (9, code))

/-- R165, whole. -/
def Obligations.BranchTargets : Prop :=
  (∀ (s : State) (k j addr : Nat) (i : Issue), InSlot s k 0 i →
    exec (.btgt j addr) s = .next (issued s k 0 i ((i.dies 0).map (fun d =>
      { due := (s.core k).bn + 1, issue := (s.core k).bn, slot := 0, unit := unitOf k d, eff := .bt j (BitVec.ofNat 12 addr) }))))
  ∧ (∀ (s : State) (k d n m j addr : Nat), d < 4 → j < 4 → addr < 4096 → (s.core k).handler = none → n + 1 ≤ m →
    (s.core k).inflight = [{ due := n + 1, issue := n, slot := 0, unit := unitOf k d, eff := .bt j (BitVec.ofNat 12 addr) }] →
    let t := landUpTo s k m
    (t.readBt (unitOf k d) j).toNat = addr ∧ (t.core k).inflight = []
    ∧ ((t.armOf (unitOf k d)).getLsbD j = true → leafTarget t (unitOf k d) (j + 1) = some addr)
    ∧ (∀ u b, (u ≠ unitOf k d ∨ b ≠ j) → (t.tile u).getBt b = (s.tile u).getBt b))

/-- R17, whole. -/
def Obligations.DieIdentity : Prop :=
  (∀ (s : State) (k d xd : Nat) (i : Issue), InSlot s k 0 i → d < 4 → d ∈ i.dies 0 →
    csrValue s (unitOf k d) 0x000 = d
    ∧ exec (.csrr xd 0x000) s = .next (issued s k 0 i (resultsOf s k 0 i (fun e => [{ lat := 2, eff := .xreg xd (BitVec.ofNat 64 e) }]))))
  ∧ (∀ (s : State) (u : Nat) (v : DWord) (b : Bool), csrApply s u 0x000 v b = s)
  ∧ (∀ (t : Tile) (k d : Nat), k < 64 → d < 4 →
    predOf t (unitOf k d) 1 = decide (d = 0) ∧ predOf t (unitOf k d) 2 = decide (d = 1) ∧ predOf t (unitOf k d) 3 = decide (d = 2)
    ∧ predOf t (unitOf k d) 4 = decide (d = 3) ∧ predOf t (unitOf k d) 5 = decide (d = k % 4))
  ∧ (∀ k, leadUnit k = unitOf k (k % 4))
  ∧ (∀ d ∈ [0, 1, 2, 3], ((List.range 64).filter (fun k => decide (leadUnit k % 4 = d))).length = 16)
  ∧ (List.range 64).filter (fun k => decide (leadUnit k % 4 = 0)) = (List.range 16).map (fun i => 4 * i)

/-- R304, R310, R320 and R321: waits and synchronisations; R289, R312, R314, R317 and R423: barrier objects and the pod tree. -/
def Obligations.WaitAndBarrierEvents : Prop :=
  ((∀ (s : State) (u ln : Nat), let t := (s.touchLine ln).tile u
      (s.hub.stalled = false → t.mon = (s.tile u).mon.map (fun e => if e.line = ln then { e with event := !e.asleep, asleep := false, deadline := none } else e)
        ∧ t.wakes = (s.tile u).wakes)
      ∧ (s.hub.stalled = true → (∃ e ∈ (s.tile u).mon, e.line = ln) → t.mon = (s.tile u).mon ∧ t.wakes = (s.tile u).wakes ++ [ln]))
  ∧ (∀ (s : State) (u ln : Nat) (rest : List Nat), s.hub.stalled = false → (s.tile u).wakes = ln :: rest →
    ∃ t, exec (.waitmWake u ln) s = .next t
    ∧ (t.tile u).mon = (s.tile u).mon.map (fun e => if e.line = ln then { e with event := !e.asleep, asleep := false, deadline := none } else e)
    ∧ (t.tile u).wakes = rest ∧ (∀ v, v ≠ u → t.tile v = s.tile v) ∧ t.mem = s.mem ∧ t.hub = s.hub
    ∧ ∀ k, (s.core k).hold = .waitm → (s.core k).frozen = false → (s.core k).holdQ = [] → (s.core k).haltedFrom = none →
        (∀ d e, d < 4 → e ∈ (s.tile (unitOf k d)).mon → e.asleep = true → unitOf k d = u ∧ e.line = ln) →
        t.core k = { s.core k with hold := .none, st := .running })
  ∧ (∀ (s : State) (u : Nat), s.hub.stalled = false → ∃ t, exec (.waitmTimeout u) s = .next t
    ∧ (t.tile u).mon = (s.tile u).mon.map (fun e => match e.deadline with
        | some dl => if e.asleep && decide (dl ≤ s.ptime) then { e with asleep := false, deadline := none, event := false } else e
        | none => e)
    ∧ (∀ v, v ≠ u → t.tile v = s.tile v) ∧ t.mem = s.mem ∧ t.hub = s.hub)
  ∧ (∀ (s : State) (k kind scope : Nat) (words : List (Nat × Nat)), (s.core k).hold = .sync kind scope words → s.hub.stalled = false →
    let s1 := arriveAll s k
    landsLate s1 k (s.core k).bn = false →
    (kind ≠ 0 → ∀ e ∈ (s1.core k).inflight, e.pend = false) →
    (kind ≠ 0 → scope = 5 → ∀ p ∈ words, rstOutstanding (landUpTo s1 k (s.core k).bn) (unitOf k p.1) = false) →
    exec (.acqRelFenceComplete k) s = .next (let t := words.foldl (fun s p => syncDone s (unitOf k p.1) kind scope p.2) (landUpTo s1 k (s.core k).bn)
      t.setCore k (t.core k).unhold))
  ∧ (∀ (s : State) (u scope : Nat), u < 256 → let t := acquireAt s u scope
      (t.tile u).rc = [] ∧ (∀ v, v ≠ u → t.tile v = s.tile v) ∧ t.cores = s.cores ∧ NotedOnly s t
      ∧ (scope ≠ 0 → scope ≠ 3 → sget [] t.l2 (u % 4) = [] ∧ ∀ p, p < 3 → sget [] t.adit (3 * (u % 4) + p) = []))
  ∧ (∀ (s : State) (u scope w : Nat), u < 256 → let rs := boundTo s (s.cidOf u) w
      let t := acquireWord s u scope w
      (8 < rs.length → t = acquireAt s u scope)
      ∧ (rs.length ≤ 8 → (∀ ln, sget {} (t.tile u).rc ln = if rs.any (inRegion s (s.cidOf u) ln) then {} else sget {} (s.tile u).rc ln)
        ∧ (∀ v, v ≠ u → t.tile v = s.tile v) ∧ t.cores = s.cores ∧ NotedOnly s t))
  ∧ (∀ (s : State) (u pa : Nat), (syncDone s u 1 0 (pa + 1)).memNat pa 8 = ((s.markAtomic (pa / 64)).memNat pa 8 + 1) % 2 ^ 64))
  ∧ ((∀ (s : State) (u n bytes : Nat) (cmd : NodeCmd) (nd sh sw xa key : Nat) (r : List (Int × Nat) × List (Int × Nat)) (rest : List (List (Int × Nat) × List (Int × Nat))),
    (s.tile u).getNode n = { st := .running, count := 0, cmd := some cmd } → cmd.instr = .copy nd sh sw xa → abarKey u cmd.desc = some key →
    (copyRows u cmd).drop cmd.result = r :: rest → s.hub.stalled = false → s.hub.fenced = false → (r.2.map (·.2)).sum = bytes →
    ∃ t, exec (.barrierCount u n bytes) s = .next t
      ∧ ((t.group (s.core (u / 4)).group).barrier key).exp = (((s.group (s.core (u / 4)).group).barrier key).settled).exp - bytes
      ∧ ((t.tile u).getNode n).cmd = some { cmd with result := cmd.result + 1 } ∧ ((t.tile u).getNode n).st = .running)
  ∧ (∀ (s : State) (kern scope inst bid : Nat), let key := barrierKey scope inst bid
    let b := (s.group kern).barrier key
    b.st = .complete → s.hub.stalled = false → s.groupAway kern = false →
    ∃ t, exec (.barrierFlip kern scope inst bid) s = .next t
      ∧ (t.group kern).barrier key = { b with st := .armed, phase := !b.phase, arr := 0, exp := 0, arrives := 0, sent := false }
      ∧ (∀ j, j ≠ key → (t.group kern).barrier j = (s.group kern).barrier j) ∧ (∀ j, j ≠ kern → t.group j = s.group j)
      ∧ t.tiles = s.tiles ∧ t.cores = s.cores ∧ t.mem = s.mem ∧ t.ctxs = s.ctxs)
  ∧ (∀ (s : State) (kern scope inst bid : Nat), s.hub.stalled = false → s.groupAway kern = false → let key := barrierKey scope inst bid
    let b := ((s.group kern).barrier key).settled
    let s1 := s.setGroup kern ((s.group kern).setBarrier key { b with seenPhase := b.phase })
    ∃ t, exec (.barrierCompletionSeen kern scope inst bid) s = .next t
      ∧ (t.group kern).barrier key = { b with seenPhase := b.phase } ∧ t.tiles = s.tiles ∧ t.mem = s.mem
      ∧ ∀ k bd dies, (s.core k).hold = .barw scope bd dies → (s.core k).frozen = false → (s.core k).holdQ = [] → (s.core k).haltedFrom = none →
          (∀ d ∈ dies, phaseSeen s1 (unitOf k d) scope bd = true) →
          (scope ≠ 3 → t.core k = { s.core k with hold := .none, st := .running })
          ∧ (scope = 3 → dies ≠ [] → phaseSplit s1 k bd = false → ∃ ph, t.core k = { s.core k with hold := .none, st := .running, benchFrom := some (s.core k).bn, benchId := ph, benchOwed := [] }))
  ∧ (∀ (s : State) (u scope bid : Nat), let b := (s.group (s.core (u / 4)).group).barrier (barrierKey scope (instanceOf u scope) bid)
      phaseSeen s u scope bid = true ↔ lastPh (s.tile u) scope bid ≠ some b.phase ∧ lastPh (s.tile u) scope bid ≠ some b.seenPhase)
  ∧ (∀ (s : State) (kern bid rank ph : Nat), ph < 2 → let key := barrierKey 5 0 bid
    let b := ((s.group kern).barrier key).settled
    (s.group kern).st = .running → s.hub.stalled = false → s.groupAway kern = false → b.phase = decide (ph = 1) → rank ∈ s.podChildren →
    ∃ t, exec (.podArrive kern bid ph rank) s = .next t ∧ ((t.group kern).barrier key).arrives = b.arrives + 1
      ∧ ((t.group kern).barrier key).phase = b.phase ∧ t.tiles = s.tiles ∧ t.cores = s.cores ∧ t.mem = s.mem)
  ∧ (∀ (s : State) (kern bid ph : Nat), ph < 2 → let key := barrierKey 5 0 bid
    let b := (s.group kern).barrier key
    (s.group kern).st = .running → s.hub.stalled = false → s.groupAway kern = false → b.phase = decide (ph = 1) → b.sent = true → b.st ≠ .complete → s.podWhole = true →
    ∃ t, exec (.podComplete kern bid ph) s = .next t ∧ (t.group kern).barrier key = { b with st := .complete }
      ∧ (let msg := fun (d : Nat) => ({ complete := true, dest := d, job := bitsOf s.hub.jobctx 15 0, bid := key % 256, phase := b.phase } : PodMsg)
         t.hub.podMsgs = s.hub.podMsgs ++ (s.podChildren.filterMap s.podDevice).filterMap (fun d =>
           if s.slotFor d 2 then (s.outPort d).map (fun p => { msg d with port := p }) else none)
         ∧ t.hub.podWaits = s.hub.podWaits ++ ((s.podChildren.filterMap s.podDevice).filter (fun d => !(s.slotFor d 2))).map msg)
      ∧ t.tiles = s.tiles ∧ t.cores = s.cores ∧ t.mem = s.mem))

/-- R139, R179, R180, R185, R186 and R188: the events of groups. -/
def Obligations.GroupEvents : Prop :=
  (∀ (s s1 : State) (k : Nat), (s.core k).frozen = false → s.hub.stalled = false → drainCore s k = some s1 → nodesIdle s1 k = true → remoteIdle s1 k = true →
    let t := [0, 1, 2, 3].foldl (fun s d => releaseAt s (unitOf k d) 4) s1
    ((s.core k).hold = .suspDrain → exec (.suspensionDrainDone k) s = .next (suspStep t k))
    ∧ (∀ a, (s.core k).hold = .yieldDrain a → exec (.suspensionDrainDone k) s = .next (yieldStep t k a))
    ∧ (∀ j a, (s.core k).hold = .joinDrain j a → exec (.suspensionDrainDone k) s = .next (joinStep t k j a)))
  ∧ (∀ (s : State) (k : Nat), (s.core k).curRec = none → suspStep s k = suspend s k)
  ∧ (∀ (s : State) (k : Nat) (rel : Bool), let t := coreSwitch s k rel
      (∀ d, d < 4 → t.tile (unitOf k d) = (s.tile (unitOf k d)).groupSwitch rel) ∧ (∀ u, u / 4 ≠ k → t.tile u = s.tile u)
      ∧ (t.core k).lvls = [] ∧ (t.core k).rdepth = 0 ∧ (t.core k).rstk = [] ∧ (∀ j, j ≠ k → t.core j = s.core j) ∧ t.mem = s.mem)
  ∧ (∀ (t : Tile) (r i : Nat), (t.groupSwitch false).getX r = 0 ∧ (t.groupSwitch false).getV i = {} ∧ (t.groupSwitch false).getK i = allOnes
      ∧ (t.groupSwitch false).getLatch i = none ∧ (t.groupSwitch false).spad = t.spad ∧ (t.groupSwitch false).acc = t.acc
      ∧ (t.groupSwitch false).slots = t.slots ∧ (t.groupSwitch false).flags = t.flags ∧ (t.groupSwitch true).flags = 0)
  ∧ (∀ (s : State) (k r : Nat) (rest : List Nat), let c := s.core k
    let s1 := s.setCore k { c with deque := rest }
    c.st = .suspended → c.frozen = false → s.hub.stalled = false → s.hub.fenced = false → c.deque = r :: rest → (s.devPa c.cid r).isSome = true → recAll (recHeader s1 c.cid r) = false →
    exec (.pickUp k) s = .next (startRecord s1 k r false))
  ∧ (∀ (s : State) (k r : Nat) (all : Bool), let t := startRecord s k r all
      let h := setRecStatus s (s.core k).cid r 2
      (t.core k).st = .running ∧ (t.core k).pc = recEntry (recHeader h (s.core k).cid r) ∧ (t.core k).curRec = some r ∧ (t.core k).curAll = all
      ∧ (∀ d i, d < 4 → i < 4 → (t.tile (unitOf k d)).getX (i + 1) = BitVec.ofNat 64 (recArg h (s.core k).cid r i))
      ∧ (∀ d, d < 4 → (t.tile (unitOf k d)).getX 5 = BitVec.ofNat 64 r) ∧ (∀ d, d < 4 → (t.tile (unitOf k d)).rc = [])
      ∧ ∀ d i, d < 4 → (t.tile (unitOf k d)).getX (6 + i) = 0)
  ∧ (∀ (s : State) (kern r : Nat) (rest : List Nat), let g := s.group kern
    g.held = r :: rest → g.st = .regrouping → allSuspended s g = true → dequesEmpty s kern = true → (s.devPa g.cid r).isSome = true →
    (∀ k ∈ g.cores, (s.core k).group = kern → (s.core k).frozen = false) → s.hub.stalled = false →
    let live := g.cores.filter (fun k => decide (k ∉ g.left))
    exec (.regroup kern) s = .next (live.foldl (fun s k => startRecord s k r true)
      (s.setGroup kern { g with st := if rest.isEmpty then .running else .regrouping, held := rest, regroup := some (r, live) })))
  ∧ (∀ (s : State) (kern : Nat), let g := s.group kern
    (g.st = .running ∨ g.st = .regrouping) → allSuspended s g = true → dequesEmpty s kern = true → g.held = [] →
    (∀ k ∈ g.cores, (s.core k).group = kern → (s.core k).frozen = false) → s.hub.stalled = false → postsLeft s kern = false →
    ∃ t, exec (.groupRetire kern) s = .next t ∧ (t.group kern).st = .retired
      ∧ (∀ k ∈ g.cores, (s.core k).group = kern → (t.core k).st = .idle ∧ (t.core k).active = {})
      ∧ (∀ p ∈ g.pkts, (s.pkt p).outcome = none → (t.pkt p).outcome = some (0, 0))
      ∧ (∀ k, k ∉ g.cores → t.core k = s.core k) ∧ t.mem = s.mem)

/-- R171 and the write half of R52: the predicate instructions and what their landing writes. -/
def Obligations.PredicateResults : Prop :=
  (∀ (s : State) (k d a b cc : Nat) (i : Issue) (va vb : Nat → DWord), cc < 6 → InSlot s k 0 i →
    (∀ e ∈ i.dies 0, rx (look s k 0 e) a = .ok (va e)) → (∀ e ∈ i.dies 0, rx (look s k 0 e) b = .ok (vb e)) →
    exec (.scmp d a b cc) s = .next (issued s k 0 i (resultsOf s k 0 i (fun e =>
      let r := nth false [va e == vb e, va e != vb e, (va e).slt (vb e), (vb e).sle (va e), (va e).ult (vb e), (vb e).ule (va e)] cc
      [{ lat := 1, eff := .pred d r }]))))
  ∧ (∀ (s : State) (k d a cc m : Nat) (i : Issue) (va : Nat → DWord), cc < 6 → InSlot s k 0 i →
    (∀ e ∈ i.dies 0, rx (look s k 0 e) a = .ok (va e)) →
    exec (.scmpi d a cc m) s = .next (issued s k 0 i (resultsOf s k 0 i (fun e =>
      let w : DWord := BitVec.ofInt 64 (sextNat m 9)
      let r := nth false [va e == w, va e != w, (va e).slt w, w.sle (va e), (va e).ult w, w.ule (va e)] cc
      [{ lat := 1, eff := .pred d r }]))))
  ∧ (∀ (s : State) (k d a b o : Nat) (i : Issue) (va vb : Nat → Bool), o < 7 → InSlot s k 0 i →
    (∀ e ∈ i.dies 0, rp (look s k 0 e) a = .ok (va e)) → (∀ e ∈ i.dies 0, rp (look s k 0 e) b = .ok (vb e)) →
    exec (.plog d a b o) s = .next (issued s k 0 i (resultsOf s k 0 i (fun e =>
      let r := nth false [va e && vb e, va e || vb e, va e ^^ vb e, va e && !(vb e), va e || !(vb e), !(va e && vb e), !(va e || vb e)] o
      [{ lat := 1, eff := .pred d r }]))))
  ∧ (∀ (s : State) (k d a : Nat) (i : Issue) (va : Nat → Bool), InSlot s k 0 i → (∀ e ∈ i.dies 0, rp (look s k 0 e) a = .ok (va e)) →
    exec (.pmov d a) s = .next (issued s k 0 i (resultsOf s k 0 i (fun e => [{ lat := 1, eff := .pred d (va e) }]))))
  ∧ (∀ (s : State) (k d v : Nat) (i : Issue), v < 2 → InSlot s k 0 i →
    exec (.pseti d v) s = .next (issued s k 0 i (resultsOf s k 0 i (fun _ => [{ lat := 1, eff := .pred d (v == 1) }]))))
  ∧ (∀ (s : State) (e : Entry) (d : Nat) (b : Bool), e.eff = .pred d b → e.fl = 0 → e.mx = 0 →
    landEntry s e = s.setTile e.unit ((s.tile e.unit).setP d b))
  ∧ (∀ (t : Tile) (d u q : Nat) (b : Bool), predOf (t.setP d b) u q = if q = d ∧ 6 ≤ d ∧ d < 128 then b else predOf t u q)

/-- R362, R363, R367, R374 and R376: the boundary of a loop kernel. -/
def Obligations.LoopBoundary : Prop :=
  (∀ (s s1 : State) (kern : Nat) (l : LoopRec), (s.group kern).loop = some l → allAtCommit s kern = true → l.asleep = false →
    (∀ j ∈ l.jobs, laneReady s (s.group kern).cid l j.1 = true) → drainAll s (s.group kern).liveCores = some s1 →
    let s2 := ((List.range 256).zip l.lanes).foldl (fun t p => if p.2 < l.nseq ∧ liveState (t.recState kern p.2) = true then
      commitLane t (t.seqRef kern p.2) p.1 (l.draft (s1.ctx (s.group kern).cid).pend) else t) s1
    let s3 := (s2.hub.forkCopies.drop s1.hub.forkCopies.length).foldl (fun t c => takeSlot (takeSlot t (forkXfer c.2.2) c.2.1) (forkXfer c.2.2) c.2.2) s2
    ((stopNow s3 kern = true ∨ (l.maxit ≠ 0 ∧ l.iter + 1 = l.maxit)) → exec (.iterationBoundary kern) s = .next (endLoop s3 kern))
    ∧ (stopNow s3 kern = false → (l.maxit = 0 ∨ l.iter + 1 ≠ l.maxit) → ∃ fs, exec (.iterationBoundary kern) s = .next (openIteration s3 kern fs)
        ∧ ∀ r, r ∈ fs ↔ (r < l.nseq ∧ s1.recState kern r = qFORKED)))
  ∧ (∀ (s : State) (kern : Nat) (l : LoopRec), (s.group kern).loop = some l → allAtCommit s kern = true → l.asleep = true →
    (seqGet s (s.group kern).cid (l.seqt + 24) 1 = 1 → exec (.loopWake kern) s = .next (endLoop s kern))
    ∧ (seqGet s (s.group kern).cid (l.seqt + 24) 1 ≠ 1 → l.woken = true → ∃ fs, exec (.loopWake kern) s = .next (openIteration s kern fs)
        ∧ ∀ r, r ∈ fs ↔ (r < l.nseq ∧ s.recState kern r = qFORKED))
    ∧ (seqGet s (s.group kern).cid (l.seqt + 24) 1 ≠ 1 → l.woken = false → exec (.loopWake kern) s = .next s))
  ∧ (∀ (s : State) (kern k : Nat), k ∈ (s.group kern).liveCores → ((endLoop s kern).core k).st = .idle ∧ ((endLoop s kern).core k).retired = true
      ∧ ((endLoop s kern).core k).active = {})
  ∧ (∀ (s : State) (k occ drl entry : Nat), let t := resumeCore occ drl entry s k
      (t.core k).pc = entry ∧ (t.core k).st = .running ∧ (t.core k).hold = .none ∧ (t.core k).occ = occ ∧ (t.core k).drl = drl
      ∧ (∀ n, ((t.core k).lvl n).active = false) ∧ (∀ d, d < 4 → (t.tile (unitOf k d)).rc = []) ∧ ∀ j, j ≠ k → t.core j = s.core j)
  ∧ (∀ (l : LoopRec) (n d : Nat), l.buckets ≠ [] → bucketsOk l.buckets = true → n ≤ l.cap →
      ∃ e, (l.bucket n d) ∈ l.buckets ∧ l.bucket n d = ((l.bucket n d).1, l.draft d, e) ∧ n ≤ (l.bucket n d).1
        ∧ (∀ b ∈ l.buckets, n ≤ b.1 → (l.bucket n d).1 ≤ b.1) ∧ l.draft d ≤ d ∧ ∀ b ∈ l.buckets, b.2.1 ≤ d → b.2.1 ≤ l.draft d)

/-- R371, R389, R390 and R405: what the device does for the sequences of a loop. -/
def Obligations.SequenceServices : Prop :=
  (∀ (s : State) (kern u z v y : Nat) (rest : List (Nat × Nat × Nat)), z < 64 → y < 64 → (u ≠ v ∨ z ≠ y) → s.hub.stalled = false →
    s.hub.forkCopies = (kern, 64 * u + z, 64 * v + y) :: rest →
    let src := (s.tile u).getSlot z
    let x := forkXfer (64 * v + y)
    (x ∈ (s.tile v).mule → (s.tile u).mayMove x = true → (s.tile v).mayMove x = true → (src.before = .live ∨ src.before = .loaded) →
      src.owners = [x] → ((s.tile v).getSlot y).owners = [x] →
      ∃ t, exec .forkCopyDone s = .next t ∧ t.hub.forkCopies = rest ∧ (t.tile u).getSlot z = { src with st := src.before, before := .free, owners := [] }
        ∧ (t.tile v).getSlot y = { (s.tile v).getSlot y with st := .live, bytes := src.bytes, before := .free, owners := [] }
        ∧ (∀ w, w ≠ u → w ≠ v → t.tile w = s.tile w) ∧ t.cores = s.cores ∧ t.mem = s.mem))
  ∧ (∀ (s : State) (kern r when_ u z a : Nat) (rest : List (Nat × Nat × Nat × List (Nat × Nat))), z < 64 → s.hub.stalled = false →
    s.hub.seqTraps = (kern, r, when_, [(64 * u + z, a)]) :: rest → (s.tile u).mayMove (trapXfer kern r) = true →
    ((s.tile u).getSlot z).owners = [trapXfer kern r] →
    ∃ t, exec .sequenceTrapPost s = .next t ∧ t.hub.seqTraps = rest
      ∧ (t.tile u).getSlot z = { (s.tile u).getSlot z with st := .spilled, image := a, bytes := [], before := .free, owners := [] })
  ∧ (∀ (s : State) (kern r when_ : Nat) (rest : List (Nat × Nat × Nat × List (Nat × Nat))), s.hub.stalled = false →
    s.hub.seqTraps = (kern, r, when_, []) :: rest →
    let q := s.seqRef kern r
    let s1 := { s with hub := { s.hub with seqTraps := rest } }
    let trapq := seqGet s q.cid (q.l.seqt + 160) 8
    let n := seqGet s q.cid (q.l.seqt + 168) 8
    (trapq = 0 → exec .sequenceTrapPost s = .next s1)
    ∧ (trapq ≠ 0 → ∃ t, exec .sequenceTrapPost s = .next { t with hub := { t.hub with irqs := t.hub.irqs + (if q.l.irq && s.hostPath then 1 else 0) } }
        ∧ t = (s1.hubWrite q.cid (trapq + 16 * (n % 256)) (leBytes 4 9 ++ leBytes 2 q.l.tag ++ leBytes 2 r ++ leBytes 8 when_)).devWrite q.cid (q.l.seqt + 168) (leBytes 8 (n + 1))))
  ∧ (∀ (s : State) (c : Nat) (j : Job) (rest : List Job), s.hub.jobs = j :: rest → c < 16 → (s.colt c).job = none → (s.colt c).running = false →
    (∀ b, b < c → (s.colt b).job ≠ none ∨ (s.colt b).running = true) → s.hub.stalled = false → s.hub.fenced = false →
    let s1 := { s with hub := { s.hub with jobs := rest } }
    (s.hub.routine = [] → exec (.samplingJob c) s = .next (runJob s1 j))
    ∧ (s.hub.routine ≠ [] → ∃ t, exec (.samplingJob c) s = .next t ∧ t.hub.jobs = rest ∧ (t.colt c).running = true ∧ (t.colt c).pc = 0
        ∧ (t.colt c).job = some j ∧ (t.colt c).cid = (s.group j.group).cid
        ∧ (let l := (s.group j.group).loop.getD {}
           ((upTo 7).map (fun i => (t.tile (coltUnit c)).getX (i + 1))) = ([l.seqt, nth 65535 l.lanes j.lane, j.lane, j.logits, j.npos + 256 * j.fmt,
             (l.vocab * (if j.fmt = 1 then 2 else 4) + 63) / 64 * 64, l.vocab].map (BitVec.ofNat 64)))
        ∧ (∀ r, 9 ≤ r → (t.tile (coltUnit c)).getX r = 0) ∧ (∀ b, b ≠ c → t.colt b = s.colt b) ∧ t.mem = s.mem))

/-- R270, R277, R278, R281, R282 and R285: running commands complete. -/
def Obligations.CommandCompletion : Prop :=
  (∀ (s s1 : State) (u n : Nat) (cmd : NodeCmd) (fl : Flags), (s.tile u).getNode n = { st := .running, cmd := some cmd } → s.hub.stalled = false → s.hub.fenced = false →
    ¬(dREL cmd.desc = true ∧ dSCOPE cmd.desc = 5) → (∀ a b c d e, cmd.instr ≠ .coll a b c d e) → cmd.result = 0 →
    runCmd (nodeAcquire s u cmd) u n cmd = some (s1, fl) →
    exec (.nodeComplete u n) s = .next (retryHold (nodeDone (nodeRelease s1 u cmd) u n fl) (u / 4)))
  ∧ (∀ (s : State) (u n nd sh sw xa fn : Nat) (cmd : NodeCmd), (s.tile u).getNode n = { st := .running, cmd := some cmd } → s.hub.stalled = false → s.hub.fenced = false →
    ¬(dREL cmd.desc = true ∧ dSCOPE cmd.desc = 5) → cmd.instr = .coll nd sh sw xa fn → ∀ (pre rest : List Req) (r : Req),
    s.hub.reqs = pre ++ r :: rest → r.ofNode u n = true → r.ready = false → (∀ q ∈ pre ++ rest, q.reqNo ≠ r.reqNo ∧ q.ofNode u n = false) →
    ∃ t q more, exec (.nodeComplete u n) s = .next t ∧ (t.tile u).getNode n = (s.tile u).getNode n
      ∧ t.hub.reqs = pre ++ (q :: more) ++ rest ∧ q.reqNo = r.reqNo
      ∧ ∀ p ∈ q :: more, p.kind = 5 ∧ p.unit = u ∧ p.node = n ∧ p.ready = true ∧ p.sent = false ∧ p.target = dfield cmd.desc 24 2 ∧ p.va = dfield cmd.desc 16 8)
  ∧ (∀ (s : State) (u n : Nat) (cmd : NodeCmd) (fl : Flags), ((s.tile u).getNode n).cmd = some cmd →
    let t := nodeDone s u n fl
    let b1 := leNat ((cmd.desc.drop 1).take 1)
    (bitOf b1 5 = false → bitOf b1 6 = false → (t.tile u).getNode n = {} ∧ (∀ m, m ≠ n → (t.tile u).getNode m = (s.tile u).getNode m))
    ∧ (t.tile u).flags = (s.tile u).flags ||| fl ∧ (t.tile u).resv = (s.tile u).resv.filter (fun r => decide (r.1 ≠ n))
    ∧ (t.tile u).spad = (s.tile u).spad ∧ (∀ v, v ≠ u → t.tile v = s.tile v) ∧ t.cores = s.cores ∧ t.mem = s.mem ∧ t.hub = s.hub)
  ∧ (∀ nd : Node, nd.st = .waiting → nd.count ≤ 1 → nd.credit = { nd with st := .running, count := nd.count - 1 } ∧ nd.credit true = { nd with count := nd.count - 1 })
  ∧ (∀ (s : State) (u n z nd xa : Nat) (cmd : NodeCmd) (rest : List Nat) (i : Instr), (i = .zspl nd xa ∨ i = .zsplCopy nd xa ∨ i = .zfil nd xa) → cmd.instr = i → cmd.slots = (z, 1) →
    (s.tile u).getNode n = { st := .running, cmd := some cmd } → (s.tile u).mule = n :: rest → s.hub.stalled = false → s.hub.fenced = false → (s.tile u).claims n = true → ((s.tile u).getSlot z).owners = [n] →
    dREL cmd.desc = false → dACQ cmd.desc = false → bitOf (leNat ((cmd.desc.drop 1).take 1)) 5 = false → bitOf (leNat ((cmd.desc.drop 1).take 1)) 6 = false →
    ∃ t, exec (.muleTransferComplete u n) s = .next t ∧ (t.tile u).mule = rest.filter (fun y => decide (y ≠ n)) ∧ (t.tile u).getNode n = {}
      ∧ ((t.tile u).getSlot z).image = dfield cmd.desc 16 8
      ∧ ((t.tile u).getSlot z).owners = []
      ∧ (let w := muleWrite s (u % 4) cmd.xlate (dfield cmd.desc 16 8) ((List.range 32768).map (fun a => sget 0 ((s.tile u).getSlot z).bytes a))
         let r := muleRead s cmd.xlate (dfield cmd.desc 16 8) 32768
         (i = .zspl nd xa → ((t.tile u).getSlot z).st = .spilled ∧ ((t.tile u).getSlot z).bytes = [] ∧ t.mem = w.mem)
         ∧ (i = .zsplCopy nd xa → ((t.tile u).getSlot z).st = .loaded ∧ ((t.tile u).getSlot z).bytes = ((s.tile u).getSlot z).bytes ∧ t.mem = w.mem)
         ∧ (i = .zfil nd xa → ((t.tile u).getSlot z).st = .loaded ∧ ((t.tile u).getSlot z).bytes = putCells [] (cellsAt 0 r.2) ∧ t.mem = r.1.mem))
      ∧ (∀ y, y ≠ z → (t.tile u).getSlot y = (s.tile u).getSlot y) ∧ (∀ y, (t.tile u).getV y = (s.tile u).getV y))

/-- R256, R259, R266 and R422: the carries of a package scan. The last clause is the model's choice of log 103: R422 says that SCRY raises ILLEGAL, and not how a hub learns of the claim. -/
def Obligations.ScanCarries : Prop :=
  (∀ (s : State) (kern inst level pos absent data : Nat),
    let s1 := { s with hub := { s.hub with carriesIn := s.hub.carriesIn ++
      [({ kern := kern, inst := inst, level := level, pos := pos, absent := decide (absent = 1), data := data } : CarryIn)] } }
    ((s.hub.stalled = true ∨ scryRecs s kern inst = []) → exec (.carryFlit kern inst level pos absent data) s = .next s1)
    ∧ (∀ k e r rest, s.hub.stalled = false → scryRecs s kern inst = (k, e, r) :: rest →
        (∀ c ∈ s1.hub.carriesIn, c.kern = kern → c.inst = inst → c.level ≠ 255 → c.pos ≠ r.pq) →
        exec (.carryFlit kern inst level pos absent data) s = .next { s1 with hub := { s1.hub with
          carriesOut := s1.hub.carriesOut ++ (scryRun s1 kern inst).sent.filter (fun c => !(s.hub.carriesOut.any c.same)) } }))
  ∧ (∀ (s : State) (kern inst k : Nat) (e : Entry) (r : ScryRec), scryRecs s kern inst = [(k, e, r)] → e ∈ (s.core k).inflight → r.nroots = 1 →
    s.hub.stalled = false → scryFails s r = true →
    let es : List Entry := [{ e with eff := pairEff true r.zs (scanFmt r.bf16) r.w none, pend := false, fl := 0 },
                            { e with eff := pairEff false r.zx (scanFmt r.bf16) r.w none, pend := false }]
    exec (.scryCarryArrival kern inst) s = .next (let s1 := rebase (s.setCore k { s.core k with inflight := (s.core k).inflight.flatMap (fun y => if y = e then es else [y]) }) k
      { s1 with hub := { s1.hub with carriesIn := takeCarries s1.hub.carriesIn r
                                     carriesOut := s1.hub.carriesOut.filter (fun c => !(decide (c.kern = kern) && decide (c.inst = inst))) } }))
  ∧ (∀ (s : State) (kern inst k : Nat) (e : Entry) (r : ScryRec) (top x : Pair) (f : Flags), scryRecs s kern inst = [(k, e, r)] → e ∈ (s.core k).inflight →
    r.nroots = 1 → r.q = 0 → s.hub.stalled = false → scryFails s r = false → (scryRun s kern inst).done = some (top, [(x, f)]) →
    let o := scryRun s kern inst
    let es : List Entry := [{ e with eff := if 0 < r.rightLevels then pairEff true r.zs (scanFmt r.bf16) r.w top else .none_, pend := false,
                                     fl := (nth (none, 0) o.us 0).2 ||| f ||| o.top },
                            { e with eff := pairEff false r.zx (scanFmt r.bf16) r.w x, pend := false }]
    exec (.scryCarryArrival kern inst) s = .next (let s1 := rebase (s.setCore k { s.core k with inflight := (s.core k).inflight.flatMap (fun y => if y = e then es else [y]) }) k
      { s1 with hub := { s1.hub with carriesIn := takeCarries s1.hub.carriesIn r
                                     carriesOut := s1.hub.carriesOut.filter (fun c => !(decide (c.kern = kern) && decide (c.inst = inst))) } }))
  ∧ (∀ (cs : List CarryIn) (r : ScryRec), (∀ c ∈ takeCarries cs r, c ∈ cs ∧ ¬(c.kern = r.kern ∧ c.inst = r.inst ∧ c.level = 255))
      ∧ (∀ c ∈ cs, ¬(c.kern = r.kern ∧ c.inst = r.inst) → c ∈ takeCarries cs r))
  ∧ (∀ (s : State) (e : Entry) (sm : Bool) (z w : Nat) (f : FFmt), e.eff = pairEff sm z f w none → e.unit < 256 → e.fl = 0 → e.mx = 0 → e.vg = [] →
    let t := landEntry s e
    (sm = true → (t.tile e.unit).sabs = true) ∧ (sm = false → (t.tile e.unit).xabs = true) ∧ (t.tile e.unit).flags = (s.tile e.unit).flags
      ∧ (∀ y, (t.tile e.unit).getSlot y = (s.tile e.unit).getSlot y) ∧ (∀ v, v ≠ e.unit → t.tile v = s.tile v) ∧ t.cores = s.cores ∧ t.mem = s.mem)
  ∧ (∀ (s : State) (k d xd z xa zp : Nat) (i : Issue) (e : Entry) (sm : Bool) (p : Option (List (Nat × Byte) × List (Nat × Byte))),
    e ∈ (s.core k).inflight → e.inter = true → e.pend = false → e.eff = .scanPair sm zp p → e.unit = unitOf k d → d ∈ i.dies 5 → (z = zp ∨ z = zp + 1) →
    e ∈ metPairs s k i (.zld xd z xa) ∧ e ∉ ((s.modCore k (fun c => { c with inflight := c.inflight.filter (fun e => !((metPairs s k i (.zld xd z xa)).contains e)) })).core k).inflight
    ∧ (s.sched = [] → s.turn = .core k → canIssue s (s.core k) = true → coreAsleep s k = false → (s.core k).handler = none → (s.core k).issue = some i → i.brtDone = true →
        nextOp i = some (5, .zld xd z xa) → step s = .next ((metPairs s k i (.zld xd z xa)).foldl landEntry
          (s.modCore k (fun c => { c with inflight := c.inflight.filter (fun e => !((metPairs s k i (.zld xd z xa)).contains e)) })))))
  ∧ (∀ (s : State) (kern inst level pos absent data k : Nat) (e : Entry) (r : ScryRec) (rest : List (Nat × Entry × ScryRec)), s.hub.stalled = false →
    scryRecs s kern inst = (k, e, r) :: rest → r.pq = pos → level ≠ 255 → ∃ t, exec (.carryFlit kern inst level pos absent data) s = .next t
      ∧ t.tiles = s.tiles ∧ t.mem = s.mem
      ∧ ∀ j, (s.core j).group = kern → (s.core j).st ≠ .idle → inst / 4 ≤ j → j < inst / 4 + r.ncores →
          (t.core j).pendTrap = some (cILLEGAL, r.word, false, (upTo r.nroots).map (fun i => inst % 4 + i))
          ∧ ∀ e ∈ (t.core j).inflight, ∀ x, e.eff = .scry x → x.inst ≠ inst)

/-- R411 to R417, R420, R421 and R427: the link. -/
def Obligations.LinkEvents : Prop :=
  (∀ (s : State) (r : Req) (rest : List Req), s.hub.reqs = r :: rest →
    let s1 := { s with hub := { s.hub with reqs := s.hub.reqs.map (fun x => if x.reqNo = r.reqNo then { x with sent := true, sentAt := s.ptime } else x) } }
    (grantable s r = true → (∀ q ∈ s.hub.reqs, noRoute s q = false) → r.target = s.hub.selfid → exec .linkQueueGrant s = .next s1)
    ∧ (∀ p, grantable s r = true → (∀ q ∈ s.hub.reqs, noRoute s q = false) → r.target ≠ s.hub.selfid → s.outPort r.target = some p →
        exec .linkQueueGrant s = .next (State.portUsed { s1 with hub := { s1.hub with sentMsgs := s1.hub.sentMsgs ++ [
          { dest := r.target, src := s.hub.selfid, vc := if r.kind = 5 then 2 else 0, kind := r.kind, tag := r.reqNo % 2 ^ 32, data := r.data,
            cid := r.cid, va := r.va, size := r.size, fn := r.fn, fmt := r.fmt, cnt := r.cnt, runs := r.runs, port := p } ] } } p))
    ∧ (r.sent = false → r.ready = true → r.target ≠ s.hub.selfid → s.outPort r.target = none → exec .linkQueueGrant s
        = .next (arriveReq { s with hub := { s.hub with reqs := s.hub.reqs.map (fun x => if x.reqNo = r.reqNo then { x with sent := true } else x) } } r none)))
  ∧ (∀ (s : State) (src kind tag va size cid data p : Nat), s.hub.fenced = false → s.hub.stalled = false → src ≠ s.hub.selfid → s.outPort src = some p → podPeer s src = true → (kind = 1 ∨ kind = 2) → size ∈ [64, 128, 256, 512] → va % size = 0 →
    (peerCheck s cid va size (kind - 1) = none →
      (kind = 1 → exec (.remoteRequestServe src kind tag va size cid data) s = .next (State.portUsed { s with hub := { s.hub with sentMsgs := s.hub.sentMsgs ++ [
        { dest := src, src := s.hub.selfid, vc := 1, kind := 4, tag := tag % 2 ^ 32, data := (s.hubRead cid va size).getD [], port := p }] } } p))
      ∧ (kind = 2 → exec (.remoteRequestServe src kind tag va size cid data) s = .next (let t := s.hubWrite cid va (leBytes size data)
          State.portUsed { t with hub := { t.hub with sentMsgs := t.hub.sentMsgs ++ [
            { dest := src, src := s.hub.selfid, vc := 1, kind := 3, tag := tag % 2 ^ 32, data := [], port := p }] } } p)))
    ∧ (∀ a f, peerCheck s cid va size (kind - 1) = some (a, f) → exec (.remoteRequestServe src kind tag va size cid data) s
        = .next (let t := peerFault s cid a (kind - 1) f
          State.portUsed { t with hub := { t.hub with sentMsgs := t.hub.sentMsgs ++ [
            { dest := src, src := s.hub.selfid, vc := 1, kind := 6, tag := tag % 2 ^ 32, data := [], port := p }] } } p)))
  ∧ (∀ (s : State) (req okay data : Nat) (r : Req) (rest : List Req), s.hub.reqs = r :: rest → r.sent = true → r.reqNo = req → (∀ h ∈ s.hub.heldReplies, h.1 ≠ req) →
    (r.target ≠ s.hub.selfid → exec (.remoteReply req okay data) s = .next (arriveReq (portWorks s r.target) r (if okay = 1 then some (leBytes r.size data) else none)))
    ∧ (r.sentAt + 1000 * s.hub.lto ≤ s.ptime → exec (.remoteTimeout req) s = .next (arriveReq s r none)))
  ∧ (∀ (s : State) (r : Req) (d : Option (List Byte)), arriveReq s r d = if s.hub.stalled then
      { s with hub := { s.hub with heldReplies := s.hub.heldReplies ++ [(r.reqNo, d)] } } else completeReq s r d)
  ∧ (∀ (s : State) (r : Req) (d : Option (List Byte)), r.orphan = false →
      ∃ t, completeReq s r d = (if r.kind = 1 ∧ (s.core (r.unit / 4)).frozen = true then settleBase t (r.unit / 4) else t)
      ∧ t.hub.reqs = s.hub.reqs.filter (fun x => decide (x.reqNo ≠ r.reqNo)) ∧ t.mem = s.mem ∧ t.tiles = s.tiles ∧ (r.kind ≠ 1 → t.cores = s.cores)
      ∧ ∀ (e : Entry) (dst : Nat) (tag : Tag), r.kind = 1 → (s.core (r.unit / 4)).inflight = [e] → e.eff = .remote dst (r.reqNo + 1) tag 0 false 0 false →
        (t.core (r.unit / 4)).inflight = [{ e with eff := .vec dst (if d.isSome then vecOfBytes tag (d.getD []) else {}) allOnes, pend := false }])
  ∧ (∀ (s : State) (src tag fn fmt cnt dst off inter cid size data p : Nat), s.hub.fenced = false → s.hub.stalled = false → s.outPort src = some p → src ≠ s.hub.selfid → src / 512 < s.pods → fn ≤ 3 → fmt ≤ 2 → dst % 64 = 0 → dst < 2 ^ 53 → inter < 2 → size ≤ 65536 →
    exec (.collMessage src tag fn fmt cnt (dst + 2 ^ 56 * inter + 2 ^ 57 * off) cid size data) s = .next (
      let runs := if inter = 1 then (List.range (size / (elemBits fmt / 8))).map (fun j => (off + 4 * (elemBits fmt / 8) * j, elemBits fmt / 8)) else [(off, size)]
      let r := serveColl s cid dst fn fmt (decide (cnt = 1)) runs (leBytes size data)
      State.portUsed { r.1 with hub := { r.1.hub with sentMsgs := r.1.hub.sentMsgs ++ [
        { dest := src, src := s.hub.selfid, vc := 2, kind := if r.2 then 3 else 6, tag := tag % 2 ^ 32, port := p }] } } p))
  ∧ (∀ (s : State) (p : Nat), p < 16 → let q : Port := sget {} s.hub.ports p
    (portIsUp q = true → ∃ t, exec (.flitReplay p) s = .next t ∧ (let q' : Port := sget {} t.hub.ports p
        q' = { q with fails := q.fails + 1, down := decide (16 ≤ q.fails + 1), up := decide (q.fails + 1 < 16) })
      ∧ (∀ j, j ≠ p → sget ({} : Port) t.hub.ports j = sget {} s.hub.ports j) ∧ { t with hub := s.hub } = s)
    ∧ (q.en = true → q.down = false → ∃ t, exec (.portUp p) s = .next t ∧ sget ({} : Port) t.hub.ports p = { q with up := true }
      ∧ (∀ j, j ≠ p → sget ({} : Port) t.hub.ports j = sget {} s.hub.ports j) ∧ { t with hub := s.hub } = s))
  ∧ (∀ (s : State) (d p : Nat), (s.outPort d = none → portWorks s d = s) ∧ (s.outPort d = some p → ∃ t, portWorks s d = t ∧ s.portUsed p = t
      ∧ sget ({} : Port) t.hub.ports p = { (sget ({} : Port) s.hub.ports p) with fails := 0 }
      ∧ (∀ j, j ≠ p → sget ({} : Port) t.hub.ports j = sget {} s.hub.ports j) ∧ { t with hub := { t.hub with ports := s.hub.ports } } = s))
  ∧ (∀ (s : State) (m : Msg), m.dest ≠ s.hub.selfid → s.outPort m.dest = none → s.sendMsg m = s)
  ∧ (∀ (s : State) (src kind tag va size cid data fn fmt cnt dst : Nat), s.hub.stalled = true →
    exec (.remoteRequestServe src kind tag va size cid data) s = .next s ∧ exec (.collMessage src tag fn fmt cnt dst cid size data) s = .next s)

/-- R110 to R115: the service of the software queues. That the front end stands still in a stall is the choice of log entry 107; R12 names the C-dies and R13 the interfaces. Log entry 94 names the order of room made by a pre-emption. -/
def Obligations.QueueService : Prop :=
  (∀ (s : State) (n w : Nat), s.hub.idle = false → s.hub.fenced = false → s.hostPath = true → let q := s.queue n
    (q.st = .ready ∨ q.st = .idle) → s.hubNat q.descCid (q.desc + 8) 4 = some w →
    ((w + 2 ^ 32 - q.rptr) % 2 ^ 32 ≤ 2 ^ q.logn → ∃ t, exec (.doorbell n) s = .next t ∧ (t.queue n).wptr = w ∧ (t.queue n).rptr = q.rptr
      ∧ (q.st = .ready → (t.queue n).st = .ready) ∧ (q.st = .idle → (t.queue n).st = if (w + 2 ^ 32 - q.rptr) % 2 ^ 32 = 0 then .idle else .ready)
      ∧ (∀ m, m ≠ n → t.queue m = s.queue m) ∧ t.mem = s.mem ∧ t.tiles = s.tiles ∧ t.cores = s.cores)
    ∧ (2 ^ q.logn < (w + 2 ^ 32 - q.rptr) % 2 ^ 32 → ∃ t, exec (.doorbell n) s = .next t ∧ (t.queue n).st = .error ∧ (t.queue n).rptr = q.rptr
      ∧ (t.pkt s.hub.nextPkt).outcome = some (2, 0)))
  ∧ (∀ (s : State) (g : Nat), (s.gang g).mapped = false → (s.gang g).marked = true → s.gangQueues g ≠ [] → (s.ctx (g / 256)).st = .resident →
    s.hub.stalled = false → ((s.gang g).asks = none ∧ bitOf (s.ctx (g / 256)).split.toNat 1 = false) ∨ (s.gang g).asks = some false → (s.gangQueues g).length ≤ (freeSlots s).length →
    ∃ t, exec (.gangMap g) s = .next t ∧ (t.gang g).mapped = true ∧ (t.gang g).marked = false
      ∧ (∀ q ∈ s.gangQueues g, (t.queue q.1).mapped = true) ∧ (∀ h, h ≠ g → { t.gang h with eff := (s.gang h).eff, agingFrom := (s.gang h).agingFrom } = s.gang h) ∧ t.cores = s.cores ∧ t.mem = s.mem)
  ∧ (∀ (s : State) (n : Nat), s.hub.hand = none → s.hub.interp = none → s.hub.fenced = false → s.hub.stalled = false → s.hub.idle = false → s.hub.replays = [] →
    (∀ p ∈ s.hub.queues, p.2.st ≠ .blocked) → let a := ageGangs s
    chooseQueue a = some n → exec .packetDispatch s = .next (tryQueue a n))
  ∧ (∀ (s : State) (n : Nat) (b : List Byte) (rest : List (Option (Nat × Nat) × List Byte)), (s.queue n).heads = (none, b) :: rest → packetOk b = true →
    pOP b ≠ 1 → pOP b ≠ 2 → headHeld s (s.queue n) = false →
    let t := tryQueue s n
    t.hub.hand = some s.hub.nextPkt ∧ (t.pkt s.hub.nextPkt).bytes = b ∧ (t.pkt s.hub.nextPkt).queue = n ∧ (t.pkt s.hub.nextPkt).cid = (s.queue n).cid
    ∧ (t.pkt s.hub.nextPkt).outcome = none ∧ (t.queue n).rptr = ((s.queue n).rptr + 1) % 2 ^ 32 ∧ (t.queue n).heads = rest
    ∧ (t.queue n).out = (s.queue n).out ++ [s.hub.nextPkt])
  ∧ (∀ (s : State) (g : Nat), (s.gang g).mapped = true → s.gangWaits g = true → (s.gang g).eff ≤ 7 →
    let n := (s.ptime - (s.gang g).agingFrom) / 10000000
    exec (.priorityAging g) s = .next (s.setGang g { s.gang g with eff := min 7 ((s.gang g).eff + n), agingFrom := (s.gang g).agingFrom + 10000000 * n }))
  ∧ (∀ (s : State) (g t0 : Nat), let a := ageGangs s
    let c := g / 256
    let after : Nat × Nat × Nat → Prop := fun key => ∃ t, exec (.quantumExpiry g) s = .next t ∧ (t.gang g).turnStart = none ∧ (t.ctx c).stopping = some ((s.ctx c).stopping.getD .preempted) ∧ key ∈ (t.ctx c).room ∧ (∀ d, d ≠ c → t.ctx d = s.ctx d) ∧ t.mem = s.mem ∧ t.cores = s.cores
    (s.gang g).turnStart = some t0 → (s.ctx c).st = .running → t0 + (s.gang g).quant * 1000 ≤ s.ptime → (runningGangs s c).contains g = true → s.hub.stalled = false →
    (∀ b : Blocked, b ∈ blockedLaunches a → b.cid ≠ c → (a.gang g).eff ≤ effOf a b.gang → b.holders.contains c = true → after b.key)
    ∧ (∀ p : Nat × Ctx, p ∈ s.ctxs → p.1 ≠ c → p.2.st = .preempted → p.2.restoring = false → restoreGangs a p.1 ≠ [] → (a.gang g).eff ≤ ctxEff a p.1 →
      (restoreHolders a p.1).contains c = true → after (2, p.1, 0)))
  ∧ (∀ (s : State) (p : Nat × Queue) (b : List Byte) (rest : List (Option (Nat × Nat) × List Byte)), p ∈ s.hub.queues → p.2.st = .blocked → waiting s p.2 = false → (pBAR b && !p.2.out.isEmpty) = false →
    p.2.heads = (none, b) :: rest → { key := (0, p.1, p.2.rptr), gang := p.2.gangOf, cid := p.2.cid, holders := (coresWanted s p.2.cid b).map (busyFor s) } ∈ blockedLaunches s)
  ∧ (∀ (s : State) (b : Blocked) (h : Nat), h ≠ b.cid → b.holders = [h] → blockedLaunches s = [b] → (s.ctx h).st = .running → runningGangs s h ≠ [] → (∀ g ∈ runningGangs s h, effOf s g < effOf s b.gang) →
    ((pressHeld s).ctx h).stopping = some ((s.ctx h).stopping.getD .preempted) ∧ b.key ∈ ((pressHeld s).ctx h).room ∧ (∀ d, d ≠ h → (pressHeld s).ctx d = s.ctx d))
  ∧ (∀ (s : State) (g : Nat), (s.gang g).mapped = false → (s.gang g).marked = true → s.gangQueues g ≠ [] → (s.ctx (g / 256)).st ≠ .absent → (s.ctx (g / 256)).st ≠ .destroyed →
    s.hub.stalled = false → ((s.gang g).asks = none ∧ bitOf (s.ctx (g / 256)).split.toNat 1 = true) ∨ (s.gang g).asks = some true →
    ∃ t, exec (.gangMap g) s = .next t ∧ t.gang g = { s.gang g with asks := some true } ∧ g ∈ t.hub.mapReqs ∧ t.hub.queues = s.hub.queues ∧ t.hub.hwslots = s.hub.hwslots ∧ t.mem = s.mem)
  ∧ (∀ (s : State) (i : Instr), i ∈ [Instr.launch, .loopl, .packetCopy, .graphr, .graphp, .bind, .unmap, .signal, .wait, .ctxcCreate, .ctxcDestroy, .ctxcSet, .ctxcResume, .ctxcCkpt, .ctxcQcreate,
      .ctxcQdestroy, .ctxcQprog, .ctxcQreset, .ctxcGmap, .ctxcGunmap, .ctxcHdrop, .ctxcFpool, .packetDispatch] → s.hub.stalled = true → exec i s = .next s)

/-- R118, R130, R137 to R140, R361, R364 and R120: launches, releases and completions. -/
def Obligations.KernelLaunch : Prop :=
  (∀ (s : State) (p : Nat) (a : Plan), s.hub.hand = some p → s.hub.stalled = false → s.hub.fenced = false → pOP (s.pkt p).bytes = 1 → ((s.pkt p).node.isSome = true ∨ (s.queue (s.pkt p).queue).heads = []) →
    planOf s (s.pkt p).cid (s.pkt p).bytes [] = .ok a → (a.img.cores.map (·.core)).Nodup →
    let n := s.hub.nextKern
    ∃ t, exec .launch s = .next t ∧ t.hub.hand = none ∧ t.hub.nextKern = (if (n + 1) % 2 ^ 32 = 0 then 1 else n + 1)
      ∧ (t.group n).st = .loading ∧ (t.group n).cid = (s.pkt p).cid ∧ (t.group n).pkts = [p] ∧ (t.group n).cores = a.img.cores.map (·.core)
      ∧ (t.pkt p).kern = n ∧ (t.pkt p).started = true
      ∧ (∀ c ∈ a.img.cores, (t.core c.core).shadow = { st := .loading, sec := 0, kern := n, code := nth [] c.secs 0 } ∧ (t.core c.core).active = (s.core c.core).active)
      ∧ (∀ k, k ∉ a.img.cores.map (·.core) → t.core k = s.core k))
  ∧ (∀ (s : State) (p st op : Nat) (i : Instr), (op, i) ∈ [(1, Instr.launch), (2, Instr.loopl)] → s.hub.hand = some p → s.hub.stalled = false → s.hub.fenced = false → pOP (s.pkt p).bytes = op → (s.pkt p).outcome = none →
    planOf s (s.pkt p).cid (s.pkt p).bytes [] = .error st →
    ∃ t, exec i s = .next t ∧ t.hub.hand = none ∧ (t.pkt p).outcome = some (st, 0) ∧ t.cores = s.cores ∧ t.mem = s.mem)
  ∧ (∀ (s : State) (p : Nat) (a : Plan), s.hub.hand = some p → s.hub.stalled = false → s.hub.fenced = false → pOP (s.pkt p).bytes = 2 → planOf s (s.pkt p).cid (s.pkt p).bytes [] = .ok a → (a.img.cores.map (·.core)).Nodup →
    let n := s.hub.nextKern
    ∃ t l, exec .loopl s = .next t ∧ t.hub.hand = none ∧ (t.group n).st = .loading ∧ (t.group n).loop = some l
      ∧ l.seqt = field (s.pkt p).bytes 24 8 ∧ l.vocab = field (s.pkt p).bytes 44 4 ∧ l.maxit = field (s.pkt p).bytes 48 8 ∧ l.buckets = a.img.buckets
      ∧ l.iter = 0 ∧ l.occ = 0 ∧ l.drl = 0 ∧ l.lanes = List.replicate 256 65535
      ∧ (∀ c ∈ a.img.cores, (t.core c.core).shadow = { st := .loading, sec := 0, kern := n, code := nth [] c.secs 0 }))
  ∧ (∀ (s : State) (kern : Nat), let g := s.group kern
    g.st = .loading → g.cores.Nodup → (∀ k ∈ g.cores, (s.core k).st = .idle ∧ (s.core k).shadow.st = .shadowReady ∧ (s.core k).shadow.kern = kern ∧ nodesIdle s k = true) →
    s.hub.loading = [kern] → ((s.ctx g.cid).st = .resident ∨ (s.ctx g.cid).st = .running) → (s.ctx g.cid).stopping = none → (s.ctx g.cid).restoring = false →
    s.hub.haltCtx = none → s.hub.stalled = false → s.hub.fenced = false → s.hub.idle = false →
    ∃ t, exec (.groupRelease kern) s = .next t ∧ (t.group kern).st = .running ∧ (t.ctx g.cid).st = .running ∧ t.hub.loading = []
      ∧ (∀ k ∈ g.cores, (t.core k).st = .running ∧ (t.core k).pc = 0 ∧ (t.core k).bn = 0 ∧ (t.core k).group = kern ∧ (t.core k).cid = g.cid
          ∧ (t.core k).active = { (s.core k).shadow with st := .active } ∧ (t.core k).karg0 = BitVec.ofNat 64 g.args
          ∧ (t.core k).kernid = BitVec.ofNat 64 (g.later * 2 ^ 32 + kern) ∧ (t.core k).cause = 0 ∧ (t.core k).handler = none ∧ (t.core k).inflight = []
          ∧ ∀ d, d < 4 → (t.tile (unitOf k d)).flags = 0 ∧ (∀ r, (t.tile (unitOf k d)).getX r = 0) ∧ (∀ j, (t.tile (unitOf k d)).getK j = allOnes)
            ∧ (t.tile (unitOf k d)).spad = (s.tile (unitOf k d)).spad ∧ (t.tile (unitOf k d)).acc = (s.tile (unitOf k d)).acc ∧ (t.tile (unitOf k d)).slots = (s.tile (unitOf k d)).slots)
      ∧ (∀ k, k ∉ g.cores → t.core k = s.core k))
  ∧ (∀ (s : State) (p st d : Nat), (s.pkt p).outcome = some (st, d) → (s.pkt p).node = none → (s.pkt p).fused = none → (s.pkt p).hands = [] →
    s.hub.pkts.any (fun x => decide (x.2.fused = some p)) = false → (s.ctx (s.pkt p).cid).destroyPkt = none → s.hub.stalled = false →
    let k := s.pkt p
    ∃ t, exec (.packetComplete p) s = .next t ∧ (t.pkt p).outcome = none ∧ t.hub.irqs = s.hub.irqs + (if pIRQ k.bytes && s.hostPath then 1 else 0)
      ∧ (t.queue k.queue).out = (s.queue k.queue).out.filter (fun x => decide (x ≠ p))
      ∧ t.mem = (if pCPL k.bytes then (s.hubWrite k.cid (pCPLADDR k.bytes) (leBytes 4 st ++ leBytes 2 (pTAG k.bytes) ++ leBytes 2 d ++ leBytes 8 s.ptime)).mem
          else s.mem) ∧ t.cores = s.cores)

/-- R118, R119, R296 and R300: COPY, BIND, SIGNAL and WAIT. -/
def Obligations.QueueCommands : Prop :=
  (∀ (s : State) (p : Nat), s.hub.hand = some p → s.hub.stalled = false → pOP (s.pkt p).bytes =  3 → (s.pkt p).outcome = none → handlesOf s (s.pkt p).cid (s.pkt p).bytes = some [] →
    (s.ctx (s.pkt p).cid).handles.length ≤ 4096 →
    let b := (s.pkt p).bytes
    let c := (s.pkt p).cid
    let s1 := useHandles s c p []
    (hubMay s1 c (field b 16 8) (field b 32 8) 0 = true → hubMay s1 c (field b 24 8) (field b 32 8) 1 = true →
      ∃ t, exec .packetCopy s = .next t ∧ t.hub.hand = none ∧ (t.pkt p).outcome = some (0, 0) ∧ t.cores = s.cores
        ∧ t.mem = (s1.hubWrite c (field b 24 8) ((s1.hubRead c (field b 16 8) (field b 32 8)).getD [])).mem)
    ∧ (hubMay s1 c (field b 16 8) (field b 32 8) 0 = false →
      ∃ t, exec .packetCopy s = .next t ∧ t.hub.hand = none ∧ (t.pkt p).outcome = some (2, 0) ∧ t.mem = s.mem)
    ∧ (hubMay s1 c (field b 16 8) (field b 32 8) 0 = true → hubMay s1 c (field b 24 8) (field b 32 8) 1 = false →
      ∃ t, exec .packetCopy s = .next t ∧ t.hub.hand = none ∧ (t.pkt p).outcome = some (2, 0) ∧ t.mem = s.mem))
  ∧ (∀ (s : State) (p : Nat), s.hub.hand = some p → s.hub.stalled = false → pOP (s.pkt p).bytes =  6 → (s.pkt p).outcome = none → acquiring s (s.pkt p).cid = false →
    let b := (s.pkt p).bytes
    let c := (s.pkt p).cid
    let idx := field b 40 2
    let base := field b 16 8
    let len := field b 24 8
    let sync := field b 32 8
    (bitOf (field b 42 1) 0 = true → ∃ t, exec .bind s = .next t ∧ t.hub.hand = none ∧ (t.pkt p).outcome = some (0, 0) ∧ sget ({} : Region) (t.ctx c).regions idx = { sget ({} : Region) (s.ctx c).regions idx with valid := false }
        ∧ (∀ j, j ≠ idx → sget ({} : Region) (t.ctx c).regions j = sget {} (s.ctx c).regions j) ∧ (∀ d, d ≠ c → t.ctx d = s.ctx d) ∧ t.mem = s.mem)
    ∧ (bitOf (field b 42 1) 0 = false → base % 64 = 0 → len % 64 = 0 → 64 ≤ len → len ≤ 2 ^ 40 → base + len ≤ 2 ^ 56 → ¬(base ≤ sync ∧ sync < base + len) →
      (∀ r ∈ (s.ctx c).regions, r.2.valid = true → r.1 ≠ idx → overlaps base len r.2.base r.2.bytes = false ∧ ¬(r.2.base ≤ sync ∧ sync < r.2.base + r.2.bytes)) →
      ∃ t, exec .bind s = .next t ∧ t.hub.hand = none ∧ (t.pkt p).outcome = some (0, 0) ∧ sget {} (t.ctx c).regions idx = { valid := true, base := base, bytes := len, sync := sync }
        ∧ (∀ j, j ≠ idx → sget ({} : Region) (t.ctx c).regions j = sget {} (s.ctx c).regions j) ∧ (∀ d, d ≠ c → t.ctx d = s.ctx d)
        ∧ ∀ pa, s.devPa c sync = some pa → t.isAtomic (pa / 64) = true))
  ∧ (∀ (s : State) (p pa : Nat) (e : TlbEntry), s.hub.hand = some p → s.hub.stalled = false → pOP (s.pkt p).bytes =  8 → (s.pkt p).outcome = none → translate s 256 (s.pkt p).cid (field (s.pkt p).bytes 16 8) 2 = .ok (pa, e) →
    let v := field (s.pkt p).bytes 24 8
    let old := (s.markAtomic (pa / 64)).memNat pa 8
    ∃ t, exec .signal s = .next t ∧ t.hub.hand = none ∧ (t.pkt p).outcome = some (0, 0) ∧ t.isAtomic (pa / 64) = true ∧ t.cores = s.cores
      ∧ (field (s.pkt p).bytes 32 1 = 0 → t.memNat pa 8 = v) ∧ (field (s.pkt p).bytes 32 1 = 1 → t.memNat pa 8 = (old + v) % 2 ^ 64)
      ∧ (field (s.pkt p).bytes 32 1 = 2 → t.memNat pa 8 = max old v)
      ∧ ∀ a, a < pa ∨ pa + 8 ≤ a → sget 0 t.mem a = sget 0 (s.markAtomic (pa / 64)).mem a)
  ∧ (∀ (s : State) (p : Nat), s.hub.hand = some p → s.hub.stalled = false → pOP (s.pkt p).bytes =  9 → (s.pkt p).outcome = none →
    let k := s.pkt p
    (waitHolds s k = some true → ∃ t, exec .wait s = .next t ∧ t.hub.hand = none ∧ (t.pkt p).outcome = some (0, 0) ∧ t.mem = s.mem)
    ∧ (waitHolds s k = some false → ∃ t, exec .wait s = .next t ∧ t.hub.hand = none
        ∧ t.pkt p = { k with started := true, watch := (s.devPa k.cid (field k.bytes 16 8)).map (fun pa => (pa, field k.bytes 24 8, field k.bytes 32 1)), deadline := if field k.bytes 40 8 = 0 then none else some (s.ptime + 1000 * field k.bytes 40 8) } ∧ t.mem = s.mem))
  ∧ (∀ (s : State) (p : Nat), pOP (s.pkt p).bytes = 9 → (s.pkt p).started = true → (s.pkt p).outcome = none → s.hub.stalled = false →
    let late := ∃ dl, (s.pkt p).deadline = some dl ∧ dl ≤ s.ptime
    ((s.pkt p).seen = true ∨ (¬ late ∧ waitHolds s (s.pkt p) = some true) → ∃ t, exec (.waitSatisfied p) s = .next t ∧ (t.pkt p).outcome = some (0, 0) ∧ t.mem = s.mem ∧ t.cores = s.cores)
    ∧ (late → (s.pkt p).seen = false →
        ∃ t, exec (.waitTimeout p) s = .next t ∧ (t.pkt p).outcome = some (4, 0) ∧ t.mem = s.mem ∧ t.cores = s.cores))
  ∧ (∀ (s : State) (k : Pkt) (w : Nat), s.hubNat k.cid (field k.bytes 16 8) 8 = some w →
    let v := field k.bytes 24 8
    (field k.bytes 32 1 = 0 → waitHolds s k = some (decide (v ≤ w))) ∧ (field k.bytes 32 1 = 1 → waitHolds s k = some (decide (w = v)))
    ∧ (field k.bytes 32 1 = 2 → waitHolds s k = some (decide (w ≠ v))))

/-- R124, R125 and R126: task graphs. -/
def Obligations.TaskGraphs : Prop :=
  (∀ (s : State) (p : Nat) (h : GraphHdr), s.hub.hand = some p → s.hub.stalled = false → pOP (s.pkt p).bytes =  4 → readGraph s (s.pkt p).cid (field (s.pkt p).bytes 16 8) = some h → h.version ≠ 0 → 0 < h.nnode →
    (∀ i, i < h.nnode → (s.hubNat (s.pkt p).cid (h.nodes + 64 * i) 1).getD 0 ∈ [1, 2, 3, 6, 7, 8, 9]) →
    (∃ i, i < h.nnode ∧ (s.hubNat (s.pkt p).cid (h.deps + 16 * i) 2).getD 0 = 0) →
    ∃ t, exec .graphr s = .next t ∧ t.hub.hand = none ∧ t.mem = s.mem ∧ t.pkt p = s.pkt p ∧ (let r : Replay := sget {} t.hub.replays p
      r.graph = field (s.pkt p).bytes 16 8 ∧ r.nnode = h.nnode ∧ r.buf = h.curbuf ∧ r.waiting = List.range h.nnode ∧ r.flying = [] ∧ r.result = none
      ∧ ∀ i, i < h.nnode → sget 0 r.counts i = (s.hubNat (s.pkt p).cid (h.deps + 16 * i) 2).getD 0))
  ∧ (∀ (s : State) (p rid i st d : Nat) (r : Replay), (s.pkt p).node = some (rid, i) → (s.pkt p).outcome = some (st, d) → (s.pkt p).hands = [] → pCPL (s.pkt p).bytes = false →
    rid ≠ p → sget {} s.hub.replays rid = r → r ≠ {} → (s.ctx (s.pkt p).cid).destroyPkt = none → s.hub.stalled = false →
    let r2 : State → Replay := fun t => sget {} t.hub.replays rid
    (st ≠ 0 → ∃ t, exec (.graphNodeComplete p) s = .next t ∧ (r2 t).waiting = [] ∧ (r2 t).flying = r.flying.filter (fun j => decide (j ≠ i))
        ∧ (r2 t).result = some (r.result.getD (st, i)))
    ∧ (st = 0 → ∃ t, exec (.graphNodeComplete p) s = .next t ∧ (r2 t).waiting = r.waiting ∧ (r2 t).flying = r.flying.filter (fun j => decide (j ≠ i))
        ∧ (r2 t).result = r.result ∧ (r2 t).counts = (successors s (s.pkt p).cid ((s.hubNat (s.pkt p).cid (r.graph + 16) 8).getD 0) i).foldl
            (fun m j => sset 0 m j (sget 0 m j - 1)) r.counts))
  ∧ (∀ (s : State) (p : Nat) (h : GraphHdr), s.hub.hand = some p → s.hub.stalled = false → pOP (s.pkt p).bytes =  5 → (s.pkt p).outcome = none → readGraph s (s.pkt p).cid (field (s.pkt p).bytes 16 8) = some h → h.version ≠ 0 →
    field (s.pkt p).bytes 24 4 < h.nnode → bitOf (field (s.pkt p).bytes 40 1) 0 = false →
    let b := (s.pkt p).bytes
    let c := (s.pkt p).cid
    let g := field b 16 8
    let off := 48 * field b 24 4 + field b 28 2
    let size := 48 * h.nnode
    let v := (b.drop 32).take 8
    ((heldBufs s c g).contains h.curbuf = false → exec .graphp s = .next (answer
      (putVersion (s.hubWrite c (h.params + size * h.curbuf + off) v) c g (h.version + 1) h.curbuf) p 0 0))
    ∧ ((heldBufs s c g).contains h.curbuf = true → ∀ f, f < 4 → (heldBufs s c g).contains f = false → (∀ e, e < f → (heldBufs s c g).contains e = true) →
      exec .graphp s = .next (answer (putVersion ((s.hubWrite c (h.params + size * f) ((s.hubRead c (h.params + size * h.curbuf) size).getD [])).hubWrite c
        (h.params + size * f + off) v) c g (h.version + 1) f) p 0 0)))

/-- R327, R329, R330 and R335: UNMAP. -/
def Obligations.UnmapService : Prop :=
  (∀ (s : State) (p : Nat), s.hub.hand = some p → s.hub.stalled = false → pOP (s.pkt p).bytes =  7 → let base := field (s.pkt p).bytes 16 8
    let len := field (s.pkt p).bytes 24 8
    let c := (s.pkt p).cid
    base % 65536 = 0 → len % 65536 = 0 → base + len ≤ 2 ^ 56 → (s.ctx c).unmaps.length < 64 → (∀ a ∈ granuleBases base len, leafAt s c a = none) →
    ∃ t, exec .unmap s = .next t ∧ t.hub.hand = none ∧ (t.pkt p).started = true
      ∧ (t.ctx c).unmaps = (s.ctx c).unmaps ++ [{ base := base, bytes := len, tm := s.ptime, pkt := p, frames := [] }] ∧ t.mem = s.mem
      ∧ ∀ va, base ≤ va → va < base + len → (t.ctx c).unmapping va = true)
  ∧ (∀ (s : State) (p a fr e : Nat), s.hub.hand = some p → s.hub.stalled = false → pOP (s.pkt p).bytes =  7 → let base := field (s.pkt p).bytes 16 8
    let c := (s.pkt p).cid
    field (s.pkt p).bytes 24 8 = 65536 → base % 65536 = 0 → base + 65536 ≤ 2 ^ 56 → (s.ctx c).unmaps.length < 64 → leafAt s c base = some (a, 0, fr, e) →
    ∃ t, exec .unmap s = .next t ∧ (t.ctx c).unmaps = (s.ctx c).unmaps ++ [{ base := base, bytes := 65536, tm := s.ptime, pkt := p, frames := [(fr, 65536)] }]
      ∧ t.mem = (s.putMemNat a 8 (e - 1)).mem)
  ∧ (∀ (s : State) (c : Nat) (u : Unmapping) (rest : List Unmapping), (s.ctx c).unmaps = u :: rest → leased s c u = false → s.hub.stalled = false → (s.pkt u.pkt).outcome = none → u ∉ rest →
    (∀ x ∈ s.hub.pkts, x.2.cid = c → pOP x.2.bytes ≠ 7 ∨ x.2.started = true) →
    ∃ t, exec (.unmapDrainDone c) s = .next t ∧ (t.ctx c).unmaps = rest ∧ (t.pkt u.pkt).outcome = some (0, 0)
      ∧ (∀ f ∈ (s.ctx c).taken, u.frames.any (fun r => decide (r.1 ≤ f) && decide (f < r.1 + r.2)) = true → f ∈ (t.ctx c).pool ∧ f ∉ (t.ctx c).taken)
      ∧ (∀ d ln, u.frames.any (fun r => decide (r.1 ≤ 64 * ln) && decide (64 * ln < r.1 + r.2)) = true → t.l2Line d ln = {} ∧ t.isAtomic ln = false))
  ∧ (∀ (s : State) (p : Nat), s.hub.hand = some p → s.hub.stalled = false → pOP (s.pkt p).bytes =  7 → let base := field (s.pkt p).bytes 16 8
    let len := field (s.pkt p).bytes 24 8
    let c := (s.pkt p).cid
    let leaves := ((granuleBases base len).filterMap (fun a => leafAt s c a)).eraseDups
    base % 65536 = 0 → len % 65536 = 0 → base + len ≤ 2 ^ 56 → (s.ctx c).unmaps.length < 64 → (s.ctx c).root % 8 = 0 →
    (∀ a ∈ granuleBases base len, ∀ l, leafAt s c a = some l → base ≤ a / pageSize l.2.1 * pageSize l.2.1 ∧ a / pageSize l.2.1 * pageSize l.2.1 + pageSize l.2.1 ≤ base + len) →
    ∃ t, exec .unmap s = .next t ∧ t.hub.hand = none ∧ (t.pkt p).started = true
      ∧ (t.ctx c).unmaps = (s.ctx c).unmaps ++ [{ base := base, bytes := len, tm := s.ptime, pkt := p, frames := leaves.map (fun l => (l.2.2.1, pageSize l.2.1)) }]
      ∧ (∀ l ∈ leaves, t.memNat l.1 8 = s.memNat l.1 8 - 1) ∧ ∀ a, (∀ l ∈ leaves, a < l.1 ∨ l.1 + 8 ≤ a) → sget 0 t.mem a = sget 0 s.mem a)
  ∧ (∀ (s : State) (p a lvl fr e : Nat), s.hub.hand = some p → s.hub.stalled = false → pOP (s.pkt p).bytes =  7 → let base := field (s.pkt p).bytes 16 8
    let c := (s.pkt p).cid
    lvl ≤ 2 → field (s.pkt p).bytes 24 8 = pageSize lvl → base % pageSize lvl = 0 → base + pageSize lvl ≤ 2 ^ 56 → (s.ctx c).unmaps.length < 64 → leafAt s c base = some (a, lvl, fr, e) →
    ∃ t, exec .unmap s = .next t ∧ (t.ctx c).unmaps = (s.ctx c).unmaps ++ [{ base := base, bytes := pageSize lvl, tm := s.ptime, pkt := p, frames := [(fr, pageSize lvl)] }]
      ∧ t.mem = (s.putMemNat a 8 (e - 1)).mem)
  ∧ (∀ (s : State) (p : Nat), s.hub.hand = some p → s.hub.stalled = false → pOP (s.pkt p).bytes =  7 → (s.pkt p).outcome = none → let base := field (s.pkt p).bytes 16 8
    let len := field (s.pkt p).bytes 24 8
    let c := (s.pkt p).cid
    (base % 65536 ≠ 0 ∨ len % 65536 ≠ 0 ∨ 2 ^ 56 < base + len ∨ (∃ a ∈ granuleBases base len, ∃ l, leafAt s c a = some l
        ∧ (a / pageSize l.2.1 * pageSize l.2.1 < base ∨ base + len < a / pageSize l.2.1 * pageSize l.2.1 + pageSize l.2.1)) →
      ∃ t, exec .unmap s = .next t ∧ t.hub.hand = none ∧ (t.pkt p).outcome = some (2, 0) ∧ { t with hub := s.hub } = s))
  ∧ (∀ (s : State) (c : Nat), s.hub.stalled = true → exec (.unmapDrainDone c) s = .next s)

/-- R121: the context-control packets. -/
def Obligations.ContextControl : Prop :=
  (∀ (s : State) (p n : Nat) (b : List Byte) (i : Instr), (n, i) ∈ [(1, Instr.ctxcDestroy), (2, .ctxcSet), (3, .ctxcResume), (4, .ctxcCkpt), (5, .ctxcQcreate), (6, .ctxcQdestroy),
      (7, .ctxcQprog), (8, .ctxcQreset), (9, .ctxcGmap), (10, .ctxcGunmap), (11, .ctxcHdrop), (12, .ctxcFpool)] →
    s.hub.hand = some p → s.hub.stalled = false → (s.pkt p).bytes = b → pOP b = 10 → pSUB b = n → (s.pkt p).outcome = none →
    let own := (s.pkt p).cid
    let x := s.ctx (pCID b)
    (own ≠ 0 → pCID b ≠ own → ∃ t, exec i s = .next t ∧ t.hub.hand = none ∧ (t.pkt p).outcome = some (11, 0) ∧ { t with hub := s.hub } = s)
    ∧ ((own = 0 ∨ pCID b = own) → x.st = .absent → ∃ t, exec i s = .next t ∧ t.hub.hand = none ∧ (t.pkt p).outcome = some (2, 0) ∧ { t with hub := s.hub } = s)
    ∧ ((own = 0 ∨ pCID b = own) → x.st = .destroyed → ∃ t, exec i s = .next t ∧ t.hub.hand = none ∧ (t.pkt p).outcome = some (3, 0) ∧ { t with hub := s.hub } = s))
  ∧ (∀ (s : State) (p i : Nat) (b : List Byte), s.hub.hand = some p → s.hub.stalled = false → (s.pkt p).bytes = b → pOP b = 10 → pSUB b = 0 → (s.pkt p).outcome = none →
    let own := (s.pkt p).cid
    (own ≠ 0 → pCID b ≠ own → ∃ t, exec .ctxcCreate s = .next t ∧ t.hub.hand = none ∧ (t.pkt p).outcome = some (11, 0) ∧ { t with hub := s.hub } = s)
    ∧ ((own = 0 ∨ pCID b = own) → (s.ctx (pCID b)).st = .absent → ∃ t, exec .ctxcCreate s = .next t ∧ t.hub.hand = none ∧ (t.pkt p).outcome = some (2, 0) ∧ { t with hub := s.hub } = s)
    ∧ ((own = 0 ∨ pCID b = own) → (s.ctx (pCID b)).st ≠ .absent →
    let free : Nat → Prop := fun j => (s.ctx (j + 1)).st = .absent ∨ ((s.ctx (j + 1)).st = .destroyed ∧ (s.ctx (j + 1)).destroyPkt = none)
    let ok := field b 24 8 % 4096 = 0 ∧ field b 24 8 < memSize ∧ field b 32 8 % 65536 = 0 ∧ field b 32 8 < memSize ∧ field b 48 2 % 1024 ≤ 1000
      ∧ field b 50 1 ∈ [0, 2, 4, 8] ∧ field b 52 8 % 4 ≠ 3
    i < 1023 → free i → (∀ j, j < i → ¬ free j) →
    (ok → ∃ t, exec .ctxcCreate s = .next t ∧ t.hub.hand = none ∧ (t.pkt p).outcome = some (0, i + 1) ∧ t.mem = s.mem ∧ t.cores = s.cores
      ∧ t.ctx (i + 1) = { st := .created, root := field b 24 8, save := field b 32 8, seed := BitVec.ofNat 64 (field b 40 8), lease := if field b 48 2 % 1024 = 0 then 20 else field b 48 2 % 1024, depth := field b 50 1, pend := field b 50 1, split := BitVec.ofNat 7 (field b 51 1), gnone := BitVec.ofNat 64 (gnoneOf (field b 52 8)) }
      ∧ ∀ d, d ≠ i + 1 → t.ctx d = s.ctx d)
    ∧ (¬ ok → ∃ t, exec .ctxcCreate s = .next t ∧ t.hub.hand = none ∧ (t.pkt p).outcome = some (2, 0) ∧ { t with hub := s.hub } = s)))
  ∧ (∀ (s : State) (p : Nat) (b : List Byte), s.hub.hand = some p → s.hub.stalled = false → (s.pkt p).bytes = b → pOP b = 10 → (s.pkt p).outcome = none → p < s.hub.nextPkt →
    let c := pCID b
    let x := s.ctx c
    ((s.pkt p).cid = 0 ∨ c = (s.pkt p).cid) → x.st ≠ .absent → x.st ≠ .destroyed →
    (pSUB b = 1 → (c = 0 → ∃ t, exec .ctxcDestroy s = .next t ∧ t.hub.hand = none ∧ (t.pkt p).outcome = some (2, 0) ∧ { t with hub := s.hub } = s)
      ∧ (c ≠ 0 → ∃ t, exec .ctxcDestroy s = .next t ∧ t.hub.hand = none ∧ (t.ctx c).st = .destroyed ∧ (∀ k, (t.core k).cid = c → (t.core k).st = .idle)
          ∧ (∀ q, (t.queue q).cid = c → (t.queue q).st = .absent ∨ (t.queue q).st = .destroyed) ∧ (∀ d, d ≠ c → t.ctx d = s.ctx d)
          ∧ ((∀ k ∈ t.hub.pkts, k.2.cid = c → k.1 = p) → (∀ r ∈ t.hub.reqs, r.orphan = true → r.cid ≠ c) → (t.pkt p).outcome = some (0, 0))))
    ∧ (pSUB b = 2 → ∀ (y : Ctx), let v := field b 32 8
      ((field b 24 1 = 0 ∧ y = { x with split := BitVec.ofNat 7 v }) ∨ (field b 24 1 = 1 ∧ 1 ≤ v % 1024 ∧ v % 1024 ≤ 1000 ∧ y = { x with lease := v % 1024 })
        ∨ (field b 24 1 = 2 ∧ v ∈ [0, 2, 4, 8] ∧ y = { x with pend := v, depth := if loopRunning s c then x.depth else v })
        ∨ (field b 24 1 = 3 ∧ y = { x with seed := BitVec.ofNat 64 v }) ∨ (field b 24 1 = 4 ∧ v % 4 ≠ 3 ∧ y = { x with gnone := BitVec.ofNat 64 (gnoneOf v) })) →
      ∃ t, exec .ctxcSet s = .next t ∧ t.hub.hand = none ∧ (t.pkt p).outcome = some (0, 0) ∧ t.ctx c = y ∧ (∀ d, d ≠ c → t.ctx d = s.ctx d) ∧ t.mem = s.mem ∧ t.cores = s.cores)
    ∧ (pSUB b = 2 → (4 < field b 24 1 ∨ (field b 24 1 = 1 ∧ (field b 32 8 % 1024 = 0 ∨ 1000 < field b 32 8 % 1024)) ∨ (field b 24 1 = 2 ∧ field b 32 8 ∉ [0, 2, 4, 8])
        ∨ (field b 24 1 = 4 ∧ field b 32 8 % 4 = 3)) → ∃ t, exec .ctxcSet s = .next t ∧ t.hub.hand = none ∧ (t.pkt p).outcome = some (2, 0) ∧ { t with hub := s.hub } = s)
    ∧ (pSUB b = 3 → (x.st = .faulted → ∃ t, exec .ctxcResume s = .next t ∧ t.hub.hand = none ∧ (t.pkt p).outcome = some (0, 0) ∧ t.ctx c = { x with st := .preempted, faults := [] } ∧ (∀ d, d ≠ c → t.ctx d = s.ctx d) ∧ t.cores = s.cores)
      ∧ (x.st ≠ .faulted → ∃ t, exec .ctxcResume s = .next t ∧ t.hub.hand = none ∧ (t.pkt p).outcome = some (3, 0) ∧ { t with hub := s.hub } = s))
    ∧ (pSUB b = 4 → let area := field b 32 8
      let bytes := field b 40 8
      let iv := field b 24 8
      let set : Ctx → Ctx := fun y => if iv = 0 then { y with ckptNow := true } else { y with ckptInterval := iv, ckptLast := if x.ckptSeq = 0 then s.ptime else x.ckptLast }
      let rest : State → Prop := fun t => (∀ d, d ≠ c → t.ctx d = s.ctx d) ∧ t.mem = s.mem ∧ t.cores = s.cores
      (area ≠ 0 → area % 65536 = 0 → 131072 ≤ bytes → bytes % 65536 = 0 → area + bytes ≤ 2 ^ 56 → hubMay s (s.pkt p).cid area bytes 1 = true →
        ∃ t, exec .ctxcCkpt s = .next t ∧ t.hub.hand = none ∧ (t.pkt p).outcome = some (0, 0) ∧ t.ctx c = set { x with ckptArea := area, ckptBytes := bytes, ckptBank := 0, ckptCid := (s.pkt p).cid } ∧ rest t)
      ∧ (area ≠ 0 → (area % 65536 ≠ 0 ∨ bytes < 131072 ∨ bytes % 65536 ≠ 0 ∨ 2 ^ 56 < area + bytes ∨ hubMay s (s.pkt p).cid area bytes 1 = false) →
        ∃ t, exec .ctxcCkpt s = .next t ∧ t.hub.hand = none ∧ (t.pkt p).outcome = some (2, 0) ∧ { t with hub := s.hub } = s)
      ∧ (area = 0 → x.ckptArea % 65536 = 0 → 0 < x.ckptBytes → x.ckptArea + x.ckptBytes ≤ 2 ^ 56 → 131072 ≤ bytes → bytes % 65536 = 0 →
        hubMay s x.ckptCid x.ckptArea x.ckptBytes 1 = true → ∃ t, exec .ctxcCkpt s = .next t ∧ t.hub.hand = none ∧ (t.pkt p).outcome = some (0, 0) ∧ t.ctx c = set x ∧ rest t)
      ∧ (area = 0 → (x.ckptBytes = 0 ∨ bytes < 131072 ∨ bytes % 65536 ≠ 0 ∨ hubMay s x.ckptCid x.ckptArea x.ckptBytes 1 = false) →
        ∃ t, exec .ctxcCkpt s = .next t ∧ t.hub.hand = none ∧ (t.pkt p).outcome = some (2, 0) ∧ { t with hub := s.hub } = s))
    ∧ (pSUB b = 9 → let g := gangKey c (field b 24 1)
      s.gangQueues g ≠ [] → (∀ q ∈ s.gangQueues g, q.2.st = .created) → (s.gangQueues g).length ≤ (freeSlots s).length → (x.st = .created → residents s < 32) →
      ∃ t, exec .ctxcGmap s = .next t ∧ t.hub.hand = none ∧ (t.pkt p).outcome = some (0, 0) ∧ (t.gang g).mapped = true ∧ (∀ q ∈ s.gangQueues g, (t.queue q.1).mapped = true) ∧ (t.ctx c).st = (if x.st = .created then .resident else x.st)
        ∧ t.mem = s.mem ∧ t.cores = s.cores
        ∧ (x.st = .created → ∀ k d : Nat, k < 64 → d < 4 → (s.core k).st = .idle → ((s.core k).cid = c ∨ (s.ctx (s.core k).cid).used.contains k = false) → (t.tile (unitOf k d)).slots = []))
    ∧ (pSUB b = 10 → let g := gangKey c (field b 24 1)
      s.gangQueues g ≠ [] → (∀ q ∈ s.gangQueues g, q.2.st = .idle ∨ q.2.st = .ready ∨ q.2.st = .blocked) → x.st ≠ .running →
      ∃ t, exec .ctxcGunmap s = .next t ∧ t.hub.hand = none ∧ (t.pkt p).outcome = some (0, 0) ∧ (t.gang g).mapped = false ∧ t.mem = s.mem ∧ t.cores = s.cores
        ∧ (∀ q, (s.queue q).gangOf = g → (s.queue q).st = .idle ∨ (s.queue q).st = .ready → (t.queue q).st = .created ∧ (t.queue q).mapped = false)
        ∧ (x.st = .resident → (∀ m ∈ s.mappedGangs, m.1 / 256 = c → m.1 = g) → (t.ctx c).stopping = some (x.stopping.getD .preempted)))
    ∧ (pSUB b = 11 → let h := field b 24 4
      ((∀ q ∈ x.handles, q.1 ≠ h) → ∃ t, exec .ctxcHdrop s = .next t ∧ t.hub.hand = none ∧ (t.pkt p).outcome = some (2, 0) ∧ { t with hub := s.hub } = s)
      ∧ ((∃ q ∈ x.handles, q.1 = h) → ((sget {} x.handles h).named ≠ [] → ∃ t, exec .ctxcHdrop s = .next t ∧ t.hub.hand = none ∧ (t.pkt p).outcome = some (0, 0) ∧ sget {} (t.ctx c).handles h = { (sget {} x.handles h) with drop := true })
        ∧ ((sget {} x.handles h).named = [] → (∀ n ∈ namesOf s c (undispatched s c), n.handle ≠ h) → ∃ t, exec .ctxcHdrop s = .next t ∧ t.hub.hand = none ∧ (t.pkt p).outcome = some (0, 0) ∧ sget {} (t.ctx c).handles h = {}
            ∧ ∀ j, j ≠ h → sget ({} : Handle) (t.ctx c).handles j = sget {} x.handles j)))
    ∧ (pSUB b = 12 → ∀ bs, s.hubRead (s.pkt p).cid (field b 24 8) (8 * field b 32 4) = some bs → let fr := (List.range (field b 32 4)).map (fun i => field bs (8 * i) 8)
      let mode := field b 36 1
      mode ≤ 2 → (∀ f ∈ fr, f % 65536 = 0 ∧ f + 65536 ≤ memSize) → x.pool.length + fr.length ≤ 65536 → fr.Nodup → (mode ≠ 2 → ∀ y ∈ s.ctxs, ∀ f ∈ fr, f ∉ y.2.pool) →
      ∃ t, exec .ctxcFpool s = .next t ∧ t.hub.hand = none ∧ (t.pkt p).outcome = some (0, min 65535 (t.ctx c).pool.length)
        ∧ (∀ f, f ∈ (t.ctx c).pool ↔ if mode = 0 then f ∈ x.pool ∨ f ∈ fr else if mode = 1 then f ∈ fr else f ∈ x.pool ∧ f ∉ fr)
        ∧ (∀ d, d ≠ c → t.ctx d = s.ctx d) ∧ t.mem = s.mem))
  ∧ (∀ (s : State) (p q : Nat) (b d : List Byte), s.hub.hand = some p → s.hub.stalled = false → (s.pkt p).bytes = b → pOP b = 10 → pSUB b = 5 → (s.pkt p).outcome = none →
    let c := pCID b
    ((s.pkt p).cid = 0 ∨ c = (s.pkt p).cid) → (s.ctx c).st ≠ .absent → (s.ctx c).st ≠ .destroyed →
    let free : Nat → Prop := fun j => (s.queue j).st = .absent ∨ ((s.queue j).st = .destroyed ∧ (s.queue j).out = [])
    let g := gangKey c (field b 32 1)
    let quant := if field b 36 4 = 0 then 2000 else field b 36 4
    q < 4096 → free q → (∀ j, j < q → ¬ free j) → s.hubRead (s.pkt p).cid (field b 24 8) 64 = some d → field b 33 1 ≤ 7 → 100 ≤ quant → quant ≤ 100000 →
    (s.gangQueues g).length < 16 → (s.gangQueues g ≠ [] → (s.gang g).prio = field b 33 1) → field d 0 8 % 4096 = 0 → 6 ≤ field d 16 1 → field d 16 1 ≤ 20 →
    (s.gang g).mapped = false →
    ∃ t, exec .ctxcQcreate s = .next t ∧ t.hub.hand = none ∧ (t.pkt p).outcome = some (0, q) ∧ t.queue q = { st := .created, cid := c, descCid := (s.pkt p).cid, gang := field b 32 1, desc := field b 24 8, ring := field d 0 8, logn := field d 16 1, wptr := field d 12 4, rptr := field d 12 4 }
      ∧ t.gang g = (if s.gangQueues g = [] then { prio := field b 33 1, quant := quant, eff := field b 33 1, agingFrom := s.ptime } else s.gang g)
      ∧ (∀ j, j ≠ q → t.queue j = s.queue j) ∧ t.mem = s.mem ∧ t.cores = s.cores)
  ∧ (∀ (s : State) (p : Nat) (b : List Byte), s.hub.hand = some p → s.hub.stalled = false → (s.pkt p).bytes = b → pOP b = 10 → (s.pkt p).outcome = none → p < s.hub.nextPkt →
    let c := pCID b
    let q := field b 24 2
    let v := s.queue q
    ((s.pkt p).cid = 0 ∨ c = (s.pkt p).cid) → (s.ctx c).st ≠ .absent → (s.ctx c).st ≠ .destroyed →
    (∀ i n, (n, i) ∈ [(6, Instr.ctxcQdestroy), (7, .ctxcQprog), (8, .ctxcQreset)] → pSUB b = n →
      (v.st = .absent → ∃ t, exec i s = .next t ∧ t.hub.hand = none ∧ (t.pkt p).outcome = some (2, 0) ∧ { t with hub := s.hub } = s) ∧ (v.st ≠ .absent → v.cid ≠ c → ∃ t, exec i s = .next t ∧ t.hub.hand = none ∧ (t.pkt p).outcome = some (11, 0) ∧ { t with hub := s.hub } = s))
    ∧ (v.st ≠ .absent → v.cid = c →
      (pSUB b = 6 → v.st ≠ .destroyed → ∃ t, exec .ctxcQdestroy s = .next t ∧ t.hub.hand = none ∧ (t.pkt p).outcome = some (0, 0) ∧ (t.queue q).st = .destroyed ∧ (t.queue q).mapped = false ∧ (t.queue q).rptr = v.wptr ∧ t.mem = s.mem)
      ∧ (pSUB b = 6 → v.st = .destroyed → ∃ t, exec .ctxcQdestroy s = .next t ∧ t.hub.hand = none ∧ (t.pkt p).outcome = some (3, 0) ∧ { t with hub := s.hub } = s)
      ∧ (pSUB b = 7 → v.st ≠ .destroyed → ∀ code wt wins, s.hubRead (s.pkt p).cid (field b 32 8) (4 * field b 28 2) = some code → s.hubRead (s.pkt p).cid (field b 40 8) 32 = some wt → qpWindows wt = some wins →
        let r := qpVerify (wordsOf code) wins (field b 26 2)
        (r = 0 → ∃ t, exec .ctxcQprog s = .next t ∧ t.hub.hand = none ∧ (t.pkt p).outcome = some (0, 0) ∧ t.queue q = { v with nextProg := some { words := wordsOf code, windows := wins } } ∧ t.mem = s.mem)
        ∧ (r ≠ 0 → ∃ t, exec .ctxcQprog s = .next t ∧ t.hub.hand = none ∧ (t.pkt p).outcome = some (6, r) ∧ { t with hub := s.hub } = s ∧ t.queue q = v))
      ∧ (pSUB b = 8 → v.st ≠ .error → ∃ t, exec .ctxcQreset s = .next t ∧ t.hub.hand = none ∧ (t.pkt p).outcome = some (3, 0) ∧ { t with hub := s.hub } = s)
      ∧ (pSUB b = 8 → v.st = .error → ∃ t, exec .ctxcQreset s = .next t ∧ t.hub.hand = none ∧ (t.pkt p).outcome = some (0, 0) ∧ (t.queue q).rptr = (v.rptr + 1) % 2 ^ 32 ∧ (t.queue q).wptr = v.wptr
          ∧ (t.queue q).st = (if (v.wptr + 2 ^ 32 - (v.rptr + 1) % 2 ^ 32) % 2 ^ 32 = 0 then .idle else .ready))))

/-- R104 to R107, R279, R324 to R326, R333, R334, R354, R356 and R357: what happens to a context. Log entries 39, 40, 94 and 106 name what the save area, the checkpoints, room for launches and a missing translation leave open. -/
def Obligations.ContextEvents : Prop :=
  (∀ (s : State) (c : Nat) (f : CtxSt), (s.ctx c).stopping = some f → s.hub.stalled = false → ∃ t, exec (.preemptStop c) s = .next t
      ∧ (∀ k, (s.core k).cid = c → (s.core k).st ≠ .idle → asleepAt s k = false → (t.core k).frozen = true ∧ (t.core k).pc = (s.core k).pc
          ∧ ((∀ i, (s.core k).issue = some i → i.phased = false) → (t.core k).issue = none))
      ∧ ∀ k, (s.core k).cid ≠ c ∨ asleepAt s k = true → (t.core k).frozen = (s.core k).frozen ∧ (t.core k).issue = (s.core k).issue)
  ∧ (∀ (s : State) (c : Nat), (∀ k ∈ coresOf s c, (s.core k).frozen = true ∧ asleepAt s k = false ∧ (∀ e ∈ (s.core k).inflight, e.pend = false ∧ (s.core k).bn < e.due)
        ∧ (s.core k).hold = .none ∧ (s.core k).holdQ = []) → (∀ u ∈ unitsOf (keptCores s c), ∀ n ∈ (s.tile u).nodes, n.2.st ≠ .running) →
    (∀ r ∈ s.hub.reqs, r.cid = c → r.orphan = true) → (s.ctx c).ckptRun = none → s.hub.forkCopies = [] → s.hub.seqTraps = [] → launchInHand s = false → saveBusy s c = false)
  ∧ (∀ (s0 : State) (c : Nat) (f : CtxSt), let s := (coresOf s0 c).foldl rebase s0
    let x := s.ctx c
    let ks := keptCores s c
    (s0.ctx c).stopping = some f → s0.hub.stalled = false → s.mem.wf = true → x.save % 64 = 0 → x.save + 2291792 * 1024 ≤ memSize → saveBusy s c = false →
    ∃ t v, exec (.saveComplete c) s0 = .next t ∧ t.ctx c = { x with st := f, stopping := none, saved := some v } ∧ v.opens = openParts s c ks
      ∧ v.cores = ks.map (fun k => (k, (s.core k).savedAs)) ∧ v.tiles = (unitsOf ks).map (fun u => (u, (s.tile u).savedAs))
      ∧ (∀ k, (s.core k).hold = .none → (s.core k).shadow.kern = (s.core k).group → (s.core k).savedAs = s.core k)
      ∧ (∀ u, let r := (s.tile u).savedAs
          { r with spad := (s.tile u).spad, acc := (s.tile u).acc, slots := (s.tile u).slots, tlb := (s.tile u).tlb, rc := (s.tile u).rc } = s.tile u)
      ∧ (∀ k ∈ ks, (t.core k).st = .idle ∧ ∀ d, d < 4 → (t.tile (unitOf k d)).slots = []) ∧ (∀ k, k ∉ ks → (t.core k).st = (s.core k).st)
      ∧ (∀ d, d ≠ c → t.ctx d = s.ctx d)
      ∧ t.memNat x.save 4 = 0x53454358 ∧ t.memNat (x.save + 4) 2 = 1 ∧ t.memNat (x.save + 6) 2 = (if f = .faulted then 2 else 1)
      ∧ t.memNat (x.save + 16) 8 = s.ptime % 2 ^ 64 ∧ ∀ a, a < x.save → sget 0 t.mem a = sget 0 s.mem a)
  ∧ (∀ (s : State) (c : Nat) (v : Saved), let x := s.ctx c
    let a := ageGangs s
    x.saved = some v → x.st = .preempted → x.restoring = false → restoreGangs a c ≠ [] → s.hub.stalled = false →
    (readable a x = false → ∃ t, exec (.contextRestore c) s = .next t ∧ t.ctx c = { x with refused := 8 }
        ∧ t.cores = s.cores ∧ t.tiles = s.tiles ∧ t.mem = s.mem)
    ∧ (readable a x = true → residents s < 32 → launchInHand s = false → x.room.any (roomWanted a) = false → restoreHolders a c = [] → loadingOf s c = [] →
      (v.cores.map (·.1)).Nodup → (v.tiles.map (·.1)).Nodup → let r := restoreTouch a c v
      let back := fun (q : Nat × CoreRec) => savedCore r c x v q.1 q.2
      (∀ ts cs, v.tiles.mapM (fun q => (restoreTile r c q.1 (savedTile r x v q.1 q.2)).map (fun w => (q.1, w))) = .ok ts →
        v.cores.mapM (fun q => (restoreCore r c (back q)).map (fun w => (q.1, w))) = .ok cs →
        ∃ t, exec (.contextRestore c) s = .next t ∧ t.ctx c = { savedContext r x v with restoring := true, refused := 0, room := [] }
          ∧ (∀ k ∈ v.cores, t.core k.1 = { back k with frozen := true, inflight := (t.core k.1).inflight, issue := (t.core k.1).issue }
            ∧ (t.core k.1).inflight.map (fun e => (e.due, e.issue, e.slot, e.unit)) = (back k).inflight.map (fun e => (e.due, e.issue, e.slot, e.unit)))
          ∧ (∀ k, k ∉ v.cores.map (·.1) → t.core k = r.core k) ∧ (∀ u, u ∉ v.tiles.map (·.1) → t.tile u = r.tile u) ∧ t.mem = r.mem
          ∧ ∀ q ∈ v.tiles, let w := t.tile q.1
            let m := savedTile r x v q.1 q.2
            w.x = m.x ∧ w.p = m.p ∧ w.k = m.k ∧ w.v = m.v ∧ w.latch = m.latch ∧ w.spad = m.spad ∧ w.acc = m.acc ∧ w.flags = m.flags
            ∧ w.tlb = (r.tile q.1).tlb ∧ w.mon = m.mon.map (·.wake))
      ∧ (∀ m, v.tiles.mapM (fun q => (restoreTile r c q.1 (savedTile r x v q.1 q.2)).map (fun w => (q.1, w))) = .error m →
        (∀ g b, bitOf (r.ctx c).split.toNat 0 = false → served r c m.fault.reason m.fault.level m.va = some (g, b) →
          exec (.contextRestore c) s = .next (serveFault r c g b))
        ∧ (bitOf (r.ctx c).split.toNat 0 = true ∨ served r c m.fault.reason m.fault.level m.va = none →
          ∃ t, exec (.contextRestore c) s = .next t ∧ (t.ctx c).st = .faulted ∧ (t.ctx c).saved.isSome = true ∧ (t.ctx c).faults.length = (r.ctx c).faults.length + 1
            ∧ t.memNat (x.save + 6) 2 = 2))))
  ∧ (∀ (s : State) (c k u : Nat) (x : Ctx) (v : Saved) (cr : CoreRec) (tl : Tile), (∀ kind i, changedPart s x v kind i = none) →
    savedCore s c x v k cr = cr ∧ { savedTile s x v u tl with spad := tl.spad, acc := tl.acc, slots := tl.slots } = tl
    ∧ (∀ z : Nat × Slot, z ∈ tl.slots → z.2.st ≠ .live → z ∈ (savedTile s x v u tl).slots)
    ∧ (∀ b, sectionAt s x 5 = some b → s.mem.wf = true → ∀ a, a < 4194304 →
        sget 0 (savedTile s x v u tl).spad a = sget 0 s.mem (b + 5767168 * placeOf (v.tiles.map (·.1)) u + a)))
  ∧ (∀ (s : State) (c : Nat) (v : Saved), let x := s.ctx c
    x.saved = some v → x.restoring = true → s.hub.stalled = false → (∀ k ∈ v.cores, (s.core k.1).shadow.st ≠ .loading) → loadingOf s c = [] → c ∉ s.hub.haltPending →
    ∃ t, exec (.restoreResume c) s = .next t
      ∧ t.ctx c = { x with restoring := false, saved := none, faults := [], st := if (∃ k ∈ v.cores, k.2.st ≠ .idle) then .running else .resident }
      ∧ (∀ k ∈ v.cores, let r := s.core k.1
        t.core k.1 = { r with frozen := decide ((r.haltedFrom.isSome ∨ r.st = .suspended) ∧ s.hub.haltCtx = some c) })
      ∧ (∀ k, k ∉ v.cores.map (·.1) → t.core k = s.core k) ∧ t.mem = s.mem ∧ t.tiles = s.tiles
      ∧ ∀ g ∈ runningGangs s c, (t.gang g).turnStart = some s.ptime)
  ∧ (∀ (s : State) (k : Nat), (s.core k).frozen = false → (s.core k).handler = none → (s.core k).issue = none → (s.core k).st ≠ .idle →
    s.hub.stalled = false → landsLate s k (s.core k).bn = false → exec (.snapshotReplay k) s = .next (landUpTo s k (s.core k).bn))
  ∧ (∀ (s : State) (c : Nat), let x := s.ctx c
    let n := (ckptSlots s c).length
    x.st = .running → x.stopping = none → x.ckptBytes ≠ 0 → x.ckptRun = none → s.hub.stalled = false →
    (x.ckptNow = true ∨ (x.ckptInterval ≠ 0 ∧ bitOf x.split.toNat 6 = false ∧ x.ckptLast + 1000 * x.ckptInterval ≤ s.ptime)) →
    ((x.ckptBytes / 2 - 32768) / 32768 < n ∨ 4095 < n → ∃ t, exec (.checkpoint c) s = .next t
        ∧ t.ctx c = { x with ckptSeq := x.ckptSeq + 1, ckptNow := false, ckptLast := s.ptime }
        ∧ t.mem = (ctxWrite s 0 x.ckptCid x.ckptBase (leBytes 4 0x544B4843 ++ leBytes 4 0 ++ leBytes 8 (x.ckptSeq + 1) ++ leBytes 8 s.ptime ++ leBytes 8 0 ++ leBytes 1 1 ++ leBytes 31 0)).mem)
    ∧ (n ≤ (x.ckptBytes / 2 - 32768) / 32768 → n ≤ 4095 → ∃ t, exec (.checkpoint c) s = .next t
        ∧ t.ctx c = { x with ckptSeq := x.ckptSeq + 1, ckptNow := false, ckptBank := 1 - x.ckptBank, ckptRun := some (x.ckptBase, x.ckptSeq + 1, s.ptime),
                             ckptBusy := (ckptSlots s c).map (fun z => (z.1, z.2.1)) }
        ∧ (∀ z ∈ ckptSlots s c, z.2.1 < 64 → ((t.tile z.1).getSlot z.2.1).st = .spilling)
        ∧ t.mem = (ctxWrite s 0 x.ckptCid x.ckptBase (leBytes 4 0x544B4843 ++ leBytes 4 n ++ leBytes 8 (x.ckptSeq + 1) ++ leBytes 8 s.ptime ++ leBytes 8 0 ++ leBytes 1 0 ++ leBytes 31 0)).mem))
  ∧ (∀ (s : State) (c u z b q w : Nat), let x := s.ctx c
    let sl := (s.tile u).getSlot z
    x.ckptRun = some (b, q, w) → x.ckptBusy = [(u, z)] → z < 64 → (s.tile u).mayMove 256 = true → sl.owners = [256] → s.hub.stalled = false →
    let s1 := ctxWrite s (u % 4) x.ckptCid (b + 32768) ((upTo 32768).map (fun a => sget 0 sl.bytes a))
    let s2 := ctxWrite s1 0 x.ckptCid (b + 64) (leBytes 1 (u / 4) ++ leBytes 1 (u % 4) ++ leBytes 1 z ++ leBytes 1 (if sl.before = .loaded then 2 else 3) ++ leBytes 4 0)
    ∃ t, exec (.checkpointDone c) s = .next t ∧ t.ctx c = { x with ckptBusy := [], ckptRun := none, ckptLast := s.ptime }
      ∧ (t.tile u).getSlot z = { sl with st := sl.before, before := .free, owners := [] }
      ∧ t.mem = (ctxWrite s2 0 x.ckptCid b (leBytes 4 0x544B4843 ++ leBytes 4 1 ++ leBytes 8 q ++ leBytes 8 w ++ leBytes 8 s.ptime ++ leBytes 1 0 ++ leBytes 31 0)).mem)
  ∧ (∀ (s : State) (u va kind : Nat) (e : TlbEntry), let c := (s.core (u / 4)).cid
    u < 256 → (s.core (u / 4)).st ≠ .idle → s.hub.stalled = false → walkBy s u c va = .ok e → permitted s e kind = none →
    ∃ t, exec (.pageWalk u va kind) s = .next t ∧ e ∈ (t.tile u).tlb ∧ e ∈ sget [] t.dieTlb (u % 4) ∧ e.vbase ≤ va ∧ va < e.vbase + e.size
      ∧ e.expiry = s.ptime + 1000 * (s.ctx c).lease ∧ t.mem = s.mem ∧ t.cores = s.cores ∧ ∀ w, w ≠ u → t.tile w = s.tile w)
  ∧ (∀ (s : State) (u va : Nat), s.hub.stalled = false → ∃ t, exec (.leaseExpiry u va) s = .next t ∧ t.mem = s.mem ∧ t.cores = s.cores ∧ t.ctxs = s.ctxs
      ∧ (∀ e, e ∈ (t.tile u).tlb ↔ e ∈ (s.tile u).tlb ∧ ¬(e.expiry ≤ s.ptime ∧ e.vbase ≤ va ∧ va < e.vbase + e.size))
      ∧ (∀ e, e ∈ sget [] t.dieTlb (u % 4) ↔ e ∈ sget [] s.dieTlb (u % 4) ∧ ¬(e.expiry ≤ s.ptime ∧ e.vbase ≤ va ∧ va < e.vbase + e.size))
      ∧ ∀ w, w ≠ u → t.tile w = s.tile w)
  ∧ (∀ (s : State) (k slot raised d reason va : Nat) (host : Bool) (more : List (Nat × Nat × Nat)), let r := s.core k
    let x := s.ctx r.cid
    let on : CoreSt := if r.handler.isSome then .trapped else .running
    r.hold = .page slot raised host ((d, reason, va) :: more) → s.hub.stalled = false → r.haltedFrom = none →
    let absent := host = false ∧ reason % 256 = 1 ∧ bitsOf reason 9 8 = 0
    (∀ e, absent → walk s r.cid va = .ok e → exec (.hwFaultService k) s = .next (s.setCore k { r with hold := .none, st := on }))
    ∧ (∀ w f rest a, absent → walk s r.cid va = .error w → x.pool = f :: rest → leafSlot s r.cid va = some a → x.unmapping va = false →
        ∃ t, exec (.hwFaultService k) s = .next t ∧ t.core k = { r with hold := .none, st := on }
          ∧ t.ctx r.cid = { x with pool := x.pool.filter (fun g => decide (g ≠ f)), taken := x.taken ++ [f] }
          ∧ t.mem = ((s.putMem f (List.replicate 65536 0)).putMemNat a 8 (f + 15)).mem)
    ∧ (¬ absent ∨ ((∃ w, walk s r.cid va = .error w) ∧ (x.pool = [] ∨ x.unmapping va = true ∨ leafSlot s r.cid va = none)) → x.st = .running →
        ∃ t recs, exec (.hwFaultService k) s = .next t ∧ t.core k = { r with hold := .page slot raised true [] } ∧ (t.ctx r.cid).stopping = some .faulted
          ∧ (t.ctx r.cid).faults = x.faults ++ recs ∧ (bitOf reason 13 = true → recs ≠ []) ∧ t.mem = s.mem))

/-- R352 to R360, R430, R435 and R436: the debug port. -/
def Obligations.DebugPort : Prop :=
  (∀ (s : State) (c a v : Nat) (i : Instr) (r : DebugReq), (i, r) ∈ [(Instr.debugHalt, DebugReq.halt), (.debugContinue, .cont), (.debugStep c a, .step c a), (.debugWithdraw c a, .withdraw c a), (.ddataWrite v, .write v), (.ddataRead, .read)] →
    let memory := (i = .ddataRead ∨ i = .ddataWrite v) ∧ dSpace s.hub.daddr = 6
    (s.hub.dstate ≠ 2 ∨ s.hub.selfRefresh = true ∨ (s.hub.idle = true ∧ ¬ memory) →
      ∃ t, exec i s = .next t ∧ t = { s with hub := { s.hub with derr := true, dref := true, ddata := if i = .ddataRead then 0 else s.hub.ddata } })
    ∧ (s.hub.dstate = 2 → s.hub.selfRefresh = false → s.hub.idle = false → s.hub.stalled = true → exec i s = .next { s with hub := { s.hub with debugWaits := s.hub.debugWaits ++ [r] } }))
  ∧ (∀ (s : State), s.hub.dstate = 2 → s.hub.selfRefresh = false → s.hub.idle = false → s.hub.stalled = false → let c := s.hub.dctx
    (s.hub.haltCtx = some c → exec .debugHalt s = .next { s with hub := { s.hub with dref := false } })
    ∧ (s.hub.haltCtx ≠ some c → ((s.ctx c).st ≠ .resident ∧ (s.ctx c).st ≠ .running) ∨ (s.ctx c).restoring = true →
        exec .debugHalt s = .next { s with hub := { s.hub with dref := false, haltPending := (s.hub.haltPending ++ [c]).eraseDups } })
    ∧ (s.hub.haltCtx = none → ((s.ctx c).st = .resident ∨ (s.ctx c).st = .running) → (s.ctx c).restoring = false → (s.cores.map (·.1)).Nodup →
        ∃ t, exec .debugHalt s = .next t ∧ t.hub.haltCtx = some c ∧ t.hub.dhalts = (s.hub.dhalts + 1) % 65536
          ∧ (∀ k, (s.core k).cid = c → (s.core k).st ≠ .idle → (s.core k).haltedFrom = none → (t.core k).st = (if (s.core k).st = .suspended then .suspended else .halted) ∧ (t.core k).frozen = true
            ∧ ((∀ i, (s.core k).issue = some i → i.phased = false) → (t.core k).issue = none))
          ∧ ((∀ k, (s.core k).cid = c → (s.core k).issue = none ∧ (s.core k).inflight = []) →
              (∀ k, (s.core k).cid = c → (s.core k).st ≠ .idle → (s.core k).st ≠ .suspended → (s.core k).haltedFrom = none →
                t.core k = { (s.core k) with haltedFrom := some (s.core k).st, st := .halted, frozen := true, stepPending := false })
              ∧ (∀ k, (s.core k).cid ≠ c → t.core k = s.core k) ∧ t.tiles = s.tiles ∧ t.mem = s.mem)))
  ∧ (∀ (s : State), s.hub.dstate = 2 → s.hub.selfRefresh = false → s.hub.idle = false → s.hub.stalled = false → let c := s.hub.dctx
    (s.hub.haltCtx ≠ some c → exec .debugContinue s = .next { s with hub := { s.hub with dref := false } })
    ∧ (s.hub.haltCtx = some c → ∃ t, exec .debugContinue s = .next t ∧ t.hub.haltCtx = none ∧ t.hub.dref = false ∧ t.mem = s.mem
      ∧ (∀ k st, (s.core k).cid = c → (s.core k).st = .halted → (s.core k).haltedFrom = some st →
          t.core k = { (s.core k) with st := st, haltedFrom := none, stepPending := false, frozen := (s.ctx c).stopping.isSome || (s.ctx c).restoring })
      ∧ ((s.cores.map (·.1)).Nodup → (∀ k, (s.core k).cid ≠ c → t.core k = s.core k)
        ∧ (∀ k d, d < 4 → t.tile (unitOf k d) = if (s.core k).cid = c ∧ (s.core k).st = .halted ∧ (s.core k).haltedFrom.isSome then (s.tile (unitOf k d)).startReady
            else s.tile (unitOf k d)))
      ∧ (∀ p ∈ t.cores, p.2.cid = c → p.2.stepPending = false)))
  ∧ (∀ (s : State) (core all : Nat), s.hub.dstate = 2 → s.hub.selfRefresh = false → s.hub.idle = false → s.hub.stalled = false → let c := s.hub.dctx
    let named : Nat → Prop := fun k => (s.core k).cid = c ∧ (all ≠ 0 ∨ k = core ∨ ((s.core core).benchFrom.isSome = true ∧ (s.core k).group = (s.core core).group ∧ (s.core k).benchId = (s.core core).benchId ∧ (s.core k).benchFrom.isSome = true))
    (s.hub.haltCtx ≠ some c → exec (.debugStep core all) s = .next { s with hub := { s.hub with dref := false } })
    ∧ (s.hub.haltCtx = some c → ∃ t, exec (.debugStep core all) s = .next t ∧ t.hub.haltCtx = some c ∧ t.mem = s.mem
        ∧ (∀ k st, named k → (s.core k).st = .halted → (s.core k).haltedFrom = some st →
            t.core k = { (s.core k) with st := st, haltedFrom := none, stepPending := true, frozen := (s.ctx c).stopping.isSome || (s.ctx c).restoring })
        ∧ (∀ k, (s.cores.map (·.1)).Nodup → ¬ named k → t.core k = s.core k ∧ ∀ d, d < 4 → t.tile (unitOf k d) = s.tile (unitOf k d))))
  ∧ (∀ (s : State) (core : Nat), s.hub.dstate = 2 → s.hub.selfRefresh = false → s.hub.idle = false → s.hub.stalled = false → let r := s.core core
    r.cid = s.hub.dctx → r.st ≠ .idle → r.st ≠ .suspended → r.benchFrom = none → (s.cores.map (·.1)).Nodup →
    (r.stepPending = false → exec (.debugWithdraw core 0) s = .next { s with hub := { s.hub with dref := false } })
    ∧ (r.stepPending = true → r.haltedFrom = none → ∃ t, exec (.debugWithdraw core 0) s = .next t ∧ (t.core core).st = .halted ∧ (t.core core).haltedFrom = some r.st
        ∧ (t.core core).frozen = true ∧ (t.core core).stepPending = false))
  ∧ (∀ (s : State) (v : Nat),
    (s.hub.haltCtx = none → exec (.dctxWrite v) s = .next { s with hub := { s.hub with
      dctx := v % 1024, attach := bitOf v 63, dref := false, dhalts := if bitOf v 63 = true ∧ s.hub.attach = false then 0 else s.hub.dhalts } })
    ∧ (∀ c, s.hub.haltCtx = some c → bitOf v 63 = true ∨ s.hub.attach = false → exec (.dctxWrite v) s = .next { s with hub := { s.hub with dref := true } })
    ∧ (∀ c, s.hub.haltCtx = some c → s.hub.attach = true → s.hub.stalled = true → bitOf v 63 = false →
        exec (.dctxWrite v) s = .next { s with hub := { s.hub with debugWaits := s.hub.debugWaits ++ [.dctx v] } })
    ∧ (∀ c, s.hub.haltCtx = some c → s.hub.attach = true → s.hub.stalled = false → bitOf v 63 = false → ∃ t, exec (.dctxWrite v) s = .next t ∧ t.hub.haltCtx = none ∧ t.hub.dctx = v % 1024 ∧ t.hub.attach = false
        ∧ ∀ k st, (s.core k).cid = c → (s.core k).st = .halted → (s.core k).haltedFrom = some st → (t.core k).st = st ∧ (t.core k).haltedFrom = none))
  ∧ (∀ (s : State) (v : Nat), let d := v % 4
    let signed := Config.signatureOk 8 s.token (leBytes 64 (Config.sha512 (leBytes 32 Config.deviceKey ++ leBytes 8 s.hub.fqhead ++ leBytes 1 d)))
    (d = 3 ∨ (s.hub.dstate < d ∧ ((d = 2 ∧ s.hub.secure = true) ∨ signed = false)) → exec (.dbgctlDreq v) s = .next { s with hub := { s.hub with derr := true } })
    ∧ (d ≠ 3 → (d ≤ s.hub.dstate ∨ (¬(d = 2 ∧ s.hub.secure = true) ∧ signed = true)) → s.hub.haltCtx = none → ∃ t, exec (.dbgctlDreq v) s = .next t
        ∧ t = { s with hub := { s.hub with dstate := d, derr := false, haltPending := if d = 2 then s.hub.haltPending else [] } })
    ∧ (∀ c, d < s.hub.dstate → d ≠ 3 → s.hub.haltCtx = some c → s.hub.stalled = true → ∃ t, exec (.dbgctlDreq v) s = .next t
        ∧ t = { s with hub := { s.hub with dstate := d, derr := false, haltPending := if d = 2 then s.hub.haltPending else [], debugWaits := s.hub.debugWaits ++ [.free c] } })
    ∧ (∀ c, d < s.hub.dstate → d ≠ 3 → s.hub.haltCtx = some c → s.hub.stalled = false → ∃ t, exec (.dbgctlDreq v) s = .next t ∧ t.hub.dstate = d ∧ t.hub.haltCtx = none ∧ t.hub.derr = false))
  ∧ (∀ (s : State) (v : Nat), s.hub.dstate = 2 → s.hub.selfRefresh = false → s.hub.idle = false → s.hub.stalled = false → let a := s.hub.daddr
    let u := 4 * bitsOf a 59 54 + bitsOf a 53 52
    let off := bitsOf a 47 0
    let sp := bitsOf a 63 60
    let halted := s.hub.haltCtx = some s.hub.dctx ∧ (∀ p ∈ s.cores, p.2.cid = s.hub.dctx → pendingLeft s p.1 = false ∧ ∀ d, d < 4 → ∀ n ∈ (s.tile (unitOf p.1 d)).nodes, n.2.st ≠ .running) ∧ (s.core (bitsOf a 59 54)).cid = s.hub.dctx
    let up := a / 2 ^ 48 * 2 ^ 48 + (off + 8) % 2 ^ 48
    let bad := ∃ t, exec .ddataRead s = .next t ∧ t = { s with hub := { s.hub with dref := true, ddata := 0, daddr := up } }
    let got : Nat → Prop := fun w => ∃ t, exec .ddataRead s = .next t ∧ t = { s with hub := { s.hub with dref := false, ddata := w, daddr := up } }
    let wrote : State → Prop := fun x => ∃ t, exec (.ddataWrite v) s = .next t ∧ t = { x with hub := { x.hub with dref := false, ddata := v % 2 ^ 64, daddr := up } }
    let badW := ∃ t, exec (.ddataWrite v) s = .next t ∧ t = { s with hub := { s.hub with dref := true, daddr := up } }
    (sp < 6 → ¬ halted → (∃ t, exec .ddataRead s = .next t ∧ t = { s with hub := { s.hub with dref := true, ddata := 0 } })
      ∧ ∃ t, exec (.ddataWrite v) s = .next t ∧ t = { s with hub := { s.hub with dref := true } })
    ∧ (sp = 3 → halted → (off ≤ spadSize - 8 → got ((s.tile u).spadNat off 8) ∧ wrote (s.setTile u ((s.tile u).putSpad off (leBytes 8 v)))) ∧ (spadSize - 8 < off → bad ∧ badW))
    ∧ (sp = 4 → halted → (off + 8 ≤ 1572864 → got (accWord (s.tile u) off + 2 ^ 32 * accWord (s.tile u) (off + 4))) ∧ (1572864 < off + 8 → bad ∧ badW))
    ∧ (sp = 5 → halted → (off + 8 ≤ 2097152 → got (leNat ((List.range 8).map (fun i => sget 0 ((s.tile u).getSlot ((off + i) / 32768)).bytes ((off + i) % 32768)))))
        ∧ (2097152 < off + 8 → bad ∧ badW))
    ∧ (sp = 2 → halted → badW ∧ got (if off < (snapshotOf s u).length then leNat (((snapshotOf s u).drop off).take 8) else 0))
    ∧ (sp = 6 → (∀ w, s.hubNat s.hub.dctx off 8 = some w → got w) ∧ (s.hubNat s.hub.dctx off 8 = none → bad)
        ∧ ((∀ i, i < 8 → ∃ r, translate s 256 s.hub.dctx (off + i) 1 = .ok r) → wrote (s.hubWrite s.hub.dctx off (leBytes 8 v)))
        ∧ (∀ i e, i < 8 → translate s 256 s.hub.dctx (off + i) 1 = .error e → badW))
    ∧ (6 < sp → bad ∧ badW))
  ∧ (∀ s : State, (s.hub.debugWaits = [] → serveDebug s = s)
    ∧ ∀ r rest, s.hub.debugWaits = r :: rest →
      let serve : State → DebugReq → State := fun s r => match r with
        | .dctx v => writeDctx s v
        | .free c => if s.hub.haltCtx = some c then continueCtx s c else s
        | _ => debugAsk s r
      serveDebug s = rest.foldl serve (serve { s with hub := { s.hub with debugWaits := [] } } r))

/-- R7, R11 to R16, R338 and R426 to R439: the platform. What DEVICE_RESET leaves of the device is log entry 48. -/
def Obligations.Platform : Prop :=
  (∀ s : State, ∃ t, exec .deviceReset s = .next t ∧ t.mem = s.mem ∧ t.sched = s.sched ∧ t.freeCount = s.freeCount
      ∧ t.hub = { secure := s.hub.secure, runver := s.hub.runver, runlay := s.hub.runlay, runImage := s.hub.runImage, hostMem := s.hub.hostMem }
      ∧ { t with mem := [], sched := [], freeCount := 0, hub := {} } = State.reset)
  ∧ (∀ s : State, (exec .failedUnitFence s = .next { s with hub := { s.hub with fenced := true } }) ∧ (exec .thermalFence s = .next { s with hub := { s.hub with fenced := true } }))
  ∧ (∀ (s : State) (v : Nat), let last := s.hub.stalls.foldl (fun f r => match r with | .freq g => g | .cols _ => f) s.hub.freqnow
    (5 ≤ v → exec (.pwrctlFreq v) s = .next s) ∧ (v ≤ 4 → v = s.hub.freqnow → v = last → (exec (.pwrctlFreq v) s = .next { s with hub := { s.hub with freq := v, gov := false } }))
    ∧ (v ≤ 4 → (v ≠ s.hub.freqnow ∨ v ≠ last) → (exec (.pwrctlFreq v) s = .next { s with hub := { s.hub with freq := v, gov := s.hub.gov && decide (v < last), stalls := s.hub.stalls ++ [.freq v] } }))
    ∧ (last < 4 → (exec .governorStepDown s = .next { s with hub := { s.hub with gov := true, stalls := s.hub.stalls ++ [.freq (last + 1)] } })) ∧ (4 ≤ last → exec .governorStepDown s = .next s)
    ∧ (s.hub.gov = true → s.hub.freq < last → (exec .governorStepUp s = .next { s with hub := { s.hub with stalls := s.hub.stalls ++ [.freq (last - 1)] } })))
  ∧ (∀ (s : State) (f : Nat) (rest : List StallReq), s.hub.stalls = .freq f :: rest →
    (s.hub.stalled = false → s.hub.idle = false → exec .frequencyStall s = .next (gate s))
    ∧ (s.hub.stalled = true → exec .pllRelock s = .next (ungate { s with hub := { s.hub with stalls := rest, freqnow := f, gov := s.hub.gov && decide (s.hub.freq < f) } })))
  ∧ (∀ (s : State) (m : Nat) (rest : List StallReq), s.hub.stalls = .cols m :: rest → s.hub.idle = false →
    (s.hub.stalled = false → exec .columnChange s = .next (gate s))
    ∧ (s.hub.stalled = true → ∃ u, exec .columnChange s = .next (ungate u) ∧ NotedOnly { s with hub := { s.hub with colmask := m, stalls := rest } } u ∧ u.cores = s.cores ∧ u.ctxs = s.ctxs
      ∧ ∀ d ln, d < 4 → columnOf s.hub.colmask (64 * ln) ≠ columnOf m (64 * ln) → u.l2Line d ln = {}))
  ∧ (∀ s : State, let t := gate s
    t.hub.stalled = true ∧ t.tiles = s.tiles ∧ t.mem = s.mem ∧ (∀ k, t.core k = if (s.core k).st = .running then { s.core k with st := .stalled } else s.core k)
      ∧ ∀ k, k ∈ t.hub.stallCores ↔ ∃ c, (k, c) ∈ s.cores ∧ c.st = .running)
  ∧ (∀ s : State, (ungate s).hub.stalled = false ∧ ((∀ p ∈ s.cores, p.2.hold = .none) → s.hub.heldReplies = [] → s.hub.carriesIn = [] → s.hub.debugWaits = [] →
    (ungate s).mem = s.mem ∧ (ungate s).tiles = s.tiles ∧ (ungate s).hub = { s.hub with stalled := false, stallCores := [] }
      ∧ ∀ k, (ungate s).core k = if (s.core k).st = .stalled ∧ k ∈ s.hub.stallCores then { s.core k with st := .running } else s.core k))
  ∧ (∀ (s : State) (v : Nat), let last := s.hub.stalls.foldl (fun m r => match r with | .cols n => n | .freq _ => m) s.hub.colmask
    let m := v % 256
    let hw := bitOf (s.ctx 0).split.toNat 4 = false
    (m = 0 → exec (.pwrctlColtgt v) s = .next s)
    ∧ (m ≠ 0 → (hw → m ≠ last) → (¬ hw → m ≠ s.hub.coltgt) → (exec (.pwrctlColtgt v) s = .next { s with hub := { s.hub with coltgt := m, stalls := s.hub.stalls ++ [.cols m] } }))
    ∧ (m ≠ 0 → (hw → m = last) → (¬ hw → m = s.hub.coltgt) → (exec (.pwrctlColtgt v) s = .next { s with hub := { s.hub with coltgt := m } }))
    ∧ (let new := Nat.xor last (Nat.land last m)
      hw → new ≠ 0 → new ≠ last → (exec (.columnDarkenIdle v) s = .next { s with hub := { s.hub with stalls := s.hub.stalls ++ [.cols new] } }))
    ∧ (hw → bitOf last (hashCol v) = false → bitOf s.hub.coltgt (hashCol v) = true → (exec (.columnRelight v) s = .next { s with hub := { s.hub with stalls := s.hub.stalls ++ [.cols (last + 2 ^ hashCol v)] } }))
    ∧ (¬ hw → exec (.columnDarkenIdle v) s = .next s ∧ exec (.columnRelight v) s = .next s))
  ∧ (∀ s : State, (s.hub.idleReq = true → s.hub.idle = false → s.hub.stalled = false → (∀ x ∈ s.ctxs, x.2.st ≠ .running) → (exec .enterIdle s = .next { s with hub := { s.hub with idle := true, wake := false } }))
    ∧ (s.hub.idle = true → s.hub.srReq = true → (exec .enterSelfRefresh s = .next { s with hub := { s.hub with selfRefresh := true } }))
    ∧ (s.hub.idle = true → (s.hub.wake = true ∨ s.hub.idleReq = false) → (exec .wakeToActive s = .next { s with hub := { s.hub with idle := false, selfRefresh := false, wake := false } })))
  ∧ (∀ s : State, (s.hub.fqbase = 0 ∨ s.hub.fwPhase ≠ 0 → (exec .fwLoad s = .next { s with hub := { s.hub with fwErr := 5 } }))
    ∧ (s.hub.fqbase ≠ 0 → s.hub.fwPhase = 0 → ∃ t i, exec .fwLoad s = .next t ∧ t = { s with hub := { s.hub with fwPhase := 1, fwErr := 0, pendImage := some i } }
        ∧ i.manifest = s.hostBytes (s.hub.fqbase + 4096) 256 ∧ i.version = field i.manifest 4 2 ∧ i.layouts = field i.manifest 6 2 ∧ i.size = field i.manifest 16 8
        ∧ i.body = s.hostBytes (s.hub.fqbase + 4352) i.size)
    ∧ (s.hub.fwPhase = 2 → (exec .fwCommit s = .next { s with hub := { s.hub with fwPhase := 3 } })) ∧ (s.hub.fwPhase ≠ 2 → exec .fwCommit s = .next s)
    ∧ ((s.hub.fwPhase = 1 ∨ s.hub.fwPhase = 2) → (exec .fwAbort s = .next { s with hub := { s.hub with fwPhase := 0, fwErr := 0, pendImage := none } }))
    ∧ (¬(s.hub.fwPhase = 1 ∨ s.hub.fwPhase = 2) → exec .fwAbort s = .next s))
  ∧ (∀ (s : State) (i : FwImage), s.hub.pendImage = some i → let m := i.manifest
    let signed := field m 9 1 < 8 ∧ Config.signatureOk (field m 9 1) ((m.drop 128).take 64) (leBytes 64 (Config.sha512 (m.take 128))) = true
    let whole := field m 64 64 = Config.sha512 i.body % 2 ^ 512
    let kept := ∀ x ∈ s.ctxs, ∀ v, x.2.saved = some v → bitOf i.layouts v.layout = true
    (s.hub.fwPhase = 1 →
      (¬ signed → (exec .fwVerifyDone s = .next { s with hub := { s.hub with fwPhase := 0, fwErr := 1, pendImage := none } })) ∧ (signed → ¬ whole → (exec .fwVerifyDone s = .next { s with hub := { s.hub with fwPhase := 0, fwErr := 2, pendImage := none } }))
      ∧ (signed → whole → i.version < Config.rollbackFloor → (exec .fwVerifyDone s = .next { s with hub := { s.hub with fwPhase := 0, fwErr := 3, pendImage := none } }))
      ∧ (signed → whole → Config.rollbackFloor ≤ i.version → ¬ kept → (exec .fwVerifyDone s = .next { s with hub := { s.hub with fwPhase := 0, fwErr := 4, pendImage := none } }))
      ∧ (signed → whole → Config.rollbackFloor ≤ i.version → kept → (exec .fwVerifyDone s = .next { s with hub := { s.hub with fwPhase := if bitOf (s.ctx 0).split.toNat 5 then 2 else 3 } })))
    ∧ (s.hub.fwPhase = 3 → s.hub.interp = none →
      (kept → (exec .fwCommitPoint s = .next { s with hub := { s.hub with fwPhase := 0, fwErr := 0, pendImage := none, runver := i.version, runlay := i.layouts, runImage := m ++ i.body } }))
      ∧ (¬ kept → (exec .fwCommitPoint s = .next { s with hub := { s.hub with fwPhase := 0, fwErr := 4, pendImage := none } })))
    ∧ (s.hub.interp.isSome = true → exec .fwCommitPoint s = .next s))
  ∧ (∀ (s : State) (v : Nat), let nonce := putCells s.hub.nonce (cellsAt 24 (leBytes 8 v))
    (s.hub.fqbase = 0 ∨ s.hostPath = false → (exec (.attestationRequest v) s = .next { s with hub := { s.hub with nonce := nonce } }))
    ∧ (s.hub.fqbase ≠ 0 → s.hostPath = true → ∃ t f, exec (.attestationRequest v) s = .next t ∧ f = reportFields { s with hub := { s.hub with nonce := nonce } }
        ∧ f.take 32 = (List.range 32).map (fun j => sget 0 nonce j)
        ∧ t = { s with hub := { s.hub with nonce := nonce, hostMem := putCells s.hub.hostMem (cellsAt (s.hub.fqbase + 8192)
            (Config.attestationReport (f ++ leBytes 64 (Config.sign (leBytes 64 (Config.sha512 f)))))) } }))
  ∧ (∀ (s : State) (off v : Nat), v < 2 ^ 64 → s.hostPath = true → let w := exec (.mgmtRegisterWrite off v) s
    (off % 8 ≠ 0 → w = .next s) ∧ (off ∈ [0x00, 0x08, 0x28, 0x48, 0x130, 0x138, 0x310] → w = .next s)
    ∧ (off = 0x10 → (v < 4096 → w = exec (.doorbell v) s) ∧ (4096 ≤ v → w = .next s))
    ∧ (off = 0x30 → w = exec (.dbgctlDreq (v / 256 % 4)) s) ∧ (off = 0xD8 → w = exec (.attestationRequest v) s) ∧ (off = 0x300 → w = exec (.dctxWrite v) s) ∧ (off = 0x330 → w = exec (.ddataWrite v) s)
    ∧ (off = 0x38 → (v % 4 = 1 → w = exec .fwLoad s) ∧ (v % 4 = 2 → w = exec .fwCommit s) ∧ (v % 4 = 3 → w = exec .fwAbort s) ∧ (v % 4 = 0 → w = .next s))
    ∧ (off = 0x308 → (v % 16 = 1 → w = exec .debugHalt s) ∧ (v % 16 = 2 → w = exec .debugContinue s) ∧ (v % 16 = 3 → w = exec (.debugStep (v / 65536 % 64) (v / 2 ^ 23 % 2)) s)
        ∧ (v % 16 = 4 → w = exec (.debugWithdraw (v / 65536 % 64) (v / 2 ^ 23 % 2)) s))
    ∧ (off = 0x18 → (100 ≤ v → v ≤ 100000 → w = .next { s with hub := { s.hub with lto := v } }) ∧ (v < 100 ∨ 100000 < v → w = .next s))
    ∧ (off = 0x40 → w = .next { s with hub := { s.hub with fqbase := v / 4096 * 4096 } }) ∧ (off = 0x100 → w = .next { s with hub := { s.hub with selfid := v % 8192 } })
    ∧ (off = 0x110 → (1000 ≤ v → v ≤ 1000000 → w = .next { s with hub := { s.hub with hbeat := v } }) ∧ (v < 1000 ∨ 1000000 < v → w = .next s))
    ∧ (off = 0x20 → v / 65536 % 256 = 0 → v % 8 ≤ 4 → v % 8 = s.hub.freqnow → s.hub.stalls = [] →
        w = .next { s with hub := { s.hub with freq := v % 8, gov := false, idleReq := bitOf v 6, srReq := bitOf v 7 } })
    ∧ (off = 0x150 → w = .next { s with hub := { s.hub with cridx := v % 16 } }) ∧ (off = 0x120 → w = .next { s with hub := { s.hub with rtidx := v % 8192 } })
    ∧ (∀ p, p < 16 → off = 0x180 + 8 * p → ∃ t, w = .next t ∧ (let q : Port := sget {} t.hub.ports p
        let o : Port := sget {} s.hub.ports p
        q.en = bitOf v 63 ∧ q.peerPort = v / 2 ^ 32 % 16 ∧ q.peerDev = v / 65536 % 8192
        ∧ (bitOf v 63 = false → q.up = false) ∧ (bitOf v 63 = true → o.en = false → q.up = false ∧ q.down = false ∧ q.fails = 0)
        ∧ (bitOf v 63 = true → o.en = true → q.up = (o.up && decide (q.peerPort = o.peerPort) && decide (q.peerDev = o.peerDev)) ∧ q.down = o.down ∧ q.fails = o.fails)) ∧ t.cores = s.cores ∧ t.mem = s.mem))
  ∧ (∀ (s : State) (off v : Nat), v < 2 ^ 64 → (s.hostPath = false → off ≠ 0x118 → exec (.mgmtRegisterWrite off v) s = .next s)
    ∧ exec (.mgmtRegisterWrite 0x118 v) s = .next { s with hub := { s.hub with bridge := v % 2 + v / 65536 % 8192 * 65536 } })

/-- R25, R39, R49, R62, R64, R128, R343 and R405: what a step runs. The schedule is the model's own (log entry 3). -/
def Obligations.StepRunsInstruction : Prop :=
  (∀ (s0 s : State), ((s0.sched = [] ∧ s = s0) ∨ ∃ a rest, s0.sched = .act a :: rest ∧ s = { s0 with sched := rest, turn := a }) →
    (∀ (k : Nat) (i : Issue), s.turn = .core k → canIssue s (s.core k) = true → coreAsleep s k = false → (s.core k).handler = none → (s.core k).issue = some i →
      (i.brtDone = true → ∀ sl tag op, sl < 7 → i.slot ≤ sl → decodeSlot sl (nth 0 i.words sl) = .op tag op → i.dies sl ≠ [] → (sl = 5 → metPairs s k i op = []) →
        (∀ j, i.slot ≤ j → j < sl → (∀ g o, decodeSlot j (nth 0 i.words j) ≠ .op g o) ∨ i.dies j = []) →
        step s0 = exec op (s.setCore k { (s.core k) with issue := some { i with slot := sl } }))
      ∧ (i.brtDone = true → (∀ j, i.slot ≤ j → j < 7 → (∀ g o, decodeSlot j (nth 0 i.words j) ≠ .op g o) ∨ i.dies j = []) → step s0 = .next (endBundle s k))
      ∧ (i.brtDone = false → ∀ tag op, decodeSlot 7 (nth 0 i.words 7) = .op tag op → step s0 = exec op s))
    ∧ (∀ (k : Nat), s.turn = .core k → canIssue s (s.core k) = true → coreAsleep s k = false → (s.core k).handler = none → (s.core k).issue = none →
      step s0 = .next (openBundle s k))
    ∧ (∀ (k a : Nat), s.turn = .core k → canIssue s (s.core k) = true → coreAsleep s k = false → (s.core k).handler = some a → a < (s.core k).store.2 →
      let w := sget 0 (s.core k).store.1 a
      (∀ tag op, decodeSingle false w = .op tag op → step s0 = exec op s) ∧ (w = 0 → step s0 = .next (stepEnd (nextWord s k) k))
      ∧ (∀ e, decodeSingle false w = .bad e → step s0 = .next (takeTrap s k cILLEGAL (w / 2 ^ 29 % 8) [⟨0, 0, w⟩, ⟨1, 0, w⟩, ⟨2, 0, w⟩, ⟨3, 0, w⟩])))
    ∧ (∀ (c : Nat), s.turn = .colt c → (s.colt c).running = true → asleep s (coltUnit c) = false → s.hub.stalled = false → s.hub.fenced = false →
        (s.colt c).pc < 1024 → (s.colt c).pc < s.hub.routine.length →
      let w := nth 0 s.hub.routine (s.colt c).pc
      (∀ tag op, decodeSingle true w = .op tag op → step s0 = exec op s) ∧ (w = 0 → step s0 = .next (nextColt s c))
      ∧ (∀ e, decodeSingle true w = .bad e → step s0 = .next (coltTrap s c cILLEGAL 0 w (w / 2 ^ 29))))
    ∧ (∀ (c : Nat), s.turn = .colt c → (s.colt c).running = true → asleep s (coltUnit c) = false → s.hub.stalled = false → s.hub.fenced = false →
      1024 ≤ (s.colt c).pc ∨ s.hub.routine.length ≤ (s.colt c).pc → step s0 = .next (coltTrap s c cPLANE_END 0 (s.colt c).pc 0))
    ∧ (∀ (p : Interp) (op : Instr), s.turn = .qprog → s.hub.interp = some p → s.hub.fenced = false → s.hub.stalled = false → decodeQp (nth 0 p.prog.words p.pc) = some op → step s0 = exec op s)
    ∧ (s.turn = .idle → step s0 = .next s))
  ∧ (∀ (s : State) (rest : List Choice), (∀ i, s.sched = .happen i :: rest → step s = exec i { s with sched := rest, turn := .idle })
    ∧ (∀ ns, s.sched = .tick ns :: rest → step s = .next { s with sched := rest, turn := .idle, ptime := s.ptime + ns })
    ∧ (∀ pa v, s.sched = .hostStore pa v :: rest → pa + 8 ≤ memSize → s.hostPath = true → step s = .next ({ s with sched := rest, turn := .idle }.putMemNat (pa / 8 * 8) 8 v))
    ∧ (∀ pa v, s.sched = .hostStore pa v :: rest → memSize < pa + 8 → step s = .fault (.noSuchMemory pa))
    ∧ (∀ a v, s.sched = .hostMem a v :: rest →
        step s = .next { s with sched := rest, turn := .idle, hub := { s.hub with hostMem := putCells s.hub.hostMem (cellsAt a (leBytes 8 v)) } })
    ∧ (∀ pa v, s.sched = .hostStore pa v :: rest → pa + 8 ≤ memSize → s.hostPath = false → step s = .next { s with sched := rest, turn := .idle })
    ∧ (∀ off, s.sched = .hostRead off :: rest → step s = .next (mgmtReadEffect { s with sched := rest, turn := .idle } off))
    ∧ (∀ m, s.sched = .transit m :: rest → step s = .next ({ s with sched := rest, turn := .idle }.transit m)))

/-- R23 to R26, R31, R50 to R62 and R128: words written out from the encoding tables. -/
def Obligations.DecodedWords : Prop :=
  decodeSlot 0 0x081245FD = .op 0 (.scmpi 9 4 2 0x1FD) ∧ decodeSlot 0 0x0C081800 = .op 0 (.csrr 1 0x030) ∧ decodeSlot 0 0x0440A000 = .op 0 (.call 517)
  ∧ decodeSlot 1 0x0629B010 = .op 0 (.ld 5 6 6 16) ∧ decodeSlot 1 0x02100003 = .op 0 (.addi 2 0 3)
  ∧ decodeSlot 2 0x21074042 = .op 1 (.fmul .va 3 40 2) ∧ decodeSlot 3 0x01E220A0 = .op 0 (.fadd .vb 0x71 4 5)
  ∧ decodeSlot 4 0x020E20B0 = .op 0 (.shift 3 2 1 5 1) ∧ decodeSlot 5 0x07087240 = .op 0 (.zld 2 7 9) ∧ decodeSlot 6 0x01056300 = .op 0 (.copy 5 1 1 3)
  ∧ decodeSlot 7 0x00702040 = .op 0 (.tree 0 3 64 64 64) ∧ decodeSlot 7 0x802A0000 = .op 0 (.seq 0 1 2 1 0)
  ∧ decodeSingle true 0x3A681020 = .op 0 (.maskgSh 13 8) ∧ decodeSingle false 0x3A681020 = .bad .notHere
  ∧ decodeQp 0x3D000010 = some (.qLdw 4 0 0 16) ∧ decodeQp 0x39400000 = some (.qLi 5 0) ∧ decodeQp 0x58010004 = some (.qLoop 0 4 4) ∧ decodeQp 0x3D948000 = some (.qLdw 6 5 2 0)
  ∧ decodeQp 0x48190002 = some (.qBne 6 4 2) ∧ decodeQp 0x64000003 = some (.qSkip 3) ∧ decodeQp 0x25540008 = some (.qAddi 5 5 8) ∧ decodeQp 0x60000000 = some .qDone
  ∧ decodeSlot 2 0 = .nop ∧ decodeSlot 2 0xE1000000 = .bad .pathTag ∧ decodeSlot 0 1 = .bad .nopBits ∧ decodeSlot 2 0x11000000 = .bad .unassigned
  ∧ decodeSlot 0 0x01000001 = .bad .unassigned ∧ decodeSlot 7 0x80000001 = .bad .unassigned

/-- R23, R50 to R63 and R128: decoding and encoding agree on every instruction. -/
def Obligations.EncodingRoundTrip : Prop :=
  (∀ (i : Instr), i.wf = true →
    (∀ sl w tag, encode i = some (sl, w) → sl < 7 → tag < 7 → decodeSlot sl (2 ^ 29 * tag + w) = .op tag i)
    ∧ (∀ w, encode i = some (7, w) → i ≠ .tree 0 0 0 0 0 → decodeSlot 7 w = .op 0 i)
    ∧ (∀ w, encodeSingle i = some w → (onColt i = true → decodeSingle true w = .op 0 i)
        ∧ (coltOnly i = false → bannedSingle i = false → decodeSingle false w = .op 0 i))
    ∧ (∀ w, encodeQp i = some w → decodeQp w = some i))
  ∧ (∀ (sl w tag : Nat) (i : Instr), decodeSlot sl w = .op tag i →
      i.wf = true ∧ (sl < 7 → tag < 7 ∧ tag = w / 2 ^ 29 % 8 ∧ encode i = some (sl, w % 2 ^ 29)) ∧ (sl = 7 → tag = 0 ∧ encode i = some (7, w)))
  ∧ (∀ (w : Nat) (i : Instr), decodeQp w = some i → i.wf = true ∧ encodeQp i = some w)

/-- R47, R54 and R339: what an instruction may not do it traps on, so that no operation is without a next state. -/
def Obligations.EveryStepAnswers : Prop :=
  (∀ (i : Instr) (s : State), ∃ t, exec i s = .next t)
  ∧ (∀ (s : State), (∃ t, step s = .next t) ∨ ∃ pa v rest, s.sched = .hostStore pa v :: rest ∧ memSize < pa + 8 ∧ step s = .fault (.noSuchMemory pa))

/-- R9, R38, R92 and R296: whatever lands in memory, the memory stays in its one form. The form is the model's own. -/
def Obligations.MemoryFormKept : Prop :=
  ∀ (s t : State), Memory.wf s.mem = true → step s = .next t → Memory.wf t.mem = true

/-- R16, R94 and the reset columns of Part 7: the state of reset; what the spec leaves open of it is log entries 4, 13, 14 and 15. -/
def Obligations.ResetState : Prop :=
  Memory.wf State.reset.mem = true ∧ State.reset.mem = [] ∧ State.reset.ptime = 0 ∧ State.reset.turn = .idle ∧ State.reset.sched = []
  ∧ (∀ k, (State.reset.core k).st = .idle ∧ (State.reset.core k).inflight = [] ∧ (State.reset.core k).issue = none ∧ (State.reset.core k).handler = none
      ∧ (State.reset.core k).pc = 0 ∧ (State.reset.core k).deque = [])
  ∧ (∀ u, (State.reset.tile u).flags = 0 ∧ (∀ r, (State.reset.tile u).getX r = 0) ∧ (∀ j, (State.reset.tile u).getV j = {}) ∧ (State.reset.tile u).nodes = [] ∧ (State.reset.tile u).tlb = [])
  ∧ (State.reset.ctx 0).st = .created ∧ (∀ c, c ≠ 0 → (State.reset.ctx c).st = .absent)
  ∧ (∀ q, (State.reset.queue q).st = .absent) ∧ (∀ n, (State.reset.group n).st = .absent) ∧ State.reset.hub.pkts = [] ∧ State.reset.hub.hand = none
  ∧ State.reset.hub.freq = 0 ∧ State.reset.hub.freqnow = 0 ∧ State.reset.hub.coltgt = 255 ∧ State.reset.hub.colmask = 255 ∧ State.reset.hub.hbeat = 20000
  ∧ State.reset.hub.lto = 1000 ∧ State.reset.hub.fqbase = 0 ∧ State.reset.hub.dstate = 0 ∧ State.reset.hub.fenced = false ∧ State.reset.hub.stalled = false

/-- R37, R38, R92 and R193: where a vector result goes. -/
def Obligations.VectorLanding : Prop :=
  (∀ (c : OpCtx) (d lat : Nat) (v : Vec) (en : Mask) (fl : Flags), ¬(40 ≤ d ∧ d < 48) → dstPosts c d lat v en fl = .ok [{ lat := lat, eff := .vec d v en, fl := fl }])
  ∧ (∀ (s : State) (e : Entry) (d : Nat) (v : Vec) (en : Mask), e.eff = .vec d v en →
    let t := (landEntry s e).tile e.unit
    let o := s.tile e.unit
    (∃ l, t.getLatch (latchOf e.slot d) = some l ∧ l.tag = v.tag ∧ ∀ j, j < 128 → l.lane j = if en.getLsbD j then v.lane j else 0)
    ∧ (d < 40 → (t.getV d).tag = v.tag ∧ ∀ j, j < 128 → (t.getV d).lane j = if en.getLsbD j then v.lane j else (o.getV d).lane j)
    ∧ (∀ r, r ≠ d ∨ 40 ≤ d → t.getV r = o.getV r) ∧ (∀ l, l ≠ latchOf e.slot d → t.getLatch l = o.getLatch l)
    ∧ t.flags = o.flags ||| e.fl
    ∧ (let up := fun (c : BitVec 16) (b : Bool) => if b = true ∧ c ≠ 0xFFFF#16 then c + 1 else c
       t.mx = { nblk := up o.mx.nblk (e.mx.getLsbD 3), ovf := up o.mx.ovf (e.mx.getLsbD 2), satq := up o.mx.satq (e.mx.getLsbD 1), inv := up o.mx.inv (e.mx.getLsbD 0) })
    ∧ { t with v := o.v, latch := o.latch, flags := o.flags, mx := o.mx } = o
    ∧ (∀ u, u ≠ e.unit → (landEntry s e).tile u = s.tile u) ∧ { landEntry s e with tiles := s.tiles } = s)
  ∧ latchOf 1 65 = 63 ∧ latchOf 2 0x71 = 49 ∧ latchOf 3 0x71 = 53 ∧ latchOf 4 3 = 57 ∧ latchOf 5 2 = 58 ∧ latchOf 6 61 = 61

/-- R163 with the field tables of FLAGS, TAGMODE, PARKST and TRAPPC. TRAPPC from the lead die: the model's choice, log 8. -/
def Obligations.SystemRegisterAccess : Prop :=
  (∀ (s : State) (k d n : Nat) (i : Issue), InSlot s k 0 i →
    exec (.csrr d n) s = .next (issued s k 0 i (resultsOf s k 0 i
      (fun e => [{ lat := 2, eff := .xreg d (BitVec.ofNat 64 (csrValue s (unitOf k e) n)) }]))))
  ∧ (∀ (s : State) (k a n : Nat) (i : Issue) (va : Nat → DWord) (op : Instr) (orOld : Bool),
    (op, orOld) ∈ ([(.csrw a n, false), (.csrs a n, true)] : List (Instr × Bool)) → InSlot s k 0 i →
    (∀ e ∈ i.dies 0, rx (look s k 0 e) a = .ok (va e)) →
    exec op s = .next (issued s k 0 i (resultsOf s k 0 i (fun e => [{ lat := 1, eff := .csr n (va e) orOld }]))))
  ∧ (∀ (s : State) (u : Nat) (v : DWord) (o : Bool), let put := fun n => if o then BitVec.ofNat 64 (csrValue s u n) ||| v else v
      csrApply s u 0x010 v o = s.setTile u { s.tile u with flags := (put 0x010).setWidth 6 }
      ∧ csrApply s u 0x011 v o = s.setTile u { s.tile u with mx :=
          { nblk := (put 0x011).extractLsb' 48 16, ovf := (put 0x011).extractLsb' 32 16, satq := (put 0x011).extractLsb' 16 16, inv := (put 0x011).extractLsb' 0 16 } }
      ∧ csrApply s u 0x012 v o = s.setTile u { s.tile u with cvt := (put 0x012).getLsbD 0, ldt :=
          if (put 0x012).toNat / 2 % 4 = 3 then (s.tile u).ldt else (put 0x012).toNat / 2 % 4 }
      ∧ csrApply s u 0x013 v o = s.setTile u (if s.banked u then { s.tile u with harm := (put 0x013).setWidth 4 } else { s.tile u with arm := (put 0x013).setWidth 4 })
      ∧ csrApply s u 0x014 v o = s.setTile u { s.tile u with pool := (put 0x014).getLsbD 17, abank := (put 0x014).toNat / 2 ^ 14 % 8, sbase :=
          if (put 0x014).toNat % 2 ^ 13 ≤ 8152 then (put 0x014).toNat % 2 ^ 13 else (s.tile u).sbase }
      ∧ (256 ≤ u → csrApply s u 0x041 v o = if 2048 < (put 0x041).toNat % 4096 then s else s.setColt (u - 256) { s.colt (u - 256) with trapPc := (put 0x041).setWidth 12 }))
  ∧ (∀ (s : State) (k e : Nat) (v : DWord) (o : Bool), k < 64 → e < 4 →
      let p := if o then BitVec.ofNat 64 (csrValue s (unitOf k e) 0x041) ||| v else v
      csrApply s (unitOf k e) 0x041 v o = if e = k % 4 ∧ p.toNat % 4096 ≤ 2048 then s.setCore k { s.core k with trapPc := p.setWidth 12 } else s)
  ∧ (∀ (s : State) (u n : Nat) (v : DWord) (o : Bool), n ∉ [0x010, 0x011, 0x012, 0x013, 0x014, 0x041] → csrApply s u n v o = s)

/-- R165, R168, R169, R350: what the words post, and what RSTKW writes. -/
def Obligations.SequencerAndStore : Prop :=
  (∀ (s : State) (k l x r : Nat) (i : Issue) (v : DWord) (op : Instr) (f : DWord → Eff),
    (op, f) ∈ ([(.loop l x, fun v => .loopCount l (v.setWidth 24)), (.loopS0 l x r, fun v => .loopStride l 0 r v),
      (.loopS1 l x r, fun v => .loopStride l 1 r v)] : List (Instr × (DWord → Eff))) →
    InSlot s k 0 i → rx (look s k 0 (k % 4)) x = .ok v →
    exec op s = .next (issued s k 0 i (resultsOf s k 0 i (fun e => if e = k % 4 then [{ lat := 1, eff := f v }] else []))))
  ∧ (∀ (s : State) (k j a : Nat) (i : Issue), InSlot s k 0 i →
    exec (.btgt j a) s = .next (issued s k 0 i (resultsOf s k 0 i (fun _ => [{ lat := 1, eff := .bt j (BitVec.ofNat 12 a) }]))))
  ∧ (∀ (s : State) (k d j : Nat) (i : Issue), InSlot s k 0 i →
    exec (.rstkr d j) s = .next (issued s k 0 i (resultsOf s k 0 i (fun _ =>
      let v : DWord := BitVec.ofNat 64 ((sget 0 (s.core k).rstk j).toNat + (s.core k).rdepth * 2 ^ 16)
      [{ lat := 1, eff := .xreg d v }]))))
  ∧ (∀ (s : State) (k x j : Nat) (i : Issue) (v : DWord), InSlot s k 0 i →
    rx (look s k 0 (k % 4)) x = .ok v → (v.getLsbD 62 = true ∨ v.toNat % 4096 ≤ 2048) →
    (v.getLsbD 63 = false ∨ v.toNat / 2 ^ 16 % 32 ≤ 16) →
    exec (.rstkw x j) s = .next (issued s k 0 i (resultsOf s k 0 i (fun e => if e = k % 4 then [{ lat := 1, eff := .rstk j v }] else []))))
  ∧ (∀ (s : State) (k e j : Nat) (v : DWord), k < 64 → e < 4 → ((s.rstkApply (unitOf k e) j v).core k) =
      { s.core k with
        rstk := if v.getLsbD 62 then (s.core k).rstk else sset 0 (s.core k).rstk j (v.setWidth 12)
        rdepth := if v.getLsbD 63 then v.toNat / 2 ^ 16 % 32 else (s.core k).rdepth })

/-- The control words: what each leaves on its bundle, and the return from a handler. -/
def Obligations.ControlWords : Prop :=
  (∀ (s : State) (k : Nat) (i : Issue) (op : Instr) (f : Issue → Issue),
    (op, f) ∈ ([(.halt, fun i => { i with action := .halt }), (.kend, fun i => { i with action := .kend })] : List (Instr × (Issue → Issue))) →
    InSlot s k 0 i → exec op s = .next (issuedBy s k 0 i [] f))
  ∧ (∀ (s : State) (k : Nat) (i : Issue), InSlot s k 0 i →
    (s.core k).active.sec + 1 < (s.core k).secs.length → exec .plsw s = .next (issuedBy s k 0 i [] (fun i => { i with action := .swap })))
  ∧ (∀ (s : State) (k a : Nat) (i : Issue), InSlot s k 0 i → (s.core k).rdepth < 16 →
    exec (.call a) s = .next (issuedBy s k 0 i [] (fun i => { i with action := .call, next := a })))
  ∧ (∀ (s : State) (k : Nat) (i : Issue), InSlot s k 0 i → 0 < (s.core k).rdepth →
    exec .ret s = .next (issuedBy s k 0 i [] (fun i => { i with action := .ret })))
  ∧ (∀ (s : State) (k c n : Nat) (i : Issue), InSlot s k 0 i →
    exec (.trap c n) s = .next (issuedBy s k 0 i [] (fun j => { j with post := some (c, n, true, i.dies 0) })))
  ∧ (∀ (s : State) (k n : Nat) (i : Issue), InSlot s k 0 i →
    exec (.brk n) s = .next (issuedBy s k 0 i [] (fun j => { j with post := some (12, n, false, i.dies 0) })))
  ∧ (∀ (s : State) (k : Nat), InHandler s k → (s.core k).stepPending = false →
    ∃ t, exec .eret s = .next t ∧ (t.core k).handler = none ∧ (t.core k).st = .running
      ∧ (t.core k).pc = (s.core k).trapPc.toNat ∧ (t.core k).bn = (s.core k).bn ∧ t.tiles = s.tiles ∧ t.mem = s.mem)

/-- R207 to R210: the float operations, with what R193 says of disabled lanes and flags. -/
def Obligations.FloatLaneOperations : Prop :=
  (∀ (s : State) (k d a b lat : Nat) (u : VUnit) (i : Issue) (op : Instr) (fn : FFmt → Nat → Nat → Fl)
      (F : Nat → FFmt) (A B : Nat → Src) (ps : Nat → List Post),
    (op, lat, fn) ∈ ([(.fadd u d a b, 4, fadd), (.fsub u d a b, 4, fsub), (.fmul u d a b, 4, fmul),
      (.fmin u d a b, 2, fun f => fminmax f false), (.fmax u d a b, 2, fun f => fminmax f true)]
        : List (Instr × Nat × (FFmt → Nat → Nat → Fl))) →
    InSlot s k (vslot u) i →
    (∀ e ∈ i.dies (vslot u),
      let c := look s k (vslot u) e
      let m := curMask c
      let r := laneMap (F e).tag m (fun j => onElems (F e) (fun x y _ => fn (F e) x y) ((A e).v.lane j) ((B e).v.lane j) 0)
      readFloat c a (enabled m) = .ok (F e, A e) ∧ readAs c b (F e).tag (enabled m) = .ok (B e)
        ∧ dstPosts c d lat r.1 m (r.2 ||| (A e).fl ||| (B e).fl) = .ok (ps e)) →
    exec op s = .next (issued s k (vslot u) i (resultsOf s k (vslot u) i (fun e => ps e ++ (A e).posts ++ (B e).posts))))
  ∧ (∀ (s : State) (k d a b cc sl : Nat) (u : VUnit) (i : Issue) (op : Instr) (np nc : Bool)
      (F : Nat → FFmt) (A B C : Nat → Src) (ps : Nat → List Post),
    (op, sl, np, nc) ∈ ([(.fma u d a b cc, vslot u, false, false), (.fms d a b cc, 2, false, true), (.fnma d a b cc, 2, true, false)]
        : List (Instr × Nat × Bool × Bool)) →
    InSlot s k sl i →
    (∀ e ∈ i.dies sl,
      let c := look s k sl e
      let m := curMask c
      let r := laneMap (F e).tag m (fun j => onElems (F e) (fun x y z => ffma (F e) np nc x y z)
        ((A e).v.lane j) ((B e).v.lane j) ((C e).v.lane j))
      readFloat c a (enabled m) = .ok (F e, A e) ∧ readAs c b (F e).tag (enabled m) = .ok (B e)
        ∧ readAs c (cSel cc) (F e).tag (enabled m) = .ok (C e)
        ∧ dstPosts c d 4 r.1 m (r.2 ||| (A e).fl ||| (B e).fl ||| (C e).fl) = .ok (ps e)) →
    exec op s = .next (issued s k sl i (resultsOf s k sl i (fun e => ps e ++ (A e).posts ++ (B e).posts ++ (C e).posts))))
  ∧ (∀ (s : State) (k d a fn : Nat) (u : VUnit) (i : Issue) (F : Nat → FFmt) (A : Nat → Src) (ps : Nat → List Post),
    InSlot s k (vslot u) i →
    (∀ e ∈ i.dies (vslot u),
      let c := look s k (vslot u) e
      let m := curMask c
      let r := laneMap (F e).tag m (fun j => onElems (F e) (fun x _ _ => funa (F e) fn x) ((A e).v.lane j) 0 0)
      readFloat c a (enabled m) = .ok (F e, A e) ∧ dstPosts c d 2 r.1 m (r.2 ||| (A e).fl) = .ok (ps e)) →
    exec (.funa u d a fn) s = .next (issued s k (vslot u) i (resultsOf s k (vslot u) i (fun e => ps e ++ (A e).posts))))
  ∧ (∀ (t : Tag) (m : Mask) (f : Nat → Fl) (j : Nat), j < 128 →
      (laneMap t m f).1.lane j = if m.getLsbD j then (f j).1 % 2 ^ 32 else 0)
  ∧ (∀ (t : Tag) (m : Mask) (f : Nat → Fl) (b : Nat),
      (laneMap t m f).2.getLsbD b = true ↔ ∃ j < 128, m.getLsbD j = true ∧ (f j).2.getLsbD b = true)

/-- R211: the integer lane operations as 32-bit arithmetic. -/
def Obligations.IntegerLaneOperations : Prop :=
  ∀ (s : State) (k d a b lat sl : Nat) (u : VUnit) (i : Issue) (op : Instr) (fn : Word → Word → Word) (A B : Nat → Src)
      (v : Nat → Vec) (ps : Nat → List Post),
    (op, sl, lat, fn) ∈ ([(.iadd u d a b, vslot u, 1, fun x y => x + y), (.isub d a b, 2, 1, fun x y => x - y),
      (.imul d a b, 2, 3, fun x y => x * y), (.iand d a b, 2, 1, fun x y => x &&& y), (.ior d a b, 2, 1, fun x y => x ||| y),
      (.ixor d a b, 2, 1, fun x y => x ^^^ y), (.ishl d a b, 2, 1, fun x y => x <<< (y.toNat % 32)),
      (.ishr d a b, 2, 1, fun x y => x >>> (y.toNat % 32)), (.isra d a b, 2, 1, fun x y => x.sshiftRight (y.toNat % 32)),
      (.imin d a b, 2, 1, fun x y => if x.toInt ≤ y.toInt then x else y),
      (.imax d a b, 2, 1, fun x y => if x.toInt ≥ y.toInt then x else y)] : List (Instr × Nat × Nat × (Word → Word → Word))) →
    InSlot s k sl i →
    (∀ e ∈ i.dies sl,
      let c := look s k sl e
      let m := curMask c
      readAs c a .i32 (enabled m) = .ok (A e) ∧ readAs c b .i32 (enabled m) = .ok (B e)
        ∧ v e = Vec.mk' .i32 (fun j => if m.getLsbD j
            then (fn (BitVec.ofNat 32 ((A e).v.lane j)) (BitVec.ofNat 32 ((B e).v.lane j))).toNat else 0)
        ∧ dstPosts c d lat (v e) m ((A e).fl ||| (B e).fl) = .ok (ps e)) →
    exec op s = .next (issued s k sl i (resultsOf s k sl i (fun e => ps e ++ (A e).posts ++ (B e).posts)))

/-- R194 and R212 to R216: compares, masks, selection, moves and conversions. -/
def Obligations.CompareAndSelectOperations : Prop :=
  (∀ (s : State) (k d a b cc : Nat) (u : VUnit) (i : Issue) (A B : Nat → Src), InSlot s k (vslot u) i →
    (∀ e ∈ i.dies (vslot u), let c := look s k (vslot u) e
      readAs c a .fp32 (enabled (curMask c)) = .ok (A e) ∧ readAs c b .fp32 (enabled (curMask c)) = .ok (B e)) →
    ∃ M : Nat → Mask,
      exec (.fcmp u d a b cc) s = .next (issued s k (vslot u) i (resultsOf s k (vslot u) i (fun e =>
        let m := curMask (look s k (vslot u) e)
        [{ lat := 2, eff := .mask d (M e), fl := (List.range 128).foldl (fun f j =>
            if enabled m j then f ||| (fcmpCC cc ((A e).v.lane j) ((B e).v.lane j)).2 else f) 0 ||| (A e).fl ||| (B e).fl }] ++ (A e).posts ++ (B e).posts)))
      ∧ ∀ e ∈ i.dies (vslot u), ∀ j < 128, (M e).getLsbD j =
          ((curMask (look s k (vslot u) e)).getLsbD j && (fcmpCC cc ((A e).v.lane j) ((B e).v.lane j)).1))
  ∧ (∀ (s : State) (k d a b cc : Nat) (u : VUnit) (i : Issue) (A B : Nat → Src), cc < 6 → InSlot s k (vslot u) i →
    (∀ e ∈ i.dies (vslot u), let c := look s k (vslot u) e
      readAs c a .i32 (enabled (curMask c)) = .ok (A e) ∧ readAs c b .i32 (enabled (curMask c)) = .ok (B e)) →
    ∃ M : Nat → Mask,
      exec (.icmp u d a b cc) s = .next (issued s k (vslot u) i (resultsOf s k (vslot u) i (fun e =>
        [{ lat := 2, eff := .mask d (M e), fl := (A e).fl ||| (B e).fl }] ++ (A e).posts ++ (B e).posts)))
      ∧ ∀ e ∈ i.dies (vslot u), ∀ j < 128,
          let x : Word := BitVec.ofNat 32 ((A e).v.lane j)
          let y : Word := BitVec.ofNat 32 ((B e).v.lane j)
          (M e).getLsbD j = ((curMask (look s k (vslot u) e)).getLsbD j
            && nth false [x == y, x != y, x.slt y, y.sle x, x.ult y, y.ule x] cc))
  ∧ (∀ (s : State) (k d a b o : Nat) (i : Issue), o < 7 → InSlot s k 2 i →
    exec (.klog d a b o) s = .next (issued s k 2 i (resultsOf s k 2 i (fun e =>
      let x := ((look s k 2 e).t).getK a
      let y := ((look s k 2 e).t).getK b
      let m := nth 0 [x &&& y, x ||| y, x ^^^ y, x &&& ~~~y, x ||| ~~~y, ~~~(x &&& y), ~~~(x ||| y)] o
      [{ lat := 1, eff := .mask d m }]))))
  ∧ (∀ (s : State) (k v a : Nat) (i : Issue), InSlot s k 1 i →
    exec (.ksel v a) s = .next (issued s k 1 i (resultsOf s k 1 i (fun _ => [{ lat := 1, eff := .ksel (v = 1) a }]))))
  ∧ (∀ (s : State) (k d a b q : Nat) (u : VUnit) (i : Issue) (A B : Nat → Src) (ps : Nat → List Post), InSlot s k (vslot u) i →
    (∀ e ∈ i.dies (vslot u), let c := look s k (vslot u) e
      readNonEmpty c a = .ok (A e) ∧ readExact c b (A e).v.tag = .ok (B e)
        ∧ dstPosts c d 1 (Vec.mk' (A e).v.tag (fun j => if (c.t.getK q).getLsbD j then (A e).v.lane j else (B e).v.lane j))
            (curMask c) = .ok (ps e)) →
    exec (.vsel u d a b q) s = .next (issued s k (vslot u) i (resultsOf s k (vslot u) i (fun e => ps e ++ (A e).posts ++ (B e).posts))))
  ∧ (∀ (s : State) (k d a : Nat) (u : VUnit) (i : Issue) (A : Nat → Vec × List Post) (ps : Nat → List Post), InSlot s k (vslot u) i →
    (∀ e ∈ i.dies (vslot u), let c := look s k (vslot u) e
      readSel c a = .ok (A e) ∧ dstPosts c d 1 (A e).1 (curMask c) = .ok (ps e)) →
    exec (.vmov u d a) s = .next (issued s k (vslot u) i (resultsOf s k (vslot u) i (fun e => ps e ++ (A e).2))))
  ∧ (∀ (s : State) (k d m : Nat) (i : Issue) (kind : Nat) (ps : Nat → List Post), InSlot s k 2 i → kind < 2 →
    (∀ e ∈ i.dies 2, let c := look s k 2 e
      dstPosts c d 1 (if kind = 0 then Vec.mk' .i32 (fun _ => (BitVec.ofInt 32 (sextNat m 16)).toNat)
        else Vec.mk' .fp32 (fun _ => m * 2 ^ 16)) (curMask c) = .ok (ps e)) →
    exec (.vimm d kind m) s = .next (issued s k 2 i (resultsOf s k 2 i ps)))
  ∧ (∀ (s : State) (k d a j : Nat) (i : Issue) (A : Nat → Vec × List Post) (ps : Nat → List Post), InSlot s k 2 i →
    (∀ e ∈ i.dies 2, let c := look s k 2 e
      readSel c a = .ok (A e) ∧ dstPosts c d 2 (Vec.mk' (A e).1.tag (fun _ => (A e).1.lane j)) (curMask c) = .ok (ps e)) →
    exec (.vlane d a j) s = .next (issued s k 2 i (resultsOf s k 2 i (fun e => ps e ++ (A e).2))))
  ∧ (∀ (s : State) (k d a b kind md : Nat) (u : VUnit) (i : Issue) (src dst : Tag) (fn : RMode → Nat → Fl) (A : Nat → Src)
      (ps : Nat → List Post),
    (kind, src, dst, fn) ∈ ([(0, .fp32, .i32, f2i), (1, .i32, .fp32, i2f), (3, .bf16, .fp32, fun _ x => bf2f (x % 2 ^ 16)),
      (4, .bf16, .fp32, fun _ x => bf2f (x / 2 ^ 16))] : List (Nat × Tag × Tag × (RMode → Nat → Fl))) →
    InSlot s k (vslot u) i →
    (∀ e ∈ i.dies (vslot u),
      let c := look s k (vslot u) e
      let r := laneMap dst (curMask c) (fun j => fn (RMode.ofCode md) ((A e).v.lane j))
      readAs c a src (enabled (curMask c)) = .ok (A e) ∧ (A e).fl = 0 ∧ dstPosts c d 3 r.1 (curMask c) r.2 = .ok (ps e)) →
    exec (.cvt u d a b kind md) s = .next (issued s k (vslot u) i (resultsOf s k (vslot u) i (fun e => ps e ++ (A e).posts))))
  ∧ (∀ (s : State) (k d a b md : Nat) (u : VUnit) (i : Issue) (A B : Nat → Src) (ps : Nat → List Post), InSlot s k (vslot u) i →
    (∀ e ∈ i.dies (vslot u),
      let c := look s k (vslot u) e
      let r := laneMap .bf16 (curMask c) (fun j =>
        let lo := f2bf (RMode.ofCode md) ((A e).v.lane j)
        let hi := f2bf (RMode.ofCode md) ((B e).v.lane j)
        (lo.1 + 2 ^ 16 * hi.1, lo.2 ||| hi.2))
      readAs c a .fp32 (enabled (curMask c)) = .ok (A e) ∧ readAs c b .fp32 (enabled (curMask c)) = .ok (B e)
        ∧ dstPosts c d 3 r.1 (curMask c) (r.2 ||| (A e).fl ||| (B e).fl) = .ok (ps e)) →
    exec (.cvt u d a b 2 md) s = .next (issued s k (vslot u) i (resultsOf s k (vslot u) i (fun e => ps e ++ (A e).posts ++ (B e).posts))))
  ∧ (∀ cc x y : Nat, cc < 8 → let sn : Bool := (dec32 x).isSnan || (dec32 y).isSnan
    ((nan32 x || nan32 y) = true → fcmpCC cc x y = (decide (cc = 1 ∨ cc = 6), if sn || decide (2 ≤ cc ∧ cc ≤ 5) then flIV else 0))
    ∧ ((nan32 x || nan32 y) = false → (fcmpCC cc x y).2 = 0))

/-- R217 with the writes of walker, shape and park registers. -/
def Obligations.ScratchpadOperations : Prop :=
  (∀ (s : State) (k d x off : Nat) (i : Issue) (v : Nat → DWord) (a : Nat → Nat) (ps : Nat → List Post), InSlot s k 2 i →
    (∀ e ∈ i.dies 2, let c := look s k 2 e
      rx c x = .ok (v e) ∧ (a e : Int) = ((v e).toNat : Int) + sextNat off 12 * 512 ∧ a e + 512 ≤ 2 ^ 22 ∧ 512 ∣ a e
        ∧ BanksOpen c c.u (a e) 512
        ∧ dstPosts c d 6 (vecOfBytes (nth .empty [.fp32, .bf16, .i32] c.t.ldt) (c.t.spadBytes (a e) 512)) (curMask c) = .ok (ps e)) →
    exec (.vld d x off) s = .next (issued s k 2 i (resultsOf s k 2 i ps)))
  ∧ (∀ (s : State) (k b x off : Nat) (i : Issue) (v : Nat → DWord) (a : Nat → Nat) (B : Nat → Vec × List Post), InSlot s k 2 i →
    (∀ e ∈ i.dies 2, let c := look s k 2 e
      rx c x = .ok (v e) ∧ (a e : Int) = ((v e).toNat : Int) + sextNat off 12 * 512 ∧ a e + 512 ≤ 2 ^ 22 ∧ 512 ∣ a e
        ∧ BanksOpen c c.u (a e) 512 ∧ readSel c b = .ok (B e)) →
    ∃ cells : Nat → List (Nat × Byte),
      exec (.vst b x off) s = .next (issued s k 2 i (resultsOf s k 2 i (fun e => { lat := 1, eff := .spad (cells e) } :: (B e).2)))
      ∧ ∀ e ∈ i.dies 2, ∀ j y, (j, y) ∈ cells e ↔ ∃ q < 512, j = a e + q ∧ (curMask (look s k 2 e)).getLsbD (q / 4) = true
          ∧ y = BitVec.ofNat 8 ((B e).1.lane (q / 4) / 256 ^ (q % 4)))
  ∧ (∀ (s : State) (e : Entry) (cells : List (Nat × Byte)) (a : Nat), e.eff = .spad cells → e.fl = 0 → e.mx = 0 →
      (∀ x ∈ cells, x.1 ≠ a) → ((landEntry s e).tile e.unit).spadByte a = (s.tile e.unit).spadByte a
        ∧ (landEntry s e).mem = s.mem ∧ (landEntry s e).cores = s.cores)
  ∧ (∀ (s : State) (k v : Nat) (i : Issue) (V : Nat → Vec), v < 40 → InSlot s k 3 i →
    (∀ e ∈ i.dies 3, let c := look s k 3 e
      readSel c v = .ok (V e, []) ∧ (c.t.pool = true → BanksOpen c c.u (c.t.sbase * 512 + 512 * v) 512)) →
    exec (.park v) s = .next (issued s k 3 i (resultsOf s k 3 i (fun e => let t := (look s k 3 e).t
      [{ lat := 2, eff := .park v (V e) t.pool t.abank t.sbase }]))))
  ∧ (∀ (s : State) (k v : Nat) (i : Issue), v < 40 → InSlot s k 3 i →
    (∀ e ∈ i.dies 3, let c := look s k 3 e
      c.t.parked.getLsbD v = true ∧ (c.t.pool = true → BanksOpen c c.u (c.t.sbase * 512 + 512 * v) 512)) →
    exec (.unpark v) s = .next (issued s k 3 i (resultsOf s k 3 i (fun e =>
      [{ lat := 4, eff := .unpark v (parkRow (look s k 3 e).t v) }]))))
  ∧ (∀ (s : State) (k x p f : Nat) (i : Issue) (v : Nat → DWord), InSlot s k 1 i →
    (∀ e ∈ i.dies 1, portHeld (look s k 1 e) p = false ∧ rx (look s k 1 e) x = .ok (v e) ∧ wcfgOk f (v e) = true) →
    exec (.wcfg x p f) s = .next (issued s k 1 i (resultsOf s k 1 i (fun e => [{ lat := 1, eff := .wcfg p f (v e) }]))))
  ∧ (∀ (s : State) (k x g n f : Nat) (i : Issue) (v : Nat → DWord), InSlot s k 1 i → (∀ e ∈ i.dies 1, rx (look s k 1 e) x = .ok (v e)) →
    exec (.shw x g n f) s = .next (issued s k 1 i (resultsOf s k 1 i (fun e => [{ lat := 1, eff := .shw (4 * g + n) f (v e) }]))))
  ∧ (∀ (s : State) (k x d kind : Nat) (i : Issue) (v : Nat → DWord) (ps : Nat → List Post), InSlot s k 1 i → kind < 3 →
    (∀ e ∈ i.dies 1, rx (look s k 1 e) x = .ok (v e) ∧ dstPosts (look s k 1 e) d 1
      (Vec.mk' (nth .empty [.i32, .fp32, .bf16] kind) (fun _ => (v e).toNat % 2 ^ 32)) allOnes = .ok (ps e)) →
    exec (.xbc d x kind) s = .next (issued s k 1 i (resultsOf s k 1 i ps)))

/-- R221 to R224, R228 and R234. -/
def Obligations.SpecialFunctionOperations : Prop :=
  (∀ (s : State) (k d a fn : Nat) (f : SfFn) (i : Issue) (A : Nat → Src) (ps : Nat → List Post), SfFn.ofCode fn = some f → InSlot s k 3 i →
    (∀ e ∈ i.dies 3, let c := look s k 3 e
      let r := laneMap .fp32 (curMask c) (fun j => sfSeed c.t.seed f ((A e).v.lane j))
      readAs c a .fp32 (enabled (curMask c)) = .ok (A e) ∧ dstPosts c d 3 r.1 (curMask c) (r.2 ||| (A e).fl) = .ok (ps e)) →
    exec (.sfseed d a fn) s = .next (issued s k 3 i (resultsOf s k 3 i (fun e => ps e ++ (A e).posts))))
  ∧ (∀ (s : State) (k d a b fn : Nat) (f : SfFn) (i : Issue) (A B : Nat → Src) (ps : Nat → List Post), SfFn.ofCode fn = some f → InSlot s k 3 i →
    (∀ e ∈ i.dies 3, let c := look s k 3 e
      let r := laneMap .fp32 (curMask c) (fun j => sfStep c.t.seed f ((A e).v.lane j) ((B e).v.lane j))
      readAs c a .fp32 (enabled (curMask c)) = .ok (A e) ∧ readAs c b .fp32 (enabled (curMask c)) = .ok (B e)
        ∧ dstPosts c d 4 r.1 (curMask c) (r.2 ||| (A e).fl ||| (B e).fl) = .ok (ps e)) →
    exec (.sfstep d a b fn) s = .next (issued s k 3 i (resultsOf s k 3 i (fun e => ps e ++ (A e).posts ++ (B e).posts))))
  ∧ (∀ (s : State) (k x fn len : Nat) (i : Issue) (v : Nat → DWord), len = (if fn = 5 then 1024 else 512) → InSlot s k 3 i →
    (∀ e ∈ i.dies 3, let c := look s k 3 e
      rx c x = .ok (v e) ∧ (v e).toNat + len ≤ 2 ^ 22 ∧ 512 ∣ (v e).toNat ∧ BanksOpen c c.u (v e).toNat len) →
    exec (.sftld x fn) s = .next (issued s k 3 i (resultsOf s k 3 i (fun e =>
      [{ lat := 16, eff := .seedTab fn ((look s k 3 e).t.spadBytes (v e).toNat len) }]))))
  ∧ (∀ (s : State) (k d a b : Nat) (i : Issue) (A B : Nat → Src) (ps : Nat → List Post), InSlot s k 3 i →
    (∀ e ∈ i.dies 3, let c := look s k 3 e
      let r := laneMap .fp32 (curMask c) (fun j => fmul .fp32 ((A e).v.lane j) ((B e).v.lane 2))
      readAs c a .fp32 (enabled (curMask c)) = .ok (A e) ∧ readAs c b .fp32 (fun j => decide (j = 2)) = .ok (B e)
        ∧ dstPosts c d 4 r.1 (curMask c) (r.2 ||| (A e).fl ||| (B e).fl) = .ok (ps e)) →
    exec (.smxfix d a b) s = .next (issued s k 3 i (resultsOf s k 3 i (fun e => ps e ++ (A e).posts ++ (B e).posts))))
  ∧ (∀ (s : State) (k d a b : Nat) (i : Issue) (F : Nat → FFmt) (A B : Nat → Src) (ps : Nat → List Post), InSlot s k 3 i →
    (∀ e ∈ i.dies 3, let c := look s k 3 e
      let r := laneMap (F e).tag (curMask c) (fun j =>
        onElems (F e) (fun y _ _ => sclElem (F e) y (max (-300) (min 300 (sextNat ((B e).v.lane j) 32)))) ((A e).v.lane j) 0 0)
      readFloat c a (enabled (curMask c)) = .ok (F e, A e) ∧ readAs c b .i32 (enabled (curMask c)) = .ok (B e)
        ∧ dstPosts c d 2 r.1 (curMask c) (r.2 ||| (A e).fl ||| (B e).fl) = .ok (ps e)) →
    exec (.vscl d a b) s = .next (issued s k 3 i (resultsOf s k 3 i (fun e => ps e ++ (A e).posts ++ (B e).posts))))

/-- R220 and R225 to R227: rows. -/
def Obligations.RowOperations : Prop :=
  (∀ (s : State) (k d a : Nat) (i : Issue) (op : Instr) (node : Nat → Nat → Fl) (z0 : Nat) (A : Nat → Src) (ps : Nat → List Post),
    (op, node, z0) ∈ ([(.rowsum d a, add32, 0), (.rowmax d a, maxNode, 0xFF800000)] : List (Instr × (Nat → Nat → Fl) × Nat)) →
    InSlot s k 3 i →
    (∀ e ∈ i.dies 3, let c := look s k 3 e
      let r := rowTree node ((List.range 128).map (fun j => if (curMask c).getLsbD j then some ((A e).v.lane j) else none))
      let x := match r.1 with
        | some y => canon32 y
        | none => z0
      readAs c a .fp32 (enabled (curMask c)) = .ok (A e)
        ∧ dstPosts c d 6 (Vec.mk' .fp32 (fun j => if enabled (curMask c) j then x else 0)) (curMask c)
            (r.2 ||| snanFlag (curMask c) (A e).v ||| (A e).fl) = .ok (ps e)) →
    exec op s = .next (issued s k 3 i (resultsOf s k 3 i (fun e => ps e ++ (A e).posts))))
  ∧ (∀ (s : State) (k d a b : Nat) (i : Issue) (A : Nat → Src) (ps : Nat → List Post), InSlot s k 3 i →
    (∀ e ∈ i.dies 3, let c := look s k 3 e
      let m := curMask c
      let st : List Wf := (List.range 128).map (fun j => if m.getLsbD j then { n := 1, mean := (A e).v.lane j, m2 := 0 } else { n := 0, mean := 0, m2 := 0 })
      let tree := treeFold welfordMerge 7 st
      let q := nth { n := 0, mean := 0, m2 := 0 } tree.1 0
      let r := rowStat st
      let stat : Nat → Nat := fun j => nth 0 [canon32 r.1, canon32 r.2.1, ofInt32 ((List.range 128).filter (fun j => m.getLsbD j)).length, canon32 q.m2] j
      readAs c a .fp32 (enabled m) = .ok (A e)
        ∧ dstPosts c d 8 (Vec.mk' .fp32 (fun j => if m.getLsbD j ∧ j < 4 then stat j else 0)) m
            (tree.2 ||| r.2.2.2 ||| snanFlag m (A e).v ||| (A e).fl) = .ok (ps e)) →
    exec (.rowstat d a b 0) s = .next (issued s k 3 i (resultsOf s k 3 i (fun e => ps e ++ (A e).posts))))
  ∧ (∀ (s : State) (k d a b : Nat) (i : Issue) (A B : Nat → Src) (na nb : Nat → Nat) (ps : Nat → List Post), InSlot s k 3 i →
    (∀ e ∈ i.dies 3, let c := look s k 3 e
      let m := curMask c
      let w := welfordMerge { n := na e, mean := (A e).v.lane 0, m2 := (A e).v.lane 3 } { n := nb e, mean := (B e).v.lane 0, m2 := (B e).v.lane 3 }
      let q : Fl := if w.1.n = 0 then (0, 0) else divInt32 w.1.m2 w.1.n
      let sn : Nat → Flags := fun x => if (dec32 x).isSnan then flIV else 0
      let stat : Nat → Nat := fun j => nth 0 [canon32 w.1.mean, canon32 q.1, ofInt32 w.1.n, canon32 w.1.m2] j
      let used : Nat → Bool := fun j => decide (j = 0 ∨ j = 2 ∨ j = 3)
      readAs c a .fp32 used = .ok (A e) ∧ readAs c b .fp32 used = .ok (B e)
        ∧ countOf ((A e).v.lane 2) = some (na e) ∧ countOf ((B e).v.lane 2) = some (nb e)
        ∧ dstPosts c d 8 (Vec.mk' .fp32 (fun j => if m.getLsbD j ∧ j < 4 then stat j else 0)) m
            (w.2 ||| q.2 ||| sn w.1.mean ||| sn w.1.m2 ||| (A e).fl ||| (B e).fl) = .ok (ps e)) →
    exec (.rowstat d a b 1) s = .next (issued s k 3 i (resultsOf s k 3 i (fun e => ps e ++ (A e).posts ++ (B e).posts))))
  ∧ (∀ (s : State) (k d a b : Nat) (i : Issue) (A B : Nat → Src) (ps : Nat → List Post), InSlot s k 3 i →
    (∀ e ∈ i.dies 3, let c := look s k 3 e
      let m := curMask c
      let used : Nat → Bool := fun j => decide (j = 0 ∨ j = 2 ∨ j = 3)
      readAs c a .fp32 used = .ok (A e) ∧ readAs c b .fp32 used = .ok (B e)
        ∧ (countOf ((A e).v.lane 2) = none ∨ countOf ((B e).v.lane 2) = none)
        ∧ dstPosts c d 8 (Vec.mk' .fp32 (fun j => if enabled m j ∧ j < 4 then 0x7FC00000 else 0)) m (flIV ||| (A e).fl ||| (B e).fl) = .ok (ps e)) →
    exec (.rowstat d a b 1) s = .next (issued s k 3 i (resultsOf s k 3 i (fun e => ps e ++ (A e).posts ++ (B e).posts))))
  ∧ (∀ (s : State) (k d a b fn : Nat) (i : Issue) (A B : Nat → Src) (ps : Nat → List Post), fn < 4 → InSlot s k 3 i →
    (∀ e ∈ i.dies 3, let c := look s k 3 e
      let m := curMask c
      let mOld := if fn < 2 then (B e).v.lane 0 else 0xFF800000
      let sOld := if fn < 2 then (B e).v.lane 1 else 0
      let r := smxPresent c.t.seed mOld sOld m (A e).v
      let nan : Bool := nan32 r.1
      let lanes : Nat → Nat := fun j => if fn % 2 = 1 then (if nan then 0x7FC00000 else r.2.2.2.1 j)
        else nth 0 [r.1, if nan then 0x7FC00000 else r.2.1, if nan then 0x7FC00000 else r.2.2.1] j
      readAs c a .fp32 (enabled m) = .ok (A e)
        ∧ (if fn < 2 then readAs c b .fp32 (fun j => decide (j < 2)) = .ok (B e) else (B e).posts = [] ∧ (B e).fl = 0)
        ∧ dstPosts c d 8 (Vec.mk' .fp32 (fun j => if m.getLsbD j then lanes j else 0)) m (r.2.2.2.2 ||| (A e).fl ||| (B e).fl) = .ok (ps e)) →
    exec (.smxup d a b fn) s = .next (issued s k 3 i (resultsOf s k 3 i (fun e => ps e ++ (A e).posts ++ (B e).posts))))

/-- R229 to R233: lane movement, running and whole-row reductions, top-k. -/
def Obligations.LaneMovementOperations : Prop :=
  (∀ (s : State) (k d a b : Nat) (i : Issue) (A B : Nat → Src) (ps : Nat → List Post), InSlot s k 3 i →
    (∀ e ∈ i.dies 3, let c := look s k 3 e
      readNonEmpty c a = .ok (A e) ∧ readAs c b .i32 (enabled (curMask c)) = .ok (B e)
        ∧ dstPosts c d 3 (Vec.mk' (A e).v.tag (fun j => (A e).v.lane ((B e).v.lane j % 128))) (curMask c) (B e).fl = .ok (ps e)) →
    exec (.vperm d a b) s = .next (issued s k 3 i (resultsOf s k 3 i (fun e => ps e ++ (A e).posts ++ (B e).posts))))
  ∧ (∀ (s : State) (k d a b fn : Nat) (i : Issue) (A B : Nat → Src) (v : Nat → Vec) (ps : Nat → List Post), fn < 5 → InSlot s k 3 i →
    (∀ e ∈ i.dies 3, let c := look s k 3 e
      let x := fun j => (A e).v.lane j
      let y := fun j => (B e).v.lane j
      readNonEmpty c a = .ok (A e) ∧ readExact c b (A e).v.tag = .ok (B e)
        ∧ v e = Vec.mk' (A e).v.tag (fun j => nth 0
            [if j % 2 = 0 then x (j / 2) else y (j / 2), if j % 2 = 0 then x (64 + j / 2) else y (64 + j / 2),
             if j < 64 then x (2 * j) else y (2 * j - 128), if j < 64 then x (2 * j + 1) else y (2 * j - 127),
             if j < 64 then x j else y (j - 64)] fn)
        ∧ dstPosts c d 3 (v e) (curMask c) = .ok (ps e)) →
    exec (.vshuf d a b fn) s = .next (issued s k 3 i (resultsOf s k 3 i (fun e => ps e ++ (A e).posts ++ (B e).posts))))
  ∧ (∀ (s : State) (k d a b q : Nat) (i : Issue) (A : Nat → Src) (ps : Nat → List Post), q < 7 → InSlot s k 3 i →
    (∀ e ∈ i.dies 3, let c := look s k 3 e
      readNonEmpty c a = .ok (A e)
        ∧ dstPosts c d 3 (Vec.mk' (A e).v.tag (fun j => (A e).v.lane (j ^^^ 2 ^ q))) (curMask c) = .ok (ps e)) →
    exec (.vshuf d a b (8 + q)) s = .next (issued s k 3 i (resultsOf s k 3 i (fun e => ps e ++ (A e).posts))))
  ∧ (∀ (s : State) (k d a fn : Nat) (i : Issue) (A : Nat → Src) (ps : Nat → List Post), fn < 5 → InSlot s k 3 i →
    (∀ e ∈ i.dies 3, let c := look s k 3 e
      let t : Tag := if fn ≤ 1 then .fp32 else .i32
      let r := vpfxFrom fn (curMask c) (A e).v (List.range 128) none 0
      readAs c a t (enabled (curMask c)) = .ok (A e)
        ∧ dstPosts c d 5 (Vec.mk' t (fun j => sget 0 r.1 j)) (curMask c) (r.2 ||| (A e).fl) = .ok (ps e)) →
    exec (.vpfx d a fn) s = .next (issued s k 3 i (resultsOf s k 3 i (fun e => ps e ++ (A e).posts))))
  ∧ (∀ (m : Mask) (v : Vec) (j : Nat), j < 128 →
      (m.getLsbD j = true → sget 0 (vpfxFrom 2 m v (List.range 128) none 0).1 j
          = (((List.range 128).filter (fun l => m.getLsbD l && decide (l ≤ j))).map (fun l => v.lane l)).sum % 2 ^ 32)
      ∧ (m.getLsbD j = true → sget 0 (vpfxFrom 4 m v (List.range 128) none 0).1 j
          = (((List.range 128).filter (fun l => m.getLsbD l && decide (l < j))).map (fun l => v.lane l)).sum % 2 ^ 32)
      ∧ (m.getLsbD j = false → ∀ fn, sget 0 (vpfxFrom fn m v (List.range 128) none 0).1 j = 0))
  ∧ (∀ (s : State) (k d a fn : Nat) (i : Issue) (A : Nat → Src) (ps : Nat → List Post), fn < 9 → InSlot s k 3 i →
    (∀ e ∈ i.dies 3, let c := look s k 3 e
      let r := vredValue fn (curMask c) (A e).v
      readAs c a (if fn ≤ 2 ∨ fn = 8 then .fp32 else .i32) (enabled (curMask c)) = .ok (A e)
        ∧ dstPosts c d 6 (Vec.mk' (if fn ≤ 2 then .fp32 else .i32) (fun j => if j = 0 then r.1 else 0)) (curMask c) (r.2 ||| (A e).fl) = .ok (ps e)) →
    exec (.vred d a fn) s = .next (issued s k 3 i (resultsOf s k 3 i (fun e => ps e ++ (A e).posts))))
  ∧ (∀ (m : Mask) (v : Vec), (vredValue 3 m v).1
      = (((List.range 128).filter (fun l => m.getLsbD l)).map (fun l => v.lane l)).sum % 2 ^ 32)
  ∧ (∀ (s : State) (k d a b fn : Nat) (i : Issue) (A B : Nat → Src) (best : Nat → List (Nat × Nat × Nat)) (ps : Nat → List Post),
    fn < 32 → InSlot s k 3 i →
    (∀ e ∈ i.dies 3, let c := look s k 3 e
      best e = (rankSort ((List.range 128).filterMap (fun j =>
        if enabled (curMask c) j then some ((A e).v.lane j, (B e).v.lane j, j) else none))).take (fn % 16 + 1)
        ∧ readAs c a .fp32 (enabled (curMask c)) = .ok (A e) ∧ readAs c b .i32 (enabled (curMask c)) = .ok (B e)
        ∧ dstPosts c d 8 (if 16 ≤ fn then Vec.mk' .i32 (fun j => ((best e).map (fun q => q.2.1)).getD j 0xFFFFFFFF)
            else Vec.mk' .fp32 (fun j => ((best e).map (fun q => q.1)).getD j 0xFF800000)) (curMask c) ((A e).fl ||| (B e).fl) = .ok (ps e)) →
    exec (.topkp d a b fn) s = .next (issued s k 3 i (resultsOf s k 3 i (fun e => ps e ++ (A e).posts ++ (B e).posts))))
  ∧ (∀ l : List (Nat × Nat × Nat), (rankSort l).Perm l ∧ (rankSort l).length = l.length
    ∧ ((∀ q ∈ l, q.1 < 2 ^ 32 ∧ q.2.1 < 2 ^ 32) → (rankSort l).Pairwise (fun p q => valueAbove p.1 q.1 = true ∨ (valueAbove q.1 p.1 = false
        ∧ (sextNat p.2.1 32 < sextNat q.2.1 32 ∨ (p.2.1 = q.2.1 ∧ p.2.2 ≤ q.2.2))))))
  ∧ (∀ x y : Nat, (nan32 x = true → valueAbove x y = false) ∧ (nan32 x = false → nan32 y = true → valueAbove x y = true)
    ∧ (nan32 x = false → nan32 y = false → valueAbove x y = lt32 y x))
  ∧ (valueAbove 0x80000000 0 = false ∧ valueAbove 0 0x80000000 = false)

/-- R239 and R246 to R248, and what the accumulator writes leave alone. -/
def Obligations.AccumulatorOperations : Prop :=
  (∀ (s : State) (k a b r h lat : Nat) (i : Issue) (op : Instr) (mk : List Nat → Eff) (A : Nat → Src),
    (op, lat, mk) ∈ ([(.acc a b r h, 4, fun l => .accAdd b r (128 * h) l), (.acwr a b r h, 2, fun l => .accSet b r (128 * h) l)]
      : List (Instr × Nat × (List Nat → Eff))) → InSlot s k 4 i →
    (∀ e ∈ i.dies 4, readAs (look s k 4 e) a .fp32 = .ok (A e)) →
    exec op s = .next (issued s k 4 i (resultsOf s k 4 i (fun e =>
      [{ lat := lat, eff := mk ((List.range 128).map (A e).v.lane), fl := (A e).fl }] ++ (A e).posts))))
  ∧ (∀ (s : State) (k d b r h : Nat) (i : Issue) (op : Instr) (tail : List Post) (ps : Nat → List Post),
    (op, tail) ∈ ([(.acrd d b r h, []), (.drain d b r h 0, []),
      (.drain d b r h 1, [{ lat := 0, eff := .accSet b r (128 * h) (List.replicate 128 0) }])] : List (Instr × List Post)) →
    InSlot s k 4 i →
    (∀ e ∈ i.dies 4, let c := look s k 4 e
      dstPosts c d 4 (Vec.mk' .fp32 (fun j => c.t.accAt b r (128 * h + j))) allOnes = .ok (ps e)) →
    exec op s = .next (issued s k 4 i (resultsOf s k 4 i (fun e => ps e ++ tail))))
  ∧ (∀ (s : State) (k b r n : Nat) (i : Issue), InSlot s k 4 i →
    exec (.mclr b r n) s = .next (issued s k 4 i (resultsOf s k 4 i (fun _ => [{ lat := 1, eff := .accClear b r (n + 1) }]))))
  ∧ (∀ (s : State) (k : Nat) (i : Issue), InSlot s k 4 i →
    exec .axch s = .next (issued s k 4 i (resultsOf s k 4 i (fun _ => [{ lat := 1, eff := .axch }]))))
  ∧ (∀ (s : State) (k x side g : Nat) (i : Issue) (v : Nat → DWord), InSlot s k 1 i → (∀ e ∈ i.dies 1, rx (look s k 1 e) x = .ok (v e)) →
    exec (.mscl x side g) s = .next (issued s k 1 i (resultsOf s k 1 i (fun e =>
      [{ lat := 3, eff := .scalePtr (side = 1) g (v e) true }]))))
  ∧ (∀ (t : Tile) (b r c0 : Nat) (vals : List Nat) (b' r' c : Nat), r < 192 → r' < 192 → c < 256 → c0 + vals.length ≤ 256 →
      (accSetCols t b r c0 vals).accAt b' r' c =
        if b' = b ∧ r' = r ∧ c0 ≤ c ∧ c < c0 + vals.length then vals.getD (c - c0) 0 % 2 ^ 32 else t.accAt b' r' c)
  ∧ (∀ (t : Tile) (b r n b' r' c : Nat), r + n ≤ 192 → r' < 192 → c < 256 →
      (accClearRows t b r n).accAt b' r' c = if b' = b ∧ r ≤ r' ∧ r' < r + n then 0 else t.accAt b' r' c)
  ∧ (∀ t : Tile, t.exchangePlanes.1.liveIs1 = !t.liveIs1 ∧ t.exchangePlanes.1.shadowPlane = {}
      ∧ t.exchangePlanes.1.livePlane = t.shadowPlane.quantise.1 ∧ t.exchangePlanes.1.acc = t.acc)

/-- R244 and R245 with the scale bytes of R238 and the pointer moves of R240. -/
def Obligations.MatrixOperations : Prop :=
  (∀ (s : State) (k a fmt row : Nat) (i : Issue) (v : Nat → List Nat) (ps : Nat → List Post), InSlot s k 4 i →
    (∀ e ∈ i.dies 4, let c := look s k 4 e
      readRow c a fmt = .ok (.float (v e), ps e) ∧ planeFmtMatch c.t.shadowPlane fmt false = true) →
    exec (.push a fmt row) s = .next (issued s k 4 i (resultsOf s k 4 i (fun e => let t := (look s k 4 e).t
      (if t.shadowPlane.isOpen then [{ lat := 0, eff := .planeOpenAs (!t.liveIs1) fmt false }] else [])
        ++ [{ lat := 2, eff := .pushRow (!t.liveIs1) fmt false row [] [] (v e) }] ++ ps e))))
  ∧ (∀ (s : State) (k a fmt row : Nat) (i : Issue) (v : Nat → List Int) (ps : Nat → List Post), InSlot s k 4 i →
    (∀ e ∈ i.dies 4, let c := look s k 4 e
      let p := (sget 0 c.t.sb (a - 40)).toNat + row / 16 * matK fmt
      readRow c a fmt = .ok (.raw (v e), ps e) ∧ planeFmtMatch c.t.shadowPlane fmt true = true
        ∧ p + matK fmt ≤ 2 ^ 22 ∧ BanksOpen c c.u p (matK fmt)) →
    exec (.push a fmt row) s = .next (issued s k 4 i (resultsOf s k 4 i (fun e => let t := (look s k 4 e).t
      let sc := (t.spadBytes ((sget 0 t.sb (a - 40)).toNat + row / 16 * matK fmt) (matK fmt)).map BitVec.toNat
      (if t.shadowPlane.isOpen then [{ lat := 0, eff := .planeOpenAs (!t.liveIs1) fmt true }] else [])
        ++ [{ lat := 2, eff := .pushRow (!t.liveIs1) fmt true row (v e) sc [] }] ++ ps e))))
  ∧ (∀ (s : State) (k a fmt bank row h : Nat) (i : Issue) (v : Nat → List Int) (ps : Nat → List Post), InSlot s k 4 i →
    (∀ e ∈ i.dies 4, let c := look s k 4 e
      let q := (sget 0 c.t.sa (a - 40)).toNat
      readRow c a fmt = .ok (.raw (v e), ps e) ∧ c.t.livePlane.isOpen = false ∧ matB c.t.livePlane.fmt = matB fmt
        ∧ q + matK fmt / 16 ≤ 2 ^ 22 ∧ BanksOpen c c.u q (matK fmt / 16)) →
    exec (.shift a fmt bank row h) s = .next (issued s k 4 i (resultsOf s k 4 i (fun e => let t := (look s k 4 e).t
      let q := sget 0#64 t.sa (a - 40)
      let sc := (t.spadBytes q.toNat (matK fmt / 16)).map BitVec.toNat
      let row' := rawBlocks (v e) sc
      let cols := (List.range (matK fmt)).map (fun j => colProducts (matB fmt) row' (colBlocks t.livePlane fmt j))
      [{ lat := 24, eff := .accProd bank row (128 * h) (cols.map (fun r => r.1)), fl := cols.foldl (fun f r => f ||| r.2.1) 0, mx := cols.foldl (fun m r => m ||| r.2.2) 0 },
        { lat := 1, eff := .scalePtr false (a - 40) (q + BitVec.ofNat 64 (matK fmt / 16)) false }] ++ ps e))))
  ∧ (∀ (s : State) (k a fmt bank row h : Nat) (i : Issue) (v : Nat → List Nat) (ps : Nat → List Post), InSlot s k 4 i →
    (∀ e ∈ i.dies 4, let c := look s k 4 e
      readRow c a fmt = .ok (.float (v e), ps e) ∧ c.t.livePlane.isOpen = false ∧ matB c.t.livePlane.fmt = matB fmt) →
    exec (.shift a fmt bank row h) s = .next (issued s k 4 i (resultsOf s k 4 i (fun e => let t := (look s k 4 e).t
      let quant := (List.range 3).map (fun kb => mxQuantise ((((v e).drop (16 * kb)).take 16).map dec32) 16 true)
      let cols := (List.range (matK fmt)).map (fun j => colProducts (matB fmt) (quant.map (fun r => r.1)) (colBlocks t.livePlane fmt j))
      [{ lat := 24, eff := .accProd bank row (128 * h) (cols.map (fun r => r.1)),
         fl := cols.foldl (fun f r => f ||| r.2.1) (quant.foldl (fun f r => f ||| r.2) 0),
         mx := cols.foldl (fun m r => m ||| r.2.2) (quant.foldl (fun m r => m ||| mxQuantInc r.2) 0) }] ++ ps e))))

/-- R174 to R176: the scalar loads and stores. -/
def Obligations.LoadsAndStores : Prop :=
  (∀ (s : State) (k d x w off size : Nat) (sx : Bool) (i : Issue) (v : Nat → DWord) (pa : Nat → Nat) (nc : Nat → Bool) (ps : Nat → List Post),
    (w, size, sx) ∈ ([(0, 1, false), (1, 2, false), (2, 4, false), (3, 8, false), (4, 1, true), (5, 2, true), (6, 4, true)]
      : List (Nat × Nat × Bool)) → InSlot s k 1 i →
    (∀ e ∈ i.dies 1, rx (look s k 1 e) x = .ok (v e) ∧
      accessCheck (look s k 1 e) (v e + BitVec.ofInt 64 (sextNat off 11)).toNat size size 0 = .ok (pa e, nc e, ps e)) →
    exec (.ld d x w off) s = .next (issued s k 1 i (resultsOf s k 1 i (fun e =>
      { lat := 8, eff := .load d (pa e) size sx (nc e), inter := true, pend := true } :: ps e))))
  ∧ (∀ (s : State) (k b x w off size : Nat) (i : Issue) (v y : Nat → DWord) (pa : Nat → Nat) (nc : Nat → Bool) (ps : Nat → List Post),
    (w, size) ∈ ([(0, 1), (1, 2), (2, 4), (3, 8)] : List (Nat × Nat)) → InSlot s k 1 i →
    (∀ e ∈ i.dies 1, rx (look s k 1 e) x = .ok (v e) ∧ rx (look s k 1 e) b = .ok (y e) ∧
      accessCheck (look s k 1 e) (v e + BitVec.ofInt 64 (sextNat off 11)).toNat size size 1 = .ok (pa e, nc e, ps e)) →
    exec (.st b x w off) s = .next (issued s k 1 i (resultsOf s k 1 i (fun e =>
      { lat := 1, eff := .mem ((List.range size).map (fun j => (pa e + j, (y e).extractLsb' (8 * j) 8))) (nc e), vg := [(v e + BitVec.ofInt 64 (sextNat off 11)).toNat / 65536] } :: ps e))))
  ∧ (∀ (s : State) (e : Entry) (d pa size : Nat) (sx nc : Bool), e.eff = .load d pa size sx nc → size ∈ [1, 2, 4, 8] →
      let n := leNat (s.peek e.unit pa size nc)
      (arriveLoad s e).2 = { e with
        eff := .xreg d (if sx = true ∧ 2 ^ (8 * size - 1) ≤ n then BitVec.ofInt 64 ((n : Int) - 2 ^ (8 * size)) else BitVec.ofNat 64 n)
        pend := false } ∧ (arriveLoad s e).1.cores = s.cores
        ∧ ∀ u, (arriveLoad s e).1.tile u = { s.tile u with rc := ((arriveLoad s e).1.tile u).rc })
  ∧ (∀ (c : OpCtx) (va : Int) (size kind : Nat), (va < 0 ∨ 2 ^ 56 ≤ va) →
      accessCheck c va size size kind = raiseR cACCESS (walkReason kind 3 6) (BitVec.ofInt 64 va).toNat)
  ∧ (∀ (c : OpCtx) (va size kind : Nat), va < 2 ^ 56 → ¬ size ∣ va → accessCheck c va size size kind = raise cMISALIGN va)

/-- R296 and R298: where the bytes of a store lie, and the frame of memory. -/
def Obligations.StoreLanding : Prop :=

  (∀ (s : State) (e : Entry) (cells : List (Nat × Byte)) (nc : Bool) (a : Nat), e.eff = .mem cells nc → e.fl = 0 → e.mx = 0 →
      (sget [] s.l2 (e.unit % 4)).length + cells.length ≤ columnLines →
      (∀ c ∈ cells, c.1 ≠ a) → sget 0 (landEntry s e).mem a = sget 0 s.mem a)
  ∧ (∀ (s : State) (e : Entry) (cells : List (Nat × Byte)) (nc : Bool) (u : Nat), e.eff = .mem cells nc → e.fl = 0 → e.mx = 0 →
      let t := (landEntry s e).tile u
      t = { s.tile u with rc := t.rc, mon := t.mon, wakes := t.wakes } ∧ (landEntry s e).cores = s.cores
        ∧ NotedOnly s (landEntry s e))
  ∧ (∀ (s : State) (e : Entry) (pa : Nat) (bs : List Byte) (nc : Bool) (j : Nat), e.eff = .mem (cellsAt pa bs) nc → e.fl = 0 → e.mx = 0 →
      j < bs.length → (256 ≤ e.unit ∨ nc = true ∨ ∀ c ∈ cellsAt pa bs, s.isAtomic (c.1 / 64) = true ∨ homeDie (c.1 / 64) ≠ e.unit % 4) →
      sget 0 (landEntry s e).mem (pa + j) = bs.getD j 0)
  ∧ (∀ (s : State) (u a : Nat) (b : Byte), u < 256 → s.isAtomic (a / 64) = false → homeDie (a / 64) = u % 4 →
      (sget [] s.l2 (u % 4)).length < columnLines ∨ (s.l2Line (u % 4) (a / 64)).held = true →
      let l := s.l2Line (u % 4) (a / 64)
      let l' := (s.storeByte u false (a, b)).l2Line (u % 4) (a / 64)
      (s.storeByte u false (a, b)).mem = s.mem ∧ (∀ j, sget false l'.dirty j = (decide (j = a % 64) || sget false l.dirty j))
        ∧ ((l.held = false ∨ l.bytes.length = 64) → ∀ j < 64, nth 0 l'.bytes j =
            if j = a % 64 then b else if l.held then nth 0 l.bytes j else sget 0 s.mem (64 * (a / 64) + j)))
  ∧ (∀ (s : State) (u a : Nat) (b : Byte) (nc : Bool), u < 256 → nc = true ∨ s.isAtomic (a / 64) = true ∨ homeDie (a / 64) ≠ u % 4 →
      let t := s.storeByte u nc (a, b)
      t.mem = sset 0 s.mem a b ∧ t.l2 = s.l2 ∧ (t.tile u).rc = sdrop (s.tile u).rc (a / 64)
        ∧ (homeDie (a / 64) ≠ u % 4 → t.aditLine (aditKey (u % 4) (homeDie (a / 64))) (a / 64) = {})
        ∧ (∀ key ln, homeDie (a / 64) = u % 4 ∨ key ≠ aditKey (u % 4) (homeDie (a / 64)) ∨ ln ≠ a / 64 → t.aditLine key ln = s.aditLine key ln))
  ∧ (∀ (s : State) (u a : Nat) (b : Byte) (d ln : Nat), (sget [] s.l2 (u % 4)).length < columnLines ∨ (s.l2Line (u % 4) (a / 64)).held = true →
      (d ≠ u % 4 ∨ ln ≠ a / 64) → (s.storeByte u false (a, b)).l2Line d ln = s.l2Line d ln)
  ∧ (∀ (s : State) (d ln a : Nat), sget false (s.l2Line d ln).dirty (a % 64) = false → sget 0 (s.writeBack d ln).mem a = sget 0 s.mem a)
  ∧ (∀ (s : State) (d ln : Nat), s.roomL2 d ln = s ∨ (columnLines ≤ (sget [] s.l2 d).length
      ∧ ∃ v ∈ (sget [] s.l2 d).map (fun p => p.1), s.roomL2 d ln = (s.flushL2 d v).fresh))
end

