-- ==== Sys2Proof/Laws/Issue.lean ====
section
/-! SUPPORT. How an operation issues, once and for all: in a bundle, in a handler, on a Colt. -/
namespace Sys2Proof.Laws
open Machine

theorem foldl_runs {k slot n : Nat} {ps : Nat → List Post} (f : Ran → Nat → Ran) (dies : List Nat) (r : Ran)
    (h : ∀ r, ∀ d ∈ dies, f r d = { r with entries := r.entries ++ (onePop [] (ps d)).map (fun p => p.entry n slot (unitOf k d)) }) :
    dies.foldl f r = { r with entries := r.entries ++ dies.flatMap (fun d => (onePop [] (ps d)).map (fun p => p.entry n slot (unitOf k d))) } := by
  induction dies generalizing r with
  | nil => simp
  | cons d ds ih =>
    rw [List.foldl_cons, h r d (by simp), ih _ (fun r e he => h r e (List.mem_cons_of_mem _ he))]
    simp

/-- A post that moves no walker stays, and so do the others around it. -/
theorem onePop_cons {p : Post} {ps : List Post} {seen : List Nat} (h : ∀ port c, p.eff ≠ .walkAdv port c) :
    onePop seen (p :: ps) = p :: onePop seen ps := by
  obtain ⟨lat, eff, fl, mx, inter, pend, vg⟩ := p
  cases eff <;> first | rfl | exact absurd rfl (h _ _)
/-- Posts that move no walker are all taken. -/
theorem onePop_id {ps : List Post} {seen : List Nat} (h : ∀ p ∈ ps, ∀ port c, p.eff ≠ .walkAdv port c) : onePop seen ps = ps := by
  induction ps with
  | nil => rfl
  | cons p ps ih => rw [onePop_cons (h p (by simp)), ih (fun q hq => h q (by simp [hq]))]

/-- Every die on which a word issues lets it: its results, die by die. -/
theorem runOn_ok {s : State} {k slot n : Nat} {single : Bool} {op : OpCtx → Res (List Post)} {ps : Nat → List Post} (dies : List Nat)
    (h : ∀ d ∈ dies, op { s := s, u := unitOf k d, slot := slot, n := n, single := single } = .ok (ps d)) :
    runOn s k slot n single op dies = { entries := dies.flatMap (fun d => (onePop [] (ps d)).map (fun p => p.entry n slot (unitOf k d))) } := by
  rw [runOn, foldl_runs (k := k) (slot := slot) (n := n) (ps := ps) _ dies {} (fun r d hd => by simp [h d hd])]
  simp

/-- Nothing outstanding: no destination is pending. -/
theorem destPending_quiet {fl es : List Entry} (h : ∀ e ∈ fl, e.pend = false) : destPending fl es = false := by
  simp only [destPending, List.any_eq_false]
  intro e _
  simp only [Bool.not_eq_true, List.any_eq_false]
  intro f hf
  simp [h f hf]

/-- An operation of a bundle that its operands let issue on every die: its results are staged, and `upd` acts on the bundle. -/
theorem issueWith_bundle {s : State} {k sl : Nat} {i : Issue} {op : OpCtx → Res (List Post)} {ps : Nat → List Post}
    {upd : Upd} {aft aftC : After} (hin : InSlot s k sl i) (h : ∀ d ∈ i.dies sl, op (look s k sl d) = .ok (ps d)) :
    issueWith s sl op upd aft aftC = .next (issuedBy s k sl i (resultsOf s k sl i ps) (upd s k (i.dies sl))) := by
  have hr : runOn s k sl (s.core k).bn false op (i.dies sl) = { entries := resultsOf s k sl i ps } :=
    runOn_ok (i.dies sl) h
  simp [issueWith, hin.turn, hin.normal, hin.issue, hin.branched, hin.slot, hr, destPending_quiet hin.quiet, issuedBy]

/-- The same without a change of the bundle. -/
theorem issueTiles_bundle {s : State} {k sl : Nat} {i : Issue} {op : OpCtx → Res (List Post)} {ps : Nat → List Post}
    (hin : InSlot s k sl i) (h : ∀ d ∈ i.dies sl, op (look s k sl d) = .ok (ps d)) :
    issueTiles s sl op = .next (issued s k sl i (resultsOf s k sl i ps)) := issueWith_bundle hin h

/-- Where only its own core has requests at a tile, none was there before a word's (R286). -/
theorem askedBefore_own {c : OpCtx} {u banks : Nat} {cmd : Bool} (h : ∀ r ∈ (c.s.tile u).waits, r.core = c.k) : askedBefore c u banks cmd = false := by
  simp only [askedBefore, List.any_eq_false]
  intro r hr
  simp [h r ((List.takeWhile_sublist _).mem hr)]
/-- An access of the scratchpad goes on exactly where its banks are open. -/
theorem spadFree_ok {c : OpCtx} {u a len : Nat} (h : BanksOpen c u a len) : spadFree c u a len = .ok () := by
  simp [spadFree, h.1, h.2]
/-- A command of format XC that can issue takes its descriptor. -/
theorem openDesc_ok {c : OpCtx} {node x a : Nat} {d : List Byte} (h : Opens c node x d a) : openDesc c node x = .ok (d, a) := by
  obtain ⟨h1, h2, h3, h4, h5, h6, rfl, h8, h9⟩ := h
  have hv : (BitVec.ofNat 64 a : DWord).toNat = a := by simp; omega
  have hn : nodeFree c node = .ok () := by
    rw [nodeFree, if_neg]
    rintro (h | h)
    · exact h h1
    · obtain ⟨e, he, hb⟩ := List.any_eq_true.1 h
      simp only [Bool.and_eq_true, decide_eq_true_eq] at hb
      simp [h2 e he hb.1] at hb
  have hb : banksFree c (dBANKS (c.t.spadBytes a 32)) = .ok () := by
    rw [banksFree, h9, if_neg]
    rw [Bool.or_false]
    intro h
    obtain ⟨r, hr, hx⟩ := List.any_eq_true.1 h
    exact absurd (h8 r hr) (of_decide_eq_true hx)
  have hs : ¬ a > spadSize - 32 := by unfold spadSize; omega
  have hm : a % 32 = 0 := Nat.mod_eq_zero_of_dvd h5
  simp [openDesc, hn, readDesc, h3, hv, hs, hm, spadFree_ok h6, hb, bind, Except.bind]

/-- A word that posts nothing. -/
theorem issueWith_plain {s : State} {k sl : Nat} {i : Issue} {op : OpCtx → Res (List Post)} {upd : Upd} {aft aftC : After}
    (hin : InSlot s k sl i) (h : ∀ d ∈ i.dies sl, op (look s k sl d) = .ok []) :
    issueWith s sl op upd aft aftC = .next (issuedBy s k sl i [] (upd s k (i.dies sl))) := by
  have hr : resultsOf s k sl i (fun _ => []) = [] := by simp [resultsOf, onePop]
  rw [issueWith_bundle (ps := fun _ => []) hin h, hr]

/-- A Colt's word. -/
theorem issueWith_colt {s : State} {c sl : Nat} {op : OpCtx → Res (List Post)} {ps : List Post} {upd : Upd} {aft aftC : After}
    (ht : s.turn = .colt c) (h : op (lookColt s c sl) = .ok ps) :
    issueWith s sl op upd aft aftC = .next (aftC (applyNow s (ps.map (fun p => p.entry 0 sl (coltUnit c)))) c) := by
  have h' : op { s := s, u := coltUnit c, slot := sl, n := 0, single := true } = .ok ps := h
  simp [issueWith, ht, h']

theorem issueTiles_colt {s : State} {c sl : Nat} {op : OpCtx → Res (List Post)} {ps : List Post}
    (ht : s.turn = .colt c) (h : op (lookColt s c sl) = .ok ps) : issueTiles s sl op = .next (coltDone s c sl ps) :=
  issueWith_colt ht h

/-- A handler word. -/
theorem issueWith_handler {s : State} {k sl : Nat} {op : OpCtx → Res (List Post)} {ps : Nat → List Post} {upd : Upd} {aft aftC : After}
    (hin : InHandler s k) (h : ∀ d ∈ [0, 1, 2, 3], op (lookWord s k sl d) = .ok (ps d)) :
    issueWith s sl op upd aft aftC = .next (stepEnd (aft (applyNow s
      ([0, 1, 2, 3].flatMap (fun d => (onePop [] (ps d)).map (fun p => p.entry (s.core k).bn sl (unitOf k d))))) k) k) := by
  have hr : runOn s k sl (s.core k).bn true op [0, 1, 2, 3]
      = { entries := [0, 1, 2, 3].flatMap (fun d => (onePop [] (ps d)).map (fun p => p.entry (s.core k).bn sl (unitOf k d))) } :=
    runOn_ok [0, 1, 2, 3] h
  simp [issueWith, hin.turn, hin.handler, hr]

/-- A word issues on dies 0 to 3 only. -/
theorem dies_lt {i : Issue} {sl d : Nat} (h : d ∈ i.dies sl) : d < 4 := by
  simp only [Issue.dies, upTo, List.mem_filter, List.mem_range] at h
  exact h.1

theorem unit_core {k d : Nat} (h : d < 4) : unitOf k d / 4 = k := by unfold unitOf; omega
theorem unit_die {k d : Nat} (h : d < 4) : unitOf k d % 4 = d := by unfold unitOf; omega
theorem unit_lt {k d : Nat} (hk : k < 64) (h : d < 4) : unitOf k d < 256 := by unfold unitOf; omega
theorem lead_core {k : Nat} : leadUnit k / 4 = k := by unfold leadUnit unitOf; omega

theorem look_k {s : State} {k sl d : Nat} (h : d < 4) : (look s k sl d).k = k := unit_core h
theorem look_die {s : State} {k sl d : Nat} (h : d < 4) : (look s k sl d).die = d := unit_die h
theorem look_colt {s : State} {k sl d : Nat} (hk : k < 64) (h : d < 4) : (look s k sl d).isColt = false := by
  exact decide_eq_false (Nat.not_le.mpr (unit_lt hk h))
theorem look_lead {s : State} {k sl d : Nat} (hk : k < 64) (h : d < 4) : (look s k sl d).isLead = decide (d = k % 4) := by
  have h1 : (unitOf k d = leadUnit k) ↔ d = k % 4 := by unfold leadUnit unitOf; omega
  rw [OpCtx.isLead, look_colt hk h, look_k h]
  simp [look, h1]

end Sys2Proof.Laws
end

