-- ==== Sys2Proof/Laws/Map.lean ====
section
/-! SUPPORT. Sparse maps: reading after writing, and the canonical form. -/
namespace Sys2Proof.Laws
open Machine

theorem sget_sdrop {β : Type} (d : β) (m : SMap β) (k j : Nat) : sget d (sdrop m k) j = if j = k then d else sget d m j := by
  induction m with
  | nil => simp [sdrop, sget]
  | cons e m ih =>
    obtain ⟨a, v⟩ := e
    unfold sdrop at ih ⊢
    by_cases h : a = k
    · subst h
      simp only [List.filter_cons, ne_eq, not_true, decide_false, Bool.false_eq_true, if_false, ih, sget]
      by_cases hj : j = a
      · simp [hj]
      · simp [hj, Ne.symm hj]
    · simp only [List.filter_cons, ne_eq, h, not_false_eq_true, decide_true, if_true, sget, ih]
      by_cases hj : a = j
      · subst hj; simp [h]
      · simp [hj]

theorem sget_sput {β : Type} (d : β) (m : SMap β) (k j : Nat) (v : β) : sget d (sput m k v) j = if j = k then v else sget d m j := by
  induction m with
  | nil =>
    by_cases h : k = j
    · simp [sput, sget, h]
    · simp [sput, sget, h, Ne.symm h]
  | cons e m ih =>
    obtain ⟨a, w⟩ := e
    unfold sput
    by_cases h : a = k
    · subst h
      by_cases hj : a = j
      · simp [sget, hj]
      · simp [sget, hj, Ne.symm hj]
    · by_cases hk : k < a
      · simp only [h, hk, if_false, if_true, sget]
        by_cases hj : k = j
        · subst hj; simp
        · simp [hj, Ne.symm hj]
      · simp only [h, hk, if_false, sget, ih]
        by_cases hj : a = j
        · subst hj; simp [h]
        · simp [hj]

/-- Reading place j after writing place k. -/
@[simp] theorem sget_sset {β : Type} [DecidableEq β] (d : β) (m : SMap β) (k j : Nat) (v : β) :
    sget d (sset d m k v) j = if j = k then v else sget d m j := by
  unfold sset
  by_cases h : v = d
  · simp [h, sget_sdrop]
  · simp [h, sget_sput]

/-- A function on the places of some keys, which leaves the default as it is, acts on what such a place holds. -/
theorem sget_map {β : Type} {d : β} {f : β → β} (P : Nat → Prop) [DecidablePred P] (hd : f d = d) (m : SMap β) (k : Nat) :
    sget d (m.map (fun e => if P e.1 then (e.1, f e.2) else e)) k = if P k then f (sget d m k) else sget d m k := by
  induction m with
  | nil => simp [sget, hd]
  | cons e m ih =>
    obtain ⟨j, v⟩ := e
    by_cases hj : P j <;> by_cases hk : j = k <;> simp_all [sget]

@[simp] theorem sget_nil {β : Type} (d : β) (k : Nat) : sget d ([] : SMap β) k = d := rfl

theorem swfFrom_mono {β : Type} [DecidableEq β] {d : β} {m : SMap β} {a b : Nat} (h : swfFrom d b m = true) (hab : a ≤ b) :
    swfFrom d a m = true := by
  cases m with
  | nil => rfl
  | cons e m =>
    obtain ⟨j, v⟩ := e
    simp only [swfFrom, Bool.and_eq_true, decide_eq_true_eq] at h ⊢
    exact ⟨⟨by omega, h.1.2⟩, h.2⟩

theorem swfFrom_filter {β : Type} [DecidableEq β] {d : β} (p : Nat × β → Bool) {m : SMap β} {a : Nat} (h : swfFrom d a m = true) :
    swfFrom d a (m.filter p) = true := by
  induction m generalizing a with
  | nil => rfl
  | cons e m ih =>
    obtain ⟨j, v⟩ := e
    simp only [swfFrom, Bool.and_eq_true, decide_eq_true_eq] at h
    rw [List.filter_cons]
    split
    · simp only [swfFrom, Bool.and_eq_true, decide_eq_true_eq]
      exact ⟨h.1, ih h.2⟩
    · exact swfFrom_mono (ih h.2) (by omega)

theorem swfFrom_sput {β : Type} [DecidableEq β] {d : β} {m : SMap β} {a k : Nat} {v : β} (h : swfFrom d a m = true) (hk : a ≤ k) (hv : v ≠ d) :
    swfFrom d a (sput m k v) = true := by
  induction m generalizing a with
  | nil => simp [sput, swfFrom, hk, hv]
  | cons e m ih =>
    obtain ⟨j, w⟩ := e
    simp only [swfFrom, Bool.and_eq_true, decide_eq_true_eq] at h
    unfold sput
    split
    · next hj => subst hj; simp only [swfFrom, Bool.and_eq_true, decide_eq_true_eq]; exact ⟨⟨hk, hv⟩, h.2⟩
    · split
      · next hlt =>
        simp only [swfFrom, Bool.and_eq_true, decide_eq_true_eq]
        exact ⟨⟨hk, hv⟩, ⟨by omega, h.1.2⟩, h.2⟩
      · simp only [swfFrom, Bool.and_eq_true, decide_eq_true_eq]
        exact ⟨h.1, ih h.2 (by omega)⟩

/-- A write keeps the canonical form. -/
theorem swf_sset {β : Type} [DecidableEq β] {d : β} {m : SMap β} {k : Nat} {v : β} (h : swf d m = true) : swf d (sset d m k v) = true := by
  unfold sset
  split
  · exact swfFrom_filter _ h
  · next hv => exact swfFrom_sput h (Nat.zero_le k) hv

end Sys2Proof.Laws
end

