-- ==== Sys2Proof/Laws/State.lean ====
section
/-! SUPPORT. One lemma per field per update of the state and of a tile: what a write leaves, so that no proof unfolds a record. -/
namespace Sys2Proof.Laws
open Machine

@[simp] theorem setTile_cores (s : State) (u : Nat) (t : Tile) : (s.setTile u t).cores = s.cores := rfl
@[simp] theorem setTile_mem (s : State) (u : Nat) (t : Tile) : (s.setTile u t).mem = s.mem := rfl
@[simp] theorem setTile_l2 (s : State) (u : Nat) (t : Tile) : (s.setTile u t).l2 = s.l2 := rfl
@[simp] theorem setTile_adit (s : State) (u : Nat) (t : Tile) : (s.setTile u t).adit = s.adit := rfl
@[simp] theorem setTile_atomicOnly (s : State) (u : Nat) (t : Tile) : (s.setTile u t).atomicOnly = s.atomicOnly := rfl
@[simp] theorem setTile_dieTlb (s : State) (u : Nat) (t : Tile) : (s.setTile u t).dieTlb = s.dieTlb := rfl
@[simp] theorem setTile_walkCache (s : State) (u : Nat) (t : Tile) : (s.setTile u t).walkCache = s.walkCache := rfl
@[simp] theorem setTile_ctxs (s : State) (u : Nat) (t : Tile) : (s.setTile u t).ctxs = s.ctxs := rfl
@[simp] theorem setTile_hub (s : State) (u : Nat) (t : Tile) : (s.setTile u t).hub = s.hub := rfl
@[simp] theorem setTile_ptime (s : State) (u : Nat) (t : Tile) : (s.setTile u t).ptime = s.ptime := rfl
@[simp] theorem setTile_turn (s : State) (u : Nat) (t : Tile) : (s.setTile u t).turn = s.turn := rfl
@[simp] theorem setTile_sched (s : State) (u : Nat) (t : Tile) : (s.setTile u t).sched = s.sched := rfl
@[simp] theorem setTile_freeCount (s : State) (u : Nat) (t : Tile) : (s.setTile u t).freeCount = s.freeCount := rfl

@[simp] theorem setCore_tiles (s : State) (k : Nat) (c : CoreRec) : (s.setCore k c).tiles = s.tiles := rfl
@[simp] theorem setCore_mem (s : State) (k : Nat) (c : CoreRec) : (s.setCore k c).mem = s.mem := rfl
@[simp] theorem setCore_l2 (s : State) (k : Nat) (c : CoreRec) : (s.setCore k c).l2 = s.l2 := rfl
@[simp] theorem setCore_adit (s : State) (k : Nat) (c : CoreRec) : (s.setCore k c).adit = s.adit := rfl
@[simp] theorem setCore_atomicOnly (s : State) (k : Nat) (c : CoreRec) : (s.setCore k c).atomicOnly = s.atomicOnly := rfl
@[simp] theorem setCore_dieTlb (s : State) (k : Nat) (c : CoreRec) : (s.setCore k c).dieTlb = s.dieTlb := rfl
@[simp] theorem setCore_walkCache (s : State) (k : Nat) (c : CoreRec) : (s.setCore k c).walkCache = s.walkCache := rfl
@[simp] theorem setCore_ctxs (s : State) (k : Nat) (c : CoreRec) : (s.setCore k c).ctxs = s.ctxs := rfl
@[simp] theorem setCore_hub (s : State) (k : Nat) (c : CoreRec) : (s.setCore k c).hub = s.hub := rfl
@[simp] theorem setCore_ptime (s : State) (k : Nat) (c : CoreRec) : (s.setCore k c).ptime = s.ptime := rfl
@[simp] theorem setCore_turn (s : State) (k : Nat) (c : CoreRec) : (s.setCore k c).turn = s.turn := rfl
@[simp] theorem setCore_sched (s : State) (k : Nat) (c : CoreRec) : (s.setCore k c).sched = s.sched := rfl
@[simp] theorem setCore_freeCount (s : State) (k : Nat) (c : CoreRec) : (s.setCore k c).freeCount = s.freeCount := rfl

@[simp] theorem setCtx_tiles (s : State) (c : Nat) (x : Ctx) : (s.setCtx c x).tiles = s.tiles := rfl
@[simp] theorem setCtx_cores (s : State) (c : Nat) (x : Ctx) : (s.setCtx c x).cores = s.cores := rfl
@[simp] theorem setCtx_mem (s : State) (c : Nat) (x : Ctx) : (s.setCtx c x).mem = s.mem := rfl
@[simp] theorem setCtx_l2 (s : State) (c : Nat) (x : Ctx) : (s.setCtx c x).l2 = s.l2 := rfl
@[simp] theorem setCtx_adit (s : State) (c : Nat) (x : Ctx) : (s.setCtx c x).adit = s.adit := rfl
@[simp] theorem setCtx_atomicOnly (s : State) (c : Nat) (x : Ctx) : (s.setCtx c x).atomicOnly = s.atomicOnly := rfl
@[simp] theorem setCtx_dieTlb (s : State) (c : Nat) (x : Ctx) : (s.setCtx c x).dieTlb = s.dieTlb := rfl
@[simp] theorem setCtx_walkCache (s : State) (c : Nat) (x : Ctx) : (s.setCtx c x).walkCache = s.walkCache := rfl
@[simp] theorem setCtx_hub (s : State) (c : Nat) (x : Ctx) : (s.setCtx c x).hub = s.hub := rfl
@[simp] theorem setCtx_ptime (s : State) (c : Nat) (x : Ctx) : (s.setCtx c x).ptime = s.ptime := rfl
@[simp] theorem setCtx_turn (s : State) (c : Nat) (x : Ctx) : (s.setCtx c x).turn = s.turn := rfl
@[simp] theorem setCtx_sched (s : State) (c : Nat) (x : Ctx) : (s.setCtx c x).sched = s.sched := rfl
@[simp] theorem setCtx_freeCount (s : State) (c : Nat) (x : Ctx) : (s.setCtx c x).freeCount = s.freeCount := rfl

@[simp] theorem setColt_tiles (s : State) (c : Nat) (r : ColtRec) : (s.setColt c r).tiles = s.tiles := rfl
@[simp] theorem setColt_cores (s : State) (c : Nat) (r : ColtRec) : (s.setColt c r).cores = s.cores := rfl
@[simp] theorem setColt_mem (s : State) (c : Nat) (r : ColtRec) : (s.setColt c r).mem = s.mem := rfl
@[simp] theorem setColt_l2 (s : State) (c : Nat) (r : ColtRec) : (s.setColt c r).l2 = s.l2 := rfl
@[simp] theorem setColt_adit (s : State) (c : Nat) (r : ColtRec) : (s.setColt c r).adit = s.adit := rfl
@[simp] theorem setColt_atomicOnly (s : State) (c : Nat) (r : ColtRec) : (s.setColt c r).atomicOnly = s.atomicOnly := rfl
@[simp] theorem setColt_dieTlb (s : State) (c : Nat) (r : ColtRec) : (s.setColt c r).dieTlb = s.dieTlb := rfl
@[simp] theorem setColt_walkCache (s : State) (c : Nat) (r : ColtRec) : (s.setColt c r).walkCache = s.walkCache := rfl
@[simp] theorem setColt_ctxs (s : State) (c : Nat) (r : ColtRec) : (s.setColt c r).ctxs = s.ctxs := rfl
@[simp] theorem setColt_ptime (s : State) (c : Nat) (r : ColtRec) : (s.setColt c r).ptime = s.ptime := rfl
@[simp] theorem setColt_turn (s : State) (c : Nat) (r : ColtRec) : (s.setColt c r).turn = s.turn := rfl
@[simp] theorem setColt_sched (s : State) (c : Nat) (r : ColtRec) : (s.setColt c r).sched = s.sched := rfl
@[simp] theorem setColt_freeCount (s : State) (c : Nat) (r : ColtRec) : (s.setColt c r).freeCount = s.freeCount := rfl

@[simp] theorem setGroup_tiles (s : State) (n : Nat) (g : Group) : (s.setGroup n g).tiles = s.tiles := rfl
@[simp] theorem setGroup_cores (s : State) (n : Nat) (g : Group) : (s.setGroup n g).cores = s.cores := rfl
@[simp] theorem setGroup_mem (s : State) (n : Nat) (g : Group) : (s.setGroup n g).mem = s.mem := rfl
@[simp] theorem setGroup_l2 (s : State) (n : Nat) (g : Group) : (s.setGroup n g).l2 = s.l2 := rfl
@[simp] theorem setGroup_adit (s : State) (n : Nat) (g : Group) : (s.setGroup n g).adit = s.adit := rfl
@[simp] theorem setGroup_atomicOnly (s : State) (n : Nat) (g : Group) : (s.setGroup n g).atomicOnly = s.atomicOnly := rfl
@[simp] theorem setGroup_dieTlb (s : State) (n : Nat) (g : Group) : (s.setGroup n g).dieTlb = s.dieTlb := rfl
@[simp] theorem setGroup_walkCache (s : State) (n : Nat) (g : Group) : (s.setGroup n g).walkCache = s.walkCache := rfl
@[simp] theorem setGroup_ctxs (s : State) (n : Nat) (g : Group) : (s.setGroup n g).ctxs = s.ctxs := rfl
@[simp] theorem setGroup_ptime (s : State) (n : Nat) (g : Group) : (s.setGroup n g).ptime = s.ptime := rfl
@[simp] theorem setGroup_turn (s : State) (n : Nat) (g : Group) : (s.setGroup n g).turn = s.turn := rfl
@[simp] theorem setGroup_sched (s : State) (n : Nat) (g : Group) : (s.setGroup n g).sched = s.sched := rfl
@[simp] theorem setGroup_freeCount (s : State) (n : Nat) (g : Group) : (s.setGroup n g).freeCount = s.freeCount := rfl

@[simp] theorem setPkt_tiles (s : State) (p : Nat) (k : Pkt) : (s.setPkt p k).tiles = s.tiles := rfl
@[simp] theorem setPkt_cores (s : State) (p : Nat) (k : Pkt) : (s.setPkt p k).cores = s.cores := rfl
@[simp] theorem setPkt_mem (s : State) (p : Nat) (k : Pkt) : (s.setPkt p k).mem = s.mem := rfl
@[simp] theorem setPkt_l2 (s : State) (p : Nat) (k : Pkt) : (s.setPkt p k).l2 = s.l2 := rfl
@[simp] theorem setPkt_adit (s : State) (p : Nat) (k : Pkt) : (s.setPkt p k).adit = s.adit := rfl
@[simp] theorem setPkt_atomicOnly (s : State) (p : Nat) (k : Pkt) : (s.setPkt p k).atomicOnly = s.atomicOnly := rfl
@[simp] theorem setPkt_dieTlb (s : State) (p : Nat) (k : Pkt) : (s.setPkt p k).dieTlb = s.dieTlb := rfl
@[simp] theorem setPkt_walkCache (s : State) (p : Nat) (k : Pkt) : (s.setPkt p k).walkCache = s.walkCache := rfl
@[simp] theorem setPkt_ctxs (s : State) (p : Nat) (k : Pkt) : (s.setPkt p k).ctxs = s.ctxs := rfl
@[simp] theorem setPkt_ptime (s : State) (p : Nat) (k : Pkt) : (s.setPkt p k).ptime = s.ptime := rfl
@[simp] theorem setPkt_turn (s : State) (p : Nat) (k : Pkt) : (s.setPkt p k).turn = s.turn := rfl
@[simp] theorem setPkt_sched (s : State) (p : Nat) (k : Pkt) : (s.setPkt p k).sched = s.sched := rfl
@[simp] theorem setPkt_freeCount (s : State) (p : Nat) (k : Pkt) : (s.setPkt p k).freeCount = s.freeCount := rfl

@[simp] theorem setQueue_tiles (s : State) (q : Nat) (v : Queue) : (s.setQueue q v).tiles = s.tiles := rfl
@[simp] theorem setQueue_cores (s : State) (q : Nat) (v : Queue) : (s.setQueue q v).cores = s.cores := rfl
@[simp] theorem setQueue_mem (s : State) (q : Nat) (v : Queue) : (s.setQueue q v).mem = s.mem := rfl
@[simp] theorem setQueue_l2 (s : State) (q : Nat) (v : Queue) : (s.setQueue q v).l2 = s.l2 := rfl
@[simp] theorem setQueue_adit (s : State) (q : Nat) (v : Queue) : (s.setQueue q v).adit = s.adit := rfl
@[simp] theorem setQueue_atomicOnly (s : State) (q : Nat) (v : Queue) : (s.setQueue q v).atomicOnly = s.atomicOnly := rfl
@[simp] theorem setQueue_dieTlb (s : State) (q : Nat) (v : Queue) : (s.setQueue q v).dieTlb = s.dieTlb := rfl
@[simp] theorem setQueue_walkCache (s : State) (q : Nat) (v : Queue) : (s.setQueue q v).walkCache = s.walkCache := rfl
@[simp] theorem setQueue_ctxs (s : State) (q : Nat) (v : Queue) : (s.setQueue q v).ctxs = s.ctxs := rfl
@[simp] theorem setQueue_ptime (s : State) (q : Nat) (v : Queue) : (s.setQueue q v).ptime = s.ptime := rfl
@[simp] theorem setQueue_turn (s : State) (q : Nat) (v : Queue) : (s.setQueue q v).turn = s.turn := rfl
@[simp] theorem setQueue_sched (s : State) (q : Nat) (v : Queue) : (s.setQueue q v).sched = s.sched := rfl
@[simp] theorem setQueue_freeCount (s : State) (q : Nat) (v : Queue) : (s.setQueue q v).freeCount = s.freeCount := rfl

@[simp] theorem setGang_tiles (s : State) (g : Nat) (v : Gang) : (s.setGang g v).tiles = s.tiles := rfl
@[simp] theorem setGang_cores (s : State) (g : Nat) (v : Gang) : (s.setGang g v).cores = s.cores := rfl
@[simp] theorem setGang_mem (s : State) (g : Nat) (v : Gang) : (s.setGang g v).mem = s.mem := rfl
@[simp] theorem setGang_l2 (s : State) (g : Nat) (v : Gang) : (s.setGang g v).l2 = s.l2 := rfl
@[simp] theorem setGang_adit (s : State) (g : Nat) (v : Gang) : (s.setGang g v).adit = s.adit := rfl
@[simp] theorem setGang_atomicOnly (s : State) (g : Nat) (v : Gang) : (s.setGang g v).atomicOnly = s.atomicOnly := rfl
@[simp] theorem setGang_dieTlb (s : State) (g : Nat) (v : Gang) : (s.setGang g v).dieTlb = s.dieTlb := rfl
@[simp] theorem setGang_walkCache (s : State) (g : Nat) (v : Gang) : (s.setGang g v).walkCache = s.walkCache := rfl
@[simp] theorem setGang_ctxs (s : State) (g : Nat) (v : Gang) : (s.setGang g v).ctxs = s.ctxs := rfl
@[simp] theorem setGang_ptime (s : State) (g : Nat) (v : Gang) : (s.setGang g v).ptime = s.ptime := rfl
@[simp] theorem setGang_turn (s : State) (g : Nat) (v : Gang) : (s.setGang g v).turn = s.turn := rfl
@[simp] theorem setGang_sched (s : State) (g : Nat) (v : Gang) : (s.setGang g v).sched = s.sched := rfl
@[simp] theorem setGang_freeCount (s : State) (g : Nat) (v : Gang) : (s.setGang g v).freeCount = s.freeCount := rfl

@[simp] theorem fresh_tiles (s : State) : s.fresh.tiles = s.tiles := rfl
@[simp] theorem fresh_cores (s : State) : s.fresh.cores = s.cores := rfl
@[simp] theorem fresh_mem (s : State) : s.fresh.mem = s.mem := rfl
@[simp] theorem fresh_l2 (s : State) : s.fresh.l2 = s.l2 := rfl
@[simp] theorem fresh_adit (s : State) : s.fresh.adit = s.adit := rfl
@[simp] theorem fresh_atomicOnly (s : State) : s.fresh.atomicOnly = s.atomicOnly := rfl
@[simp] theorem fresh_dieTlb (s : State) : s.fresh.dieTlb = s.dieTlb := rfl
@[simp] theorem fresh_walkCache (s : State) : s.fresh.walkCache = s.walkCache := rfl
@[simp] theorem fresh_ctxs (s : State) : s.fresh.ctxs = s.ctxs := rfl
@[simp] theorem fresh_hub (s : State) : s.fresh.hub = s.hub := rfl
@[simp] theorem fresh_ptime (s : State) : s.fresh.ptime = s.ptime := rfl
@[simp] theorem fresh_turn (s : State) : s.fresh.turn = s.turn := rfl
@[simp] theorem fresh_sched (s : State) : s.fresh.sched = s.sched := rfl

@[simp] theorem sendMsg_tiles (s : State) (m : Msg) : (s.sendMsg m).tiles = s.tiles := by unfold State.sendMsg; split <;> [rfl; (split <;> rfl)]
@[simp] theorem sendMsg_cores (s : State) (m : Msg) : (s.sendMsg m).cores = s.cores := by unfold State.sendMsg; split <;> [rfl; (split <;> rfl)]
@[simp] theorem sendMsg_mem (s : State) (m : Msg) : (s.sendMsg m).mem = s.mem := by unfold State.sendMsg; split <;> [rfl; (split <;> rfl)]
@[simp] theorem sendMsg_l2 (s : State) (m : Msg) : (s.sendMsg m).l2 = s.l2 := by unfold State.sendMsg; split <;> [rfl; (split <;> rfl)]
@[simp] theorem sendMsg_adit (s : State) (m : Msg) : (s.sendMsg m).adit = s.adit := by unfold State.sendMsg; split <;> [rfl; (split <;> rfl)]
@[simp] theorem sendMsg_atomicOnly (s : State) (m : Msg) : (s.sendMsg m).atomicOnly = s.atomicOnly := by unfold State.sendMsg; split <;> [rfl; (split <;> rfl)]
@[simp] theorem sendMsg_dieTlb (s : State) (m : Msg) : (s.sendMsg m).dieTlb = s.dieTlb := by unfold State.sendMsg; split <;> [rfl; (split <;> rfl)]
@[simp] theorem sendMsg_walkCache (s : State) (m : Msg) : (s.sendMsg m).walkCache = s.walkCache := by unfold State.sendMsg; split <;> [rfl; (split <;> rfl)]
@[simp] theorem sendMsg_ctxs (s : State) (m : Msg) : (s.sendMsg m).ctxs = s.ctxs := by unfold State.sendMsg; split <;> [rfl; (split <;> rfl)]
@[simp] theorem sendMsg_ptime (s : State) (m : Msg) : (s.sendMsg m).ptime = s.ptime := by unfold State.sendMsg; split <;> [rfl; (split <;> rfl)]
@[simp] theorem sendMsg_turn (s : State) (m : Msg) : (s.sendMsg m).turn = s.turn := by unfold State.sendMsg; split <;> [rfl; (split <;> rfl)]
@[simp] theorem sendMsg_sched (s : State) (m : Msg) : (s.sendMsg m).sched = s.sched := by unfold State.sendMsg; split <;> [rfl; (split <;> rfl)]
@[simp] theorem sendMsg_freeCount (s : State) (m : Msg) : (s.sendMsg m).freeCount = s.freeCount := by unfold State.sendMsg; split <;> [rfl; (split <;> rfl)]

@[simp] theorem queueReq_tiles (s : State) (r : Req) : (s.queueReq r).tiles = s.tiles := rfl
@[simp] theorem queueReq_cores (s : State) (r : Req) : (s.queueReq r).cores = s.cores := rfl
@[simp] theorem queueReq_mem (s : State) (r : Req) : (s.queueReq r).mem = s.mem := rfl
@[simp] theorem queueReq_l2 (s : State) (r : Req) : (s.queueReq r).l2 = s.l2 := rfl
@[simp] theorem queueReq_adit (s : State) (r : Req) : (s.queueReq r).adit = s.adit := rfl
@[simp] theorem queueReq_atomicOnly (s : State) (r : Req) : (s.queueReq r).atomicOnly = s.atomicOnly := rfl
@[simp] theorem queueReq_dieTlb (s : State) (r : Req) : (s.queueReq r).dieTlb = s.dieTlb := rfl
@[simp] theorem queueReq_walkCache (s : State) (r : Req) : (s.queueReq r).walkCache = s.walkCache := rfl
@[simp] theorem queueReq_ctxs (s : State) (r : Req) : (s.queueReq r).ctxs = s.ctxs := rfl
@[simp] theorem queueReq_ptime (s : State) (r : Req) : (s.queueReq r).ptime = s.ptime := rfl
@[simp] theorem queueReq_turn (s : State) (r : Req) : (s.queueReq r).turn = s.turn := rfl
@[simp] theorem queueReq_sched (s : State) (r : Req) : (s.queueReq r).sched = s.sched := rfl
@[simp] theorem queueReq_freeCount (s : State) (r : Req) : (s.queueReq r).freeCount = s.freeCount := rfl

@[simp] theorem portUsed_tiles (s : State) (p : Nat) : (s.portUsed p).tiles = s.tiles := rfl
@[simp] theorem portUsed_cores (s : State) (p : Nat) : (s.portUsed p).cores = s.cores := rfl
@[simp] theorem portUsed_mem (s : State) (p : Nat) : (s.portUsed p).mem = s.mem := rfl
@[simp] theorem portUsed_l2 (s : State) (p : Nat) : (s.portUsed p).l2 = s.l2 := rfl
@[simp] theorem portUsed_adit (s : State) (p : Nat) : (s.portUsed p).adit = s.adit := rfl
@[simp] theorem portUsed_atomicOnly (s : State) (p : Nat) : (s.portUsed p).atomicOnly = s.atomicOnly := rfl
@[simp] theorem portUsed_dieTlb (s : State) (p : Nat) : (s.portUsed p).dieTlb = s.dieTlb := rfl
@[simp] theorem portUsed_walkCache (s : State) (p : Nat) : (s.portUsed p).walkCache = s.walkCache := rfl
@[simp] theorem portUsed_ctxs (s : State) (p : Nat) : (s.portUsed p).ctxs = s.ctxs := rfl
@[simp] theorem portUsed_ptime (s : State) (p : Nat) : (s.portUsed p).ptime = s.ptime := rfl
@[simp] theorem portUsed_turn (s : State) (p : Nat) : (s.portUsed p).turn = s.turn := rfl
@[simp] theorem portUsed_sched (s : State) (p : Nat) : (s.portUsed p).sched = s.sched := rfl
@[simp] theorem portUsed_freeCount (s : State) (p : Nat) : (s.portUsed p).freeCount = s.freeCount := rfl

/-- Reading a Tile after writing one. -/
@[simp] theorem setTile_tile (s : State) (u v : Nat) (t : Tile) : (s.setTile u t).tile v = if v = u then t else s.tile v := by
  simp [State.setTile, State.tile]
/-- Reading a CoreRec after writing one. -/
@[simp] theorem setCore_core (s : State) (k v : Nat) (c : CoreRec) : (s.setCore k c).core v = if v = k then c else s.core v := by
  simp [State.setCore, State.core]
/-- Reading a Ctx after writing one. -/
@[simp] theorem setCtx_ctx (s : State) (c v : Nat) (x : Ctx) : (s.setCtx c x).ctx v = if v = c then x else s.ctx v := by
  simp [State.setCtx, State.ctx]
/-- Reading a ColtRec after writing one. -/
@[simp] theorem setColt_colt (s : State) (c v : Nat) (r : ColtRec) : (s.setColt c r).colt v = if v = c then r else s.colt v := by
  simp [State.setColt, State.colt]
/-- Reading a Group after writing one. -/
@[simp] theorem setGroup_group (s : State) (n v : Nat) (g : Group) : (s.setGroup n g).group v = if v = n then g else s.group v := by
  simp [State.setGroup, State.group]
/-- Reading a Pkt after writing one. -/
@[simp] theorem setPkt_pkt (s : State) (p v : Nat) (k : Pkt) : (s.setPkt p k).pkt v = if v = p then k else s.pkt v := by
  simp [State.setPkt, State.pkt]
/-- Reading a Queue after writing one. -/
@[simp] theorem setQueue_queue (s : State) (q v : Nat) (w : Queue) : (s.setQueue q w).queue v = if v = q then w else s.queue v := by
  simp [State.setQueue, State.queue]
/-- Reading a Gang after writing one. -/
@[simp] theorem setGang_gang (s : State) (g v : Nat) (w : Gang) : (s.setGang g w).gang v = if v = g then w else s.gang v := by
  simp [State.setGang, State.gang]
@[simp] theorem setTile_core (s : State) (u v : Nat) (t : Tile) : (s.setTile u t).core v = s.core v := rfl
@[simp] theorem setTile_ctx (s : State) (u v : Nat) (t : Tile) : (s.setTile u t).ctx v = s.ctx v := rfl
@[simp] theorem setTile_colt (s : State) (u v : Nat) (t : Tile) : (s.setTile u t).colt v = s.colt v := rfl
@[simp] theorem setTile_group (s : State) (u v : Nat) (t : Tile) : (s.setTile u t).group v = s.group v := rfl
@[simp] theorem setTile_pkt (s : State) (u v : Nat) (t : Tile) : (s.setTile u t).pkt v = s.pkt v := rfl
@[simp] theorem setTile_queue (s : State) (u v : Nat) (t : Tile) : (s.setTile u t).queue v = s.queue v := rfl
@[simp] theorem setTile_gang (s : State) (u v : Nat) (t : Tile) : (s.setTile u t).gang v = s.gang v := rfl
@[simp] theorem setCore_tile (s : State) (k v : Nat) (c : CoreRec) : (s.setCore k c).tile v = s.tile v := rfl
@[simp] theorem setCore_ctx (s : State) (k v : Nat) (c : CoreRec) : (s.setCore k c).ctx v = s.ctx v := rfl
@[simp] theorem setCore_colt (s : State) (k v : Nat) (c : CoreRec) : (s.setCore k c).colt v = s.colt v := rfl
@[simp] theorem setCore_group (s : State) (k v : Nat) (c : CoreRec) : (s.setCore k c).group v = s.group v := rfl
@[simp] theorem setCore_pkt (s : State) (k v : Nat) (c : CoreRec) : (s.setCore k c).pkt v = s.pkt v := rfl
@[simp] theorem setCore_queue (s : State) (k v : Nat) (c : CoreRec) : (s.setCore k c).queue v = s.queue v := rfl
@[simp] theorem setCore_gang (s : State) (k v : Nat) (c : CoreRec) : (s.setCore k c).gang v = s.gang v := rfl
@[simp] theorem setCtx_tile (s : State) (c v : Nat) (x : Ctx) : (s.setCtx c x).tile v = s.tile v := rfl
@[simp] theorem setCtx_core (s : State) (c v : Nat) (x : Ctx) : (s.setCtx c x).core v = s.core v := rfl
@[simp] theorem setCtx_colt (s : State) (c v : Nat) (x : Ctx) : (s.setCtx c x).colt v = s.colt v := rfl
@[simp] theorem setCtx_group (s : State) (c v : Nat) (x : Ctx) : (s.setCtx c x).group v = s.group v := rfl
@[simp] theorem setCtx_pkt (s : State) (c v : Nat) (x : Ctx) : (s.setCtx c x).pkt v = s.pkt v := rfl
@[simp] theorem setCtx_queue (s : State) (c v : Nat) (x : Ctx) : (s.setCtx c x).queue v = s.queue v := rfl
@[simp] theorem setCtx_gang (s : State) (c v : Nat) (x : Ctx) : (s.setCtx c x).gang v = s.gang v := rfl
@[simp] theorem setColt_tile (s : State) (c v : Nat) (r : ColtRec) : (s.setColt c r).tile v = s.tile v := rfl
@[simp] theorem setColt_core (s : State) (c v : Nat) (r : ColtRec) : (s.setColt c r).core v = s.core v := rfl
@[simp] theorem setColt_ctx (s : State) (c v : Nat) (r : ColtRec) : (s.setColt c r).ctx v = s.ctx v := rfl
@[simp] theorem setColt_group (s : State) (c v : Nat) (r : ColtRec) : (s.setColt c r).group v = s.group v := rfl
@[simp] theorem setColt_pkt (s : State) (c v : Nat) (r : ColtRec) : (s.setColt c r).pkt v = s.pkt v := rfl
@[simp] theorem setColt_queue (s : State) (c v : Nat) (r : ColtRec) : (s.setColt c r).queue v = s.queue v := rfl
@[simp] theorem setColt_gang (s : State) (c v : Nat) (r : ColtRec) : (s.setColt c r).gang v = s.gang v := rfl
@[simp] theorem setGroup_tile (s : State) (n v : Nat) (g : Group) : (s.setGroup n g).tile v = s.tile v := rfl
@[simp] theorem setGroup_core (s : State) (n v : Nat) (g : Group) : (s.setGroup n g).core v = s.core v := rfl
@[simp] theorem setGroup_ctx (s : State) (n v : Nat) (g : Group) : (s.setGroup n g).ctx v = s.ctx v := rfl
@[simp] theorem setGroup_colt (s : State) (n v : Nat) (g : Group) : (s.setGroup n g).colt v = s.colt v := rfl
@[simp] theorem setGroup_pkt (s : State) (n v : Nat) (g : Group) : (s.setGroup n g).pkt v = s.pkt v := rfl
@[simp] theorem setGroup_queue (s : State) (n v : Nat) (g : Group) : (s.setGroup n g).queue v = s.queue v := rfl
@[simp] theorem setGroup_gang (s : State) (n v : Nat) (g : Group) : (s.setGroup n g).gang v = s.gang v := rfl
@[simp] theorem setPkt_tile (s : State) (p v : Nat) (k : Pkt) : (s.setPkt p k).tile v = s.tile v := rfl
@[simp] theorem setPkt_core (s : State) (p v : Nat) (k : Pkt) : (s.setPkt p k).core v = s.core v := rfl
@[simp] theorem setPkt_ctx (s : State) (p v : Nat) (k : Pkt) : (s.setPkt p k).ctx v = s.ctx v := rfl
@[simp] theorem setPkt_colt (s : State) (p v : Nat) (k : Pkt) : (s.setPkt p k).colt v = s.colt v := rfl
@[simp] theorem setPkt_group (s : State) (p v : Nat) (k : Pkt) : (s.setPkt p k).group v = s.group v := rfl
@[simp] theorem setPkt_queue (s : State) (p v : Nat) (k : Pkt) : (s.setPkt p k).queue v = s.queue v := rfl
@[simp] theorem setPkt_gang (s : State) (p v : Nat) (k : Pkt) : (s.setPkt p k).gang v = s.gang v := rfl
@[simp] theorem setQueue_tile (s : State) (q v : Nat) (w : Queue) : (s.setQueue q w).tile v = s.tile v := rfl
@[simp] theorem setQueue_core (s : State) (q v : Nat) (w : Queue) : (s.setQueue q w).core v = s.core v := rfl
@[simp] theorem setQueue_ctx (s : State) (q v : Nat) (w : Queue) : (s.setQueue q w).ctx v = s.ctx v := rfl
@[simp] theorem setQueue_colt (s : State) (q v : Nat) (w : Queue) : (s.setQueue q w).colt v = s.colt v := rfl
@[simp] theorem setQueue_group (s : State) (q v : Nat) (w : Queue) : (s.setQueue q w).group v = s.group v := rfl
@[simp] theorem setQueue_pkt (s : State) (q v : Nat) (w : Queue) : (s.setQueue q w).pkt v = s.pkt v := rfl
@[simp] theorem setQueue_gang (s : State) (q v : Nat) (w : Queue) : (s.setQueue q w).gang v = s.gang v := rfl
@[simp] theorem setGang_tile (s : State) (g v : Nat) (w : Gang) : (s.setGang g w).tile v = s.tile v := rfl
@[simp] theorem setGang_core (s : State) (g v : Nat) (w : Gang) : (s.setGang g w).core v = s.core v := rfl
@[simp] theorem setGang_ctx (s : State) (g v : Nat) (w : Gang) : (s.setGang g w).ctx v = s.ctx v := rfl
@[simp] theorem setGang_colt (s : State) (g v : Nat) (w : Gang) : (s.setGang g w).colt v = s.colt v := rfl
@[simp] theorem setGang_group (s : State) (g v : Nat) (w : Gang) : (s.setGang g w).group v = s.group v := rfl
@[simp] theorem setGang_pkt (s : State) (g v : Nat) (w : Gang) : (s.setGang g w).pkt v = s.pkt v := rfl
@[simp] theorem setGang_queue (s : State) (g v : Nat) (w : Gang) : (s.setGang g w).queue v = s.queue v := rfl
@[simp] theorem modTile_eq (s : State) (k : Nat) (f : Tile → Tile) : s.modTile k f = s.setTile k (f (s.tile k)) := rfl
@[simp] theorem modCore_eq (s : State) (k : Nat) (f : CoreRec → CoreRec) : s.modCore k f = s.setCore k (f (s.core k)) := rfl
@[simp] theorem modCtx_eq (s : State) (k : Nat) (f : Ctx → Ctx) : s.modCtx k f = s.setCtx k (f (s.ctx k)) := rfl
@[simp] theorem modColt_eq (s : State) (k : Nat) (f : ColtRec → ColtRec) : s.modColt k f = s.setColt k (f (s.colt k)) := rfl
@[simp] theorem modGroup_eq (s : State) (k : Nat) (f : Group → Group) : s.modGroup k f = s.setGroup k (f (s.group k)) := rfl
@[simp] theorem modQueue_eq (s : State) (k : Nat) (f : Queue → Queue) : s.modQueue k f = s.setQueue k (f (s.queue k)) := rfl
@[simp] theorem modGang_eq (s : State) (k : Nat) (f : Gang → Gang) : s.modGang k f = s.setGang k (f (s.gang k)) := rfl

@[simp] theorem setX_p (t : Tile) (r : Nat) (v : DWord) : (t.setX r v).p = t.p := by unfold Tile.setX; split <;> rfl
@[simp] theorem setX_bt (t : Tile) (r : Nat) (v : DWord) : (t.setX r v).bt = t.bt := by unfold Tile.setX; split <;> rfl
@[simp] theorem setX_arm (t : Tile) (r : Nat) (v : DWord) : (t.setX r v).arm = t.arm := by unfold Tile.setX; split <;> rfl
@[simp] theorem setX_hx (t : Tile) (r : Nat) (v : DWord) : (t.setX r v).hx = t.hx := by unfold Tile.setX; split <;> rfl
@[simp] theorem setX_hbt (t : Tile) (r : Nat) (v : DWord) : (t.setX r v).hbt = t.hbt := by unfold Tile.setX; split <;> rfl
@[simp] theorem setX_harm (t : Tile) (r : Nat) (v : DWord) : (t.setX r v).harm = t.harm := by unfold Tile.setX; split <;> rfl
@[simp] theorem setX_k (t : Tile) (r : Nat) (v : DWord) : (t.setX r v).k = t.k := by unfold Tile.setX; split <;> rfl
@[simp] theorem setX_curA (t : Tile) (r : Nat) (v : DWord) : (t.setX r v).curA = t.curA := by unfold Tile.setX; split <;> rfl
@[simp] theorem setX_curB (t : Tile) (r : Nat) (v : DWord) : (t.setX r v).curB = t.curB := by unfold Tile.setX; split <;> rfl
@[simp] theorem setX_v (t : Tile) (r : Nat) (v : DWord) : (t.setX r v).v = t.v := by unfold Tile.setX; split <;> rfl
@[simp] theorem setX_latch (t : Tile) (r : Nat) (v : DWord) : (t.setX r v).latch = t.latch := by unfold Tile.setX; split <;> rfl
@[simp] theorem setX_walk (t : Tile) (r : Nat) (v : DWord) : (t.setX r v).walk = t.walk := by unfold Tile.setX; split <;> rfl
@[simp] theorem setX_shLive (t : Tile) (r : Nat) (v : DWord) : (t.setX r v).shLive = t.shLive := by unfold Tile.setX; split <;> rfl
@[simp] theorem setX_shShadow (t : Tile) (r : Nat) (v : DWord) : (t.setX r v).shShadow = t.shShadow := by unfold Tile.setX; split <;> rfl
@[simp] theorem setX_flags (t : Tile) (r : Nat) (v : DWord) : (t.setX r v).flags = t.flags := by unfold Tile.setX; split <;> rfl
@[simp] theorem setX_mx (t : Tile) (r : Nat) (v : DWord) : (t.setX r v).mx = t.mx := by unfold Tile.setX; split <;> rfl
@[simp] theorem setX_ldt (t : Tile) (r : Nat) (v : DWord) : (t.setX r v).ldt = t.ldt := by unfold Tile.setX; split <;> rfl
@[simp] theorem setX_cvt (t : Tile) (r : Nat) (v : DWord) : (t.setX r v).cvt = t.cvt := by unfold Tile.setX; split <;> rfl
@[simp] theorem setX_parked (t : Tile) (r : Nat) (v : DWord) : (t.setX r v).parked = t.parked := by unfold Tile.setX; split <;> rfl
@[simp] theorem setX_pool (t : Tile) (r : Nat) (v : DWord) : (t.setX r v).pool = t.pool := by unfold Tile.setX; split <;> rfl
@[simp] theorem setX_abank (t : Tile) (r : Nat) (v : DWord) : (t.setX r v).abank = t.abank := by unfold Tile.setX; split <;> rfl
@[simp] theorem setX_sbase (t : Tile) (r : Nat) (v : DWord) : (t.setX r v).sbase = t.sbase := by unfold Tile.setX; split <;> rfl
@[simp] theorem setX_parkTag (t : Tile) (r : Nat) (v : DWord) : (t.setX r v).parkTag = t.parkTag := by unfold Tile.setX; split <;> rfl
@[simp] theorem setX_seed (t : Tile) (r : Nat) (v : DWord) : (t.setX r v).seed = t.seed := by unfold Tile.setX; split <;> rfl
@[simp] theorem setX_plane0 (t : Tile) (r : Nat) (v : DWord) : (t.setX r v).plane0 = t.plane0 := by unfold Tile.setX; split <;> rfl
@[simp] theorem setX_plane1 (t : Tile) (r : Nat) (v : DWord) : (t.setX r v).plane1 = t.plane1 := by unfold Tile.setX; split <;> rfl
@[simp] theorem setX_liveIs1 (t : Tile) (r : Nat) (v : DWord) : (t.setX r v).liveIs1 = t.liveIs1 := by unfold Tile.setX; split <;> rfl
@[simp] theorem setX_sa (t : Tile) (r : Nat) (v : DWord) : (t.setX r v).sa = t.sa := by unfold Tile.setX; split <;> rfl
@[simp] theorem setX_sb (t : Tile) (r : Nat) (v : DWord) : (t.setX r v).sb = t.sb := by unfold Tile.setX; split <;> rfl
@[simp] theorem setX_acc (t : Tile) (r : Nat) (v : DWord) : (t.setX r v).acc = t.acc := by unfold Tile.setX; split <;> rfl
@[simp] theorem setX_spad (t : Tile) (r : Nat) (v : DWord) : (t.setX r v).spad = t.spad := by unfold Tile.setX; split <;> rfl
@[simp] theorem setX_slots (t : Tile) (r : Nat) (v : DWord) : (t.setX r v).slots = t.slots := by unfold Tile.setX; split <;> rfl
@[simp] theorem setX_prog (t : Tile) (r : Nat) (v : DWord) : (t.setX r v).prog = t.prog := by unfold Tile.setX; split <;> rfl
@[simp] theorem setX_scanSt (t : Tile) (r : Nat) (v : DWord) : (t.setX r v).scanSt = t.scanSt := by unfold Tile.setX; split <;> rfl
@[simp] theorem setX_sabs (t : Tile) (r : Nat) (v : DWord) : (t.setX r v).sabs = t.sabs := by unfold Tile.setX; split <;> rfl
@[simp] theorem setX_xabs (t : Tile) (r : Nat) (v : DWord) : (t.setX r v).xabs = t.xabs := by unfold Tile.setX; split <;> rfl
@[simp] theorem setX_settings (t : Tile) (r : Nat) (v : DWord) : (t.setX r v).settings = t.settings := by unfold Tile.setX; split <;> rfl
@[simp] theorem setX_held (t : Tile) (r : Nat) (v : DWord) : (t.setX r v).held = t.held := by unfold Tile.setX; split <;> rfl
@[simp] theorem setX_scanBuf (t : Tile) (r : Nat) (v : DWord) : (t.setX r v).scanBuf = t.scanBuf := by unfold Tile.setX; split <;> rfl
@[simp] theorem setX_nodes (t : Tile) (r : Nat) (v : DWord) : (t.setX r v).nodes = t.nodes := by unfold Tile.setX; split <;> rfl
@[simp] theorem setX_resv (t : Tile) (r : Nat) (v : DWord) : (t.setX r v).resv = t.resv := by unfold Tile.setX; split <;> rfl
@[simp] theorem setX_waits (t : Tile) (r : Nat) (v : DWord) : (t.setX r v).waits = t.waits := by unfold Tile.setX; split <;> rfl
@[simp] theorem setX_bench (t : Tile) (r : Nat) (v : DWord) : (t.setX r v).bench = t.bench := by unfold Tile.setX; split <;> rfl
@[simp] theorem setX_lastph (t : Tile) (r : Nat) (v : DWord) : (t.setX r v).lastph = t.lastph := by unfold Tile.setX; split <;> rfl
@[simp] theorem setX_mule (t : Tile) (r : Nat) (v : DWord) : (t.setX r v).mule = t.mule := by unfold Tile.setX; split <;> rfl
@[simp] theorem setX_mon (t : Tile) (r : Nat) (v : DWord) : (t.setX r v).mon = t.mon := by unfold Tile.setX; split <;> rfl
@[simp] theorem setX_tlb (t : Tile) (r : Nat) (v : DWord) : (t.setX r v).tlb = t.tlb := by unfold Tile.setX; split <;> rfl
@[simp] theorem setX_rc (t : Tile) (r : Nat) (v : DWord) : (t.setX r v).rc = t.rc := by unfold Tile.setX; split <;> rfl
@[simp] theorem setX_wakes (t : Tile) (r : Nat) (v : DWord) : (t.setX r v).wakes = t.wakes := by unfold Tile.setX; split <;> rfl

@[simp] theorem setHX_p (t : Tile) (r : Nat) (v : DWord) : (t.setHX r v).p = t.p := by unfold Tile.setHX; split <;> [rfl; (unfold Tile.setX; split <;> rfl)]
@[simp] theorem setHX_bt (t : Tile) (r : Nat) (v : DWord) : (t.setHX r v).bt = t.bt := by unfold Tile.setHX; split <;> [rfl; (unfold Tile.setX; split <;> rfl)]
@[simp] theorem setHX_arm (t : Tile) (r : Nat) (v : DWord) : (t.setHX r v).arm = t.arm := by unfold Tile.setHX; split <;> [rfl; (unfold Tile.setX; split <;> rfl)]
@[simp] theorem setHX_hbt (t : Tile) (r : Nat) (v : DWord) : (t.setHX r v).hbt = t.hbt := by unfold Tile.setHX; split <;> [rfl; (unfold Tile.setX; split <;> rfl)]
@[simp] theorem setHX_harm (t : Tile) (r : Nat) (v : DWord) : (t.setHX r v).harm = t.harm := by unfold Tile.setHX; split <;> [rfl; (unfold Tile.setX; split <;> rfl)]
@[simp] theorem setHX_k (t : Tile) (r : Nat) (v : DWord) : (t.setHX r v).k = t.k := by unfold Tile.setHX; split <;> [rfl; (unfold Tile.setX; split <;> rfl)]
@[simp] theorem setHX_curA (t : Tile) (r : Nat) (v : DWord) : (t.setHX r v).curA = t.curA := by unfold Tile.setHX; split <;> [rfl; (unfold Tile.setX; split <;> rfl)]
@[simp] theorem setHX_curB (t : Tile) (r : Nat) (v : DWord) : (t.setHX r v).curB = t.curB := by unfold Tile.setHX; split <;> [rfl; (unfold Tile.setX; split <;> rfl)]
@[simp] theorem setHX_v (t : Tile) (r : Nat) (v : DWord) : (t.setHX r v).v = t.v := by unfold Tile.setHX; split <;> [rfl; (unfold Tile.setX; split <;> rfl)]
@[simp] theorem setHX_latch (t : Tile) (r : Nat) (v : DWord) : (t.setHX r v).latch = t.latch := by unfold Tile.setHX; split <;> [rfl; (unfold Tile.setX; split <;> rfl)]
@[simp] theorem setHX_walk (t : Tile) (r : Nat) (v : DWord) : (t.setHX r v).walk = t.walk := by unfold Tile.setHX; split <;> [rfl; (unfold Tile.setX; split <;> rfl)]
@[simp] theorem setHX_shLive (t : Tile) (r : Nat) (v : DWord) : (t.setHX r v).shLive = t.shLive := by unfold Tile.setHX; split <;> [rfl; (unfold Tile.setX; split <;> rfl)]
@[simp] theorem setHX_shShadow (t : Tile) (r : Nat) (v : DWord) : (t.setHX r v).shShadow = t.shShadow := by unfold Tile.setHX; split <;> [rfl; (unfold Tile.setX; split <;> rfl)]
@[simp] theorem setHX_flags (t : Tile) (r : Nat) (v : DWord) : (t.setHX r v).flags = t.flags := by unfold Tile.setHX; split <;> [rfl; (unfold Tile.setX; split <;> rfl)]
@[simp] theorem setHX_mx (t : Tile) (r : Nat) (v : DWord) : (t.setHX r v).mx = t.mx := by unfold Tile.setHX; split <;> [rfl; (unfold Tile.setX; split <;> rfl)]
@[simp] theorem setHX_ldt (t : Tile) (r : Nat) (v : DWord) : (t.setHX r v).ldt = t.ldt := by unfold Tile.setHX; split <;> [rfl; (unfold Tile.setX; split <;> rfl)]
@[simp] theorem setHX_cvt (t : Tile) (r : Nat) (v : DWord) : (t.setHX r v).cvt = t.cvt := by unfold Tile.setHX; split <;> [rfl; (unfold Tile.setX; split <;> rfl)]
@[simp] theorem setHX_parked (t : Tile) (r : Nat) (v : DWord) : (t.setHX r v).parked = t.parked := by unfold Tile.setHX; split <;> [rfl; (unfold Tile.setX; split <;> rfl)]
@[simp] theorem setHX_pool (t : Tile) (r : Nat) (v : DWord) : (t.setHX r v).pool = t.pool := by unfold Tile.setHX; split <;> [rfl; (unfold Tile.setX; split <;> rfl)]
@[simp] theorem setHX_abank (t : Tile) (r : Nat) (v : DWord) : (t.setHX r v).abank = t.abank := by unfold Tile.setHX; split <;> [rfl; (unfold Tile.setX; split <;> rfl)]
@[simp] theorem setHX_sbase (t : Tile) (r : Nat) (v : DWord) : (t.setHX r v).sbase = t.sbase := by unfold Tile.setHX; split <;> [rfl; (unfold Tile.setX; split <;> rfl)]
@[simp] theorem setHX_parkTag (t : Tile) (r : Nat) (v : DWord) : (t.setHX r v).parkTag = t.parkTag := by unfold Tile.setHX; split <;> [rfl; (unfold Tile.setX; split <;> rfl)]
@[simp] theorem setHX_seed (t : Tile) (r : Nat) (v : DWord) : (t.setHX r v).seed = t.seed := by unfold Tile.setHX; split <;> [rfl; (unfold Tile.setX; split <;> rfl)]
@[simp] theorem setHX_plane0 (t : Tile) (r : Nat) (v : DWord) : (t.setHX r v).plane0 = t.plane0 := by unfold Tile.setHX; split <;> [rfl; (unfold Tile.setX; split <;> rfl)]
@[simp] theorem setHX_plane1 (t : Tile) (r : Nat) (v : DWord) : (t.setHX r v).plane1 = t.plane1 := by unfold Tile.setHX; split <;> [rfl; (unfold Tile.setX; split <;> rfl)]
@[simp] theorem setHX_liveIs1 (t : Tile) (r : Nat) (v : DWord) : (t.setHX r v).liveIs1 = t.liveIs1 := by unfold Tile.setHX; split <;> [rfl; (unfold Tile.setX; split <;> rfl)]
@[simp] theorem setHX_sa (t : Tile) (r : Nat) (v : DWord) : (t.setHX r v).sa = t.sa := by unfold Tile.setHX; split <;> [rfl; (unfold Tile.setX; split <;> rfl)]
@[simp] theorem setHX_sb (t : Tile) (r : Nat) (v : DWord) : (t.setHX r v).sb = t.sb := by unfold Tile.setHX; split <;> [rfl; (unfold Tile.setX; split <;> rfl)]
@[simp] theorem setHX_acc (t : Tile) (r : Nat) (v : DWord) : (t.setHX r v).acc = t.acc := by unfold Tile.setHX; split <;> [rfl; (unfold Tile.setX; split <;> rfl)]
@[simp] theorem setHX_spad (t : Tile) (r : Nat) (v : DWord) : (t.setHX r v).spad = t.spad := by unfold Tile.setHX; split <;> [rfl; (unfold Tile.setX; split <;> rfl)]
@[simp] theorem setHX_slots (t : Tile) (r : Nat) (v : DWord) : (t.setHX r v).slots = t.slots := by unfold Tile.setHX; split <;> [rfl; (unfold Tile.setX; split <;> rfl)]
@[simp] theorem setHX_prog (t : Tile) (r : Nat) (v : DWord) : (t.setHX r v).prog = t.prog := by unfold Tile.setHX; split <;> [rfl; (unfold Tile.setX; split <;> rfl)]
@[simp] theorem setHX_scanSt (t : Tile) (r : Nat) (v : DWord) : (t.setHX r v).scanSt = t.scanSt := by unfold Tile.setHX; split <;> [rfl; (unfold Tile.setX; split <;> rfl)]
@[simp] theorem setHX_sabs (t : Tile) (r : Nat) (v : DWord) : (t.setHX r v).sabs = t.sabs := by unfold Tile.setHX; split <;> [rfl; (unfold Tile.setX; split <;> rfl)]
@[simp] theorem setHX_xabs (t : Tile) (r : Nat) (v : DWord) : (t.setHX r v).xabs = t.xabs := by unfold Tile.setHX; split <;> [rfl; (unfold Tile.setX; split <;> rfl)]
@[simp] theorem setHX_settings (t : Tile) (r : Nat) (v : DWord) : (t.setHX r v).settings = t.settings := by unfold Tile.setHX; split <;> [rfl; (unfold Tile.setX; split <;> rfl)]
@[simp] theorem setHX_held (t : Tile) (r : Nat) (v : DWord) : (t.setHX r v).held = t.held := by unfold Tile.setHX; split <;> [rfl; (unfold Tile.setX; split <;> rfl)]
@[simp] theorem setHX_scanBuf (t : Tile) (r : Nat) (v : DWord) : (t.setHX r v).scanBuf = t.scanBuf := by unfold Tile.setHX; split <;> [rfl; (unfold Tile.setX; split <;> rfl)]
@[simp] theorem setHX_nodes (t : Tile) (r : Nat) (v : DWord) : (t.setHX r v).nodes = t.nodes := by unfold Tile.setHX; split <;> [rfl; (unfold Tile.setX; split <;> rfl)]
@[simp] theorem setHX_resv (t : Tile) (r : Nat) (v : DWord) : (t.setHX r v).resv = t.resv := by unfold Tile.setHX; split <;> [rfl; (unfold Tile.setX; split <;> rfl)]
@[simp] theorem setHX_waits (t : Tile) (r : Nat) (v : DWord) : (t.setHX r v).waits = t.waits := by unfold Tile.setHX; split <;> [rfl; (unfold Tile.setX; split <;> rfl)]
@[simp] theorem setHX_bench (t : Tile) (r : Nat) (v : DWord) : (t.setHX r v).bench = t.bench := by unfold Tile.setHX; split <;> [rfl; (unfold Tile.setX; split <;> rfl)]
@[simp] theorem setHX_lastph (t : Tile) (r : Nat) (v : DWord) : (t.setHX r v).lastph = t.lastph := by unfold Tile.setHX; split <;> [rfl; (unfold Tile.setX; split <;> rfl)]
@[simp] theorem setHX_mule (t : Tile) (r : Nat) (v : DWord) : (t.setHX r v).mule = t.mule := by unfold Tile.setHX; split <;> [rfl; (unfold Tile.setX; split <;> rfl)]
@[simp] theorem setHX_mon (t : Tile) (r : Nat) (v : DWord) : (t.setHX r v).mon = t.mon := by unfold Tile.setHX; split <;> [rfl; (unfold Tile.setX; split <;> rfl)]
@[simp] theorem setHX_tlb (t : Tile) (r : Nat) (v : DWord) : (t.setHX r v).tlb = t.tlb := by unfold Tile.setHX; split <;> [rfl; (unfold Tile.setX; split <;> rfl)]
@[simp] theorem setHX_rc (t : Tile) (r : Nat) (v : DWord) : (t.setHX r v).rc = t.rc := by unfold Tile.setHX; split <;> [rfl; (unfold Tile.setX; split <;> rfl)]
@[simp] theorem setHX_wakes (t : Tile) (r : Nat) (v : DWord) : (t.setHX r v).wakes = t.wakes := by unfold Tile.setHX; split <;> [rfl; (unfold Tile.setX; split <;> rfl)]

@[simp] theorem setP_x (t : Tile) (i : Nat) (b : Bool) : (t.setP i b).x = t.x := by unfold Tile.setP; split <;> rfl
@[simp] theorem setP_bt (t : Tile) (i : Nat) (b : Bool) : (t.setP i b).bt = t.bt := by unfold Tile.setP; split <;> rfl
@[simp] theorem setP_arm (t : Tile) (i : Nat) (b : Bool) : (t.setP i b).arm = t.arm := by unfold Tile.setP; split <;> rfl
@[simp] theorem setP_hx (t : Tile) (i : Nat) (b : Bool) : (t.setP i b).hx = t.hx := by unfold Tile.setP; split <;> rfl
@[simp] theorem setP_hbt (t : Tile) (i : Nat) (b : Bool) : (t.setP i b).hbt = t.hbt := by unfold Tile.setP; split <;> rfl
@[simp] theorem setP_harm (t : Tile) (i : Nat) (b : Bool) : (t.setP i b).harm = t.harm := by unfold Tile.setP; split <;> rfl
@[simp] theorem setP_k (t : Tile) (i : Nat) (b : Bool) : (t.setP i b).k = t.k := by unfold Tile.setP; split <;> rfl
@[simp] theorem setP_curA (t : Tile) (i : Nat) (b : Bool) : (t.setP i b).curA = t.curA := by unfold Tile.setP; split <;> rfl
@[simp] theorem setP_curB (t : Tile) (i : Nat) (b : Bool) : (t.setP i b).curB = t.curB := by unfold Tile.setP; split <;> rfl
@[simp] theorem setP_v (t : Tile) (i : Nat) (b : Bool) : (t.setP i b).v = t.v := by unfold Tile.setP; split <;> rfl
@[simp] theorem setP_latch (t : Tile) (i : Nat) (b : Bool) : (t.setP i b).latch = t.latch := by unfold Tile.setP; split <;> rfl
@[simp] theorem setP_walk (t : Tile) (i : Nat) (b : Bool) : (t.setP i b).walk = t.walk := by unfold Tile.setP; split <;> rfl
@[simp] theorem setP_shLive (t : Tile) (i : Nat) (b : Bool) : (t.setP i b).shLive = t.shLive := by unfold Tile.setP; split <;> rfl
@[simp] theorem setP_shShadow (t : Tile) (i : Nat) (b : Bool) : (t.setP i b).shShadow = t.shShadow := by unfold Tile.setP; split <;> rfl
@[simp] theorem setP_flags (t : Tile) (i : Nat) (b : Bool) : (t.setP i b).flags = t.flags := by unfold Tile.setP; split <;> rfl
@[simp] theorem setP_mx (t : Tile) (i : Nat) (b : Bool) : (t.setP i b).mx = t.mx := by unfold Tile.setP; split <;> rfl
@[simp] theorem setP_ldt (t : Tile) (i : Nat) (b : Bool) : (t.setP i b).ldt = t.ldt := by unfold Tile.setP; split <;> rfl
@[simp] theorem setP_cvt (t : Tile) (i : Nat) (b : Bool) : (t.setP i b).cvt = t.cvt := by unfold Tile.setP; split <;> rfl
@[simp] theorem setP_parked (t : Tile) (i : Nat) (b : Bool) : (t.setP i b).parked = t.parked := by unfold Tile.setP; split <;> rfl
@[simp] theorem setP_pool (t : Tile) (i : Nat) (b : Bool) : (t.setP i b).pool = t.pool := by unfold Tile.setP; split <;> rfl
@[simp] theorem setP_abank (t : Tile) (i : Nat) (b : Bool) : (t.setP i b).abank = t.abank := by unfold Tile.setP; split <;> rfl
@[simp] theorem setP_sbase (t : Tile) (i : Nat) (b : Bool) : (t.setP i b).sbase = t.sbase := by unfold Tile.setP; split <;> rfl
@[simp] theorem setP_parkTag (t : Tile) (i : Nat) (b : Bool) : (t.setP i b).parkTag = t.parkTag := by unfold Tile.setP; split <;> rfl
@[simp] theorem setP_seed (t : Tile) (i : Nat) (b : Bool) : (t.setP i b).seed = t.seed := by unfold Tile.setP; split <;> rfl
@[simp] theorem setP_plane0 (t : Tile) (i : Nat) (b : Bool) : (t.setP i b).plane0 = t.plane0 := by unfold Tile.setP; split <;> rfl
@[simp] theorem setP_plane1 (t : Tile) (i : Nat) (b : Bool) : (t.setP i b).plane1 = t.plane1 := by unfold Tile.setP; split <;> rfl
@[simp] theorem setP_liveIs1 (t : Tile) (i : Nat) (b : Bool) : (t.setP i b).liveIs1 = t.liveIs1 := by unfold Tile.setP; split <;> rfl
@[simp] theorem setP_sa (t : Tile) (i : Nat) (b : Bool) : (t.setP i b).sa = t.sa := by unfold Tile.setP; split <;> rfl
@[simp] theorem setP_sb (t : Tile) (i : Nat) (b : Bool) : (t.setP i b).sb = t.sb := by unfold Tile.setP; split <;> rfl
@[simp] theorem setP_acc (t : Tile) (i : Nat) (b : Bool) : (t.setP i b).acc = t.acc := by unfold Tile.setP; split <;> rfl
@[simp] theorem setP_spad (t : Tile) (i : Nat) (b : Bool) : (t.setP i b).spad = t.spad := by unfold Tile.setP; split <;> rfl
@[simp] theorem setP_slots (t : Tile) (i : Nat) (b : Bool) : (t.setP i b).slots = t.slots := by unfold Tile.setP; split <;> rfl
@[simp] theorem setP_prog (t : Tile) (i : Nat) (b : Bool) : (t.setP i b).prog = t.prog := by unfold Tile.setP; split <;> rfl
@[simp] theorem setP_scanSt (t : Tile) (i : Nat) (b : Bool) : (t.setP i b).scanSt = t.scanSt := by unfold Tile.setP; split <;> rfl
@[simp] theorem setP_sabs (t : Tile) (i : Nat) (b : Bool) : (t.setP i b).sabs = t.sabs := by unfold Tile.setP; split <;> rfl
@[simp] theorem setP_xabs (t : Tile) (i : Nat) (b : Bool) : (t.setP i b).xabs = t.xabs := by unfold Tile.setP; split <;> rfl
@[simp] theorem setP_settings (t : Tile) (i : Nat) (b : Bool) : (t.setP i b).settings = t.settings := by unfold Tile.setP; split <;> rfl
@[simp] theorem setP_held (t : Tile) (i : Nat) (b : Bool) : (t.setP i b).held = t.held := by unfold Tile.setP; split <;> rfl
@[simp] theorem setP_scanBuf (t : Tile) (i : Nat) (b : Bool) : (t.setP i b).scanBuf = t.scanBuf := by unfold Tile.setP; split <;> rfl
@[simp] theorem setP_nodes (t : Tile) (i : Nat) (b : Bool) : (t.setP i b).nodes = t.nodes := by unfold Tile.setP; split <;> rfl
@[simp] theorem setP_resv (t : Tile) (i : Nat) (b : Bool) : (t.setP i b).resv = t.resv := by unfold Tile.setP; split <;> rfl
@[simp] theorem setP_waits (t : Tile) (i : Nat) (b : Bool) : (t.setP i b).waits = t.waits := by unfold Tile.setP; split <;> rfl
@[simp] theorem setP_bench (t : Tile) (i : Nat) (b : Bool) : (t.setP i b).bench = t.bench := by unfold Tile.setP; split <;> rfl
@[simp] theorem setP_lastph (t : Tile) (i : Nat) (b : Bool) : (t.setP i b).lastph = t.lastph := by unfold Tile.setP; split <;> rfl
@[simp] theorem setP_mule (t : Tile) (i : Nat) (b : Bool) : (t.setP i b).mule = t.mule := by unfold Tile.setP; split <;> rfl
@[simp] theorem setP_mon (t : Tile) (i : Nat) (b : Bool) : (t.setP i b).mon = t.mon := by unfold Tile.setP; split <;> rfl
@[simp] theorem setP_tlb (t : Tile) (i : Nat) (b : Bool) : (t.setP i b).tlb = t.tlb := by unfold Tile.setP; split <;> rfl
@[simp] theorem setP_rc (t : Tile) (i : Nat) (b : Bool) : (t.setP i b).rc = t.rc := by unfold Tile.setP; split <;> rfl
@[simp] theorem setP_wakes (t : Tile) (i : Nat) (b : Bool) : (t.setP i b).wakes = t.wakes := by unfold Tile.setP; split <;> rfl

@[simp] theorem setK_x (t : Tile) (i : Nat) (m : Mask) : (t.setK i m).x = t.x := rfl
@[simp] theorem setK_p (t : Tile) (i : Nat) (m : Mask) : (t.setK i m).p = t.p := rfl
@[simp] theorem setK_bt (t : Tile) (i : Nat) (m : Mask) : (t.setK i m).bt = t.bt := rfl
@[simp] theorem setK_arm (t : Tile) (i : Nat) (m : Mask) : (t.setK i m).arm = t.arm := rfl
@[simp] theorem setK_hx (t : Tile) (i : Nat) (m : Mask) : (t.setK i m).hx = t.hx := rfl
@[simp] theorem setK_hbt (t : Tile) (i : Nat) (m : Mask) : (t.setK i m).hbt = t.hbt := rfl
@[simp] theorem setK_harm (t : Tile) (i : Nat) (m : Mask) : (t.setK i m).harm = t.harm := rfl
@[simp] theorem setK_curA (t : Tile) (i : Nat) (m : Mask) : (t.setK i m).curA = t.curA := rfl
@[simp] theorem setK_curB (t : Tile) (i : Nat) (m : Mask) : (t.setK i m).curB = t.curB := rfl
@[simp] theorem setK_v (t : Tile) (i : Nat) (m : Mask) : (t.setK i m).v = t.v := rfl
@[simp] theorem setK_latch (t : Tile) (i : Nat) (m : Mask) : (t.setK i m).latch = t.latch := rfl
@[simp] theorem setK_walk (t : Tile) (i : Nat) (m : Mask) : (t.setK i m).walk = t.walk := rfl
@[simp] theorem setK_shLive (t : Tile) (i : Nat) (m : Mask) : (t.setK i m).shLive = t.shLive := rfl
@[simp] theorem setK_shShadow (t : Tile) (i : Nat) (m : Mask) : (t.setK i m).shShadow = t.shShadow := rfl
@[simp] theorem setK_flags (t : Tile) (i : Nat) (m : Mask) : (t.setK i m).flags = t.flags := rfl
@[simp] theorem setK_mx (t : Tile) (i : Nat) (m : Mask) : (t.setK i m).mx = t.mx := rfl
@[simp] theorem setK_ldt (t : Tile) (i : Nat) (m : Mask) : (t.setK i m).ldt = t.ldt := rfl
@[simp] theorem setK_cvt (t : Tile) (i : Nat) (m : Mask) : (t.setK i m).cvt = t.cvt := rfl
@[simp] theorem setK_parked (t : Tile) (i : Nat) (m : Mask) : (t.setK i m).parked = t.parked := rfl
@[simp] theorem setK_pool (t : Tile) (i : Nat) (m : Mask) : (t.setK i m).pool = t.pool := rfl
@[simp] theorem setK_abank (t : Tile) (i : Nat) (m : Mask) : (t.setK i m).abank = t.abank := rfl
@[simp] theorem setK_sbase (t : Tile) (i : Nat) (m : Mask) : (t.setK i m).sbase = t.sbase := rfl
@[simp] theorem setK_parkTag (t : Tile) (i : Nat) (m : Mask) : (t.setK i m).parkTag = t.parkTag := rfl
@[simp] theorem setK_seed (t : Tile) (i : Nat) (m : Mask) : (t.setK i m).seed = t.seed := rfl
@[simp] theorem setK_plane0 (t : Tile) (i : Nat) (m : Mask) : (t.setK i m).plane0 = t.plane0 := rfl
@[simp] theorem setK_plane1 (t : Tile) (i : Nat) (m : Mask) : (t.setK i m).plane1 = t.plane1 := rfl
@[simp] theorem setK_liveIs1 (t : Tile) (i : Nat) (m : Mask) : (t.setK i m).liveIs1 = t.liveIs1 := rfl
@[simp] theorem setK_sa (t : Tile) (i : Nat) (m : Mask) : (t.setK i m).sa = t.sa := rfl
@[simp] theorem setK_sb (t : Tile) (i : Nat) (m : Mask) : (t.setK i m).sb = t.sb := rfl
@[simp] theorem setK_acc (t : Tile) (i : Nat) (m : Mask) : (t.setK i m).acc = t.acc := rfl
@[simp] theorem setK_spad (t : Tile) (i : Nat) (m : Mask) : (t.setK i m).spad = t.spad := rfl
@[simp] theorem setK_slots (t : Tile) (i : Nat) (m : Mask) : (t.setK i m).slots = t.slots := rfl
@[simp] theorem setK_prog (t : Tile) (i : Nat) (m : Mask) : (t.setK i m).prog = t.prog := rfl
@[simp] theorem setK_scanSt (t : Tile) (i : Nat) (m : Mask) : (t.setK i m).scanSt = t.scanSt := rfl
@[simp] theorem setK_sabs (t : Tile) (i : Nat) (m : Mask) : (t.setK i m).sabs = t.sabs := rfl
@[simp] theorem setK_xabs (t : Tile) (i : Nat) (m : Mask) : (t.setK i m).xabs = t.xabs := rfl
@[simp] theorem setK_settings (t : Tile) (i : Nat) (m : Mask) : (t.setK i m).settings = t.settings := rfl
@[simp] theorem setK_held (t : Tile) (i : Nat) (m : Mask) : (t.setK i m).held = t.held := rfl
@[simp] theorem setK_scanBuf (t : Tile) (i : Nat) (m : Mask) : (t.setK i m).scanBuf = t.scanBuf := rfl
@[simp] theorem setK_nodes (t : Tile) (i : Nat) (m : Mask) : (t.setK i m).nodes = t.nodes := rfl
@[simp] theorem setK_resv (t : Tile) (i : Nat) (m : Mask) : (t.setK i m).resv = t.resv := rfl
@[simp] theorem setK_waits (t : Tile) (i : Nat) (m : Mask) : (t.setK i m).waits = t.waits := rfl
@[simp] theorem setK_bench (t : Tile) (i : Nat) (m : Mask) : (t.setK i m).bench = t.bench := rfl
@[simp] theorem setK_lastph (t : Tile) (i : Nat) (m : Mask) : (t.setK i m).lastph = t.lastph := rfl
@[simp] theorem setK_mule (t : Tile) (i : Nat) (m : Mask) : (t.setK i m).mule = t.mule := rfl
@[simp] theorem setK_mon (t : Tile) (i : Nat) (m : Mask) : (t.setK i m).mon = t.mon := rfl
@[simp] theorem setK_tlb (t : Tile) (i : Nat) (m : Mask) : (t.setK i m).tlb = t.tlb := rfl
@[simp] theorem setK_rc (t : Tile) (i : Nat) (m : Mask) : (t.setK i m).rc = t.rc := rfl
@[simp] theorem setK_wakes (t : Tile) (i : Nat) (m : Mask) : (t.setK i m).wakes = t.wakes := rfl

@[simp] theorem setV_x (t : Tile) (i : Nat) (v : Vec) : (t.setV i v).x = t.x := rfl
@[simp] theorem setV_p (t : Tile) (i : Nat) (v : Vec) : (t.setV i v).p = t.p := rfl
@[simp] theorem setV_bt (t : Tile) (i : Nat) (v : Vec) : (t.setV i v).bt = t.bt := rfl
@[simp] theorem setV_arm (t : Tile) (i : Nat) (v : Vec) : (t.setV i v).arm = t.arm := rfl
@[simp] theorem setV_hx (t : Tile) (i : Nat) (v : Vec) : (t.setV i v).hx = t.hx := rfl
@[simp] theorem setV_hbt (t : Tile) (i : Nat) (v : Vec) : (t.setV i v).hbt = t.hbt := rfl
@[simp] theorem setV_harm (t : Tile) (i : Nat) (v : Vec) : (t.setV i v).harm = t.harm := rfl
@[simp] theorem setV_k (t : Tile) (i : Nat) (v : Vec) : (t.setV i v).k = t.k := rfl
@[simp] theorem setV_curA (t : Tile) (i : Nat) (v : Vec) : (t.setV i v).curA = t.curA := rfl
@[simp] theorem setV_curB (t : Tile) (i : Nat) (v : Vec) : (t.setV i v).curB = t.curB := rfl
@[simp] theorem setV_latch (t : Tile) (i : Nat) (v : Vec) : (t.setV i v).latch = t.latch := rfl
@[simp] theorem setV_walk (t : Tile) (i : Nat) (v : Vec) : (t.setV i v).walk = t.walk := rfl
@[simp] theorem setV_shLive (t : Tile) (i : Nat) (v : Vec) : (t.setV i v).shLive = t.shLive := rfl
@[simp] theorem setV_shShadow (t : Tile) (i : Nat) (v : Vec) : (t.setV i v).shShadow = t.shShadow := rfl
@[simp] theorem setV_flags (t : Tile) (i : Nat) (v : Vec) : (t.setV i v).flags = t.flags := rfl
@[simp] theorem setV_mx (t : Tile) (i : Nat) (v : Vec) : (t.setV i v).mx = t.mx := rfl
@[simp] theorem setV_ldt (t : Tile) (i : Nat) (v : Vec) : (t.setV i v).ldt = t.ldt := rfl
@[simp] theorem setV_cvt (t : Tile) (i : Nat) (v : Vec) : (t.setV i v).cvt = t.cvt := rfl
@[simp] theorem setV_parked (t : Tile) (i : Nat) (v : Vec) : (t.setV i v).parked = t.parked := rfl
@[simp] theorem setV_pool (t : Tile) (i : Nat) (v : Vec) : (t.setV i v).pool = t.pool := rfl
@[simp] theorem setV_abank (t : Tile) (i : Nat) (v : Vec) : (t.setV i v).abank = t.abank := rfl
@[simp] theorem setV_sbase (t : Tile) (i : Nat) (v : Vec) : (t.setV i v).sbase = t.sbase := rfl
@[simp] theorem setV_parkTag (t : Tile) (i : Nat) (v : Vec) : (t.setV i v).parkTag = t.parkTag := rfl
@[simp] theorem setV_seed (t : Tile) (i : Nat) (v : Vec) : (t.setV i v).seed = t.seed := rfl
@[simp] theorem setV_plane0 (t : Tile) (i : Nat) (v : Vec) : (t.setV i v).plane0 = t.plane0 := rfl
@[simp] theorem setV_plane1 (t : Tile) (i : Nat) (v : Vec) : (t.setV i v).plane1 = t.plane1 := rfl
@[simp] theorem setV_liveIs1 (t : Tile) (i : Nat) (v : Vec) : (t.setV i v).liveIs1 = t.liveIs1 := rfl
@[simp] theorem setV_sa (t : Tile) (i : Nat) (v : Vec) : (t.setV i v).sa = t.sa := rfl
@[simp] theorem setV_sb (t : Tile) (i : Nat) (v : Vec) : (t.setV i v).sb = t.sb := rfl
@[simp] theorem setV_acc (t : Tile) (i : Nat) (v : Vec) : (t.setV i v).acc = t.acc := rfl
@[simp] theorem setV_spad (t : Tile) (i : Nat) (v : Vec) : (t.setV i v).spad = t.spad := rfl
@[simp] theorem setV_slots (t : Tile) (i : Nat) (v : Vec) : (t.setV i v).slots = t.slots := rfl
@[simp] theorem setV_prog (t : Tile) (i : Nat) (v : Vec) : (t.setV i v).prog = t.prog := rfl
@[simp] theorem setV_scanSt (t : Tile) (i : Nat) (v : Vec) : (t.setV i v).scanSt = t.scanSt := rfl
@[simp] theorem setV_sabs (t : Tile) (i : Nat) (v : Vec) : (t.setV i v).sabs = t.sabs := rfl
@[simp] theorem setV_xabs (t : Tile) (i : Nat) (v : Vec) : (t.setV i v).xabs = t.xabs := rfl
@[simp] theorem setV_settings (t : Tile) (i : Nat) (v : Vec) : (t.setV i v).settings = t.settings := rfl
@[simp] theorem setV_held (t : Tile) (i : Nat) (v : Vec) : (t.setV i v).held = t.held := rfl
@[simp] theorem setV_scanBuf (t : Tile) (i : Nat) (v : Vec) : (t.setV i v).scanBuf = t.scanBuf := rfl
@[simp] theorem setV_nodes (t : Tile) (i : Nat) (v : Vec) : (t.setV i v).nodes = t.nodes := rfl
@[simp] theorem setV_resv (t : Tile) (i : Nat) (v : Vec) : (t.setV i v).resv = t.resv := rfl
@[simp] theorem setV_waits (t : Tile) (i : Nat) (v : Vec) : (t.setV i v).waits = t.waits := rfl
@[simp] theorem setV_bench (t : Tile) (i : Nat) (v : Vec) : (t.setV i v).bench = t.bench := rfl
@[simp] theorem setV_lastph (t : Tile) (i : Nat) (v : Vec) : (t.setV i v).lastph = t.lastph := rfl
@[simp] theorem setV_mule (t : Tile) (i : Nat) (v : Vec) : (t.setV i v).mule = t.mule := rfl
@[simp] theorem setV_mon (t : Tile) (i : Nat) (v : Vec) : (t.setV i v).mon = t.mon := rfl
@[simp] theorem setV_tlb (t : Tile) (i : Nat) (v : Vec) : (t.setV i v).tlb = t.tlb := rfl
@[simp] theorem setV_rc (t : Tile) (i : Nat) (v : Vec) : (t.setV i v).rc = t.rc := rfl
@[simp] theorem setV_wakes (t : Tile) (i : Nat) (v : Vec) : (t.setV i v).wakes = t.wakes := rfl

@[simp] theorem setLatch_x (t : Tile) (i : Nat) (v : Vec) : (t.setLatch i v).x = t.x := rfl
@[simp] theorem setLatch_p (t : Tile) (i : Nat) (v : Vec) : (t.setLatch i v).p = t.p := rfl
@[simp] theorem setLatch_bt (t : Tile) (i : Nat) (v : Vec) : (t.setLatch i v).bt = t.bt := rfl
@[simp] theorem setLatch_arm (t : Tile) (i : Nat) (v : Vec) : (t.setLatch i v).arm = t.arm := rfl
@[simp] theorem setLatch_hx (t : Tile) (i : Nat) (v : Vec) : (t.setLatch i v).hx = t.hx := rfl
@[simp] theorem setLatch_hbt (t : Tile) (i : Nat) (v : Vec) : (t.setLatch i v).hbt = t.hbt := rfl
@[simp] theorem setLatch_harm (t : Tile) (i : Nat) (v : Vec) : (t.setLatch i v).harm = t.harm := rfl
@[simp] theorem setLatch_k (t : Tile) (i : Nat) (v : Vec) : (t.setLatch i v).k = t.k := rfl
@[simp] theorem setLatch_curA (t : Tile) (i : Nat) (v : Vec) : (t.setLatch i v).curA = t.curA := rfl
@[simp] theorem setLatch_curB (t : Tile) (i : Nat) (v : Vec) : (t.setLatch i v).curB = t.curB := rfl
@[simp] theorem setLatch_v (t : Tile) (i : Nat) (v : Vec) : (t.setLatch i v).v = t.v := rfl
@[simp] theorem setLatch_walk (t : Tile) (i : Nat) (v : Vec) : (t.setLatch i v).walk = t.walk := rfl
@[simp] theorem setLatch_shLive (t : Tile) (i : Nat) (v : Vec) : (t.setLatch i v).shLive = t.shLive := rfl
@[simp] theorem setLatch_shShadow (t : Tile) (i : Nat) (v : Vec) : (t.setLatch i v).shShadow = t.shShadow := rfl
@[simp] theorem setLatch_flags (t : Tile) (i : Nat) (v : Vec) : (t.setLatch i v).flags = t.flags := rfl
@[simp] theorem setLatch_mx (t : Tile) (i : Nat) (v : Vec) : (t.setLatch i v).mx = t.mx := rfl
@[simp] theorem setLatch_ldt (t : Tile) (i : Nat) (v : Vec) : (t.setLatch i v).ldt = t.ldt := rfl
@[simp] theorem setLatch_cvt (t : Tile) (i : Nat) (v : Vec) : (t.setLatch i v).cvt = t.cvt := rfl
@[simp] theorem setLatch_parked (t : Tile) (i : Nat) (v : Vec) : (t.setLatch i v).parked = t.parked := rfl
@[simp] theorem setLatch_pool (t : Tile) (i : Nat) (v : Vec) : (t.setLatch i v).pool = t.pool := rfl
@[simp] theorem setLatch_abank (t : Tile) (i : Nat) (v : Vec) : (t.setLatch i v).abank = t.abank := rfl
@[simp] theorem setLatch_sbase (t : Tile) (i : Nat) (v : Vec) : (t.setLatch i v).sbase = t.sbase := rfl
@[simp] theorem setLatch_parkTag (t : Tile) (i : Nat) (v : Vec) : (t.setLatch i v).parkTag = t.parkTag := rfl
@[simp] theorem setLatch_seed (t : Tile) (i : Nat) (v : Vec) : (t.setLatch i v).seed = t.seed := rfl
@[simp] theorem setLatch_plane0 (t : Tile) (i : Nat) (v : Vec) : (t.setLatch i v).plane0 = t.plane0 := rfl
@[simp] theorem setLatch_plane1 (t : Tile) (i : Nat) (v : Vec) : (t.setLatch i v).plane1 = t.plane1 := rfl
@[simp] theorem setLatch_liveIs1 (t : Tile) (i : Nat) (v : Vec) : (t.setLatch i v).liveIs1 = t.liveIs1 := rfl
@[simp] theorem setLatch_sa (t : Tile) (i : Nat) (v : Vec) : (t.setLatch i v).sa = t.sa := rfl
@[simp] theorem setLatch_sb (t : Tile) (i : Nat) (v : Vec) : (t.setLatch i v).sb = t.sb := rfl
@[simp] theorem setLatch_acc (t : Tile) (i : Nat) (v : Vec) : (t.setLatch i v).acc = t.acc := rfl
@[simp] theorem setLatch_spad (t : Tile) (i : Nat) (v : Vec) : (t.setLatch i v).spad = t.spad := rfl
@[simp] theorem setLatch_slots (t : Tile) (i : Nat) (v : Vec) : (t.setLatch i v).slots = t.slots := rfl
@[simp] theorem setLatch_prog (t : Tile) (i : Nat) (v : Vec) : (t.setLatch i v).prog = t.prog := rfl
@[simp] theorem setLatch_scanSt (t : Tile) (i : Nat) (v : Vec) : (t.setLatch i v).scanSt = t.scanSt := rfl
@[simp] theorem setLatch_sabs (t : Tile) (i : Nat) (v : Vec) : (t.setLatch i v).sabs = t.sabs := rfl
@[simp] theorem setLatch_xabs (t : Tile) (i : Nat) (v : Vec) : (t.setLatch i v).xabs = t.xabs := rfl
@[simp] theorem setLatch_settings (t : Tile) (i : Nat) (v : Vec) : (t.setLatch i v).settings = t.settings := rfl
@[simp] theorem setLatch_held (t : Tile) (i : Nat) (v : Vec) : (t.setLatch i v).held = t.held := rfl
@[simp] theorem setLatch_scanBuf (t : Tile) (i : Nat) (v : Vec) : (t.setLatch i v).scanBuf = t.scanBuf := rfl
@[simp] theorem setLatch_nodes (t : Tile) (i : Nat) (v : Vec) : (t.setLatch i v).nodes = t.nodes := rfl
@[simp] theorem setLatch_resv (t : Tile) (i : Nat) (v : Vec) : (t.setLatch i v).resv = t.resv := rfl
@[simp] theorem setLatch_waits (t : Tile) (i : Nat) (v : Vec) : (t.setLatch i v).waits = t.waits := rfl
@[simp] theorem setLatch_bench (t : Tile) (i : Nat) (v : Vec) : (t.setLatch i v).bench = t.bench := rfl
@[simp] theorem setLatch_lastph (t : Tile) (i : Nat) (v : Vec) : (t.setLatch i v).lastph = t.lastph := rfl
@[simp] theorem setLatch_mule (t : Tile) (i : Nat) (v : Vec) : (t.setLatch i v).mule = t.mule := rfl
@[simp] theorem setLatch_mon (t : Tile) (i : Nat) (v : Vec) : (t.setLatch i v).mon = t.mon := rfl
@[simp] theorem setLatch_tlb (t : Tile) (i : Nat) (v : Vec) : (t.setLatch i v).tlb = t.tlb := rfl
@[simp] theorem setLatch_rc (t : Tile) (i : Nat) (v : Vec) : (t.setLatch i v).rc = t.rc := rfl
@[simp] theorem setLatch_wakes (t : Tile) (i : Nat) (v : Vec) : (t.setLatch i v).wakes = t.wakes := rfl

@[simp] theorem setWalk_x (t : Tile) (i : Nat) (w : Walker) : (t.setWalk i w).x = t.x := rfl
@[simp] theorem setWalk_p (t : Tile) (i : Nat) (w : Walker) : (t.setWalk i w).p = t.p := rfl
@[simp] theorem setWalk_bt (t : Tile) (i : Nat) (w : Walker) : (t.setWalk i w).bt = t.bt := rfl
@[simp] theorem setWalk_arm (t : Tile) (i : Nat) (w : Walker) : (t.setWalk i w).arm = t.arm := rfl
@[simp] theorem setWalk_hx (t : Tile) (i : Nat) (w : Walker) : (t.setWalk i w).hx = t.hx := rfl
@[simp] theorem setWalk_hbt (t : Tile) (i : Nat) (w : Walker) : (t.setWalk i w).hbt = t.hbt := rfl
@[simp] theorem setWalk_harm (t : Tile) (i : Nat) (w : Walker) : (t.setWalk i w).harm = t.harm := rfl
@[simp] theorem setWalk_k (t : Tile) (i : Nat) (w : Walker) : (t.setWalk i w).k = t.k := rfl
@[simp] theorem setWalk_curA (t : Tile) (i : Nat) (w : Walker) : (t.setWalk i w).curA = t.curA := rfl
@[simp] theorem setWalk_curB (t : Tile) (i : Nat) (w : Walker) : (t.setWalk i w).curB = t.curB := rfl
@[simp] theorem setWalk_v (t : Tile) (i : Nat) (w : Walker) : (t.setWalk i w).v = t.v := rfl
@[simp] theorem setWalk_latch (t : Tile) (i : Nat) (w : Walker) : (t.setWalk i w).latch = t.latch := rfl
@[simp] theorem setWalk_shLive (t : Tile) (i : Nat) (w : Walker) : (t.setWalk i w).shLive = t.shLive := rfl
@[simp] theorem setWalk_shShadow (t : Tile) (i : Nat) (w : Walker) : (t.setWalk i w).shShadow = t.shShadow := rfl
@[simp] theorem setWalk_flags (t : Tile) (i : Nat) (w : Walker) : (t.setWalk i w).flags = t.flags := rfl
@[simp] theorem setWalk_mx (t : Tile) (i : Nat) (w : Walker) : (t.setWalk i w).mx = t.mx := rfl
@[simp] theorem setWalk_ldt (t : Tile) (i : Nat) (w : Walker) : (t.setWalk i w).ldt = t.ldt := rfl
@[simp] theorem setWalk_cvt (t : Tile) (i : Nat) (w : Walker) : (t.setWalk i w).cvt = t.cvt := rfl
@[simp] theorem setWalk_parked (t : Tile) (i : Nat) (w : Walker) : (t.setWalk i w).parked = t.parked := rfl
@[simp] theorem setWalk_pool (t : Tile) (i : Nat) (w : Walker) : (t.setWalk i w).pool = t.pool := rfl
@[simp] theorem setWalk_abank (t : Tile) (i : Nat) (w : Walker) : (t.setWalk i w).abank = t.abank := rfl
@[simp] theorem setWalk_sbase (t : Tile) (i : Nat) (w : Walker) : (t.setWalk i w).sbase = t.sbase := rfl
@[simp] theorem setWalk_parkTag (t : Tile) (i : Nat) (w : Walker) : (t.setWalk i w).parkTag = t.parkTag := rfl
@[simp] theorem setWalk_seed (t : Tile) (i : Nat) (w : Walker) : (t.setWalk i w).seed = t.seed := rfl
@[simp] theorem setWalk_plane0 (t : Tile) (i : Nat) (w : Walker) : (t.setWalk i w).plane0 = t.plane0 := rfl
@[simp] theorem setWalk_plane1 (t : Tile) (i : Nat) (w : Walker) : (t.setWalk i w).plane1 = t.plane1 := rfl
@[simp] theorem setWalk_liveIs1 (t : Tile) (i : Nat) (w : Walker) : (t.setWalk i w).liveIs1 = t.liveIs1 := rfl
@[simp] theorem setWalk_sa (t : Tile) (i : Nat) (w : Walker) : (t.setWalk i w).sa = t.sa := rfl
@[simp] theorem setWalk_sb (t : Tile) (i : Nat) (w : Walker) : (t.setWalk i w).sb = t.sb := rfl
@[simp] theorem setWalk_acc (t : Tile) (i : Nat) (w : Walker) : (t.setWalk i w).acc = t.acc := rfl
@[simp] theorem setWalk_spad (t : Tile) (i : Nat) (w : Walker) : (t.setWalk i w).spad = t.spad := rfl
@[simp] theorem setWalk_slots (t : Tile) (i : Nat) (w : Walker) : (t.setWalk i w).slots = t.slots := rfl
@[simp] theorem setWalk_prog (t : Tile) (i : Nat) (w : Walker) : (t.setWalk i w).prog = t.prog := rfl
@[simp] theorem setWalk_scanSt (t : Tile) (i : Nat) (w : Walker) : (t.setWalk i w).scanSt = t.scanSt := rfl
@[simp] theorem setWalk_sabs (t : Tile) (i : Nat) (w : Walker) : (t.setWalk i w).sabs = t.sabs := rfl
@[simp] theorem setWalk_xabs (t : Tile) (i : Nat) (w : Walker) : (t.setWalk i w).xabs = t.xabs := rfl
@[simp] theorem setWalk_settings (t : Tile) (i : Nat) (w : Walker) : (t.setWalk i w).settings = t.settings := rfl
@[simp] theorem setWalk_held (t : Tile) (i : Nat) (w : Walker) : (t.setWalk i w).held = t.held := rfl
@[simp] theorem setWalk_scanBuf (t : Tile) (i : Nat) (w : Walker) : (t.setWalk i w).scanBuf = t.scanBuf := rfl
@[simp] theorem setWalk_nodes (t : Tile) (i : Nat) (w : Walker) : (t.setWalk i w).nodes = t.nodes := rfl
@[simp] theorem setWalk_resv (t : Tile) (i : Nat) (w : Walker) : (t.setWalk i w).resv = t.resv := rfl
@[simp] theorem setWalk_waits (t : Tile) (i : Nat) (w : Walker) : (t.setWalk i w).waits = t.waits := rfl
@[simp] theorem setWalk_bench (t : Tile) (i : Nat) (w : Walker) : (t.setWalk i w).bench = t.bench := rfl
@[simp] theorem setWalk_lastph (t : Tile) (i : Nat) (w : Walker) : (t.setWalk i w).lastph = t.lastph := rfl
@[simp] theorem setWalk_mule (t : Tile) (i : Nat) (w : Walker) : (t.setWalk i w).mule = t.mule := rfl
@[simp] theorem setWalk_mon (t : Tile) (i : Nat) (w : Walker) : (t.setWalk i w).mon = t.mon := rfl
@[simp] theorem setWalk_tlb (t : Tile) (i : Nat) (w : Walker) : (t.setWalk i w).tlb = t.tlb := rfl
@[simp] theorem setWalk_rc (t : Tile) (i : Nat) (w : Walker) : (t.setWalk i w).rc = t.rc := rfl
@[simp] theorem setWalk_wakes (t : Tile) (i : Nat) (w : Walker) : (t.setWalk i w).wakes = t.wakes := rfl

@[simp] theorem setSlot_x (t : Tile) (z : Nat) (v : Slot) : (t.setSlot z v).x = t.x := rfl
@[simp] theorem setSlot_p (t : Tile) (z : Nat) (v : Slot) : (t.setSlot z v).p = t.p := rfl
@[simp] theorem setSlot_bt (t : Tile) (z : Nat) (v : Slot) : (t.setSlot z v).bt = t.bt := rfl
@[simp] theorem setSlot_arm (t : Tile) (z : Nat) (v : Slot) : (t.setSlot z v).arm = t.arm := rfl
@[simp] theorem setSlot_hx (t : Tile) (z : Nat) (v : Slot) : (t.setSlot z v).hx = t.hx := rfl
@[simp] theorem setSlot_hbt (t : Tile) (z : Nat) (v : Slot) : (t.setSlot z v).hbt = t.hbt := rfl
@[simp] theorem setSlot_harm (t : Tile) (z : Nat) (v : Slot) : (t.setSlot z v).harm = t.harm := rfl
@[simp] theorem setSlot_k (t : Tile) (z : Nat) (v : Slot) : (t.setSlot z v).k = t.k := rfl
@[simp] theorem setSlot_curA (t : Tile) (z : Nat) (v : Slot) : (t.setSlot z v).curA = t.curA := rfl
@[simp] theorem setSlot_curB (t : Tile) (z : Nat) (v : Slot) : (t.setSlot z v).curB = t.curB := rfl
@[simp] theorem setSlot_v (t : Tile) (z : Nat) (v : Slot) : (t.setSlot z v).v = t.v := rfl
@[simp] theorem setSlot_latch (t : Tile) (z : Nat) (v : Slot) : (t.setSlot z v).latch = t.latch := rfl
@[simp] theorem setSlot_walk (t : Tile) (z : Nat) (v : Slot) : (t.setSlot z v).walk = t.walk := rfl
@[simp] theorem setSlot_shLive (t : Tile) (z : Nat) (v : Slot) : (t.setSlot z v).shLive = t.shLive := rfl
@[simp] theorem setSlot_shShadow (t : Tile) (z : Nat) (v : Slot) : (t.setSlot z v).shShadow = t.shShadow := rfl
@[simp] theorem setSlot_flags (t : Tile) (z : Nat) (v : Slot) : (t.setSlot z v).flags = t.flags := rfl
@[simp] theorem setSlot_mx (t : Tile) (z : Nat) (v : Slot) : (t.setSlot z v).mx = t.mx := rfl
@[simp] theorem setSlot_ldt (t : Tile) (z : Nat) (v : Slot) : (t.setSlot z v).ldt = t.ldt := rfl
@[simp] theorem setSlot_cvt (t : Tile) (z : Nat) (v : Slot) : (t.setSlot z v).cvt = t.cvt := rfl
@[simp] theorem setSlot_parked (t : Tile) (z : Nat) (v : Slot) : (t.setSlot z v).parked = t.parked := rfl
@[simp] theorem setSlot_pool (t : Tile) (z : Nat) (v : Slot) : (t.setSlot z v).pool = t.pool := rfl
@[simp] theorem setSlot_abank (t : Tile) (z : Nat) (v : Slot) : (t.setSlot z v).abank = t.abank := rfl
@[simp] theorem setSlot_sbase (t : Tile) (z : Nat) (v : Slot) : (t.setSlot z v).sbase = t.sbase := rfl
@[simp] theorem setSlot_parkTag (t : Tile) (z : Nat) (v : Slot) : (t.setSlot z v).parkTag = t.parkTag := rfl
@[simp] theorem setSlot_seed (t : Tile) (z : Nat) (v : Slot) : (t.setSlot z v).seed = t.seed := rfl
@[simp] theorem setSlot_plane0 (t : Tile) (z : Nat) (v : Slot) : (t.setSlot z v).plane0 = t.plane0 := rfl
@[simp] theorem setSlot_plane1 (t : Tile) (z : Nat) (v : Slot) : (t.setSlot z v).plane1 = t.plane1 := rfl
@[simp] theorem setSlot_liveIs1 (t : Tile) (z : Nat) (v : Slot) : (t.setSlot z v).liveIs1 = t.liveIs1 := rfl
@[simp] theorem setSlot_sa (t : Tile) (z : Nat) (v : Slot) : (t.setSlot z v).sa = t.sa := rfl
@[simp] theorem setSlot_sb (t : Tile) (z : Nat) (v : Slot) : (t.setSlot z v).sb = t.sb := rfl
@[simp] theorem setSlot_acc (t : Tile) (z : Nat) (v : Slot) : (t.setSlot z v).acc = t.acc := rfl
@[simp] theorem setSlot_spad (t : Tile) (z : Nat) (v : Slot) : (t.setSlot z v).spad = t.spad := rfl
@[simp] theorem setSlot_prog (t : Tile) (z : Nat) (v : Slot) : (t.setSlot z v).prog = t.prog := rfl
@[simp] theorem setSlot_scanSt (t : Tile) (z : Nat) (v : Slot) : (t.setSlot z v).scanSt = t.scanSt := rfl
@[simp] theorem setSlot_sabs (t : Tile) (z : Nat) (v : Slot) : (t.setSlot z v).sabs = t.sabs := rfl
@[simp] theorem setSlot_xabs (t : Tile) (z : Nat) (v : Slot) : (t.setSlot z v).xabs = t.xabs := rfl
@[simp] theorem setSlot_settings (t : Tile) (z : Nat) (v : Slot) : (t.setSlot z v).settings = t.settings := rfl
@[simp] theorem setSlot_held (t : Tile) (z : Nat) (v : Slot) : (t.setSlot z v).held = t.held := rfl
@[simp] theorem setSlot_scanBuf (t : Tile) (z : Nat) (v : Slot) : (t.setSlot z v).scanBuf = t.scanBuf := rfl
@[simp] theorem setSlot_nodes (t : Tile) (z : Nat) (v : Slot) : (t.setSlot z v).nodes = t.nodes := rfl
@[simp] theorem setSlot_resv (t : Tile) (z : Nat) (v : Slot) : (t.setSlot z v).resv = t.resv := rfl
@[simp] theorem setSlot_waits (t : Tile) (z : Nat) (v : Slot) : (t.setSlot z v).waits = t.waits := rfl
@[simp] theorem setSlot_bench (t : Tile) (z : Nat) (v : Slot) : (t.setSlot z v).bench = t.bench := rfl
@[simp] theorem setSlot_lastph (t : Tile) (z : Nat) (v : Slot) : (t.setSlot z v).lastph = t.lastph := rfl
@[simp] theorem setSlot_mule (t : Tile) (z : Nat) (v : Slot) : (t.setSlot z v).mule = t.mule := rfl
@[simp] theorem setSlot_mon (t : Tile) (z : Nat) (v : Slot) : (t.setSlot z v).mon = t.mon := rfl
@[simp] theorem setSlot_tlb (t : Tile) (z : Nat) (v : Slot) : (t.setSlot z v).tlb = t.tlb := rfl
@[simp] theorem setSlot_rc (t : Tile) (z : Nat) (v : Slot) : (t.setSlot z v).rc = t.rc := rfl
@[simp] theorem setSlot_wakes (t : Tile) (z : Nat) (v : Slot) : (t.setSlot z v).wakes = t.wakes := rfl

@[simp] theorem setNode_x (t : Tile) (n : Nat) (v : Node) : (t.setNode n v).x = t.x := rfl
@[simp] theorem setNode_p (t : Tile) (n : Nat) (v : Node) : (t.setNode n v).p = t.p := rfl
@[simp] theorem setNode_bt (t : Tile) (n : Nat) (v : Node) : (t.setNode n v).bt = t.bt := rfl
@[simp] theorem setNode_arm (t : Tile) (n : Nat) (v : Node) : (t.setNode n v).arm = t.arm := rfl
@[simp] theorem setNode_hx (t : Tile) (n : Nat) (v : Node) : (t.setNode n v).hx = t.hx := rfl
@[simp] theorem setNode_hbt (t : Tile) (n : Nat) (v : Node) : (t.setNode n v).hbt = t.hbt := rfl
@[simp] theorem setNode_harm (t : Tile) (n : Nat) (v : Node) : (t.setNode n v).harm = t.harm := rfl
@[simp] theorem setNode_k (t : Tile) (n : Nat) (v : Node) : (t.setNode n v).k = t.k := rfl
@[simp] theorem setNode_curA (t : Tile) (n : Nat) (v : Node) : (t.setNode n v).curA = t.curA := rfl
@[simp] theorem setNode_curB (t : Tile) (n : Nat) (v : Node) : (t.setNode n v).curB = t.curB := rfl
@[simp] theorem setNode_v (t : Tile) (n : Nat) (v : Node) : (t.setNode n v).v = t.v := rfl
@[simp] theorem setNode_latch (t : Tile) (n : Nat) (v : Node) : (t.setNode n v).latch = t.latch := rfl
@[simp] theorem setNode_walk (t : Tile) (n : Nat) (v : Node) : (t.setNode n v).walk = t.walk := rfl
@[simp] theorem setNode_shLive (t : Tile) (n : Nat) (v : Node) : (t.setNode n v).shLive = t.shLive := rfl
@[simp] theorem setNode_shShadow (t : Tile) (n : Nat) (v : Node) : (t.setNode n v).shShadow = t.shShadow := rfl
@[simp] theorem setNode_flags (t : Tile) (n : Nat) (v : Node) : (t.setNode n v).flags = t.flags := rfl
@[simp] theorem setNode_mx (t : Tile) (n : Nat) (v : Node) : (t.setNode n v).mx = t.mx := rfl
@[simp] theorem setNode_ldt (t : Tile) (n : Nat) (v : Node) : (t.setNode n v).ldt = t.ldt := rfl
@[simp] theorem setNode_cvt (t : Tile) (n : Nat) (v : Node) : (t.setNode n v).cvt = t.cvt := rfl
@[simp] theorem setNode_parked (t : Tile) (n : Nat) (v : Node) : (t.setNode n v).parked = t.parked := rfl
@[simp] theorem setNode_pool (t : Tile) (n : Nat) (v : Node) : (t.setNode n v).pool = t.pool := rfl
@[simp] theorem setNode_abank (t : Tile) (n : Nat) (v : Node) : (t.setNode n v).abank = t.abank := rfl
@[simp] theorem setNode_sbase (t : Tile) (n : Nat) (v : Node) : (t.setNode n v).sbase = t.sbase := rfl
@[simp] theorem setNode_parkTag (t : Tile) (n : Nat) (v : Node) : (t.setNode n v).parkTag = t.parkTag := rfl
@[simp] theorem setNode_seed (t : Tile) (n : Nat) (v : Node) : (t.setNode n v).seed = t.seed := rfl
@[simp] theorem setNode_plane0 (t : Tile) (n : Nat) (v : Node) : (t.setNode n v).plane0 = t.plane0 := rfl
@[simp] theorem setNode_plane1 (t : Tile) (n : Nat) (v : Node) : (t.setNode n v).plane1 = t.plane1 := rfl
@[simp] theorem setNode_liveIs1 (t : Tile) (n : Nat) (v : Node) : (t.setNode n v).liveIs1 = t.liveIs1 := rfl
@[simp] theorem setNode_sa (t : Tile) (n : Nat) (v : Node) : (t.setNode n v).sa = t.sa := rfl
@[simp] theorem setNode_sb (t : Tile) (n : Nat) (v : Node) : (t.setNode n v).sb = t.sb := rfl
@[simp] theorem setNode_acc (t : Tile) (n : Nat) (v : Node) : (t.setNode n v).acc = t.acc := rfl
@[simp] theorem setNode_spad (t : Tile) (n : Nat) (v : Node) : (t.setNode n v).spad = t.spad := rfl
@[simp] theorem setNode_slots (t : Tile) (n : Nat) (v : Node) : (t.setNode n v).slots = t.slots := rfl
@[simp] theorem setNode_prog (t : Tile) (n : Nat) (v : Node) : (t.setNode n v).prog = t.prog := rfl
@[simp] theorem setNode_scanSt (t : Tile) (n : Nat) (v : Node) : (t.setNode n v).scanSt = t.scanSt := rfl
@[simp] theorem setNode_sabs (t : Tile) (n : Nat) (v : Node) : (t.setNode n v).sabs = t.sabs := rfl
@[simp] theorem setNode_xabs (t : Tile) (n : Nat) (v : Node) : (t.setNode n v).xabs = t.xabs := rfl
@[simp] theorem setNode_settings (t : Tile) (n : Nat) (v : Node) : (t.setNode n v).settings = t.settings := rfl
@[simp] theorem setNode_held (t : Tile) (n : Nat) (v : Node) : (t.setNode n v).held = t.held := rfl
@[simp] theorem setNode_scanBuf (t : Tile) (n : Nat) (v : Node) : (t.setNode n v).scanBuf = t.scanBuf := rfl
@[simp] theorem setNode_resv (t : Tile) (n : Nat) (v : Node) : (t.setNode n v).resv = t.resv := rfl
@[simp] theorem setNode_waits (t : Tile) (n : Nat) (v : Node) : (t.setNode n v).waits = t.waits := rfl
@[simp] theorem setNode_bench (t : Tile) (n : Nat) (v : Node) : (t.setNode n v).bench = t.bench := rfl
@[simp] theorem setNode_lastph (t : Tile) (n : Nat) (v : Node) : (t.setNode n v).lastph = t.lastph := rfl
@[simp] theorem setNode_mule (t : Tile) (n : Nat) (v : Node) : (t.setNode n v).mule = t.mule := rfl
@[simp] theorem setNode_mon (t : Tile) (n : Nat) (v : Node) : (t.setNode n v).mon = t.mon := rfl
@[simp] theorem setNode_tlb (t : Tile) (n : Nat) (v : Node) : (t.setNode n v).tlb = t.tlb := rfl
@[simp] theorem setNode_rc (t : Tile) (n : Nat) (v : Node) : (t.setNode n v).rc = t.rc := rfl
@[simp] theorem setNode_wakes (t : Tile) (n : Nat) (v : Node) : (t.setNode n v).wakes = t.wakes := rfl

@[simp] theorem putSpad_x (t : Tile) (a : Nat) (bs : List Byte) : (t.putSpad a bs).x = t.x := rfl
@[simp] theorem putSpad_p (t : Tile) (a : Nat) (bs : List Byte) : (t.putSpad a bs).p = t.p := rfl
@[simp] theorem putSpad_bt (t : Tile) (a : Nat) (bs : List Byte) : (t.putSpad a bs).bt = t.bt := rfl
@[simp] theorem putSpad_arm (t : Tile) (a : Nat) (bs : List Byte) : (t.putSpad a bs).arm = t.arm := rfl
@[simp] theorem putSpad_hx (t : Tile) (a : Nat) (bs : List Byte) : (t.putSpad a bs).hx = t.hx := rfl
@[simp] theorem putSpad_hbt (t : Tile) (a : Nat) (bs : List Byte) : (t.putSpad a bs).hbt = t.hbt := rfl
@[simp] theorem putSpad_harm (t : Tile) (a : Nat) (bs : List Byte) : (t.putSpad a bs).harm = t.harm := rfl
@[simp] theorem putSpad_k (t : Tile) (a : Nat) (bs : List Byte) : (t.putSpad a bs).k = t.k := rfl
@[simp] theorem putSpad_curA (t : Tile) (a : Nat) (bs : List Byte) : (t.putSpad a bs).curA = t.curA := rfl
@[simp] theorem putSpad_curB (t : Tile) (a : Nat) (bs : List Byte) : (t.putSpad a bs).curB = t.curB := rfl
@[simp] theorem putSpad_v (t : Tile) (a : Nat) (bs : List Byte) : (t.putSpad a bs).v = t.v := rfl
@[simp] theorem putSpad_latch (t : Tile) (a : Nat) (bs : List Byte) : (t.putSpad a bs).latch = t.latch := rfl
@[simp] theorem putSpad_walk (t : Tile) (a : Nat) (bs : List Byte) : (t.putSpad a bs).walk = t.walk := rfl
@[simp] theorem putSpad_shLive (t : Tile) (a : Nat) (bs : List Byte) : (t.putSpad a bs).shLive = t.shLive := rfl
@[simp] theorem putSpad_shShadow (t : Tile) (a : Nat) (bs : List Byte) : (t.putSpad a bs).shShadow = t.shShadow := rfl
@[simp] theorem putSpad_flags (t : Tile) (a : Nat) (bs : List Byte) : (t.putSpad a bs).flags = t.flags := rfl
@[simp] theorem putSpad_mx (t : Tile) (a : Nat) (bs : List Byte) : (t.putSpad a bs).mx = t.mx := rfl
@[simp] theorem putSpad_ldt (t : Tile) (a : Nat) (bs : List Byte) : (t.putSpad a bs).ldt = t.ldt := rfl
@[simp] theorem putSpad_cvt (t : Tile) (a : Nat) (bs : List Byte) : (t.putSpad a bs).cvt = t.cvt := rfl
@[simp] theorem putSpad_parked (t : Tile) (a : Nat) (bs : List Byte) : (t.putSpad a bs).parked = t.parked := rfl
@[simp] theorem putSpad_pool (t : Tile) (a : Nat) (bs : List Byte) : (t.putSpad a bs).pool = t.pool := rfl
@[simp] theorem putSpad_abank (t : Tile) (a : Nat) (bs : List Byte) : (t.putSpad a bs).abank = t.abank := rfl
@[simp] theorem putSpad_sbase (t : Tile) (a : Nat) (bs : List Byte) : (t.putSpad a bs).sbase = t.sbase := rfl
@[simp] theorem putSpad_parkTag (t : Tile) (a : Nat) (bs : List Byte) : (t.putSpad a bs).parkTag = t.parkTag := rfl
@[simp] theorem putSpad_seed (t : Tile) (a : Nat) (bs : List Byte) : (t.putSpad a bs).seed = t.seed := rfl
@[simp] theorem putSpad_plane0 (t : Tile) (a : Nat) (bs : List Byte) : (t.putSpad a bs).plane0 = t.plane0 := rfl
@[simp] theorem putSpad_plane1 (t : Tile) (a : Nat) (bs : List Byte) : (t.putSpad a bs).plane1 = t.plane1 := rfl
@[simp] theorem putSpad_liveIs1 (t : Tile) (a : Nat) (bs : List Byte) : (t.putSpad a bs).liveIs1 = t.liveIs1 := rfl
@[simp] theorem putSpad_sa (t : Tile) (a : Nat) (bs : List Byte) : (t.putSpad a bs).sa = t.sa := rfl
@[simp] theorem putSpad_sb (t : Tile) (a : Nat) (bs : List Byte) : (t.putSpad a bs).sb = t.sb := rfl
@[simp] theorem putSpad_acc (t : Tile) (a : Nat) (bs : List Byte) : (t.putSpad a bs).acc = t.acc := rfl
@[simp] theorem putSpad_slots (t : Tile) (a : Nat) (bs : List Byte) : (t.putSpad a bs).slots = t.slots := rfl
@[simp] theorem putSpad_prog (t : Tile) (a : Nat) (bs : List Byte) : (t.putSpad a bs).prog = t.prog := rfl
@[simp] theorem putSpad_scanSt (t : Tile) (a : Nat) (bs : List Byte) : (t.putSpad a bs).scanSt = t.scanSt := rfl
@[simp] theorem putSpad_sabs (t : Tile) (a : Nat) (bs : List Byte) : (t.putSpad a bs).sabs = t.sabs := rfl
@[simp] theorem putSpad_xabs (t : Tile) (a : Nat) (bs : List Byte) : (t.putSpad a bs).xabs = t.xabs := rfl
@[simp] theorem putSpad_settings (t : Tile) (a : Nat) (bs : List Byte) : (t.putSpad a bs).settings = t.settings := rfl
@[simp] theorem putSpad_held (t : Tile) (a : Nat) (bs : List Byte) : (t.putSpad a bs).held = t.held := rfl
@[simp] theorem putSpad_scanBuf (t : Tile) (a : Nat) (bs : List Byte) : (t.putSpad a bs).scanBuf = t.scanBuf := rfl
@[simp] theorem putSpad_nodes (t : Tile) (a : Nat) (bs : List Byte) : (t.putSpad a bs).nodes = t.nodes := rfl
@[simp] theorem putSpad_resv (t : Tile) (a : Nat) (bs : List Byte) : (t.putSpad a bs).resv = t.resv := rfl
@[simp] theorem putSpad_waits (t : Tile) (a : Nat) (bs : List Byte) : (t.putSpad a bs).waits = t.waits := rfl
@[simp] theorem putSpad_bench (t : Tile) (a : Nat) (bs : List Byte) : (t.putSpad a bs).bench = t.bench := rfl
@[simp] theorem putSpad_lastph (t : Tile) (a : Nat) (bs : List Byte) : (t.putSpad a bs).lastph = t.lastph := rfl
@[simp] theorem putSpad_mule (t : Tile) (a : Nat) (bs : List Byte) : (t.putSpad a bs).mule = t.mule := rfl
@[simp] theorem putSpad_mon (t : Tile) (a : Nat) (bs : List Byte) : (t.putSpad a bs).mon = t.mon := rfl
@[simp] theorem putSpad_tlb (t : Tile) (a : Nat) (bs : List Byte) : (t.putSpad a bs).tlb = t.tlb := rfl
@[simp] theorem putSpad_rc (t : Tile) (a : Nat) (bs : List Byte) : (t.putSpad a bs).rc = t.rc := rfl
@[simp] theorem putSpad_wakes (t : Tile) (a : Nat) (bs : List Byte) : (t.putSpad a bs).wakes = t.wakes := rfl

@[simp] theorem setAcc_x (t : Tile) (b r c v : Nat) : (t.setAcc b r c v).x = t.x := rfl
@[simp] theorem setAcc_p (t : Tile) (b r c v : Nat) : (t.setAcc b r c v).p = t.p := rfl
@[simp] theorem setAcc_bt (t : Tile) (b r c v : Nat) : (t.setAcc b r c v).bt = t.bt := rfl
@[simp] theorem setAcc_arm (t : Tile) (b r c v : Nat) : (t.setAcc b r c v).arm = t.arm := rfl
@[simp] theorem setAcc_hx (t : Tile) (b r c v : Nat) : (t.setAcc b r c v).hx = t.hx := rfl
@[simp] theorem setAcc_hbt (t : Tile) (b r c v : Nat) : (t.setAcc b r c v).hbt = t.hbt := rfl
@[simp] theorem setAcc_harm (t : Tile) (b r c v : Nat) : (t.setAcc b r c v).harm = t.harm := rfl
@[simp] theorem setAcc_k (t : Tile) (b r c v : Nat) : (t.setAcc b r c v).k = t.k := rfl
@[simp] theorem setAcc_curA (t : Tile) (b r c v : Nat) : (t.setAcc b r c v).curA = t.curA := rfl
@[simp] theorem setAcc_curB (t : Tile) (b r c v : Nat) : (t.setAcc b r c v).curB = t.curB := rfl
@[simp] theorem setAcc_v (t : Tile) (b r c v : Nat) : (t.setAcc b r c v).v = t.v := rfl
@[simp] theorem setAcc_latch (t : Tile) (b r c v : Nat) : (t.setAcc b r c v).latch = t.latch := rfl
@[simp] theorem setAcc_walk (t : Tile) (b r c v : Nat) : (t.setAcc b r c v).walk = t.walk := rfl
@[simp] theorem setAcc_shLive (t : Tile) (b r c v : Nat) : (t.setAcc b r c v).shLive = t.shLive := rfl
@[simp] theorem setAcc_shShadow (t : Tile) (b r c v : Nat) : (t.setAcc b r c v).shShadow = t.shShadow := rfl
@[simp] theorem setAcc_flags (t : Tile) (b r c v : Nat) : (t.setAcc b r c v).flags = t.flags := rfl
@[simp] theorem setAcc_mx (t : Tile) (b r c v : Nat) : (t.setAcc b r c v).mx = t.mx := rfl
@[simp] theorem setAcc_ldt (t : Tile) (b r c v : Nat) : (t.setAcc b r c v).ldt = t.ldt := rfl
@[simp] theorem setAcc_cvt (t : Tile) (b r c v : Nat) : (t.setAcc b r c v).cvt = t.cvt := rfl
@[simp] theorem setAcc_parked (t : Tile) (b r c v : Nat) : (t.setAcc b r c v).parked = t.parked := rfl
@[simp] theorem setAcc_pool (t : Tile) (b r c v : Nat) : (t.setAcc b r c v).pool = t.pool := rfl
@[simp] theorem setAcc_abank (t : Tile) (b r c v : Nat) : (t.setAcc b r c v).abank = t.abank := rfl
@[simp] theorem setAcc_sbase (t : Tile) (b r c v : Nat) : (t.setAcc b r c v).sbase = t.sbase := rfl
@[simp] theorem setAcc_parkTag (t : Tile) (b r c v : Nat) : (t.setAcc b r c v).parkTag = t.parkTag := rfl
@[simp] theorem setAcc_seed (t : Tile) (b r c v : Nat) : (t.setAcc b r c v).seed = t.seed := rfl
@[simp] theorem setAcc_plane0 (t : Tile) (b r c v : Nat) : (t.setAcc b r c v).plane0 = t.plane0 := rfl
@[simp] theorem setAcc_plane1 (t : Tile) (b r c v : Nat) : (t.setAcc b r c v).plane1 = t.plane1 := rfl
@[simp] theorem setAcc_liveIs1 (t : Tile) (b r c v : Nat) : (t.setAcc b r c v).liveIs1 = t.liveIs1 := rfl
@[simp] theorem setAcc_sa (t : Tile) (b r c v : Nat) : (t.setAcc b r c v).sa = t.sa := rfl
@[simp] theorem setAcc_sb (t : Tile) (b r c v : Nat) : (t.setAcc b r c v).sb = t.sb := rfl
@[simp] theorem setAcc_spad (t : Tile) (b r c v : Nat) : (t.setAcc b r c v).spad = t.spad := rfl
@[simp] theorem setAcc_slots (t : Tile) (b r c v : Nat) : (t.setAcc b r c v).slots = t.slots := rfl
@[simp] theorem setAcc_prog (t : Tile) (b r c v : Nat) : (t.setAcc b r c v).prog = t.prog := rfl
@[simp] theorem setAcc_scanSt (t : Tile) (b r c v : Nat) : (t.setAcc b r c v).scanSt = t.scanSt := rfl
@[simp] theorem setAcc_sabs (t : Tile) (b r c v : Nat) : (t.setAcc b r c v).sabs = t.sabs := rfl
@[simp] theorem setAcc_xabs (t : Tile) (b r c v : Nat) : (t.setAcc b r c v).xabs = t.xabs := rfl
@[simp] theorem setAcc_settings (t : Tile) (b r c v : Nat) : (t.setAcc b r c v).settings = t.settings := rfl
@[simp] theorem setAcc_held (t : Tile) (b r c v : Nat) : (t.setAcc b r c v).held = t.held := rfl
@[simp] theorem setAcc_scanBuf (t : Tile) (b r c v : Nat) : (t.setAcc b r c v).scanBuf = t.scanBuf := rfl
@[simp] theorem setAcc_nodes (t : Tile) (b r c v : Nat) : (t.setAcc b r c v).nodes = t.nodes := rfl
@[simp] theorem setAcc_resv (t : Tile) (b r c v : Nat) : (t.setAcc b r c v).resv = t.resv := rfl
@[simp] theorem setAcc_waits (t : Tile) (b r c v : Nat) : (t.setAcc b r c v).waits = t.waits := rfl
@[simp] theorem setAcc_bench (t : Tile) (b r c v : Nat) : (t.setAcc b r c v).bench = t.bench := rfl
@[simp] theorem setAcc_lastph (t : Tile) (b r c v : Nat) : (t.setAcc b r c v).lastph = t.lastph := rfl
@[simp] theorem setAcc_mule (t : Tile) (b r c v : Nat) : (t.setAcc b r c v).mule = t.mule := rfl
@[simp] theorem setAcc_mon (t : Tile) (b r c v : Nat) : (t.setAcc b r c v).mon = t.mon := rfl
@[simp] theorem setAcc_tlb (t : Tile) (b r c v : Nat) : (t.setAcc b r c v).tlb = t.tlb := rfl
@[simp] theorem setAcc_rc (t : Tile) (b r c v : Nat) : (t.setAcc b r c v).rc = t.rc := rfl
@[simp] theorem setAcc_wakes (t : Tile) (b r c v : Nat) : (t.setAcc b r c v).wakes = t.wakes := rfl

@[simp] theorem setX_getX (t : Tile) (r q : Nat) (v : DWord) : (t.setX r v).getX q = if q = r ∧ r ≠ 0 then v else t.getX q := by
  unfold Tile.setX Tile.getX
  by_cases hr : r = 0 <;> by_cases hq : q = 0 <;> simp [hr, hq]
  · intro h; exact absurd h (by omega)
@[simp] theorem setV_getV (t : Tile) (r q : Nat) (v : Vec) : (t.setV r v).getV q = if q = r then v else t.getV q := by simp [Tile.setV, Tile.getV]
@[simp] theorem setK_getK (t : Tile) (r q : Nat) (v : Mask) : (t.setK r v).getK q = if q = r then v else t.getK q := by simp [Tile.setK, Tile.getK]
@[simp] theorem setLatch_getLatch (t : Tile) (r q : Nat) (v : Vec) : (t.setLatch r v).getLatch q = if q = r then some v else t.getLatch q := by
  simp [Tile.setLatch, Tile.getLatch]
@[simp] theorem setWalk_getWalk (t : Tile) (r q : Nat) (v : Walker) : (t.setWalk r v).getWalk q = if q = r then v else t.getWalk q := by
  simp [Tile.setWalk, Tile.getWalk]
@[simp] theorem setSlot_getSlot (t : Tile) (r q : Nat) (v : Slot) : (t.setSlot r v).getSlot q = if q = r then v else t.getSlot q := by
  simp [Tile.setSlot, Tile.getSlot]
@[simp] theorem setNode_getNode (t : Tile) (r q : Nat) (v : Node) : (t.setNode r v).getNode q = if q = r then v else t.getNode q := by
  simp [Tile.setNode, Tile.getNode]

end Sys2Proof.Laws
end

