-- ==== Sys2Proof/Laws/Memory.lean ====
section
/-! SUPPORT. Package memory: what its operations write, that they leave every other byte alone, and that each keeps the
canonical form, up to the landing of results. -/
namespace Sys2Proof.Laws
open Machine

/-- The memory of a state is in canonical form. -/
def Wf (s : State) : Prop := Memory.wf s.mem = true

theorem wf_reset : Wf State.reset := rfl

theorem wf_of_mem {s t : State} (h : t.mem = s.mem) (hs : Wf s) : Wf t := by
  unfold Wf at *
  rwa [h]

/-- A fold keeps the form when each of its steps does. -/
theorem wf_foldl {α : Type} {f : State → α → State} (h : ∀ s a, Wf s → Wf (f s a)) (l : List α) {s : State} (hs : Wf s) : Wf (l.foldl f s) := by
  induction l generalizing s with
  | nil => exact hs
  | cons a l ih => exact ih (h s a hs)

/-- A fold leaves the memory when each of its steps does. -/
theorem mem_foldl {α : Type} {f : State → α → State} (h : ∀ s a, (f s a).mem = s.mem) (l : List α) (s : State) : (l.foldl f s).mem = s.mem := by
  induction l generalizing s with
  | nil => rfl
  | cons a l ih => rw [List.foldl_cons, ih, h]

theorem swf_putCells (cells : List (Nat × Byte)) {m : SMap Byte} (h : swf 0 m = true) : swf 0 (putCells m cells) = true := by
  induction cells generalizing m with
  | nil => exact h
  | cons c cells ih => exact ih (swf_sset h)

/-- Reading an address that no cell names. -/
theorem sget_putCells_other (cells : List (Nat × Byte)) (m : SMap Byte) (a : Nat) (h : ∀ c ∈ cells, c.1 ≠ a) :
    sget 0 (putCells m cells) a = sget 0 m a := by
  induction cells generalizing m with
  | nil => rfl
  | cons c cells ih =>
    obtain ⟨x, b⟩ := c
    have hx : x ≠ a := h (x, b) (by simp)
    show sget 0 (putCells (sset 0 m x b) cells) a = _
    rw [ih _ (fun c hc => h c (by simp [hc])), sget_sset, if_neg (Ne.symm hx)]

theorem mem_cellsAt {bs : List Byte} {a : Nat} {c : Nat × Byte} (h : c ∈ cellsAt a bs) : a ≤ c.1 ∧ c.1 < a + bs.length := by
  induction bs generalizing a with
  | nil => cases h
  | cons b bs ih =>
    simp only [cellsAt, List.mem_cons] at h
    rcases h with rfl | h
    · simp
    · have := ih h; simp only [List.length_cons]; omega

/-- Consecutive bytes read back, and every other address as before. -/
theorem sget_putCells_cellsAt (bs : List Byte) (m : SMap Byte) (a x : Nat) :
    sget 0 (putCells m (cellsAt a bs)) x = if a ≤ x ∧ x < a + bs.length then bs.getD (x - a) 0 else sget 0 m x := by
  induction bs generalizing m a with
  | nil => rw [if_neg (by simp)]; rfl
  | cons b bs ih =>
    simp only [cellsAt, putCells, ih, sget_sset, List.length_cons]
    by_cases hx : x = a
    · subst hx; simp
    · by_cases hr : a + 1 ≤ x ∧ x < a + 1 + bs.length
      · rw [if_pos hr, if_pos (by omega)]
        obtain ⟨n, hn⟩ : ∃ n, x - a = n + 1 := ⟨x - a - 1, by omega⟩
        rw [hn, List.getD_cons_succ]
        congr 1
        omega
      · rw [if_neg hr, if_neg hx, if_neg (by omega)]

@[simp] theorem noteWaits_mem (s : State) (ln : Nat) : (s.noteWaits ln).mem = s.mem := by
  unfold State.noteWaits
  split <;> rfl
@[simp] theorem noteLoops_mem (s : State) (ln : Nat) : (s.noteLoops ln).mem = s.mem := by
  unfold State.noteLoops
  split <;> rfl
@[simp] theorem touchLine_mem (s : State) (ln : Nat) : (s.touchLine ln).mem = s.mem := by
  unfold State.touchLine
  rw [noteLoops_mem, noteWaits_mem]
@[simp] theorem fresh_mem' (s : State) : s.fresh.mem = s.mem := rfl
@[simp] theorem setL2_mem (s : State) (d ln : Nat) (l : Line) : (s.setL2 d ln l).mem = s.mem := rfl
@[simp] theorem setAdit_mem (s : State) (k ln : Nat) (l : Line) : (s.setAdit k ln l).mem = s.mem := rfl

/-- A write at the stack die: its bytes, and nothing else of the memory. -/
@[simp] theorem putMem_mem (s : State) (pa : Nat) (bs : List Byte) : (s.putMem pa bs).mem = putCells s.mem (cellsAt pa bs) := by
  unfold State.putMem
  rw [mem_foldl (fun s j => by simp only; split <;> simp)]

theorem putMem_get (s : State) (pa : Nat) (bs : List Byte) (x : Nat) :
    sget 0 (s.putMem pa bs).mem x = if pa ≤ x ∧ x < pa + bs.length then bs.getD (x - pa) 0 else sget 0 s.mem x := by
  rw [putMem_mem, sget_putCells_cellsAt]

theorem wf_putMem {s : State} (pa : Nat) (bs : List Byte) (h : Wf s) : Wf (s.putMem pa bs) := by
  unfold Wf Memory.wf
  rw [putMem_mem]
  exact swf_putCells _ h

theorem wf_putMemNat {s : State} (pa len v : Nat) (h : Wf s) : Wf (s.putMemNat pa len v) := wf_putMem _ _ h

theorem wf_writeBack {s : State} (d ln : Nat) (h : Wf s) : Wf (s.writeBack d ln) := by
  unfold State.writeBack
  simp only
  split
  · exact wf_of_mem ((noteLoops_mem _ _).trans (noteWaits_mem _ _)) (swf_putCells _ h)
  · exact h

theorem wf_flushL2 {s : State} (d ln : Nat) (h : Wf s) : Wf (s.flushL2 d ln) := by
  exact wf_of_mem (setL2_mem _ d ln {}) (wf_writeBack d ln h)

theorem wf_markAtomic {s : State} (ln : Nat) (h : Wf s) : Wf (s.markAtomic ln) := by
  have e : (s.markAtomic ln).mem = ((upTo 4).foldl (fun s d => s.flushL2 d ln) s).mem := by
    unfold State.markAtomic
    generalize (upTo 4).foldl (fun s d => s.flushL2 d ln) s = r
    rfl
  exact wf_of_mem e (wf_foldl (fun s d hs => wf_flushL2 d ln hs) _ h)

theorem wf_devFlush {s : State} (pa : Nat) (h : Wf s) : Wf (s.devFlush pa) := wf_foldl (fun _ d hs => wf_flushL2 d _ hs) _ h

@[simp] theorem modTile_mem' (s : State) (u : Nat) (f : Tile → Tile) : (s.modTile u f).mem = s.mem := rfl

@[simp] theorem roomRc_mem (s : State) (u ln : Nat) : (s.roomRc u ln).mem = s.mem := by
  unfold State.roomRc
  simp only
  split <;> rfl
@[simp] theorem roomAdit_mem (s : State) (key ln : Nat) : (s.roomAdit key ln).mem = s.mem := by
  unfold State.roomAdit
  simp only
  split <;> rfl
/-- Room in an L2 writes a dirty victim back. -/
theorem wf_roomL2 {s : State} (d ln : Nat) (h : Wf s) : Wf (s.roomL2 d ln) := by
  unfold State.roomL2
  simp only
  split
  · exact h
  · split
    · exact h
    · exact wf_of_mem (fresh_mem' _) (wf_flushL2 _ _ h)
theorem wf_fillLineA {s : State} (u ln : Nat) (nc viaAdit : Bool) (h : Wf s) : Wf (s.fillLineA u ln nc viaAdit) := by
  unfold State.fillLineA
  split
  · exact h
  · extract_lets bs s1 key
    have e : s1.mem = s.mem := by show ((s.roomRc u ln).modTile u _).mem = s.mem; rw [modTile_mem', roomRc_mem]
    clear_value s1
    have h1 : Wf s1 := wf_of_mem e h
    split
    · split
      · exact h1
      · exact wf_of_mem (setL2_mem _ _ _ _) (wf_roomL2 _ _ h1)
    · split
      · exact h1
      · exact wf_of_mem (by rw [setAdit_mem, roomAdit_mem]) h1
theorem wf_fillLine {s : State} (u ln : Nat) (nc : Bool) (h : Wf s) : Wf (s.fillLine u ln nc) := wf_fillLineA u ln nc true h

@[simp] theorem passPort_mem (s : State) (d ln : Nat) : (s.passPort d ln).mem = s.mem := by
  unfold State.passPort
  split <;> rfl

theorem wf_storeByte {s : State} (u : Nat) (nc : Bool) (c : Nat × Byte) (h : Wf s) : Wf (s.storeByte u nc c) := by
  unfold State.storeByte
  extract_lets ln s1
  have hs : s1.mem = s.mem := rfl
  have h1 : Wf { s1 with mem := sset 0 s1.mem c.1 c.2 } := swf_sset h
  clear_value s1
  split
  · exact h1
  · split
    · exact wf_of_mem (passPort_mem _ _ _) h1
    · split
      · exact wf_of_mem (setL2_mem _ _ _ _) (wf_roomL2 _ _ (wf_of_mem hs h))
      · exact wf_of_mem (passPort_mem _ _ _) h1

theorem wf_store {s : State} (u : Nat) (nc : Bool) (cells : List (Nat × Byte)) (h : Wf s) : Wf (s.store u nc cells) :=
  wf_foldl (f := fun (s : State) ln => s.touchLine ln) (fun _ _ hs => wf_of_mem (touchLine_mem _ _) hs) _ (wf_foldl (fun _ c hs => wf_storeByte u nc c hs) _ h)

theorem wf_putCells {s : State} (cells : List (Nat × Byte)) (h : Wf s) : Wf { s with mem := putCells s.mem cells } := swf_putCells cells h

theorem wf_hubWrite {s : State} (cid va : Nat) (bs : List Byte) (h : Wf s) : Wf (s.hubWrite cid va bs) :=
  wf_foldl (f := fun (s : State) ln => s.touchLine ln) (fun _ _ hs => wf_of_mem (touchLine_mem _ _) hs) _ (wf_putCells _ h)

/-- A boundary's write of a field keeps the form (R366). -/
theorem wf_devWrite {s : State} (cid va : Nat) (bs : List Byte) (h : Wf s) : Wf (s.devWrite cid va bs) := by
  refine wf_hubWrite _ _ _ (wf_foldl (fun s pa hs => ?_) _ h)
  simp only
  split
  · exact wf_of_mem (setL2_mem _ _ _ _) hs
  · exact hs

theorem wf_devPut {s : State} (cid va len v : Nat) (h : Wf s) : Wf (s.devPut cid va len v) := by
  unfold State.devPut
  split
  · exact wf_putMemNat _ _ _ (wf_devFlush _ h)
  · exact h

theorem wf_atomPut {s : State} (cid va len v : Nat) (h : Wf s) : Wf (s.atomPut cid va len v) := by
  unfold State.atomPut
  split
  · exact wf_putMemNat _ _ _ (wf_markAtomic _ h)
  · exact h

theorem wf_dropL2Range {s : State} (cid va len : Nat) (back : Bool) (h : Wf s) : Wf (dropL2Range s cid va len back) := by
  refine wf_foldl (fun s i hs => ?_) _ h
  simp only
  split
  · split
    · refine wf_foldl (fun s d hs => ?_) _ hs
      split
      · exact wf_flushL2 _ _ hs
      · exact hs
    · exact hs
  · exact hs

theorem wf_ctxWrite {s : State} (d cid va : Nat) (bs : List Byte) (h : Wf s) : Wf (ctxWrite s d cid va bs) := by
  refine wf_foldl (fun s i hs => ?_) _ (wf_hubWrite _ _ _ (wf_dropL2Range _ _ _ _ h))
  simp only
  split
  · split
    · exact wf_of_mem (passPort_mem _ _ _) hs
    · exact hs
  · exact hs

@[simp] theorem csrApply_mem (s : State) (u n : Nat) (v : DWord) (so : Bool) : (csrApply s u n v so).mem = s.mem := by
  unfold csrApply
  simp only
  repeat' split
  all_goals rfl

@[simp] theorem benchLeave_mem (s : State) (u code : Nat) (v : Vec) (delay : Nat) : (benchLeave s u code v delay).mem = s.mem := by
  unfold benchLeave
  simp only
  split <;> rfl

@[simp] theorem podSend_mem (s : State) (c : Bool) (r b : Nat) (p : Bool) : (s.podSend c r b p).mem = s.mem := by
  unfold State.podSend State.podOut
  split
  · split
    · rfl
    · split <;> rfl
  · rfl

@[simp] theorem podFinish_mem (s : State) (kern key : Nat) : (s.podFinish kern key).mem = s.mem := by
  unfold State.podFinish
  extract_lets g b
  rw [mem_foldl (f := fun (s : State) r => s.podSend true r (key % 256) b.phase) (fun _ _ => podSend_mem _ _ _ _ _)]
  rfl

@[simp] theorem podProgress_mem (s : State) (kern key : Nat) : (s.podProgress kern key).mem = s.mem := by
  unfold State.podProgress
  simp only
  split
  · rfl
  · split
    · rw [podFinish_mem]; rfl
    · rw [podSend_mem]; rfl

@[simp] theorem barMod_mem (s : State) (kern key : Nat) (f : Barrier → Barrier) : (s.barMod kern key f).mem = s.mem := by
  unfold State.barMod State.barTest
  simp only
  split
  · rw [podProgress_mem]; rfl
  · rfl

@[simp] theorem barArriveTile_mem (s : State) (u sc bid : Nat) : (barArriveTile s u sc bid).mem = s.mem := by
  unfold barArriveTile
  extract_lets key kern ph s0 s1
  rw [barMod_mem]
  show s0.mem = s.mem
  by_cases h : sc = 3 <;> simp [s0, h]

@[simp] theorem nodePost_mem (s : State) (u n : Nat) (cmd : NodeCmd) : (nodePost s u n cmd).mem = s.mem := by
  unfold nodePost
  extract_lets nd pred count s1
  have e : s1.mem = s.mem := rfl
  clear_value s1
  split
  · exact (barMod_mem s1 _ _ _).trans e
  · unfold postColl
    split <;> exact e

theorem wf_monitorWait {s : State} (u pa timeout : Nat) (h : Wf s) : Wf (monitorWait s u pa timeout) := by
  unfold monitorWait
  extract_lets ln s1
  have e : Wf s1 := wf_markAtomic ln h
  clear_value s1
  exact wf_of_mem (modTile_mem' s1 u _) e

@[simp] theorem walkFill_mem (s : State) (u : Nat) (e : TlbEntry) : (s.walkFill u e).mem = s.mem := by
  unfold State.walkFill
  simp only
  repeat' split
  all_goals rfl
@[simp] theorem tlbKeep_mem (s : State) (u : Nat) (e : TlbEntry) : (s.tlbKeep u e).mem = s.mem := by
  unfold State.tlbKeep
  extract_lets known s1
  have h1 : s1.mem = s.mem := by show (if known then s else s.walkFill u e).mem = s.mem; split <;> simp
  exact h1
@[simp] theorem scrySend_mem (s : State) (kern inst : Nat) : (scrySend s kern inst).mem = s.mem := by
  rfl

/-- The effect of any result keeps the form. -/
theorem wf_applyEff {s : State} (u slot : Nat) (e : Eff) (h : Wf s) : Wf (applyEff s u slot e).1 := by
  cases e
  case mem cells nc => have h1 := wf_store u nc cells h; unfold applyEff; dsimp only; exact h1
  case waitm pa tm => have h1 := wf_monitorWait u pa tm h; unfold applyEff; dsimp only; exact h1
  case barArrive sc bid =>
    have h1 : Wf (barArriveTile s u sc bid) := wf_of_mem (barArriveTile_mem s u sc bid) h
    unfold applyEff
    dsimp only
    exact h1
  case csr n v so => exact wf_of_mem (csrApply_mem s u n v so) h
  case xpost n cmd => exact wf_of_mem (nodePost_mem s u n cmd) h
  case benchSend c v d => exact wf_of_mem (benchLeave_mem s u c v d) h
  case load r pa size sx nc =>
    have h1 := wf_foldl (fun s l hs => wf_fillLine u l nc hs) (linesOf pa size) h
    exact wf_of_mem rfl h1
  case fill lines nc => exact wf_foldl (fun s l hs => wf_fillLine u l nc hs) lines h
  case tlbFill e => exact wf_of_mem (tlbKeep_mem s u e) h
  case scryStart inst => exact wf_of_mem (scrySend_mem s _ inst) h
  case atomic pa => exact wf_markAtomic _ h
  case rstk i v => unfold applyEff State.rstkApply; simp only; split <;> exact h
  case scanPush n0 j bf16 w elem toMem aA aB ncA ncB =>
    unfold applyEff
    simp only
    split
    · exact wf_store _ _ _ (wf_store _ _ _ h)
    · exact h
  case scanPair summary z pair => unfold applyEff; simp only; split <;> exact h
  case scanEnd n0 sloc z m rows bf16 w =>
    unfold applyEff
    simp only
    split
    · split <;> exact h
    · exact h
  all_goals exact h

/-- A landing keeps the form. -/
theorem wf_landEntry {s : State} (e : Entry) (h : Wf s) : Wf (landEntry s e) := by
  unfold landEntry
  simp only
  split
  · exact wf_applyEff _ _ _ h
  · exact wf_of_mem rfl (wf_applyEff e.unit e.slot e.eff h)

theorem wf_applyNow {s : State} (es : List Entry) (h : Wf s) : Wf (applyNow s es) := wf_foldl (fun _ e hs => wf_landEntry e hs) _ h

theorem wf_arriveLoad {s : State} (e : Entry) (h : Wf s) : Wf (arriveLoad s e).1 := by
  unfold arriveLoad
  split
  · exact wf_foldl (fun s l hs => wf_fillLine _ l _ hs) _ h
  · exact h
/-- The loads that must take their bytes first do. -/
theorem wf_arriveEarlier {s : State} (k : Nat) (due : List Entry) (h : Wf s) : Wf (arriveEarlier s k due) := by
  unfold arriveEarlier
  refine wf_foldl (fun s e hs => ?_) _ h
  simp only
  split
  · exact wf_of_mem rfl (wf_arriveLoad e hs)
  · exact hs

theorem wf_landUpTo {s : State} (k m : Nat) (h : Wf s) : Wf (landUpTo s k m) := by
  unfold landUpTo
  refine wf_foldl (fun _ e hs => wf_landEntry e hs) _ ?_
  exact wf_of_mem rfl (wf_arriveEarlier k _ h)

theorem wf_landAll {s : State} (k : Nat) (h : Wf s) : Wf (landAll s k) :=
  wf_foldl (fun _ e hs => wf_landEntry e hs) _ h

theorem swfFrom_append {d : Byte} {m r : SMap Byte} {lo mid : Nat} (hm : swfFrom d lo m = true) (hk : ∀ c ∈ m, c.1 < mid) (hl : lo ≤ mid)
    (hr : swfFrom d mid r = true) : swfFrom d lo (m ++ r) = true := by
  induction m generalizing lo with
  | nil => exact swfFrom_mono hr hl
  | cons e m ih =>
    obtain ⟨j, v⟩ := e
    simp only [swfFrom, Bool.and_eq_true, decide_eq_true_eq] at hm
    have hj : j < mid := hk (j, v) (by simp)
    simp only [List.cons_append, swfFrom, Bool.and_eq_true, decide_eq_true_eq]
    exact ⟨hm.1, ih hm.2 (fun c hc => hk c (by simp [hc])) (by omega)⟩
theorem swfFrom_above {d : Byte} {m : SMap Byte} {lo hi : Nat} (hm : swfFrom d lo m = true) :
    swfFrom d hi (m.filter (fun c => decide (hi ≤ c.1))) = true := by
  induction m generalizing lo with
  | nil => rfl
  | cons e m ih =>
    obtain ⟨j, v⟩ := e
    simp only [swfFrom, Bool.and_eq_true, decide_eq_true_eq] at hm
    rw [List.filter_cons]
    split
    · next h =>
      simp only [decide_eq_true_eq] at h
      simp only [swfFrom, Bool.and_eq_true, decide_eq_true_eq]
      exact ⟨⟨h, hm.1.2⟩, swfFrom_filter _ hm.2⟩
    · exact ih hm.2
theorem swfFrom_shift {d : Byte} {m : SMap Byte} {lo : Nat} (a : Nat) (h : swfFrom d lo m = true) :
    swfFrom d (a + lo) (m.map (fun c => (a + c.1, c.2))) = true := by
  induction m generalizing lo with
  | nil => rfl
  | cons e m ih =>
    obtain ⟨j, v⟩ := e
    simp only [swfFrom, List.map_cons, Bool.and_eq_true, decide_eq_true_eq] at h ⊢
    exact ⟨⟨by omega, h.1.2⟩, ih h.2⟩
/-- A run placed in memory keeps the form, whatever cells it has. -/
theorem swf_putRun {m : Memory} {a len : Nat} {cells : List (Nat × Byte)} (h : swf 0 m = true) : swf 0 (putRun m a len cells) = true := by
  unfold putRun
  extract_lets cs at_
  split
  · next hc =>
    unfold swf
    rw [List.append_assoc]
    refine swfFrom_append (mid := a) (swfFrom_filter _ h) (fun c hc => ?_) (Nat.zero_le a) ?_
    · simp only [List.mem_filter, decide_eq_true_eq] at hc; exact hc.2
    · refine swfFrom_append (mid := a + len) (swfFrom_shift a hc) (fun c hc => ?_) (Nat.le_add_right a _) (swfFrom_above h)
      obtain ⟨e, he, rfl⟩ := List.mem_map.1 hc
      simp only [cs, List.mem_filter, Bool.and_eq_true, decide_eq_true_eq] at he
      simp only [Nat.add_lt_add_iff_left]
      exact he.2.1
  · exact swf_putCells _ (swfFrom_filter _ h)

/-- A large image placed in memory keeps the form (R107). -/
theorem wf_putLong {s : State} (pa len : Nat) (cells : List (Nat × Byte)) (h : Wf s) : Wf (s.putLong pa len cells) := by
  unfold State.putLong
  refine wf_foldl (fun _ _ hs => wf_of_mem (touchLine_mem _ _) hs) _ ?_
  exact swf_putRun h
/-- Before the Mule touches a range: the home L2s write it back (R277). -/
theorem wf_muleTouch {s : State} (pa len : Nat) (h : Wf s) : Wf (muleTouch s pa len) := by
  unfold muleTouch
  refine wf_foldl (fun s m hs => ?_) _ h
  exact wf_foldl (fun _ l hs => wf_flushL2 m.1 l.1 hs) _ hs
theorem wf_muleLong {s : State} (d pa len : Nat) (cells : List (Nat × Byte)) (h : Wf s) : Wf (muleLong s d pa len cells) := by
  unfold muleLong
  extract_lets s1
  exact wf_putLong _ _ _ (wf_of_mem rfl (wf_muleTouch pa len h))

/-- A stop of a core leaves memory alone. -/
@[simp] theorem dropIssue_mem (s : State) (k : Nat) : (dropIssue s k).mem = s.mem := by
  unfold dropIssue
  simp only
  split
  · rfl
  · next i _ =>
    exact mem_foldl (f := fun (s : State) d => s.modTile (unitOf k d) (fun t => { t with walk := nth t.walk i.walks0 d })) (fun _ _ => rfl) (upTo 4) s

end Sys2Proof.Laws
end

