-- ==== Sys2Proof/Laws/PerInstr.lean ====
section
/-! SUPPORT. For each instruction: a word that its encoding gives fits its slot, and the decoder reads the instruction as that
word's candidate. -/
namespace Sys2Proof.Laws.RoundTrip
set_option Elab.async false
set_option linter.unusedSimpArgs false

/-- A word of slot `sl` fits 29 bits, or 32 in slot 7, and is not zero where a major stands in it. -/
def Fits (sl w : Nat) : Prop := if sl = 7 then w < 2 ^ 32 else 2 ^ 24 ≤ w ∧ w < 2 ^ 29

/-- What the encodings of a well-formed instruction are to the decoder. -/
def Statement (i : Instr) : Prop :=
  i.wf = true → (∀ sl w, encodeOps i = some (sl, w) → Fits sl w ∧ candidate sl w = some i)
    ∧ (∀ w, encodeQp i = some w → w < 2 ^ 32 ∧ candidateQp w = some i)

theorem of_event {i : Instr} (h1 : encodeOps i = none) (h2 : encodeQp i = none) : Statement i := by
  intro _
  exact ⟨fun sl w he => (by rw [h1] at he; cases he), fun w he => (by rw [h2] at he; cases he)⟩

theorem of_slot {i : Instr} {sl w : Nat} (h1 : encodeOps i = some (sl, w)) (h2 : encodeQp i = none)
    (h : i.wf = true → Fits sl w ∧ candidate sl w = some i) : Statement i := by
  intro hw
  refine ⟨fun sl' w' he => ?_, fun w he => (by rw [h2] at he; cases he)⟩
  rw [h1] at he
  cases he
  exact h hw

theorem of_qp {i : Instr} {w : Nat} (h1 : encodeOps i = none) (h2 : encodeQp i = some w)
    (h : i.wf = true → w < 2 ^ 32 ∧ candidateQp w = some i) : Statement i := by
  intro hw
  refine ⟨fun sl w he => (by rw [h1] at he; cases he), fun w' he => ?_⟩
  rw [h2] at he
  cases he
  exact h hw

theorem btgt (j : Nat) (addr : Nat) : Statement (.btgt j addr) := of_slot rfl rfl (by
  intro hyp
  simp only [Instr.wf, Bool.and_eq_true, decide_eq_true_eq] at hyp
  generalize hv : 50331648 + j * 4194304 + addr * 2048 = v0
  have c0 : fieldOf v0 24 5 = 3 := by unfold fieldOf; omega
  have f0 : fieldOf v0 22 2 = j := by unfold fieldOf; omega
  have f1 : fieldOf v0 11 11 = addr := by unfold fieldOf; omega
  exact ⟨(show 2 ^ 24 ≤ v0 ∧ v0 < 2 ^ 29 by omega), by simp only [candidate, candidateCtl, c0, f0, f1]⟩
  )
theorem call (addr : Nat) : Statement (.call addr) := of_slot rfl rfl (by
  intro hyp
  simp only [Instr.wf, Bool.and_eq_true, decide_eq_true_eq] at hyp
  generalize hv : 67108864 + addr * 8192 = v0
  have c0 : fieldOf v0 24 5 = 4 := by unfold fieldOf; omega
  have f0 : fieldOf v0 13 11 = addr := by unfold fieldOf; omega
  exact ⟨(show 2 ^ 24 ≤ v0 ∧ v0 < 2 ^ 29 by omega), by simp only [candidate, candidateCtl, c0, f0]⟩
  )
theorem loop (lvl : Nat) (xc : Nat) : Statement (.loop lvl xc) := of_slot rfl rfl (by
  intro hyp
  simp only [Instr.wf, Bool.and_eq_true, decide_eq_true_eq] at hyp
  generalize hv : 100663296 + lvl * 2097152 + xc * 16384 = v0
  have c0 : fieldOf v0 24 5 = 6 := by unfold fieldOf; omega
  have c1 : fieldOf v0 19 2 = 0 := by unfold fieldOf; omega
  have f0 : fieldOf v0 21 3 = lvl := by unfold fieldOf; omega
  have f1 : fieldOf v0 14 5 = xc := by unfold fieldOf; omega
  exact ⟨(show 2 ^ 24 ≤ v0 ∧ v0 < 2 ^ 29 by omega), by simp only [candidate, candidateCtl, c0, c1, f0, f1]⟩
  )
theorem loopS0 (lvl : Nat) (xc : Nat) (xr : Nat) : Statement (.loopS0 lvl xc xr) := of_slot rfl rfl (by
  intro hyp
  simp only [Instr.wf, Bool.and_eq_true, decide_eq_true_eq] at hyp
  generalize hv : 100663296 + lvl * 2097152 + xc * 16384 + xr * 512 + 524288 = v0
  have c0 : fieldOf v0 24 5 = 6 := by unfold fieldOf; omega
  have c1 : fieldOf v0 19 2 = 1 := by unfold fieldOf; omega
  have f0 : fieldOf v0 21 3 = lvl := by unfold fieldOf; omega
  have f1 : fieldOf v0 14 5 = xc := by unfold fieldOf; omega
  have f2 : fieldOf v0 9 5 = xr := by unfold fieldOf; omega
  exact ⟨(show 2 ^ 24 ≤ v0 ∧ v0 < 2 ^ 29 by omega), by simp only [candidate, candidateCtl, c0, c1, f0, f1, f2]⟩
  )
theorem loopS1 (lvl : Nat) (xc : Nat) (xr : Nat) : Statement (.loopS1 lvl xc xr) := of_slot rfl rfl (by
  intro hyp
  simp only [Instr.wf, Bool.and_eq_true, decide_eq_true_eq] at hyp
  generalize hv : 100663296 + lvl * 2097152 + xc * 16384 + xr * 512 + 1048576 = v0
  have c0 : fieldOf v0 24 5 = 6 := by unfold fieldOf; omega
  have c1 : fieldOf v0 19 2 = 2 := by unfold fieldOf; omega
  have f0 : fieldOf v0 21 3 = lvl := by unfold fieldOf; omega
  have f1 : fieldOf v0 14 5 = xc := by unfold fieldOf; omega
  have f2 : fieldOf v0 9 5 = xr := by unfold fieldOf; omega
  exact ⟨(show 2 ^ 24 ≤ v0 ∧ v0 < 2 ^ 29 by omega), by simp only [candidate, candidateCtl, c0, c1, f0, f1, f2]⟩
  )
theorem scmp (pd : Nat) (xa : Nat) (xb : Nat) (cc : Nat) : Statement (.scmp pd xa xb cc) := of_slot rfl rfl (by
  intro hyp
  simp only [Instr.wf, Bool.and_eq_true, decide_eq_true_eq] at hyp
  generalize hv : 117440512 + pd * 131072 + xa * 4096 + xb * 128 + cc * 16 = v0
  have c0 : fieldOf v0 24 5 = 7 := by unfold fieldOf; omega
  have f0 : fieldOf v0 17 7 = pd := by unfold fieldOf; omega
  have f1 : fieldOf v0 12 5 = xa := by unfold fieldOf; omega
  have f2 : fieldOf v0 7 5 = xb := by unfold fieldOf; omega
  have f3 : fieldOf v0 4 3 = cc := by unfold fieldOf; omega
  exact ⟨(show 2 ^ 24 ≤ v0 ∧ v0 < 2 ^ 29 by omega), by simp only [candidate, candidateCtl, c0, f0, f1, f2, f3]⟩
  )
theorem scmpi (pd : Nat) (xa : Nat) (cc : Nat) (imm : Nat) : Statement (.scmpi pd xa cc imm) := of_slot rfl rfl (by
  intro hyp
  simp only [Instr.wf, Bool.and_eq_true, decide_eq_true_eq] at hyp
  generalize hv : 134217728 + pd * 131072 + xa * 4096 + cc * 512 + imm = v0
  have c0 : fieldOf v0 24 5 = 8 := by unfold fieldOf; omega
  have f0 : fieldOf v0 17 7 = pd := by unfold fieldOf; omega
  have f1 : fieldOf v0 12 5 = xa := by unfold fieldOf; omega
  have f2 : fieldOf v0 9 3 = cc := by unfold fieldOf; omega
  have f3 : fieldOf v0 0 9 = imm := by unfold fieldOf; omega
  exact ⟨(show 2 ^ 24 ≤ v0 ∧ v0 < 2 ^ 29 by omega), by simp only [candidate, candidateCtl, c0, f0, f1, f2, f3]⟩
  )
theorem plog (pd : Nat) (pa : Nat) (pb : Nat) (o : Nat) : Statement (.plog pd pa pb o) := of_slot rfl rfl (by
  intro hyp
  simp only [Instr.wf, Bool.and_eq_true, decide_eq_true_eq] at hyp
  generalize hv : 150994944 + pd * 131072 + pa * 1024 + pb * 8 + o = v0
  have c0 : fieldOf v0 24 5 = 9 := by unfold fieldOf; omega
  have f0 : fieldOf v0 17 7 = pd := by unfold fieldOf; omega
  have f1 : fieldOf v0 10 7 = pa := by unfold fieldOf; omega
  have f2 : fieldOf v0 3 7 = pb := by unfold fieldOf; omega
  have f3 : fieldOf v0 0 3 = o := by unfold fieldOf; omega
  exact ⟨(show 2 ^ 24 ≤ v0 ∧ v0 < 2 ^ 29 by omega), by simp only [candidate, candidateCtl, c0, f0, f1, f2, f3]⟩
  )
theorem pmov (pd : Nat) (pa : Nat) : Statement (.pmov pd pa) := of_slot rfl rfl (by
  intro hyp
  simp only [Instr.wf, Bool.and_eq_true, decide_eq_true_eq] at hyp
  generalize hv : 167772160 + pd * 131072 + pa * 1024 = v0
  have c0 : fieldOf v0 24 5 = 10 := by unfold fieldOf; omega
  have f0 : fieldOf v0 17 7 = pd := by unfold fieldOf; omega
  have f1 : fieldOf v0 10 7 = pa := by unfold fieldOf; omega
  exact ⟨(show 2 ^ 24 ≤ v0 ∧ v0 < 2 ^ 29 by omega), by simp only [candidate, candidateCtl, c0, f0, f1]⟩
  )
theorem pseti (pd : Nat) (v : Nat) : Statement (.pseti pd v) := of_slot rfl rfl (by
  intro hyp
  simp only [Instr.wf, Bool.and_eq_true, decide_eq_true_eq] at hyp
  generalize hv : 184549376 + pd * 131072 + v * 65536 = v0
  have c0 : fieldOf v0 24 5 = 11 := by unfold fieldOf; omega
  have f0 : fieldOf v0 17 7 = pd := by unfold fieldOf; omega
  have f1 : fieldOf v0 16 1 = v := by unfold fieldOf; omega
  exact ⟨(show 2 ^ 24 ≤ v0 ∧ v0 < 2 ^ 29 by omega), by simp only [candidate, candidateCtl, c0, f0, f1]⟩
  )
theorem csrr (xd : Nat) (csr : Nat) : Statement (.csrr xd csr) := of_slot rfl rfl (by
  intro hyp
  simp only [Instr.wf, Bool.and_eq_true, decide_eq_true_eq] at hyp
  generalize hv : 201326592 + xd * 524288 + csr * 128 = v0
  have c0 : fieldOf v0 24 5 = 12 := by unfold fieldOf; omega
  have f0 : fieldOf v0 19 5 = xd := by unfold fieldOf; omega
  have f1 : fieldOf v0 7 12 = csr := by unfold fieldOf; omega
  exact ⟨(show 2 ^ 24 ≤ v0 ∧ v0 < 2 ^ 29 by omega), by simp only [candidate, candidateCtl, c0, f0, f1]⟩
  )
theorem csrw (xs : Nat) (csr : Nat) : Statement (.csrw xs csr) := of_slot rfl rfl (by
  intro hyp
  simp only [Instr.wf, Bool.and_eq_true, decide_eq_true_eq] at hyp
  generalize hv : 218103808 + xs * 524288 + csr * 128 = v0
  have c0 : fieldOf v0 24 5 = 13 := by unfold fieldOf; omega
  have f0 : fieldOf v0 19 5 = xs := by unfold fieldOf; omega
  have f1 : fieldOf v0 7 12 = csr := by unfold fieldOf; omega
  exact ⟨(show 2 ^ 24 ≤ v0 ∧ v0 < 2 ^ 29 by omega), by simp only [candidate, candidateCtl, c0, f0, f1]⟩
  )
theorem csrs (xs : Nat) (csr : Nat) : Statement (.csrs xs csr) := of_slot rfl rfl (by
  intro hyp
  simp only [Instr.wf, Bool.and_eq_true, decide_eq_true_eq] at hyp
  generalize hv : 234881024 + xs * 524288 + csr * 128 = v0
  have c0 : fieldOf v0 24 5 = 14 := by unfold fieldOf; omega
  have f0 : fieldOf v0 19 5 = xs := by unfold fieldOf; omega
  have f1 : fieldOf v0 7 12 = csr := by unfold fieldOf; omega
  exact ⟨(show 2 ^ 24 ≤ v0 ∧ v0 < 2 ^ 29 by omega), by simp only [candidate, candidateCtl, c0, f0, f1]⟩
  )
theorem trap (code : Nat) (info : Nat) : Statement (.trap code info) := of_slot rfl rfl (by
  intro hyp
  simp only [Instr.wf, Bool.and_eq_true, decide_eq_true_eq] at hyp
  generalize hv : 251658240 + code * 65536 + info = v0
  have c0 : fieldOf v0 24 5 = 15 := by unfold fieldOf; omega
  have f0 : fieldOf v0 16 8 = code := by unfold fieldOf; omega
  have f1 : fieldOf v0 0 16 = info := by unfold fieldOf; omega
  exact ⟨(show 2 ^ 24 ≤ v0 ∧ v0 < 2 ^ 29 by omega), by simp only [candidate, candidateCtl, c0, f0, f1]⟩
  )
theorem rstkr (xd : Nat) (idx : Nat) : Statement (.rstkr xd idx) := of_slot rfl rfl (by
  intro hyp
  simp only [Instr.wf, Bool.and_eq_true, decide_eq_true_eq] at hyp
  generalize hv : 285212672 + xd * 524288 + idx * 32768 = v0
  have c0 : fieldOf v0 24 5 = 17 := by unfold fieldOf; omega
  have f0 : fieldOf v0 19 5 = xd := by unfold fieldOf; omega
  have f1 : fieldOf v0 15 4 = idx := by unfold fieldOf; omega
  exact ⟨(show 2 ^ 24 ≤ v0 ∧ v0 < 2 ^ 29 by omega), by simp only [candidate, candidateCtl, c0, f0, f1]⟩
  )
theorem rstkw (xs : Nat) (idx : Nat) : Statement (.rstkw xs idx) := of_slot rfl rfl (by
  intro hyp
  simp only [Instr.wf, Bool.and_eq_true, decide_eq_true_eq] at hyp
  generalize hv : 301989888 + xs * 524288 + idx * 32768 = v0
  have c0 : fieldOf v0 24 5 = 18 := by unfold fieldOf; omega
  have f0 : fieldOf v0 19 5 = xs := by unfold fieldOf; omega
  have f1 : fieldOf v0 15 4 = idx := by unfold fieldOf; omega
  exact ⟨(show 2 ^ 24 ≤ v0 ∧ v0 < 2 ^ 29 by omega), by simp only [candidate, candidateCtl, c0, f0, f1]⟩
  )
theorem brk (info : Nat) : Statement (.brk info) := of_slot rfl rfl (by
  intro hyp
  simp only [Instr.wf, Bool.and_eq_true, decide_eq_true_eq] at hyp
  generalize hv : 318767104 + info = v0
  have c0 : fieldOf v0 24 5 = 19 := by unfold fieldOf; omega
  have f0 : fieldOf v0 0 16 = info := by unfold fieldOf; omega
  exact ⟨(show 2 ^ 24 ≤ v0 ∧ v0 < 2 ^ 29 by omega), by simp only [candidate, candidateCtl, c0, f0]⟩
  )
theorem waitm (xa : Nat) (xb : Nat) : Statement (.waitm xa xb) := of_slot rfl rfl (by
  intro hyp
  simp only [Instr.wf, Bool.and_eq_true, decide_eq_true_eq] at hyp
  generalize hv : 335544320 + xa * 524288 + xb * 16384 = v0
  have c0 : fieldOf v0 24 5 = 20 := by unfold fieldOf; omega
  have f0 : fieldOf v0 19 5 = xa := by unfold fieldOf; omega
  have f1 : fieldOf v0 14 5 = xb := by unfold fieldOf; omega
  exact ⟨(show 2 ^ 24 ≤ v0 ∧ v0 < 2 ^ 29 by omega), by simp only [candidate, candidateCtl, c0, f0, f1]⟩
  )
theorem barv (scope : Nat) (bid : Nat) : Statement (.barv scope bid) := of_slot rfl rfl (by
  intro hyp
  simp only [Instr.wf, Bool.and_eq_true, decide_eq_true_eq] at hyp
  generalize hv : 352321536 + scope * 2097152 + bid * 8192 = v0
  have c0 : fieldOf v0 24 5 = 21 := by unfold fieldOf; omega
  have f0 : fieldOf v0 21 3 = scope := by unfold fieldOf; omega
  have f1 : fieldOf v0 13 8 = bid := by unfold fieldOf; omega
  exact ⟨(show 2 ^ 24 ≤ v0 ∧ v0 < 2 ^ 29 by omega), by simp only [candidate, candidateCtl, c0, f0, f1]⟩
  )
theorem barw (scope : Nat) (bid : Nat) : Statement (.barw scope bid) := of_slot rfl rfl (by
  intro hyp
  simp only [Instr.wf, Bool.and_eq_true, decide_eq_true_eq] at hyp
  generalize hv : 369098752 + scope * 2097152 + bid * 8192 = v0
  have c0 : fieldOf v0 24 5 = 22 := by unfold fieldOf; omega
  have f0 : fieldOf v0 21 3 = scope := by unfold fieldOf; omega
  have f1 : fieldOf v0 13 8 = bid := by unfold fieldOf; omega
  exact ⟨(show 2 ^ 24 ≤ v0 ∧ v0 < 2 ^ 29 by omega), by simp only [candidate, candidateCtl, c0, f0, f1]⟩
  )
theorem bart (scope : Nat) (bid : Nat) (pd : Nat) : Statement (.bart scope bid pd) := of_slot rfl rfl (by
  intro hyp
  simp only [Instr.wf, Bool.and_eq_true, decide_eq_true_eq] at hyp
  generalize hv : 385875968 + scope * 2097152 + bid * 8192 + pd * 64 = v0
  have c0 : fieldOf v0 24 5 = 23 := by unfold fieldOf; omega
  have f0 : fieldOf v0 21 3 = scope := by unfold fieldOf; omega
  have f1 : fieldOf v0 13 8 = bid := by unfold fieldOf; omega
  have f2 : fieldOf v0 6 7 = pd := by unfold fieldOf; omega
  exact ⟨(show 2 ^ 24 ≤ v0 ∧ v0 < 2 ^ 29 by omega), by simp only [candidate, candidateCtl, c0, f0, f1, f2]⟩
  )
theorem fork (xa : Nat) : Statement (.fork xa) := of_slot rfl rfl (by
  intro hyp
  simp only [Instr.wf, Bool.and_eq_true, decide_eq_true_eq] at hyp
  generalize hv : 402653184 + xa * 524288 = v0
  have c0 : fieldOf v0 24 5 = 24 := by unfold fieldOf; omega
  have f0 : fieldOf v0 19 5 = xa := by unfold fieldOf; omega
  exact ⟨(show 2 ^ 24 ≤ v0 ∧ v0 < 2 ^ 29 by omega), by simp only [candidate, candidateCtl, c0, f0]⟩
  )
theorem join (xa : Nat) : Statement (.join xa) := of_slot rfl rfl (by
  intro hyp
  simp only [Instr.wf, Bool.and_eq_true, decide_eq_true_eq] at hyp
  generalize hv : 419430400 + xa * 524288 = v0
  have c0 : fieldOf v0 24 5 = 25 := by unfold fieldOf; omega
  have f0 : fieldOf v0 19 5 = xa := by unfold fieldOf; omega
  exact ⟨(show 2 ^ 24 ≤ v0 ∧ v0 < 2 ^ 29 by omega), by simp only [candidate, candidateCtl, c0, f0]⟩
  )
theorem steal (pd : Nat) : Statement (.steal pd) := of_slot rfl rfl (by
  intro hyp
  simp only [Instr.wf, Bool.and_eq_true, decide_eq_true_eq] at hyp
  generalize hv : 436207616 + pd * 131072 = v0
  have c0 : fieldOf v0 24 5 = 26 := by unfold fieldOf; omega
  have f0 : fieldOf v0 17 7 = pd := by unfold fieldOf; omega
  exact ⟨(show 2 ^ 24 ≤ v0 ∧ v0 < 2 ^ 29 by omega), by simp only [candidate, candidateCtl, c0, f0]⟩
  )
theorem trdy (pd : Nat) (xa : Nat) : Statement (.trdy pd xa) := of_slot rfl rfl (by
  intro hyp
  simp only [Instr.wf, Bool.and_eq_true, decide_eq_true_eq] at hyp
  generalize hv : 486539264 + pd * 131072 + xa * 4096 = v0
  have c0 : fieldOf v0 24 5 = 29 := by unfold fieldOf; omega
  have f0 : fieldOf v0 17 7 = pd := by unfold fieldOf; omega
  have f1 : fieldOf v0 12 5 = xa := by unfold fieldOf; omega
  exact ⟨(show 2 ^ 24 ≤ v0 ∧ v0 < 2 ^ 29 by omega), by simp only [candidate, candidateCtl, c0, f0, f1]⟩
  )
theorem add (xd : Nat) (xa : Nat) (xb : Nat) : Statement (.add xd xa xb) := of_slot rfl rfl (by
  intro hyp
  simp only [Instr.wf, Bool.and_eq_true, decide_eq_true_eq] at hyp
  generalize hv : 16777216 + xd * 524288 + xa * 16384 + xb * 512 = v0
  have c0 : fieldOf v0 24 5 = 1 := by unfold fieldOf; omega
  have c1 : fieldOf v0 5 4 = 0 := by unfold fieldOf; omega
  have f0 : fieldOf v0 19 5 = xd := by unfold fieldOf; omega
  have f1 : fieldOf v0 14 5 = xa := by unfold fieldOf; omega
  have f2 : fieldOf v0 9 5 = xb := by unfold fieldOf; omega
  exact ⟨(show 2 ^ 24 ≤ v0 ∧ v0 < 2 ^ 29 by omega), by simp only [candidate, candidateInt, c0, c1, f0, f1, f2]⟩
  )
theorem sub (xd : Nat) (xa : Nat) (xb : Nat) : Statement (.sub xd xa xb) := of_slot rfl rfl (by
  intro hyp
  simp only [Instr.wf, Bool.and_eq_true, decide_eq_true_eq] at hyp
  generalize hv : 16777216 + xd * 524288 + xa * 16384 + xb * 512 + 32 = v0
  have c0 : fieldOf v0 24 5 = 1 := by unfold fieldOf; omega
  have c1 : fieldOf v0 5 4 = 1 := by unfold fieldOf; omega
  have f0 : fieldOf v0 19 5 = xd := by unfold fieldOf; omega
  have f1 : fieldOf v0 14 5 = xa := by unfold fieldOf; omega
  have f2 : fieldOf v0 9 5 = xb := by unfold fieldOf; omega
  exact ⟨(show 2 ^ 24 ≤ v0 ∧ v0 < 2 ^ 29 by omega), by simp only [candidate, candidateInt, c0, c1, f0, f1, f2]⟩
  )
theorem mul (xd : Nat) (xa : Nat) (xb : Nat) : Statement (.mul xd xa xb) := of_slot rfl rfl (by
  intro hyp
  simp only [Instr.wf, Bool.and_eq_true, decide_eq_true_eq] at hyp
  generalize hv : 16777216 + xd * 524288 + xa * 16384 + xb * 512 + 64 = v0
  have c0 : fieldOf v0 24 5 = 1 := by unfold fieldOf; omega
  have c1 : fieldOf v0 5 4 = 2 := by unfold fieldOf; omega
  have f0 : fieldOf v0 19 5 = xd := by unfold fieldOf; omega
  have f1 : fieldOf v0 14 5 = xa := by unfold fieldOf; omega
  have f2 : fieldOf v0 9 5 = xb := by unfold fieldOf; omega
  exact ⟨(show 2 ^ 24 ≤ v0 ∧ v0 < 2 ^ 29 by omega), by simp only [candidate, candidateInt, c0, c1, f0, f1, f2]⟩
  )
theorem mulh (xd : Nat) (xa : Nat) (xb : Nat) : Statement (.mulh xd xa xb) := of_slot rfl rfl (by
  intro hyp
  simp only [Instr.wf, Bool.and_eq_true, decide_eq_true_eq] at hyp
  generalize hv : 16777216 + xd * 524288 + xa * 16384 + xb * 512 + 96 = v0
  have c0 : fieldOf v0 24 5 = 1 := by unfold fieldOf; omega
  have c1 : fieldOf v0 5 4 = 3 := by unfold fieldOf; omega
  have f0 : fieldOf v0 19 5 = xd := by unfold fieldOf; omega
  have f1 : fieldOf v0 14 5 = xa := by unfold fieldOf; omega
  have f2 : fieldOf v0 9 5 = xb := by unfold fieldOf; omega
  exact ⟨(show 2 ^ 24 ≤ v0 ∧ v0 < 2 ^ 29 by omega), by simp only [candidate, candidateInt, c0, c1, f0, f1, f2]⟩
  )
theorem and_ (xd : Nat) (xa : Nat) (xb : Nat) : Statement (.and_ xd xa xb) := of_slot rfl rfl (by
  intro hyp
  simp only [Instr.wf, Bool.and_eq_true, decide_eq_true_eq] at hyp
  generalize hv : 16777216 + xd * 524288 + xa * 16384 + xb * 512 + 128 = v0
  have c0 : fieldOf v0 24 5 = 1 := by unfold fieldOf; omega
  have c1 : fieldOf v0 5 4 = 4 := by unfold fieldOf; omega
  have f0 : fieldOf v0 19 5 = xd := by unfold fieldOf; omega
  have f1 : fieldOf v0 14 5 = xa := by unfold fieldOf; omega
  have f2 : fieldOf v0 9 5 = xb := by unfold fieldOf; omega
  exact ⟨(show 2 ^ 24 ≤ v0 ∧ v0 < 2 ^ 29 by omega), by simp only [candidate, candidateInt, c0, c1, f0, f1, f2]⟩
  )
theorem or_ (xd : Nat) (xa : Nat) (xb : Nat) : Statement (.or_ xd xa xb) := of_slot rfl rfl (by
  intro hyp
  simp only [Instr.wf, Bool.and_eq_true, decide_eq_true_eq] at hyp
  generalize hv : 16777216 + xd * 524288 + xa * 16384 + xb * 512 + 160 = v0
  have c0 : fieldOf v0 24 5 = 1 := by unfold fieldOf; omega
  have c1 : fieldOf v0 5 4 = 5 := by unfold fieldOf; omega
  have f0 : fieldOf v0 19 5 = xd := by unfold fieldOf; omega
  have f1 : fieldOf v0 14 5 = xa := by unfold fieldOf; omega
  have f2 : fieldOf v0 9 5 = xb := by unfold fieldOf; omega
  exact ⟨(show 2 ^ 24 ≤ v0 ∧ v0 < 2 ^ 29 by omega), by simp only [candidate, candidateInt, c0, c1, f0, f1, f2]⟩
  )
theorem xor_ (xd : Nat) (xa : Nat) (xb : Nat) : Statement (.xor_ xd xa xb) := of_slot rfl rfl (by
  intro hyp
  simp only [Instr.wf, Bool.and_eq_true, decide_eq_true_eq] at hyp
  generalize hv : 16777216 + xd * 524288 + xa * 16384 + xb * 512 + 192 = v0
  have c0 : fieldOf v0 24 5 = 1 := by unfold fieldOf; omega
  have c1 : fieldOf v0 5 4 = 6 := by unfold fieldOf; omega
  have f0 : fieldOf v0 19 5 = xd := by unfold fieldOf; omega
  have f1 : fieldOf v0 14 5 = xa := by unfold fieldOf; omega
  have f2 : fieldOf v0 9 5 = xb := by unfold fieldOf; omega
  exact ⟨(show 2 ^ 24 ≤ v0 ∧ v0 < 2 ^ 29 by omega), by simp only [candidate, candidateInt, c0, c1, f0, f1, f2]⟩
  )
theorem shl (xd : Nat) (xa : Nat) (xb : Nat) : Statement (.shl xd xa xb) := of_slot rfl rfl (by
  intro hyp
  simp only [Instr.wf, Bool.and_eq_true, decide_eq_true_eq] at hyp
  generalize hv : 16777216 + xd * 524288 + xa * 16384 + xb * 512 + 224 = v0
  have c0 : fieldOf v0 24 5 = 1 := by unfold fieldOf; omega
  have c1 : fieldOf v0 5 4 = 7 := by unfold fieldOf; omega
  have f0 : fieldOf v0 19 5 = xd := by unfold fieldOf; omega
  have f1 : fieldOf v0 14 5 = xa := by unfold fieldOf; omega
  have f2 : fieldOf v0 9 5 = xb := by unfold fieldOf; omega
  exact ⟨(show 2 ^ 24 ≤ v0 ∧ v0 < 2 ^ 29 by omega), by simp only [candidate, candidateInt, c0, c1, f0, f1, f2]⟩
  )
theorem shr (xd : Nat) (xa : Nat) (xb : Nat) : Statement (.shr xd xa xb) := of_slot rfl rfl (by
  intro hyp
  simp only [Instr.wf, Bool.and_eq_true, decide_eq_true_eq] at hyp
  generalize hv : 16777216 + xd * 524288 + xa * 16384 + xb * 512 + 256 = v0
  have c0 : fieldOf v0 24 5 = 1 := by unfold fieldOf; omega
  have c1 : fieldOf v0 5 4 = 8 := by unfold fieldOf; omega
  have f0 : fieldOf v0 19 5 = xd := by unfold fieldOf; omega
  have f1 : fieldOf v0 14 5 = xa := by unfold fieldOf; omega
  have f2 : fieldOf v0 9 5 = xb := by unfold fieldOf; omega
  exact ⟨(show 2 ^ 24 ≤ v0 ∧ v0 < 2 ^ 29 by omega), by simp only [candidate, candidateInt, c0, c1, f0, f1, f2]⟩
  )
theorem sra (xd : Nat) (xa : Nat) (xb : Nat) : Statement (.sra xd xa xb) := of_slot rfl rfl (by
  intro hyp
  simp only [Instr.wf, Bool.and_eq_true, decide_eq_true_eq] at hyp
  generalize hv : 16777216 + xd * 524288 + xa * 16384 + xb * 512 + 288 = v0
  have c0 : fieldOf v0 24 5 = 1 := by unfold fieldOf; omega
  have c1 : fieldOf v0 5 4 = 9 := by unfold fieldOf; omega
  have f0 : fieldOf v0 19 5 = xd := by unfold fieldOf; omega
  have f1 : fieldOf v0 14 5 = xa := by unfold fieldOf; omega
  have f2 : fieldOf v0 9 5 = xb := by unfold fieldOf; omega
  exact ⟨(show 2 ^ 24 ≤ v0 ∧ v0 < 2 ^ 29 by omega), by simp only [candidate, candidateInt, c0, c1, f0, f1, f2]⟩
  )
theorem min_ (xd : Nat) (xa : Nat) (xb : Nat) : Statement (.min_ xd xa xb) := of_slot rfl rfl (by
  intro hyp
  simp only [Instr.wf, Bool.and_eq_true, decide_eq_true_eq] at hyp
  generalize hv : 16777216 + xd * 524288 + xa * 16384 + xb * 512 + 320 = v0
  have c0 : fieldOf v0 24 5 = 1 := by unfold fieldOf; omega
  have c1 : fieldOf v0 5 4 = 10 := by unfold fieldOf; omega
  have f0 : fieldOf v0 19 5 = xd := by unfold fieldOf; omega
  have f1 : fieldOf v0 14 5 = xa := by unfold fieldOf; omega
  have f2 : fieldOf v0 9 5 = xb := by unfold fieldOf; omega
  exact ⟨(show 2 ^ 24 ≤ v0 ∧ v0 < 2 ^ 29 by omega), by simp only [candidate, candidateInt, c0, c1, f0, f1, f2]⟩
  )
theorem max_ (xd : Nat) (xa : Nat) (xb : Nat) : Statement (.max_ xd xa xb) := of_slot rfl rfl (by
  intro hyp
  simp only [Instr.wf, Bool.and_eq_true, decide_eq_true_eq] at hyp
  generalize hv : 16777216 + xd * 524288 + xa * 16384 + xb * 512 + 352 = v0
  have c0 : fieldOf v0 24 5 = 1 := by unfold fieldOf; omega
  have c1 : fieldOf v0 5 4 = 11 := by unfold fieldOf; omega
  have f0 : fieldOf v0 19 5 = xd := by unfold fieldOf; omega
  have f1 : fieldOf v0 14 5 = xa := by unfold fieldOf; omega
  have f2 : fieldOf v0 9 5 = xb := by unfold fieldOf; omega
  exact ⟨(show 2 ^ 24 ≤ v0 ∧ v0 < 2 ^ 29 by omega), by simp only [candidate, candidateInt, c0, c1, f0, f1, f2]⟩
  )
theorem addi (xd : Nat) (xa : Nat) (imm : Nat) : Statement (.addi xd xa imm) := of_slot rfl rfl (by
  intro hyp
  simp only [Instr.wf, Bool.and_eq_true, decide_eq_true_eq] at hyp
  generalize hv : 33554432 + xd * 524288 + xa * 16384 + imm = v0
  have c0 : fieldOf v0 24 5 = 2 := by unfold fieldOf; omega
  have f0 : fieldOf v0 19 5 = xd := by unfold fieldOf; omega
  have f1 : fieldOf v0 14 5 = xa := by unfold fieldOf; omega
  have f2 : fieldOf v0 0 14 = imm := by unfold fieldOf; omega
  exact ⟨(show 2 ^ 24 ≤ v0 ∧ v0 < 2 ^ 29 by omega), by simp only [candidate, candidateInt, c0, f0, f1, f2]⟩
  )
theorem lui (xd : Nat) (imm : Nat) : Statement (.lui xd imm) := of_slot rfl rfl (by
  intro hyp
  simp only [Instr.wf, Bool.and_eq_true, decide_eq_true_eq] at hyp
  generalize hv : 50331648 + xd * 524288 + imm = v0
  have c0 : fieldOf v0 24 5 = 3 := by unfold fieldOf; omega
  have f0 : fieldOf v0 19 5 = xd := by unfold fieldOf; omega
  have f1 : fieldOf v0 0 19 = imm := by unfold fieldOf; omega
  exact ⟨(show 2 ^ 24 ≤ v0 ∧ v0 < 2 ^ 29 by omega), by simp only [candidate, candidateInt, c0, f0, f1]⟩
  )
theorem sel (xd : Nat) (xa : Nat) (xb : Nat) (ps : Nat) : Statement (.sel xd xa xb ps) := of_slot rfl rfl (by
  intro hyp
  simp only [Instr.wf, Bool.and_eq_true, decide_eq_true_eq] at hyp
  generalize hv : 67108864 + xd * 524288 + xa * 16384 + xb * 512 + ps * 4 = v0
  have c0 : fieldOf v0 24 5 = 4 := by unfold fieldOf; omega
  have f0 : fieldOf v0 19 5 = xd := by unfold fieldOf; omega
  have f1 : fieldOf v0 14 5 = xa := by unfold fieldOf; omega
  have f2 : fieldOf v0 9 5 = xb := by unfold fieldOf; omega
  have f3 : fieldOf v0 2 7 = ps := by unfold fieldOf; omega
  exact ⟨(show 2 ^ 24 ≤ v0 ∧ v0 < 2 ^ 29 by omega), by simp only [candidate, candidateInt, c0, f0, f1, f2, f3]⟩
  )
theorem dsel (xd : Nat) (xa : Nat) : Statement (.dsel xd xa) := of_slot rfl rfl (by
  intro hyp
  simp only [Instr.wf, Bool.and_eq_true, decide_eq_true_eq] at hyp
  generalize hv : 83886080 + xd * 524288 + xa * 16384 = v0
  have c0 : fieldOf v0 24 5 = 5 := by unfold fieldOf; omega
  have f0 : fieldOf v0 19 5 = xd := by unfold fieldOf; omega
  have f1 : fieldOf v0 14 5 = xa := by unfold fieldOf; omega
  exact ⟨(show 2 ^ 24 ≤ v0 ∧ v0 < 2 ^ 29 by omega), by simp only [candidate, candidateInt, c0, f0, f1]⟩
  )
theorem ld (xd : Nat) (xa : Nat) (w : Nat) (off : Nat) : Statement (.ld xd xa w off) := of_slot rfl rfl (by
  intro hyp
  simp only [Instr.wf, Bool.and_eq_true, decide_eq_true_eq] at hyp
  generalize hv : 100663296 + xd * 524288 + xa * 16384 + w * 2048 + off = v0
  have c0 : fieldOf v0 24 5 = 6 := by unfold fieldOf; omega
  have f0 : fieldOf v0 19 5 = xd := by unfold fieldOf; omega
  have f1 : fieldOf v0 14 5 = xa := by unfold fieldOf; omega
  have f2 : fieldOf v0 11 3 = w := by unfold fieldOf; omega
  have f3 : fieldOf v0 0 11 = off := by unfold fieldOf; omega
  exact ⟨(show 2 ^ 24 ≤ v0 ∧ v0 < 2 ^ 29 by omega), by simp only [candidate, candidateInt, c0, f0, f1, f2, f3]⟩
  )
theorem st (xs : Nat) (xa : Nat) (w : Nat) (off : Nat) : Statement (.st xs xa w off) := of_slot rfl rfl (by
  intro hyp
  simp only [Instr.wf, Bool.and_eq_true, decide_eq_true_eq] at hyp
  generalize hv : 117440512 + xs * 524288 + xa * 16384 + w * 2048 + off = v0
  have c0 : fieldOf v0 24 5 = 7 := by unfold fieldOf; omega
  have f0 : fieldOf v0 19 5 = xs := by unfold fieldOf; omega
  have f1 : fieldOf v0 14 5 = xa := by unfold fieldOf; omega
  have f2 : fieldOf v0 11 3 = w := by unfold fieldOf; omega
  have f3 : fieldOf v0 0 11 = off := by unfold fieldOf; omega
  exact ⟨(show 2 ^ 24 ≤ v0 ∧ v0 < 2 ^ 29 by omega), by simp only [candidate, candidateInt, c0, f0, f1, f2, f3]⟩
  )
theorem acq (scope : Nat) (xa : Nat) : Statement (.acq scope xa) := of_slot rfl rfl (by
  intro hyp
  simp only [Instr.wf, Bool.and_eq_true, decide_eq_true_eq] at hyp
  generalize hv : 134217728 + scope * 2097152 + xa * 65536 = v0
  have c0 : fieldOf v0 24 5 = 8 := by unfold fieldOf; omega
  have c1 : fieldOf v0 14 2 = 0 := by unfold fieldOf; omega
  have f0 : fieldOf v0 21 3 = scope := by unfold fieldOf; omega
  have f1 : fieldOf v0 16 5 = xa := by unfold fieldOf; omega
  exact ⟨(show 2 ^ 24 ≤ v0 ∧ v0 < 2 ^ 29 by omega), by simp only [candidate, candidateInt, c0, c1, f0, f1]⟩
  )
theorem rel (scope : Nat) (xa : Nat) : Statement (.rel scope xa) := of_slot rfl rfl (by
  intro hyp
  simp only [Instr.wf, Bool.and_eq_true, decide_eq_true_eq] at hyp
  generalize hv : 134217728 + scope * 2097152 + xa * 65536 + 16384 = v0
  have c0 : fieldOf v0 24 5 = 8 := by unfold fieldOf; omega
  have c1 : fieldOf v0 14 2 = 1 := by unfold fieldOf; omega
  have f0 : fieldOf v0 21 3 = scope := by unfold fieldOf; omega
  have f1 : fieldOf v0 16 5 = xa := by unfold fieldOf; omega
  exact ⟨(show 2 ^ 24 ≤ v0 ∧ v0 < 2 ^ 29 by omega), by simp only [candidate, candidateInt, c0, c1, f0, f1]⟩
  )
theorem fence (scope : Nat) : Statement (.fence scope) := of_slot rfl rfl (by
  intro hyp
  simp only [Instr.wf, Bool.and_eq_true, decide_eq_true_eq] at hyp
  generalize hv : 134217728 + scope * 2097152 + 32768 = v0
  have c0 : fieldOf v0 24 5 = 8 := by unfold fieldOf; omega
  have c1 : fieldOf v0 14 2 = 2 := by unfold fieldOf; omega
  have f0 : fieldOf v0 21 3 = scope := by unfold fieldOf; omega
  exact ⟨(show 2 ^ 24 ≤ v0 ∧ v0 < 2 ^ 29 by omega), by simp only [candidate, candidateInt, c0, c1, f0]⟩
  )
theorem wcfg (xa : Nat) (port : Nat) (field : Nat) : Statement (.wcfg xa port field) := of_slot rfl rfl (by
  intro hyp
  simp only [Instr.wf, Bool.and_eq_true, decide_eq_true_eq] at hyp
  generalize hv : 150994944 + xa * 524288 + port * 65536 + field * 256 = v0
  have c0 : fieldOf v0 24 5 = 9 := by unfold fieldOf; omega
  have f0 : fieldOf v0 19 5 = xa := by unfold fieldOf; omega
  have f1 : fieldOf v0 16 3 = port := by unfold fieldOf; omega
  have f2 : fieldOf v0 8 8 = field := by unfold fieldOf; omega
  exact ⟨(show 2 ^ 24 ≤ v0 ∧ v0 < 2 ^ 29 by omega), by simp only [candidate, candidateInt, c0, f0, f1, f2]⟩
  )
theorem shw (xa : Nat) (eng : Nat) (sh : Nat) (field : Nat) : Statement (.shw xa eng sh field) := of_slot rfl rfl (by
  intro hyp
  simp only [Instr.wf, Bool.and_eq_true, decide_eq_true_eq] at hyp
  generalize hv : 167772160 + xa * 524288 + eng * 131072 + sh * 32768 + field * 256 = v0
  have c0 : fieldOf v0 24 5 = 10 := by unfold fieldOf; omega
  have f0 : fieldOf v0 19 5 = xa := by unfold fieldOf; omega
  have f1 : fieldOf v0 17 2 = eng := by unfold fieldOf; omega
  have f2 : fieldOf v0 15 2 = sh := by unfold fieldOf; omega
  have f3 : fieldOf v0 8 7 = field := by unfold fieldOf; omega
  exact ⟨(show 2 ^ 24 ≤ v0 ∧ v0 < 2 ^ 29 by omega), by simp only [candidate, candidateInt, c0, f0, f1, f2, f3]⟩
  )
theorem ksel (vs : Nat) (ka : Nat) : Statement (.ksel vs ka) := of_slot rfl rfl (by
  intro hyp
  simp only [Instr.wf, Bool.and_eq_true, decide_eq_true_eq] at hyp
  generalize hv : 184549376 + vs * 4194304 + ka * 524288 = v0
  have c0 : fieldOf v0 24 5 = 11 := by unfold fieldOf; omega
  have f0 : fieldOf v0 22 2 = vs := by unfold fieldOf; omega
  have f1 : fieldOf v0 19 3 = ka := by unfold fieldOf; omega
  exact ⟨(show 2 ^ 24 ≤ v0 ∧ v0 < 2 ^ 29 by omega), by simp only [candidate, candidateInt, c0, f0, f1]⟩
  )
theorem xbc (d : Nat) (xa : Nat) (k : Nat) : Statement (.xbc d xa k) := of_slot rfl rfl (by
  intro hyp
  simp only [Instr.wf, Bool.and_eq_true, decide_eq_true_eq] at hyp
  generalize hv : 201326592 + d * 131072 + xa * 4096 + k * 1024 = v0
  have c0 : fieldOf v0 24 5 = 12 := by unfold fieldOf; omega
  have f0 : fieldOf v0 17 7 = d := by unfold fieldOf; omega
  have f1 : fieldOf v0 12 5 = xa := by unfold fieldOf; omega
  have f2 : fieldOf v0 10 2 = k := by unfold fieldOf; omega
  exact ⟨(show 2 ^ 24 ≤ v0 ∧ v0 < 2 ^ 29 by omega), by simp only [candidate, candidateInt, c0, f0, f1, f2]⟩
  )
theorem mscl (xa : Nat) (side : Nat) (grp : Nat) : Statement (.mscl xa side grp) := of_slot rfl rfl (by
  intro hyp
  simp only [Instr.wf, Bool.and_eq_true, decide_eq_true_eq] at hyp
  generalize hv : 218103808 + xa * 524288 + side * 262144 + grp * 32768 = v0
  have c0 : fieldOf v0 24 5 = 13 := by unfold fieldOf; omega
  have f0 : fieldOf v0 19 5 = xa := by unfold fieldOf; omega
  have f1 : fieldOf v0 18 1 = side := by unfold fieldOf; omega
  have f2 : fieldOf v0 15 3 = grp := by unfold fieldOf; omega
  exact ⟨(show 2 ^ 24 ≤ v0 ∧ v0 < 2 ^ 29 by omega), by simp only [candidate, candidateInt, c0, f0, f1, f2]⟩
  )
theorem samcfgPar (xd : Nat) (xa : Nat) : Statement (.samcfgPar xd xa) := of_slot rfl rfl (by
  intro hyp
  simp only [Instr.wf, Bool.and_eq_true, decide_eq_true_eq] at hyp
  generalize hv : 402653184 + xd * 524288 + xa * 16384 = v0
  have c0 : fieldOf v0 24 5 = 24 := by unfold fieldOf; omega
  have c1 : fieldOf v0 5 4 = 0 := by unfold fieldOf; omega
  have f0 : fieldOf v0 19 5 = xd := by unfold fieldOf; omega
  have f1 : fieldOf v0 14 5 = xa := by unfold fieldOf; omega
  exact ⟨(show 2 ^ 24 ≤ v0 ∧ v0 < 2 ^ 29 by omega), by simp only [candidate, candidateInt, c0, c1, f0, f1]⟩
  )
theorem samcfgVoc (xd : Nat) (xa : Nat) : Statement (.samcfgVoc xd xa) := of_slot rfl rfl (by
  intro hyp
  simp only [Instr.wf, Bool.and_eq_true, decide_eq_true_eq] at hyp
  generalize hv : 402653184 + xd * 524288 + xa * 16384 + 32 = v0
  have c0 : fieldOf v0 24 5 = 24 := by unfold fieldOf; omega
  have c1 : fieldOf v0 5 4 = 1 := by unfold fieldOf; omega
  have f0 : fieldOf v0 19 5 = xd := by unfold fieldOf; omega
  have f1 : fieldOf v0 14 5 = xa := by unfold fieldOf; omega
  exact ⟨(show 2 ^ 24 ≤ v0 ∧ v0 < 2 ^ 29 by omega), by simp only [candidate, candidateInt, c0, c1, f0, f1]⟩
  )
theorem samcfgMask (xd : Nat) (xa : Nat) : Statement (.samcfgMask xd xa) := of_slot rfl rfl (by
  intro hyp
  simp only [Instr.wf, Bool.and_eq_true, decide_eq_true_eq] at hyp
  generalize hv : 402653184 + xd * 524288 + xa * 16384 + 64 = v0
  have c0 : fieldOf v0 24 5 = 24 := by unfold fieldOf; omega
  have c1 : fieldOf v0 5 4 = 2 := by unfold fieldOf; omega
  have f0 : fieldOf v0 19 5 = xd := by unfold fieldOf; omega
  have f1 : fieldOf v0 14 5 = xa := by unfold fieldOf; omega
  exact ⟨(show 2 ^ 24 ≤ v0 ∧ v0 < 2 ^ 29 by omega), by simp only [candidate, candidateInt, c0, c1, f0, f1]⟩
  )
theorem samcfgSeed (xd : Nat) (xa : Nat) (xb : Nat) : Statement (.samcfgSeed xd xa xb) := of_slot rfl rfl (by
  intro hyp
  simp only [Instr.wf, Bool.and_eq_true, decide_eq_true_eq] at hyp
  generalize hv : 402653184 + xd * 524288 + xa * 16384 + xb * 512 + 96 = v0
  have c0 : fieldOf v0 24 5 = 24 := by unfold fieldOf; omega
  have c1 : fieldOf v0 5 4 = 3 := by unfold fieldOf; omega
  have f0 : fieldOf v0 19 5 = xd := by unfold fieldOf; omega
  have f1 : fieldOf v0 14 5 = xa := by unfold fieldOf; omega
  have f2 : fieldOf v0 9 5 = xb := by unfold fieldOf; omega
  exact ⟨(show 2 ^ 24 ≤ v0 ∧ v0 < 2 ^ 29 by omega), by simp only [candidate, candidateInt, c0, c1, f0, f1, f2]⟩
  )
theorem sample (xd : Nat) (xa : Nat) (xb : Nat) (k : Nat) : Statement (.sample xd xa xb k) := of_slot rfl rfl (by
  intro hyp
  simp only [Instr.wf, Bool.and_eq_true, decide_eq_true_eq] at hyp
  generalize hv : 419430400 + xd * 524288 + xa * 16384 + xb * 512 + k * 32 = v0
  have c0 : fieldOf v0 24 5 = 25 := by unfold fieldOf; omega
  have f0 : fieldOf v0 19 5 = xd := by unfold fieldOf; omega
  have f1 : fieldOf v0 14 5 = xa := by unfold fieldOf; omega
  have f2 : fieldOf v0 9 5 = xb := by unfold fieldOf; omega
  have f3 : fieldOf v0 5 4 = k := by unfold fieldOf; omega
  exact ⟨(show 2 ^ 24 ≤ v0 ∧ v0 < 2 ^ 29 by omega), by simp only [candidate, candidateInt, c0, f0, f1, f2, f3]⟩
  )
theorem maskg (xd : Nat) (xa : Nat) (xb : Nat) : Statement (.maskg xd xa xb) := of_slot rfl rfl (by
  intro hyp
  simp only [Instr.wf, Bool.and_eq_true, decide_eq_true_eq] at hyp
  generalize hv : 436207616 + xd * 524288 + xa * 16384 + xb * 512 = v0
  have c0 : fieldOf v0 24 5 = 26 := by unfold fieldOf; omega
  have c1 : fieldOf v0 5 4 = 0 := by unfold fieldOf; omega
  have f0 : fieldOf v0 19 5 = xd := by unfold fieldOf; omega
  have f1 : fieldOf v0 14 5 = xa := by unfold fieldOf; omega
  have f2 : fieldOf v0 9 5 = xb := by unfold fieldOf; omega
  exact ⟨(show 2 ^ 24 ≤ v0 ∧ v0 < 2 ^ 29 by omega), by simp only [candidate, candidateInt, c0, c1, f0, f1, f2]⟩
  )
theorem maskgSh (xd : Nat) (xb : Nat) : Statement (.maskgSh xd xb) := of_slot rfl rfl (by
  intro hyp
  simp only [Instr.wf, Bool.and_eq_true, decide_eq_true_eq] at hyp
  generalize hv : 436207616 + xd * 524288 + xb * 512 + 32 = v0
  have c0 : fieldOf v0 24 5 = 26 := by unfold fieldOf; omega
  have c1 : fieldOf v0 5 4 = 1 := by unfold fieldOf; omega
  have f0 : fieldOf v0 19 5 = xd := by unfold fieldOf; omega
  have f1 : fieldOf v0 9 5 = xb := by unfold fieldOf; omega
  exact ⟨(show 2 ^ 24 ≤ v0 ∧ v0 < 2 ^ 29 by omega), by simp only [candidate, candidateInt, c0, c1, f0, f1]⟩
  )
theorem pdaadv (xd : Nat) (xa : Nat) (xb : Nat) : Statement (.pdaadv xd xa xb) := of_slot rfl rfl (by
  intro hyp
  simp only [Instr.wf, Bool.and_eq_true, decide_eq_true_eq] at hyp
  generalize hv : 452984832 + xd * 524288 + xa * 16384 + xb * 512 = v0
  have c0 : fieldOf v0 24 5 = 27 := by unfold fieldOf; omega
  have c1 : fieldOf v0 5 4 = 0 := by unfold fieldOf; omega
  have f0 : fieldOf v0 19 5 = xd := by unfold fieldOf; omega
  have f1 : fieldOf v0 14 5 = xa := by unfold fieldOf; omega
  have f2 : fieldOf v0 9 5 = xb := by unfold fieldOf; omega
  exact ⟨(show 2 ^ 24 ≤ v0 ∧ v0 < 2 ^ 29 by omega), by simp only [candidate, candidateInt, c0, c1, f0, f1, f2]⟩
  )
theorem pdaadvLd (xd : Nat) (xa : Nat) : Statement (.pdaadvLd xd xa) := of_slot rfl rfl (by
  intro hyp
  simp only [Instr.wf, Bool.and_eq_true, decide_eq_true_eq] at hyp
  generalize hv : 452984832 + xd * 524288 + xa * 16384 + 32 = v0
  have c0 : fieldOf v0 24 5 = 27 := by unfold fieldOf; omega
  have c1 : fieldOf v0 5 4 = 1 := by unfold fieldOf; omega
  have f0 : fieldOf v0 19 5 = xd := by unfold fieldOf; omega
  have f1 : fieldOf v0 14 5 = xa := by unfold fieldOf; omega
  exact ⟨(show 2 ^ 24 ≤ v0 ∧ v0 < 2 ^ 29 by omega), by simp only [candidate, candidateInt, c0, c1, f0, f1]⟩
  )
theorem pdaadvSh (xd : Nat) (xb : Nat) : Statement (.pdaadvSh xd xb) := of_slot rfl rfl (by
  intro hyp
  simp only [Instr.wf, Bool.and_eq_true, decide_eq_true_eq] at hyp
  generalize hv : 452984832 + xd * 524288 + xb * 512 + 64 = v0
  have c0 : fieldOf v0 24 5 = 27 := by unfold fieldOf; omega
  have c1 : fieldOf v0 5 4 = 2 := by unfold fieldOf; omega
  have f0 : fieldOf v0 19 5 = xd := by unfold fieldOf; omega
  have f1 : fieldOf v0 9 5 = xb := by unfold fieldOf; omega
  exact ⟨(show 2 ^ 24 ≤ v0 ∧ v0 < 2 ^ 29 by omega), by simp only [candidate, candidateInt, c0, c1, f0, f1]⟩
  )
theorem tokw (xd : Nat) (xa : Nat) (xb : Nat) : Statement (.tokw xd xa xb) := of_slot rfl rfl (by
  intro hyp
  simp only [Instr.wf, Bool.and_eq_true, decide_eq_true_eq] at hyp
  generalize hv : 469762048 + xd * 524288 + xa * 16384 + xb * 512 = v0
  have c0 : fieldOf v0 24 5 = 28 := by unfold fieldOf; omega
  have f0 : fieldOf v0 19 5 = xd := by unfold fieldOf; omega
  have f1 : fieldOf v0 14 5 = xa := by unfold fieldOf; omega
  have f2 : fieldOf v0 9 5 = xb := by unfold fieldOf; omega
  exact ⟨(show 2 ^ 24 ≤ v0 ∧ v0 < 2 ^ 29 by omega), by simp only [candidate, candidateInt, c0, f0, f1, f2]⟩
  )
theorem fadd (u : VUnit) (d : Nat) (a : Nat) (b : Nat) : Statement (.fadd u d a b) := by
  cases u
  · refine of_slot rfl rfl ?_
    intro hyp
    simp only [Instr.wf, Bool.and_eq_true, decide_eq_true_eq] at hyp
    generalize hv : 16777216 + d * 131072 + a * 2048 + b * 32 = v0
    have c0 : fieldOf v0 24 5 = 1 := by unfold fieldOf; omega
    have c1 : fieldOf v0 0 5 = 0 := by unfold fieldOf; omega
    have f0 : fieldOf v0 17 7 = d := by unfold fieldOf; omega
    have f1 : fieldOf v0 11 6 = a := by unfold fieldOf; omega
    have f2 : fieldOf v0 5 6 = b := by unfold fieldOf; omega
    exact ⟨(show 2 ^ 24 ≤ v0 ∧ v0 < 2 ^ 29 by omega), by simp only [candidate, candidateVa, c0, c1, f0, f1, f2]⟩
  · refine of_slot rfl rfl ?_
    intro hyp
    simp only [Instr.wf, Bool.and_eq_true, decide_eq_true_eq] at hyp
    generalize hv : 16777216 + d * 131072 + a * 2048 + b * 32 = v0
    have c0 : fieldOf v0 24 5 = 1 := by unfold fieldOf; omega
    have c1 : fieldOf v0 0 5 = 0 := by unfold fieldOf; omega
    have f0 : fieldOf v0 17 7 = d := by unfold fieldOf; omega
    have f1 : fieldOf v0 11 6 = a := by unfold fieldOf; omega
    have f2 : fieldOf v0 5 6 = b := by unfold fieldOf; omega
    exact ⟨(show 2 ^ 24 ≤ v0 ∧ v0 < 2 ^ 29 by omega), by simp only [candidate, candidateVb, c0, c1, f0, f1, f2]⟩
theorem fsub (u : VUnit) (d : Nat) (a : Nat) (b : Nat) : Statement (.fsub u d a b) := by
  cases u
  · refine of_slot rfl rfl ?_
    intro hyp
    simp only [Instr.wf, Bool.and_eq_true, decide_eq_true_eq] at hyp
    generalize hv : 16777216 + d * 131072 + a * 2048 + b * 32 + 1 = v0
    have c0 : fieldOf v0 24 5 = 1 := by unfold fieldOf; omega
    have c1 : fieldOf v0 0 5 = 1 := by unfold fieldOf; omega
    have f0 : fieldOf v0 17 7 = d := by unfold fieldOf; omega
    have f1 : fieldOf v0 11 6 = a := by unfold fieldOf; omega
    have f2 : fieldOf v0 5 6 = b := by unfold fieldOf; omega
    exact ⟨(show 2 ^ 24 ≤ v0 ∧ v0 < 2 ^ 29 by omega), by simp only [candidate, candidateVa, c0, c1, f0, f1, f2]⟩
  · refine of_slot rfl rfl ?_
    intro hyp
    simp only [Instr.wf, Bool.and_eq_true, decide_eq_true_eq] at hyp
    generalize hv : 16777216 + d * 131072 + a * 2048 + b * 32 + 1 = v0
    have c0 : fieldOf v0 24 5 = 1 := by unfold fieldOf; omega
    have c1 : fieldOf v0 0 5 = 1 := by unfold fieldOf; omega
    have f0 : fieldOf v0 17 7 = d := by unfold fieldOf; omega
    have f1 : fieldOf v0 11 6 = a := by unfold fieldOf; omega
    have f2 : fieldOf v0 5 6 = b := by unfold fieldOf; omega
    exact ⟨(show 2 ^ 24 ≤ v0 ∧ v0 < 2 ^ 29 by omega), by simp only [candidate, candidateVb, c0, c1, f0, f1, f2]⟩
theorem fmul (u : VUnit) (d : Nat) (a : Nat) (b : Nat) : Statement (.fmul u d a b) := by
  cases u
  · refine of_slot rfl rfl ?_
    intro hyp
    simp only [Instr.wf, Bool.and_eq_true, decide_eq_true_eq] at hyp
    generalize hv : 16777216 + d * 131072 + a * 2048 + b * 32 + 2 = v0
    have c0 : fieldOf v0 24 5 = 1 := by unfold fieldOf; omega
    have c1 : fieldOf v0 0 5 = 2 := by unfold fieldOf; omega
    have f0 : fieldOf v0 17 7 = d := by unfold fieldOf; omega
    have f1 : fieldOf v0 11 6 = a := by unfold fieldOf; omega
    have f2 : fieldOf v0 5 6 = b := by unfold fieldOf; omega
    exact ⟨(show 2 ^ 24 ≤ v0 ∧ v0 < 2 ^ 29 by omega), by simp only [candidate, candidateVa, c0, c1, f0, f1, f2]⟩
  · refine of_slot rfl rfl ?_
    intro hyp
    simp only [Instr.wf, Bool.and_eq_true, decide_eq_true_eq] at hyp
    generalize hv : 16777216 + d * 131072 + a * 2048 + b * 32 + 2 = v0
    have c0 : fieldOf v0 24 5 = 1 := by unfold fieldOf; omega
    have c1 : fieldOf v0 0 5 = 2 := by unfold fieldOf; omega
    have f0 : fieldOf v0 17 7 = d := by unfold fieldOf; omega
    have f1 : fieldOf v0 11 6 = a := by unfold fieldOf; omega
    have f2 : fieldOf v0 5 6 = b := by unfold fieldOf; omega
    exact ⟨(show 2 ^ 24 ≤ v0 ∧ v0 < 2 ^ 29 by omega), by simp only [candidate, candidateVb, c0, c1, f0, f1, f2]⟩
theorem fmin (u : VUnit) (d : Nat) (a : Nat) (b : Nat) : Statement (.fmin u d a b) := by
  cases u
  · refine of_slot rfl rfl ?_
    intro hyp
    simp only [Instr.wf, Bool.and_eq_true, decide_eq_true_eq] at hyp
    generalize hv : 16777216 + d * 131072 + a * 2048 + b * 32 + 3 = v0
    have c0 : fieldOf v0 24 5 = 1 := by unfold fieldOf; omega
    have c1 : fieldOf v0 0 5 = 3 := by unfold fieldOf; omega
    have f0 : fieldOf v0 17 7 = d := by unfold fieldOf; omega
    have f1 : fieldOf v0 11 6 = a := by unfold fieldOf; omega
    have f2 : fieldOf v0 5 6 = b := by unfold fieldOf; omega
    exact ⟨(show 2 ^ 24 ≤ v0 ∧ v0 < 2 ^ 29 by omega), by simp only [candidate, candidateVa, c0, c1, f0, f1, f2]⟩
  · refine of_slot rfl rfl ?_
    intro hyp
    simp only [Instr.wf, Bool.and_eq_true, decide_eq_true_eq] at hyp
    generalize hv : 16777216 + d * 131072 + a * 2048 + b * 32 + 3 = v0
    have c0 : fieldOf v0 24 5 = 1 := by unfold fieldOf; omega
    have c1 : fieldOf v0 0 5 = 3 := by unfold fieldOf; omega
    have f0 : fieldOf v0 17 7 = d := by unfold fieldOf; omega
    have f1 : fieldOf v0 11 6 = a := by unfold fieldOf; omega
    have f2 : fieldOf v0 5 6 = b := by unfold fieldOf; omega
    exact ⟨(show 2 ^ 24 ≤ v0 ∧ v0 < 2 ^ 29 by omega), by simp only [candidate, candidateVb, c0, c1, f0, f1, f2]⟩
theorem fmax (u : VUnit) (d : Nat) (a : Nat) (b : Nat) : Statement (.fmax u d a b) := by
  cases u
  · refine of_slot rfl rfl ?_
    intro hyp
    simp only [Instr.wf, Bool.and_eq_true, decide_eq_true_eq] at hyp
    generalize hv : 16777216 + d * 131072 + a * 2048 + b * 32 + 4 = v0
    have c0 : fieldOf v0 24 5 = 1 := by unfold fieldOf; omega
    have c1 : fieldOf v0 0 5 = 4 := by unfold fieldOf; omega
    have f0 : fieldOf v0 17 7 = d := by unfold fieldOf; omega
    have f1 : fieldOf v0 11 6 = a := by unfold fieldOf; omega
    have f2 : fieldOf v0 5 6 = b := by unfold fieldOf; omega
    exact ⟨(show 2 ^ 24 ≤ v0 ∧ v0 < 2 ^ 29 by omega), by simp only [candidate, candidateVa, c0, c1, f0, f1, f2]⟩
  · refine of_slot rfl rfl ?_
    intro hyp
    simp only [Instr.wf, Bool.and_eq_true, decide_eq_true_eq] at hyp
    generalize hv : 16777216 + d * 131072 + a * 2048 + b * 32 + 4 = v0
    have c0 : fieldOf v0 24 5 = 1 := by unfold fieldOf; omega
    have c1 : fieldOf v0 0 5 = 4 := by unfold fieldOf; omega
    have f0 : fieldOf v0 17 7 = d := by unfold fieldOf; omega
    have f1 : fieldOf v0 11 6 = a := by unfold fieldOf; omega
    have f2 : fieldOf v0 5 6 = b := by unfold fieldOf; omega
    exact ⟨(show 2 ^ 24 ≤ v0 ∧ v0 < 2 ^ 29 by omega), by simp only [candidate, candidateVb, c0, c1, f0, f1, f2]⟩
theorem fma (u : VUnit) (d : Nat) (a : Nat) (b : Nat) (c : Nat) : Statement (.fma u d a b c) := by
  cases u
  · refine of_slot rfl rfl ?_
    intro hyp
    simp only [Instr.wf, Bool.and_eq_true, decide_eq_true_eq] at hyp
    generalize hv : 33554432 + d * 131072 + a * 2048 + b * 32 + c = v0
    have c0 : fieldOf v0 24 5 = 2 := by unfold fieldOf; omega
    have f0 : fieldOf v0 17 7 = d := by unfold fieldOf; omega
    have f1 : fieldOf v0 11 6 = a := by unfold fieldOf; omega
    have f2 : fieldOf v0 5 6 = b := by unfold fieldOf; omega
    have f3 : fieldOf v0 0 5 = c := by unfold fieldOf; omega
    exact ⟨(show 2 ^ 24 ≤ v0 ∧ v0 < 2 ^ 29 by omega), by simp only [candidate, candidateVa, c0, f0, f1, f2, f3]⟩
  · refine of_slot rfl rfl ?_
    intro hyp
    simp only [Instr.wf, Bool.and_eq_true, decide_eq_true_eq] at hyp
    generalize hv : 33554432 + d * 131072 + a * 2048 + b * 32 + c = v0
    have c0 : fieldOf v0 24 5 = 2 := by unfold fieldOf; omega
    have f0 : fieldOf v0 17 7 = d := by unfold fieldOf; omega
    have f1 : fieldOf v0 11 6 = a := by unfold fieldOf; omega
    have f2 : fieldOf v0 5 6 = b := by unfold fieldOf; omega
    have f3 : fieldOf v0 0 5 = c := by unfold fieldOf; omega
    exact ⟨(show 2 ^ 24 ≤ v0 ∧ v0 < 2 ^ 29 by omega), by simp only [candidate, candidateVb, c0, f0, f1, f2, f3]⟩
theorem fms (d : Nat) (a : Nat) (b : Nat) (c : Nat) : Statement (.fms d a b c) := of_slot rfl rfl (by
  intro hyp
  simp only [Instr.wf, Bool.and_eq_true, decide_eq_true_eq] at hyp
  generalize hv : 50331648 + d * 131072 + a * 2048 + b * 32 + c = v0
  have c0 : fieldOf v0 24 5 = 3 := by unfold fieldOf; omega
  have f0 : fieldOf v0 17 7 = d := by unfold fieldOf; omega
  have f1 : fieldOf v0 11 6 = a := by unfold fieldOf; omega
  have f2 : fieldOf v0 5 6 = b := by unfold fieldOf; omega
  have f3 : fieldOf v0 0 5 = c := by unfold fieldOf; omega
  exact ⟨(show 2 ^ 24 ≤ v0 ∧ v0 < 2 ^ 29 by omega), by simp only [candidate, candidateVa, c0, f0, f1, f2, f3]⟩
  )
theorem fnma (d : Nat) (a : Nat) (b : Nat) (c : Nat) : Statement (.fnma d a b c) := of_slot rfl rfl (by
  intro hyp
  simp only [Instr.wf, Bool.and_eq_true, decide_eq_true_eq] at hyp
  generalize hv : 67108864 + d * 131072 + a * 2048 + b * 32 + c = v0
  have c0 : fieldOf v0 24 5 = 4 := by unfold fieldOf; omega
  have f0 : fieldOf v0 17 7 = d := by unfold fieldOf; omega
  have f1 : fieldOf v0 11 6 = a := by unfold fieldOf; omega
  have f2 : fieldOf v0 5 6 = b := by unfold fieldOf; omega
  have f3 : fieldOf v0 0 5 = c := by unfold fieldOf; omega
  exact ⟨(show 2 ^ 24 ≤ v0 ∧ v0 < 2 ^ 29 by omega), by simp only [candidate, candidateVa, c0, f0, f1, f2, f3]⟩
  )
theorem funa (u : VUnit) (d : Nat) (a : Nat) (fn : Nat) : Statement (.funa u d a fn) := by
  cases u
  · refine of_slot rfl rfl ?_
    intro hyp
    simp only [Instr.wf, Bool.and_eq_true, decide_eq_true_eq] at hyp
    generalize hv : 83886080 + d * 131072 + a * 2048 + fn = v0
    have c0 : fieldOf v0 24 5 = 5 := by unfold fieldOf; omega
    have f0 : fieldOf v0 17 7 = d := by unfold fieldOf; omega
    have f1 : fieldOf v0 11 6 = a := by unfold fieldOf; omega
    have f2 : fieldOf v0 0 5 = fn := by unfold fieldOf; omega
    exact ⟨(show 2 ^ 24 ≤ v0 ∧ v0 < 2 ^ 29 by omega), by simp only [candidate, candidateVa, c0, f0, f1, f2]⟩
  · refine of_slot rfl rfl ?_
    intro hyp
    simp only [Instr.wf, Bool.and_eq_true, decide_eq_true_eq] at hyp
    generalize hv : 50331648 + d * 131072 + a * 2048 + fn = v0
    have c0 : fieldOf v0 24 5 = 3 := by unfold fieldOf; omega
    have f0 : fieldOf v0 17 7 = d := by unfold fieldOf; omega
    have f1 : fieldOf v0 11 6 = a := by unfold fieldOf; omega
    have f2 : fieldOf v0 0 5 = fn := by unfold fieldOf; omega
    exact ⟨(show 2 ^ 24 ≤ v0 ∧ v0 < 2 ^ 29 by omega), by simp only [candidate, candidateVb, c0, f0, f1, f2]⟩
theorem iadd (u : VUnit) (d : Nat) (a : Nat) (b : Nat) : Statement (.iadd u d a b) := by
  cases u
  · refine of_slot rfl rfl ?_
    intro hyp
    simp only [Instr.wf, Bool.and_eq_true, decide_eq_true_eq] at hyp
    generalize hv : 100663296 + d * 131072 + a * 2048 + b * 32 = v0
    have c0 : fieldOf v0 24 5 = 6 := by unfold fieldOf; omega
    have c1 : fieldOf v0 0 5 = 0 := by unfold fieldOf; omega
    have f0 : fieldOf v0 17 7 = d := by unfold fieldOf; omega
    have f1 : fieldOf v0 11 6 = a := by unfold fieldOf; omega
    have f2 : fieldOf v0 5 6 = b := by unfold fieldOf; omega
    exact ⟨(show 2 ^ 24 ≤ v0 ∧ v0 < 2 ^ 29 by omega), by simp only [candidate, candidateVa, c0, c1, f0, f1, f2]⟩
  · refine of_slot rfl rfl ?_
    intro hyp
    simp only [Instr.wf, Bool.and_eq_true, decide_eq_true_eq] at hyp
    generalize hv : 67108864 + d * 131072 + a * 2048 + b * 32 = v0
    have c0 : fieldOf v0 24 5 = 4 := by unfold fieldOf; omega
    have f0 : fieldOf v0 17 7 = d := by unfold fieldOf; omega
    have f1 : fieldOf v0 11 6 = a := by unfold fieldOf; omega
    have f2 : fieldOf v0 5 6 = b := by unfold fieldOf; omega
    exact ⟨(show 2 ^ 24 ≤ v0 ∧ v0 < 2 ^ 29 by omega), by simp only [candidate, candidateVb, c0, f0, f1, f2]⟩
theorem isub (d : Nat) (a : Nat) (b : Nat) : Statement (.isub d a b) := of_slot rfl rfl (by
  intro hyp
  simp only [Instr.wf, Bool.and_eq_true, decide_eq_true_eq] at hyp
  generalize hv : 100663296 + d * 131072 + a * 2048 + b * 32 + 1 = v0
  have c0 : fieldOf v0 24 5 = 6 := by unfold fieldOf; omega
  have c1 : fieldOf v0 0 5 = 1 := by unfold fieldOf; omega
  have f0 : fieldOf v0 17 7 = d := by unfold fieldOf; omega
  have f1 : fieldOf v0 11 6 = a := by unfold fieldOf; omega
  have f2 : fieldOf v0 5 6 = b := by unfold fieldOf; omega
  exact ⟨(show 2 ^ 24 ≤ v0 ∧ v0 < 2 ^ 29 by omega), by simp only [candidate, candidateVa, c0, c1, f0, f1, f2]⟩
  )
theorem imul (d : Nat) (a : Nat) (b : Nat) : Statement (.imul d a b) := of_slot rfl rfl (by
  intro hyp
  simp only [Instr.wf, Bool.and_eq_true, decide_eq_true_eq] at hyp
  generalize hv : 100663296 + d * 131072 + a * 2048 + b * 32 + 2 = v0
  have c0 : fieldOf v0 24 5 = 6 := by unfold fieldOf; omega
  have c1 : fieldOf v0 0 5 = 2 := by unfold fieldOf; omega
  have f0 : fieldOf v0 17 7 = d := by unfold fieldOf; omega
  have f1 : fieldOf v0 11 6 = a := by unfold fieldOf; omega
  have f2 : fieldOf v0 5 6 = b := by unfold fieldOf; omega
  exact ⟨(show 2 ^ 24 ≤ v0 ∧ v0 < 2 ^ 29 by omega), by simp only [candidate, candidateVa, c0, c1, f0, f1, f2]⟩
  )
theorem iand (d : Nat) (a : Nat) (b : Nat) : Statement (.iand d a b) := of_slot rfl rfl (by
  intro hyp
  simp only [Instr.wf, Bool.and_eq_true, decide_eq_true_eq] at hyp
  generalize hv : 100663296 + d * 131072 + a * 2048 + b * 32 + 3 = v0
  have c0 : fieldOf v0 24 5 = 6 := by unfold fieldOf; omega
  have c1 : fieldOf v0 0 5 = 3 := by unfold fieldOf; omega
  have f0 : fieldOf v0 17 7 = d := by unfold fieldOf; omega
  have f1 : fieldOf v0 11 6 = a := by unfold fieldOf; omega
  have f2 : fieldOf v0 5 6 = b := by unfold fieldOf; omega
  exact ⟨(show 2 ^ 24 ≤ v0 ∧ v0 < 2 ^ 29 by omega), by simp only [candidate, candidateVa, c0, c1, f0, f1, f2]⟩
  )
theorem ior (d : Nat) (a : Nat) (b : Nat) : Statement (.ior d a b) := of_slot rfl rfl (by
  intro hyp
  simp only [Instr.wf, Bool.and_eq_true, decide_eq_true_eq] at hyp
  generalize hv : 100663296 + d * 131072 + a * 2048 + b * 32 + 4 = v0
  have c0 : fieldOf v0 24 5 = 6 := by unfold fieldOf; omega
  have c1 : fieldOf v0 0 5 = 4 := by unfold fieldOf; omega
  have f0 : fieldOf v0 17 7 = d := by unfold fieldOf; omega
  have f1 : fieldOf v0 11 6 = a := by unfold fieldOf; omega
  have f2 : fieldOf v0 5 6 = b := by unfold fieldOf; omega
  exact ⟨(show 2 ^ 24 ≤ v0 ∧ v0 < 2 ^ 29 by omega), by simp only [candidate, candidateVa, c0, c1, f0, f1, f2]⟩
  )
theorem ixor (d : Nat) (a : Nat) (b : Nat) : Statement (.ixor d a b) := of_slot rfl rfl (by
  intro hyp
  simp only [Instr.wf, Bool.and_eq_true, decide_eq_true_eq] at hyp
  generalize hv : 100663296 + d * 131072 + a * 2048 + b * 32 + 5 = v0
  have c0 : fieldOf v0 24 5 = 6 := by unfold fieldOf; omega
  have c1 : fieldOf v0 0 5 = 5 := by unfold fieldOf; omega
  have f0 : fieldOf v0 17 7 = d := by unfold fieldOf; omega
  have f1 : fieldOf v0 11 6 = a := by unfold fieldOf; omega
  have f2 : fieldOf v0 5 6 = b := by unfold fieldOf; omega
  exact ⟨(show 2 ^ 24 ≤ v0 ∧ v0 < 2 ^ 29 by omega), by simp only [candidate, candidateVa, c0, c1, f0, f1, f2]⟩
  )
theorem ishl (d : Nat) (a : Nat) (b : Nat) : Statement (.ishl d a b) := of_slot rfl rfl (by
  intro hyp
  simp only [Instr.wf, Bool.and_eq_true, decide_eq_true_eq] at hyp
  generalize hv : 100663296 + d * 131072 + a * 2048 + b * 32 + 6 = v0
  have c0 : fieldOf v0 24 5 = 6 := by unfold fieldOf; omega
  have c1 : fieldOf v0 0 5 = 6 := by unfold fieldOf; omega
  have f0 : fieldOf v0 17 7 = d := by unfold fieldOf; omega
  have f1 : fieldOf v0 11 6 = a := by unfold fieldOf; omega
  have f2 : fieldOf v0 5 6 = b := by unfold fieldOf; omega
  exact ⟨(show 2 ^ 24 ≤ v0 ∧ v0 < 2 ^ 29 by omega), by simp only [candidate, candidateVa, c0, c1, f0, f1, f2]⟩
  )
theorem ishr (d : Nat) (a : Nat) (b : Nat) : Statement (.ishr d a b) := of_slot rfl rfl (by
  intro hyp
  simp only [Instr.wf, Bool.and_eq_true, decide_eq_true_eq] at hyp
  generalize hv : 100663296 + d * 131072 + a * 2048 + b * 32 + 7 = v0
  have c0 : fieldOf v0 24 5 = 6 := by unfold fieldOf; omega
  have c1 : fieldOf v0 0 5 = 7 := by unfold fieldOf; omega
  have f0 : fieldOf v0 17 7 = d := by unfold fieldOf; omega
  have f1 : fieldOf v0 11 6 = a := by unfold fieldOf; omega
  have f2 : fieldOf v0 5 6 = b := by unfold fieldOf; omega
  exact ⟨(show 2 ^ 24 ≤ v0 ∧ v0 < 2 ^ 29 by omega), by simp only [candidate, candidateVa, c0, c1, f0, f1, f2]⟩
  )
theorem isra (d : Nat) (a : Nat) (b : Nat) : Statement (.isra d a b) := of_slot rfl rfl (by
  intro hyp
  simp only [Instr.wf, Bool.and_eq_true, decide_eq_true_eq] at hyp
  generalize hv : 100663296 + d * 131072 + a * 2048 + b * 32 + 8 = v0
  have c0 : fieldOf v0 24 5 = 6 := by unfold fieldOf; omega
  have c1 : fieldOf v0 0 5 = 8 := by unfold fieldOf; omega
  have f0 : fieldOf v0 17 7 = d := by unfold fieldOf; omega
  have f1 : fieldOf v0 11 6 = a := by unfold fieldOf; omega
  have f2 : fieldOf v0 5 6 = b := by unfold fieldOf; omega
  exact ⟨(show 2 ^ 24 ≤ v0 ∧ v0 < 2 ^ 29 by omega), by simp only [candidate, candidateVa, c0, c1, f0, f1, f2]⟩
  )
theorem imin (d : Nat) (a : Nat) (b : Nat) : Statement (.imin d a b) := of_slot rfl rfl (by
  intro hyp
  simp only [Instr.wf, Bool.and_eq_true, decide_eq_true_eq] at hyp
  generalize hv : 100663296 + d * 131072 + a * 2048 + b * 32 + 9 = v0
  have c0 : fieldOf v0 24 5 = 6 := by unfold fieldOf; omega
  have c1 : fieldOf v0 0 5 = 9 := by unfold fieldOf; omega
  have f0 : fieldOf v0 17 7 = d := by unfold fieldOf; omega
  have f1 : fieldOf v0 11 6 = a := by unfold fieldOf; omega
  have f2 : fieldOf v0 5 6 = b := by unfold fieldOf; omega
  exact ⟨(show 2 ^ 24 ≤ v0 ∧ v0 < 2 ^ 29 by omega), by simp only [candidate, candidateVa, c0, c1, f0, f1, f2]⟩
  )
theorem imax (d : Nat) (a : Nat) (b : Nat) : Statement (.imax d a b) := of_slot rfl rfl (by
  intro hyp
  simp only [Instr.wf, Bool.and_eq_true, decide_eq_true_eq] at hyp
  generalize hv : 100663296 + d * 131072 + a * 2048 + b * 32 + 10 = v0
  have c0 : fieldOf v0 24 5 = 6 := by unfold fieldOf; omega
  have c1 : fieldOf v0 0 5 = 10 := by unfold fieldOf; omega
  have f0 : fieldOf v0 17 7 = d := by unfold fieldOf; omega
  have f1 : fieldOf v0 11 6 = a := by unfold fieldOf; omega
  have f2 : fieldOf v0 5 6 = b := by unfold fieldOf; omega
  exact ⟨(show 2 ^ 24 ≤ v0 ∧ v0 < 2 ^ 29 by omega), by simp only [candidate, candidateVa, c0, c1, f0, f1, f2]⟩
  )
theorem fcmp (u : VUnit) (kd : Nat) (a : Nat) (b : Nat) (cc : Nat) : Statement (.fcmp u kd a b cc) := by
  cases u
  · refine of_slot rfl rfl ?_
    intro hyp
    simp only [Instr.wf, Bool.and_eq_true, decide_eq_true_eq] at hyp
    generalize hv : 117440512 + kd * 2097152 + a * 32768 + b * 512 + cc * 32 = v0
    have c0 : fieldOf v0 24 5 = 7 := by unfold fieldOf; omega
    have f0 : fieldOf v0 21 3 = kd := by unfold fieldOf; omega
    have f1 : fieldOf v0 15 6 = a := by unfold fieldOf; omega
    have f2 : fieldOf v0 9 6 = b := by unfold fieldOf; omega
    have f3 : fieldOf v0 5 4 = cc := by unfold fieldOf; omega
    exact ⟨(show 2 ^ 24 ≤ v0 ∧ v0 < 2 ^ 29 by omega), by simp only [candidate, candidateVa, c0, f0, f1, f2, f3]⟩
  · refine of_slot rfl rfl ?_
    intro hyp
    simp only [Instr.wf, Bool.and_eq_true, decide_eq_true_eq] at hyp
    generalize hv : 83886080 + kd * 2097152 + a * 32768 + b * 512 + cc * 32 = v0
    have c0 : fieldOf v0 24 5 = 5 := by unfold fieldOf; omega
    have f0 : fieldOf v0 21 3 = kd := by unfold fieldOf; omega
    have f1 : fieldOf v0 15 6 = a := by unfold fieldOf; omega
    have f2 : fieldOf v0 9 6 = b := by unfold fieldOf; omega
    have f3 : fieldOf v0 5 4 = cc := by unfold fieldOf; omega
    exact ⟨(show 2 ^ 24 ≤ v0 ∧ v0 < 2 ^ 29 by omega), by simp only [candidate, candidateVb, c0, f0, f1, f2, f3]⟩
theorem icmp (u : VUnit) (kd : Nat) (a : Nat) (b : Nat) (cc : Nat) : Statement (.icmp u kd a b cc) := by
  cases u
  · refine of_slot rfl rfl ?_
    intro hyp
    simp only [Instr.wf, Bool.and_eq_true, decide_eq_true_eq] at hyp
    generalize hv : 134217728 + kd * 2097152 + a * 32768 + b * 512 + cc * 32 = v0
    have c0 : fieldOf v0 24 5 = 8 := by unfold fieldOf; omega
    have f0 : fieldOf v0 21 3 = kd := by unfold fieldOf; omega
    have f1 : fieldOf v0 15 6 = a := by unfold fieldOf; omega
    have f2 : fieldOf v0 9 6 = b := by unfold fieldOf; omega
    have f3 : fieldOf v0 5 4 = cc := by unfold fieldOf; omega
    exact ⟨(show 2 ^ 24 ≤ v0 ∧ v0 < 2 ^ 29 by omega), by simp only [candidate, candidateVa, c0, f0, f1, f2, f3]⟩
  · refine of_slot rfl rfl ?_
    intro hyp
    simp only [Instr.wf, Bool.and_eq_true, decide_eq_true_eq] at hyp
    generalize hv : 100663296 + kd * 2097152 + a * 32768 + b * 512 + cc * 32 = v0
    have c0 : fieldOf v0 24 5 = 6 := by unfold fieldOf; omega
    have f0 : fieldOf v0 21 3 = kd := by unfold fieldOf; omega
    have f1 : fieldOf v0 15 6 = a := by unfold fieldOf; omega
    have f2 : fieldOf v0 9 6 = b := by unfold fieldOf; omega
    have f3 : fieldOf v0 5 4 = cc := by unfold fieldOf; omega
    exact ⟨(show 2 ^ 24 ≤ v0 ∧ v0 < 2 ^ 29 by omega), by simp only [candidate, candidateVb, c0, f0, f1, f2, f3]⟩
theorem klog (kd : Nat) (ka : Nat) (kb : Nat) (o : Nat) : Statement (.klog kd ka kb o) := of_slot rfl rfl (by
  intro hyp
  simp only [Instr.wf, Bool.and_eq_true, decide_eq_true_eq] at hyp
  generalize hv : 150994944 + kd * 2097152 + ka * 262144 + kb * 32768 + o * 4096 = v0
  have c0 : fieldOf v0 24 5 = 9 := by unfold fieldOf; omega
  have f0 : fieldOf v0 21 3 = kd := by unfold fieldOf; omega
  have f1 : fieldOf v0 18 3 = ka := by unfold fieldOf; omega
  have f2 : fieldOf v0 15 3 = kb := by unfold fieldOf; omega
  have f3 : fieldOf v0 12 3 = o := by unfold fieldOf; omega
  exact ⟨(show 2 ^ 24 ≤ v0 ∧ v0 < 2 ^ 29 by omega), by simp only [candidate, candidateVa, c0, f0, f1, f2, f3]⟩
  )
theorem vsel (u : VUnit) (d : Nat) (a : Nat) (b : Nat) (k : Nat) : Statement (.vsel u d a b k) := by
  cases u
  · refine of_slot rfl rfl ?_
    intro hyp
    simp only [Instr.wf, Bool.and_eq_true, decide_eq_true_eq] at hyp
    generalize hv : 167772160 + d * 131072 + a * 2048 + b * 32 + k * 4 = v0
    have c0 : fieldOf v0 24 5 = 10 := by unfold fieldOf; omega
    have f0 : fieldOf v0 17 7 = d := by unfold fieldOf; omega
    have f1 : fieldOf v0 11 6 = a := by unfold fieldOf; omega
    have f2 : fieldOf v0 5 6 = b := by unfold fieldOf; omega
    have f3 : fieldOf v0 2 3 = k := by unfold fieldOf; omega
    exact ⟨(show 2 ^ 24 ≤ v0 ∧ v0 < 2 ^ 29 by omega), by simp only [candidate, candidateVa, c0, f0, f1, f2, f3]⟩
  · refine of_slot rfl rfl ?_
    intro hyp
    simp only [Instr.wf, Bool.and_eq_true, decide_eq_true_eq] at hyp
    generalize hv : 117440512 + d * 131072 + a * 2048 + b * 32 + k * 4 = v0
    have c0 : fieldOf v0 24 5 = 7 := by unfold fieldOf; omega
    have f0 : fieldOf v0 17 7 = d := by unfold fieldOf; omega
    have f1 : fieldOf v0 11 6 = a := by unfold fieldOf; omega
    have f2 : fieldOf v0 5 6 = b := by unfold fieldOf; omega
    have f3 : fieldOf v0 2 3 = k := by unfold fieldOf; omega
    exact ⟨(show 2 ^ 24 ≤ v0 ∧ v0 < 2 ^ 29 by omega), by simp only [candidate, candidateVb, c0, f0, f1, f2, f3]⟩
theorem cvt (u : VUnit) (d : Nat) (a : Nat) (b : Nat) (kind : Nat) (m : Nat) : Statement (.cvt u d a b kind m) := by
  cases u
  · refine of_slot rfl rfl ?_
    intro hyp
    simp only [Instr.wf, Bool.and_eq_true, decide_eq_true_eq] at hyp
    generalize hv : 184549376 + d * 131072 + a * 2048 + b * 32 + kind * 4 + m = v0
    have c0 : fieldOf v0 24 5 = 11 := by unfold fieldOf; omega
    have f0 : fieldOf v0 17 7 = d := by unfold fieldOf; omega
    have f1 : fieldOf v0 11 6 = a := by unfold fieldOf; omega
    have f2 : fieldOf v0 5 6 = b := by unfold fieldOf; omega
    have f3 : fieldOf v0 2 3 = kind := by unfold fieldOf; omega
    have f4 : fieldOf v0 0 2 = m := by unfold fieldOf; omega
    exact ⟨(show 2 ^ 24 ≤ v0 ∧ v0 < 2 ^ 29 by omega), by simp only [candidate, candidateVa, c0, f0, f1, f2, f3, f4]⟩
  · refine of_slot rfl rfl ?_
    intro hyp
    simp only [Instr.wf, Bool.and_eq_true, decide_eq_true_eq] at hyp
    generalize hv : 134217728 + d * 131072 + a * 2048 + b * 32 + kind * 4 + m = v0
    have c0 : fieldOf v0 24 5 = 8 := by unfold fieldOf; omega
    have f0 : fieldOf v0 17 7 = d := by unfold fieldOf; omega
    have f1 : fieldOf v0 11 6 = a := by unfold fieldOf; omega
    have f2 : fieldOf v0 5 6 = b := by unfold fieldOf; omega
    have f3 : fieldOf v0 2 3 = kind := by unfold fieldOf; omega
    have f4 : fieldOf v0 0 2 = m := by unfold fieldOf; omega
    exact ⟨(show 2 ^ 24 ≤ v0 ∧ v0 < 2 ^ 29 by omega), by simp only [candidate, candidateVb, c0, f0, f1, f2, f3, f4]⟩
theorem vmov (u : VUnit) (d : Nat) (a : Nat) : Statement (.vmov u d a) := by
  cases u
  · refine of_slot rfl rfl ?_
    intro hyp
    simp only [Instr.wf, Bool.and_eq_true, decide_eq_true_eq] at hyp
    generalize hv : 201326592 + d * 131072 + a * 2048 = v0
    have c0 : fieldOf v0 24 5 = 12 := by unfold fieldOf; omega
    have f0 : fieldOf v0 17 7 = d := by unfold fieldOf; omega
    have f1 : fieldOf v0 11 6 = a := by unfold fieldOf; omega
    exact ⟨(show 2 ^ 24 ≤ v0 ∧ v0 < 2 ^ 29 by omega), by simp only [candidate, candidateVa, c0, f0, f1]⟩
  · refine of_slot rfl rfl ?_
    intro hyp
    simp only [Instr.wf, Bool.and_eq_true, decide_eq_true_eq] at hyp
    generalize hv : 150994944 + d * 131072 + a * 2048 = v0
    have c0 : fieldOf v0 24 5 = 9 := by unfold fieldOf; omega
    have f0 : fieldOf v0 17 7 = d := by unfold fieldOf; omega
    have f1 : fieldOf v0 11 6 = a := by unfold fieldOf; omega
    exact ⟨(show 2 ^ 24 ≤ v0 ∧ v0 < 2 ^ 29 by omega), by simp only [candidate, candidateVb, c0, f0, f1]⟩
theorem vimm (d : Nat) (k : Nat) (imm : Nat) : Statement (.vimm d k imm) := of_slot rfl rfl (by
  intro hyp
  simp only [Instr.wf, Bool.and_eq_true, decide_eq_true_eq] at hyp
  generalize hv : 218103808 + d * 131072 + k * 65536 + imm = v0
  have c0 : fieldOf v0 24 5 = 13 := by unfold fieldOf; omega
  have f0 : fieldOf v0 17 7 = d := by unfold fieldOf; omega
  have f1 : fieldOf v0 16 1 = k := by unfold fieldOf; omega
  have f2 : fieldOf v0 0 16 = imm := by unfold fieldOf; omega
  exact ⟨(show 2 ^ 24 ≤ v0 ∧ v0 < 2 ^ 29 by omega), by simp only [candidate, candidateVa, c0, f0, f1, f2]⟩
  )
theorem vlane (d : Nat) (a : Nat) (lane : Nat) : Statement (.vlane d a lane) := of_slot rfl rfl (by
  intro hyp
  simp only [Instr.wf, Bool.and_eq_true, decide_eq_true_eq] at hyp
  generalize hv : 234881024 + d * 131072 + a * 2048 + lane * 16 = v0
  have c0 : fieldOf v0 24 5 = 14 := by unfold fieldOf; omega
  have f0 : fieldOf v0 17 7 = d := by unfold fieldOf; omega
  have f1 : fieldOf v0 11 6 = a := by unfold fieldOf; omega
  have f2 : fieldOf v0 4 7 = lane := by unfold fieldOf; omega
  exact ⟨(show 2 ^ 24 ≤ v0 ∧ v0 < 2 ^ 29 by omega), by simp only [candidate, candidateVa, c0, f0, f1, f2]⟩
  )
theorem vld (d : Nat) (xa : Nat) (off : Nat) : Statement (.vld d xa off) := of_slot rfl rfl (by
  intro hyp
  simp only [Instr.wf, Bool.and_eq_true, decide_eq_true_eq] at hyp
  generalize hv : 251658240 + d * 131072 + xa * 4096 + off = v0
  have c0 : fieldOf v0 24 5 = 15 := by unfold fieldOf; omega
  have f0 : fieldOf v0 17 7 = d := by unfold fieldOf; omega
  have f1 : fieldOf v0 12 5 = xa := by unfold fieldOf; omega
  have f2 : fieldOf v0 0 12 = off := by unfold fieldOf; omega
  exact ⟨(show 2 ^ 24 ≤ v0 ∧ v0 < 2 ^ 29 by omega), by simp only [candidate, candidateVa, c0, f0, f1, f2]⟩
  )
theorem vst (a : Nat) (xa : Nat) (off : Nat) : Statement (.vst a xa off) := of_slot rfl rfl (by
  intro hyp
  simp only [Instr.wf, Bool.and_eq_true, decide_eq_true_eq] at hyp
  generalize hv : 268435456 + a * 262144 + xa * 4096 + off = v0
  have c0 : fieldOf v0 24 5 = 16 := by unfold fieldOf; omega
  have f0 : fieldOf v0 18 6 = a := by unfold fieldOf; omega
  have f1 : fieldOf v0 12 5 = xa := by unfold fieldOf; omega
  have f2 : fieldOf v0 0 12 = off := by unfold fieldOf; omega
  exact ⟨(show 2 ^ 24 ≤ v0 ∧ v0 < 2 ^ 29 by omega), by simp only [candidate, candidateVa, c0, f0, f1, f2]⟩
  )
theorem park (v : Nat) : Statement (.park v) := of_slot rfl rfl (by
  intro hyp
  simp only [Instr.wf, Bool.and_eq_true, decide_eq_true_eq] at hyp
  generalize hv : 268435456 + v * 262144 = v0
  have c0 : fieldOf v0 24 5 = 16 := by unfold fieldOf; omega
  have f0 : fieldOf v0 18 6 = v := by unfold fieldOf; omega
  exact ⟨(show 2 ^ 24 ≤ v0 ∧ v0 < 2 ^ 29 by omega), by simp only [candidate, candidateVb, c0, f0]⟩
  )
theorem unpark (v : Nat) : Statement (.unpark v) := of_slot rfl rfl (by
  intro hyp
  simp only [Instr.wf, Bool.and_eq_true, decide_eq_true_eq] at hyp
  generalize hv : 285212672 + v * 262144 = v0
  have c0 : fieldOf v0 24 5 = 17 := by unfold fieldOf; omega
  have f0 : fieldOf v0 18 6 = v := by unfold fieldOf; omega
  exact ⟨(show 2 ^ 24 ≤ v0 ∧ v0 < 2 ^ 29 by omega), by simp only [candidate, candidateVb, c0, f0]⟩
  )
theorem sfseed (d : Nat) (a : Nat) (fn : Nat) : Statement (.sfseed d a fn) := of_slot rfl rfl (by
  intro hyp
  simp only [Instr.wf, Bool.and_eq_true, decide_eq_true_eq] at hyp
  generalize hv : 301989888 + d * 131072 + a * 2048 + fn = v0
  have c0 : fieldOf v0 24 5 = 18 := by unfold fieldOf; omega
  have f0 : fieldOf v0 17 7 = d := by unfold fieldOf; omega
  have f1 : fieldOf v0 11 6 = a := by unfold fieldOf; omega
  have f2 : fieldOf v0 0 5 = fn := by unfold fieldOf; omega
  exact ⟨(show 2 ^ 24 ≤ v0 ∧ v0 < 2 ^ 29 by omega), by simp only [candidate, candidateVb, c0, f0, f1, f2]⟩
  )
theorem sfstep (d : Nat) (a : Nat) (b : Nat) (fn : Nat) : Statement (.sfstep d a b fn) := of_slot rfl rfl (by
  intro hyp
  simp only [Instr.wf, Bool.and_eq_true, decide_eq_true_eq] at hyp
  generalize hv : 318767104 + d * 131072 + a * 2048 + b * 32 + fn = v0
  have c0 : fieldOf v0 24 5 = 19 := by unfold fieldOf; omega
  have f0 : fieldOf v0 17 7 = d := by unfold fieldOf; omega
  have f1 : fieldOf v0 11 6 = a := by unfold fieldOf; omega
  have f2 : fieldOf v0 5 6 = b := by unfold fieldOf; omega
  have f3 : fieldOf v0 0 5 = fn := by unfold fieldOf; omega
  exact ⟨(show 2 ^ 24 ≤ v0 ∧ v0 < 2 ^ 29 by omega), by simp only [candidate, candidateVb, c0, f0, f1, f2, f3]⟩
  )
theorem sftld (xa : Nat) (fn : Nat) : Statement (.sftld xa fn) := of_slot rfl rfl (by
  intro hyp
  simp only [Instr.wf, Bool.and_eq_true, decide_eq_true_eq] at hyp
  generalize hv : 335544320 + xa * 524288 + fn * 32768 = v0
  have c0 : fieldOf v0 24 5 = 20 := by unfold fieldOf; omega
  have f0 : fieldOf v0 19 5 = xa := by unfold fieldOf; omega
  have f1 : fieldOf v0 15 4 = fn := by unfold fieldOf; omega
  exact ⟨(show 2 ^ 24 ≤ v0 ∧ v0 < 2 ^ 29 by omega), by simp only [candidate, candidateVb, c0, f0, f1]⟩
  )
theorem rowsum (d : Nat) (a : Nat) : Statement (.rowsum d a) := of_slot rfl rfl (by
  intro hyp
  simp only [Instr.wf, Bool.and_eq_true, decide_eq_true_eq] at hyp
  generalize hv : 352321536 + d * 131072 + a * 2048 = v0
  have c0 : fieldOf v0 24 5 = 21 := by unfold fieldOf; omega
  have f0 : fieldOf v0 17 7 = d := by unfold fieldOf; omega
  have f1 : fieldOf v0 11 6 = a := by unfold fieldOf; omega
  exact ⟨(show 2 ^ 24 ≤ v0 ∧ v0 < 2 ^ 29 by omega), by simp only [candidate, candidateVb, c0, f0, f1]⟩
  )
theorem rowmax (d : Nat) (a : Nat) : Statement (.rowmax d a) := of_slot rfl rfl (by
  intro hyp
  simp only [Instr.wf, Bool.and_eq_true, decide_eq_true_eq] at hyp
  generalize hv : 369098752 + d * 131072 + a * 2048 = v0
  have c0 : fieldOf v0 24 5 = 22 := by unfold fieldOf; omega
  have f0 : fieldOf v0 17 7 = d := by unfold fieldOf; omega
  have f1 : fieldOf v0 11 6 = a := by unfold fieldOf; omega
  exact ⟨(show 2 ^ 24 ≤ v0 ∧ v0 < 2 ^ 29 by omega), by simp only [candidate, candidateVb, c0, f0, f1]⟩
  )
theorem rowstat (d : Nat) (a : Nat) (b : Nat) (fn : Nat) : Statement (.rowstat d a b fn) := of_slot rfl rfl (by
  intro hyp
  simp only [Instr.wf, Bool.and_eq_true, decide_eq_true_eq] at hyp
  generalize hv : 385875968 + d * 131072 + a * 2048 + b * 32 + fn = v0
  have c0 : fieldOf v0 24 5 = 23 := by unfold fieldOf; omega
  have f0 : fieldOf v0 17 7 = d := by unfold fieldOf; omega
  have f1 : fieldOf v0 11 6 = a := by unfold fieldOf; omega
  have f2 : fieldOf v0 5 6 = b := by unfold fieldOf; omega
  have f3 : fieldOf v0 0 5 = fn := by unfold fieldOf; omega
  exact ⟨(show 2 ^ 24 ≤ v0 ∧ v0 < 2 ^ 29 by omega), by simp only [candidate, candidateVb, c0, f0, f1, f2, f3]⟩
  )
theorem smxup (d : Nat) (a : Nat) (b : Nat) (fn : Nat) : Statement (.smxup d a b fn) := of_slot rfl rfl (by
  intro hyp
  simp only [Instr.wf, Bool.and_eq_true, decide_eq_true_eq] at hyp
  generalize hv : 402653184 + d * 131072 + a * 2048 + b * 32 + fn = v0
  have c0 : fieldOf v0 24 5 = 24 := by unfold fieldOf; omega
  have f0 : fieldOf v0 17 7 = d := by unfold fieldOf; omega
  have f1 : fieldOf v0 11 6 = a := by unfold fieldOf; omega
  have f2 : fieldOf v0 5 6 = b := by unfold fieldOf; omega
  have f3 : fieldOf v0 0 5 = fn := by unfold fieldOf; omega
  exact ⟨(show 2 ^ 24 ≤ v0 ∧ v0 < 2 ^ 29 by omega), by simp only [candidate, candidateVb, c0, f0, f1, f2, f3]⟩
  )
theorem smxfix (d : Nat) (a : Nat) (b : Nat) : Statement (.smxfix d a b) := of_slot rfl rfl (by
  intro hyp
  simp only [Instr.wf, Bool.and_eq_true, decide_eq_true_eq] at hyp
  generalize hv : 419430400 + d * 131072 + a * 2048 + b * 32 = v0
  have c0 : fieldOf v0 24 5 = 25 := by unfold fieldOf; omega
  have f0 : fieldOf v0 17 7 = d := by unfold fieldOf; omega
  have f1 : fieldOf v0 11 6 = a := by unfold fieldOf; omega
  have f2 : fieldOf v0 5 6 = b := by unfold fieldOf; omega
  exact ⟨(show 2 ^ 24 ≤ v0 ∧ v0 < 2 ^ 29 by omega), by simp only [candidate, candidateVb, c0, f0, f1, f2]⟩
  )
theorem vperm (d : Nat) (a : Nat) (b : Nat) : Statement (.vperm d a b) := of_slot rfl rfl (by
  intro hyp
  simp only [Instr.wf, Bool.and_eq_true, decide_eq_true_eq] at hyp
  generalize hv : 436207616 + d * 131072 + a * 2048 + b * 32 = v0
  have c0 : fieldOf v0 24 5 = 26 := by unfold fieldOf; omega
  have f0 : fieldOf v0 17 7 = d := by unfold fieldOf; omega
  have f1 : fieldOf v0 11 6 = a := by unfold fieldOf; omega
  have f2 : fieldOf v0 5 6 = b := by unfold fieldOf; omega
  exact ⟨(show 2 ^ 24 ≤ v0 ∧ v0 < 2 ^ 29 by omega), by simp only [candidate, candidateVb, c0, f0, f1, f2]⟩
  )
theorem vshuf (d : Nat) (a : Nat) (b : Nat) (fn : Nat) : Statement (.vshuf d a b fn) := of_slot rfl rfl (by
  intro hyp
  simp only [Instr.wf, Bool.and_eq_true, decide_eq_true_eq] at hyp
  generalize hv : 452984832 + d * 131072 + a * 2048 + b * 32 + fn = v0
  have c0 : fieldOf v0 24 5 = 27 := by unfold fieldOf; omega
  have f0 : fieldOf v0 17 7 = d := by unfold fieldOf; omega
  have f1 : fieldOf v0 11 6 = a := by unfold fieldOf; omega
  have f2 : fieldOf v0 5 6 = b := by unfold fieldOf; omega
  have f3 : fieldOf v0 0 5 = fn := by unfold fieldOf; omega
  exact ⟨(show 2 ^ 24 ≤ v0 ∧ v0 < 2 ^ 29 by omega), by simp only [candidate, candidateVb, c0, f0, f1, f2, f3]⟩
  )
theorem vpfx (d : Nat) (a : Nat) (fn : Nat) : Statement (.vpfx d a fn) := of_slot rfl rfl (by
  intro hyp
  simp only [Instr.wf, Bool.and_eq_true, decide_eq_true_eq] at hyp
  generalize hv : 469762048 + d * 131072 + a * 2048 + fn = v0
  have c0 : fieldOf v0 24 5 = 28 := by unfold fieldOf; omega
  have f0 : fieldOf v0 17 7 = d := by unfold fieldOf; omega
  have f1 : fieldOf v0 11 6 = a := by unfold fieldOf; omega
  have f2 : fieldOf v0 0 5 = fn := by unfold fieldOf; omega
  exact ⟨(show 2 ^ 24 ≤ v0 ∧ v0 < 2 ^ 29 by omega), by simp only [candidate, candidateVb, c0, f0, f1, f2]⟩
  )
theorem vred (d : Nat) (a : Nat) (fn : Nat) : Statement (.vred d a fn) := of_slot rfl rfl (by
  intro hyp
  simp only [Instr.wf, Bool.and_eq_true, decide_eq_true_eq] at hyp
  generalize hv : 486539264 + d * 131072 + a * 2048 + fn = v0
  have c0 : fieldOf v0 24 5 = 29 := by unfold fieldOf; omega
  have f0 : fieldOf v0 17 7 = d := by unfold fieldOf; omega
  have f1 : fieldOf v0 11 6 = a := by unfold fieldOf; omega
  have f2 : fieldOf v0 0 5 = fn := by unfold fieldOf; omega
  exact ⟨(show 2 ^ 24 ≤ v0 ∧ v0 < 2 ^ 29 by omega), by simp only [candidate, candidateVb, c0, f0, f1, f2]⟩
  )
theorem topkp (d : Nat) (a : Nat) (b : Nat) (fn : Nat) : Statement (.topkp d a b fn) := of_slot rfl rfl (by
  intro hyp
  simp only [Instr.wf, Bool.and_eq_true, decide_eq_true_eq] at hyp
  generalize hv : 503316480 + d * 131072 + a * 2048 + b * 32 + fn = v0
  have c0 : fieldOf v0 24 5 = 30 := by unfold fieldOf; omega
  have f0 : fieldOf v0 17 7 = d := by unfold fieldOf; omega
  have f1 : fieldOf v0 11 6 = a := by unfold fieldOf; omega
  have f2 : fieldOf v0 5 6 = b := by unfold fieldOf; omega
  have f3 : fieldOf v0 0 5 = fn := by unfold fieldOf; omega
  exact ⟨(show 2 ^ 24 ≤ v0 ∧ v0 < 2 ^ 29 by omega), by simp only [candidate, candidateVb, c0, f0, f1, f2, f3]⟩
  )
theorem vscl (d : Nat) (a : Nat) (b : Nat) : Statement (.vscl d a b) := of_slot rfl rfl (by
  intro hyp
  simp only [Instr.wf, Bool.and_eq_true, decide_eq_true_eq] at hyp
  generalize hv : 520093696 + d * 131072 + a * 2048 + b * 32 = v0
  have c0 : fieldOf v0 24 5 = 31 := by unfold fieldOf; omega
  have f0 : fieldOf v0 17 7 = d := by unfold fieldOf; omega
  have f1 : fieldOf v0 11 6 = a := by unfold fieldOf; omega
  have f2 : fieldOf v0 5 6 = b := by unfold fieldOf; omega
  exact ⟨(show 2 ^ 24 ≤ v0 ∧ v0 < 2 ^ 29 by omega), by simp only [candidate, candidateVb, c0, f0, f1, f2]⟩
  )
theorem push (a : Nat) (fmt : Nat) (row : Nat) : Statement (.push a fmt row) := of_slot rfl rfl (by
  intro hyp
  simp only [Instr.wf, Bool.and_eq_true, decide_eq_true_eq] at hyp
  generalize hv : 16777216 + a * 262144 + fmt * 65536 + row * 32 = v0
  have c0 : fieldOf v0 24 5 = 1 := by unfold fieldOf; omega
  have f0 : fieldOf v0 18 6 = a := by unfold fieldOf; omega
  have f1 : fieldOf v0 16 2 = fmt := by unfold fieldOf; omega
  have f2 : fieldOf v0 5 8 = row := by unfold fieldOf; omega
  exact ⟨(show 2 ^ 24 ≤ v0 ∧ v0 < 2 ^ 29 by omega), by simp only [candidate, candidateMat, c0, f0, f1, f2]⟩
  )
theorem shift (a : Nat) (fmt : Nat) (bank : Nat) (row : Nat) (h : Nat) : Statement (.shift a fmt bank row h) := of_slot rfl rfl (by
  intro hyp
  simp only [Instr.wf, Bool.and_eq_true, decide_eq_true_eq] at hyp
  generalize hv : 33554432 + a * 262144 + fmt * 65536 + bank * 8192 + row * 32 + h * 16 = v0
  have c0 : fieldOf v0 24 5 = 2 := by unfold fieldOf; omega
  have f0 : fieldOf v0 18 6 = a := by unfold fieldOf; omega
  have f1 : fieldOf v0 16 2 = fmt := by unfold fieldOf; omega
  have f2 : fieldOf v0 13 3 = bank := by unfold fieldOf; omega
  have f3 : fieldOf v0 5 8 = row := by unfold fieldOf; omega
  have f4 : fieldOf v0 4 1 = h := by unfold fieldOf; omega
  exact ⟨(show 2 ^ 24 ≤ v0 ∧ v0 < 2 ^ 29 by omega), by simp only [candidate, candidateMat, c0, f0, f1, f2, f3, f4]⟩
  )
theorem acc (a : Nat) (bank : Nat) (row : Nat) (h : Nat) : Statement (.acc a bank row h) := of_slot rfl rfl (by
  intro hyp
  simp only [Instr.wf, Bool.and_eq_true, decide_eq_true_eq] at hyp
  generalize hv : 50331648 + a * 262144 + bank * 8192 + row * 32 + h * 16 = v0
  have c0 : fieldOf v0 24 5 = 3 := by unfold fieldOf; omega
  have f0 : fieldOf v0 18 6 = a := by unfold fieldOf; omega
  have f1 : fieldOf v0 13 3 = bank := by unfold fieldOf; omega
  have f2 : fieldOf v0 5 8 = row := by unfold fieldOf; omega
  have f3 : fieldOf v0 4 1 = h := by unfold fieldOf; omega
  exact ⟨(show 2 ^ 24 ≤ v0 ∧ v0 < 2 ^ 29 by omega), by simp only [candidate, candidateMat, c0, f0, f1, f2, f3]⟩
  )
theorem drain (d : Nat) (bank : Nat) (row : Nat) (h : Nat) (clr : Nat) : Statement (.drain d bank row h clr) := of_slot rfl rfl (by
  intro hyp
  simp only [Instr.wf, Bool.and_eq_true, decide_eq_true_eq] at hyp
  generalize hv : 67108864 + d * 131072 + bank * 16384 + row * 64 + h * 32 + clr * 16 = v0
  have c0 : fieldOf v0 24 5 = 4 := by unfold fieldOf; omega
  have f0 : fieldOf v0 17 7 = d := by unfold fieldOf; omega
  have f1 : fieldOf v0 14 3 = bank := by unfold fieldOf; omega
  have f2 : fieldOf v0 6 8 = row := by unfold fieldOf; omega
  have f3 : fieldOf v0 5 1 = h := by unfold fieldOf; omega
  have f4 : fieldOf v0 4 1 = clr := by unfold fieldOf; omega
  exact ⟨(show 2 ^ 24 ≤ v0 ∧ v0 < 2 ^ 29 by omega), by simp only [candidate, candidateMat, c0, f0, f1, f2, f3, f4]⟩
  )
theorem mclr (bank : Nat) (row : Nat) (nr : Nat) : Statement (.mclr bank row nr) := of_slot rfl rfl (by
  intro hyp
  simp only [Instr.wf, Bool.and_eq_true, decide_eq_true_eq] at hyp
  generalize hv : 83886080 + bank * 2097152 + row * 8192 + nr * 32 = v0
  have c0 : fieldOf v0 24 5 = 5 := by unfold fieldOf; omega
  have f0 : fieldOf v0 21 3 = bank := by unfold fieldOf; omega
  have f1 : fieldOf v0 13 8 = row := by unfold fieldOf; omega
  have f2 : fieldOf v0 5 8 = nr := by unfold fieldOf; omega
  exact ⟨(show 2 ^ 24 ≤ v0 ∧ v0 < 2 ^ 29 by omega), by simp only [candidate, candidateMat, c0, f0, f1, f2]⟩
  )
theorem acrd (d : Nat) (bank : Nat) (row : Nat) (h : Nat) : Statement (.acrd d bank row h) := of_slot rfl rfl (by
  intro hyp
  simp only [Instr.wf, Bool.and_eq_true, decide_eq_true_eq] at hyp
  generalize hv : 117440512 + d * 131072 + bank * 16384 + row * 64 + h * 32 = v0
  have c0 : fieldOf v0 24 5 = 7 := by unfold fieldOf; omega
  have f0 : fieldOf v0 17 7 = d := by unfold fieldOf; omega
  have f1 : fieldOf v0 14 3 = bank := by unfold fieldOf; omega
  have f2 : fieldOf v0 6 8 = row := by unfold fieldOf; omega
  have f3 : fieldOf v0 5 1 = h := by unfold fieldOf; omega
  exact ⟨(show 2 ^ 24 ≤ v0 ∧ v0 < 2 ^ 29 by omega), by simp only [candidate, candidateMat, c0, f0, f1, f2, f3]⟩
  )
theorem acwr (a : Nat) (bank : Nat) (row : Nat) (h : Nat) : Statement (.acwr a bank row h) := of_slot rfl rfl (by
  intro hyp
  simp only [Instr.wf, Bool.and_eq_true, decide_eq_true_eq] at hyp
  generalize hv : 134217728 + a * 262144 + bank * 8192 + row * 32 + h * 16 = v0
  have c0 : fieldOf v0 24 5 = 8 := by unfold fieldOf; omega
  have f0 : fieldOf v0 18 6 = a := by unfold fieldOf; omega
  have f1 : fieldOf v0 13 3 = bank := by unfold fieldOf; omega
  have f2 : fieldOf v0 5 8 = row := by unfold fieldOf; omega
  have f3 : fieldOf v0 4 1 = h := by unfold fieldOf; omega
  exact ⟨(show 2 ^ 24 ≤ v0 ∧ v0 < 2 ^ 29 by omega), by simp only [candidate, candidateMat, c0, f0, f1, f2, f3]⟩
  )
theorem zop (xa : Nat) : Statement (.zop xa) := of_slot rfl rfl (by
  intro hyp
  simp only [Instr.wf, Bool.and_eq_true, decide_eq_true_eq] at hyp
  generalize hv : 16777216 + xa * 524288 = v0
  have c0 : fieldOf v0 24 5 = 1 := by unfold fieldOf; omega
  have f0 : fieldOf v0 19 5 = xa := by unfold fieldOf; omega
  exact ⟨(show 2 ^ 24 ≤ v0 ∧ v0 < 2 ^ 29 by omega), by simp only [candidate, candidateScn, c0, f0]⟩
  )
theorem sloc (sh : Nat) (sw : Nat) (rev : Nat) (a : Nat) : Statement (.sloc sh sw rev a) := of_slot rfl rfl (by
  intro hyp
  simp only [Instr.wf, Bool.and_eq_true, decide_eq_true_eq] at hyp
  generalize hv : 33554432 + sh * 4194304 + sw * 2097152 + rev * 1048576 + a * 16384 = v0
  have c0 : fieldOf v0 24 5 = 2 := by unfold fieldOf; omega
  have f0 : fieldOf v0 22 2 = sh := by unfold fieldOf; omega
  have f1 : fieldOf v0 21 1 = sw := by unfold fieldOf; omega
  have f2 : fieldOf v0 20 1 = rev := by unfold fieldOf; omega
  have f3 : fieldOf v0 14 6 = a := by unfold fieldOf; omega
  exact ⟨(show 2 ^ 24 ≤ v0 ∧ v0 < 2 ^ 29 by omega), by simp only [candidate, candidateScn, c0, f0, f1, f2, f3]⟩
  )
theorem sup (sh : Nat) (sw : Nat) (rev : Nat) (a : Nat) : Statement (.sup sh sw rev a) := of_slot rfl rfl (by
  intro hyp
  simp only [Instr.wf, Bool.and_eq_true, decide_eq_true_eq] at hyp
  generalize hv : 50331648 + sh * 4194304 + sw * 2097152 + rev * 1048576 + a * 16384 = v0
  have c0 : fieldOf v0 24 5 = 3 := by unfold fieldOf; omega
  have f0 : fieldOf v0 22 2 = sh := by unfold fieldOf; omega
  have f1 : fieldOf v0 21 1 = sw := by unfold fieldOf; omega
  have f2 : fieldOf v0 20 1 = rev := by unfold fieldOf; omega
  have f3 : fieldOf v0 14 6 = a := by unfold fieldOf; omega
  exact ⟨(show 2 ^ 24 ≤ v0 ∧ v0 < 2 ^ 29 by omega), by simp only [candidate, candidateScn, c0, f0, f1, f2, f3]⟩
  )
theorem sdn (sh : Nat) (sw : Nat) (rev : Nat) (a : Nat) : Statement (.sdn sh sw rev a) := of_slot rfl rfl (by
  intro hyp
  simp only [Instr.wf, Bool.and_eq_true, decide_eq_true_eq] at hyp
  generalize hv : 67108864 + sh * 4194304 + sw * 2097152 + rev * 1048576 + a * 16384 = v0
  have c0 : fieldOf v0 24 5 = 4 := by unfold fieldOf; omega
  have f0 : fieldOf v0 22 2 = sh := by unfold fieldOf; omega
  have f1 : fieldOf v0 21 1 = sw := by unfold fieldOf; omega
  have f2 : fieldOf v0 20 1 = rev := by unfold fieldOf; omega
  have f3 : fieldOf v0 14 6 = a := by unfold fieldOf; omega
  exact ⟨(show 2 ^ 24 ≤ v0 ∧ v0 < 2 ^ 29 by omega), by simp only [candidate, candidateScn, c0, f0, f1, f2, f3]⟩
  )
theorem scry (sh : Nat) (sw : Nat) (rev : Nat) (a : Nat) : Statement (.scry sh sw rev a) := of_slot rfl rfl (by
  intro hyp
  simp only [Instr.wf, Bool.and_eq_true, decide_eq_true_eq] at hyp
  generalize hv : 83886080 + sh * 4194304 + sw * 2097152 + rev * 1048576 + a * 16384 = v0
  have c0 : fieldOf v0 24 5 = 5 := by unfold fieldOf; omega
  have f0 : fieldOf v0 22 2 = sh := by unfold fieldOf; omega
  have f1 : fieldOf v0 21 1 = sw := by unfold fieldOf; omega
  have f2 : fieldOf v0 20 1 = rev := by unfold fieldOf; omega
  have f3 : fieldOf v0 14 6 = a := by unfold fieldOf; omega
  exact ⟨(show 2 ^ 24 ≤ v0 ∧ v0 < 2 ^ 29 by omega), by simp only [candidate, candidateScn, c0, f0, f1, f2, f3]⟩
  )
theorem sapl (sh : Nat) (sw : Nat) (rev : Nat) (a : Nat) : Statement (.sapl sh sw rev a) := of_slot rfl rfl (by
  intro hyp
  simp only [Instr.wf, Bool.and_eq_true, decide_eq_true_eq] at hyp
  generalize hv : 100663296 + sh * 4194304 + sw * 2097152 + rev * 1048576 + a * 16384 = v0
  have c0 : fieldOf v0 24 5 = 6 := by unfold fieldOf; omega
  have f0 : fieldOf v0 22 2 = sh := by unfold fieldOf; omega
  have f1 : fieldOf v0 21 1 = sw := by unfold fieldOf; omega
  have f2 : fieldOf v0 20 1 = rev := by unfold fieldOf; omega
  have f3 : fieldOf v0 14 6 = a := by unfold fieldOf; omega
  exact ⟨(show 2 ^ 24 ≤ v0 ∧ v0 < 2 ^ 29 by omega), by simp only [candidate, candidateScn, c0, f0, f1, f2, f3]⟩
  )
theorem zld (a : Nat) (z : Nat) (row : Nat) : Statement (.zld a z row) := of_slot rfl rfl (by
  intro hyp
  simp only [Instr.wf, Bool.and_eq_true, decide_eq_true_eq] at hyp
  generalize hv : 117440512 + a * 262144 + z * 4096 + row * 64 = v0
  have c0 : fieldOf v0 24 5 = 7 := by unfold fieldOf; omega
  have f0 : fieldOf v0 18 6 = a := by unfold fieldOf; omega
  have f1 : fieldOf v0 12 6 = z := by unfold fieldOf; omega
  have f2 : fieldOf v0 6 6 = row := by unfold fieldOf; omega
  exact ⟨(show 2 ^ 24 ≤ v0 ∧ v0 < 2 ^ 29 by omega), by simp only [candidate, candidateScn, c0, f0, f1, f2]⟩
  )
theorem zrd (d : Nat) (z : Nat) (row : Nat) : Statement (.zrd d z row) := of_slot rfl rfl (by
  intro hyp
  simp only [Instr.wf, Bool.and_eq_true, decide_eq_true_eq] at hyp
  generalize hv : 134217728 + d * 131072 + z * 2048 + row * 32 = v0
  have c0 : fieldOf v0 24 5 = 8 := by unfold fieldOf; omega
  have f0 : fieldOf v0 17 7 = d := by unfold fieldOf; omega
  have f1 : fieldOf v0 11 6 = z := by unfold fieldOf; omega
  have f2 : fieldOf v0 5 6 = row := by unfold fieldOf; omega
  exact ⟨(show 2 ^ 24 ≤ v0 ∧ v0 < 2 ^ 29 by omega), by simp only [candidate, candidateScn, c0, f0, f1, f2]⟩
  )
theorem zclr (zd : Nat) : Statement (.zclr zd) := of_slot rfl rfl (by
  intro hyp
  simp only [Instr.wf, Bool.and_eq_true, decide_eq_true_eq] at hyp
  generalize hv : 150994944 + zd * 262144 = v0
  have c0 : fieldOf v0 24 5 = 9 := by unfold fieldOf; omega
  have f0 : fieldOf v0 18 6 = zd := by unfold fieldOf; omega
  exact ⟨(show 2 ^ 24 ≤ v0 ∧ v0 < 2 ^ 29 by omega), by simp only [candidate, candidateScn, c0, f0]⟩
  )
theorem zmov (zd : Nat) (za : Nat) : Statement (.zmov zd za) := of_slot rfl rfl (by
  intro hyp
  simp only [Instr.wf, Bool.and_eq_true, decide_eq_true_eq] at hyp
  generalize hv : 167772160 + zd * 262144 + za * 4096 = v0
  have c0 : fieldOf v0 24 5 = 10 := by unfold fieldOf; omega
  have f0 : fieldOf v0 18 6 = zd := by unfold fieldOf; omega
  have f1 : fieldOf v0 12 6 = za := by unfold fieldOf; omega
  exact ⟨(show 2 ^ 24 ≤ v0 ∧ v0 < 2 ^ 29 by omega), by simp only [candidate, candidateScn, c0, f0, f1]⟩
  )
theorem step (z : Nat) (a : Nat) (b : Nat) : Statement (.step z a b) := of_slot rfl rfl (by
  intro hyp
  simp only [Instr.wf, Bool.and_eq_true, decide_eq_true_eq] at hyp
  generalize hv : 184549376 + z * 262144 + a * 4096 + b * 64 = v0
  have c0 : fieldOf v0 24 5 = 11 := by unfold fieldOf; omega
  have c1 : fieldOf v0 5 1 = 0 := by unfold fieldOf; omega
  have f0 : fieldOf v0 18 6 = z := by unfold fieldOf; omega
  have f1 : fieldOf v0 12 6 = a := by unfold fieldOf; omega
  have f2 : fieldOf v0 6 6 = b := by unfold fieldOf; omega
  exact ⟨(show 2 ^ 24 ≤ v0 ∧ v0 < 2 ^ 29 by omega), by simp only [candidate, candidateScn, c0, c1, f0, f1, f2]⟩
  )
theorem stepSpec (z : Nat) (a : Nat) (b : Nat) : Statement (.stepSpec z a b) := of_slot rfl rfl (by
  intro hyp
  simp only [Instr.wf, Bool.and_eq_true, decide_eq_true_eq] at hyp
  generalize hv : 184549376 + z * 262144 + a * 4096 + b * 64 + 32 = v0
  have c0 : fieldOf v0 24 5 = 11 := by unfold fieldOf; omega
  have c1 : fieldOf v0 5 1 = 1 := by unfold fieldOf; omega
  have f0 : fieldOf v0 18 6 = z := by unfold fieldOf; omega
  have f1 : fieldOf v0 12 6 = a := by unfold fieldOf; omega
  have f2 : fieldOf v0 6 6 = b := by unfold fieldOf; omega
  exact ⟨(show 2 ^ 24 ≤ v0 ∧ v0 < 2 ^ 29 by omega), by simp only [candidate, candidateScn, c0, c1, f0, f1, f2]⟩
  )
theorem sdot (d : Nat) (z : Nat) (c : Nat) : Statement (.sdot d z c) := of_slot rfl rfl (by
  intro hyp
  simp only [Instr.wf, Bool.and_eq_true, decide_eq_true_eq] at hyp
  generalize hv : 201326592 + d * 131072 + z * 2048 + c * 32 = v0
  have c0 : fieldOf v0 24 5 = 12 := by unfold fieldOf; omega
  have f0 : fieldOf v0 17 7 = d := by unfold fieldOf; omega
  have f1 : fieldOf v0 11 6 = z := by unfold fieldOf; omega
  have f2 : fieldOf v0 5 6 = c := by unfold fieldOf; omega
  exact ⟨(show 2 ^ 24 ≤ v0 ∧ v0 < 2 ^ 29 by omega), by simp only [candidate, candidateScn, c0, f0, f1, f2]⟩
  )
theorem copy (node : Nat) (sh : Nat) (sw : Nat) (xa : Nat) : Statement (.copy node sh sw xa) := of_slot rfl rfl (by
  intro hyp
  simp only [Instr.wf, Bool.and_eq_true, decide_eq_true_eq] at hyp
  generalize hv : 16777216 + node * 65536 + sh * 16384 + sw * 8192 + xa * 256 = v0
  have c0 : fieldOf v0 24 5 = 1 := by unfold fieldOf; omega
  have f0 : fieldOf v0 16 8 = node := by unfold fieldOf; omega
  have f1 : fieldOf v0 14 2 = sh := by unfold fieldOf; omega
  have f2 : fieldOf v0 13 1 = sw := by unfold fieldOf; omega
  have f3 : fieldOf v0 8 5 = xa := by unfold fieldOf; omega
  exact ⟨(show 2 ^ 24 ≤ v0 ∧ v0 < 2 ^ 29 by omega), by simp only [candidate, candidateXfr, c0, f0, f1, f2, f3]⟩
  )
theorem gath (node : Nat) (sh : Nat) (sw : Nat) (xa : Nat) : Statement (.gath node sh sw xa) := of_slot rfl rfl (by
  intro hyp
  simp only [Instr.wf, Bool.and_eq_true, decide_eq_true_eq] at hyp
  generalize hv : 33554432 + node * 65536 + sh * 16384 + sw * 8192 + xa * 256 = v0
  have c0 : fieldOf v0 24 5 = 2 := by unfold fieldOf; omega
  have f0 : fieldOf v0 16 8 = node := by unfold fieldOf; omega
  have f1 : fieldOf v0 14 2 = sh := by unfold fieldOf; omega
  have f2 : fieldOf v0 13 1 = sw := by unfold fieldOf; omega
  have f3 : fieldOf v0 8 5 = xa := by unfold fieldOf; omega
  exact ⟨(show 2 ^ 24 ≤ v0 ∧ v0 < 2 ^ 29 by omega), by simp only [candidate, candidateXfr, c0, f0, f1, f2, f3]⟩
  )
theorem scat (node : Nat) (sh : Nat) (sw : Nat) (xa : Nat) : Statement (.scat node sh sw xa) := of_slot rfl rfl (by
  intro hyp
  simp only [Instr.wf, Bool.and_eq_true, decide_eq_true_eq] at hyp
  generalize hv : 50331648 + node * 65536 + sh * 16384 + sw * 8192 + xa * 256 = v0
  have c0 : fieldOf v0 24 5 = 3 := by unfold fieldOf; omega
  have f0 : fieldOf v0 16 8 = node := by unfold fieldOf; omega
  have f1 : fieldOf v0 14 2 = sh := by unfold fieldOf; omega
  have f2 : fieldOf v0 13 1 = sw := by unfold fieldOf; omega
  have f3 : fieldOf v0 8 5 = xa := by unfold fieldOf; omega
  exact ⟨(show 2 ^ 24 ≤ v0 ∧ v0 < 2 ^ 29 by omega), by simp only [candidate, candidateXfr, c0, f0, f1, f2, f3]⟩
  )
theorem scacc (node : Nat) (sh : Nat) (sw : Nat) (xa : Nat) (fn : Nat) : Statement (.scacc node sh sw xa fn) := of_slot rfl rfl (by
  intro hyp
  simp only [Instr.wf, Bool.and_eq_true, decide_eq_true_eq] at hyp
  generalize hv : 67108864 + node * 65536 + sh * 16384 + sw * 8192 + xa * 256 + fn = v0
  have c0 : fieldOf v0 24 5 = 4 := by unfold fieldOf; omega
  have f0 : fieldOf v0 16 8 = node := by unfold fieldOf; omega
  have f1 : fieldOf v0 14 2 = sh := by unfold fieldOf; omega
  have f2 : fieldOf v0 13 1 = sw := by unfold fieldOf; omega
  have f3 : fieldOf v0 8 5 = xa := by unfold fieldOf; omega
  have f4 : fieldOf v0 0 8 = fn := by unfold fieldOf; omega
  exact ⟨(show 2 ^ 24 ≤ v0 ∧ v0 < 2 ^ 29 by omega), by simp only [candidate, candidateXfr, c0, f0, f1, f2, f3, f4]⟩
  )
theorem amo (node : Nat) (xa : Nat) (fn : Nat) : Statement (.amo node xa fn) := of_slot rfl rfl (by
  intro hyp
  simp only [Instr.wf, Bool.and_eq_true, decide_eq_true_eq] at hyp
  generalize hv : 83886080 + node * 65536 + xa * 256 + fn = v0
  have c0 : fieldOf v0 24 5 = 5 := by unfold fieldOf; omega
  have f0 : fieldOf v0 16 8 = node := by unfold fieldOf; omega
  have f1 : fieldOf v0 8 5 = xa := by unfold fieldOf; omega
  have f2 : fieldOf v0 0 8 = fn := by unfold fieldOf; omega
  exact ⟨(show 2 ^ 24 ≤ v0 ∧ v0 < 2 ^ 29 by omega), by simp only [candidate, candidateXfr, c0, f0, f1, f2]⟩
  )
theorem pref (node : Nat) (xa : Nat) (fn : Nat) : Statement (.pref node xa fn) := of_slot rfl rfl (by
  intro hyp
  simp only [Instr.wf, Bool.and_eq_true, decide_eq_true_eq] at hyp
  generalize hv : 100663296 + node * 65536 + xa * 256 + fn = v0
  have c0 : fieldOf v0 24 5 = 6 := by unfold fieldOf; omega
  have f0 : fieldOf v0 16 8 = node := by unfold fieldOf; omega
  have f1 : fieldOf v0 8 5 = xa := by unfold fieldOf; omega
  have f2 : fieldOf v0 0 8 = fn := by unfold fieldOf; omega
  exact ⟨(show 2 ^ 24 ≤ v0 ∧ v0 < 2 ^ 29 by omega), by simp only [candidate, candidateXfr, c0, f0, f1, f2]⟩
  )
theorem rgwb (node : Nat) (xa : Nat) : Statement (.rgwb node xa) := of_slot rfl rfl (by
  intro hyp
  simp only [Instr.wf, Bool.and_eq_true, decide_eq_true_eq] at hyp
  generalize hv : 117440512 + node * 65536 + xa * 256 = v0
  have c0 : fieldOf v0 24 5 = 7 := by unfold fieldOf; omega
  have f0 : fieldOf v0 16 8 = node := by unfold fieldOf; omega
  have f1 : fieldOf v0 8 5 = xa := by unfold fieldOf; omega
  exact ⟨(show 2 ^ 24 ≤ v0 ∧ v0 < 2 ^ 29 by omega), by simp only [candidate, candidateXfr, c0, f0, f1]⟩
  )
theorem rginv (node : Nat) (xa : Nat) : Statement (.rginv node xa) := of_slot rfl rfl (by
  intro hyp
  simp only [Instr.wf, Bool.and_eq_true, decide_eq_true_eq] at hyp
  generalize hv : 134217728 + node * 65536 + xa * 256 = v0
  have c0 : fieldOf v0 24 5 = 8 := by unfold fieldOf; omega
  have f0 : fieldOf v0 16 8 = node := by unfold fieldOf; omega
  have f1 : fieldOf v0 8 5 = xa := by unfold fieldOf; omega
  exact ⟨(show 2 ^ 24 ≤ v0 ∧ v0 < 2 ^ 29 by omega), by simp only [candidate, candidateXfr, c0, f0, f1]⟩
  )
theorem xwt (node : Nat) : Statement (.xwt node) := of_slot rfl rfl (by
  intro hyp
  simp only [Instr.wf, Bool.and_eq_true, decide_eq_true_eq] at hyp
  generalize hv : 150994944 + node * 65536 = v0
  have c0 : fieldOf v0 24 5 = 9 := by unfold fieldOf; omega
  have f0 : fieldOf v0 16 8 = node := by unfold fieldOf; omega
  exact ⟨(show 2 ^ 24 ≤ v0 ∧ v0 < 2 ^ 29 by omega), by simp only [candidate, candidateXfr, c0, f0]⟩
  )
theorem btx (a : Nat) (tile : Nat) : Statement (.btx a tile) := of_slot rfl rfl (by
  intro hyp
  simp only [Instr.wf, Bool.and_eq_true, decide_eq_true_eq] at hyp
  generalize hv : 167772160 + a * 262144 + tile * 4096 = v0
  have c0 : fieldOf v0 24 5 = 10 := by unfold fieldOf; omega
  have f0 : fieldOf v0 18 6 = a := by unfold fieldOf; omega
  have f1 : fieldOf v0 12 6 = tile := by unfold fieldOf; omega
  exact ⟨(show 2 ^ 24 ≤ v0 ∧ v0 < 2 ^ 29 by omega), by simp only [candidate, candidateXfr, c0, f0, f1]⟩
  )
theorem bsel (d : Nat) (tile : Nat) : Statement (.bsel d tile) := of_slot rfl rfl (by
  intro hyp
  simp only [Instr.wf, Bool.and_eq_true, decide_eq_true_eq] at hyp
  generalize hv : 184549376 + d * 131072 + tile * 2048 = v0
  have c0 : fieldOf v0 24 5 = 11 := by unfold fieldOf; omega
  have f0 : fieldOf v0 17 7 = d := by unfold fieldOf; omega
  have f1 : fieldOf v0 11 6 = tile := by unfold fieldOf; omega
  exact ⟨(show 2 ^ 24 ≤ v0 ∧ v0 < 2 ^ 29 by omega), by simp only [candidate, candidateXfr, c0, f0, f1]⟩
  )
theorem zspl (node : Nat) (xa : Nat) : Statement (.zspl node xa) := of_slot rfl rfl (by
  intro hyp
  simp only [Instr.wf, Bool.and_eq_true, decide_eq_true_eq] at hyp
  generalize hv : 201326592 + node * 65536 + xa * 256 = v0
  have c0 : fieldOf v0 24 5 = 12 := by unfold fieldOf; omega
  have c1 : fieldOf v0 0 8 = 0 := by unfold fieldOf; omega
  have f0 : fieldOf v0 16 8 = node := by unfold fieldOf; omega
  have f1 : fieldOf v0 8 5 = xa := by unfold fieldOf; omega
  exact ⟨(show 2 ^ 24 ≤ v0 ∧ v0 < 2 ^ 29 by omega), by simp only [candidate, candidateXfr, c0, c1, f0, f1]⟩
  )
theorem zsplCopy (node : Nat) (xa : Nat) : Statement (.zsplCopy node xa) := of_slot rfl rfl (by
  intro hyp
  simp only [Instr.wf, Bool.and_eq_true, decide_eq_true_eq] at hyp
  generalize hv : 201326592 + node * 65536 + xa * 256 + 1 = v0
  have c0 : fieldOf v0 24 5 = 12 := by unfold fieldOf; omega
  have c1 : fieldOf v0 0 8 = 1 := by unfold fieldOf; omega
  have f0 : fieldOf v0 16 8 = node := by unfold fieldOf; omega
  have f1 : fieldOf v0 8 5 = xa := by unfold fieldOf; omega
  exact ⟨(show 2 ^ 24 ≤ v0 ∧ v0 < 2 ^ 29 by omega), by simp only [candidate, candidateXfr, c0, c1, f0, f1]⟩
  )
theorem zfil (node : Nat) (xa : Nat) : Statement (.zfil node xa) := of_slot rfl rfl (by
  intro hyp
  simp only [Instr.wf, Bool.and_eq_true, decide_eq_true_eq] at hyp
  generalize hv : 218103808 + node * 65536 + xa * 256 = v0
  have c0 : fieldOf v0 24 5 = 13 := by unfold fieldOf; omega
  have f0 : fieldOf v0 16 8 = node := by unfold fieldOf; omega
  have f1 : fieldOf v0 8 5 = xa := by unfold fieldOf; omega
  exact ⟨(show 2 ^ 24 ≤ v0 ∧ v0 < 2 ^ 29 by omega), by simp only [candidate, candidateXfr, c0, f0, f1]⟩
  )
theorem rld (d : Nat) (xa : Nat) : Statement (.rld d xa) := of_slot rfl rfl (by
  intro hyp
  simp only [Instr.wf, Bool.and_eq_true, decide_eq_true_eq] at hyp
  generalize hv : 234881024 + d * 131072 + xa * 4096 = v0
  have c0 : fieldOf v0 24 5 = 14 := by unfold fieldOf; omega
  have f0 : fieldOf v0 17 7 = d := by unfold fieldOf; omega
  have f1 : fieldOf v0 12 5 = xa := by unfold fieldOf; omega
  exact ⟨(show 2 ^ 24 ≤ v0 ∧ v0 < 2 ^ 29 by omega), by simp only [candidate, candidateXfr, c0, f0, f1]⟩
  )
theorem rst (a : Nat) (xa : Nat) : Statement (.rst a xa) := of_slot rfl rfl (by
  intro hyp
  simp only [Instr.wf, Bool.and_eq_true, decide_eq_true_eq] at hyp
  generalize hv : 251658240 + a * 262144 + xa * 8192 = v0
  have c0 : fieldOf v0 24 5 = 15 := by unfold fieldOf; omega
  have f0 : fieldOf v0 18 6 = a := by unfold fieldOf; omega
  have f1 : fieldOf v0 13 5 = xa := by unfold fieldOf; omega
  exact ⟨(show 2 ^ 24 ≤ v0 ∧ v0 < 2 ^ 29 by omega), by simp only [candidate, candidateXfr, c0, f0, f1]⟩
  )
theorem coll (node : Nat) (sh : Nat) (sw : Nat) (xa : Nat) (fn : Nat) : Statement (.coll node sh sw xa fn) := of_slot rfl rfl (by
  intro hyp
  simp only [Instr.wf, Bool.and_eq_true, decide_eq_true_eq] at hyp
  generalize hv : 268435456 + node * 65536 + sh * 16384 + sw * 8192 + xa * 256 + fn = v0
  have c0 : fieldOf v0 24 5 = 16 := by unfold fieldOf; omega
  have f0 : fieldOf v0 16 8 = node := by unfold fieldOf; omega
  have f1 : fieldOf v0 14 2 = sh := by unfold fieldOf; omega
  have f2 : fieldOf v0 13 1 = sw := by unfold fieldOf; omega
  have f3 : fieldOf v0 8 5 = xa := by unfold fieldOf; omega
  have f4 : fieldOf v0 0 8 = fn := by unfold fieldOf; omega
  exact ⟨(show 2 ^ 24 ≤ v0 ∧ v0 < 2 ^ 29 by omega), by simp only [candidate, candidateXfr, c0, f0, f1, f2, f3, f4]⟩
  )
theorem smpq (node : Nat) (xa : Nat) : Statement (.smpq node xa) := of_slot rfl rfl (by
  intro hyp
  simp only [Instr.wf, Bool.and_eq_true, decide_eq_true_eq] at hyp
  generalize hv : 285212672 + node * 65536 + xa * 256 = v0
  have c0 : fieldOf v0 24 5 = 17 := by unfold fieldOf; omega
  have f0 : fieldOf v0 16 8 = node := by unfold fieldOf; omega
  have f1 : fieldOf v0 8 5 = xa := by unfold fieldOf; omega
  exact ⟨(show 2 ^ 24 ≤ v0 ∧ v0 < 2 ^ 29 by omega), by simp only [candidate, candidateXfr, c0, f0, f1]⟩
  )
theorem flkq (node : Nat) (xa : Nat) (fn : Nat) : Statement (.flkq node xa fn) := of_slot rfl rfl (by
  intro hyp
  simp only [Instr.wf, Bool.and_eq_true, decide_eq_true_eq] at hyp
  generalize hv : 301989888 + node * 65536 + xa * 256 + fn = v0
  have c0 : fieldOf v0 24 5 = 18 := by unfold fieldOf; omega
  have f0 : fieldOf v0 16 8 = node := by unfold fieldOf; omega
  have f1 : fieldOf v0 8 5 = xa := by unfold fieldOf; omega
  have f2 : fieldOf v0 0 8 = fn := by unfold fieldOf; omega
  exact ⟨(show 2 ^ 24 ≤ v0 ∧ v0 < 2 ^ 29 by omega), by simp only [candidate, candidateXfr, c0, f0, f1, f2]⟩
  )
theorem wpset (node : Nat) (xa : Nat) : Statement (.wpset node xa) := of_slot rfl rfl (by
  intro hyp
  simp only [Instr.wf, Bool.and_eq_true, decide_eq_true_eq] at hyp
  generalize hv : 318767104 + node * 65536 + xa * 256 = v0
  have c0 : fieldOf v0 24 5 = 19 := by unfold fieldOf; omega
  have f0 : fieldOf v0 16 8 = node := by unfold fieldOf; omega
  have f1 : fieldOf v0 8 5 = xa := by unfold fieldOf; omega
  exact ⟨(show 2 ^ 24 ≤ v0 ∧ v0 < 2 ^ 29 by omega), by simp only [candidate, candidateXfr, c0, f0, f1]⟩
  )
theorem wpclr (node : Nat) (xa : Nat) : Statement (.wpclr node xa) := of_slot rfl rfl (by
  intro hyp
  simp only [Instr.wf, Bool.and_eq_true, decide_eq_true_eq] at hyp
  generalize hv : 335544320 + node * 65536 + xa * 256 = v0
  have c0 : fieldOf v0 24 5 = 20 := by unfold fieldOf; omega
  have f0 : fieldOf v0 16 8 = node := by unfold fieldOf; omega
  have f1 : fieldOf v0 8 5 = xa := by unfold fieldOf; omega
  exact ⟨(show 2 ^ 24 ≤ v0 ∧ v0 < 2 ^ 29 by omega), by simp only [candidate, candidateXfr, c0, f0, f1]⟩
  )
theorem mskq (node : Nat) (xa : Nat) : Statement (.mskq node xa) := of_slot rfl rfl (by
  intro hyp
  simp only [Instr.wf, Bool.and_eq_true, decide_eq_true_eq] at hyp
  generalize hv : 352321536 + node * 65536 + xa * 256 = v0
  have c0 : fieldOf v0 24 5 = 21 := by unfold fieldOf; omega
  have f0 : fieldOf v0 16 8 = node := by unfold fieldOf; omega
  have f1 : fieldOf v0 8 5 = xa := by unfold fieldOf; omega
  exact ⟨(show 2 ^ 24 ≤ v0 ∧ v0 < 2 ^ 29 by omega), by simp only [candidate, candidateXfr, c0, f0, f1]⟩
  )
theorem tree (al : Nat) (t1 : Nat) (t2 : Nat) (t3 : Nat) (t4 : Nat) : Statement (.tree al t1 t2 t3 t4) := of_slot rfl rfl (by
  intro hyp
  simp only [Instr.wf, Bool.and_eq_true, decide_eq_true_eq] at hyp
  generalize hv : al * 1073741824 + t1 * 2097152 + t2 * 16384 + t3 * 128 + t4 = v0
  refine ⟨(show v0 < 2 ^ 32 by omega), ?_⟩
  have c : fieldOf v0 31 1 = 0 := by unfold fieldOf; omega
  simp only [candidate, candidateBrt, c]
  have f0 : fieldOf v0 30 1 = al := by unfold fieldOf; omega
  have f1 : fieldOf v0 21 7 = t1 := by unfold fieldOf; omega
  have f2 : fieldOf v0 14 7 = t2 := by unfold fieldOf; omega
  have f3 : fieldOf v0 7 7 = t3 := by unfold fieldOf; omega
  have f4 : fieldOf v0 0 7 = t4 := by unfold fieldOf; omega
  simp [f0, f1, f2, f3, f4])
theorem seq (align : Nat) (lf : Nat) (lvl : Nat) (beg : Nat) (fin : Nat) : Statement (.seq align lf lvl beg fin) := of_slot rfl rfl (by
  intro hyp
  simp only [Instr.wf, Bool.and_eq_true, decide_eq_true_eq] at hyp
  generalize hv : 2147483648 + align * 8388608 + lf * 2097152 + lvl * 262144 + beg * 131072 + fin * 65536 = v0
  refine ⟨(show v0 < 2 ^ 32 by omega), ?_⟩
  have c : fieldOf v0 31 1 = 1 := by unfold fieldOf; omega
  simp only [candidate, candidateBrt, c]
  have f0 : fieldOf v0 23 8 = align := by unfold fieldOf; omega
  have f1 : fieldOf v0 21 2 = lf := by unfold fieldOf; omega
  have f2 : fieldOf v0 18 3 = lvl := by unfold fieldOf; omega
  have f3 : fieldOf v0 17 1 = beg := by unfold fieldOf; omega
  have f4 : fieldOf v0 16 1 = fin := by unfold fieldOf; omega
  simp [f0, f1, f2, f3, f4])
theorem resultLanding (core : Nat) : Statement (.resultLanding core) := of_event rfl rfl
theorem interlockedArrival (core : Nat) : Statement (.interlockedArrival core) := of_event rfl rfl
theorem haltDrainDone (core : Nat) : Statement (.haltDrainDone core) := of_event rfl rfl
theorem endDrainDone (core : Nat) : Statement (.endDrainDone core) := of_event rfl rfl
theorem planeSwap (core : Nat) : Statement (.planeSwap core) := of_event rfl rfl
theorem planeLoadDone (core : Nat) : Statement (.planeLoadDone core) := of_event rfl rfl
theorem trapEntry (core : Nat) (cause : Nat) (reason : Nat) (arg : Nat) (dmask : Nat) (slot : Nat) : Statement (.trapEntry core cause reason arg dmask slot) := of_event rfl rfl
theorem waitmWake (unit : Nat) (line : Nat) : Statement (.waitmWake unit line) := of_event rfl rfl
theorem waitmTimeout (unit : Nat) : Statement (.waitmTimeout unit) := of_event rfl rfl
theorem barrierCount (unit : Nat) (node : Nat) (bytes : Nat) : Statement (.barrierCount unit node bytes) := of_event rfl rfl
theorem barrierFlip (kern : Nat) (scope : Nat) (inst : Nat) (bid : Nat) : Statement (.barrierFlip kern scope inst bid) := of_event rfl rfl
theorem barrierCompletionSeen (kern : Nat) (scope : Nat) (inst : Nat) (bid : Nat) : Statement (.barrierCompletionSeen kern scope inst bid) := of_event rfl rfl
theorem suspensionDrainDone (core : Nat) : Statement (.suspensionDrainDone core) := of_event rfl rfl
theorem pickUp (core : Nat) : Statement (.pickUp core) := of_event rfl rfl
theorem regroup (kern : Nat) : Statement (.regroup kern) := of_event rfl rfl
theorem groupRetire (kern : Nat) : Statement (.groupRetire kern) := of_event rfl rfl
theorem iterationBoundary (kern : Nat) : Statement (.iterationBoundary kern) := of_event rfl rfl
theorem loopWake (kern : Nat) : Statement (.loopWake kern) := of_event rfl rfl
theorem scanRendezvous (core : Nat) : Statement (.scanRendezvous core) := of_event rfl rfl
theorem scryCarryArrival (kern : Nat) (inst : Nat) : Statement (.scryCarryArrival kern inst) := of_event rfl rfl
theorem nodeComplete (unit : Nat) (node : Nat) : Statement (.nodeComplete unit node) := of_event rfl rfl
theorem samplingJob (colt : Nat) : Statement (.samplingJob colt) := of_event rfl rfl
theorem remoteRequestServe (src : Nat) (kind : Nat) (tag : Nat) (va : Nat) (size : Nat) (cid : Nat) (data : Nat) : Statement (.remoteRequestServe src kind tag va size cid data) := of_event rfl rfl
theorem remoteReply (req : Nat) (okay : Nat) (data : Nat) : Statement (.remoteReply req okay data) := of_event rfl rfl
theorem remoteTimeout (req : Nat) : Statement (.remoteTimeout req) := of_event rfl rfl
theorem collMessage (src : Nat) (tag : Nat) (fn : Nat) (fmt : Nat) (cnt : Nat) (dst : Nat) (cid : Nat) (size : Nat) (data : Nat) : Statement (.collMessage src tag fn fmt cnt dst cid size data) := of_event rfl rfl
theorem carryFlit (kern : Nat) (inst : Nat) (level : Nat) (pos : Nat) (absent : Nat) (data : Nat) : Statement (.carryFlit kern inst level pos absent data) := of_event rfl rfl
theorem podArrive (kern : Nat) (bid : Nat) (phase : Nat) (rank : Nat) : Statement (.podArrive kern bid phase rank) := of_event rfl rfl
theorem podComplete (kern : Nat) (bid : Nat) (phase : Nat) : Statement (.podComplete kern bid phase) := of_event rfl rfl
theorem flitReplay (port : Nat) : Statement (.flitReplay port) := of_event rfl rfl
theorem portUp (port : Nat) : Statement (.portUp port) := of_event rfl rfl
theorem doorbell (val : Nat) : Statement (.doorbell val) := of_event rfl rfl
theorem gangMap (gang : Nat) : Statement (.gangMap gang) := of_event rfl rfl
theorem priorityAging (gang : Nat) : Statement (.priorityAging gang) := of_event rfl rfl
theorem quantumExpiry (gang : Nat) : Statement (.quantumExpiry gang) := of_event rfl rfl
theorem groupRelease (kern : Nat) : Statement (.groupRelease kern) := of_event rfl rfl
theorem graphNodeComplete (pkt : Nat) : Statement (.graphNodeComplete pkt) := of_event rfl rfl
theorem unmapDrainDone (cid : Nat) : Statement (.unmapDrainDone cid) := of_event rfl rfl
theorem waitSatisfied (pkt : Nat) : Statement (.waitSatisfied pkt) := of_event rfl rfl
theorem waitTimeout (pkt : Nat) : Statement (.waitTimeout pkt) := of_event rfl rfl
theorem packetComplete (pkt : Nat) : Statement (.packetComplete pkt) := of_event rfl rfl
theorem preemptStop (cid : Nat) : Statement (.preemptStop cid) := of_event rfl rfl
theorem saveComplete (cid : Nat) : Statement (.saveComplete cid) := of_event rfl rfl
theorem contextRestore (cid : Nat) : Statement (.contextRestore cid) := of_event rfl rfl
theorem restoreResume (cid : Nat) : Statement (.restoreResume cid) := of_event rfl rfl
theorem snapshotReplay (core : Nat) : Statement (.snapshotReplay core) := of_event rfl rfl
theorem checkpoint (cid : Nat) : Statement (.checkpoint cid) := of_event rfl rfl
theorem checkpointDone (cid : Nat) : Statement (.checkpointDone cid) := of_event rfl rfl
theorem muleTransferComplete (unit : Nat) (node : Nat) : Statement (.muleTransferComplete unit node) := of_event rfl rfl
theorem pageWalk (unit : Nat) (va : Nat) (kind : Nat) : Statement (.pageWalk unit va kind) := of_event rfl rfl
theorem leaseExpiry (unit : Nat) (va : Nat) : Statement (.leaseExpiry unit va) := of_event rfl rfl
theorem hwFaultService (core : Nat) : Statement (.hwFaultService core) := of_event rfl rfl
theorem debugStep (core : Nat) (all : Nat) : Statement (.debugStep core all) := of_event rfl rfl
theorem debugWithdraw (core : Nat) (all : Nat) : Statement (.debugWithdraw core all) := of_event rfl rfl
theorem ddataWrite (val : Nat) : Statement (.ddataWrite val) := of_event rfl rfl
theorem dctxWrite (val : Nat) : Statement (.dctxWrite val) := of_event rfl rfl
theorem dbgctlDreq (val : Nat) : Statement (.dbgctlDreq val) := of_event rfl rfl
theorem attestationRequest (val : Nat) : Statement (.attestationRequest val) := of_event rfl rfl
theorem pwrctlFreq (val : Nat) : Statement (.pwrctlFreq val) := of_event rfl rfl
theorem pwrctlColtgt (val : Nat) : Statement (.pwrctlColtgt val) := of_event rfl rfl
theorem columnDarkenIdle (mask : Nat) : Statement (.columnDarkenIdle mask) := of_event rfl rfl
theorem columnRelight (pa : Nat) : Statement (.columnRelight pa) := of_event rfl rfl
theorem mgmtRegisterWrite (off : Nat) (val : Nat) : Statement (.mgmtRegisterWrite off val) := of_event rfl rfl
theorem acqRelFenceComplete (core : Nat) : Statement (.acqRelFenceComplete core) := of_event rfl rfl
theorem qAdd (d : Nat) (a : Nat) (b : Nat) : Statement (.qAdd d a b) := of_qp rfl rfl (by
  intro hyp
  simp only [Instr.wf, Bool.and_eq_true, decide_eq_true_eq] at hyp
  generalize hv : 67108864 + d * 4194304 + a * 262144 + b * 16384 = v0
  have c0 : fieldOf v0 26 6 = 1 := by unfold fieldOf; omega
  have f0 : fieldOf v0 22 4 = d := by unfold fieldOf; omega
  have f1 : fieldOf v0 18 4 = a := by unfold fieldOf; omega
  have f2 : fieldOf v0 14 4 = b := by unfold fieldOf; omega
  exact ⟨by omega, by simp only [candidateQp, c0, f0, f1, f2]⟩
  )
theorem qSub (d : Nat) (a : Nat) (b : Nat) : Statement (.qSub d a b) := of_qp rfl rfl (by
  intro hyp
  simp only [Instr.wf, Bool.and_eq_true, decide_eq_true_eq] at hyp
  generalize hv : 134217728 + d * 4194304 + a * 262144 + b * 16384 = v0
  have c0 : fieldOf v0 26 6 = 2 := by unfold fieldOf; omega
  have f0 : fieldOf v0 22 4 = d := by unfold fieldOf; omega
  have f1 : fieldOf v0 18 4 = a := by unfold fieldOf; omega
  have f2 : fieldOf v0 14 4 = b := by unfold fieldOf; omega
  exact ⟨by omega, by simp only [candidateQp, c0, f0, f1, f2]⟩
  )
theorem qAnd (d : Nat) (a : Nat) (b : Nat) : Statement (.qAnd d a b) := of_qp rfl rfl (by
  intro hyp
  simp only [Instr.wf, Bool.and_eq_true, decide_eq_true_eq] at hyp
  generalize hv : 201326592 + d * 4194304 + a * 262144 + b * 16384 = v0
  have c0 : fieldOf v0 26 6 = 3 := by unfold fieldOf; omega
  have f0 : fieldOf v0 22 4 = d := by unfold fieldOf; omega
  have f1 : fieldOf v0 18 4 = a := by unfold fieldOf; omega
  have f2 : fieldOf v0 14 4 = b := by unfold fieldOf; omega
  exact ⟨by omega, by simp only [candidateQp, c0, f0, f1, f2]⟩
  )
theorem qOr (d : Nat) (a : Nat) (b : Nat) : Statement (.qOr d a b) := of_qp rfl rfl (by
  intro hyp
  simp only [Instr.wf, Bool.and_eq_true, decide_eq_true_eq] at hyp
  generalize hv : 268435456 + d * 4194304 + a * 262144 + b * 16384 = v0
  have c0 : fieldOf v0 26 6 = 4 := by unfold fieldOf; omega
  have f0 : fieldOf v0 22 4 = d := by unfold fieldOf; omega
  have f1 : fieldOf v0 18 4 = a := by unfold fieldOf; omega
  have f2 : fieldOf v0 14 4 = b := by unfold fieldOf; omega
  exact ⟨by omega, by simp only [candidateQp, c0, f0, f1, f2]⟩
  )
theorem qXor (d : Nat) (a : Nat) (b : Nat) : Statement (.qXor d a b) := of_qp rfl rfl (by
  intro hyp
  simp only [Instr.wf, Bool.and_eq_true, decide_eq_true_eq] at hyp
  generalize hv : 335544320 + d * 4194304 + a * 262144 + b * 16384 = v0
  have c0 : fieldOf v0 26 6 = 5 := by unfold fieldOf; omega
  have f0 : fieldOf v0 22 4 = d := by unfold fieldOf; omega
  have f1 : fieldOf v0 18 4 = a := by unfold fieldOf; omega
  have f2 : fieldOf v0 14 4 = b := by unfold fieldOf; omega
  exact ⟨by omega, by simp only [candidateQp, c0, f0, f1, f2]⟩
  )
theorem qShl (d : Nat) (a : Nat) (b : Nat) : Statement (.qShl d a b) := of_qp rfl rfl (by
  intro hyp
  simp only [Instr.wf, Bool.and_eq_true, decide_eq_true_eq] at hyp
  generalize hv : 402653184 + d * 4194304 + a * 262144 + b * 16384 = v0
  have c0 : fieldOf v0 26 6 = 6 := by unfold fieldOf; omega
  have f0 : fieldOf v0 22 4 = d := by unfold fieldOf; omega
  have f1 : fieldOf v0 18 4 = a := by unfold fieldOf; omega
  have f2 : fieldOf v0 14 4 = b := by unfold fieldOf; omega
  exact ⟨by omega, by simp only [candidateQp, c0, f0, f1, f2]⟩
  )
theorem qShr (d : Nat) (a : Nat) (b : Nat) : Statement (.qShr d a b) := of_qp rfl rfl (by
  intro hyp
  simp only [Instr.wf, Bool.and_eq_true, decide_eq_true_eq] at hyp
  generalize hv : 469762048 + d * 4194304 + a * 262144 + b * 16384 = v0
  have c0 : fieldOf v0 26 6 = 7 := by unfold fieldOf; omega
  have f0 : fieldOf v0 22 4 = d := by unfold fieldOf; omega
  have f1 : fieldOf v0 18 4 = a := by unfold fieldOf; omega
  have f2 : fieldOf v0 14 4 = b := by unfold fieldOf; omega
  exact ⟨by omega, by simp only [candidateQp, c0, f0, f1, f2]⟩
  )
theorem qMinu (d : Nat) (a : Nat) (b : Nat) : Statement (.qMinu d a b) := of_qp rfl rfl (by
  intro hyp
  simp only [Instr.wf, Bool.and_eq_true, decide_eq_true_eq] at hyp
  generalize hv : 536870912 + d * 4194304 + a * 262144 + b * 16384 = v0
  have c0 : fieldOf v0 26 6 = 8 := by unfold fieldOf; omega
  have f0 : fieldOf v0 22 4 = d := by unfold fieldOf; omega
  have f1 : fieldOf v0 18 4 = a := by unfold fieldOf; omega
  have f2 : fieldOf v0 14 4 = b := by unfold fieldOf; omega
  exact ⟨by omega, by simp only [candidateQp, c0, f0, f1, f2]⟩
  )
theorem qAddi (d : Nat) (a : Nat) (imm : Nat) : Statement (.qAddi d a imm) := of_qp rfl rfl (by
  intro hyp
  simp only [Instr.wf, Bool.and_eq_true, decide_eq_true_eq] at hyp
  generalize hv : 603979776 + d * 4194304 + a * 262144 + imm = v0
  have c0 : fieldOf v0 26 6 = 9 := by unfold fieldOf; omega
  have f0 : fieldOf v0 22 4 = d := by unfold fieldOf; omega
  have f1 : fieldOf v0 18 4 = a := by unfold fieldOf; omega
  have f2 : fieldOf v0 0 14 = imm := by unfold fieldOf; omega
  exact ⟨by omega, by simp only [candidateQp, c0, f0, f1, f2]⟩
  )
theorem qAndi (d : Nat) (a : Nat) (imm : Nat) : Statement (.qAndi d a imm) := of_qp rfl rfl (by
  intro hyp
  simp only [Instr.wf, Bool.and_eq_true, decide_eq_true_eq] at hyp
  generalize hv : 671088640 + d * 4194304 + a * 262144 + imm = v0
  have c0 : fieldOf v0 26 6 = 10 := by unfold fieldOf; omega
  have f0 : fieldOf v0 22 4 = d := by unfold fieldOf; omega
  have f1 : fieldOf v0 18 4 = a := by unfold fieldOf; omega
  have f2 : fieldOf v0 0 14 = imm := by unfold fieldOf; omega
  exact ⟨by omega, by simp only [candidateQp, c0, f0, f1, f2]⟩
  )
theorem qOri (d : Nat) (a : Nat) (imm : Nat) : Statement (.qOri d a imm) := of_qp rfl rfl (by
  intro hyp
  simp only [Instr.wf, Bool.and_eq_true, decide_eq_true_eq] at hyp
  generalize hv : 738197504 + d * 4194304 + a * 262144 + imm = v0
  have c0 : fieldOf v0 26 6 = 11 := by unfold fieldOf; omega
  have f0 : fieldOf v0 22 4 = d := by unfold fieldOf; omega
  have f1 : fieldOf v0 18 4 = a := by unfold fieldOf; omega
  have f2 : fieldOf v0 0 14 = imm := by unfold fieldOf; omega
  exact ⟨by omega, by simp only [candidateQp, c0, f0, f1, f2]⟩
  )
theorem qShli (d : Nat) (a : Nat) (imm : Nat) : Statement (.qShli d a imm) := of_qp rfl rfl (by
  intro hyp
  simp only [Instr.wf, Bool.and_eq_true, decide_eq_true_eq] at hyp
  generalize hv : 805306368 + d * 4194304 + a * 262144 + imm = v0
  have c0 : fieldOf v0 26 6 = 12 := by unfold fieldOf; omega
  have f0 : fieldOf v0 22 4 = d := by unfold fieldOf; omega
  have f1 : fieldOf v0 18 4 = a := by unfold fieldOf; omega
  have f2 : fieldOf v0 0 14 = imm := by unfold fieldOf; omega
  exact ⟨by omega, by simp only [candidateQp, c0, f0, f1, f2]⟩
  )
theorem qShri (d : Nat) (a : Nat) (imm : Nat) : Statement (.qShri d a imm) := of_qp rfl rfl (by
  intro hyp
  simp only [Instr.wf, Bool.and_eq_true, decide_eq_true_eq] at hyp
  generalize hv : 872415232 + d * 4194304 + a * 262144 + imm = v0
  have c0 : fieldOf v0 26 6 = 13 := by unfold fieldOf; omega
  have f0 : fieldOf v0 22 4 = d := by unfold fieldOf; omega
  have f1 : fieldOf v0 18 4 = a := by unfold fieldOf; omega
  have f2 : fieldOf v0 0 14 = imm := by unfold fieldOf; omega
  exact ⟨by omega, by simp only [candidateQp, c0, f0, f1, f2]⟩
  )
theorem qLi (d : Nat) (imm : Nat) : Statement (.qLi d imm) := of_qp rfl rfl (by
  intro hyp
  simp only [Instr.wf, Bool.and_eq_true, decide_eq_true_eq] at hyp
  generalize hv : 939524096 + d * 4194304 + imm = v0
  have c0 : fieldOf v0 26 6 = 14 := by unfold fieldOf; omega
  have f0 : fieldOf v0 22 4 = d := by unfold fieldOf; omega
  have f1 : fieldOf v0 0 22 = imm := by unfold fieldOf; omega
  exact ⟨by omega, by simp only [candidateQp, c0, f0, f1]⟩
  )
theorem qLdw (d : Nat) (a : Nat) (win : Nat) (imm : Nat) : Statement (.qLdw d a win imm) := of_qp rfl rfl (by
  intro hyp
  simp only [Instr.wf, Bool.and_eq_true, decide_eq_true_eq] at hyp
  generalize hv : 1006632960 + d * 4194304 + a * 262144 + win * 16384 + imm = v0
  have c0 : fieldOf v0 26 6 = 15 := by unfold fieldOf; omega
  have f0 : fieldOf v0 22 4 = d := by unfold fieldOf; omega
  have f1 : fieldOf v0 18 4 = a := by unfold fieldOf; omega
  have f2 : fieldOf v0 14 2 = win := by unfold fieldOf; omega
  have f3 : fieldOf v0 0 14 = imm := by unfold fieldOf; omega
  exact ⟨by omega, by simp only [candidateQp, c0, f0, f1, f2, f3]⟩
  )
theorem qStw (d : Nat) (a : Nat) (win : Nat) (imm : Nat) : Statement (.qStw d a win imm) := of_qp rfl rfl (by
  intro hyp
  simp only [Instr.wf, Bool.and_eq_true, decide_eq_true_eq] at hyp
  generalize hv : 1073741824 + d * 4194304 + a * 262144 + win * 16384 + imm = v0
  have c0 : fieldOf v0 26 6 = 16 := by unfold fieldOf; omega
  have f0 : fieldOf v0 22 4 = d := by unfold fieldOf; omega
  have f1 : fieldOf v0 18 4 = a := by unfold fieldOf; omega
  have f2 : fieldOf v0 14 2 = win := by unfold fieldOf; omega
  have f3 : fieldOf v0 0 14 = imm := by unfold fieldOf; omega
  exact ⟨by omega, by simp only [candidateQp, c0, f0, f1, f2, f3]⟩
  )
theorem qBeq (a : Nat) (b : Nat) (imm : Nat) : Statement (.qBeq a b imm) := of_qp rfl rfl (by
  intro hyp
  simp only [Instr.wf, Bool.and_eq_true, decide_eq_true_eq] at hyp
  generalize hv : 1140850688 + a * 262144 + b * 16384 + imm = v0
  have c0 : fieldOf v0 26 6 = 17 := by unfold fieldOf; omega
  have f0 : fieldOf v0 18 4 = a := by unfold fieldOf; omega
  have f1 : fieldOf v0 14 4 = b := by unfold fieldOf; omega
  have f2 : fieldOf v0 0 14 = imm := by unfold fieldOf; omega
  exact ⟨by omega, by simp only [candidateQp, c0, f0, f1, f2]⟩
  )
theorem qBne (a : Nat) (b : Nat) (imm : Nat) : Statement (.qBne a b imm) := of_qp rfl rfl (by
  intro hyp
  simp only [Instr.wf, Bool.and_eq_true, decide_eq_true_eq] at hyp
  generalize hv : 1207959552 + a * 262144 + b * 16384 + imm = v0
  have c0 : fieldOf v0 26 6 = 18 := by unfold fieldOf; omega
  have f0 : fieldOf v0 18 4 = a := by unfold fieldOf; omega
  have f1 : fieldOf v0 14 4 = b := by unfold fieldOf; omega
  have f2 : fieldOf v0 0 14 = imm := by unfold fieldOf; omega
  exact ⟨by omega, by simp only [candidateQp, c0, f0, f1, f2]⟩
  )
theorem qBltu (a : Nat) (b : Nat) (imm : Nat) : Statement (.qBltu a b imm) := of_qp rfl rfl (by
  intro hyp
  simp only [Instr.wf, Bool.and_eq_true, decide_eq_true_eq] at hyp
  generalize hv : 1275068416 + a * 262144 + b * 16384 + imm = v0
  have c0 : fieldOf v0 26 6 = 19 := by unfold fieldOf; omega
  have f0 : fieldOf v0 18 4 = a := by unfold fieldOf; omega
  have f1 : fieldOf v0 14 4 = b := by unfold fieldOf; omega
  have f2 : fieldOf v0 0 14 = imm := by unfold fieldOf; omega
  exact ⟨by omega, by simp only [candidateQp, c0, f0, f1, f2]⟩
  )
theorem qBgeu (a : Nat) (b : Nat) (imm : Nat) : Statement (.qBgeu a b imm) := of_qp rfl rfl (by
  intro hyp
  simp only [Instr.wf, Bool.and_eq_true, decide_eq_true_eq] at hyp
  generalize hv : 1342177280 + a * 262144 + b * 16384 + imm = v0
  have c0 : fieldOf v0 26 6 = 20 := by unfold fieldOf; omega
  have f0 : fieldOf v0 18 4 = a := by unfold fieldOf; omega
  have f1 : fieldOf v0 14 4 = b := by unfold fieldOf; omega
  have f2 : fieldOf v0 0 14 = imm := by unfold fieldOf; omega
  exact ⟨by omega, by simp only [candidateQp, c0, f0, f1, f2]⟩
  )
theorem qJmp (imm : Nat) : Statement (.qJmp imm) := of_qp rfl rfl (by
  intro hyp
  simp only [Instr.wf, Bool.and_eq_true, decide_eq_true_eq] at hyp
  generalize hv : 1409286144 + imm = v0
  have c0 : fieldOf v0 26 6 = 21 := by unfold fieldOf; omega
  have f0 : fieldOf v0 0 14 = imm := by unfold fieldOf; omega
  exact ⟨by omega, by simp only [candidateQp, c0, f0]⟩
  )
theorem qLoop (d : Nat) (mx : Nat) (len : Nat) : Statement (.qLoop d mx len) := of_qp rfl rfl (by
  intro hyp
  simp only [Instr.wf, Bool.and_eq_true, decide_eq_true_eq] at hyp
  generalize hv : 1476395008 + d * 4194304 + mx * 16384 + len = v0
  have c0 : fieldOf v0 26 6 = 22 := by unfold fieldOf; omega
  have f0 : fieldOf v0 22 4 = d := by unfold fieldOf; omega
  have f1 : fieldOf v0 14 8 = mx := by unfold fieldOf; omega
  have f2 : fieldOf v0 0 14 = len := by unfold fieldOf; omega
  exact ⟨by omega, by simp only [candidateQp, c0, f0, f1, f2]⟩
  )
theorem qPtim (d : Nat) : Statement (.qPtim d) := of_qp rfl rfl (by
  intro hyp
  simp only [Instr.wf, Bool.and_eq_true, decide_eq_true_eq] at hyp
  generalize hv : 1543503872 + d * 4194304 = v0
  have c0 : fieldOf v0 26 6 = 23 := by unfold fieldOf; omega
  have f0 : fieldOf v0 22 4 = d := by unfold fieldOf; omega
  exact ⟨by omega, by simp only [candidateQp, c0, f0]⟩
  )
theorem qSkip (imm : Nat) : Statement (.qSkip imm) := of_qp rfl rfl (by
  intro hyp
  simp only [Instr.wf, Bool.and_eq_true, decide_eq_true_eq] at hyp
  generalize hv : 1677721600 + imm = v0
  have c0 : fieldOf v0 26 6 = 25 := by unfold fieldOf; omega
  have f0 : fieldOf v0 0 14 = imm := by unfold fieldOf; omega
  exact ⟨by omega, by simp only [candidateQp, c0, f0]⟩
  )
theorem qFail (imm : Nat) : Statement (.qFail imm) := of_qp rfl rfl (by
  intro hyp
  simp only [Instr.wf, Bool.and_eq_true, decide_eq_true_eq] at hyp
  generalize hv : 1744830464 + imm = v0
  have c0 : fieldOf v0 26 6 = 26 := by unfold fieldOf; omega
  have f0 : fieldOf v0 0 14 = imm := by unfold fieldOf; omega
  exact ⟨by omega, by simp only [candidateQp, c0, f0]⟩
  )
theorem halt : Statement .halt := of_slot rfl rfl (by
  intro hyp
  generalize hv : 16777216 = v0
  have c0 : fieldOf v0 24 5 = 1 := by unfold fieldOf; omega
  exact ⟨(show 2 ^ 24 ≤ v0 ∧ v0 < 2 ^ 29 by omega), by simp only [candidate, candidateCtl, c0]⟩
  )
theorem kend : Statement .kend := of_slot rfl rfl (by
  intro hyp
  generalize hv : 33554432 = v0
  have c0 : fieldOf v0 24 5 = 2 := by unfold fieldOf; omega
  exact ⟨(show 2 ^ 24 ≤ v0 ∧ v0 < 2 ^ 29 by omega), by simp only [candidate, candidateCtl, c0]⟩
  )
theorem ret : Statement .ret := of_slot rfl rfl (by
  intro hyp
  generalize hv : 83886080 = v0
  have c0 : fieldOf v0 24 5 = 5 := by unfold fieldOf; omega
  exact ⟨(show 2 ^ 24 ≤ v0 ∧ v0 < 2 ^ 29 by omega), by simp only [candidate, candidateCtl, c0]⟩
  )
theorem eret : Statement .eret := of_slot rfl rfl (by
  intro hyp
  generalize hv : 268435456 = v0
  have c0 : fieldOf v0 24 5 = 16 := by unfold fieldOf; omega
  exact ⟨(show 2 ^ 24 ≤ v0 ∧ v0 < 2 ^ 29 by omega), by simp only [candidate, candidateCtl, c0]⟩
  )
theorem susp : Statement .susp := of_slot rfl rfl (by
  intro hyp
  generalize hv : 452984832 = v0
  have c0 : fieldOf v0 24 5 = 27 := by unfold fieldOf; omega
  exact ⟨(show 2 ^ 24 ≤ v0 ∧ v0 < 2 ^ 29 by omega), by simp only [candidate, candidateCtl, c0]⟩
  )
theorem yield_ : Statement .yield_ := of_slot rfl rfl (by
  intro hyp
  generalize hv : 469762048 = v0
  have c0 : fieldOf v0 24 5 = 28 := by unfold fieldOf; omega
  exact ⟨(show 2 ^ 24 ≤ v0 ∧ v0 < 2 ^ 29 by omega), by simp only [candidate, candidateCtl, c0]⟩
  )
theorem commit : Statement .commit := of_slot rfl rfl (by
  intro hyp
  generalize hv : 503316480 = v0
  have c0 : fieldOf v0 24 5 = 30 := by unfold fieldOf; omega
  exact ⟨(show 2 ^ 24 ≤ v0 ∧ v0 < 2 ^ 29 by omega), by simp only [candidate, candidateCtl, c0]⟩
  )
theorem plsw : Statement .plsw := of_slot rfl rfl (by
  intro hyp
  generalize hv : 520093696 = v0
  have c0 : fieldOf v0 24 5 = 31 := by unfold fieldOf; omega
  exact ⟨(show 2 ^ 24 ≤ v0 ∧ v0 < 2 ^ 29 by omega), by simp only [candidate, candidateCtl, c0]⟩
  )
theorem axch : Statement .axch := of_slot rfl rfl (by
  intro hyp
  generalize hv : 100663296 = v0
  have c0 : fieldOf v0 24 5 = 6 := by unfold fieldOf; omega
  exact ⟨(show 2 ^ 24 ≤ v0 ∧ v0 < 2 ^ 29 by omega), by simp only [candidate, candidateMat, c0]⟩
  )
theorem deviceReset : Statement .deviceReset := of_event rfl rfl
theorem linkQueueGrant : Statement .linkQueueGrant := of_event rfl rfl
theorem packetDispatch : Statement .packetDispatch := of_event rfl rfl
theorem launch : Statement .launch := of_event rfl rfl
theorem loopl : Statement .loopl := of_event rfl rfl
theorem packetCopy : Statement .packetCopy := of_event rfl rfl
theorem graphr : Statement .graphr := of_event rfl rfl
theorem graphp : Statement .graphp := of_event rfl rfl
theorem bind : Statement .bind := of_event rfl rfl
theorem unmap : Statement .unmap := of_event rfl rfl
theorem signal : Statement .signal := of_event rfl rfl
theorem wait : Statement .wait := of_event rfl rfl
theorem ctxcCreate : Statement .ctxcCreate := of_event rfl rfl
theorem ctxcDestroy : Statement .ctxcDestroy := of_event rfl rfl
theorem ctxcSet : Statement .ctxcSet := of_event rfl rfl
theorem ctxcResume : Statement .ctxcResume := of_event rfl rfl
theorem ctxcCkpt : Statement .ctxcCkpt := of_event rfl rfl
theorem ctxcQcreate : Statement .ctxcQcreate := of_event rfl rfl
theorem ctxcQdestroy : Statement .ctxcQdestroy := of_event rfl rfl
theorem ctxcQprog : Statement .ctxcQprog := of_event rfl rfl
theorem ctxcQreset : Statement .ctxcQreset := of_event rfl rfl
theorem ctxcGmap : Statement .ctxcGmap := of_event rfl rfl
theorem ctxcGunmap : Statement .ctxcGunmap := of_event rfl rfl
theorem ctxcHdrop : Statement .ctxcHdrop := of_event rfl rfl
theorem ctxcFpool : Statement .ctxcFpool := of_event rfl rfl
theorem forkCopyDone : Statement .forkCopyDone := of_event rfl rfl
theorem sequenceTrapPost : Statement .sequenceTrapPost := of_event rfl rfl
theorem debugHalt : Statement .debugHalt := of_event rfl rfl
theorem debugContinue : Statement .debugContinue := of_event rfl rfl
theorem ddataRead : Statement .ddataRead := of_event rfl rfl
theorem fwLoad : Statement .fwLoad := of_event rfl rfl
theorem fwVerifyDone : Statement .fwVerifyDone := of_event rfl rfl
theorem fwCommit : Statement .fwCommit := of_event rfl rfl
theorem fwAbort : Statement .fwAbort := of_event rfl rfl
theorem fwCommitPoint : Statement .fwCommitPoint := of_event rfl rfl
theorem frequencyStall : Statement .frequencyStall := of_event rfl rfl
theorem pllRelock : Statement .pllRelock := of_event rfl rfl
theorem governorStepDown : Statement .governorStepDown := of_event rfl rfl
theorem governorStepUp : Statement .governorStepUp := of_event rfl rfl
theorem thermalFence : Statement .thermalFence := of_event rfl rfl
theorem columnChange : Statement .columnChange := of_event rfl rfl
theorem enterIdle : Statement .enterIdle := of_event rfl rfl
theorem enterSelfRefresh : Statement .enterSelfRefresh := of_event rfl rfl
theorem wakeToActive : Statement .wakeToActive := of_event rfl rfl
theorem failedUnitFence : Statement .failedUnitFence := of_event rfl rfl
theorem qDone : Statement .qDone := of_qp rfl rfl (by
  intro hyp
  generalize hv : 1610612736 = v0
  have c0 : fieldOf v0 26 6 = 24 := by unfold fieldOf; omega
  exact ⟨by omega, by simp only [candidateQp, c0]⟩
  )

end Sys2Proof.Laws.RoundTrip
end

