-- ==== Sys2Proof/Laws/Shared.lean ====
section
/-! SUPPORT. The shared operations of packets, of context control, of the debug port and of traps: what each can do, said once. -/
namespace Sys2Proof.Laws
open Machine

/-- The packet in hand, when its command is the one asked for and the front end does not stand still. -/
theorem inHand_some {s : State} {p op : Nat} (h : s.hub.hand = some p) (ho : pOP (s.pkt p).bytes = op) (hs : s.hub.stalled = false) : inHand s op = some (p, s.pkt p) := by
  unfold inHand
  simp [h, ho, hs]

/-- An answer gives the packet its status and frees the hand; nothing outside the hub changes. -/
theorem answer_spec {s : State} {p : Nat} (h : (s.pkt p).outcome = none) (st d : Nat) :
    (answer s p st d).hub.hand = none ∧ ((answer s p st d).pkt p).outcome = some (st, d) ∧ { answer s p st d with hub := s.hub } = s := by
  unfold answer handDone pktOutcome
  simp only [h]
  simp [State.setPkt, State.pkt]

@[simp] theorem answer_mem (s : State) (p st d : Nat) : (answer s p st d).mem = s.mem := by
  unfold answer handDone pktOutcome
  simp only
  split <;> rfl

/-- A context-control sub-operation: without its packet nothing; refused with a status; or its effect on the context. -/
theorem onContext_cases (s : State) (sub : Nat) (f : Nat → Pkt → Nat → Ctx → State) :
    (ctxcHand s sub = none ∧ onContext s sub f = .next s)
    ∨ (∃ p k st, ctxcHand s sub = some (p, k) ∧ ctxcTarget s k = .error st ∧ onContext s sub f = .next (answer s p st 0))
    ∨ (∃ p k c, ctxcHand s sub = some (p, k) ∧ ctxcTarget s k = .ok c ∧ onContext s sub f = .next (f p k c (s.ctx c))) := by
  unfold onContext
  cases h : ctxcHand s sub with
  | none => exact .inl ⟨rfl, rfl⟩
  | some q =>
    obtain ⟨p, k⟩ := q
    cases ht : ctxcTarget s k with
    | error st => exact .inr (.inl ⟨p, k, st, rfl, ht, by simp [ht]⟩)
    | ok c => exact .inr (.inr ⟨p, k, c, rfl, ht, by simp [ht]⟩)

/-- A request of the debug port is refused, held for the resume, or done. -/
theorem debugAsk_cases (s : State) (r : DebugReq) :
    (debugRight s (r.memory s) = .refused ∧ debugAsk s r
        = (if r = .read then { (debugRefuse s) with hub := { (debugRefuse s).hub with ddata := 0 } } else debugRefuse s))
    ∨ (debugRight s (r.memory s) = .waits ∧ debugAsk s r = { s with hub := { s.hub with debugWaits := s.hub.debugWaits ++ [r] } })
    ∨ (debugRight s (r.memory s) = .allowed ∧ debugAsk s r = r.act { s with hub := { s.hub with dref := false } }) := by
  unfold debugAsk
  cases h : debugRight s (r.memory s) with
  | refused => exact .inl ⟨rfl, rfl⟩
  | waits => exact .inr (.inl ⟨rfl, rfl⟩)
  | allowed => exact .inr (.inr ⟨rfl, rfl⟩)

/-- A trap in handler mode abandons the kernel. -/
theorem takeTrap_handler {s : State} {k cause slot : Nat} {rs : List Raiser} (h : ((dropIssue s k).core k).handler.isSome = true) :
    ∃ recs, takeTrap s k cause slot rs = abandon (dropIssue s k) k cause recs := by
  unfold takeTrap
  simp only [h, if_true]
  exact ⟨_, rfl⟩

/-- A PAGE trap with nothing outstanding writes the trap registers and waits for its service. -/
theorem takeTrap_page {s a : State} {k slot : Nat} {rs : List Raiser} (h : ((dropIssue s k).core k).handler = none)
    (ha : a = arriveAll (dropIssue s k) k)
    (hp : pendingLeft a k = false) (hl : landsLate a k ((dropIssue s k).core k).bn = false) :
    takeTrap s k cPAGE slot rs = (writeTrapRegs a k cPAGE slot rs).modCore k (fun c => { c with
      st := .stalled, pendTrap := none, benchFrom := none, benchOwed := [],
      hold := .page (slot % 8) (dropIssue s k).ptime (bitOf ((dropIssue s k).ctx c.cid).split.toNat 0) (rs.map (fun r => (r.die, r.reason, r.arg))) }) := by
  subst ha
  unfold takeTrap
  simp only [h, hp, hl, Option.isSome_none, Bool.false_eq_true, if_false, Bool.or_self, if_true]

/-- What becoming resident changes: the state of the context, and the slots of its tiles. -/
theorem becomeResident_spec (s : State) (cid u : Nat) :
    let t := becomeResident s cid
    t.tile u = (if u < 256 ∧ tilesFor s cid (u / 4) then { s.tile u with slots := [] } else s.tile u)
    ∧ { t with tiles := s.tiles } = s.modCtx cid (fun x => { x with st := .resident }) :=
  ⟨sget_map (d := ({} : Tile)) (f := fun t => { t with slots := [] }) (fun u => u < 256 ∧ tilesFor s cid (u / 4)) rfl s.tiles u, rfl⟩

end Sys2Proof.Laws
end

