-- ==== Sys2Proof/Tests/Slice0.lean ====
section
/-! SUPPORT. Tests of the model's definitions on the spec's own words and worked examples, a check that each field's limit is
refused, and a witness for every clause of every statement that has hypotheses: a state and operands that meet them together. -/
namespace Sys2Proof.Tests
open Sys2Proof Sys2Proof.Machine

set_option maxRecDepth 8000
set_option Elab.async false
set_option linter.unusedVariables false

/-! ### The states of the witnesses and tests -/

/-- The issue of a bundle whose slot `sl` is next. -/
def demoIssue (sl : Nat) : Issue := { addr := 0, words := [0, 0, 0, 0, 0, 0, 0, 0], brtDone := true, slot := sl }
theorem dies_lt (sl e : Nat) (h : e ∈ (demoIssue sl).dies sl) : e < 4 := by
  have := (List.mem_filter.1 h).1
  simpa [upTo] using this
/-- A translation of the first 64 KiB onto itself. -/
def demoTlb : TlbEntry :=
  { cid := 0, vbase := 0, size := 65536, frame := 0, rd := true, wr := true, sec := false, nc := false, expiry := 2000 }
/-- Scan shape 1: one package, one tile, one element of one row of width 1, slots 0 and 2, output port 1. Engine shapes 1 to 3 and 0:
sixteen FP32 elements in one row, on every die. -/
def demoShapes : SMap (SMap DWord) :=
  let m : SMap DWord := [(1, 16), (2, 1), (3, 1), (4, 1), (10, 7)]
  [(5, [(11, 65536), (12, 16777216), (13, 512), (14, 1)]), (8, m), (9, m), (10, m), (11, m)]
/-- An operator program: oa = a0 + b0 and ob the same. -/
def demoProg : List Word := [0x38100000, 0x3C100000]
/-- A tile with FP32 values in v1 to v3, BF16 in v4, I32 in v5, addresses in x1 and x2, the start of a descriptor at 64, walkers 0
(from the scratchpad) and 1 (to it). -/
def demoTile : Tile :=
  { x := [(1, 64), (2, 512)], v := [(1, { tag := .fp32 }), (2, { tag := .fp32 }), (3, { tag := .fp32 }), (4, { tag := .bf16 }), (5, { tag := .i32 })]
    walk := [(0, { ctrl := 1 }), (1, { ctrl := 2, base := 512 })]
    tlb := [demoTlb], spad := [(68, 1)], shLive := demoShapes, shShadow := demoShapes, prog := some demoProg }
/-- A loop kernel of one sequence. -/
def demoLoop : LoopRec := { nseq := 1, vocab := 32, buckets := [(8, 0, 0), (8, 2, 4)], occ := 8, drl := 2, lanes := [0] }
/-- A core of group 0 that runs, with slot `sl` of its bundle next. -/
def demoCore (sl : Nat) : CoreRec := { st := .running, issue := some (demoIssue sl) }
/-- Core 0 is `c` and in turn, its tiles are `t`; its group runs a loop kernel. -/
def demoC (t : Tile) (c : CoreRec) : State :=
  { State.reset with turn := .core 0, cores := [(0, c)], tiles := [(0, t), (1, t), (2, t), (3, t)],
                     hub := { groups := [(0, { st := .running, cores := [0], loop := some demoLoop })] } }
def demoT (sl : Nat) (t : Tile) : State := demoC t (demoCore sl)
def demo (sl : Nat) : State := demoT sl demoTile
/-- Context 0 with page tables that map the first 2 GiB onto itself. -/
def paged : State :=
  { State.reset with ctxs := [(0, { st := .running, root := 524288 })], mem := [(524288, 1), (524290, 16), (1048576, 15)],
                     hub := { groups := [(0, { st := .running, cores := [0], loop := some demoLoop })] } }
/-- A bundle with SUP 1, 0, 0 in slot 5. -/
def supIssue : Issue := { demoIssue 5 with words := [0, 0, 0, 0, 0, ((encode (.sup 1 0 0 40)).getD (0, 0)).2, 0, 0] }
/-- Colt 0 in turn with x registers `x` and record `r`, over paged memory with `m` listed. -/
def demoColt (r : ColtRec) (m : Memory) : State :=
  { paged with turn := .colt 0, tiles := [(256, { x := [(1, 64), (2, 512), (3, 65)] })], mem := m ++ paged.mem,
               hub := { paged.hub with colts := [(0, r)] } }
/-- Core 0 in turn before the branch word of its bundle. -/
def atBranch (t : Tile) (c : CoreRec) : State := demoC t { c with st := .running, issue := some { demoIssue 0 with brtDone := false } }
/-- Core 0 in turn at a handler word. -/
def inHandler : State := demoC demoTile { st := .trapped, handler := some 0 }
/-- Core 0 of context 0 without a bundle in issue, over paged memory. -/
def resting (c : CoreRec) : State := { paged with cores := [(0, c)] }
/-- A packet of 64 bytes from its listed bytes. -/
def pktBytes (l : SMap Byte) : List Byte := (List.range 64).map (fun i => sget 0 l i)
/-- Packet 1 of context 0, with the listed bytes, in the front end's hand, over paged memory with `m` listed. -/
def inFront (l : SMap Byte) (m : Memory) : State :=
  { paged with mem := m ++ paged.mem, hub := { hand := some 1, pkts := [(1, { bytes := pktBytes l })], nextPkt := 2 } }
/-- The same packet, started and dispatched. -/
def dispatched (k : Pkt) (h : Hub) : State := { paged with hub := { h with pkts := [(1, k)], nextPkt := 2 } }
/-- A kernel image at 4096: core 0, one section of one empty bundle, no flags. -/
def imageMem : Memory :=
  [(4096, 75), (4097, 69), (4098, 82), (4099, 78), (4100, 1), (4104, 1), (4120, 64), (4162, 1), (4168, 128), (4225, 2), (4232, 1)]
/-- A LAUNCH of that image with its argument block at 8192. -/
def launchBytes : SMap Byte := [(0, 1), (17, 16), (25, 32)]
/-- A task graph at 4096: one node at 4160 that is a SIGNAL, without predecessors, VERSION 1. -/
def graphMem : Memory := [(4096, 72), (4097, 80), (4098, 82), (4099, 71), (4100, 1), (4104, 64), (4105, 16), (4112, 128), (4113, 16), (4128, 1), (4160, 8)]
/-- Tables for the 64 KiB page at 2 GiB: its leaf is at 4194304. -/
def leafTables : Memory := [(1048584, 1), (1048586, 32), (2097152, 1), (2097154, 64)]
/-- A remote request of unit 0 to device `t`. -/
def demoReq (t : Nat) (sent : Bool) : Req := { kind := 1, unit := 0, target := t, va := 64, size := 64, reqNo := 5, sent := sent }
/-- A push-down automaton at 128 whose one rule takes every token, and a state of it at 64. -/
def pdaMem : Memory :=
  [(64, 128), (78, 1), (128, 80), (129, 80), (130, 68), (131, 65), (132, 1), (136, 1), (144, 192), (192, 208), (200, 1),
   (220, 255), (221, 255), (222, 255), (223, 255)]
/-- An SCRY in flight at tile 0 of core 0, in an instance of one tile and `npkg` packages. -/
def demoScry (npkg lp : Nat) : ScryRec :=
  { inst := 0, kern := 0, q := 0, nroots := 1, zs := 0, zx := 2, bf16 := false, rows := 1, w := 1, lp := lp, pq := 0, npkg := npkg,
    rev := false, prog := demoProg, u := none, ncores := 1, word := 0 }
def scryEntry (r : ScryRec) : Entry := { due := 1, issue := 0, slot := 5, unit := 0, eff := .scry r, inter := true, pend := true }
/-- Packet 1, of context `own`, is a context-control packet with the listed bytes, in hand; context 1 is `x`, the hub is else `h`. -/
def ctlFront (own : Nat) (l : SMap Byte) (x : Ctx) (h : Hub) (m : Memory) : State :=
  { paged with ctxs := [(0, { st := .running, root := 524288 }), (1, x)], mem := m ++ paged.mem,
               hub := { h with hand := some 1, pkts := [(1, { bytes := pktBytes ((0, 10) :: l), cid := own })], nextPkt := 2 } }
/-- The word of an instruction in its slot, on a handler's or Colt's single word, and in a queue program. -/
def slotWord (i : Instr) : Nat := ((encode i).getD (0, 0)).2
def singleWord (i : Instr) : Nat := (encodeSingle i).getD 0
def qpWord (i : Instr) : Nat := (encodeQp i).getD 0
/-- The debug port is unlocked; context 0 is selected and halted where `h` says so. -/
def debugged (h : Option Nat) (addr : Nat) : State := { paged with hub := { dstate := 2, haltCtx := h, daddr := addr } }
def scryIssue : Issue := { demoIssue 5 with words := [0, 0, 0, 0, 0, ((encode (.scry 1 0 0 40)).getD (0, 0)).2, 0, 0] }
/-- Core 0 at a SCRY of two packages, with a carry held that claims its own position. -/
def claimed : State :=
  let s := demoC { demoTile with scanSt := .up, settings := [0, 131072, 16777216, 512, 1, 0],
                                 shLive := [(5, [(11, 131072), (12, 16777216), (13, 512), (14, 1)])] } { demoCore 5 with issue := some scryIssue }
  { s with hub := { s.hub with carriesIn := [{ kern := 0, inst := 0, level := 0, pos := 0, absent := true, data := 0 }] } }
/-- Context 0 as paged, with a route to device 1 by port 0. -/
def routed : State :=
  { paged with hub := { podsize := 2, jobctx := 0x8000000000000000, routes := [(1, 0x8000000000000001)], ports := [(0, { en := true, up := true })] } }
/-- The header at 0 of a save area and its directory at 64: eight sections, one of each kind. -/
def saveDir : Memory := [(4, 1), (24, 64), (32, 8), (64, 1), (80, 2), (96, 3), (112, 4), (128, 5), (144, 6), (160, 7), (176, 8)]
/-- Context 0 is pre-empted with `v` saved and the frames `pool`, its gang mapped, over paged memory with `m` listed. -/
def savedIn (v : Saved) (pool : List Nat) (m : Memory) : State :=
  { paged with ctxs := [(0, { st := .preempted, root := 524288, saved := some v, pool := pool })], hub := { gangs := [(0, { mapped := true })] },
               mem := m ++ paged.mem }
/-! What a computation answers: its value where it answers one, so that a witness need not write the value out. -/

def okD {ε α : Type} (d : α) (r : Except ε α) : α := match r with
  | .ok v => v
  | .error _ => d
def isOk {ε α : Type} (r : Except ε α) : Bool := match r with
  | .ok _ => true
  | .error _ => false
theorem okEq {ε α : Type} {d : α} {r : Except ε α} (h : isOk r = true) : r = .ok (okD d r) := by
  cases r with
  | ok v => rfl
  | error e => exact absurd h (by simp [isOk])
theorem someEq {α : Type} {d : α} {r : Option α} (h : r.isSome = true) : r = some (r.getD d) := by
  cases r with
  | some v => rfl
  | none => exact absurd h (by simp)
theorem lt4 {P : Nat → Prop} (e : Nat) (he : e < 4) (h : ∀ e < 4, P e) : P e := h e he
theorem okEach {ε α : Type} {d : α} {X : Nat → Except ε α} (e : Nat) (he : e < 4) (h : ∀ e < 4, isOk (X e) = true) :
    X e = .ok (okD d (X e)) := okEq (h e he)
theorem each {sl : Nat} {P : Nat → Prop} (h : ∀ e, e < 4 → P e) : ∀ e ∈ (demoIssue sl).dies sl, P e := fun e he => h e (dies_lt sl e he)

/-! Values where a witness takes the value an evaluation gives. -/

def src0 : Src := { v := {} }
def scan0 : ScanSet := { f := .fp32, npkg := 1, ppos := 0, ld := 0, lc := 0, m := 1, rows := 1, w := 1, zs := 0, zx := 2, out := 0, rev := 0, word := [] }
def cmd0 : NodeCmd := { instr := .rginv 1 1 }
theorem consEq {α : Type} {d : α} {l : List α} (h : l.isEmpty = false) : l = l.headD d :: l.tail := by
  cases l with
  | nil => exact absurd h (by simp)
  | cons a r => rfl
def phase0 : AtPhase := { k := 0, d := 0, ph := .sup, sh := 0, sw := 0, res := .error .wait }
def job0 : Job := { group := 0, lane := 0, npos := 1, fmt := 0, logits := 64 }
def entry0 : Entry := { due := 0, issue := 0, slot := 0, unit := 0, eff := .none_ }
def plan0 : Plan :=
  { bytes := [], img := { base := 0, flags := 0, cores := [], presets := [], summary := 0, splice := 0 }, raw := [], hands := [], flagbase := 0, report := 0 }
def hdr0 : GraphHdr := { nnode := 0, nodes := 0, deps := 0, params := 0, version := 0, curbuf := 0 }
def rawOf (r : Res (RowSrc × List Post)) : List Int × List Post := match r with
  | .ok (.raw v, ps) => (v, ps)
  | _ => ([], [])
def floatOf (r : Res (RowSrc × List Post)) : List Nat × List Post := match r with
  | .ok (.float v, ps) => (v, ps)
  | _ => ([], [])
def isRaw (r : Res (RowSrc × List Post)) : Bool := match r with
  | .ok (.raw _, _) => true
  | _ => false
def isFloat (r : Res (RowSrc × List Post)) : Bool := match r with
  | .ok (.float _, _) => true
  | _ => false
theorem rawEq {X : Nat → Res (RowSrc × List Post)} (e : Nat) (he : e < 4) (h : ∀ e < 4, isRaw (X e) = true) :
    X e = .ok (.raw (rawOf (X e)).1, (rawOf (X e)).2) := by
  have := h e he
  revert this
  generalize X e = r
  intro h
  match r, h with
  | .ok (.raw v, ps), _ => rfl
theorem floatEq {X : Nat → Res (RowSrc × List Post)} (e : Nat) (he : e < 4) (h : ∀ e < 4, isFloat (X e) = true) :
    X e = .ok (.float (floatOf (X e)).1, (floatOf (X e)).2) := by
  have := h e he
  revert this
  generalize X e = r
  intro h
  match r, h with
  | .ok (.float v, ps), _ => rfl
theorem allSome {α : Type} {f : Nat → Option α} {P : Nat → α → Prop} [∀ a x, Decidable (P a x)] {l : List Nat}
    (h : l.all (fun a => (f a).all (fun x => decide (P a x))) = true) : ∀ a ∈ l, ∀ x, f a = some x → P a x := by
  intro a ha x hx
  have := List.all_eq_true.1 h a ha
  rw [hx] at this
  simpa using this
def errOf {ε α : Type} (r : Except ε α) : Option ε := match r with
  | .ok _ => none
  | .error e => some e
theorem errEq {ε α : Type} {e : ε} {r : Except ε α} (h : errOf r = some e) : r = .error e := by
  cases r with
  | ok v => cases h
  | error e => simpa [errOf] using h

/-! ### Words of the spec's encodings

Each word stands in the spec as the encoding of the assembly line, or is written out from the fields of its format (R50). -/

theorem test_decode_ctl_flow :
    decodeSlot 0 0x01000000 = .op 0 .halt ∧ decodeSlot 0 0x02000000 = .op 0 .kend ∧ decodeSlot 0 0x03832000 = .op 0 (.btgt 2 100)
    ∧ decodeSlot 0 0x0440A000 = .op 0 (.call 517) ∧ decodeSlot 0 0x05000000 = .op 0 .ret ∧ decodeSlot 0 0x06008000 = .op 0 (.loop 0 2)
    ∧ decodeSlot 0 0x0609CC00 = .op 0 (.loopS0 0 7 6) ∧ decodeSlot 0 0x062FE200 = .op 0 (.loopS0 1 31 17)
    ∧ decodeSlot 0 0x0F0D0042 = .op 0 (.trap 13 0x42) ∧ decodeSlot 0 0x0F0A0000 = .op 0 (.trap 10 0)
    ∧ decodeSlot 0 0x10000000 = .op 0 .eret ∧ decodeSlot 0 0x11C98000 = .op 0 (.rstkr 25 3)
    ∧ decodeSlot 0 0x12C80000 = .op 0 (.rstkw 25 0) ∧ decodeSlot 0 0x13000007 = .op 0 (.brk 7) := by decide +kernel

theorem test_decode_ctl_predicates :
    decodeSlot 0 0x070CF720 = .op 0 (.scmp 6 15 14 2) ∧ decodeSlot 0 0x081245FD = .op 0 (.scmpi 9 4 2 0x1FD)
    ∧ decodeSlot 0 0b000_01001_0001001_0000111_0001000_011 = .op 0 (.plog 9 7 8 3)
    ∧ decodeSlot 0 0b000_01010_0001001_0000111_0000000_000 = .op 0 (.pmov 9 7)
    ∧ decodeSlot 0 0b000_01011_0001001_1_0000_000000000000 = .op 0 (.pseti 9 1)
    ∧ decodeSlot 0 0x0C081800 = .op 0 (.csrr 1 0x030) ∧ decodeSlot 0 0x0D800900 = .op 0 (.csrw 16 0x012)
    ∧ decodeSlot 0 0b000_01110_10000_000000010010_0000000 = .op 0 (.csrs 16 0x012) := by decide +kernel

theorem test_decode_ctl_groups :
    decodeSlot 0 0x14214000 = .op 0 (.waitm 4 5) ∧ decodeSlot 0 0x1540A000 = .op 0 (.barv 2 5) ∧ decodeSlot 0 0x1640A000 = .op 0 (.barw 2 5)
    ∧ decodeSlot 0 0x17606240 = .op 0 (.bart 3 3 9) ∧ decodeSlot 0 0x18300000 = .op 0 (.fork 6) ∧ decodeSlot 0 0x19080000 = .op 0 (.join 1)
    ∧ decodeSlot 0 0x1A120000 = .op 0 (.steal 9) ∧ decodeSlot 0 0x1B000000 = .op 0 .susp ∧ decodeSlot 0 0x1C000000 = .op 0 .yield_
    ∧ decodeSlot 0 0x1D124000 = .op 0 (.trdy 9 4) ∧ decodeSlot 0 0x1E000000 = .op 0 .commit ∧ decodeSlot 0 0x1F000000 = .op 0 .plsw := by
  decide +kernel

theorem test_decode_int :
    decodeSlot 1 0x014A5000 = .op 0 (.add 9 9 8) ∧ decodeSlot 1 0x017E5CE0 = .op 0 (.shl 15 25 14) ∧ decodeSlot 1 0x01C61EA0 = .op 0 (.or_ 24 24 15)
    ∧ decodeSlot 1 0b000_00001_00011_00001_00010_1011_00000 = .op 0 (.max_ 3 1 2) ∧ decodeSlot 1 0x02100003 = .op 0 (.addi 2 0 3)
    ∧ decodeSlot 1 0b000_00011_00111_1000000000000000001 = .op 0 (.lui 7 0x40001) ∧ decodeSlot 1 0x044A9218 = .op 0 (.sel 9 10 9 6)
    ∧ decodeSlot 1 0x0535_0000 = .op 0 (.dsel 6 20) ∧ decodeSlot 1 0x06A05810 = .op 0 (.ld 20 1 3 16) ∧ decodeSlot 1 0x06733000 = .op 0 (.ld 14 12 6 0)
    ∧ decodeSlot 1 0x0749_9800 = .op 0 (.st 9 6 3 0) ∧ decodeSlot 1 0x07845000 = .op 0 (.st 16 17 2 0)
    ∧ decodeSlot 1 0x08670000 = .op 0 (.acq 3 7) ∧ decodeSlot 1 0x08874000 = .op 0 (.rel 4 7) ∧ decodeSlot 1 0x08408000 = .op 0 (.fence 2)
    ∧ decodeSlot 1 0x09280100 = .op 0 (.wcfg 5 0 1) ∧ decodeSlot 1 0x0A328200 = .op 0 (.shw 6 1 1 2) ∧ decodeSlot 1 0x0AED0A00 = .op 0 (.shw 29 2 2 10)
    ∧ decodeSlot 1 0x0B100000 = .op 0 (.ksel 0 2) ∧ decodeSlot 1 0x0C124000 = .op 0 (.xbc 9 4 0) ∧ decodeSlot 1 0x0D240000 = .op 0 (.mscl 4 1 0) := by
  decide +kernel

theorem test_decode_va :
    decodeSlot 2 0x010C0800 = .op 0 (.fadd .va 6 1 0) ∧ decodeSlot 2 0x21074042 = .op 1 (.fmul .va 3 40 2) ∧ decodeSlot 2 0x020E085B = .op 0 (.fma .va 7 1 2 27)
    ∧ decodeSlot 2 0x04521001 = .op 0 (.fnma 41 2 0 1) ∧ decodeSlot 2 0x040A1001 = .op 0 (.fnma 5 2 0 1)
    ∧ decodeSlot 2 0b000_00011_0000111_000001_000010_11111 = .op 0 (.fms 7 1 2 31) ∧ decodeSlot 2 0b000_00101_0000111_000001_000000_00110 = .op 0 (.funa .va 7 1 6)
    ∧ decodeSlot 2 0x061A5847 = .op 0 (.ishr 13 11 2) ∧ decodeSlot 2 0x061A6883 = .op 0 (.iand 13 13 4)
    ∧ decodeSlot 2 0x07408080 = .op 0 (.fcmp .va 2 1 0 4) ∧ decodeSlot 2 0x08A11200 = .op 0 (.icmp .va 5 2 9 0) ∧ decodeSlot 2 0x08268A20 = .op 0 (.icmp .va 1 13 5 1)
    ∧ decodeSlot 2 0b000_01001_011_001_010_101_000000000000 = .op 0 (.klog 3 1 2 5) ∧ decodeSlot 2 0b000_01010_0010001_000111_001000_011_00 = .op 0 (.vsel .va 17 7 8 3)
    ∧ decodeSlot 2 0x0B100848 = .op 0 (.cvt .va 8 1 2 2 0) ∧ decodeSlot 2 0x2B547A08 = .op 1 (.cvt .va 42 15 16 2 0)
    ∧ decodeSlot 2 0x0C594000 = .op 0 (.vmov .va 44 40) ∧ decodeSlot 2 0x0D053F80 = .op 0 (.vimm 2 1 0x3F80)
    ∧ decodeSlot 2 0b000_01110_0000101_000011_1111111_0000 = .op 0 (.vlane 5 3 127) ∧ decodeSlot 2 0x0F065002 = .op 0 (.vld 3 5 2)
    ∧ decodeSlot 2 0x100C5FFF = .op 0 (.vst 3 5 0xFFF) := by decide +kernel

theorem test_decode_vb :
    decodeSlot 3 0x01E220A0 = .op 0 (.fadd .vb 0x71 4 5) ∧ decodeSlot 3 0x040820A0 = .op 0 (.iadd .vb 4 4 5) ∧ decodeSlot 3 0x05678C80 = .op 0 (.fcmp .vb 3 15 6 4)
    ∧ decodeSlot 3 0x0722390C = .op 0 (.vsel .vb 17 7 8 3) ∧ decodeSlot 3 0x081E600C = .op 0 (.cvt .vb 15 12 0 3 0) ∧ decodeSlot 3 0x09594800 = .op 0 (.vmov .vb 44 41)
    ∧ decodeSlot 3 0x10300000 = .op 0 (.park 12) ∧ decodeSlot 3 0x11300000 = .op 0 (.unpark 12) ∧ decodeSlot 3 0x12020004 = .op 0 (.sfseed 1 0 4)
    ∧ decodeSlot 3 0x13040024 = .op 0 (.sfstep 2 0 1 4) ∧ decodeSlot 3 0x14318000 = .op 0 (.sftld 6 3) ∧ decodeSlot 3 0x150A1800 = .op 0 (.rowsum 5 3)
    ∧ decodeSlot 3 0x17123901 = .op 0 (.rowstat 9 7 8 1) ∧ decodeSlot 3 0x1C042004 = .op 0 (.vpfx 2 4 4) ∧ decodeSlot 3 0x1E080031 = .op 0 (.topkp 4 0 1 17) := by
  decide +kernel

theorem test_decode_mat :
    decodeSlot 4 0x01A20200 = .op 0 (.push 40 2 16) ∧ decodeSlot 4 0x02A60000 = .op 0 (.shift 41 2 0 0 0) ∧ decodeSlot 4 0x03C860F0 = .op 0 (.acc 50 3 7 1)
    ∧ decodeSlot 4 0x04E2AFD0 = .op 0 (.drain 113 2 191 0 1) ∧ decodeSlot 4 0x05A017E0 = .op 0 (.mclr 5 0 191) ∧ decodeSlot 4 0x06000000 = .op 0 .axch
    ∧ decodeSlot 4 0x07040000 = .op 0 (.acrd 2 0 0 0) ∧ decodeSlot 4 0x080C2140 = .op 0 (.acwr 3 1 10 0) := by decide +kernel

theorem test_decode_scn :
    decodeSlot 5 0x01500000 = .op 0 (.zop 10) ∧ decodeSlot 5 0x024A0000 = .op 0 (.sloc 1 0 0 40) ∧ decodeSlot 5 0x222A0000 = .op 1 (.sloc 0 1 0 40)
    ∧ decodeSlot 5 0x035A0000 = .op 0 (.sup 1 0 1 40) ∧ decodeSlot 5 0x044A0000 = .op 0 (.sdn 1 0 0 40) ∧ decodeSlot 5 0x054A0000 = .op 0 (.scry 1 0 0 40)
    ∧ decodeSlot 5 0x064A8000 = .op 0 (.sapl 1 0 0 42) ∧ decodeSlot 5 0x071C3140 = .op 0 (.zld 7 3 5) ∧ decodeSlot 5 0x080818A0 = .op 0 (.zrd 4 3 5)
    ∧ decodeSlot 5 0x09240000 = .op 0 (.zclr 9) ∧ decodeSlot 5 0x0A282000 = .op 0 (.zmov 10 2) ∧ decodeSlot 5 0x0B0C1080 = .op 0 (.step 3 1 2)
    ∧ decodeSlot 5 0x0B1010A0 = .op 0 (.stepSpec 4 1 2) ∧ decodeSlot 5 0x0C0A1920 = .op 0 (.sdot 5 3 9) := by decide +kernel

theorem test_decode_xfr :
    decodeSlot 6 0x01034800 = .op 0 (.copy 3 1 0 8) ∧ decodeSlot 6 0x01026400 = .op 0 (.copy 2 1 1 4) ∧ decodeSlot 6 0x04020600 = .op 0 (.scacc 2 0 0 6 0)
    ∧ decodeSlot 6 0x04037E00 = .op 0 (.scacc 3 1 1 30 0) ∧ decodeSlot 6 0x05050902 = .op 0 (.amo 5 9 2) ∧ decodeSlot 6 0x05050911 = .op 0 (.amo 5 9 17)
    ∧ decodeSlot 6 0x09030000 = .op 0 (.xwt 3) ∧ decodeSlot 6 0x0A0C9000 = .op 0 (.btx 3 9) ∧ decodeSlot 6 0x0B0A0000 = .op 0 (.bsel 5 0)
    ∧ decodeSlot 6 0x0C070C01 = .op 0 (.zsplCopy 7 12) ∧ decodeSlot 6 0x0D080C00 = .op 0 (.zfil 8 12) ∧ decodeSlot 6 0x0E0C9000 = .op 0 (.rld 6 9)
    ∧ decodeSlot 6 0x0F192000 = .op 0 (.rst 6 9) ∧ decodeSlot 6 0x10098C01 = .op 0 (.coll 9 2 0 12 1) ∧ decodeSlot 6 0x11040A00 = .op 0 (.smpq 4 10)
    ∧ decodeSlot 6 0x12050B01 = .op 0 (.flkq 5 11 1) ∧ decodeSlot 6 0x13060C00 = .op 0 (.wpset 6 12) ∧ decodeSlot 6 0x14070D00 = .op 0 (.wpclr 7 13)
    ∧ decodeSlot 6 0x15030E00 = .op 0 (.mskq 3 14) := by decide +kernel

theorem test_decode_brt :
    decodeSlot 7 0x00702040 = .op 0 (.tree 0 3 64 64 64) ∧ decodeSlot 7 0x00616040 = .op 0 (.tree 0 3 5 64 64) ∧ decodeSlot 7 0x40302040 = .op 0 (.tree 1 1 64 64 64)
    ∧ decodeSlot 7 0x802A0000 = .op 0 (.seq 0 1 2 1 0) ∧ decodeSlot 7 0x80030000 = .op 0 (.seq 0 0 0 1 1) ∧ decodeSlot 7 0x80000000 = .op 0 (.seq 0 0 0 0 0) := by
  decide +kernel

theorem test_decode_single :
    decodeSingle false 0x22C03FF8 = .op 0 (.addi 24 0 0x3FF8) ∧ decodeSingle false 0x2131B080 = .op 0 (.and_ 6 6 24) ∧ decodeSingle false 0x10000000 = .op 0 .eret
    ∧ decodeSingle false 0x1B000000 = .bad .notHere ∧ decodeSingle true 0x41000000 = .bad .notHere := by decide +kernel

theorem test_decode_colt :
    decodeSingle true 0x3852C000 = .op 0 (.samcfgPar 10 11) ∧ decodeSingle true 0x39611200 = .op 0 (.sample 12 4 9 0) ∧ decodeSingle true 0x3A681020 = .op 0 (.maskgSh 13 8)
    ∧ decodeSingle true 0x3B2D0C00 = .op 0 (.pdaadv 5 20 6) ∧ decodeSingle true 0x3C005E00 = .op 0 (.tokw 0 1 15) ∧ decodeSingle false 0x3C005E00 = .bad .notHere := by
  decide +kernel

theorem test_decode_queue_program :
    decodeQp 0x3D000010 = some (.qLdw 4 0 0 16) ∧ decodeQp 0x39400000 = some (.qLi 5 0) ∧ decodeQp 0x58010004 = some (.qLoop 0 4 4) ∧ decodeQp 0x48190002 = some (.qBne 6 4 2)
    ∧ decodeQp 0x64000003 = some (.qSkip 3) ∧ decodeQp 0x25540008 = some (.qAddi 5 5 8) ∧ decodeQp 0x60000000 = some .qDone := by decide +kernel

/-- The opcode table's numbering of a Colt's word and of a queue program's word, and the word that no machine of one word runs. -/
theorem test_decode_table_word :
    decodeTableWord 32 0x39611200 = some (.sample 12 4 9 0) ∧ decodeTableWord 32 0x60000000 = some .qDone ∧ decodeTableWord 16 0x60000000 = none := by
  decide +kernel

theorem test_place_word : step (State.reset.withFetchWord 32 0x39400005) = exec (.qLi 5 5) (State.reset.withFetchWord 32 0x39400005) := by rfl

/-! ### What each check of a field refuses -/

theorem test_wf_predicates :
    (Instr.scmp 5 1 2 0).wf = false ∧ (Instr.scmp 9 1 2 6).wf = false ∧ (Instr.scmpi 9 4 6 0).wf = false ∧ (Instr.plog 9 1 2 7).wf = false
    ∧ (Instr.pmov 0 1).wf = false ∧ (Instr.pseti 9 2).wf = false ∧ (Instr.steal 5).wf = false ∧ (Instr.trdy 2 4).wf = false ∧ (Instr.bart 3 3 4).wf = false := by decide

theorem test_wf_control :
    (Instr.btgt 4 0).wf = false ∧ (Instr.call 2048).wf = false ∧ (Instr.loop 6 2).wf = false ∧ (Instr.csrr 1 0x004).wf = false ∧ (Instr.csrw 1 0x060).wf = false
    ∧ (Instr.trap 0 1).wf = false ∧ (Instr.trap 15 1).wf = false ∧ (Instr.barv 0 5).wf = false ∧ (Instr.barw 6 5).wf = false ∧ (Instr.rstkr 25 16).wf = false := by decide

theorem test_wf_scalar :
    (Instr.add 32 1 2).wf = false ∧ (Instr.addi 2 0 16384).wf = false ∧ (Instr.lui 7 524288).wf = false ∧ (Instr.sel 9 10 9 128).wf = false ∧ (Instr.dsel 6 29).wf = false
    ∧ (Instr.ld 5 6 7 16).wf = false ∧ (Instr.st 5 6 4 16).wf = false ∧ (Instr.acq 6 7).wf = false ∧ (Instr.rel 7 7).wf = false ∧ (Instr.fence 6).wf = false
    ∧ (Instr.wcfg 5 0 3).wf = false ∧ (Instr.shw 6 3 1 2).wf = false ∧ (Instr.shw 6 0 1 11).wf = false ∧ (Instr.ksel 2 0).wf = false ∧ (Instr.xbc 9 4 3).wf = false := by decide

theorem test_wf_vectors :
    (Instr.fadd .va 48 1 0).wf = false ∧ (Instr.fadd .va 3 64 0).wf = false ∧ (Instr.fma .vb 7 1 2 32).wf = false ∧ (Instr.funa .va 7 1 7).wf = false
    ∧ (Instr.fcmp .va 2 1 0 8).wf = false ∧ (Instr.icmp .vb 2 1 0 6).wf = false ∧ (Instr.klog 3 1 2 7).wf = false ∧ (Instr.cvt .va 8 1 2 0 0).wf = false
    ∧ (Instr.cvt .va 8 1 0 3 1).wf = false ∧ (Instr.cvt .va 8 1 0 5 0).wf = false ∧ (Instr.vlane 5 3 128).wf = false ∧ (Instr.park 40).wf = false := by decide

theorem test_wf_rows :
    (Instr.sfseed 1 0 9).wf = false ∧ (Instr.sftld 6 2).wf = false ∧ (Instr.rowstat 5 3 1 0).wf = false ∧ (Instr.rowstat 5 3 1 2).wf = false
    ∧ (Instr.smxup 5 3 1 2).wf = false ∧ (Instr.smxup 5 3 1 4).wf = false ∧ (Instr.vshuf 5 3 1 5).wf = false ∧ (Instr.vshuf 5 3 1 8).wf = false
    ∧ (Instr.vpfx 2 4 5).wf = false ∧ (Instr.vred 2 4 9).wf = false ∧ (Instr.topkp 4 0 1 32).wf = false := by decide

theorem test_wf_engines :
    (Instr.push 40 2 96).wf = false ∧ (Instr.shift 41 0 0 0 1).wf = false ∧ (Instr.shift 41 2 0 192 0).wf = false ∧ (Instr.drain 2 2 191 0 1).wf = false
    ∧ (Instr.mclr 5 1 191).wf = false ∧ (Instr.acwr 3 8 10 0).wf = false ∧ (Instr.zop 29).wf = false ∧ (Instr.sloc 1 0 0 48).wf = false ∧ (Instr.sup 1 0 0 39).wf = false
    ∧ (Instr.zld 7 64 5).wf = false ∧ (Instr.stepSpec 63 1 2).wf = false ∧ (Instr.scacc 2 0 0 6 4).wf = false ∧ (Instr.amo 5 9 10).wf = false ∧ (Instr.amo 5 9 12).wf = false
    ∧ (Instr.pref 5 9 2).wf = false ∧ (Instr.coll 9 2 0 12 4).wf = false ∧ (Instr.flkq 5 11 2).wf = false ∧ (Instr.btx 3 64).wf = false
    ∧ (Instr.tree 0 0 0 0 0).wf = false ∧ (Instr.seq 0 0 6 0 0).wf = false ∧ (Instr.qLi 16 0).wf = false ∧ (Instr.qLoop 0 256 4).wf = false := by decide

/-! ### One operation, with the values of the spec's worked examples -/

/-- What the slots before have given the bundle: its entries' units, bundles, effects and flags. -/
def staged (r : Host.Outcome State Fault Refusal) : List (Nat × Nat × Eff × Nat) := match r with
  | .next t => match (t.core 0).issue with
    | some i => i.staged.map (fun e => (e.unit, e.due, e.eff, e.fl.toNat))
    | none => []
  | _ => []
/-- The effect on tile 0, its bundle and its flags. -/
def first (r : Host.Outcome State Fault Refusal) : Nat × Eff × Nat := ((staged r).headD (0, 0, .latch 0 {}, 0)).2
/-- Lanes 0 up, then one value in the lanes that are left. -/
def row (tag : Tag) (l : List Nat) (rest : Nat) : Vec :=
  { tag := tag, lanes := (l ++ List.replicate (128 - l.length) rest).map (BitVec.ofNat 32) }
/-- The lanes of a vector result at the positions given. -/
def lanesAt (e : Eff) (l : List Nat) : List Nat := match e with
  | .vec _ v _ => l.map v.lane
  | _ => []
/-- The destination of a vector result and the lanes it is enabled in. -/
def destOf (e : Eff) : Nat × Nat := match e with
  | .vec d _ en => (d, en.toNat)
  | _ => (0, 0)
def scalars (l : SMap DWord) (i : Instr) : Nat × Eff × Nat := first (exec i (demoT (if i = .scmpi 9 4 4 0x1FF then 0 else 1) { demoTile with x := l }))

/-- R173: the sum wraps; the high product of −1 and −1 is 0; R171's example: scmpi.ltu p9, x4, −1 is 0 only at the greatest value. -/
theorem test_scalar_corners :
    scalars [(1, BitVec.allOnes 64), (2, 1)] (.add 3 1 2) = (1, .xreg 3 0, 0)
    ∧ scalars [(1, BitVec.allOnes 64), (2, BitVec.allOnes 64)] (.mulh 3 1 2) = (3, .xreg 3 0, 0)
    ∧ scalars [(1, 0x8000000000000000), (2, 63)] (.sra 3 1 2) = (1, .xreg 3 (BitVec.allOnes 64), 0)
    ∧ scalars [(4, BitVec.allOnes 64)] (.scmpi 9 4 4 0x1FF) = (1, .pred 9 false, 0)
    ∧ scalars [(4, 0xFFFFFFFFFFFFFFFE)] (.scmpi 9 4 4 0x1FF) = (1, .pred 9 true, 0) := by decide +kernel

/-- The masked add of the chapter on vector registers: 1.0, −2.0, 3.0, NaN against 0.5, 0.5, 4.0, 1.0. -/
def maskedAdd : Tile :=
  { demoTile with v := [(0, row .fp32 [0x3F800000, 0xC0000000, 0x40400000, 0x7FC00000] 0x3F800000), (1, row .fp32 [0x3F000000, 0x3F000000, 0x40800000, 0x3F800000] 0x3F000000)]
                  k := [(2, 6)] }
theorem test_masked_compare : first (exec (.fcmp .va 2 1 0 4) (demoT 2 maskedAdd)) = (2, .mask 2 6, 1) := by decide +kernel
theorem test_masked_add :
    (let r := first (exec (.fadd .va 6 1 0) (demoT 2 { maskedAdd with curA := 2 }))
     lanesAt r.2.1 [1, 2] = [0xBFC00000, 0x40E00000] ∧ destOf r.2.1 = (6, 6) ∧ r.1 = 4 ∧ r.2.2 = 0) := by decide +kernel

/-- The chapter's row of identical values, 3.0 × 10^38: mean, variance, count and q; and a row sum that overflows. -/
theorem test_row_statistics :
    (let r := first (exec (.rowstat 5 3 0 0) (demoT 3 { demoTile with v := [(3, row .fp32 [] 0x7F61B1E6)] }))
     lanesAt r.2.1 [0, 1, 2, 3] = [0x7F61B1E6, 0, 0x43000000, 0] ∧ r.1 = 8 ∧ r.2.2 = 0) := by decide +kernel
theorem test_row_sum_overflows :
    (let r := first (exec (.rowsum 6 3) (demoT 3 { demoTile with v := [(3, row .fp32 [] 0x7F61B1E6)] }))
     lanesAt r.2.1 [0, 127] = [0x7F800000, 0x7F800000] ∧ r.1 = 6) := by decide +kernel
/-- Partial statistics (1.0, +0, 96.0, +0) and (3.0, +0, 32.0, +0) merge to 1.5, 0.75, 128.0, 96.0. -/
theorem test_statistics_merge :
    (let r := first (exec (.rowstat 9 7 8 1) (demoT 3 { demoTile with v := [(7, row .fp32 [0x3F800000, 0, 0x42C00000, 0] 0), (8, row .fp32 [0x40400000, 0, 0x42000000, 0] 0)] }))
     lanesAt r.2.1 [0, 1, 2, 3] = [0x3FC00000, 0x3F400000, 0x43000000, 0x42C00000] ∧ r.2.2 = 0) := by decide +kernel
/-- The masked top-2 of the same chapter: ids 9 and 12, then −1. -/
theorem test_top_two :
    (let r := first (exec (.topkp 4 0 1 17) (demoT 3 { demoTile with
        v := [(0, row .fp32 [0x40000000, 0x40A00000, 0x40A00000, 0x7FC00000, 0x80000000, 0x40E00000] 0xFF800000), (1, row .i32 [40, 12, 9, 3, 1, 7] 100)]
        k := [(3, 0xFFFFFFFFFFFFFFFFFFFFFFFFFFFFFF1F)], curB := 3 }))
     lanesAt r.2.1 [0, 1, 2, 4, 127] = [9, 12, 0xFFFFFFFF, 0xFFFFFFFF, 0xFFFFFFFF]) := by decide +kernel
/-- The hash of R376 at (5, 9, 14), as the chapter on the generation loop computes it. -/
theorem test_flock_hash : fhash 5 9 14 = 0x079A := by decide +kernel

/-- The cause and the information word that core 0 has. -/
def trapOf (r : Host.Outcome State Fault Refusal) : Nat × Nat := match r with
  | .next t => ((t.core 0).cause.toNat, (t.core 0).trapInfo.toNat)
  | _ => (0, 0)
/-- R344 and the chapter's misaligned load: die 1's address 0x101004 gives TRAPCAUSE 10 and TRAPINFO 0x10100421 where word 10 of the
handler store names a handler. -/
theorem test_misaligned_load :
    (let t := fun (v : DWord) => { demoTile with x := [(6, v)], tlb := [{ demoTlb with vbase := 0x100000, frame := 0x100000 }] }
     let s := { demoC demoTile { demoCore 1 with hstore := [(10, 16)] } with tiles := [(0, t 0x100000), (1, t 0x101004), (2, t 0x102000), (3, t 0x103000)] }
     trapOf (exec (.ld 5 6 3 0) s) = (10, 0x10100421)) := by decide +kernel

/-- The reset state's memory lists nothing, and a write of what an unlisted byte reads as leaves it so. -/
theorem test_memory_form : State.reset.mem = [] ∧ (State.reset.putMemNat 64 8 0).mem = [] ∧ (State.reset.putMemNat 64 8 258).mem = [(64, 2), (65, 1)] := by
  decide +kernel

/-! ### Witnesses

`wit_<statement>` has one part for each clause of the statement `Obligations.<statement>` that has hypotheses, in the order in
which the statement gives them: states and operands that meet all of them together. Where a clause's hypotheses name a function
of Config that no rule gives, the witness takes what it needs of it as a hypothesis of its own (below, after the others). -/

theorem wit_IntResults :
    (∃ s : State, ∃ k d a b : Nat, ∃ i : Issue, ∃ op : Instr, ∃ lat : Nat, ∃ f : DWord → DWord → DWord, ∃ va vb : Nat → DWord, ((op, lat, f) ∈ ([(.add d a b, 1, fun x y => x + y), (.sub d a b, 1, fun x y => x - y), (.mul d a b, 3, fun x y => x * y),
      (.mulh d a b, 3, fun x y => BitVec.ofInt 64 (x.toInt * y.toInt / 2 ^ 64)),
      (.and_ d a b, 1, fun x y => x &&& y), (.or_ d a b, 1, fun x y => x ||| y), (.xor_ d a b, 1, fun x y => x ^^^ y),
      (.shl d a b, 1, fun x y => x <<< (y.toNat % 64)), (.shr d a b, 1, fun x y => x >>> (y.toNat % 64)),
      (.sra d a b, 1, fun x y => x.sshiftRight (y.toNat % 64)),
      (.min_ d a b, 1, fun x y => if x.toInt ≤ y.toInt then x else y),
      (.max_ d a b, 1, fun x y => if y.toInt ≤ x.toInt then x else y)] : List (Instr × Nat × (DWord → DWord → DWord)))) ∧ InSlot s k 1 i ∧ (∀ e ∈ i.dies 1, rx (look s k 1 e) a = .ok (va e)) ∧ (∀ e ∈ i.dies 1, rx (look s k 1 e) b = .ok (vb e)))
    ∧ (∃ s : State, ∃ k d a m : Nat, ∃ i : Issue, ∃ va : Nat → DWord, InSlot s k 1 i ∧ (∀ e ∈ i.dies 1, rx (look s k 1 e) a = .ok (va e)))
    ∧ (∃ s : State, ∃ k d m : Nat, ∃ i : Issue, InSlot s k 1 i)
    ∧ (∃ s : State, ∃ k d a b p : Nat, ∃ i : Issue, ∃ va vb : Nat → DWord, ∃ vp : Nat → Bool, InSlot s k 1 i ∧ (∀ e ∈ i.dies 1, rx (look s k 1 e) a = .ok (va e)) ∧ (∀ e ∈ i.dies 1, rx (look s k 1 e) b = .ok (vb e)) ∧ (∀ e ∈ i.dies 1, rp (look s k 1 e) p = .ok (vp e)))
    ∧ (∃ s : State, ∃ k d a : Nat, ∃ i : Issue, ∃ va : Nat → DWord, InSlot s k 1 i ∧ (∀ e ∈ i.dies 1, rx (look s k 1 e) (a + (look s k 1 e).die) = .ok (va e)))
    ∧ (∃ s : State, ∃ k d a e : Nat, ∃ i : Issue, k < 64 ∧ s.turn = .core k ∧ (s.core k).handler = none ∧ (s.core k).issue = some i ∧ i.brtDone = true ∧ i.slot = 1 ∧ e ∈ i.dies 1 ∧ rx (look s k 1 e) (a + (look s k 1 e).die) = .error .wait)
    ∧ (∃ s : State, ∃ e : Entry, ∃ d : Nat, ∃ v : DWord, e.eff = .xreg d v ∧ e.fl = 0 ∧ e.mx = 0) := by
  refine ⟨?_, ?_, ?_, ?_, ?_, ?_, ?_⟩
  · refine ⟨(demo 1), 0, 1, 1, 1, (demoIssue 1), ?_⟩
    apply Exists.intro
    apply Exists.intro
    apply Exists.intro
    apply Exists.intro
    apply Exists.intro
    apply And.intro
    · exact .head _
    apply And.intro
    · exact ⟨by decide +kernel, rfl, rfl, rfl, rfl, rfl, by decide +kernel⟩
    apply And.intro
    · apply each
      intro e he
      apply okEach (d := 0) e he; decide +kernel
    apply each
    intro e he
    apply okEach (d := 0) e he; decide +kernel
  · refine ⟨(demo 1), 0, 1, 1, 1, (demoIssue 1), ?_⟩
    apply Exists.intro
    apply And.intro
    · exact ⟨by decide +kernel, rfl, rfl, rfl, rfl, rfl, by decide +kernel⟩
    apply each
    intro e he
    apply okEach (d := 0) e he; decide +kernel
  · refine ⟨(demo 1), 0, 1, 1, (demoIssue 1), ?_⟩
    exact ⟨by decide +kernel, rfl, rfl, rfl, rfl, rfl, by decide +kernel⟩
  · refine ⟨(demo 1), 0, 1, 1, 1, 1, (demoIssue 1), ?_⟩
    apply Exists.intro
    apply Exists.intro
    apply Exists.intro
    apply And.intro
    · exact ⟨by decide +kernel, rfl, rfl, rfl, rfl, rfl, by decide +kernel⟩
    apply And.intro
    · apply each
      intro e he
      apply okEach (d := 0) e he; decide +kernel
    apply And.intro
    · apply each
      intro e he
      apply okEach (d := 0) e he; decide +kernel
    apply each
    intro e he
    apply okEach (d := false) e he; decide +kernel
  · refine ⟨(demo 1), 0, 1, 1, (demoIssue 1), ?_⟩
    apply Exists.intro
    apply And.intro
    · exact ⟨by decide +kernel, rfl, rfl, rfl, rfl, rfl, by decide +kernel⟩
    apply each
    intro e he
    apply okEach (d := 0) e he; decide +kernel
  · refine ⟨(demoC demoTile { demoCore 1 with inflight := [{ due := 1, issue := 0, slot := 1, unit := 1, eff := .load 2 64 8 false false, inter := true, pend := true }] }), 0, 1, 1, 1, (demoIssue 1), ?_⟩
    apply And.intro
    · decide +kernel
    apply And.intro
    · decide +kernel
    apply And.intro
    · decide +kernel
    apply And.intro
    · decide +kernel
    apply And.intro
    · decide +kernel
    apply And.intro
    · decide +kernel
    apply And.intro
    · decide +kernel
    decide +kernel
  · refine ⟨(demo 1), ({ due := 1, issue := 0, slot := 1, unit := 0, eff := .xreg 1 0 } : Entry), 1, 0, ?_⟩
    apply And.intro
    · decide +kernel
    apply And.intro
    · decide +kernel
    decide +kernel

theorem wit_TensorCommands :
    (∃ s : State, ∃ k node sh sw x : Nat, ∃ i : Issue, ∃ D : Nat → List Byte, ∃ da : Nat → Nat, ∃ xs xd : Nat → List (Nat × Nat), InSlot s k 6 i ∧ (∀ e ∈ i.dies 6, let c := look s k 6 e
      let A := (shapePair c sh sw).1
      let B := (shapePair c sh sw).2
      let sp := dfield (D e) 16 1
      Opens c node x (D e) (da e) ∧ headerOk (D e) true = true
      ∧ tensorOk A = true ∧ tensorOk B = true ∧ sf A 8 = sf B 8
      ∧ (∀ j < 4, runsCount (dimShare A e j) = runsCount (dimShare B e j))
      ∧ tensorCheck c A (sp.testBit 0) 0 = .ok (xs e) ∧ tensorCheck c B (sp.testBit 1) 1 = .ok (xd e)
      ∧ (sp.testBit 0 = true → piecesBanks (dBANKS (D e)) (sharePieces A e) = .ok ())
      ∧ (sp.testBit 1 = true → piecesBanks (dBANKS (D e)) (sharePieces B e) = .ok ())))
    ∧ (∃ s : State, ∃ k node sh sw x : Nat, ∃ i : Issue, ∃ op : Instr, ∃ gath : Bool, ∃ D : Nat → List Byte, ∃ da : Nat → Nat, ∃ xs xd : Nat → List (Nat × Nat), (op, gath) ∈ ([(.gath node sh sw x, true), (.scat node sh sw x, false)] : List (Instr × Bool)) ∧ InSlot s k 6 i ∧ (∀ e ∈ i.dies 6, let c := look s k 6 e
      let A := (shapePair c sh sw).1
      let B := (shapePair c sh sw).2
      let n := dfield (D e) 20 4
      let ra := if emptyRows A then [] else allRows A (if gath then 0 else n)
      let rb := if emptyRows B then [] else allRows B (if gath then n else 0)
      let src := (dSPACE (D e)).testBit 0
      let dst := (dSPACE (D e)).testBit 1
      Opens c node x (D e) (da e) ∧ headerOk (D e) false = true ∧ 1 ≤ n ∧ n ≤ 65536
      ∧ tensorOk A = true ∧ tensorOk B = true ∧ sf A 8 = sf B 8
      ∧ (∀ m ∈ [A, B], sf m 3 = 1 ∧ sf m 4 = 1 ∧ (sf m 10).toNat % 8 = 7)
      ∧ dIDX (D e) + 4 * n ≤ 2 ^ 22 ∧ piecesOk src 0 ra = .ok () ∧ piecesOk dst 1 rb = .ok ()
      ∧ tensorAligned A = true ∧ tensorAligned B = true
      ∧ (if src then xs e = [] ∧ piecesBanks (dBANKS (D e)) ra = .ok () else piecesXlate c 0 ra = .ok (xs e))
      ∧ (if dst then xd e = [] ∧ piecesBanks (dBANKS (D e)) rb = .ok () else piecesXlate c 1 rb = .ok (xd e))
      ∧ banksCover (dBANKS (D e)) (dIDX (D e)) (4 * n) = .ok () ∧ banksCover (dBANKS (D e)) (da e + 28) 4 = .ok ()))
    ∧ (∃ s : State, ∃ k node sh sw x fn : Nat, ∃ i : Issue, ∃ D : Nat → List Byte, ∃ da : Nat → Nat, InSlot s k 6 i ∧ (∀ e ∈ i.dies 6, let c := look s k 6 e
      let m := shapeAfter c.t (8 + sh) (8 + sh) sw
      let idx := dfield (D e) 16 4
      let n := dfield (D e) 20 4
      let val := dfield (D e) 24 4
      let es := elemBits (sf m 8).toNat / 8
      let base := (sf m 0).toNat
      Opens c node x (D e) (da e) ∧ headerOk (D e) false = true ∧ (sf m 8).toNat ≤ 2 ∧ sf m 2 = 1 ∧ sf m 3 = 1 ∧ sf m 4 = 1
      ∧ 1 ≤ n ∧ n ≤ 65536 ∧ 4 ∣ idx ∧ es ∣ val ∧ es ∣ base
      ∧ idx + 4 * n ≤ 2 ^ 22 ∧ val + es * n ≤ 2 ^ 22 ∧ base + es * (sf m 1).toNat ≤ 2 ^ 22
      ∧ banksCover (dBANKS (D e)) idx (4 * n) = .ok () ∧ banksCover (dBANKS (D e)) val (es * n) = .ok ()
      ∧ banksCover (dBANKS (D e)) base (es * (sf m 1).toNat) = .ok () ∧ banksCover (dBANKS (D e)) (da e + 28) 4 = .ok ())) := by
  refine ⟨?_, ?_, ?_⟩
  · refine ⟨(demo 6), 0, 1, 1, 1, 1, (demoIssue 6), (fun _ => demoTile.spadBytes 64 32), (fun _ => 64), ?_⟩
    apply Exists.intro
    apply Exists.intro
    apply And.intro
    · exact ⟨by decide +kernel, rfl, rfl, rfl, rfl, rfl, by decide +kernel⟩
    apply each
    intro e he
    apply And.intro
    · revert e; decide +kernel
    apply And.intro
    · revert e; decide +kernel
    apply And.intro
    · revert e; decide +kernel
    apply And.intro
    · revert e; decide +kernel
    apply And.intro
    · revert e; decide +kernel
    apply And.intro
    · revert e; decide +kernel
    apply And.intro
    · apply okEach (d := []) e he; decide +kernel
    apply And.intro
    · apply okEach (d := []) e he; decide +kernel
    apply And.intro
    · revert e; decide +kernel
    revert e; decide +kernel
  · refine ⟨(demoT 6 { demoTile with spad := [(68, 1), (80, 3), (84, 1)] }), 0, 1, 1, 1, 1, (demoIssue 6), ?_⟩
    apply Exists.intro
    apply Exists.intro
    refine ⟨(fun _ => ({ demoTile with spad := [(68, 1), (80, 3), (84, 1)] } : Tile).spadBytes 64 32), (fun _ => 64), (fun _ => []), (fun _ => []), ?_⟩
    apply And.intro
    · exact .head _
    apply And.intro
    · exact ⟨by decide +kernel, rfl, rfl, rfl, rfl, rfl, by decide +kernel⟩
    apply each
    intro e he
    apply And.intro
    · revert e; decide +kernel
    apply And.intro
    · revert e; decide +kernel
    apply And.intro
    · revert e; decide +kernel
    apply And.intro
    · revert e; decide +kernel
    apply And.intro
    · revert e; decide +kernel
    apply And.intro
    · revert e; decide +kernel
    apply And.intro
    · revert e; decide +kernel
    apply And.intro
    · revert e; decide +kernel
    apply And.intro
    · revert e; decide +kernel
    apply And.intro
    · revert e; decide +kernel
    apply And.intro
    · revert e; decide +kernel
    apply And.intro
    · revert e; decide +kernel
    apply And.intro
    · revert e; decide +kernel
    apply And.intro
    · revert e; decide +kernel
    apply And.intro
    · revert e; decide +kernel
    apply And.intro
    · revert e; decide +kernel
    revert e; decide +kernel
  · refine ⟨(demoT 6 { demoTile with spad := [(68, 1), (84, 1)] }), 0, 1, 1, 1, 1, 1, (demoIssue 6), (fun _ => ({ demoTile with spad := [(68, 1), (84, 1)] } : Tile).spadBytes 64 32), (fun _ => 64), ?_⟩
    apply And.intro
    · exact ⟨by decide +kernel, rfl, rfl, rfl, rfl, rfl, by decide +kernel⟩
    apply each
    intro e he
    apply And.intro
    · revert e; decide +kernel
    apply And.intro
    · revert e; decide +kernel
    apply And.intro
    · revert e; decide +kernel
    apply And.intro
    · revert e; decide +kernel
    apply And.intro
    · revert e; decide +kernel
    apply And.intro
    · revert e; decide +kernel
    apply And.intro
    · revert e; decide +kernel
    apply And.intro
    · revert e; decide +kernel
    apply And.intro
    · revert e; decide +kernel
    apply And.intro
    · revert e; decide +kernel
    apply And.intro
    · revert e; decide +kernel
    apply And.intro
    · revert e; decide +kernel
    apply And.intro
    · revert e; decide +kernel
    apply And.intro
    · revert e; decide +kernel
    apply And.intro
    · revert e; decide +kernel
    apply And.intro
    · revert e; decide +kernel
    apply And.intro
    · revert e; decide +kernel
    revert e; decide +kernel

theorem wit_AddressCommands :
    (∃ s : State, ∃ k node x fn : Nat, ∃ i : Issue, ∃ D : Nat → List Byte, ∃ da : Nat → Nat, ∃ xl : Nat → List (Nat × Nat), InSlot s k 6 i ∧ (∀ e ∈ i.dies 6, let c := look s k 6 e
      let a := dfield (D e) 16 8
      let b := dfield (D e) 24 4
      let size := if fn.testBit 4 then 4 else 8
      Opens c node x (D e) (da e) ∧ headerOk (D e) false = true ∧ 8 ∣ b ∧ b + 24 ≤ 2 ^ 22
      ∧ banksCover (dBANKS (D e)) b 24 = .ok () ∧ a < 2 ^ 56 ∧ size ∣ a
      ∧ xlateRange c a size (if fn % 16 = 11 then 6 else 5) = .ok (xl e) ))
    ∧ (∃ s : State, ∃ k node x : Nat, ∃ i : Issue, ∃ op : Instr, ∃ D : Nat → List Byte, ∃ da : Nat → Nat, ∃ xl : Nat → List (Nat × Nat), op ∈ ([.rgwb node x, .rginv node x] : List Instr) ∧ InSlot s k 6 i ∧ (∀ e ∈ i.dies 6, let c := look s k 6 e
      let n := dfield (D e) 24 4
      Opens c node x (D e) (da e) ∧ headerOk (D e) false = true ∧ 1 ≤ n ∧ n ≤ 2 ^ 31
      ∧ xlateRange c (dfield (D e) 16 8) n 0 = .ok (xl e) ))
    ∧ (∃ s : State, ∃ k node x fn : Nat, ∃ i : Issue, ∃ D : Nat → List Byte, ∃ da : Nat → Nat, InSlot s k 6 i ∧ (∀ e ∈ i.dies 6, let c := look s k 6 e
      let n := dfield (D e) 24 4
      Opens c node x (D e) (da e) ∧ headerOk (D e) false = true ∧ 1 ≤ n ∧ n ≤ 2 ^ 31))
    ∧ (∃ s : State, ∃ k node x kind : Nat, ∃ i : Issue, ∃ op : Instr, ∃ D : Nat → List Byte, ∃ da : Nat → Nat, ∃ xl : Nat → List (Nat × Nat), (op, kind) ∈ ([(.zspl node x, 4), (.zsplCopy node x, 4), (.zfil node x, 3)] : List (Instr × Nat)) ∧ InSlot s k 6 i ∧ (∀ e ∈ i.dies 6, let c := look s k 6 e
      let a := dfield (D e) 16 8
      let nz := dfield (D e) 25 1
      Opens c node x (D e) (da e) ∧ headerOk (D e) false = true ∧ dfield (D e) 24 1 + nz ≤ 63
      ∧ a + 32768 * (nz + 1) ≤ 2 ^ 56 ∧ 512 ∣ a ∧ xlateRange c a (32768 * (nz + 1)) kind = .ok (xl e))) := by
  refine ⟨?_, ?_, ?_, ?_⟩
  · refine ⟨(demo 6), 0, 1, 1, 1, (demoIssue 6), (fun _ => demoTile.spadBytes 64 32), (fun _ => 64), ?_⟩
    apply Exists.intro
    apply And.intro
    · exact ⟨by decide +kernel, rfl, rfl, rfl, rfl, rfl, by decide +kernel⟩
    apply each
    intro e he
    apply And.intro
    · revert e; decide +kernel
    apply And.intro
    · revert e; decide +kernel
    apply And.intro
    · revert e; decide +kernel
    apply And.intro
    · revert e; decide +kernel
    apply And.intro
    · revert e; decide +kernel
    apply And.intro
    · revert e; decide +kernel
    apply And.intro
    · revert e; decide +kernel
    apply okEach (d := []) e he; decide +kernel
  · refine ⟨(demoT 6 { demoTile with spad := [(68, 1), (88, 1)] }), 0, 1, 1, (demoIssue 6), ?_⟩
    apply Exists.intro
    refine ⟨(fun _ => ({ demoTile with spad := [(68, 1), (88, 1)] } : Tile).spadBytes 64 32), (fun _ => 64), ?_⟩
    apply Exists.intro
    apply And.intro
    · exact .head _
    apply And.intro
    · exact ⟨by decide +kernel, rfl, rfl, rfl, rfl, rfl, by decide +kernel⟩
    apply each
    intro e he
    apply And.intro
    · revert e; decide +kernel
    apply And.intro
    · revert e; decide +kernel
    apply And.intro
    · revert e; decide +kernel
    apply And.intro
    · revert e; decide +kernel
    apply okEach (d := []) e he; decide +kernel
  · refine ⟨(demoT 6 { demoTile with spad := [(68, 1), (88, 1)] }), 0, 1, 1, 1, (demoIssue 6), (fun _ => ({ demoTile with spad := [(68, 1), (88, 1)] } : Tile).spadBytes 64 32), (fun _ => 64), ?_⟩
    apply And.intro
    · exact ⟨by decide +kernel, rfl, rfl, rfl, rfl, rfl, by decide +kernel⟩
    apply each
    intro e he
    apply And.intro
    · revert e; decide +kernel
    apply And.intro
    · revert e; decide +kernel
    apply And.intro
    · revert e; decide +kernel
    revert e; decide +kernel
  · refine ⟨(demo 6), 0, 1, 1, ?_⟩
    apply Exists.intro
    refine ⟨(demoIssue 6), ?_⟩
    apply Exists.intro
    refine ⟨(fun _ => demoTile.spadBytes 64 32), (fun _ => 64), ?_⟩
    apply Exists.intro
    apply And.intro
    · exact .head _
    apply And.intro
    · exact ⟨by decide +kernel, rfl, rfl, rfl, rfl, rfl, by decide +kernel⟩
    apply each
    intro e he
    apply And.intro
    · revert e; decide +kernel
    apply And.intro
    · revert e; decide +kernel
    apply And.intro
    · revert e; decide +kernel
    apply And.intro
    · revert e; decide +kernel
    apply And.intro
    · revert e; decide +kernel
    apply okEach (d := []) e he; decide +kernel

theorem wit_StateSlotOperations :
    (∃ s : State, ∃ k a z row : Nat, ∃ i : Issue, ∃ A : Nat → Src, InSlot s k 5 i ∧ (∀ e ∈ i.dies 5, slotFree (look s k 5 e) z = .ok () ∧ readNonEmpty (look s k 5 e) a = .ok (A e)))
    ∧ (∃ s : State, ∃ k d z row : Nat, ∃ i : Issue, ∃ ps : Nat → List Post, InSlot s k 5 i ∧ (∀ e ∈ i.dies 5, let c := look s k 5 e
      slotFree c z = .ok () ∧ dstPosts c d 3 (vecOfBytes (nth .empty [.fp32, .bf16, .i32] c.t.ldt) (slotBytes c.t z (512 * row) 512)) allOnes = .ok (ps e)))
    ∧ (∃ s : State, ∃ k z : Nat, ∃ i : Issue, InSlot s k 5 i ∧ (∀ e ∈ i.dies 5, slotFree (look s k 5 e) z = .ok ()))
    ∧ (∃ s : State, ∃ k z y : Nat, ∃ i : Issue, InSlot s k 5 i ∧ (∀ e ∈ i.dies 5, slotFree (look s k 5 e) y = .ok () ∧ slotFree (look s k 5 e) z = .ok ()))
    ∧ (∃ s : State, ∃ k z zt a b : Nat, ∃ i : Issue, ∃ op : Instr, ∃ f : Nat → FFmt, ∃ r w : Nat → Nat, ∃ prog : Nat → List Word, ∃ A B : Nat → Src, (op, zt) ∈ ([(.step z a b, z), (.stepSpec z a b, z + 1)] : List (Instr × Nat)) ∧ InSlot s k 5 i ∧ (∀ e ∈ i.dies 5, let c := look s k 5 e
      stepShape c.t = some (f e, r e, w e) ∧ (r e = 1 ∨ w e ≤ 64) ∧ c.t.prog = some (prog e)
      ∧ slotFree c z = .ok () ∧ slotFree c zt = .ok () ∧ readAs c a .fp32 (fun j => decide (j < w e)) = .ok (A e)
      ∧ readAs c b .fp32 (fun j => decide (j < w e) || (decide (1 < r e) && decide (64 ≤ j) && decide (j < 64 + r e))) = .ok (B e)))
    ∧ (∃ s : State, ∃ k d z a : Nat, ∃ i : Issue, ∃ f : Nat → FFmt, ∃ r w : Nat → Nat, ∃ A : Nat → Src, ∃ ps : Nat → List Post, InSlot s k 5 i ∧ (∀ e ∈ i.dies 5, let c := look s k 5 e
      let val : Nat → Nat → Fl := fun p j => if f e = .bf16 then bf2f (slotVal c.t z (f e) p j) else (slotVal c.t z (f e) p j, 0)
      let lane : Nat → Fl := fun j =>
      if w e ≤ j then (0, 0)
      else if r e = 1 then ((mul32 ((A e).v.lane j) (val 0 j).1).1, (mul32 ((A e).v.lane j) (val 0 j).1).2 ||| (val 0 j).2)
      else (List.range (r e)).foldl (fun (acc : Fl) p =>
      ((fma32 ((A e).v.lane p) (val p j).1 acc.1).1, acc.2 ||| (fma32 ((A e).v.lane p) (val p j).1 acc.1).2 ||| (val p j).2)) (0, 0)
      let lanes := (List.range 128).map lane
      stepShape c.t = some (f e, r e, w e) ∧ slotFree c z = .ok ()
      ∧ readAs c a .fp32 (fun j => decide (j < if r e = 1 then w e else r e)) = .ok (A e)
      ∧ dstPosts c d 5 (Vec.mk' .fp32 (fun j => (nth (0, 0) lanes j).1)) allOnes (lanes.foldl (fun g x => g ||| x.2) 0 ||| (A e).fl) = .ok (ps e)))
    ∧ (∃ s : State, ∃ k x : Nat, ∃ i : Issue, ∃ v : Nat → Nat → DWord, InSlot s k 5 i ∧ (∀ e ∈ i.dies 5, (∀ j < 4, rx (look s k 5 e) (x + j) = .ok (v e j))
      ∧ progValid ((List.range 4).flatMap (fun j => [(v e j).extractLsb' 0 32, (v e j).extractLsb' 32 32])) = true))
    ∧ (∃ z : Slot, ∃ cells : List (Nat × Byte), ∃ a : Nat, (∀ c ∈ cells, c.1 ≠ a)) := by
  refine ⟨?_, ?_, ?_, ?_, ?_, ?_, ?_, ?_⟩
  · refine ⟨(demo 5), 0, 1, 1, 1, (demoIssue 5), ?_⟩
    apply Exists.intro
    apply And.intro
    · exact ⟨by decide +kernel, rfl, rfl, rfl, rfl, rfl, by decide +kernel⟩
    apply each
    intro e he
    apply And.intro
    · revert e; decide +kernel
    apply okEach (d := src0) e he; decide +kernel
  · refine ⟨(demo 5), 0, 1, 1, 1, (demoIssue 5), ?_⟩
    apply Exists.intro
    apply And.intro
    · exact ⟨by decide +kernel, rfl, rfl, rfl, rfl, rfl, by decide +kernel⟩
    apply each
    intro e he
    apply And.intro
    · revert e; decide +kernel
    apply okEach (d := []) e he; decide +kernel
  · refine ⟨(demo 5), 0, 1, (demoIssue 5), ?_⟩
    apply And.intro
    · exact ⟨by decide +kernel, rfl, rfl, rfl, rfl, rfl, by decide +kernel⟩
    apply each
    intro e he
    revert e; decide +kernel
  · refine ⟨(demo 5), 0, 1, 1, (demoIssue 5), ?_⟩
    apply And.intro
    · exact ⟨by decide +kernel, rfl, rfl, rfl, rfl, rfl, by decide +kernel⟩
    apply each
    intro e he
    apply And.intro
    · revert e; decide +kernel
    revert e; decide +kernel
  · refine ⟨(demo 5), 0, 1, ?_⟩
    apply Exists.intro
    refine ⟨1, 1, (demoIssue 5), ?_⟩
    apply Exists.intro
    refine ⟨(fun _ => .fp32), (fun _ => 1), (fun _ => 1), (fun _ => demoProg), ?_⟩
    apply Exists.intro
    apply Exists.intro
    apply And.intro
    · exact .head _
    apply And.intro
    · exact ⟨by decide +kernel, rfl, rfl, rfl, rfl, rfl, by decide +kernel⟩
    apply each
    intro e he
    apply And.intro
    · revert e; decide +kernel
    apply And.intro
    · revert e; decide +kernel
    apply And.intro
    · revert e; decide +kernel
    apply And.intro
    · revert e; decide +kernel
    apply And.intro
    · revert e; decide +kernel
    apply And.intro
    · apply okEach (d := src0) e he; decide +kernel
    apply okEach (d := src0) e he; decide +kernel
  · refine ⟨(demo 5), 0, 1, 1, 1, (demoIssue 5), (fun _ => .fp32), (fun _ => 1), (fun _ => 1), ?_⟩
    apply Exists.intro
    apply Exists.intro
    apply And.intro
    · exact ⟨by decide +kernel, rfl, rfl, rfl, rfl, rfl, by decide +kernel⟩
    apply each
    intro e he
    apply And.intro
    · revert e; decide +kernel
    apply And.intro
    · revert e; decide +kernel
    apply And.intro
    · apply okEach (d := src0) e he; decide +kernel
    apply okEach (d := []) e he; decide +kernel
  · refine ⟨(demoT 5 { demoTile with x := [(1, 0x3C10000038100000)] }), 0, 1, (demoIssue 5), (fun _ j => if j = 0 then 0x3C10000038100000 else 0), ?_⟩
    apply And.intro
    · exact ⟨by decide +kernel, rfl, rfl, rfl, rfl, rfl, by decide +kernel⟩
    apply each
    intro e he
    apply And.intro
    · revert e; decide +kernel
    revert e; decide +kernel
  · refine ⟨{}, [(64, 7)], 1, ?_⟩
    decide +kernel

theorem wit_ScanOperations :
    (∃ s : State, ∃ k sh sw rev a : Nat, ∃ i : Issue, ∃ op : Instr, ∃ X : Nat → ScanSet, ∃ prog : Nat → List Word, ∃ ps : Nat → List Post, ∃ sloc : Bool, (op, sloc) ∈ ([(.sloc sh sw rev a, true), (.sapl sh sw rev a, false)] : List (Instr × Bool)) ∧ InSlot s k 5 i ∧ (∀ e ∈ i.dies 5, let c := look s k 5 e
      let z := if sloc then (X e).zs else (X e).zx
      scanPrep c sh sw rev (if sloc then none else some .down) = .ok (X e, prog e)
      ∧ slotFree c z = .ok () ∧ slotFree c (z + 1) = .ok ()
      ∧ scanStream c (X e) (prog e) sloc a (if sloc then 1 + progLen (prog e) else 1)
      (if sloc then none else readPair c.t c.t.xabs (X e).zx (X e)) = .ok (ps e)))
    ∧ (∃ s : State, ∃ k sh sw rev a : Nat, ∃ i : Issue, ∃ op : Instr, ∃ ph : TreePhase, ∃ X : Nat → ScanSet × List Word, (op, ph) ∈ ([(.sup sh sw rev a, .sup), (.scry sh sw rev a, .scry), (.sdn sh sw rev a, .sdn)] : List (Instr × TreePhase)) ∧ InSlot s k 5 i ∧ (∀ e ∈ i.dies 5, treeLook ph sh sw rev (look s k 5 e) = .ok (X e)))
    ∧ (∃ s : State, ∃ k : Nat, ∃ a : AtPhase, ∃ l : List AtPhase, phaseOf s k = a :: l ∧ spoiledHere s k = [] ∧ overlapping s k = [] ∧ gather s a.ph 65 [k] = none)
    ∧ (∃ s : State, ∃ k k' : Nat, ∃ a : AtPhase, ∃ l ats : List AtPhase, ∃ i' : Issue, phaseOf s k = a :: l ∧ spoiledHere s k = [] ∧ overlapping s k = [] ∧ gather s a.ph 65 [k] = some ats ∧ mismatched ats = [] ∧ claims s ats = [] ∧ k' ∈ ats.map (fun b => b.k) ∧ (s.core k').issue = some i')
    ∧ (∃ s : State, ∃ k : Nat, s.hub.stalled = false)
    ∧ (∃ s : State, ∃ k : Nat, ∃ a : AtPhase, ∃ l ats : List AtPhase, phaseOf s k = a :: l ∧ spoiledHere s k = [] ∧ overlapping s k = [] ∧ gather s a.ph 65 [k] = some ats ∧ mismatched ats = [] ∧ claims s ats ≠ []) := by
  refine ⟨?_, ?_, ?_, ?_, ?_, ?_⟩
  · refine ⟨(demo 5), 0, 1, 1, 1, 40, (demoIssue 5), ?_⟩
    apply Exists.intro
    apply Exists.intro
    apply Exists.intro
    apply Exists.intro
    apply Exists.intro
    apply And.intro
    · exact .head _
    apply And.intro
    · exact ⟨by decide +kernel, rfl, rfl, rfl, rfl, rfl, by decide +kernel⟩
    apply each
    intro e he
    apply And.intro
    · apply okEach (d := (scan0, [])) e he; decide +kernel
    apply And.intro
    · revert e; decide +kernel
    apply And.intro
    · revert e; decide +kernel
    apply okEach (d := []) e he; decide +kernel
  · refine ⟨(demoT 5 { demoTile with scanSt := .local, settings := [0, 65536, 16777216, 512, 1, 1] }), 0, 1, 1, 1, 1, (demoIssue 5), ?_⟩
    apply Exists.intro
    apply Exists.intro
    apply Exists.intro
    apply And.intro
    · exact .head _
    apply And.intro
    · exact ⟨by decide +kernel, rfl, rfl, rfl, rfl, rfl, by decide +kernel⟩
    apply each
    intro e he
    apply okEach (d := (scan0, [])) e he; decide +kernel
  · refine ⟨(demoC { demoTile with scanSt := .idle, settings := [0, 65536, 16777216, 512, 1, 0] } { demoCore 5 with issue := some supIssue }), 0, ?_⟩
    apply Exists.intro
    apply Exists.intro
    apply And.intro
    · apply consEq (d := phase0)
      decide +kernel
    apply And.intro
    · decide +kernel
    apply And.intro
    · decide +kernel
    decide +kernel
  · refine ⟨(demoC { demoTile with scanSt := .local, settings := [0, 65536, 16777216, 512, 1, 0] } { demoCore 5 with issue := some supIssue }), 0, 0, ?_⟩
    apply Exists.intro
    apply Exists.intro
    apply Exists.intro
    refine ⟨supIssue, ?_⟩
    apply And.intro
    · apply consEq (d := phase0)
      decide +kernel
    apply And.intro
    · decide +kernel
    apply And.intro
    · decide +kernel
    apply And.intro
    · apply someEq (d := (default))
      decide +kernel
    apply And.intro
    · decide +kernel
    apply And.intro
    · decide +kernel
    apply And.intro
    · decide +kernel
    decide +kernel
  · refine ⟨(demo 1), 0, ?_⟩
    decide +kernel
  · refine ⟨claimed, 0, ?_⟩
    apply Exists.intro
    apply Exists.intro
    apply Exists.intro
    apply And.intro
    · apply consEq (d := phase0)
      decide +kernel
    apply And.intro
    · decide +kernel
    apply And.intro
    · decide +kernel
    apply And.intro
    · apply someEq (d := ([] : List AtPhase))
      decide +kernel
    apply And.intro
    · decide +kernel
    decide +kernel

theorem wit_BenchAndRemoteOperations :
    (∃ s : State, ∃ k a tile n : Nat, ∃ i : Issue, ∃ A : Nat → Src, InSlot s k 6 i ∧ (s.core k).benchFrom = some n ∧ (∀ e ∈ i.dies 6, readNonEmpty (look s k 6 e) a = .ok (A e)))
    ∧ (∃ s : State, ∃ k d tile n : Nat, ∃ i : Issue, ∃ v : Nat → Vec, ∃ ps : Nat → List Post, InSlot s k 6 i ∧ (s.core k).benchFrom = some n ∧ (∀ e ∈ i.dies 6, let c := look s k 6 e
      sget none c.t.bench tile = some (v e) ∧ dstPosts c d 1 (v e) allOnes = .ok (ps e)))
    ∧ (∃ s : State, ∃ k e a tile d : Nat, k < 64 ∧ e < 4 ∧ (s.core k).benchFrom = none)
    ∧ (∃ s : State, ∃ k d x : Nat, ∃ i : Issue, ∃ ra : Nat → DWord, (d < 40 ∨ 48 ≤ d) ∧ InSlot s k 6 i ∧ (∀ e ∈ i.dies 6, linkFull (look s k 6 e) = false) ∧ (∀ e ∈ i.dies 6, remoteCheck (look s k 6 e) x = .ok (ra e)))
    ∧ (∃ s : State, ∃ k d x : Nat, ∃ i : Issue, ∃ ra : Nat → DWord, ∃ ps : Nat → List Post, InSlot s k 6 i ∧ (∀ e ∈ i.dies 6, linkFull (look s k 6 e) = false) ∧ (∀ e ∈ i.dies 6, let c := look s k 6 e
      remoteCheck c x = .ok (ra e) ∧ dstPosts c d 64 { tag := Tag.ofCode (c.t.ldt + 1) } allOnes 0 true = .ok (ps e)))
    ∧ (∃ s : State, ∃ k a x : Nat, ∃ i : Issue, ∃ ra : Nat → DWord, ∃ A : Nat → Src, InSlot s k 6 i ∧ (∀ e ∈ i.dies 6, linkFull (look s k 6 e) = false) ∧ (∀ e ∈ i.dies 6, remoteCheck (look s k 6 e) x = .ok (ra e) ∧ readNonEmpty (look s k 6 e) a = .ok (A e)))
    ∧ (∃ c : OpCtx, ∃ x : Nat, ∃ v : DWord, rx c x = .ok v ∧ c.s.podDevices ≤ v.toNat / 2 ^ 53 % 2 ^ 9)
    ∧ (∃ c : OpCtx, ∃ x : Nat, ∃ v : DWord, rx c x = .ok v ∧ v.toNat / 2 ^ 53 % 2 ^ 9 < c.s.podDevices ∧ (¬ remoteSize v.toNat ∣ v.toNat % 2 ^ 53))
    ∧ (∃ c : OpCtx, ∃ x : Nat, ∃ v : DWord, rx c x = .ok v ∧ v.toNat / 2 ^ 53 % 2 ^ 9 < c.s.podDevices ∧ remoteSize v.toNat ∣ v.toNat % 2 ^ 53)
    ∧ (∃ s : State, ∃ k n : Nat, ∃ i : Issue, InSlot s k 6 i ∧ i.dies 6 ≠ []) := by
  refine ⟨?_, ?_, ?_, ?_, ?_, ?_, ?_, ?_, ?_, ?_⟩
  · refine ⟨(demoC demoTile { demoCore 6 with benchFrom := some 1 }), 0, 1, 1, ?_⟩
    apply Exists.intro
    refine ⟨(demoIssue 6), ?_⟩
    apply Exists.intro
    apply And.intro
    · exact ⟨by decide +kernel, rfl, rfl, rfl, rfl, rfl, by decide +kernel⟩
    apply And.intro
    · apply someEq (d := 0)
      decide +kernel
    apply each
    intro e he
    apply okEach (d := src0) e he; decide +kernel
  · refine ⟨(demoC { demoTile with bench := [(1, some {})] } { demoCore 6 with benchFrom := some 1 }), 0, 1, 1, ?_⟩
    apply Exists.intro
    refine ⟨(demoIssue 6), (fun _ => {}), ?_⟩
    apply Exists.intro
    apply And.intro
    · exact ⟨by decide +kernel, rfl, rfl, rfl, rfl, rfl, by decide +kernel⟩
    apply And.intro
    · apply someEq (d := 0)
      decide +kernel
    apply each
    intro e he
    apply And.intro
    · revert e; decide +kernel
    apply okEach (d := []) e he; decide +kernel
  · refine ⟨(demo 1), 0, 1, 1, 1, 1, ?_⟩
    apply And.intro
    · decide +kernel
    apply And.intro
    · decide +kernel
    decide +kernel
  · refine ⟨(demo 6), 0, 1, 2, (demoIssue 6), ?_⟩
    apply Exists.intro
    apply And.intro
    · decide +kernel
    apply And.intro
    · exact ⟨by decide +kernel, rfl, rfl, rfl, rfl, rfl, by decide +kernel⟩
    apply And.intro
    · apply each
      intro e he
      revert e; decide +kernel
    apply each
    intro e he
    apply okEach (d := 0) e he; decide +kernel
  · refine ⟨(demo 6), 0, 1, 2, (demoIssue 6), ?_⟩
    apply Exists.intro
    apply Exists.intro
    apply And.intro
    · exact ⟨by decide +kernel, rfl, rfl, rfl, rfl, rfl, by decide +kernel⟩
    apply And.intro
    · apply each
      intro e he
      revert e; decide +kernel
    apply each
    intro e he
    apply And.intro
    · apply okEach (d := 0) e he; decide +kernel
    apply okEach (d := []) e he; decide +kernel
  · refine ⟨(demo 6), 0, 1, 2, (demoIssue 6), ?_⟩
    apply Exists.intro
    apply Exists.intro
    apply And.intro
    · exact ⟨by decide +kernel, rfl, rfl, rfl, rfl, rfl, by decide +kernel⟩
    apply And.intro
    · apply each
      intro e he
      revert e; decide +kernel
    apply each
    intro e he
    apply And.intro
    · apply okEach (d := 0) e he; decide +kernel
    apply okEach (d := src0) e he; decide +kernel
  · refine ⟨(look (demoT 1 { demoTile with x := [(1, 0x20000000000000)] }) 0 1 0), 1, ?_⟩
    apply Exists.intro
    apply And.intro
    · apply okEq (d := 0)
      decide +kernel
    decide +kernel
  · refine ⟨look (demo 1) 0 1 0, 1, ?_⟩
    apply Exists.intro
    apply And.intro
    · apply okEq (d := 0)
      decide +kernel
    apply And.intro
    · decide +kernel
    decide +kernel
  · refine ⟨look (demo 1) 0 1 0, 2, ?_⟩
    apply Exists.intro
    apply And.intro
    · apply okEq (d := 0)
      decide +kernel
    apply And.intro
    · decide +kernel
    decide +kernel
  · refine ⟨(demo 6), 0, 1, (demoIssue 6), ?_⟩
    apply And.intro
    · exact ⟨by decide +kernel, rfl, rfl, rfl, rfl, rfl, by decide +kernel⟩
    decide +kernel

theorem wit_SequenceCommands :
    (∃ s : State, ∃ k node x : Nat, ∃ i : Issue, ∃ l : LoopRec, ∃ D : Nat → List Byte, ∃ da : Nat → Nat, ∃ xl : Nat → List (List (Nat × Nat)), InSlot s k 6 i ∧ (s.groupOf k).loop = some l ∧ (∀ e ∈ i.dies 6, let c := look s k 6 e
      let npos := dfield (D e) 18 1
      let size := if dfield (D e) 19 1 = 1 then 2 else 4
      let a := dfield (D e) 24 8
      Opens c node x (D e) (da e) ∧ headerOk (D e) false = true ∧ dfield (D e) 16 2 < 256 ∧ dfield (D e) 19 1 ≤ 1 ∧ 1 ≤ npos ∧ npos ≤ l.drl + 1
      ∧ 64 ∣ a ∧ (List.range npos).mapM (fun p => xlateRange c (a + p * ((l.vocab * size + 63) / 64 * 64)) (l.vocab * size) 0) = .ok (xl e)
      ∧ banksCover (dBANKS (D e)) (da e + 20) 4 = .ok () ))
    ∧ (∃ s : State, ∃ k node x fn : Nat, ∃ i : Issue, ∃ l : LoopRec, ∃ op : Instr, ∃ ok : List Byte → Nat → Bool, ∃ D : Nat → List Byte, ∃ da : Nat → Nat, ((op, ok) ∈ ([(.flkq node x fn, fun d _ => decide (dfield d 20 4 = 2 ^ 32 - 1
      ∨ (dfield d 20 4 % 4 = 0 ∧ dfield d 20 4 + 36 ≤ 2 ^ 22 ∧ banksCover (dBANKS d) (dfield d 20 4) 36 = .ok ()))),
      (.wpset node x, fun d a => decide (dfield d 18 1 ≤ 15 ∧ dfield d 19 1 = 0 ∧ dfield d 24 4 = 0 ∧ dfield d 20 4 % 16 = 0
      ∧ dfield d 20 4 + 128 ≤ 2 ^ 22 ∧ banksCover (dBANKS d) (dfield d 20 4) 128 = .ok () ∧ banksCover (dBANKS d) (a + 28) 4 = .ok ())),
      (.wpclr node x, fun d a => decide (dfield d 20 8 = 0 ∧ banksCover (dBANKS d) (a + 28) 4 = .ok ()))]
      : List (Instr × (List Byte → Nat → Bool)))) ∧ InSlot s k 6 i ∧ (s.groupOf k).loop = some l ∧ (∀ e ∈ i.dies 6, let c := look s k 6 e
      Opens c node x (D e) (da e) ∧ headerOk (D e) false = true ∧ dfield (D e) 16 2 < 256 ∧ ok (D e) (da e) = true))
    ∧ (∃ s : State, ∃ k node x : Nat, ∃ i : Issue, ∃ l : LoopRec, ∃ D : Nat → List Byte, ∃ da : Nat → Nat, ∃ xl : Nat → List (Nat × Nat), InSlot s k 6 i ∧ (s.groupOf k).loop = some l ∧ (∀ e ∈ i.dies 6, let c := look s k 6 e
      let n := dfield (D e) 18 1
      let dest := dfield (D e) 24 8
      let len := n * maskLines l.vocab
      Opens c node x (D e) (da e) ∧ headerOk (D e) false = true ∧ dfield (D e) 16 2 < 256 ∧ dfield (D e) 19 1 ≤ 1 ∧ 1 ≤ n ∧ n ≤ l.drl + 1 ∧ 64 ∣ dest
      ∧ (if dfield (D e) 19 1 = 1 then dest + len ≤ 2 ^ 22 ∧ banksCover (dBANKS (D e)) dest len = .ok () ∧ xl e = []
      else xlateRange c dest len 1 = .ok (xl e))
      ∧ banksCover (dBANKS (D e)) (da e + 20) 4 = .ok () ))
    ∧ (∃ s : State, ∃ k node x fn : Nat, ∃ i : Issue, ∃ op : Instr, ∃ D : Nat → List Byte, ∃ da : Nat → Nat, op ∈ ([.smpq node x, .flkq node x fn, .wpset node x, .wpclr node x, .mskq node x] : List Instr) ∧ InSlot s k 6 i ∧ (s.groupOf k).loop = none ∧ i.dies 6 ≠ [] ∧ (∀ e ∈ i.dies 6, Opens (look s k 6 e) node x (D e) (da e)))
    ∧ (∃ s : State, ∃ k node sh sw x fn : Nat, ∃ i : Issue, ∃ D : Nat → List Byte, ∃ da : Nat → Nat, ∃ xl : Nat → List (Nat × Nat), InSlot s k 6 i ∧ (∀ e ∈ i.dies 6, linkFull (look s k 6 e) = false) ∧ (∀ e ∈ i.dies 6, let c := look s k 6 e
      let m := shapeAfter c.t (8 + sh) (8 + sh) sw
      let dst := dfield (D e) 16 8
      let peer := dfield (D e) 24 2
      Opens c node x (D e) (da e) ∧ headerOk (D e) false = true ∧ dst < 2 ^ 53 ∧ peer < 2 ^ 13 ∧ dfield (D e) 26 1 ≤ 1 ∧ dfield (D e) 27 5 = 0
      ∧ peer / 512 < s.pods ∧ peer % 512 < s.podDevices ∧ (sf m 8).toNat ≤ 2 ∧ sf m 2 = 1 ∧ sf m 3 = 1 ∧ sf m 4 = 1 ∧ tensorOk m = true
      ∧ 64 ∣ dst ∧ tensorCheck c m true 0 = .ok (xl e) ∧ piecesBanks (dBANKS (D e)) (sharePieces m e) = .ok ())) := by
  refine ⟨?_, ?_, ?_, ?_, ?_⟩
  · refine ⟨(demoT 6 { demoTile with spad := [(68, 1), (82, 1)] }), 0, 1, 1, (demoIssue 6), demoLoop, (fun _ => ({ demoTile with spad := [(68, 1), (82, 1)] } : Tile).spadBytes 64 32), (fun _ => 64), ?_⟩
    apply Exists.intro
    apply And.intro
    · exact ⟨by decide +kernel, rfl, rfl, rfl, rfl, rfl, by decide +kernel⟩
    apply And.intro
    · decide +kernel
    apply each
    intro e he
    apply And.intro
    · revert e; decide +kernel
    apply And.intro
    · revert e; decide +kernel
    apply And.intro
    · revert e; decide +kernel
    apply And.intro
    · revert e; decide +kernel
    apply And.intro
    · revert e; decide +kernel
    apply And.intro
    · revert e; decide +kernel
    apply And.intro
    · revert e; decide +kernel
    apply And.intro
    · apply okEach (d := []) e he; decide +kernel
    revert e; decide +kernel
  · refine ⟨(demo 6), 0, 1, 1, 1, (demoIssue 6), demoLoop, ?_⟩
    apply Exists.intro
    apply Exists.intro
    refine ⟨(fun _ => demoTile.spadBytes 64 32), (fun _ => 64), ?_⟩
    apply And.intro
    · exact .head _
    apply And.intro
    · exact ⟨by decide +kernel, rfl, rfl, rfl, rfl, rfl, by decide +kernel⟩
    apply And.intro
    · decide +kernel
    apply each
    intro e he
    apply And.intro
    · revert e; decide +kernel
    apply And.intro
    · revert e; decide +kernel
    apply And.intro
    · revert e; decide +kernel
    revert e; decide +kernel
  · refine ⟨(demoT 6 { demoTile with spad := [(68, 1), (82, 1), (83, 1)] }), 0, 1, 1, (demoIssue 6), demoLoop, (fun _ => ({ demoTile with spad := [(68, 1), (82, 1), (83, 1)] } : Tile).spadBytes 64 32), (fun _ => 64), (fun _ => []), ?_⟩
    apply And.intro
    · exact ⟨by decide +kernel, rfl, rfl, rfl, rfl, rfl, by decide +kernel⟩
    apply And.intro
    · decide +kernel
    apply each
    intro e he
    apply And.intro
    · revert e; decide +kernel
    apply And.intro
    · revert e; decide +kernel
    apply And.intro
    · revert e; decide +kernel
    apply And.intro
    · revert e; decide +kernel
    apply And.intro
    · revert e; decide +kernel
    apply And.intro
    · revert e; decide +kernel
    apply And.intro
    · revert e; decide +kernel
    apply And.intro
    · revert e; decide +kernel
    revert e; decide +kernel
  · refine ⟨{ demo 6 with hub := {} }, 0, 1, 1, 1, (demoIssue 6), ?_⟩
    apply Exists.intro
    refine ⟨(fun _ => demoTile.spadBytes 64 32), (fun _ => 64), ?_⟩
    apply And.intro
    · exact .head _
    apply And.intro
    · exact ⟨by decide +kernel, rfl, rfl, rfl, rfl, rfl, by decide +kernel⟩
    apply And.intro
    · decide +kernel
    apply And.intro
    · decide +kernel
    apply each
    intro e he
    revert e; decide +kernel
  · refine ⟨(demo 6), 0, 1, 1, 1, 1, 1, (demoIssue 6), (fun _ => demoTile.spadBytes 64 32), (fun _ => 64), ?_⟩
    apply Exists.intro
    apply And.intro
    · exact ⟨by decide +kernel, rfl, rfl, rfl, rfl, rfl, by decide +kernel⟩
    apply And.intro
    · apply each
      intro e he
      revert e; decide +kernel
    apply each
    intro e he
    apply And.intro
    · revert e; decide +kernel
    apply And.intro
    · revert e; decide +kernel
    apply And.intro
    · revert e; decide +kernel
    apply And.intro
    · revert e; decide +kernel
    apply And.intro
    · revert e; decide +kernel
    apply And.intro
    · revert e; decide +kernel
    apply And.intro
    · revert e; decide +kernel
    apply And.intro
    · revert e; decide +kernel
    apply And.intro
    · revert e; decide +kernel
    apply And.intro
    · revert e; decide +kernel
    apply And.intro
    · revert e; decide +kernel
    apply And.intro
    · revert e; decide +kernel
    apply And.intro
    · revert e; decide +kernel
    apply And.intro
    · revert e; decide +kernel
    apply And.intro
    · apply okEach (d := []) e he; decide +kernel
    revert e; decide +kernel

theorem wit_LoopKernelWords :
    (∃ s : State, ∃ k d x : Nat, ∃ i : Issue, ∃ l : LoopRec, ∃ v : Nat → DWord, InSlot s k 0 i ∧ (s.groupOf k).loop = some l ∧ (∀ e ∈ i.dies 0, rx (look s k 0 e) x = .ok (v e) ∧ (v e).toNat ≤ 255))
    ∧ (∃ s : State, ∃ k : Nat, ∃ i : Issue, ∃ l : LoopRec, InSlot s k 0 i ∧ (s.groupOf k).loop = some l)
    ∧ (∃ s : State, ∃ k d x : Nat, ∃ i : Issue, InSlot s k 0 i ∧ (s.groupOf k).loop = none ∧ i.dies 0 ≠ [])
    ∧ (∃ s : State, ∃ k p j : Nat, ∃ e : Entry, ∃ l : LoopRec, e ∈ (s.core k).inflight ∧ e.pend = true ∧ e.eff = .predPending p (1 + j) ∧ e.unit / 4 = k ∧ (s.groupOf k).loop = some l ∧ laneReady s (s.groupOf k).cid l j = true) := by
  refine ⟨?_, ?_, ?_, ?_⟩
  · refine ⟨(demo 0), 0, 1, 1, (demoIssue 0), demoLoop, ?_⟩
    apply Exists.intro
    apply And.intro
    · exact ⟨by decide +kernel, rfl, rfl, rfl, rfl, rfl, by decide +kernel⟩
    apply And.intro
    · decide +kernel
    apply each
    intro e he
    apply And.intro
    · apply okEach (d := 0) e he; decide +kernel
    revert e; decide +kernel
  · refine ⟨(demo 0), 0, (demoIssue 0), demoLoop, ?_⟩
    apply And.intro
    · exact ⟨by decide +kernel, rfl, rfl, rfl, rfl, rfl, by decide +kernel⟩
    decide +kernel
  · refine ⟨{ demo 0 with hub := {} }, 0, 1, 1, (demoIssue 0), ?_⟩
    apply And.intro
    · exact ⟨by decide +kernel, rfl, rfl, rfl, rfl, rfl, by decide +kernel⟩
    apply And.intro
    · decide +kernel
    decide +kernel
  · refine ⟨{ paged with cores := [(0, { st := .running, inflight := [({ due := 1, issue := 0, slot := 0, unit := 0, eff := .predPending 1 1, pend := true } : Entry)] })], mem := (128, 1) :: paged.mem }, 0, 1, 0, ({ due := 1, issue := 0, slot := 0, unit := 0, eff := .predPending 1 1, pend := true } : Entry), demoLoop, ?_⟩
    apply And.intro
    · decide +kernel
    apply And.intro
    · decide +kernel
    apply And.intro
    · decide +kernel
    apply And.intro
    · decide +kernel
    apply And.intro
    · decide +kernel
    decide +kernel

theorem wit_ColtSampling_1 :
    (∃ s : State, ∃ c d a : Nat, ∃ v : DWord, s.turn = .colt c ∧ rx (lookColt s c 1) a = .ok v ∧ v = 0)
    ∧ (∃ s : State, ∃ c d a : Nat, ∃ v : DWord, s.turn = .colt c ∧ rx (lookColt s c 1) a = .ok v ∧ v ≠ 0 ∧ coltRange (lookColt s c 1) v 64 64 0 = .ok () ∧ ∃ p, readPar ((s.hubRead (s.coltCid c) v.toNat 64).getD []) = .ok p)
    ∧ (∃ s : State, ∃ c d a : Nat, ∃ v : DWord, s.turn = .colt c ∧ rx (lookColt s c 1) a = .ok v ∧ v ≠ 0 ∧ coltRange (lookColt s c 1) v 64 64 0 = .ok () ∧ ∃ e, readPar ((s.hubRead (s.coltCid c) v.toNat 64).getD []) = .error e)
    ∧ (∃ s : State, ∃ c d a : Nat, ∃ v : DWord, s.turn = .colt c ∧ rx (lookColt s c 1) a = .ok v ∧ (v.toNat % 2 ^ 21 = 0 ∨ 2 ^ 20 < v.toNat % 2 ^ 21 ∨ v.toNat ≠ v.toNat % 2 ^ 21 + 2 ^ 32 * (v.toNat / 2 ^ 32 % 2)))
    ∧ (∃ s : State, ∃ c d a : Nat, ∃ v : DWord, s.turn = .colt c ∧ rx (lookColt s c 1) a = .ok v ∧ ∃ n fmt, 1 ≤ n ∧ n ≤ 2 ^ 20 ∧ fmt ≤ 1 ∧ v.toNat = n + 2 ^ 32 * fmt)
    ∧ (∃ s : State, ∃ c d a : Nat, ∃ v : DWord, s.turn = .colt c ∧ rx (lookColt s c 1) a = .ok v ∧ v = 0)
    ∧ (∃ s : State, ∃ c d a : Nat, ∃ v : DWord, s.turn = .colt c ∧ rx (lookColt s c 1) a = .ok v ∧ v ≠ 0 ∧ 64 ∣ v.toNat ∧ coltRange (lookColt s c 1) v (((s.colt c).vocab + 7) / 8) 1 0 = .ok ())
    ∧ (∃ s : State, ∃ c d a : Nat, ∃ v : DWord, s.turn = .colt c ∧ rx (lookColt s c 1) a = .ok v ∧ (¬ 64 ∣ v.toNat))
    ∧ (∃ s : State, ∃ c d a b : Nat, ∃ v w : DWord, s.turn = .colt c ∧ rx (lookColt s c 1) a = .ok v ∧ rx (lookColt s c 1) b = .ok w ∧ (s.colt c).vocab = 0)
    ∧ (∃ s : State, ∃ c d a b : Nat, ∃ v w : DWord, s.turn = .colt c ∧ rx (lookColt s c 1) a = .ok v ∧ rx (lookColt s c 1) b = .ok w ∧ (s.colt c).vocab = 0)
    ∧ (∃ s : State, ∃ c d a b : Nat, ∃ v w : DWord, s.turn = .colt c ∧ rx (lookColt s c 1) a = .ok v ∧ rx (lookColt s c 1) b = .ok w ∧ ∃ q : Nat, ∃ bits : Option (List Byte), (s.colt c).vocab ≠ 0 ∧ coltRange (lookColt s c 1) v ((s.colt c).vocab * (if (s.colt c).bf16 then 2 else 4)) 64 0 = .ok () ∧ (match (s.colt c).mask with
      | none => bits = none
      | some m => coltRange (lookColt s c 1) (BitVec.ofNat 64 m) (((s.colt c).vocab + 7) / 8) 1 0 = .ok ()
      ∧ bits = s.hubRead (s.coltCid c) m (((s.colt c).vocab + 7) / 8)))
    ∧ (∃ s : State, ∃ c d a b : Nat, ∃ v w : DWord, s.turn = .colt c ∧ rx (lookColt s c 1) a = .ok v ∧ rx (lookColt s c 1) b = .ok w ∧ (s.colt c).vocab ≠ 0 ∧ coltRange (lookColt s c 1) v 64 1 0 = .ok () ∧ coltRange (lookColt s c 1) w (maskLines (s.colt c).vocab) 64 1 = .ok ())
    ∧ (∃ s : State, ∃ c d a b : Nat, ∃ v w : DWord, s.turn = .colt c ∧ rx (lookColt s c 1) a = .ok v ∧ rx (lookColt s c 1) b = .ok w ∧ (s.colt c).vocab ≠ 0 ∧ coltRange (lookColt s c 1) w (maskLines (s.colt c).vocab) 64 1 = .ok ())
    ∧ (∃ s : State, ∃ c d a b : Nat, ∃ v w : DWord, s.turn = .colt c ∧ rx (lookColt s c 1) a = .ok v ∧ rx (lookColt s c 1) b = .ok w ∧ coltRange (lookColt s c 1) v 64 1 1 = .ok () ∧ (readPda s (s.coltCid c) v.toNat).step s (s.coltCid c) (s.colt c).vocab noCap w.toNat = none) := by
  refine ⟨?_, ?_, ?_, ?_, ?_, ?_, ?_, ?_, ?_, ?_, ?_, ?_, ?_, ?_⟩
  · refine ⟨(demoColt { vocab := 32 } []), 0, 1, 0, 0, ?_⟩
    apply And.intro
    · decide +kernel
    apply And.intro
    · decide +kernel
    decide +kernel
  · refine ⟨(demoColt { vocab := 32 } [(74, 128), (75, 63)]), 0, 1, 1, ?_⟩
    apply Exists.intro
    apply And.intro
    · decide +kernel
    apply And.intro
    · apply okEq (d := 0)
      decide +kernel
    apply And.intro
    · decide +kernel
    apply And.intro
    · decide +kernel
    apply Exists.intro
    apply okEq (d := ({} : SPar))
    decide +kernel
  · refine ⟨(demoColt { vocab := 32 } [(70, 1)]), 0, 1, 1, ?_⟩
    apply Exists.intro
    apply And.intro
    · decide +kernel
    apply And.intro
    · apply okEq (d := 0)
      decide +kernel
    apply And.intro
    · decide +kernel
    apply And.intro
    · decide +kernel
    refine ⟨3, ?_⟩
    decide +kernel
  · refine ⟨(demoColt { vocab := 32 } []), 0, 1, 0, 0, ?_⟩
    apply And.intro
    · decide +kernel
    apply And.intro
    · decide +kernel
    decide +kernel
  · refine ⟨(demoColt { vocab := 32 } []), 0, 1, 1, ?_⟩
    apply Exists.intro
    apply And.intro
    · decide +kernel
    apply And.intro
    · apply okEq (d := 0)
      decide +kernel
    refine ⟨64, 0, ?_⟩
    apply And.intro
    · decide +kernel
    apply And.intro
    · decide +kernel
    apply And.intro
    · decide +kernel
    decide +kernel
  · refine ⟨(demoColt { vocab := 32 } []), 0, 1, 0, 0, ?_⟩
    apply And.intro
    · decide +kernel
    apply And.intro
    · decide +kernel
    decide +kernel
  · refine ⟨(demoColt { vocab := 32 } []), 0, 1, 1, ?_⟩
    apply Exists.intro
    apply And.intro
    · decide +kernel
    apply And.intro
    · apply okEq (d := 0)
      decide +kernel
    apply And.intro
    · decide +kernel
    apply And.intro
    · decide +kernel
    decide +kernel
  · refine ⟨(demoColt { vocab := 32 } []), 0, 1, 3, ?_⟩
    apply Exists.intro
    apply And.intro
    · decide +kernel
    apply And.intro
    · apply okEq (d := 0)
      decide +kernel
    decide +kernel
  · refine ⟨(demoColt {} []), 0, 1, 1, 2, ?_⟩
    apply Exists.intro
    apply Exists.intro
    apply And.intro
    · decide +kernel
    apply And.intro
    · apply okEq (d := 0)
      decide +kernel
    apply And.intro
    · apply okEq (d := 0)
      decide +kernel
    decide +kernel
  · refine ⟨(demoColt {} []), 0, 1, 1, 2, ?_⟩
    apply Exists.intro
    apply Exists.intro
    apply And.intro
    · decide +kernel
    apply And.intro
    · apply okEq (d := 0)
      decide +kernel
    apply And.intro
    · apply okEq (d := 0)
      decide +kernel
    decide +kernel
  · refine ⟨(demoColt { vocab := 32 } []), 0, 1, 1, 2, ?_⟩
    apply Exists.intro
    apply Exists.intro
    apply And.intro
    · decide +kernel
    apply And.intro
    · apply okEq (d := 0)
      decide +kernel
    apply And.intro
    · apply okEq (d := 0)
      decide +kernel
    refine ⟨1, none, ?_⟩
    apply And.intro
    · decide +kernel
    apply And.intro
    · decide +kernel
    rfl
  · refine ⟨(demoColt { vocab := 32 } []), 0, 1, 1, 2, ?_⟩
    apply Exists.intro
    apply Exists.intro
    apply And.intro
    · decide +kernel
    apply And.intro
    · apply okEq (d := 0)
      decide +kernel
    apply And.intro
    · apply okEq (d := 0)
      decide +kernel
    apply And.intro
    · decide +kernel
    apply And.intro
    · decide +kernel
    decide +kernel
  · refine ⟨(demoColt { vocab := 32 } []), 0, 1, 1, 2, ?_⟩
    apply Exists.intro
    apply Exists.intro
    apply And.intro
    · decide +kernel
    apply And.intro
    · apply okEq (d := 0)
      decide +kernel
    apply And.intro
    · apply okEq (d := 0)
      decide +kernel
    apply And.intro
    · decide +kernel
    decide +kernel
  · refine ⟨(demoColt { vocab := 32 } []), 0, 1, 1, 2, ?_⟩
    apply Exists.intro
    apply Exists.intro
    apply And.intro
    · decide +kernel
    apply And.intro
    · apply okEq (d := 0)
      decide +kernel
    apply And.intro
    · apply okEq (d := 0)
      decide +kernel
    apply And.intro
    · decide +kernel
    decide +kernel

theorem wit_ColtSampling_2 :
    (∃ s : State, ∃ c d a b : Nat, ∃ v w : DWord, s.turn = .colt c ∧ rx (lookColt s c 1) a = .ok v ∧ rx (lookColt s c 1) b = .ok w ∧ coltRange (lookColt s c 1) v 64 1 1 = .ok () ∧ ∃ p l, (readPda s (s.coltCid c) v.toNat).step s (s.coltCid c) (s.colt c).vocab noCap w.toNat = some p ∧ p.syms.mapM (fun y => xlate (lookColt s c 1) (p.stack + y.1) 1) = .ok l)
    ∧ (∃ s : State, ∃ c d a b : Nat, ∃ v w : DWord, s.turn = .colt c ∧ rx (lookColt s c 1) a = .ok v ∧ rx (lookColt s c 1) b = .ok w ∧ coltRange (lookColt s c 1) v 64 1 0 = .ok ())
    ∧ (∃ s : State, ∃ c d a b : Nat, ∃ v w : DWord, s.turn = .colt c ∧ rx (lookColt s c 1) a = .ok v ∧ rx (lookColt s c 1) b = .ok w ∧ (s.colt c).shadow.pda.step s (s.coltCid c) (s.colt c).vocab shadowCap w.toNat = none)
    ∧ (∃ s : State, ∃ c d a b : Nat, ∃ v w : DWord, s.turn = .colt c ∧ rx (lookColt s c 1) a = .ok v ∧ rx (lookColt s c 1) b = .ok w ∧ ∃ p, (s.colt c).shadow.pda.step s (s.coltCid c) (s.colt c).vocab shadowCap w.toNat = some p)
    ∧ (∃ s : State, ∃ c d a b : Nat, ∃ v w : DWord, s.turn = .colt c ∧ rx (lookColt s c 1) a = .ok v ∧ rx (lookColt s c 1) b = .ok w ∧ coltRange (lookColt s c 1) v 8 1 0 = .ok () ∧ seqGet s (s.coltCid c) (v.toNat + 4) 2 ≤ w.toNat % 2 ^ 10)
    ∧ (∃ s : State, ∃ c d a b : Nat, ∃ v w : DWord, s.turn = .colt c ∧ rx (lookColt s c 1) a = .ok v ∧ rx (lookColt s c 1) b = .ok w ∧
      let r := w.toNat % 2 ^ 10

      let q := v.toNat + 1024 + 256 * r

      let lane := w.toNat / 2 ^ 16 % 256
      coltRange (lookColt s c 1) v 8 1 0 = .ok () ∧ r < seqGet s (s.coltCid c) (v.toNat + 4) 2 ∧ coltRange (lookColt s c 1) (BitVec.ofNat 64 (q + rK0)) 4 1 1 = .ok () ∧ coltRange (lookColt s c 1) (BitVec.ofNat 64 (q + rJREP)) 1 1 1 = .ok () ∧ coltRange (lookColt s c 1) (BitVec.ofNat 64 (v.toNat + 128 + lane / 8)) 1 1 1 = .ok ())
    ∧ (∃ s : State, ∃ c d a b : Nat, ∃ v w : DWord, s.turn = .colt c ∧ rx (lookColt s c 1) a = .ok v ∧ rx (lookColt s c 1) b = .ok w) := by
  refine ⟨?_, ?_, ?_, ?_, ?_, ?_, ?_⟩
  · refine ⟨(demoColt { vocab := 32 } pdaMem), 0, 1, 1, 2, ?_⟩
    apply Exists.intro
    apply Exists.intro
    apply And.intro
    · decide +kernel
    apply And.intro
    · apply okEq (d := 0)
      decide +kernel
    apply And.intro
    · apply okEq (d := 0)
      decide +kernel
    apply And.intro
    · decide +kernel
    apply Exists.intro
    apply Exists.intro
    apply And.intro
    · apply someEq (d := ({} : Pda))
      decide +kernel
    apply okEq (d := [])
    decide +kernel
  · refine ⟨(demoColt { vocab := 32 } []), 0, 1, 1, 2, ?_⟩
    apply Exists.intro
    apply Exists.intro
    apply And.intro
    · decide +kernel
    apply And.intro
    · apply okEq (d := 0)
      decide +kernel
    apply And.intro
    · apply okEq (d := 0)
      decide +kernel
    decide +kernel
  · refine ⟨(demoColt { vocab := 32 } []), 0, 1, 1, 2, ?_⟩
    apply Exists.intro
    apply Exists.intro
    apply And.intro
    · decide +kernel
    apply And.intro
    · apply okEq (d := 0)
      decide +kernel
    apply And.intro
    · apply okEq (d := 0)
      decide +kernel
    decide +kernel
  · refine ⟨(demoColt { vocab := 32, shadow := { auto := 128, limit := 1, ok := true } } pdaMem), 0, 1, 1, 2, ?_⟩
    apply Exists.intro
    apply Exists.intro
    apply And.intro
    · decide +kernel
    apply And.intro
    · apply okEq (d := 0)
      decide +kernel
    apply And.intro
    · apply okEq (d := 0)
      decide +kernel
    apply Exists.intro
    apply someEq (d := ({} : Pda))
    decide +kernel
  · refine ⟨(demoColt { vocab := 32 } []), 0, 1, 1, 2, ?_⟩
    apply Exists.intro
    apply Exists.intro
    apply And.intro
    · decide +kernel
    apply And.intro
    · apply okEq (d := 0)
      decide +kernel
    apply And.intro
    · apply okEq (d := 0)
      decide +kernel
    apply And.intro
    · decide +kernel
    decide +kernel
  · refine ⟨(demoColt { vocab := 32 } [(68, 1)]), 0, 1, 1, 0, ?_⟩
    apply Exists.intro
    apply Exists.intro
    apply And.intro
    · decide +kernel
    apply And.intro
    · apply okEq (d := 0)
      decide +kernel
    apply And.intro
    · apply okEq (d := 0)
      decide +kernel
    apply And.intro
    · decide +kernel
    apply And.intro
    · decide +kernel
    apply And.intro
    · decide +kernel
    apply And.intro
    · decide +kernel
    decide +kernel
  · refine ⟨(demoColt { vocab := 32 } []), 0, 1, 1, 2, ?_⟩
    apply Exists.intro
    apply Exists.intro
    apply And.intro
    · decide +kernel
    apply And.intro
    · apply okEq (d := 0)
      decide +kernel
    apply okEq (d := 0)
    decide +kernel

theorem wit_ColtScalarForms :
    (∃ s : State, ∃ c d a b lat : Nat, ∃ op : Instr, ∃ f : DWord → DWord → DWord, ∃ v w : DWord, s.turn = .colt c ∧ ((op, lat, f) ∈ ([(.add d a b, 1, fun x y => x + y), (.sub d a b, 1, fun x y => x - y), (.mul d a b, 3, fun x y => x * y),
      (.and_ d a b, 1, fun x y => x &&& y), (.or_ d a b, 1, fun x y => x ||| y), (.xor_ d a b, 1, fun x y => x ^^^ y),
      (.shl d a b, 1, fun x y => x <<< (y.toNat % 64)), (.shr d a b, 1, fun x y => x >>> (y.toNat % 64)),
      (.mulh d a b, 3, fun x y => BitVec.ofInt 64 (x.toInt * y.toInt / 2 ^ 64)), (.sra d a b, 1, fun x y => x.sshiftRight (y.toNat % 64)),
      (.min_ d a b, 1, fun x y => if x.toInt ≤ y.toInt then x else y), (.max_ d a b, 1, fun x y => if y.toInt ≤ x.toInt then x else y)] : List (Instr × Nat × (DWord → DWord → DWord)))) ∧ rx (lookColt s c 1) a = .ok v ∧ rx (lookColt s c 1) b = .ok w)
    ∧ (∃ s : State, ∃ c d a m : Nat, ∃ v : DWord, s.turn = .colt c ∧ rx (lookColt s c 1) a = .ok v)
    ∧ (∃ s : State, ∃ c d a b o : Nat, ∃ v w : Bool, s.turn = .colt c ∧ rp (lookColt s c 0) a = .ok v ∧ rp (lookColt s c 0) b = .ok w ∧ o < 7)
    ∧ (∃ s : State, ∃ c j n : Nat, s.turn = .colt c)
    ∧ (∃ s : State, ∃ c d n : Nat, s.turn = .colt c ∧ n ∈ [0x000, 0x001, 0x002, 0x008, 0x010, 0x011, 0x012, 0x013, 0x040, 0x041, 0x042, 0x050, 0x051])
    ∧ (∃ s : State, ∃ c d n : Nat, n ∉ [0x000, 0x001, 0x002, 0x008, 0x010, 0x011, 0x012, 0x013, 0x040, 0x041, 0x042, 0x050, 0x051])
    ∧ (∃ s : State, ∃ c d a b cc m : Nat, ∃ v w : DWord, s.turn = .colt c ∧ rx (lookColt s c 0) a = .ok v ∧ rx (lookColt s c 0) b = .ok w ∧ cc < 6)
    ∧ (∃ s : State, ∃ c d a b p : Nat, ∃ v w : DWord, ∃ q : Bool, s.turn = .colt c ∧ rx (lookColt s c 1) a = .ok v ∧ rx (lookColt s c 1) b = .ok w ∧ rp (lookColt s c 1) p = .ok q)
    ∧ (∃ s : State, ∃ c d x w off size pa : Nat, ∃ sx nc : Bool, ∃ v : DWord, ∃ ps : List Post, s.turn = .colt c ∧ (w, size, sx) ∈ ([(0, 1, false), (1, 2, false), (2, 4, false), (3, 8, false), (4, 1, true), (5, 2, true), (6, 4, true)] : List (Nat × Nat × Bool)) ∧ rx (lookColt s c 1) x = .ok v ∧ accessCheck (lookColt s c 1) (v + BitVec.ofInt 64 (sextNat off 11)).toNat size size 0 = .ok (pa, nc, ps))
    ∧ (∃ s : State, ∃ c b x w off size pa : Nat, ∃ nc : Bool, ∃ v y : DWord, ∃ ps : List Post, s.turn = .colt c ∧ (w, size) ∈ ([(0, 1), (1, 2), (2, 4), (3, 8)] : List (Nat × Nat)) ∧ rx (lookColt s c 1) x = .ok v ∧ rx (lookColt s c 1) b = .ok y ∧ accessCheck (lookColt s c 1) (v + BitVec.ofInt 64 (sextNat off 11)).toNat size size 1 = .ok (pa, nc, ps))
    ∧ (∃ s : State, ∃ c w : Nat, s.turn = .colt c ∧ s.sched = [] ∧ (s.colt c).running = true ∧ asleep s (coltUnit c) = false ∧ s.hub.stalled = false ∧ s.hub.fenced = false ∧ (s.colt c).pc < 1024 ∧ (s.colt c).pc < s.hub.routine.length ∧ nth 0 s.hub.routine (s.colt c).pc = w ∧ (w / 2 ^ 24 = 10 ∨ w / 2 ^ 24 = 11)) := by
  refine ⟨?_, ?_, ?_, ?_, ?_, ?_, ?_, ?_, ?_, ?_, ?_⟩
  · refine ⟨(demoColt {} []), 0, 1, 1, 2, ?_⟩
    apply Exists.intro
    apply Exists.intro
    apply Exists.intro
    apply Exists.intro
    apply Exists.intro
    apply And.intro
    · decide +kernel
    apply And.intro
    · exact .head _
    apply And.intro
    · apply okEq (d := 0)
      decide +kernel
    apply okEq (d := 0)
    decide +kernel
  · refine ⟨(demoColt {} []), 0, 1, 1, 1, ?_⟩
    apply Exists.intro
    apply And.intro
    · decide +kernel
    apply okEq (d := 0)
    decide +kernel
  · refine ⟨(demoColt {} []), 0, 1, 1, 2, 1, ?_⟩
    apply Exists.intro
    apply Exists.intro
    apply And.intro
    · decide +kernel
    apply And.intro
    · apply okEq (d := false)
      decide +kernel
    apply And.intro
    · apply okEq (d := false)
      decide +kernel
    decide +kernel
  · refine ⟨(demoColt {} []), 0, 1, 1, ?_⟩
    decide +kernel
  · refine ⟨(demoColt {} []), 0, 1, 0, ?_⟩
    apply And.intro
    · decide +kernel
    decide +kernel
  · refine ⟨(demoColt {} []), 0, 1, 3, ?_⟩
    decide +kernel
  · refine ⟨(demoColt {} []), 0, 1, 1, 2, 1, 1, ?_⟩
    apply Exists.intro
    apply Exists.intro
    apply And.intro
    · decide +kernel
    apply And.intro
    · apply okEq (d := 0)
      decide +kernel
    apply And.intro
    · apply okEq (d := 0)
      decide +kernel
    decide +kernel
  · refine ⟨(demoColt {} []), 0, 1, 1, 2, 1, ?_⟩
    apply Exists.intro
    apply Exists.intro
    apply Exists.intro
    apply And.intro
    · decide +kernel
    apply And.intro
    · apply okEq (d := 0)
      decide +kernel
    apply And.intro
    · apply okEq (d := 0)
      decide +kernel
    apply okEq (d := false)
    decide +kernel
  · refine ⟨(demoColt {} []), 0, 1, 1, ?_⟩
    apply Exists.intro
    refine ⟨1, ?_⟩
    apply Exists.intro
    apply Exists.intro
    apply Exists.intro
    apply Exists.intro
    apply Exists.intro
    apply Exists.intro
    apply And.intro
    · decide +kernel
    apply And.intro
    · exact .head _
    apply And.intro
    · apply okEq (d := 0)
      decide +kernel
    apply okEq (d := (0, false, []))
    decide +kernel
  · refine ⟨(demoColt {} []), 0, 2, 1, ?_⟩
    apply Exists.intro
    refine ⟨1, ?_⟩
    apply Exists.intro
    apply Exists.intro
    apply Exists.intro
    apply Exists.intro
    apply Exists.intro
    apply Exists.intro
    apply And.intro
    · decide +kernel
    apply And.intro
    · exact .head _
    apply And.intro
    · apply okEq (d := 0)
      decide +kernel
    apply And.intro
    · apply okEq (d := 0)
      decide +kernel
    apply okEq (d := (0, false, []))
    decide +kernel
  · refine ⟨(let s := demoColt { running := true } []; { s with hub := { s.hub with routine := [167772160] } }), 0, 167772160, ?_⟩
    apply And.intro
    · decide +kernel
    apply And.intro
    · decide +kernel
    apply And.intro
    · decide +kernel
    apply And.intro
    · decide +kernel
    apply And.intro
    · decide +kernel
    apply And.intro
    · decide +kernel
    apply And.intro
    · decide +kernel
    apply And.intro
    · decide +kernel
    apply And.intro
    · decide +kernel
    decide +kernel

theorem wit_WaitsAndBarriers :
    (∃ s : State, ∃ k x y : Nat, ∃ i : Issue, ∃ v w : Nat → DWord, ∃ pa : Nat → Nat, ∃ nc : Nat → Bool, ∃ ps : Nat → List Post, InSlot s k 0 i ∧ i.dies 0 ≠ [] ∧ (∀ e ∈ i.dies 0, rx (look s k 0 e) x = .ok (v e) ∧ rx (look s k 0 e) y = .ok (w e)
      ∧ accessCheck (look s k 0 e) ((v e).toNat / 64 * 64) 1 1 0 = .ok (pa e, nc e, ps e) ∧ loadLeft (look s k 0 e) = false))
    ∧ (∃ s : State, ∃ k scope bid : Nat, ∃ i : Issue, InSlot s k 0 i ∧ (∀ e ∈ i.dies 0, lastPh ((look s k 0 e).t) scope bid ≠ some (barOf s (unitOf k e) scope bid).settled.phase))
    ∧ (∃ s : State, ∃ k scope bid e : Nat, ∃ i : Issue, InSlot s k 0 i ∧ e ∈ i.dies 0 ∧ lastPh ((look s k 0 e).t) scope bid = some (barOf s (unitOf k e) scope bid).settled.phase)
    ∧ (∃ s : State, ∃ k scope bid p : Nat, ∃ i : Issue, InSlot s k 0 i ∧ i.dies 0 ≠ [] ∧ (∀ e ∈ i.dies 0, (lastPh ((look s k 0 e).t) scope bid).isSome = true))
    ∧ (∃ s : State, ∃ k scope bid p : Nat, ∃ i : Issue, InSlot s k 0 i ∧ i.dies 0 ≠ [] ∧ (∀ e ∈ i.dies 0, lastPh ((look s k 0 e).t) scope bid = none))
    ∧ (∃ s : State, ∃ k scope x kind : Nat, ∃ i : Issue, ∃ op : Instr, ∃ pa : Nat → Nat, ∃ ps : Nat → List Post, (op, kind) ∈ ([(.acq scope x, 0), (.rel scope x, 1)] : List (Instr × Nat)) ∧ InSlot s k 1 i ∧ i.dies 1 ≠ [] ∧ (∀ e ∈ i.dies 1, syncCheck (look s k 1 e) x (if kind = 1 then 1 else 0) = .ok (pa e, ps e)))
    ∧ (∃ s : State, ∃ k scope : Nat, ∃ i : Issue, InSlot s k 1 i ∧ i.dies 1 ≠ [])
    ∧ (∃ c : OpCtx, ∃ x kind : Nat, ∃ v : DWord, ∃ pa : Nat, ∃ nc : Bool, ∃ ps : List Post, x ≠ 0 ∧ rx c x = .ok v ∧ accessCheck c v.toNat 1 64 kind = .ok (pa, nc, ps)) := by
  refine ⟨?_, ?_, ?_, ?_, ?_, ?_, ?_, ?_⟩
  · refine ⟨(demo 0), 0, 1, 1, (demoIssue 0), ?_⟩
    apply Exists.intro
    apply Exists.intro
    apply Exists.intro
    apply Exists.intro
    apply Exists.intro
    apply And.intro
    · exact ⟨by decide +kernel, rfl, rfl, rfl, rfl, rfl, by decide +kernel⟩
    apply And.intro
    · decide +kernel
    apply each
    intro e he
    apply And.intro
    · apply okEach (d := 0) e he; decide +kernel
    apply And.intro
    · apply okEach (d := 0) e he; decide +kernel
    apply And.intro
    · apply okEach (d := (0, false, [])) e he; decide +kernel
    revert e; decide +kernel
  · refine ⟨(demo 0), 0, 1, 1, (demoIssue 0), ?_⟩
    apply And.intro
    · exact ⟨by decide +kernel, rfl, rfl, rfl, rfl, rfl, by decide +kernel⟩
    apply each
    intro e he
    revert e; decide +kernel
  · refine ⟨(demoT 0 { demoTile with lastph := [(257, some false)] }), 0, 1, 1, 0, (demoIssue 0), ?_⟩
    apply And.intro
    · exact ⟨by decide +kernel, rfl, rfl, rfl, rfl, rfl, by decide +kernel⟩
    apply And.intro
    · decide +kernel
    decide +kernel
  · refine ⟨(demoT 0 { demoTile with lastph := [(257, some true)] }), 0, 1, 1, 1, (demoIssue 0), ?_⟩
    apply And.intro
    · exact ⟨by decide +kernel, rfl, rfl, rfl, rfl, rfl, by decide +kernel⟩
    apply And.intro
    · decide +kernel
    apply each
    intro e he
    revert e; decide +kernel
  · refine ⟨(demo 0), 0, 1, 1, 1, (demoIssue 0), ?_⟩
    apply And.intro
    · exact ⟨by decide +kernel, rfl, rfl, rfl, rfl, rfl, by decide +kernel⟩
    apply And.intro
    · decide +kernel
    apply each
    intro e he
    revert e; decide +kernel
  · refine ⟨(demo 1), 0, 1, 1, ?_⟩
    apply Exists.intro
    refine ⟨(demoIssue 1), ?_⟩
    apply Exists.intro
    apply Exists.intro
    apply Exists.intro
    apply And.intro
    · exact .head _
    apply And.intro
    · exact ⟨by decide +kernel, rfl, rfl, rfl, rfl, rfl, by decide +kernel⟩
    apply And.intro
    · decide +kernel
    apply each
    intro e he
    apply okEach (d := (0, [])) e he; decide +kernel
  · refine ⟨(demo 1), 0, 1, (demoIssue 1), ?_⟩
    apply And.intro
    · exact ⟨by decide +kernel, rfl, rfl, rfl, rfl, rfl, by decide +kernel⟩
    decide +kernel
  · refine ⟨look (demo 1) 0 1 0, 1, 1, ?_⟩
    apply Exists.intro
    apply Exists.intro
    apply Exists.intro
    apply Exists.intro
    apply And.intro
    · decide +kernel
    apply And.intro
    · apply okEq (d := 0)
      decide +kernel
    apply okEq (d := (0, false, []))
    decide +kernel

theorem wit_GroupWords :
    (∃ s : State, ∃ k x : Nat, ∃ i : Issue, ∃ a : DWord, ∃ pa : Nat, ∃ nc : Bool, ∃ ps ps2 : List Post, InSlot s k 0 i ∧ k % 4 ∈ i.dies 0 ∧ rx (look s k 0 (k % 4)) x = .ok a ∧ accessCheck (look s k 0 (k % 4)) a.toNat 64 64 2 = .ok (pa, nc, ps) ∧ (let j := leNat (s.peek (leadUnit k) (pa + 40) 8 false)
      if j = 0 then ps2 = [] else ∃ pj ncj, accessCheck (look s k 0 (k % 4)) j 64 64 2 = .ok (pj, ncj, ps2)))
    ∧ (∃ s : State, ∃ k x : Nat, ∃ i : Issue, InSlot s k 0 i ∧ k % 4 ∉ i.dies 0)
    ∧ (∃ s : State, ∃ k x : Nat, ∃ i : Issue, ∃ a : DWord, ∃ pa : Nat, ∃ nc : Bool, ∃ ps : List Post, InSlot s k 0 i ∧ k % 4 ∈ i.dies 0 ∧ rx (look s k 0 (k % 4)) x = .ok a ∧ accessCheck (look s k 0 (k % 4)) a.toNat 64 64 2 = .ok (pa, nc, ps) ∧ joinCount s k a.toNat = 0)
    ∧ (∃ s : State, ∃ k x : Nat, ∃ i : Issue, ∃ a : DWord, ∃ pa : Nat, ∃ nc : Bool, ∃ ps : List Post, InSlot s k 0 i ∧ k % 4 ∈ i.dies 0 ∧ rx (look s k 0 (k % 4)) x = .ok a ∧ accessCheck (look s k 0 (k % 4)) a.toNat 64 64 2 = .ok (pa, nc, ps) ∧ joinCount s k a.toNat ≠ 0 ∧ (i.dies 0).length = 4 ∧ (s.core k).curRec.isSome = true ∧ (s.core k).curAll = false)
    ∧ (∃ s : State, ∃ k x : Nat, ∃ i : Issue, ∃ a : DWord, ∃ pa : Nat, ∃ nc : Bool, ∃ ps : List Post, InSlot s k 0 i ∧ k % 4 ∈ i.dies 0 ∧ rx (look s k 0 (k % 4)) x = .ok a ∧ accessCheck (look s k 0 (k % 4)) a.toNat 64 64 2 = .ok (pa, nc, ps) ∧ joinCount s k a.toNat ≠ 0 ∧ (i.dies 0).length < 4 ∧ (s.core k).curRec.isSome = true ∧ (s.core k).curAll = false)
    ∧ (∃ s : State, ∃ k p : Nat, ∃ i : Issue, InSlot s k 0 i ∧ i.dies 0 = [0, 1, 2, 3])
    ∧ (∃ s : State, ∃ k p d : Nat, ∃ i : Issue, InSlot s k 0 i ∧ d < 4)
    ∧ (∃ s : State, ∃ k : Nat, ∃ i : Issue, InSlot s k 0 i)
    ∧ (∃ s : State, ∃ k : Nat, ∃ i : Issue, InSlot s k 0 i ∧ (s.core k).curRec.isSome = true ∧ (s.core k).curAll = false)
    ∧ (∃ s : State, ∃ k e : Nat, e < 4 ∧ ((s.core k).curRec = none ∨ (s.core k).curAll = true)) := by
  refine ⟨?_, ?_, ?_, ?_, ?_, ?_, ?_, ?_, ?_, ?_⟩
  · refine ⟨(demoT 0 { demoTile with rc := [(1, { bytes := List.replicate 64 0 })] }), 0, 1, (demoIssue 0), ?_⟩
    apply Exists.intro
    apply Exists.intro
    apply Exists.intro
    apply Exists.intro
    refine ⟨[], ?_⟩
    apply And.intro
    · exact ⟨by decide +kernel, rfl, rfl, rfl, rfl, rfl, by decide +kernel⟩
    apply And.intro
    · decide +kernel
    apply And.intro
    · apply okEq (d := 0)
      decide +kernel
    apply And.intro
    · apply okEq (d := (0, false, []))
      decide +kernel
    dsimp only
    rw [if_pos (by decide +kernel)]
  · refine ⟨(demoC demoTile { demoCore 0 with issue := some ({ demoIssue 0 with leaves := [1, 2, 3, 4], words := [0x40000000, 0, 0, 0, 0, 0, 0, 0] }) }), 0, 1, ({ demoIssue 0 with leaves := [1, 2, 3, 4], words := [0x40000000, 0, 0, 0, 0, 0, 0, 0] }), ?_⟩
    apply And.intro
    · exact ⟨by decide +kernel, rfl, rfl, rfl, rfl, rfl, by decide +kernel⟩
    decide +kernel
  · refine ⟨(demo 0), 0, 1, (demoIssue 0), ?_⟩
    apply Exists.intro
    apply Exists.intro
    apply Exists.intro
    apply Exists.intro
    apply And.intro
    · exact ⟨by decide +kernel, rfl, rfl, rfl, rfl, rfl, by decide +kernel⟩
    apply And.intro
    · decide +kernel
    apply And.intro
    · apply okEq (d := 0)
      decide +kernel
    apply And.intro
    · apply okEq (d := (0, false, []))
      decide +kernel
    decide +kernel
  · refine ⟨{ paged with turn := .core 0, tiles := (demo 0).tiles, cores := [(0, { demoCore 0 with curRec := some 64 })], mem := (64, 2) :: paged.mem }, 0, 1, (demoIssue 0), ?_⟩
    apply Exists.intro
    apply Exists.intro
    apply Exists.intro
    apply Exists.intro
    apply And.intro
    · exact ⟨by decide +kernel, rfl, rfl, rfl, rfl, rfl, by decide +kernel⟩
    apply And.intro
    · decide +kernel
    apply And.intro
    · apply okEq (d := 0)
      decide +kernel
    apply And.intro
    · apply okEq (d := (0, false, []))
      decide +kernel
    apply And.intro
    · decide +kernel
    apply And.intro
    · decide +kernel
    apply And.intro
    · decide +kernel
    decide +kernel
  · refine ⟨{ paged with turn := .core 0, tiles := (demo 0).tiles, cores := [(0, { st := .running, issue := some ({ demoIssue 0 with leaves := [1, 2, 3, 4], words := [0x20000000, 0, 0, 0, 0, 0, 0, 0] }), curRec := some 64 })], mem := (64, 2) :: paged.mem }, 0, 1, ({ demoIssue 0 with leaves := [1, 2, 3, 4], words := [0x20000000, 0, 0, 0, 0, 0, 0, 0] }), ?_⟩
    apply Exists.intro
    apply Exists.intro
    apply Exists.intro
    apply Exists.intro
    apply And.intro
    · exact ⟨by decide +kernel, rfl, rfl, rfl, rfl, rfl, by decide +kernel⟩
    apply And.intro
    · decide +kernel
    apply And.intro
    · apply okEq (d := 0)
      decide +kernel
    apply And.intro
    · apply okEq (d := (0, false, []))
      decide +kernel
    apply And.intro
    · decide +kernel
    apply And.intro
    · decide +kernel
    apply And.intro
    · decide +kernel
    decide +kernel
  · refine ⟨(demo 0), 0, 1, (demoIssue 0), ?_⟩
    apply And.intro
    · exact ⟨by decide +kernel, rfl, rfl, rfl, rfl, rfl, by decide +kernel⟩
    decide +kernel
  · refine ⟨(demo 0), 0, 1, 1, (demoIssue 0), ?_⟩
    apply And.intro
    · exact ⟨by decide +kernel, rfl, rfl, rfl, rfl, rfl, by decide +kernel⟩
    decide +kernel
  · refine ⟨(demo 0), 0, (demoIssue 0), ?_⟩
    exact ⟨by decide +kernel, rfl, rfl, rfl, rfl, rfl, by decide +kernel⟩
  · refine ⟨(demoC demoTile { demoCore 0 with curRec := some 64 }), 0, (demoIssue 0), ?_⟩
    apply And.intro
    · exact ⟨by decide +kernel, rfl, rfl, rfl, rfl, rfl, by decide +kernel⟩
    apply And.intro
    · decide +kernel
    decide +kernel
  · refine ⟨(demo 1), 0, 1, ?_⟩
    apply And.intro
    · decide +kernel
    decide +kernel

theorem wit_QueueProgramOperations :
    (∃ s : State, ∃ p : Interp, ∃ d a b imm : Nat, s.hub.interp = some p)
    ∧ (∃ p : Interp, ∃ pc : Nat, p.loops = [])
    ∧ (∃ s : State, ∃ p : Interp, ∃ d a imm : Nat, s.hub.interp = some p)
    ∧ (∃ s : State, ∃ p : Interp, ∃ d a win imm v lg base : Nat, s.hub.interp = some p ∧ win ≠ 0 ∧ nth (0, 0) p.prog.windows win = (lg, base) ∧
      let va := base + ((p.get a).toNat + imm) % 2 ^ 64 % 2 ^ lg / 8 * 8
      s.hubNat (s.queue p.queue).cid va 8 = some v)
    ∧ (∃ s : State, ∃ p : Interp, ∃ d a win imm v lg base : Nat, s.hub.interp = some p ∧ win ≠ 0 ∧ nth (0, 0) p.prog.windows win = (lg, base) ∧
      let va := base + ((p.get a).toNat + imm) % 2 ^ 64 % 2 ^ lg / 8 * 8
      (s.hubWrite (s.queue p.queue).cid va (leBytes 8 (p.get d).toNat)).hub.interp = some p) := by
  refine ⟨?_, ?_, ?_, ?_, ?_⟩
  · refine ⟨{ State.reset with hub := { interp := some {} } }, ?_⟩
    apply Exists.intro
    refine ⟨1, 1, 1, 1, ?_⟩
    apply someEq (d := ({} : Interp))
    decide +kernel
  · refine ⟨({} : Interp), 1, ?_⟩
    decide +kernel
  · refine ⟨{ State.reset with hub := { interp := some {} } }, ?_⟩
    apply Exists.intro
    refine ⟨1, 1, 1, ?_⟩
    apply someEq (d := ({} : Interp))
    decide +kernel
  · refine ⟨{ paged with hub := { interp := some { prog := { windows := [(0, 0), (12, 8192)] } } } }, ({ prog := { windows := [(0, 0), (12, 8192)] } } : Interp), 1, 1, 1, 1, 0, 12, 8192, ?_⟩
    apply And.intro
    · decide +kernel
    apply And.intro
    · decide +kernel
    apply And.intro
    · decide +kernel
    decide +kernel
  · refine ⟨{ paged with hub := { interp := some { prog := { windows := [(0, 0), (12, 8192)] } } } }, ({ prog := { windows := [(0, 0), (12, 8192)] } } : Interp), 1, 1, 1, 1, 0, 12, 8192, ?_⟩
    apply And.intro
    · decide +kernel
    apply And.intro
    · decide +kernel
    apply And.intro
    · decide +kernel
    decide +kernel

theorem wit_QueueProgramControl :
    (∃ s : State, ∃ p : Interp, ∃ a b imm : Nat, s.hub.interp = some p)
    ∧ (∃ s : State, ∃ p : Interp, ∃ d mx len : Nat, s.hub.interp = some p)
    ∧ (∃ p : Interp, ∃ first last left pc : Nat, ∃ rest : List (Nat × Nat × Nat), p.loops = (first, last, left) :: rest ∧ pc ≤ last)
    ∧ (∃ p : Interp, ∃ first last left pc : Nat, ∃ rest : List (Nat × Nat × Nat), p.loops = (first, last, left) :: rest ∧ last < pc ∧ 1 < left)
    ∧ (∃ p : Interp, ∃ first last left pc : Nat, ∃ rest : List (Nat × Nat × Nat), p.loops = (first, last, left) :: rest ∧ last < pc ∧ left ≤ 1)
    ∧ (∃ s : State, ∃ p : Interp, ∃ imm : Nat, s.hub.interp = some p) := by
  refine ⟨?_, ?_, ?_, ?_, ?_, ?_⟩
  · refine ⟨{ State.reset with hub := { interp := some {} } }, ({} : Interp), 1, 1, 1, ?_⟩
    decide +kernel
  · refine ⟨{ State.reset with hub := { interp := some {} } }, ({} : Interp), 1, 1, 1, ?_⟩
    decide +kernel
  · refine ⟨({ loops := [(1, 2, 2)] } : Interp), 1, 2, 2, 2, [], ?_⟩
    apply And.intro
    · decide +kernel
    decide +kernel
  · refine ⟨({ loops := [(1, 2, 2)] } : Interp), 1, 2, 2, 3, [], ?_⟩
    apply And.intro
    · decide +kernel
    apply And.intro
    · decide +kernel
    decide +kernel
  · refine ⟨({ loops := [(1, 2, 1)] } : Interp), 1, 2, 1, 3, [], ?_⟩
    apply And.intro
    · decide +kernel
    apply And.intro
    · decide +kernel
    decide +kernel
  · refine ⟨{ State.reset with hub := { interp := some {} } }, ({} : Interp), 1, ?_⟩
    decide +kernel

theorem wit_BranchTree :
    (∃ c : OpCtx, ∃ t1 t2 t3 t4 : Nat, ∃ b1 b2 b3 b4 : Bool, rp c (t1 % 64) = .ok b1 ∧ rp c (t2 % 64) = .ok b2 ∧ rp c (t3 % 64) = .ok b3 ∧ rp c (t4 % 64) = .ok b4)
    ∧ (∃ s : State, ∃ k al t1 t2 t3 t4 act nx : Nat, ∃ i : Issue, ∃ L : Nat → Nat, k < 64 ∧ s.turn = .core k ∧ (s.core k).handler = none ∧ (s.core k).issue = some i ∧ i.brtDone = false ∧ al < 2 ∧ (∀ d, d < 4 → treeLeaf (look s k 7 d) t1 t2 t3 t4 = .ok (L d)) ∧ bundleChecks s k i.words = none ∧ (∀ d, d < 4 → (match decodeSlot 0 (nth 0 i.words 0) with
      | .op tag op => if tagIssues tag (L d) then ctlAction s k op ((leafTarget s (unitOf k d) (L d)).getD (i.addr + 1))
      else (0, (leafTarget s (unitOf k d) (L d)).getD (i.addr + 1))
      | _ => (0, (leafTarget s (unitOf k d) (L d)).getD (i.addr + 1))) = (act, nx)))
    ∧ (∃ s : State, ∃ k al t1 t2 t3 t4 d : Nat, ∃ i : Issue, ∃ L : Nat → Nat, k < 64 ∧ s.turn = .core k ∧ (s.core k).handler = none ∧ (s.core k).issue = some i ∧ i.brtDone = false ∧ al < 2 ∧ d < 4 ∧ (∀ d, d < 4 → treeLeaf (look s k 7 d) t1 t2 t3 t4 = .ok (L d)) ∧ nth 0 i.words 0 = 0 ∧ (leafTarget s (unitOf k d) (L d)).getD (i.addr + 1) ≠ (leafTarget s (leadUnit k) (L (k % 4))).getD (i.addr + 1))
    ∧ (∃ s : State, ∃ k al t1 t2 t3 t4 : Nat, ∃ L : Nat → Nat, ∃ g : Option Nat, InHandler s k ∧ (s.core k).stepPending = false ∧ (∀ d, d < 4 → treeLeaf (lookWord s k 7 d) t1 t2 t3 t4 = .ok (L d) ∧ leafTarget s (unitOf k d) (L d) = g))
    ∧ (∃ s : State, ∃ c al t1 t2 t3 t4 l : Nat, s.turn = .colt c ∧ treeLeaf (lookColt s c 7) t1 t2 t3 t4 = .ok l) := by
  refine ⟨?_, ?_, ?_, ?_, ?_⟩
  · refine ⟨(look (demo 1) 0 1 0), 6, 7, 8, 9, ?_⟩
    apply Exists.intro
    apply Exists.intro
    apply Exists.intro
    apply Exists.intro
    apply And.intro
    · apply okEq (d := false)
      decide +kernel
    apply And.intro
    · apply okEq (d := false)
      decide +kernel
    apply And.intro
    · apply okEq (d := false)
      decide +kernel
    apply okEq (d := false)
    decide +kernel
  · refine ⟨(atBranch demoTile {}), 0, 1, 6, 7, 8, 9, 0, 1, ({ demoIssue 0 with brtDone := false }), (fun _ => 5), ?_⟩
    apply And.intro
    · decide +kernel
    apply And.intro
    · decide +kernel
    apply And.intro
    · decide +kernel
    apply And.intro
    · decide +kernel
    apply And.intro
    · decide +kernel
    apply And.intro
    · decide +kernel
    apply And.intro
    · decide +kernel
    apply And.intro
    · decide +kernel
    decide +kernel
  · refine ⟨(atBranch { demoTile with arm := 1, bt := [(0, 9)] } {}), 0, 1, 2, 7, 8, 9, 1, ({ demoIssue 0 with brtDone := false }), (fun d => if d = 1 then 1 else 5), ?_⟩
    apply And.intro
    · decide +kernel
    apply And.intro
    · decide +kernel
    apply And.intro
    · decide +kernel
    apply And.intro
    · decide +kernel
    apply And.intro
    · decide +kernel
    apply And.intro
    · decide +kernel
    apply And.intro
    · decide +kernel
    apply And.intro
    · decide +kernel
    apply And.intro
    · decide +kernel
    decide +kernel
  · refine ⟨inHandler, 0, 1, 6, 7, 8, 9, (fun _ => 5), none, ?_⟩
    apply And.intro
    · exact ⟨by decide +kernel, rfl, by decide +kernel⟩
    apply And.intro
    · decide +kernel
    decide +kernel
  · refine ⟨(demoColt {} []), 0, 1, 6, 7, 8, 9, 5, ?_⟩
    apply And.intro
    · decide +kernel
    decide +kernel

theorem wit_SequencerMarks :
    (∃ s : State, ∃ k align lf lvl beg fin : Nat, ∃ i : Issue, k < 64 ∧ s.turn = .core k ∧ (s.core k).handler = none ∧ (s.core k).issue = some i ∧ i.brtDone = false ∧ align < 256 ∧ lf < 4 ∧ (beg = 1 → (s.core k).retLvl = some lvl) ∧ bundleChecks s k i.words = none ∧ (fin = 1 → ((s.core k).lvl lvl).active = true ∧ stridePending s k lvl = false) ∧ (let l := (s.core k).lvl lvl
      l.active = true → (lf = 1 → l.idx = 0) ∧ (lf = 2 → l.idx = l.count.toNat) ∧ (lf = 3 → l.idx = 0 ∨ l.idx = l.count.toNat)))
    ∧ (∃ s : State, ∃ k align lf lvl fin : Nat, ∃ i : Issue, k < 64 ∧ s.turn = .core k ∧ (s.core k).handler = none ∧ (s.core k).issue = some i ∧ i.brtDone = false ∧ align < 256 ∧ lf < 4 ∧ (s.core k).retLvl ≠ some lvl ∧ (lf = 2 → ((s.core k).lvl lvl).count.toNat = 0) ∧ (fin = 1 → stridePending s k lvl = false) ∧ bundleChecks (beginMark s k lvl i.addr) k i.words = none)
    ∧ (∃ s : State, ∃ k lvl addr : Nat, k < 64 ∧ ∃ j, j ≠ k)
    ∧ (∃ s : State, ∃ k lvl addr : Nat, k < 64 ∧ ∃ d p, d < 4 ∧ p < 8)
    ∧ (∃ s : State, ∃ k lvl addr : Nat, k < 64 ∧ ∃ u, u / 4 ≠ k)
    ∧ (∃ s : State, ∃ k lvl addr : Nat, k < 64)
    ∧ (∃ s : State, ∃ k align lf lvl : Nat, ∃ i : Issue, k < 64 ∧ s.turn = .core k ∧ (s.core k).handler = none ∧ (s.core k).issue = some i ∧ i.brtDone = false ∧ align < 256 ∧ ((s.core k).lvl lvl).active = false)
    ∧ (∃ s : State, ∃ k align lf lvl beg : Nat, ∃ i : Issue, k < 64 ∧ s.turn = .core k ∧ (s.core k).handler = none ∧ (s.core k).issue = some i ∧ i.brtDone = false ∧ align < 256 ∧ ((s.core k).lvl lvl).active = true ∧ stridePending s k lvl = true)
    ∧ (∃ s s1 : State, ∃ k align lf lvl beg : Nat, ∃ i : Issue, k < 64 ∧ s.turn = .core k ∧ (s.core k).handler = none ∧ (s.core k).issue = some i ∧ i.brtDone = false ∧ align < 256 ∧ (s1 = (if beg = 1 ∧ (s.core k).retLvl ≠ some lvl then beginMark s k lvl i.addr else s)) ∧ ((s1.core k).lvl lvl).active = true ∧ bundleChecks s1 k i.words = none ∧ (let l := (s1.core k).lvl lvl
      (lf = 1 ∧ l.idx ≠ 0) ∨ (lf = 2 ∧ l.idx ≠ l.count.toNat) ∨ (lf = 3 ∧ l.idx ≠ 0 ∧ l.idx ≠ l.count.toNat)) ∧ stridePending s k lvl = false)
    ∧ (∃ s s1 : State, ∃ k align lf lvl beg : Nat, ∃ i : Issue, k < 64 ∧ s.turn = .core k ∧ (s.core k).handler = none ∧ (s.core k).issue = some i ∧ i.brtDone = false ∧ align < 256 ∧ (s1 = (if beg = 1 ∧ (s.core k).retLvl ≠ some lvl then beginMark s k lvl i.addr else s)) ∧ ((s1.core k).lvl lvl).active = true ∧ bundleChecks s1 k i.words = none ∧ (let l := (s1.core k).lvl lvl
      (lf = 1 ∧ l.idx ≠ 0) ∨ (lf = 2 ∧ l.idx ≠ l.count.toNat) ∨ (lf = 3 ∧ l.idx ≠ 0 ∧ l.idx ≠ l.count.toNat)))
    ∧ (∃ s : State, ∃ k align lf lvl sl : Nat, ∃ i : Issue, ∃ ds : List Nat, k < 64 ∧ s.turn = .core k ∧ (s.core k).handler = none ∧ (s.core k).issue = some i ∧ i.brtDone = false ∧ align < 256 ∧ bundleChecks s k i.words = some (sl, ds)) := by
  refine ⟨?_, ?_, ?_, ?_, ?_, ?_, ?_, ?_, ?_, ?_, ?_⟩
  · refine ⟨(atBranch demoTile {}), 0, 1, 0, 1, 0, 0, ({ demoIssue 0 with brtDone := false }), ?_⟩
    apply And.intro
    · decide +kernel
    apply And.intro
    · decide +kernel
    apply And.intro
    · decide +kernel
    apply And.intro
    · decide +kernel
    apply And.intro
    · decide +kernel
    apply And.intro
    · decide +kernel
    apply And.intro
    · decide +kernel
    apply And.intro
    · decide +kernel
    apply And.intro
    · decide +kernel
    apply And.intro
    · intro h
      cases h
    decide +kernel
  · refine ⟨(atBranch demoTile {}), 0, 1, 1, 1, 0, ({ demoIssue 0 with brtDone := false }), ?_⟩
    apply And.intro
    · decide +kernel
    apply And.intro
    · decide +kernel
    apply And.intro
    · decide +kernel
    apply And.intro
    · decide +kernel
    apply And.intro
    · decide +kernel
    apply And.intro
    · decide +kernel
    apply And.intro
    · decide +kernel
    apply And.intro
    · decide +kernel
    apply And.intro
    · decide +kernel
    apply And.intro
    · decide +kernel
    decide +kernel
  · refine ⟨(atBranch demoTile {}), 0, 1, 1, ?_⟩
    apply And.intro
    · decide +kernel
    refine ⟨1, ?_⟩
    decide +kernel
  · refine ⟨(atBranch demoTile {}), 0, 1, 1, ?_⟩
    apply And.intro
    · decide +kernel
    refine ⟨1, 1, ?_⟩
    apply And.intro
    · decide +kernel
    decide +kernel
  · refine ⟨(atBranch demoTile {}), 0, 1, 1, ?_⟩
    apply And.intro
    · decide +kernel
    refine ⟨4, ?_⟩
    decide +kernel
  · refine ⟨(atBranch demoTile {}), 0, 1, 1, ?_⟩
    decide +kernel
  · refine ⟨(atBranch demoTile {}), 0, 1, 1, 1, ({ demoIssue 0 with brtDone := false }), ?_⟩
    apply And.intro
    · decide +kernel
    apply And.intro
    · decide +kernel
    apply And.intro
    · decide +kernel
    apply And.intro
    · decide +kernel
    apply And.intro
    · decide +kernel
    apply And.intro
    · decide +kernel
    decide +kernel
  · refine ⟨(atBranch demoTile { lvls := [(1, { active := true, s0r := 2 })], inflight := [{ due := 8, issue := 0, slot := 1, unit := 0, eff := .load 2 64 8 false false, inter := true, pend := true }] }), 0, 1, 1, 1, 1, ({ demoIssue 0 with brtDone := false }), ?_⟩
    apply And.intro
    · decide +kernel
    apply And.intro
    · decide +kernel
    apply And.intro
    · decide +kernel
    apply And.intro
    · decide +kernel
    apply And.intro
    · decide +kernel
    apply And.intro
    · decide +kernel
    apply And.intro
    · decide +kernel
    decide +kernel
  · refine ⟨(atBranch demoTile { lvls := [(1, { active := true, count := 2, idx := 1 })] }), (atBranch demoTile { lvls := [(1, { active := true, count := 2, idx := 1 })] }), 0, 1, 1, 1, 0, ({ demoIssue 0 with brtDone := false }), ?_⟩
    apply And.intro
    · decide +kernel
    apply And.intro
    · decide +kernel
    apply And.intro
    · decide +kernel
    apply And.intro
    · decide +kernel
    apply And.intro
    · decide +kernel
    apply And.intro
    · decide +kernel
    apply And.intro
    · rfl
    apply And.intro
    · decide +kernel
    apply And.intro
    · decide +kernel
    apply And.intro
    · decide +kernel
    decide +kernel
  · refine ⟨(atBranch demoTile { lvls := [(1, { active := true, count := 2, idx := 1 })] }), (atBranch demoTile { lvls := [(1, { active := true, count := 2, idx := 1 })] }), 0, 1, 1, 1, 0, ({ demoIssue 0 with brtDone := false }), ?_⟩
    apply And.intro
    · decide +kernel
    apply And.intro
    · decide +kernel
    apply And.intro
    · decide +kernel
    apply And.intro
    · decide +kernel
    apply And.intro
    · decide +kernel
    apply And.intro
    · decide +kernel
    apply And.intro
    · rfl
    apply And.intro
    · decide +kernel
    apply And.intro
    · decide +kernel
    decide +kernel
  · refine ⟨(demoC demoTile { st := .running, issue := some ({ demoIssue 0 with brtDone := false, words := [0, 0, 0, 0, 0, 0x03000000, 0, 0] }) }), 0, 1, 1, 1, 5, ({ demoIssue 0 with brtDone := false, words := [0, 0, 0, 0, 0, 0x03000000, 0, 0] }), [0, 1, 2, 3], ?_⟩
    apply And.intro
    · decide +kernel
    apply And.intro
    · decide +kernel
    apply And.intro
    · decide +kernel
    apply And.intro
    · decide +kernel
    apply And.intro
    · decide +kernel
    apply And.intro
    · decide +kernel
    decide +kernel

theorem wit_LoopEnd :
    (∃ (s : State) (k lvl : Nat), k < 64 ∧ let l := (s.core k).lvl lvl
      l.idx < l.count.toNat)
    ∧ (∃ (s : State) (k lvl : Nat), k < 64 ∧ let l := (s.core k).lvl lvl
      l.count.toNat ≤ l.idx) := by
  refine ⟨?_, ?_⟩
  · exact ⟨atBranch demoTile { lvls := [(1, { active := true, count := 2, idx := 1 })] }, 0, 1, by decide +kernel, by decide +kernel⟩
  · exact ⟨atBranch demoTile { lvls := [(1, { active := true, count := 2, idx := 2 })] }, 0, 1, by decide +kernel, by decide +kernel⟩

theorem wit_CoreDrains :
    (∃ s s1 : State, ∃ k : Nat, (s.core k).frozen = false ∧ s.hub.stalled = false ∧ drainCore s k = some s1 ∧ (s.core k).hold = .haltDrain)
    ∧ (∃ s s1 : State, ∃ k : Nat, (s.core k).frozen = false ∧ s.hub.stalled = false ∧ drainCore s k = some s1 ∧ (s.core k).hold = .endDrain ∧ nodesIdle s1 k = true)
    ∧ (∃ s s1 : State, ∃ k : Nat, (s.core k).frozen = false ∧ s.hub.stalled = false ∧ drainCore s k = some s1 ∧ (s.core k).hold = .plswDrain ∧ (s.core k).shadow.st = .shadowReady ∧ (s.core k).shadow.sec = (s.core k).active.sec + 1)
    ∧ (∃ s : State, ∃ k : Nat, (∀ e ∈ (s.core k).inflight, e.pend = false) ∧ drainsLate s k = false)
    ∧ (∃ s : State, ∃ k : Nat, (s.core k).shadow.st = .loading ∧ s.hub.stalled = false ∧ (∀ q, q < k / 4 → (s.core (4 * q + k % 4)).shadow.st ≠ .loading))
    ∧ (∃ s : State, ∃ k : Nat, (s.core k).issue = none ∧ (s.core k).handler = none ∧ (s.core k).frozen = false ∧ s.hub.stalled = false ∧ landsLate s k (s.core k).bn = false)
    ∧ (∃ s : State, ∃ k r pa size : Nat, ∃ sx nc : Bool, ∃ e : Entry, ∃ rest : List Entry, (s.core k).inflight = e :: rest ∧ e.pend = true ∧ e.eff = .load r pa size sx nc ∧ s.hub.stalled = false) := by
  refine ⟨?_, ?_, ?_, ?_, ?_, ?_, ?_⟩
  · refine ⟨(resting { st := .stalled, hold := .haltDrain }), ?_⟩
    apply Exists.intro
    refine ⟨0, ?_⟩
    apply And.intro
    · decide +kernel
    apply And.intro
    · decide +kernel
    apply And.intro
    · apply someEq (d := State.reset)
      decide +kernel
    decide +kernel
  · refine ⟨(resting { st := .stalled, hold := .endDrain }), ?_⟩
    apply Exists.intro
    refine ⟨0, ?_⟩
    apply And.intro
    · decide +kernel
    apply And.intro
    · decide +kernel
    apply And.intro
    · apply someEq (d := State.reset)
      decide +kernel
    apply And.intro
    · decide +kernel
    decide +kernel
  · refine ⟨(resting { st := .stalled, hold := .plswDrain, plane1 := { st := .shadowReady, sec := 1 } }), ?_⟩
    apply Exists.intro
    refine ⟨0, ?_⟩
    apply And.intro
    · decide +kernel
    apply And.intro
    · decide +kernel
    apply And.intro
    · apply someEq (d := State.reset)
      decide +kernel
    apply And.intro
    · decide +kernel
    apply And.intro
    · decide +kernel
    decide +kernel
  · refine ⟨(resting {}), 0, ?_⟩
    apply And.intro
    · decide +kernel
    decide +kernel
  · refine ⟨(resting { plane1 := { st := .loading } }), 0, ?_⟩
    apply And.intro
    · decide +kernel
    apply And.intro
    · decide +kernel
    decide +kernel
  · refine ⟨(resting {}), 0, ?_⟩
    apply And.intro
    · decide +kernel
    apply And.intro
    · decide +kernel
    apply And.intro
    · decide +kernel
    apply And.intro
    · decide +kernel
    decide +kernel
  · refine ⟨(resting { st := .running, inflight := [({ due := 1, issue := 0, slot := 1, unit := 0, eff := .load 1 64 8 false false, inter := true, pend := true } : Entry)] }), 0, 1, 64, 8, false, false, ({ due := 1, issue := 0, slot := 1, unit := 0, eff := .load 1 64 8 false false, inter := true, pend := true } : Entry), [], ?_⟩
    apply And.intro
    · decide +kernel
    apply And.intro
    · decide +kernel
    apply And.intro
    · decide +kernel
    decide +kernel

theorem wit_TrapEntry :
    (∃ s : State, ∃ k cause reason arg dmask slot : Nat, k < 64 ∧ 1 ≤ cause ∧ cause ≤ 14 ∧ cause ≠ 8 ∧ s.hub.stalled = false ∧ (s.core k).issue = none ∧ (s.core k).handler = none ∧ (∀ e ∈ (s.core k).inflight, e.pend = false) ∧ (¬(cause = 12 ∧ s.hub.dstate = 2 ∧ s.hub.attach = true)) ∧ 16 ≤ (s.core k).entryOf cause ∧ dmask % 16 ≠ 0 ∧ dmask < 16 ∧ slot < 16 ∧ landsLate s k (s.core k).bn = false ∧
      let s1 := landUpTo s k (s.core k).bn
      (s1.core k).pc = (s.core k).pc)
    ∧ (∃ s : State, ∃ k cause reason arg dmask slot : Nat, k < 64 ∧ 1 ≤ cause ∧ cause ≤ 14 ∧ s.hub.stalled = false ∧ (s.core k).issue = none ∧ dmask ≠ 0 ∧ dmask < 16 ∧ slot < 16 ∧ (∀ e ∈ (s.core k).inflight, e.pend = false) ∧ landsLate s k (s.core k).bn = false ∧ cause = 8 ∧ (s.core k).handler = none)
    ∧ (∃ s : State, ∃ k cause reason arg dmask slot : Nat, k < 64 ∧ 1 ≤ cause ∧ cause ≤ 14 ∧ s.hub.stalled = false ∧ (s.core k).issue = none ∧ dmask ≠ 0 ∧ dmask < 16 ∧ slot < 16 ∧ (∀ e ∈ (s.core k).inflight, e.pend = false) ∧ landsLate s k (s.core k).bn = false ∧ cause ≠ 8 ∧ (s.core k).handler = none ∧ (¬(cause = 12 ∧ s.hub.dstate = 2 ∧ s.hub.attach = true)) ∧ (s.core k).entryOf cause < 16)
    ∧ (∃ s : State, ∃ k cause reason arg dmask slot : Nat, k < 64 ∧ 1 ≤ cause ∧ cause ≤ 14 ∧ s.hub.stalled = false ∧ (s.core k).issue = none ∧ dmask ≠ 0 ∧ dmask < 16 ∧ slot < 16 ∧ (∀ e ∈ (s.core k).inflight, e.pend = false) ∧ landsLate s k (s.core k).bn = false ∧ (s.core k).handler.isSome = true)
    ∧ (∃ s : State, ∃ k cause sl : Nat, ∃ rs : List Raiser, ∃ i : Issue, (s.core k).issue = some i ∧ ∃ d, d < 4)
    ∧ (∃ s : State, ∃ k cause sl : Nat, ∃ rs : List Raiser, ∃ i : Issue, (s.core k).issue = some i)
    ∧ (∃ s : State, ∃ k cause reason arg dmask slot : Nat, s.hub.stalled = true)
    ∧ (∃ s : State, ∃ k cause sl : Nat, ∃ rs : List Raiser, ∃ e : Entry, (s.core k).issue = none ∧ (s.core k).handler = none ∧ e ∈ (s.core k).inflight ∧ (e.pend = true ∨ (e.due ≤ (s.core k).bn ∧ heldBack s e = true)) ∧ (∀ x ∈ (s.core k).inflight, canArrive s x = false)) := by
  refine ⟨?_, ?_, ?_, ?_, ?_, ?_, ?_, ?_⟩
  · refine ⟨(resting { st := .running, hstore := [(9, 16)] }), 0, 9, 1, 1, 1, 1, ?_⟩
    apply And.intro
    · decide +kernel
    apply And.intro
    · decide +kernel
    apply And.intro
    · decide +kernel
    apply And.intro
    · decide +kernel
    apply And.intro
    · decide +kernel
    apply And.intro
    · decide +kernel
    apply And.intro
    · decide +kernel
    apply And.intro
    · decide +kernel
    apply And.intro
    · decide +kernel
    apply And.intro
    · decide +kernel
    apply And.intro
    · decide +kernel
    apply And.intro
    · decide +kernel
    apply And.intro
    · decide +kernel
    apply And.intro
    · decide +kernel
    decide +kernel
  · refine ⟨(resting { st := .running }), 0, 8, 1, 1, 1, 1, ?_⟩
    apply And.intro
    · decide +kernel
    apply And.intro
    · decide +kernel
    apply And.intro
    · decide +kernel
    apply And.intro
    · decide +kernel
    apply And.intro
    · decide +kernel
    apply And.intro
    · decide +kernel
    apply And.intro
    · decide +kernel
    apply And.intro
    · decide +kernel
    apply And.intro
    · decide +kernel
    apply And.intro
    · decide +kernel
    apply And.intro
    · decide +kernel
    decide +kernel
  · refine ⟨(resting { st := .running }), 0, 1, 1, 1, 1, 1, ?_⟩
    apply And.intro
    · decide +kernel
    apply And.intro
    · decide +kernel
    apply And.intro
    · decide +kernel
    apply And.intro
    · decide +kernel
    apply And.intro
    · decide +kernel
    apply And.intro
    · decide +kernel
    apply And.intro
    · decide +kernel
    apply And.intro
    · decide +kernel
    apply And.intro
    · decide +kernel
    apply And.intro
    · decide +kernel
    apply And.intro
    · decide +kernel
    apply And.intro
    · decide +kernel
    apply And.intro
    · decide +kernel
    decide +kernel
  · refine ⟨(resting { st := .trapped, handler := some 20 }), 0, 1, 1, 1, 1, 1, ?_⟩
    apply And.intro
    · decide +kernel
    apply And.intro
    · decide +kernel
    apply And.intro
    · decide +kernel
    apply And.intro
    · decide +kernel
    apply And.intro
    · decide +kernel
    apply And.intro
    · decide +kernel
    apply And.intro
    · decide +kernel
    apply And.intro
    · decide +kernel
    apply And.intro
    · decide +kernel
    apply And.intro
    · decide +kernel
    decide +kernel
  · refine ⟨(demo 1), 0, 1, 1, [], (demoIssue 1), ?_⟩
    apply And.intro
    · decide +kernel
    refine ⟨1, ?_⟩
    decide +kernel
  · refine ⟨(demo 1), 0, 1, 1, [], (demoIssue 1), ?_⟩
    decide +kernel
  · refine ⟨{ paged with hub := { stalled := true } }, 0, 1, 1, 1, 1, 1, ?_⟩
    decide +kernel
  · refine ⟨(resting { st := .running, inflight := [({ due := 1, issue := 0, slot := 6, unit := 0, eff := .remote 1 6 .fp32 0 false 0 false, pend := true } : Entry)] }), 0, 1, 1, [], ({ due := 1, issue := 0, slot := 6, unit := 0, eff := .remote 1 6 .fp32 0 false 0 false, pend := true } : Entry), ?_⟩
    apply And.intro
    · decide +kernel
    apply And.intro
    · decide +kernel
    apply And.intro
    · decide +kernel
    apply And.intro
    · decide +kernel
    decide +kernel

theorem wit_TrapInHandler :
    (∃ s : State, ∃ k cause sl : Nat, ∃ rs : List Raiser, (s.core k).handler.isSome = true ∧ k ∈ (s.groupOf k).cores)
    ∧ (∃ s : State, ∃ k code info : Nat, InHandler s k ∧ k ∈ (s.groupOf k).cores) := by
  refine ⟨?_, ?_⟩
  · refine ⟨inHandler, 0, 1, 1, [], ?_⟩
    apply And.intro
    · decide +kernel
    decide +kernel
  · refine ⟨inHandler, 0, 1, 1, ?_⟩
    apply And.intro
    · exact ⟨by decide +kernel, rfl, by decide +kernel⟩
    decide +kernel

theorem wit_BranchTargets :
    (∃ s : State, ∃ k j addr : Nat, ∃ i : Issue, InSlot s k 0 i)
    ∧ (∃ s : State, ∃ k d n m j addr : Nat, d < 4 ∧ j < 4 ∧ addr < 4096 ∧ (s.core k).handler = none ∧ n + 1 ≤ m ∧ (s.core k).inflight = [{ due := n + 1, issue := n, slot := 0, unit := unitOf k d, eff := .bt j (BitVec.ofNat 12 addr) }] ∧
      let t := landUpTo s k m
      (t.armOf (unitOf k d)).getLsbD j = true)
    ∧ (∃ s : State, ∃ k d n m j addr : Nat, d < 4 ∧ j < 4 ∧ addr < 4096 ∧ (s.core k).handler = none ∧ n + 1 ≤ m ∧ (s.core k).inflight = [{ due := n + 1, issue := n, slot := 0, unit := unitOf k d, eff := .bt j (BitVec.ofNat 12 addr) }] ∧ ∃ u b, (u ≠ unitOf k d ∨ b ≠ j))
    ∧ (∃ s : State, ∃ k d n m j addr : Nat, d < 4 ∧ j < 4 ∧ addr < 4096 ∧ (s.core k).handler = none ∧ n + 1 ≤ m ∧ (s.core k).inflight = [{ due := n + 1, issue := n, slot := 0, unit := unitOf k d, eff := .bt j (BitVec.ofNat 12 addr) }]) := by
  refine ⟨?_, ?_, ?_, ?_⟩
  · refine ⟨(demo 0), 0, 1, 1, (demoIssue 0), ?_⟩
    exact ⟨by decide +kernel, rfl, rfl, rfl, rfl, rfl, by decide +kernel⟩
  · refine ⟨{ resting { st := .running, inflight := [({ due := 4, issue := 3, slot := 0, unit := 1, eff := .bt 2 (BitVec.ofNat 12 7) } : Entry)] } with tiles := [(1, { arm := 15 })] }, 0, 1, 3, 4, 2, 7, ?_⟩
    apply And.intro
    · decide +kernel
    apply And.intro
    · decide +kernel
    apply And.intro
    · decide +kernel
    apply And.intro
    · decide +kernel
    apply And.intro
    · decide +kernel
    apply And.intro
    · decide +kernel
    decide +kernel
  · refine ⟨(resting { st := .running, inflight := [({ due := 4, issue := 3, slot := 0, unit := 1, eff := .bt 2 (BitVec.ofNat 12 7) } : Entry)] }), 0, 1, 3, 4, 2, 7, ?_⟩
    apply And.intro
    · decide +kernel
    apply And.intro
    · decide +kernel
    apply And.intro
    · decide +kernel
    apply And.intro
    · decide +kernel
    apply And.intro
    · decide +kernel
    apply And.intro
    · decide +kernel
    refine ⟨0, 2, ?_⟩
    decide +kernel
  · refine ⟨(resting { st := .running, inflight := [({ due := 4, issue := 3, slot := 0, unit := 1, eff := .bt 2 (BitVec.ofNat 12 7) } : Entry)] }), 0, 1, 3, 4, 2, 7, ?_⟩
    apply And.intro
    · decide +kernel
    apply And.intro
    · decide +kernel
    apply And.intro
    · decide +kernel
    apply And.intro
    · decide +kernel
    apply And.intro
    · decide +kernel
    decide +kernel

theorem wit_DieIdentity :
    (∃ s : State, ∃ k d xd : Nat, ∃ i : Issue, InSlot s k 0 i ∧ d < 4 ∧ d ∈ i.dies 0)
    ∧ (∃ t : Tile, ∃ k d : Nat, k < 64 ∧ d < 4) := by
  refine ⟨?_, ?_⟩
  · refine ⟨(demo 0), 0, 1, 1, (demoIssue 0), ?_⟩
    apply And.intro
    · exact ⟨by decide +kernel, rfl, rfl, rfl, rfl, rfl, by decide +kernel⟩
    apply And.intro
    · decide +kernel
    decide +kernel
  · refine ⟨demoTile, 0, 1, ?_⟩
    apply And.intro
    · decide +kernel
    decide +kernel

theorem wit_WaitAndBarrierEvents_1 :
    (∃ s : State, ∃ u ln : Nat, s.hub.stalled = false)
    ∧ (∃ s : State, ∃ u ln : Nat, s.hub.stalled = true ∧ (∃ e ∈ (s.tile u).mon, e.line = ln))
    ∧ (∃ s : State, ∃ u ln : Nat, ∃ rest : List Nat, s.hub.stalled = false ∧ (s.tile u).wakes = ln :: rest)
    ∧ (∃ s : State, ∃ u : Nat, s.hub.stalled = false)
    ∧ (∃ s : State, ∃ k kind scope : Nat, ∃ words : List (Nat × Nat), (s.core k).hold = .sync kind scope words ∧ s.hub.stalled = false ∧
      let s1 := arriveAll s k
      landsLate s1 k (s.core k).bn = false ∧ (kind ≠ 0 → ∀ e ∈ (s1.core k).inflight, e.pend = false) ∧ (kind ≠ 0 → scope = 5 → ∀ p ∈ words, rstOutstanding (landUpTo s1 k (s.core k).bn) (unitOf k p.1) = false))
    ∧ (∃ s : State, ∃ u scope : Nat, u < 256 ∧ ∃ v, v ≠ u)
    ∧ (∃ s : State, ∃ u scope : Nat, u < 256 ∧ scope ≠ 0 ∧ scope ≠ 3)
    ∧ (∃ s : State, ∃ u scope : Nat, u < 256)
    ∧ (∃ s : State, ∃ u scope w : Nat, u < 256 ∧
      let rs := boundTo s (s.cidOf u) w
      8 < rs.length)
    ∧ (∃ s : State, ∃ u scope w : Nat, u < 256 ∧
      let rs := boundTo s (s.cidOf u) w
      rs.length ≤ 8)
    ∧ (∃ s : State, ∃ u scope w : Nat, u < 256 ∧
      let rs := boundTo s (s.cidOf u) w
      rs.length ≤ 8 ∧ ∃ v, v ≠ u)
    ∧ (∃ s : State, ∃ u scope w : Nat, u < 256 ∧
      let rs := boundTo s (s.cidOf u) w
      rs.length ≤ 8)
    ∧ (∃ s : State, ∃ u n bytes : Nat, ∃ cmd : NodeCmd, ∃ nd sh sw xa key : Nat, ∃ r : List (Int × Nat) × List (Int × Nat), ∃ rest : List (List (Int × Nat) × List (Int × Nat)), (s.tile u).getNode n = { st := .running, count := 0, cmd := some cmd } ∧ cmd.instr = .copy nd sh sw xa ∧ abarKey u cmd.desc = some key ∧ (copyRows u cmd).drop cmd.result = r :: rest ∧ s.hub.stalled = false ∧ s.hub.fenced = false ∧ (r.2.map (·.2)).sum = bytes)
    ∧ (∃ s : State, ∃ kern scope inst bid : Nat,
      let key := barrierKey scope inst bid

      let b := (s.group kern).barrier key
      b.st = .complete ∧ s.hub.stalled = false ∧ s.groupAway kern = false) := by
  refine ⟨?_, ?_, ?_, ?_, ?_, ?_, ?_, ?_, ?_, ?_, ?_, ?_, ?_, ?_⟩
  · refine ⟨(demo 1), 1, 1, ?_⟩
    decide +kernel
  · refine ⟨{ State.reset with tiles := [(1, { mon := [{ line := 1 }] })], hub := { stalled := true } }, 1, 1, ?_⟩
    apply And.intro
    · decide +kernel
    decide +kernel
  · refine ⟨{ State.reset with tiles := [(1, { mon := [{ line := 1 }], wakes := [1] })] }, 1, 1, [], ?_⟩
    apply And.intro
    · decide +kernel
    decide +kernel
  · refine ⟨(demo 1), 1, ?_⟩
    decide +kernel
  · refine ⟨(resting { st := .stalled, hold := .sync 1 5 [(0, 0)] }), 0, 1, 5, [(0, 0)], ?_⟩
    apply And.intro
    · decide +kernel
    apply And.intro
    · decide +kernel
    apply And.intro
    · decide +kernel
    apply And.intro
    · decide +kernel
    decide +kernel
  · refine ⟨(demo 1), 0, 1, ?_⟩
    apply And.intro
    · decide +kernel
    refine ⟨1, ?_⟩
    decide +kernel
  · refine ⟨(demo 1), 0, 1, ?_⟩
    apply And.intro
    · decide +kernel
    apply And.intro
    · decide +kernel
    decide +kernel
  · refine ⟨(demo 1), 1, 1, ?_⟩
    decide +kernel
  · refine ⟨{ paged with ctxs := [(0, { (paged.ctx 0) with regions := (List.range 9).map (fun i => (i, { base := 65536 * (i + 1), bytes := 64, sync := 64, valid := true })) })] }, 0, 1, ((demoTlb.frame + (64 - demoTlb.vbase)) / 64), ?_⟩
    apply And.intro
    · decide +kernel
    decide +kernel
  · refine ⟨(demo 1), 1, 1, 1, ?_⟩
    apply And.intro
    · decide +kernel
    decide +kernel
  · refine ⟨(demo 1), 0, 1, 1, ?_⟩
    apply And.intro
    · decide +kernel
    apply And.intro
    · decide +kernel
    refine ⟨1, ?_⟩
    decide +kernel
  · refine ⟨(demo 1), 1, 1, 1, ?_⟩
    apply And.intro
    · decide +kernel
    decide +kernel
  · refine ⟨{ demo 1 with tiles := [(1, { nodes := [(1, { st := .running, cmd := some ({ instr := .copy 1 1 0 1, desc := [0, 0, 0, 0, 1, 0, 0, 0, 131, 7], shA := [(1, 16), (2, 1), (3, 1), (4, 1), (10, 7)], shB := [(1, 16), (2, 1), (3, 1), (4, 1), (10, 7)] }) })] })] }, 1, 1, 64, ({ instr := .copy 1 1 0 1, desc := [0, 0, 0, 0, 1, 0, 0, 0, 131, 7], shA := [(1, 16), (2, 1), (3, 1), (4, 1), (10, 7)], shB := [(1, 16), (2, 1), (3, 1), (4, 1), (10, 7)] } : NodeCmd), 1, 1, 0, 1, ?_⟩
    apply Exists.intro
    apply Exists.intro
    apply Exists.intro
    apply And.intro
    · decide +kernel
    apply And.intro
    · decide +kernel
    apply And.intro
    · apply someEq (d := 0)
      decide +kernel
    apply And.intro
    · apply consEq (d := default)
      decide +kernel
    apply And.intro
    · decide +kernel
    apply And.intro
    · decide +kernel
    decide +kernel
  · refine ⟨{ State.reset with hub := { groups := [(7, { st := .running, cores := [0], barriers := [(barrierKey 3 0 4, some { st := .complete })] })] } }, 7, 3, 0, 4, ?_⟩
    apply And.intro
    · decide +kernel
    apply And.intro
    · decide +kernel
    decide +kernel

theorem wit_WaitAndBarrierEvents_2 :
    (∃ s : State, ∃ kern scope inst bid : Nat, s.hub.stalled = false ∧ s.groupAway kern = false)
    ∧ (∃ s : State, ∃ kern scope inst bid : Nat, s.hub.stalled = false ∧ s.groupAway kern = false)
    ∧ (∃ s : State, ∃ kern bid rank ph : Nat, ph < 2 ∧
      let key := barrierKey 5 0 bid

      let b := ((s.group kern).barrier key).settled
      (s.group kern).st = .running ∧ s.hub.stalled = false ∧ s.groupAway kern = false ∧ b.phase = decide (ph = 1) ∧ rank ∈ s.podChildren)
    ∧ (∃ s : State, ∃ kern bid ph : Nat, ph < 2 ∧
      let key := barrierKey 5 0 bid

      let b := (s.group kern).barrier key
      (s.group kern).st = .running ∧ s.hub.stalled = false ∧ s.groupAway kern = false ∧ b.phase = decide (ph = 1) ∧ b.sent = true ∧ b.st ≠ .complete ∧ s.podWhole = true) := by
  refine ⟨?_, ?_, ?_, ?_⟩
  · refine ⟨(demo 1), 1, 1, 1, 1, ?_⟩
    apply And.intro
    · decide +kernel
    decide +kernel
  · refine ⟨(demo 1), 1, 1, 1, 1, ?_⟩
    apply And.intro
    · decide +kernel
    decide +kernel
  · refine ⟨{ State.reset with hub := { jobctx := 0x8000000000000000, jobmap := [(0, 0)], podsize := 2, jobrank := 0x200000000, groups := [(7, { st := .running, cores := [0], barriers := [(barrierKey 5 0 4, some { phase := false })] })] } }, 7, 4, 1, 0, ?_⟩
    apply And.intro
    · decide +kernel
    apply And.intro
    · decide +kernel
    apply And.intro
    · decide +kernel
    apply And.intro
    · decide +kernel
    apply And.intro
    · decide +kernel
    decide +kernel
  · refine ⟨{ State.reset with hub := { groups := [(7, { st := .running, cores := [0], barriers := [(barrierKey 5 0 4, some { sent := true })] })] } }, 7, 4, 0, ?_⟩
    apply And.intro
    · decide +kernel
    apply And.intro
    · decide +kernel
    apply And.intro
    · decide +kernel
    apply And.intro
    · decide +kernel
    apply And.intro
    · decide +kernel
    apply And.intro
    · decide +kernel
    apply And.intro
    · decide +kernel
    decide +kernel

theorem wit_GroupEvents :
    (∃ s s1 : State, ∃ k : Nat, (s.core k).frozen = false ∧ s.hub.stalled = false ∧ drainCore s k = some s1 ∧ nodesIdle s1 k = true ∧ remoteIdle s1 k = true ∧ (s.core k).hold = .suspDrain)
    ∧ (∃ s s1 : State, ∃ k : Nat, (s.core k).frozen = false ∧ s.hub.stalled = false ∧ drainCore s k = some s1 ∧ nodesIdle s1 k = true ∧ remoteIdle s1 k = true ∧ ∃ a, (s.core k).hold = .yieldDrain a)
    ∧ (∃ s s1 : State, ∃ k : Nat, (s.core k).frozen = false ∧ s.hub.stalled = false ∧ drainCore s k = some s1 ∧ nodesIdle s1 k = true ∧ remoteIdle s1 k = true ∧ ∃ j a, (s.core k).hold = .joinDrain j a)
    ∧ (∃ s : State, ∃ k : Nat, (s.core k).curRec = none)
    ∧ (∃ s : State, ∃ k : Nat, ∃ rel : Bool, ∃ d, d < 4)
    ∧ (∃ s : State, ∃ k : Nat, ∃ rel : Bool, ∃ u, u / 4 ≠ k)
    ∧ (∃ s : State, ∃ k : Nat, ∃ rel : Bool, ∃ j, j ≠ k)
    ∧ (∃ s : State, ∃ k r : Nat, ∃ rest : List Nat,
      let c := s.core k

      let s1 := s.setCore k { c with deque := rest }
      c.st = .suspended ∧ c.frozen = false ∧ s.hub.stalled = false ∧ s.hub.fenced = false ∧ c.deque = r :: rest ∧ (s.devPa c.cid r).isSome = true ∧ recAll (recHeader s1 c.cid r) = false)
    ∧ (∃ s : State, ∃ kern r : Nat, ∃ rest : List Nat,
      let g := s.group kern
      g.held = r :: rest ∧ g.st = .regrouping ∧ allSuspended s g = true ∧ dequesEmpty s kern = true ∧ (s.devPa g.cid r).isSome = true ∧ (∀ k ∈ g.cores, (s.core k).group = kern → (s.core k).frozen = false) ∧ s.hub.stalled = false)
    ∧ (∃ s : State, ∃ kern : Nat,
      let g := s.group kern
      (g.st = .running ∨ g.st = .regrouping) ∧ allSuspended s g = true ∧ dequesEmpty s kern = true ∧ g.held = [] ∧ (∀ k ∈ g.cores, (s.core k).group = kern → (s.core k).frozen = false) ∧ s.hub.stalled = false ∧ postsLeft s kern = false) := by
  refine ⟨?_, ?_, ?_, ?_, ?_, ?_, ?_, ?_, ?_, ?_⟩
  · refine ⟨(resting { st := .stalled, hold := .suspDrain }), ?_⟩
    apply Exists.intro
    refine ⟨0, ?_⟩
    apply And.intro
    · decide +kernel
    apply And.intro
    · decide +kernel
    apply And.intro
    · apply someEq (d := State.reset)
      decide +kernel
    apply And.intro
    · decide +kernel
    apply And.intro
    · decide +kernel
    decide +kernel
  · refine ⟨(resting { st := .stalled, hold := .yieldDrain 7 }), ?_⟩
    apply Exists.intro
    refine ⟨0, ?_⟩
    apply And.intro
    · decide +kernel
    apply And.intro
    · decide +kernel
    apply And.intro
    · apply someEq (d := State.reset)
      decide +kernel
    apply And.intro
    · decide +kernel
    apply And.intro
    · decide +kernel
    refine ⟨7, ?_⟩
    decide +kernel
  · refine ⟨(resting { st := .stalled, hold := .joinDrain 64 7 }), ?_⟩
    apply Exists.intro
    refine ⟨0, ?_⟩
    apply And.intro
    · decide +kernel
    apply And.intro
    · decide +kernel
    apply And.intro
    · apply someEq (d := State.reset)
      decide +kernel
    apply And.intro
    · decide +kernel
    apply And.intro
    · decide +kernel
    refine ⟨64, 7, ?_⟩
    decide +kernel
  · refine ⟨(resting { st := .suspended }), 0, ?_⟩
    decide +kernel
  · refine ⟨(resting { st := .suspended }), 0, true, 1, ?_⟩
    decide +kernel
  · refine ⟨(resting { st := .suspended }), 0, true, 4, ?_⟩
    decide +kernel
  · refine ⟨(resting { st := .suspended }), 0, true, 1, ?_⟩
    decide +kernel
  · refine ⟨(resting { st := .suspended, deque := [64] }), 0, 64, [], ?_⟩
    apply And.intro
    · decide +kernel
    apply And.intro
    · decide +kernel
    apply And.intro
    · decide +kernel
    apply And.intro
    · decide +kernel
    apply And.intro
    · decide +kernel
    apply And.intro
    · decide +kernel
    decide +kernel
  · refine ⟨{ resting { st := .suspended } with hub := { groups := [(0, { st := .regrouping, cores := [0], held := [64] })] } }, 0, 64, [], ?_⟩
    apply And.intro
    · decide +kernel
    apply And.intro
    · decide +kernel
    apply And.intro
    · decide +kernel
    apply And.intro
    · decide +kernel
    apply And.intro
    · decide +kernel
    apply And.intro
    · decide +kernel
    decide +kernel
  · refine ⟨{ resting { st := .suspended } with hub := { groups := [(0, { st := .running, cores := [0], held := [] })] } }, 0, ?_⟩
    apply And.intro
    · decide +kernel
    apply And.intro
    · decide +kernel
    apply And.intro
    · decide +kernel
    apply And.intro
    · decide +kernel
    apply And.intro
    · decide +kernel
    apply And.intro
    · decide +kernel
    decide +kernel

theorem wit_PredicateResults :
    (∃ s : State, ∃ k d a b cc : Nat, ∃ i : Issue, ∃ va vb : Nat → DWord, cc < 6 ∧ InSlot s k 0 i ∧ (∀ e ∈ i.dies 0, rx (look s k 0 e) a = .ok (va e)) ∧ (∀ e ∈ i.dies 0, rx (look s k 0 e) b = .ok (vb e)))
    ∧ (∃ s : State, ∃ k d a cc m : Nat, ∃ i : Issue, ∃ va : Nat → DWord, cc < 6 ∧ InSlot s k 0 i ∧ (∀ e ∈ i.dies 0, rx (look s k 0 e) a = .ok (va e)))
    ∧ (∃ s : State, ∃ k d a b o : Nat, ∃ i : Issue, ∃ va vb : Nat → Bool, o < 7 ∧ InSlot s k 0 i ∧ (∀ e ∈ i.dies 0, rp (look s k 0 e) a = .ok (va e)) ∧ (∀ e ∈ i.dies 0, rp (look s k 0 e) b = .ok (vb e)))
    ∧ (∃ s : State, ∃ k d a : Nat, ∃ i : Issue, ∃ va : Nat → Bool, InSlot s k 0 i ∧ (∀ e ∈ i.dies 0, rp (look s k 0 e) a = .ok (va e)))
    ∧ (∃ s : State, ∃ k d v : Nat, ∃ i : Issue, v < 2 ∧ InSlot s k 0 i)
    ∧ (∃ s : State, ∃ e : Entry, ∃ d : Nat, ∃ b : Bool, e.eff = .pred d b ∧ e.fl = 0 ∧ e.mx = 0) := by
  refine ⟨?_, ?_, ?_, ?_, ?_, ?_⟩
  · refine ⟨(demo 0), 0, 1, 1, 1, 1, (demoIssue 0), ?_⟩
    apply Exists.intro
    apply Exists.intro
    apply And.intro
    · decide +kernel
    apply And.intro
    · exact ⟨by decide +kernel, rfl, rfl, rfl, rfl, rfl, by decide +kernel⟩
    apply And.intro
    · apply each
      intro e he
      apply okEach (d := 0) e he; decide +kernel
    apply each
    intro e he
    apply okEach (d := 0) e he; decide +kernel
  · refine ⟨(demo 0), 0, 1, 1, 1, 1, (demoIssue 0), ?_⟩
    apply Exists.intro
    apply And.intro
    · decide +kernel
    apply And.intro
    · exact ⟨by decide +kernel, rfl, rfl, rfl, rfl, rfl, by decide +kernel⟩
    apply each
    intro e he
    apply okEach (d := 0) e he; decide +kernel
  · refine ⟨(demo 0), 0, 1, 1, 1, 1, (demoIssue 0), ?_⟩
    apply Exists.intro
    apply Exists.intro
    apply And.intro
    · decide +kernel
    apply And.intro
    · exact ⟨by decide +kernel, rfl, rfl, rfl, rfl, rfl, by decide +kernel⟩
    apply And.intro
    · apply each
      intro e he
      apply okEach (d := false) e he; decide +kernel
    apply each
    intro e he
    apply okEach (d := false) e he; decide +kernel
  · refine ⟨(demo 0), 0, 1, 1, (demoIssue 0), ?_⟩
    apply Exists.intro
    apply And.intro
    · exact ⟨by decide +kernel, rfl, rfl, rfl, rfl, rfl, by decide +kernel⟩
    apply each
    intro e he
    apply okEach (d := false) e he; decide +kernel
  · refine ⟨(demo 0), 0, 1, 1, (demoIssue 0), ?_⟩
    apply And.intro
    · decide +kernel
    exact ⟨by decide +kernel, rfl, rfl, rfl, rfl, rfl, by decide +kernel⟩
  · refine ⟨(demo 1), ({ due := 1, issue := 0, slot := 1, unit := 0, eff := .pred 1 true } : Entry), 1, true, ?_⟩
    apply And.intro
    · decide +kernel
    apply And.intro
    · decide +kernel
    decide +kernel

theorem wit_LoopBoundary :
    (∃ s s1 : State, ∃ kern : Nat, ∃ l : LoopRec, (s.group kern).loop = some l ∧ allAtCommit s kern = true ∧ l.asleep = false ∧ (∀ j ∈ l.jobs, laneReady s (s.group kern).cid l j.1 = true) ∧ drainAll s (s.group kern).liveCores = some s1 ∧
      let s2 := ((List.range 256).zip l.lanes).foldl (fun t p => if p.2 < l.nseq ∧ liveState (t.recState kern p.2) = true then
      commitLane t (t.seqRef kern p.2) p.1 (l.draft (s1.ctx (s.group kern).cid).pend) else t) s1

      let s3 := (s2.hub.forkCopies.drop s1.hub.forkCopies.length).foldl (fun t c => takeSlot (takeSlot t (forkXfer c.2.2) c.2.1) (forkXfer c.2.2) c.2.2) s2
      (stopNow s3 kern = true ∨ (l.maxit ≠ 0 ∧ l.iter + 1 = l.maxit)))
    ∧ (∃ s s1 : State, ∃ kern : Nat, ∃ l : LoopRec, (s.group kern).loop = some l ∧ allAtCommit s kern = true ∧ l.asleep = false ∧ (∀ j ∈ l.jobs, laneReady s (s.group kern).cid l j.1 = true) ∧ drainAll s (s.group kern).liveCores = some s1 ∧
      let s2 := ((List.range 256).zip l.lanes).foldl (fun t p => if p.2 < l.nseq ∧ liveState (t.recState kern p.2) = true then
      commitLane t (t.seqRef kern p.2) p.1 (l.draft (s1.ctx (s.group kern).cid).pend) else t) s1

      let s3 := (s2.hub.forkCopies.drop s1.hub.forkCopies.length).foldl (fun t c => takeSlot (takeSlot t (forkXfer c.2.2) c.2.1) (forkXfer c.2.2) c.2.2) s2
      stopNow s3 kern = false ∧ (l.maxit = 0 ∨ l.iter + 1 ≠ l.maxit))
    ∧ (∃ s : State, ∃ kern : Nat, ∃ l : LoopRec, (s.group kern).loop = some l ∧ allAtCommit s kern = true ∧ l.asleep = true ∧ seqGet s (s.group kern).cid (l.seqt + 24) 1 = 1)
    ∧ (∃ s : State, ∃ kern : Nat, ∃ l : LoopRec, (s.group kern).loop = some l ∧ allAtCommit s kern = true ∧ l.asleep = true ∧ seqGet s (s.group kern).cid (l.seqt + 24) 1 ≠ 1 ∧ l.woken = true)
    ∧ (∃ s : State, ∃ kern : Nat, ∃ l : LoopRec, (s.group kern).loop = some l ∧ allAtCommit s kern = true ∧ l.asleep = true ∧ seqGet s (s.group kern).cid (l.seqt + 24) 1 ≠ 1 ∧ l.woken = false)
    ∧ (∃ s : State, ∃ kern k : Nat, k ∈ (s.group kern).liveCores)
    ∧ (∃ l : LoopRec, ∃ n d : Nat, l.buckets ≠ [] ∧ bucketsOk l.buckets = true ∧ n ≤ l.cap) := by
  refine ⟨?_, ?_, ?_, ?_, ?_, ?_, ?_⟩
  · refine ⟨{ resting { st := .stalled, hold := .boundary } with hub := { groups := [(0, { st := .running, cores := [0], loop := some ({ demoLoop with maxit := 1 }) })] }, mem := paged.mem }, ?_⟩
    apply Exists.intro
    refine ⟨0, ({ demoLoop with maxit := 1 }), ?_⟩
    apply And.intro
    · decide +kernel
    apply And.intro
    · decide +kernel
    apply And.intro
    · decide +kernel
    apply And.intro
    · decide +kernel
    apply And.intro
    · apply someEq (d := State.reset)
      decide +kernel
    decide +kernel
  · refine ⟨{ resting { st := .stalled, hold := .boundary } with hub := { groups := [(0, { st := .running, cores := [0], loop := some (demoLoop) })] }, mem := paged.mem }, ?_⟩
    apply Exists.intro
    refine ⟨0, (demoLoop), ?_⟩
    apply And.intro
    · decide +kernel
    apply And.intro
    · decide +kernel
    apply And.intro
    · decide +kernel
    apply And.intro
    · decide +kernel
    apply And.intro
    · apply someEq (d := State.reset)
      decide +kernel
    apply And.intro
    · decide +kernel
    decide +kernel
  · refine ⟨{ resting { st := .stalled, hold := .boundary } with hub := { groups := [(0, { st := .running, cores := [0], loop := some ({ demoLoop with asleep := true }) })] }, mem := (24, 1) :: paged.mem }, 0, ({ demoLoop with asleep := true }), ?_⟩
    apply And.intro
    · decide +kernel
    apply And.intro
    · decide +kernel
    apply And.intro
    · decide +kernel
    decide +kernel
  · refine ⟨{ resting { st := .stalled, hold := .boundary } with hub := { groups := [(0, { st := .running, cores := [0], loop := some ({ demoLoop with asleep := true, woken := true }) })] }, mem := paged.mem }, 0, ({ demoLoop with asleep := true, woken := true }), ?_⟩
    apply And.intro
    · decide +kernel
    apply And.intro
    · decide +kernel
    apply And.intro
    · decide +kernel
    apply And.intro
    · decide +kernel
    decide +kernel
  · refine ⟨{ resting { st := .stalled, hold := .boundary } with hub := { groups := [(0, { st := .running, cores := [0], loop := some ({ demoLoop with asleep := true }) })] }, mem := paged.mem }, 0, ({ demoLoop with asleep := true }), ?_⟩
    apply And.intro
    · decide +kernel
    apply And.intro
    · decide +kernel
    apply And.intro
    · decide +kernel
    apply And.intro
    · decide +kernel
    decide +kernel
  · refine ⟨{ State.reset with cores := [(0, { st := .running })], hub := { groups := [(0, { st := .running, cores := [0] })] } }, 0, 0, ?_⟩
    decide +kernel
  · refine ⟨demoLoop, 1, 1, ?_⟩
    apply And.intro
    · decide +kernel
    apply And.intro
    · decide +kernel
    decide +kernel

theorem wit_SequenceServices :
    (∃ s : State, ∃ kern u z v y : Nat, ∃ rest : List (Nat × Nat × Nat), z < 64 ∧ y < 64 ∧ (u ≠ v ∨ z ≠ y) ∧ s.hub.stalled = false ∧ s.hub.forkCopies = (kern, 64 * u + z, 64 * v + y) :: rest ∧
      let src := (s.tile u).getSlot z

      let x := forkXfer (64 * v + y)
      x ∈ (s.tile v).mule ∧ (s.tile u).mayMove x = true ∧ (s.tile v).mayMove x = true ∧ (src.before = .live ∨ src.before = .loaded) ∧ src.owners = [x] ∧ ((s.tile v).getSlot y).owners = [x])
    ∧ (∃ s : State, ∃ kern r when_ u z a : Nat, ∃ rest : List (Nat × Nat × Nat × List (Nat × Nat)), z < 64 ∧ s.hub.stalled = false ∧ s.hub.seqTraps = (kern, r, when_, [(64 * u + z, a)]) :: rest ∧ (s.tile u).mayMove (trapXfer kern r) = true ∧ ((s.tile u).getSlot z).owners = [trapXfer kern r])
    ∧ (∃ s : State, ∃ kern r when_ : Nat, ∃ rest : List (Nat × Nat × Nat × List (Nat × Nat)), s.hub.stalled = false ∧ s.hub.seqTraps = (kern, r, when_, []) :: rest ∧
      let q := s.seqRef kern r

      let trapq := seqGet s q.cid (q.l.seqt + 160) 8
      trapq = 0)
    ∧ (∃ s : State, ∃ kern r when_ : Nat, ∃ rest : List (Nat × Nat × Nat × List (Nat × Nat)), s.hub.stalled = false ∧ s.hub.seqTraps = (kern, r, when_, []) :: rest ∧
      let q := s.seqRef kern r

      let trapq := seqGet s q.cid (q.l.seqt + 160) 8
      trapq ≠ 0)
    ∧ (∃ s : State, ∃ c : Nat, ∃ j : Job, ∃ rest : List Job, s.hub.jobs = j :: rest ∧ c < 16 ∧ (s.colt c).job = none ∧ (s.colt c).running = false ∧ (∀ b, b < c → (s.colt b).job ≠ none ∨ (s.colt b).running = true) ∧ s.hub.stalled = false ∧ s.hub.fenced = false ∧ s.hub.routine = [])
    ∧ (∃ s : State, ∃ c : Nat, ∃ j : Job, ∃ rest : List Job, s.hub.jobs = j :: rest ∧ c < 16 ∧ (s.colt c).job = none ∧ (s.colt c).running = false ∧ (∀ b, b < c → (s.colt b).job ≠ none ∨ (s.colt b).running = true) ∧ s.hub.stalled = false ∧ s.hub.fenced = false ∧ s.hub.routine ≠ []) := by
  refine ⟨?_, ?_, ?_, ?_, ?_, ?_⟩
  · refine ⟨{ demo 1 with tiles := [(0, { slots := [(1, { st := .spilling, before := .live, owners := [forkXfer 66] })] }), (1, { slots := [(2, { st := .spilling, owners := [forkXfer 66] })], mule := [forkXfer 66] })], hub := { forkCopies := [(0, 1, 66)] } }, 0, 0, 1, 1, 2, [], ?_⟩
    apply And.intro
    · decide +kernel
    apply And.intro
    · decide +kernel
    apply And.intro
    · decide +kernel
    apply And.intro
    · decide +kernel
    apply And.intro
    · decide +kernel
    apply And.intro
    · decide +kernel
    apply And.intro
    · decide +kernel
    apply And.intro
    · decide +kernel
    apply And.intro
    · decide +kernel
    apply And.intro
    · decide +kernel
    decide +kernel
  · refine ⟨{ paged with tiles := [(0, { slots := [(1, { st := .spilling, before := .live, owners := [trapXfer 0 0] })], mule := [trapXfer 0 0] })], hub := { paged.hub with seqTraps := [(0, 0, 7, [(1, 64)])] } }, 0, 0, 7, 0, 1, 64, [], ?_⟩
    apply And.intro
    · decide +kernel
    apply And.intro
    · decide +kernel
    apply And.intro
    · decide +kernel
    apply And.intro
    · decide +kernel
    decide +kernel
  · refine ⟨{ paged with hub := { paged.hub with seqTraps := [(0, 0, 7, [])] }, mem := paged.mem }, 0, 0, 7, [], ?_⟩
    apply And.intro
    · decide +kernel
    apply And.intro
    · decide +kernel
    decide +kernel
  · refine ⟨{ paged with hub := { paged.hub with seqTraps := [(0, 0, 7, [])] }, mem := (161, 1) :: paged.mem }, 0, 0, 7, [], ?_⟩
    apply And.intro
    · decide +kernel
    apply And.intro
    · decide +kernel
    decide +kernel
  · refine ⟨{ paged with hub := { jobs := [job0], routine := [] } }, 0, job0, [], ?_⟩
    apply And.intro
    · decide +kernel
    apply And.intro
    · decide +kernel
    apply And.intro
    · decide +kernel
    apply And.intro
    · decide +kernel
    apply And.intro
    · decide +kernel
    apply And.intro
    · decide +kernel
    apply And.intro
    · decide +kernel
    decide +kernel
  · refine ⟨{ paged with hub := { jobs := [job0], routine := [1] } }, 0, job0, [], ?_⟩
    apply And.intro
    · decide +kernel
    apply And.intro
    · decide +kernel
    apply And.intro
    · decide +kernel
    apply And.intro
    · decide +kernel
    apply And.intro
    · decide +kernel
    apply And.intro
    · decide +kernel
    apply And.intro
    · decide +kernel
    decide +kernel

theorem wit_CommandCompletion :
    (∃ s s1 : State, ∃ u n : Nat, ∃ cmd : NodeCmd, ∃ fl : Flags, (s.tile u).getNode n = { st := .running, cmd := some cmd } ∧ s.hub.stalled = false ∧ s.hub.fenced = false ∧ (¬(dREL cmd.desc = true ∧ dSCOPE cmd.desc = 5)) ∧ (∀ a b c d e, cmd.instr ≠ .coll a b c d e) ∧ cmd.result = 0 ∧ runCmd (nodeAcquire s u cmd) u n cmd = some (s1, fl))
    ∧ (∃ s : State, ∃ u n nd sh sw xa fn : Nat, ∃ cmd : NodeCmd, (s.tile u).getNode n = { st := .running, cmd := some cmd } ∧ s.hub.stalled = false ∧ s.hub.fenced = false ∧ (¬(dREL cmd.desc = true ∧ dSCOPE cmd.desc = 5)) ∧ cmd.instr = .coll nd sh sw xa fn ∧ ∃ pre rest : List Req, ∃ r : Req, s.hub.reqs = pre ++ r :: rest ∧ r.ofNode u n = true ∧ r.ready = false ∧ (∀ q ∈ pre ++ rest, q.reqNo ≠ r.reqNo ∧ q.ofNode u n = false))
    ∧ (∃ s : State, ∃ u n : Nat, ∃ cmd : NodeCmd, ∃ fl : Flags, ((s.tile u).getNode n).cmd = some cmd ∧
      let b1 := leNat ((cmd.desc.drop 1).take 1)
      bitOf b1 5 = false ∧ bitOf b1 6 = false ∧ ∃ m, m ≠ n)
    ∧ (∃ s : State, ∃ u n : Nat, ∃ cmd : NodeCmd, ∃ fl : Flags, ((s.tile u).getNode n).cmd = some cmd ∧
      let b1 := leNat ((cmd.desc.drop 1).take 1)
      bitOf b1 5 = false ∧ bitOf b1 6 = false)
    ∧ (∃ s : State, ∃ u n : Nat, ∃ cmd : NodeCmd, ∃ fl : Flags, ((s.tile u).getNode n).cmd = some cmd ∧ ∃ v, v ≠ u)
    ∧ (∃ s : State, ∃ u n : Nat, ∃ cmd : NodeCmd, ∃ fl : Flags, ((s.tile u).getNode n).cmd = some cmd)
    ∧ (∃ nd : Node, nd.st = .waiting ∧ nd.count ≤ 1)
    ∧ (∃ s : State, ∃ u n z nd xa : Nat, ∃ cmd : NodeCmd, ∃ rest : List Nat, ∃ i : Instr, (i = .zspl nd xa ∨ i = .zsplCopy nd xa ∨ i = .zfil nd xa) ∧ cmd.instr = i ∧ cmd.slots = (z, 1) ∧ (s.tile u).getNode n = { st := .running, cmd := some cmd } ∧ (s.tile u).mule = n :: rest ∧ s.hub.stalled = false ∧ s.hub.fenced = false ∧ (s.tile u).claims n = true ∧ ((s.tile u).getSlot z).owners = [n] ∧ dREL cmd.desc = false ∧ dACQ cmd.desc = false ∧ bitOf (leNat ((cmd.desc.drop 1).take 1)) 5 = false ∧ bitOf (leNat ((cmd.desc.drop 1).take 1)) 6 = false) := by
  refine ⟨?_, ?_, ?_, ?_, ?_, ?_, ?_, ?_⟩
  · refine ⟨{ demo 1 with tiles := [(1, { nodes := [(1, { st := .running, cmd := some (cmd0) })] })] }, ?_⟩
    apply Exists.intro
    refine ⟨1, 1, cmd0, ?_⟩
    apply Exists.intro
    apply And.intro
    · decide +kernel
    apply And.intro
    · decide +kernel
    apply And.intro
    · decide +kernel
    apply And.intro
    · decide +kernel
    apply And.intro
    · intro a b c d e
      exact (nofun)
    apply And.intro
    · decide +kernel
    apply someEq (d := (State.reset, (0 : Flags)))
    decide +kernel
  · refine ⟨(let s := { demo 1 with tiles := [(1, { nodes := [(1, { st := .running, cmd := some ({ instr := .coll 1 1 0 1 0 }) })] })] }; { s with hub := { s.hub with reqs := [({ kind := 5, unit := 1, target := 1, va := 0, size := 0, node := 1, ready := false } : Req)] } }), 1, 1, 1, 1, 0, 1, 0, ({ instr := .coll 1 1 0 1 0 } : NodeCmd), ?_⟩
    apply And.intro
    · decide +kernel
    apply And.intro
    · decide +kernel
    apply And.intro
    · decide +kernel
    apply And.intro
    · decide +kernel
    apply And.intro
    · decide +kernel
    refine ⟨[], [], ({ kind := 5, unit := 1, target := 1, va := 0, size := 0, node := 1, ready := false } : Req), ?_⟩
    apply And.intro
    · decide +kernel
    apply And.intro
    · decide +kernel
    apply And.intro
    · decide +kernel
    decide +kernel
  · refine ⟨{ demo 1 with tiles := [(1, { nodes := [(1, { st := .running, cmd := some (cmd0) })] })] }, 1, 1, cmd0, 0, ?_⟩
    apply And.intro
    · decide +kernel
    apply And.intro
    · decide +kernel
    apply And.intro
    · decide +kernel
    refine ⟨2, ?_⟩
    decide +kernel
  · refine ⟨{ demo 1 with tiles := [(1, { nodes := [(1, { st := .running, cmd := some (cmd0) })] })] }, 1, 1, cmd0, 0, ?_⟩
    apply And.intro
    · decide +kernel
    apply And.intro
    · decide +kernel
    decide +kernel
  · refine ⟨{ demo 1 with tiles := [(1, { nodes := [(1, { st := .running, cmd := some (cmd0) })] })] }, 1, 1, cmd0, 0, ?_⟩
    apply And.intro
    · decide +kernel
    refine ⟨0, ?_⟩
    decide +kernel
  · refine ⟨{ demo 1 with tiles := [(1, { nodes := [(1, { st := .running, cmd := some (cmd0) })] })] }, 1, 1, cmd0, 0, ?_⟩
    decide +kernel
  · refine ⟨({ st := .waiting, count := 1 } : Node), ?_⟩
    apply And.intro
    · decide +kernel
    decide +kernel
  · refine ⟨{ demo 1 with tiles := [(1, { nodes := [(1, { st := .running, cmd := some ({ instr := .zspl 1 1, desc := [0, 0, 0, 0, 0, 0, 0, 0] }) })], mule := [1], slots := [(0, { st := .spilling, owners := [1] })] })] }, 1, 1, 0, 1, 1, ({ instr := .zspl 1 1, desc := [0, 0, 0, 0, 0, 0, 0, 0] } : NodeCmd), [], (.zspl 1 1), ?_⟩
    apply And.intro
    · decide +kernel
    apply And.intro
    · decide +kernel
    apply And.intro
    · decide +kernel
    apply And.intro
    · decide +kernel
    apply And.intro
    · decide +kernel
    apply And.intro
    · decide +kernel
    apply And.intro
    · decide +kernel
    apply And.intro
    · decide +kernel
    apply And.intro
    · decide +kernel
    apply And.intro
    · decide +kernel
    apply And.intro
    · decide +kernel
    apply And.intro
    · decide +kernel
    decide +kernel

theorem wit_ScanCarries :
    (∃ s : State, ∃ kern inst level pos absent data : Nat, (s.hub.stalled = true ∨ scryRecs s kern inst = []))
    ∧ (∃ s : State, ∃ kern inst level pos absent data : Nat,
      let s1 := { s with hub := { s.hub with carriesIn := s.hub.carriesIn ++
      [({ kern := kern, inst := inst, level := level, pos := pos, absent := decide (absent = 1), data := data } : CarryIn)] } }
      ∃ k e r rest, s.hub.stalled = false ∧ scryRecs s kern inst = (k, e, r) :: rest ∧ (∀ c ∈ s1.hub.carriesIn, c.kern = kern → c.inst = inst → c.level ≠ 255 → c.pos ≠ r.pq))
    ∧ (∃ s : State, ∃ kern inst k : Nat, ∃ e : Entry, ∃ r : ScryRec, scryRecs s kern inst = [(k, e, r)] ∧ e ∈ (s.core k).inflight ∧ r.nroots = 1 ∧ s.hub.stalled = false ∧ scryFails s r = true)
    ∧ (∃ s : State, ∃ kern inst k : Nat, ∃ e : Entry, ∃ r : ScryRec, ∃ top x : Pair, ∃ f : Flags, scryRecs s kern inst = [(k, e, r)] ∧ e ∈ (s.core k).inflight ∧ r.nroots = 1 ∧ r.q = 0 ∧ s.hub.stalled = false ∧ scryFails s r = false ∧ (scryRun s kern inst).done = some (top, [(x, f)]))
    ∧ (∃ s : State, ∃ e : Entry, ∃ sm : Bool, ∃ z w : Nat, ∃ f : FFmt, e.eff = pairEff sm z f w none ∧ e.unit < 256 ∧ e.fl = 0 ∧ e.mx = 0 ∧ e.vg = [] ∧ sm = true)
    ∧ (∃ s : State, ∃ e : Entry, ∃ sm : Bool, ∃ z w : Nat, ∃ f : FFmt, e.eff = pairEff sm z f w none ∧ e.unit < 256 ∧ e.fl = 0 ∧ e.mx = 0 ∧ e.vg = [] ∧ sm = false)
    ∧ (∃ s : State, ∃ e : Entry, ∃ sm : Bool, ∃ z w : Nat, ∃ f : FFmt, e.eff = pairEff sm z f w none ∧ e.unit < 256 ∧ e.fl = 0 ∧ e.mx = 0 ∧ e.vg = [])
    ∧ (∃ s : State, ∃ e : Entry, ∃ sm : Bool, ∃ z w : Nat, ∃ f : FFmt, e.eff = pairEff sm z f w none ∧ e.unit < 256 ∧ e.fl = 0 ∧ e.mx = 0 ∧ e.vg = [] ∧ ∃ v, v ≠ e.unit)
    ∧ (∃ s : State, ∃ e : Entry, ∃ sm : Bool, ∃ z w : Nat, ∃ f : FFmt, e.eff = pairEff sm z f w none ∧ e.unit < 256 ∧ e.fl = 0 ∧ e.mx = 0 ∧ e.vg = [])
    ∧ (∃ s : State, ∃ k d xd z xa zp : Nat, ∃ i : Issue, ∃ e : Entry, ∃ sm : Bool, ∃ p : Option (List (Nat × Byte) × List (Nat × Byte)), e ∈ (s.core k).inflight ∧ e.inter = true ∧ e.pend = false ∧ e.eff = .scanPair sm zp p ∧ e.unit = unitOf k d ∧ d ∈ i.dies 5 ∧ (z = zp ∨ z = zp + 1) ∧ s.sched = [] ∧ s.turn = .core k ∧ canIssue s (s.core k) = true ∧ coreAsleep s k = false ∧ (s.core k).handler = none ∧ (s.core k).issue = some i ∧ i.brtDone = true ∧ nextOp i = some (5, .zld xd z xa))
    ∧ (∃ s : State, ∃ k d xd z xa zp : Nat, ∃ i : Issue, ∃ e : Entry, ∃ sm : Bool, ∃ p : Option (List (Nat × Byte) × List (Nat × Byte)), e ∈ (s.core k).inflight ∧ e.inter = true ∧ e.pend = false ∧ e.eff = .scanPair sm zp p ∧ e.unit = unitOf k d ∧ d ∈ i.dies 5 ∧ (z = zp ∨ z = zp + 1))
    ∧ (∃ s : State, ∃ kern inst level pos absent data k : Nat, ∃ e : Entry, ∃ r : ScryRec, ∃ rest : List (Nat × Entry × ScryRec), s.hub.stalled = false ∧ scryRecs s kern inst = (k, e, r) :: rest ∧ r.pq = pos ∧ level ≠ 255)
    ∧ (∃ (cs : List CarryIn) (r : ScryRec) (c : CarryIn), c ∈ cs ∧ ¬(c.kern = r.kern ∧ c.inst = r.inst)) := by
  refine ⟨?_, ?_, ?_, ?_, ?_, ?_, ?_, ?_, ?_, ?_, ?_, ?_, ?_⟩
  · refine ⟨(demo 1), 1, 1, 1, 1, 1, 1, ?_⟩
    decide +kernel
  · refine ⟨(resting { st := .running, bn := 1, inflight := [scryEntry (demoScry 2 1)] }), 0, 0, 0, 1, 1, 0, 0, (scryEntry (demoScry 2 1)), (demoScry 2 1), [], ?_⟩
    apply And.intro
    · decide +kernel
    apply And.intro
    · decide +kernel
    decide +kernel
  · refine ⟨(resting { st := .running, bn := 1, inflight := [scryEntry (demoScry 2 1)] }), 0, 0, 0, (scryEntry (demoScry 2 1)), (demoScry 2 1), ?_⟩
    apply And.intro
    · decide +kernel
    apply And.intro
    · decide +kernel
    apply And.intro
    · decide +kernel
    apply And.intro
    · decide +kernel
    decide +kernel
  · refine ⟨(resting { st := .running, bn := 1, inflight := [scryEntry (demoScry 1 0)] }), 0, 0, 0, (scryEntry (demoScry 1 0)), (demoScry 1 0), none, none, 0, ?_⟩
    apply And.intro
    · decide +kernel
    apply And.intro
    · decide +kernel
    apply And.intro
    · decide +kernel
    apply And.intro
    · decide +kernel
    apply And.intro
    · decide +kernel
    apply And.intro
    · decide +kernel
    rfl
  · refine ⟨(demo 1), ({ due := 1, issue := 0, slot := 1, unit := 0, eff := pairEff true 1 .fp32 1 none } : Entry), true, 1, 1, .fp32, ?_⟩
    apply And.intro
    · decide +kernel
    apply And.intro
    · decide +kernel
    apply And.intro
    · decide +kernel
    apply And.intro
    · decide +kernel
    apply And.intro
    · decide +kernel
    decide +kernel
  · refine ⟨(demo 1), ({ due := 1, issue := 0, slot := 1, unit := 0, eff := pairEff false 1 .fp32 1 none } : Entry), false, 1, 1, .fp32, ?_⟩
    apply And.intro
    · decide +kernel
    apply And.intro
    · decide +kernel
    apply And.intro
    · decide +kernel
    apply And.intro
    · decide +kernel
    apply And.intro
    · decide +kernel
    decide +kernel
  · refine ⟨(demo 1), ({ due := 1, issue := 0, slot := 1, unit := 0, eff := pairEff true 1 .fp32 1 none } : Entry), true, 1, 1, .fp32, ?_⟩
    apply And.intro
    · decide +kernel
    apply And.intro
    · decide +kernel
    apply And.intro
    · decide +kernel
    apply And.intro
    · decide +kernel
    decide +kernel
  · refine ⟨(demo 1), ({ due := 1, issue := 0, slot := 1, unit := 0, eff := pairEff true 1 .fp32 1 none } : Entry), true, 1, 1, .fp32, ?_⟩
    apply And.intro
    · decide +kernel
    apply And.intro
    · decide +kernel
    apply And.intro
    · decide +kernel
    apply And.intro
    · decide +kernel
    apply And.intro
    · decide +kernel
    refine ⟨1, ?_⟩
    decide +kernel
  · refine ⟨(demo 1), ({ due := 1, issue := 0, slot := 1, unit := 0, eff := pairEff true 1 .fp32 1 none } : Entry), true, 1, 1, .fp32, ?_⟩
    apply And.intro
    · decide +kernel
    apply And.intro
    · decide +kernel
    apply And.intro
    · decide +kernel
    apply And.intro
    · decide +kernel
    decide +kernel
  · refine ⟨(demoC demoTile { demoCore 5 with inflight := [({ due := 1, issue := 0, slot := 5, unit := 0, eff := .scanPair true 1 none, inter := true } : Entry)], issue := some ({ demoIssue 5 with words := [0, 0, 0, 0, 0, slotWord (.zld 2 1 1), 0, 0] }) }), 0, 0, 2, 1, 1, 1, ({ demoIssue 5 with words := [0, 0, 0, 0, 0, slotWord (.zld 2 1 1), 0, 0] }), ({ due := 1, issue := 0, slot := 5, unit := 0, eff := .scanPair true 1 none, inter := true } : Entry), true, none, ?_⟩
    apply And.intro
    · decide +kernel
    apply And.intro
    · decide +kernel
    apply And.intro
    · decide +kernel
    apply And.intro
    · decide +kernel
    apply And.intro
    · decide +kernel
    apply And.intro
    · decide +kernel
    apply And.intro
    · decide +kernel
    apply And.intro
    · decide +kernel
    apply And.intro
    · decide +kernel
    apply And.intro
    · decide +kernel
    apply And.intro
    · decide +kernel
    apply And.intro
    · decide +kernel
    apply And.intro
    · decide +kernel
    apply And.intro
    · decide +kernel
    decide +kernel
  · refine ⟨(demoC demoTile { demoCore 5 with inflight := [({ due := 1, issue := 0, slot := 5, unit := 0, eff := .scanPair true 1 none, inter := true } : Entry)], issue := some ({ demoIssue 5 with words := [0, 0, 0, 0, 0, slotWord (.zld 2 1 1), 0, 0] }) }), 0, 0, 2, 1, 1, 1, ({ demoIssue 5 with words := [0, 0, 0, 0, 0, slotWord (.zld 2 1 1), 0, 0] }), ({ due := 1, issue := 0, slot := 5, unit := 0, eff := .scanPair true 1 none, inter := true } : Entry), true, none, ?_⟩
    apply And.intro
    · decide +kernel
    apply And.intro
    · decide +kernel
    apply And.intro
    · decide +kernel
    apply And.intro
    · decide +kernel
    apply And.intro
    · decide +kernel
    apply And.intro
    · decide +kernel
    decide +kernel
  · refine ⟨(resting { st := .running, bn := 1, inflight := [scryEntry (demoScry 2 1)] }), 0, 0, 0, 0, 1, 0, 0, (scryEntry (demoScry 2 1)), (demoScry 2 1), [], ?_⟩
    apply And.intro
    · decide +kernel
    apply And.intro
    · decide +kernel
    apply And.intro
    · decide +kernel
    decide +kernel
  · exact ⟨[{ kern := 1, inst := 0, level := 0, pos := 0, absent := true, data := 0 }], demoScry 2 1, _, .head _, by decide +kernel⟩

theorem wit_LinkEvents_1 :
    (∃ s : State, ∃ r : Req, ∃ rest : List Req, s.hub.reqs = r :: rest ∧ grantable s r = true ∧ (∀ q ∈ s.hub.reqs, noRoute s q = false) ∧ r.target = s.hub.selfid)
    ∧ (∃ s : State, ∃ r : Req, ∃ rest : List Req, s.hub.reqs = r :: rest ∧ ∃ p, grantable s r = true ∧ (∀ q ∈ s.hub.reqs, noRoute s q = false) ∧ r.target ≠ s.hub.selfid ∧ s.outPort r.target = some p)
    ∧ (∃ s : State, ∃ r : Req, ∃ rest : List Req, s.hub.reqs = r :: rest ∧ r.sent = false ∧ r.ready = true ∧ r.target ≠ s.hub.selfid ∧ s.outPort r.target = none)
    ∧ (∃ s : State, ∃ src kind tag va size cid data p : Nat, s.hub.fenced = false ∧ s.hub.stalled = false ∧ src ≠ s.hub.selfid ∧ s.outPort src = some p ∧ podPeer s src = true ∧ (kind = 1 ∨ kind = 2) ∧ size ∈ [64, 128, 256, 512] ∧ va % size = 0 ∧ peerCheck s cid va size (kind - 1) = none ∧ kind = 1)
    ∧ (∃ s : State, ∃ src kind tag va size cid data p : Nat, s.hub.fenced = false ∧ s.hub.stalled = false ∧ src ≠ s.hub.selfid ∧ s.outPort src = some p ∧ podPeer s src = true ∧ (kind = 1 ∨ kind = 2) ∧ size ∈ [64, 128, 256, 512] ∧ va % size = 0 ∧ peerCheck s cid va size (kind - 1) = none ∧ kind = 2)
    ∧ (∃ s : State, ∃ src kind tag va size cid data p : Nat, s.hub.fenced = false ∧ s.hub.stalled = false ∧ src ≠ s.hub.selfid ∧ s.outPort src = some p ∧ podPeer s src = true ∧ (kind = 1 ∨ kind = 2) ∧ size ∈ [64, 128, 256, 512] ∧ va % size = 0 ∧ ∃ a f, peerCheck s cid va size (kind - 1) = some (a, f))
    ∧ (∃ s : State, ∃ req okay data : Nat, ∃ r : Req, ∃ rest : List Req, s.hub.reqs = r :: rest ∧ r.sent = true ∧ r.reqNo = req ∧ (∀ h ∈ s.hub.heldReplies, h.1 ≠ req) ∧ r.target ≠ s.hub.selfid)
    ∧ (∃ s : State, ∃ req okay data : Nat, ∃ r : Req, ∃ rest : List Req, s.hub.reqs = r :: rest ∧ r.sent = true ∧ r.reqNo = req ∧ (∀ h ∈ s.hub.heldReplies, h.1 ≠ req) ∧ r.sentAt + 1000 * s.hub.lto ≤ s.ptime)
    ∧ (∃ s : State, ∃ src tag fn fmt cnt dst off inter cid size data p : Nat, s.hub.fenced = false ∧ s.hub.stalled = false ∧ s.outPort src = some p ∧ src ≠ s.hub.selfid ∧ src / 512 < s.pods ∧ fn ≤ 3 ∧ fmt ≤ 2 ∧ dst % 64 = 0 ∧ dst < 2 ^ 53 ∧ inter < 2 ∧ size ≤ 65536)
    ∧ (∃ s : State, ∃ p : Nat, p < 16 ∧
      let q : Port := sget {} s.hub.ports p
      portIsUp q = true)
    ∧ (∃ s : State, ∃ p : Nat, p < 16 ∧
      let q : Port := sget {} s.hub.ports p
      q.en = true ∧ q.down = false)
    ∧ (∃ s : State, ∃ d p : Nat, s.outPort d = none)
    ∧ (∃ s : State, ∃ d p : Nat, s.outPort d = some p)
    ∧ (∃ s : State, ∃ m : Msg, m.dest ≠ s.hub.selfid ∧ s.outPort m.dest = none) := by
  refine ⟨?_, ?_, ?_, ?_, ?_, ?_, ?_, ?_, ?_, ?_, ?_, ?_, ?_, ?_⟩
  · refine ⟨{ paged with hub := { reqs := [demoReq 0 false] } }, (demoReq 0 false), [], ?_⟩
    apply And.intro
    · decide +kernel
    apply And.intro
    · decide +kernel
    apply And.intro
    · decide +kernel
    decide +kernel
  · refine ⟨{ paged with hub := { reqs := [demoReq 1 false], routes := [(1, 0x8000000000000001)], ports := [(0, { en := true, up := true })] } }, (demoReq 1 false), [], ?_⟩
    apply And.intro
    · decide +kernel
    refine ⟨0, ?_⟩
    apply And.intro
    · decide +kernel
    apply And.intro
    · decide +kernel
    apply And.intro
    · decide +kernel
    decide +kernel
  · refine ⟨{ paged with hub := { reqs := [demoReq 1 false] } }, (demoReq 1 false), [], ?_⟩
    apply And.intro
    · decide +kernel
    apply And.intro
    · decide +kernel
    apply And.intro
    · decide +kernel
    apply And.intro
    · decide +kernel
    decide +kernel
  · refine ⟨routed, 1, 1, 1, 64, 64, 0, 1, 0, ?_⟩
    apply And.intro
    · decide +kernel
    apply And.intro
    · decide +kernel
    apply And.intro
    · decide +kernel
    apply And.intro
    · decide +kernel
    apply And.intro
    · decide +kernel
    apply And.intro
    · decide +kernel
    apply And.intro
    · decide +kernel
    apply And.intro
    · decide +kernel
    apply And.intro
    · decide +kernel
    decide +kernel
  · refine ⟨routed, 1, 2, 1, 64, 64, 0, 1, 0, ?_⟩
    apply And.intro
    · decide +kernel
    apply And.intro
    · decide +kernel
    apply And.intro
    · decide +kernel
    apply And.intro
    · decide +kernel
    apply And.intro
    · decide +kernel
    apply And.intro
    · decide +kernel
    apply And.intro
    · decide +kernel
    apply And.intro
    · decide +kernel
    apply And.intro
    · decide +kernel
    decide +kernel
  · refine ⟨routed, 1, 1, 1, 2147483648, 64, 0, 1, 0, ?_⟩
    apply And.intro
    · decide +kernel
    apply And.intro
    · decide +kernel
    apply And.intro
    · decide +kernel
    apply And.intro
    · decide +kernel
    apply And.intro
    · decide +kernel
    apply And.intro
    · decide +kernel
    apply And.intro
    · decide +kernel
    apply And.intro
    · decide +kernel
    apply Exists.intro
    apply Exists.intro
    apply someEq (d := (0, ⟨0, 0, 0⟩))
    decide +kernel
  · refine ⟨{ paged with hub := { reqs := [demoReq 1 true] } }, 5, 1, 1, (demoReq 1 true), [], ?_⟩
    apply And.intro
    · decide +kernel
    apply And.intro
    · decide +kernel
    apply And.intro
    · decide +kernel
    apply And.intro
    · decide +kernel
    decide +kernel
  · refine ⟨{ paged with ptime := 1000000, hub := { reqs := [demoReq 1 true] } }, 5, 1, 1, (demoReq 1 true), [], ?_⟩
    apply And.intro
    · decide +kernel
    apply And.intro
    · decide +kernel
    apply And.intro
    · decide +kernel
    apply And.intro
    · decide +kernel
    decide +kernel
  · refine ⟨routed, 1, 1, 1, 1, 1, 64, 1, 1, 0, 64, 1, 0, ?_⟩
    apply And.intro
    · decide +kernel
    apply And.intro
    · decide +kernel
    apply And.intro
    · decide +kernel
    apply And.intro
    · decide +kernel
    apply And.intro
    · decide +kernel
    apply And.intro
    · decide +kernel
    apply And.intro
    · decide +kernel
    apply And.intro
    · decide +kernel
    apply And.intro
    · decide +kernel
    apply And.intro
    · decide +kernel
    decide +kernel
  · refine ⟨{ paged with hub := { ports := [(1, { en := true, up := true })] } }, 1, ?_⟩
    apply And.intro
    · decide +kernel
    decide +kernel
  · refine ⟨{ paged with hub := { ports := [(1, { en := true, up := true })] } }, 1, ?_⟩
    apply And.intro
    · decide +kernel
    apply And.intro
    · decide +kernel
    decide +kernel
  · refine ⟨paged, 1, 0, ?_⟩
    decide +kernel
  · refine ⟨routed, 1, 0, ?_⟩
    decide +kernel
  · refine ⟨paged, ({ dest := 1, src := 0, vc := 0, kind := 1, tag := 0 } : Msg), ?_⟩
    apply And.intro
    · decide +kernel
    decide +kernel

theorem wit_LinkEvents_2 :
    (∃ s : State, ∃ src kind tag va size cid data fn fmt cnt dst : Nat, s.hub.stalled = true)
    ∧ (∃ (s : State) (r : Req) (e : Entry) (dst : Nat) (tag : Tag), r.kind = 1 ∧ (s.core (r.unit / 4)).inflight = [e] ∧
      e.eff = .remote dst (r.reqNo + 1) tag 0 false 0 false) := by
  refine ⟨?_, ?_⟩
  · refine ⟨{ paged with hub := { stalled := true } }, 1, 1, 1, 64, 64, 0, 1, 1, 1, 1, 64, ?_⟩
    decide +kernel
  · exact ⟨resting { inflight := [{ entry0 with eff := .remote 1 6 .fp32 0 false 0 false }] }, demoReq 1 true,
        { entry0 with eff := .remote 1 6 .fp32 0 false 0 false }, 1, .fp32, rfl, rfl, rfl⟩

theorem wit_QueueService :
    (∃ s : State, ∃ n w : Nat, s.hub.idle = false ∧ s.hub.fenced = false ∧ s.hostPath = true ∧
      let q := s.queue n
      (q.st = .ready ∨ q.st = .idle) ∧ s.hubNat q.descCid (q.desc + 8) 4 = some w ∧ (w + 2 ^ 32 - q.rptr) % 2 ^ 32 ≤ 2 ^ q.logn)
    ∧ (∃ s : State, ∃ n w : Nat, s.hub.idle = false ∧ s.hub.fenced = false ∧ s.hostPath = true ∧
      let q := s.queue n
      (q.st = .ready ∨ q.st = .idle) ∧ s.hubNat q.descCid (q.desc + 8) 4 = some w ∧ 2 ^ q.logn < (w + 2 ^ 32 - q.rptr) % 2 ^ 32)
    ∧ (∃ s : State, ∃ g : Nat, (s.gang g).mapped = false ∧ (s.gang g).marked = true ∧ s.gangQueues g ≠ [] ∧ (s.ctx (g / 256)).st = .resident ∧ s.hub.stalled = false ∧ (((s.gang g).asks = none ∧ bitOf (s.ctx (g / 256)).split.toNat 1 = false) ∨ (s.gang g).asks = some false) ∧ (s.gangQueues g).length ≤ (freeSlots s).length)
    ∧ (∃ s : State, ∃ n : Nat, s.hub.hand = none ∧ s.hub.interp = none ∧ s.hub.fenced = false ∧ s.hub.stalled = false ∧ s.hub.idle = false ∧ s.hub.replays = [] ∧ (∀ p ∈ s.hub.queues, p.2.st ≠ .blocked) ∧
      let a := ageGangs s
      chooseQueue a = some n)
    ∧ (∃ s : State, ∃ n : Nat, ∃ b : List Byte, ∃ rest : List (Option (Nat × Nat) × List Byte), (s.queue n).heads = (none, b) :: rest ∧ packetOk b = true ∧ pOP b ≠ 1 ∧ pOP b ≠ 2 ∧ headHeld s (s.queue n) = false)
    ∧ (∃ s : State, ∃ g : Nat, (s.gang g).mapped = true ∧ s.gangWaits g = true ∧ (s.gang g).eff ≤ 7)
    ∧ (∃ s : State, ∃ g t0 : Nat,
      let a := ageGangs s

      let c := g / 256
      (s.gang g).turnStart = some t0 ∧ (s.ctx c).st = .running ∧ t0 + (s.gang g).quant * 1000 ≤ s.ptime ∧ (runningGangs s c).contains g = true ∧ s.hub.stalled = false ∧ ∃ b : Blocked, b ∈ blockedLaunches a ∧ b.cid ≠ c ∧ (a.gang g).eff ≤ effOf a b.gang ∧ b.holders.contains c = true)
    ∧ (∃ s : State, ∃ g t0 : Nat,
      let a := ageGangs s

      let c := g / 256
      (s.gang g).turnStart = some t0 ∧ (s.ctx c).st = .running ∧ t0 + (s.gang g).quant * 1000 ≤ s.ptime ∧ (runningGangs s c).contains g = true ∧ s.hub.stalled = false ∧ ∃ p : Nat × Ctx, p ∈ s.ctxs ∧ p.1 ≠ c ∧ p.2.st = .preempted ∧ p.2.restoring = false ∧ restoreGangs a p.1 ≠ [] ∧ (a.gang g).eff ≤ ctxEff a p.1 ∧ (restoreHolders a p.1).contains c = true)
    ∧ (∃ s : State, ∃ p : Nat × Queue, ∃ b : List Byte, ∃ rest : List (Option (Nat × Nat) × List Byte), p ∈ s.hub.queues ∧ p.2.st = .blocked ∧ waiting s p.2 = false ∧ (pBAR b && !p.2.out.isEmpty) = false ∧ p.2.heads = (none, b) :: rest)
    ∧ (∃ s : State, ∃ b : Blocked, ∃ h : Nat, h ≠ b.cid ∧ b.holders = [h] ∧ blockedLaunches s = [b] ∧ (s.ctx h).st = .running ∧ runningGangs s h ≠ [] ∧ (∀ g ∈ runningGangs s h, effOf s g < effOf s b.gang) ∧ ∃ d, d ≠ h)
    ∧ (∃ s : State, ∃ b : Blocked, ∃ h : Nat, h ≠ b.cid ∧ b.holders = [h] ∧ blockedLaunches s = [b] ∧ (s.ctx h).st = .running ∧ runningGangs s h ≠ [] ∧ (∀ g ∈ runningGangs s h, effOf s g < effOf s b.gang))
    ∧ (∃ s : State, ∃ g : Nat, (s.gang g).mapped = false ∧ (s.gang g).marked = true ∧ s.gangQueues g ≠ [] ∧ (s.ctx (g / 256)).st ≠ .absent ∧ (s.ctx (g / 256)).st ≠ .destroyed ∧ s.hub.stalled = false ∧ (((s.gang g).asks = none ∧ bitOf (s.ctx (g / 256)).split.toNat 1 = true) ∨ (s.gang g).asks = some true))
    ∧ (∃ s : State, ∃ i : Instr, i ∈ [Instr.launch, .loopl, .packetCopy, .graphr, .graphp, .bind, .unmap, .signal, .wait, .ctxcCreate, .ctxcDestroy, .ctxcSet, .ctxcResume, .ctxcCkpt, .ctxcQcreate,
      .ctxcQdestroy, .ctxcQprog, .ctxcQreset, .ctxcGmap, .ctxcGunmap, .ctxcHdrop, .ctxcFpool, .packetDispatch] ∧ s.hub.stalled = true) := by
  refine ⟨?_, ?_, ?_, ?_, ?_, ?_, ?_, ?_, ?_, ?_, ?_, ?_, ?_⟩
  · refine ⟨{ paged with hub := { queues := [(1, { st := .idle, desc := 256 })] }, mem := paged.mem }, 1, ?_⟩
    apply Exists.intro
    apply And.intro
    · decide +kernel
    apply And.intro
    · decide +kernel
    apply And.intro
    · decide +kernel
    apply And.intro
    · decide +kernel
    apply And.intro
    · apply someEq (d := 0)
      decide +kernel
    decide +kernel
  · refine ⟨{ paged with hub := { queues := [(1, { st := .idle, desc := 256 })] }, mem := (266, 1) :: paged.mem }, 1, ?_⟩
    apply Exists.intro
    apply And.intro
    · decide +kernel
    apply And.intro
    · decide +kernel
    apply And.intro
    · decide +kernel
    apply And.intro
    · decide +kernel
    apply And.intro
    · apply someEq (d := 0)
      decide +kernel
    decide +kernel
  · refine ⟨{ paged with ctxs := [(0, { st := .resident })], hub := { queues := [(1, { st := .created })], gangs := [(0, { marked := true })] } }, 0, ?_⟩
    apply And.intro
    · decide +kernel
    apply And.intro
    · decide +kernel
    apply And.intro
    · decide +kernel
    apply And.intro
    · decide +kernel
    apply And.intro
    · decide +kernel
    apply And.intro
    · decide +kernel
    decide +kernel
  · refine ⟨{ paged with hub := { queues := [(1, { st := .ready, mapped := true })], gangs := [(0, { mapped := true })] } }, ?_⟩
    apply Exists.intro
    apply And.intro
    · decide +kernel
    apply And.intro
    · decide +kernel
    apply And.intro
    · decide +kernel
    apply And.intro
    · decide +kernel
    apply And.intro
    · decide +kernel
    apply And.intro
    · decide +kernel
    apply And.intro
    · decide +kernel
    apply someEq (d := 0)
    decide +kernel
  · refine ⟨{ paged with hub := { queues := [(1, { st := .ready, mapped := true, heads := [(none, pktBytes [(0, 8), (16, 64)])] })] } }, 1, (pktBytes [(0, 8), (16, 64)]), [], ?_⟩
    apply And.intro
    · decide +kernel
    apply And.intro
    · decide +kernel
    apply And.intro
    · decide +kernel
    apply And.intro
    · decide +kernel
    decide +kernel
  · refine ⟨{ paged with hub := { queues := [(1, { st := .ready, mapped := true })], gangs := [(0, { mapped := true })] } }, 0, ?_⟩
    apply And.intro
    · decide +kernel
    apply And.intro
    · decide +kernel
    decide +kernel
  · refine ⟨{ paged with ctxs := [(0, { st := .running, root := 524288 }), (1, { st := .running })], ptime := 2000000, mem := imageMem ++ paged.mem, cores := [(0, { plane1 := { st := .shadowReady, kern := 7 } })], hub := { queues := [(1, { st := .blocked, mapped := true, heads := [(none, pktBytes launchBytes)] }), (2, { st := .idle, cid := 1 })], gangs := [(256, { mapped := true, turnStart := some 0 })], pkts := [(3, { queue := 2, cid := 1 })], groups := [(7, { st := .loading, cid := 1, cores := [0], pkts := [3] })] } }, 256, 0, ?_⟩
    apply And.intro
    · decide +kernel
    apply And.intro
    · decide +kernel
    apply And.intro
    · decide +kernel
    apply And.intro
    · decide +kernel
    apply And.intro
    · decide +kernel
    refine ⟨({ key := (0, 1, 0), gang := 0, cid := 0, holders := [1] } : Blocked), ?_⟩
    apply And.intro
    · decide +kernel
    apply And.intro
    · decide +kernel
    apply And.intro
    · decide +kernel
    decide +kernel
  · refine ⟨{ paged with ctxs := [(0, { st := .running, root := 524288 }), (1, { st := .running }), (2, { st := .preempted, saved := some { cores := [(0, { st := .running })] } })], ptime := 2000000, mem := imageMem ++ paged.mem, cores := [(0, { plane1 := { st := .shadowReady, kern := 7 } })], hub := { queues := [(1, { st := .blocked, mapped := true, heads := [(none, pktBytes launchBytes)] }), (2, { st := .idle, cid := 1 })], gangs := [(512, { mapped := true }), (256, { mapped := true, turnStart := some 0 })], pkts := [(3, { queue := 2, cid := 1 })], groups := [(7, { st := .loading, cid := 1, cores := [0], pkts := [3] })] } }, 256, 0, ?_⟩
    apply And.intro
    · decide +kernel
    apply And.intro
    · decide +kernel
    apply And.intro
    · decide +kernel
    apply And.intro
    · decide +kernel
    apply And.intro
    · decide +kernel
    refine ⟨(2, { st := .preempted, saved := some { cores := [(0, { st := .running })] } }), ?_⟩
    apply And.intro
    · decide +kernel
    apply And.intro
    · decide +kernel
    apply And.intro
    · decide +kernel
    apply And.intro
    · decide +kernel
    apply And.intro
    · decide +kernel
    apply And.intro
    · decide +kernel
    decide +kernel
  · refine ⟨{ paged with ctxs := [(0, { st := .running, root := 524288 }), (1, { st := .running })], ptime := 2000000, mem := imageMem ++ paged.mem, cores := [(0, { plane1 := { st := .shadowReady, kern := 7 } })], hub := { queues := [(1, { st := .blocked, mapped := true, heads := [(none, pktBytes launchBytes)] }), (2, { st := .idle, cid := 1 })], gangs := [(256, { mapped := true, turnStart := some 0 })], pkts := [(3, { queue := 2, cid := 1 })], groups := [(7, { st := .loading, cid := 1, cores := [0], pkts := [3] })] } }, (1, { st := .blocked, mapped := true, heads := [(none, pktBytes launchBytes)] }), (pktBytes launchBytes), [], ?_⟩
    apply And.intro
    · decide +kernel
    apply And.intro
    · decide +kernel
    apply And.intro
    · decide +kernel
    apply And.intro
    · decide +kernel
    decide +kernel
  · refine ⟨{ paged with ctxs := [(0, { st := .running, root := 524288 }), (1, { st := .running })], ptime := 2000000, mem := imageMem ++ paged.mem, cores := [(0, { plane1 := { st := .shadowReady, kern := 7 } })], hub := { queues := [(1, { st := .blocked, mapped := true, heads := [(none, pktBytes launchBytes)] }), (2, { st := .idle, cid := 1 })], gangs := [(0, { eff := 1, mapped := true }), (256, { mapped := true, turnStart := some 0 })], pkts := [(3, { queue := 2, cid := 1 })], groups := [(7, { st := .loading, cid := 1, cores := [0], pkts := [3] })] } }, ({ key := (0, 1, 0), gang := 0, cid := 0, holders := [1] } : Blocked), 1, ?_⟩
    apply And.intro
    · decide +kernel
    apply And.intro
    · decide +kernel
    apply And.intro
    · decide +kernel
    apply And.intro
    · decide +kernel
    apply And.intro
    · decide +kernel
    apply And.intro
    · decide +kernel
    refine ⟨0, ?_⟩
    decide +kernel
  · refine ⟨{ paged with ctxs := [(0, { st := .running, root := 524288 }), (1, { st := .running })], ptime := 2000000, mem := imageMem ++ paged.mem, cores := [(0, { plane1 := { st := .shadowReady, kern := 7 } })], hub := { queues := [(1, { st := .blocked, mapped := true, heads := [(none, pktBytes launchBytes)] }), (2, { st := .idle, cid := 1 })], gangs := [(0, { eff := 1, mapped := true }), (256, { mapped := true, turnStart := some 0 })], pkts := [(3, { queue := 2, cid := 1 })], groups := [(7, { st := .loading, cid := 1, cores := [0], pkts := [3] })] } }, ({ key := (0, 1, 0), gang := 0, cid := 0, holders := [1] } : Blocked), 1, ?_⟩
    apply And.intro
    · decide +kernel
    apply And.intro
    · decide +kernel
    apply And.intro
    · decide +kernel
    apply And.intro
    · decide +kernel
    apply And.intro
    · decide +kernel
    decide +kernel
  · refine ⟨{ paged with ctxs := [(0, { st := .resident, split := 2 })], hub := { queues := [(1, { st := .created })], gangs := [(0, { marked := true })] } }, 0, ?_⟩
    apply And.intro
    · decide +kernel
    apply And.intro
    · decide +kernel
    apply And.intro
    · decide +kernel
    apply And.intro
    · decide +kernel
    apply And.intro
    · decide +kernel
    apply And.intro
    · decide +kernel
    decide +kernel
  · refine ⟨{ paged with hub := { stalled := true } }, .launch, ?_⟩
    apply And.intro
    · decide +kernel
    decide +kernel

theorem wit_KernelLaunch :
    (∃ s : State, ∃ p : Nat, ∃ a : Plan, s.hub.hand = some p ∧ s.hub.stalled = false ∧ s.hub.fenced = false ∧ pOP (s.pkt p).bytes = 1 ∧ ((s.pkt p).node.isSome = true ∨ (s.queue (s.pkt p).queue).heads = []) ∧ planOf s (s.pkt p).cid (s.pkt p).bytes [] = .ok a ∧ (a.img.cores.map (·.core)).Nodup)
    ∧ (∃ s : State, ∃ p st op : Nat, ∃ i : Instr, (op, i) ∈ [(1, Instr.launch), (2, Instr.loopl)] ∧ s.hub.hand = some p ∧ s.hub.stalled = false ∧ s.hub.fenced = false ∧ pOP (s.pkt p).bytes = op ∧ (s.pkt p).outcome = none ∧ planOf s (s.pkt p).cid (s.pkt p).bytes [] = .error st)
    ∧ (∃ s : State, ∃ kern : Nat,
      let g := s.group kern
      g.st = .loading ∧ g.cores.Nodup ∧ (∀ k ∈ g.cores, (s.core k).st = .idle ∧ (s.core k).shadow.st = .shadowReady ∧ (s.core k).shadow.kern = kern ∧ nodesIdle s k = true) ∧ s.hub.loading = [kern] ∧ ((s.ctx g.cid).st = .resident ∨ (s.ctx g.cid).st = .running) ∧ (s.ctx g.cid).stopping = none ∧ (s.ctx g.cid).restoring = false ∧ s.hub.haltCtx = none ∧ s.hub.stalled = false ∧ s.hub.fenced = false ∧ s.hub.idle = false)
    ∧ (∃ s : State, ∃ p st d : Nat, (s.pkt p).outcome = some (st, d) ∧ (s.pkt p).node = none ∧ (s.pkt p).fused = none ∧ (s.pkt p).hands = [] ∧ s.hub.pkts.any (fun x => decide (x.2.fused = some p)) = false ∧ (s.ctx (s.pkt p).cid).destroyPkt = none ∧ s.hub.stalled = false) := by
  refine ⟨?_, ?_, ?_, ?_⟩
  · refine ⟨(inFront launchBytes imageMem), ?_⟩
    apply Exists.intro
    apply Exists.intro
    apply And.intro
    · apply someEq (d := 0)
      decide +kernel
    apply And.intro
    · decide +kernel
    apply And.intro
    · decide +kernel
    apply And.intro
    · decide +kernel
    apply And.intro
    · decide +kernel
    apply And.intro
    · apply okEq (d := plan0)
      decide +kernel
    decide +kernel
  · refine ⟨(inFront [(0, 1)] []), ?_⟩
    apply Exists.intro
    refine ⟨2, ?_⟩
    apply Exists.intro
    apply Exists.intro
    apply And.intro
    · exact .head _
    apply And.intro
    · apply someEq (d := 0)
      decide +kernel
    apply And.intro
    · decide +kernel
    apply And.intro
    · decide +kernel
    apply And.intro
    · rfl
    apply And.intro
    · decide +kernel
    decide +kernel
  · refine ⟨{ paged with cores := [(0, { plane1 := { st := .shadowReady, kern := 7 } })], hub := { groups := [(7, { st := .loading, cores := [0] })], loading := [7] } }, 7, ?_⟩
    apply And.intro
    · decide +kernel
    apply And.intro
    · decide +kernel
    apply And.intro
    · decide +kernel
    apply And.intro
    · decide +kernel
    apply And.intro
    · decide +kernel
    apply And.intro
    · decide +kernel
    apply And.intro
    · decide +kernel
    apply And.intro
    · decide +kernel
    apply And.intro
    · decide +kernel
    apply And.intro
    · decide +kernel
    decide +kernel
  · refine ⟨(dispatched { outcome := some (0, 0) } {}), 1, 0, 0, ?_⟩
    apply And.intro
    · decide +kernel
    apply And.intro
    · decide +kernel
    apply And.intro
    · decide +kernel
    apply And.intro
    · decide +kernel
    apply And.intro
    · decide +kernel
    apply And.intro
    · decide +kernel
    decide +kernel

theorem wit_QueueCommands :
    (∃ s : State, ∃ p : Nat, s.hub.hand = some p ∧ s.hub.stalled = false ∧ pOP (s.pkt p).bytes =  3 ∧ (s.pkt p).outcome = none ∧ handlesOf s (s.pkt p).cid (s.pkt p).bytes = some [] ∧ (s.ctx (s.pkt p).cid).handles.length ≤ 4096 ∧
      let b := (s.pkt p).bytes

      let c := (s.pkt p).cid

      let s1 := useHandles s c p []
      hubMay s1 c (field b 16 8) (field b 32 8) 0 = true ∧ hubMay s1 c (field b 24 8) (field b 32 8) 1 = true)
    ∧ (∃ s : State, ∃ p : Nat, s.hub.hand = some p ∧ s.hub.stalled = false ∧ pOP (s.pkt p).bytes =  3 ∧ (s.pkt p).outcome = none ∧ handlesOf s (s.pkt p).cid (s.pkt p).bytes = some [] ∧ (s.ctx (s.pkt p).cid).handles.length ≤ 4096 ∧
      let b := (s.pkt p).bytes

      let c := (s.pkt p).cid

      let s1 := useHandles s c p []
      hubMay s1 c (field b 16 8) (field b 32 8) 0 = false)
    ∧ (∃ s : State, ∃ p : Nat, s.hub.hand = some p ∧ s.hub.stalled = false ∧ pOP (s.pkt p).bytes =  3 ∧ (s.pkt p).outcome = none ∧ handlesOf s (s.pkt p).cid (s.pkt p).bytes = some [] ∧ (s.ctx (s.pkt p).cid).handles.length ≤ 4096 ∧
      let b := (s.pkt p).bytes

      let c := (s.pkt p).cid

      let s1 := useHandles s c p []
      hubMay s1 c (field b 16 8) (field b 32 8) 0 = true ∧ hubMay s1 c (field b 24 8) (field b 32 8) 1 = false)
    ∧ (∃ s : State, ∃ p : Nat, s.hub.hand = some p ∧ s.hub.stalled = false ∧ pOP (s.pkt p).bytes =  6 ∧ (s.pkt p).outcome = none ∧ acquiring s (s.pkt p).cid = false ∧
      let b := (s.pkt p).bytes
      bitOf (field b 42 1) 0 = true)
    ∧ (∃ s : State, ∃ p : Nat, s.hub.hand = some p ∧ s.hub.stalled = false ∧ pOP (s.pkt p).bytes =  6 ∧ (s.pkt p).outcome = none ∧ acquiring s (s.pkt p).cid = false ∧
      let b := (s.pkt p).bytes

      let c := (s.pkt p).cid

      let idx := field b 40 2

      let base := field b 16 8

      let len := field b 24 8

      let sync := field b 32 8
      bitOf (field b 42 1) 0 = false ∧ base % 64 = 0 ∧ len % 64 = 0 ∧ 64 ≤ len ∧ len ≤ 2 ^ 40 ∧ base + len ≤ 2 ^ 56 ∧ (¬(base ≤ sync ∧ sync < base + len)) ∧ (∀ r ∈ (s.ctx c).regions, r.2.valid = true → r.1 ≠ idx → overlaps base len r.2.base r.2.bytes = false ∧ ¬(r.2.base ≤ sync ∧ sync < r.2.base + r.2.bytes)))
    ∧ (∃ s : State, ∃ p pa : Nat, ∃ e : TlbEntry, s.hub.hand = some p ∧ s.hub.stalled = false ∧ pOP (s.pkt p).bytes =  8 ∧ (s.pkt p).outcome = none ∧ translate s 256 (s.pkt p).cid (field (s.pkt p).bytes 16 8) 2 = .ok (pa, e))
    ∧ (∃ s : State, ∃ p : Nat, s.hub.hand = some p ∧ s.hub.stalled = false ∧ pOP (s.pkt p).bytes =  9 ∧ (s.pkt p).outcome = none ∧
      let k := s.pkt p
      waitHolds s k = some true)
    ∧ (∃ s : State, ∃ p : Nat, s.hub.hand = some p ∧ s.hub.stalled = false ∧ pOP (s.pkt p).bytes =  9 ∧ (s.pkt p).outcome = none ∧
      let k := s.pkt p
      waitHolds s k = some false)
    ∧ (∃ s : State, ∃ p : Nat, pOP (s.pkt p).bytes = 9 ∧ (s.pkt p).started = true ∧ (s.pkt p).outcome = none ∧ s.hub.stalled = false ∧
      let late := ∃ dl, (s.pkt p).deadline = some dl ∧ dl ≤ s.ptime
      ((s.pkt p).seen = true ∨ (¬ late ∧ waitHolds s (s.pkt p) = some true)))
    ∧ (∃ s : State, ∃ p : Nat, pOP (s.pkt p).bytes = 9 ∧ (s.pkt p).started = true ∧ (s.pkt p).outcome = none ∧ s.hub.stalled = false ∧
      let late := ∃ dl, (s.pkt p).deadline = some dl ∧ dl ≤ s.ptime
      late ∧ (s.pkt p).seen = false)
    ∧ (∃ s : State, ∃ k : Pkt, ∃ w : Nat, s.hubNat k.cid (field k.bytes 16 8) 8 = some w ∧ field k.bytes 32 1 = 0)
    ∧ (∃ s : State, ∃ k : Pkt, ∃ w : Nat, s.hubNat k.cid (field k.bytes 16 8) 8 = some w ∧ field k.bytes 32 1 = 1)
    ∧ (∃ s : State, ∃ k : Pkt, ∃ w : Nat, s.hubNat k.cid (field k.bytes 16 8) 8 = some w ∧ field k.bytes 32 1 = 2) := by
  refine ⟨?_, ?_, ?_, ?_, ?_, ?_, ?_, ?_, ?_, ?_, ?_, ?_, ?_⟩
  · refine ⟨(inFront [(0, 3), (16, 64), (24, 128), (32, 64)] []), ?_⟩
    apply Exists.intro
    apply And.intro
    · apply someEq (d := 0)
      decide +kernel
    apply And.intro
    · decide +kernel
    apply And.intro
    · decide +kernel
    apply And.intro
    · decide +kernel
    apply And.intro
    · decide +kernel
    apply And.intro
    · decide +kernel
    apply And.intro
    · decide +kernel
    decide +kernel
  · refine ⟨(inFront [(0, 3), (19, 128), (24, 128), (32, 64)] []), ?_⟩
    apply Exists.intro
    apply And.intro
    · apply someEq (d := 0)
      decide +kernel
    apply And.intro
    · decide +kernel
    apply And.intro
    · decide +kernel
    apply And.intro
    · decide +kernel
    apply And.intro
    · decide +kernel
    apply And.intro
    · decide +kernel
    decide +kernel
  · refine ⟨(inFront [(0, 3), (16, 64), (27, 128), (32, 64)] []), ?_⟩
    apply Exists.intro
    apply And.intro
    · apply someEq (d := 0)
      decide +kernel
    apply And.intro
    · decide +kernel
    apply And.intro
    · decide +kernel
    apply And.intro
    · decide +kernel
    apply And.intro
    · decide +kernel
    apply And.intro
    · decide +kernel
    apply And.intro
    · decide +kernel
    decide +kernel
  · refine ⟨(inFront [(0, 6), (42, 1)] []), ?_⟩
    apply Exists.intro
    apply And.intro
    · apply someEq (d := 0)
      decide +kernel
    apply And.intro
    · decide +kernel
    apply And.intro
    · decide +kernel
    apply And.intro
    · decide +kernel
    apply And.intro
    · decide +kernel
    decide +kernel
  · refine ⟨(inFront [(0, 6), (16, 64), (24, 64), (33, 16)] []), ?_⟩
    apply Exists.intro
    apply And.intro
    · apply someEq (d := 0)
      decide +kernel
    apply And.intro
    · decide +kernel
    apply And.intro
    · decide +kernel
    apply And.intro
    · decide +kernel
    apply And.intro
    · decide +kernel
    apply And.intro
    · decide +kernel
    apply And.intro
    · decide +kernel
    apply And.intro
    · decide +kernel
    apply And.intro
    · decide +kernel
    apply And.intro
    · decide +kernel
    apply And.intro
    · decide +kernel
    apply And.intro
    · decide +kernel
    decide +kernel
  · refine ⟨(inFront [(0, 8), (16, 64), (24, 7)] []), ?_⟩
    apply Exists.intro
    apply Exists.intro
    apply Exists.intro
    apply And.intro
    · apply someEq (d := 0)
      decide +kernel
    apply And.intro
    · decide +kernel
    apply And.intro
    · decide +kernel
    apply And.intro
    · decide +kernel
    apply okEq (d := (0, demoTlb))
    decide +kernel
  · refine ⟨(inFront [(0, 9), (16, 64)] []), ?_⟩
    apply Exists.intro
    apply And.intro
    · apply someEq (d := 0)
      decide +kernel
    apply And.intro
    · decide +kernel
    apply And.intro
    · decide +kernel
    apply And.intro
    · decide +kernel
    decide +kernel
  · refine ⟨(inFront [(0, 9), (16, 64), (24, 1)] []), ?_⟩
    apply Exists.intro
    apply And.intro
    · apply someEq (d := 0)
      decide +kernel
    apply And.intro
    · decide +kernel
    apply And.intro
    · decide +kernel
    apply And.intro
    · decide +kernel
    decide +kernel
  · refine ⟨(dispatched { bytes := pktBytes [(0, 9), (16, 64)], started := true } {}), 1, ?_⟩
    apply And.intro
    · decide +kernel
    apply And.intro
    · decide +kernel
    apply And.intro
    · decide +kernel
    apply And.intro
    · decide +kernel
    decide +kernel
  · refine ⟨(dispatched { bytes := pktBytes [(0, 9), (16, 64), (24, 1)], started := true, deadline := some 0 } {}), 1, ?_⟩
    apply And.intro
    · decide +kernel
    apply And.intro
    · decide +kernel
    apply And.intro
    · decide +kernel
    apply And.intro
    · decide +kernel
    apply And.intro
    · decide +kernel
    decide +kernel
  · refine ⟨paged, ({ bytes := pktBytes [(0, 9), (16, 64), (32, 0)] } : Pkt), ?_⟩
    apply Exists.intro
    apply And.intro
    · apply someEq (d := 0)
      decide +kernel
    decide +kernel
  · refine ⟨paged, ({ bytes := pktBytes [(0, 9), (16, 64), (32, 1)] } : Pkt), ?_⟩
    apply Exists.intro
    apply And.intro
    · apply someEq (d := 0)
      decide +kernel
    decide +kernel
  · refine ⟨paged, ({ bytes := pktBytes [(0, 9), (16, 64), (32, 2)] } : Pkt), ?_⟩
    apply Exists.intro
    apply And.intro
    · apply someEq (d := 0)
      decide +kernel
    decide +kernel

theorem wit_TaskGraphs :
    (∃ s : State, ∃ p : Nat, ∃ h : GraphHdr, s.hub.hand = some p ∧ s.hub.stalled = false ∧ pOP (s.pkt p).bytes =  4 ∧ readGraph s (s.pkt p).cid (field (s.pkt p).bytes 16 8) = some h ∧ h.version ≠ 0 ∧ 0 < h.nnode ∧ (∀ i, i < h.nnode → (s.hubNat (s.pkt p).cid (h.nodes + 64 * i) 1).getD 0 ∈ [1, 2, 3, 6, 7, 8, 9]) ∧ (∃ i, i < h.nnode ∧ (s.hubNat (s.pkt p).cid (h.deps + 16 * i) 2).getD 0 = 0))
    ∧ (∃ s : State, ∃ p rid i st d : Nat, ∃ r : Replay, (s.pkt p).node = some (rid, i) ∧ (s.pkt p).outcome = some (st, d) ∧ (s.pkt p).hands = [] ∧ pCPL (s.pkt p).bytes = false ∧ rid ≠ p ∧ sget {} s.hub.replays rid = r ∧ r ≠ {} ∧ (s.ctx (s.pkt p).cid).destroyPkt = none ∧ s.hub.stalled = false ∧ st ≠ 0)
    ∧ (∃ s : State, ∃ p rid i st d : Nat, ∃ r : Replay, (s.pkt p).node = some (rid, i) ∧ (s.pkt p).outcome = some (st, d) ∧ (s.pkt p).hands = [] ∧ pCPL (s.pkt p).bytes = false ∧ rid ≠ p ∧ sget {} s.hub.replays rid = r ∧ r ≠ {} ∧ (s.ctx (s.pkt p).cid).destroyPkt = none ∧ s.hub.stalled = false ∧ st = 0)
    ∧ (∃ s : State, ∃ p : Nat, ∃ h : GraphHdr, s.hub.hand = some p ∧ s.hub.stalled = false ∧ pOP (s.pkt p).bytes =  5 ∧ (s.pkt p).outcome = none ∧ readGraph s (s.pkt p).cid (field (s.pkt p).bytes 16 8) = some h ∧ h.version ≠ 0 ∧ field (s.pkt p).bytes 24 4 < h.nnode ∧ bitOf (field (s.pkt p).bytes 40 1) 0 = false ∧
      let b := (s.pkt p).bytes

      let c := (s.pkt p).cid

      let g := field b 16 8
      (heldBufs s c g).contains h.curbuf = false)
    ∧ (∃ s : State, ∃ p : Nat, ∃ h : GraphHdr, s.hub.hand = some p ∧ s.hub.stalled = false ∧ pOP (s.pkt p).bytes =  5 ∧ (s.pkt p).outcome = none ∧ readGraph s (s.pkt p).cid (field (s.pkt p).bytes 16 8) = some h ∧ h.version ≠ 0 ∧ field (s.pkt p).bytes 24 4 < h.nnode ∧ bitOf (field (s.pkt p).bytes 40 1) 0 = false ∧
      let b := (s.pkt p).bytes

      let c := (s.pkt p).cid

      let g := field b 16 8
      (heldBufs s c g).contains h.curbuf = true ∧ ∃ f, f < 4 ∧ (heldBufs s c g).contains f = false ∧ (∀ e, e < f → (heldBufs s c g).contains e = true)) := by
  refine ⟨?_, ?_, ?_, ?_, ?_⟩
  · refine ⟨(inFront [(0, 4), (17, 16)] graphMem), ?_⟩
    apply Exists.intro
    apply Exists.intro
    apply And.intro
    · apply someEq (d := 0)
      decide +kernel
    apply And.intro
    · decide +kernel
    apply And.intro
    · decide +kernel
    apply And.intro
    · apply someEq (d := hdr0)
      decide +kernel
    apply And.intro
    · decide +kernel
    apply And.intro
    · decide +kernel
    apply And.intro
    · decide +kernel
    decide +kernel
  · refine ⟨(dispatched { node := some (2, 0), outcome := some (7, 0) } { replays := [(2, { nnode := 1, flying := [0] })] }), 1, 2, 0, 7, 0, ({ nnode := 1, flying := [0] } : Replay), ?_⟩
    apply And.intro
    · decide +kernel
    apply And.intro
    · decide +kernel
    apply And.intro
    · decide +kernel
    apply And.intro
    · decide +kernel
    apply And.intro
    · decide +kernel
    apply And.intro
    · decide +kernel
    apply And.intro
    · decide +kernel
    apply And.intro
    · decide +kernel
    apply And.intro
    · decide +kernel
    decide +kernel
  · refine ⟨(dispatched { node := some (2, 0), outcome := some (0, 0) } { replays := [(2, { nnode := 1, flying := [0] })] }), 1, 2, 0, 0, 0, ({ nnode := 1, flying := [0] } : Replay), ?_⟩
    apply And.intro
    · decide +kernel
    apply And.intro
    · decide +kernel
    apply And.intro
    · decide +kernel
    apply And.intro
    · decide +kernel
    apply And.intro
    · decide +kernel
    apply And.intro
    · decide +kernel
    apply And.intro
    · decide +kernel
    apply And.intro
    · decide +kernel
    apply And.intro
    · decide +kernel
    decide +kernel
  · refine ⟨(inFront [(0, 5), (17, 16), (30, 8)] graphMem), ?_⟩
    apply Exists.intro
    apply Exists.intro
    apply And.intro
    · apply someEq (d := 0)
      decide +kernel
    apply And.intro
    · decide +kernel
    apply And.intro
    · decide +kernel
    apply And.intro
    · decide +kernel
    apply And.intro
    · apply someEq (d := hdr0)
      decide +kernel
    apply And.intro
    · decide +kernel
    apply And.intro
    · decide +kernel
    apply And.intro
    · decide +kernel
    decide +kernel
  · refine ⟨{ inFront [(0, 5), (17, 16), (30, 8)] graphMem with hub := { hand := some 1, pkts := [(1, { bytes := pktBytes [(0, 5), (17, 16), (30, 8)] })], replays := [(2, { graph := 4096, nnode := 1 })] } }, ?_⟩
    apply Exists.intro
    apply Exists.intro
    apply And.intro
    · apply someEq (d := 0)
      decide +kernel
    apply And.intro
    · decide +kernel
    apply And.intro
    · decide +kernel
    apply And.intro
    · decide +kernel
    apply And.intro
    · apply someEq (d := hdr0)
      decide +kernel
    apply And.intro
    · decide +kernel
    apply And.intro
    · decide +kernel
    apply And.intro
    · decide +kernel
    apply And.intro
    · decide +kernel
    refine ⟨1, ?_⟩
    apply And.intro
    · decide +kernel
    apply And.intro
    · decide +kernel
    decide +kernel

theorem wit_UnmapService :
    (∃ s : State, ∃ p : Nat, s.hub.hand = some p ∧ s.hub.stalled = false ∧ pOP (s.pkt p).bytes =  7 ∧
      let base := field (s.pkt p).bytes 16 8

      let len := field (s.pkt p).bytes 24 8

      let c := (s.pkt p).cid
      base % 65536 = 0 ∧ len % 65536 = 0 ∧ base + len ≤ 2 ^ 56 ∧ (s.ctx c).unmaps.length < 64 ∧ (∀ a ∈ granuleBases base len, leafAt s c a = none))
    ∧ (∃ s : State, ∃ p a fr e : Nat, s.hub.hand = some p ∧ s.hub.stalled = false ∧ pOP (s.pkt p).bytes =  7 ∧
      let base := field (s.pkt p).bytes 16 8

      let c := (s.pkt p).cid
      field (s.pkt p).bytes 24 8 = 65536 ∧ base % 65536 = 0 ∧ base + 65536 ≤ 2 ^ 56 ∧ (s.ctx c).unmaps.length < 64 ∧ leafAt s c base = some (a, 0, fr, e))
    ∧ (∃ s : State, ∃ c : Nat, ∃ u : Unmapping, ∃ rest : List Unmapping, (s.ctx c).unmaps = u :: rest ∧ leased s c u = false ∧ s.hub.stalled = false ∧ (s.pkt u.pkt).outcome = none ∧ u ∉ rest ∧ (∀ x ∈ s.hub.pkts, x.2.cid = c → pOP x.2.bytes ≠ 7 ∨ x.2.started = true))
    ∧ (∃ s : State, ∃ p : Nat, s.hub.hand = some p ∧ s.hub.stalled = false ∧ pOP (s.pkt p).bytes =  7 ∧
      let base := field (s.pkt p).bytes 16 8

      let len := field (s.pkt p).bytes 24 8

      let c := (s.pkt p).cid
      base % 65536 = 0 ∧ len % 65536 = 0 ∧ base + len ≤ 2 ^ 56 ∧ (s.ctx c).unmaps.length < 64 ∧ (s.ctx c).root % 8 = 0 ∧ (∀ a ∈ granuleBases base len, ∀ l, leafAt s c a = some l → base ≤ a / pageSize l.2.1 * pageSize l.2.1 ∧ a / pageSize l.2.1 * pageSize l.2.1 + pageSize l.2.1 ≤ base + len))
    ∧ (∃ s : State, ∃ p a lvl fr e : Nat, s.hub.hand = some p ∧ s.hub.stalled = false ∧ pOP (s.pkt p).bytes =  7 ∧
      let base := field (s.pkt p).bytes 16 8

      let c := (s.pkt p).cid
      lvl ≤ 2 ∧ field (s.pkt p).bytes 24 8 = pageSize lvl ∧ base % pageSize lvl = 0 ∧ base + pageSize lvl ≤ 2 ^ 56 ∧ (s.ctx c).unmaps.length < 64 ∧ leafAt s c base = some (a, lvl, fr, e))
    ∧ (∃ s : State, ∃ p : Nat, s.hub.hand = some p ∧ s.hub.stalled = false ∧ pOP (s.pkt p).bytes =  7 ∧ (s.pkt p).outcome = none ∧
      let base := field (s.pkt p).bytes 16 8

      let len := field (s.pkt p).bytes 24 8

      let c := (s.pkt p).cid
      (base % 65536 ≠ 0 ∨ len % 65536 ≠ 0 ∨ 2 ^ 56 < base + len ∨ (∃ a ∈ granuleBases base len, ∃ l, leafAt s c a = some l
      ∧ (a / pageSize l.2.1 * pageSize l.2.1 < base ∨ base + len < a / pageSize l.2.1 * pageSize l.2.1 + pageSize l.2.1))))
    ∧ (∃ s : State, ∃ c : Nat, s.hub.stalled = true) := by
  refine ⟨?_, ?_, ?_, ?_, ?_, ?_, ?_⟩
  · refine ⟨(inFront [(0, 7), (19, 128), (26, 1)] []), ?_⟩
    apply Exists.intro
    apply And.intro
    · apply someEq (d := 0)
      decide +kernel
    apply And.intro
    · decide +kernel
    apply And.intro
    · decide +kernel
    apply And.intro
    · decide +kernel
    apply And.intro
    · decide +kernel
    apply And.intro
    · decide +kernel
    apply And.intro
    · decide +kernel
    decide +kernel
  · refine ⟨{ inFront [(0, 7), (19, 128), (26, 1)] [] with mem := paged.mem ++ leafTables ++ [(4194304, 15), (4194306, 1)] }, ?_⟩
    apply Exists.intro
    refine ⟨4194304, 65536, 65551, ?_⟩
    apply And.intro
    · apply someEq (d := 0)
      decide +kernel
    apply And.intro
    · decide +kernel
    apply And.intro
    · decide +kernel
    apply And.intro
    · decide +kernel
    apply And.intro
    · decide +kernel
    apply And.intro
    · decide +kernel
    apply And.intro
    · decide +kernel
    decide +kernel
  · refine ⟨{ paged with ctxs := [(0, { st := .running, unmaps := [{ base := 65536, bytes := 65536, tm := 0, pkt := 1 }] })] }, 0, ({ base := 65536, bytes := 65536, tm := 0, pkt := 1 } : Unmapping), [], ?_⟩
    apply And.intro
    · decide +kernel
    apply And.intro
    · decide +kernel
    apply And.intro
    · decide +kernel
    apply And.intro
    · decide +kernel
    apply And.intro
    · decide +kernel
    decide +kernel
  · refine ⟨{ inFront [(0, 7), (19, 128), (26, 2)] [] with mem := paged.mem ++ leafTables ++ [(4194304, 15), (4194306, 1), (4194312, 15), (4194314, 2)] }, ?_⟩
    apply Exists.intro
    apply And.intro
    · apply someEq (d := 0)
      decide +kernel
    apply And.intro
    · decide +kernel
    apply And.intro
    · decide +kernel
    apply And.intro
    · decide +kernel
    apply And.intro
    · decide +kernel
    apply And.intro
    · decide +kernel
    apply And.intro
    · decide +kernel
    apply And.intro
    · decide +kernel
    refine allSome ?_
    decide +kernel
  · refine ⟨{ inFront [(0, 7), (19, 128), (26, 32)] [] with mem := paged.mem ++ [(1048584, 1), (1048586, 32), (2097152, 15), (2097154, 64)] }, ?_⟩
    apply Exists.intro
    refine ⟨2097152, 1, 4194304, 4194319, ?_⟩
    apply And.intro
    · apply someEq (d := 0)
      decide +kernel
    apply And.intro
    · decide +kernel
    apply And.intro
    · decide +kernel
    apply And.intro
    · decide +kernel
    apply And.intro
    · decide +kernel
    apply And.intro
    · decide +kernel
    apply And.intro
    · decide +kernel
    apply And.intro
    · decide +kernel
    decide +kernel
  · refine ⟨(inFront [(0, 7), (16, 1), (26, 1)] []), ?_⟩
    apply Exists.intro
    apply And.intro
    · apply someEq (d := 0)
      decide +kernel
    apply And.intro
    · decide +kernel
    apply And.intro
    · decide +kernel
    apply And.intro
    · decide +kernel
    exact Or.inl (by decide +kernel)
  · refine ⟨{ paged with hub := { stalled := true } }, 1, ?_⟩
    decide +kernel

theorem wit_ContextControl_1 :
    (∃ s : State, ∃ p n : Nat, ∃ b : List Byte, ∃ i : Instr, (n, i) ∈ [(1, Instr.ctxcDestroy), (2, .ctxcSet), (3, .ctxcResume), (4, .ctxcCkpt), (5, .ctxcQcreate), (6, .ctxcQdestroy),
      (7, .ctxcQprog), (8, .ctxcQreset), (9, .ctxcGmap), (10, .ctxcGunmap), (11, .ctxcHdrop), (12, .ctxcFpool)] ∧ s.hub.hand = some p ∧ s.hub.stalled = false ∧ (s.pkt p).bytes = b ∧ pOP b = 10 ∧ pSUB b = n ∧ (s.pkt p).outcome = none ∧
      let own := (s.pkt p).cid
      own ≠ 0 ∧ pCID b ≠ own)
    ∧ (∃ s : State, ∃ p n : Nat, ∃ b : List Byte, ∃ i : Instr, (n, i) ∈ [(1, Instr.ctxcDestroy), (2, .ctxcSet), (3, .ctxcResume), (4, .ctxcCkpt), (5, .ctxcQcreate), (6, .ctxcQdestroy),
      (7, .ctxcQprog), (8, .ctxcQreset), (9, .ctxcGmap), (10, .ctxcGunmap), (11, .ctxcHdrop), (12, .ctxcFpool)] ∧ s.hub.hand = some p ∧ s.hub.stalled = false ∧ (s.pkt p).bytes = b ∧ pOP b = 10 ∧ pSUB b = n ∧ (s.pkt p).outcome = none ∧
      let own := (s.pkt p).cid

      let x := s.ctx (pCID b)
      (own = 0 ∨ pCID b = own) ∧ x.st = .absent)
    ∧ (∃ s : State, ∃ p n : Nat, ∃ b : List Byte, ∃ i : Instr, (n, i) ∈ [(1, Instr.ctxcDestroy), (2, .ctxcSet), (3, .ctxcResume), (4, .ctxcCkpt), (5, .ctxcQcreate), (6, .ctxcQdestroy),
      (7, .ctxcQprog), (8, .ctxcQreset), (9, .ctxcGmap), (10, .ctxcGunmap), (11, .ctxcHdrop), (12, .ctxcFpool)] ∧ s.hub.hand = some p ∧ s.hub.stalled = false ∧ (s.pkt p).bytes = b ∧ pOP b = 10 ∧ pSUB b = n ∧ (s.pkt p).outcome = none ∧
      let own := (s.pkt p).cid

      let x := s.ctx (pCID b)
      (own = 0 ∨ pCID b = own) ∧ x.st = .destroyed)
    ∧ (∃ s : State, ∃ p i : Nat, ∃ b : List Byte, s.hub.hand = some p ∧ s.hub.stalled = false ∧ (s.pkt p).bytes = b ∧ pOP b = 10 ∧ pSUB b = 0 ∧ (s.pkt p).outcome = none ∧
      let own := (s.pkt p).cid
      own ≠ 0 ∧ pCID b ≠ own)
    ∧ (∃ s : State, ∃ p i : Nat, ∃ b : List Byte, s.hub.hand = some p ∧ s.hub.stalled = false ∧ (s.pkt p).bytes = b ∧ pOP b = 10 ∧ pSUB b = 0 ∧ (s.pkt p).outcome = none ∧
      let own := (s.pkt p).cid
      (own = 0 ∨ pCID b = own) ∧ (s.ctx (pCID b)).st = .absent)
    ∧ (∃ s : State, ∃ p : Nat, ∃ b : List Byte, s.hub.hand = some p ∧ s.hub.stalled = false ∧ (s.pkt p).bytes = b ∧ pOP b = 10 ∧ (s.pkt p).outcome = none ∧ p < s.hub.nextPkt ∧
      let c := pCID b

      let x := s.ctx c
      ((s.pkt p).cid = 0 ∨ c = (s.pkt p).cid) ∧ x.st ≠ .absent ∧ x.st ≠ .destroyed ∧ pSUB b = 1 ∧ c = 0)
    ∧ (∃ s : State, ∃ p : Nat, ∃ b : List Byte, s.hub.hand = some p ∧ s.hub.stalled = false ∧ (s.pkt p).bytes = b ∧ pOP b = 10 ∧ (s.pkt p).outcome = none ∧ p < s.hub.nextPkt ∧
      let c := pCID b

      let x := s.ctx c
      ((s.pkt p).cid = 0 ∨ c = (s.pkt p).cid) ∧ x.st ≠ .absent ∧ x.st ≠ .destroyed ∧ pSUB b = 1 ∧ c ≠ 0)
    ∧ (∃ s : State, ∃ p : Nat, ∃ b : List Byte, s.hub.hand = some p ∧ s.hub.stalled = false ∧ (s.pkt p).bytes = b ∧ pOP b = 10 ∧ (s.pkt p).outcome = none ∧ p < s.hub.nextPkt ∧
      let c := pCID b

      let x := s.ctx c
      ((s.pkt p).cid = 0 ∨ c = (s.pkt p).cid) ∧ x.st ≠ .absent ∧ x.st ≠ .destroyed ∧ pSUB b = 2 ∧ ∃ y : Ctx,
      let v := field b 32 8
      ((field b 24 1 = 0 ∧ y = { x with split := BitVec.ofNat 7 v }) ∨ (field b 24 1 = 1 ∧ 1 ≤ v % 1024 ∧ v % 1024 ≤ 1000 ∧ y = { x with lease := v % 1024 })
      ∨ (field b 24 1 = 2 ∧ v ∈ [0, 2, 4, 8] ∧ y = { x with pend := v, depth := if loopRunning s c then x.depth else v })
      ∨ (field b 24 1 = 3 ∧ y = { x with seed := BitVec.ofNat 64 v }) ∨ (field b 24 1 = 4 ∧ v % 4 ≠ 3 ∧ y = { x with gnone := BitVec.ofNat 64 (gnoneOf v) })))
    ∧ (∃ s : State, ∃ p : Nat, ∃ b : List Byte, s.hub.hand = some p ∧ s.hub.stalled = false ∧ (s.pkt p).bytes = b ∧ pOP b = 10 ∧ (s.pkt p).outcome = none ∧ p < s.hub.nextPkt ∧
      let c := pCID b

      let x := s.ctx c
      ((s.pkt p).cid = 0 ∨ c = (s.pkt p).cid) ∧ x.st ≠ .absent ∧ x.st ≠ .destroyed ∧ pSUB b = 2 ∧ (4 < field b 24 1 ∨ (field b 24 1 = 1 ∧ (field b 32 8 % 1024 = 0 ∨ 1000 < field b 32 8 % 1024)) ∨ (field b 24 1 = 2 ∧ field b 32 8 ∉ [0, 2, 4, 8])
      ∨ (field b 24 1 = 4 ∧ field b 32 8 % 4 = 3)))
    ∧ (∃ s : State, ∃ p : Nat, ∃ b : List Byte, s.hub.hand = some p ∧ s.hub.stalled = false ∧ (s.pkt p).bytes = b ∧ pOP b = 10 ∧ (s.pkt p).outcome = none ∧ p < s.hub.nextPkt ∧
      let c := pCID b

      let x := s.ctx c
      ((s.pkt p).cid = 0 ∨ c = (s.pkt p).cid) ∧ x.st ≠ .absent ∧ x.st ≠ .destroyed ∧ pSUB b = 3 ∧ x.st = .faulted)
    ∧ (∃ s : State, ∃ p : Nat, ∃ b : List Byte, s.hub.hand = some p ∧ s.hub.stalled = false ∧ (s.pkt p).bytes = b ∧ pOP b = 10 ∧ (s.pkt p).outcome = none ∧ p < s.hub.nextPkt ∧
      let c := pCID b

      let x := s.ctx c
      ((s.pkt p).cid = 0 ∨ c = (s.pkt p).cid) ∧ x.st ≠ .absent ∧ x.st ≠ .destroyed ∧ pSUB b = 3 ∧ x.st ≠ .faulted)
    ∧ (∃ s : State, ∃ p : Nat, ∃ b : List Byte, s.hub.hand = some p ∧ s.hub.stalled = false ∧ (s.pkt p).bytes = b ∧ pOP b = 10 ∧ (s.pkt p).outcome = none ∧ p < s.hub.nextPkt ∧
      let c := pCID b

      let x := s.ctx c
      ((s.pkt p).cid = 0 ∨ c = (s.pkt p).cid) ∧ x.st ≠ .absent ∧ x.st ≠ .destroyed ∧ pSUB b = 4 ∧
      let area := field b 32 8

      let bytes := field b 40 8
      area ≠ 0 ∧ area % 65536 = 0 ∧ 131072 ≤ bytes ∧ bytes % 65536 = 0 ∧ area + bytes ≤ 2 ^ 56 ∧ hubMay s (s.pkt p).cid area bytes 1 = true)
    ∧ (∃ s : State, ∃ p : Nat, ∃ b : List Byte, s.hub.hand = some p ∧ s.hub.stalled = false ∧ (s.pkt p).bytes = b ∧ pOP b = 10 ∧ (s.pkt p).outcome = none ∧ p < s.hub.nextPkt ∧
      let c := pCID b

      let x := s.ctx c
      ((s.pkt p).cid = 0 ∨ c = (s.pkt p).cid) ∧ x.st ≠ .absent ∧ x.st ≠ .destroyed ∧ pSUB b = 4 ∧
      let area := field b 32 8

      let bytes := field b 40 8
      area ≠ 0 ∧ (area % 65536 ≠ 0 ∨ bytes < 131072 ∨ bytes % 65536 ≠ 0 ∨ 2 ^ 56 < area + bytes ∨ hubMay s (s.pkt p).cid area bytes 1 = false))
    ∧ (∃ s : State, ∃ p : Nat, ∃ b : List Byte, s.hub.hand = some p ∧ s.hub.stalled = false ∧ (s.pkt p).bytes = b ∧ pOP b = 10 ∧ (s.pkt p).outcome = none ∧ p < s.hub.nextPkt ∧
      let c := pCID b

      let x := s.ctx c
      ((s.pkt p).cid = 0 ∨ c = (s.pkt p).cid) ∧ x.st ≠ .absent ∧ x.st ≠ .destroyed ∧ pSUB b = 4 ∧
      let area := field b 32 8

      let bytes := field b 40 8
      area = 0 ∧ x.ckptArea % 65536 = 0 ∧ 0 < x.ckptBytes ∧ x.ckptArea + x.ckptBytes ≤ 2 ^ 56 ∧ 131072 ≤ bytes ∧ bytes % 65536 = 0 ∧ hubMay s x.ckptCid x.ckptArea x.ckptBytes 1 = true) := by
  refine ⟨?_, ?_, ?_, ?_, ?_, ?_, ?_, ?_, ?_, ?_, ?_, ?_, ?_, ?_⟩
  · refine ⟨(ctlFront 1 [(16, 1)] { st := .created } {} []), ?_⟩
    apply Exists.intro
    apply Exists.intro
    apply Exists.intro
    apply Exists.intro
    apply And.intro
    · exact .head _
    apply And.intro
    · apply someEq (d := 0)
      decide +kernel
    apply And.intro
    · decide +kernel
    apply And.intro
    · rfl
    apply And.intro
    · decide +kernel
    apply And.intro
    · rfl
    apply And.intro
    · decide +kernel
    apply And.intro
    · decide +kernel
    decide +kernel
  · refine ⟨(ctlFront 0 [(16, 1), (20, 2)] { st := .created } {} []), ?_⟩
    apply Exists.intro
    apply Exists.intro
    apply Exists.intro
    apply Exists.intro
    apply And.intro
    · exact .head _
    apply And.intro
    · apply someEq (d := 0)
      decide +kernel
    apply And.intro
    · decide +kernel
    apply And.intro
    · rfl
    apply And.intro
    · decide +kernel
    apply And.intro
    · rfl
    apply And.intro
    · decide +kernel
    apply And.intro
    · decide +kernel
    decide +kernel
  · refine ⟨(ctlFront 0 [(16, 1), (20, 1)] { st := .destroyed } {} []), ?_⟩
    apply Exists.intro
    apply Exists.intro
    apply Exists.intro
    apply Exists.intro
    apply And.intro
    · exact .head _
    apply And.intro
    · apply someEq (d := 0)
      decide +kernel
    apply And.intro
    · decide +kernel
    apply And.intro
    · rfl
    apply And.intro
    · decide +kernel
    apply And.intro
    · rfl
    apply And.intro
    · decide +kernel
    apply And.intro
    · decide +kernel
    decide +kernel
  · refine ⟨(ctlFront 1 [(16, 0), (20, 2)] { st := .created } {} []), ?_⟩
    apply Exists.intro
    refine ⟨1, ?_⟩
    apply Exists.intro
    apply And.intro
    · apply someEq (d := 0)
      decide +kernel
    apply And.intro
    · decide +kernel
    apply And.intro
    · rfl
    apply And.intro
    · decide +kernel
    apply And.intro
    · decide +kernel
    apply And.intro
    · decide +kernel
    apply And.intro
    · decide +kernel
    decide +kernel
  · refine ⟨(ctlFront 0 [(16, 0), (20, 2)] { st := .created } {} []), ?_⟩
    apply Exists.intro
    refine ⟨1, ?_⟩
    apply Exists.intro
    apply And.intro
    · apply someEq (d := 0)
      decide +kernel
    apply And.intro
    · decide +kernel
    apply And.intro
    · rfl
    apply And.intro
    · decide +kernel
    apply And.intro
    · decide +kernel
    apply And.intro
    · decide +kernel
    apply And.intro
    · decide +kernel
    decide +kernel
  · refine ⟨(ctlFront 0 [(16, 1)] { st := .created } {} []), ?_⟩
    apply Exists.intro
    apply Exists.intro
    apply And.intro
    · apply someEq (d := 0)
      decide +kernel
    apply And.intro
    · decide +kernel
    apply And.intro
    · rfl
    apply And.intro
    · decide +kernel
    apply And.intro
    · decide +kernel
    apply And.intro
    · decide +kernel
    apply And.intro
    · decide +kernel
    apply And.intro
    · decide +kernel
    apply And.intro
    · decide +kernel
    apply And.intro
    · decide +kernel
    decide +kernel
  · refine ⟨(ctlFront 0 [(16, 1), (20, 1)] { st := .created } {} []), ?_⟩
    apply Exists.intro
    apply Exists.intro
    apply And.intro
    · apply someEq (d := 0)
      decide +kernel
    apply And.intro
    · decide +kernel
    apply And.intro
    · rfl
    apply And.intro
    · decide +kernel
    apply And.intro
    · decide +kernel
    apply And.intro
    · decide +kernel
    apply And.intro
    · decide +kernel
    apply And.intro
    · decide +kernel
    apply And.intro
    · decide +kernel
    apply And.intro
    · decide +kernel
    decide +kernel
  · refine ⟨(ctlFront 1 [(16, 2), (20, 1)] { st := .created } {} []), ?_⟩
    apply Exists.intro
    apply Exists.intro
    apply And.intro
    · apply someEq (d := 0)
      decide +kernel
    apply And.intro
    · decide +kernel
    apply And.intro
    · rfl
    apply And.intro
    · decide +kernel
    apply And.intro
    · decide +kernel
    apply And.intro
    · decide +kernel
    apply And.intro
    · decide +kernel
    apply And.intro
    · decide +kernel
    apply And.intro
    · decide +kernel
    apply And.intro
    · decide +kernel
    refine ⟨({ st := .created } : Ctx), ?_⟩
    decide +kernel
  · refine ⟨(ctlFront 1 [(16, 2), (20, 1), (24, 5)] { st := .created } {} []), ?_⟩
    apply Exists.intro
    apply Exists.intro
    apply And.intro
    · apply someEq (d := 0)
      decide +kernel
    apply And.intro
    · decide +kernel
    apply And.intro
    · rfl
    apply And.intro
    · decide +kernel
    apply And.intro
    · decide +kernel
    apply And.intro
    · decide +kernel
    apply And.intro
    · decide +kernel
    apply And.intro
    · decide +kernel
    apply And.intro
    · decide +kernel
    apply And.intro
    · decide +kernel
    decide +kernel
  · refine ⟨(ctlFront 1 [(16, 3), (20, 1)] { st := .faulted } {} []), ?_⟩
    apply Exists.intro
    apply Exists.intro
    apply And.intro
    · apply someEq (d := 0)
      decide +kernel
    apply And.intro
    · decide +kernel
    apply And.intro
    · rfl
    apply And.intro
    · decide +kernel
    apply And.intro
    · decide +kernel
    apply And.intro
    · decide +kernel
    apply And.intro
    · decide +kernel
    apply And.intro
    · decide +kernel
    apply And.intro
    · decide +kernel
    apply And.intro
    · decide +kernel
    decide +kernel
  · refine ⟨(ctlFront 1 [(16, 3), (20, 1)] { st := .created } {} []), ?_⟩
    apply Exists.intro
    apply Exists.intro
    apply And.intro
    · apply someEq (d := 0)
      decide +kernel
    apply And.intro
    · decide +kernel
    apply And.intro
    · rfl
    apply And.intro
    · decide +kernel
    apply And.intro
    · decide +kernel
    apply And.intro
    · decide +kernel
    apply And.intro
    · decide +kernel
    apply And.intro
    · decide +kernel
    apply And.intro
    · decide +kernel
    apply And.intro
    · decide +kernel
    decide +kernel
  · refine ⟨(ctlFront 1 [(16, 4), (20, 1), (34, 1), (42, 2)] { st := .running, root := 524288 } {} []), ?_⟩
    apply Exists.intro
    apply Exists.intro
    apply And.intro
    · apply someEq (d := 0)
      decide +kernel
    apply And.intro
    · decide +kernel
    apply And.intro
    · rfl
    apply And.intro
    · decide +kernel
    apply And.intro
    · decide +kernel
    apply And.intro
    · decide +kernel
    apply And.intro
    · decide +kernel
    apply And.intro
    · decide +kernel
    apply And.intro
    · decide +kernel
    apply And.intro
    · decide +kernel
    apply And.intro
    · decide +kernel
    apply And.intro
    · decide +kernel
    apply And.intro
    · decide +kernel
    apply And.intro
    · decide +kernel
    apply And.intro
    · decide +kernel
    decide +kernel
  · refine ⟨(ctlFront 1 [(16, 4), (20, 1), (34, 1), (42, 1)] { st := .running, root := 524288 } {} []), ?_⟩
    apply Exists.intro
    apply Exists.intro
    apply And.intro
    · apply someEq (d := 0)
      decide +kernel
    apply And.intro
    · decide +kernel
    apply And.intro
    · rfl
    apply And.intro
    · decide +kernel
    apply And.intro
    · decide +kernel
    apply And.intro
    · decide +kernel
    apply And.intro
    · decide +kernel
    apply And.intro
    · decide +kernel
    apply And.intro
    · decide +kernel
    apply And.intro
    · decide +kernel
    apply And.intro
    · decide +kernel
    decide +kernel
  · refine ⟨(ctlFront 1 [(16, 4), (20, 1), (42, 2)] { st := .running, root := 524288, ckptArea := 65536, ckptBytes := 131072, ckptCid := 1 } {} []), ?_⟩
    apply Exists.intro
    apply Exists.intro
    apply And.intro
    · apply someEq (d := 0)
      decide +kernel
    apply And.intro
    · decide +kernel
    apply And.intro
    · rfl
    apply And.intro
    · decide +kernel
    apply And.intro
    · decide +kernel
    apply And.intro
    · decide +kernel
    apply And.intro
    · decide +kernel
    apply And.intro
    · decide +kernel
    apply And.intro
    · decide +kernel
    apply And.intro
    · decide +kernel
    apply And.intro
    · decide +kernel
    apply And.intro
    · decide +kernel
    apply And.intro
    · decide +kernel
    apply And.intro
    · decide +kernel
    apply And.intro
    · decide +kernel
    apply And.intro
    · decide +kernel
    decide +kernel

theorem wit_ContextControl_2 :
    (∃ s : State, ∃ p : Nat, ∃ b : List Byte, s.hub.hand = some p ∧ s.hub.stalled = false ∧ (s.pkt p).bytes = b ∧ pOP b = 10 ∧ (s.pkt p).outcome = none ∧ p < s.hub.nextPkt ∧
      let c := pCID b

      let x := s.ctx c
      ((s.pkt p).cid = 0 ∨ c = (s.pkt p).cid) ∧ x.st ≠ .absent ∧ x.st ≠ .destroyed ∧ pSUB b = 4 ∧
      let area := field b 32 8

      let bytes := field b 40 8
      area = 0 ∧ (x.ckptBytes = 0 ∨ bytes < 131072 ∨ bytes % 65536 ≠ 0 ∨ hubMay s x.ckptCid x.ckptArea x.ckptBytes 1 = false))
    ∧ (∃ s : State, ∃ p : Nat, ∃ b : List Byte, s.hub.hand = some p ∧ s.hub.stalled = false ∧ (s.pkt p).bytes = b ∧ pOP b = 10 ∧ (s.pkt p).outcome = none ∧ p < s.hub.nextPkt ∧
      let c := pCID b

      let x := s.ctx c
      ((s.pkt p).cid = 0 ∨ c = (s.pkt p).cid) ∧ x.st ≠ .absent ∧ x.st ≠ .destroyed ∧ pSUB b = 9 ∧
      let g := gangKey c (field b 24 1)
      s.gangQueues g ≠ [] ∧ (∀ q ∈ s.gangQueues g, q.2.st = .created) ∧ (s.gangQueues g).length ≤ (freeSlots s).length ∧ (x.st = .created → residents s < 32))
    ∧ (∃ s : State, ∃ p : Nat, ∃ b : List Byte, s.hub.hand = some p ∧ s.hub.stalled = false ∧ (s.pkt p).bytes = b ∧ pOP b = 10 ∧ (s.pkt p).outcome = none ∧ p < s.hub.nextPkt ∧
      let c := pCID b

      let x := s.ctx c
      ((s.pkt p).cid = 0 ∨ c = (s.pkt p).cid) ∧ x.st ≠ .absent ∧ x.st ≠ .destroyed ∧ pSUB b = 10 ∧
      let g := gangKey c (field b 24 1)
      s.gangQueues g ≠ [] ∧ (∀ q ∈ s.gangQueues g, q.2.st = .idle ∨ q.2.st = .ready ∨ q.2.st = .blocked) ∧ x.st ≠ .running)
    ∧ (∃ s : State, ∃ p : Nat, ∃ b : List Byte, s.hub.hand = some p ∧ s.hub.stalled = false ∧ (s.pkt p).bytes = b ∧ pOP b = 10 ∧ (s.pkt p).outcome = none ∧ p < s.hub.nextPkt ∧
      let c := pCID b

      let x := s.ctx c
      ((s.pkt p).cid = 0 ∨ c = (s.pkt p).cid) ∧ x.st ≠ .absent ∧ x.st ≠ .destroyed ∧ pSUB b = 11 ∧
      let h := field b 24 4
      (∀ q ∈ x.handles, q.1 ≠ h))
    ∧ (∃ s : State, ∃ p : Nat, ∃ b : List Byte, s.hub.hand = some p ∧ s.hub.stalled = false ∧ (s.pkt p).bytes = b ∧ pOP b = 10 ∧ (s.pkt p).outcome = none ∧ p < s.hub.nextPkt ∧
      let c := pCID b

      let x := s.ctx c
      ((s.pkt p).cid = 0 ∨ c = (s.pkt p).cid) ∧ x.st ≠ .absent ∧ x.st ≠ .destroyed ∧ pSUB b = 11 ∧
      let h := field b 24 4
      (∃ q ∈ x.handles, q.1 = h) ∧ (sget {} x.handles h).named ≠ [])
    ∧ (∃ s : State, ∃ p : Nat, ∃ b : List Byte, s.hub.hand = some p ∧ s.hub.stalled = false ∧ (s.pkt p).bytes = b ∧ pOP b = 10 ∧ (s.pkt p).outcome = none ∧ p < s.hub.nextPkt ∧
      let c := pCID b

      let x := s.ctx c
      ((s.pkt p).cid = 0 ∨ c = (s.pkt p).cid) ∧ x.st ≠ .absent ∧ x.st ≠ .destroyed ∧ pSUB b = 11 ∧
      let h := field b 24 4
      (∃ q ∈ x.handles, q.1 = h) ∧ (sget {} x.handles h).named = [] ∧ (∀ n ∈ namesOf s c (undispatched s c), n.handle ≠ h))
    ∧ (∃ s : State, ∃ p : Nat, ∃ b : List Byte, s.hub.hand = some p ∧ s.hub.stalled = false ∧ (s.pkt p).bytes = b ∧ pOP b = 10 ∧ (s.pkt p).outcome = none ∧ p < s.hub.nextPkt ∧
      let c := pCID b

      let x := s.ctx c
      ((s.pkt p).cid = 0 ∨ c = (s.pkt p).cid) ∧ x.st ≠ .absent ∧ x.st ≠ .destroyed ∧ pSUB b = 12 ∧ ∃ bs, s.hubRead (s.pkt p).cid (field b 24 8) (8 * field b 32 4) = some bs ∧
      let fr := (List.range (field b 32 4)).map (fun i => field bs (8 * i) 8)

      let mode := field b 36 1
      mode ≤ 2 ∧ (∀ f ∈ fr, f % 65536 = 0 ∧ f + 65536 ≤ memSize) ∧ x.pool.length + fr.length ≤ 65536 ∧ fr.Nodup ∧ (mode ≠ 2 → ∀ y ∈ s.ctxs, ∀ f ∈ fr, f ∉ y.2.pool))
    ∧ (∃ s : State, ∃ p q : Nat, ∃ b d : List Byte, s.hub.hand = some p ∧ s.hub.stalled = false ∧ (s.pkt p).bytes = b ∧ pOP b = 10 ∧ pSUB b = 5 ∧ (s.pkt p).outcome = none ∧
      let c := pCID b
      ((s.pkt p).cid = 0 ∨ c = (s.pkt p).cid) ∧ (s.ctx c).st ≠ .absent ∧ (s.ctx c).st ≠ .destroyed ∧
      let free : Nat → Prop := fun j => (s.queue j).st = .absent ∨ ((s.queue j).st = .destroyed ∧ (s.queue j).out = [])

      let g := gangKey c (field b 32 1)

      let quant := if field b 36 4 = 0 then 2000 else field b 36 4
      q < 4096 ∧ free q ∧ (∀ j, j < q → ¬ free j) ∧ s.hubRead (s.pkt p).cid (field b 24 8) 64 = some d ∧ field b 33 1 ≤ 7 ∧ 100 ≤ quant ∧ quant ≤ 100000 ∧ (s.gangQueues g).length < 16 ∧ (s.gangQueues g ≠ [] → (s.gang g).prio = field b 33 1) ∧ field d 0 8 % 4096 = 0 ∧ 6 ≤ field d 16 1 ∧ field d 16 1 ≤ 20 ∧ (s.gang g).mapped = false)
    ∧ (∃ s : State, ∃ p : Nat, ∃ b : List Byte, s.hub.hand = some p ∧ s.hub.stalled = false ∧ (s.pkt p).bytes = b ∧ pOP b = 10 ∧ (s.pkt p).outcome = none ∧ p < s.hub.nextPkt ∧
      let c := pCID b

      let q := field b 24 2

      let v := s.queue q
      ((s.pkt p).cid = 0 ∨ c = (s.pkt p).cid) ∧ (s.ctx c).st ≠ .absent ∧ (s.ctx c).st ≠ .destroyed ∧ ∃ i n, (n, i) ∈ [(6, Instr.ctxcQdestroy), (7, .ctxcQprog), (8, .ctxcQreset)] ∧ pSUB b = n ∧ v.st = .absent)
    ∧ (∃ s : State, ∃ p : Nat, ∃ b : List Byte, s.hub.hand = some p ∧ s.hub.stalled = false ∧ (s.pkt p).bytes = b ∧ pOP b = 10 ∧ (s.pkt p).outcome = none ∧ p < s.hub.nextPkt ∧
      let c := pCID b

      let q := field b 24 2

      let v := s.queue q
      ((s.pkt p).cid = 0 ∨ c = (s.pkt p).cid) ∧ (s.ctx c).st ≠ .absent ∧ (s.ctx c).st ≠ .destroyed ∧ ∃ i n, (n, i) ∈ [(6, Instr.ctxcQdestroy), (7, .ctxcQprog), (8, .ctxcQreset)] ∧ pSUB b = n ∧ v.st ≠ .absent ∧ v.cid ≠ c)
    ∧ (∃ s : State, ∃ p : Nat, ∃ b : List Byte, s.hub.hand = some p ∧ s.hub.stalled = false ∧ (s.pkt p).bytes = b ∧ pOP b = 10 ∧ (s.pkt p).outcome = none ∧ p < s.hub.nextPkt ∧
      let c := pCID b

      let q := field b 24 2

      let v := s.queue q
      ((s.pkt p).cid = 0 ∨ c = (s.pkt p).cid) ∧ (s.ctx c).st ≠ .absent ∧ (s.ctx c).st ≠ .destroyed ∧ v.st ≠ .absent ∧ v.cid = c ∧ pSUB b = 6 ∧ v.st ≠ .destroyed)
    ∧ (∃ s : State, ∃ p : Nat, ∃ b : List Byte, s.hub.hand = some p ∧ s.hub.stalled = false ∧ (s.pkt p).bytes = b ∧ pOP b = 10 ∧ (s.pkt p).outcome = none ∧ p < s.hub.nextPkt ∧
      let c := pCID b

      let q := field b 24 2

      let v := s.queue q
      ((s.pkt p).cid = 0 ∨ c = (s.pkt p).cid) ∧ (s.ctx c).st ≠ .absent ∧ (s.ctx c).st ≠ .destroyed ∧ v.st ≠ .absent ∧ v.cid = c ∧ pSUB b = 6 ∧ v.st = .destroyed)
    ∧ (∃ s : State, ∃ p : Nat, ∃ b : List Byte, s.hub.hand = some p ∧ s.hub.stalled = false ∧ (s.pkt p).bytes = b ∧ pOP b = 10 ∧ (s.pkt p).outcome = none ∧ p < s.hub.nextPkt ∧
      let c := pCID b

      let q := field b 24 2

      let v := s.queue q
      ((s.pkt p).cid = 0 ∨ c = (s.pkt p).cid) ∧ (s.ctx c).st ≠ .absent ∧ (s.ctx c).st ≠ .destroyed ∧ v.st ≠ .absent ∧ v.cid = c ∧ pSUB b = 7 ∧ v.st ≠ .destroyed ∧ ∃ code wt wins, s.hubRead (s.pkt p).cid (field b 32 8) (4 * field b 28 2) = some code ∧ s.hubRead (s.pkt p).cid (field b 40 8) 32 = some wt ∧ qpWindows wt = some wins ∧
      let r := qpVerify (wordsOf code) wins (field b 26 2)
      r = 0)
    ∧ (∃ s : State, ∃ p : Nat, ∃ b : List Byte, s.hub.hand = some p ∧ s.hub.stalled = false ∧ (s.pkt p).bytes = b ∧ pOP b = 10 ∧ (s.pkt p).outcome = none ∧ p < s.hub.nextPkt ∧
      let c := pCID b

      let q := field b 24 2

      let v := s.queue q
      ((s.pkt p).cid = 0 ∨ c = (s.pkt p).cid) ∧ (s.ctx c).st ≠ .absent ∧ (s.ctx c).st ≠ .destroyed ∧ v.st ≠ .absent ∧ v.cid = c ∧ pSUB b = 7 ∧ v.st ≠ .destroyed ∧ ∃ code wt wins, s.hubRead (s.pkt p).cid (field b 32 8) (4 * field b 28 2) = some code ∧ s.hubRead (s.pkt p).cid (field b 40 8) 32 = some wt ∧ qpWindows wt = some wins ∧
      let r := qpVerify (wordsOf code) wins (field b 26 2)
      r ≠ 0) := by
  refine ⟨?_, ?_, ?_, ?_, ?_, ?_, ?_, ?_, ?_, ?_, ?_, ?_, ?_, ?_⟩
  · refine ⟨(ctlFront 1 [(16, 4), (20, 1), (42, 2)] { st := .running, root := 524288 } {} []), ?_⟩
    apply Exists.intro
    apply Exists.intro
    apply And.intro
    · apply someEq (d := 0)
      decide +kernel
    apply And.intro
    · decide +kernel
    apply And.intro
    · rfl
    apply And.intro
    · decide +kernel
    apply And.intro
    · decide +kernel
    apply And.intro
    · decide +kernel
    apply And.intro
    · decide +kernel
    apply And.intro
    · decide +kernel
    apply And.intro
    · decide +kernel
    apply And.intro
    · decide +kernel
    apply And.intro
    · decide +kernel
    decide +kernel
  · refine ⟨(ctlFront 1 [(16, 9), (20, 1)] { st := .created } { queues := [(1, { st := .created, cid := 1 })] } []), ?_⟩
    apply Exists.intro
    apply Exists.intro
    apply And.intro
    · apply someEq (d := 0)
      decide +kernel
    apply And.intro
    · decide +kernel
    apply And.intro
    · rfl
    apply And.intro
    · decide +kernel
    apply And.intro
    · decide +kernel
    apply And.intro
    · decide +kernel
    apply And.intro
    · decide +kernel
    apply And.intro
    · decide +kernel
    apply And.intro
    · decide +kernel
    apply And.intro
    · decide +kernel
    apply And.intro
    · decide +kernel
    apply And.intro
    · decide +kernel
    apply And.intro
    · decide +kernel
    decide +kernel
  · refine ⟨(ctlFront 1 [(16, 10), (20, 1)] { st := .resident } { queues := [(1, { st := .idle, cid := 1, mapped := true })], gangs := [(256, { mapped := true })] } []), ?_⟩
    apply Exists.intro
    apply Exists.intro
    apply And.intro
    · apply someEq (d := 0)
      decide +kernel
    apply And.intro
    · decide +kernel
    apply And.intro
    · rfl
    apply And.intro
    · decide +kernel
    apply And.intro
    · decide +kernel
    apply And.intro
    · decide +kernel
    apply And.intro
    · decide +kernel
    apply And.intro
    · decide +kernel
    apply And.intro
    · decide +kernel
    apply And.intro
    · decide +kernel
    apply And.intro
    · decide +kernel
    apply And.intro
    · decide +kernel
    decide +kernel
  · refine ⟨(ctlFront 1 [(16, 11), (20, 1), (24, 7)] { st := .created } {} []), ?_⟩
    apply Exists.intro
    apply Exists.intro
    apply And.intro
    · apply someEq (d := 0)
      decide +kernel
    apply And.intro
    · decide +kernel
    apply And.intro
    · rfl
    apply And.intro
    · decide +kernel
    apply And.intro
    · decide +kernel
    apply And.intro
    · decide +kernel
    apply And.intro
    · decide +kernel
    apply And.intro
    · decide +kernel
    apply And.intro
    · decide +kernel
    apply And.intro
    · decide +kernel
    decide +kernel
  · refine ⟨(ctlFront 1 [(16, 11), (20, 1), (24, 7)] { st := .created, handles := [(7, { bytes := 64, named := [3] })] } {} []), ?_⟩
    apply Exists.intro
    apply Exists.intro
    apply And.intro
    · apply someEq (d := 0)
      decide +kernel
    apply And.intro
    · decide +kernel
    apply And.intro
    · rfl
    apply And.intro
    · decide +kernel
    apply And.intro
    · decide +kernel
    apply And.intro
    · decide +kernel
    apply And.intro
    · decide +kernel
    apply And.intro
    · decide +kernel
    apply And.intro
    · decide +kernel
    apply And.intro
    · decide +kernel
    apply And.intro
    · decide +kernel
    decide +kernel
  · refine ⟨(ctlFront 1 [(16, 11), (20, 1), (24, 7)] { st := .created, handles := [(7, { bytes := 64 })] } {} []), ?_⟩
    apply Exists.intro
    apply Exists.intro
    apply And.intro
    · apply someEq (d := 0)
      decide +kernel
    apply And.intro
    · decide +kernel
    apply And.intro
    · rfl
    apply And.intro
    · decide +kernel
    apply And.intro
    · decide +kernel
    apply And.intro
    · decide +kernel
    apply And.intro
    · decide +kernel
    apply And.intro
    · decide +kernel
    apply And.intro
    · decide +kernel
    apply And.intro
    · decide +kernel
    apply And.intro
    · decide +kernel
    apply And.intro
    · decide +kernel
    decide +kernel
  · refine ⟨(ctlFront 1 [(16, 12), (20, 1), (25, 32), (32, 1)] { st := .running, root := 524288 } {} []), ?_⟩
    apply Exists.intro
    apply Exists.intro
    apply And.intro
    · apply someEq (d := 0)
      decide +kernel
    apply And.intro
    · decide +kernel
    apply And.intro
    · rfl
    apply And.intro
    · decide +kernel
    apply And.intro
    · decide +kernel
    apply And.intro
    · decide +kernel
    apply And.intro
    · decide +kernel
    apply And.intro
    · decide +kernel
    apply And.intro
    · decide +kernel
    apply And.intro
    · decide +kernel
    apply Exists.intro
    apply And.intro
    · apply someEq (d := (default))
      decide +kernel
    apply And.intro
    · decide +kernel
    apply And.intro
    · decide +kernel
    apply And.intro
    · decide +kernel
    apply And.intro
    · decide +kernel
    decide +kernel
  · refine ⟨(ctlFront 1 [(16, 5), (20, 1), (25, 32)] { st := .running, root := 524288 } {} [(8208, 6)]), ?_⟩
    apply Exists.intro
    refine ⟨0, ?_⟩
    apply Exists.intro
    apply Exists.intro
    apply And.intro
    · apply someEq (d := 0)
      decide +kernel
    apply And.intro
    · decide +kernel
    apply And.intro
    · rfl
    apply And.intro
    · decide +kernel
    apply And.intro
    · decide +kernel
    apply And.intro
    · decide +kernel
    apply And.intro
    · decide +kernel
    apply And.intro
    · decide +kernel
    apply And.intro
    · decide +kernel
    apply And.intro
    · decide +kernel
    apply And.intro
    · decide +kernel
    apply And.intro
    · decide +kernel
    apply And.intro
    · apply someEq (d := [])
      decide +kernel
    apply And.intro
    · decide +kernel
    apply And.intro
    · decide +kernel
    apply And.intro
    · decide +kernel
    apply And.intro
    · decide +kernel
    apply And.intro
    · decide +kernel
    apply And.intro
    · decide +kernel
    apply And.intro
    · decide +kernel
    apply And.intro
    · decide +kernel
    decide +kernel
  · refine ⟨(ctlFront 1 [(16, 6), (20, 1)] { st := .created } {} []), ?_⟩
    apply Exists.intro
    apply Exists.intro
    apply And.intro
    · apply someEq (d := 0)
      decide +kernel
    apply And.intro
    · decide +kernel
    apply And.intro
    · rfl
    apply And.intro
    · decide +kernel
    apply And.intro
    · decide +kernel
    apply And.intro
    · decide +kernel
    apply And.intro
    · decide +kernel
    apply And.intro
    · decide +kernel
    apply And.intro
    · decide +kernel
    apply Exists.intro
    apply Exists.intro
    apply And.intro
    · exact .head _
    apply And.intro
    · rfl
    decide +kernel
  · refine ⟨(ctlFront 1 [(16, 6), (20, 1)] { st := .created } { queues := [(0, { st := .idle, cid := 2 })] } []), ?_⟩
    apply Exists.intro
    apply Exists.intro
    apply And.intro
    · apply someEq (d := 0)
      decide +kernel
    apply And.intro
    · decide +kernel
    apply And.intro
    · rfl
    apply And.intro
    · decide +kernel
    apply And.intro
    · decide +kernel
    apply And.intro
    · decide +kernel
    apply And.intro
    · decide +kernel
    apply And.intro
    · decide +kernel
    apply And.intro
    · decide +kernel
    apply Exists.intro
    apply Exists.intro
    apply And.intro
    · exact .head _
    apply And.intro
    · rfl
    apply And.intro
    · decide +kernel
    decide +kernel
  · refine ⟨(ctlFront 1 [(16, 6), (20, 1)] { st := .created } { queues := [(0, { st := .idle, cid := 1 })] } []), ?_⟩
    apply Exists.intro
    apply Exists.intro
    apply And.intro
    · apply someEq (d := 0)
      decide +kernel
    apply And.intro
    · decide +kernel
    apply And.intro
    · rfl
    apply And.intro
    · decide +kernel
    apply And.intro
    · decide +kernel
    apply And.intro
    · decide +kernel
    apply And.intro
    · decide +kernel
    apply And.intro
    · decide +kernel
    apply And.intro
    · decide +kernel
    apply And.intro
    · decide +kernel
    apply And.intro
    · decide +kernel
    apply And.intro
    · decide +kernel
    decide +kernel
  · refine ⟨(ctlFront 1 [(16, 6), (20, 1)] { st := .created } { queues := [(0, { st := .destroyed, cid := 1 })] } []), ?_⟩
    apply Exists.intro
    apply Exists.intro
    apply And.intro
    · apply someEq (d := 0)
      decide +kernel
    apply And.intro
    · decide +kernel
    apply And.intro
    · rfl
    apply And.intro
    · decide +kernel
    apply And.intro
    · decide +kernel
    apply And.intro
    · decide +kernel
    apply And.intro
    · decide +kernel
    apply And.intro
    · decide +kernel
    apply And.intro
    · decide +kernel
    apply And.intro
    · decide +kernel
    apply And.intro
    · decide +kernel
    apply And.intro
    · decide +kernel
    decide +kernel
  · refine ⟨(ctlFront 1 [(16, 7), (20, 1), (26, 1), (28, 1), (33, 32), (41, 64)] { st := .running, root := 524288 } { queues := [(0, { st := .idle, cid := 1 })] } (cellsAt 8192 (leBytes 4 (qpWord .qDone)))), ?_⟩
    apply Exists.intro
    apply Exists.intro
    apply And.intro
    · apply someEq (d := 0)
      decide +kernel
    apply And.intro
    · decide +kernel
    apply And.intro
    · rfl
    apply And.intro
    · decide +kernel
    apply And.intro
    · decide +kernel
    apply And.intro
    · decide +kernel
    apply And.intro
    · decide +kernel
    apply And.intro
    · decide +kernel
    apply And.intro
    · decide +kernel
    apply And.intro
    · decide +kernel
    apply And.intro
    · decide +kernel
    apply And.intro
    · decide +kernel
    apply And.intro
    · decide +kernel
    apply Exists.intro
    apply Exists.intro
    apply Exists.intro
    apply And.intro
    · apply someEq (d := (default))
      decide +kernel
    apply And.intro
    · apply someEq (d := (default))
      decide +kernel
    apply And.intro
    · apply someEq (d := (default))
      decide +kernel
    decide +kernel
  · refine ⟨(ctlFront 1 [(16, 7), (20, 1), (28, 1), (33, 32), (41, 64)] { st := .running, root := 524288 } { queues := [(0, { st := .idle, cid := 1 })] } []), ?_⟩
    apply Exists.intro
    apply Exists.intro
    apply And.intro
    · apply someEq (d := 0)
      decide +kernel
    apply And.intro
    · decide +kernel
    apply And.intro
    · rfl
    apply And.intro
    · decide +kernel
    apply And.intro
    · decide +kernel
    apply And.intro
    · decide +kernel
    apply And.intro
    · decide +kernel
    apply And.intro
    · decide +kernel
    apply And.intro
    · decide +kernel
    apply And.intro
    · decide +kernel
    apply And.intro
    · decide +kernel
    apply And.intro
    · decide +kernel
    apply And.intro
    · decide +kernel
    apply Exists.intro
    apply Exists.intro
    apply Exists.intro
    apply And.intro
    · apply someEq (d := (default))
      decide +kernel
    apply And.intro
    · apply someEq (d := (default))
      decide +kernel
    apply And.intro
    · apply someEq (d := (default))
      decide +kernel
    decide +kernel

theorem wit_ContextControl_3 :
    (∃ s : State, ∃ p : Nat, ∃ b : List Byte, s.hub.hand = some p ∧ s.hub.stalled = false ∧ (s.pkt p).bytes = b ∧ pOP b = 10 ∧ (s.pkt p).outcome = none ∧ p < s.hub.nextPkt ∧
      let c := pCID b

      let q := field b 24 2

      let v := s.queue q
      ((s.pkt p).cid = 0 ∨ c = (s.pkt p).cid) ∧ (s.ctx c).st ≠ .absent ∧ (s.ctx c).st ≠ .destroyed ∧ v.st ≠ .absent ∧ v.cid = c ∧ pSUB b = 8 ∧ v.st ≠ .error)
    ∧ (∃ s : State, ∃ p : Nat, ∃ b : List Byte, s.hub.hand = some p ∧ s.hub.stalled = false ∧ (s.pkt p).bytes = b ∧ pOP b = 10 ∧ (s.pkt p).outcome = none ∧ p < s.hub.nextPkt ∧
      let c := pCID b

      let q := field b 24 2

      let v := s.queue q
      ((s.pkt p).cid = 0 ∨ c = (s.pkt p).cid) ∧ (s.ctx c).st ≠ .absent ∧ (s.ctx c).st ≠ .destroyed ∧ v.st ≠ .absent ∧ v.cid = c ∧ pSUB b = 8 ∧ v.st = .error)
    ∧ (∃ (s : State) (p i : Nat) (b : List Byte), s.hub.hand = some p ∧ (s.pkt p).bytes = b ∧ pOP b = 10 ∧ pSUB b = 0 ∧ (s.pkt p).outcome = none ∧ i < 1023
      ∧ ((s.pkt p).cid = 0 ∨ pCID b = (s.pkt p).cid) ∧ (s.ctx (pCID b)).st ≠ .absent
      ∧ ((s.ctx (i + 1)).st = .absent ∨ ((s.ctx (i + 1)).st = .destroyed ∧ (s.ctx (i + 1)).destroyPkt = none))
      ∧ (∀ j < i, ¬ ((s.ctx (j + 1)).st = .absent ∨ ((s.ctx (j + 1)).st = .destroyed ∧ (s.ctx (j + 1)).destroyPkt = none)))
      ∧ (field b 24 8 % 4096 = 0 ∧ field b 24 8 < memSize ∧ field b 32 8 % 65536 = 0 ∧ field b 32 8 < memSize ∧ field b 48 2 % 1024 ≤ 1000
        ∧ field b 50 1 ∈ [0, 2, 4, 8] ∧ field b 52 8 % 4 ≠ 3))
    ∧ (∃ (s : State) (p i : Nat) (b : List Byte), s.hub.hand = some p ∧ (s.pkt p).bytes = b ∧ pOP b = 10 ∧ pSUB b = 0 ∧ (s.pkt p).outcome = none ∧ i < 1023
      ∧ ((s.pkt p).cid = 0 ∨ pCID b = (s.pkt p).cid) ∧ (s.ctx (pCID b)).st ≠ .absent
      ∧ ((s.ctx (i + 1)).st = .absent ∨ ((s.ctx (i + 1)).st = .destroyed ∧ (s.ctx (i + 1)).destroyPkt = none))
      ∧ (∀ j < i, ¬ ((s.ctx (j + 1)).st = .absent ∨ ((s.ctx (j + 1)).st = .destroyed ∧ (s.ctx (j + 1)).destroyPkt = none)))
      ∧ ¬(field b 24 8 % 4096 = 0 ∧ field b 24 8 < memSize ∧ field b 32 8 % 65536 = 0 ∧ field b 32 8 < memSize ∧ field b 48 2 % 1024 ≤ 1000
        ∧ field b 50 1 ∈ [0, 2, 4, 8] ∧ field b 52 8 % 4 ≠ 3)) := by
  refine ⟨?_, ?_, ?_, ?_⟩
  · refine ⟨(ctlFront 1 [(16, 8), (20, 1)] { st := .created } { queues := [(0, { st := .idle, cid := 1 })] } []), ?_⟩
    apply Exists.intro
    apply Exists.intro
    apply And.intro
    · apply someEq (d := 0)
      decide +kernel
    apply And.intro
    · decide +kernel
    apply And.intro
    · rfl
    apply And.intro
    · decide +kernel
    apply And.intro
    · decide +kernel
    apply And.intro
    · decide +kernel
    apply And.intro
    · decide +kernel
    apply And.intro
    · decide +kernel
    apply And.intro
    · decide +kernel
    apply And.intro
    · decide +kernel
    apply And.intro
    · decide +kernel
    apply And.intro
    · decide +kernel
    decide +kernel
  · refine ⟨(ctlFront 1 [(16, 8), (20, 1)] { st := .created } { queues := [(0, { st := .error, cid := 1 })] } []), ?_⟩
    apply Exists.intro
    apply Exists.intro
    apply And.intro
    · apply someEq (d := 0)
      decide +kernel
    apply And.intro
    · decide +kernel
    apply And.intro
    · rfl
    apply And.intro
    · decide +kernel
    apply And.intro
    · decide +kernel
    apply And.intro
    · decide +kernel
    apply And.intro
    · decide +kernel
    apply And.intro
    · decide +kernel
    apply And.intro
    · decide +kernel
    apply And.intro
    · decide +kernel
    apply And.intro
    · decide +kernel
    apply And.intro
    · decide +kernel
    decide +kernel
  · refine ⟨ctlFront 0 [] {} {} [], 1, 0, pktBytes ((0, 10) :: []), ?_⟩
    exact ⟨by decide +kernel, rfl, by decide +kernel, by decide +kernel, by decide +kernel, by decide +kernel, by decide +kernel, by decide +kernel, by decide +kernel, by decide +kernel, by decide +kernel⟩
  · refine ⟨ctlFront 0 [(24, 1)] {} {} [], 1, 0, pktBytes ((0, 10) :: [(24, 1)]), ?_⟩
    exact ⟨by decide +kernel, rfl, by decide +kernel, by decide +kernel, by decide +kernel, by decide +kernel, by decide +kernel, by decide +kernel, by decide +kernel, by decide +kernel, by decide +kernel⟩

theorem wit_ContextEvents_1 :
    (∃ s : State, ∃ c : Nat, ∃ f : CtxSt, (s.ctx c).stopping = some f ∧ s.hub.stalled = false)
    ∧ (∃ s : State, ∃ c : Nat, (∀ k ∈ coresOf s c, (s.core k).frozen = true ∧ asleepAt s k = false ∧ (∀ e ∈ (s.core k).inflight, e.pend = false ∧ (s.core k).bn < e.due)
      ∧ (s.core k).hold = .none ∧ (s.core k).holdQ = []) ∧ (∀ u ∈ unitsOf (keptCores s c), ∀ n ∈ (s.tile u).nodes, n.2.st ≠ .running) ∧ (∀ r ∈ s.hub.reqs, r.cid = c → r.orphan = true) ∧ (s.ctx c).ckptRun = none ∧ s.hub.forkCopies = [] ∧ s.hub.seqTraps = [] ∧ launchInHand s = false)
    ∧ (∃ s0 : State, ∃ c : Nat, ∃ f : CtxSt,
      let s := (coresOf s0 c).foldl rebase s0

      let x := s.ctx c
      (s0.ctx c).stopping = some f ∧ s0.hub.stalled = false ∧ s.mem.wf = true ∧ x.save % 64 = 0 ∧ x.save + 2291792 * 1024 ≤ memSize ∧ saveBusy s c = false)
    ∧ (∃ s : State, ∃ c : Nat, ∃ v : Saved,
      let x := s.ctx c

      let a := ageGangs s
      x.saved = some v ∧ x.st = .preempted ∧ x.restoring = false ∧ restoreGangs a c ≠ [] ∧ s.hub.stalled = false ∧ readable a x = false)
    ∧ (∃ s : State, ∃ c : Nat, ∃ v : Saved,
      let x := s.ctx c

      let a := ageGangs s
      x.saved = some v ∧ x.st = .preempted ∧ x.restoring = false ∧ restoreGangs a c ≠ [] ∧ s.hub.stalled = false ∧ readable a x = true ∧ residents s < 32 ∧ launchInHand s = false ∧ x.room.any (roomWanted a) = false ∧ restoreHolders a c = [] ∧ loadingOf s c = [] ∧ (v.cores.map (·.1)).Nodup ∧ (v.tiles.map (·.1)).Nodup ∧
      let r := restoreTouch a c v

      let back := fun (q : Nat × CoreRec) => savedCore r c x v q.1 q.2
      ∃ ts cs, v.tiles.mapM (fun q => (restoreTile r c q.1 (savedTile r x v q.1 q.2)).map (fun w => (q.1, w))) = .ok ts ∧ v.cores.mapM (fun q => (restoreCore r c (back q)).map (fun w => (q.1, w))) = .ok cs)
    ∧ (∃ s : State, ∃ c : Nat, ∃ v : Saved,
      let x := s.ctx c

      let a := ageGangs s
      x.saved = some v ∧ x.st = .preempted ∧ x.restoring = false ∧ restoreGangs a c ≠ [] ∧ s.hub.stalled = false ∧ readable a x = true ∧ residents s < 32 ∧ launchInHand s = false ∧ x.room.any (roomWanted a) = false ∧ restoreHolders a c = [] ∧ loadingOf s c = [] ∧ (v.cores.map (·.1)).Nodup ∧ (v.tiles.map (·.1)).Nodup ∧
      let r := restoreTouch a c v
      ∃ m, v.tiles.mapM (fun q => (restoreTile r c q.1 (savedTile r x v q.1 q.2)).map (fun w => (q.1, w))) = .error m ∧ ∃ g b, bitOf (r.ctx c).split.toNat 0 = false ∧ served r c m.fault.reason m.fault.level m.va = some (g, b))
    ∧ (∃ s : State, ∃ c : Nat, ∃ v : Saved,
      let x := s.ctx c

      let a := ageGangs s
      x.saved = some v ∧ x.st = .preempted ∧ x.restoring = false ∧ restoreGangs a c ≠ [] ∧ s.hub.stalled = false ∧ readable a x = true ∧ residents s < 32 ∧ launchInHand s = false ∧ x.room.any (roomWanted a) = false ∧ restoreHolders a c = [] ∧ loadingOf s c = [] ∧ (v.cores.map (·.1)).Nodup ∧ (v.tiles.map (·.1)).Nodup ∧
      let r := restoreTouch a c v
      ∃ m, v.tiles.mapM (fun q => (restoreTile r c q.1 (savedTile r x v q.1 q.2)).map (fun w => (q.1, w))) = .error m ∧ (bitOf (r.ctx c).split.toNat 0 = true ∨ served r c m.fault.reason m.fault.level m.va = none))
    ∧ (∃ s : State, ∃ c k u : Nat, ∃ x : Ctx, ∃ v : Saved, ∃ cr : CoreRec, ∃ tl : Tile, (∀ kind i, changedPart s x v kind i = none) ∧ ∃ z : Nat × Slot, z ∈ tl.slots ∧ z.2.st ≠ .live)
    ∧ (∃ s : State, ∃ c k u : Nat, ∃ x : Ctx, ∃ v : Saved, ∃ cr : CoreRec, ∃ tl : Tile, (∀ kind i, changedPart s x v kind i = none) ∧ ∃ b, sectionAt s x 5 = some b ∧ s.mem.wf = true ∧ ∃ a, a < 4194304)
    ∧ (∃ s : State, ∃ c k u : Nat, ∃ x : Ctx, ∃ v : Saved, ∃ cr : CoreRec, ∃ tl : Tile, (∀ kind i, changedPart s x v kind i = none))
    ∧ (∃ s : State, ∃ c : Nat, ∃ v : Saved,
      let x := s.ctx c
      x.saved = some v ∧ x.restoring = true ∧ s.hub.stalled = false ∧ (∀ k ∈ v.cores, (s.core k.1).shadow.st ≠ .loading) ∧ loadingOf s c = [] ∧ c ∉ s.hub.haltPending)
    ∧ (∃ s : State, ∃ k : Nat, (s.core k).frozen = false ∧ (s.core k).handler = none ∧ (s.core k).issue = none ∧ (s.core k).st ≠ .idle ∧ s.hub.stalled = false ∧ landsLate s k (s.core k).bn = false)
    ∧ (∃ s : State, ∃ c : Nat,
      let x := s.ctx c

      let n := (ckptSlots s c).length
      x.st = .running ∧ x.stopping = none ∧ x.ckptBytes ≠ 0 ∧ x.ckptRun = none ∧ s.hub.stalled = false ∧ (x.ckptNow = true ∨ (x.ckptInterval ≠ 0 ∧ bitOf x.split.toNat 6 = false ∧ x.ckptLast + 1000 * x.ckptInterval ≤ s.ptime)) ∧ ((x.ckptBytes / 2 - 32768) / 32768 < n ∨ 4095 < n))
    ∧ (∃ s : State, ∃ c : Nat,
      let x := s.ctx c

      let n := (ckptSlots s c).length
      x.st = .running ∧ x.stopping = none ∧ x.ckptBytes ≠ 0 ∧ x.ckptRun = none ∧ s.hub.stalled = false ∧ (x.ckptNow = true ∨ (x.ckptInterval ≠ 0 ∧ bitOf x.split.toNat 6 = false ∧ x.ckptLast + 1000 * x.ckptInterval ≤ s.ptime)) ∧ n ≤ (x.ckptBytes / 2 - 32768) / 32768 ∧ n ≤ 4095) := by
  refine ⟨?_, ?_, ?_, ?_, ?_, ?_, ?_, ?_, ?_, ?_, ?_, ?_, ?_, ?_⟩
  · refine ⟨{ resting { st := .running, frozen := true } with ctxs := [(0, { st := .running, root := 524288, stopping := some .preempted })] }, 0, .preempted, ?_⟩
    apply And.intro
    · decide +kernel
    decide +kernel
  · refine ⟨{ resting { st := .running, frozen := true, bn := 1 } with ctxs := [(0, { st := .running, root := 524288, stopping := some .preempted })] }, 0, ?_⟩
    apply And.intro
    · decide +kernel
    apply And.intro
    · decide +kernel
    apply And.intro
    · decide +kernel
    apply And.intro
    · decide +kernel
    apply And.intro
    · decide +kernel
    apply And.intro
    · decide +kernel
    decide +kernel
  · refine ⟨{ resting { st := .running, frozen := true, bn := 1 } with ctxs := [(0, { st := .running, root := 524288, stopping := some .preempted })] }, 0, .preempted, ?_⟩
    apply And.intro
    · decide +kernel
    apply And.intro
    · decide +kernel
    apply And.intro
    · decide +kernel
    apply And.intro
    · decide +kernel
    apply And.intro
    · decide +kernel
    decide +kernel
  · refine ⟨(savedIn { cores := [(3, { st := .running })], tiles := [(12, {})] } [] []), 0, ({ cores := [(3, { st := .running })], tiles := [(12, {})] } : Saved), ?_⟩
    apply And.intro
    · decide +kernel
    apply And.intro
    · decide +kernel
    apply And.intro
    · decide +kernel
    apply And.intro
    · decide +kernel
    apply And.intro
    · decide +kernel
    decide +kernel
  · refine ⟨(savedIn { cores := [(3, { st := .running })], tiles := [(12, {})] } [] saveDir), 0, ({ cores := [(3, { st := .running })], tiles := [(12, {})] } : Saved), ?_⟩
    apply And.intro
    · decide +kernel
    apply And.intro
    · decide +kernel
    apply And.intro
    · decide +kernel
    apply And.intro
    · decide +kernel
    apply And.intro
    · decide +kernel
    apply And.intro
    · decide +kernel
    apply And.intro
    · decide +kernel
    apply And.intro
    · decide +kernel
    apply And.intro
    · decide +kernel
    apply And.intro
    · decide +kernel
    apply And.intro
    · decide +kernel
    apply And.intro
    · decide +kernel
    apply And.intro
    · decide +kernel
    apply Exists.intro
    apply Exists.intro
    apply And.intro
    · apply okEq (d := [])
      decide +kernel
    apply okEq (d := [])
    decide +kernel
  · refine ⟨(savedIn { cores := [(3, { st := .running })], tiles := [(12, { nodes := [(1, { st := .waiting, cmd := some { instr := .rginv 1 1, xlate := [(32768, 65536)] } })] })] } [65536] (saveDir ++ leafTables)), 0, ({ cores := [(3, { st := .running })], tiles := [(12, { nodes := [(1, { st := .waiting, cmd := some { instr := .rginv 1 1, xlate := [(32768, 65536)] } })] })] } : Saved), ?_⟩
    apply And.intro
    · decide +kernel
    apply And.intro
    · decide +kernel
    apply And.intro
    · decide +kernel
    apply And.intro
    · decide +kernel
    apply And.intro
    · decide +kernel
    apply And.intro
    · decide +kernel
    apply And.intro
    · decide +kernel
    apply And.intro
    · decide +kernel
    apply And.intro
    · decide +kernel
    apply And.intro
    · decide +kernel
    apply And.intro
    · decide +kernel
    apply And.intro
    · decide +kernel
    apply And.intro
    · decide +kernel
    refine ⟨(⟨12, 6, 2147483648, 0, ⟨8, 1, 0⟩⟩ : Missing), ?_⟩
    apply And.intro
    · apply errEq
      decide +kernel
    refine ⟨65536, 4194304, ?_⟩
    apply And.intro
    · decide +kernel
    decide +kernel
  · refine ⟨(savedIn { cores := [(3, { st := .running })], tiles := [(12, { nodes := [(1, { st := .waiting, cmd := some { instr := .rginv 1 1, xlate := [(32768, 65536)] } })] })] } [] saveDir), 0, ({ cores := [(3, { st := .running })], tiles := [(12, { nodes := [(1, { st := .waiting, cmd := some { instr := .rginv 1 1, xlate := [(32768, 65536)] } })] })] } : Saved), ?_⟩
    apply And.intro
    · decide +kernel
    apply And.intro
    · decide +kernel
    apply And.intro
    · decide +kernel
    apply And.intro
    · decide +kernel
    apply And.intro
    · decide +kernel
    apply And.intro
    · decide +kernel
    apply And.intro
    · decide +kernel
    apply And.intro
    · decide +kernel
    apply And.intro
    · decide +kernel
    apply And.intro
    · decide +kernel
    apply And.intro
    · decide +kernel
    apply And.intro
    · decide +kernel
    apply And.intro
    · decide +kernel
    refine ⟨(⟨12, 6, 2147483648, 0, ⟨8, 1, 2⟩⟩ : Missing), ?_⟩
    apply And.intro
    · apply errEq
      decide +kernel
    decide +kernel
  · refine ⟨paged, 0, 0, 12, {}, ({ tiles := [(12, {})] } : Saved), {}, ({ slots := [(0, { st := .free })] } : Tile), ?_⟩
    apply And.intro
    · intro _ _
      rfl
    refine ⟨(0, { st := .free }), ?_⟩
    apply And.intro
    · decide +kernel
    decide +kernel
  · refine ⟨(savedIn {} [] saveDir), 0, 0, 12, {}, ({ tiles := [(12, {})] } : Saved), {}, ({ slots := [(0, { st := .free })] } : Tile), ?_⟩
    apply And.intro
    · intro _ _
      rfl
    apply Exists.intro
    apply And.intro
    · apply someEq (d := 0)
      decide +kernel
    apply And.intro
    · decide +kernel
    refine ⟨0, ?_⟩
    decide +kernel
  · refine ⟨paged, 0, 0, 12, {}, ({ tiles := [(12, {})] } : Saved), {}, ({ slots := [(0, { st := .free })] } : Tile), ?_⟩
    intro _ _
    rfl
  · refine ⟨{ paged with ctxs := [(0, { st := .preempted, saved := some { cores := [(3, { st := .running })], tiles := [(12, {})] }, restoring := true })], hub := { gangs := [(0, { mapped := true })] } }, 0, ({ cores := [(3, { st := .running })], tiles := [(12, {})] } : Saved), ?_⟩
    apply And.intro
    · decide +kernel
    apply And.intro
    · decide +kernel
    apply And.intro
    · decide +kernel
    apply And.intro
    · decide +kernel
    apply And.intro
    · decide +kernel
    decide +kernel
  · refine ⟨(resting { st := .running }), 0, ?_⟩
    apply And.intro
    · decide +kernel
    apply And.intro
    · decide +kernel
    apply And.intro
    · decide +kernel
    apply And.intro
    · decide +kernel
    apply And.intro
    · decide +kernel
    decide +kernel
  · refine ⟨{ resting { st := .running } with ctxs := [(0, { st := .running, ckptBytes := 131072, ckptNow := true })], tiles := [(0, { slots := [(0, { st := .live }), (1, { st := .live })] })] }, 0, ?_⟩
    apply And.intro
    · decide +kernel
    apply And.intro
    · decide +kernel
    apply And.intro
    · decide +kernel
    apply And.intro
    · decide +kernel
    apply And.intro
    · decide +kernel
    apply And.intro
    · decide +kernel
    decide +kernel
  · refine ⟨{ resting { st := .running } with ctxs := [(0, { st := .running, ckptBytes := 131072, ckptNow := true })], tiles := [(0, { slots := [(0, { st := .live })] })] }, 0, ?_⟩
    apply And.intro
    · decide +kernel
    apply And.intro
    · decide +kernel
    apply And.intro
    · decide +kernel
    apply And.intro
    · decide +kernel
    apply And.intro
    · decide +kernel
    apply And.intro
    · decide +kernel
    apply And.intro
    · decide +kernel
    decide +kernel

theorem wit_ContextEvents_2 :
    (∃ s : State, ∃ c u z b q w : Nat,
      let x := s.ctx c

      let sl := (s.tile u).getSlot z
      x.ckptRun = some (b, q, w) ∧ x.ckptBusy = [(u, z)] ∧ z < 64 ∧ (s.tile u).mayMove 256 = true ∧ sl.owners = [256] ∧ s.hub.stalled = false)
    ∧ (∃ s : State, ∃ u va kind : Nat, ∃ e : TlbEntry,
      let c := (s.core (u / 4)).cid
      u < 256 ∧ (s.core (u / 4)).st ≠ .idle ∧ s.hub.stalled = false ∧ walkBy s u c va = .ok e ∧ permitted s e kind = none)
    ∧ (∃ s : State, ∃ u va : Nat, s.hub.stalled = false)
    ∧ (∃ s : State, ∃ k slot raised d reason va : Nat, ∃ host : Bool, ∃ more : List (Nat × Nat × Nat),
      let r := s.core k
      r.hold = .page slot raised host ((d, reason, va) :: more) ∧ s.hub.stalled = false ∧ r.haltedFrom = none ∧
      let absent := host = false ∧ reason % 256 = 1 ∧ bitsOf reason 9 8 = 0
      ∃ e, absent ∧ walk s r.cid va = .ok e)
    ∧ (∃ s : State, ∃ k slot raised d reason va : Nat, ∃ host : Bool, ∃ more : List (Nat × Nat × Nat),
      let r := s.core k

      let x := s.ctx r.cid
      r.hold = .page slot raised host ((d, reason, va) :: more) ∧ s.hub.stalled = false ∧ r.haltedFrom = none ∧
      let absent := host = false ∧ reason % 256 = 1 ∧ bitsOf reason 9 8 = 0
      ∃ w f rest a, absent ∧ walk s r.cid va = .error w ∧ x.pool = f :: rest ∧ leafSlot s r.cid va = some a ∧ x.unmapping va = false)
    ∧ (∃ s : State, ∃ k slot raised d reason va : Nat, ∃ host : Bool, ∃ more : List (Nat × Nat × Nat),
      let r := s.core k

      let x := s.ctx r.cid
      r.hold = .page slot raised host ((d, reason, va) :: more) ∧ s.hub.stalled = false ∧ r.haltedFrom = none ∧
      let absent := host = false ∧ reason % 256 = 1 ∧ bitsOf reason 9 8 = 0
      (¬ absent ∨ ((∃ w, walk s r.cid va = .error w) ∧ (x.pool = [] ∨ x.unmapping va = true ∨ leafSlot s r.cid va = none))) ∧ x.st = .running) := by
  refine ⟨?_, ?_, ?_, ?_, ?_, ?_⟩
  · refine ⟨{ resting { st := .running } with tiles := [(0, { slots := [(1, { st := .spilling, before := .live, owners := [256] })] })], ctxs := [(0, { st := .running, ckptBusy := [(0, 1)], ckptRun := some (65536, 1, 0) })] }, 0, 0, 1, 65536, 1, 0, ?_⟩
    apply And.intro
    · decide +kernel
    apply And.intro
    · decide +kernel
    apply And.intro
    · decide +kernel
    apply And.intro
    · decide +kernel
    apply And.intro
    · decide +kernel
    decide +kernel
  · refine ⟨(resting { st := .running }), 0, 64, 0, ?_⟩
    apply Exists.intro
    apply And.intro
    · decide +kernel
    apply And.intro
    · decide +kernel
    apply And.intro
    · decide +kernel
    apply And.intro
    · apply okEq (d := demoTlb)
      decide +kernel
    decide +kernel
  · refine ⟨(resting { st := .running }), 1, 1, ?_⟩
    decide +kernel
  · refine ⟨(resting { st := .stalled, hold := .page 1 0 false [(0, 1, 64)] }), 0, 1, 0, 0, 1, 64, false, [], ?_⟩
    apply And.intro
    · decide +kernel
    apply And.intro
    · decide +kernel
    apply And.intro
    · decide +kernel
    apply Exists.intro
    apply And.intro
    · decide +kernel
    apply okEq (d := demoTlb)
    decide +kernel
  · refine ⟨{ resting { st := .stalled, hold := .page 1 0 false [(0, 1, 2147483648)] } with ctxs := [(0, { st := .running, root := 524288, pool := [65536] })], mem := paged.mem ++ leafTables }, 0, 1, 0, 0, 1, 2147483648, false, [], ?_⟩
    apply And.intro
    · decide +kernel
    apply And.intro
    · decide +kernel
    apply And.intro
    · decide +kernel
    refine ⟨⟨8, 1, 0⟩, 65536, [], 4194304, ?_⟩
    apply And.intro
    · decide +kernel
    apply And.intro
    · decide +kernel
    apply And.intro
    · decide +kernel
    apply And.intro
    · decide +kernel
    decide +kernel
  · refine ⟨(resting { st := .stalled, hold := .page 1 0 false [(0, 1, 2147483648)] }), 0, 1, 0, 0, 1, 2147483648, false, [], ?_⟩
    apply And.intro
    · decide +kernel
    apply And.intro
    · decide +kernel
    apply And.intro
    · decide +kernel
    apply And.intro
    · refine Or.inr ⟨⟨⟨8, 1, 2⟩, ?_⟩, Or.inl rfl⟩
      decide +kernel
    decide +kernel

theorem wit_DebugPort_1 :
    (∃ s : State, ∃ c a v : Nat, ∃ i : Instr, ∃ r : DebugReq, (i, r) ∈ [(Instr.debugHalt, DebugReq.halt), (.debugContinue, .cont), (.debugStep c a, .step c a), (.debugWithdraw c a, .withdraw c a), (.ddataWrite v, .write v), (.ddataRead, .read)] ∧
      let memory := (i = .ddataRead ∨ i = .ddataWrite v) ∧ dSpace s.hub.daddr = 6
      (s.hub.dstate ≠ 2 ∨ s.hub.selfRefresh = true ∨ (s.hub.idle = true ∧ ¬ memory)))
    ∧ (∃ s : State, ∃ c a v : Nat, ∃ i : Instr, ∃ r : DebugReq, (i, r) ∈ [(Instr.debugHalt, DebugReq.halt), (.debugContinue, .cont), (.debugStep c a, .step c a), (.debugWithdraw c a, .withdraw c a), (.ddataWrite v, .write v), (.ddataRead, .read)] ∧ s.hub.dstate = 2 ∧ s.hub.selfRefresh = false ∧ s.hub.idle = false ∧ s.hub.stalled = true)
    ∧ (∃ s : State, s.hub.dstate = 2 ∧ s.hub.selfRefresh = false ∧ s.hub.idle = false ∧ s.hub.stalled = false ∧
      let c := s.hub.dctx
      s.hub.haltCtx = some c)
    ∧ (∃ s : State, s.hub.dstate = 2 ∧ s.hub.selfRefresh = false ∧ s.hub.idle = false ∧ s.hub.stalled = false ∧
      let c := s.hub.dctx
      s.hub.haltCtx ≠ some c ∧ (((s.ctx c).st ≠ .resident ∧ (s.ctx c).st ≠ .running) ∨ (s.ctx c).restoring = true))
    ∧ (∃ s : State, s.hub.dstate = 2 ∧ s.hub.selfRefresh = false ∧ s.hub.idle = false ∧ s.hub.stalled = false ∧
      let c := s.hub.dctx
      s.hub.haltCtx = none ∧ ((s.ctx c).st = .resident ∨ (s.ctx c).st = .running) ∧ (s.ctx c).restoring = false ∧ (s.cores.map (·.1)).Nodup)
    ∧ (∃ s : State, s.hub.dstate = 2 ∧ s.hub.selfRefresh = false ∧ s.hub.idle = false ∧ s.hub.stalled = false ∧
      let c := s.hub.dctx
      s.hub.haltCtx ≠ some c)
    ∧ (∃ s : State, s.hub.dstate = 2 ∧ s.hub.selfRefresh = false ∧ s.hub.idle = false ∧ s.hub.stalled = false ∧
      let c := s.hub.dctx
      s.hub.haltCtx = some c)
    ∧ (∃ s : State, ∃ core all : Nat, s.hub.dstate = 2 ∧ s.hub.selfRefresh = false ∧ s.hub.idle = false ∧ s.hub.stalled = false ∧
      let c := s.hub.dctx
      s.hub.haltCtx ≠ some c)
    ∧ (∃ s : State, ∃ core all : Nat, s.hub.dstate = 2 ∧ s.hub.selfRefresh = false ∧ s.hub.idle = false ∧ s.hub.stalled = false ∧
      let c := s.hub.dctx
      s.hub.haltCtx = some c)
    ∧ (∃ s : State, ∃ core : Nat, s.hub.dstate = 2 ∧ s.hub.selfRefresh = false ∧ s.hub.idle = false ∧ s.hub.stalled = false ∧
      let r := s.core core
      r.cid = s.hub.dctx ∧ r.st ≠ .idle ∧ r.st ≠ .suspended ∧ r.benchFrom = none ∧ (s.cores.map (·.1)).Nodup ∧ r.stepPending = false)
    ∧ (∃ s : State, ∃ core : Nat, s.hub.dstate = 2 ∧ s.hub.selfRefresh = false ∧ s.hub.idle = false ∧ s.hub.stalled = false ∧
      let r := s.core core
      r.cid = s.hub.dctx ∧ r.st ≠ .idle ∧ r.st ≠ .suspended ∧ r.benchFrom = none ∧ (s.cores.map (·.1)).Nodup ∧ r.stepPending = true ∧ r.haltedFrom = none)
    ∧ (∃ s : State, ∃ v : Nat, s.hub.haltCtx = none)
    ∧ (∃ s : State, ∃ v : Nat, ∃ c, s.hub.haltCtx = some c ∧ (bitOf v 63 = true ∨ s.hub.attach = false))
    ∧ (∃ s : State, ∃ v : Nat, ∃ c, s.hub.haltCtx = some c ∧ s.hub.attach = true ∧ s.hub.stalled = true ∧ bitOf v 63 = false) := by
  refine ⟨?_, ?_, ?_, ?_, ?_, ?_, ?_, ?_, ?_, ?_, ?_, ?_, ?_, ?_⟩
  · refine ⟨State.reset, 1, 1, 1, ?_⟩
    apply Exists.intro
    apply Exists.intro
    apply And.intro
    · exact .head _
    decide +kernel
  · refine ⟨{ State.reset with hub := { dstate := 2, stalled := true } }, 1, 1, 1, ?_⟩
    apply Exists.intro
    apply Exists.intro
    apply And.intro
    · exact .head _
    apply And.intro
    · decide +kernel
    apply And.intro
    · decide +kernel
    apply And.intro
    · decide +kernel
    decide +kernel
  · refine ⟨(debugged (some 0) 0), ?_⟩
    apply And.intro
    · decide +kernel
    apply And.intro
    · decide +kernel
    apply And.intro
    · decide +kernel
    apply And.intro
    · decide +kernel
    decide +kernel
  · refine ⟨{ State.reset with hub := { dstate := 2 } }, ?_⟩
    apply And.intro
    · decide +kernel
    apply And.intro
    · decide +kernel
    apply And.intro
    · decide +kernel
    apply And.intro
    · decide +kernel
    apply And.intro
    · decide +kernel
    decide +kernel
  · refine ⟨(debugged none 0), ?_⟩
    apply And.intro
    · decide +kernel
    apply And.intro
    · decide +kernel
    apply And.intro
    · decide +kernel
    apply And.intro
    · decide +kernel
    apply And.intro
    · decide +kernel
    apply And.intro
    · decide +kernel
    apply And.intro
    · decide +kernel
    decide +kernel
  · refine ⟨(debugged none 0), ?_⟩
    apply And.intro
    · decide +kernel
    apply And.intro
    · decide +kernel
    apply And.intro
    · decide +kernel
    apply And.intro
    · decide +kernel
    decide +kernel
  · refine ⟨(debugged (some 0) 0), ?_⟩
    apply And.intro
    · decide +kernel
    apply And.intro
    · decide +kernel
    apply And.intro
    · decide +kernel
    apply And.intro
    · decide +kernel
    decide +kernel
  · refine ⟨(debugged none 0), 1, 1, ?_⟩
    apply And.intro
    · decide +kernel
    apply And.intro
    · decide +kernel
    apply And.intro
    · decide +kernel
    apply And.intro
    · decide +kernel
    decide +kernel
  · refine ⟨(debugged (some 0) 0), 1, 1, ?_⟩
    apply And.intro
    · decide +kernel
    apply And.intro
    · decide +kernel
    apply And.intro
    · decide +kernel
    apply And.intro
    · decide +kernel
    decide +kernel
  · refine ⟨{ debugged none 0 with cores := [(1, { st := .running })] }, 1, ?_⟩
    apply And.intro
    · decide +kernel
    apply And.intro
    · decide +kernel
    apply And.intro
    · decide +kernel
    apply And.intro
    · decide +kernel
    apply And.intro
    · decide +kernel
    apply And.intro
    · decide +kernel
    apply And.intro
    · decide +kernel
    apply And.intro
    · decide +kernel
    apply And.intro
    · decide +kernel
    decide +kernel
  · refine ⟨{ debugged none 0 with cores := [(1, { st := .running, stepPending := true })] }, 1, ?_⟩
    apply And.intro
    · decide +kernel
    apply And.intro
    · decide +kernel
    apply And.intro
    · decide +kernel
    apply And.intro
    · decide +kernel
    apply And.intro
    · decide +kernel
    apply And.intro
    · decide +kernel
    apply And.intro
    · decide +kernel
    apply And.intro
    · decide +kernel
    apply And.intro
    · decide +kernel
    apply And.intro
    · decide +kernel
    decide +kernel
  · refine ⟨(debugged none 0), 1, ?_⟩
    decide +kernel
  · refine ⟨(debugged (some 0) 0), 0x8000000000000000, 0, ?_⟩
    apply And.intro
    · decide +kernel
    decide +kernel
  · refine ⟨(let s := debugged (some 0) 0; { s with hub := { s.hub with attach := true, stalled := true } }), 0, 0, ?_⟩
    apply And.intro
    · decide +kernel
    apply And.intro
    · decide +kernel
    apply And.intro
    · decide +kernel
    decide +kernel

theorem wit_DebugPort_2 :
    (∃ s : State, ∃ v : Nat, ∃ c, s.hub.haltCtx = some c ∧ s.hub.attach = true ∧ s.hub.stalled = false ∧ bitOf v 63 = false)
    ∧ (∃ s : State, ∃ v : Nat,
      let d := v % 4

      let signed := Config.signatureOk 8 s.token (leBytes 64 (Config.sha512 (leBytes 32 Config.deviceKey ++ leBytes 8 s.hub.fqhead ++ leBytes 1 d)))
      (d = 3 ∨ (s.hub.dstate < d ∧ ((d = 2 ∧ s.hub.secure = true) ∨ signed = false))))
    ∧ (∃ s : State, ∃ v : Nat,
      let d := v % 4

      let signed := Config.signatureOk 8 s.token (leBytes 64 (Config.sha512 (leBytes 32 Config.deviceKey ++ leBytes 8 s.hub.fqhead ++ leBytes 1 d)))
      d ≠ 3 ∧ (d ≤ s.hub.dstate ∨ (¬(d = 2 ∧ s.hub.secure = true) ∧ signed = true)) ∧ s.hub.haltCtx = none)
    ∧ (∃ s : State, ∃ v : Nat,
      let d := v % 4
      ∃ c, d < s.hub.dstate ∧ d ≠ 3 ∧ s.hub.haltCtx = some c ∧ s.hub.stalled = true)
    ∧ (∃ s : State, ∃ v : Nat,
      let d := v % 4
      ∃ c, d < s.hub.dstate ∧ d ≠ 3 ∧ s.hub.haltCtx = some c ∧ s.hub.stalled = false)
    ∧ (∃ s : State, ∃ v : Nat, s.hub.dstate = 2 ∧ s.hub.selfRefresh = false ∧ s.hub.idle = false ∧ s.hub.stalled = false ∧
      let a := s.hub.daddr

      let sp := bitsOf a 63 60

      let halted := s.hub.haltCtx = some s.hub.dctx ∧ (∀ p ∈ s.cores, p.2.cid = s.hub.dctx → pendingLeft s p.1 = false ∧ ∀ d, d < 4 → ∀ n ∈ (s.tile (unitOf p.1 d)).nodes, n.2.st ≠ .running) ∧ (s.core (bitsOf a 59 54)).cid = s.hub.dctx
      sp < 6 ∧ (¬ halted))
    ∧ (∃ s : State, ∃ v : Nat, s.hub.dstate = 2 ∧ s.hub.selfRefresh = false ∧ s.hub.idle = false ∧ s.hub.stalled = false ∧
      let a := s.hub.daddr

      let off := bitsOf a 47 0

      let sp := bitsOf a 63 60

      let halted := s.hub.haltCtx = some s.hub.dctx ∧ (∀ p ∈ s.cores, p.2.cid = s.hub.dctx → pendingLeft s p.1 = false ∧ ∀ d, d < 4 → ∀ n ∈ (s.tile (unitOf p.1 d)).nodes, n.2.st ≠ .running) ∧ (s.core (bitsOf a 59 54)).cid = s.hub.dctx
      sp = 3 ∧ halted ∧ off ≤ spadSize - 8)
    ∧ (∃ s : State, ∃ v : Nat, s.hub.dstate = 2 ∧ s.hub.selfRefresh = false ∧ s.hub.idle = false ∧ s.hub.stalled = false ∧
      let a := s.hub.daddr

      let off := bitsOf a 47 0

      let sp := bitsOf a 63 60

      let halted := s.hub.haltCtx = some s.hub.dctx ∧ (∀ p ∈ s.cores, p.2.cid = s.hub.dctx → pendingLeft s p.1 = false ∧ ∀ d, d < 4 → ∀ n ∈ (s.tile (unitOf p.1 d)).nodes, n.2.st ≠ .running) ∧ (s.core (bitsOf a 59 54)).cid = s.hub.dctx
      sp = 3 ∧ halted ∧ spadSize - 8 < off)
    ∧ (∃ s : State, ∃ v : Nat, s.hub.dstate = 2 ∧ s.hub.selfRefresh = false ∧ s.hub.idle = false ∧ s.hub.stalled = false ∧
      let a := s.hub.daddr

      let off := bitsOf a 47 0

      let sp := bitsOf a 63 60

      let halted := s.hub.haltCtx = some s.hub.dctx ∧ (∀ p ∈ s.cores, p.2.cid = s.hub.dctx → pendingLeft s p.1 = false ∧ ∀ d, d < 4 → ∀ n ∈ (s.tile (unitOf p.1 d)).nodes, n.2.st ≠ .running) ∧ (s.core (bitsOf a 59 54)).cid = s.hub.dctx
      sp = 4 ∧ halted ∧ off + 8 ≤ 1572864)
    ∧ (∃ s : State, ∃ v : Nat, s.hub.dstate = 2 ∧ s.hub.selfRefresh = false ∧ s.hub.idle = false ∧ s.hub.stalled = false ∧
      let a := s.hub.daddr

      let off := bitsOf a 47 0

      let sp := bitsOf a 63 60

      let halted := s.hub.haltCtx = some s.hub.dctx ∧ (∀ p ∈ s.cores, p.2.cid = s.hub.dctx → pendingLeft s p.1 = false ∧ ∀ d, d < 4 → ∀ n ∈ (s.tile (unitOf p.1 d)).nodes, n.2.st ≠ .running) ∧ (s.core (bitsOf a 59 54)).cid = s.hub.dctx
      sp = 4 ∧ halted ∧ 1572864 < off + 8)
    ∧ (∃ s : State, ∃ v : Nat, s.hub.dstate = 2 ∧ s.hub.selfRefresh = false ∧ s.hub.idle = false ∧ s.hub.stalled = false ∧
      let a := s.hub.daddr

      let off := bitsOf a 47 0

      let sp := bitsOf a 63 60

      let halted := s.hub.haltCtx = some s.hub.dctx ∧ (∀ p ∈ s.cores, p.2.cid = s.hub.dctx → pendingLeft s p.1 = false ∧ ∀ d, d < 4 → ∀ n ∈ (s.tile (unitOf p.1 d)).nodes, n.2.st ≠ .running) ∧ (s.core (bitsOf a 59 54)).cid = s.hub.dctx
      sp = 5 ∧ halted ∧ off + 8 ≤ 2097152)
    ∧ (∃ s : State, ∃ v : Nat, s.hub.dstate = 2 ∧ s.hub.selfRefresh = false ∧ s.hub.idle = false ∧ s.hub.stalled = false ∧
      let a := s.hub.daddr

      let off := bitsOf a 47 0

      let sp := bitsOf a 63 60

      let halted := s.hub.haltCtx = some s.hub.dctx ∧ (∀ p ∈ s.cores, p.2.cid = s.hub.dctx → pendingLeft s p.1 = false ∧ ∀ d, d < 4 → ∀ n ∈ (s.tile (unitOf p.1 d)).nodes, n.2.st ≠ .running) ∧ (s.core (bitsOf a 59 54)).cid = s.hub.dctx
      sp = 5 ∧ halted ∧ 2097152 < off + 8)
    ∧ (∃ s : State, ∃ v : Nat, s.hub.dstate = 2 ∧ s.hub.selfRefresh = false ∧ s.hub.idle = false ∧ s.hub.stalled = false ∧
      let a := s.hub.daddr

      let sp := bitsOf a 63 60

      let halted := s.hub.haltCtx = some s.hub.dctx ∧ (∀ p ∈ s.cores, p.2.cid = s.hub.dctx → pendingLeft s p.1 = false ∧ ∀ d, d < 4 → ∀ n ∈ (s.tile (unitOf p.1 d)).nodes, n.2.st ≠ .running) ∧ (s.core (bitsOf a 59 54)).cid = s.hub.dctx
      sp = 2 ∧ halted)
    ∧ (∃ s : State, ∃ v : Nat, s.hub.dstate = 2 ∧ s.hub.selfRefresh = false ∧ s.hub.idle = false ∧ s.hub.stalled = false ∧
      let a := s.hub.daddr

      let off := bitsOf a 47 0

      let sp := bitsOf a 63 60
      sp = 6 ∧ ∃ w, s.hubNat s.hub.dctx off 8 = some w) := by
  refine ⟨?_, ?_, ?_, ?_, ?_, ?_, ?_, ?_, ?_, ?_, ?_, ?_, ?_, ?_⟩
  · refine ⟨(let s := debugged (some 0) 0; { s with hub := { s.hub with attach := true } }), 0, 0, ?_⟩
    apply And.intro
    · decide +kernel
    apply And.intro
    · decide +kernel
    apply And.intro
    · decide +kernel
    decide +kernel
  · refine ⟨(debugged none 0), 3, ?_⟩
    decide +kernel
  · refine ⟨(debugged none 0), 1, ?_⟩
    apply And.intro
    · decide +kernel
    apply And.intro
    · decide +kernel
    decide +kernel
  · refine ⟨(let s := debugged (some 0) 0; { s with hub := { s.hub with stalled := true } }), 0, 0, ?_⟩
    apply And.intro
    · decide +kernel
    apply And.intro
    · decide +kernel
    apply And.intro
    · decide +kernel
    decide +kernel
  · refine ⟨(debugged (some 0) 0), 0, 0, ?_⟩
    apply And.intro
    · decide +kernel
    apply And.intro
    · decide +kernel
    apply And.intro
    · decide +kernel
    decide +kernel
  · refine ⟨(debugged none (0 * 2 ^ 60 + 0)), 1, ?_⟩
    apply And.intro
    · decide +kernel
    apply And.intro
    · decide +kernel
    apply And.intro
    · decide +kernel
    apply And.intro
    · decide +kernel
    apply And.intro
    · decide +kernel
    decide +kernel
  · refine ⟨(debugged (some 0) (3 * 2 ^ 60 + 4194296)), 1, ?_⟩
    apply And.intro
    · decide +kernel
    apply And.intro
    · decide +kernel
    apply And.intro
    · decide +kernel
    apply And.intro
    · decide +kernel
    apply And.intro
    · decide +kernel
    apply And.intro
    · decide +kernel
    decide +kernel
  · refine ⟨(debugged (some 0) (3 * 2 ^ 60 + 4194297)), 1, ?_⟩
    apply And.intro
    · decide +kernel
    apply And.intro
    · decide +kernel
    apply And.intro
    · decide +kernel
    apply And.intro
    · decide +kernel
    apply And.intro
    · decide +kernel
    apply And.intro
    · decide +kernel
    decide +kernel
  · refine ⟨(debugged (some 0) (4 * 2 ^ 60 + 1572856)), 1, ?_⟩
    apply And.intro
    · decide +kernel
    apply And.intro
    · decide +kernel
    apply And.intro
    · decide +kernel
    apply And.intro
    · decide +kernel
    apply And.intro
    · decide +kernel
    apply And.intro
    · decide +kernel
    decide +kernel
  · refine ⟨(debugged (some 0) (4 * 2 ^ 60 + 1572857)), 1, ?_⟩
    apply And.intro
    · decide +kernel
    apply And.intro
    · decide +kernel
    apply And.intro
    · decide +kernel
    apply And.intro
    · decide +kernel
    apply And.intro
    · decide +kernel
    apply And.intro
    · decide +kernel
    decide +kernel
  · refine ⟨(debugged (some 0) (5 * 2 ^ 60 + 2097144)), 1, ?_⟩
    apply And.intro
    · decide +kernel
    apply And.intro
    · decide +kernel
    apply And.intro
    · decide +kernel
    apply And.intro
    · decide +kernel
    apply And.intro
    · decide +kernel
    apply And.intro
    · decide +kernel
    decide +kernel
  · refine ⟨(debugged (some 0) (5 * 2 ^ 60 + 2097145)), 1, ?_⟩
    apply And.intro
    · decide +kernel
    apply And.intro
    · decide +kernel
    apply And.intro
    · decide +kernel
    apply And.intro
    · decide +kernel
    apply And.intro
    · decide +kernel
    apply And.intro
    · decide +kernel
    decide +kernel
  · refine ⟨(debugged (some 0) (2 * 2 ^ 60 + 0)), 1, ?_⟩
    apply And.intro
    · decide +kernel
    apply And.intro
    · decide +kernel
    apply And.intro
    · decide +kernel
    apply And.intro
    · decide +kernel
    apply And.intro
    · decide +kernel
    decide +kernel
  · refine ⟨(debugged (some 0) (6 * 2 ^ 60 + 64)), 1, ?_⟩
    apply And.intro
    · decide +kernel
    apply And.intro
    · decide +kernel
    apply And.intro
    · decide +kernel
    apply And.intro
    · decide +kernel
    apply And.intro
    · decide +kernel
    apply Exists.intro
    apply someEq (d := (default))
    decide +kernel

theorem wit_DebugPort_3 :
    (∃ s : State, ∃ v : Nat, s.hub.dstate = 2 ∧ s.hub.selfRefresh = false ∧ s.hub.idle = false ∧ s.hub.stalled = false ∧
      let a := s.hub.daddr

      let off := bitsOf a 47 0

      let sp := bitsOf a 63 60
      sp = 6 ∧ s.hubNat s.hub.dctx off 8 = none)
    ∧ (∃ s : State, ∃ v : Nat, s.hub.dstate = 2 ∧ s.hub.selfRefresh = false ∧ s.hub.idle = false ∧ s.hub.stalled = false ∧
      let a := s.hub.daddr

      let off := bitsOf a 47 0

      let sp := bitsOf a 63 60
      sp = 6 ∧ (∀ i, i < 8 → ∃ r, translate s 256 s.hub.dctx (off + i) 1 = .ok r))
    ∧ (∃ s : State, ∃ v : Nat, s.hub.dstate = 2 ∧ s.hub.selfRefresh = false ∧ s.hub.idle = false ∧ s.hub.stalled = false ∧
      let a := s.hub.daddr

      let off := bitsOf a 47 0

      let sp := bitsOf a 63 60
      sp = 6 ∧ ∃ i e, i < 8 ∧ translate s 256 s.hub.dctx (off + i) 1 = .error e)
    ∧ (∃ s : State, ∃ v : Nat, s.hub.dstate = 2 ∧ s.hub.selfRefresh = false ∧ s.hub.idle = false ∧ s.hub.stalled = false ∧
      let a := s.hub.daddr

      let sp := bitsOf a 63 60
      6 < sp)
    ∧ (∃ (s : State) (r : DebugReq) (rest : List DebugReq), s.hub.debugWaits = r :: rest) := by
  refine ⟨?_, ?_, ?_, ?_, ?_⟩
  · refine ⟨(debugged (some 0) (6 * 2 ^ 60 + 2147483648)), 1, ?_⟩
    apply And.intro
    · decide +kernel
    apply And.intro
    · decide +kernel
    apply And.intro
    · decide +kernel
    apply And.intro
    · decide +kernel
    apply And.intro
    · decide +kernel
    decide +kernel
  · refine ⟨(debugged (some 0) (6 * 2 ^ 60 + 64)), 1, ?_⟩
    apply And.intro
    · decide +kernel
    apply And.intro
    · decide +kernel
    apply And.intro
    · decide +kernel
    apply And.intro
    · decide +kernel
    apply And.intro
    · decide +kernel
    intro i hi
    interval_cases i <;> exact ⟨_, okEq (d := (0, demoTlb)) (by decide +kernel)⟩
  · refine ⟨(debugged (some 0) (6 * 2 ^ 60 + 2147483648)), 1, ?_⟩
    apply And.intro
    · decide +kernel
    apply And.intro
    · decide +kernel
    apply And.intro
    · decide +kernel
    apply And.intro
    · decide +kernel
    apply And.intro
    · decide +kernel
    refine ⟨0, ⟨8, 1, 2⟩, ?_⟩
    apply And.intro
    · decide +kernel
    decide +kernel
  · refine ⟨(debugged (some 0) (7 * 2 ^ 60 + 0)), 1, ?_⟩
    apply And.intro
    · decide +kernel
    apply And.intro
    · decide +kernel
    apply And.intro
    · decide +kernel
    apply And.intro
    · decide +kernel
    decide +kernel
  · exact ⟨{ State.reset with hub := { debugWaits := [.halt] } }, .halt, [], rfl⟩

theorem wit_Platform_1 :
    (∃ s : State, ∃ v : Nat, 5 ≤ v)
    ∧ (∃ s : State, ∃ v : Nat,
      let last := s.hub.stalls.foldl (fun f r => match r with | .freq g => g | .cols _ => f) s.hub.freqnow
      v ≤ 4 ∧ v = s.hub.freqnow ∧ v = last)
    ∧ (∃ s : State, ∃ v : Nat,
      let last := s.hub.stalls.foldl (fun f r => match r with | .freq g => g | .cols _ => f) s.hub.freqnow
      v ≤ 4 ∧ (v ≠ s.hub.freqnow ∨ v ≠ last))
    ∧ (∃ s : State, ∃ v : Nat,
      let last := s.hub.stalls.foldl (fun f r => match r with | .freq g => g | .cols _ => f) s.hub.freqnow
      last < 4)
    ∧ (∃ s : State, ∃ v : Nat,
      let last := s.hub.stalls.foldl (fun f r => match r with | .freq g => g | .cols _ => f) s.hub.freqnow
      4 ≤ last)
    ∧ (∃ s : State, ∃ v : Nat,
      let last := s.hub.stalls.foldl (fun f r => match r with | .freq g => g | .cols _ => f) s.hub.freqnow
      s.hub.gov = true ∧ s.hub.freq < last)
    ∧ (∃ s : State, ∃ f : Nat, ∃ rest : List StallReq, s.hub.stalls = .freq f :: rest ∧ s.hub.stalled = false ∧ s.hub.idle = false)
    ∧ (∃ s : State, ∃ f : Nat, ∃ rest : List StallReq, s.hub.stalls = .freq f :: rest ∧ s.hub.stalled = true)
    ∧ (∃ s : State, ∃ m : Nat, ∃ rest : List StallReq, s.hub.stalls = .cols m :: rest ∧ s.hub.idle = false ∧ s.hub.stalled = false)
    ∧ (∃ s : State, ∃ m : Nat, ∃ rest : List StallReq, s.hub.stalls = .cols m :: rest ∧ s.hub.idle = false ∧ s.hub.stalled = true)
    ∧ (∃ s : State, (∀ p ∈ s.cores, p.2.hold = .none) ∧ s.hub.heldReplies = [] ∧ s.hub.carriesIn = [] ∧ s.hub.debugWaits = [])
    ∧ (∃ s : State, (∀ p ∈ s.cores, p.2.hold = .none) ∧ s.hub.heldReplies = [] ∧ s.hub.carriesIn = [] ∧ s.hub.debugWaits = [])
    ∧ (∃ s : State, ∃ v : Nat,
      let m := v % 256
      m = 0)
    ∧ (∃ s : State, ∃ v : Nat,
      let last := s.hub.stalls.foldl (fun m r => match r with | .cols n => n | .freq _ => m) s.hub.colmask

      let m := v % 256

      let hw := bitOf (s.ctx 0).split.toNat 4 = false
      m ≠ 0 ∧ (hw → m ≠ last) ∧ (¬ hw → m ≠ s.hub.coltgt)) := by
  refine ⟨?_, ?_, ?_, ?_, ?_, ?_, ?_, ?_, ?_, ?_, ?_, ?_, ?_, ?_⟩
  · refine ⟨paged, 5, ?_⟩
    decide +kernel
  · refine ⟨paged, 0, ?_⟩
    apply And.intro
    · decide +kernel
    apply And.intro
    · decide +kernel
    decide +kernel
  · refine ⟨paged, 1, ?_⟩
    apply And.intro
    · decide +kernel
    decide +kernel
  · refine ⟨paged, 1, ?_⟩
    decide +kernel
  · refine ⟨{ paged with hub := { freqnow := 4 } }, 1, ?_⟩
    decide +kernel
  · refine ⟨{ paged with hub := { gov := true, freqnow := 2 } }, 1, ?_⟩
    apply And.intro
    · decide +kernel
    decide +kernel
  · refine ⟨{ paged with hub := { stalls := [.freq 1] } }, 1, [], ?_⟩
    apply And.intro
    · decide +kernel
    apply And.intro
    · decide +kernel
    decide +kernel
  · refine ⟨{ paged with hub := { stalls := [.freq 1], stalled := true } }, 1, [], ?_⟩
    apply And.intro
    · decide +kernel
    decide +kernel
  · refine ⟨{ paged with hub := { stalls := [.cols 1] } }, 1, [], ?_⟩
    apply And.intro
    · decide +kernel
    apply And.intro
    · decide +kernel
    decide +kernel
  · refine ⟨{ paged with hub := { stalls := [.cols 1], stalled := true } }, 1, [], ?_⟩
    apply And.intro
    · decide +kernel
    apply And.intro
    · decide +kernel
    decide +kernel
  · refine ⟨paged, ?_⟩
    apply And.intro
    · decide +kernel
    apply And.intro
    · decide +kernel
    apply And.intro
    · decide +kernel
    decide +kernel
  · refine ⟨paged, ?_⟩
    apply And.intro
    · decide +kernel
    apply And.intro
    · decide +kernel
    apply And.intro
    · decide +kernel
    decide +kernel
  · refine ⟨paged, 256, ?_⟩
    decide +kernel
  · refine ⟨paged, 3, ?_⟩
    apply And.intro
    · decide +kernel
    apply And.intro
    · decide +kernel
    decide +kernel

theorem wit_Platform_2 :
    (∃ s : State, ∃ v : Nat,
      let last := s.hub.stalls.foldl (fun m r => match r with | .cols n => n | .freq _ => m) s.hub.colmask

      let m := v % 256

      let hw := bitOf (s.ctx 0).split.toNat 4 = false
      m ≠ 0 ∧ (hw → m = last) ∧ (¬ hw → m = s.hub.coltgt))
    ∧ (∃ s : State, ∃ v : Nat,
      let last := s.hub.stalls.foldl (fun m r => match r with | .cols n => n | .freq _ => m) s.hub.colmask

      let m := v % 256

      let hw := bitOf (s.ctx 0).split.toNat 4 = false

      let new := Nat.xor last (Nat.land last m)
      hw ∧ new ≠ 0 ∧ new ≠ last)
    ∧ (∃ s : State, ∃ v : Nat,
      let last := s.hub.stalls.foldl (fun m r => match r with | .cols n => n | .freq _ => m) s.hub.colmask

      let hw := bitOf (s.ctx 0).split.toNat 4 = false
      hw ∧ bitOf last (hashCol v) = false ∧ bitOf s.hub.coltgt (hashCol v) = true)
    ∧ (∃ s : State, ∃ v : Nat,
      let hw := bitOf (s.ctx 0).split.toNat 4 = false
      (¬ hw))
    ∧ (∃ s : State, s.hub.idleReq = true ∧ s.hub.idle = false ∧ s.hub.stalled = false ∧ (∀ x ∈ s.ctxs, x.2.st ≠ .running))
    ∧ (∃ s : State, s.hub.idle = true ∧ s.hub.srReq = true)
    ∧ (∃ s : State, s.hub.idle = true ∧ (s.hub.wake = true ∨ s.hub.idleReq = false))
    ∧ (∃ s : State, (s.hub.fqbase = 0 ∨ s.hub.fwPhase ≠ 0))
    ∧ (∃ s : State, s.hub.fqbase ≠ 0 ∧ s.hub.fwPhase = 0)
    ∧ (∃ s : State, s.hub.fwPhase = 2)
    ∧ (∃ s : State, s.hub.fwPhase ≠ 2)
    ∧ (∃ s : State, (s.hub.fwPhase = 1 ∨ s.hub.fwPhase = 2))
    ∧ (∃ s : State, (¬(s.hub.fwPhase = 1 ∨ s.hub.fwPhase = 2)))
    ∧ (∃ s : State, ∃ i : FwImage, s.hub.pendImage = some i ∧
      let m := i.manifest

      let signed := field m 9 1 < 8 ∧ Config.signatureOk (field m 9 1) ((m.drop 128).take 64) (leBytes 64 (Config.sha512 (m.take 128))) = true
      s.hub.fwPhase = 1 ∧ (¬ signed)) := by
  refine ⟨?_, ?_, ?_, ?_, ?_, ?_, ?_, ?_, ?_, ?_, ?_, ?_, ?_, ?_⟩
  · refine ⟨paged, 255, ?_⟩
    apply And.intro
    · decide +kernel
    apply And.intro
    · decide +kernel
    decide +kernel
  · refine ⟨paged, 1, ?_⟩
    apply And.intro
    · decide +kernel
    apply And.intro
    · decide +kernel
    decide +kernel
  · refine ⟨{ paged with hub := { colmask := 0, coltgt := 255 } }, 64, ?_⟩
    apply And.intro
    · decide +kernel
    apply And.intro
    · decide +kernel
    decide +kernel
  · refine ⟨{ paged with ctxs := [(0, { split := 16 })] }, 1, ?_⟩
    decide +kernel
  · refine ⟨{ State.reset with ctxs := [(0, { st := .resident })], hub := { idleReq := true } }, ?_⟩
    apply And.intro
    · decide +kernel
    apply And.intro
    · decide +kernel
    apply And.intro
    · decide +kernel
    decide +kernel
  · refine ⟨{ paged with hub := { idle := true, srReq := true } }, ?_⟩
    apply And.intro
    · decide +kernel
    decide +kernel
  · refine ⟨{ paged with hub := { idle := true, wake := true } }, ?_⟩
    apply And.intro
    · decide +kernel
    decide +kernel
  · refine ⟨paged, ?_⟩
    decide +kernel
  · refine ⟨{ paged with hub := { fqbase := 65536 } }, ?_⟩
    apply And.intro
    · decide +kernel
    decide +kernel
  · refine ⟨{ paged with hub := { fwPhase := 2 } }, ?_⟩
    decide +kernel
  · refine ⟨paged, ?_⟩
    decide +kernel
  · refine ⟨{ paged with hub := { fwPhase := 1 } }, ?_⟩
    decide +kernel
  · refine ⟨paged, ?_⟩
    decide +kernel
  · refine ⟨{ paged with ctxs := [(0, { st := .preempted })], hub := { fwPhase := 1, pendImage := some ({ manifest := [0, 0, 0, 0, 0, 0, 0, 0, 0, 9], base := 0, body := [], size := 0, layouts := 0, version := 1 } : FwImage) } }, ({ manifest := [0, 0, 0, 0, 0, 0, 0, 0, 0, 9], base := 0, body := [], size := 0, layouts := 0, version := 1 } : FwImage), ?_⟩
    apply And.intro
    · rfl
    apply And.intro
    · decide +kernel
    decide +kernel

theorem wit_Platform_3 :
    (∃ s : State, ∃ i : FwImage, s.hub.pendImage = some i ∧
      let kept := ∀ x ∈ s.ctxs, ∀ v, x.2.saved = some v → bitOf i.layouts v.layout = true
      s.hub.fwPhase = 3 ∧ s.hub.interp = none ∧ kept)
    ∧ (∃ s : State, ∃ i : FwImage, s.hub.pendImage = some i ∧
      let kept := ∀ x ∈ s.ctxs, ∀ v, x.2.saved = some v → bitOf i.layouts v.layout = true
      s.hub.fwPhase = 3 ∧ s.hub.interp = none ∧ (¬ kept))
    ∧ (∃ s : State, ∃ i : FwImage, s.hub.pendImage = some i ∧ s.hub.interp.isSome = true)
    ∧ (∃ s : State, ∃ v : Nat, (s.hub.fqbase = 0 ∨ s.hostPath = false))
    ∧ (∃ s : State, ∃ v : Nat, s.hub.fqbase ≠ 0 ∧ s.hostPath = true)
    ∧ (∃ s : State, ∃ off v : Nat, v < 2 ^ 64 ∧ s.hostPath = true ∧ off % 8 ≠ 0)
    ∧ (∃ s : State, ∃ off v : Nat, v < 2 ^ 64 ∧ s.hostPath = true ∧ off ∈ [0x00, 0x08, 0x28, 0x48, 0x130, 0x138, 0x310])
    ∧ (∃ s : State, ∃ off v : Nat, v < 2 ^ 64 ∧ s.hostPath = true ∧ off = 0x10 ∧ v < 4096)
    ∧ (∃ s : State, ∃ off v : Nat, v < 2 ^ 64 ∧ s.hostPath = true ∧ off = 0x10 ∧ 4096 ≤ v)
    ∧ (∃ s : State, ∃ off v : Nat, v < 2 ^ 64 ∧ s.hostPath = true ∧ off = 0x30)
    ∧ (∃ s : State, ∃ off v : Nat, v < 2 ^ 64 ∧ s.hostPath = true ∧ off = 0xD8)
    ∧ (∃ s : State, ∃ off v : Nat, v < 2 ^ 64 ∧ s.hostPath = true ∧ off = 0x300)
    ∧ (∃ s : State, ∃ off v : Nat, v < 2 ^ 64 ∧ s.hostPath = true ∧ off = 0x330)
    ∧ (∃ s : State, ∃ off v : Nat, v < 2 ^ 64 ∧ s.hostPath = true ∧ off = 0x38 ∧ v % 4 = 1) := by
  refine ⟨?_, ?_, ?_, ?_, ?_, ?_, ?_, ?_, ?_, ?_, ?_, ?_, ?_, ?_⟩
  · refine ⟨{ paged with ctxs := [(0, { st := .preempted, saved := some { layout := 1 } })], hub := { fwPhase := 3, pendImage := some ({ manifest := [0, 0, 0, 0, 0, 0, 2, 0, 0, 9], base := 0, body := [], size := 0, layouts := 2, version := 1 } : FwImage) } }, ({ manifest := [0, 0, 0, 0, 0, 0, 2, 0, 0, 9], base := 0, body := [], size := 0, layouts := 2, version := 1 } : FwImage), ?_⟩
    apply And.intro
    · rfl
    apply And.intro
    · decide +kernel
    apply And.intro
    · decide +kernel
    decide +kernel
  · refine ⟨{ paged with ctxs := [(0, { st := .preempted, saved := some { layout := 1 } })], hub := { fwPhase := 3, pendImage := some ({ manifest := [0, 0, 0, 0, 0, 0, 0, 0, 0, 9], base := 0, body := [], size := 0, layouts := 0, version := 1 } : FwImage) } }, ({ manifest := [0, 0, 0, 0, 0, 0, 0, 0, 0, 9], base := 0, body := [], size := 0, layouts := 0, version := 1 } : FwImage), ?_⟩
    apply And.intro
    · rfl
    apply And.intro
    · decide +kernel
    apply And.intro
    · decide +kernel
    decide +kernel
  · refine ⟨{ paged with hub := { pendImage := some ({ manifest := [0, 0, 0, 0, 0, 0, 0, 0, 0, 9], base := 0, body := [], size := 0, layouts := 0, version := 1 } : FwImage), interp := some {} } }, ({ manifest := [0, 0, 0, 0, 0, 0, 0, 0, 0, 9], base := 0, body := [], size := 0, layouts := 0, version := 1 } : FwImage), ?_⟩
    apply And.intro
    · rfl
    decide +kernel
  · refine ⟨paged, 1, ?_⟩
    decide +kernel
  · refine ⟨{ paged with hub := { fqbase := 65536 } }, 1, ?_⟩
    apply And.intro
    · decide +kernel
    decide +kernel
  · refine ⟨paged, 9, 1, ?_⟩
    apply And.intro
    · decide +kernel
    apply And.intro
    · decide +kernel
    decide +kernel
  · refine ⟨paged, 0x310, 1, ?_⟩
    apply And.intro
    · decide +kernel
    apply And.intro
    · decide +kernel
    decide +kernel
  · refine ⟨paged, 0x10, 4095, ?_⟩
    apply And.intro
    · decide +kernel
    apply And.intro
    · decide +kernel
    apply And.intro
    · decide +kernel
    decide +kernel
  · refine ⟨paged, 0x10, 4096, ?_⟩
    apply And.intro
    · decide +kernel
    apply And.intro
    · decide +kernel
    apply And.intro
    · decide +kernel
    decide +kernel
  · refine ⟨paged, 0x30, 512, ?_⟩
    apply And.intro
    · decide +kernel
    apply And.intro
    · decide +kernel
    decide +kernel
  · refine ⟨paged, 0xD8, 7, ?_⟩
    apply And.intro
    · decide +kernel
    apply And.intro
    · decide +kernel
    decide +kernel
  · refine ⟨paged, 0x300, 1, ?_⟩
    apply And.intro
    · decide +kernel
    apply And.intro
    · decide +kernel
    decide +kernel
  · refine ⟨paged, 0x330, 1, ?_⟩
    apply And.intro
    · decide +kernel
    apply And.intro
    · decide +kernel
    decide +kernel
  · refine ⟨paged, 0x38, 1, ?_⟩
    apply And.intro
    · decide +kernel
    apply And.intro
    · decide +kernel
    apply And.intro
    · decide +kernel
    decide +kernel

theorem wit_Platform_4 :
    (∃ s : State, ∃ off v : Nat, v < 2 ^ 64 ∧ s.hostPath = true ∧ off = 0x38 ∧ v % 4 = 2)
    ∧ (∃ s : State, ∃ off v : Nat, v < 2 ^ 64 ∧ s.hostPath = true ∧ off = 0x38 ∧ v % 4 = 3)
    ∧ (∃ s : State, ∃ off v : Nat, v < 2 ^ 64 ∧ s.hostPath = true ∧ off = 0x38 ∧ v % 4 = 0)
    ∧ (∃ s : State, ∃ off v : Nat, v < 2 ^ 64 ∧ s.hostPath = true ∧ off = 0x308 ∧ v % 16 = 1)
    ∧ (∃ s : State, ∃ off v : Nat, v < 2 ^ 64 ∧ s.hostPath = true ∧ off = 0x308 ∧ v % 16 = 2)
    ∧ (∃ s : State, ∃ off v : Nat, v < 2 ^ 64 ∧ s.hostPath = true ∧ off = 0x308 ∧ v % 16 = 3)
    ∧ (∃ s : State, ∃ off v : Nat, v < 2 ^ 64 ∧ s.hostPath = true ∧ off = 0x308 ∧ v % 16 = 4)
    ∧ (∃ s : State, ∃ off v : Nat, v < 2 ^ 64 ∧ s.hostPath = true ∧ off = 0x18 ∧ 100 ≤ v ∧ v ≤ 100000)
    ∧ (∃ s : State, ∃ off v : Nat, v < 2 ^ 64 ∧ s.hostPath = true ∧ off = 0x18 ∧ (v < 100 ∨ 100000 < v))
    ∧ (∃ s : State, ∃ off v : Nat, v < 2 ^ 64 ∧ s.hostPath = true ∧ off = 0x40)
    ∧ (∃ s : State, ∃ off v : Nat, v < 2 ^ 64 ∧ s.hostPath = true ∧ off = 0x100)
    ∧ (∃ s : State, ∃ off v : Nat, v < 2 ^ 64 ∧ s.hostPath = true ∧ off = 0x110 ∧ 1000 ≤ v ∧ v ≤ 1000000)
    ∧ (∃ s : State, ∃ off v : Nat, v < 2 ^ 64 ∧ s.hostPath = true ∧ off = 0x110 ∧ (v < 1000 ∨ 1000000 < v))
    ∧ (∃ s : State, ∃ off v : Nat, v < 2 ^ 64 ∧ s.hostPath = true ∧ off = 0x20 ∧ v / 65536 % 256 = 0 ∧ v % 8 ≤ 4 ∧ v % 8 = s.hub.freqnow ∧ s.hub.stalls = []) := by
  refine ⟨?_, ?_, ?_, ?_, ?_, ?_, ?_, ?_, ?_, ?_, ?_, ?_, ?_, ?_⟩
  · refine ⟨paged, 0x38, 2, ?_⟩
    apply And.intro
    · decide +kernel
    apply And.intro
    · decide +kernel
    apply And.intro
    · decide +kernel
    decide +kernel
  · refine ⟨paged, 0x38, 7, ?_⟩
    apply And.intro
    · decide +kernel
    apply And.intro
    · decide +kernel
    apply And.intro
    · decide +kernel
    decide +kernel
  · refine ⟨paged, 0x38, 4, ?_⟩
    apply And.intro
    · decide +kernel
    apply And.intro
    · decide +kernel
    apply And.intro
    · decide +kernel
    decide +kernel
  · refine ⟨paged, 0x308, 1, ?_⟩
    apply And.intro
    · decide +kernel
    apply And.intro
    · decide +kernel
    apply And.intro
    · decide +kernel
    decide +kernel
  · refine ⟨paged, 0x308, 2, ?_⟩
    apply And.intro
    · decide +kernel
    apply And.intro
    · decide +kernel
    apply And.intro
    · decide +kernel
    decide +kernel
  · refine ⟨paged, 0x308, 3, ?_⟩
    apply And.intro
    · decide +kernel
    apply And.intro
    · decide +kernel
    apply And.intro
    · decide +kernel
    decide +kernel
  · refine ⟨paged, 0x308, 20, ?_⟩
    apply And.intro
    · decide +kernel
    apply And.intro
    · decide +kernel
    apply And.intro
    · decide +kernel
    decide +kernel
  · refine ⟨paged, 0x18, 100000, ?_⟩
    apply And.intro
    · decide +kernel
    apply And.intro
    · decide +kernel
    apply And.intro
    · decide +kernel
    apply And.intro
    · decide +kernel
    decide +kernel
  · refine ⟨paged, 0x18, 99, ?_⟩
    apply And.intro
    · decide +kernel
    apply And.intro
    · decide +kernel
    apply And.intro
    · decide +kernel
    decide +kernel
  · refine ⟨paged, 0x40, 4097, ?_⟩
    apply And.intro
    · decide +kernel
    apply And.intro
    · decide +kernel
    decide +kernel
  · refine ⟨paged, 0x100, 8192, ?_⟩
    apply And.intro
    · decide +kernel
    apply And.intro
    · decide +kernel
    decide +kernel
  · refine ⟨paged, 0x110, 1000, ?_⟩
    apply And.intro
    · decide +kernel
    apply And.intro
    · decide +kernel
    apply And.intro
    · decide +kernel
    apply And.intro
    · decide +kernel
    decide +kernel
  · refine ⟨paged, 0x110, 1000001, ?_⟩
    apply And.intro
    · decide +kernel
    apply And.intro
    · decide +kernel
    apply And.intro
    · decide +kernel
    decide +kernel
  · refine ⟨paged, 0x20, 192, ?_⟩
    apply And.intro
    · decide +kernel
    apply And.intro
    · decide +kernel
    apply And.intro
    · decide +kernel
    apply And.intro
    · decide +kernel
    apply And.intro
    · decide +kernel
    apply And.intro
    · decide +kernel
    decide +kernel

theorem wit_Platform_5 :
    (∃ s : State, ∃ off v : Nat, v < 2 ^ 64 ∧ s.hostPath = true ∧ off = 0x150)
    ∧ (∃ s : State, ∃ off v : Nat, v < 2 ^ 64 ∧ s.hostPath = true ∧ off = 0x120)
    ∧ (∃ s : State, ∃ off v : Nat, v < 2 ^ 64 ∧ s.hostPath = true ∧ ∃ p, p < 16 ∧ off = 0x180 + 8 * p)
    ∧ (∃ s : State, ∃ off v : Nat, v < 2 ^ 64 ∧ s.hostPath = false ∧ off ≠ 0x118)
    ∧ (∃ s : State, ∃ off v : Nat, v < 2 ^ 64) := by
  refine ⟨?_, ?_, ?_, ?_, ?_⟩
  · refine ⟨paged, 0x150, 17, ?_⟩
    apply And.intro
    · decide +kernel
    apply And.intro
    · decide +kernel
    decide +kernel
  · refine ⟨paged, 0x120, 8193, ?_⟩
    apply And.intro
    · decide +kernel
    apply And.intro
    · decide +kernel
    decide +kernel
  · refine ⟨paged, 0x1F8, 1, ?_⟩
    apply And.intro
    · decide +kernel
    apply And.intro
    · decide +kernel
    refine ⟨15, ?_⟩
    apply And.intro
    · decide +kernel
    decide +kernel
  · refine ⟨{ paged with hub := { bridge := 0 } }, 1, 1, ?_⟩
    apply And.intro
    · decide +kernel
    apply And.intro
    · decide +kernel
    decide +kernel
  · refine ⟨paged, 1, 1, ?_⟩
    decide +kernel

theorem wit_StepRunsInstruction_1 :
    (∃ s0 s : State, ((s0.sched = [] ∧ s = s0) ∨ ∃ a rest, s0.sched = .act a :: rest ∧ s = { s0 with sched := rest, turn := a }) ∧ ∃ k : Nat, ∃ i : Issue, s.turn = .core k ∧ canIssue s (s.core k) = true ∧ coreAsleep s k = false ∧ (s.core k).handler = none ∧ (s.core k).issue = some i ∧ i.brtDone = true ∧ ∃ sl tag op, sl < 7 ∧ i.slot ≤ sl ∧ decodeSlot sl (nth 0 i.words sl) = .op tag op ∧ i.dies sl ≠ [] ∧ (sl = 5 → metPairs s k i op = []) ∧ (∀ j, i.slot ≤ j → j < sl → (∀ g o, decodeSlot j (nth 0 i.words j) ≠ .op g o) ∨ i.dies j = []))
    ∧ (∃ s0 s : State, ((s0.sched = [] ∧ s = s0) ∨ ∃ a rest, s0.sched = .act a :: rest ∧ s = { s0 with sched := rest, turn := a }) ∧ ∃ k : Nat, ∃ i : Issue, s.turn = .core k ∧ canIssue s (s.core k) = true ∧ coreAsleep s k = false ∧ (s.core k).handler = none ∧ (s.core k).issue = some i ∧ i.brtDone = true ∧ (∀ j, i.slot ≤ j → j < 7 → (∀ g o, decodeSlot j (nth 0 i.words j) ≠ .op g o) ∨ i.dies j = []))
    ∧ (∃ s0 s : State, ((s0.sched = [] ∧ s = s0) ∨ ∃ a rest, s0.sched = .act a :: rest ∧ s = { s0 with sched := rest, turn := a }) ∧ ∃ k : Nat, ∃ i : Issue, s.turn = .core k ∧ canIssue s (s.core k) = true ∧ coreAsleep s k = false ∧ (s.core k).handler = none ∧ (s.core k).issue = some i ∧ i.brtDone = false ∧ ∃ tag op, decodeSlot 7 (nth 0 i.words 7) = .op tag op)
    ∧ (∃ s0 s : State, ((s0.sched = [] ∧ s = s0) ∨ ∃ a rest, s0.sched = .act a :: rest ∧ s = { s0 with sched := rest, turn := a }) ∧ ∃ k : Nat, s.turn = .core k ∧ canIssue s (s.core k) = true ∧ coreAsleep s k = false ∧ (s.core k).handler = none ∧ (s.core k).issue = none)
    ∧ (∃ s0 s : State, ((s0.sched = [] ∧ s = s0) ∨ ∃ a rest, s0.sched = .act a :: rest ∧ s = { s0 with sched := rest, turn := a }) ∧ ∃ k a : Nat, s.turn = .core k ∧ canIssue s (s.core k) = true ∧ coreAsleep s k = false ∧ (s.core k).handler = some a ∧ a < (s.core k).store.2 ∧
      let w := sget 0 (s.core k).store.1 a
      ∃ tag op, decodeSingle false w = .op tag op)
    ∧ (∃ s0 s : State, ((s0.sched = [] ∧ s = s0) ∨ ∃ a rest, s0.sched = .act a :: rest ∧ s = { s0 with sched := rest, turn := a }) ∧ ∃ k a : Nat, s.turn = .core k ∧ canIssue s (s.core k) = true ∧ coreAsleep s k = false ∧ (s.core k).handler = some a ∧ a < (s.core k).store.2 ∧
      let w := sget 0 (s.core k).store.1 a
      w = 0)
    ∧ (∃ s0 s : State, ((s0.sched = [] ∧ s = s0) ∨ ∃ a rest, s0.sched = .act a :: rest ∧ s = { s0 with sched := rest, turn := a }) ∧ ∃ k a : Nat, s.turn = .core k ∧ canIssue s (s.core k) = true ∧ coreAsleep s k = false ∧ (s.core k).handler = some a ∧ a < (s.core k).store.2 ∧
      let w := sget 0 (s.core k).store.1 a
      ∃ e, decodeSingle false w = .bad e)
    ∧ (∃ s0 s : State, ((s0.sched = [] ∧ s = s0) ∨ ∃ a rest, s0.sched = .act a :: rest ∧ s = { s0 with sched := rest, turn := a }) ∧ ∃ c : Nat, s.turn = .colt c ∧ (s.colt c).running = true ∧ asleep s (coltUnit c) = false ∧ s.hub.stalled = false ∧ s.hub.fenced = false ∧ (s.colt c).pc < 1024 ∧ (s.colt c).pc < s.hub.routine.length ∧
      let w := nth 0 s.hub.routine (s.colt c).pc
      ∃ tag op, decodeSingle true w = .op tag op)
    ∧ (∃ s0 s : State, ((s0.sched = [] ∧ s = s0) ∨ ∃ a rest, s0.sched = .act a :: rest ∧ s = { s0 with sched := rest, turn := a }) ∧ ∃ c : Nat, s.turn = .colt c ∧ (s.colt c).running = true ∧ asleep s (coltUnit c) = false ∧ s.hub.stalled = false ∧ s.hub.fenced = false ∧ (s.colt c).pc < 1024 ∧ (s.colt c).pc < s.hub.routine.length ∧
      let w := nth 0 s.hub.routine (s.colt c).pc
      w = 0)
    ∧ (∃ s0 s : State, ((s0.sched = [] ∧ s = s0) ∨ ∃ a rest, s0.sched = .act a :: rest ∧ s = { s0 with sched := rest, turn := a }) ∧ ∃ c : Nat, s.turn = .colt c ∧ (s.colt c).running = true ∧ asleep s (coltUnit c) = false ∧ s.hub.stalled = false ∧ s.hub.fenced = false ∧ (s.colt c).pc < 1024 ∧ (s.colt c).pc < s.hub.routine.length ∧
      let w := nth 0 s.hub.routine (s.colt c).pc
      ∃ e, decodeSingle true w = .bad e)
    ∧ (∃ s0 s : State, ((s0.sched = [] ∧ s = s0) ∨ ∃ a rest, s0.sched = .act a :: rest ∧ s = { s0 with sched := rest, turn := a }) ∧ ∃ c : Nat, s.turn = .colt c ∧ (s.colt c).running = true ∧ asleep s (coltUnit c) = false ∧ s.hub.stalled = false ∧ s.hub.fenced = false ∧ (1024 ≤ (s.colt c).pc ∨ s.hub.routine.length ≤ (s.colt c).pc))
    ∧ (∃ s0 s : State, ((s0.sched = [] ∧ s = s0) ∨ ∃ a rest, s0.sched = .act a :: rest ∧ s = { s0 with sched := rest, turn := a }) ∧ ∃ p : Interp, ∃ op : Instr, s.turn = .qprog ∧ s.hub.interp = some p ∧ s.hub.fenced = false ∧ s.hub.stalled = false ∧ decodeQp (nth 0 p.prog.words p.pc) = some op)
    ∧ (∃ s0 s : State, ((s0.sched = [] ∧ s = s0) ∨ ∃ a rest, s0.sched = .act a :: rest ∧ s = { s0 with sched := rest, turn := a }) ∧ s.turn = .idle)
    ∧ (∃ s : State, ∃ rest : List Choice, ∃ i, s.sched = .happen i :: rest) := by
  refine ⟨?_, ?_, ?_, ?_, ?_, ?_, ?_, ?_, ?_, ?_, ?_, ?_, ?_, ?_⟩
  · refine ⟨(demoC demoTile { demoCore 0 with issue := some { demoIssue 0 with words := [0, slotWord (.add 9 2 3), 0, 0, 0, 0, 0, 0] } }), (demoC demoTile { demoCore 0 with issue := some { demoIssue 0 with words := [0, slotWord (.add 9 2 3), 0, 0, 0, 0, 0, 0] } }), ?_⟩
    apply And.intro
    · exact Or.inl ⟨rfl, rfl⟩
    refine ⟨0, ?_⟩
    apply Exists.intro
    apply And.intro
    · decide +kernel
    apply And.intro
    · decide +kernel
    apply And.intro
    · decide +kernel
    apply And.intro
    · decide +kernel
    apply And.intro
    · apply someEq (d := demoIssue 0)
      decide +kernel
    apply And.intro
    · decide +kernel
    refine ⟨1, ?_⟩
    apply Exists.intro
    apply Exists.intro
    apply And.intro
    · decide +kernel
    apply And.intro
    · decide +kernel
    apply And.intro
    · rfl
    apply And.intro
    · decide +kernel
    apply And.intro
    · intro h
      exact absurd h (by decide)
    intro j hj hl
    interval_cases j
    exact Or.inl (fun g o h => nomatch (show Decoded.nop = Decoded.op g o from h))
  · refine ⟨(demo 0), (demo 0), ?_⟩
    apply And.intro
    · exact Or.inl ⟨rfl, rfl⟩
    refine ⟨0, (demoIssue 0), ?_⟩
    apply And.intro
    · decide +kernel
    apply And.intro
    · decide +kernel
    apply And.intro
    · decide +kernel
    apply And.intro
    · decide +kernel
    apply And.intro
    · decide +kernel
    apply And.intro
    · decide +kernel
    intro j hj hl
    have h0 : 0 ≤ j := hj
    interval_cases j <;> exact Or.inl (fun g o h => nomatch (show Decoded.nop = Decoded.op g o from h))
  · refine ⟨(demoC demoTile { st := .running, issue := some { demoIssue 0 with brtDone := false, words := [0, 0, 0, 0, 0, 0, 0, 0x802A0000] } }), (demoC demoTile { st := .running, issue := some { demoIssue 0 with brtDone := false, words := [0, 0, 0, 0, 0, 0, 0, 0x802A0000] } }), ?_⟩
    apply And.intro
    · exact Or.inl ⟨rfl, rfl⟩
    refine ⟨0, ?_⟩
    apply Exists.intro
    apply And.intro
    · decide +kernel
    apply And.intro
    · decide +kernel
    apply And.intro
    · decide +kernel
    apply And.intro
    · decide +kernel
    apply And.intro
    · apply someEq (d := demoIssue 0)
      decide +kernel
    apply And.intro
    · decide +kernel
    apply Exists.intro
    apply Exists.intro
    rfl
  · refine ⟨(demoC demoTile { st := .running }), (demoC demoTile { st := .running }), ?_⟩
    apply And.intro
    · exact Or.inl ⟨rfl, rfl⟩
    refine ⟨0, ?_⟩
    apply And.intro
    · decide +kernel
    apply And.intro
    · decide +kernel
    apply And.intro
    · decide +kernel
    apply And.intro
    · decide +kernel
    decide +kernel
  · refine ⟨(demoC demoTile { st := .trapped, handler := some 0, hstore := [(0, singleWord (.add 9 2 3))] }), (demoC demoTile { st := .trapped, handler := some 0, hstore := [(0, singleWord (.add 9 2 3))] }), ?_⟩
    apply And.intro
    · exact Or.inl ⟨rfl, rfl⟩
    refine ⟨0, 0, ?_⟩
    apply And.intro
    · decide +kernel
    apply And.intro
    · decide +kernel
    apply And.intro
    · decide +kernel
    apply And.intro
    · decide +kernel
    apply And.intro
    · decide +kernel
    refine ⟨0, (.add 9 2 3), ?_⟩
    decide +kernel
  · refine ⟨(demoC demoTile { st := .trapped, handler := some 0, hstore := [] }), (demoC demoTile { st := .trapped, handler := some 0, hstore := [] }), ?_⟩
    apply And.intro
    · exact Or.inl ⟨rfl, rfl⟩
    refine ⟨0, 0, ?_⟩
    apply And.intro
    · decide +kernel
    apply And.intro
    · decide +kernel
    apply And.intro
    · decide +kernel
    apply And.intro
    · decide +kernel
    apply And.intro
    · decide +kernel
    decide +kernel
  · refine ⟨(demoC demoTile { st := .trapped, handler := some 0, hstore := [(0, 0xFFFFFFFF)] }), (demoC demoTile { st := .trapped, handler := some 0, hstore := [(0, 0xFFFFFFFF)] }), ?_⟩
    apply And.intro
    · exact Or.inl ⟨rfl, rfl⟩
    refine ⟨0, 0, ?_⟩
    apply And.intro
    · decide +kernel
    apply And.intro
    · decide +kernel
    apply And.intro
    · decide +kernel
    apply And.intro
    · decide +kernel
    apply And.intro
    · decide +kernel
    apply Exists.intro
    rfl
  · refine ⟨{ demoColt {} [] with hub := { colts := [(0, { running := true })], routine := [singleWord (.add 9 2 3)] } }, { demoColt {} [] with hub := { colts := [(0, { running := true })], routine := [singleWord (.add 9 2 3)] } }, ?_⟩
    apply And.intro
    · exact Or.inl ⟨rfl, rfl⟩
    refine ⟨0, ?_⟩
    apply And.intro
    · decide +kernel
    apply And.intro
    · decide +kernel
    apply And.intro
    · decide +kernel
    apply And.intro
    · decide +kernel
    apply And.intro
    · decide +kernel
    apply And.intro
    · decide +kernel
    apply And.intro
    · decide +kernel
    refine ⟨0, (.add 9 2 3), ?_⟩
    decide +kernel
  · refine ⟨{ demoColt {} [] with hub := { colts := [(0, { running := true })], routine := [0, 7] } }, { demoColt {} [] with hub := { colts := [(0, { running := true })], routine := [0, 7] } }, ?_⟩
    apply And.intro
    · exact Or.inl ⟨rfl, rfl⟩
    refine ⟨0, ?_⟩
    apply And.intro
    · decide +kernel
    apply And.intro
    · decide +kernel
    apply And.intro
    · decide +kernel
    apply And.intro
    · decide +kernel
    apply And.intro
    · decide +kernel
    apply And.intro
    · decide +kernel
    apply And.intro
    · decide +kernel
    decide +kernel
  · refine ⟨{ demoColt {} [] with hub := { colts := [(0, { running := true })], routine := [0xFFFFFFFF] } }, { demoColt {} [] with hub := { colts := [(0, { running := true })], routine := [0xFFFFFFFF] } }, ?_⟩
    apply And.intro
    · exact Or.inl ⟨rfl, rfl⟩
    refine ⟨0, ?_⟩
    apply And.intro
    · decide +kernel
    apply And.intro
    · decide +kernel
    apply And.intro
    · decide +kernel
    apply And.intro
    · decide +kernel
    apply And.intro
    · decide +kernel
    apply And.intro
    · decide +kernel
    apply And.intro
    · decide +kernel
    apply Exists.intro
    rfl
  · refine ⟨{ demoColt {} [] with hub := { colts := [(0, { running := true })], routine := [] } }, { demoColt {} [] with hub := { colts := [(0, { running := true })], routine := [] } }, ?_⟩
    apply And.intro
    · exact Or.inl ⟨rfl, rfl⟩
    refine ⟨0, ?_⟩
    apply And.intro
    · decide +kernel
    apply And.intro
    · decide +kernel
    apply And.intro
    · decide +kernel
    apply And.intro
    · decide +kernel
    apply And.intro
    · decide +kernel
    exact Or.inr (by decide)
  · refine ⟨{ State.reset with turn := .qprog, hub := { interp := some { prog := { words := [qpWord (.qLi 1 5)] } } } }, { State.reset with turn := .qprog, hub := { interp := some { prog := { words := [qpWord (.qLi 1 5)] } } } }, ?_⟩
    apply And.intro
    · exact Or.inl ⟨rfl, rfl⟩
    refine ⟨({ prog := { words := [qpWord (.qLi 1 5)] } } : Interp), (.qLi 1 5), ?_⟩
    apply And.intro
    · decide +kernel
    apply And.intro
    · decide +kernel
    apply And.intro
    · decide +kernel
    apply And.intro
    · decide +kernel
    decide +kernel
  · refine ⟨State.reset, State.reset, ?_⟩
    apply And.intro
    · exact Or.inl ⟨rfl, rfl⟩
    decide +kernel
  · refine ⟨{ State.reset with sched := [.happen .launch] }, [], .launch, ?_⟩
    decide +kernel

theorem wit_StepRunsInstruction_2 :
    (∃ s : State, ∃ rest : List Choice, ∃ ns, s.sched = .tick ns :: rest)
    ∧ (∃ s : State, ∃ rest : List Choice, ∃ pa v, s.sched = .hostStore pa v :: rest ∧ pa + 8 ≤ memSize ∧ s.hostPath = true)
    ∧ (∃ s : State, ∃ rest : List Choice, ∃ pa v, s.sched = .hostStore pa v :: rest ∧ memSize < pa + 8)
    ∧ (∃ s : State, ∃ rest : List Choice, ∃ a v, s.sched = .hostMem a v :: rest)
    ∧ (∃ s : State, ∃ rest : List Choice, ∃ pa v, s.sched = .hostStore pa v :: rest ∧ pa + 8 ≤ memSize ∧ s.hostPath = false)
    ∧ (∃ s : State, ∃ rest : List Choice, ∃ off, s.sched = .hostRead off :: rest)
    ∧ (∃ s : State, ∃ rest : List Choice, ∃ m, s.sched = .transit m :: rest) := by
  refine ⟨?_, ?_, ?_, ?_, ?_, ?_, ?_⟩
  · refine ⟨{ State.reset with sched := [.tick 5] }, [], 5, ?_⟩
    decide +kernel
  · refine ⟨{ State.reset with sched := [.hostStore 64 7] }, [], 64, 7, ?_⟩
    apply And.intro
    · decide +kernel
    apply And.intro
    · decide +kernel
    decide +kernel
  · refine ⟨{ State.reset with sched := [.hostStore memSize 7] }, [], memSize, 7, ?_⟩
    apply And.intro
    · decide +kernel
    decide +kernel
  · refine ⟨{ State.reset with sched := [.hostMem 64 7] }, [], 64, 7, ?_⟩
    decide +kernel
  · refine ⟨{ State.reset with sched := [.hostStore 64 7], hub := { bridge := 0 } }, [], 64, 7, ?_⟩
    apply And.intro
    · decide +kernel
    apply And.intro
    · decide +kernel
    decide +kernel
  · refine ⟨{ State.reset with sched := [.hostRead 816] }, [], 816, ?_⟩
    decide +kernel
  · refine ⟨{ State.reset with sched := [.transit ({ dest := 1, src := 0, vc := 0, kind := 1, tag := 0 } : Msg)] }, [], ({ dest := 1, src := 0, vc := 0, kind := 1, tag := 0 } : Msg), ?_⟩
    decide +kernel

theorem wit_EncodingRoundTrip :
    (∃ i : Instr, i.wf = true ∧ ∃ sl w tag, encode i = some (sl, w) ∧ sl < 7 ∧ tag < 7)
    ∧ (∃ i : Instr, i.wf = true ∧ ∃ w, encode i = some (7, w) ∧ i ≠ .tree 0 0 0 0 0)
    ∧ (∃ i : Instr, i.wf = true ∧ ∃ w, encodeSingle i = some w ∧ onColt i = true)
    ∧ (∃ i : Instr, i.wf = true ∧ ∃ w, encodeSingle i = some w ∧ coltOnly i = false ∧ bannedSingle i = false)
    ∧ (∃ i : Instr, i.wf = true ∧ ∃ w, encodeQp i = some w)
    ∧ (∃ sl w tag : Nat, ∃ i : Instr, decodeSlot sl w = .op tag i ∧ sl < 7)
    ∧ (∃ sl w tag : Nat, ∃ i : Instr, decodeSlot sl w = .op tag i ∧ sl = 7)
    ∧ (∃ sl w tag : Nat, ∃ i : Instr, decodeSlot sl w = .op tag i)
    ∧ (∃ w : Nat, ∃ i : Instr, decodeQp w = some i) := by
  refine ⟨?_, ?_, ?_, ?_, ?_, ?_, ?_, ?_, ?_⟩
  · refine ⟨(.add 9 2 3), ?_⟩
    apply And.intro
    · decide +kernel
    refine ⟨1, ?_⟩
    apply Exists.intro
    refine ⟨0, ?_⟩
    apply And.intro
    · rfl
    apply And.intro
    · decide +kernel
    decide +kernel
  · refine ⟨(.tree 0 1 2 3 4), ?_⟩
    apply And.intro
    · decide +kernel
    apply Exists.intro
    apply And.intro
    · rfl
    decide +kernel
  · refine ⟨(.add 9 2 3), ?_⟩
    apply And.intro
    · decide +kernel
    apply Exists.intro
    apply And.intro
    · rfl
    decide +kernel
  · refine ⟨(.add 9 2 3), ?_⟩
    apply And.intro
    · decide +kernel
    apply Exists.intro
    apply And.intro
    · rfl
    apply And.intro
    · decide +kernel
    decide +kernel
  · refine ⟨(.qLi 1 5), ?_⟩
    apply And.intro
    · decide +kernel
    apply Exists.intro
    rfl
  · refine ⟨0, 0x081245FD, ?_⟩
    apply Exists.intro
    apply Exists.intro
    apply And.intro
    · rfl
    decide +kernel
  · refine ⟨7, 0x802A0000, ?_⟩
    apply Exists.intro
    apply Exists.intro
    apply And.intro
    · rfl
    decide +kernel
  · refine ⟨0, 0x081245FD, ?_⟩
    apply Exists.intro
    apply Exists.intro
    rfl
  · refine ⟨(qpWord (.qLi 1 5)), ?_⟩
    apply Exists.intro
    rfl

theorem wit_MemoryFormKept :
    ∃ s t : State, Memory.wf s.mem = true ∧ step s = .next t := by
  refine ⟨{ State.reset with sched := [.tick 5] }, { State.reset with ptime := 5 }, ?_⟩
  apply And.intro
  · decide +kernel
  rfl

theorem wit_ResetState :
    ∃ c, c ≠ 0 := by
  refine ⟨1, ?_⟩
  decide +kernel

theorem wit_VectorLanding :
    (∃ c : OpCtx, ∃ d lat : Nat, ∃ v : Vec, ∃ en : Mask, ∃ fl : Flags, (¬(40 ≤ d ∧ d < 48)))
    ∧ (∃ s : State, ∃ e : Entry, ∃ d : Nat, ∃ v : Vec, ∃ en : Mask, e.eff = .vec d v en)
    ∧ (∃ s : State, ∃ e : Entry, ∃ d : Nat, ∃ v : Vec, ∃ en : Mask, e.eff = .vec d v en ∧ d < 40)
    ∧ (∃ s : State, ∃ e : Entry, ∃ d : Nat, ∃ v : Vec, ∃ en : Mask, e.eff = .vec d v en ∧ ∃ r, (r ≠ d ∨ 40 ≤ d))
    ∧ (∃ s : State, ∃ e : Entry, ∃ d : Nat, ∃ v : Vec, ∃ en : Mask, e.eff = .vec d v en ∧ ∃ l, l ≠ latchOf e.slot d)
    ∧ (∃ s : State, ∃ e : Entry, ∃ d : Nat, ∃ v : Vec, ∃ en : Mask, e.eff = .vec d v en)
    ∧ (∃ s : State, ∃ e : Entry, ∃ d : Nat, ∃ v : Vec, ∃ en : Mask, e.eff = .vec d v en ∧ ∃ u, u ≠ e.unit)
    ∧ (∃ s : State, ∃ e : Entry, ∃ d : Nat, ∃ v : Vec, ∃ en : Mask, e.eff = .vec d v en) := by
  refine ⟨?_, ?_, ?_, ?_, ?_, ?_, ?_, ?_⟩
  · refine ⟨look (demo 1) 0 1 0, 1, 1, {}, allOnes, 0, ?_⟩
    decide +kernel
  · refine ⟨(demo 1), ({ due := 1, issue := 0, slot := 1, unit := 0, eff := .vec 1 {} allOnes } : Entry), 1, {}, allOnes, ?_⟩
    decide +kernel
  · refine ⟨(demo 1), ({ due := 1, issue := 0, slot := 1, unit := 0, eff := .vec 1 {} allOnes } : Entry), 1, {}, allOnes, ?_⟩
    apply And.intro
    · decide +kernel
    decide +kernel
  · refine ⟨(demo 1), ({ due := 1, issue := 0, slot := 1, unit := 0, eff := .vec 1 {} allOnes } : Entry), 1, {}, allOnes, ?_⟩
    apply And.intro
    · decide +kernel
    refine ⟨2, ?_⟩
    decide +kernel
  · refine ⟨(demo 1), ({ due := 1, issue := 0, slot := 1, unit := 0, eff := .vec 1 {} allOnes } : Entry), 1, {}, allOnes, ?_⟩
    apply And.intro
    · decide +kernel
    refine ⟨1, ?_⟩
    decide +kernel
  · refine ⟨(demo 1), ({ due := 1, issue := 0, slot := 1, unit := 0, eff := .vec 1 {} allOnes } : Entry), 1, {}, allOnes, ?_⟩
    decide +kernel
  · refine ⟨(demo 1), ({ due := 1, issue := 0, slot := 1, unit := 0, eff := .vec 1 {} allOnes } : Entry), 1, {}, allOnes, ?_⟩
    apply And.intro
    · decide +kernel
    refine ⟨1, ?_⟩
    decide +kernel
  · refine ⟨(demo 1), ({ due := 1, issue := 0, slot := 1, unit := 0, eff := .vec 1 {} allOnes } : Entry), 1, {}, allOnes, ?_⟩
    decide +kernel

theorem wit_SystemRegisterAccess :
    (∃ s : State, ∃ k d n : Nat, ∃ i : Issue, InSlot s k 0 i)
    ∧ (∃ s : State, ∃ k a n : Nat, ∃ i : Issue, ∃ va : Nat → DWord, ∃ op : Instr, ∃ orOld : Bool, (op, orOld) ∈ ([(.csrw a n, false), (.csrs a n, true)] : List (Instr × Bool)) ∧ InSlot s k 0 i ∧ (∀ e ∈ i.dies 0, rx (look s k 0 e) a = .ok (va e)))
    ∧ (∃ s : State, ∃ u : Nat, ∃ v : DWord, ∃ o : Bool, 256 ≤ u)
    ∧ (∃ s : State, ∃ k e : Nat, ∃ v : DWord, ∃ o : Bool, k < 64 ∧ e < 4)
    ∧ (∃ s : State, ∃ u n : Nat, ∃ v : DWord, ∃ o : Bool, n ∉ [0x010, 0x011, 0x012, 0x013, 0x014, 0x041]) := by
  refine ⟨?_, ?_, ?_, ?_, ?_⟩
  · refine ⟨(demo 0), 0, 1, 1, (demoIssue 0), ?_⟩
    exact ⟨by decide +kernel, rfl, rfl, rfl, rfl, rfl, by decide +kernel⟩
  · refine ⟨(demo 0), 0, 1, 1, (demoIssue 0), ?_⟩
    apply Exists.intro
    apply Exists.intro
    apply Exists.intro
    apply And.intro
    · exact .head _
    apply And.intro
    · exact ⟨by decide +kernel, rfl, rfl, rfl, rfl, rfl, by decide +kernel⟩
    apply each
    intro e he
    apply okEach (d := 0) e he; decide +kernel
  · refine ⟨(demo 1), 256, 0, true, ?_⟩
    decide +kernel
  · refine ⟨(demo 1), 0, 1, 0, true, ?_⟩
    apply And.intro
    · decide +kernel
    decide +kernel
  · refine ⟨(demo 1), 1, 1, 0, true, ?_⟩
    decide +kernel

theorem wit_SequencerAndStore :
    (∃ s : State, ∃ k l x r : Nat, ∃ i : Issue, ∃ v : DWord, ∃ op : Instr, ∃ f : DWord → Eff, ((op, f) ∈ ([(.loop l x, fun v => .loopCount l (v.setWidth 24)), (.loopS0 l x r, fun v => .loopStride l 0 r v),
      (.loopS1 l x r, fun v => .loopStride l 1 r v)] : List (Instr × (DWord → Eff)))) ∧ InSlot s k 0 i ∧ rx (look s k 0 (k % 4)) x = .ok v)
    ∧ (∃ s : State, ∃ k j a : Nat, ∃ i : Issue, InSlot s k 0 i)
    ∧ (∃ s : State, ∃ k d j : Nat, ∃ i : Issue, InSlot s k 0 i)
    ∧ (∃ s : State, ∃ k x j : Nat, ∃ i : Issue, ∃ v : DWord, InSlot s k 0 i ∧ rx (look s k 0 (k % 4)) x = .ok v ∧ (v.getLsbD 62 = true ∨ v.toNat % 4096 ≤ 2048) ∧ (v.getLsbD 63 = false ∨ v.toNat / 2 ^ 16 % 32 ≤ 16))
    ∧ (∃ s : State, ∃ k e j : Nat, ∃ v : DWord, k < 64 ∧ e < 4) := by
  refine ⟨?_, ?_, ?_, ?_, ?_⟩
  · refine ⟨(demo 0), 0, 1, 1, 1, (demoIssue 0), ?_⟩
    apply Exists.intro
    apply Exists.intro
    apply Exists.intro
    apply And.intro
    · exact .head _
    apply And.intro
    · exact ⟨by decide +kernel, rfl, rfl, rfl, rfl, rfl, by decide +kernel⟩
    apply okEq (d := 0)
    decide +kernel
  · refine ⟨(demo 0), 0, 1, 1, (demoIssue 0), ?_⟩
    exact ⟨by decide +kernel, rfl, rfl, rfl, rfl, rfl, by decide +kernel⟩
  · refine ⟨(demo 0), 0, 1, 1, (demoIssue 0), ?_⟩
    exact ⟨by decide +kernel, rfl, rfl, rfl, rfl, rfl, by decide +kernel⟩
  · refine ⟨(demo 0), 0, 1, 1, (demoIssue 0), ?_⟩
    apply Exists.intro
    apply And.intro
    · exact ⟨by decide +kernel, rfl, rfl, rfl, rfl, rfl, by decide +kernel⟩
    apply And.intro
    · apply okEq (d := 0)
      decide +kernel
    apply And.intro
    · decide +kernel
    decide +kernel
  · refine ⟨(demo 1), 0, 1, 1, 0, ?_⟩
    apply And.intro
    · decide +kernel
    decide +kernel

theorem wit_ControlWords :
    (∃ s : State, ∃ k : Nat, ∃ i : Issue, ∃ op : Instr, ∃ f : Issue → Issue, ((op, f) ∈ ([(.halt, fun i => { i with action := .halt }), (.kend, fun i => { i with action := .kend })] : List (Instr × (Issue → Issue)))) ∧ InSlot s k 0 i)
    ∧ (∃ s : State, ∃ k : Nat, ∃ i : Issue, InSlot s k 0 i ∧ (s.core k).active.sec + 1 < (s.core k).secs.length)
    ∧ (∃ s : State, ∃ k a : Nat, ∃ i : Issue, InSlot s k 0 i ∧ (s.core k).rdepth < 16)
    ∧ (∃ s : State, ∃ k : Nat, ∃ i : Issue, InSlot s k 0 i ∧ 0 < (s.core k).rdepth)
    ∧ (∃ s : State, ∃ k c n : Nat, ∃ i : Issue, InSlot s k 0 i)
    ∧ (∃ s : State, ∃ k n : Nat, ∃ i : Issue, InSlot s k 0 i)
    ∧ (∃ s : State, ∃ k : Nat, InHandler s k ∧ (s.core k).stepPending = false) := by
  refine ⟨?_, ?_, ?_, ?_, ?_, ?_, ?_⟩
  · refine ⟨(demo 0), 0, (demoIssue 0), ?_⟩
    apply Exists.intro
    apply Exists.intro
    apply And.intro
    · exact .head _
    exact ⟨by decide +kernel, rfl, rfl, rfl, rfl, rfl, by decide +kernel⟩
  · refine ⟨(demoC demoTile { demoCore 0 with secs := [[], []] }), 0, (demoIssue 0), ?_⟩
    apply And.intro
    · exact ⟨by decide +kernel, rfl, rfl, rfl, rfl, rfl, by decide +kernel⟩
    decide +kernel
  · refine ⟨(demo 0), 0, 1, (demoIssue 0), ?_⟩
    apply And.intro
    · exact ⟨by decide +kernel, rfl, rfl, rfl, rfl, rfl, by decide +kernel⟩
    decide +kernel
  · refine ⟨(demoC demoTile { demoCore 0 with rdepth := 1 }), 0, (demoIssue 0), ?_⟩
    apply And.intro
    · exact ⟨by decide +kernel, rfl, rfl, rfl, rfl, rfl, by decide +kernel⟩
    decide +kernel
  · refine ⟨(demo 0), 0, 1, 1, (demoIssue 0), ?_⟩
    exact ⟨by decide +kernel, rfl, rfl, rfl, rfl, rfl, by decide +kernel⟩
  · refine ⟨(demo 0), 0, 1, (demoIssue 0), ?_⟩
    exact ⟨by decide +kernel, rfl, rfl, rfl, rfl, rfl, by decide +kernel⟩
  · refine ⟨inHandler, 0, ?_⟩
    apply And.intro
    · exact ⟨by decide +kernel, rfl, by decide +kernel⟩
    decide +kernel

theorem wit_FloatLaneOperations :
    (∃ s : State, ∃ k d a b lat : Nat, ∃ u : VUnit, ∃ i : Issue, ∃ op : Instr, ∃ fn : FFmt → Nat → Nat → Fl, ∃ F : Nat → FFmt, ∃ A B : Nat → Src, ∃ ps : Nat → List Post, ((op, lat, fn) ∈ ([(.fadd u d a b, 4, fadd), (.fsub u d a b, 4, fsub), (.fmul u d a b, 4, fmul),
      (.fmin u d a b, 2, fun f => fminmax f false), (.fmax u d a b, 2, fun f => fminmax f true)]
      : List (Instr × Nat × (FFmt → Nat → Nat → Fl)))) ∧ InSlot s k (vslot u) i ∧ (∀ e ∈ i.dies (vslot u),
      let c := look s k (vslot u) e
      let m := curMask c
      let r := laneMap (F e).tag m (fun j => onElems (F e) (fun x y _ => fn (F e) x y) ((A e).v.lane j) ((B e).v.lane j) 0)
      readFloat c a (enabled m) = .ok (F e, A e) ∧ readAs c b (F e).tag (enabled m) = .ok (B e)
      ∧ dstPosts c d lat r.1 m (r.2 ||| (A e).fl ||| (B e).fl) = .ok (ps e)))
    ∧ (∃ s : State, ∃ k d a b cc sl : Nat, ∃ u : VUnit, ∃ i : Issue, ∃ op : Instr, ∃ np nc : Bool, ∃ F : Nat → FFmt, ∃ A B C : Nat → Src, ∃ ps : Nat → List Post, (op, sl, np, nc) ∈ ([(.fma u d a b cc, vslot u, false, false), (.fms d a b cc, 2, false, true), (.fnma d a b cc, 2, true, false)]
      : List (Instr × Nat × Bool × Bool)) ∧ InSlot s k sl i ∧ (∀ e ∈ i.dies sl,
      let c := look s k sl e
      let m := curMask c
      let r := laneMap (F e).tag m (fun j => onElems (F e) (fun x y z => ffma (F e) np nc x y z)
      ((A e).v.lane j) ((B e).v.lane j) ((C e).v.lane j))
      readFloat c a (enabled m) = .ok (F e, A e) ∧ readAs c b (F e).tag (enabled m) = .ok (B e)
      ∧ readAs c (cSel cc) (F e).tag (enabled m) = .ok (C e)
      ∧ dstPosts c d 4 r.1 m (r.2 ||| (A e).fl ||| (B e).fl ||| (C e).fl) = .ok (ps e)))
    ∧ (∃ s : State, ∃ k d a fn : Nat, ∃ u : VUnit, ∃ i : Issue, ∃ F : Nat → FFmt, ∃ A : Nat → Src, ∃ ps : Nat → List Post, InSlot s k (vslot u) i ∧ (∀ e ∈ i.dies (vslot u),
      let c := look s k (vslot u) e
      let m := curMask c
      let r := laneMap (F e).tag m (fun j => onElems (F e) (fun x _ _ => funa (F e) fn x) ((A e).v.lane j) 0 0)
      readFloat c a (enabled m) = .ok (F e, A e) ∧ dstPosts c d 2 r.1 m (r.2 ||| (A e).fl) = .ok (ps e)))
    ∧ (∃ t : Tag, ∃ m : Mask, ∃ f : Nat → Fl, ∃ j : Nat, j < 128) := by
  refine ⟨?_, ?_, ?_, ?_⟩
  · refine ⟨(demo 2), 0, 1, 1, 1, ?_⟩
    apply Exists.intro
    refine ⟨.va, (demoIssue 2), ?_⟩
    apply Exists.intro
    apply Exists.intro
    apply Exists.intro
    apply Exists.intro
    apply Exists.intro
    apply Exists.intro
    apply And.intro
    · exact .head _
    apply And.intro
    · exact ⟨by decide +kernel, rfl, rfl, rfl, rfl, rfl, by decide +kernel⟩
    apply each
    intro e he
    apply And.intro
    · apply okEach (d := (FFmt.fp32, src0)) e he; decide +kernel
    apply And.intro
    · apply okEach (d := src0) e he; decide +kernel
    apply okEach (d := []) e he; decide +kernel
  · refine ⟨(demo 2), 0, 1, 1, 1, 1, ?_⟩
    apply Exists.intro
    refine ⟨.va, (demoIssue 2), ?_⟩
    apply Exists.intro
    apply Exists.intro
    apply Exists.intro
    apply Exists.intro
    apply Exists.intro
    apply Exists.intro
    apply Exists.intro
    apply Exists.intro
    apply And.intro
    · exact .head _
    apply And.intro
    · exact ⟨by decide +kernel, rfl, rfl, rfl, rfl, rfl, by decide +kernel⟩
    apply each
    intro e he
    apply And.intro
    · apply okEach (d := (FFmt.fp32, src0)) e he; decide +kernel
    apply And.intro
    · apply okEach (d := src0) e he; decide +kernel
    apply And.intro
    · apply okEach (d := src0) e he; decide +kernel
    apply okEach (d := []) e he; decide +kernel
  · refine ⟨(demo 2), 0, 1, 1, 1, .va, (demoIssue 2), ?_⟩
    apply Exists.intro
    apply Exists.intro
    apply Exists.intro
    apply And.intro
    · exact ⟨by decide +kernel, rfl, rfl, rfl, rfl, rfl, by decide +kernel⟩
    apply each
    intro e he
    apply And.intro
    · apply okEach (d := (FFmt.fp32, src0)) e he; decide +kernel
    apply okEach (d := []) e he; decide +kernel
  · refine ⟨.fp32, allOnes, (fun _ => (0, 0)), 1, ?_⟩
    decide +kernel

theorem wit_IntegerLaneOperations :
    ∃ s : State, ∃ k d a b lat sl : Nat, ∃ u : VUnit, ∃ i : Issue, ∃ op : Instr, ∃ fn : Word → Word → Word, ∃ A B : Nat → Src, ∃ v : Nat → Vec, ∃ ps : Nat → List Post, ((op, sl, lat, fn) ∈ ([(.iadd u d a b, vslot u, 1, fun x y => x + y), (.isub d a b, 2, 1, fun x y => x - y),
      (.imul d a b, 2, 3, fun x y => x * y), (.iand d a b, 2, 1, fun x y => x &&& y), (.ior d a b, 2, 1, fun x y => x ||| y),
      (.ixor d a b, 2, 1, fun x y => x ^^^ y), (.ishl d a b, 2, 1, fun x y => x <<< (y.toNat % 32)),
      (.ishr d a b, 2, 1, fun x y => x >>> (y.toNat % 32)), (.isra d a b, 2, 1, fun x y => x.sshiftRight (y.toNat % 32)),
      (.imin d a b, 2, 1, fun x y => if x.toInt ≤ y.toInt then x else y),
      (.imax d a b, 2, 1, fun x y => if x.toInt ≥ y.toInt then x else y)] : List (Instr × Nat × Nat × (Word → Word → Word)))) ∧ InSlot s k sl i ∧ (∀ e ∈ i.dies sl,
      let c := look s k sl e
      let m := curMask c
      readAs c a .i32 (enabled m) = .ok (A e) ∧ readAs c b .i32 (enabled m) = .ok (B e)
      ∧ v e = Vec.mk' .i32 (fun j => if m.getLsbD j
      then (fn (BitVec.ofNat 32 ((A e).v.lane j)) (BitVec.ofNat 32 ((B e).v.lane j))).toNat else 0)
      ∧ dstPosts c d lat (v e) m ((A e).fl ||| (B e).fl) = .ok (ps e)) := by
  refine ⟨(demo 2), 0, 1, 5, 5, ?_⟩
  apply Exists.intro
  apply Exists.intro
  refine ⟨.va, (demoIssue 2), ?_⟩
  apply Exists.intro
  apply Exists.intro
  apply Exists.intro
  apply Exists.intro
  apply Exists.intro
  apply Exists.intro
  apply And.intro
  · exact .head _
  apply And.intro
  · exact ⟨by decide +kernel, rfl, rfl, rfl, rfl, rfl, by decide +kernel⟩
  apply each
  intro e he
  apply And.intro
  · apply okEach (d := src0) e he; decide +kernel
  apply And.intro
  · apply okEach (d := src0) e he; decide +kernel
  apply And.intro
  · rfl
  apply okEach (d := []) e he; decide +kernel

theorem wit_CompareAndSelectOperations :
    (∃ s : State, ∃ k d a b cc : Nat, ∃ u : VUnit, ∃ i : Issue, ∃ A B : Nat → Src, InSlot s k (vslot u) i ∧ (∀ e ∈ i.dies (vslot u), let c := look s k (vslot u) e
      readAs c a .fp32 (enabled (curMask c)) = .ok (A e) ∧ readAs c b .fp32 (enabled (curMask c)) = .ok (B e)))
    ∧ (∃ s : State, ∃ k d a b cc : Nat, ∃ u : VUnit, ∃ i : Issue, ∃ A B : Nat → Src, InSlot s k (vslot u) i ∧ (∀ e ∈ i.dies (vslot u), let c := look s k (vslot u) e
      readAs c a .fp32 (enabled (curMask c)) = .ok (A e) ∧ readAs c b .fp32 (enabled (curMask c)) = .ok (B e)))
    ∧ (∃ s : State, ∃ k d a b cc : Nat, ∃ u : VUnit, ∃ i : Issue, ∃ A B : Nat → Src, cc < 6 ∧ InSlot s k (vslot u) i ∧ (∀ e ∈ i.dies (vslot u), let c := look s k (vslot u) e
      readAs c a .i32 (enabled (curMask c)) = .ok (A e) ∧ readAs c b .i32 (enabled (curMask c)) = .ok (B e)))
    ∧ (∃ s : State, ∃ k d a b cc : Nat, ∃ u : VUnit, ∃ i : Issue, ∃ A B : Nat → Src, cc < 6 ∧ InSlot s k (vslot u) i ∧ (∀ e ∈ i.dies (vslot u), let c := look s k (vslot u) e
      readAs c a .i32 (enabled (curMask c)) = .ok (A e) ∧ readAs c b .i32 (enabled (curMask c)) = .ok (B e)))
    ∧ (∃ s : State, ∃ k d a b o : Nat, ∃ i : Issue, o < 7 ∧ InSlot s k 2 i)
    ∧ (∃ s : State, ∃ k v a : Nat, ∃ i : Issue, InSlot s k 1 i)
    ∧ (∃ s : State, ∃ k d a b q : Nat, ∃ u : VUnit, ∃ i : Issue, ∃ A B : Nat → Src, ∃ ps : Nat → List Post, InSlot s k (vslot u) i ∧ (∀ e ∈ i.dies (vslot u), let c := look s k (vslot u) e
      readNonEmpty c a = .ok (A e) ∧ readExact c b (A e).v.tag = .ok (B e)
      ∧ dstPosts c d 1 (Vec.mk' (A e).v.tag (fun j => if (c.t.getK q).getLsbD j then (A e).v.lane j else (B e).v.lane j))
      (curMask c) = .ok (ps e)))
    ∧ (∃ s : State, ∃ k d a : Nat, ∃ u : VUnit, ∃ i : Issue, ∃ A : Nat → Vec × List Post, ∃ ps : Nat → List Post, InSlot s k (vslot u) i ∧ (∀ e ∈ i.dies (vslot u), let c := look s k (vslot u) e
      readSel c a = .ok (A e) ∧ dstPosts c d 1 (A e).1 (curMask c) = .ok (ps e)))
    ∧ (∃ s : State, ∃ k d m : Nat, ∃ i : Issue, ∃ kind : Nat, ∃ ps : Nat → List Post, InSlot s k 2 i ∧ kind < 2 ∧ (∀ e ∈ i.dies 2, let c := look s k 2 e
      dstPosts c d 1 (if kind = 0 then Vec.mk' .i32 (fun _ => (BitVec.ofInt 32 (sextNat m 16)).toNat)
      else Vec.mk' .fp32 (fun _ => m * 2 ^ 16)) (curMask c) = .ok (ps e)))
    ∧ (∃ s : State, ∃ k d a j : Nat, ∃ i : Issue, ∃ A : Nat → Vec × List Post, ∃ ps : Nat → List Post, InSlot s k 2 i ∧ (∀ e ∈ i.dies 2, let c := look s k 2 e
      readSel c a = .ok (A e) ∧ dstPosts c d 2 (Vec.mk' (A e).1.tag (fun _ => (A e).1.lane j)) (curMask c) = .ok (ps e)))
    ∧ (∃ s : State, ∃ k d a b kind md : Nat, ∃ u : VUnit, ∃ i : Issue, ∃ src dst : Tag, ∃ fn : RMode → Nat → Fl, ∃ A : Nat → Src, ∃ ps : Nat → List Post, ((kind, src, dst, fn) ∈ ([(0, .fp32, .i32, f2i), (1, .i32, .fp32, i2f), (3, .bf16, .fp32, fun _ x => bf2f (x % 2 ^ 16)),
      (4, .bf16, .fp32, fun _ x => bf2f (x / 2 ^ 16))] : List (Nat × Tag × Tag × (RMode → Nat → Fl)))) ∧ InSlot s k (vslot u) i ∧ (∀ e ∈ i.dies (vslot u),
      let c := look s k (vslot u) e
      let r := laneMap dst (curMask c) (fun j => fn (RMode.ofCode md) ((A e).v.lane j))
      readAs c a src (enabled (curMask c)) = .ok (A e) ∧ (A e).fl = 0 ∧ dstPosts c d 3 r.1 (curMask c) r.2 = .ok (ps e)))
    ∧ (∃ s : State, ∃ k d a b md : Nat, ∃ u : VUnit, ∃ i : Issue, ∃ A B : Nat → Src, ∃ ps : Nat → List Post, InSlot s k (vslot u) i ∧ (∀ e ∈ i.dies (vslot u),
      let c := look s k (vslot u) e
      let r := laneMap .bf16 (curMask c) (fun j =>
      let lo := f2bf (RMode.ofCode md) ((A e).v.lane j)
      let hi := f2bf (RMode.ofCode md) ((B e).v.lane j)
      (lo.1 + 2 ^ 16 * hi.1, lo.2 ||| hi.2))
      readAs c a .fp32 (enabled (curMask c)) = .ok (A e) ∧ readAs c b .fp32 (enabled (curMask c)) = .ok (B e)
      ∧ dstPosts c d 3 r.1 (curMask c) (r.2 ||| (A e).fl ||| (B e).fl) = .ok (ps e)))
    ∧ (∃ cc x y : Nat, cc < 8 ∧ (nan32 x || nan32 y) = true)
    ∧ (∃ cc x y : Nat, cc < 8 ∧ (nan32 x || nan32 y) = false) := by
  refine ⟨?_, ?_, ?_, ?_, ?_, ?_, ?_, ?_, ?_, ?_, ?_, ?_, ?_, ?_⟩
  · refine ⟨(demo 2), 0, 1, 1, 1, 1, .va, (demoIssue 2), ?_⟩
    apply Exists.intro
    apply Exists.intro
    apply And.intro
    · exact ⟨by decide +kernel, rfl, rfl, rfl, rfl, rfl, by decide +kernel⟩
    apply each
    intro e he
    apply And.intro
    · apply okEach (d := src0) e he; decide +kernel
    apply okEach (d := src0) e he; decide +kernel
  · refine ⟨(demo 2), 0, 1, 1, 1, 1, .va, (demoIssue 2), ?_⟩
    apply Exists.intro
    apply Exists.intro
    apply And.intro
    · exact ⟨by decide +kernel, rfl, rfl, rfl, rfl, rfl, by decide +kernel⟩
    apply each
    intro e he
    apply And.intro
    · apply okEach (d := src0) e he; decide +kernel
    apply okEach (d := src0) e he; decide +kernel
  · refine ⟨(demo 2), 0, 1, 5, 5, 1, .va, (demoIssue 2), ?_⟩
    apply Exists.intro
    apply Exists.intro
    apply And.intro
    · decide +kernel
    apply And.intro
    · exact ⟨by decide +kernel, rfl, rfl, rfl, rfl, rfl, by decide +kernel⟩
    apply each
    intro e he
    apply And.intro
    · apply okEach (d := src0) e he; decide +kernel
    apply okEach (d := src0) e he; decide +kernel
  · refine ⟨(demo 2), 0, 1, 5, 5, 1, .va, (demoIssue 2), ?_⟩
    apply Exists.intro
    apply Exists.intro
    apply And.intro
    · decide +kernel
    apply And.intro
    · exact ⟨by decide +kernel, rfl, rfl, rfl, rfl, rfl, by decide +kernel⟩
    apply each
    intro e he
    apply And.intro
    · apply okEach (d := src0) e he; decide +kernel
    apply okEach (d := src0) e he; decide +kernel
  · refine ⟨(demo 2), 0, 1, 1, 1, 1, (demoIssue 2), ?_⟩
    apply And.intro
    · decide +kernel
    exact ⟨by decide +kernel, rfl, rfl, rfl, rfl, rfl, by decide +kernel⟩
  · refine ⟨(demo 1), 0, 1, 1, (demoIssue 1), ?_⟩
    exact ⟨by decide +kernel, rfl, rfl, rfl, rfl, rfl, by decide +kernel⟩
  · refine ⟨(demo 2), 0, 1, 1, 1, 1, .va, (demoIssue 2), ?_⟩
    apply Exists.intro
    apply Exists.intro
    apply Exists.intro
    apply And.intro
    · exact ⟨by decide +kernel, rfl, rfl, rfl, rfl, rfl, by decide +kernel⟩
    apply each
    intro e he
    apply And.intro
    · apply okEach (d := src0) e he; decide +kernel
    apply And.intro
    · apply okEach (d := src0) e he; decide +kernel
    apply okEach (d := []) e he; decide +kernel
  · refine ⟨(demo 2), 0, 1, 1, .va, (demoIssue 2), ?_⟩
    apply Exists.intro
    apply Exists.intro
    apply And.intro
    · exact ⟨by decide +kernel, rfl, rfl, rfl, rfl, rfl, by decide +kernel⟩
    apply each
    intro e he
    apply And.intro
    · apply okEach (d := (({} : Vec), [])) e he; decide +kernel
    apply okEach (d := []) e he; decide +kernel
  · refine ⟨(demo 2), 0, 1, 1, (demoIssue 2), 1, ?_⟩
    apply Exists.intro
    apply And.intro
    · exact ⟨by decide +kernel, rfl, rfl, rfl, rfl, rfl, by decide +kernel⟩
    apply And.intro
    · decide +kernel
    apply each
    intro e he
    apply okEach (d := []) e he; decide +kernel
  · refine ⟨(demo 2), 0, 1, 1, 1, (demoIssue 2), ?_⟩
    apply Exists.intro
    apply Exists.intro
    apply And.intro
    · exact ⟨by decide +kernel, rfl, rfl, rfl, rfl, rfl, by decide +kernel⟩
    apply each
    intro e he
    apply And.intro
    · apply okEach (d := (({} : Vec), [])) e he; decide +kernel
    apply okEach (d := []) e he; decide +kernel
  · refine ⟨(demo 2), 0, 1, 1, 1, ?_⟩
    apply Exists.intro
    refine ⟨1, .va, (demoIssue 2), ?_⟩
    apply Exists.intro
    apply Exists.intro
    apply Exists.intro
    apply Exists.intro
    apply Exists.intro
    apply And.intro
    · exact .head _
    apply And.intro
    · exact ⟨by decide +kernel, rfl, rfl, rfl, rfl, rfl, by decide +kernel⟩
    apply each
    intro e he
    apply And.intro
    · apply okEach (d := src0) e he; decide +kernel
    apply And.intro
    · revert e; decide +kernel
    apply okEach (d := []) e he; decide +kernel
  · refine ⟨(demo 2), 0, 1, 1, 1, 1, .va, (demoIssue 2), ?_⟩
    apply Exists.intro
    apply Exists.intro
    apply Exists.intro
    apply And.intro
    · exact ⟨by decide +kernel, rfl, rfl, rfl, rfl, rfl, by decide +kernel⟩
    apply each
    intro e he
    apply And.intro
    · apply okEach (d := src0) e he; decide +kernel
    apply And.intro
    · apply okEach (d := src0) e he; decide +kernel
    apply okEach (d := []) e he; decide +kernel
  · refine ⟨1, 0x7FC00000, 1, ?_⟩
    apply And.intro
    · decide +kernel
    decide +kernel
  · refine ⟨1, 1, 1, ?_⟩
    apply And.intro
    · decide +kernel
    decide +kernel

theorem wit_ScratchpadOperations :
    (∃ s : State, ∃ k d x off : Nat, ∃ i : Issue, ∃ v : Nat → DWord, ∃ a : Nat → Nat, ∃ ps : Nat → List Post, InSlot s k 2 i ∧ (∀ e ∈ i.dies 2, let c := look s k 2 e
      rx c x = .ok (v e) ∧ (a e : Int) = ((v e).toNat : Int) + sextNat off 12 * 512 ∧ a e + 512 ≤ 2 ^ 22 ∧ 512 ∣ a e
      ∧ BanksOpen c c.u (a e) 512
      ∧ dstPosts c d 6 (vecOfBytes (nth .empty [.fp32, .bf16, .i32] c.t.ldt) (c.t.spadBytes (a e) 512)) (curMask c) = .ok (ps e)))
    ∧ (∃ s : State, ∃ k b x off : Nat, ∃ i : Issue, ∃ v : Nat → DWord, ∃ a : Nat → Nat, ∃ B : Nat → Vec × List Post, InSlot s k 2 i ∧ (∀ e ∈ i.dies 2, let c := look s k 2 e
      rx c x = .ok (v e) ∧ (a e : Int) = ((v e).toNat : Int) + sextNat off 12 * 512 ∧ a e + 512 ≤ 2 ^ 22 ∧ 512 ∣ a e
      ∧ BanksOpen c c.u (a e) 512 ∧ readSel c b = .ok (B e)))
    ∧ (∃ s : State, ∃ k b x off : Nat, ∃ i : Issue, ∃ v : Nat → DWord, ∃ a : Nat → Nat, ∃ B : Nat → Vec × List Post, InSlot s k 2 i ∧ (∀ e ∈ i.dies 2, let c := look s k 2 e
      rx c x = .ok (v e) ∧ (a e : Int) = ((v e).toNat : Int) + sextNat off 12 * 512 ∧ a e + 512 ≤ 2 ^ 22 ∧ 512 ∣ a e
      ∧ BanksOpen c c.u (a e) 512 ∧ readSel c b = .ok (B e)))
    ∧ (∃ s : State, ∃ e : Entry, ∃ cells : List (Nat × Byte), ∃ a : Nat, e.eff = .spad cells ∧ e.fl = 0 ∧ e.mx = 0 ∧ (∀ x ∈ cells, x.1 ≠ a))
    ∧ (∃ s : State, ∃ k v : Nat, ∃ i : Issue, ∃ V : Nat → Vec, v < 40 ∧ InSlot s k 3 i ∧ (∀ e ∈ i.dies 3, let c := look s k 3 e
      readSel c v = .ok (V e, []) ∧ (c.t.pool = true → BanksOpen c c.u (c.t.sbase * 512 + 512 * v) 512)))
    ∧ (∃ s : State, ∃ k v : Nat, ∃ i : Issue, v < 40 ∧ InSlot s k 3 i ∧ (∀ e ∈ i.dies 3, let c := look s k 3 e
      c.t.parked.getLsbD v = true ∧ (c.t.pool = true → BanksOpen c c.u (c.t.sbase * 512 + 512 * v) 512)))
    ∧ (∃ s : State, ∃ k x p f : Nat, ∃ i : Issue, ∃ v : Nat → DWord, InSlot s k 1 i ∧ (∀ e ∈ i.dies 1, portHeld (look s k 1 e) p = false ∧ rx (look s k 1 e) x = .ok (v e) ∧ wcfgOk f (v e) = true))
    ∧ (∃ s : State, ∃ k x g n f : Nat, ∃ i : Issue, ∃ v : Nat → DWord, InSlot s k 1 i ∧ (∀ e ∈ i.dies 1, rx (look s k 1 e) x = .ok (v e)))
    ∧ (∃ s : State, ∃ k x d kind : Nat, ∃ i : Issue, ∃ v : Nat → DWord, ∃ ps : Nat → List Post, InSlot s k 1 i ∧ kind < 3 ∧ (∀ e ∈ i.dies 1, rx (look s k 1 e) x = .ok (v e) ∧ dstPosts (look s k 1 e) d 1
      (Vec.mk' (nth .empty [.i32, .fp32, .bf16] kind) (fun _ => (v e).toNat % 2 ^ 32)) allOnes = .ok (ps e))) := by
  refine ⟨?_, ?_, ?_, ?_, ?_, ?_, ?_, ?_, ?_⟩
  · refine ⟨(demo 2), 0, 1, 2, 1, (demoIssue 2), ?_⟩
    apply Exists.intro
    refine ⟨(fun _ => 1024), ?_⟩
    apply Exists.intro
    apply And.intro
    · exact ⟨by decide +kernel, rfl, rfl, rfl, rfl, rfl, by decide +kernel⟩
    apply each
    intro e he
    apply And.intro
    · apply okEach (d := 0) e he; decide +kernel
    apply And.intro
    · revert e; decide +kernel
    apply And.intro
    · revert e; decide +kernel
    apply And.intro
    · revert e; decide +kernel
    apply And.intro
    · revert e; decide +kernel
    apply okEach (d := []) e he; decide +kernel
  · refine ⟨(demo 2), 0, 1, 2, 1, (demoIssue 2), ?_⟩
    apply Exists.intro
    refine ⟨(fun _ => 1024), ?_⟩
    apply Exists.intro
    apply And.intro
    · exact ⟨by decide +kernel, rfl, rfl, rfl, rfl, rfl, by decide +kernel⟩
    apply each
    intro e he
    apply And.intro
    · apply okEach (d := 0) e he; decide +kernel
    apply And.intro
    · revert e; decide +kernel
    apply And.intro
    · revert e; decide +kernel
    apply And.intro
    · revert e; decide +kernel
    apply And.intro
    · revert e; decide +kernel
    apply okEach (d := (({} : Vec), [])) e he; decide +kernel
  · refine ⟨(demo 2), 0, 1, 2, 1, (demoIssue 2), ?_⟩
    apply Exists.intro
    refine ⟨(fun _ => 1024), ?_⟩
    apply Exists.intro
    apply And.intro
    · exact ⟨by decide +kernel, rfl, rfl, rfl, rfl, rfl, by decide +kernel⟩
    apply each
    intro e he
    apply And.intro
    · apply okEach (d := 0) e he; decide +kernel
    apply And.intro
    · revert e; decide +kernel
    apply And.intro
    · revert e; decide +kernel
    apply And.intro
    · revert e; decide +kernel
    apply And.intro
    · revert e; decide +kernel
    apply okEach (d := (({} : Vec), [])) e he; decide +kernel
  · refine ⟨(demo 1), ({ due := 1, issue := 0, slot := 1, unit := 0, eff := .spad [(64, 7)] } : Entry), [(64, 7)], 1, ?_⟩
    apply And.intro
    · decide +kernel
    apply And.intro
    · decide +kernel
    apply And.intro
    · decide +kernel
    decide +kernel
  · refine ⟨(demo 3), 0, 1, (demoIssue 3), (fun _ => { tag := .fp32 }), ?_⟩
    apply And.intro
    · decide +kernel
    apply And.intro
    · exact ⟨by decide +kernel, rfl, rfl, rfl, rfl, rfl, by decide +kernel⟩
    apply each
    intro e he
    have h : e = 0 ∨ e = 1 ∨ e = 2 ∨ e = 3 := by omega
    rcases h with rfl | rfl | rfl | rfl <;> exact ⟨rfl, by decide +kernel⟩
  · refine ⟨(demoT 3 { demoTile with parked := 2 }), 0, 1, (demoIssue 3), ?_⟩
    apply And.intro
    · decide +kernel
    apply And.intro
    · exact ⟨by decide +kernel, rfl, rfl, rfl, rfl, rfl, by decide +kernel⟩
    apply each
    intro e he
    apply And.intro
    · revert e; decide +kernel
    revert e; decide +kernel
  · refine ⟨(demo 1), 0, 1, 1, 1, (demoIssue 1), ?_⟩
    apply Exists.intro
    apply And.intro
    · exact ⟨by decide +kernel, rfl, rfl, rfl, rfl, rfl, by decide +kernel⟩
    apply each
    intro e he
    apply And.intro
    · revert e; decide +kernel
    apply And.intro
    · apply okEach (d := 0) e he; decide +kernel
    revert e; decide +kernel
  · refine ⟨(demo 1), 0, 1, 1, 1, 1, (demoIssue 1), ?_⟩
    apply Exists.intro
    apply And.intro
    · exact ⟨by decide +kernel, rfl, rfl, rfl, rfl, rfl, by decide +kernel⟩
    apply each
    intro e he
    apply okEach (d := 0) e he; decide +kernel
  · refine ⟨(demo 1), 0, 1, 1, 1, (demoIssue 1), ?_⟩
    apply Exists.intro
    apply Exists.intro
    apply And.intro
    · exact ⟨by decide +kernel, rfl, rfl, rfl, rfl, rfl, by decide +kernel⟩
    apply And.intro
    · decide +kernel
    apply each
    intro e he
    apply And.intro
    · apply okEach (d := 0) e he; decide +kernel
    apply okEach (d := []) e he; decide +kernel

theorem wit_SpecialFunctionOperations :
    (∃ s : State, ∃ k d a fn : Nat, ∃ f : SfFn, ∃ i : Issue, ∃ A : Nat → Src, ∃ ps : Nat → List Post, SfFn.ofCode fn = some f ∧ InSlot s k 3 i ∧ (∀ e ∈ i.dies 3, let c := look s k 3 e
      let r := laneMap .fp32 (curMask c) (fun j => sfSeed c.t.seed f ((A e).v.lane j))
      readAs c a .fp32 (enabled (curMask c)) = .ok (A e) ∧ dstPosts c d 3 r.1 (curMask c) (r.2 ||| (A e).fl) = .ok (ps e)))
    ∧ (∃ s : State, ∃ k d a b fn : Nat, ∃ f : SfFn, ∃ i : Issue, ∃ A B : Nat → Src, ∃ ps : Nat → List Post, SfFn.ofCode fn = some f ∧ InSlot s k 3 i ∧ (∀ e ∈ i.dies 3, let c := look s k 3 e
      let r := laneMap .fp32 (curMask c) (fun j => sfStep c.t.seed f ((A e).v.lane j) ((B e).v.lane j))
      readAs c a .fp32 (enabled (curMask c)) = .ok (A e) ∧ readAs c b .fp32 (enabled (curMask c)) = .ok (B e)
      ∧ dstPosts c d 4 r.1 (curMask c) (r.2 ||| (A e).fl ||| (B e).fl) = .ok (ps e)))
    ∧ (∃ s : State, ∃ k x fn len : Nat, ∃ i : Issue, ∃ v : Nat → DWord, len = (if fn = 5 then 1024 else 512) ∧ InSlot s k 3 i ∧ (∀ e ∈ i.dies 3, let c := look s k 3 e
      rx c x = .ok (v e) ∧ (v e).toNat + len ≤ 2 ^ 22 ∧ 512 ∣ (v e).toNat ∧ BanksOpen c c.u (v e).toNat len))
    ∧ (∃ s : State, ∃ k d a b : Nat, ∃ i : Issue, ∃ A B : Nat → Src, ∃ ps : Nat → List Post, InSlot s k 3 i ∧ (∀ e ∈ i.dies 3, let c := look s k 3 e
      let r := laneMap .fp32 (curMask c) (fun j => fmul .fp32 ((A e).v.lane j) ((B e).v.lane 2))
      readAs c a .fp32 (enabled (curMask c)) = .ok (A e) ∧ readAs c b .fp32 (fun j => decide (j = 2)) = .ok (B e)
      ∧ dstPosts c d 4 r.1 (curMask c) (r.2 ||| (A e).fl ||| (B e).fl) = .ok (ps e)))
    ∧ (∃ s : State, ∃ k d a b : Nat, ∃ i : Issue, ∃ F : Nat → FFmt, ∃ A B : Nat → Src, ∃ ps : Nat → List Post, InSlot s k 3 i ∧ (∀ e ∈ i.dies 3, let c := look s k 3 e
      let r := laneMap (F e).tag (curMask c) (fun j =>
      onElems (F e) (fun y _ _ => sclElem (F e) y (max (-300) (min 300 (sextNat ((B e).v.lane j) 32)))) ((A e).v.lane j) 0 0)
      readFloat c a (enabled (curMask c)) = .ok (F e, A e) ∧ readAs c b .i32 (enabled (curMask c)) = .ok (B e)
      ∧ dstPosts c d 2 r.1 (curMask c) (r.2 ||| (A e).fl ||| (B e).fl) = .ok (ps e))) := by
  refine ⟨?_, ?_, ?_, ?_, ?_⟩
  · refine ⟨(demo 3), 0, 1, 1, 1, ?_⟩
    apply Exists.intro
    refine ⟨(demoIssue 3), ?_⟩
    apply Exists.intro
    apply Exists.intro
    apply And.intro
    · apply someEq (d := SfFn.rcp)
      decide +kernel
    apply And.intro
    · exact ⟨by decide +kernel, rfl, rfl, rfl, rfl, rfl, by decide +kernel⟩
    apply each
    intro e he
    apply And.intro
    · apply okEach (d := src0) e he; decide +kernel
    apply okEach (d := []) e he; decide +kernel
  · refine ⟨(demo 3), 0, 1, 1, 1, 1, ?_⟩
    apply Exists.intro
    refine ⟨(demoIssue 3), ?_⟩
    apply Exists.intro
    apply Exists.intro
    apply Exists.intro
    apply And.intro
    · apply someEq (d := SfFn.rcp)
      decide +kernel
    apply And.intro
    · exact ⟨by decide +kernel, rfl, rfl, rfl, rfl, rfl, by decide +kernel⟩
    apply each
    intro e he
    apply And.intro
    · apply okEach (d := src0) e he; decide +kernel
    apply And.intro
    · apply okEach (d := src0) e he; decide +kernel
    apply okEach (d := []) e he; decide +kernel
  · refine ⟨(demo 3), 0, 2, 1, 512, (demoIssue 3), ?_⟩
    apply Exists.intro
    apply And.intro
    · decide +kernel
    apply And.intro
    · exact ⟨by decide +kernel, rfl, rfl, rfl, rfl, rfl, by decide +kernel⟩
    apply each
    intro e he
    apply And.intro
    · apply okEach (d := 0) e he; decide +kernel
    apply And.intro
    · revert e; decide +kernel
    apply And.intro
    · revert e; decide +kernel
    revert e; decide +kernel
  · refine ⟨(demo 3), 0, 1, 1, 1, (demoIssue 3), ?_⟩
    apply Exists.intro
    apply Exists.intro
    apply Exists.intro
    apply And.intro
    · exact ⟨by decide +kernel, rfl, rfl, rfl, rfl, rfl, by decide +kernel⟩
    apply each
    intro e he
    apply And.intro
    · apply okEach (d := src0) e he; decide +kernel
    apply And.intro
    · apply okEach (d := src0) e he; decide +kernel
    apply okEach (d := []) e he; decide +kernel
  · refine ⟨(demo 3), 0, 1, 1, 5, (demoIssue 3), ?_⟩
    apply Exists.intro
    apply Exists.intro
    apply Exists.intro
    apply Exists.intro
    apply And.intro
    · exact ⟨by decide +kernel, rfl, rfl, rfl, rfl, rfl, by decide +kernel⟩
    apply each
    intro e he
    apply And.intro
    · apply okEach (d := (FFmt.fp32, src0)) e he; decide +kernel
    apply And.intro
    · apply okEach (d := src0) e he; decide +kernel
    apply okEach (d := []) e he; decide +kernel

theorem wit_RowOperations :
    (∃ s : State, ∃ k d a : Nat, ∃ i : Issue, ∃ op : Instr, ∃ node : Nat → Nat → Fl, ∃ z0 : Nat, ∃ A : Nat → Src, ∃ ps : Nat → List Post, ((op, node, z0) ∈ ([(.rowsum d a, add32, 0), (.rowmax d a, maxNode, 0xFF800000)] : List (Instr × (Nat → Nat → Fl) × Nat))) ∧ InSlot s k 3 i ∧ (∀ e ∈ i.dies 3, let c := look s k 3 e
      let r := rowTree node ((List.range 128).map (fun j => if (curMask c).getLsbD j then some ((A e).v.lane j) else none))
      let x := match r.1 with
      | some y => canon32 y
      | none => z0
      readAs c a .fp32 (enabled (curMask c)) = .ok (A e)
      ∧ dstPosts c d 6 (Vec.mk' .fp32 (fun j => if enabled (curMask c) j then x else 0)) (curMask c)
      (r.2 ||| snanFlag (curMask c) (A e).v ||| (A e).fl) = .ok (ps e)))
    ∧ (∃ s : State, ∃ k d a b : Nat, ∃ i : Issue, ∃ A : Nat → Src, ∃ ps : Nat → List Post, InSlot s k 3 i ∧ (∀ e ∈ i.dies 3, let c := look s k 3 e
      let m := curMask c
      let st : List Wf := (List.range 128).map (fun j => if m.getLsbD j then { n := 1, mean := (A e).v.lane j, m2 := 0 } else { n := 0, mean := 0, m2 := 0 })
      let tree := treeFold welfordMerge 7 st
      let q := nth { n := 0, mean := 0, m2 := 0 } tree.1 0
      let r := rowStat st
      let stat : Nat → Nat := fun j => nth 0 [canon32 r.1, canon32 r.2.1, ofInt32 ((List.range 128).filter (fun j => m.getLsbD j)).length, canon32 q.m2] j
      readAs c a .fp32 (enabled m) = .ok (A e)
      ∧ dstPosts c d 8 (Vec.mk' .fp32 (fun j => if m.getLsbD j ∧ j < 4 then stat j else 0)) m
      (tree.2 ||| r.2.2.2 ||| snanFlag m (A e).v ||| (A e).fl) = .ok (ps e)))
    ∧ (∃ s : State, ∃ k d a b : Nat, ∃ i : Issue, ∃ A B : Nat → Src, ∃ na nb : Nat → Nat, ∃ ps : Nat → List Post, InSlot s k 3 i ∧ (∀ e ∈ i.dies 3, let c := look s k 3 e
      let m := curMask c
      let w := welfordMerge { n := na e, mean := (A e).v.lane 0, m2 := (A e).v.lane 3 } { n := nb e, mean := (B e).v.lane 0, m2 := (B e).v.lane 3 }
      let q : Fl := if w.1.n = 0 then (0, 0) else divInt32 w.1.m2 w.1.n
      let sn : Nat → Flags := fun x => if (dec32 x).isSnan then flIV else 0
      let stat : Nat → Nat := fun j => nth 0 [canon32 w.1.mean, canon32 q.1, ofInt32 w.1.n, canon32 w.1.m2] j
      let used : Nat → Bool := fun j => decide (j = 0 ∨ j = 2 ∨ j = 3)
      readAs c a .fp32 used = .ok (A e) ∧ readAs c b .fp32 used = .ok (B e)
      ∧ countOf ((A e).v.lane 2) = some (na e) ∧ countOf ((B e).v.lane 2) = some (nb e)
      ∧ dstPosts c d 8 (Vec.mk' .fp32 (fun j => if m.getLsbD j ∧ j < 4 then stat j else 0)) m
      (w.2 ||| q.2 ||| sn w.1.mean ||| sn w.1.m2 ||| (A e).fl ||| (B e).fl) = .ok (ps e)))
    ∧ (∃ s : State, ∃ k d a b : Nat, ∃ i : Issue, ∃ A B : Nat → Src, ∃ ps : Nat → List Post, InSlot s k 3 i ∧ (∀ e ∈ i.dies 3, let c := look s k 3 e
      let m := curMask c
      let used : Nat → Bool := fun j => decide (j = 0 ∨ j = 2 ∨ j = 3)
      readAs c a .fp32 used = .ok (A e) ∧ readAs c b .fp32 used = .ok (B e)
      ∧ (countOf ((A e).v.lane 2) = none ∨ countOf ((B e).v.lane 2) = none)
      ∧ dstPosts c d 8 (Vec.mk' .fp32 (fun j => if enabled m j ∧ j < 4 then 0x7FC00000 else 0)) m (flIV ||| (A e).fl ||| (B e).fl) = .ok (ps e)))
    ∧ (∃ s : State, ∃ k d a b fn : Nat, ∃ i : Issue, ∃ A B : Nat → Src, ∃ ps : Nat → List Post, fn < 4 ∧ InSlot s k 3 i ∧ (∀ e ∈ i.dies 3, let c := look s k 3 e
      let m := curMask c
      let mOld := if fn < 2 then (B e).v.lane 0 else 0xFF800000
      let sOld := if fn < 2 then (B e).v.lane 1 else 0
      let r := smxPresent c.t.seed mOld sOld m (A e).v
      let nan : Bool := nan32 r.1
      let lanes : Nat → Nat := fun j => if fn % 2 = 1 then (if nan then 0x7FC00000 else r.2.2.2.1 j)
      else nth 0 [r.1, if nan then 0x7FC00000 else r.2.1, if nan then 0x7FC00000 else r.2.2.1] j
      readAs c a .fp32 (enabled m) = .ok (A e)
      ∧ (if fn < 2 then readAs c b .fp32 (fun j => decide (j < 2)) = .ok (B e) else (B e).posts = [] ∧ (B e).fl = 0)
      ∧ dstPosts c d 8 (Vec.mk' .fp32 (fun j => if m.getLsbD j then lanes j else 0)) m (r.2.2.2.2 ||| (A e).fl ||| (B e).fl) = .ok (ps e))) := by
  refine ⟨?_, ?_, ?_, ?_, ?_⟩
  · refine ⟨(demo 3), 0, 1, 1, (demoIssue 3), ?_⟩
    apply Exists.intro
    apply Exists.intro
    apply Exists.intro
    apply Exists.intro
    apply Exists.intro
    apply And.intro
    · exact .head _
    apply And.intro
    · exact ⟨by decide +kernel, rfl, rfl, rfl, rfl, rfl, by decide +kernel⟩
    apply each
    intro e he
    apply And.intro
    · apply okEach (d := src0) e he; decide +kernel
    apply okEach (d := []) e he; decide +kernel
  · refine ⟨(demo 3), 0, 1, 1, 1, (demoIssue 3), ?_⟩
    apply Exists.intro
    apply Exists.intro
    apply And.intro
    · exact ⟨by decide +kernel, rfl, rfl, rfl, rfl, rfl, by decide +kernel⟩
    apply each
    intro e he
    apply And.intro
    · apply okEach (d := src0) e he; decide +kernel
    apply okEach (d := []) e he; decide +kernel
  · refine ⟨(demo 3), 0, 1, 1, 1, (demoIssue 3), ?_⟩
    apply Exists.intro
    apply Exists.intro
    refine ⟨(fun _ => 0), (fun _ => 0), ?_⟩
    apply Exists.intro
    apply And.intro
    · exact ⟨by decide +kernel, rfl, rfl, rfl, rfl, rfl, by decide +kernel⟩
    apply each
    intro e he
    apply And.intro
    · apply okEach (d := src0) e he; decide +kernel
    apply And.intro
    · apply okEach (d := src0) e he; decide +kernel
    apply And.intro
    · revert e; decide +kernel
    apply And.intro
    · revert e; decide +kernel
    apply okEach (d := []) e he; decide +kernel
  · refine ⟨(demoT 3 { demoTile with v := [(1, { tag := .fp32 }), (3, { tag := .fp32, lanes := [0, 0, 0x7FC00000] })] }), 0, 1, 3, 1, (demoIssue 3), ?_⟩
    apply Exists.intro
    apply Exists.intro
    apply Exists.intro
    apply And.intro
    · exact ⟨by decide +kernel, rfl, rfl, rfl, rfl, rfl, by decide +kernel⟩
    apply each
    intro e he
    apply And.intro
    · apply okEach (d := src0) e he; decide +kernel
    apply And.intro
    · apply okEach (d := src0) e he; decide +kernel
    apply And.intro
    · revert e; decide +kernel
    apply okEach (d := []) e he; decide +kernel
  · refine ⟨(demo 3), 0, 1, 1, 1, 1, (demoIssue 3), ?_⟩
    apply Exists.intro
    apply Exists.intro
    apply Exists.intro
    apply And.intro
    · decide +kernel
    apply And.intro
    · exact ⟨by decide +kernel, rfl, rfl, rfl, rfl, rfl, by decide +kernel⟩
    apply each
    intro e he
    apply And.intro
    · apply okEach (d := src0) e he; decide +kernel
    apply And.intro
    · apply okEach (d := src0) e he; decide +kernel
    apply okEach (d := []) e he; decide +kernel

theorem wit_LaneMovementOperations :
    (∃ s : State, ∃ k d a b : Nat, ∃ i : Issue, ∃ A B : Nat → Src, ∃ ps : Nat → List Post, InSlot s k 3 i ∧ (∀ e ∈ i.dies 3, let c := look s k 3 e
      readNonEmpty c a = .ok (A e) ∧ readAs c b .i32 (enabled (curMask c)) = .ok (B e)
      ∧ dstPosts c d 3 (Vec.mk' (A e).v.tag (fun j => (A e).v.lane ((B e).v.lane j % 128))) (curMask c) (B e).fl = .ok (ps e)))
    ∧ (∃ s : State, ∃ k d a b fn : Nat, ∃ i : Issue, ∃ A B : Nat → Src, ∃ v : Nat → Vec, ∃ ps : Nat → List Post, fn < 5 ∧ InSlot s k 3 i ∧ (∀ e ∈ i.dies 3, let c := look s k 3 e
      let x := fun j => (A e).v.lane j
      let y := fun j => (B e).v.lane j
      readNonEmpty c a = .ok (A e) ∧ readExact c b (A e).v.tag = .ok (B e)
      ∧ v e = Vec.mk' (A e).v.tag (fun j => nth 0
      [if j % 2 = 0 then x (j / 2) else y (j / 2), if j % 2 = 0 then x (64 + j / 2) else y (64 + j / 2),
      if j < 64 then x (2 * j) else y (2 * j - 128), if j < 64 then x (2 * j + 1) else y (2 * j - 127),
      if j < 64 then x j else y (j - 64)] fn)
      ∧ dstPosts c d 3 (v e) (curMask c) = .ok (ps e)))
    ∧ (∃ s : State, ∃ k d a b q : Nat, ∃ i : Issue, ∃ A : Nat → Src, ∃ ps : Nat → List Post, q < 7 ∧ InSlot s k 3 i ∧ (∀ e ∈ i.dies 3, let c := look s k 3 e
      readNonEmpty c a = .ok (A e)
      ∧ dstPosts c d 3 (Vec.mk' (A e).v.tag (fun j => (A e).v.lane (j ^^^ 2 ^ q))) (curMask c) = .ok (ps e)))
    ∧ (∃ s : State, ∃ k d a fn : Nat, ∃ i : Issue, ∃ A : Nat → Src, ∃ ps : Nat → List Post, fn < 5 ∧ InSlot s k 3 i ∧ (∀ e ∈ i.dies 3, let c := look s k 3 e
      let t : Tag := if fn ≤ 1 then .fp32 else .i32
      let r := vpfxFrom fn (curMask c) (A e).v (List.range 128) none 0
      readAs c a t (enabled (curMask c)) = .ok (A e)
      ∧ dstPosts c d 5 (Vec.mk' t (fun j => sget 0 r.1 j)) (curMask c) (r.2 ||| (A e).fl) = .ok (ps e)))
    ∧ (∃ m : Mask, ∃ v : Vec, ∃ j : Nat, j < 128 ∧ m.getLsbD j = true)
    ∧ (∃ m : Mask, ∃ v : Vec, ∃ j : Nat, j < 128 ∧ m.getLsbD j = true)
    ∧ (∃ m : Mask, ∃ v : Vec, ∃ j : Nat, j < 128 ∧ m.getLsbD j = false)
    ∧ (∃ s : State, ∃ k d a fn : Nat, ∃ i : Issue, ∃ A : Nat → Src, ∃ ps : Nat → List Post, fn < 9 ∧ InSlot s k 3 i ∧ (∀ e ∈ i.dies 3, let c := look s k 3 e
      let r := vredValue fn (curMask c) (A e).v
      readAs c a (if fn ≤ 2 ∨ fn = 8 then .fp32 else .i32) (enabled (curMask c)) = .ok (A e)
      ∧ dstPosts c d 6 (Vec.mk' (if fn ≤ 2 then .fp32 else .i32) (fun j => if j = 0 then r.1 else 0)) (curMask c) (r.2 ||| (A e).fl) = .ok (ps e)))
    ∧ (∃ s : State, ∃ k d a b fn : Nat, ∃ i : Issue, ∃ A B : Nat → Src, ∃ best : Nat → List (Nat × Nat × Nat), ∃ ps : Nat → List Post, fn < 32 ∧ InSlot s k 3 i ∧ (∀ e ∈ i.dies 3, let c := look s k 3 e
      best e = (rankSort ((List.range 128).filterMap (fun j =>
      if enabled (curMask c) j then some ((A e).v.lane j, (B e).v.lane j, j) else none))).take (fn % 16 + 1)
      ∧ readAs c a .fp32 (enabled (curMask c)) = .ok (A e) ∧ readAs c b .i32 (enabled (curMask c)) = .ok (B e)
      ∧ dstPosts c d 8 (if 16 ≤ fn then Vec.mk' .i32 (fun j => ((best e).map (fun q => q.2.1)).getD j 0xFFFFFFFF)
      else Vec.mk' .fp32 (fun j => ((best e).map (fun q => q.1)).getD j 0xFF800000)) (curMask c) ((A e).fl ||| (B e).fl) = .ok (ps e)))
    ∧ (∃ l : List (Nat × Nat × Nat), (∀ q ∈ l, q.1 < 2 ^ 32 ∧ q.2.1 < 2 ^ 32))
    ∧ (∃ x y : Nat, nan32 x = true)
    ∧ (∃ x y : Nat, nan32 x = false ∧ nan32 y = true)
    ∧ (∃ x y : Nat, nan32 x = false ∧ nan32 y = false) := by
  refine ⟨?_, ?_, ?_, ?_, ?_, ?_, ?_, ?_, ?_, ?_, ?_, ?_, ?_⟩
  · refine ⟨(demo 3), 0, 1, 1, 5, (demoIssue 3), ?_⟩
    apply Exists.intro
    apply Exists.intro
    apply Exists.intro
    apply And.intro
    · exact ⟨by decide +kernel, rfl, rfl, rfl, rfl, rfl, by decide +kernel⟩
    apply each
    intro e he
    apply And.intro
    · apply okEach (d := src0) e he; decide +kernel
    apply And.intro
    · apply okEach (d := src0) e he; decide +kernel
    apply okEach (d := []) e he; decide +kernel
  · refine ⟨(demo 3), 0, 1, 1, 1, 1, (demoIssue 3), ?_⟩
    apply Exists.intro
    apply Exists.intro
    apply Exists.intro
    apply Exists.intro
    apply And.intro
    · decide +kernel
    apply And.intro
    · exact ⟨by decide +kernel, rfl, rfl, rfl, rfl, rfl, by decide +kernel⟩
    apply each
    intro e he
    apply And.intro
    · apply okEach (d := src0) e he; decide +kernel
    apply And.intro
    · apply okEach (d := src0) e he; decide +kernel
    apply And.intro
    · rfl
    apply okEach (d := []) e he; decide +kernel
  · refine ⟨(demo 3), 0, 1, 1, 1, 1, (demoIssue 3), ?_⟩
    apply Exists.intro
    apply Exists.intro
    apply And.intro
    · decide +kernel
    apply And.intro
    · exact ⟨by decide +kernel, rfl, rfl, rfl, rfl, rfl, by decide +kernel⟩
    apply each
    intro e he
    apply And.intro
    · apply okEach (d := src0) e he; decide +kernel
    apply okEach (d := []) e he; decide +kernel
  · refine ⟨(demo 3), 0, 1, 1, 1, (demoIssue 3), ?_⟩
    apply Exists.intro
    apply Exists.intro
    apply And.intro
    · decide +kernel
    apply And.intro
    · exact ⟨by decide +kernel, rfl, rfl, rfl, rfl, rfl, by decide +kernel⟩
    apply each
    intro e he
    apply And.intro
    · apply okEach (d := src0) e he; decide +kernel
    apply okEach (d := []) e he; decide +kernel
  · refine ⟨allOnes, {}, 1, ?_⟩
    apply And.intro
    · decide +kernel
    decide +kernel
  · refine ⟨allOnes, {}, 1, ?_⟩
    apply And.intro
    · decide +kernel
    decide +kernel
  · refine ⟨0, {}, 1, ?_⟩
    apply And.intro
    · decide +kernel
    decide +kernel
  · refine ⟨(demo 3), 0, 1, 1, 1, (demoIssue 3), ?_⟩
    apply Exists.intro
    apply Exists.intro
    apply And.intro
    · decide +kernel
    apply And.intro
    · exact ⟨by decide +kernel, rfl, rfl, rfl, rfl, rfl, by decide +kernel⟩
    apply each
    intro e he
    apply And.intro
    · apply okEach (d := src0) e he; decide +kernel
    apply okEach (d := []) e he; decide +kernel
  · refine ⟨(demo 3), 0, 1, 1, 5, 1, (demoIssue 3), ?_⟩
    apply Exists.intro
    apply Exists.intro
    apply Exists.intro
    apply Exists.intro
    apply And.intro
    · decide +kernel
    apply And.intro
    · exact ⟨by decide +kernel, rfl, rfl, rfl, rfl, rfl, by decide +kernel⟩
    apply each
    intro e he
    apply And.intro
    · rfl
    apply And.intro
    · apply okEach (d := src0) e he; decide +kernel
    apply And.intro
    · apply okEach (d := src0) e he; decide +kernel
    apply okEach (d := []) e he; decide +kernel
  · refine ⟨[(1, 2, 3)], ?_⟩
    decide +kernel
  · refine ⟨0x7FC00000, 1, ?_⟩
    decide +kernel
  · refine ⟨1, 0x7FC00000, ?_⟩
    apply And.intro
    · decide +kernel
    decide +kernel
  · refine ⟨1, 1, ?_⟩
    apply And.intro
    · decide +kernel
    decide +kernel

theorem wit_AccumulatorOperations :
    (∃ s : State, ∃ k a b r h lat : Nat, ∃ i : Issue, ∃ op : Instr, ∃ mk : List Nat → Eff, ∃ A : Nat → Src, ((op, lat, mk) ∈ ([(.acc a b r h, 4, fun l => .accAdd b r (128 * h) l), (.acwr a b r h, 2, fun l => .accSet b r (128 * h) l)]
      : List (Instr × Nat × (List Nat → Eff)))) ∧ InSlot s k 4 i ∧ (∀ e ∈ i.dies 4, readAs (look s k 4 e) a .fp32 = .ok (A e)))
    ∧ (∃ s : State, ∃ k d b r h : Nat, ∃ i : Issue, ∃ op : Instr, ∃ tail : List Post, ∃ ps : Nat → List Post, (op, tail) ∈ ([(.acrd d b r h, []), (.drain d b r h 0, []),
      (.drain d b r h 1, [{ lat := 0, eff := .accSet b r (128 * h) (List.replicate 128 0) }])] : List (Instr × List Post)) ∧ InSlot s k 4 i ∧ (∀ e ∈ i.dies 4, let c := look s k 4 e
      dstPosts c d 4 (Vec.mk' .fp32 (fun j => c.t.accAt b r (128 * h + j))) allOnes = .ok (ps e)))
    ∧ (∃ s : State, ∃ k b r n : Nat, ∃ i : Issue, InSlot s k 4 i)
    ∧ (∃ s : State, ∃ k : Nat, ∃ i : Issue, InSlot s k 4 i)
    ∧ (∃ s : State, ∃ k x side g : Nat, ∃ i : Issue, ∃ v : Nat → DWord, InSlot s k 1 i ∧ (∀ e ∈ i.dies 1, rx (look s k 1 e) x = .ok (v e)))
    ∧ (∃ t : Tile, ∃ b r c0 : Nat, ∃ vals : List Nat, ∃ b' r' c : Nat, r < 192 ∧ r' < 192 ∧ c < 256 ∧ c0 + vals.length ≤ 256)
    ∧ (∃ t : Tile, ∃ b r n b' r' c : Nat, r + n ≤ 192 ∧ r' < 192 ∧ c < 256) := by
  refine ⟨?_, ?_, ?_, ?_, ?_, ?_, ?_⟩
  · refine ⟨(demo 4), 0, 1, 1, 1, 1, ?_⟩
    apply Exists.intro
    refine ⟨(demoIssue 4), ?_⟩
    apply Exists.intro
    apply Exists.intro
    apply Exists.intro
    apply And.intro
    · exact .head _
    apply And.intro
    · exact ⟨by decide +kernel, rfl, rfl, rfl, rfl, rfl, by decide +kernel⟩
    apply each
    intro e he
    apply okEach (d := src0) e he; decide +kernel
  · refine ⟨(demo 4), 0, 1, 1, 1, 1, (demoIssue 4), ?_⟩
    apply Exists.intro
    apply Exists.intro
    apply Exists.intro
    apply And.intro
    · exact .head _
    apply And.intro
    · exact ⟨by decide +kernel, rfl, rfl, rfl, rfl, rfl, by decide +kernel⟩
    apply each
    intro e he
    apply okEach (d := []) e he; decide +kernel
  · refine ⟨(demo 4), 0, 1, 1, 1, (demoIssue 4), ?_⟩
    exact ⟨by decide +kernel, rfl, rfl, rfl, rfl, rfl, by decide +kernel⟩
  · refine ⟨(demo 4), 0, (demoIssue 4), ?_⟩
    exact ⟨by decide +kernel, rfl, rfl, rfl, rfl, rfl, by decide +kernel⟩
  · refine ⟨(demo 1), 0, 1, 1, 1, (demoIssue 1), ?_⟩
    apply Exists.intro
    apply And.intro
    · exact ⟨by decide +kernel, rfl, rfl, rfl, rfl, rfl, by decide +kernel⟩
    apply each
    intro e he
    apply okEach (d := 0) e he; decide +kernel
  · refine ⟨demoTile, 1, 1, 1, [1], 1, 1, 1, ?_⟩
    apply And.intro
    · decide +kernel
    apply And.intro
    · decide +kernel
    apply And.intro
    · decide +kernel
    decide +kernel
  · refine ⟨demoTile, 1, 1, 1, 1, 1, 1, ?_⟩
    apply And.intro
    · decide +kernel
    apply And.intro
    · decide +kernel
    decide +kernel

theorem wit_MatrixOperations :
    (∃ s : State, ∃ k a fmt row : Nat, ∃ i : Issue, ∃ v : Nat → List Nat, ∃ ps : Nat → List Post, InSlot s k 4 i ∧ (∀ e ∈ i.dies 4, let c := look s k 4 e
      readRow c a fmt = .ok (.float (v e), ps e) ∧ planeFmtMatch c.t.shadowPlane fmt false = true))
    ∧ (∃ s : State, ∃ k a fmt row : Nat, ∃ i : Issue, ∃ v : Nat → List Int, ∃ ps : Nat → List Post, InSlot s k 4 i ∧ (∀ e ∈ i.dies 4, let c := look s k 4 e
      let p := (sget 0 c.t.sb (a - 40)).toNat + row / 16 * matK fmt
      readRow c a fmt = .ok (.raw (v e), ps e) ∧ planeFmtMatch c.t.shadowPlane fmt true = true
      ∧ p + matK fmt ≤ 2 ^ 22 ∧ BanksOpen c c.u p (matK fmt)))
    ∧ (∃ s : State, ∃ k a fmt bank row h : Nat, ∃ i : Issue, ∃ v : Nat → List Int, ∃ ps : Nat → List Post, InSlot s k 4 i ∧ (∀ e ∈ i.dies 4, let c := look s k 4 e
      let q := (sget 0 c.t.sa (a - 40)).toNat
      readRow c a fmt = .ok (.raw (v e), ps e) ∧ c.t.livePlane.isOpen = false ∧ matB c.t.livePlane.fmt = matB fmt
      ∧ q + matK fmt / 16 ≤ 2 ^ 22 ∧ BanksOpen c c.u q (matK fmt / 16)))
    ∧ (∃ s : State, ∃ k a fmt bank row h : Nat, ∃ i : Issue, ∃ v : Nat → List Nat, ∃ ps : Nat → List Post, InSlot s k 4 i ∧ (∀ e ∈ i.dies 4, let c := look s k 4 e
      readRow c a fmt = .ok (.float (v e), ps e) ∧ c.t.livePlane.isOpen = false ∧ matB c.t.livePlane.fmt = matB fmt)) := by
  refine ⟨?_, ?_, ?_, ?_⟩
  · refine ⟨(demo 4), 0, 1, 3, 1, (demoIssue 4), (fun e => (floatOf (readRow (look (demo 4) 0 4 e) 1 3)).1), (fun e => (floatOf (readRow (look (demo 4) 0 4 e) 1 3)).2), ?_⟩
    apply And.intro
    · exact ⟨by decide +kernel, rfl, rfl, rfl, rfl, rfl, by decide +kernel⟩
    apply each
    intro e he
    exact ⟨floatEq (X := fun e => readRow (look (demo 4) 0 4 e) 1 3) e he (by decide +kernel), by revert e; decide +kernel⟩
  · refine ⟨(demoT 4 { demoTile with plane0 := { isOpen := false, fmt := 1, raw := true }, plane1 := { isOpen := false, fmt := 1 }, walk := [(0, { ctrl := 17 })] }), 0, 40, 1, 1, (demoIssue 4), (fun e => (rawOf (readRow (look (demoT 4 { demoTile with plane0 := { isOpen := false, fmt := 1, raw := true }, plane1 := { isOpen := false, fmt := 1 }, walk := [(0, { ctrl := 17 })] }) 0 4 e) 40 1)).1), (fun e => (rawOf (readRow (look (demoT 4 { demoTile with plane0 := { isOpen := false, fmt := 1, raw := true }, plane1 := { isOpen := false, fmt := 1 }, walk := [(0, { ctrl := 17 })] }) 0 4 e) 40 1)).2), ?_⟩
    apply And.intro
    · exact ⟨by decide +kernel, rfl, rfl, rfl, rfl, rfl, by decide +kernel⟩
    apply each
    intro e he
    exact ⟨rawEq (X := fun e => readRow (look (demoT 4 { demoTile with plane0 := { isOpen := false, fmt := 1, raw := true }, plane1 := { isOpen := false, fmt := 1 }, walk := [(0, { ctrl := 17 })] }) 0 4 e) 40 1) e he (by decide +kernel), by revert e; decide +kernel, by revert e; decide +kernel, by revert e; decide +kernel⟩
  · refine ⟨(demoT 4 { demoTile with plane0 := { isOpen := false, fmt := 1, raw := true }, plane1 := { isOpen := false, fmt := 1 }, walk := [(0, { ctrl := 17 })] }), 0, 40, 1, 1, 0, 0, (demoIssue 4), (fun e => (rawOf (readRow (look (demoT 4 { demoTile with plane0 := { isOpen := false, fmt := 1, raw := true }, plane1 := { isOpen := false, fmt := 1 }, walk := [(0, { ctrl := 17 })] }) 0 4 e) 40 1)).1), (fun e => (rawOf (readRow (look (demoT 4 { demoTile with plane0 := { isOpen := false, fmt := 1, raw := true }, plane1 := { isOpen := false, fmt := 1 }, walk := [(0, { ctrl := 17 })] }) 0 4 e) 40 1)).2), ?_⟩
    apply And.intro
    · exact ⟨by decide +kernel, rfl, rfl, rfl, rfl, rfl, by decide +kernel⟩
    apply each
    intro e he
    exact ⟨rawEq (X := fun e => readRow (look (demoT 4 { demoTile with plane0 := { isOpen := false, fmt := 1, raw := true }, plane1 := { isOpen := false, fmt := 1 }, walk := [(0, { ctrl := 17 })] }) 0 4 e) 40 1) e he (by decide +kernel), by revert e; decide +kernel, by revert e; decide +kernel, by revert e; decide +kernel, by revert e; decide +kernel⟩
  · refine ⟨(demoT 4 { demoTile with plane0 := { isOpen := false, fmt := 3, raw := true }, plane1 := { isOpen := false, fmt := 3 }, walk := [(0, { ctrl := 17 })] }), 0, 1, 3, 0, 0, 0, (demoIssue 4), (fun e => (floatOf (readRow (look (demoT 4 { demoTile with plane0 := { isOpen := false, fmt := 3, raw := true }, plane1 := { isOpen := false, fmt := 3 }, walk := [(0, { ctrl := 17 })] }) 0 4 e) 1 3)).1), (fun e => (floatOf (readRow (look (demoT 4 { demoTile with plane0 := { isOpen := false, fmt := 3, raw := true }, plane1 := { isOpen := false, fmt := 3 }, walk := [(0, { ctrl := 17 })] }) 0 4 e) 1 3)).2), ?_⟩
    apply And.intro
    · exact ⟨by decide +kernel, rfl, rfl, rfl, rfl, rfl, by decide +kernel⟩
    apply each
    intro e he
    exact ⟨floatEq (X := fun e => readRow (look (demoT 4 { demoTile with plane0 := { isOpen := false, fmt := 3, raw := true }, plane1 := { isOpen := false, fmt := 3 }, walk := [(0, { ctrl := 17 })] }) 0 4 e) 1 3) e he (by decide +kernel), by revert e; decide +kernel, by revert e; decide +kernel⟩

theorem wit_LoadsAndStores :
    (∃ s : State, ∃ k d x w off size : Nat, ∃ sx : Bool, ∃ i : Issue, ∃ v : Nat → DWord, ∃ pa : Nat → Nat, ∃ nc : Nat → Bool, ∃ ps : Nat → List Post, (w, size, sx) ∈ ([(0, 1, false), (1, 2, false), (2, 4, false), (3, 8, false), (4, 1, true), (5, 2, true), (6, 4, true)]
      : List (Nat × Nat × Bool)) ∧ InSlot s k 1 i ∧ (∀ e ∈ i.dies 1, rx (look s k 1 e) x = .ok (v e) ∧
      accessCheck (look s k 1 e) (v e + BitVec.ofInt 64 (sextNat off 11)).toNat size size 0 = .ok (pa e, nc e, ps e)))
    ∧ (∃ s : State, ∃ k b x w off size : Nat, ∃ i : Issue, ∃ v y : Nat → DWord, ∃ pa : Nat → Nat, ∃ nc : Nat → Bool, ∃ ps : Nat → List Post, (w, size) ∈ ([(0, 1), (1, 2), (2, 4), (3, 8)] : List (Nat × Nat)) ∧ InSlot s k 1 i ∧ (∀ e ∈ i.dies 1, rx (look s k 1 e) x = .ok (v e) ∧ rx (look s k 1 e) b = .ok (y e) ∧
      accessCheck (look s k 1 e) (v e + BitVec.ofInt 64 (sextNat off 11)).toNat size size 1 = .ok (pa e, nc e, ps e)))
    ∧ (∃ s : State, ∃ e : Entry, ∃ d pa size : Nat, ∃ sx nc : Bool, e.eff = .load d pa size sx nc ∧ size ∈ [1, 2, 4, 8])
    ∧ (∃ s : State, ∃ e : Entry, ∃ d pa size : Nat, ∃ sx nc : Bool, e.eff = .load d pa size sx nc ∧ size ∈ [1, 2, 4, 8])
    ∧ (∃ c : OpCtx, ∃ va : Int, ∃ size kind : Nat, (va < 0 ∨ 2 ^ 56 ≤ va))
    ∧ (∃ c : OpCtx, ∃ va size kind : Nat, va < 2 ^ 56 ∧ (¬ size ∣ va)) := by
  refine ⟨?_, ?_, ?_, ?_, ?_, ?_⟩
  · refine ⟨(demo 1), 0, 1, 1, ?_⟩
    apply Exists.intro
    refine ⟨1, ?_⟩
    apply Exists.intro
    apply Exists.intro
    refine ⟨(demoIssue 1), ?_⟩
    apply Exists.intro
    apply Exists.intro
    apply Exists.intro
    apply Exists.intro
    apply And.intro
    · exact .head _
    apply And.intro
    · exact ⟨by decide +kernel, rfl, rfl, rfl, rfl, rfl, by decide +kernel⟩
    apply each
    intro e he
    apply And.intro
    · apply okEach (d := 0) e he; decide +kernel
    apply okEach (d := (0, false, [])) e he; decide +kernel
  · refine ⟨(demo 1), 0, 1, 1, ?_⟩
    apply Exists.intro
    refine ⟨1, ?_⟩
    apply Exists.intro
    refine ⟨(demoIssue 1), ?_⟩
    apply Exists.intro
    apply Exists.intro
    apply Exists.intro
    apply Exists.intro
    apply Exists.intro
    apply And.intro
    · exact .head _
    apply And.intro
    · exact ⟨by decide +kernel, rfl, rfl, rfl, rfl, rfl, by decide +kernel⟩
    apply each
    intro e he
    apply And.intro
    · apply okEach (d := 0) e he; decide +kernel
    apply And.intro
    · apply okEach (d := 0) e he; decide +kernel
    apply okEach (d := (0, false, [])) e he; decide +kernel
  · refine ⟨(demo 1), ({ due := 1, issue := 0, slot := 1, unit := 0, eff := .load 1 64 8 true true } : Entry), 1, 64, 8, true, true, ?_⟩
    apply And.intro
    · decide +kernel
    decide +kernel
  · refine ⟨(demo 1), ({ due := 1, issue := 0, slot := 1, unit := 0, eff := .load 1 64 8 true true } : Entry), 1, 64, 8, true, true, ?_⟩
    apply And.intro
    · decide +kernel
    decide +kernel
  · refine ⟨look (demo 1) 0 1 0, 2 ^ 56, 1, 1, ?_⟩
    decide +kernel
  · refine ⟨look (demo 1) 0 1 0, 4, 8, 1, ?_⟩
    apply And.intro
    · decide +kernel
    decide +kernel

theorem wit_StoreLanding :
    (∃ s : State, ∃ e : Entry, ∃ cells : List (Nat × Byte), ∃ nc : Bool, ∃ a : Nat, e.eff = .mem cells nc ∧ e.fl = 0 ∧ e.mx = 0 ∧ (sget [] s.l2 (e.unit % 4)).length + cells.length ≤ columnLines ∧ (∀ c ∈ cells, c.1 ≠ a))
    ∧ (∃ s : State, ∃ e : Entry, ∃ cells : List (Nat × Byte), ∃ nc : Bool, ∃ u : Nat, e.eff = .mem cells nc ∧ e.fl = 0 ∧ e.mx = 0)
    ∧ (∃ s : State, ∃ e : Entry, ∃ pa : Nat, ∃ bs : List Byte, ∃ nc : Bool, ∃ j : Nat, e.eff = .mem (cellsAt pa bs) nc ∧ e.fl = 0 ∧ e.mx = 0 ∧ j < bs.length ∧ (256 ≤ e.unit ∨ nc = true ∨ ∀ c ∈ cellsAt pa bs, s.isAtomic (c.1 / 64) = true ∨ homeDie (c.1 / 64) ≠ e.unit % 4))
    ∧ (∃ s : State, ∃ u a : Nat, ∃ b : Byte, u < 256 ∧ s.isAtomic (a / 64) = false ∧ homeDie (a / 64) = u % 4 ∧ ((sget [] s.l2 (u % 4)).length < columnLines ∨ (s.l2Line (u % 4) (a / 64)).held = true))
    ∧ (∃ s : State, ∃ u a : Nat, ∃ b : Byte, u < 256 ∧ s.isAtomic (a / 64) = false ∧ homeDie (a / 64) = u % 4 ∧ ((sget [] s.l2 (u % 4)).length < columnLines ∨ (s.l2Line (u % 4) (a / 64)).held = true) ∧
      let l := s.l2Line (u % 4) (a / 64)

      let l' := (s.storeByte u false (a, b)).l2Line (u % 4) (a / 64)
      (l.held = false ∨ l.bytes.length = 64))
    ∧ (∃ s : State, ∃ u a : Nat, ∃ b : Byte, u < 256 ∧ s.isAtomic (a / 64) = false ∧ homeDie (a / 64) = u % 4 ∧ ((sget [] s.l2 (u % 4)).length < columnLines ∨ (s.l2Line (u % 4) (a / 64)).held = true))
    ∧ (∃ s : State, ∃ u a : Nat, ∃ b : Byte, ∃ nc : Bool, u < 256 ∧ (nc = true ∨ s.isAtomic (a / 64) = true ∨ homeDie (a / 64) ≠ u % 4) ∧ homeDie (a / 64) ≠ u % 4)
    ∧ (∃ s : State, ∃ u a : Nat, ∃ b : Byte, ∃ nc : Bool, u < 256 ∧ (nc = true ∨ s.isAtomic (a / 64) = true ∨ homeDie (a / 64) ≠ u % 4) ∧ ∃ key ln, (homeDie (a / 64) = u % 4 ∨ key ≠ aditKey (u % 4) (homeDie (a / 64)) ∨ ln ≠ a / 64))
    ∧ (∃ s : State, ∃ u a : Nat, ∃ b : Byte, ∃ nc : Bool, u < 256 ∧ (nc = true ∨ s.isAtomic (a / 64) = true ∨ homeDie (a / 64) ≠ u % 4))
    ∧ (∃ s : State, ∃ u a : Nat, ∃ b : Byte, ∃ d ln : Nat, ((sget [] s.l2 (u % 4)).length < columnLines ∨ (s.l2Line (u % 4) (a / 64)).held = true) ∧ (d ≠ u % 4 ∨ ln ≠ a / 64))
    ∧ (∃ s : State, ∃ d ln a : Nat, sget false (s.l2Line d ln).dirty (a % 64) = false) := by
  refine ⟨?_, ?_, ?_, ?_, ?_, ?_, ?_, ?_, ?_, ?_, ?_⟩
  · refine ⟨(demo 1), ({ due := 1, issue := 0, slot := 1, unit := 0, eff := .mem [(64, 7)] true } : Entry), [(64, 7)], true, 1, ?_⟩
    apply And.intro
    · decide +kernel
    apply And.intro
    · decide +kernel
    apply And.intro
    · decide +kernel
    apply And.intro
    · decide +kernel
    decide +kernel
  · refine ⟨(demo 1), ({ due := 1, issue := 0, slot := 1, unit := 0, eff := .mem [(64, 7)] true } : Entry), [(64, 7)], true, 1, ?_⟩
    apply And.intro
    · decide +kernel
    apply And.intro
    · decide +kernel
    decide +kernel
  · refine ⟨(demo 1), ({ due := 1, issue := 0, slot := 1, unit := 0, eff := .mem (cellsAt 1 [1, 2]) true } : Entry), 1, [1, 2], true, 1, ?_⟩
    apply And.intro
    · decide +kernel
    apply And.intro
    · decide +kernel
    apply And.intro
    · decide +kernel
    apply And.intro
    · decide +kernel
    decide +kernel
  · refine ⟨(demo 1), (homeDie 0), 0, 7, ?_⟩
    apply And.intro
    · show Config.homeStack 0 % 8 / 2 < 256
      omega
    apply And.intro
    · decide +kernel
    apply And.intro
    · show Config.homeStack 0 % 8 / 2 = Config.homeStack 0 % 8 / 2 % 4
      omega
    decide +kernel
  · refine ⟨(demo 1), (homeDie 0), 0, 7, ?_⟩
    apply And.intro
    · show Config.homeStack 0 % 8 / 2 < 256
      omega
    apply And.intro
    · decide +kernel
    apply And.intro
    · show Config.homeStack 0 % 8 / 2 = Config.homeStack 0 % 8 / 2 % 4
      omega
    apply And.intro
    · decide +kernel
    decide +kernel
  · refine ⟨(demo 1), (homeDie 0), 0, 7, ?_⟩
    apply And.intro
    · show Config.homeStack 0 % 8 / 2 < 256
      omega
    apply And.intro
    · decide +kernel
    apply And.intro
    · show Config.homeStack 0 % 8 / 2 = Config.homeStack 0 % 8 / 2 % 4
      omega
    decide +kernel
  · refine ⟨(demo 1), ((homeDie 0 + 1) % 4), 0, 7, true, ?_⟩
    apply And.intro
    · show (Config.homeStack 0 % 8 / 2 + 1) % 4 < 256
      omega
    apply And.intro
    · exact Or.inl rfl
    show Config.homeStack 0 % 8 / 2 ≠ (Config.homeStack 0 % 8 / 2 + 1) % 4 % 4
    omega
  · refine ⟨(demo 1), 1, 0, 7, true, ?_⟩
    apply And.intro
    · decide +kernel
    apply And.intro
    · exact Or.inl rfl
    refine ⟨1, 5, ?_⟩
    exact Or.inr (Or.inr (by decide))
  · refine ⟨(demo 1), 1, 1, 7, true, ?_⟩
    apply And.intro
    · decide +kernel
    decide +kernel
  · refine ⟨(demo 1), 1, 1, 7, 1, 1, ?_⟩
    apply And.intro
    · decide +kernel
    decide +kernel
  · refine ⟨(demo 1), 1, 1, 1, ?_⟩
    decide +kernel

/-! The clauses whose hypotheses rest on what Config leaves open: a LOOPL's argument block (log 34), and a signature, a digest and
the rollback floor (log 7). -/

/-- A LOOPL of a loop kernel's image at 4096 (one bucket, its table at 4352) with the sequence table at 12288. -/
def looplBytes : List Byte := pktBytes [(0, 2), (17, 16), (25, 48)]
def looplImage : Memory :=
  [(4096, 75), (4097, 69), (4098, 82), (4099, 78), (4100, 1), (4102, 1), (4104, 1), (4120, 64), (4145, 1), (4162, 1), (4168, 128),
   (4225, 2), (4232, 1), (4348, 1), (4352, 3), (12292, 1)]
def looplFront : State := inFront [(0, 2), (17, 16), (25, 48)] looplImage
theorem wit_KernelLaunch_loopl (h : Config.looplArgs looplBytes = 8192) :
    ∃ (s : State) (p : Nat) (a : Plan), s.hub.hand = some p ∧ s.hub.fenced = false ∧ pOP (s.pkt p).bytes = 2
      ∧ planOf s (s.pkt p).cid (s.pkt p).bytes [] = .ok a ∧ (a.img.cores.map (·.core)).Nodup := by
  have ha : argsOf looplBytes = 8192 := by
    unfold argsOf
    rw [h]
    decide +kernel
  have hp : isOk (planOf looplFront 0 looplBytes []) = true ∧ ((okD plan0 (planOf looplFront 0 looplBytes [])).img.cores.map (·.core)).Nodup := by
    unfold planOf
    rw [ha]
    decide +kernel
  exact ⟨looplFront, 1, okD plan0 (planOf looplFront 0 looplBytes []), by decide +kernel, rfl, by decide +kernel, okEq hp.1, hp.2⟩

/-- A manifest of fill byte `b` before its key number 0, and an image of it. -/
def fwImage (b : Byte) (lay : Nat) : FwImage := { manifest := [b, 0, 0, 0, 0, 0, 0, 0, 0, 0], base := 0, body := [], size := 0, layouts := lay, version := 1 }
/-- Firmware image `i` is in verification; context 0 holds a save of layout 1. -/
def fwState (i : FwImage) : State :=
  { paged with ctxs := [(0, { st := .preempted, saved := some { layout := 1 } })], hub := { fwPhase := 1, pendImage := some i } }
/-- What R437 asks of the signature and of the digest. -/
def fwSigned (i : FwImage) : Prop :=
  field i.manifest 9 1 < 8 ∧ Config.signatureOk (field i.manifest 9 1) ((i.manifest.drop 128).take 64) (leBytes 64 (Config.sha512 (i.manifest.take 128))) = true
def fwWhole (i : FwImage) : Prop := field i.manifest 64 64 = Config.sha512 i.body % 2 ^ 512
def fwKept (s : State) (i : FwImage) : Prop := ∀ x ∈ s.ctxs, ∀ v, x.2.saved = some v → bitOf i.layouts v.layout = true
theorem wit_Platform_verification (hs : fwSigned (fwImage 0 2) ∧ fwSigned (fwImage 0 0)) (hw : fwWhole (fwImage 0 2) ∧ fwWhole (fwImage 0 0)) :
    (Config.rollbackFloor > 1 → ∃ (s : State) (i : FwImage), s.hub.pendImage = some i ∧ s.hub.fwPhase = 1 ∧ fwSigned i ∧ fwWhole i ∧ i.version < Config.rollbackFloor)
    ∧ (Config.rollbackFloor ≤ 1 → ∃ (s : State) (i : FwImage),
        s.hub.pendImage = some i ∧ s.hub.fwPhase = 1 ∧ fwSigned i ∧ fwWhole i ∧ Config.rollbackFloor ≤ i.version ∧ ¬ fwKept s i)
    ∧ (Config.rollbackFloor ≤ 1 → ∃ (s : State) (i : FwImage),
        s.hub.pendImage = some i ∧ s.hub.fwPhase = 1 ∧ fwSigned i ∧ fwWhole i ∧ Config.rollbackFloor ≤ i.version ∧ fwKept s i) := by
  refine ⟨fun h => ⟨fwState (fwImage 0 2), fwImage 0 2, rfl, rfl, hs.1, hw.1, h⟩, fun h => ⟨fwState (fwImage 0 0), fwImage 0 0, rfl, rfl, hs.2, hw.2, h, ?_⟩,
    fun h => ⟨fwState (fwImage 0 2), fwImage 0 2, rfl, rfl, hs.1, hw.1, h, ?_⟩⟩
  · unfold fwKept
    decide +kernel
  · unfold fwKept
    decide +kernel
theorem wit_Platform_digest (hs : fwSigned (fwImage 0 2)) (hw : ¬ fwWhole (fwImage 0 2)) :
    ∃ (s : State) (i : FwImage), s.hub.pendImage = some i ∧ s.hub.fwPhase = 1 ∧ fwSigned i ∧ ¬ fwWhole i :=
  ⟨fwState (fwImage 0 2), fwImage 0 2, rfl, rfl, hs, hw⟩

end Sys2Proof.Tests
end

section
/-! The canonical form of the memory (O44): one lemma for each operation over the state, "it keeps the form". -/
namespace Sys2Proof.Proofs
open Laws
open Machine hiding Wf

/-- A change of other fields keeps the form. -/
theorem wf_mk {s : State} {tiles : SMap Tile} {cores : SMap CoreRec} {l2 adit : SMap (SMap Line)} {ao : SMap Bool}
    {dieTlb : SMap (List TlbEntry)} {walks : SMap (List WalkEntry)} {ctxs : SMap Ctx} {hub : Hub} {ptime : Nat} {turn : Actor}
    {sched : List Choice} {n : Nat} (h : Wf s) : Wf ⟨tiles, cores, s.mem, l2, adit, ao, dieTlb, walks, ctxs, hub, ptime, turn, sched, n⟩ := h

theorem wf_setTile {s : State} {u : Nat} {t : Tile} (h : Wf s) : Wf (s.setTile u t) := h

theorem wf_modTile {s : State} {u : Nat} {f : Tile → Tile} (h : Wf s) : Wf (s.modTile u f) := h

theorem wf_setCore {s : State} {k : Nat} {c : CoreRec} (h : Wf s) : Wf (s.setCore k c) := h

theorem wf_modCore {s : State} {k : Nat} {f : CoreRec → CoreRec} (h : Wf s) : Wf (s.modCore k f) := h

theorem wf_setCtx {s : State} {c : Nat} {x : Ctx} (h : Wf s) : Wf (s.setCtx c x) := h

theorem wf_modCtx {s : State} {c : Nat} {f : Ctx → Ctx} (h : Wf s) : Wf (s.modCtx c f) := h

theorem wf_setColt {s : State} {c : Nat} {r : ColtRec} (h : Wf s) : Wf (s.setColt c r) := h

theorem wf_modColt {s : State} {c : Nat} {f : ColtRec → ColtRec} (h : Wf s) : Wf (s.modColt c f) := h

theorem wf_setGroup {s : State} {kern : Nat} {g : Group} (h : Wf s) : Wf (s.setGroup kern g) := h

theorem wf_modGroup {s : State} {kern : Nat} {f : Group → Group} (h : Wf s) : Wf (s.modGroup kern f) := h

theorem wf_setPkt {s : State} {p : Nat} {k : Pkt} (h : Wf s) : Wf (s.setPkt p k) := h

theorem wf_setQueue {s : State} {q : Nat} {v : Queue} (h : Wf s) : Wf (s.setQueue q v) := h

theorem wf_modQueue {s : State} {q : Nat} {f : Queue → Queue} (h : Wf s) : Wf (s.modQueue q f) := h

theorem wf_setGang {s : State} {g : Nat} {v : Gang} (h : Wf s) : Wf (s.setGang g v) := h

theorem wf_modGang {s : State} {g : Nat} {f : Gang → Gang} (h : Wf s) : Wf (s.modGang g f) := h

theorem wf_unlessStalled {s t : State} (h : Wf s) (ht : Wf t) : Wf (s.unlessStalled t) := by
  unfold State.unlessStalled
  split
  · exact h
  · exact ht

/-- The state in an answer. -/
theorem wf_fst {α : Type} {r : State × α} {s : State} {a : α} (e : r = (s, a)) (h : Wf r.1) : Wf s := by
  rwa [e] at h

/-- A fold over the state beside other results keeps the form when each of its steps does. -/
theorem wf_foldl_fst {α β : Type} {f : State × β → α → State × β} (h : ∀ r a, Wf r.1 → Wf (f r a).1) (l : List α) {r : State × β}
    (hr : Wf r.1) : Wf (l.foldl f r).1 := by
  induction l generalizing r with
  | nil => exact hr
  | cons a l ih => exact ih (h r a hr)

/-- The operation answers a next state, and that keeps the form. -/
def Answers (s : State) (o : Out) : Prop := ∃ t, o = .next t ∧ (Wf s → Wf t)

theorem answers_next {s t : State} (h : Wf s → Wf t) : Answers s (.next t) := ⟨t, rfl, h⟩

/-- The answer of a later state. -/
theorem answers_after {s t : State} {o : Out} (h : Wf s → Wf t) (ho : Answers t o) : Answers s o := by
  obtain ⟨r, hr, hk⟩ := ho
  exact ⟨r, hr, fun hs => hk (h hs)⟩

/-! Operations of Machine/Mem. -/

theorem wf_storeHeld {s : State} {u : Nat} {xl : List (Nat × Nat)} {va : Nat} {bs : List Byte} (h : Wf s) :
    Wf (State.storeHeld s u xl va bs) := by
  unfold State.storeHeld
  extract_lets cells part
  exact wf_store _ _ _ (wf_store _ _ _ h)

theorem wf_fillHeld {s : State} {u : Nat} {xl : List (Nat × Nat)} {va len : Nat} {viaAdit : Bool} (h : Wf s) :
    Wf (State.fillHeld s u xl va len viaAdit) := by
  unfold State.fillHeld
  refine wf_foldl (fun s a hw => ?_) _ h
  extract_lets a_1
  split
  · split
    · exact wf_fillLineA _ _ _ _ hw
  · exact hw

/-! Operations of Machine/Csr. -/

theorem wf_writeX {s : State} {u r : Nat} {v : DWord} (h : Wf s) : Wf (State.writeX s u r v) := wf_modTile h

theorem wf_writeBt {s : State} {u j : Nat} {v : BitVec 12} (h : Wf s) : Wf (State.writeBt s u j v) := by
  unfold State.writeBt
  extract_lets b
  exact wf_modTile h

theorem wf_rstkApply {s : State} {u idx : Nat} {v : DWord} (h : Wf s) : Wf (State.rstkApply s u idx v) := by
  unfold State.rstkApply
  extract_lets put depth
  split
  · exact wf_modColt h
  · exact wf_modCore h

/-! Operations of Machine/Node. -/

theorem wf_podOut {s : State} {m : PodMsg} (h : Wf s) : Wf (State.podOut s m) := by
  unfold State.podOut
  split
  · exact wf_mk h
  · split
    · exact wf_of_mem (portUsed_mem _ _) (wf_mk h)
    · exact h

theorem wf_barTest {s : State} {kern key : Nat} (h : Wf s) : Wf (State.barTest s kern key) := by
  unfold State.barTest
  extract_lets g
  split
  · exact wf_of_mem (podProgress_mem _ _ _) h
  · exact wf_setGroup h

theorem wf_postColl {s : State} {u n : Nat} {cmd : NodeCmd} (h : Wf s) : Wf (postColl s u n cmd) := by
  unfold postColl
  split
  · exact wf_of_mem (queueReq_mem _ _) h
  · exact h

theorem wf_nodeDone {s : State} {u n : Nat} {fl : Flags} (h : Wf s) : Wf (nodeDone s u n fl) := by
  unfold nodeDone
  extract_lets t t1 t2 halted
  split
  · exact h
  · extract_lets b1 t3 t4
    exact wf_setTile h

theorem wf_benchArrive {s : State} {u code : Nat} {v : Vec} (h : Wf s) : Wf (benchArrive s u code v) := wf_modTile h

theorem wf_linkPostRld {s : State} {u : Nat} {ra : DWord} (h : Wf s) : Wf (linkPostRld s u ra) := by
  unfold linkPostRld
  extract_lets a n s1
  have hs1 : Wf s1 := wf_of_mem (queueReq_mem _ _) h
  exact wf_modCore hs1

theorem wf_linkPostRst {s : State} {u : Nat} {ra : DWord} {bs : List Byte} (h : Wf s) : Wf (linkPostRst s u ra bs) := by
  unfold linkPostRst
  extract_lets a
  exact wf_of_mem (queueReq_mem _ _) h

/-! Operations of Machine/ScanCore. -/

theorem wf_scanPopAt {s : State} {u : Nat} {r : ScanRow} {bsA bsB : List Byte} (h : Wf s) : Wf (scanPopAt s u r bsA bsB) := by
  unfold scanPopAt
  extract_lets f t e left old
  split
  · extract_lets v b1 b2 nf
    exact wf_setTile h

/-! Operations of Machine/Deque. -/

theorem wf_writeBackDie {s : State} {d : Nat} (h : Wf s) : Wf (writeBackDie s d) := wf_foldl (fun _ _ hw => wf_writeBack _ _ hw) _ h

theorem wf_acquireAt {s : State} {u scope : Nat} (h : Wf s) : Wf (acquireAt s u scope) := by
  unfold acquireAt
  split
  · exact h
  · extract_lets s1 d s2
    have hs1 : Wf s1 := wf_modTile h
    have hs2 : Wf s2 := wf_writeBackDie hs1
    split
    · exact hs1
    · exact wf_mk hs2

theorem wf_acquireWord {s : State} {u scope w : Nat} (h : Wf s) : Wf (acquireWord s u scope w) := by
  unfold acquireWord
  extract_lets cid rs covered drop s1 d s2
  have hs1 : Wf s1 := wf_modTile h
  have hs2 : Wf s2 := by
    unfold s2
    refine wf_foldl (fun s a hw => ?_) _ hs1
    split
    · exact wf_flushL2 _ _ hw
    · exact hw
  split
  · exact wf_acquireAt h
  · split
    · exact h
    · split
      · exact hs1
      · exact wf_mk hs2

theorem wf_releaseAt {s : State} {u scope : Nat} (h : Wf s) : Wf (releaseAt s u scope) := by
  unfold releaseAt
  split
  · exact h
  · exact wf_writeBackDie h

theorem wf_setRecStatus {s : State} {cid r v : Nat} (h : Wf s) : Wf (setRecStatus s cid r v) := wf_devPut _ _ _ _ h

theorem wf_setRecEntry {s : State} {cid r v : Nat} (h : Wf s) : Wf (setRecEntry s cid r v) := wf_devPut _ _ _ _ h

theorem wf_setRecLink {s : State} {cid r v : Nat} (h : Wf s) : Wf (setRecLink s cid r v) := wf_devPut _ _ _ _ h

theorem wf_pushHead {s : State} {k r : Nat} (h : Wf s) : Wf (pushHead s k r) := by
  unfold pushHead
  extract_lets c t keep
  split
  · exact wf_setCore h
  · split
    · exact wf_setCore h
    · exact wf_setCore (wf_setRecLink h)

theorem wf_pushTail {s : State} {k r : Nat} (h : Wf s) : Wf (pushTail s k r) := by
  unfold pushTail
  extract_lets c
  split
  · exact wf_setCore (wf_setRecLink h)
  · split
    · exact wf_setCore h
    · exact wf_setCore h

theorem wf_setDeq {s : State} {kern k : Nat} {d : Deq} (h : Wf s) : Wf (State.setDeq s kern k d) := by
  unfold State.setDeq
  split
  · exact wf_modGroup h
  · exact wf_modCore h

theorem wf_takeChain {s : State} {kern k : Nat} (h : Wf s) : Wf (takeChain s kern k).1 := by
  unfold takeChain
  extract_lets d
  split
  · exact h
  · split
    · exact wf_setDeq h
    · exact wf_setDeq h

theorem wf_popHead {s : State} {k : Nat} (h : Wf s) : Wf (popHead s k).1 := by
  unfold popHead
  split
  · exact wf_modCore h
  · exact wf_takeChain h

theorem wf_takeTail {s : State} {kern k : Nat} (h : Wf s) : Wf (takeTail s kern k).1 := by
  unfold takeTail
  extract_lets d
  split
  · exact wf_takeChain h
  · split
    · exact wf_setDeq h
    · exact h

theorem wf_sweep {s : State} {kern : Nat} {ks : List Nat} (h : Wf s) : Wf (sweep s kern ks).1 := by
  induction ks generalizing s with
  | nil => exact h
  | cons v vs ih =>
    unfold sweep
    split
    · rename_i s1 r e
      exact wf_fst e (wf_takeTail h)
    · rename_i s1 e
      exact ih (wf_fst e (wf_takeTail h))

theorem wf_stealStep {s : State} {k : Nat} (h : Wf s) : Wf (stealStep s k).1 := by
  unfold stealStep
  split
  · rename_i x s1 r e
    have hs1 : Wf s1 := wf_fst e (wf_sweep h)
    exact wf_pushHead hs1
  · rename_i x s1 e
    have hs1 : Wf s1 := wf_fst e (wf_sweep h)
    exact hs1

theorem wf_dropDirty {s : State} {pas : List Nat} (h : Wf s) : Wf (State.dropDirty s pas) := by
  unfold State.dropDirty
  refine wf_foldl (fun s a hw => ?_) _ h
  extract_lets d l
  split
  · exact wf_of_mem (setL2_mem _ _ _ _) hw
  · exact hw

theorem wf_seqPut {s : State} {cid a len v : Nat} (h : Wf s) : Wf (seqPut s cid a len v) := wf_hubWrite _ _ _ h

theorem wf_arriveOne {s : State} {k : Nat} {e : Entry} (h : Wf s) : Wf (arriveOne s k e) := by
  unfold arriveOne
  split
  · exact h
  · split
    · split
      · rename_i x s1 e' e1
        have hs1 : Wf s1 := wf_fst e1 (wf_arriveLoad _ h)
        exact wf_modCore hs1
    · split
      · split
        · rename_i x s1 b e1
          have hs1 : Wf s1 := wf_fst e1 (wf_stealStep h)
          exact wf_modCore hs1
      · extract_lets g b
        exact wf_modCore (wf_acquireAt h)
    · exact h

theorem wf_arriveAll {s : State} {k : Nat} (h : Wf s) : Wf (arriveAll s k) := wf_foldl (fun _ _ => wf_arriveOne) _ h

/-! Operations of Machine/Trap. -/

theorem wf_interrupt {s : State} {wanted : Bool} (h : Wf s) : Wf (State.interrupt s wanted) := by
  unfold State.interrupt
  split
  · exact wf_mk h
  · exact h

theorem wf_postFault {s : State} {r : FaultRec} (h : Wf s) : Wf (postFault s r) := by
  unfold postFault
  extract_lets hd
  split
  · exact h
  · exact wf_mk h

theorem wf_pktOutcome {s : State} {p status detail : Nat} (h : Wf s) : Wf (pktOutcome s p status detail) := by
  unfold pktOutcome
  extract_lets k
  split
  · exact h
  · exact wf_setPkt h

theorem wf_ctxSettle {s : State} {cid : Nat} (h : Wf s) : Wf (ctxSettle s cid) := by
  unfold ctxSettle
  extract_lets x
  split
  · exact wf_setCtx h
  · exact h

theorem wf_dropTiles {s : State} {k : Nat} (h : Wf s) : Wf (dropTiles s k) := wf_foldl (fun _ _ => wf_modTile) _ h

theorem wf_groupEnd {s : State} {kern : Nat} (h : Wf s) : Wf (groupEnd s kern) := by
  unfold groupEnd
  extract_lets g s1
  have hs1 : Wf s1 := by
    unfold s1
    refine wf_foldl (fun s a hw => ?_) _ h
    split
    · exact wf_dropTiles (wf_modCore hw)
    · exact hw
  exact wf_setGroup hs1

theorem wf_abandon {s : State} {k cause : Nat} {recs : List FaultRec} (h : Wf s) : Wf (abandon s k cause recs) := by
  unfold abandon
  extract_lets kern g s1 s2
  have hs1 : Wf s1 := wf_foldl (fun _ _ => wf_postFault) _ h
  have hs2 : Wf s2 := wf_modGroup (wf_groupEnd hs1)
  exact wf_ctxSettle (wf_foldl (fun _ _ => wf_pktOutcome) _ hs2)

theorem wf_writeTrapRegs {s : State} {k cause slotInfo : Nat} {rs : List Raiser} (h : Wf s) : Wf (writeTrapRegs s k cause slotInfo rs) := by
  unfold writeTrapRegs
  extract_lets c r
  exact wf_setCore h

theorem wf_stopIssue {s : State} {k : Nat} (h : Wf s) : Wf (stopIssue s k) := by
  unfold stopIssue
  split
  · split
    · refine wf_foldl (fun s a hw => ?_) _ h
      split
      · split
        · rename_i x s1 e' e
          have hs1 : Wf s1 := wf_fst e (wf_arriveLoad _ hw)
          exact wf_modCore hs1
      · exact hw
    · exact wf_of_mem (dropIssue_mem _ _) h
  · exact h

theorem wf_settleBase {s : State} {k : Nat} (h : Wf s) : Wf (settleBase s k) := by
  unfold settleBase
  extract_lets s1
  have hs1 : Wf s1 := wf_arriveAll h
  split
  · exact hs1
  · exact wf_landUpTo _ _ hs1

theorem wf_rebase {s : State} {k : Nat} (h : Wf s) : Wf (rebase s k) := by
  unfold rebase
  split
  · exact wf_settleBase h
  · exact h

theorem wf_haltCore {s : State} {k : Nat} (h : Wf s) : Wf (haltCore s k) := wf_modCore (wf_settleBase (wf_stopIssue h))

theorem wf_stepEnd {s : State} {k : Nat} (h : Wf s) : Wf (stepEnd s k) := by
  unfold stepEnd
  extract_lets c
  split
  · exact h
  · split
    · exact wf_setCore h
    · exact wf_haltCore h

theorem wf_haltCtx {s : State} {cid : Nat} (h : Wf s) : Wf (haltCtx s cid) := by
  unfold haltCtx
  extract_lets s1 x
  have hs1 : Wf s1 := by
    unfold s1
    refine wf_foldl (fun s a hw => ?_) _ h
    split
    · exact hw
    · split
      · exact wf_haltCore hw
      · exact wf_modCore hw
  exact wf_mk hs1

theorem wf_takeTrap {s0 : State} {k cause slotInfo : Nat} {rs : List Raiser} (h : Wf s0) : Wf (takeTrap s0 k cause slotInfo rs) := by
  unfold takeTrap
  extract_lets s c org recs s1 s2 s3
  have hs : Wf s := wf_of_mem (dropIssue_mem _ _) h
  have hs1 : Wf s1 := wf_arriveAll hs
  have hs2 : Wf s2 := wf_landUpTo _ _ hs1
  have hs3 : Wf s3 := wf_writeTrapRegs hs2
  split
  · exact wf_abandon hs
  · split
    · exact hs1
    · split
      · exact wf_modCore (wf_writeTrapRegs hs1)
      · split
        · exact wf_haltCtx (wf_modCore (wf_writeTrapRegs hs1))
        · split
          · exact wf_abandon (wf_writeTrapRegs hs1)
          · exact wf_modCore hs3

theorem answers_execTrapEntry {core cause reason arg dmask slot : Nat} {s : State} :
    Answers s (execTrapEntry core cause reason arg dmask slot s) := by
  unfold execTrapEntry
  split
  · exact answers_next id
  · exact answers_next wf_takeTrap

theorem wf_leaveHandler {s : State} {k : Nat} (h : Wf s) : Wf (leaveHandler s k) := wf_modCore h

/-! Operations of Machine/Issue. -/

theorem wf_trapOf {s : State} {k slot word : Nat} {ts : List (Nat × Nat × Nat × Nat)} (h : Wf s) : Wf (trapOf s k slot word ts) := by
  unfold trapOf
  split
  · exact h
  · exact wf_takeTrap h

theorem wf_arriveStaged {s : State} {k : Nat} (h : Wf s) : Wf (arriveStaged s k) := by
  unfold arriveStaged
  split
  · exact h
  · split
    · exact h
    · split
      · rename_i x s1 e' e
        have hs1 : Wf s1 := wf_fst e (wf_arriveLoad _ h)
        exact wf_modCore hs1

theorem wf_arriveOldest {s : State} {k : Nat} (h : Wf s) : Wf (arriveOldest s k) := by
  unfold arriveOldest
  split
  · exact wf_arriveOne h
  · exact wf_arriveStaged h

theorem wf_slotWaits {s : State} {k : Nat} {held : Bool} (h : Wf s) : Wf (slotWaits s k held) := by
  unfold slotWaits
  split
  · exact wf_modCore h
  · exact wf_arriveOldest h

theorem wf_joinBanks {s : State} {k slot bn : Nat} {asks : List (Nat × Nat × Bool)} (h : Wf s) : Wf (joinBanks s k slot bn asks) :=
  wf_foldl (fun _ _ => wf_modTile) _ h

theorem wf_setReady {s : State} {cid : Nat} {l : LoopRec} {lane : Nat} (h : Wf s) : Wf (setReady s cid l lane) := by
  unfold setReady
  extract_lets a s1
  have hs1 : Wf s1 := by
    unfold s1
    split
    · exact wf_markAtomic _ h
    · exact h
  exact wf_seqPut hs1

theorem wf_jobFault {s : State} {j : Job} (h : Wf s) : Wf (jobFault s j) := by
  unfold jobFault
  extract_lets g
  split
  · exact h
  · extract_lets r a s1
    have hs1 : Wf s1 := by
      unfold s1
      split
      · exact wf_seqPut h
      · exact h
    exact wf_setReady hs1

theorem wf_coltTrap {s : State} {c cause reason arg slot : Nat} (h : Wf s) : Wf (coltTrap s c cause reason arg slot) := by
  unfold coltTrap
  extract_lets r s1
  have hs1 : Wf s1 := wf_setColt h
  split
  · exact wf_jobFault hs1
  · exact hs1

theorem wf_nextWord {s : State} {k : Nat} (h : Wf s) : Wf (nextWord s k) := wf_modCore h

theorem wf_nextColt {s : State} {c : Nat} (h : Wf s) : Wf (nextColt s c) := wf_modColt h

/-- An operation answers a next state in a bundle, in a handler word and on a Colt; what it posts, a trap or a wait keeps the form. -/
theorem answers_issueWith {s : State} {slot : Nat} {op : OpCtx → Res (List Post)} {upd : Upd} {aft aftC : After}
    (ha : ∀ s k, Wf s → Wf (aft s k)) (hc : ∀ s c, Wf s → Wf (aftC s c)) : Answers s (issueWith s slot op upd aft aftC) := by
  unfold issueWith
  split
  · extract_lets c w r
    split
    · split
      · exact answers_next wf_joinBanks
      · split
        · exact answers_next wf_trapOf
        · exact answers_next fun h => wf_stepEnd (ha _ _ (wf_applyNow _ h))
    · split
      · exact answers_next id
      · split
        · exact answers_next id
        · extract_lets dies r
          split
          · exact answers_next fun h => wf_joinBanks (wf_slotWaits h)
          · split
            · exact answers_next wf_trapOf
            · split
              · exact answers_next wf_arriveOldest
              · exact answers_next wf_setCore
  · extract_lets u
    split
    · exact answers_next fun h => hc _ _ (wf_applyNow _ h)
    · exact answers_next id
    · exact answers_next id
    · exact answers_next id
    · exact answers_next wf_coltTrap
  · exact answers_next id

/-- The same for a word with nothing to do after it issues. -/
theorem answers_issueTiles {s : State} {slot : Nat} {op : OpCtx → Res (List Post)} : Answers s (issueTiles s slot op) :=
  answers_issueWith (fun _ _ => wf_nextWord) (fun _ _ => wf_nextColt)

theorem wf_checked {s ok : State} {k : Nat} {i : Issue} (h : Wf s) (ho : Wf ok) : Wf (checked s k i ok) := by
  unfold checked
  split
  · exact wf_takeTrap h
  · exact ho

theorem wf_markWalkers {s : State} {k : Nat} {f : Walker → Walker} (h : Wf s) : Wf (markWalkers s k f) :=
  wf_foldl (fun _ _ => wf_modTile) _ h

theorem wf_beginMark {s : State} {k lvl addr : Nat} (h : Wf s) : Wf (beginMark s k lvl addr) := wf_modCore (wf_markWalkers h)

theorem wf_finishMark {s : State} {k lvl fall n due : Nat} (h : Wf s) : Wf (finishMark s k lvl fall n due).1 := by
  unfold finishMark
  extract_lets c l loops s1 strides s2
  have hs1 : Wf s1 := wf_markWalkers h
  have hs2 : Wf s2 := wf_modCore hs1
  exact hs2

theorem wf_seqAct {s : State} {k : Nat} {i : Issue} {lf lvl beg fin : Nat} (h : Wf s) : Wf (seqAct s k i lf lvl beg fin) := by
  unfold seqAct
  extract_lets c s1 l first last suppressed s2 i'
  have hs1 : Wf s1 := by
    unfold s1
    split
    · exact wf_beginMark h
    · exact h
  have hs2 : Wf s2 := wf_modCore hs1
  split
  · split
    rename_i s3 pc e
    have hs3 : Wf s3 := by
      split at e
      · exact wf_fst e (wf_finishMark hs2)
      · exact wf_fst e hs2
    exact wf_checked hs1 (wf_modCore hs3)
  · split
    · exact wf_takeTrap hs1
    · exact wf_checked hs1 (wf_modCore hs1)

theorem wf_openBundle {s0 : State} {k : Nat} (h : Wf s0) : Wf (openBundle s0 k) := by
  unfold openBundle
  split
  · exact h
  · extract_lets s c words i s1
    have hs : Wf s := wf_landUpTo _ _ h
    have hs1 : Wf s1 := wf_setCore hs
    split
    · exact wf_takeTrap hs
    · split
      · exact wf_takeTrap hs
      · split
        · exact wf_takeTrap hs
        · split
          · exact wf_takeTrap hs1
          · split
            · exact wf_checked hs1 (wf_setCore hs1)
            · exact hs1

theorem wf_endBundle {s : State} {k : Nat} (h : Wf s) : Wf (endBundle s k) := by
  unfold endBundle
  extract_lets c top
  split
  · exact h
  · extract_lets n now later s1 s2 drain
    have hs2 : Wf s2 := wf_foldl (fun _ e hw => wf_landEntry e hw) _ (wf_setCore h)
    split
    rename_i s3 fall e
    have hs3 : Wf s3 := by
      split at e
      · exact wf_fst e (wf_finishMark hs2)
      · exact wf_fst e hs2
    exact wf_stepEnd (wf_modCore (wf_modCore hs3))

/-! Operations of Machine/Control. -/

theorem answers_treeBundle {s : State} {k t1 t2 t3 t4 : Nat} {i : Issue} : Answers s (treeBundle s k t1 t2 t3 t4 i) := by
  unfold treeBundle
  extract_lets c leaf
  split
  · exact answers_next wf_slotWaits
  · extract_lets outcome lead differ i' i'' sl
    split
    · exact answers_next fun h => wf_checked h (wf_setCore h)
    · exact answers_next wf_takeTrap

theorem answers_treeHandler {s : State} {k t1 t2 t3 t4 : Nat} : Answers s (treeHandler s k t1 t2 t3 t4) := by
  unfold treeHandler
  extract_lets c leaf
  split
  · exact answers_next id
  · extract_lets target
    split
    · exact answers_next wf_takeTrap
    · split
      · exact answers_next fun h => wf_stepEnd (wf_modCore h)
      · exact answers_next fun h => wf_stepEnd (wf_nextWord h)

theorem answers_execTree {al t1 t2 t3 t4 : Nat} {s : State} : Answers s (execTree al t1 t2 t3 t4 s) := by
  unfold execTree
  split
  · split
    · exact answers_treeHandler
    · split
      · split
        · exact answers_next id
        · exact answers_treeBundle
      · exact answers_next id
  · extract_lets u
    split
    · exact answers_next id
    · split
      · exact answers_next wf_modColt
      · exact answers_next wf_nextColt
  · exact answers_next id

theorem answers_execSeq {align lf lvl beg fin : Nat} {s : State} : Answers s (execSeq align lf lvl beg fin s) := by
  unfold execSeq
  split
  · split
    · split
      · exact answers_next id
      · split
        · exact answers_next wf_arriveOldest
        · exact answers_next wf_seqAct
    · exact answers_next id
  · exact answers_next id

theorem wf_coltStop {s : State} {c : Nat} (h : Wf s) : Wf (coltStop s c) := wf_modColt h

theorem answers_execHalt {s : State} : Answers s (execHalt s) :=
  answers_issueWith (fun _ _ hw => wf_modCore (wf_nextWord hw)) (fun _ _ => wf_coltStop)

theorem answers_execKend {s : State} : Answers s (execKend s) :=
  answers_issueWith (fun _ _ => wf_nextWord) (fun _ _ => wf_nextColt)

theorem answers_execPlsw {s : State} : Answers s (execPlsw s) :=
  answers_issueWith (fun _ _ => wf_nextWord) (fun _ _ => wf_nextColt)

theorem answers_execCall {addr : Nat} {s : State} : Answers s (execCall addr s) :=
  answers_issueWith (fun _ _ => wf_nextWord) (fun _ _ => wf_modColt)

theorem answers_execRet {s : State} : Answers s (execRet s) :=
  answers_issueWith (fun _ _ => wf_nextWord) (fun _ _ => wf_modColt)

theorem answers_raiseNext {s : State} {cause info : Nat} {syn : Bool} : Answers s (raiseNext s cause info syn) := by
  unfold raiseNext
  extract_lets bits
  exact answers_issueWith (fun _ _ hw => wf_takeTrap (wf_nextWord hw)) (fun _ _ hw => wf_coltTrap (wf_nextColt hw))

theorem answers_execTrap {code info : Nat} {s : State} : Answers s (execTrap code info s) := answers_raiseNext

theorem answers_execBrk {info : Nat} {s : State} : Answers s (execBrk info s) := answers_raiseNext

theorem answers_execEret {s : State} : Answers s (execEret s) :=
  answers_issueWith (fun _ _ => wf_leaveHandler) (fun _ _ => wf_nextColt)

theorem wf_drainCore {s t : State} {k : Nat} (e : drainCore s k = some t) (h : Wf s) : Wf t := by
  unfold drainCore at e
  extract_lets s1 at e
  have hs1 : Wf s1 := wf_arriveAll h
  split at e
  · cases e
  · cases e
    exact wf_landAll _ hs1

theorem answers_execHaltDrainDone {core : Nat} {s : State} : Answers s (execHaltDrainDone core s) := by
  unfold execHaltDrainDone
  extract_lets c
  split
  · exact answers_next id
  · split
    · exact answers_next id
    · rename_i x s1 e
      have hs1 : Wf s → Wf s1 := wf_drainCore e
      exact answers_next fun h => wf_modCore (hs1 h)

theorem wf_retestBarriers {s : State} {kern k : Nat} (h : Wf s) : Wf (retestBarriers s kern k) := by
  unfold retestBarriers
  refine wf_foldl (fun s a hw => ?_) _ h
  split
  · exact wf_of_mem (barMod_mem _ _ _ _) hw
  · exact hw

theorem wf_retireCore {s : State} {k : Nat} (h : Wf s) : Wf (retireCore s k) := by
  unfold retireCore
  extract_lets kern s1 c d s2
  have hs1 : Wf s1 := wf_modCore h
  have hs2 : Wf s2 := wf_modCore hs1
  exact wf_retestBarriers (wf_modGroup hs2)

theorem answers_execEndDrainDone {core : Nat} {s : State} : Answers s (execEndDrainDone core s) := by
  unfold execEndDrainDone
  extract_lets c
  split
  · exact answers_next id
  · split
    · exact answers_next id
    · rename_i x s1 e
      have hs1 : Wf s → Wf s1 := wf_drainCore e
      split
      · exact answers_next fun h => wf_retireCore (hs1 h)
      · exact answers_next id

theorem answers_execPlaneSwap {core : Nat} {s : State} : Answers s (execPlaneSwap core s) := by
  unfold execPlaneSwap
  extract_lets c
  split
  · exact answers_next id
  · split
    · exact answers_next id
    · rename_i x s1 e
      have hs1 : Wf s → Wf s1 := wf_drainCore e
      exact answers_next fun h => wf_modCore (hs1 h)

theorem answers_execPlaneLoadDone {core : Nat} {s : State} : Answers s (execPlaneLoadDone core s) := by
  unfold execPlaneLoadDone
  extract_lets c lower x
  split
  · exact answers_next wf_setCore
  · exact answers_next id

theorem answers_execResultLanding {core : Nat} {s : State} : Answers s (execResultLanding core s) := by
  unfold execResultLanding
  extract_lets c
  split
  · exact answers_next id
  · exact answers_next fun h => wf_landUpTo _ _ h

theorem answers_execInterlockedArrival {core : Nat} {s : State} : Answers s (execInterlockedArrival core s) :=
  answers_next fun h => wf_unlessStalled h (wf_rebase (wf_arriveOldest h))

/-! Operations of Machine/Scalar. -/

theorem wf_syncDone {s : State} {u kind scope pa : Nat} (h : Wf s) : Wf (syncDone s u kind scope pa) := by
  unfold syncDone
  extract_lets mark s1
  have hmark : ∀ t, Wf t → Wf (mark t) := by
    intro t ht
    unfold mark
    split
    · exact ht
    · exact wf_markAtomic _ ht
  have hs1 : Wf s1 := hmark _ (wf_releaseAt h)
  split
  · split
    · exact wf_acquireAt h
    · exact wf_acquireWord (hmark s h)
  · split
    · exact hs1
    · exact wf_putMemNat _ _ _ hs1
  · exact wf_releaseAt h

theorem answers_syncOp {kind scope xa : Nat} {s : State} : Answers s (syncOp kind scope xa s) := by
  unfold syncOp
  extract_lets rw
  refine answers_issueWith (fun _ _ hw => wf_nextWord (wf_foldl (fun _ _ => wf_syncDone) _ hw)) (fun s c hw => wf_nextColt ?_)
  split
  · exact wf_syncDone hw
  · exact hw

theorem answers_execAcq {scope xa : Nat} {s : State} : Answers s (execAcq scope xa s) := answers_syncOp

theorem answers_execRel {scope xa : Nat} {s : State} : Answers s (execRel scope xa s) := answers_syncOp

theorem answers_execFence {scope : Nat} {s : State} : Answers s (execFence scope s) := answers_syncOp

theorem answers_execAcqRelFenceComplete {core : Nat} {s : State} : Answers s (execAcqRelFenceComplete core s) := by
  unfold execAcqRelFenceComplete
  extract_lets c s1 s2
  have hs1 : Wf s → Wf s1 := wf_arriveAll
  have hs2 : Wf s → Wf s2 := fun h => wf_landUpTo _ _ (hs1 h)
  split
  · extract_lets loading s3
    have hs3 : Wf s → Wf s3 := fun h => wf_foldl (fun _ _ => wf_syncDone) _ (hs2 h)
    split
    · exact answers_next id
    · split
      · exact answers_next hs2
      · exact answers_next fun h => wf_modCore (hs3 h)
  · exact answers_next id

/-! Operations of Machine/Barrier. -/

theorem answers_execBarv {scope bid : Nat} {s : State} : Answers s (execBarv scope bid s) :=
  answers_issueWith (fun _ _ => wf_nextWord) (fun _ _ => wf_nextColt)

theorem answers_execBarw {scope bid : Nat} {s : State} : Answers s (execBarw scope bid s) :=
  answers_issueWith (fun _ _ => wf_nextWord) (fun _ _ => wf_nextColt)

theorem answers_execWaitm {xa xb : Nat} {s : State} : Answers s (execWaitm xa xb s) :=
  answers_issueWith (fun _ _ => wf_nextWord) (fun _ _ => wf_nextColt)

theorem wf_enterPhase {s : State} {k bid : Nat} (h : Wf s) : Wf (enterPhase s k bid) := by
  unfold enterPhase
  refine wf_foldl (fun s a hw => ?_) _ h
  extract_lets ds
  split
  · exact wf_modCore hw
  · exact hw

theorem wf_retryHold {s : State} {k : Nat} (h : Wf s) : Wf (retryHold s k) := by
  unfold retryHold
  extract_lets c
  split
  · exact h
  · split
    · split
      · exact h
      · exact wf_modCore h
    · split
      · split
        · exact wf_modCore h
        · split
          · exact h
          · exact wf_enterPhase h
      · exact h
    · split
      · exact wf_modCore h
      · exact h
    · exact h

theorem wf_retryHolds {s : State} (h : Wf s) : Wf (retryHolds s) := wf_unlessStalled h (wf_foldl (fun _ _ => wf_retryHold) _ h)

theorem answers_execWaitmWake {unit line : Nat} {s : State} : Answers s (execWaitmWake unit line s) := by
  unfold execWaitmWake
  split
  · split
    · exact answers_next id
    · exact answers_next fun h => wf_retryHolds (wf_modTile h)
  · exact answers_next id

theorem answers_execWaitmTimeout {unit : Nat} {s : State} : Answers s (execWaitmTimeout unit s) := by
  unfold execWaitmTimeout
  split
  · exact answers_next id
  · exact answers_next fun h => wf_retryHolds (wf_modTile h)

theorem answers_execBarrierFlip {kern scope inst bid : Nat} {s : State} : Answers s (execBarrierFlip kern scope inst bid s) := by
  unfold execBarrierFlip
  extract_lets key b
  split
  · exact answers_next wf_modGroup
  · exact answers_next id

theorem answers_execBarrierCompletionSeen {kern scope inst bid : Nat} {s : State} :
    Answers s (execBarrierCompletionSeen kern scope inst bid s) := by
  unfold execBarrierCompletionSeen
  extract_lets key b
  refine answers_next fun h => ?_
  split
  · exact h
  · exact wf_retryHolds (wf_modGroup h)

theorem answers_execPodArrive {kern bid phase rank : Nat} {s : State} : Answers s (execPodArrive kern bid phase rank s) := by
  unfold execPodArrive
  extract_lets key g b
  split
  · exact answers_next id
  · exact answers_next fun h => wf_of_mem (podProgress_mem _ _ _) (wf_setGroup h)

theorem answers_execPodComplete {kern bid phase : Nat} {s : State} : Answers s (execPodComplete kern bid phase s) := by
  unfold execPodComplete
  extract_lets key g b
  split
  · exact answers_next id
  · exact answers_next fun h => wf_of_mem (podFinish_mem _ _ _) h

/-! Operations of Machine/Engine. -/

theorem wf_piecesWrite {s : State} {u : Nat} {cmd : NodeCmd} {spad : Bool} {ps : List (Int × Nat)} {bs : List Byte} (h : Wf s) :
    Wf (piecesWrite s u cmd spad ps bs) := by
  induction ps generalizing s bs with
  | nil => exact h
  | cons p ps ih =>
    unfold piecesWrite
    extract_lets part s1
    have hs1 : Wf s1 := by
      unfold s1
      split
      · exact wf_modTile h
      · exact wf_storeHeld h
    exact ih hs1

theorem wf_piecesFill {s : State} {u : Nat} {cmd : NodeCmd} {spad : Bool} {ps : List (Int × Nat)} (h : Wf s) :
    Wf (piecesFill s u cmd spad ps) := by
  unfold piecesFill
  extract_lets viaAdit
  split
  · exact h
  · exact wf_foldl (fun _ _ => wf_fillHeld) _ h

theorem wf_moveRow {s : State} {u : Nat} {cmd : NodeCmd} {sps dps : Bool} {src dst : List (Int × Nat)} (h : Wf s) :
    Wf (moveRow s u cmd sps dps src dst) := by
  unfold moveRow
  extract_lets bs
  exact wf_piecesWrite (wf_piecesFill h)

theorem wf_copyRow {s : State} {u : Nat} {cmd : NodeCmd} {r : List (Int × Nat) × List (Int × Nat)} (h : Wf s) : Wf (copyRow s u cmd r) := by
  unfold copyRow
  extract_lets sp s1
  have hs1 : Wf s1 := wf_moveRow h
  split
  · exact wf_of_mem (barMod_mem _ _ _ _) hs1
  · exact hs1

theorem wf_copyRest {s : State} {u : Nat} {cmd : NodeCmd} (h : Wf s) : Wf (copyRest s u cmd) := wf_foldl (fun _ _ => wf_copyRow) _ h

theorem wf_putStatus {s : State} {u : Nat} {cmd : NodeCmd} {off v : Nat} (h : Wf s) : Wf (putStatus s u cmd off v) := wf_modTile h

theorem wf_gathScatRun {s : State} {u : Nat} {cmd : NodeCmd} {gath : Bool} (h : Wf s) : Wf (gathScatRun s u cmd gath) := by
  unfold gathScatRun
  extract_lets sp ext
  split
  rename_i s1 e
  refine wf_putStatus (wf_fst e (wf_foldl_fst (fun a q hw => ?_) _ h))
  extract_lets i row
  split
  · exact hw
  · split
    · exact hw
    · exact wf_moveRow hw

theorem wf_scaccRun {s : State} {u : Nat} {cmd : NodeCmd} {fn : Nat} (h : Wf s) : Wf (scaccRun s u cmd fn).1 := by
  unfold scaccRun
  extract_lets fmt es base ext n
  split
  rename_i s1 skipped fl e
  refine wf_putStatus (wf_fst e (wf_foldl_fst (fun a w hw => ?_) _ h))
  extract_lets ents
  split
  split
  rename_i s2 g2 e2
  refine wf_fst e2 (wf_foldl_fst (fun b p hb => ?_) _ hw)
  split
  exact wf_modTile hb

theorem wf_amoRun {s : State} {u : Nat} {cmd : NodeCmd} {fn : Nat} (h : Wf s) : Wf (amoRun s u cmd fn).1 := by
  unfold amoRun
  extract_lets addr opb size
  split
  · extract_lets s1 old t
    have hs1 : Wf s1 := wf_markAtomic _ h
    split
    · extract_lets s2
      have hs2 : Wf s2 := by
        unfold s2
        split
        · exact wf_of_mem (touchLine_mem _ _) hs1
        · exact wf_putMemNat _ _ _ hs1
      exact wf_modTile hs2

theorem wf_prefRun {s : State} {u : Nat} {cmd : NodeCmd} {l2 : Bool} (h : Wf s) : Wf (prefRun s u cmd l2) := by
  unfold prefRun
  extract_lets s1
  have hs1 : Wf s1 := wf_fillHeld h
  split
  · exact wf_modTile hs1
  · exact hs1

theorem wf_rgwbRun {s : State} {cmd : NodeCmd} (h : Wf s) : Wf (rgwbRun s cmd) := by
  unfold rgwbRun
  extract_lets inR
  refine wf_foldl (fun s a hw => wf_foldl (fun s a hw1 => ?_) _ hw) _ h
  split
  · exact wf_writeBack _ _ hw1
  · exact hw1

theorem wf_rginvRun {s : State} {u : Nat} {cmd : NodeCmd} (h : Wf s) : Wf (rginvRun s u cmd) := by
  unfold rginvRun
  extract_lets inR s1 keep d
  have hs1 : Wf s1 := wf_rgwbRun h
  exact wf_mk hs1

theorem wf_muleFlush {s : State} {ln : Nat} (h : Wf s) : Wf (muleFlush s ln) := wf_foldl (fun _ _ hw => wf_flushL2 _ _ hw) _ h

theorem wf_muleWrite {s : State} {d : Nat} {xl : List (Nat × Nat)} {va : Nat} {bs : List Byte} (h : Wf s) : Wf (muleWrite s d xl va bs) :=
  by
  unfold muleWrite
  refine wf_foldl (fun s a hw => ?_) _ h
  split
  · exact wf_of_mem (passPort_mem _ _ _) (wf_putMem _ _ (wf_muleFlush hw))

theorem wf_muleRead {s : State} {xl : List (Nat × Nat)} {va len : Nat} (h : Wf s) : Wf (muleRead s xl va len).1 := by
  unfold muleRead
  extract_lets s1
  have hs1 : Wf s1 := wf_foldl (fun _ _ => wf_muleFlush) _ h
  exact hs1

theorem wf_slotRelease {s : State} {u x z : Nat} {v : Slot} (h : Wf s) : Wf (slotRelease s u x z v) := wf_modTile h

theorem wf_takeSlot {s : State} {x key : Nat} (h : Wf s) : Wf (takeSlot s x key) := wf_modTile h

theorem wf_movedAll {s : State} {x : Nat} {keys : List Nat} (h : Wf s) : Wf (movedAll s x keys) :=
  wf_foldl (fun _ _ => wf_modTile) _ h

theorem wf_muleRun {s : State} {u n : Nat} {cmd : NodeCmd} (h : Wf s) : Wf (muleRun s u n cmd) := by
  unfold muleRun
  split
  · extract_lets addr
    refine wf_foldl (fun s a hw => ?_) _ h
    extract_lets z va sl bytes
    split
    · split
      · rename_i x s1 bs e
        have hs1 : Wf s1 := wf_fst e (wf_muleRead hw)
        exact wf_slotRelease hs1
    · exact wf_slotRelease (wf_muleWrite hw)
    · exact wf_slotRelease (wf_muleWrite hw)

theorem answers_execXwt {node : Nat} {s : State} : Answers s (execXwt node s) :=
  answers_issueWith (fun _ _ => wf_nextWord) (fun _ _ => wf_nextColt)

theorem wf_nodeAcquire {s : State} {u : Nat} {cmd : NodeCmd} (h : Wf s) : Wf (nodeAcquire s u cmd) := by
  unfold nodeAcquire
  split
  · exact wf_acquireAt h
  · exact h

theorem wf_nodeRelease {s : State} {u : Nat} {cmd : NodeCmd} (h : Wf s) : Wf (nodeRelease s u cmd) := by
  unfold nodeRelease
  split
  · exact wf_releaseAt h
  · exact h

theorem wf_nodeFinish {s : State} {u n : Nat} {cmd : NodeCmd} {fl : Flags} (h : Wf s) : Wf (nodeFinish s u n cmd fl) :=
  wf_retryHold (wf_nodeDone (wf_nodeRelease h))

/-! Operations of Machine/Group. -/

theorem wf_coreSwitch {s : State} {k : Nat} {release : Bool} (h : Wf s) : Wf (coreSwitch s k release) :=
  wf_modCore (wf_foldl (fun _ _ => wf_modTile) _ h)

theorem wf_startRecord {s : State} {k r : Nat} {all : Bool} (h : Wf s) : Wf (startRecord s k r all) := by
  unfold startRecord
  extract_lets cid s1 s2 s3 args s4
  have hs1 : Wf s1 := wf_setRecStatus h
  have hs2 : Wf s2 := wf_foldl (fun _ _ => wf_acquireAt) _ hs1
  have hs3 : Wf s3 := wf_coreSwitch hs2
  have hs4 : Wf s4 := wf_foldl (fun _ _ => wf_modTile) _ hs3
  exact wf_modCore hs4

theorem wf_findRecord {s : State} {k : Nat} (h : Wf s) : Wf (findRecord s k).1 := by
  unfold findRecord
  split
  · rename_i x s1 r e
    have hs1 : Wf s1 := wf_fst e (wf_popHead h)
    exact hs1
  · rename_i x s1 e
    have hs1 : Wf s1 := wf_fst e (wf_popHead h)
    exact wf_sweep hs1

theorem wf_pickUp {s : State} {k fuel : Nat} (h : Wf s) : Wf (pickUp s k fuel) := by
  induction fuel generalizing s with
  | zero => exact h
  | succ fuel ih =>
    unfold pickUp
    extract_lets c
    split
    · exact h
    · split
      · exact h
      · rename_i s1 r e
        have hs1 : Wf s1 := wf_fst e (wf_findRecord h)
        split
        · exact h
        · split
          · exact ih (wf_modGroup hs1)
          · exact wf_startRecord hs1

theorem answers_execPickUp {core : Nat} {s : State} : Answers s (execPickUp core s) := by
  unfold execPickUp
  refine answers_next fun h => ?_
  split
  · exact h
  · exact wf_pickUp h

theorem wf_suspend {s : State} {k : Nat} (h : Wf s) : Wf (suspend s k) := by
  unfold suspend
  extract_lets s1
  have hs1 : Wf s1 := wf_modCore (wf_coreSwitch h)
  exact wf_pickUp hs1

theorem answers_execRegroup {kern : Nat} {s : State} : Answers s (execRegroup kern s) := by
  unfold execRegroup
  extract_lets g live
  split
  · exact answers_next id
  · split
    · exact answers_next id
    · extract_lets s1
      have hs1 : Wf s → Wf s1 := wf_setGroup
      exact answers_next fun h => wf_foldl (fun _ _ => wf_startRecord) _ (hs1 h)

theorem wf_groupComplete {s : State} {kern : Nat} (h : Wf s) : Wf (groupComplete s kern) := by
  unfold groupComplete
  extract_lets g s1
  have hs1 : Wf s1 := wf_groupEnd h
  exact wf_ctxSettle (wf_foldl (fun _ _ => wf_pktOutcome) _ hs1)

theorem answers_execGroupRetire {kern : Nat} {s : State} : Answers s (execGroupRetire kern s) := by
  unfold execGroupRetire
  extract_lets g
  split
  · exact answers_next id
  · exact answers_next wf_groupComplete

theorem answers_execFork {xa : Nat} {s : State} : Answers s (execFork xa s) :=
  answers_issueWith (fun _ _ => wf_nextWord) (fun _ _ => wf_nextColt)

theorem wf_forkStep {s : State} {k a j : Nat} (h : Wf s) : Wf (forkStep s k a j) := by
  unfold forkStep
  extract_lets s1 s2 c hd s3 s4 s5
  have hs1 : Wf s1 := wf_landUpTo _ _ h
  have hs2 : Wf s2 := wf_foldl (fun _ _ => wf_releaseAt) _ hs1
  have hs3 : Wf s3 := wf_devPut _ _ _ _ hs2
  have hs4 : Wf s4 := wf_setRecLink hs3
  have hs5 : Wf s5 := by
    unfold s5
    split
    · exact hs4
    · exact wf_atomPut _ _ _ _ hs4
  exact wf_modCore (wf_pushHead hs5)

theorem wf_atomMark {s : State} {cid va : Nat} (h : Wf s) : Wf (State.atomMark s cid va) := by
  unfold State.atomMark
  split
  · exact wf_markAtomic _ h
  · exact h

theorem answers_execJoin {xa : Nat} {s : State} : Answers s (execJoin xa s) := by
  unfold execJoin
  split
  · exact answers_next wf_takeTrap
  · exact answers_issueWith (fun _ _ => wf_nextWord) (fun _ _ => wf_nextColt)

theorem answers_execSteal {pd : Nat} {s : State} : Answers s (execSteal pd s) :=
  answers_issueWith (fun _ _ => wf_nextWord) (fun _ _ => wf_nextColt)

theorem answers_execSusp {s : State} : Answers s (execSusp s) :=
  answers_issueWith (fun _ _ => wf_nextWord) (fun _ _ => wf_nextColt)

theorem answers_execYield {s : State} : Answers s (execYield s) :=
  answers_issueWith (fun _ _ => wf_nextWord) (fun _ _ => wf_nextColt)

theorem wf_wakeChain {s : State} {k fuel w : Nat} (h : Wf s) : Wf (wakeChain s k fuel w) := by
  induction fuel generalizing s w with
  | zero => exact h
  | succ fuel ih =>
    unfold wakeChain
    split
    · exact h
    · exact ih (wf_pushHead (wf_setRecStatus h))

theorem wf_finishRecord {s : State} {k r : Nat} (h : Wf s) : Wf (finishRecord s k r) := by
  unfold finishRecord
  extract_lets cid s1 j n s2 w
  have hs1 : Wf s1 := wf_setRecStatus h
  have hs2 : Wf s2 := by
    unfold s2
    split
    · exact wf_atomMark hs1
    · exact wf_atomPut _ _ _ _ hs1
  split
  · exact hs1
  · split
    · exact hs2
    · exact wf_atomPut _ _ _ _ (wf_wakeChain hs2)

theorem wf_suspStep {s : State} {k : Nat} (h : Wf s) : Wf (suspStep s k) := by
  unfold suspStep
  extract_lets c g rest
  split
  · exact wf_suspend h
  · split
    · extract_lets s1
      have hs1 : Wf s1 := wf_setGroup h
      split
      · exact wf_suspend (wf_finishRecord hs1)
      · exact wf_suspend hs1
    · exact wf_suspend (wf_finishRecord h)

theorem wf_yieldStep {s : State} {k addr : Nat} (h : Wf s) : Wf (yieldStep s k addr) := by
  unfold yieldStep
  extract_lets c
  split
  · exact wf_suspend h
  · exact wf_suspend (wf_pushTail (wf_setRecStatus (wf_setRecEntry h)))

theorem wf_joinStep {s0 : State} {k a addr : Nat} (h : Wf s0) : Wf (joinStep s0 k a addr) := by
  unfold joinStep
  extract_lets s c
  have hs : Wf s := wf_atomMark h
  split
  · exact wf_modCore (wf_foldl (fun _ _ => wf_acquireAt) _ hs)
  · split
    · exact wf_suspend hs
    · extract_lets s1 s2
      have hs1 : Wf s1 := wf_setRecStatus (wf_setRecEntry hs)
      have hs2 : Wf s2 := wf_setRecLink hs1
      exact wf_suspend (wf_atomPut _ _ _ _ hs2)

theorem answers_execSuspensionDrainDone {core : Nat} {s : State} : Answers s (execSuspensionDrainDone core s) := by
  unfold execSuspensionDrainDone
  extract_lets c go
  have hgo : ∀ f : State → State, (∀ t, Wf t → Wf (f t)) → Answers s (go f) := by
    intro f hf
    unfold go
    split
    · exact answers_next id
    · split
      · exact answers_next id
      · rename_i s1 e
        split
        · exact answers_next fun h => hf _ (wf_foldl (fun _ _ => wf_releaseAt) _ (wf_drainCore e h))
        · exact answers_next id
  split
  · exact hgo _ fun _ => wf_suspStep
  · exact hgo _ fun _ => wf_yieldStep
  · exact hgo _ fun _ => wf_joinStep
  · exact answers_next id

theorem wf_heldStep {s : State} {k : Nat} (h : Wf s) : Wf (heldStep s k) := by
  unfold heldStep
  extract_lets c
  split
  · split
    · exact h
    · exact wf_forkStep h
  · exact wf_unlessStalled h (wf_retryHold h)

/-! Operations of Machine/Packet. -/

theorem wf_ageGang {s : State} {g : Nat} (h : Wf s) : Wf (ageGang s g) := by
  unfold ageGang
  split
  · exact wf_modGang h
  · exact h

theorem wf_ageGangs {s : State} (h : Wf s) : Wf (ageGangs s) := wf_foldl (fun _ _ => wf_ageGang) _ h

theorem wf_queueReady {s : State} {q : Nat} (h : Wf s) : Wf (queueReady s q) := by
  unfold queueReady
  extract_lets v s1
  have hs1 : Wf s1 := by
    unfold s1
    split
    · exact h
    · exact wf_modGang h
  exact wf_setQueue hs1

theorem wf_advance {s : State} {q : Nat} (h : Wf s) : Wf (advance s q) := by
  unfold advance
  extract_lets v r ahead
  exact wf_hubWrite _ _ _ (wf_setQueue h)

theorem wf_addPkt {s : State} {p : Pkt} (h : Wf s) : Wf (addPkt s p).1 := by
  unfold addPkt
  extract_lets id x
  exact wf_mk h

theorem wf_takePkt {s : State} {q : Nat} {bytes : List Byte} {outcome : Option (Nat × Nat)} (h : Wf s) : Wf (takePkt s q bytes outcome).1 :=
  by
  unfold takePkt
  split
  · rename_i x s3 pc e
    have hs3 : Wf s3 := wf_fst e (wf_addPkt h)
    extract_lets s2 v
    have hs2 : Wf s2 := wf_advance (wf_modQueue hs3)
    exact wf_setQueue hs2

theorem wf_failPkt {s : State} {q : Nat} {bytes : List Byte} {status detail : Nat} (h : Wf s) : Wf (failPkt s q bytes status detail) := by
  unfold failPkt
  split
  · rename_i x s3 pc e
    have hs3 : Wf s3 := wf_fst e (wf_addPkt h)
    exact wf_modQueue hs3

theorem wf_invalidateRange {s : State} {cid va len : Nat} (h : Wf s) : Wf (invalidateRange s cid va len) := by
  unfold invalidateRange
  extract_lets pages inR keep
  exact wf_mk h

theorem wf_useHandles {s0 : State} {cid p : Nat} {es : List HEntry} (h : Wf s0) : Wf (useHandles s0 cid p es) := by
  unfold useHandles
  extract_lets s s1 x s2
  have hs : Wf s := by
    unfold s
    refine wf_foldl (fun s a hw => ?_) _ h
    extract_lets hd
    split
    · exact wf_dropL2Range _ _ _ _ hw
    · exact hw
  have hs1 : Wf s1 := wf_foldl (fun _ _ => wf_modCtx) _ hs
  have hs2 : Wf s2 := wf_setPkt hs1
  refine wf_foldl (fun s a hw => ?_) _ hs2
  split
  · exact wf_invalidateRange hw
  · exact hw

theorem wf_settleHandle {s : State} {cid n : Nat} (h : Wf s) : Wf (settleHandle s cid n) := by
  unfold settleHandle
  extract_lets e
  split
  · exact wf_modCtx h
  · exact h

theorem wf_settleHandles {s : State} {cid : Nat} (h : Wf s) : Wf (settleHandles s cid) := wf_foldl (fun _ _ => wf_settleHandle) _ h

theorem wf_leaveHandles {s : State} {p : Nat} (h : Wf s) : Wf (leaveHandles s p) := by
  unfold leaveHandles
  extract_lets k
  refine wf_foldl (fun s a hw => ?_) _ h
  extract_lets e s1 e1
  have hs1 : Wf s1 := by
    unfold s1
    split
    · exact wf_dropL2Range _ _ _ _ hw
    · exact hw
  exact wf_modCtx hs1

theorem wf_handDone {s : State} (h : Wf s) : Wf (handDone s) := wf_mk h

theorem wf_answer {s : State} {p status detail : Nat} (h : Wf s) : Wf (answer s p status detail) := wf_of_mem (answer_mem _ _ _ _) h

/-! Operations of Machine/QueueProg. -/

theorem answers_qpStep {s : State} {f : Interp → Interp} : Answers s (qpStep s f) := by
  unfold qpStep
  split
  · exact answers_next id
  · exact answers_next wf_mk

theorem answers_qpAlu {s : State} {d : Nat} {f : Interp → DWord} : Answers s (qpAlu s d f) := answers_qpStep

theorem answers_execQLdw {d a win imm : Nat} {s : State} : Answers s (execQLdw d a win imm s) := by
  unfold execQLdw
  split
  · exact answers_next id
  · split
    · exact answers_qpAlu
    · extract_lets w
      split
      · exact answers_qpAlu
      · exact answers_after (wf_of_mem (fresh_mem' _)) answers_qpAlu

theorem answers_execQStw {d a win imm : Nat} {s : State} : Answers s (execQStw d a win imm s) := by
  unfold execQStw
  split
  · exact answers_next id
  · extract_lets v
    split
    · exact answers_qpStep
    · exact answers_after (wf_hubWrite _ _ _) answers_qpStep

theorem answers_qpBranch {s : State} {imm : Nat} {c : Interp → Bool} : Answers s (qpBranch s imm c) := answers_qpStep

theorem answers_qpEnd {s : State} {fate : Option (Nat × Nat)} : Answers s (qpEnd s fate) := by
  unfold qpEnd
  split
  · exact answers_next id
  · extract_lets s1 x
    have hs1 : Wf s → Wf s1 := wf_modQueue
    exact answers_next fun h => wf_mk (hs1 h)

theorem answers_execQDone {s : State} : Answers s (execQDone s) := answers_qpEnd

theorem answers_execQSkip {imm : Nat} {s : State} : Answers s (execQSkip imm s) := answers_qpEnd

theorem answers_execQFail {imm : Nat} {s : State} : Answers s (execQFail imm s) := answers_qpEnd

theorem wf_startProg {s : State} {qn i : Nat} (h : Wf s) : Wf (startProg s qn i) := by
  unfold startProg
  extract_lets q
  split
  · split
    · exact h
    · extract_lets p0 p1 s1 x
      have hs1 : Wf s1 := wf_setQueue h
      exact wf_mk hs1

/-! Operations of Machine/FrontEnd. -/

theorem wf_askMap {s : State} {g : Nat} (h : Wf s) : Wf (askMap s g) := by
  unfold askMap
  split
  · exact h
  · exact wf_modGang h

theorem wf_askMaps {s : State} {cid : Nat} (h : Wf s) : Wf (askMaps s cid) := wf_foldl (fun _ _ => wf_askMap) _ h

theorem wf_becomeResident {s : State} {cid : Nat} (h : Wf s) : Wf (becomeResident s cid) := by
  unfold becomeResident
  extract_lets x
  have hx : Wf x := wf_modCtx h
  exact wf_mk hx

theorem wf_mapGang {s : State} {g : Nat} (h : Wf s) : Wf (mapGang s g) := by
  unfold mapGang
  extract_lets qs slots hw x s1 s2 x_1 s2_1 s3
  have hs1 : Wf s1 := wf_mk h
  have hs2 : Wf s2 := wf_modGang hs1
  have hs2_1 : Wf s2_1 := wf_mk hs2
  have hs3 : Wf s3 := wf_foldl (fun _ _ => wf_modQueue) _ hs2_1
  split
  · exact wf_becomeResident hs3
  · exact hs3

theorem wf_unmapGang {s0 : State} {g : Nat} (h : Wf s0) : Wf (unmapGang s0 g) := by
  unfold unmapGang
  extract_lets s qs keep x s1 s2
  have hs : Wf s := wf_ageGang h
  have hs1 : Wf s1 := wf_modGang (wf_mk hs)
  have hs2 : Wf s2 := wf_foldl (fun _ _ => wf_modQueue) _ hs1
  split
  · exact wf_askMap hs2
  · exact hs2

theorem wf_beginStop {s : State} {cid : Nat} {final : CtxSt} (h : Wf s) : Wf (beginStop s cid final) := by
  unfold beginStop
  extract_lets x
  split
  · exact wf_setCtx h
  · split
    · exact wf_setCtx h
    · exact h

theorem wf_preemptFor {s : State} {cid : Nat} {keys : List (Nat × Nat × Nat)} (h : Wf s) : Wf (preemptFor s cid keys) :=
  wf_modCtx (wf_beginStop h)

theorem wf_contend {s : State} {eff own : Nat} {key : Nat × Nat × Nat} {holders : List Nat} (h : Wf s) :
    Wf (contend s eff own key holders) := by
  unfold contend
  refine wf_foldl (fun s a hw => ?_) _ h
  extract_lets gs
  split
  · exact wf_preemptFor hw
  · exact hw

theorem wf_askActive {s : State} (h : Wf s) : Wf (State.askActive s) := by
  unfold State.askActive
  split
  · exact wf_mk h
  · exact h

theorem answers_execDoorbell {val : Nat} {s0 : State} : Answers s0 (execDoorbell val s0) := by
  unfold execDoorbell
  extract_lets s q
  have hs : Wf s0 → Wf s := wf_askActive
  split
  · exact answers_next id
  · split
    · exact answers_next hs
    · split
      · split
        · exact answers_next fun h => wf_askMap (wf_modGang (hs h))
        · exact answers_next fun h => wf_failPkt (wf_setQueue (hs h))
      · extract_lets s1 s2
        have hs1 : Wf s0 → Wf s1 := fun h => wf_setQueue (hs h)
        have hs2 : Wf s0 → Wf s2 := fun h => wf_modGang (hs1 h)
        split
        · refine answers_next fun h => ?_
          split
          · exact wf_askMap (hs2 h)
          · exact (hs2 h)
        · split
          · exact answers_next fun h => wf_queueReady (hs1 h)
          · exact answers_next hs1

theorem wf_leaveIdle {s : State} {g : Nat} (h : Wf s) : Wf (leaveIdle s g) := by
  unfold leaveIdle
  extract_lets cid last
  split
  · exact h
  · split
    · exact wf_beginStop (wf_unmapGang h)
    · exact wf_unmapGang h

theorem answers_execGangMap {gang : Nat} {s : State} : Answers s (execGangMap gang s) := by
  unfold execGangMap
  extract_lets x qs wanted s_1 x_1 s_2 need idleGangs s1 s2
  have hs_1 : Wf s → Wf s_1 := wf_askMap
  have hs_2 : Wf s → Wf s_2 := fun h => wf_ageGangs (hs_1 h)
  have hs1 : Wf s → Wf s1 := by
    intro h
    unfold s1
    refine wf_foldl (fun s a hw => ?_) _ (hs_2 h)
    split
    · exact hw
    · exact wf_leaveIdle hw
  have hs2 : Wf s → Wf s2 := by
    intro h
    unfold s2
    split
    · exact (hs1 h)
    · split
      · exact wf_beginStop (wf_unmapGang (hs1 h))
      · exact (hs1 h)
  split
  · exact answers_next id
  · split
    · refine answers_next fun h => ?_
      split
      · exact (hs_1 h)
      · exact wf_mk (hs_1 h)
    · split
      · exact answers_next hs_1
      · split
        · exact answers_next fun h => wf_mapGang (hs2 h)
        · exact answers_next hs2

theorem answers_execPriorityAging {gang : Nat} {s : State} : Answers s (execPriorityAging gang s) := answers_next wf_ageGang

theorem wf_unblock {s : State} (h : Wf s) : Wf (unblock s) := by
  unfold unblock
  refine wf_foldl (fun s a hw => ?_) _ h
  split
  · exact wf_queueReady hw
  · exact hw

theorem wf_gangDispatched {s : State} {g : Nat} (h : Wf s) : Wf (gangDispatched s g) := by
  unfold gangDispatched
  extract_lets s1 x
  have hs1 : Wf s1 := wf_modGang h
  exact wf_mk hs1

theorem wf_queueDispatched {s : State} {q : Nat} (h : Wf s) : Wf (queueDispatched s q) := by
  unfold queueDispatched
  extract_lets g v s1 x
  have hs1 : Wf s1 := wf_modGang h
  exact wf_gangDispatched (wf_mk hs1)

theorem wf_tryQueue {s : State} {qn : Nat} (h : Wf s) : Wf (tryQueue s qn) := by
  unfold tryQueue
  extract_lets q hasProg
  split
  · split
    · exact wf_startProg h
    · exact wf_setQueue h
  · split
    · exact wf_failPkt h
    · exact wf_takePkt h
  · split
    · exact wf_failPkt h
    · split
      · split
        · exact wf_startProg h
        · exact wf_setQueue h
      · split
        · exact wf_setQueue (wf_ageGang h)
        · split
          · rename_i x s3 pc e
            have hs3 : Wf s3 := wf_fst e (wf_takePkt (wf_queueDispatched h))
            exact wf_mk hs3

theorem wf_pressHeld {s : State} (h : Wf s) : Wf (pressHeld s) := wf_foldl (fun _ _ => wf_contend) _ h

theorem wf_tryNode {s : State} {rid : Nat} {r : Replay} {i : Nat} {b : List Byte} (h : Wf s) : Wf (tryNode s rid r i b) := by
  unfold tryNode
  extract_lets k bad node
  split
  rename_i s1 id e
  have hs1 : Wf s1 := by
    refine wf_fst e (wf_addPkt ?_)
    split
    · exact h
    · exact wf_gangDispatched h
  exact wf_mk hs1

theorem answers_execPacketDispatch {s : State} : Answers s (execPacketDispatch s) := by
  unfold execPacketDispatch
  split
  · exact answers_next id
  · extract_lets s1
    have hs1 : Wf s → Wf s1 := fun h => wf_pressHeld (wf_unblock (wf_ageGangs h))
    split
    · exact answers_next fun h => wf_tryNode (wf_askActive (hs1 h))
    · split
      · exact answers_next fun h => wf_tryQueue (wf_askActive (hs1 h))
      · exact answers_next hs1

theorem answers_execQuantumExpiry {gang : Nat} {s0 : State} : Answers s0 (execQuantumExpiry gang s0) := by
  unfold execQuantumExpiry
  extract_lets s g cid blocked restores keys
  have hs : Wf s0 → Wf s := wf_ageGangs
  split
  · exact answers_next id
  · split
    · exact answers_next fun h => wf_setGang (wf_preemptFor (hs h))
    · exact answers_next id

theorem wf_takeKern {s : State} (h : Wf s) : Wf (takeKern s).1 := by
  unfold takeKern
  extract_lets n x
  exact wf_mk h

theorem wf_loadFirst {s : State} {kern k : Nat} (h : Wf s) : Wf (loadFirst s kern k) := by
  unfold loadFirst
  extract_lets secs
  exact wf_modCore h

theorem wf_startKernel {s : State} {kern later cid : Nat} {pkts : List Nat} {l : LaunchPlan} {loop : Option LoopRec} (h : Wf s) :
    Wf (startKernel s kern later cid pkts l loop) := by
  unfold startKernel
  extract_lets fused cores secs origins g s1 x s2
  have hs1 : Wf s1 := wf_setGroup h
  have hs2 : Wf s2 := wf_mk hs1
  exact wf_foldl (fun _ _ => wf_loadFirst) _ hs2

theorem answers_execLaunch {s : State} : Answers s (execLaunch s) := by
  unfold execLaunch
  split
  · exact answers_next id
  · split
    · exact answers_next id
    · extract_lets nxt
      split
      · exact answers_next fun h => wf_of_mem (answer_mem _ _ _ _) h
      · split
        · rename_i x s3 pc e
          have hs3 : Wf s → Wf s3 := fun h => wf_fst e (wf_takeKern h)
          split
          · split
            · rename_i x1 s31 pc1 e1
              have hs31 : Wf s → Wf s31 := fun h => wf_fst e1 (wf_takeKern (hs3 h))
              split
              · rename_i x2 s32 pc2 e2
                have hs32 : Wf s → Wf s32 := fun h => wf_fst e2 (wf_takePkt (hs31 h))
                extract_lets s4 x_1 x_2 s5 s6
                have hs4 : Wf s → Wf s4 := by
                  intro h
                  unfold s4
                  split
                  · exact (hs32 h)
                  · exact wf_hubWrite _ _ _ (hs32 h)
                have hs5 : Wf s → Wf s5 := fun h => wf_setPkt (wf_setPkt (hs4 h))
                have hs6 : Wf s → Wf s6 := fun h => wf_useHandles (wf_useHandles (hs5 h))
                exact answers_next fun h => wf_handDone (wf_startKernel (hs6 h))
          · extract_lets s2 x_1 s3_1
            have hs2 : Wf s → Wf s2 := by
              intro h
              unfold s2
              split
              · exact (hs3 h)
              · exact wf_hubWrite _ _ _ (hs3 h)
            have hs3_1 : Wf s → Wf s3_1 := fun h => wf_useHandles (wf_setPkt (hs2 h))
            exact answers_next fun h => wf_handDone (wf_startKernel (hs3_1 h))
          · extract_lets x_1 s2
            have hs2 : Wf s → Wf s2 := fun h => wf_useHandles (wf_setPkt (hs3 h))
            exact answers_next fun h => wf_handDone (wf_startKernel (hs2 h))

theorem answers_execLoopl {s : State} : Answers s (execLoopl s) := by
  unfold execLoopl
  split
  · exact answers_next id
  · split
    · exact answers_next id
    · split
      · exact answers_next fun h => wf_of_mem (answer_mem _ _ _ _) h
      · split
        · rename_i x s3 pc e
          have hs3 : Wf s → Wf s3 := fun h => wf_fst e (wf_takeKern h)
          extract_lets seqt loop x_1 s2
          have hs2 : Wf s → Wf s2 := fun h => wf_setPkt (wf_hubWrite _ _ _ (hs3 h))
          exact answers_next fun h => wf_handDone (wf_startKernel (wf_useHandles (hs2 h)))

theorem wf_releaseCore {s : State} {kern : Nat} {g : Machine.Group} {k : Nat} (h : Wf s) : Wf (releaseCore s kern g k) := by
  unfold releaseCore
  extract_lets s0 s1
  have hs0 : Wf s0 := wf_foldl (fun _ _ => wf_acquireAt) _ h
  have hs1 : Wf s1 := wf_coreSwitch hs0
  exact wf_modCore hs1

theorem answers_execGroupRelease {kern : Nat} {s : State} : Answers s (execGroupRelease kern s) := by
  unfold execGroupRelease
  extract_lets g ready earlier s1 s2 x s3 s4
  have hs1 : Wf s → Wf s1 := fun h => wf_foldl (fun _ _ hw => wf_hubWrite _ _ _ hw) _ h
  have hs2 : Wf s → Wf s2 := fun h => wf_setGroup (hs1 h)
  have hs3 : Wf s → Wf s3 := fun h => wf_mk (hs2 h)
  have hs4 : Wf s → Wf s4 := fun h => wf_foldl (fun _ _ => wf_releaseCore) _ (hs3 h)
  split
  · exact answers_next id
  · exact answers_next fun h => wf_modCtx (hs4 h)

theorem wf_settleDestroy {s : State} {cid : Nat} (h : Wf s) : Wf (settleDestroy s cid) := by
  unfold settleDestroy
  extract_lets x
  split
  · exact h
  · split
    · exact h
    · exact wf_setCtx (wf_pktOutcome h)

theorem wf_settleTurn {s : State} {g : Nat} (h : Wf s) : Wf (settleTurn s g) := by
  unfold settleTurn
  split
  · exact h
  · exact wf_modGang h

theorem wf_finishPkt {s : State} {p : Nat} (h : Wf s) : Wf (finishPkt s p) := by
  unfold finishPkt
  extract_lets k s1
  have hs1 : Wf s1 := wf_leaveHandles h
  split
  · exact h
  · extract_lets rec_ s2 s3 x x_1 s4
    have hs2 : Wf s2 := by
      unfold s2
      split
      · exact wf_hubWrite _ _ _ hs1
      · exact hs1
    have hs3 : Wf s3 := wf_modQueue hs2
    have hx : Wf x := wf_interrupt hs3
    have hs4 : Wf s4 := wf_mk hx
    exact wf_settleTurn (wf_settleDestroy (wf_settleHandles hs4))

theorem answers_execPacketComplete {pkt : Nat} {s : State} : Answers s (execPacketComplete pkt s) := by
  unfold execPacketComplete
  extract_lets k later
  split
  · exact answers_next id
  · split
    · exact answers_next fun h => wf_finishPkt (wf_finishPkt h)
    · exact answers_next wf_finishPkt

/-! Operations of Machine/Command. -/

theorem answers_execPacketCopy {s : State} : Answers s (execPacketCopy s) := by
  unfold execPacketCopy
  split
  · exact answers_next id
  · extract_lets src dst n hs s1
    have hs1 : Wf s → Wf s1 := wf_useHandles
    split
    · exact answers_next fun h => wf_of_mem (answer_mem _ _ _ _) h
    · split
      · exact answers_next fun h => wf_of_mem (answer_mem _ _ _ _) (hs1 h)
      · exact answers_next fun h => wf_of_mem (answer_mem _ _ _ _) (wf_hubWrite _ _ _ (hs1 h))

theorem wf_putVersion {s : State} {cid g v buf : Nat} (h : Wf s) : Wf (putVersion s cid g v buf) := wf_hubWrite _ _ _ (wf_hubWrite _ _ _ h)

theorem wf_firstVersion {s t : State} {cid g : Nat} {x y : GraphHdr} (e : firstVersion s cid g x = some (t, y)) (h : Wf s) : Wf t := by
  unfold firstVersion at e
  split at e
  · cases e
    exact h
  · split at e
    · cases e
    · cases e
      exact wf_putVersion (wf_hubWrite _ _ _ h)

theorem wf_settleReplay {s : State} {rid : Nat} (h : Wf s) : Wf (settleReplay s rid) := by
  unfold settleReplay
  extract_lets r
  split
  · exact h
  · split
    · exact wf_pktOutcome h
    · split
      · exact wf_pktOutcome h
      · split
        · exact wf_pktOutcome h
        · exact h

theorem answers_execGraphr {s : State} : Answers s (execGraphr s) := by
  unfold execGraphr
  split
  · exact answers_next id
  · extract_lets g
    split
    · exact answers_next fun h => wf_of_mem (answer_mem _ _ _ _) h
    · extract_lets ops
      split
      · exact answers_next fun h => wf_of_mem (answer_mem _ _ _ _) h
      · split
        · exact answers_next fun h => wf_of_mem (answer_mem _ _ _ _) h
        · rename_i x s1 h1 e
          have hs1 : Wf s → Wf s1 := wf_firstVersion e
          extract_lets counts r x_1
          exact answers_next fun h => wf_settleReplay (wf_handDone (wf_mk (hs1 h)))

theorem answers_execGraphNodeComplete {pkt : Nat} {s : State} : Answers s (execGraphNodeComplete pkt s) := by
  unfold execGraphNodeComplete
  extract_lets k s1 x
  have hs1 : Wf s → Wf s1 := wf_finishPkt
  split
  · exact answers_next id
  · split
    · extract_lets r fl deps r1
      split
      · exact answers_next fun h => wf_settleReplay (wf_mk (hs1 h))
      · exact answers_next hs1
    · exact answers_next id

theorem answers_execGraphp {s : State} : Answers s (execGraphp s) := by
  unfold execGraphp
  split
  · exact answers_next id
  · extract_lets b g node off len
    split
    · exact answers_next wf_answer
    · split
      · exact answers_next wf_answer
      · generalize (if bitOf (field b 40 1) 0 = true then _ else _ : Option (List Byte)) = v
        cases v with
        | none => exact answers_next wf_answer
        | some v =>
          dsimp -zeta only
          split
          · exact answers_next wf_answer
          · rename_i s1 hdr e
            extract_lets held size free s2 cur
            clear_value free
            have hs1 : Wf s → Wf s1 := wf_firstVersion e
            split
            · exact answers_next fun h => wf_answer (wf_putVersion (wf_hubWrite _ _ _ (hs1 h)))
            · split
              · exact answers_next id
              · exact answers_next fun h => wf_answer (wf_putVersion (wf_hubWrite _ _ _ (wf_hubWrite _ _ _ (hs1 h))))

theorem answers_execBind {s : State} : Answers s (execBind s) := by
  unfold execBind
  split
  · exact answers_next id
  · extract_lets b x base len sync idx others bad s1 s2
    have hs1 : Wf s → Wf s1 := wf_setCtx
    have hs2 : Wf s → Wf s2 := by
      intro h
      unfold s2
      split
      · exact wf_markAtomic _ (hs1 h)
      · exact (hs1 h)
    split
    · split
      · exact answers_next id
      · exact answers_next fun h => wf_of_mem (answer_mem _ _ _ _) (wf_setCtx h)
    · split
      · exact answers_next fun h => wf_of_mem (answer_mem _ _ _ _) h
      · split
        · exact answers_next id
        · exact answers_next fun h => wf_of_mem (answer_mem _ _ _ _) (hs2 h)

theorem wf_startUnmap {s : State} {p cid base len : Nat} (h : Wf s) : Wf (startUnmap s p cid base len) := by
  unfold startUnmap
  extract_lets leaves u s1 x
  have hs1 : Wf s1 := wf_foldl (fun _ _ hw => wf_putMemNat _ _ _ hw) _ h
  exact wf_setPkt (wf_modCtx hs1)

theorem answers_execUnmap {s : State} : Answers s (execUnmap s) := by
  unfold execUnmap
  split
  · exact answers_next id
  · extract_lets base len cuts
    split
    · exact answers_next fun h => wf_of_mem (answer_mem _ _ _ _) h
    · split
      · exact answers_next wf_handDone
      · exact answers_next fun h => wf_handDone (wf_startUnmap h)

theorem wf_purgeFrames {s : State} {fr : List (Nat × Nat)} (h : Wf s) : Wf (purgeFrames s fr) := by
  unfold purgeFrames
  extract_lets inF keep s1 entries x
  have hs1 : Wf s1 := by
    unfold s1
    refine wf_foldl (fun s a hw => wf_foldl (fun s a hw1 => ?_) _ hw) _ h
    split
    · exact wf_writeBack _ _ hw1
    · exact hw1
  exact wf_retryHolds (wf_mk hs1)

theorem wf_startWaiting {s : State} {cid fuel : Nat} (h : Wf s) : Wf (startWaiting s cid fuel) := by
  induction fuel generalizing s with
  | zero => exact h
  | succ fuel ih =>
    unfold startWaiting
    split
    · exact h
    · split
      · exact ih (wf_startUnmap h)
      · exact h

theorem answers_execUnmapDrainDone {cid : Nat} {s : State} : Answers s (execUnmapDrainDone cid s) := by
  unfold execUnmapDrainDone
  extract_lets x
  split
  · exact answers_next id
  · split
    · exact answers_next id
    · extract_lets s1 s2 s3
      have hs1 : Wf s → Wf s1 := wf_purgeFrames
      have hs2 : Wf s → Wf s2 := fun h => wf_modCtx (hs1 h)
      have hs3 : Wf s → Wf s3 := fun h => wf_pktOutcome (hs2 h)
      refine answers_next fun h => ?_
      split
      · exact wf_startWaiting (hs3 h)
      · exact (hs3 h)

theorem answers_execSignal {s : State} : Answers s (execSignal s) := by
  unfold execSignal
  split
  · exact answers_next id
  · extract_lets ev v
    split
    · exact answers_next fun h => wf_of_mem (answer_mem _ _ _ _) h
    · extract_lets s1 old new
      have hs1 : Wf s → Wf s1 := wf_markAtomic _
      exact answers_next fun h => wf_of_mem (answer_mem _ _ _ _) (wf_putMemNat _ _ _ (hs1 h))

theorem wf_waitOver {s : State} {p st : Nat} (h : Wf s) : Wf (waitOver s p st) := by
  unfold waitOver
  extract_lets k s1
  have hs1 : Wf s1 := wf_pktOutcome h
  split
  · exact wf_queueReady hs1
  · exact hs1

theorem answers_execWait {s : State} : Answers s (execWait s) := by
  unfold execWait
  split
  · exact answers_next id
  · split
    · exact answers_next fun h => wf_of_mem (answer_mem _ _ _ _) h
    · exact answers_next fun h => wf_of_mem (answer_mem _ _ _ _) h
    · extract_lets us word s1
      have hs1 : Wf s → Wf s1 := fun h => wf_handDone (wf_setPkt h)
      split
      · exact answers_next hs1
      · exact answers_next fun h => wf_modQueue (hs1 h)

theorem answers_execWaitSatisfied {pkt : Nat} {s : State} : Answers s (execWaitSatisfied pkt s) := by
  unfold execWaitSatisfied
  extract_lets k
  split
  · exact answers_next wf_waitOver
  · exact answers_next id

theorem answers_execWaitTimeout {pkt : Nat} {s : State} : Answers s (execWaitTimeout pkt s) := by
  unfold execWaitTimeout
  extract_lets k
  split
  · split
    · exact answers_next wf_waitOver
    · exact answers_next id
  · exact answers_next id

/-! Operations of Machine/Context. -/

theorem wf_freeze {s : State} {k : Nat} (h : Wf s) : Wf (freeze s k) := wf_modCore (wf_settleBase (wf_stopIssue h))

theorem answers_execPreemptStop {cid : Nat} {s : State} : Answers s (execPreemptStop cid s) := by
  unfold execPreemptStop
  split
  · exact answers_next id
  · exact answers_next fun h => wf_foldl (fun _ _ => wf_freeze) _ h

theorem wf_dropLoading {s : State} {cid : Nat} (h : Wf s) : Wf (dropLoading s cid) := by
  unfold dropLoading
  refine wf_foldl (fun s a hw => wf_foldl (fun s a hw1 => ?_) _ hw) _ h
  split
  · exact wf_modCore hw1
  · exact hw1

theorem wf_leaveCores {s : State} {ks : List Nat} (h : Wf s) : Wf (leaveCores s ks) :=
  wf_foldl (fun _ _ hw => wf_foldl (fun _ _ => wf_modTile) _ (wf_modCore hw)) _ h

theorem wf_settleBarriers {s : State} {cid : Nat} (h : Wf s) : Wf (settleBarriers s cid) := wf_mk h

theorem wf_putParts {s : State} {pa : Nat} {xs : List Part} (h : Wf s) : Wf (putParts s pa xs) := by
  induction xs generalizing s pa with
  | nil => exact h
  | cons x xs ih =>
    unfold putParts
    refine ih ?_
    split
    · exact wf_muleLong _ _ _ _ h
    · exact wf_putLong _ _ _ h

theorem wf_writeSave {s : State} {cid : Nat} {ks : List Nat} {opens : List (Nat × List (List Byte))} {faulted : Bool} (h : Wf s) :
    Wf (writeSave s cid ks opens faulted) := by
  unfold writeSave
  extract_lets base dir placed fits size s1 s2 x
  have hs1 : Wf s1 := wf_foldl (fun _ _ => wf_putParts) _ h
  have hs2 : Wf s2 := wf_putMem _ _ hs1
  have hx : Wf x := wf_putMem _ _ hs2
  exact wf_mk hx

theorem answers_execSaveComplete {cid : Nat} {s0 : State} : Answers s0 (execSaveComplete cid s0) := by
  unfold execSaveComplete
  split
  · exact answers_next id
  · split
    · exact answers_next id
    · extract_lets s ks opens s1 kept s2
      have hs : Wf s0 → Wf s := fun h => wf_foldl (fun _ _ => wf_rebase) _ h
      have hs1 : Wf s0 → Wf s1 := fun h => wf_writeSave (hs h)
      have hs2 : Wf s0 → Wf s2 := fun h => wf_modCtx (wf_leaveCores (wf_dropLoading (wf_settleBarriers (hs1 h))))
      split
      · exact answers_next hs
      · refine answers_next fun h => ?_
        split
        · exact wf_askMaps (hs2 h)
        · exact (hs2 h)

theorem wf_savedLoops {s : State} {cid : Nat} {x : Ctx} {v : Saved} (h : Wf s) : Wf (savedLoops s cid x v) := by
  unfold savedLoops
  split
  · exact h
  · extract_lets ls x_1
    exact wf_mk h

theorem wf_restoreTouch {s : State} {cid : Nat} {v : Saved} (h : Wf s) : Wf (restoreTouch s cid v) := by
  unfold restoreTouch
  extract_lets s1
  have hs1 : Wf s1 := wf_muleTouch _ _ h
  exact wf_foldl (fun _ _ hw => wf_foldl (fun _ _ hw1 => wf_dropL2Range _ _ _ _ hw1) _ hw) _ hs1

theorem wf_serveFault {s : State} {cid frame slot : Nat} (h : Wf s) : Wf (serveFault s cid frame slot) := by
  unfold serveFault
  extract_lets s1 s2
  have hs1 : Wf s1 := wf_putMem _ _ h
  have hs2 : Wf s2 := wf_putMemNat _ _ _ hs1
  exact wf_modCtx hs2

theorem wf_restoreFault {s : State} {cid : Nat} {v : Saved} {m : Missing} (h : Wf s) : Wf (restoreFault s cid v m) := by
  unfold restoreFault
  extract_lets x k c r info
  split
  · exact wf_serveFault h
  · exact wf_setCtx (wf_putMemNat _ _ _ (wf_putMemNat _ _ _ (wf_postFault h)))

theorem answers_execContextRestore {cid : Nat} {s0 : State} : Answers s0 (execContextRestore cid s0) := by
  unfold execContextRestore
  extract_lets s x held
  have hs : Wf s0 → Wf s := wf_ageGangs
  split
  · exact answers_next id
  · rename_i v _
    split
    · exact answers_next id
    · split
      · exact answers_next fun h => wf_setCtx (hs h)
      · split
        · exact answers_next hs
        · extract_lets s1 back y
          split
          · exact answers_next fun h => wf_contend (hs h)
          · have hs1 : Wf s0 → Wf s1 := fun h => wf_restoreTouch (hs h)
            clear_value back
            cases back with
            | error m => exact answers_next fun h => wf_restoreFault (hs1 h)
            | ok r =>
              exact answers_next fun h => wf_setCtx (wf_foldl (fun _ _ hw => wf_foldl (fun _ _ => wf_loadFirst) _ hw) _
                (wf_foldl (fun _ _ => wf_setCore) _ (wf_foldl (fun _ _ => wf_setTile) _ (wf_savedLoops (hs1 h)))))

theorem wf_startTurns {s : State} {cid : Nat} (h : Wf s) : Wf (startTurns s cid) := wf_foldl (fun _ _ => wf_modGang) _ h

theorem answers_execRestoreResume {cid : Nat} {s : State} : Answers s (execRestoreResume cid s) := by
  unfold execRestoreResume
  extract_lets x
  split
  · exact answers_next id
  · extract_lets ks s1 runs s2 x_1 x_2
    have hs1 : Wf s → Wf s1 := fun h => wf_foldl (fun _ _ => wf_modCore) _ h
    have hs2 : Wf s → Wf s2 := fun h => wf_startTurns (wf_setCtx (hs1 h))
    have hx_1 : Wf s → Wf x_1 := fun h => wf_haltCtx (hs2 h)
    split
    · exact answers_next id
    · split
      · exact answers_next fun h => wf_mk (hx_1 h)
      · exact answers_next hs2

theorem answers_execSnapshotReplay {core : Nat} {s : State} : Answers s (execSnapshotReplay core s) := by
  unfold execSnapshotReplay
  extract_lets c
  split
  · exact answers_next id
  · exact answers_next fun h => wf_landUpTo _ _ h

theorem answers_execCheckpoint {cid : Nat} {s : State} : Answers s (execCheckpoint cid s) := by
  unfold execCheckpoint
  extract_lets x due zs seq s1 s2
  have hs1 : Wf s → Wf s1 := wf_ctxWrite _ _ _ _
  have hs2 : Wf s → Wf s2 := fun h => wf_foldl (fun _ _ => wf_takeSlot) _ (hs1 h)
  split
  · exact answers_next id
  · split
    · exact answers_next fun h => wf_modCtx (wf_ctxWrite _ _ _ _ h)
    · exact answers_next fun h => wf_modCtx (hs2 h)

theorem answers_execCheckpointDone {cid : Nat} {s : State} : Answers s (execCheckpointDone cid s) := by
  unfold execCheckpointDone
  extract_lets x keys slot n dir
  split
  · exact answers_next id
  · split
    · exact answers_next id
    · extract_lets s1 s2 s3 s4
      have hs1 : Wf s → Wf s1 := fun h => wf_foldl (fun _ _ hw => wf_ctxWrite _ _ _ _ hw) _ h
      have hs2 : Wf s → Wf s2 := fun h => wf_ctxWrite _ _ _ _ (hs1 h)
      have hs3 : Wf s → Wf s3 := fun h => wf_ctxWrite _ _ _ _ (hs2 h)
      have hs4 : Wf s → Wf s4 := by
        intro h
        unfold s4
        refine wf_foldl (fun s a hw => ?_) _ (wf_movedAll (hs3 h))
        extract_lets z
        exact wf_slotRelease hw
      exact answers_next fun h => wf_modCtx (hs4 h)

theorem wf_cancelQueue {s : State} {q : Nat} (h : Wf s) : Wf (cancelQueue s q) := by
  unfold cancelQueue
  extract_lets v s1 s2 x
  have hs1 : Wf s1 := by
    unfold s1
    refine wf_foldl (fun s a hw => ?_) _ h
    split
    · rename_i x1 s3 pc e
      have hs3 : Wf s3 := wf_fst e (wf_addPkt hw)
      exact wf_modQueue hs3
  have hs2 : Wf s2 := wf_modQueue hs1
  exact wf_mk hs2

theorem wf_clearContext {s : State} {cid : Nat} (h : Wf s) : Wf (clearContext s cid) := by
  unfold clearContext
  extract_lets s2 mine drop hd
  have hs2 : Wf s2 := wf_leaveCores (wf_dropLoading h)
  exact wf_mk hs2

theorem wf_destroyCtx {s : State} {cid p : Nat} (h : Wf s) : Wf (destroyCtx s cid p) := by
  unfold destroyCtx
  extract_lets mine s0 nodes s1 s2 s3 off x s4 x_1
  have hs0 : Wf s0 := wf_foldl (fun _ _ => wf_writeBackDie) _ (wf_foldl (fun _ _ => wf_leaveHandles) _ h)
  have hs1 : Wf s1 := wf_foldl (fun _ _ => wf_addPkt) _ (wf_clearContext hs0)
  have hs2 : Wf s2 := wf_foldl (fun _ _ => wf_pktOutcome) _ hs1
  have hs3 : Wf s3 := wf_foldl (fun _ _ => wf_cancelQueue) _ hs2
  have hs4 : Wf s4 := wf_mk hs3
  exact wf_settleDestroy (wf_handDone (wf_setCtx hs4))

/-! Operations of Machine/CtxControl. -/

theorem answers_onContext {s : State} {sub : Nat} {f : Nat → Pkt → Nat → Ctx → State} (hf : ∀ p k c x, Wf s → Wf (f p k c x)) :
    Answers s (onContext s sub f) := by
  obtain ⟨_, e⟩ | ⟨p, _, st, _, _, e⟩ | ⟨p, k, c, _, _, e⟩ := onContext_cases s sub f
  · exact e ▸ answers_next id
  · exact e ▸ answers_next (wf_of_mem (answer_mem _ _ _ _))
  · exact e ▸ answers_next (hf p k c _)

theorem answers_execCtxcCreate {s : State} : Answers s (execCtxcCreate s) := by
  unfold execCtxcCreate
  split
  · exact answers_next id
  · split
    · exact answers_next wf_answer
    · split
      · exact answers_next wf_answer
      · extract_lets b root save lease depth gn free
        clear_value free
        split
        · exact answers_next wf_answer
        · split
          · exact answers_next wf_answer
          · exact answers_next fun h => wf_answer (wf_setCtx h)

theorem answers_execCtxcDestroy {s : State} : Answers s (execCtxcDestroy s) := by
  unfold execCtxcDestroy
  refine answers_onContext (fun p k c x hw => ?_)
  split
  · exact wf_of_mem (answer_mem _ _ _ _) hw
  · exact wf_destroyCtx hw

theorem answers_execCtxcSet {s : State} : Answers s (execCtxcSet s) := by
  unfold execCtxcSet
  refine answers_onContext (fun p k c x hw => ?_)
  extract_lets v bad put
  have hbad : Wf bad := wf_of_mem (answer_mem _ _ _ _) hw
  split
  · exact wf_of_mem (answer_mem _ _ _ _) (wf_setCtx hw)
  · split
    · exact hbad
    · exact wf_of_mem (answer_mem _ _ _ _) (wf_setCtx hw)
  · split
    · exact wf_of_mem (answer_mem _ _ _ _) (wf_setCtx hw)
    · exact hbad
  · exact wf_of_mem (answer_mem _ _ _ _) (wf_setCtx hw)
  · split
    · exact hbad
    · exact wf_of_mem (answer_mem _ _ _ _) (wf_setCtx hw)
  · exact hbad

theorem answers_execCtxcResume {s : State} : Answers s (execCtxcResume s) := by
  unfold execCtxcResume
  refine answers_onContext (fun p k c x hw => ?_)
  split
  · exact wf_of_mem (answer_mem _ _ _ _) (wf_askMaps (wf_setCtx hw))
  · exact wf_of_mem (answer_mem _ _ _ _) hw

theorem answers_execCtxcCkpt {s : State} : Answers s (execCtxcCkpt s) := by
  unfold execCtxcCkpt
  refine answers_onContext (fun p k c x hw => ?_)
  extract_lets iv area bytes y z
  split
  · exact wf_of_mem (answer_mem _ _ _ _) hw
  · exact wf_of_mem (answer_mem _ _ _ _) (wf_setCtx hw)

theorem answers_execCtxcQcreate {s : State} : Answers s (execCtxcQcreate s) := by
  refine answers_onContext (fun p k c x h => ?_)
  extract_lets b home desc gang prio quant g mates bad
  have hbad : Wf bad := wf_answer h
  split
  · extract_lets ring logn s1 s2 hub s3
    have hs2 : Wf s2 := by
      unfold s2
      split
      · exact wf_setGang (wf_setQueue h)
      · exact wf_setQueue h
    split
    · exact hbad
    · refine wf_answer ?_
      unfold s3
      split
      · exact hs2
      · exact wf_modQueue (wf_mk hs2)
      · exact wf_askMap (wf_modGang (wf_unmapGang hs2))
  · exact hbad

theorem answers_onQueue {s : State} {sub : Nat} {f : Nat → Pkt → Nat → Queue → State} (hf : ∀ p k q v, Wf s → Wf (f p k q v)) :
    Answers s (onQueue s sub f) := by
  refine answers_onContext (fun p k c x h => ?_)
  extract_lets q v
  split
  · exact wf_of_mem (answer_mem _ _ _ _) h
  · split
    · exact wf_of_mem (answer_mem _ _ _ _) h
    · exact hf p k q v h

theorem answers_execCtxcQdestroy {s : State} : Answers s (execCtxcQdestroy s) := by
  unfold execCtxcQdestroy
  refine answers_onQueue (fun p k q v hw => ?_)
  split
  · exact wf_of_mem (answer_mem _ _ _ _) hw
  · exact wf_of_mem (answer_mem _ _ _ _) (wf_cancelQueue hw)

theorem answers_execCtxcQprog {s : State} : Answers s (execCtxcQprog s) := by
  unfold execCtxcQprog
  refine answers_onQueue (fun p k q v hw => ?_)
  extract_lets b
  split
  · exact wf_of_mem (answer_mem _ _ _ _) hw
  · split
    · split
      · exact wf_of_mem (answer_mem _ _ _ _) hw
      · extract_lets ws r
        split
        · exact wf_of_mem (answer_mem _ _ _ _) hw
        · exact wf_of_mem (answer_mem _ _ _ _) (wf_setQueue hw)
    · exact wf_of_mem (answer_mem _ _ _ _) hw

theorem answers_execCtxcQreset {s : State} : Answers s (execCtxcQreset s) := by
  unfold execCtxcQreset
  refine answers_onQueue (fun p k q v hw => ?_)
  split
  · exact wf_of_mem (answer_mem _ _ _ _) hw
  · exact wf_of_mem (answer_mem _ _ _ _) (wf_queueReady (wf_advance hw))

theorem answers_execCtxcGmap {s : State} : Answers s (execCtxcGmap s) := by
  unfold execCtxcGmap
  refine answers_onContext (fun p k c x hw => ?_)
  extract_lets g qs
  split
  · exact wf_of_mem (answer_mem _ _ _ _) hw
  · split
    · exact wf_of_mem (answer_mem _ _ _ _) hw
    · exact wf_of_mem (answer_mem _ _ _ _) (wf_mapGang hw)

theorem answers_execCtxcGunmap {s : State} : Answers s (execCtxcGunmap s) := by
  unfold execCtxcGunmap
  refine answers_onContext (fun p k c x hw => ?_)
  extract_lets g qs last s1
  have hs1 : Wf s1 := wf_unmapGang hw
  split
  · exact wf_of_mem (answer_mem _ _ _ _) hw
  · split
    · exact wf_of_mem (answer_mem _ _ _ _) hw
    · refine wf_of_mem (answer_mem _ _ _ _) ?_
      split
      · exact wf_beginStop hs1
      · exact hs1

theorem answers_execCtxcHdrop {s : State} : Answers s (execCtxcHdrop s) := by
  unfold execCtxcHdrop
  refine answers_onContext (fun p k c x hw => ?_)
  extract_lets hd e s1
  have hs1 : Wf s1 := wf_setCtx hw
  split
  · exact wf_of_mem (answer_mem _ _ _ _) hw
  · exact wf_of_mem (answer_mem _ _ _ _) (wf_settleHandle hs1)

theorem answers_execCtxcFpool {s : State} : Answers s (execCtxcFpool s) := by
  unfold execCtxcFpool
  refine answers_onContext (fun p k c x hw => ?_)
  extract_lets b n mode inPools
  split
  · exact wf_of_mem (answer_mem _ _ _ _) hw
  · extract_lets fr pool
    split
    · exact wf_of_mem (answer_mem _ _ _ _) hw
    · exact wf_of_mem (answer_mem _ _ _ _) (wf_setCtx hw)

/-! Operations of Machine/Grammar. -/

theorem wf_post {q : SeqRef} {s : State} {off len v : Nat} (h : Wf s) : Wf (SeqRef.post q s off len v) := wf_seqPut h

theorem wf_put {q : SeqRef} {s : State} {off len v : Nat} (h : Wf s) : Wf (SeqRef.put q s off len v) := wf_devWrite _ _ _ h

theorem wf_modMem {q : SeqRef} {s : State} {f : SeqMem → SeqMem} (h : Wf s) : Wf (SeqRef.modMem q s f) := wf_modCtx h

theorem wf_modLoop {s : State} {kern : Nat} {f : LoopRec → LoopRec} (h : Wf s) : Wf (State.modLoop s kern f) := wf_modGroup h

theorem wf_window {q : SeqRef} {s : State} {gs : List Nat} (h : Wf s) : Wf (SeqRef.window q s gs) := by
  unfold SeqRef.window
  extract_lets h2
  exact wf_foldl (fun _ _ => wf_put) _ (wf_put h)

theorem wf_flockFill {s : State} {q : SeqRef} {t : Nat} (h : Wf s) : Wf (flockFill s q t) := by
  unfold flockFill
  extract_lets hd
  split
  · exact h
  · exact wf_modCtx h

theorem wf_enterTok {s : State} {q : SeqRef} {fill : Bool} {t : Nat} (h : Wf s) : Wf (enterTok s q fill t) := by
  unfold enterTok
  extract_lets s1 hd s2
  have hs1 : Wf s1 := by
    unfold s1
    split
    · exact wf_flockFill h
    · exact h
  have hs2 : Wf s2 := wf_modMem (wf_put hs1)
  exact wf_put (wf_put hs2)

theorem wf_storePda {s : State} {cid a : Nat} {p : Pda} (h : Wf s) : Wf (storePda s cid a p) := by
  unfold storePda
  extract_lets s1
  have hs1 : Wf s1 := wf_foldl (fun _ _ hw => wf_hubWrite _ _ _ hw) _ h
  exact wf_hubWrite _ _ _ hs1

theorem wf_setErr {s : State} {cid a : Nat} (h : Wf s) : Wf (setErr s cid a) := wf_hubWrite _ _ _ h

/-! Operations of Machine/Watch. -/

theorem wf_disarmInvalid {s : State} {q : SeqRef} {w : Nat} (h : Wf s) : Wf (disarmInvalid s q w) := by
  unfold disarmInvalid
  refine wf_foldl (fun s a hw => ?_) _ h
  split
  · exact hw
  · exact wf_devWrite _ _ _ (wf_devWrite _ _ _ hw)

theorem wf_deliver {s : State} {q : SeqRef} {held : List Byte} {toks : List Nat} {how : Deliver} (h : Wf s) :
    Wf (deliver s q held toks how) := by
  unfold deliver
  extract_lets w es tokb bytesOf pats
  split
  · exact h
  · split
    · extract_lets hd d ready left s1
      have hs1 : Wf s1 := wf_modMem (wf_devWrite _ _ _ h)
      split
      · exact hs1
      · extract_lets s2 s3
        have hs2 : Wf s2 := wf_foldl (fun _ _ hw => wf_hubWrite _ _ _ hw) _ hs1
        have hs3 : Wf s3 := wf_foldl (fun _ _ hw => wf_hubWrite _ _ _ hw) _ hs2
        exact wf_hubWrite _ _ _ hs3

theorem wf_seqTrap {s : State} {q : SeqRef} {tcause tentry : Nat} (h : Wf s) : Wf (seqTrap s q tcause tentry) := by
  unfold seqTrap
  extract_lets w s1 s2 wpt s3 x
  have hs1 : Wf s1 := by
    unfold s1
    split
    · exact h
    · exact wf_devWrite _ _ _ (wf_devWrite _ _ _ h)
  have hs2 : Wf s2 := wf_put (wf_put hs1)
  have hs3 : Wf s3 := wf_foldl (fun _ _ => wf_takeSlot) _ (wf_modMem hs2)
  exact wf_mk hs3

theorem wf_putTails {s : State} {cid w : Nat} {tt : List Nat} {bt : List Byte} (h : Wf s) : Wf (putTails s cid w tt bt) :=
  wf_devWrite _ _ _ (wf_devWrite _ _ _ h)

theorem wf_advanceGram {s : State} {v : WEnv} {pda : Option Pda} (h : Wf s) : Wf (advanceGram s v pda) := by
  unfold advanceGram
  split
  · exact wf_storePda h
  · exact h

theorem wf_watchTok {v : WEnv} {a : WAcc} {t : Nat} (h : Wf a.s) : Wf (watchTok v a t).1.s := by
  unfold watchTok
  extract_lets s cid gram fail tt count j
  clear_value gram
  cases gram with
  | none => exact h
  | some pda =>
    refine iteInduction (motive := fun r : WAcc × Option (WAct × Option Nat) => Wf r.1.s) (fun _ => h) (fun _ => ?_)
    · split
      · exact wf_advanceGram h
      · split
        · split
          · exact h
          · extract_lets hit hits budget cnt acting notes s1 term did armed a1
            have hs1 : Wf s1 := by
              unfold s1
              refine wf_foldl (fun s e hw => ?_) _ (wf_advanceGram h)
              extract_lets na
              split
              · exact wf_atomPut _ _ _ _ hw
              · exact hw
            clear_value term
            cases term
            · exact hs1
            · exact hs1
        · exact h

theorem wf_watchAll {v : WEnv} {a : WAcc} {ts : List Nat} (h : Wf a.s) : Wf (watchAll v a ts).1.s := by
  induction ts generalizing a with
  | nil => exact h
  | cons t ts ih =>
    have ht : Wf (watchTok v a t).1.s := wf_watchTok h
    unfold watchAll
    split
    · rename_i a1 e
      rw [e] at ht
      exact ih ht
    · rename_i a1 r e
      rw [e] at ht
      exact ht

theorem wf_evaluate {s : State} {q : SeqRef} {cands : List Nat} (h : Wf s) : Wf (evaluate s q cands).1 := by
  unfold evaluate
  extract_lets w gram pos maxtok cs hd ents v a0
  split
  · exact h
  · split
    · exact h
    · split
      rename_i a act cut e
      have ha : Wf a.s := by
        have hall : Wf (watchAll v a0 cs).1.s := wf_watchAll h
        rwa [e] at hall
      extract_lets s2 s4 s5 s6 s7
      have hs2 : Wf s2 := by
        unfold s2
        split
        · exact wf_setErr ha
        · exact ha
      have hs6 : Wf s6 := wf_foldl (fun _ _ hw => wf_devWrite _ _ _ hw) _
        (wf_foldl (fun _ _ hw => wf_devWrite _ _ _ hw) _ (wf_putTails (wf_devWrite _ _ _ hs2)))
      split
      · exact hs2
      · show Wf s7
        unfold s7
        split
        · exact wf_devWrite _ _ _ (wf_devWrite _ _ _ hs6)
        · exact hs6

theorem wf_forkChild {s : State} {q : SeqRef} {entry : Nat} (h : Wf s) : Wf (forkChild s q entry) := by
  unfold forkChild
  extract_lets w e c lp lc copy s1 cw hd s2
  have hcopy : ∀ t off len, Wf t → Wf (copy t off len) := fun _ _ _ ht => wf_put ht
  have hs1 : Wf s1 := hcopy _ _ _ (hcopy _ _ _ (hcopy _ _ _ (hcopy _ _ _ (hcopy _ _ _ h))))
  have hs2 : Wf s2 := by
    unfold s2
    split
    · exact hs1
    · exact wf_devWrite _ _ _ (wf_devWrite _ _ _ hs1)
  clear_value lp lc s2
  split
  · split
    · exact wf_devWrite _ _ _ h
    · exact wf_mk (wf_modMem (wf_put hs2))
  · exact wf_devWrite _ _ _ h

/-! Operations of Machine/Sequence. -/

theorem answers_execCommit {s : State} : Answers s (execCommit s) :=
  answers_issueWith (fun _ _ => wf_nextWord) (fun _ _ => wf_nextColt)

theorem wf_noLegalEnd {s : State} {q : SeqRef} {held : List Byte} {toks : List Nat} (h : Wf s) : Wf (noLegalEnd s q held toks) := by
  unfold noLegalEnd
  extract_lets x policy fb w stop bytes hd
  split
  · exact wf_deliver (wf_put h)
  · split
    · exact wf_seqTrap (wf_deliver h)
    · split
      · split
        · split
          · exact wf_seqTrap (wf_deliver h)
          · extract_lets s1
            have hs1 : Wf s1 := by
              unfold s1
              refine wf_enterTok ?_
              split
              · exact h
              · exact wf_putTails h
            exact wf_deliver (wf_put (wf_put (wf_put hs1)))
        · exact wf_seqTrap (wf_deliver h)
      · exact wf_deliver (wf_put (wf_put h))

theorem wf_commitJob {s : State} {q : SeqRef} {npos drl2 k0 : Nat} {held : List Byte} (h : Wf s) : Wf (commitJob s q npos drl2 k0 held) :=
  by
  unfold commitJob
  extract_lets jrep gram s0
  split
  · exact wf_seqTrap (wf_deliver h)
  · split
    · refine wf_noLegalEnd ?_
      unfold s0
      split
      · exact wf_setErr h
      · exact h
    · split
      rename_i s1 toks act cut e
      have hs1 : Wf s1 := wf_fst e (wf_evaluate h)
      extract_lets s2 pos k gs s3 full how go
      have hs3 : Wf s3 := wf_put (wf_put (wf_put (wf_put (wf_window (wf_foldl (fun _ _ => wf_enterTok) _ hs1)))))
      have hgo : Wf (go s3) := by
        unfold go
        split
        · exact wf_deliver (wf_put (wf_put hs3))
        · exact wf_deliver hs3
      cases act with
      | none => exact hgo
      | fork e => exact wf_forkChild hgo
      | inject e => exact hgo
      | stop => exact wf_deliver (wf_put (wf_put hs3))
      | trap e => exact wf_seqTrap (wf_deliver hs3)
      | memFail => exact wf_seqTrap (wf_deliver hs3)
      | noLegal => exact wf_noLegalEnd hs3

theorem wf_commitLane {s0 : State} {q : SeqRef} {lane drl2 : Nat} (h : Wf s0) : Wf (commitLane s0 q lane drl2) := by
  unfold commitLane
  extract_lets w wok s held npos plen pdone quiet lost c hd feedn fd s1 ts need bs s2 s3 s4
  have hs : Wf s := by
    unfold s
    split
    · exact wf_disarmInvalid h
    · exact h
  have hquiet : ∀ t, Wf t → Wf (quiet t) := fun t ht => wf_put (wf_put ht)
  have hlost : ∀ t, Wf t → Wf (lost t) := fun t ht => wf_seqTrap (wf_deliver (hquiet t ht))
  have hs1 : Wf s1 := hquiet _ (wf_devWrite _ _ _ hs)
  have hs4 : Wf s4 := wf_devWrite _ _ _ (wf_deliver (wf_put (wf_put (wf_foldl (fun _ _ => wf_enterTok) _ hs1))))
  clear_value quiet lost s1 s4 bs
  split
  · split
    · exact hlost s hs
    · extract_lets t1 t2
      have ht2 : Wf t2 := hquiet _ (wf_put (wf_put (wf_foldl (fun _ _ => wf_enterTok) _ hs)))
      clear_value t2
      split
      · exact wf_put ht2
      · split
        · exact wf_put ht2
        · exact wf_commitJob (wf_put ht2)
  · split
    · exact hlost s hs
    · split
      · split
        · exact hs1
        · split
          · exact hlost _ hs1
          · split
            · exact hlost _ hs1
            · split
              · exact wf_put hs4
              · exact wf_commitJob (wf_put hs4)
      · split
        · exact wf_put (hquiet s hs)
        · exact wf_commitJob hs

theorem wf_actRequest {s : State} {q : SeqRef} (h : Wf s) : Wf (actRequest s q) := by
  unfold actRequest
  extract_lets st done
  split
  · exact h
  · split
    · exact h
    · exact wf_put h
  · split
    · exact wf_put (wf_put h)
    · exact wf_put h
  · split
    · exact h
    · exact wf_put h
  · split
    · split
      · exact h
      · exact wf_put (wf_put h)
    · exact wf_put h
  · exact wf_put h

theorem wf_actResume {s : State} {q : SeqRef} (h : Wf s) : Wf (actResume s q) := by
  unfold actResume
  split
  · exact wf_put (wf_put h)
  · exact h

theorem wf_admitFork {s : State} {q : SeqRef} (h : Wf s) : Wf (admitFork s q) := by
  unfold admitFork
  split
  · extract_lets s1 w
    have hs1 : Wf s1 := wf_put (wf_put (wf_put (wf_put h)))
    split
    · exact hs1
    · exact wf_devWrite _ _ _ (wf_devWrite _ _ _ hs1)
  · exact wf_put (wf_put h)

theorem wf_admitRec {s : State} {q : SeqRef} (h : Wf s) : Wf (admitRec s q) := by
  unfold admitRec
  split
  · exact h
  · extract_lets s1 s2 w s3
    have hs1 : Wf s1 := wf_foldl (fun _ _ => wf_put) _ (wf_put h)
    have hs2 : Wf s2 := wf_put (wf_window hs1)
    have hs3 : Wf s3 := by
      unfold s3
      split
      · exact hs2
      · exact wf_devWrite _ _ _ (wf_devWrite _ _ _ hs2)
    exact wf_modMem hs3

theorem wf_eachRec {s : State} {kern : Nat} {rs : List Nat} {f : State → SeqRef → State} (hf : ∀ s q, Wf s → Wf (f s q)) (h : Wf s) :
    Wf (eachRec s kern rs f) :=
  wf_foldl (fun _ _ hw => hf _ _ hw) _ h

theorem wf_endLoop {s : State} {kern : Nat} (h : Wf s) : Wf (endLoop s kern) := by
  unfold endLoop
  extract_lets s1 s2
  have hs1 : Wf s1 := wf_eachRec (fun _ _ hw => wf_deliver (wf_put (wf_put hw))) h
  have hs2 : Wf s2 := wf_modLoop hs1
  exact wf_foldl (fun _ _ => wf_retireCore) _ hs2

theorem wf_resumeCore {occ drl entry : Nat} {s : State} {k : Nat} (h : Wf s) : Wf (resumeCore occ drl entry s k) := by
  unfold resumeCore
  extract_lets s1
  have hs1 : Wf s1 := wf_foldl (fun _ _ => wf_acquireAt) _ h
  exact wf_modCore hs1

theorem wf_openIteration {s : State} {kern : Nat} {forked : List Nat} (h : Wf s) : Wf (openIteration s kern forked) := by
  unfold openIteration
  extract_lets all s1 s2 g x s3 live n l line lanes
  have hs1 : Wf s1 := wf_eachRec (fun _ _ => wf_actResume) (wf_eachRec (fun _ _ => wf_actRequest) h)
  have hs2 : Wf s2 := wf_eachRec (fun _ _ => wf_admitRec) (wf_eachRec (fun _ _ => wf_admitFork) hs1)
  have hs3 : Wf s3 := wf_setCtx hs2
  split
  · exact wf_modLoop hs3
  · split
    · extract_lets l1 s4 s5 s6 s7 s8
      have hs4 : Wf s4 := wf_modLoop hs3
      have hs5 : Wf s5 := wf_devWrite _ _ _ hs4
      have hs6 : Wf s6 := wf_devWrite _ _ _ hs5
      have hs7 : Wf s7 := wf_devWrite _ _ _ hs6
      have hs8 : Wf s8 := wf_eachRec (fun _ _ hw => wf_put (wf_put hw)) hs7
      exact wf_foldl (fun _ _ => wf_resumeCore) _ hs8

theorem wf_drainAll {s t : State} {ks : List Nat} (e : drainAll s ks = some t) (h : Wf s) : Wf t := by
  induction ks generalizing s with
  | nil => cases e; exact h
  | cons k ks ih =>
    unfold drainAll at e
    split at e
    · rename_i s1 e1
      exact ih e (wf_drainCore e1 h)
    · cases e

theorem answers_execIterationBoundary {kern : Nat} {s : State} : Answers s (execIterationBoundary kern s) := by
  unfold execIterationBoundary
  extract_lets g
  split
  · exact answers_next id
  · split
    · exact answers_next id
    · split
      · exact answers_next id
      · rename_i x s1 e
        have hs1 : Wf s → Wf s1 := wf_drainAll e
        extract_lets forked drl2 s2 s3
        have hs2 : Wf s → Wf s2 := by
          intro h
          unfold s2
          refine wf_foldl (fun s a hw => ?_) _ (hs1 h)
          split
          · exact wf_commitLane hw
          · exact hw
        have hs3 : Wf s → Wf s3 := fun h => wf_foldl (fun _ _ hw => wf_takeSlot (wf_takeSlot hw)) _ (hs2 h)
        split
        · exact answers_next fun h => wf_endLoop (hs3 h)
        · exact answers_next fun h => wf_openIteration (hs3 h)

theorem answers_execLoopWake {kern : Nat} {s : State} : Answers s (execLoopWake kern s) := by
  unfold execLoopWake
  extract_lets l
  split
  · exact answers_next id
  · split
    · exact answers_next wf_endLoop
    · split
      · exact answers_next wf_openIteration
      · exact answers_next id

theorem answers_execForkCopyDone {s : State} : Answers s (execForkCopyDone s) := by
  unfold execForkCopyDone
  split
  · exact answers_next id
  · split
    · exact answers_next id
    · extract_lets x src x_1 s1 s2 bytes x_2
      have hs1 : Wf s → Wf s1 := fun h => wf_movedAll (wf_mk h)
      have hs2 : Wf s → Wf s2 := fun h => wf_slotRelease (hs1 h)
      exact answers_next fun h => wf_slotRelease (hs2 h)

theorem answers_execSequenceTrapPost {s : State} : Answers s (execSequenceTrapPost s) := by
  unfold execSequenceTrapPost
  split
  · exact answers_next id
  · split
    · exact answers_next id
    · extract_lets x q x_1 s1 s2 trapq n s3 s4
      have hs1 : Wf s → Wf s1 := fun h => wf_movedAll (wf_mk h)
      have hs2 : Wf s → Wf s2 := by
        intro h
        unfold s2
        refine wf_foldl (fun s a hw => ?_) _ (hs1 h)
        extract_lets z
        exact wf_slotRelease (wf_ctxWrite _ _ _ _ hw)
      have hs3 : Wf s → Wf s3 := fun h => wf_hubWrite _ _ _ (hs2 h)
      have hs4 : Wf s → Wf s4 := fun h => wf_devWrite _ _ _ (hs3 h)
      split
      · exact answers_next hs2
      · exact answers_next fun h => wf_interrupt (hs4 h)

/-! Operations of Machine/Sample. -/

/-- What an operation of a Colt answers keeps the form (R345, R406). -/
def ResKeeps (s : State) (r : Res (State × Nat)) : Prop := ∀ t v, r = .ok (t, v) → Wf s → Wf t

theorem resKeeps_ok {s t : State} {v : Nat} (h : Wf s → Wf t) : ResKeeps s (.ok (t, v)) := by
  intro r w e
  cases e
  exact h

theorem resKeeps_bind {α : Type} {s : State} {x : Res α} {f : α → Res (State × Nat)} (hf : ∀ a, ResKeeps s (f a)) : ResKeeps s (x >>= f) :=
  by
  intro t v e
  cases x with
  | error _ => cases e
  | ok a => exact hf a t v e

theorem answers_coltOp {s : State} {xd : Nat} {f : OpCtx → Nat → Res (State × Nat)} (hf : ∀ o c, ResKeeps s (f o c)) :
    Answers s (coltOp s xd f) := by
  unfold coltOp
  split
  · extract_lets u
    split
    · rename_i s1 v e
      exact answers_next fun h => wf_nextColt (wf_modTile (hf _ _ _ _ e h))
    · exact answers_next id
    · exact answers_next id
    · exact answers_next id
    · exact answers_next wf_coltTrap
  · exact answers_next id

theorem wf_refuseCfg {s : State} {c : Nat} (h : Wf s) : Wf (refuseCfg s c) := by
  unfold refuseCfg
  split
  · exact wf_jobFault (wf_modColt h)
  · exact h

theorem resKeeps_maskTo {s : State} {o : OpCtx} {c xb cap : Nat} {p : Pda} : ResKeeps s (maskTo s o c xb cap p) := by
  unfold maskTo
  refine resKeeps_bind fun b => ?_
  extract_lets v
  refine resKeeps_bind fun _ => resKeeps_bind fun _ => ?_
  exact resKeeps_ok (wf_hubWrite _ _ _)

theorem wf_runJob {s : State} {j : Job} (h : Wf s) : Wf (runJob s j) := by
  unfold runJob
  extract_lets q sp par own seed gram
  split
  · exact wf_jobFault h
  · extract_lets s1 k0 rep s2
    have hs1 : Wf s1 := wf_foldl (fun _ _ => wf_post) _ h
    have hs2 : Wf s2 := wf_post (wf_post hs1)
    exact wf_setReady hs2

theorem wf_startJob {s : State} {c : Nat} {j : Job} (h : Wf s) : Wf (startJob s c j) := by
  unfold startJob
  extract_lets l size xs t r
  exact wf_setColt (wf_setTile (wf_mk h))

theorem answers_execSamplingJob {colt : Nat} {s : State} : Answers s (execSamplingJob colt s) := by
  unfold execSamplingJob
  split
  · exact answers_next id
  · extract_lets free x s1
    have hs1 : Wf s → Wf s1 := wf_mk
    split
    · exact answers_next id
    · split
      · exact answers_next fun h => wf_runJob (hs1 h)
      · exact answers_next fun h => wf_startJob (hs1 h)

theorem wf_smpqRun {s t : State} {u : Nat} {cmd : NodeCmd} (e : smpqRun s u cmd = some t) (h : Wf s) : Wf t := by
  unfold smpqRun at e
  extract_lets kern l lane at e
  split at e
  · cases e
    exact wf_setReady (wf_putStatus h)
  · split at e
    · cases e
      exact wf_putStatus h
    · split at e
      · cases e
      · cases e
        exact wf_putStatus (wf_mk (wf_modLoop h))

theorem wf_flkqRun {s : State} {u : Nat} {cmd : NodeCmd} {seed : Bool} (h : Wf s) : Wf (flkqRun s u cmd seed) := by
  unfold flkqRun
  extract_lets out toks s1
  have hs1 : Wf s1 := by
    unfold s1
    split
    · exact h
    · exact wf_modTile h
  split
  · exact hs1
  · split
    · exact hs1
    · extract_lets from_
      exact wf_foldl (fun _ _ => wf_post) _ hs1

theorem wf_wpsetRun {s : State} {u : Nat} {cmd : NodeCmd} (h : Wf s) : Wf (wpsetRun s u cmd) := by
  unfold wpsetRun
  split
  · exact wf_putStatus h
  · extract_lets w img i s1
    have hs1 : Wf s1 := wf_hubWrite _ _ _ h
    split
    · exact wf_putStatus h
    · split
      · exact wf_putStatus h
      · exact wf_putStatus (wf_hubWrite _ _ _ hs1)

theorem wf_wpclrRun {s : State} {u : Nat} {cmd : NodeCmd} (h : Wf s) : Wf (wpclrRun s u cmd) := by
  unfold wpclrRun
  split
  · exact wf_putStatus h
  · extract_lets w armed
    split
    · exact wf_putStatus h
    · exact wf_putStatus (wf_hubWrite _ _ _ h)

theorem wf_mskqRun {s : State} {u : Nat} {cmd : NodeCmd} (h : Wf s) : Wf (mskqRun s u cmd) := by
  unfold mskqRun
  split
  · exact wf_putStatus h
  · extract_lets gram p0 states lines dest s1
    have hs1 : Wf s1 := by
      unfold s1
      refine wf_foldl (fun s a hw => ?_) _ h
      extract_lets bits
      split
      · exact wf_modTile hw
      · exact wf_storeHeld hw
    split
    · exact wf_putStatus h
    · exact wf_putStatus hs1

/-! Operations of Machine/Link. -/

theorem wf_transit {s : State} {m : Msg} (h : Wf s) : Wf (State.transit s m) := by
  unfold State.transit
  split
  · exact h
  · exact wf_of_mem (sendMsg_mem _ _) h

theorem wf_portWorks {s : State} {dest : Nat} (h : Wf s) : Wf (portWorks s dest) := by
  unfold portWorks
  split
  · exact wf_of_mem (portUsed_mem _ _) h
  · exact h

theorem wf_completeReq {s : State} {r : Req} {data : Option (List Byte)} (h : Wf s) : Wf (completeReq s r data) := by
  unfold completeReq
  extract_lets x s1
  have hs1 : Wf s1 := wf_mk h
  split
  · exact wf_settleDestroy hs1
  · split
    · exact wf_rebase (wf_modCore hs1)
    · exact hs1

theorem wf_arriveReq {s : State} {r : Req} {data : Option (List Byte)} (h : Wf s) : Wf (arriveReq s r data) := by
  unfold arriveReq
  split
  · exact wf_mk h
  · exact wf_completeReq h

theorem wf_deliverHeld {s : State} (h : Wf s) : Wf (deliverHeld s) := by
  unfold deliverHeld
  refine wf_foldl (fun s a hw => ?_) _ (wf_mk h)
  split
  · exact wf_completeReq hw
  · exact hw

theorem answers_execLinkQueueGrant {s : State} : Answers s (execLinkQueueGrant s) := by
  unfold execLinkQueueGrant
  split
  · exact answers_next fun h => wf_arriveReq (wf_mk h)
  · split
    · split
      · split
        · exact answers_next fun h => wf_podOut (wf_mk h)
        · exact answers_next id
      · exact answers_next id
    · extract_lets x s1
      have hs1 : Wf s → Wf s1 := wf_mk
      split
      · exact answers_next hs1
      · exact answers_next fun h => wf_of_mem (sendMsg_mem _ _) (hs1 h)

theorem wf_peerFault {s : State} {cid va kind : Nat} {f : WalkFault} (h : Wf s) : Wf (peerFault s cid va kind f) := by
  unfold peerFault
  split
  · exact wf_postFault h
  · exact wf_postFault (wf_of_mem (fresh_mem' _) h)

theorem wf_serveRemote {s : State} {kind cid va size : Nat} {data : List Byte} (h : Wf s) : Wf (serveRemote s kind cid va size data).1 := by
  unfold serveRemote
  split
  · exact wf_peerFault h
  · split
    · exact h
    · exact wf_hubWrite _ _ _ h

theorem wf_serveColl {s : State} {cid va fn fmt : Nat} {cnt : Bool} {runs : List (Nat × Nat)} {data : List Byte} (h : Wf s) :
    Wf (serveColl s cid va fn fmt cnt runs data).1 := by
  unfold serveColl
  extract_lets es kind bad op
  clear_value bad
  cases bad with
  | some p => exact wf_peerFault h
  | none =>
    dsimp -zeta only
    split
    · exact wf_atomPut _ _ _ _ (wf_foldl_fst (fun _ _ hw => wf_foldl (fun _ _ hv => wf_hubWrite _ _ _ hv) _ hw) _ h)
    · exact wf_foldl_fst (fun _ _ hw => wf_foldl (fun _ _ hv => wf_hubWrite _ _ _ hv) _ hw) _ h

theorem answers_execRemoteRequestServe {src kind tag va size cid data : Nat} {s : State} :
    Answers s (execRemoteRequestServe src kind tag va size cid data s) := by
  unfold execRemoteRequestServe
  split
  · exact answers_next id
  · extract_lets reply
    split
    · split
      · exact answers_next fun h => wf_of_mem (sendMsg_mem _ _) (wf_serveRemote h)
      · exact answers_next id
    · split
      · exact answers_next id
      · exact answers_next fun h => wf_of_mem (sendMsg_mem _ _) (wf_serveRemote h)

theorem answers_execCollMessage {src tag fn fmt cnt at_ cid size data : Nat} {s : State} :
    Answers s (execCollMessage src tag fn fmt cnt at_ cid size data s) := by
  unfold execCollMessage
  extract_lets dst reply
  split
  · exact answers_next id
  · split
    · split
      · exact answers_next fun h => wf_of_mem (sendMsg_mem _ _) (wf_serveColl h)
      · exact answers_next id
    · split
      · exact answers_next id
      · exact answers_next fun h => wf_of_mem (sendMsg_mem _ _) (wf_serveColl h)

theorem answers_execRemoteReply {req okay data : Nat} {s : State} : Answers s (execRemoteReply req okay data s) := by
  unfold execRemoteReply
  split
  · exact answers_next id
  · split
    · extract_lets mine x s1
      have hs1 : Wf s → Wf s1 := wf_mk
      split
      · exact answers_next id
      · exact answers_next fun h => wf_arriveReq (hs1 h)
    · exact answers_next fun h => wf_arriveReq (wf_portWorks h)

theorem answers_execRemoteTimeout {req : Nat} {s : State} : Answers s (execRemoteTimeout req s) := by
  unfold execRemoteTimeout
  split
  · exact answers_next id
  · split
    · exact answers_next wf_arriveReq
    · exact answers_next id

theorem answers_execFlitReplay {port : Nat} {s : State} : Answers s (execFlitReplay port s) := by
  unfold execFlitReplay
  extract_lets p p1 x
  split
  · exact answers_next id
  · exact answers_next wf_mk

theorem answers_execPortUp {port : Nat} {s : State} : Answers s (execPortUp port s) := by
  unfold execPortUp
  extract_lets p x
  split
  · exact answers_next id
  · exact answers_next wf_mk

/-! Operations of Machine/NodeRun. -/

theorem wf_runCmd {s t : State} {u n : Nat} {cmd : NodeCmd} {fl : Flags} (e : runCmd s u n cmd = some (t, fl)) (h : Wf s) : Wf t := by
  unfold runCmd at e
  split at e
  case h_1 => cases e; exact wf_copyRest h
  case h_2 => cases e; exact wf_gathScatRun h
  case h_3 => cases e; exact wf_gathScatRun h
  case h_4 => exact wf_fst (Option.some.inj e) (wf_scaccRun h)
  case h_5 => exact wf_fst (Option.some.inj e) (wf_amoRun h)
  case h_6 => cases e; exact wf_prefRun h
  case h_7 => cases e; exact wf_rgwbRun h
  case h_8 => cases e; exact wf_rginvRun h
  case h_9 | h_10 | h_11 => cases e
  case h_12 =>
    obtain ⟨s1, hs1, he⟩ := Option.map_eq_some_iff.1 e
    cases he
    exact wf_smpqRun hs1 h
  case h_13 => cases e; exact wf_flkqRun h
  case h_14 => cases e; exact wf_wpsetRun h
  case h_15 => cases e; exact wf_wpclrRun h
  case h_16 => cases e; exact wf_mskqRun h
  case h_17 =>
    split at e
    · cases e
    · cases e; exact h
  case h_18 => cases e; exact h

theorem wf_launchColl {s : State} {u n : Nat} {cmd : NodeCmd} {fn : Nat} {place : Req} (h : Wf s) : Wf (launchColl s u n cmd fn place) := by
  unfold launchColl
  extract_lets s0 rs numbered x
  have hs0 : Wf s0 := wf_nodeAcquire h
  exact wf_mk hs0

theorem answers_execNodeComplete {unit node : Nat} {s : State} : Answers s (execNodeComplete unit node s) := by
  unfold execNodeComplete
  extract_lets nd
  split
  · exact answers_next id
  · rename_i cmd _
    split
    · exact answers_next id
    · split
      · exact answers_next wf_launchColl
      · extract_lets begun
        have hs : Wf s → Wf (if begun = true then s else nodeAcquire s unit cmd) := by
          intro h
          split
          · exact h
          · exact wf_nodeAcquire h
        split
        · exact answers_next id
        · rename_i s1 fl e
          exact answers_next fun h => wf_nodeFinish (wf_runCmd e (hs h))

theorem answers_execBarrierCount {unit node bytes : Nat} {s : State} : Answers s (execBarrierCount unit node bytes s) := by
  unfold execBarrierCount
  extract_lets nd
  split
  · exact answers_next id
  · split
    · split
      · exact answers_next id
      · extract_lets s0 s1
        have hs0 : Wf s → Wf s0 := by
          intro h
          unfold s0
          split
          · exact wf_nodeAcquire h
          · exact h
        have hs1 : Wf s → Wf s1 := fun h => wf_copyRow (hs0 h)
        exact answers_next fun h => wf_modTile (hs1 h)
    · exact answers_next id

theorem answers_execMuleTransferComplete {unit node : Nat} {s : State} : Answers s (execMuleTransferComplete unit node s) := by
  unfold execMuleTransferComplete
  extract_lets t nd
  split
  · split
    · exact answers_next id
    · extract_lets s1
      have hs1 : Wf s → Wf s1 := fun h => wf_muleRun (wf_nodeAcquire h)
      exact answers_next fun h => wf_nodeFinish (wf_modTile (hs1 h))
  · exact answers_next id

/-! Operations of Machine/Debug. -/

theorem wf_debugRefuse {s : State} (h : Wf s) : Wf (debugRefuse s) := wf_mk h

theorem wf_debugHalt {s : State} (h : Wf s) : Wf (debugHalt s) := by
  unfold debugHalt
  extract_lets cid x
  split
  · exact h
  · split
    · exact wf_mk h
    · exact wf_haltCtx h

theorem wf_debugResume {step : Bool} {s : State} {k : Nat} (h : Wf s) : Wf (debugResume step s k) := by
  unfold debugResume
  extract_lets c x s1
  have hs1 : Wf s1 := wf_foldl (fun _ _ => wf_modTile) _ h
  split
  · exact h
  · exact wf_setCore hs1

theorem wf_thaw {s : State} {cid : Nat} (h : Wf s) : Wf (thaw s cid) := by
  unfold thaw
  extract_lets stays
  exact wf_mk h

theorem wf_continueCtx {s : State} {cid : Nat} (h : Wf s) : Wf (continueCtx s cid) := by
  unfold continueCtx
  extract_lets s1 x
  have hs1 : Wf s1 := wf_foldl (fun _ _ => wf_debugResume) _ (wf_thaw h)
  exact wf_mk hs1

theorem wf_debugContinue {s : State} (h : Wf s) : Wf (debugContinue s) := by
  unfold debugContinue
  extract_lets cid
  split
  · exact wf_continueCtx h
  · exact h

theorem wf_debugStep {core all : Nat} {s : State} (h : Wf s) : Wf (debugStep core all s) := by
  unfold debugStep
  split
  · exact h
  · refine wf_foldl (fun s a hw => ?_) _ h
    split
    · exact wf_debugResume hw
    · exact hw

theorem wf_debugWithdraw {core all : Nat} {s : State} (h : Wf s) : Wf (debugWithdraw core all s) :=
  wf_foldl (fun _ _ => wf_stepEnd) _ h

theorem wf_writeDctx {s : State} {val : Nat} (h : Wf s) : Wf (writeDctx s val) := by
  unfold writeDctx
  extract_lets att s1 x
  have hs1 : Wf s1 := by
    unfold s1
    split
    · split
      · exact h
      · exact wf_continueCtx h
    · exact h
  split
  · exact wf_mk hs1
  · exact wf_mk hs1

theorem answers_execDctxWrite {val : Nat} {s : State} : Answers s (execDctxWrite val s) := by
  unfold execDctxWrite
  split
  · exact answers_next wf_mk
  · exact answers_next wf_writeDctx

theorem wf_setDstate {s : State} {d : Nat} (h : Wf s) : Wf (setDstate s d) := by
  unfold setDstate
  extract_lets x s1 x_1
  have hs1 : Wf s1 := by
    unfold s1
    split
    · split
      · exact h
      · split
        · exact wf_mk h
        · exact wf_continueCtx h
    · exact h
  exact wf_mk hs1

theorem answers_execDbgctlDreq {val : Nat} {s : State} : Answers s (execDbgctlDreq val s) := by
  unfold execDbgctlDreq
  extract_lets d x
  split
  · exact answers_next wf_mk
  · split
    · exact answers_next wf_setDstate
    · split
      · exact answers_next wf_mk
      · exact answers_next wf_setDstate

theorem wf_setTileItem {s : State} {u code v : Nat} (h : Wf s) : Wf (setTileItem s u code v) := by
  unfold setTileItem
  extract_lets i w b
  split
  · exact wf_writeX h
  · exact wf_modTile h
  · exact wf_modTile h
  · exact wf_modTile h
  · exact wf_modTile h
  · exact wf_modTile h
  · exact wf_modTile h
  · exact wf_modTile h
  · exact wf_modTile h
  · exact wf_modTile h
  · exact wf_of_mem (csrApply_mem _ _ _ _ _) h
  · exact wf_modTile h
  · exact wf_modTile h
  · exact wf_modTile h
  · exact wf_modTile h
  · exact wf_modTile h
  · exact wf_modTile h
  · exact wf_modTile h
  · exact wf_modTile h
  · exact wf_modTile h
  · exact wf_modTile h
  · exact wf_modTile h
  · exact wf_modTile h
  · exact wf_modTile h
  · exact wf_modTile h
  · exact wf_modTile h
  · exact wf_modTile h
  · exact wf_modTile h
  · exact wf_modTile h
  · exact h

theorem wf_setCoreItem {s : State} {k code v : Nat} (h : Wf s) : Wf (setCoreItem s k code v) := by
  unfold setCoreItem
  extract_lets i n g d
  split
  · exact wf_modCore h
  · exact wf_modCore h
  · exact wf_modCore h
  · exact wf_setDeq h
  · exact wf_setDeq h
  · exact wf_writeBt h
  · exact wf_modCore h
  · split
    · exact wf_of_mem (csrApply_mem _ _ _ _ _) h
    · exact h
  · exact wf_modCore h
  · exact wf_modGroup h
  · split
    · split
      · exact h
      · exact wf_modGroup h
    · exact h
  · exact wf_modCore h
  · exact h

theorem wf_dAdvance {s : State} (h : Wf s) : Wf (dAdvance s) := by
  unfold dAdvance
  extract_lets a x
  exact wf_mk h

theorem wf_dFail {s : State} (h : Wf s) : Wf (dFail s) := wf_dAdvance (wf_mk h)

theorem wf_dGot {s : State} {v : Nat} (h : Wf s) : Wf (dGot s v) := wf_dAdvance (wf_mk h)

theorem wf_ddataRead {s : State} (h : Wf s) : Wf (ddataRead s) := by
  unfold ddataRead
  extract_lets a u t off x
  split
  · exact wf_mk h
  · split
    · split
      · exact wf_dGot h
      · exact wf_dGot (wf_of_mem (fresh_mem' _) h)
    · split
      · exact wf_dGot h
      · exact wf_dGot (wf_of_mem (fresh_mem' _) h)
    · split
      · exact wf_dGot h
      · exact wf_dGot h
    · split
      · exact wf_dGot h
      · exact wf_dFail h
    · split
      · exact wf_dGot h
      · exact wf_dFail h
    · split
      · exact wf_dGot h
      · exact wf_dFail h
    · split
      · exact wf_dGot h
      · exact wf_dFail h
    · exact wf_dFail h

theorem wf_dMemWrite {s t : State} {cid va v : Nat} (e : dMemWrite s cid va v = some t) (h : Wf s) : Wf t := by
  unfold dMemWrite at e
  split at e
  · cases e
    exact wf_hubWrite _ _ _ h
  · cases e

theorem wf_ddataWrite {val : Nat} {s : State} (h : Wf s) : Wf (ddataWrite val s) := by
  unfold ddataWrite
  extract_lets a u off bs x bad done
  have hbad : Wf bad := wf_dAdvance (wf_mk h)
  split
  · exact wf_mk h
  · split
    · exact wf_dAdvance (wf_mk (wf_setTileItem h))
    · exact wf_dAdvance (wf_mk (wf_setCoreItem h))
    · split
      · exact wf_dAdvance (wf_mk (wf_modTile h))
      · exact hbad
    · split
      · exact wf_dAdvance (wf_mk (wf_modTile h))
      · exact hbad
    · split
      · exact wf_dAdvance (wf_mk (wf_modTile h))
      · exact hbad
    · split
      · rename_i x1 s1 e
        have hs1 : Wf s1 := wf_dMemWrite e h
        exact wf_dAdvance (wf_mk hs1)
      · exact hbad
    · exact hbad

theorem wf_setBpdata {s : State} {val : Nat} (h : Wf s) : Wf (setBpdata s val) := wf_modCore h

theorem wf_act {r : DebugReq} {s : State} (h : Wf s) : Wf (DebugReq.act r s) := by
  unfold DebugReq.act
  split
  · exact wf_debugHalt h
  · exact wf_debugContinue h
  · exact wf_debugStep h
  · exact wf_debugWithdraw h
  · exact wf_setBpdata h
  · exact h
  · exact wf_ddataRead h
  · exact wf_ddataWrite h
  · exact wf_writeDctx h
  · split
    · exact wf_continueCtx h
    · exact h

theorem wf_debugAsk {s : State} {r : DebugReq} (h : Wf s) : Wf (debugAsk s r) := by
  unfold debugAsk
  split
  · extract_lets s1 x
    have hs1 : Wf s1 := wf_debugRefuse h
    split
    · exact wf_mk hs1
    · exact hs1
  · exact wf_mk h
  · exact wf_act (wf_mk h)

theorem wf_serveDebug {s : State} (h : Wf s) : Wf (serveDebug s) := by
  unfold serveDebug
  refine wf_foldl (fun s a hw => ?_) _ (wf_mk h)
  split
  · exact wf_act hw
  · exact wf_act hw
  · exact wf_debugAsk hw

theorem answers_execDebugHalt {s : State} : Answers s (execDebugHalt s) := answers_next wf_debugAsk

theorem answers_execDebugContinue {s : State} : Answers s (execDebugContinue s) := answers_next wf_debugAsk

theorem answers_execDebugStep {core all : Nat} {s : State} : Answers s (execDebugStep core all s) := answers_next wf_debugAsk

theorem answers_execDebugWithdraw {core all : Nat} {s : State} : Answers s (execDebugWithdraw core all s) :=
  answers_next wf_debugAsk

theorem answers_execDdataRead {s : State} : Answers s (execDdataRead s) := answers_next wf_debugAsk

theorem answers_execDdataWrite {val : Nat} {s : State} : Answers s (execDdataWrite val s) := answers_next wf_debugAsk

/-! Operations of Machine/Page. -/

theorem answers_execPageWalk {unit va kind : Nat} {s : State} : Answers s (execPageWalk unit va kind s) := by
  unfold execPageWalk
  split
  · exact answers_next id
  · split
    · exact answers_next id
    · split
      · exact answers_next id
      · exact answers_next fun h => wf_landEntry _ h

theorem answers_execLeaseExpiry {unit va : Nat} {s : State} : Answers s (execLeaseExpiry unit va s) := by
  unfold execLeaseExpiry
  split
  · exact answers_next id
  · extract_lets dead s1
    have hs1 : Wf s → Wf s1 := wf_modTile
    exact answers_next fun h => wf_mk (hs1 h)

theorem wf_resumeFault {s : State} {k : Nat} (h : Wf s) : Wf (resumeFault s k) := wf_modCore h

theorem wf_faultToHost {s : State} {k slot raised : Nat} {rs : List (Nat × Nat × Nat)} (h : Wf s) : Wf (faultToHost s k slot raised rs) :=
  by
  unfold faultToHost
  extract_lets c raisers recs s1 s2
  have hs1 : Wf s1 := wf_foldl (fun _ _ => wf_postFault) _ h
  have hs2 : Wf s2 := wf_modCore hs1
  exact wf_beginStop (wf_modCtx hs2)

theorem answers_execHwFaultService {core : Nat} {s : State} : Answers s (execHwFaultService core s) := by
  unfold execHwFaultService
  extract_lets c
  split
  · split
    · exact answers_next id
    · extract_lets mine
      split
      · exact answers_next wf_resumeFault
      · split
        · exact answers_next fun h => wf_resumeFault (wf_serveFault h)
        · exact answers_next wf_faultToHost
  · exact answers_next id

/-! Operations of Machine/Scan. -/

theorem wf_phaseRaises {s : State} {tiles : List (Nat × Nat)} (h : Wf s) : Wf (phaseRaises s tiles) := by
  unfold phaseRaises
  refine wf_foldl (fun s a hw => ?_) _ h
  extract_lets ds
  split
  · exact wf_takeTrap hw
  · exact hw

theorem wf_rendezvous {s : State} {k : Nat} (h : Wf s) : Wf (rendezvous s k) := by
  unfold rendezvous
  split
  · exact h
  · extract_lets kern gone lap stands x
    split
    · exact wf_phaseRaises (wf_modGroup h)
    · split
      · exact wf_phaseRaises (wf_modGroup h)
      · split
        · exact h
        · extract_lets bad ks cs
          split
          · exact wf_phaseRaises h
          · split
            · exact wf_phaseRaises (wf_mk h)
            · refine wf_foldl (fun s a hw => ?_) _ h
              extract_lets c es
              exact wf_modCore hw

theorem answers_treeIssue {s : State} {ph : TreePhase} {sh sw rev : Nat} : Answers s (treeIssue s ph sh sw rev) := by
  unfold treeIssue
  split
  · extract_lets c
    split
    · exact answers_next id
    · split
      · exact answers_next id
      · extract_lets r
        split
        · exact answers_next fun h => wf_joinBanks (wf_arriveOldest h)
        · split
          · exact answers_next wf_trapOf
          · exact answers_next wf_rendezvous
  · exact answers_next id

theorem answers_execScanRendezvous {core : Nat} {s : State} : Answers s (execScanRendezvous core s) :=
  answers_next fun h => wf_unlessStalled h (wf_rendezvous h)

theorem wf_claimRaises {s : State} {kern inst : Nat} (h : Wf s) : Wf (claimRaises s kern inst) := by
  unfold claimRaises
  split
  · exact h
  · extract_lets hit all
    exact wf_mk h

theorem wf_carriesTaken {s : State} {kern inst : Nat} (h : Wf s) : Wf (carriesTaken s kern inst) := by
  unfold carriesTaken
  split
  · exact h
  · extract_lets own x
    split
    · exact wf_claimRaises (wf_mk h)
    · exact wf_of_mem (scrySend_mem _ _ _) h

theorem answers_execCarryFlit {kern inst level pos absent data : Nat} {s : State} :
    Answers s (execCarryFlit kern inst level pos absent data s) := by
  unfold execCarryFlit
  extract_lets c x s1
  have hs1 : Wf s → Wf s1 := wf_mk
  split
  · exact answers_next hs1
  · exact answers_next fun h => wf_carriesTaken (hs1 h)

theorem answers_execScryCarryArrival {kern inst : Nat} {s : State} : Answers s (execScryCarryArrival kern inst s) := by
  unfold execScryCarryArrival
  extract_lets rs o keep
  split
  · exact answers_next id
  · split
    · exact answers_next id
    · extract_lets failed last
      split
      · exact answers_next id
      · extract_lets s1 x
        have hs1 : Wf s → Wf s1 := by
          intro h
          unfold s1
          refine wf_foldl (fun s a hw => ?_) _ h
          split
          · extract_lets f writesU
            split
            · split
              · split
                · extract_lets u' fl e1 e2
                  exact wf_rebase (wf_modCore hw)
        exact answers_next fun h => wf_mk (hs1 h)

theorem wf_landMet {s : State} {k : Nat} {es : List Entry} (h : Wf s) : Wf (landMet s k es) :=
  wf_foldl (fun _ _ hw => wf_landEntry _ hw) _ (wf_modCore h)

/-! Operations of Machine/Platform. -/

theorem answers_execDeviceReset {s : State} : Answers s (execDeviceReset s) := by
  unfold execDeviceReset
  refine answers_next fun h => ?_
  extract_lets x
  have hx : Wf x := wf_reset
  exact wf_mk h

theorem wf_fence {s : State} (h : Wf s) : Wf (fence s) := wf_mk h

theorem answers_execFailedUnitFence {s : State} : Answers s (execFailedUnitFence s) := answers_next wf_fence

theorem answers_execThermalFence {s : State} : Answers s (execThermalFence s) := answers_next wf_fence

theorem wf_askStall {s : State} {r : StallReq} (h : Wf s) : Wf (askStall s r) := wf_mk h

theorem wf_writeFreq {s : State} {v : Nat} (h : Wf s) : Wf (writeFreq s v) := by
  unfold writeFreq
  split
  · exact h
  · extract_lets x s1
    have hs1 : Wf s1 := wf_mk h
    split
    · exact hs1
    · exact wf_askStall hs1

theorem answers_execPwrctlFreq {val : Nat} {s : State} : Answers s (execPwrctlFreq val s) := answers_next wf_writeFreq

theorem wf_gate {s : State} (h : Wf s) : Wf (gate s) := wf_mk h

theorem wf_ungate {s : State} (h : Wf s) : Wf (ungate s) := by
  unfold ungate
  extract_lets x s1 came
  have hs1 : Wf s1 := wf_mk h
  exact wf_serveDebug (wf_retryHolds (wf_foldl (fun _ _ => wf_carriesTaken) _ (wf_deliverHeld hs1)))

theorem answers_execFrequencyStall {s : State} : Answers s (execFrequencyStall s) := by
  unfold execFrequencyStall
  split
  · split
    · exact answers_next id
    · exact answers_next wf_gate
  · exact answers_next id

theorem answers_execPllRelock {s : State} : Answers s (execPllRelock s) := by
  unfold execPllRelock
  split
  · split
    · exact answers_next fun h => wf_ungate (wf_mk h)
    · exact answers_next id
  · exact answers_next id

theorem answers_execGovernorStepDown {s : State} : Answers s (execGovernorStepDown s) := by
  unfold execGovernorStepDown
  split
  · exact answers_next fun h => wf_askStall (wf_mk h)
  · exact answers_next id

theorem answers_execGovernorStepUp {s : State} : Answers s (execGovernorStepUp s) := by
  unfold execGovernorStepUp
  split
  · exact answers_next wf_askStall
  · exact answers_next id

theorem wf_moveLines {s : State} {new d : Nat} (h : Wf s) : Wf (moveLines s new d) := wf_foldl (fun _ _ hw => wf_flushL2 _ _ hw) _ h

theorem answers_execColumnChange {s : State} : Answers s (execColumnChange s) := by
  unfold execColumnChange
  split
  · split
    · exact answers_next id
    · split
      · exact answers_next wf_gate
      · extract_lets s1 x
        have hs1 : Wf s → Wf s1 := fun h => wf_foldl (fun _ _ => wf_moveLines) _ h
        exact answers_next fun h => wf_ungate (wf_mk (hs1 h))
  · exact answers_next id

theorem wf_writeColtgt {s : State} {v : Nat} (h : Wf s) : Wf (writeColtgt s v) := by
  unfold writeColtgt
  extract_lets v_1 x s1
  have hs1 : Wf s1 := wf_mk h
  split
  · exact h
  · split
    · split
      · exact hs1
      · exact wf_askStall hs1
    · split
      · exact hs1
      · exact wf_askStall hs1

theorem answers_execPwrctlColtgt {val : Nat} {s : State} : Answers s (execPwrctlColtgt val s) := answers_next wf_writeColtgt

theorem answers_execColumnDarkenIdle {mask : Nat} {s : State} : Answers s (execColumnDarkenIdle mask s) := by
  unfold execColumnDarkenIdle
  extract_lets new
  split
  · exact answers_next id
  · exact answers_next wf_askStall

theorem answers_execColumnRelight {pa : Nat} {s : State} : Answers s (execColumnRelight pa s) := by
  unfold execColumnRelight
  extract_lets hd
  split
  · exact answers_next id
  · exact answers_next wf_askStall

theorem answers_execEnterIdle {s : State} : Answers s (execEnterIdle s) := by
  unfold execEnterIdle
  split
  · exact answers_next id
  · exact answers_next wf_mk

theorem answers_execEnterSelfRefresh {s : State} : Answers s (execEnterSelfRefresh s) := by
  unfold execEnterSelfRefresh
  split
  · exact answers_next wf_mk
  · exact answers_next id

theorem answers_execWakeToActive {s : State} : Answers s (execWakeToActive s) := by
  unfold execWakeToActive
  split
  · exact answers_next wf_mk
  · exact answers_next id

theorem answers_execFwLoad {s : State} : Answers s (execFwLoad s) := by
  unfold execFwLoad
  split
  · exact answers_next wf_mk
  · extract_lets m size img x
    exact answers_next wf_mk

theorem wf_fwDiscard {s : State} {err : Nat} (h : Wf s) : Wf (fwDiscard s err) := wf_mk h

theorem answers_execFwVerifyDone {s : State} : Answers s (execFwVerifyDone s) := by
  unfold execFwVerifyDone
  split
  · exact answers_next id
  · split
    · exact answers_next id
    · split
      · exact answers_next wf_fwDiscard
      · exact answers_next wf_mk

theorem answers_execFwCommit {s : State} : Answers s (execFwCommit s) := by
  unfold execFwCommit
  split
  · exact answers_next wf_mk
  · exact answers_next id

theorem answers_execFwAbort {s : State} : Answers s (execFwAbort s) := by
  unfold execFwAbort
  split
  · exact answers_next wf_fwDiscard
  · exact answers_next id

theorem answers_execFwCommitPoint {s : State} : Answers s (execFwCommitPoint s) := by
  unfold execFwCommitPoint
  split
  · exact answers_next id
  · split
    · exact answers_next id
    · split
      · exact answers_next wf_fwDiscard
      · exact answers_next wf_mk

theorem answers_execAttestationRequest {val : Nat} {s : State} : Answers s (execAttestationRequest val s) := by
  unfold execAttestationRequest
  extract_lets x s1 f r x_1
  have hs1 : Wf s → Wf s1 := wf_mk
  split
  · exact answers_next hs1
  · exact answers_next fun h => wf_mk (hs1 h)

theorem wf_writeRoute {s : State} {v : Nat} (h : Wf s) : Wf (writeRoute s v) := wf_mk h

theorem wf_writePort {s : State} {p v : Nat} (h : Wf s) : Wf (writePort s p v) := by
  unfold writePort
  extract_lets q en q1 q2 x
  exact wf_mk h

theorem wf_writeReg {s : State} {off v : Nat} (h : Wf s) : Wf (writeReg s off v) := by
  unfold writeReg
  extract_lets hd put n p
  split
  · split
    · exact wf_mk h
    · exact h
  · exact wf_mk h
  · exact wf_mk h
  · split
    · exact wf_mk h
    · exact h
  · split
    · exact wf_mk h
    · exact h
  · exact wf_mk h
  · exact wf_mk h
  · exact wf_writeRoute h
  · exact wf_mk h
  · exact wf_mk h
  · exact wf_mk h
  · exact wf_mk h
  · exact wf_mk h
  · exact wf_mk h
  · split
    · exact wf_mk h
    · split
      · exact wf_mk h
      · split
        · exact wf_writePort h
        · split
          · exact wf_mk h
          · exact h

theorem wf_writePwrctl {s : State} {v : Nat} (h : Wf s) : Wf (writePwrctl s v) := by
  unfold writePwrctl
  extract_lets x s1
  have hs1 : Wf s1 := wf_mk h
  exact wf_writeColtgt (wf_writeFreq hs1)

theorem answers_execMgmtRegisterWrite {off val : Nat} {s : State} : Answers s (execMgmtRegisterWrite off val s) := by
  unfold execMgmtRegisterWrite
  extract_lets v all
  split
  · exact answers_next id
  · split
    · split
      · exact answers_execDoorbell
      · exact answers_next id
    · exact answers_next wf_writePwrctl
    · exact answers_execDbgctlDreq
    · split
      · exact answers_execFwLoad
      · exact answers_execFwCommit
      · exact answers_execFwAbort
      · exact answers_next id
    · exact answers_execAttestationRequest
    · exact answers_execDctxWrite
    · split
      · exact answers_execDebugHalt
      · exact answers_execDebugContinue
      · exact answers_execDebugStep
      · exact answers_execDebugWithdraw
      · exact answers_next id
    · exact answers_next wf_debugAsk
    · exact answers_execDdataWrite
    · exact answers_next wf_writeReg

theorem wf_mgmtReadEffect {s : State} {off : Nat} (h : Wf s) : Wf (mgmtReadEffect s off) := by
  unfold mgmtReadEffect
  split
  · exact wf_debugAsk h
  · exact wf_debugAsk h
  · exact h

end Sys2Proof.Proofs
end

section
/-! The instructions of sampling and of grammars, the table as a whole, fetch and step (O43, O44). -/
namespace Sys2Proof.Proofs
open Laws
open Machine hiding Wf

theorem answers_execSamcfgPar {xd xa : Nat} {s : State} : Answers s (execSamcfgPar xd xa s) := by
  refine answers_coltOp fun o c => resKeeps_bind fun a => ?_
  split
  · exact resKeeps_ok wf_modColt
  · refine resKeeps_bind fun _ => ?_
    split
    · exact resKeeps_ok wf_modColt
    · exact resKeeps_ok wf_refuseCfg

theorem answers_execSamcfgVoc {xd xa : Nat} {s : State} : Answers s (execSamcfgVoc xd xa s) := by
  refine answers_coltOp fun o c => resKeeps_bind fun a => ?_
  extract_lets v
  split
  · exact resKeeps_ok wf_refuseCfg
  · exact resKeeps_ok wf_modColt

theorem answers_execSamcfgMask {xd xa : Nat} {s : State} : Answers s (execSamcfgMask xd xa s) := by
  refine answers_coltOp fun o c => resKeeps_bind fun a => ?_
  split
  · exact resKeeps_ok wf_refuseCfg
  · extract_lets setMask
    split
    · exact resKeeps_bind fun _ => resKeeps_ok wf_modColt
    · exact resKeeps_ok wf_modColt

theorem answers_execSamcfgSeed {xd xa xb : Nat} {s : State} : Answers s (execSamcfgSeed xd xa xb s) :=
  answers_coltOp fun _ _ => resKeeps_bind fun _ => resKeeps_bind fun _ => resKeeps_ok wf_modColt

theorem answers_execSample {xd xa xb k : Nat} {s : State} : Answers s (execSample xd xa xb k s) := by
  refine answers_coltOp fun o c => resKeeps_bind fun a => resKeeps_bind fun b => ?_
  extract_lets r len row pick
  refine resKeeps_bind fun _ => resKeeps_bind fun _ => ?_
  have hpick : ∀ bits, ResKeeps s (pick bits) := by
    intro bits
    unfold pick
    extract_lets legal
    split
    · exact resKeeps_ok id
    · exact resKeeps_ok id
  split
  · exact hpick none
  · exact resKeeps_bind hpick

theorem answers_execMaskg {xd xa xb : Nat} {s : State} : Answers s (execMaskg xd xa xb s) :=
  answers_coltOp fun _ _ => resKeeps_bind fun _ => resKeeps_bind fun _ => resKeeps_bind fun _ => resKeeps_maskTo

theorem answers_execMaskgSh {xd xb : Nat} {s : State} : Answers s (execMaskgSh xd xb s) :=
  answers_coltOp fun _ _ => resKeeps_maskTo

theorem answers_execPdaadv {xd xa xb : Nat} {s : State} : Answers s (execPdaadv xd xa xb s) := by
  refine answers_coltOp fun o c => resKeeps_bind fun a => resKeeps_bind fun t => resKeeps_bind fun _ => ?_
  extract_lets cid
  split
  · exact resKeeps_ok id
  · exact resKeeps_bind fun _ => resKeeps_ok wf_storePda

theorem answers_execPdaadvLd {xd xa : Nat} {s : State} : Answers s (execPdaadvLd xd xa s) :=
  answers_coltOp fun _ _ => resKeeps_bind fun _ => resKeeps_bind fun _ => resKeeps_ok wf_modColt

theorem answers_execPdaadvSh {xd xb : Nat} {s : State} : Answers s (execPdaadvSh xd xb s) := by
  refine answers_coltOp fun o c => resKeeps_bind fun t => ?_
  split
  · exact resKeeps_ok id
  · exact resKeeps_ok wf_modColt

theorem answers_execTokw {xd xa xb : Nat} {s : State} : Answers s (execTokw xd xa xb s) := by
  refine answers_coltOp fun o c => resKeeps_bind fun a => resKeeps_bind fun b => ?_
  extract_lets cid r rec lane rep s1 s2
  refine resKeeps_bind fun _ => ?_
  split
  · exact resKeeps_ok id
  · refine resKeeps_bind fun _ => resKeeps_bind fun _ => resKeeps_bind fun _ => ?_
    exact resKeeps_ok fun h => wf_setReady (wf_seqPut (wf_seqPut h))

/-- Every instruction of the table answers a next state, and keeps the form. -/
theorem answers_exec (i : Instr) (s : State) : Answers s (exec i s) := by
  cases i
  case
    btgt | loop | loopS0 | loopS1 | scmp | scmpi | plog | pmov | pseti | csrr | csrw | csrs | rstkr | rstkw | bart | trdy | add | sub |
      mul | mulh | and_ | or_ | xor_ | shl | shr | sra | min_ | max_ | addi | lui | sel | dsel | ld | st | wcfg | shw | ksel | xbc |
      mscl | fadd | fsub | fmul | fmin | fmax | fma | fms | fnma | funa | iadd | isub | imul | iand | ior | ixor | ishl | ishr | isra |
      imin | imax | fcmp | icmp | klog | vsel | cvt | vmov | vimm | vlane | vld | vst | park | unpark | sfseed | sfstep | sftld |
      rowsum | rowmax | rowstat | smxup | smxfix | vperm | vshuf | vpfx | vred | topkp | vscl | push | shift | acc | drain | mclr |
      axch | acrd | acwr | zop | sloc | sapl | zld | zrd | zclr | zmov | step | stepSpec | sdot | copy | gath | scat | scacc | amo |
      pref | rgwb | rginv | btx | bsel | zspl | zsplCopy | zfil | rld | rst | coll | smpq | flkq | wpset | wpclr | mskq =>
    exact answers_issueTiles
  case
    qAdd | qSub | qAnd | qOr | qXor | qShl | qShr | qMinu | qAddi | qAndi | qOri | qShli | qShri | qLi | qBeq | qBne | qBltu | qBgeu |
      qJmp | qLoop | qPtim =>
    exact answers_qpStep
  case sup | scry | sdn => exact answers_treeIssue
  case halt => exact answers_execHalt
  case kend => exact answers_execKend
  case call => exact answers_execCall
  case ret => exact answers_execRet
  case trap => exact answers_execTrap
  case eret => exact answers_execEret
  case brk => exact answers_execBrk
  case waitm => exact answers_execWaitm
  case barv => exact answers_execBarv
  case barw => exact answers_execBarw
  case fork => exact answers_execFork
  case join => exact answers_execJoin
  case steal => exact answers_execSteal
  case susp => exact answers_execSusp
  case yield_ => exact answers_execYield
  case commit => exact answers_execCommit
  case plsw => exact answers_execPlsw
  case acq => exact answers_execAcq
  case rel => exact answers_execRel
  case fence => exact answers_execFence
  case xwt => exact answers_execXwt
  case tree => exact answers_execTree
  case seq => exact answers_execSeq
  case deviceReset => exact answers_execDeviceReset
  case resultLanding => exact answers_execResultLanding
  case interlockedArrival => exact answers_execInterlockedArrival
  case haltDrainDone => exact answers_execHaltDrainDone
  case endDrainDone => exact answers_execEndDrainDone
  case planeSwap => exact answers_execPlaneSwap
  case planeLoadDone => exact answers_execPlaneLoadDone
  case trapEntry => exact answers_execTrapEntry
  case waitmWake => exact answers_execWaitmWake
  case waitmTimeout => exact answers_execWaitmTimeout
  case barrierCount => exact answers_execBarrierCount
  case barrierFlip => exact answers_execBarrierFlip
  case barrierCompletionSeen => exact answers_execBarrierCompletionSeen
  case suspensionDrainDone => exact answers_execSuspensionDrainDone
  case pickUp => exact answers_execPickUp
  case regroup => exact answers_execRegroup
  case groupRetire => exact answers_execGroupRetire
  case iterationBoundary => exact answers_execIterationBoundary
  case loopWake => exact answers_execLoopWake
  case scanRendezvous => exact answers_execScanRendezvous
  case scryCarryArrival => exact answers_execScryCarryArrival
  case nodeComplete => exact answers_execNodeComplete
  case samplingJob => exact answers_execSamplingJob
  case linkQueueGrant => exact answers_execLinkQueueGrant
  case remoteRequestServe => exact answers_execRemoteRequestServe
  case remoteReply => exact answers_execRemoteReply
  case remoteTimeout => exact answers_execRemoteTimeout
  case collMessage => exact answers_execCollMessage
  case carryFlit => exact answers_execCarryFlit
  case podArrive => exact answers_execPodArrive
  case podComplete => exact answers_execPodComplete
  case flitReplay => exact answers_execFlitReplay
  case portUp => exact answers_execPortUp
  case doorbell => exact answers_execDoorbell
  case packetDispatch => exact answers_execPacketDispatch
  case gangMap => exact answers_execGangMap
  case priorityAging => exact answers_execPriorityAging
  case quantumExpiry => exact answers_execQuantumExpiry
  case launch => exact answers_execLaunch
  case loopl => exact answers_execLoopl
  case groupRelease => exact answers_execGroupRelease
  case packetCopy => exact answers_execPacketCopy
  case graphr => exact answers_execGraphr
  case graphNodeComplete => exact answers_execGraphNodeComplete
  case graphp => exact answers_execGraphp
  case bind => exact answers_execBind
  case unmap => exact answers_execUnmap
  case unmapDrainDone => exact answers_execUnmapDrainDone
  case signal => exact answers_execSignal
  case wait => exact answers_execWait
  case waitSatisfied => exact answers_execWaitSatisfied
  case waitTimeout => exact answers_execWaitTimeout
  case ctxcCreate => exact answers_execCtxcCreate
  case ctxcDestroy => exact answers_execCtxcDestroy
  case ctxcSet => exact answers_execCtxcSet
  case ctxcResume => exact answers_execCtxcResume
  case ctxcCkpt => exact answers_execCtxcCkpt
  case ctxcQcreate => exact answers_execCtxcQcreate
  case ctxcQdestroy => exact answers_execCtxcQdestroy
  case ctxcQprog => exact answers_execCtxcQprog
  case ctxcQreset => exact answers_execCtxcQreset
  case ctxcGmap => exact answers_execCtxcGmap
  case ctxcGunmap => exact answers_execCtxcGunmap
  case ctxcHdrop => exact answers_execCtxcHdrop
  case ctxcFpool => exact answers_execCtxcFpool
  case packetComplete => exact answers_execPacketComplete
  case preemptStop => exact answers_execPreemptStop
  case saveComplete => exact answers_execSaveComplete
  case contextRestore => exact answers_execContextRestore
  case restoreResume => exact answers_execRestoreResume
  case snapshotReplay => exact answers_execSnapshotReplay
  case checkpoint => exact answers_execCheckpoint
  case checkpointDone => exact answers_execCheckpointDone
  case muleTransferComplete => exact answers_execMuleTransferComplete
  case forkCopyDone => exact answers_execForkCopyDone
  case sequenceTrapPost => exact answers_execSequenceTrapPost
  case pageWalk => exact answers_execPageWalk
  case leaseExpiry => exact answers_execLeaseExpiry
  case hwFaultService => exact answers_execHwFaultService
  case debugHalt => exact answers_execDebugHalt
  case debugContinue => exact answers_execDebugContinue
  case debugStep => exact answers_execDebugStep
  case debugWithdraw => exact answers_execDebugWithdraw
  case ddataRead => exact answers_execDdataRead
  case ddataWrite => exact answers_execDdataWrite
  case dctxWrite => exact answers_execDctxWrite
  case dbgctlDreq => exact answers_execDbgctlDreq
  case attestationRequest => exact answers_execAttestationRequest
  case fwLoad => exact answers_execFwLoad
  case fwVerifyDone => exact answers_execFwVerifyDone
  case fwCommit => exact answers_execFwCommit
  case fwAbort => exact answers_execFwAbort
  case fwCommitPoint => exact answers_execFwCommitPoint
  case pwrctlFreq => exact answers_execPwrctlFreq
  case frequencyStall => exact answers_execFrequencyStall
  case pllRelock => exact answers_execPllRelock
  case governorStepDown => exact answers_execGovernorStepDown
  case governorStepUp => exact answers_execGovernorStepUp
  case thermalFence => exact answers_execThermalFence
  case pwrctlColtgt => exact answers_execPwrctlColtgt
  case columnChange => exact answers_execColumnChange
  case columnDarkenIdle => exact answers_execColumnDarkenIdle
  case columnRelight => exact answers_execColumnRelight
  case enterIdle => exact answers_execEnterIdle
  case enterSelfRefresh => exact answers_execEnterSelfRefresh
  case wakeToActive => exact answers_execWakeToActive
  case mgmtRegisterWrite => exact answers_execMgmtRegisterWrite
  case acqRelFenceComplete => exact answers_execAcqRelFenceComplete
  case failedUnitFence => exact answers_execFailedUnitFence
  case qLdw => exact answers_execQLdw
  case qStw => exact answers_execQStw
  case qDone => exact answers_execQDone
  case qSkip => exact answers_execQSkip
  case qFail => exact answers_execQFail
  case samcfgPar => exact answers_execSamcfgPar
  case samcfgVoc => exact answers_execSamcfgVoc
  case samcfgMask => exact answers_execSamcfgMask
  case samcfgSeed => exact answers_execSamcfgSeed
  case sample => exact answers_execSample
  case maskg => exact answers_execMaskg
  case maskgSh => exact answers_execMaskgSh
  case pdaadv => exact answers_execPdaadv
  case pdaadvLd => exact answers_execPdaadvLd
  case pdaadvSh => exact answers_execPdaadvSh
  case tokw => exact answers_execTokw

/-- What an agent does next: the state it leaves keeps the form, or the state in which its instruction runs. -/
def FetchKeeps (s : State) : Fetched → Prop
  | .quiet t => Wf s → Wf t
  | .op _ t => Wf s → Wf t

theorem fetchCore_keeps {s : State} {k : Nat} : FetchKeeps s (fetchCore s k) := by
  unfold fetchCore
  extract_lets c w ill
  split
  · exact wf_heldStep
  · split
    · exact id
    · split
      · split
        · exact wf_takeTrap
        · split
          · exact fun h => wf_stepEnd (wf_nextWord h)
          · exact wf_takeTrap
          · exact id
      · split
        · exact wf_openBundle
        · split
          · split
            · split
              · exact wf_landMet
              · exact wf_setCore
            · exact wf_endBundle
          · split
            · exact id
            · exact id

theorem fetchColt_keeps {s : State} {c : Nat} : FetchKeeps s (fetchColt s c) := by
  unfold fetchColt
  extract_lets r w
  split
  · exact id
  · split
    · exact wf_coltTrap
    · split
      · exact wf_nextColt
      · exact wf_coltTrap
      · exact id

theorem fetchQp_keeps {s : State} : FetchKeeps s (fetchQp s) := by
  unfold fetchQp
  split
  · exact id
  · split
    · exact id
    · split
      · exact id
      · exact id

theorem fetch_keeps {s : State} : FetchKeeps s (fetch s) := by
  unfold fetch
  split
  · exact id
  · exact fetchCore_keeps
  · exact fetchColt_keeps
  · exact fetchQp_keeps

/-- A choice of the schedule that is no fault keeps the form (log 3, log 90). -/
theorem schedule_keeps {s : State} {f : Fetched} (e : schedule s = .ok f) : FetchKeeps s f := by
  unfold schedule at e
  split at e
  · cases e
    exact fetch_keeps
  · rename_i ch rest _
    extract_lets s1 at e
    cases ch with
    | act a =>
      cases e
      exact fetch_keeps (s := { s1 with turn := a })
    | happen i => cases e; exact id
    | tick ns => cases e; exact id
    | hostStore pa v =>
      dsimp -zeta only at e
      split at e
      · cases e
      · split at e
        · cases e; exact id
        · cases e; exact fun h => wf_putMemNat _ _ _ h
    | hostMem a v => cases e; exact id
    | hostRead off => cases e; exact fun h => wf_mgmtReadEffect h
    | transit m => cases e; exact fun h => wf_transit h

/-- Only a host store beyond the memory of R9 is a fault. -/
theorem schedule_error {s : State} {x : Fault} (e : schedule s = .error x) :
    ∃ pa v rest, s.sched = .hostStore pa v :: rest ∧ memSize < pa + 8 ∧ x = .noSuchMemory pa := by
  unfold schedule at e
  split at e
  · cases e
  · rename_i ch rest hs
    cases ch with
    | hostStore pa v =>
      dsimp only at e
      split at e
      · rename_i hlt
        cases e
        exact ⟨pa, v, rest, hs, hlt, rfl⟩
      · split at e
        · cases e
        · cases e
    | act | happen | tick | hostMem | hostRead | transit => cases e

/-- A step is the fault of such a store, or it answers a next state and keeps the form. -/
theorem step_cases (s : State) : Answers s (step s) ∨
    ∃ pa v rest, s.sched = .hostStore pa v :: rest ∧ memSize < pa + 8 ∧ step s = .fault (.noSuchMemory pa) := by
  unfold step
  cases e : schedule s with
  | error x =>
    obtain ⟨pa, v, rest, hs, hlt, rfl⟩ := schedule_error e
    exact .inr ⟨pa, v, rest, hs, hlt, rfl⟩
  | ok f =>
    have hf := schedule_keeps e
    cases f with
    | quiet t => exact .inl (answers_next hf)
    | op i t => exact .inl (answers_after hf (answers_exec i t))

/-- Settles O43: exec answers by the cases of the instruction, and a step's one fault is the host store beyond the memory. -/
theorem everyStepAnswers : Obligations.EveryStepAnswers := by
  unfold Obligations.EveryStepAnswers
  refine ⟨fun i s => ?_, fun s => ?_⟩
  · obtain ⟨t, ht, _⟩ := answers_exec i s
    exact ⟨t, ht⟩
  · obtain ⟨t, ht, _⟩ | hf := step_cases s
    · exact .inl ⟨t, ht⟩
    · exact .inr hf

/-- Settles O44: every operation over the state keeps the form, so every instruction, event and host write does. -/
theorem memoryFormKept : Obligations.MemoryFormKept := by
  unfold Obligations.MemoryFormKept
  intro s t hs hst
  obtain ⟨r, hr, hk⟩ | ⟨pa, v, rest, _, _, hf⟩ := step_cases s
  · cases hr.symm.trans hst
    exact hk hs
  · cases hf.symm.trans hst

end Sys2Proof.Proofs
end

section
/-! The die a tile sits on (O22) and the state of reset (O45). -/
namespace Sys2Proof.Proofs
open Laws
open Machine hiding Wf

/-- A tile reads every register that CSRR names. -/
theorem csrHere_tile {c : OpCtx} {n : Nat} (h : c.isColt = false) : csrHere c n = .ok () := by
  unfold csrHere
  rw [h]
  rfl

theorem csrValue_did {s : State} {k d : Nat} (hk : k < 64) (hd : d < 4) : csrValue s (unitOf k d) 0x000 = d := by
  have hc : ¬ 256 ≤ unitOf k d := Nat.not_le.mpr (unit_lt hk hd)
  simp [csrValue, hc, unit_die hd]

/-- The die predicates of a tile of a C-die (R17). -/
theorem predOf_die {t : Tile} {k d : Nat} (hk : k < 64) (hd : d < 4) {i : Nat} (h1 : 1 ≤ i) (h4 : i ≤ 4) :
    predOf t (unitOf k d) i = decide (d = i - 1) := by
  have h0 : i ≠ 0 := by omega
  simp [predOf, h0, h4, unit_lt hk hd, unit_die hd]

theorem predOf_lead {t : Tile} {k d : Nat} (hk : k < 64) (hd : d < 4) : predOf t (unitOf k d) 5 = decide (d = k % 4) := by
  simp [predOf, unit_lt hk hd, unit_die hd, unit_core hd]

/-- Settles O22: DID and p1 to p5 read the unit's place on its core, and the lead dies of the 64 cores are counted. -/
theorem dieIdentity : Obligations.DieIdentity := by
  unfold Obligations.DieIdentity
  refine ⟨fun s k d xd i hin hd _ => ⟨csrValue_did hin.core hd, ?_⟩, fun s u v b => rfl, fun t k d hk hd => ?_,
    fun k => rfl, by decide, by decide⟩
  · refine issueTiles_bundle hin fun e he => ?_
    have he4 : e < 4 := dies_lt he
    have hcolt : (look s k 0 e).isColt = false := look_colt hin.core he4
    have hval : csrValue (look s k 0 e).s (look s k 0 e).u 0x000 = e := csrValue_did hin.core he4
    unfold opCsrr
    rw [csrHere_tile hcolt, hval]
    rfl
  · exact ⟨predOf_die hk hd (by omega) (by omega), predOf_die hk hd (by omega) (by omega), predOf_die hk hd (by omega) (by omega),
      predOf_die hk hd (by omega) (by omega), predOf_lead hk hd⟩

theorem reset_tile (u : Nat) : State.reset.tile u = {} := sget_nil _ u
theorem reset_core (k : Nat) : State.reset.core k = {} := sget_nil _ k
theorem reset_queue (q : Nat) : State.reset.queue q = {} := sget_nil _ q
theorem reset_group (n : Nat) : State.reset.group n = {} := sget_nil _ n

/-- Context 0 alone is created at reset (log 14). -/
theorem reset_ctx {c : Nat} (h : c ≠ 0) : State.reset.ctx c = {} := by
  simp [State.ctx, State.reset, sget, h.symm]

/-- Settles O45: every register file, queue and table of reset is empty and reads as its default. -/
theorem resetState : Obligations.ResetState := by
  unfold Obligations.ResetState
  refine ⟨wf_reset, rfl, rfl, rfl, rfl, fun k => ?_, fun u => ?_, rfl, fun c hc => ?_, fun q => ?_, fun n => ?_,
    rfl, rfl, rfl, rfl, rfl, rfl, rfl, rfl, rfl, rfl, rfl, rfl⟩
  · rw [reset_core]
    exact ⟨rfl, rfl, rfl, rfl, rfl, rfl⟩
  · rw [reset_tile]
    refine ⟨rfl, fun r => ?_, fun j => sget_nil _ j, rfl, rfl⟩
    unfold Tile.getX
    split
    · rfl
    · exact sget_nil _ r
  · rw [reset_ctx hc]
  · rw [reset_queue]
  · rw [reset_group]

end Sys2Proof.Proofs
end

section
/-! The stall of the package: what the resume of R12 sets going leaves it as it is, operation by operation (O39). -/
namespace Sys2Proof.Proofs
open Laws
open Machine hiding Wf

@[simp] theorem stalled_ite {c : Prop} [Decidable c] (s t : State) :
    (if c then s else t).hub.stalled = if c then s.hub.stalled else t.hub.stalled := apply_ite (fun t => t.hub.stalled) c s t

@[simp] theorem stalled_foldl {α : Type} {f : State → α → State} (h : ∀ s a, (f s a).hub.stalled = s.hub.stalled) (l : List α) (s : State) :
    (l.foldl f s).hub.stalled = s.hub.stalled := by
  induction l generalizing s with
  | nil => rfl
  | cons a l ih => exact (ih (f s a)).trans (h s a)

@[simp] theorem stalled_setTile (s : State) (u : Nat) (t : Tile) : (s.setTile u t).hub.stalled = s.hub.stalled := rfl

@[simp] theorem stalled_modTile (s : State) (u : Nat) (f : Tile → Tile) : (s.modTile u f).hub.stalled = s.hub.stalled := rfl

@[simp] theorem stalled_setCore (s : State) (k : Nat) (c : CoreRec) : (s.setCore k c).hub.stalled = s.hub.stalled := rfl

@[simp] theorem stalled_modCore (s : State) (k : Nat) (f : CoreRec → CoreRec) : (s.modCore k f).hub.stalled = s.hub.stalled := rfl

@[simp] theorem stalled_setCtx (s : State) (c : Nat) (x : Ctx) : (s.setCtx c x).hub.stalled = s.hub.stalled := rfl

@[simp] theorem stalled_fresh (s : State) : s.fresh.hub.stalled = s.hub.stalled := rfl

@[simp] theorem stalled_noteWaits (s : State) (ln : Nat) : (s.noteWaits ln).hub.stalled = s.hub.stalled := by
  simp [State.noteWaits]

@[simp] theorem stalled_noteLoops (s : State) (ln : Nat) : (s.noteLoops ln).hub.stalled = s.hub.stalled := by
  simp [State.noteLoops]

@[simp] theorem stalled_touchLine (s : State) (ln : Nat) : (s.touchLine ln).hub.stalled = s.hub.stalled := by
  simp [State.touchLine]

@[simp] theorem stalled_putMem (s : State) (pa : Nat) (bs : List Byte) : (s.putMem pa bs).hub.stalled = s.hub.stalled := by
  simp [State.putMem]

@[simp] theorem stalled_putMemNat (s : State) (pa len v : Nat) : (s.putMemNat pa len v).hub.stalled = s.hub.stalled := by
  simp [State.putMemNat]

@[simp] theorem stalled_setL2 (s : State) (d ln : Nat) (l : Line) : (s.setL2 d ln l).hub.stalled = s.hub.stalled := rfl

@[simp] theorem stalled_setAdit (s : State) (k ln : Nat) (l : Line) : (s.setAdit k ln l).hub.stalled = s.hub.stalled := rfl

@[simp] theorem stalled_writeBack (s : State) (d ln : Nat) : (s.writeBack d ln).hub.stalled = s.hub.stalled := by
  simp [State.writeBack]

@[simp] theorem stalled_flushL2 (s : State) (d ln : Nat) : (s.flushL2 d ln).hub.stalled = s.hub.stalled := by
  simp [State.flushL2]

@[simp] theorem stalled_markAtomic (s : State) (ln : Nat) : (s.markAtomic ln).hub.stalled = s.hub.stalled := by
  simp [State.markAtomic]

@[simp] theorem stalled_roomRc (s : State) (u ln : Nat) : (s.roomRc u ln).hub.stalled = s.hub.stalled := by
  simp [State.roomRc]

@[simp] theorem stalled_roomAdit (s : State) (key ln : Nat) : (s.roomAdit key ln).hub.stalled = s.hub.stalled := by
  simp [State.roomAdit]

@[simp] theorem stalled_roomL2 (s : State) (d ln : Nat) : (s.roomL2 d ln).hub.stalled = s.hub.stalled := by
  simp [State.roomL2]

@[simp] theorem stalled_fillLineA (s : State) (u ln : Nat) (nc viaAdit : Bool) :
    (s.fillLineA u ln nc viaAdit).hub.stalled = s.hub.stalled := by
  unfold State.fillLineA
  extract_lets bs s1 key
  have hs1 : s1.hub.stalled = s.hub.stalled := by simp [s1]
  simp [hs1]

@[simp] theorem stalled_fillLine (s : State) (u ln : Nat) (nc : Bool) : (s.fillLine u ln nc).hub.stalled = s.hub.stalled := by
  simp [State.fillLine]

@[simp] theorem stalled_passPort (s : State) (d ln : Nat) : (s.passPort d ln).hub.stalled = s.hub.stalled := by
  simp [State.passPort]

@[simp] theorem stalled_storeByte (s : State) (u : Nat) (nc : Bool) (c : Nat × Byte) :
    (s.storeByte u nc c).hub.stalled = s.hub.stalled := by
  simp [State.storeByte]

@[simp] theorem stalled_store (s : State) (u : Nat) (nc : Bool) (cells : List (Nat × Byte)) :
    (s.store u nc cells).hub.stalled = s.hub.stalled := by
  simp [State.store]

@[simp] theorem stalled_hubWrite (s : State) (cid va : Nat) (bs : List Byte) : (s.hubWrite cid va bs).hub.stalled = s.hub.stalled := by
  simp [State.hubWrite]

@[simp] theorem stalled_writeX (s : State) (u r : Nat) (v : DWord) : (State.writeX s u r v).hub.stalled = s.hub.stalled := rfl

@[simp] theorem stalled_writeBt (s : State) (u j : Nat) (v : BitVec 12) : (State.writeBt s u j v).hub.stalled = s.hub.stalled := rfl

@[simp] theorem stalled_setColt (s : State) (c : Nat) (r : ColtRec) : (s.setColt c r).hub.stalled = s.hub.stalled := rfl

@[simp] theorem stalled_modColt (s : State) (c : Nat) (f : ColtRec → ColtRec) : (s.modColt c f).hub.stalled = s.hub.stalled := rfl

@[simp] theorem stalled_setGroup (s : State) (kern : Nat) (g : Group) : (s.setGroup kern g).hub.stalled = s.hub.stalled := rfl

@[simp] theorem stalled_modGroup (s : State) (kern : Nat) (f : Group → Group) : (s.modGroup kern f).hub.stalled = s.hub.stalled := rfl

@[simp] theorem stalled_csrApply (s : State) (u num : Nat) (v : DWord) (b : Bool) : (csrApply s u num v b).hub.stalled = s.hub.stalled := by
  unfold csrApply
  simp only
  split
  all_goals simp

@[simp] theorem stalled_rstkApply (s : State) (u idx : Nat) (v : DWord) : (State.rstkApply s u idx v).hub.stalled = s.hub.stalled := by
  simp [State.rstkApply]

@[simp] theorem stalled_portUsed (s : State) (p : Nat) : (s.portUsed p).hub.stalled = s.hub.stalled := rfl

@[simp] theorem stalled_podOut (s : State) (m : PodMsg) : (State.podOut s m).hub.stalled = s.hub.stalled := by
  unfold State.podOut
  split
  · rfl
  · split
    · exact stalled_portUsed _ _
    · rfl

@[simp] theorem stalled_podSend (s : State) (c : Bool) (r b : Nat) (p : Bool) : (s.podSend c r b p).hub.stalled = s.hub.stalled := by
  unfold State.podSend
  split <;> simp

@[simp] theorem stalled_podFinish (s : State) (kern key : Nat) : (s.podFinish kern key).hub.stalled = s.hub.stalled := by
  simp [State.podFinish]

@[simp] theorem stalled_podProgress (s : State) (kern key : Nat) : (s.podProgress kern key).hub.stalled = s.hub.stalled := by
  simp [State.podProgress]

@[simp] theorem stalled_barTest (s : State) (kern key : Nat) : (State.barTest s kern key).hub.stalled = s.hub.stalled := by
  simp [State.barTest]

@[simp] theorem stalled_barMod (s : State) (kern key : Nat) (f : Barrier → Barrier) :
    (s.barMod kern key f).hub.stalled = s.hub.stalled := by
  simp [State.barMod]

@[simp] theorem stalled_queueReq (s : State) (r : Req) : (s.queueReq r).hub.stalled = s.hub.stalled := rfl

@[simp] theorem stalled_postColl (s : State) (u n : Nat) (cmd : NodeCmd) : (postColl s u n cmd).hub.stalled = s.hub.stalled := by
  unfold postColl
  split <;> simp

@[simp] theorem stalled_nodePost (s : State) (u n : Nat) (cmd : NodeCmd) : (nodePost s u n cmd).hub.stalled = s.hub.stalled := by
  unfold nodePost
  split <;> simp

@[simp] theorem stalled_benchArrive (s : State) (u code : Nat) (v : Vec) : (benchArrive s u code v).hub.stalled = s.hub.stalled := rfl

@[simp] theorem stalled_benchLeave (s : State) (u code : Nat) (v : Vec) (delay : Nat) :
    (benchLeave s u code v delay).hub.stalled = s.hub.stalled := by
  simp [benchLeave]

@[simp] theorem stalled_barArriveTile (s : State) (u sc bid : Nat) : (barArriveTile s u sc bid).hub.stalled = s.hub.stalled := by
  simp [barArriveTile]

@[simp] theorem stalled_linkPostRld (s : State) (u : Nat) (ra : DWord) : (linkPostRld s u ra).hub.stalled = s.hub.stalled := rfl

@[simp] theorem stalled_linkPostRst (s : State) (u : Nat) (ra : DWord) (bs : List Byte) :
    (linkPostRst s u ra bs).hub.stalled = s.hub.stalled := rfl

@[simp] theorem stalled_scanPopAt (s : State) (u : Nat) (r : ScanRow) (bsA bsB : List Byte) :
    (scanPopAt s u r bsA bsB).hub.stalled = s.hub.stalled := rfl

@[simp] theorem stalled_scrySend (s : State) (kern inst : Nat) : (scrySend s kern inst).hub.stalled = s.hub.stalled := rfl

@[simp] theorem stalled_walkFill (s : State) (u : Nat) (e : TlbEntry) : (s.walkFill u e).hub.stalled = s.hub.stalled := by
  unfold State.walkFill
  simp only
  repeat' split
  all_goals rfl

@[simp] theorem stalled_tlbKeep (s : State) (u : Nat) (e : TlbEntry) : (s.tlbKeep u e).hub.stalled = s.hub.stalled := by
  simp [State.tlbKeep]

@[simp] theorem stalled_monitorWait (s : State) (u pa timeout : Nat) : (monitorWait s u pa timeout).hub.stalled = s.hub.stalled := by
  simp [monitorWait]

@[simp] theorem stalled_applyEff (s : State) (u slot : Nat) (e : Eff) : (applyEff s u slot e).1.hub.stalled = s.hub.stalled := by
  cases e
  case mem cells nc => exact stalled_store s u nc cells
  case waitm pa tm => exact stalled_monitorWait s u pa tm
  case barArrive sc bid => exact stalled_barArriveTile s u sc bid
  case csr n v so => exact stalled_csrApply s u n v so
  case xpost n cmd => exact stalled_nodePost s u n cmd
  case benchSend c v d => exact stalled_benchLeave s u c v d
  case load r pa size sx nc => exact stalled_foldl (fun s l => stalled_fillLine s u l nc) (linesOf pa size) s
  case fill lines nc => exact stalled_foldl (fun s l => stalled_fillLine s u l nc) lines s
  case tlbFill e => exact stalled_tlbKeep s u e
  case scryStart inst => exact stalled_scrySend s _ inst
  case atomic pa => exact stalled_markAtomic s _
  case rstk i v => exact stalled_rstkApply s u i v
  case rldPost ra => exact stalled_linkPostRld s u ra
  case rstPost ra bs => exact stalled_linkPostRst s u ra bs
  case scanPush n0 j bf16 w elem toMem aA aB ncA ncB =>
    unfold applyEff
    simp only
    split
    · simp
    · rfl
  case scanPair summary z pair => unfold applyEff; simp only; split <;> rfl
  case scanEnd n0 sloc z m rows bf16 w =>
    unfold applyEff
    simp only
    split
    · split <;> rfl
    · rfl
  all_goals rfl

@[simp] theorem stalled_arriveLoad (s : State) (e : Entry) : (arriveLoad s e).1.hub.stalled = s.hub.stalled := by
  unfold arriveLoad
  split <;> simp

@[simp] theorem stalled_landEntry (s : State) (e : Entry) : (landEntry s e).hub.stalled = s.hub.stalled := by
  simp [landEntry]

@[simp] theorem stalled_arriveEarlier (s : State) (k : Nat) (due : List Entry) : (arriveEarlier s k due).hub.stalled = s.hub.stalled := by
  unfold arriveEarlier
  refine stalled_foldl (fun s e => ?_) _ s
  simp only
  split
  · exact stalled_arriveLoad s e
  · rfl

@[simp] theorem stalled_landUpTo (s : State) (k m : Nat) : (landUpTo s k m).hub.stalled = s.hub.stalled := by
  simp [landUpTo]

@[simp] theorem stalled_writeBackDie (s : State) (d : Nat) : (writeBackDie s d).hub.stalled = s.hub.stalled := by
  simp [writeBackDie]

@[simp] theorem stalled_acquireAt (s : State) (u scope : Nat) : (acquireAt s u scope).hub.stalled = s.hub.stalled := by
  simp [acquireAt]

@[simp] theorem stalled_devFlush (s : State) (pa : Nat) : (s.devFlush pa).hub.stalled = s.hub.stalled := by
  simp [State.devFlush]

@[simp] theorem stalled_devPut (s : State) (cid va len v : Nat) : (s.devPut cid va len v).hub.stalled = s.hub.stalled := by
  unfold State.devPut
  split <;> simp

@[simp] theorem stalled_setRecLink (s : State) (cid r v : Nat) : (setRecLink s cid r v).hub.stalled = s.hub.stalled := by
  simp [setRecLink]

@[simp] theorem stalled_pushHead (s : State) (k r : Nat) : (pushHead s k r).hub.stalled = s.hub.stalled := by
  simp [pushHead]

@[simp] theorem stalled_setDeq (s : State) (kern k : Nat) (d : Deq) : (State.setDeq s kern k d).hub.stalled = s.hub.stalled := by
  simp [State.setDeq]

@[simp] theorem stalled_takeChain (s : State) (kern k : Nat) : (takeChain s kern k).1.hub.stalled = s.hub.stalled := by
  unfold takeChain
  extract_lets
  repeat' split
  all_goals simp [*]

@[simp] theorem stalled_takeTail (s : State) (kern k : Nat) : (takeTail s kern k).1.hub.stalled = s.hub.stalled := by
  unfold takeTail
  extract_lets
  repeat' split
  all_goals simp [*]

@[simp] theorem stalled_sweep (s : State) (kern : Nat) (ks : List Nat) : (sweep s kern ks).1.hub.stalled = s.hub.stalled := by
  induction ks generalizing s with
  | nil => rfl
  | cons v vs ih =>
    have ht := stalled_takeTail s kern v
    unfold sweep
    split
    · rename_i e
      rwa [e] at ht
    · rename_i s1 e
      rw [e] at ht
      exact (ih s1).trans ht

@[simp] theorem stalled_stealStep (s : State) (k : Nat) : (stealStep s k).1.hub.stalled = s.hub.stalled := by
  have hs := stalled_sweep s (s.core k).group (quadRing (s.groupOf k).cores k)
  unfold stealStep
  split
  · rename_i e
    rw [e] at hs
    exact (stalled_pushHead _ _ _).trans hs
  · rename_i e
    rwa [e] at hs

@[simp] theorem stalled_arriveOne (s : State) (k : Nat) (e : Entry) : (arriveOne s k e).hub.stalled = s.hub.stalled := by
  unfold arriveOne
  split
  · rfl
  · split
    · exact stalled_arriveLoad s e
    · split
      · exact stalled_stealStep s k
      · simp
    · rfl

@[simp] theorem stalled_arriveAll (s : State) (k : Nat) : (arriveAll s k).hub.stalled = s.hub.stalled := by
  simp [arriveAll]

@[simp] theorem stalled_setPkt (s : State) (p : Nat) (k : Pkt) : (s.setPkt p k).hub.stalled = s.hub.stalled := rfl

@[simp] theorem stalled_pktOutcome (s : State) (p status detail : Nat) : (pktOutcome s p status detail).hub.stalled = s.hub.stalled := by
  simp [pktOutcome]

@[simp] theorem stalled_dropIssue (s : State) (k : Nat) : (dropIssue s k).hub.stalled = s.hub.stalled := by
  unfold dropIssue
  extract_lets c
  split
  · rfl
  · rename_i i _
    exact stalled_foldl (f := fun (s : State) d => s.modTile (unitOf k d) (fun t => { t with walk := nth t.walk i.walks0 d }))
      (fun _ _ => rfl) (upTo 4) s

@[simp] theorem stalled_stopIssue (s : State) (k : Nat) : (stopIssue s k).hub.stalled = s.hub.stalled := by
  unfold stopIssue
  split
  · split
    · refine stalled_foldl (fun s e => ?_) _ s
      split
      · exact stalled_arriveLoad s e
      · rfl
    · exact stalled_dropIssue s k
  · rfl

@[simp] theorem stalled_settleBase (s : State) (k : Nat) : (settleBase s k).hub.stalled = s.hub.stalled := by
  simp [settleBase]

@[simp] theorem stalled_rebase (s : State) (k : Nat) : (rebase s k).hub.stalled = s.hub.stalled := by
  simp [rebase]

@[simp] theorem stalled_haltCore (s : State) (k : Nat) : (haltCore s k).hub.stalled = s.hub.stalled := by
  simp [haltCore]

@[simp] theorem stalled_stepEnd (s : State) (k : Nat) : (stepEnd s k).hub.stalled = s.hub.stalled := by
  simp [stepEnd]

@[simp] theorem stalled_haltCtx (s : State) (cid : Nat) : (haltCtx s cid).hub.stalled = s.hub.stalled := by
  simp [haltCtx]

@[simp] theorem stalled_enterPhase (s : State) (k bid : Nat) : (enterPhase s k bid).hub.stalled = s.hub.stalled := by
  simp [enterPhase]

@[simp] theorem stalled_retryHold (s : State) (k : Nat) : (retryHold s k).hub.stalled = s.hub.stalled := by
  unfold retryHold
  extract_lets
  repeat' split
  all_goals simp [*]

@[simp] theorem stalled_retryHolds (s : State) : (retryHolds s).hub.stalled = s.hub.stalled := by
  unfold retryHolds State.unlessStalled
  simp

@[simp] theorem stalled_settleDestroy (s : State) (cid : Nat) : (settleDestroy s cid).hub.stalled = s.hub.stalled := by
  unfold settleDestroy
  extract_lets
  repeat' split
  all_goals simp [*]

@[simp] theorem stalled_completeReq (s : State) (r : Req) (data : Option (List Byte)) :
    (completeReq s r data).hub.stalled = s.hub.stalled := by
  simp [completeReq]

@[simp] theorem stalled_deliverHeld (s : State) : (deliverHeld s).hub.stalled = s.hub.stalled := by
  unfold deliverHeld
  refine stalled_foldl (fun s h => ?_) _ _
  split
  · exact stalled_completeReq _ _ _
  · rfl

@[simp] theorem stalled_debugRefuse (s : State) : (debugRefuse s).hub.stalled = s.hub.stalled := rfl

@[simp] theorem stalled_debugHalt (s : State) : (debugHalt s).hub.stalled = s.hub.stalled := by
  simp [debugHalt]

@[simp] theorem stalled_debugResume (step : Bool) (s : State) (k : Nat) : (debugResume step s k).hub.stalled = s.hub.stalled := by
  unfold debugResume
  extract_lets c x s1
  have hs1 : s1.hub.stalled = s.hub.stalled := stalled_foldl (fun _ _ => rfl) (upTo 4) s
  split
  · rfl
  · exact hs1

@[simp] theorem stalled_thaw (s : State) (cid : Nat) : (thaw s cid).hub.stalled = s.hub.stalled := rfl

@[simp] theorem stalled_continueCtx (s : State) (cid : Nat) : (continueCtx s cid).hub.stalled = s.hub.stalled := by
  simp [continueCtx]

@[simp] theorem stalled_debugContinue (s : State) : (debugContinue s).hub.stalled = s.hub.stalled := by
  simp [debugContinue]

@[simp] theorem stalled_debugStep (core all : Nat) (s : State) : (debugStep core all s).hub.stalled = s.hub.stalled := by
  simp [debugStep]

@[simp] theorem stalled_debugWithdraw (core all : Nat) (s : State) : (debugWithdraw core all s).hub.stalled = s.hub.stalled := by
  simp [debugWithdraw]

@[simp] theorem stalled_writeDctx (s : State) (val : Nat) : (writeDctx s val).hub.stalled = s.hub.stalled := by
  unfold writeDctx
  split <;> simp

@[simp] theorem stalled_setTileItem (s : State) (u code v : Nat) : (setTileItem s u code v).hub.stalled = s.hub.stalled := by
  unfold setTileItem
  split <;> simp

@[simp] theorem stalled_setCoreItem (s : State) (k code v : Nat) : (setCoreItem s k code v).hub.stalled = s.hub.stalled := by
  unfold setCoreItem
  extract_lets
  repeat' split
  all_goals simp [*]

@[simp] theorem stalled_dAdvance (s : State) : (dAdvance s).hub.stalled = s.hub.stalled := rfl

@[simp] theorem stalled_dFail (s : State) : (dFail s).hub.stalled = s.hub.stalled := rfl

@[simp] theorem stalled_dGot (s : State) (v : Nat) : (dGot s v).hub.stalled = s.hub.stalled := rfl

@[simp] theorem stalled_ddataRead (s : State) : (ddataRead s).hub.stalled = s.hub.stalled := by
  unfold ddataRead
  extract_lets a u t off x
  split
  · rfl
  · split
    case _ | _ | _ | _ | _ | _ => split <;> simp
    case _ => split <;> simp
    case _ => simp

theorem stalled_dMemWrite {s t : State} {cid va v : Nat} (e : dMemWrite s cid va v = some t) : t.hub.stalled = s.hub.stalled := by
  unfold dMemWrite at e
  split at e
  · cases e
    exact stalled_hubWrite s cid va _
  · cases e

@[simp] theorem stalled_ddataWrite (val : Nat) (s : State) : (ddataWrite val s).hub.stalled = s.hub.stalled := by
  unfold ddataWrite
  extract_lets a u off bs h bad done
  have hbad : bad.hub.stalled = s.hub.stalled := stalled_dAdvance _
  have hdone : ∀ t, t.hub.stalled = s.hub.stalled → (done t).hub.stalled = s.hub.stalled := fun _ ht => (stalled_dAdvance _).trans ht
  split
  · rfl
  · split
    · exact hdone _ (stalled_setTileItem _ _ _ _)
    · exact hdone _ (stalled_setCoreItem _ _ _ _)
    · split
      · exact hdone _ rfl
      · exact hbad
    · split
      · exact hdone _ rfl
      · exact hbad
    · split
      · exact hdone _ rfl
      · exact hbad
    · split
      · rename_i t e
        exact hdone t (stalled_dMemWrite e)
      · exact hbad
    · exact hbad

@[simp] theorem stalled_setBpdata (s : State) (val : Nat) : (setBpdata s val).hub.stalled = s.hub.stalled := rfl

@[simp] theorem stalled_act (r : DebugReq) (s : State) : (DebugReq.act r s).hub.stalled = s.hub.stalled := by
  unfold DebugReq.act
  split <;> simp

@[simp] theorem stalled_debugAsk (s : State) (r : DebugReq) : (debugAsk s r).hub.stalled = s.hub.stalled := by
  unfold debugAsk
  split <;> simp

@[simp] theorem stalled_serveDebug (s : State) : (serveDebug s).hub.stalled = s.hub.stalled := by
  unfold serveDebug
  refine stalled_foldl (fun s r => ?_) _ _
  split
  · exact stalled_act _ s
  · exact stalled_act _ s
  · exact stalled_debugAsk s r

@[simp] theorem stalled_claimRaises (s : State) (kern inst : Nat) : (claimRaises s kern inst).hub.stalled = s.hub.stalled := by
  unfold claimRaises
  split <;> simp

@[simp] theorem stalled_carriesTaken (s : State) (kern inst : Nat) : (carriesTaken s kern inst).hub.stalled = s.hub.stalled := by
  unfold carriesTaken
  split <;> simp

end Sys2Proof.Proofs
end

section
/-! The platform, part 1: frequency steps, the gate and the resume, column changes (O39). -/
namespace Sys2Proof.Proofs
open Laws
open Machine hiding Wf

theorem writeFreq_discard {s : State} {v : Nat} (h : 5 ≤ v) : writeFreq s v = s := if_pos h

/-- A write of the step that is in force, with none asked for after it, starts none. -/
theorem writeFreq_same {s : State} {v : Nat} (hv : v ≤ 4) (hnow : v = s.hub.freqnow) (hlast : v = lastFreq s) :
    writeFreq s v = { s with hub := { s.hub with freq := v, gov := false } } := by
  unfold writeFreq
  rw [if_neg (by omega), if_pos ⟨hnow, hlast.symm⟩, ← hlast]
  simp

/-- Any other step is asked for. -/
theorem writeFreq_ask {s : State} {v : Nat} (hv : v ≤ 4) (h : v ≠ s.hub.freqnow ∨ v ≠ lastFreq s) :
    writeFreq s v = { s with hub := { s.hub with freq := v, gov := s.hub.gov && decide (v < lastFreq s), stalls := s.hub.stalls ++ [.freq v] } } := by
  unfold writeFreq
  rw [if_neg (by omega), if_neg fun hc => h.elim (absurd hc.1) (absurd hc.2.symm)]
  rfl

theorem frequencyStall_gates {s : State} {f : Nat} {rest : List StallReq} (hs : s.hub.stalls = .freq f :: rest)
    (hst : s.hub.stalled = false) (hid : s.hub.idle = false) : exec .frequencyStall s = .next (gate s) := by
  change execFrequencyStall s = _
  simp [execFrequencyStall, hs, hst, hid]

theorem pllRelock_resumes {s : State} {f : Nat} {rest : List StallReq} (hs : s.hub.stalls = .freq f :: rest)
    (hst : s.hub.stalled = true) : exec .pllRelock s
      = .next (ungate { s with hub := { s.hub with stalls := rest, freqnow := f, gov := s.hub.gov && decide (s.hub.freq < f) } }) := by
  change execPllRelock s = _
  simp [execPllRelock, hs, hst]

/-- A map that keeps the keys acts on what a place holds, where the default stays as it is. -/
theorem sget_map_keys {β : Type} {d : β} {F : Nat × β → Nat × β} (g : Nat → β → β) {k : Nat} (hF : ∀ e, F e = (e.1, g e.1 e.2))
    (hd : g k d = d) (m : SMap β) : sget d (m.map F) k = g k (sget d m k) := by
  induction m with
  | nil => exact hd.symm
  | cons e m ih =>
    obtain ⟨j, v⟩ := e
    rw [List.map_cons, hF]
    by_cases hj : j = k
    · simp [sget, hj]
    · simp [sget, hj, ih]

/-- A place holds the default, or an entry of the list. -/
theorem sget_mem {β : Type} (d : β) (m : SMap β) (k : Nat) : sget d m k = d ∨ (k, sget d m k) ∈ m := by
  induction m with
  | nil => exact .inl rfl
  | cons e m ih =>
    obtain ⟨j, v⟩ := e
    by_cases hj : j = k
    · exact .inr (by simp [sget, hj])
    · simp only [sget, hj, if_false]
      exact ih.imp_right (List.mem_cons_of_mem _)

/-- What a core is while the package is gated. -/
def gatedCore (c : CoreRec) : CoreRec := if c.st = .running then { c with st := .stalled } else c

/-- What core k is at the common resume. -/
def resumedCore (ks : List Nat) (k : Nat) (c : CoreRec) : CoreRec := if c.st = .stalled ∧ k ∈ ks then { c with st := .running } else c

theorem gate_core (s : State) (k : Nat) : (gate s).core k = gatedCore (s.core k) :=
  sget_map_keys (fun _ => gatedCore) (fun e => by simp only [gatedCore]; split <;> rfl) rfl s.cores

theorem gate_stallCores (s : State) (k : Nat) : k ∈ (gate s).hub.stallCores ↔ ∃ c, (k, c) ∈ s.cores ∧ c.st = .running := by
  simp [gate]

/-- The package as the resume finds it before it delivers anything. -/
def released (s : State) : State :=
  { s with cores := s.cores.map (fun p => if p.2.st = .stalled ∧ s.hub.stallCores.contains p.1 then (p.1, { p.2 with st := .running }) else p)
           hub := { s.hub with stalled := false, stallCores := [] } }

theorem released_core (s : State) (k : Nat) : (released s).core k = resumedCore s.hub.stallCores k (s.core k) := by
  refine sget_map_keys (resumedCore s.hub.stallCores) (fun e => ?_) ?_ s.cores
  · simp only [resumedCore, List.contains_iff_mem]
    split <;> rfl
  · simp [resumedCore]

theorem ungate_eq (s : State) : ungate s = serveDebug (retryHolds (((s.hub.carriesIn.map (fun c => (c.kern, c.inst))).eraseDups).foldl
    (fun s c => carriesTaken s c.1 c.2) (deliverHeld (released s)))) := by
  unfold ungate released
  rfl

theorem released_stalled (s : State) : (released s).hub.stalled = false := rfl

theorem ungate_stalled (s : State) : (ungate s).hub.stalled = false := by
  rw [ungate_eq, stalled_serveDebug, stalled_retryHolds, 
    stalled_foldl (α := Nat × Nat) (f := fun s c => carriesTaken s c.1 c.2) (fun _ _ => stalled_carriesTaken _ _ _), stalled_deliverHeld,
    released_stalled]

theorem deliverHeld_none {s : State} (h : s.hub.heldReplies = []) : deliverHeld s = s := by
  have hs : { s with hub := { s.hub with heldReplies := [] } } = s := by rw [← h]
  unfold deliverHeld
  rw [hs, h]
  rfl

theorem serveDebug_none {s : State} (h : s.hub.debugWaits = []) : serveDebug s = s := by
  have hs : { s with hub := { s.hub with debugWaits := [] } } = s := by rw [← h]
  unfold serveDebug
  rw [hs, h]
  rfl

theorem retryHold_none {s : State} {k : Nat} (h : (s.core k).hold = .none) : retryHold s k = s := by
  unfold retryHold
  simp [h]

/-- Nothing is retried where no core holds. -/
theorem retryHolds_none {s : State} (h : ∀ k, (s.core k).hold = .none) : retryHolds s = s := by
  unfold retryHolds
  rw [List.foldl_fixed' (fun p : Nat × CoreRec => retryHold_none (h p.1)) s.cores]
  exact ite_self s

/-- With nothing held up by the stall, the resume sets the cores going, and that is all (R12). -/
theorem ungate_quiet {s : State} (hh : ∀ p ∈ s.cores, p.2.hold = .none) (hr : s.hub.heldReplies = []) (hc : s.hub.carriesIn = [])
    (hd : s.hub.debugWaits = []) : ungate s = released s := by
  have hold : ∀ k, ((released s).core k).hold = .none := by
    intro k
    have hk : (s.core k).hold = .none := by
      obtain h0 | h1 := sget_mem ({} : CoreRec) s.cores k
      · exact congrArg CoreRec.hold h0
      · exact hh _ h1
    rw [released_core, resumedCore]
    split
    · exact hk
    · exact hk
  rw [ungate_eq, hc, deliverHeld_none (s := released s) hr]
  exact (congrArg serveDebug (retryHolds_none hold)).trans (serveDebug_none hd)

/-! A column change: the lines it moves leave the L2 of every die (R338). -/

theorem notedOnly_refl (s : State) : NotedOnly s s := ⟨rfl, fun _ => ⟨rfl, rfl⟩⟩

theorem notedOnly_trans {s t u : State} (h : NotedOnly s t) (h' : NotedOnly t u) : NotedOnly s u := by
  obtain ⟨hub1, grp1⟩ := h
  obtain ⟨hub2, grp2⟩ := h'
  refine ⟨?_, fun kern => ⟨?_, (grp2 kern).2.trans (grp1 kern).2⟩⟩
  · exact (congrArg (fun h : Hub => { h with pkts := s.hub.pkts, groups := s.hub.groups }) hub2).trans hub1
  · exact (congrArg (fun g : Group => { g with loop := (s.group kern).loop }) (grp2 kern).1).trans (grp1 kern).1

/-- A change outside the hub notes nothing. -/
theorem notedOnly_of_hub {s t : State} (h : t.hub = s.hub) : NotedOnly s t := by
  unfold NotedOnly State.group
  rw [h]
  exact ⟨rfl, fun _ => ⟨rfl, rfl⟩⟩

theorem notedOnly_noteWaits (s : State) (ln : Nat) : NotedOnly s (s.noteWaits ln) := by
  unfold State.noteWaits
  split
  · exact ⟨rfl, fun _ => ⟨rfl, rfl⟩⟩
  · exact notedOnly_refl s

theorem noteLoops_group (s : State) (ln kern : Nat) :
    (s.noteLoops ln).group kern = s.group kern ∨ (s.noteLoops ln).group kern = noteLoop ln (s.group kern) := by
  unfold State.noteLoops
  split
  · exact .inr (sget_map_keys (fun _ => noteLoop ln) (fun _ => rfl) rfl s.hub.groups)
  · exact .inl rfl

theorem notedOnly_noteLoops (s : State) (ln : Nat) : NotedOnly s (s.noteLoops ln) := by
  refine ⟨?_, fun kern => ?_⟩
  · unfold State.noteLoops
    split <;> rfl
  · obtain h | h := noteLoops_group s ln kern
    · rw [h]
      exact ⟨rfl, rfl⟩
    · rw [h]
      refine ⟨rfl, ?_⟩
      simp only [noteLoop, Option.map_map]
      congr 1
      funext l
      simp only [Function.comp]
      split <;> rfl

theorem noteWaits_frame (s : State) (ln : Nat) : { s.noteWaits ln with hub := s.hub } = s := by
  unfold State.noteWaits
  split <;> rfl

theorem noteLoops_frame (s : State) (ln : Nat) : { s.noteLoops ln with hub := s.hub } = s := by
  unfold State.noteLoops
  split <;> rfl

/-- What a write-back or an invalidation of lines leaves of the state: it stores bytes, notes its writes and changes lines. -/
structure L2Only (s t : State) : Prop where
  noted : NotedOnly s t
  rest : { t with hub := s.hub, mem := s.mem, l2 := s.l2 } = s

theorem l2Only_refl (s : State) : L2Only s s := ⟨notedOnly_refl s, rfl⟩

theorem l2Only_cores {s t : State} (h : L2Only s t) : t.cores = s.cores := by
  have hrest := congrArg State.cores h.rest
  exact hrest

theorem l2Only_ctxs {s t : State} (h : L2Only s t) : t.ctxs = s.ctxs := by
  have hrest := congrArg State.ctxs h.rest
  exact hrest

theorem l2Only_trans {s t u : State} (h : L2Only s t) (h' : L2Only t u) : L2Only s u :=
  ⟨notedOnly_trans h.noted h'.noted, (congrArg (fun r : State => { r with hub := s.hub, mem := s.mem, l2 := s.l2 }) h'.rest).trans h.rest⟩

theorem l2Only_foldl {α : Type} {f : State → α → State} (h : ∀ s a, L2Only s (f s a)) (l : List α) (s : State) : L2Only s (l.foldl f s) := by
  induction l generalizing s with
  | nil => exact l2Only_refl s
  | cons a l ih => exact l2Only_trans (h s a) (ih (f s a))

theorem l2Only_note {s t : State} (ln : Nat) (h : L2Only s t) : L2Only s ((t.noteWaits ln).noteLoops ln) := by
  have h1 : L2Only t (t.noteWaits ln) := ⟨notedOnly_noteWaits t ln, by
    exact congrArg (fun r : State => { r with mem := t.mem, l2 := t.l2 }) (noteWaits_frame t ln)⟩
  have h2 : L2Only (t.noteWaits ln) ((t.noteWaits ln).noteLoops ln) := ⟨notedOnly_noteLoops _ ln, by
    exact congrArg (fun r : State => { r with mem := (t.noteWaits ln).mem, l2 := (t.noteWaits ln).l2 }) (noteLoops_frame (t.noteWaits ln) ln)⟩
  exact l2Only_trans h (l2Only_trans h1 h2)

theorem l2Only_setL2 (s : State) (d ln : Nat) (l : Line) : L2Only s (s.setL2 d ln l) := ⟨notedOnly_of_hub rfl, rfl⟩

theorem l2Only_writeBack (s : State) (d ln : Nat) : L2Only s (s.writeBack d ln) := by
  unfold State.writeBack
  extract_lets l
  split
  · exact l2Only_note ln ⟨notedOnly_of_hub rfl, rfl⟩
  · exact l2Only_refl s

theorem l2Only_flushL2 (s : State) (d ln : Nat) : L2Only s (s.flushL2 d ln) := l2Only_trans (l2Only_writeBack s d ln) (l2Only_setL2 _ d ln {})

theorem l2Only_moveLines (s : State) (m d : Nat) : L2Only s (moveLines s m d) := l2Only_foldl (fun _ _ => l2Only_flushL2 _ _ _) _ s

theorem setL2_l2Line (s : State) (d ln e n : Nat) (l : Line) :
    (s.setL2 d ln l).l2Line e n = if e = d ∧ n = ln then l else s.l2Line e n := by
  simp only [State.setL2, State.l2Line, smod, sget_sset]
  by_cases he : e = d
  · subst he
    simp
  · simp [he]

theorem note_l2Line (s : State) (ln e n : Nat) : ((s.noteWaits ln).noteLoops ln).l2Line e n = s.l2Line e n := by
  have h1 := congrArg (fun r : State => r.l2Line e n) (noteWaits_frame s ln)
  have h2 := congrArg (fun r : State => r.l2Line e n) (noteLoops_frame (s.noteWaits ln) ln)
  exact h2.trans h1

theorem flushL2_l2Line (s : State) (d ln : Nat) : (s.flushL2 d ln).l2Line d ln = {} := by
  simp [State.flushL2, setL2_l2Line]

/-- A line that is not held stays so when another leaves. -/
theorem flushL2_keeps_empty {s : State} {e n : Nat} (d ln : Nat) (h : s.l2Line e n = {}) : (s.flushL2 d ln).l2Line e n = {} := by
  unfold State.flushL2
  rw [setL2_l2Line]
  split
  · rfl
  · rename_i hne
    unfold State.writeBack
    extract_lets l
    split
    · rw [note_l2Line, setL2_l2Line, if_neg hne]
      exact h
    · exact h

/-- Every line that a list names, or that was not held, is not held once the list has left. -/
theorem flushLines_empty {d e n : Nat} (ls : SMap Line) {s : State} (h : s.l2Line e n = {} ∨ e = d ∧ ∃ l, (n, l) ∈ ls) :
    (ls.foldl (fun s l => s.flushL2 d l.1) s).l2Line e n = {} := by
  induction ls generalizing s with
  | nil =>
    obtain h | ⟨_, l, hl⟩ := h
    · exact h
    · cases hl
  | cons a ls ih =>
    rw [List.foldl_cons]
    refine ih ?_
    obtain h | ⟨rfl, l, hl⟩ := h
    · exact .inl (flushL2_keeps_empty d a.1 h)
    · obtain rfl | hl := List.mem_cons.mp hl
      · exact .inl (flushL2_l2Line s e n)
      · exact .inr ⟨rfl, l, hl⟩

theorem moveLines_keeps_empty {s : State} {e n : Nat} (m d : Nat) (h : s.l2Line e n = {}) : (moveLines s m d).l2Line e n = {} :=
  flushLines_empty _ (.inl h)

/-- A line that the new mask moves has left its die (R338). -/
theorem moveLines_empties {s : State} {m d n : Nat} (hm : columnOf s.hub.colmask (64 * n) ≠ columnOf m (64 * n)) :
    (moveLines s m d).l2Line d n = {} := by
  refine flushLines_empty _ ((sget_mem ({} : Line) (sget [] s.l2 d) n).imp_right fun hl => ⟨rfl, s.l2Line d n, ?_⟩)
  exact List.mem_filter.mpr ⟨hl, decide_eq_true hm⟩

/-- The same for the four dies of a change. -/
theorem moveAll_empties {s : State} {m e n : Nat} (ds : List Nat) (he : s.l2Line e n = {} ∨ e ∈ ds)
    (hm : columnOf s.hub.colmask (64 * n) ≠ columnOf m (64 * n)) : (ds.foldl (fun s d => moveLines s m d) s).l2Line e n = {} := by
  induction ds generalizing s with
  | nil =>
    obtain he | he := he
    · exact he
    · cases he
  | cons d ds ih =>
    have hhub := congrArg Hub.colmask (l2Only_moveLines s m d).noted.1
    have hcol : (moveLines s m d).hub.colmask = s.hub.colmask := hhub
    rw [List.foldl_cons]
    refine ih ?_ (by rwa [hcol])
    obtain he | he := he
    · exact .inl (moveLines_keeps_empty m d he)
    · obtain rfl | he := List.mem_cons.mp he
      · exact .inl (moveLines_empties hm)
      · exact .inr he

/-- The lines that the new mask moves are gone on every die. -/
def movedOut (s : State) (m : Nat) : State := (upTo 4).foldl (fun s d => moveLines s m d) s

/-- COLMASK takes its value, and the request is done. -/
def recolour (s : State) (m : Nat) (rest : List StallReq) : State := { s with hub := { s.hub with colmask := m, stalls := rest } }

theorem notedOnly_recolour {s t : State} (m : Nat) (rest : List StallReq) (h : NotedOnly s t) :
    NotedOnly (recolour s m rest) (recolour t m rest) := by
  obtain ⟨hhub, hgrp⟩ := h
  exact ⟨congrArg (fun h : Hub => { h with colmask := m, stalls := rest }) hhub, hgrp⟩

theorem recolour_l2Line (s : State) (m : Nat) (rest : List StallReq) (d n : Nat) : (recolour s m rest).l2Line d n = s.l2Line d n := rfl

theorem recolour_cores (s : State) (m : Nat) (rest : List StallReq) : (recolour s m rest).cores = s.cores := rfl

theorem recolour_ctxs (s : State) (m : Nat) (rest : List StallReq) : (recolour s m rest).ctxs = s.ctxs := rfl

theorem movedOut_l2Only (s : State) (m : Nat) : L2Only s (movedOut s m) := l2Only_foldl (fun _ _ => l2Only_moveLines _ _ _) (upTo 4) s

theorem movedOut_l2Line {s : State} {m d n : Nat} (hd : d < 4) (hm : columnOf s.hub.colmask (64 * n) ≠ columnOf m (64 * n)) :
    (movedOut s m).l2Line d n = {} := moveAll_empties (upTo 4) (.inr (List.mem_range.mpr hd)) hm

theorem columnChange_gates {s : State} {m : Nat} {rest : List StallReq} (hs : s.hub.stalls = .cols m :: rest) (hid : s.hub.idle = false)
    (hst : s.hub.stalled = false) : exec .columnChange s = .next (gate s) := by
  change execColumnChange s = _
  simp [execColumnChange, hs, hid, hst]

theorem columnChange_resumes {s : State} {m : Nat} {rest : List StallReq} (hs : s.hub.stalls = .cols m :: rest) (hid : s.hub.idle = false)
    (hst : s.hub.stalled = true) : exec .columnChange s = .next (ungate (recolour (movedOut s m) m rest)) := by
  change execColumnChange s = _
  simp [execColumnChange, hs, hid, hst, recolour, movedOut]

end Sys2Proof.Proofs
end

section
/-! The platform, part 2: columns, idle, firmware, attestation and the registers of the window (O39). -/
namespace Sys2Proof.Proofs
open Laws
open Machine hiding Wf

theorem writeColtgt_zero {s : State} {v : Nat} (h : v % 256 = 0) : writeColtgt s v = s := if_pos h

/-- Whether a write of COLTGT asks for a change: in hardware mode against the mask asked for last, else against COLTGT itself (R433). -/
theorem writeColtgt_ask {s : State} {v : Nat} (h0 : v % 256 ≠ 0) (hhw : s.rehash = false → v % 256 ≠ lastMask s)
    (hsw : s.rehash = true → v % 256 ≠ s.hub.coltgt) :
    writeColtgt s v = { s with hub := { s.hub with coltgt := v % 256, stalls := s.hub.stalls ++ [.cols (v % 256)] } } := by
  unfold writeColtgt
  cases hr : s.rehash with
  | false => simp [h0, hhw hr, askStall]
  | true => simp [h0, hsw hr, askStall]

theorem writeColtgt_keep {s : State} {v : Nat} (h0 : v % 256 ≠ 0) (hhw : s.rehash = false → v % 256 = lastMask s)
    (hsw : s.rehash = true → v % 256 = s.hub.coltgt) : writeColtgt s v = { s with hub := { s.hub with coltgt := v % 256 } } := by
  unfold writeColtgt
  cases hr : s.rehash with
  | false => simp [h0, ← hhw hr]
  | true => simp [h0, ← hsw hr]

theorem columnDarkenIdle_ask {s : State} {v : Nat} (hr : s.rehash = false)
    (h0 : Nat.xor (lastMask s) (Nat.land (lastMask s) (v % 256)) ≠ 0)
    (hl : Nat.xor (lastMask s) (Nat.land (lastMask s) (v % 256)) ≠ lastMask s) :
    exec (.columnDarkenIdle v) s = .next (askStall s (.cols (Nat.xor (lastMask s) (Nat.land (lastMask s) (v % 256))))) := by
  change execColumnDarkenIdle v s = _
  exact if_neg (not_or.mpr ⟨by simp [hr], not_or.mpr ⟨h0, hl⟩⟩)

theorem columnRelight_ask {s : State} {v : Nat} (hr : s.rehash = false) (hm : bitOf (lastMask s) (hashCol v) = false)
    (ht : bitOf s.hub.coltgt (hashCol v) = true) :
    exec (.columnRelight v) s = .next (askStall s (.cols (lastMask s + 2 ^ hashCol v))) := by
  change execColumnRelight v s = _
  simp [execColumnRelight, hr, hm, ht]

theorem columns_hardware {s : State} (v : Nat) (hr : s.rehash = true) :
    exec (.columnDarkenIdle v) s = .next s ∧ exec (.columnRelight v) s = .next s := by
  change execColumnDarkenIdle v s = _ ∧ execColumnRelight v s = _
  simp [execColumnDarkenIdle, execColumnRelight, hr]

theorem enterIdle_idles {s : State} (hq : s.hub.idleReq = true) (hi : s.hub.idle = false) (hst : s.hub.stalled = false)
    (hc : ∀ x ∈ s.ctxs, x.2.st ≠ .running) : exec .enterIdle s = .next { s with hub := { s.hub with idle := true, wake := false } } := by
  have hany : s.ctxs.any (fun x => decide (x.2.st = .running)) = false := by simpa using fun a b hab => hc (a, b) hab
  change execEnterIdle s = _
  simp [execEnterIdle, hq, hi, hst, hany]

theorem enterSelfRefresh_enters {s : State} (hi : s.hub.idle = true) (hr : s.hub.srReq = true) :
    exec .enterSelfRefresh s = .next { s with hub := { s.hub with selfRefresh := true } } := by
  change execEnterSelfRefresh s = _
  simp [execEnterSelfRefresh, hi, hr]

theorem wakeToActive_wakes {s : State} (hi : s.hub.idle = true) (hw : s.hub.wake = true ∨ s.hub.idleReq = false) :
    exec .wakeToActive s = .next { s with hub := { s.hub with idle := false, selfRefresh := false, wake := false } } := by
  change execWakeToActive s = _
  simp [execWakeToActive, hi, hw]

/-! Firmware (R437, R438). -/

/-- The signature test of R437, the digest test and the layout test of R438. -/
def fwSignedBy (m : List Byte) : Prop :=
  field m 9 1 < 8 ∧ Config.signatureOk (field m 9 1) ((m.drop 128).take 64) (leBytes 64 (Config.sha512 (m.take 128))) = true
def fwDigests (i : FwImage) : Prop := field i.manifest 64 64 = Config.sha512 i.body % 2 ^ 512
def fwLayoutsKept (s : State) (i : FwImage) : Prop := ∀ x ∈ s.ctxs, ∀ v, x.2.saved = some v → bitOf i.layouts v.layout = true

theorem layoutBusy_iff {s : State} {i : FwImage} : layoutBusy s i.layouts = false ↔ fwLayoutsKept s i := by
  unfold layoutBusy fwLayoutsKept
  rw [List.any_eq_false]
  refine forall_congr' fun x => forall_congr' fun _ => ?_
  cases x.2.saved with
  | none => simp
  | some v => simp

theorem layoutBusy_of_not {s : State} {i : FwImage} (h : ¬ fwLayoutsKept s i) : layoutBusy s i.layouts = true := by
  rw [← layoutBusy_iff] at h
  simpa using h

theorem fwTest_unsigned {s : State} {i : FwImage} (h : ¬ fwSignedBy i.manifest) : fwTest s i = 1 := by
  unfold fwTest
  extract_lets key sig
  refine if_pos ?_
  by_cases hk : key < 8
  · right
    have hs : ¬ Config.signatureOk key sig (leBytes 64 (Config.sha512 (i.manifest.take 128))) = true := fun hs => h ⟨hk, hs⟩
    simpa using hs
  · exact .inl (by omega)

/-- The tests of a signed image, in the order of R438. -/
theorem fwTest_signed {s : State} {i : FwImage} (h : fwSignedBy i.manifest) :
    fwTest s i = if field i.manifest 64 64 ≠ Config.sha512 i.body % 2 ^ 512 then 2 else if i.version < Config.rollbackFloor then 3
      else if layoutBusy s i.layouts then 4 else 0 := by
  obtain ⟨hk, hs⟩ := h
  unfold fwTest
  extract_lets key sig
  refine if_neg ?_
  have hk' : ¬ 8 ≤ key := Nat.not_le.mpr hk
  have hs' : Config.signatureOk key sig (leBytes 64 (Config.sha512 (i.manifest.take 128))) = true := hs
  simp [hk', hs']

section
variable {s : State} {i : FwImage} (hs : fwSignedBy i.manifest)
include hs

theorem fwTest_undigested (hd : ¬ fwDigests i) : fwTest s i = 2 := (fwTest_signed hs).trans (if_pos hd)

variable (hd : fwDigests i)
include hd

theorem fwTest_digested : fwTest s i = if i.version < Config.rollbackFloor then 3 else if layoutBusy s i.layouts then 4 else 0 :=
  (fwTest_signed hs).trans (if_neg (not_not.mpr hd))

theorem fwTest_old (hv : i.version < Config.rollbackFloor) : fwTest s i = 3 := by
  rw [fwTest_digested hs hd, if_pos hv]

variable (hv : Config.rollbackFloor ≤ i.version)
include hv

theorem fwTest_busy (hk : ¬ fwLayoutsKept s i) : fwTest s i = 4 := by
  rw [fwTest_digested hs hd, if_neg (Nat.not_lt.mpr hv), layoutBusy_of_not hk]
  rfl

theorem fwTest_good (hk : fwLayoutsKept s i) : fwTest s i = 0 := by
  rw [fwTest_digested hs hd, if_neg (Nat.not_lt.mpr hv), layoutBusy_iff.mpr hk]
  rfl
end

/-- FW_VERIFY_DONE discards an image that fails a test, with that test's error. -/
theorem fwVerifyDone_fails {s : State} {i : FwImage} (hi : s.hub.pendImage = some i) (hp : s.hub.fwPhase = 1) {e : Nat} (he : e ≠ 0)
    (ht : fwTest s i = e) : exec .fwVerifyDone s = .next { s with hub := { s.hub with fwPhase := 0, fwErr := e, pendImage := none } } := by
  change execFwVerifyDone s = _
  simp [execFwVerifyDone, hi, hp, ht, he, fwDiscard]

theorem fwVerifyDone_passes {s : State} {i : FwImage} (hi : s.hub.pendImage = some i) (hp : s.hub.fwPhase = 1) (ht : fwTest s i = 0) :
    exec .fwVerifyDone s = .next { s with hub := { s.hub with fwPhase := if bitOf (s.ctx 0).split.toNat 5 then 2 else 3 } } := by
  change execFwVerifyDone s = _
  simp [execFwVerifyDone, hi, hp, ht]
  rfl

theorem fwCommitPoint_commits {s : State} {i : FwImage} (hi : s.hub.pendImage = some i) (hp : s.hub.fwPhase = 3) (hn : s.hub.interp = none)
    (hk : layoutBusy s i.layouts = false) : exec .fwCommitPoint s = .next { s with hub := { s.hub with
      fwPhase := 0, fwErr := 0, pendImage := none, runver := i.version, runlay := i.layouts, runImage := i.manifest ++ i.body } } := by
  change execFwCommitPoint s = _
  simp [execFwCommitPoint, hi, hp, hn, hk]

theorem fwCommitPoint_busy {s : State} {i : FwImage} (hi : s.hub.pendImage = some i) (hp : s.hub.fwPhase = 3) (hn : s.hub.interp = none)
    (hk : layoutBusy s i.layouts = true) :
    exec .fwCommitPoint s = .next { s with hub := { s.hub with fwPhase := 0, fwErr := 4, pendImage := none } } := by
  change execFwCommitPoint s = _
  simp [execFwCommitPoint, hi, hp, hn, hk, fwDiscard]

theorem fwCommitPoint_waits {s : State} {i : FwImage} (hi : s.hub.pendImage = some i) (hn : s.hub.interp.isSome = true) :
    exec .fwCommitPoint s = .next s := by
  change execFwCommitPoint s = _
  simp [execFwCommitPoint, hi, hn]

theorem fwLoad_refused {s : State} (h : s.hub.fqbase = 0 ∨ s.hub.fwPhase ≠ 0) :
    exec .fwLoad s = .next { s with hub := { s.hub with fwErr := 5 } } := if_pos h

/-- The image that FW_LOAD finds behind the fault ring (R426). -/
def hostImage (s : State) : FwImage :=
  let m := s.hostBytes (s.hub.fqbase + 4096) 256
  let size := leNat ((m.drop 16).take 8)
  { version := leNat ((m.drop 4).take 2), layouts := leNat ((m.drop 6).take 2), base := s.hub.fqbase + 4096, size := size,
    manifest := m, body := s.hostBytes (s.hub.fqbase + 4096 + 256) size }

theorem hostImage_fields (s : State) : let i := hostImage s
    i.manifest = s.hostBytes (s.hub.fqbase + 4096) 256 ∧ i.version = field i.manifest 4 2 ∧ i.layouts = field i.manifest 6 2
    ∧ i.size = field i.manifest 16 8 ∧ i.body = s.hostBytes (s.hub.fqbase + 4352) i.size := by
  simp only [hostImage, field, Nat.add_assoc, and_self]

theorem fwLoad_loads {s : State} (hb : s.hub.fqbase ≠ 0) (hp : s.hub.fwPhase = 0) :
    exec .fwLoad s = .next { s with hub := { s.hub with fwPhase := 1, fwErr := 0, pendImage := some (hostImage s) } } :=
  if_neg (by simp [hb, hp])

end Sys2Proof.Proofs
end

section
/-! The platform, part 3: attestation and the registers of the window (O39). -/
namespace Sys2Proof.Proofs
open Laws
open Machine hiding Wf

/-- The nonce as the write that ends it leaves it (R439). -/
def nonceWith (s : State) (v : Nat) : State := { s with hub := { s.hub with nonce := putCells s.hub.nonce (cellsAt 24 (leBytes 8 v)) } }

/-- The report over its fields, signed (R439). -/
def signedReport (f : List Byte) : List Byte := Config.attestationReport (f ++ leBytes 64 (Config.sign (leBytes 64 (Config.sha512 f))))

theorem reportFields_nonce (s : State) : (reportFields s).take 32 = (List.range 32).map (fun j => sget 0 s.hub.nonce j) := by
  unfold reportFields
  simp only [List.append_assoc]
  exact List.take_left' (by simp [upTo])

theorem attestationRequest_silent {s : State} {v : Nat} (h : s.hub.fqbase = 0 ∨ s.hostPath = false) :
    exec (.attestationRequest v) s = .next (nonceWith s v) := if_pos (h.imp_right fun hp => by simp [hp])

theorem attestationRequest_reports {s : State} {v : Nat} (hb : s.hub.fqbase ≠ 0) (hp : s.hostPath = true) :
    exec (.attestationRequest v) s = .next { nonceWith s v with hub := { (nonceWith s v).hub with
      hostMem := putCells s.hub.hostMem (cellsAt (s.hub.fqbase + 8192) (signedReport (reportFields (nonceWith s v)))) } } :=
  if_neg (by simp [hb, hp])

/-- The offsets whose writes are events of their own (R426 to R439). -/
def eventOffsets : List Nat := [0x10, 0x20, 0x30, 0x38, 0xD8, 0x300, 0x308, 0x320, 0x330]

/-- Where the host has a path, or at BRIDGE, a write of another register's start sets that register. -/
theorem mgmtWrite_reg {s : State} {off v : Nat} (hv : v < 2 ^ 64) (hp : s.hostPath = true ∨ off = 0x118) (h8 : off % 8 = 0)
    (he : off ∉ eventOffsets) : exec (.mgmtRegisterWrite off v) s = .next (writeReg s off v) := by
  change execMgmtRegisterWrite off v s = _
  have hgo : ¬ (off % 8 ≠ 0 ∨ ((!s.hostPath) = true ∧ off ≠ 0x118)) := by
    obtain hp | rfl := hp
    · simp [h8, hp]
    · simp
  unfold execMgmtRegisterWrite
  extract_lets w all
  rw [if_neg hgo]
  have hw : w = v := Nat.mod_eq_of_lt hv
  rw [hw]
  split
  case _ | _ | _ | _ | _ | _ | _ | _ | _ => exact absurd (by decide) he
  case _ => rfl

/-- A write at another place of the window, or without a path from the host, is discarded. -/
theorem mgmtWrite_discard {s : State} {off v : Nat} (h : off % 8 ≠ 0 ∨ s.hostPath = false ∧ off ≠ 0x118) :
    exec (.mgmtRegisterWrite off v) s = .next s := if_pos (h.imp_right fun hp => by simp [hp])

section
variable {s : State} {v : Nat} (hw : v % 2 ^ 64 = v) (hp : s.hostPath = true)
include hw hp


theorem mgmtWrite_doorbell : exec (.mgmtRegisterWrite 0x10 v) s = if v < 4096 then exec (.doorbell v) s else .next s := by
  change execMgmtRegisterWrite 0x10 v s = _
  simp only [execMgmtRegisterWrite, hw]
  simp [hp]
  rfl

theorem mgmtWrite_pwrctl : exec (.mgmtRegisterWrite 0x20 v) s = .next (writePwrctl s v) := by
  change execMgmtRegisterWrite 0x20 v s = _
  simp only [execMgmtRegisterWrite, hw]
  simp [hp]

theorem mgmtWrite_dreq : exec (.mgmtRegisterWrite 0x30 v) s = exec (.dbgctlDreq (v / 256 % 4)) s := by
  change execMgmtRegisterWrite 0x30 v s = execDbgctlDreq (v / 256 % 4) s
  simp only [execMgmtRegisterWrite, hw]
  simp [hp, bitsOf]

theorem mgmtWrite_nonce : exec (.mgmtRegisterWrite 0xD8 v) s = exec (.attestationRequest v) s := by
  change execMgmtRegisterWrite 0xD8 v s = execAttestationRequest v s
  simp only [execMgmtRegisterWrite, hw]
  simp [hp]

theorem mgmtWrite_dctx : exec (.mgmtRegisterWrite 0x300 v) s = exec (.dctxWrite v) s := by
  change execMgmtRegisterWrite 0x300 v s = execDctxWrite v s
  simp only [execMgmtRegisterWrite, hw]
  simp [hp]

theorem mgmtWrite_ddata : exec (.mgmtRegisterWrite 0x330 v) s = exec (.ddataWrite v) s := by
  change execMgmtRegisterWrite 0x330 v s = execDdataWrite v s
  simp only [execMgmtRegisterWrite, hw]
  simp [hp]

/-- FWCTL's command field (R438). -/
theorem mgmtWrite_fwctl : exec (.mgmtRegisterWrite 0x38 v) s = match v % 4 with
    | 1 => exec .fwLoad s
    | 2 => exec .fwCommit s
    | 3 => exec .fwAbort s
    | _ => .next s := by
  change execMgmtRegisterWrite 0x38 v s = _
  simp only [execMgmtRegisterWrite, hw]
  simp [hp]
  rfl

/-- DCTL's command field (R435). -/
theorem mgmtWrite_dctl : exec (.mgmtRegisterWrite 0x308 v) s = match v % 16 with
    | 1 => exec .debugHalt s
    | 2 => exec .debugContinue s
    | 3 => exec (.debugStep (v / 65536 % 64) (v / 2 ^ 23 % 2)) s
    | 4 => exec (.debugWithdraw (v / 65536 % 64) (v / 2 ^ 23 % 2)) s
    | _ => .next s := by
  have hall : (if bitOf v 23 then 1 else 0) = v / 2 ^ 23 % 2 := by
    unfold bitOf
    split <;> simp_all
  change execMgmtRegisterWrite 0x308 v s = _
  simp only [execMgmtRegisterWrite, hw, hall]
  simp [hp, bitsOf]
  rfl
end

theorem writeReg_port {s : State} {p v : Nat} (hp : p < 16) : writeReg s (0x180 + 8 * p) v = writePort s p v := by
  have hq : (0x180 + 8 * p - 0x180) / 8 = p := by omega
  unfold writeReg
  extract_lets h put
  split
  case h_15 =>
    rw [if_neg (by omega), if_neg (by omega), if_pos (by omega), hq]
  all_goals omega

theorem writeReg_selfid (s : State) (v : Nat) : writeReg s 0x100 v = { s with hub := { s.hub with selfid := v % 8192 } } := by
  simp [writeReg, bitsOf]

theorem writeReg_rtidx (s : State) (v : Nat) : writeReg s 0x120 v = { s with hub := { s.hub with rtidx := v % 8192 } } := by
  simp [writeReg, bitsOf]

theorem writeReg_cridx (s : State) (v : Nat) : writeReg s 0x150 v = { s with hub := { s.hub with cridx := v % 16 } } := by
  simp [writeReg, bitsOf]

/-- BRIDGE keeps its enable and its device (R424). -/
theorem writeReg_bridge (s : State) (v : Nat) :
    writeReg s 0x118 v = { s with hub := { s.hub with bridge := v % 2 + v / 65536 % 8192 * 65536 } } := by
  simp [writeReg, keepFields, bitsOf]

/-- The registers that the host reads only, or that hold nothing. -/
theorem mgmtWrite_readOnly {s : State} {off v : Nat} (hv : v < 2 ^ 64) (hp : s.hostPath = true)
    (ho : off ∈ [0x00, 0x08, 0x28, 0x48, 0x130, 0x138, 0x310]) : exec (.mgmtRegisterWrite off v) s = .next s := by
  have hreg : ∀ o ∈ [0x00, 0x08, 0x28, 0x48, 0x130, 0x138, 0x310], o % 8 = 0 ∧ o ∉ eventOffsets := by decide
  have hkeep : writeReg s off v = s := by
    simp only [List.mem_cons, List.not_mem_nil, or_false] at ho
    obtain rfl | rfl | rfl | rfl | rfl | rfl | rfl := ho <;> rfl
  rw [mgmtWrite_reg hv (.inl hp) (hreg off ho).1 (hreg off ho).2, hkeep]

/-- What a write of PORTp leaves in the port (R427). -/
theorem writePort_port (s : State) (p v : Nat) : let q := sget {} (writePort s p v).hub.ports p
    let o := sget {} s.hub.ports p
    q.en = bitOf v 63 ∧ q.peerPort = v / 2 ^ 32 % 16 ∧ q.peerDev = v / 65536 % 8192
    ∧ (bitOf v 63 = false → q.up = false) ∧ (bitOf v 63 = true → o.en = false → q.up = false ∧ q.down = false ∧ q.fails = 0)
    ∧ (bitOf v 63 = true → o.en = true → q.up = (o.up && decide (q.peerPort = o.peerPort) && decide (q.peerDev = o.peerDev))
      ∧ q.down = o.down ∧ q.fails = o.fails) := by
  intro q o
  have hq : q = sget {} (writePort s p v).hub.ports p := rfl
  simp only [writePort, sget_sset, if_true] at hq
  cases hen : bitOf v 63 with
  | false => simp [hq, hen, bitsOf]
  | true =>
    cases hon : o.en with
    | false => simp [hq, hen, show (sget {} s.hub.ports p).en = false from hon, bitsOf]
    | true =>
      simp [hq, hen, show (sget {} s.hub.ports p).en = true from hon, bitsOf, o]
      rfl

/-- A write of PWRCTL that names the step in force and leaves COLTGT (R431). -/
theorem writePwrctl_kept {s : State} {v : Nat} (hc : v / 65536 % 256 = 0) (h4 : v % 8 ≤ 4) (hf : v % 8 = s.hub.freqnow)
    (hs : s.hub.stalls = []) :
    writePwrctl s v = { s with hub := { s.hub with freq := v % 8, gov := false, idleReq := bitOf v 6, srReq := bitOf v 7 } } := by
  unfold writePwrctl
  extract_lets h s1
  have hlast : v % 8 = lastFreq s1 := by
    unfold lastFreq
    rw [show s1.hub.stalls = [] from hs]
    exact hf
  rw [writeFreq_same (s := s1) h4 hf hlast, writeColtgt_zero (by simp [bitsOf, hc])]

/-- Settles O39, clause by clause from the rules of each event and register. -/
theorem platform : Obligations.Platform := by
  unfold Obligations.Platform
  refine ⟨fun s => ⟨_, rfl, rfl, rfl, rfl, rfl, rfl⟩, fun s => ⟨rfl, rfl⟩, fun s v => ?freq, fun s f rest hs => ?stall,
    fun s m rest hs hid => ?cols, fun s => ?gate, fun s => ?resume, fun s v => ?mask, fun s => ?idle, fun s => ?load,
    fun s i hi => ?image, fun s v => ?report, fun s off v hv hp => ?window,
    fun s off v hv => ?bridge⟩
  case freq =>
    intro last
    refine ⟨fun h => congrArg _ (writeFreq_discard h), fun h hn hl => congrArg _ (writeFreq_same h hn hl),
      fun h hn => congrArg _ (writeFreq_ask h hn),
      fun h => if_pos h, fun h => if_neg (Nat.not_lt.mpr h), fun hg hf => if_pos ⟨hg, hf⟩⟩
  case stall => exact ⟨fun hst hid => frequencyStall_gates hs hst hid, fun hst => pllRelock_resumes hs hst⟩
  case cols =>
    refine ⟨fun hst => columnChange_gates hs hid hst, fun hst => ?_⟩
    have hl2 := movedOut_l2Only s m
    refine ⟨_, columnChange_resumes hs hid hst, notedOnly_recolour m rest hl2.noted, ?_, ?_, fun d ln hd hm => ?_⟩
    · exact (recolour_cores _ _ _).trans (l2Only_cores hl2)
    · exact (recolour_ctxs _ _ _).trans (l2Only_ctxs hl2)
    · exact (recolour_l2Line _ _ _ _ _).trans (movedOut_l2Line hd hm)
  case gate => exact ⟨rfl, rfl, rfl, gate_core s, gate_stallCores s⟩
  case resume =>
    refine ⟨ungate_stalled s, fun hh hr hc hd => ?_⟩
    rw [ungate_quiet hh hr hc hd]
    exact ⟨rfl, rfl, rfl, released_core s⟩
  case mask =>
    intro last m hw
    have hsw : s.rehash = true → ¬ hw := fun h => Bool.not_eq_false _ ▸ h
    refine ⟨fun h0 => congrArg _ (writeColtgt_zero h0), fun h0 hl hc => congrArg _ (writeColtgt_ask h0 hl fun h => hc (hsw h)),
      fun h0 hl hc => congrArg _ (writeColtgt_keep h0 hl fun h => hc (hsw h)), fun h h0 hl => columnDarkenIdle_ask h h0 hl,
      fun h hm ht => columnRelight_ask h hm ht, fun h => columns_hardware v (Bool.not_eq_false _ ▸ h)⟩
  case idle => exact ⟨enterIdle_idles, enterSelfRefresh_enters, wakeToActive_wakes⟩
  case load =>
    refine ⟨fwLoad_refused, fun hb hp => ⟨_, hostImage s, fwLoad_loads hb hp, rfl, hostImage_fields s⟩,
      fun h => if_pos h, fun h => if_neg h, fun h => if_pos h, fun h => if_neg h⟩
  case image =>
    intro m signed whole kept
    refine ⟨fun hp => ⟨fun hs => ?_, fun hs hw => ?_, fun hs hw hv => ?_, fun hs hw hv hk => ?_, fun hs hw hv hk => ?_⟩,
      fun hp hn => ⟨fun hk => fwCommitPoint_commits hi hp hn (layoutBusy_iff.mpr hk),
        fun hk => fwCommitPoint_busy hi hp hn (layoutBusy_of_not hk)⟩,
      fwCommitPoint_waits hi⟩
    · exact fwVerifyDone_fails hi hp (by decide) (fwTest_unsigned hs)
    · exact fwVerifyDone_fails hi hp (by decide) (fwTest_undigested hs hw)
    · exact fwVerifyDone_fails hi hp (by decide) (fwTest_old hs hw hv)
    · exact fwVerifyDone_fails hi hp (by decide) (fwTest_busy hs hw hv hk)
    · exact fwVerifyDone_passes hi hp (fwTest_good hs hw hv hk)
  case report =>
    intro nonce
    refine ⟨attestationRequest_silent, fun hb hp => ⟨_, _, attestationRequest_reports hb hp, rfl, reportFields_nonce _, rfl⟩⟩
  case window =>
    intro w
    have hw : v % 2 ^ 64 = v := Nat.mod_eq_of_lt hv
    refine ⟨fun h => mgmtWrite_discard (.inl h), mgmtWrite_readOnly hv hp, ?_, ?_, ?_, ?_, ?_, ?_, ?_, ?_, ?_, ?_, ?_, ?_, ?_, ?_, ?_⟩
    · rintro rfl
      exact ⟨fun h => (mgmtWrite_doorbell hw hp).trans (if_pos h), fun h => (mgmtWrite_doorbell hw hp).trans (if_neg (Nat.not_lt.mpr h))⟩
    · rintro rfl
      exact mgmtWrite_dreq hw hp
    · rintro rfl
      exact mgmtWrite_nonce hw hp
    · rintro rfl
      exact mgmtWrite_dctx hw hp
    · rintro rfl
      exact mgmtWrite_ddata hw hp
    · rintro rfl
      have hctl := mgmtWrite_fwctl hw hp
      refine ⟨fun h => ?_, fun h => ?_, fun h => ?_, fun h => ?_⟩
      all_goals rw [h] at hctl; exact hctl
    · rintro rfl
      have hctl := mgmtWrite_dctl hw hp
      refine ⟨fun h => ?_, fun h => ?_, fun h => ?_, fun h => ?_⟩
      all_goals rw [h] at hctl; exact hctl
    · rintro rfl
      have hreg := mgmtWrite_reg (off := 0x18) hv (.inl hp) rfl (by decide)
      exact ⟨fun h1 h2 => hreg.trans (congrArg _ (if_pos ⟨h1, h2⟩)), fun h => hreg.trans (congrArg _ (if_neg (by omega)))⟩
    · rintro rfl
      exact mgmtWrite_reg (off := 0x40) hv (.inl hp) rfl (by decide)
    · rintro rfl
      exact (mgmtWrite_reg hv (.inl hp) rfl (by decide)).trans (congrArg _ (writeReg_selfid s v))
    · rintro rfl
      have hreg := mgmtWrite_reg (off := 0x110) hv (.inl hp) rfl (by decide)
      exact ⟨fun h1 h2 => hreg.trans (congrArg _ (if_pos ⟨h1, h2⟩)), fun h => hreg.trans (congrArg _ (if_neg (by omega)))⟩
    · rintro rfl hc h4 hf hs
      exact (mgmtWrite_pwrctl hw hp).trans (congrArg _ (writePwrctl_kept hc h4 hf hs))
    · rintro rfl
      exact (mgmtWrite_reg hv (.inl hp) rfl (by decide)).trans (congrArg _ (writeReg_cridx s v))
    · rintro rfl
      exact (mgmtWrite_reg hv (.inl hp) rfl (by decide)).trans (congrArg _ (writeReg_rtidx s v))
    · rintro p hp16 rfl
      have he : 0x180 + 8 * p ∉ eventOffsets := by
        simp only [eventOffsets, List.mem_cons, List.not_mem_nil, or_false]
        omega
      have hreg := mgmtWrite_reg hv (.inl hp) (by omega) he
      exact ⟨writePort s p v, hreg.trans (congrArg _ (writeReg_port hp16)), writePort_port s p v, rfl, rfl⟩
  case bridge =>
    refine ⟨fun hp ho => mgmtWrite_discard (.inr ⟨hp, ho⟩), ?_⟩
    exact (mgmtWrite_reg hv (.inr rfl) rfl (by decide)).trans (congrArg _ (writeReg_bridge s v))

end Sys2Proof.Proofs
end

section
/-! Decoding and encoding (O42): what an encoding is to the decoder, for every instruction at once, and the decoder's own inversions. -/
namespace Sys2Proof.Laws.RoundTrip

/-- The word of every instruction fits its slot and has the instruction as its candidate. -/
theorem every : ∀ i : Instr, Statement i := @Instr.rec Statement
    btgt call loop loopS0 loopS1 scmp scmpi plog pmov pseti csrr csrw csrs trap rstkr rstkw brk waitm barv barw bart fork join steal trdy
      add sub mul mulh and_ or_ xor_ shl shr sra min_ max_ addi lui sel dsel ld st acq rel fence wcfg shw ksel xbc mscl samcfgPar samcfgVoc
      samcfgMask samcfgSeed sample maskg maskgSh pdaadv pdaadvLd pdaadvSh tokw fadd fsub fmul fmin fmax fma fms fnma funa iadd isub imul
      iand ior ixor ishl ishr isra imin imax fcmp icmp klog vsel cvt vmov vimm vlane vld vst park unpark sfseed sfstep sftld rowsum rowmax
      rowstat smxup smxfix vperm vshuf vpfx vred topkp vscl push shift acc drain mclr acrd acwr zop sloc sup sdn scry sapl zld zrd zclr
      zmov step stepSpec sdot copy gath scat scacc amo pref rgwb rginv xwt btx bsel zspl zsplCopy zfil rld rst coll smpq flkq wpset wpclr
      mskq tree seq resultLanding interlockedArrival haltDrainDone endDrainDone planeSwap planeLoadDone trapEntry waitmWake waitmTimeout
      barrierCount barrierFlip barrierCompletionSeen suspensionDrainDone pickUp regroup groupRetire iterationBoundary loopWake
      scanRendezvous scryCarryArrival nodeComplete samplingJob remoteRequestServe remoteReply remoteTimeout collMessage carryFlit podArrive
      podComplete flitReplay portUp doorbell gangMap priorityAging quantumExpiry groupRelease graphNodeComplete unmapDrainDone
      waitSatisfied waitTimeout packetComplete preemptStop saveComplete contextRestore restoreResume snapshotReplay checkpoint
      checkpointDone muleTransferComplete pageWalk leaseExpiry hwFaultService debugStep debugWithdraw ddataWrite dctxWrite dbgctlDreq
      attestationRequest pwrctlFreq pwrctlColtgt columnDarkenIdle columnRelight mgmtRegisterWrite acqRelFenceComplete qAdd qSub qAnd qOr
      qXor qShl qShr qMinu qAddi qAndi qOri qShli qShri qLi qLdw qStw qBeq qBne qBltu qBgeu qJmp qLoop qPtim qSkip qFail halt kend ret eret
      susp yield_ commit plsw axch deviceReset linkQueueGrant packetDispatch launch loopl packetCopy graphr graphp bind unmap signal wait
      ctxcCreate ctxcDestroy ctxcSet ctxcResume ctxcCkpt ctxcQcreate ctxcQdestroy ctxcQprog ctxcQreset ctxcGmap ctxcGunmap ctxcHdrop
      ctxcFpool forkCopyDone sequenceTrapPost debugHalt debugContinue ddataRead fwLoad fwVerifyDone fwCommit fwAbort fwCommitPoint
      frequencyStall pllRelock governorStepDown governorStepUp thermalFence columnChange enterIdle enterSelfRefresh wakeToActive
      failedUnitFence qDone
end Sys2Proof.Laws.RoundTrip

namespace Sys2Proof.Proofs
open Laws

theorem encode_wf {i : Instr} {p : Nat × Nat} (h : encode i = some p) : i.wf = true := by
  unfold encode at h
  split at h
  · assumption
  · cases h

theorem encode_of_wf {i : Instr} (h : i.wf = true) : encode i = encodeOps i := if_pos h

/-- Slot 7 alone reads the words of TREE and SEQ, and no slot is above it. -/
theorem encode_slot_le {i : Instr} {sl w : Nat} (h : encode i = some (sl, w)) : sl ≤ 7 := by
  have hwf := encode_wf h
  rw [encode_of_wf hwf] at h
  by_contra hsl
  have hc : candidateBrt w = some i := by
    have := ((RoundTrip.every i hwf).1 sl w h).2
    rwa [candidate.eq_8 _ _ (by omega) (by omega) (by omega) (by omega) (by omega) (by omega) (by omega)] at this
  unfold candidateBrt at hc
  have h7 : (encodeOps i).map Prod.fst = some 7 := by
    split at hc
    · cases hc
      rfl
    · cases hc
      rfl
  rw [h] at h7
  exact hsl (Option.some.inj h7).le

/-- The decoder's table gives back the instruction that a word encodes. -/
theorem decodeOps_encode {i : Instr} {sl w : Nat} (h : encode i = some (sl, w)) : decodeOps sl w = some i := by
  have hwf := encode_wf h
  rw [encode_of_wf hwf] at h
  unfold decodeOps
  rw [((RoundTrip.every i hwf).1 sl w h).2]
  exact if_pos ⟨hwf, h⟩

/-- A word that the table reads is the encoding of what it reads. -/
theorem encode_decodeOps {i : Instr} {sl w : Nat} (h : decodeOps sl w = some i) : encode i = some (sl, w) := by
  unfold decodeOps at h
  split at h
  · split at h
    · next hi =>
      cases h
      rw [encode_of_wf hi.1, hi.2]
    · cases h
  · cases h

theorem encode_fits {i : Instr} {sl w : Nat} (h : encode i = some (sl, w)) : RoundTrip.Fits sl w := by
  have hwf := encode_wf h
  rw [encode_of_wf hwf] at h
  exact ((RoundTrip.every i hwf).1 sl w h).1

/-- Below slot 7 a word has its major in bits 28 to 24 (R23). -/
theorem encode_major {i : Instr} {sl w : Nat} (h : encode i = some (sl, w)) (hsl : sl < 7) : 2 ^ 24 ≤ w ∧ w < 2 ^ 29 := by
  have hf := encode_fits h
  rwa [RoundTrip.Fits, if_neg (by omega)] at hf

/-- The three parts of a slot word: its path tag or slot number, its major, and the operation's own 29 bits. -/
theorem fields_tagged {tag w : Nat} (ht : tag < 8) (h : 2 ^ 24 ≤ w ∧ w < 2 ^ 29) :
    2 ^ 29 * tag + w ≠ 0 ∧ fieldOf (2 ^ 29 * tag + w) 29 3 = tag ∧ fieldOf (2 ^ 29 * tag + w) 24 5 ≠ 0
      ∧ (2 ^ 29 * tag + w) % 536870912 = w := by
  unfold fieldOf
  omega

theorem decodeSlot_encode {i : Instr} {sl w tag : Nat} (h : encode i = some (sl, w)) (hsl : sl < 7) (ht : tag < 7) :
    decodeSlot sl (2 ^ 29 * tag + w) = .op tag i := by
  obtain ⟨h0, htag, hmaj, hlow⟩ := fields_tagged (Nat.lt_succ_of_lt ht) (encode_major h hsl)
  have hs7 : sl ≠ 7 := by omega
  have ht7 : tag ≠ 7 := by omega
  simp only [decodeSlot, h0, hs7, htag, ht7, hmaj, hlow, if_false, decodeOps_encode h]

/-- Only the zero word of slot 7 is the NOP, and a TREE with every field 0 is not well formed (R26). -/
theorem decodeSlot7_encode {i : Instr} {w : Nat} (h : encode i = some (7, w)) : decodeSlot 7 w = .op 0 i := by
  have hd := decodeOps_encode h
  have h0 : w ≠ 0 := by
    rintro rfl
    exact absurd (hd.symm.trans (show decodeOps 7 0 = none by decide)) nofun
  simp only [decodeSlot, h0, if_false, if_true, hd]

/-- A TREE with AL clear reads the same in slot 7 and in single-operation form, where bits 31 to 29 are the slot (R62). -/
theorem tree_of_low {i : Instr} {w : Nat} (h : encode i = some (7, w)) (hw : w < 268435456) :
    i = .tree 0 (fieldOf w 21 7) (fieldOf w 14 7) (fieldOf w 7 7) (fieldOf w 0 7) := by
  have hwf := encode_wf h
  rw [encode_of_wf hwf] at h
  have hc : candidateBrt w = some i := ((RoundTrip.every i hwf).1 7 w h).2
  have h31 : fieldOf w 31 1 = 0 := by unfold fieldOf; omega
  have h30 : fieldOf w 30 1 = 0 := by unfold fieldOf; omega
  rw [candidateBrt, h31, h30] at hc
  exact (Option.some.inj hc).symm

/-- What a machine or mode does with a single-operation word's instruction (R62, R63, R345). -/
theorem decodeSingle_encode {i : Instr} {w : Nat} (h : encodeSingle i = some w) (colt : Bool) :
    decodeSingle colt w = if colt then (if onColt i then .op 0 i else .bad .notHere)
      else if coltOnly i || bannedSingle i then .bad .notHere else .op 0 i := by
  unfold encodeSingle at h
  split at h
  · next sl v he =>
    split at h
    · next hsl =>
      subst hsl
      split at h
      · next hv =>
        cases h
        have h0 : 3758096384 + v ≠ 0 := by omega
        have hs : fieldOf (3758096384 + v) 29 3 = 7 := by unfold fieldOf; omega
        have hl : (3758096384 + v) % 536870912 = v := by omega
        simp only [decodeSingle, h0, hs, hl, hv, if_false, if_true, ← tree_of_low he hv]
      · cases h
    · next hsl =>
      cases h
      have hlt : sl < 7 := Nat.lt_of_le_of_ne (encode_slot_le he) hsl
      obtain ⟨h0, hs, _, hl⟩ := fields_tagged (Nat.lt_succ_of_lt hlt) (encode_major he hlt)
      simp only [Nat.reducePow] at h0 hs hl
      simp only [decodeSingle, h0, hs, hl, hsl, if_false, decodeOps_encode he]
  · cases h

theorem decodeQp_encode {i : Instr} {w : Nat} (hwf : i.wf = true) (h : encodeQp i = some w) : decodeQp w = some i := by
  unfold decodeQp
  rw [((RoundTrip.every i hwf).2 w h).2]
  exact if_pos ⟨hwf, h⟩

theorem encode_decodeQp {i : Instr} {w : Nat} (h : decodeQp w = some i) : i.wf = true ∧ encodeQp i = some w := by
  unfold decodeQp at h
  split at h
  · split at h
    · next hi =>
      cases h
      exact hi
    · cases h
  · cases h

/-- What a slot word that decodes to an operation is: slot 7's word whole, another slot's under a path tag below 7. -/
theorem decodeSlot_op {sl w tag : Nat} {i : Instr} (h : decodeSlot sl w = .op tag i) :
    (sl = 7 ∧ tag = 0 ∧ decodeOps 7 w = some i)
      ∨ (sl ≠ 7 ∧ tag ≠ 7 ∧ tag = fieldOf w 29 3 ∧ decodeOps sl (w % 536870912) = some i) := by
  unfold decodeSlot at h
  split at h
  · cases h
  · split at h
    · next hsl =>
      split at h
      · next hd =>
        cases h
        exact .inl ⟨hsl, rfl, hd⟩
      · cases h
    · next hsl =>
      dsimp only at h
      split at h
      · cases h
      · next ht =>
        split at h
        · cases h
        · split at h
          · next hd =>
            cases h
            exact .inr ⟨hsl, ht, rfl, hd⟩
          · cases h

/-- Settles O42: every encoding decodes to its instruction, and every word that decodes is the encoding of what it decodes to. -/
theorem encodingRoundTrip : Obligations.EncodingRoundTrip := by
  unfold Obligations.EncodingRoundTrip
  refine ⟨fun i hwf => ⟨fun sl w tag h hsl ht => decodeSlot_encode h hsl ht, fun w h _ => decodeSlot7_encode h,
    fun w h => ⟨fun hc => ?_, fun hc hb => ?_⟩, fun w h => decodeQp_encode hwf h⟩, fun sl w tag i h => ?_, fun w i h => encode_decodeQp h⟩
  · simp [decodeSingle_encode h, hc]
  · simp [decodeSingle_encode h, hc, hb]
  · obtain ⟨rfl, rfl, hd⟩ | ⟨hsl, ht, rfl, hd⟩ := decodeSlot_op h
    · have he := encode_decodeOps hd
      exact ⟨encode_wf he, fun h7 => absurd h7 (by decide), fun _ => ⟨rfl, he⟩⟩
    · have he := encode_decodeOps hd
      have h8 : fieldOf w 29 3 < 8 := Nat.mod_lt _ (by decide)
      exact ⟨encode_wf he, fun _ => ⟨by omega, rfl, he⟩, fun h7 => absurd h7 hsl⟩

/-- Settles O41: each word is closed, and the decoder computes. -/
theorem decodedWords : Obligations.DecodedWords := by
  unfold Obligations.DecodedWords
  decide

end Sys2Proof.Proofs
end

section
/-! A vector result lands (O46): its lanes under the mask, its flags and its counts. -/
namespace Sys2Proof.Proofs
open Laws
open Machine hiding Wf

theorem nth_eq_getD {α : Type} (d : α) (l : List α) (j : Nat) : nth d l j = l.getD j d := by
  induction l generalizing j with
  | nil => rfl
  | cons a l ih =>
    cases j with
    | zero => rfl
    | succ j => exact ih j

/-- A place of a table `f 0, f 1, …` holds its own value. -/
theorem nth_upTo_map {α : Type} (d : α) (f : Nat → α) {n j : Nat} (h : j < n) : nth d ((upTo n).map f) j = f j := by
  simp [nth_eq_getD, upTo, h]

theorem lane_lt (v : Vec) (j : Nat) : v.lane j < 2 ^ 32 := (nth 0#32 v.lanes j).isLt

theorem lane_mk' {t : Tag} {f : Nat → Nat} {j : Nat} (hj : j < 128) (hf : f j < 2 ^ 32) : (Vec.mk' t f).lane j = f j := by
  unfold Vec.lane Vec.mk'
  rw [nth_upTo_map _ _ hj, BitVec.toNat_ofNat, Nat.mod_eq_of_lt hf]

theorem latchVec_tag (v : Vec) (en : Mask) : (latchVec v en).tag = v.tag := by
  unfold latchVec
  split <;> rfl

theorem mergeVec_tag (old v : Vec) (en : Mask) : (mergeVec old v en).tag = v.tag := by
  unfold mergeVec
  split <;> rfl

theorem allOnes_lane {j : Nat} (hj : j < 128) : allOnes.getLsbD j = true := by
  rw [allOnes, BitVec.getLsbD_allOnes, decide_eq_true hj]

/-- A register keeps its disabled lanes (R193). -/
theorem mergeVec_lane (old v : Vec) (en : Mask) {j : Nat} (hj : j < 128) :
    (mergeVec old v en).lane j = if en.getLsbD j then v.lane j else old.lane j := by
  unfold mergeVec
  split
  · next h =>
    rw [h, allOnes_lane hj, if_pos rfl]
  · exact lane_mk' hj (by split <;> exact lane_lt _ _)

/-- A latch has zeros in its disabled lanes (R193). -/
theorem latchVec_lane (v : Vec) (en : Mask) {j : Nat} (hj : j < 128) :
    (latchVec v en).lane j = if en.getLsbD j then v.lane j else 0 := by
  unfold latchVec
  split
  · next h =>
    rw [h, allOnes_lane hj, if_pos rfl]
  · exact lane_mk' hj (by split; exacts [lane_lt _ _, Nat.two_pow_pos 32])

/-- No flag and no count is no change. -/
theorem applyFlags_zero (t : Tile) : t.applyFlags 0 0 = t := by
  unfold Tile.applyFlags MxCnt.add satInc
  simp

/-- An entry whose effect raises no flags of its own lands with those it carries (R92). -/
theorem landEntry_flags {s s1 : State} {e : Entry} (h : applyEff s e.unit e.slot e.eff = (s1, 0, 0)) :
    landEntry s e = if e.fl = 0 ∧ e.mx = 0 then s1 else s1.setTile e.unit ((s1.tile e.unit).applyFlags e.fl e.mx) := by
  unfold landEntry
  rw [h]
  simp

/-- What a tile holds after a vector result has reached its latch and its register (R37, R193). -/
def landVec (t : Tile) (slot d : Nat) (v : Vec) (en : Mask) : Tile :=
  let t1 := t.setLatch (latchOf slot d) (latchVec v en)
  if d < 40 then t1.setV d (mergeVec (t1.getV d) v en) else t1

/-- A vector result writes its tile only. -/
theorem landEntry_vec {s : State} {e : Entry} {d : Nat} {v : Vec} {en : Mask} (h : e.eff = .vec d v en) :
    (landEntry s e).tile e.unit = (landVec (s.tile e.unit) e.slot d v en).applyFlags e.fl e.mx
      ∧ (∀ u, u ≠ e.unit → (landEntry s e).tile u = s.tile u) ∧ { landEntry s e with tiles := s.tiles } = s := by
  rw [landEntry_flags (s1 := s.setTile e.unit (landVec (s.tile e.unit) e.slot d v en)) (by rw [h]; rfl)]
  split
  · next h0 =>
    rw [h0.1, h0.2, applyFlags_zero]
    exact ⟨by simp, fun u hu => by simp [hu], rfl⟩
  · exact ⟨by simp, fun u hu => by simp [hu], rfl⟩

theorem landVec_getLatch (t : Tile) (slot d l : Nat) (v : Vec) (en : Mask) :
    (landVec t slot d v en).getLatch l = if l = latchOf slot d then some (latchVec v en) else t.getLatch l := by
  unfold landVec
  split
  · exact setLatch_getLatch ..
  · exact setLatch_getLatch ..

theorem landVec_getV (t : Tile) (slot d r : Nat) (v : Vec) (en : Mask) :
    (landVec t slot d v en).getV r = if r = d ∧ d < 40 then mergeVec (t.getV d) v en else t.getV r := by
  unfold landVec
  split
  · next h =>
    simp only [h, and_true]
    exact setV_getV ..
  · next h =>
    simp only [h, and_false, if_false]
    rfl

theorem landVec_flags (t : Tile) (slot d : Nat) (v : Vec) (en : Mask) : (landVec t slot d v en).flags = t.flags := by
  unfold landVec
  split <;> rfl

theorem landVec_mx (t : Tile) (slot d : Nat) (v : Vec) (en : Mask) : (landVec t slot d v en).mx = t.mx := by
  unfold landVec
  split <;> rfl

theorem landVec_frame (t : Tile) (slot d : Nat) (v : Vec) (en : Mask) :
    { landVec t slot d v en with v := t.v, latch := t.latch } = t := by
  unfold landVec
  split <;> rfl

/-- Settles O46: the landing writes what `landVec` and the flags write, and each part of it is read off. -/
theorem vectorLanding : Obligations.VectorLanding := by
  unfold Obligations.VectorLanding
  refine ⟨fun c d lat v en fl hd => ?_, fun s e d v en he => ?_, by decide⟩
  · unfold dstPosts
    simp only [hd, if_false]
  · obtain ⟨ht, hu, hs⟩ := landEntry_vec (s := s) he
    have hf := landVec_frame (s.tile e.unit) e.slot d v en
    simp only [ht]
    refine ⟨⟨latchVec v en, (landVec_getLatch ..).trans (if_pos rfl), latchVec_tag v en, fun j hj => latchVec_lane v en hj⟩, fun hd => ?_,
      fun r hr => (landVec_getV ..).trans (if_neg ?_), fun l hl => (landVec_getLatch ..).trans (if_neg hl), ?_, ?_, ?_, hu, hs⟩
    · have hv : ((landVec (s.tile e.unit) e.slot d v en).applyFlags e.fl e.mx).getV d = mergeVec ((s.tile e.unit).getV d) v en :=
        (landVec_getV ..).trans (if_pos ⟨rfl, hd⟩)
      rw [hv]
      exact ⟨mergeVec_tag _ v en, fun j hj => mergeVec_lane _ v en hj⟩
    · omega
    · rw [Tile.applyFlags, landVec_flags]
    · rw [Tile.applyFlags, landVec_mx]
      simp [MxCnt.add, satInc]
    · rw [Tile.applyFlags]
      exact congrArg (fun x : Tile => { x with flags := (s.tile e.unit).flags, mx := (s.tile e.unit).mx }) hf

end Sys2Proof.Proofs
end

section
/-! What a step runs (O40): the act of each agent in turn, and each choice of the schedule. -/
namespace Sys2Proof.Proofs
open Laws
open Machine hiding Wf

/-- The first place below n at which `f` answers. -/
theorem findSome?_upTo {α : Type} {f : Nat → Option α} {n j : Nat} {a : α} (hj : j < n) (ha : f j = some a) (h : ∀ i, i < j → f i = none) :
    (upTo n).findSome? f = some a := by
  unfold upTo
  induction n with
  | zero => exact absurd hj (Nat.not_lt_zero j)
  | succ n ih =>
    rw [List.range_succ, List.findSome?_append]
    obtain hlt | rfl := Nat.lt_succ_iff_lt_or_eq.mp hj
    · rw [ih hlt, Option.some_or]
    · rw [List.findSome?_eq_none_iff.mpr fun i hi => h i (List.mem_range.mp hi)]
      simp [ha]

/-- Slot j of a bundle issues nothing: its word is no operation, or no die takes its path (R25). -/
def SlotPasses (i : Issue) (j : Nat) : Prop := (∀ g o, decodeSlot j (nth 0 i.words j) ≠ .op g o) ∨ i.dies j = []

/-- The first slot from `i.slot` on that does not pass is the next one to issue. -/
theorem nextOp_some {i : Issue} {sl tag : Nat} {op : Instr} (hsl : sl < 7) (hle : i.slot ≤ sl)
    (hd : decodeSlot sl (nth 0 i.words sl) = .op tag op) (hds : i.dies sl ≠ [])
    (h : ∀ j, i.slot ≤ j → j < sl → SlotPasses i j) : nextOp i = some (sl, op) := by
  refine findSome?_upTo hsl ?_ fun j hj => ?_
  · simp [Nat.not_lt.mpr hle, hd, hds]
  · split
    · rfl
    · next hjs =>
      split
      · next g o ho =>
        obtain hn | hn := h j (Nat.le_of_not_lt hjs) hj
        · exact absurd ho (hn g o)
        · simp [hn]
      · rfl

/-- A bundle whose slots from `i.slot` on all pass has no operation left. -/
theorem nextOp_none {i : Issue} (h : ∀ j, i.slot ≤ j → j < 7 → SlotPasses i j) : nextOp i = none := by
  refine List.findSome?_eq_none_iff.mpr fun j hj => ?_
  split
  · rfl
  · next hjs =>
    split
    · next g o ho =>
      obtain hn | hn := h j (Nat.le_of_not_lt hjs) (List.mem_range.mp hj)
      · exact absurd ho (hn g o)
      · simp [hn]
    · rfl

/-- The state in which the agent in turn acts: no choice is left, or the next one gives it the turn (log 3). -/
def InTurn (s0 s : State) : Prop := (s0.sched = [] ∧ s = s0) ∨ ∃ a rest, s0.sched = .act a :: rest ∧ s = { s0 with sched := rest, turn := a }

theorem schedule_inTurn {s0 s : State} (h : InTurn s0 s) : schedule s0 = .ok (fetch s) := by
  obtain ⟨hs, rfl⟩ | ⟨a, rest, hs, rfl⟩ := h
  · simp only [schedule, hs]
  · simp only [schedule, hs]

theorem step_quiet {s0 s t : State} (h : InTurn s0 s) (hf : fetch s = .quiet t) : step s0 = .next t := by
  simp only [step, schedule_inTurn h, hf]

theorem step_op {s0 s t : State} {i : Instr} (h : InTurn s0 s) (hf : fetch s = .op i t) : step s0 = exec i t := by
  simp only [step, schedule_inTurn h, hf]

theorem fetch_core {s : State} {k : Nat} (h : s.turn = .core k) : fetch s = fetchCore s k := by
  simp only [fetch, h]

theorem fetch_colt {s : State} {c : Nat} (h : s.turn = .colt c) : fetch s = fetchColt s c := by
  simp only [fetch, h]

section core
variable {s : State} {k : Nat} (hi : canIssue s (s.core k) = true) (ha : coreAsleep s k = false)
include hi ha

/-- A core in normal mode whose bundle has had its branch word runs the bundle's next operation, or ends the bundle. -/
theorem fetchCore_slot {i : Issue} (hh : (s.core k).handler = none) (hx : (s.core k).issue = some i) (hb : i.brtDone = true) :
    fetchCore s k = match nextOp i with
      | some (sl, op) => if sl = 5 ∧ !(metPairs s k i op).isEmpty then .quiet (landMet s k (metPairs s k i op))
          else .op op (s.setCore k { s.core k with issue := some { i with slot := sl } })
      | none => .quiet (endBundle s k) := by
  simp only [fetchCore, hi, ha, hh, hx, hb, Bool.not_true, Bool.false_eq_true, if_false, if_true] <;> rfl

theorem fetchCore_branch {i : Issue} {tag : Nat} {op : Instr} (hh : (s.core k).handler = none) (hx : (s.core k).issue = some i)
    (hb : i.brtDone = false) (hd : decodeSlot 7 (nth 0 i.words 7) = .op tag op) : fetchCore s k = .op op s := by
  simp only [fetchCore, hi, ha, hh, hx, hb, hd, Bool.not_true, Bool.false_eq_true, if_false]

theorem fetchCore_open (hh : (s.core k).handler = none) (hx : (s.core k).issue = none) : fetchCore s k = .quiet (openBundle s k) := by
  simp only [fetchCore, hi, ha, hh, hx, Bool.not_true, Bool.false_eq_true, if_false]

/-- A core in handler mode runs the word of its handler store. -/
theorem fetchCore_handler {a : Nat} (hh : (s.core k).handler = some a) (hl : a < (s.core k).store.2) :
    let w := sget 0 (s.core k).store.1 a
    fetchCore s k = match decodeSingle false w with
      | .nop => .quiet (stepEnd (nextWord s k) k)
      | .bad _ => .quiet (takeTrap s k cILLEGAL (w / 2 ^ 29 % 8) [⟨0, 0, w⟩, ⟨1, 0, w⟩, ⟨2, 0, w⟩, ⟨3, 0, w⟩])
      | .op _ i => .op i s := by
  have hw : handlerWord s k = sget 0 (s.core k).store.1 a := by rw [handlerWord, hh, Option.getD_some]
  simp only [fetchCore, hi, ha, hh, hw, Nat.not_le.mpr hl, Bool.not_true, Bool.false_eq_true, if_false, List.map_cons, List.map_nil] <;> rfl

end core

/-- A Colt that runs: PLANE_END past its store or its routine (R64), else the word of the routine. -/
theorem fetchColt_runs {s : State} {c : Nat} (hr : (s.colt c).running = true) (ha : asleep s (coltUnit c) = false)
    (hst : s.hub.stalled = false) (hf : s.hub.fenced = false) :
    let w := nth 0 s.hub.routine (s.colt c).pc
    fetchColt s c = if 1024 ≤ (s.colt c).pc ∨ s.hub.routine.length ≤ (s.colt c).pc then .quiet (coltTrap s c cPLANE_END 0 (s.colt c).pc 0)
      else match decodeSingle true w with
        | .nop => .quiet (nextColt s c)
        | .bad _ => .quiet (coltTrap s c cILLEGAL 0 w (w / 2 ^ 29))
        | .op _ i => .op i s := by
  simp only [fetchColt, hr, ha, hst, hf, Bool.not_true, Bool.or_self, Bool.false_eq_true, if_false] <;> rfl

theorem decodeSingle_zero (colt : Bool) : decodeSingle colt 0 = .nop := rfl

/-- Settles O40: what each agent fetches, and what each choice of the schedule does, by cases of its own definition. -/
theorem stepRunsInstruction : Obligations.StepRunsInstruction := by
  unfold Obligations.StepRunsInstruction
  refine ⟨fun s0 s (hin : InTurn s0 s) => ⟨fun k i ht hi ha hh hx => ⟨fun hb sl tag op hsl hle hd hds hmet h => ?slot, fun hb h => ?ends,
      fun hb tag op hd => ?branch⟩, fun k ht hi ha hh hx => ?opens, fun k a ht hi ha hh hl => ?handler, fun c ht hr ha hst hf h1 h2 => ?colt, fun c ht hr ha hst hf h => ?coltEnd,
    fun p op ht hp hf hst hd => ?qp, fun ht => ?idle⟩,
    fun s rest => ⟨fun i h => ?_, fun ns h => ?_, fun pa v h hm hp => ?_, fun pa v h hm => ?_, fun a v h => ?_,
    fun pa v h hm hp => ?_, fun off h => ?_, fun m h => ?_⟩⟩
  case slot =>
    refine step_op hin ((fetch_core ht).trans ((fetchCore_slot hi ha hh hx hb).trans ?_))
    rw [nextOp_some hsl hle hd hds h]
    exact if_neg fun h5 => by simp [hmet h5.1] at h5
  case ends =>
    refine step_quiet hin ((fetch_core ht).trans ((fetchCore_slot hi ha hh hx hb).trans ?_))
    rw [nextOp_none h]
  case branch => exact step_op hin ((fetch_core ht).trans (fetchCore_branch hi ha hh hx hb hd))
  case opens => exact step_quiet hin ((fetch_core ht).trans (fetchCore_open hi ha hh hx))
  case handler =>
    have hf := (fetch_core ht).trans (fetchCore_handler hi ha hh hl)
    refine ⟨fun tag op hd => step_op hin (hf.trans ?_), fun hw => step_quiet hin (hf.trans ?_), fun e hd => step_quiet hin (hf.trans ?_)⟩
    · rw [hd]
    · rw [hw, decodeSingle_zero]
    · rw [hd]
  case colt =>
    have hf := (fetch_colt ht).trans ((fetchColt_runs hr ha hst hf).trans (if_neg (by omega)))
    refine ⟨fun tag op hd => step_op hin (hf.trans ?_), fun hw => step_quiet hin (hf.trans ?_), fun e hd => step_quiet hin (hf.trans ?_)⟩
    · rw [hd]
    · rw [hw, decodeSingle_zero]
    · rw [hd]
  case coltEnd => exact step_quiet hin ((fetch_colt ht).trans ((fetchColt_runs hr ha hst hf).trans (if_pos h)))
  case qp => exact step_op hin (by simp [fetch, ht, fetchQp, hp, hf, hst, hd])
  case idle => exact step_quiet hin (by simp only [fetch, ht])
  · simp only [step, schedule, h]
  · simp only [step, schedule, h]
  · simp [step, schedule, h, Nat.not_lt.mpr hm, hp]
  · simp only [step, schedule, h, hm, if_true]
  · simp only [step, schedule, h]
  · simp [step, schedule, h, Nat.not_lt.mpr hm, hp]
  · simp only [step, schedule, h]
  · simp only [step, schedule, h]

end Sys2Proof.Proofs
end

section
/-! The branch tree (O15): its leaf, and what the leaves do in a bundle, in a handler and on a Colt. -/
namespace Sys2Proof.Proofs
open Laws
open Machine hiding Wf

/-- A test passes where its predicate differs from its INV bit, bit 6 (R26). -/
theorem treeTest_ok {c : OpCtx} {t : Nat} {b : Bool} (h : rp c (t % 64) = .ok b) : treeTest c t = .ok (b != t.testBit 6) := by
  rw [Nat.testBit_eq_decide_div_mod_eq]
  simp only [treeTest, h, bind, Except.bind]

theorem treeLeaf_ok {c : OpCtx} {t1 t2 t3 t4 : Nat} {b1 b2 b3 b4 : Bool} (h1 : rp c (t1 % 64) = .ok b1) (h2 : rp c (t2 % 64) = .ok b2)
    (h3 : rp c (t3 % 64) = .ok b3) (h4 : rp c (t4 % 64) = .ok b4) :
    treeLeaf c t1 t2 t3 t4 = .ok (if b1 ≠ t1.testBit 6 then 1 else if b2 ≠ t2.testBit 6 then 2 else if b3 ≠ t3.testBit 6 then 3
      else if b4 ≠ t4.testBit 6 then 4 else 5) := by
  simp only [treeLeaf, treeTest_ok h1, treeTest_ok h2, treeTest_ok h3, treeTest_ok h4, bind, Except.bind, bne_iff_ne]
  split_ifs <;> rfl

/-- The leaves of the four dies, die 0 first. -/
def leavesOf (L : Nat → Nat) : List Nat := [L 0, L 1, L 2, L 3]

theorem nth_leavesOf (L : Nat → Nat) {d : Nat} (h : d < 4) : nth 5 (leavesOf L) d = L d := by
  match d, h with
  | 0, _ => rfl
  | 1, _ => rfl
  | 2, _ => rfl
  | 3, _ => rfl

/-- The four dies answer one by one. -/
theorem mapM_dies {f : Nat → Res Nat} {L : Nat → Nat} (h : ∀ d, d < 4 → f d = .ok (L d)) : (upTo 4).mapM f = .ok (leavesOf L) := by
  show [0, 1, 2, 3].mapM f = _
  simp [h, leavesOf, pure, Except.pure, bind, Except.bind]

/-- The address at which die d goes on under leaf l: the armed target, or the next bundle (R27). -/
def leafNext (s : State) (k addr d l : Nat) : Nat := (leafTarget s (unitOf k d) l).getD (addr + 1)

/-- The fetch outcome of die d under leaf l: the control action that its path takes, and its address (R161). -/
def fetchOutcome (s : State) (k : Nat) (i : Issue) (d l : Nat) : Nat × Nat :=
  match decodeSlot 0 (nth 0 i.words 0) with
  | .op tag op => if tagIssues tag l then ctlAction s k op (leafNext s k i.addr d l) else (0, leafNext s k i.addr d l)
  | _ => (0, leafNext s k i.addr d l)

/-- With a NOP in CTL, the outcome of a die is its address alone. -/
theorem fetchOutcome_nop {s : State} {k d l : Nat} {i : Issue} (h : nth 0 i.words 0 = 0) : fetchOutcome s k i d l = (0, leafNext s k i.addr d l) := by
  unfold fetchOutcome
  rw [h]
  rfl

section bundle
variable (s : State) (k : Nat) (i : Issue) (ls : List Nat)

/-- The fetch outcome of die d when the dies have taken the leaves `ls`. -/
def outcomeOf (d : Nat) : Nat × Nat := fetchOutcome s k i d (nth 5 ls d)

/-- The bundle after its tree: its leaves, and where fetch goes on (R161). -/
def branched : Issue :=
  let o := outcomeOf s k i ls (k % 4)
  if o.1 = 0 ∨ o.1 = 3 then { i with leaves := ls, brtDone := true, next := o.2 }
  else { i with leaves := ls, brtDone := true, next := leafNext s k i.addr (k % 4) (nth 5 ls (k % 4)) }

/-- The dies whose outcome is not the lead die's. -/
def dissent : List Nat := (upTo 4).filter (fun d => decide (outcomeOf s k i ls d ≠ outcomeOf s k i ls (k % 4)))

variable {s k i ls} {t1 t2 t3 t4 : Nat}

/-- A tree in a bundle: the dies agree and the bundle goes on, or the dissenting ones raise ILLEGAL_BUNDLE (R161). -/
theorem treeBundle_eq {L : Nat → Nat} (hL : ∀ d, d < 4 → treeLeaf (look s k 7 d) t1 t2 t3 t4 = .ok (L d)) (hls : ls = leavesOf L) :
    treeBundle s k t1 t2 t3 t4 i = if (dissent s k i ls).isEmpty
      then .next (checked s k i (s.setCore k { s.core k with st := .running, issue := some (branched s k i ls) }))
      else
        let sl := if (dissent s k i ls).any (fun d => decide ((outcomeOf s k i ls d).1 ≠ (outcomeOf s k i ls (k % 4)).1)) then 0 else 7
        .next (takeTrap s k cILLEGAL_BUNDLE sl ((dissent s k i ls).map (fun d => ⟨d, 0, nth 0 i.words sl⟩))) := by
  have hm := mapM_dies hL
  unfold look at hm
  simp only [treeBundle, hm, ← hls]
  rfl

/-- TREE in turn in a bundle whose branch word is due. -/
theorem execTree_bundle {al : Nat} (ht : s.turn = .core k) (hh : (s.core k).handler = none) (hx : (s.core k).issue = some i)
    (hb : i.brtDone = false) (hal : al < 2) : exec (.tree al t1 t2 t3 t4) s = treeBundle s k t1 t2 t3 t4 i := by
  show execTree al t1 t2 t3 t4 s = _
  simp [execTree, ht, hh, hx, hb, hal]

/-- One outcome on every die is the bundle's. -/
theorem dissent_empty {o : Nat × Nat} (h : ∀ d, d < 4 → outcomeOf s k i ls d = o) : dissent s k i ls = [] := by
  refine List.filter_eq_nil_iff.mpr fun d hd => ?_
  simp [h d (List.mem_range.mp hd), h (k % 4) (Nat.mod_lt k (by decide))]

end bundle

theorem stepEnd_idle {s : State} {k : Nat} (h : (s.core k).stepPending = false) : stepEnd s k = s := by
  simp [stepEnd, h]

/-- TREE as a handler word whose four dies go one way (R345). -/
theorem execTree_handler {s : State} {k al t1 t2 t3 t4 : Nat} {L : Nat → Nat} (hin : InHandler s k)
    (hL : ∀ d, d < 4 → treeLeaf (lookWord s k 7 d) t1 t2 t3 t4 = .ok (L d))
    (hg : ∀ d, d < 4 → leafTarget s (unitOf k d) (L d) = leafTarget s (unitOf k 0) (L 0)) :
    exec (.tree al t1 t2 t3 t4) s = match leafTarget s (unitOf k 0) (L 0) with
      | some a => .next (stepEnd (s.modCore k (fun c => { c with handler := some a })) k)
      | none => .next (stepEnd (nextWord s k) k) := by
  have hm := mapM_dies hL
  unfold lookWord at hm
  have hd : ∀ d, d < 4 → leafTarget s (unitOf k d) (nth 5 (leavesOf L) d) = leafTarget s (unitOf k 0) (L 0) := fun d hd => by
    rw [nth_leavesOf L hd, hg d hd]
  have hall : (upTo 4).any (fun d => decide (leafTarget s (unitOf k d) (nth 5 (leavesOf L) d) ≠ leafTarget s (unitOf k 0) (L 0))) = false := by
    simp only [List.any_eq_false, decide_eq_true_eq, ne_eq, not_not]
    exact fun d h => hd d (List.mem_range.mp h)
  show execTree al t1 t2 t3 t4 s = _
  simp only [execTree, hin.turn, hin.handler, if_true, treeHandler, hm, hd 0 (by decide), hall, Bool.false_eq_true, if_false] <;> rfl

theorem execTree_colt {s : State} {c al t1 t2 t3 t4 l : Nat} (ht : s.turn = .colt c) (hl : treeLeaf (lookColt s c 7) t1 t2 t3 t4 = .ok l) :
    exec (.tree al t1 t2 t3 t4) s = match leafTarget s (coltUnit c) l with
      | some a => .next (s.modColt c (fun r => { r with pc := a }))
      | none => .next (nextColt s c) := by
  unfold lookColt at hl
  show execTree al t1 t2 t3 t4 s = _
  simp only [execTree, ht, hl] <;> rfl

/-- Settles O15: the leaf from its tests, and the tree of each machine from its leaves. -/
theorem branchTree : Obligations.BranchTree := by
  unfold Obligations.BranchTree
  refine ⟨fun c t1 t2 t3 t4 b1 b2 b3 b4 h1 h2 h3 h4 => treeLeaf_ok h1 h2 h3 h4,
    fun s k al t1 t2 t3 t4 act nx i L _ ht hh hx hb hal hL hchk ho => ?agree, fun s k al t1 t2 t3 t4 d i L _ ht hh hx hb hal hd hL hw hne => ?dissents,
    fun s k al t1 t2 t3 t4 L g hin hst h => ?handler, fun s c al t1 t2 t3 t4 l ht hl => ?colt⟩
  case agree =>
    have ho' : ∀ d, d < 4 → outcomeOf s k i (leavesOf L) d = (act, nx) := fun d hd => by
      rw [outcomeOf, nth_leavesOf L hd]
      exact ho d hd
    have hk := Nat.mod_lt k (show 4 > 0 by decide)
    rw [execTree_bundle ht hh hx hb hal, treeBundle_eq hL rfl, dissent_empty ho', if_pos List.isEmpty_nil, checked, hchk, branched, ho' _ hk, nth_leavesOf L hk]
    dsimp only
    split_ifs <;> rfl
  case dissents =>
    have ho : ∀ d, d < 4 → outcomeOf s k i (leavesOf L) d = (0, leafNext s k i.addr d (L d)) := fun d hd => by
      rw [outcomeOf, fetchOutcome_nop hw, nth_leavesOf L hd]
    have hm : d ∈ dissent s k i (leavesOf L) := by
      refine List.mem_filter.mpr ⟨List.mem_range.mpr hd, decide_eq_true fun h => hne ?_⟩
      rw [ho d hd, ho _ (Nat.mod_lt k (by decide))] at h
      exact congrArg Prod.snd h
    refine ⟨(dissent s k i (leavesOf L)).map (fun d => ⟨d, 0, nth 0 i.words 7⟩), ?_,
      List.any_eq_true.mpr ⟨_, List.mem_map_of_mem hm, decide_eq_true rfl⟩⟩
    have hctl : (dissent s k i (leavesOf L)).any (fun d =>
        decide ((outcomeOf s k i (leavesOf L) d).1 ≠ (outcomeOf s k i (leavesOf L) (k % 4)).1)) = false := by
      refine List.any_eq_false.mpr fun e he => ?_
      simp [ho e (List.mem_range.mp (List.mem_filter.mp he).1), ho _ (Nat.mod_lt k (show 4 > 0 by decide))]
    rw [execTree_bundle ht hh hx hb hal, treeBundle_eq hL rfl, if_neg (by simpa using List.ne_nil_of_mem hm), hctl]
    rfl
  case handler =>
    rw [execTree_handler hin (fun d hd => (h d hd).1) (fun d hd => (h d hd).2.trans (h 0 (by decide)).2.symm), (h 0 (by decide)).2]
    cases g with
    | some a => exact congrArg _ (stepEnd_idle (by simpa using hst))
    | none => exact congrArg _ (stepEnd_idle (by simpa [nextWord] using hst))
  case colt =>
    rw [execTree_colt ht hl]
    cases leafTarget s (coltUnit c) l <;> rfl

end Sys2Proof.Proofs
end

section
/-! The marks of the loop sequencer (O16, O17): the walkers of a core at a mark, SEQ in a bundle, and END. -/
namespace Sys2Proof.Proofs
open Laws
open Machine hiding Wf

/-- Every port of a tile at a mark (R196). -/
def markPorts (f : Walker → Walker) (t : Tile) : Tile := (upTo 8).foldl (fun t p => t.setWalk p (f (t.getWalk p))) t

/-- The ports in a list without repetition change once each. -/
theorem foldl_setWalk_getWalk (f : Walker → Walker) {ps : List Nat} (hn : ps.Nodup) (t : Tile) (p : Nat) :
    (ps.foldl (fun t p => t.setWalk p (f (t.getWalk p))) t).getWalk p = if p ∈ ps then f (t.getWalk p) else t.getWalk p := by
  induction ps generalizing t with
  | nil => rfl
  | cons q ps ih =>
    rw [List.nodup_cons] at hn
    rw [List.foldl_cons, ih hn.2, setWalk_getWalk]
    by_cases hp : p = q
    · subst hp
      simp [hn.1]
    · simp [hp]

theorem markPorts_getWalk (f : Walker → Walker) (t : Tile) {p : Nat} (hp : p < 8) : (markPorts f t).getWalk p = f (t.getWalk p) :=
  (foldl_setWalk_getWalk f List.nodup_range t p).trans (if_pos (List.mem_range.mpr hp))

/-- A change of the tiles of some dies of core k, one after the other, leaves each tile with its own change. -/
theorem foldl_modTile_tile (k : Nat) (g : Nat → Tile → Tile) {ds : List Nat} (hn : ds.Nodup) (s : State) (u : Nat) :
    (ds.foldl (fun s d => s.modTile (unitOf k d) (g d)) s).tile u = if ∃ d ∈ ds, u = unitOf k d then g (u - 4 * k) (s.tile u) else s.tile u := by
  induction ds generalizing s with
  | nil => simp
  | cons e ds ih =>
    rw [List.nodup_cons] at hn
    rw [List.foldl_cons, ih hn.2, modTile_eq, setTile_tile]
    by_cases hu : u = unitOf k e
    · have hno : ¬ ∃ d ∈ ds, u = unitOf k d := by
        rintro ⟨d, hd, h⟩
        have : d = e := by unfold unitOf at h hu; omega
        exact hn.1 (this ▸ hd)
      have he : u - 4 * k = e := by unfold unitOf at hu; omega
      rw [if_neg hno, if_pos hu, if_pos ⟨e, List.mem_cons_self, hu⟩, he, ← hu]
    · simp [hu]

theorem foldl_dies_tile (s : State) (k : Nat) (g : Nat → Tile → Tile) {d : Nat} (hd : d < 4) :
    ((upTo 4).foldl (fun s d => s.modTile (unitOf k d) (g d)) s).tile (unitOf k d) = g d (s.tile (unitOf k d)) := by
  rw [upTo, foldl_modTile_tile k g List.nodup_range, if_pos ⟨d, List.mem_range.mpr hd, rfl⟩, unitOf, Nat.add_sub_cancel_left]

theorem foldl_dies_other (s : State) (k : Nat) (g : Nat → Tile → Tile) {u : Nat} (hu : u / 4 ≠ k) :
    ((upTo 4).foldl (fun s d => s.modTile (unitOf k d) (g d)) s).tile u = s.tile u := by
  rw [upTo, foldl_modTile_tile k g List.nodup_range, if_neg]
  rintro ⟨d, hd, rfl⟩
  exact hu (unit_core (List.mem_range.mp hd))

theorem markWalkers_getWalk (s : State) (k : Nat) (f : Walker → Walker) {d p : Nat} (hd : d < 4) (hp : p < 8) :
    ((markWalkers s k f).tile (unitOf k d)).getWalk p = f ((s.tile (unitOf k d)).getWalk p) :=
  (congrArg (Tile.getWalk · p) (foldl_dies_tile s k (fun _ => markPorts f) hd)).trans (markPorts_getWalk f _ hp)

theorem markWalkers_other (s : State) (k : Nat) (f : Walker → Walker) {u : Nat} (hu : u / 4 ≠ k) : (markWalkers s k f).tile u = s.tile u :=
  foldl_dies_other s k (fun _ => markPorts f) hu

@[simp] theorem markWalkers_core (s : State) (k j : Nat) (f : Walker → Walker) : (markWalkers s k f).core j = s.core j := rfl

@[simp] theorem setLvl_lvl (c : CoreRec) (l m : Nat) (v : Level) : (c.setLvl l v).lvl m = if m = l then v else c.lvl m := by
  simp [CoreRec.setLvl, CoreRec.lvl]

theorem beginMark_core (s : State) (k lvl addr j : Nat) : (beginMark s k lvl addr).core j
    = if j = k then (s.core k).setLvl lvl { (s.core k).lvl lvl with active := true, beg := addr, idx := 0 } else s.core j := by
  simp [beginMark]

theorem beginMark_tile (s : State) (k lvl addr u : Nat) :
    (beginMark s k lvl addr).tile u = (markWalkers s k (fun w => { w with idx := sset 0 w.idx lvl 0, a := 0 })).tile u := rfl

/-- The LF test of a SEQ fails: its bundle is suppressed (R35). -/
def suppresses (lf : Nat) (l : Level) : Bool :=
  l.active && (match lf with
    | 0 => false
    | 1 => !decide (l.idx = 0)
    | 2 => !decide (l.idx = l.count.toNat)
    | _ => !(decide (l.idx = 0) || decide (l.idx = l.count.toNat)))

/-- The state after the BEG mark of a SEQ, where it acts (R33). -/
def begun (s : State) (k : Nat) (i : Issue) (lvl beg : Nat) : State :=
  if beg = 1 ∧ (s.core k).retLvl ≠ some lvl then beginMark s k lvl i.addr else s

/-- A suppressed bundle is passed, with its END (R35). -/
def passed (s1 : State) (k : Nat) (i : Issue) (lvl fin bn : Nat) : State :=
  let s2 := s1.modCore k (fun c => { c with issue := none, retLvl := none })
  let r := if fin = 1 then finishMark s2 k lvl (i.addr + 1) bn bn else (s2, i.addr + 1)
  r.1.modCore k (fun c => { c with pc := r.2 })

/-- The bundle after a SEQ that lets it issue. -/
def marked (s1 : State) (k : Nat) (i : Issue) (lvl fin : Nat) : State :=
  s1.modCore k (fun c => { c with issue := some { i with brtDone := true, fin := if fin = 1 then some lvl else none } })

/-- What SEQ does, by its LF test and the level's state. -/
theorem seqAct_eq (s : State) (k : Nat) (i : Issue) (lf lvl beg fin : Nat) :
    seqAct s k i lf lvl beg fin =
      let s1 := begun s k i lvl beg
      let l := (s1.core k).lvl lvl
      if suppresses lf l then checked s1 k i (passed s1 k i lvl fin (s.core k).bn)
      else if fin = 1 ∧ !l.active then takeTrap s1 k cILLEGAL_BUNDLE 7 ([0, 1, 2, 3].map (fun d => ⟨d, 0, nth 0 i.words 7⟩))
      else checked s1 k i (marked s1 k i lvl fin) := rfl

theorem suppresses_passing {lf : Nat} {l : Level} (hlf : lf < 4)
    (h : l.active = true → (lf = 1 → l.idx = 0) ∧ (lf = 2 → l.idx = l.count.toNat) ∧ (lf = 3 → l.idx = 0 ∨ l.idx = l.count.toNat)) :
    suppresses lf l = false := by
  unfold suppresses
  cases ha : l.active with
  | false => rfl
  | true =>
    obtain ⟨h1, h2, h3⟩ := h ha
    match lf, hlf with
    | 0, _ => rfl
    | 1, _ => simp [h1 rfl]
    | 2, _ => simp [h2 rfl]
    | 3, _ => simpa [or_iff_not_imp_left] using h3 rfl

theorem suppresses_inactive (lf : Nat) {l : Level} (h : l.active = false) : suppresses lf l = false := by
  unfold suppresses
  rw [h, Bool.false_and]

theorem suppresses_failing {lf : Nat} {l : Level} (ha : l.active = true)
    (h : (lf = 1 ∧ l.idx ≠ 0) ∨ (lf = 2 ∧ l.idx ≠ l.count.toNat) ∨ (lf = 3 ∧ l.idx ≠ 0 ∧ l.idx ≠ l.count.toNat)) :
    suppresses lf l = true := by
  unfold suppresses
  obtain ⟨rfl, h1⟩ | ⟨rfl, h2⟩ | ⟨rfl, h3, h4⟩ := h
  · simp [ha, h1]
  · simp [ha, h2]
  · simp [ha, h3, h4]

theorem begun_stays {s : State} {k : Nat} {i : Issue} {lvl beg : Nat} (h : beg = 1 → (s.core k).retLvl = some lvl) : begun s k i lvl beg = s :=
  if_neg fun hb => hb.2 (h hb.1)

theorem begun_marks {s : State} {k : Nat} {i : Issue} {lvl : Nat} (h : (s.core k).retLvl ≠ some lvl) : begun s k i lvl 1 = beginMark s k lvl i.addr :=
  if_pos ⟨rfl, h⟩

/-- The bundle checks pass, and the bundle goes on as it is (R46). -/
theorem checked_ok {s t : State} {k : Nat} {i : Issue} (h : bundleChecks s k i.words = none) : checked s k i t = t := by
  unfold checked
  rw [h]

theorem checked_bad {s t : State} {k sl : Nat} {ds : List Nat} {i : Issue} (h : bundleChecks s k i.words = some (sl, ds)) :
    checked s k i t = takeTrap s k cILLEGAL_BUNDLE sl (ds.map (fun d => ⟨d, 0, nth 0 i.words sl⟩)) := by
  unfold checked
  rw [h]

section seq
variable {s : State} {k align lf lvl beg fin : Nat} {i : Issue} (ht : s.turn = .core k) (hx : (s.core k).issue = some i)
  (hb : i.brtDone = false) (hal : align < 256)
include ht hx hb hal

/-- SEQ in turn acts, unless its END waits for a pending stride register (R176). -/
theorem execSeq_acts (hw : fin = 1 → ((s.core k).lvl lvl).active = true ∨ beg = 1 → stridePending s k lvl = false) :
    exec (.seq align lf lvl beg fin) s = .next (seqAct s k i lf lvl beg fin) := by
  have hn : ¬ (fin = 1 ∧ (((s.core k).lvl lvl).active || decide (beg = 1)) = true ∧ stridePending s k lvl = true) := by
    rintro ⟨hf, ha, hp⟩
    rw [hw hf (by simpa using ha)] at hp
    exact Bool.false_ne_true hp
  show execSeq align lf lvl beg fin s = _
  simp only [execSeq, ht, hx, hb, Nat.not_le.mpr hal, decide_false, Bool.or_self, Bool.false_eq_true, if_false, hn]

theorem execSeq_waits (ha : ((s.core k).lvl lvl).active = true) (hp : stridePending s k lvl = true) :
    exec (.seq align lf lvl beg 1) s = .next (arriveOldest s k) := by
  show execSeq align lf lvl beg 1 s = _
  simp [execSeq, ht, hx, hb, Nat.not_le.mpr hal, ha, hp]

/-- A SEQ that its LF test lets issue marks its bundle. -/
theorem execSeq_marks (hw : fin = 1 → ((s.core k).lvl lvl).active = true ∨ beg = 1 → stridePending s k lvl = false)
    (hc : bundleChecks (begun s k i lvl beg) k i.words = none) (hs : suppresses lf (((begun s k i lvl beg).core k).lvl lvl) = false)
    (hact : fin = 1 → (((begun s k i lvl beg).core k).lvl lvl).active = true) :
    exec (.seq align lf lvl beg fin) s = .next (marked (begun s k i lvl beg) k i lvl fin) := by
  have hn : ¬ (fin = 1 ∧ (!(((begun s k i lvl beg).core k).lvl lvl).active) = true) := by
    rintro ⟨hf, ha⟩
    simp [hact hf] at ha
  rw [execSeq_acts ht hx hb hal hw, seqAct_eq]
  simp only [hs, Bool.false_eq_true, if_false, hn, checked_ok hc]

/-- A SEQ that its LF test suppresses passes its bundle. -/
theorem execSeq_passes (hw : fin = 1 → ((s.core k).lvl lvl).active = true ∨ beg = 1 → stridePending s k lvl = false)
    (hc : bundleChecks (begun s k i lvl beg) k i.words = none) (hs : suppresses lf (((begun s k i lvl beg).core k).lvl lvl) = true) :
    exec (.seq align lf lvl beg fin) s = .next (passed (begun s k i lvl beg) k i lvl fin (s.core k).bn) := by
  rw [execSeq_acts ht hx hb hal hw, seqAct_eq]
  simp only [hs, if_true, checked_ok hc]

end seq

/-- Settles O16: each mark from its own rule, by whether BEG acts and whether LF suppresses. -/
theorem sequencerMarks : Obligations.SequencerMarks := by
  unfold Obligations.SequencerMarks
  refine ⟨fun s k align lf lvl beg fin i _ ht _ hx hb hal hlf hbeg hc hfin hpass => ?issues,
    fun s k align lf lvl fin i _ ht _ hx hb hal hlf hret h2 hfin hc => ?begins,
    fun s k lvl addr _ => ?beg,
    fun s k align lf lvl i _ ht _ hx hb hal ha => ?inactive,
    fun s k align lf lvl beg i _ ht _ hx hb hal ha hp => execSeq_waits ht hx hb hal ha hp,
    fun s s1 k align lf lvl beg i _ ht _ hx hb hal hs1 ha hc hf => ?suppressed,
    fun s k align lf lvl sl i ds _ ht _ hx hb hal hc => ?illegal⟩
  case issues =>
    have hs1 : begun s k i lvl beg = s := begun_stays hbeg
    rw [execSeq_marks ht hx hb hal (fun hf _ => (hfin hf).2) (by rwa [hs1]) (by rw [hs1]; exact suppresses_passing hlf hpass)
      (by rw [hs1]; exact fun hf => (hfin hf).1), hs1]
    rfl
  case begins =>
    have hs1 : begun s k i lvl 1 = beginMark s k lvl i.addr := begun_marks hret
    have hl : ((beginMark s k lvl i.addr).core k).lvl lvl = { (s.core k).lvl lvl with active := true, beg := i.addr, idx := 0 } := by
      rw [beginMark_core, if_pos rfl, setLvl_lvl, if_pos rfl]
    have hpass : suppresses lf { (s.core k).lvl lvl with active := true, beg := i.addr, idx := 0 } = false :=
      suppresses_passing hlf fun _ => ⟨fun _ => rfl, fun h => (h2 h).symm, fun _ => .inl rfl⟩
    rw [execSeq_marks ht hx hb hal (fun hf _ => hfin hf) (by rwa [hs1]) (by rwa [hs1, hl]) (by rw [hs1, hl]; exact fun _ => rfl), hs1]
    rfl
  case beg =>
    refine ⟨by rw [beginMark_core, if_pos rfl, CoreRec.setLvl], fun j hj => by rw [beginMark_core, if_neg hj],
      fun d p hd hp => ?_, fun u hu => ?_, rfl⟩
    · rw [beginMark_tile, markWalkers_getWalk s k _ hd hp]
    · rw [beginMark_tile, markWalkers_other s k _ hu]
  case inactive =>
    have hs1 : begun s k i lvl 0 = s := begun_stays fun h => absurd h (by decide)
    have hs : suppresses lf ((s.core k).lvl lvl) = false := suppresses_inactive lf ha
    refine ⟨[0, 1, 2, 3].map (fun d => ⟨d, 0, nth 0 i.words 7⟩), ?_⟩
    rw [execSeq_acts ht hx hb hal (fun _ h => by simp [ha] at h), seqAct_eq]
    simp only [hs1, hs, ha, Bool.false_eq_true, if_false, Bool.not_false, and_self, if_true]
  case suppressed =>
    obtain rfl : s1 = begun s k i lvl beg := hs1
    have hs := suppresses_failing ha hf
    refine ⟨⟨_, execSeq_passes ht hx hb hal (fun h => absurd h (by decide)) hc hs, ?_, fun j hj => ?_, rfl⟩,
      fun hp => execSeq_passes ht hx hb hal (fun _ _ => hp) hc hs⟩
    · simp [passed]
    · simp [passed, hj]
  case illegal =>
    have hs1 : begun s k i lvl 0 = s := begun_stays fun h => absurd h (by decide)
    rw [execSeq_acts ht hx hb hal (fun h => absurd h (by decide)), seqAct_eq]
    have hfin : ¬ ((0 : Nat) = 1 ∧ (!((s.core k).lvl lvl).active) = true) := fun h => absurd h.1 (by decide)
    simp only [hs1, checked_bad hc, hfin, if_false, ite_self]

/-- The results that END of level l makes: each stride register that is set gets its addition on all four tiles (R34). -/
def strideSums (k n due : Nat) (l : Level) : List Entry :=
  [0, 1, 2, 3].flatMap (fun d => ([(l.s0r, l.s0c), (l.s1r, l.s1c)].filter (fun p => p.1 ≠ 0)).map
    (fun p => { due := due, issue := n, slot := 7, unit := unitOf k d, eff := .stride p.1 p.2 }))

theorem filterMap_unless {α β : Type} (q : α → Prop) [DecidablePred q] (f : α → β) (l : List α) :
    l.filterMap (fun a => if q a then none else some (f a)) = (l.filter (fun a => ¬ q a)).map f := by
  induction l with
  | nil => rfl
  | cons a l ih => by_cases h : q a <;> simp [h, ih]

/-- The core after END of level lvl, whose index is below the count or not (R33). -/
def endedCore (c : CoreRec) (k lvl n due : Nat) (loops : Bool) : CoreRec :=
  let l := c.lvl lvl
  { c.setLvl lvl (if loops then { l with idx := l.idx + 1 } else { l with active := false }) with
    inflight := capArrived (strideSums k n due l) c.inflight ++ strideSums k n due l, retLvl := if loops then some lvl else none }

/-- A walker after END of level lvl (R196). -/
def endedWalk (w : Walker) (lvl : Nat) (loops : Bool) : Walker :=
  if loops then { w with idx := sset 0 w.idx lvl ((sget 0 w.idx lvl + 1) % ((sget 0#24 w.counts lvl).toNat + 1)), a := 0 } else { w with a := 0 }

/-- The index of a level is below its count: END goes back to BEG (R33). -/
def levelLoops (l : Level) : Bool := decide (l.idx < l.count.toNat)

theorem finishMark_eq (s : State) (k lvl fall n due : Nat) :
    let l := (s.core k).lvl lvl
    finishMark s k lvl fall n due = ((markWalkers s k (fun w => endedWalk w lvl (levelLoops l))).setCore k (endedCore (s.core k) k lvl n due (levelLoops l)),
      if levelLoops l then l.beg else fall) := by
  simp only [finishMark, filterMap_unless (fun p : Nat × DWord => p.1 = 0)]
  rfl

theorem finishMark_core (s : State) (k lvl fall n due j : Nat) : (finishMark s k lvl fall n due).1.core j
    = if j = k then endedCore (s.core k) k lvl n due (levelLoops ((s.core k).lvl lvl)) else s.core j := by
  rw [finishMark_eq, setCore_core, markWalkers_core]

theorem finishMark_getWalk (s : State) (k lvl fall n due : Nat) {d p : Nat} (hd : d < 4) (hp : p < 8) :
    ((finishMark s k lvl fall n due).1.tile (unitOf k d)).getWalk p
      = endedWalk ((s.tile (unitOf k d)).getWalk p) lvl (levelLoops ((s.core k).lvl lvl)) := by
  rw [finishMark_eq, setCore_tile, markWalkers_getWalk s k _ hd hp]

theorem endedCore_lvl (c : CoreRec) (k lvl n due m : Nat) (loops : Bool) : (endedCore c k lvl n due loops).lvl m
    = if m = lvl then (if loops then { c.lvl lvl with idx := (c.lvl lvl).idx + 1 } else { c.lvl lvl with active := false }) else c.lvl m :=
  setLvl_lvl ..

theorem endedWalk_a (w : Walker) (lvl : Nat) (loops : Bool) : (endedWalk w lvl loops).a = 0 := by
  unfold endedWalk
  split <;> rfl

/-- Settles O17: the core and the walkers after END, in the two cases of the index, and the landing of a stride addition. -/
theorem loopEnd : Obligations.LoopEnd := by
  unfold Obligations.LoopEnd
  refine ⟨fun s k lvl fall n due _ => ?_, fun s u sl r n due v => ?_⟩
  · intro l r sums
    have hcore : r.1.core k = endedCore (s.core k) k lvl n due (levelLoops l) := (finishMark_core ..).trans (if_pos rfl)
    have hpc : r.2 = if levelLoops l then l.beg else fall := congrArg Prod.snd (finishMark_eq ..)
    have hlvl : (r.1.core k).lvl lvl = if levelLoops l then { l with idx := l.idx + 1 } else { l with active := false } :=
      (congrArg (CoreRec.lvl · lvl) hcore).trans ((endedCore_lvl ..).trans (if_pos rfl))
    refine ⟨fun h => ?loops, fun h => ?leaves, fun m hm => ?_, fun j hj => (finishMark_core ..).trans (if_neg hj), rfl, rfl, rfl, by rw [hcore]; rfl,
      fun d p hd hp => ?walkers⟩
    case loops =>
      have hl : levelLoops l = true := decide_eq_true h
      rw [hpc, hlvl, hcore, hl]
      exact ⟨rfl, rfl, rfl⟩
    case leaves =>
      have hl : levelLoops l = false := decide_eq_false (Nat.not_lt.mpr h)
      rw [hpc, hlvl, hcore, hl]
      exact ⟨rfl, rfl, rfl⟩
    · rw [hcore, endedCore_lvl, if_neg hm]
    case walkers =>
      rw [finishMark_getWalk s k lvl fall n due hd hp]
      refine ⟨endedWalk_a .., fun h => ?_, fun h => ?_⟩
      · rw [show levelLoops ((s.core k).lvl lvl) = true from decide_eq_true h, endedWalk, if_pos rfl, sget_sset, if_pos rfl]
      · rw [show levelLoops ((s.core k).lvl lvl) = false from decide_eq_false (Nat.not_lt.mpr h), endedWalk, if_neg Bool.false_ne_true]
  · exact (landEntry_flags rfl).trans (if_pos ⟨rfl, rfl⟩)

end Sys2Proof.Proofs
end

section
/-! What an allocation of lines and a test of barrier objects leave of the state (O18). -/
namespace Sys2Proof.Proofs
open Laws
open Machine hiding Wf

/-- What an allocation of lines leaves of the state (R336): it changes read caches, Adit caches, home L2s and, where a line is written
back for room, memory and its notes (log 91). -/
structure CacheOnly (s t : State) : Prop where
  noted : NotedOnly s t
  rest : { t with hub := s.hub, mem := s.mem, l2 := s.l2, adit := s.adit, tiles := s.tiles, freeCount := s.freeCount } = s
  tile : ∀ u, t.tile u = { s.tile u with rc := (t.tile u).rc }

theorem cacheOnly_refl (s : State) : CacheOnly s s := ⟨notedOnly_refl s, rfl, fun _ => rfl⟩

theorem cacheOnly_trans {s t u : State} (h : CacheOnly s t) (h' : CacheOnly t u) : CacheOnly s u :=
  ⟨notedOnly_trans h.noted h'.noted,
    (congrArg (fun r : State => { r with hub := s.hub, mem := s.mem, l2 := s.l2, adit := s.adit, tiles := s.tiles, freeCount := s.freeCount }) h'.rest).trans h.rest,
    fun v => (h'.tile v).trans (congrArg (fun r : Tile => { r with rc := (u.tile v).rc }) (h.tile v))⟩

theorem cacheOnly_foldl {α : Type} {f : State → α → State} (h : ∀ s a, CacheOnly s (f s a)) (l : List α) (s : State) : CacheOnly s (l.foldl f s) := by
  induction l generalizing s with
  | nil => exact cacheOnly_refl s
  | cons a l ih => exact cacheOnly_trans (h s a) (ih (f s a))

theorem cacheOnly_of_l2Only {s t : State} (h : L2Only s t) : CacheOnly s t := by
  have ht : t.tiles = s.tiles := by
    have hrest := congrArg State.tiles h.rest
    exact hrest
  refine ⟨h.noted, congrArg (fun r : State => { r with adit := s.adit, tiles := s.tiles, freeCount := s.freeCount }) h.rest, fun u => ?_⟩
  have hu : t.tile u = s.tile u := by rw [State.tile, ht, State.tile]
  rw [hu]

theorem cacheOnly_setAdit (s : State) (key ln : Nat) (l : Line) : CacheOnly s (s.setAdit key ln l) := ⟨notedOnly_of_hub rfl, rfl, fun _ => rfl⟩

theorem cacheOnly_fresh (s : State) : CacheOnly s s.fresh := ⟨notedOnly_of_hub rfl, rfl, fun _ => rfl⟩

theorem cacheOnly_setRc (s : State) (u : Nat) (f : SMap Line → SMap Line) : CacheOnly s (s.modTile u (fun t => { t with rc := f t.rc })) := by
  refine ⟨notedOnly_of_hub rfl, rfl, fun v => ?_⟩
  rw [modTile_eq, setTile_tile]
  split
  · next h => rw [h]
  · rfl

theorem cacheOnly_roomRc (s : State) (u ln : Nat) : CacheOnly s (s.roomRc u ln) := by
  unfold State.roomRc
  extract_lets m
  split
  · exact cacheOnly_refl s
  · exact cacheOnly_trans (cacheOnly_setRc s u (fun m' => sdrop m' (victim s m))) (cacheOnly_fresh _)

theorem cacheOnly_roomAdit (s : State) (key ln : Nat) : CacheOnly s (s.roomAdit key ln) := by
  unfold State.roomAdit
  extract_lets m
  split
  · exact cacheOnly_refl s
  · exact cacheOnly_trans (cacheOnly_setAdit s key _ {}) (cacheOnly_fresh _)

theorem cacheOnly_roomL2 (s : State) (d ln : Nat) : CacheOnly s (s.roomL2 d ln) := by
  unfold State.roomL2
  extract_lets m col
  split
  · exact cacheOnly_refl s
  · split
    · exact cacheOnly_refl s
    · exact cacheOnly_trans (cacheOnly_of_l2Only (l2Only_flushL2 s d _)) (cacheOnly_fresh _)

theorem cacheOnly_fillLine (s : State) (u ln : Nat) (nc : Bool) : CacheOnly s (s.fillLine u ln nc) := by
  unfold State.fillLine State.fillLineA
  split
  · exact cacheOnly_refl s
  · extract_lets bs s1 key
    have h1 : CacheOnly s s1 := cacheOnly_trans (cacheOnly_roomRc s u ln) (cacheOnly_setRc _ u (fun m => sset {} m ln { bytes := bs }))
    split
    · split
      · exact h1
      · exact cacheOnly_trans h1 (cacheOnly_trans (cacheOnly_roomL2 s1 _ ln) (cacheOnly_of_l2Only (l2Only_setL2 _ _ ln _)))
    · split
      · exact h1
      · exact cacheOnly_trans h1 (cacheOnly_trans (cacheOnly_roomAdit s1 _ ln) (cacheOnly_setAdit _ _ ln _))

/-- A load that takes its bytes allocates their lines, and no more (R176, R336). -/
theorem cacheOnly_arriveLoad (s : State) (e : Entry) : CacheOnly s (arriveLoad s e).1 := by
  unfold arriveLoad
  split
  · exact cacheOnly_foldl (fun s l => cacheOnly_fillLine s _ l _) _ s
  · exact cacheOnly_refl s

theorem cacheOnly_core {s t : State} (h : CacheOnly s t) (k : Nat) : t.core k = s.core k := by
  have hrest := congrArg (State.core · k) h.rest
  exact hrest

theorem cacheOnly_ctxs {s t : State} (h : CacheOnly s t) : t.ctxs = s.ctxs := by
  have hrest := congrArg State.ctxs h.rest
  exact hrest

/-- What a test of barrier objects leaves of the state (R314, R423): it changes the objects of groups, and what the hub sends. -/
structure BarsOnly (s t : State) : Prop where
  rest : { t with hub := s.hub } = s
  group : ∀ n, { t.group n with barriers := (s.group n).barriers } = s.group n

theorem barsOnly_refl (s : State) : BarsOnly s s := ⟨rfl, fun _ => rfl⟩

theorem barsOnly_trans {s t u : State} (h : BarsOnly s t) (h' : BarsOnly t u) : BarsOnly s u :=
  ⟨(congrArg (fun r : State => { r with hub := s.hub }) h'.rest).trans h.rest,
    fun n => (congrArg (fun g : Group => { g with barriers := (s.group n).barriers }) (h'.group n)).trans (h.group n)⟩

theorem barsOnly_foldl {α : Type} {f : State → α → State} (h : ∀ s a, BarsOnly s (f s a)) (l : List α) (s : State) : BarsOnly s (l.foldl f s) := by
  induction l generalizing s with
  | nil => exact barsOnly_refl s
  | cons a l ih => exact barsOnly_trans (h s a) (ih (f s a))

theorem barsOnly_setBarrier (s : State) (kern key : Nat) (b : Barrier) : BarsOnly s (s.setGroup kern ((s.group kern).setBarrier key b)) := by
  refine ⟨rfl, fun n => ?_⟩
  rw [setGroup_group]
  split
  · next h =>
    subst h
    rfl
  · rfl

theorem barsOnly_podOut (s : State) (m : PodMsg) : BarsOnly s (s.podOut m) := by
  unfold State.podOut
  split
  · exact ⟨rfl, fun _ => rfl⟩
  · split
    · exact ⟨rfl, fun _ => rfl⟩
    · exact barsOnly_refl s

theorem barsOnly_podSend (s : State) (c : Bool) (rank bid : Nat) (p : Bool) : BarsOnly s (s.podSend c rank bid p) := by
  unfold State.podSend
  split
  · exact barsOnly_podOut s _
  · exact barsOnly_refl s

theorem barsOnly_podFinish (s : State) (kern key : Nat) : BarsOnly s (s.podFinish kern key) :=
  barsOnly_trans (barsOnly_setBarrier s kern key _) (barsOnly_foldl (fun s r => barsOnly_podSend s true r _ _) _ _)

theorem barsOnly_podProgress (s : State) (kern key : Nat) : BarsOnly s (s.podProgress kern key) := by
  unfold State.podProgress
  extract_lets g b inJob share s1
  have h1 : BarsOnly s s1 := barsOnly_setBarrier s kern key _
  split
  · exact barsOnly_refl s
  · split
    · exact barsOnly_trans h1 (barsOnly_podFinish s1 kern key)
    · exact barsOnly_trans h1 (barsOnly_podSend s1 false _ _ _)

theorem barsOnly_barTest (s : State) (kern key : Nat) : BarsOnly s (s.barTest kern key) := by
  unfold State.barTest
  extract_lets g
  split
  · exact barsOnly_podProgress s kern key
  · exact barsOnly_setBarrier s kern key _

theorem barsOnly_barMod (s : State) (kern key : Nat) (f : Barrier → Barrier) : BarsOnly s (s.barMod kern key f) :=
  barsOnly_trans (barsOnly_setBarrier s kern key _) (barsOnly_barTest _ kern key)

theorem barsOnly_retestBarriers (s : State) (kern k : Nat) : BarsOnly s (retestBarriers s kern k) := by
  refine barsOnly_foldl (fun s p => ?_) _ s
  split
  · exact barsOnly_barMod s kern p.1 _
  · exact barsOnly_refl s

end Sys2Proof.Proofs
end

section
/-! Drains, plane loads, landings and arrivals (O18). -/
namespace Sys2Proof.Proofs
open Laws
open Machine hiding Wf

@[simp] theorem setActive_active (c : CoreRec) (p : Plane) : (c.setActive p).active = p := by
  cases h : c.activeIs1 <;> simp [CoreRec.setActive, CoreRec.active, h]

@[simp] theorem setShadow_shadow (c : CoreRec) (p : Plane) : (c.setShadow p).shadow = p := by
  cases h : c.activeIs1 <;> simp [CoreRec.setShadow, CoreRec.shadow, h]

@[simp] theorem setShadow_active (c : CoreRec) (p : Plane) : (c.setShadow p).active = c.active := by
  cases h : c.activeIs1 <;> simp [CoreRec.setShadow, CoreRec.active, h]

theorem clearLevels_lvl (c : CoreRec) (l : Nat) : ((clearLevels c).lvl l).active = false :=
  congrArg Level.active (sget_map_keys (d := ({} : Level)) (k := l) (fun _ v => { v with active := false }) (fun _ => rfl) rfl c.lvls)

/-- A core that nothing freezes, in a package that does not stand still, with a hold whose drain is done (R12, R156). -/
structure Drained (s s1 : State) (k : Nat) (h : Hold) : Prop where
  hold : (s.core k).hold = h
  thawed : (s.core k).frozen = false
  runs : s.hub.stalled = false
  lands : drainCore s k = some s1

theorem haltDrainDone_halts {s s1 : State} {k : Nat} (h : Drained s s1 k .haltDrain) :
    exec (.haltDrainDone k) s = .next (s1.setCore k { s1.core k with hold := .none, st := .halted, haltedFrom := some .running }) := by
  show execHaltDrainDone k s = _
  simp [execHaltDrainDone, h.hold, h.thawed, h.runs, h.lands]

theorem endDrainDone_retires {s s1 : State} {k : Nat} (h : Drained s s1 k .endDrain) (hn : nodesIdle s1 k = true) :
    exec (.endDrainDone k) s = .next (retireCore s1 k) := by
  show execEndDrainDone k s = _
  simp [execEndDrainDone, h.hold, h.thawed, h.runs, h.lands, hn]

/-- The core as END empties it (R142). -/
def emptiedCore (c : CoreRec) : CoreRec :=
  clearLevels { c.setActive {} with st := .idle, hold := .none, issue := none, retired := true, benchFrom := none, benchOwed := [],
                                    handler := none, retLvl := none }

/-- The core that END has retired: its deque is with the group (R184). -/
def retiredCore (c : CoreRec) : CoreRec := { emptiedCore c with deque := [], spTail := 0, spHead := 0 }

/-- What the group keeps of a core that END retires (R184). -/
def leftGroup (g : Machine.Group) (k : Nat) (c : CoreRec) : Machine.Group :=
  { g with left := if g.left.contains k then g.left else g.left ++ [k]
           deques := sset {} g.deques k { hw := c.deque, spTail := c.spTail, spHead := c.spHead } }

/-- The state in which the barrier objects of a core that END retires are tested (R314). -/
def leftState (s : State) (k : Nat) : State :=
  ((s.setCore k (emptiedCore (s.core k))).modCore k (fun c => { c with deque := [], spTail := 0, spHead := 0 })).setGroup (s.core k).group
    (leftGroup (s.group (s.core k).group) k (s.core k))

theorem retireCore_eq (s : State) (k : Nat) : retireCore s k = retestBarriers (leftState s k) (s.core k).group k := rfl

theorem leftState_core (s : State) (k j : Nat) : (leftState s k).core j = if j = k then retiredCore (s.core k) else s.core j := by
  by_cases h : j = k <;> simp [leftState, retiredCore, h]

theorem leftState_group (s : State) (k : Nat) :
    (leftState s k).group (s.core k).group = leftGroup (s.group (s.core k).group) k (s.core k) := by
  simp [leftState]

theorem barsOnly_core {s t : State} (h : BarsOnly s t) (k : Nat) : t.core k = s.core k := by
  have hrest := congrArg (State.core · k) h.rest
  exact hrest

theorem retireCore_core (s : State) (k j : Nat) : (retireCore s k).core j = if j = k then retiredCore (s.core k) else s.core j := by
  rw [retireCore_eq, barsOnly_core (barsOnly_retestBarriers _ _ k), leftState_core]

theorem retireCore_tiles (s : State) (k : Nat) : (retireCore s k).tiles = s.tiles := by
  have hrest := congrArg State.tiles (barsOnly_retestBarriers (leftState s k) (s.core k).group k).rest
  exact hrest

theorem retireCore_mem (s : State) (k : Nat) : (retireCore s k).mem = s.mem := by
  have hrest := congrArg State.mem (barsOnly_retestBarriers (leftState s k) (s.core k).group k).rest
  exact hrest

/-- The group counts the core out and keeps its deque. -/
theorem retireCore_group (s : State) (k : Nat) : let g := (retireCore s k).group (s.core k).group
    k ∈ g.left ∧ sget {} g.deques k = { hw := (s.core k).deque, spTail := (s.core k).spTail, spHead := (s.core k).spHead } := by
  have hg := (barsOnly_retestBarriers (leftState s k) (s.core k).group k).group (s.core k).group
  rw [leftState_group] at hg
  have hl := congrArg Group.left hg
  have hd := congrArg Group.deques hg
  dsimp only at hl hd ⊢
  rw [retireCore_eq, hl, hd]
  refine ⟨?_, (sget_sset ..).trans (if_pos rfl)⟩
  unfold leftGroup
  dsimp only
  split
  · next h => exact List.contains_iff_mem.mp h
  · exact List.mem_append_right _ (List.mem_singleton.mpr rfl)

theorem retiredCore_active (c : CoreRec) : (retiredCore c).active = {} := by
  show (c.setActive {}).active = {}
  simp

theorem setShadow_frame (c : CoreRec) (p : Plane) : { c.setShadow p with plane0 := c.plane0, plane1 := c.plane1 } = c := by
  unfold CoreRec.setShadow
  split <;> rfl

/-- The other plane becomes the active one. -/
theorem flip_active (c : CoreRec) : CoreRec.active { c with activeIs1 := !c.activeIs1 } = c.shadow := by
  unfold CoreRec.active CoreRec.shadow
  cases c.activeIs1 <;> rfl

/-- The plane that a section enters when the one before it becomes active (R143). -/
def nextSection (c : CoreRec) (sec : Nat) : Plane :=
  if sec < c.secs.length then { st := .loading, sec := sec, kern := bitsOf c.kernid.toNat 31 0, code := nth [] c.secs sec } else {}

theorem loadSection_eq (c : CoreRec) (sec : Nat) : loadSection c sec = c.setShadow (nextSection c sec) := by
  unfold loadSection nextSection
  split <;> rfl

/-- The core that PLSW lets run on in the section that was ready (R143). -/
def turnedCore (c : CoreRec) : CoreRec :=
  let c1 := c.setShadow { c.shadow with st := .active }
  { clearLevels { c1 with activeIs1 := !c1.activeIs1 } with hold := .none, st := .running, pc := 0, retLvl := none }

theorem turnedCore_active (c : CoreRec) : (turnedCore c).active = { c.shadow with st := .active } := by
  have h : (turnedCore c).active = (c.setShadow { c.shadow with st := .active }).shadow := flip_active _
  rw [h, setShadow_shadow]

theorem turnedCore_secs (c : CoreRec) : (turnedCore c).secs = c.secs := by
  have h := congrArg CoreRec.secs (setShadow_frame c { c.shadow with st := .active })
  exact h

/-- The core that PLSW has moved to its next section, with the section after it on its way. -/
def swappedCore (c : CoreRec) : CoreRec := loadSection (turnedCore c) ((turnedCore c).active.sec + 1)

theorem swappedCore_frame (c : CoreRec) : { swappedCore c with plane0 := (turnedCore c).plane0, plane1 := (turnedCore c).plane1 } = turnedCore c := by
  rw [swappedCore, loadSection_eq]
  exact setShadow_frame ..

theorem swappedCore_active (c : CoreRec) : (swappedCore c).active = { c.shadow with st := .active } := by
  rw [swappedCore, loadSection_eq, setShadow_active, turnedCore_active]

theorem swappedCore_shadow (c : CoreRec) : (swappedCore c).shadow = nextSection (turnedCore c) (c.shadow.sec + 1) := by
  rw [swappedCore, loadSection_eq, setShadow_shadow, turnedCore_active]

theorem swappedCore_runs (c : CoreRec) : (swappedCore c).st = .running ∧ (swappedCore c).pc = 0 ∧ (swappedCore c).hold = .none
    ∧ ∀ l, ((swappedCore c).lvl l).active = false := by
  have h := swappedCore_frame c
  have hst := congrArg CoreRec.st h
  have hpc := congrArg CoreRec.pc h
  have hhold := congrArg CoreRec.hold h
  have hlvl := fun l => congrArg (fun c : CoreRec => (c.lvl l).active) h
  exact ⟨hst, hpc, hhold, fun l => (hlvl l).trans (clearLevels_lvl _ l)⟩

theorem planeSwap_swaps {s s1 : State} {k : Nat} (h : Drained s s1 k .plswDrain) (hr : (s.core k).shadow.st = .shadowReady)
    (hn : (s.core k).shadow.sec = (s.core k).active.sec + 1) : exec (.planeSwap k) s = .next (s1.setCore k (swappedCore (s1.core k))) := by
  show execPlaneSwap k s = _
  simp [execPlaneSwap, h.hold, h.thawed, h.runs, h.lands, hr, hn]
  rfl

/-- Where nothing outstanding can arrive, nothing does. -/
theorem arriveAll_stuck {s : State} {k : Nat} (h : ∀ e ∈ (s.core k).inflight, canArrive s e = false) : arriveAll s k = s := by
  unfold arriveAll
  generalize (s.core k).inflight = es at h
  induction es with
  | nil => rfl
  | cons e es ih =>
    have h1 : arriveOne s k e = s := by simp [arriveOne, h e (by simp)]
    rw [List.foldl_cons, h1]
    exact ih fun e he => h e (List.mem_cons_of_mem _ he)

/-- A core with no interlocked result outstanding has none to let arrive. -/
theorem arriveAll_quiet {s : State} {k : Nat} (h : ∀ e ∈ (s.core k).inflight, e.pend = false) : arriveAll s k = s :=
  arriveAll_stuck fun e he => by simp [canArrive, h e he]

theorem pendingLeft_quiet {s : State} {k : Nat} (h : ∀ e ∈ (s.core k).inflight, e.pend = false) : pendingLeft s k = false :=
  List.any_eq_false.mpr fun e he => by simp [h e he]

theorem drainCore_quiet {s : State} {k : Nat} (h : ∀ e ∈ (s.core k).inflight, e.pend = false) (hl : drainsLate s k = false) :
    drainCore s k = some (landAll s k) := by
  unfold drainCore
  simp [arriveAll_quiet h, pendingLeft_quiet h, hl]

/-- The value of a load: its bytes, sign-extended or not (R175). -/
def loadValue (s : State) (u pa size : Nat) (sx nc : Bool) : DWord :=
  if sx then wrap64 (sextNat (leNat (s.peek u pa size nc)) (8 * size)) else BitVec.ofNat 64 (leNat (s.peek u pa size nc))

/-- The core's oldest result, a pending load, arrives (R176). -/
theorem arriveOldest_load {s : State} {k r pa size : Nat} {sx nc : Bool} {e : Entry} {rest : List Entry}
    (hfl : (s.core k).inflight = e :: rest) (hp : e.pend = true) (he : e.eff = .load r pa size sx nc) :
    arriveOldest s k = (arriveLoad s e).1.modCore k (fun c => { c with inflight := c.inflight.map (fun x =>
      if x = e then { e with pend := false, eff := .xreg r (loadValue s e.unit pa size sx nc) } else x) }) := by
  have hcan : canArrive s e = true := by simp [canArrive, hp, he]
  simp only [arriveOldest, hfl, List.find?_cons, hcan, arriveOne, List.contains_cons, beq_self_eq_true, Bool.true_or, Bool.and_self, Bool.not_true,
    Bool.false_eq_true, if_false, he, arriveLoad]
  rfl

/-- Settles O18, event by event. -/
theorem coreDrains : Obligations.CoreDrains := by
  unfold Obligations.CoreDrains
  refine ⟨fun s s1 k hf hst hd => ⟨fun hh => haltDrainDone_halts ⟨hh, hf, hst, hd⟩, fun hh hn => ?_, fun hh hr hn => ?_⟩,
    fun s k hp hl => ?_, fun s k hsh hst hlow => ?_, fun s k hx hh hf hst hl => ?_, fun s k r pa size sx nc e rest hfl hp he hst => ?_⟩
  · refine ⟨_, endDrainDone_retires ⟨hh, hf, hst, hd⟩ hn, ?_⟩
    have hk := retireCore_core s1 k k
    rw [if_pos rfl] at hk
    rw [hk]
    exact ⟨rfl, rfl, retiredCore_active _, rfl, rfl, clearLevels_lvl _, fun j hj => (retireCore_core s1 k j).trans (if_neg hj), retireCore_tiles s1 k,
      retireCore_mem s1 k, (retireCore_group s1 k).1, rfl, (retireCore_group s1 k).2⟩
  · refine ⟨_, planeSwap_swaps ⟨hh, hf, hst, hd⟩ hr hn, ?_⟩
    obtain ⟨hrun, hpc, hhold, hlvl⟩ := swappedCore_runs (s1.core k)
    rw [setCore_core, if_pos rfl]
    refine ⟨hrun, hpc, hhold, swappedCore_active _, hlvl, ⟨fun h => ?_, fun h => ?_⟩, fun j hj => by simp [hj], rfl⟩
    · rw [swappedCore_shadow, nextSection, turnedCore_secs, if_pos h]
      exact ⟨rfl, rfl, rfl⟩
    · rw [swappedCore_shadow, nextSection, turnedCore_secs, if_neg (Nat.not_lt.mpr h)]
  · exact drainCore_quiet hp hl
  · have hno : (upTo (k / 4)).any (fun q => decide ((s.core (4 * q + k % 4)).shadow.st = .loading)) = false :=
      List.any_eq_false.mpr fun q hq => by simpa using hlow q (List.mem_range.mp hq)
    show execPlaneLoadDone k s = _
    simp [execPlaneLoadDone, hsh, hno, hst]
  · show execResultLanding k s = _
    simp [execResultLanding, hx, hh, hf, hst, hl]
  · have hc := cacheOnly_arriveLoad s e
    have ht := arriveOldest_load hfl hp he
    have hcore : (arriveOldest s k).core k = { s.core k with inflight := (e :: rest).map (fun x =>
        if x = e then { e with pend := false, eff := .xreg r (loadValue s e.unit pa size sx nc) } else x) } := by
      simp [ht, cacheOnly_core hc, hfl]
    refine ⟨arriveOldest s k, ?_, ?_⟩
    · show Host.Outcome.next (s.unlessStalled (rebase (arriveOldest s k) k)) = _
      simp only [State.unlessStalled, hst, Bool.false_eq_true, if_false, rebase, hcore]
    · refine ⟨?_, ?_, fun j hj => ?_, fun u => ?_, hcore⟩
      · rw [ht]
        exact notedOnly_trans hc.noted (notedOnly_of_hub rfl)
      · rw [ht]
        exact (setCore_ctxs ..).trans (cacheOnly_ctxs hc)
      · simp [ht, hj, cacheOnly_core hc]
      · have hu := hc.tile u
        rw [ht, modCore_eq, setCore_tile]
        have hx := congrArg Tile.x hu
        have hv := congrArg Tile.v hu
        exact ⟨hx, hv⟩

end Sys2Proof.Proofs
end

section
/-! Taking a trap (O19): what stands before it, the registers it writes, and where it leads. -/
namespace Sys2Proof.Proofs
open Laws
open Machine hiding Wf

theorem sput_sput {β : Type} (m : SMap β) (k : Nat) (a b : β) : sput (sput m k a) k b = sput m k b := by
  induction m with
  | nil => simp [sput]
  | cons e m ih =>
    obtain ⟨j, w⟩ := e
    by_cases hj : j = k
    · simp [sput, hj]
    · by_cases hk : k < j
      · simp [sput, hj, hk]
      · simp [sput, hj, hk, ih]

theorem sdrop_sput {β : Type} (m : SMap β) (k : Nat) (a : β) : sdrop (sput m k a) k = sdrop m k := by
  unfold sdrop
  induction m with
  | nil => simp [sput]
  | cons e m ih =>
    obtain ⟨j, w⟩ := e
    by_cases hj : j = k
    · simp [sput, hj]
    · by_cases hk : k < j
      · simp [sput, hj, hk]
      · rw [sput, if_neg hj, if_neg hk, List.filter_cons, List.filter_cons, ih]

/-- The later of two writes of a place stands, where the earlier one does not empty it. -/
theorem sset_sset {β : Type} [DecidableEq β] {d : β} (m : SMap β) (k : Nat) {a : β} (b : β) (ha : a ≠ d) :
    sset d (sset d m k a) k b = sset d m k b := by
  simp only [sset, ha, if_false, sput_sput, sdrop_sput]

theorem setCore_setCore (s : State) (k : Nat) {a : CoreRec} (b : CoreRec) (ha : a ≠ {}) : (s.setCore k a).setCore k b = s.setCore k b :=
  congrArg (fun m => { s with cores := m }) (sset_sset s.cores k b ha)

theorem bitOf_eq_testBit (n i : Nat) : bitOf n i = n.testBit i := (Nat.testBit_eq_decide_div_mod_eq).symm

theorem bitOf_toNat {n : Nat} (v : BitVec n) (i : Nat) : bitOf v.toNat i = v.getLsbD i := bitOf_eq_testBit ..

/-- No bundle is in issue: nothing is dropped. -/
theorem dropIssue_none {s : State} {k : Nat} (h : (s.core k).issue = none) : dropIssue s k = s := by
  unfold dropIssue
  simp only [h]

theorem dropIssue_core {s : State} {k : Nat} {i : Issue} (h : (s.core k).issue = some i) :
    (dropIssue s k).core k = { s.core k with issue := none, lvls := i.lvls0 } := by
  unfold dropIssue
  simp only [h]
  simp

theorem dropIssue_tile {s : State} {k d : Nat} {i : Issue} (h : (s.core k).issue = some i) (hd : d < 4) :
    (dropIssue s k).tile (unitOf k d) = { s.tile (unitOf k d) with walk := nth (s.tile (unitOf k d)).walk i.walks0 d } := by
  unfold dropIssue
  simp only [h]
  exact foldl_dies_tile s k (fun d t => { t with walk := nth t.walk i.walks0 d }) hd

/-- A trap acts on the state in which its bundle has been dropped (R47). -/
theorem takeTrap_dropIssue (s : State) (k cause sl : Nat) (rs : List Raiser) : takeTrap s k cause sl rs = takeTrap (dropIssue s k) k cause sl rs := by
  have h : dropIssue (dropIssue s k) k = dropIssue s k := by
    cases hx : (s.core k).issue with
    | none => rw [dropIssue_none hx, dropIssue_none hx]
    | some i => exact dropIssue_none (by rw [dropIssue_core hx])
  unfold takeTrap
  rw [h]

/-- What the dies of a mask raise, each with the same REASON and ARG. -/
def raisersOf (dmask reason arg : Nat) : List Raiser := (diesOf dmask).map (fun d => ⟨d, reason, arg⟩)

theorem diesOf_eq (m : Nat) : diesOf m = (List.range 4).filter (fun d => m.testBit d) := by
  simp only [diesOf, upTo, bitOf_eq_testBit]

theorem maskOfDies_raisersOf {dmask reason arg : Nat} (h : dmask < 16) : maskOfDies ((raisersOf dmask reason arg).map (·.die)) = dmask := by
  have hm : (raisersOf dmask reason arg).map (·.die) = diesOf dmask := by
    rw [raisersOf, List.map_map]
    exact List.map_id _
  rw [hm]
  exact (by decide : ∀ m, m < 16 → maskOfDies (diesOf m) = m) dmask h

/-- A mask of dies that is not empty has a first raiser. -/
theorem raisersOf_headD {dmask reason arg : Nat} (h0 : dmask ≠ 0) (h : dmask < 16) :
    ((raisersOf dmask reason arg).headD ⟨0, 0, 0⟩).reason = reason ∧ ((raisersOf dmask reason arg).headD ⟨0, 0, 0⟩).arg = arg := by
  have hne : diesOf dmask ≠ [] := (by decide : ∀ m, m < 16 → m ≠ 0 → diesOf m ≠ []) dmask h h0
  obtain ⟨d, ds, hd⟩ := List.exists_cons_of_ne_nil hne
  rw [raisersOf, hd]
  exact ⟨rfl, rfl⟩

/-- The fault records of a walk fault: one per die (R333). -/
theorem records_raisersOf (k slot org now dmask reason arg : Nat) :
    ((raisersOf dmask reason arg).filter (fun r => bitOf r.reason 13)).map (raiserRecord k slot org now)
      = if reason.testBit 13 then ((List.range 4).filter (fun d => dmask.testBit d)).map (fun d =>
          raiserRecord k slot org now { die := d, reason := reason, arg := arg }) else [] := by
  rw [raisersOf, diesOf_eq, List.filter_map]
  simp only [Function.comp_def, bitOf_eq_testBit]
  split
  · next h => simp only [h, List.filter_true, List.map_map, Function.comp_def]
  · next h => simp [h]

/-- The trap registers that the dies of a mask leave (R341). -/
def trapRegs (s : State) (k cause reason arg dmask slot : Nat) : CoreRec :=
  { s.core k with cause := BitVec.ofNat 8 cause, reason := BitVec.ofNat 8 reason, trapPc := BitVec.ofNat 12 (s.core k).pc,
                  trapInfo := BitVec.ofNat 64 (arg % 2 ^ 56 * 256 + dmask * 16 + slot), trapOrg := BitVec.ofNat 64 (trapOrgOf s k (s.core k).pc) }

theorem writeTrapRegs_raisersOf {s : State} {k cause reason arg dmask slot : Nat} (h0 : dmask ≠ 0) (h : dmask < 16) :
    writeTrapRegs s k cause slot (raisersOf dmask reason arg) = s.setCore k (trapRegs s k cause reason arg dmask slot) := by
  obtain ⟨hr, ha⟩ := raisersOf_headD (reason := reason) (arg := arg) h0 h
  unfold writeTrapRegs trapRegs
  simp only [hr, ha, maskOfDies_raisersOf h]

/-- A cause is 1 to 14, so the trap registers are not those of reset. -/
theorem trapRegs_ne {s : State} {k cause reason arg dmask slot : Nat} (h1 : 1 ≤ cause) (h14 : cause ≤ 14) :
    trapRegs s k cause reason arg dmask slot ≠ {} := by
  intro h
  have hc := congrArg (fun c : CoreRec => c.cause.toNat) h
  have hcause : cause % 256 = 0 := by simpa [trapRegs] using hc
  omega

/-- A core enters the handler of a cause (R344). -/
def enteredCore (cause : Nat) (c : CoreRec) : CoreRec :=
  { c with st := .trapped, handler := some (c.entryOf cause), benchFrom := none, benchOwed := [], pendTrap := none, hold := .none }

/-- The trap registers are written, and the core is in its handler; nothing else changes (R341, R344). -/
theorem enters_spec (s : State) (k cause reason arg dmask slot : Nat) :
    let t := (s.setCore k (trapRegs s k cause reason arg dmask slot)).modCore k (enteredCore cause)
    (t.core k).st = .trapped ∧ (t.core k).handler = some ((s.core k).entryOf cause)
      ∧ (t.core k).cause = BitVec.ofNat 8 cause ∧ (t.core k).reason = BitVec.ofNat 8 reason ∧ (t.core k).trapPc = BitVec.ofNat 12 (s.core k).pc
      ∧ (t.core k).trapInfo = BitVec.ofNat 64 (arg % 2 ^ 56 * 256 + dmask * 16 + slot)
      ∧ (t.core k).trapOrg = BitVec.ofNat 64 (trapOrgOf s k (s.core k).pc)
      ∧ (t.core k).lvls = (s.core k).lvls ∧ (t.core k).pc = (s.core k).pc ∧ (t.core k).bn = (s.core k).bn
      ∧ (∀ j, j ≠ k → t.core j = s.core j) ∧ { t with cores := s.cores } = s := by
  intro t
  have hk : t.core k = enteredCore cause (trapRegs s k cause reason arg dmask slot) := by simp [t]
  rw [hk]
  exact ⟨rfl, rfl, rfl, rfl, rfl, rfl, rfl, rfl, rfl, rfl, fun j hj => by simp [t, hj], rfl⟩

/-- A core at a trap point outside a handler: no bundle is in issue, and nothing is outstanding or held back (R47, R352). -/
structure TrapPoint (s : State) (k : Nat) : Prop where
  issue : (s.core k).issue = none
  handler : (s.core k).handler = none
  quiet : ∀ e ∈ (s.core k).inflight, e.pend = false
  lands : landsLate s k (s.core k).bn = false

/-- A core whose PAGE fault waits for its service (R101, R334). -/
def faultedCore (s : State) (slot reason arg dmask : Nat) (c : CoreRec) : CoreRec :=
  { c with st := .stalled, pendTrap := none, benchFrom := none, benchOwed := [],
           hold := .page (slot % 8) s.ptime ((s.ctx c.cid).split.getLsbD 0)
             (((List.range 4).filter (fun d => dmask.testBit d)).map (fun d => (d, reason, arg))) }

/-- A PAGE fault writes the trap registers and holds the core (R101). -/
theorem takeTrap_faults {s : State} {k reason arg dmask slot : Nat} (hp : TrapPoint s k) (h0 : dmask ≠ 0) (h : dmask < 16) :
    takeTrap s k cPAGE slot (raisersOf dmask reason arg)
      = s.setCore k (faultedCore s slot reason arg dmask (trapRegs s k cPAGE reason arg dmask slot)) := by
  have hdrop : dropIssue s k = s := dropIssue_none hp.issue
  have hmap : (raisersOf dmask reason arg).map (fun r => (r.die, r.reason, r.arg))
      = ((List.range 4).filter (fun d => dmask.testBit d)).map (fun d => (d, reason, arg)) := by
    rw [raisersOf, List.map_map, diesOf_eq]
    rfl
  rw [takeTrap_page (a := s) (by rw [hdrop, hp.handler]) (by rw [hdrop, arriveAll_quiet hp.quiet]) (pendingLeft_quiet hp.quiet) (by rw [hdrop, hp.lands]),
    hdrop, writeTrapRegs_raisersOf h0 h, modCore_eq, setCore_core, if_pos rfl, setCore_setCore _ _ _ (trapRegs_ne (by decide) (by decide)), bitOf_toNat, hmap]
  rfl

/-- The trap of a BREAK that an attached invasive debugger takes (R360). -/
def debuggerTakes (s : State) (k cause slot : Nat) : Prop :=
  cause = cBREAK ∧ !(bitOf slot 3) ∧ s.hub.dstate = 2 ∧ s.hub.attach ∧ s.hub.dctx = (s.core k).cid

/-- No attached invasive debugger takes the cause. -/
theorem not_debuggerTakes {s : State} {k cause slot : Nat} (h : ¬(cause = 12 ∧ s.hub.dstate = 2 ∧ s.hub.attach = true)) :
    ¬ debuggerTakes s k cause slot :=
  fun ⟨hcause, _, hstate, hattach, _⟩ => h ⟨hcause, hstate, hattach⟩

section point
variable {s : State} {k cause slot : Nat} {rs : List Raiser} (hp : TrapPoint s k) (hpage : cause ≠ cPAGE) (hdbg : ¬ debuggerTakes s k cause slot)
include hp hpage hdbg

/-- A cause without a handler abandons the kernel with the trap registers written (R340, R343). -/
theorem takeTrap_abandons (he : (s.core k).entryOf cause < 16) :
    takeTrap s k cause slot rs = abandon (writeTrapRegs s k cause slot rs) k cause
      ((rs.filter (fun r => bitOf r.reason 13)).map (raiserRecord k (slot % 8) (trapOrgOf s k (s.core k).pc) s.ptime)) := by
  unfold debuggerTakes at hdbg
  unfold takeTrap
  simp only [dropIssue_none hp.issue, hp.handler, arriveAll_quiet hp.quiet, pendingLeft_quiet hp.quiet, hp.lands, hpage, hdbg, he, Option.isSome_none,
    Bool.false_eq_true, Bool.or_self, if_false, if_true]

/-- A cause with a handler lands what is due and enters it (R344). -/
theorem takeTrap_enters (he : 16 ≤ (s.core k).entryOf cause) :
    takeTrap s k cause slot rs = (writeTrapRegs (landUpTo s k (s.core k).bn) k cause slot rs).modCore k (enteredCore cause) := by
  unfold debuggerTakes at hdbg
  unfold takeTrap
  simp only [dropIssue_none hp.issue, hp.handler, arriveAll_quiet hp.quiet, pendingLeft_quiet hp.quiet, hp.lands, hpage, hdbg, Nat.not_lt.mpr he,
    Option.isSome_none, Bool.false_eq_true, Bool.or_self, if_false]
  rfl

end point

/-- In handler mode the trap abandons the kernel at once, and writes no trap register (R346). -/
theorem takeTrap_inHandler {s : State} {k cause slot : Nat} {rs : List Raiser} (hx : (s.core k).issue = none) (hh : (s.core k).handler.isSome = true) :
    takeTrap s k cause slot rs = abandon s k cause
      ((rs.filter (fun r => bitOf r.reason 13)).map (raiserRecord k (slot % 8) (trapOrgOf s k (s.core k).pc) s.ptime)) := by
  unfold takeTrap
  simp only [dropIssue_none hx, hh, if_true]

/-- A trap waits for a result that cannot arrive, or that may not land yet (R352, R419). -/
theorem takeTrap_waits {s : State} {k cause slot : Nat} {rs : List Raiser} (hx : (s.core k).issue = none) (hh : (s.core k).handler = none)
    (ha : ∀ e ∈ (s.core k).inflight, canArrive s e = false) (hl : pendingLeft s k = true ∨ landsLate s k (s.core k).bn = true) :
    takeTrap s k cause slot rs = s := by
  have hw : (pendingLeft s k || landsLate s k (s.core k).bn) = true := by simpa using hl
  unfold takeTrap
  simp only [dropIssue_none hx, hh, arriveAll_stuck ha, hw, Option.isSome_none, Bool.false_eq_true, if_false, if_true]

theorem execTrapEntry_takes {s : State} {k cause reason arg dmask slot : Nat} (hk : k < 64) (h1 : 1 ≤ cause) (h14 : cause ≤ 14)
    (hst : s.hub.stalled = false) :
    exec (.trapEntry k cause reason arg dmask slot) s = .next (takeTrap s k cause slot (raisersOf dmask reason arg)) := by
  have hn : ¬ (64 ≤ k ∨ cause = 0 ∨ 14 < cause ∨ s.hub.stalled = true) := by
    simp only [hst, Bool.false_eq_true, or_false]
    omega
  exact if_neg hn

/-- Settles O19: a trap from its point, by its cause and its handler. -/
theorem trapEntry : Obligations.TrapEntry := by
  unfold Obligations.TrapEntry
  refine ⟨fun s k cause reason arg dmask slot hk h1 h14 h8 hst hx hh hq hdb he hd0 hd hs hl => ?enters,
    fun s k cause reason arg dmask slot hk h1 h14 hst hx hd0 hd hs hq hl => ⟨fun hc hh => ?page, fun h8 hh hdb he => ?abandons, fun hh => ?inHandler⟩,
    fun s k cause sl rs i hx => ⟨takeTrap_dropIssue s k cause sl rs, dropIssue_core hx, dropIssue_mem s k, fun d hd => dropIssue_tile hx hd⟩,
    fun s k cause reason arg dmask slot hst => if_pos (.inr (.inr (.inr hst))), fun s k cause sl rs e hx hh he hw ha => ?waits⟩
  case enters =>
    intro s1 hpc
    have hp : TrapPoint s k := ⟨hx, hh, hq, hl⟩
    refine ⟨_, execTrapEntry_takes hk h1 h14 hst, ?_⟩
    rw [takeTrap_enters hp h8 (not_debuggerTakes hdb) he, writeTrapRegs_raisersOf (fun h => hd0 (by rw [h])) hd, ← hpc]
    exact enters_spec s1 k cause reason arg dmask slot
  case page =>
    subst hc
    exact (execTrapEntry_takes hk h1 h14 hst).trans (congrArg _ (takeTrap_faults ⟨hx, hh, hq, hl⟩ hd0 hd))
  case abandons =>
    rw [execTrapEntry_takes hk h1 h14 hst, takeTrap_abandons ⟨hx, hh, hq, hl⟩ h8 (not_debuggerTakes hdb) he, writeTrapRegs_raisersOf hd0 hd, records_raisersOf]
    rfl
  case inHandler =>
    rw [execTrapEntry_takes hk h1 h14 hst, takeTrap_inHandler hx hh, records_raisersOf]
  case waits =>
    refine takeTrap_waits hx hh ha (hw.imp (fun h => List.any_eq_true.mpr ⟨e, he, h⟩) fun h => List.any_eq_true.mpr ⟨e, he, ?_⟩)
    simp [h]

end Sys2Proof.Proofs
end

section
/-! The scalar instructions on a Colt (O10): what each operation answers, the bytes of a store, the registers a Colt has, and the words it has not. -/
namespace Sys2Proof.Proofs
open Laws
open Machine hiding Wf

section operation
variable {c : OpCtx} {x y : Nat} {v w : DWord} (hx : rx c x = .ok v)
include hx

theorem opInt_ok {d lat : Nat} {f : DWord → DWord → DWord} (hy : rx c y = .ok w) :
    opInt d x y lat f c = .ok [{ lat := lat, eff := .xreg d (f v w) }] := by
  simp only [opInt, hx, hy, bind, Except.bind, xPost]

theorem opAddi_ok {d m : Nat} : opAddi d x m c = .ok [{ lat := 1, eff := .xreg d (v + BitVec.ofInt 64 (sextNat m 14)) }] := by
  simp only [opAddi, hx, bind, Except.bind, xPost, wrap64]

theorem opSel_ok {d p : Nat} {q : Bool} (hy : rx c y = .ok w) (hp : rp c p = .ok q) :
    opSel d x y p c = .ok [{ lat := 1, eff := .xreg d (if q then v else w) }] := by
  simp only [opSel, hx, hy, hp, bind, Except.bind, xPost]

theorem opScmp_ok {d cc : Nat} (hy : rx c y = .ok w) : opScmp d x y cc c = .ok [{ lat := 1, eff := .pred d (scmp cc v w) }] := by
  simp only [opScmp, hx, hy, bind, Except.bind, predPost]

theorem opScmpi_ok {d cc m : Nat} :
    opScmpi d x cc m c = .ok [{ lat := 1, eff := .pred d (scmp cc v (BitVec.ofInt 64 (sextNat m 9))) }] := by
  simp only [opScmpi, hx, bind, Except.bind, predPost, wrap64]

theorem opLd_ok {d wd off pa : Nat} {nc : Bool} {ps : List Post}
    (ha : accessCheck c (memAddr v off) (widthOf wd) (widthOf wd) 0 = .ok (pa, nc, ps)) :
    opLd d x wd off c = .ok ({ lat := 8, eff := .load d pa (widthOf wd) (decide (4 ≤ wd)) nc, inter := true, pend := !c.single } :: ps) := by
  simp only [opLd, hx, ha, bind, Except.bind]

theorem opSt_ok {wd off pa : Nat} {nc : Bool} {ps : List Post} (hy : rx c y = .ok w)
    (ha : accessCheck c (memAddr v off) (widthOf wd) (widthOf wd) 1 = .ok (pa, nc, ps)) :
    opSt y x wd off c = .ok ({ lat := 1, eff := .mem (cellsAt pa (leBytes (widthOf wd) w.toNat)) nc, vg := [granule (memAddr v off)] } :: ps) := by
  simp only [opSt, hx, hy, ha, bind, Except.bind]

end operation

theorem opPlog_ok {c : OpCtx} {d a b o : Nat} {v w : Bool} (ha : rp c a = .ok v) (hb : rp c b = .ok w) :
    opPlog d a b o c = .ok [{ lat := 1, eff := .pred d (plogOp o v w) }] := by
  simp only [opPlog, ha, hb, bind, Except.bind, predPost]

/-- The twelve three-register operations of R173, with their latencies. -/
def intForms (d a b : Nat) : List (Instr × Nat × (DWord → DWord → DWord)) :=
  [(.add d a b, 1, (· + ·)), (.sub d a b, 1, (· - ·)), (.mul d a b, 3, (· * ·)), (.and_ d a b, 1, (· &&& ·)), (.or_ d a b, 1, (· ||| ·)),
   (.xor_ d a b, 1, (· ^^^ ·)), (.shl d a b, 1, shlOp), (.shr d a b, 1, shrOp), (.mulh d a b, 3, mulhOp), (.sra d a b, 1, sraOp),
   (.min_ d a b, 1, minOp), (.max_ d a b, 1, maxOp)]

theorem exec_intForms {s : State} {d a b : Nat} :
    ∀ e ∈ intForms d a b, exec e.1 s = issueTiles s 1 (opInt d a b e.2.1 e.2.2) := by
  simp only [intForms, List.forall_mem_cons]
  exact ⟨rfl, rfl, rfl, rfl, rfl, rfl, rfl, rfl, rfl, rfl, rfl, rfl, List.forall_mem_nil _⟩

/-- The six compares of R171 by their code. -/
theorem scmp_code {cc : Nat} (h : cc < 6) (v w : DWord) :
    scmp cc v w = nth false [v == w, v != w, v.slt w, w.sle v, v.ult w, w.ule v] cc := by
  match cc, h with
  | 0, _ => rfl
  | 1, _ => rfl
  | 2, _ => rfl
  | 3, _ => rfl
  | 4, _ => rfl
  | 5, _ => rfl

/-- The seven predicate operations of R171 by their code. -/
theorem plogOp_code {o : Nat} (h : o < 7) (v w : Bool) :
    plogOp o v w = nth false [v && w, v || w, v ^^ w, v && !w, v || !w, !(v && w), !(v || w)] o := by
  match o, h with
  | 0, _ => rfl
  | 1, _ => rfl
  | 2, _ => rfl
  | 3, _ => rfl
  | 4, _ => rfl
  | 5, _ => rfl
  | 6, _ => rfl

/-- The widths of a load: code, bytes, and whether it extends the sign (R174). -/
theorem widthOf_load : ∀ e ∈ ([(0, 1, false), (1, 2, false), (2, 4, false), (3, 8, false), (4, 1, true), (5, 2, true), (6, 4, true)] : List (Nat × Nat × Bool)),
    widthOf e.1 = e.2.1 ∧ decide (4 ≤ e.1) = e.2.2 := by decide

/-- The widths of a store (R174). -/
theorem widthOf_store : ∀ e ∈ ([(0, 1), (1, 2), (2, 4), (3, 8)] : List (Nat × Nat)), widthOf e.1 = e.2 := by decide

/-- Byte j of a little-endian number stands j places on. -/
theorem cellsAt_leBytes (n a v : Nat) : cellsAt a (leBytes n v) = (List.range n).map (fun j => (a + j, BitVec.ofNat 8 (v / 2 ^ (8 * j)))) := by
  induction n generalizing a v with
  | zero => rfl
  | succ n ih =>
    rw [leBytes, cellsAt, ih, List.range_succ_eq_map, List.map_cons, List.map_map]
    refine congrArg₂ _ (by simp) (List.map_congr_left fun j _ => ?_)
    have hv : v / 256 / 2 ^ (8 * j) = v / 2 ^ (8 * (j + 1)) := by rw [Nat.div_div_eq_div_mul, Nat.mul_succ, Nat.pow_add, Nat.mul_comm]
    simp only [Function.comp_apply, hv, Nat.succ_eq_add_one, Nat.add_assoc, Nat.add_comm 1 j]

/-- The bytes that a store of `y` lands. -/
theorem cellsAt_leBytes_toNat (n a : Nat) (y : DWord) :
    cellsAt a (leBytes n y.toNat) = (List.range n).map (fun j => (a + j, y.extractLsb' (8 * j) 8)) := by
  rw [cellsAt_leBytes]
  refine List.map_congr_left fun j _ => ?_
  rw [BitVec.extractLsb', Nat.shiftRight_eq_div_pow]

theorem lookColt_isColt (s : State) (c sl : Nat) : (lookColt s c sl).isColt = true := decide_eq_true (Nat.le_add_right 256 c)

/-- A Colt reads and writes its own system registers only (R162). -/
theorem csrHere_colt (s : State) (c sl n : Nat) : csrHere (lookColt s c sl) n = check (coltCsr n) cILLEGAL 0 := by
  rw [csrHere, lookColt_isColt, Bool.not_true, Bool.false_or]

theorem opCsrr_ok {c : OpCtx} {d n : Nat} (h : csrHere c n = .ok ()) :
    opCsrr d n c = .ok [{ lat := 2, eff := .xreg d (BitVec.ofNat 64 (csrValue c.s c.u n)) }] := by
  simp only [opCsrr, h, bind, Except.bind]

theorem opCsrw_ok {c : OpCtx} {x n : Nat} {setOnly : Bool} {v : DWord} (h : csrHere c n = .ok ()) (hx : rx c x = .ok v) :
    opCsrw x n setOnly c = .ok [{ lat := 1, eff := .csr n v setOnly }] := by
  simp only [opCsrw, h, hx, bind, Except.bind]

/-- Where a register is missing, neither a read nor a write goes on. -/
theorem opCsr_missing {c : OpCtx} {n : Nat} (h : csrHere c n = raise cILLEGAL 0) (x : Nat) :
    opCsrr x n c = raise cILLEGAL 0 ∧ ∀ setOnly, opCsrw x n setOnly c = raise cILLEGAL 0 := by
  refine ⟨?_, fun setOnly => ?_⟩
  · simp only [opCsrr, h, bind, Except.bind, raise]
  · simp only [opCsrw, h, bind, Except.bind, raise]

/-- The CTL majors that a Colt implements (R63). -/
theorem onColt_ctl {i : Instr} {w : Nat} (h : encode i = some (0, w)) :
    onColt i = [1, 3, 4, 5, 7, 8, 9, 12, 13, 14, 15, 16, 17, 18, 19, 20].contains (fieldOf w 24 5) := by
  rw [encode_of_wf (encode_wf h)] at h
  simp only [onColt, h]

/-- A word of CTL major 10 or 11 is no word of a Colt (R63). -/
theorem decodeSingle_notColt {w : Nat} (h : w / 2 ^ 24 = 10 ∨ w / 2 ^ 24 = 11) : ∃ e, decodeSingle true w = .bad e := by
  have h0 : w ≠ 0 := by omega
  have hsl : fieldOf w 29 3 = 0 := by unfold fieldOf; omega
  have hlow : w % 536870912 = w := by omega
  simp only [decodeSingle, h0, hsl, hlow, if_false, if_true, OfNat.zero_ne_ofNat]
  cases hd : decodeOps 0 w with
  | none => exact ⟨_, rfl⟩
  | some i =>
    have hi : onColt i = false := by
      have hmajor : fieldOf w 24 5 = 10 ∨ fieldOf w 24 5 = 11 := by unfold fieldOf; omega
      rw [onColt_ctl (encode_decodeOps hd)]
      obtain hm | hm := hmajor <;> rw [hm] <;> rfl
    exact ⟨.notHere, by simp only [hi, Bool.false_eq_true, if_false]⟩

/-- Settles O10: each instruction from the answer of its operation, the missing registers from R162, the missing words from their decoding. -/
theorem coltScalarForms : Obligations.ColtScalarForms := by
  unfold Obligations.ColtScalarForms
  refine ⟨fun s c d a b lat op f v w ht hop ha hb => ?int,
    fun s c d a m v ht ha => ⟨issueTiles_colt ht (opAddi_ok ha), issueTiles_colt ht rfl⟩,
    fun s c d a b o v w ht ha hb ho => ?plog, fun s c j n ht => issueTiles_colt ht rfl,
    fun s c d n ht hn => ?csr, fun s c d n hn => ?missing, fun s c ps => rfl, fun s c => ?next,
    fun s c d a b cc m v w ht ha hb hcc => ?compare, fun s c d a b p v w q ht ha hb hp => issueTiles_colt ht (opSel_ok ha hb hp),
    fun s c d x w off size pa sx nc v ps ht hw hx ha => ?load, fun s c b x w off size pa nc v y ps ht hw hx hb ha => ?store,
    fun s c w ht hs hr hsl hst hf hpc hlen hw hmajor => ?illegal⟩
  case int => exact (exec_intForms (op, lat, f) hop).trans (issueTiles_colt ht (opInt_ok ha hb))
  case plog => exact plogOp_code ho v w ▸ issueTiles_colt ht (opPlog_ok ha hb)
  case csr =>
    have hhere : csrHere (lookColt s c 0) n = .ok () := by
      rw [csrHere_colt, coltCsr, List.contains_iff_mem.mpr hn]
      rfl
    exact ⟨issueTiles_colt ht (opCsrr_ok hhere), fun v hv =>
      ⟨issueTiles_colt ht (opCsrw_ok hhere hv), issueTiles_colt ht (opCsrw_ok hhere hv)⟩⟩
  case missing =>
    have hhere : csrHere (lookColt s c 0) n = raise cILLEGAL 0 := by
      rw [csrHere_colt, coltCsr, Bool.eq_false_iff.mpr (fun h => hn (List.contains_iff_mem.mp h))]
      rfl
    obtain ⟨hread, hwrite⟩ := opCsr_missing hhere d
    exact ⟨hread, hwrite false, hwrite true⟩
  case next => exact ⟨by simp [nextColt], rfl, rfl⟩
  case compare =>
    have hcmp : exec (.scmp d a b cc) s = .next (coltDone s c 0 [{ lat := 1, eff := .pred d (scmp cc v w) }]) :=
      issueTiles_colt ht (opScmp_ok ha hb)
    have hcmpi : exec (.scmpi d a cc m) s
        = .next (coltDone s c 0 [{ lat := 1, eff := .pred d (scmp cc v (BitVec.ofInt 64 (sextNat m 9))) }]) :=
      issueTiles_colt ht (opScmpi_ok ha)
    rw [scmp_code hcc] at hcmp hcmpi
    exact ⟨hcmp, hcmpi⟩
  case load =>
    obtain ⟨rfl, rfl⟩ : widthOf w = size ∧ decide (4 ≤ w) = sx := widthOf_load _ hw
    exact issueTiles_colt ht (opLd_ok hx ha)
  case store =>
    obtain rfl : widthOf w = size := widthOf_store _ hw
    rw [← cellsAt_leBytes_toNat]
    exact issueTiles_colt ht (opSt_ok hx hb ha)
  case illegal =>
    subst hw
    obtain ⟨e, he⟩ := decodeSingle_notColt hmajor
    have hslot : nth 0 s.hub.routine (s.colt c).pc / 2 ^ 29 = 0 := by omega
    have hfetch := (fetch_colt ht).trans ((fetchColt_runs hr hsl hst hf).trans (if_neg (by omega)))
    rw [he, hslot] at hfetch
    exact step_quiet (.inl ⟨hs, rfl⟩) hfetch

end Sys2Proof.Proofs
end

section
/-! The context-control packets and the events of a context (O36, O37). Both statements quantify over every table of the state, one that
lists a key twice included, and both fail there: `sget` answers the first entry of a key, while DESTROY picks its packets, and a stop its
cores, from all entries of the list. -/
namespace Sys2Proof.Proofs
open Laws
open Machine hiding Wf

/-- A DESTROY of context 5 in hand as packet 1 (R117, R118): OP 10, SUB 1, CID 5. -/
def destroyFive : List Byte := [10, 0, 0, 0, 0, 0, 0, 0, 0, 0, 0, 0, 0, 0, 0, 0, 1, 0, 0, 0, 5, 0, 0, 0]

/-- The packet table lists number 2 twice: it reads as a packet of context 6 that names handle 9, and a second entry gives it to
context 5. -/
def packetTwice : State where
  ctxs := [(5, { st := .created }), (6, { st := .created, handles := [(9, { named := [2] })] })]
  hub := { hand := some 1, nextPkt := 3, pkts := [(1, { bytes := destroyFive }), (2, { cid := 6, hands := [(9, 1)] }), (2, { cid := 5 })] }

theorem exec_destroy_packetTwice : exec .ctxcDestroy packetTwice = .next (destroyCtx packetTwice 5 1) := rfl

/-- The destroy of context 5 takes the packet of context 6 off its handle. -/
theorem destroyCtx_packetTwice_named : (sget {} ((destroyCtx packetTwice 5 1).ctx 6).handles 9).named = [] := rfl

/-- Refutes O36: where the packet table lists a number twice, with two contexts, DESTROY of the one changes the handles of the other,
which the statement has unchanged. -/
theorem not_contextControl : ¬ Obligations.ContextControl := by
  unfold Obligations.ContextControl
  intro h
  obtain ⟨-, -, hctl, -⟩ := h
  obtain ⟨hdestroy, -⟩ := hctl packetTwice 1 destroyFive rfl rfl rfl rfl rfl (by decide) (.inl rfl) (by decide) (by decide)
  obtain ⟨t, ht, -, -, -, -, hframe, -⟩ := (hdestroy rfl).2 (by decide)
  obtain rfl : destroyCtx packetTwice 5 1 = t := Host.Outcome.next.inj (exec_destroy_packetTwice.symm.trans ht)
  have hsame : (destroyCtx packetTwice 5 1).ctx 6 = packetTwice.ctx 6 := hframe 6 (by decide)
  have hnamed : (sget {} (packetTwice.ctx 6).handles 9).named = [2] := rfl
  rw [← hsame, destroyCtx_packetTwice_named] at hnamed
  cases hnamed

/-- The core table lists core 0 twice: it reads as an idle core of context 1, and a second entry has it run for context 5, which stops. -/
def coreTwice : State where
  cores := [(0, { cid := 1 }), (0, { cid := 5, st := .running })]
  ctxs := [(5, { st := .running, stopping := some .preempted })]

theorem exec_preemptStop_coreTwice : exec (.preemptStop 5) coreTwice = .next (freeze coreTwice 0) := rfl

theorem freeze_frozen (s : State) (k : Nat) : ((freeze s k).core k).frozen = true := by
  simp [freeze]

/-- Refutes O37: where the core table lists a core twice, with two contexts, the stop of the one freezes the core of the other, which the
statement has unchanged. -/
theorem not_contextEvents : ¬ Obligations.ContextEvents := by
  unfold Obligations.ContextEvents
  intro h
  obtain ⟨hstop, -⟩ := h
  obtain ⟨t, ht, -, hframe⟩ := hstop coreTwice 5 .preempted rfl rfl
  obtain rfl : freeze coreTwice 0 = t := Host.Outcome.next.inj (exec_preemptStop_coreTwice.symm.trans ht)
  have hsame : ((freeze coreTwice 0).core 0).frozen = (coreTwice.core 0).frozen := (hframe 0 (.inl (by decide))).1
  have hfree : (coreTwice.core 0).frozen = false := rfl
  rw [← hsame, freeze_frozen] at hfree
  cases hfree

end Sys2Proof.Proofs
end

section
/-! Queue programs (O13, O14): the operations of the interpreter, its branches and loops, and the ends of a run. -/
namespace Sys2Proof.Proofs
open Laws
open Machine hiding Wf

theorem qpStep_some {s : State} {p : Interp} (f : Interp → Interp) (h : s.hub.interp = some p) :
    qpStep s f = .next { s with hub := { s.hub with interp := some (f p) } } := by
  unfold qpStep
  rw [h]

theorem qpAlu_some {s : State} {p : Interp} (d : Nat) (f : Interp → DWord) (h : s.hub.interp = some p) :
    qpAlu s d f = .next { s with hub := { s.hub with interp := some ((p.put d (f p)).goto (p.pc + 1)) } } := qpStep_some _ h

/-- The sign of an n-bit field, tested from below (R93). -/
theorem sextNat_eq (v n : Nat) :
    sextNat v n = if v % 2 ^ n < 2 ^ (n - 1) then ((v % 2 ^ n : Nat) : Int) else (v : Int) % 2 ^ n - 2 ^ n := by
  unfold sextNat
  extract_lets u
  by_cases h : u < 2 ^ (n - 1)
  · rw [if_neg (Nat.not_le.mpr h), if_pos h]
  · rw [if_pos (Nat.not_lt.mp h), if_neg h]
    push_cast [u]
    rfl

theorem put_get (p : Interp) (i j : Nat) (v : DWord) : (p.put i v).get j = if j = 0 then 0 else if j = i then v else p.get j := by
  unfold Interp.put Interp.get
  by_cases hj : j = 0
  · simp [hj]
  · by_cases hi : i = 0
    · simp [hi, hj]
    · simp [hi, hj]

theorem goto_noLoop {p : Interp} (h : p.loops = []) (pc : Nat) : (p.goto pc).pc = pc ∧ (p.goto pc).loops = [] := by
  unfold Interp.goto
  rw [h]
  exact ⟨rfl, rfl⟩

theorem exec_qLdw_packet {s : State} {p : Interp} (d a imm : Nat) (h : s.hub.interp = some p) :
    exec (.qLdw d a 0 imm) s = qpAlu s d (fun p => BitVec.ofNat 64 (field p.pkt (winOffset p a imm 64) 8)) := by
  show execQLdw d a 0 imm s = _
  unfold execQLdw
  rw [h]
  rfl

theorem exec_qStw_packet {s : State} {p : Interp} (d a imm : Nat) (h : s.hub.interp = some p) :
    exec (.qStw d a 0 imm) s = qpStep s (fun r => { r with
      pkt := r.pkt.take (winOffset p a imm 64) ++ leBytes 8 (p.get d).toNat ++ r.pkt.drop (winOffset p a imm 64 + 8) }.goto (r.pc + 1)) := by
  show execQStw d a 0 imm s = _
  unfold execQStw
  rw [h]
  rfl

/-- The address of a window's place (R128). -/
def winAddr (p : Interp) (a win imm : Nat) : Nat :=
  (nth (0, 0) p.prog.windows win).2 + winOffset p a imm (2 ^ (nth (0, 0) p.prog.windows win).1)

theorem exec_qLdw_memory {s : State} {p : Interp} {d a win imm v : Nat} (h : s.hub.interp = some p) (hw : win ≠ 0)
    (hv : s.hubNat (s.queue p.queue).cid (winAddr p a win imm) 8 = some v) :
    exec (.qLdw d a win imm) s = qpAlu s d (fun _ => BitVec.ofNat 64 v) := by
  show execQLdw d a win imm s = _
  unfold execQLdw
  unfold winAddr at hv
  simp only [h, hw, if_false, hv]

theorem exec_qStw_memory {s : State} {p : Interp} {d a win imm : Nat} (h : s.hub.interp = some p) (hw : win ≠ 0) :
    exec (.qStw d a win imm) s = qpStep (s.hubWrite (s.queue p.queue).cid (winAddr p a win imm) (leBytes 8 (p.get d).toNat))
      (fun r => r.goto (r.pc + 1)) := by
  show execQStw d a win imm s = _
  unfold execQStw winAddr
  simp only [h, hw, if_false]

/-- Settles O13: each operation is one step of the interpreter, and the operations of memory are one read or write of the front end. -/
theorem queueProgramOperations : Obligations.QueueProgramOperations := by
  unfold Obligations.QueueProgramOperations
  refine ⟨⟨?alu, fun p i j v => put_get p i j v, ?goto⟩, ?packet, ?memory⟩
  case alu =>
    intro s p d a b imm h e he
    have h14 : sextNat imm 14 = if imm % 16384 < 8192 then ((imm % 16384 : Nat) : Int) else (imm : Int) % 16384 - 16384 := sextNat_eq imm 14
    have h22 : sextNat imm 22 = if imm % 4194304 < 2097152 then ((imm % 4194304 : Nat) : Int) else (imm : Int) % 4194304 - 4194304 := sextNat_eq imm 22
    rw [← h14, ← h22] at he
    simp only [List.mem_cons, List.not_mem_nil, or_false] at he
    rcases he with rfl | rfl | rfl | rfl | rfl | rfl | rfl | rfl | rfl | rfl | rfl | rfl | rfl | rfl | rfl
    all_goals exact qpAlu_some _ _ h
  case goto => exact fun p pc => ⟨rfl, rfl, rfl, fun h => goto_noLoop h pc⟩
  case packet =>
    intro s p d a imm h o
    exact ⟨(exec_qLdw_packet d a imm h).trans (qpAlu_some _ _ h), (exec_qStw_packet d a imm h).trans (qpStep_some _ h)⟩
  case memory =>
    intro s p d a win imm v lg base h hw hwin va
    have hva : winAddr p a win imm = va := by
      unfold winAddr
      rw [hwin]
      rfl
    rw [← hva]
    exact ⟨fun hv => (exec_qLdw_memory h hw hv).trans (qpAlu_some _ _ h), fun hq => (exec_qStw_memory h hw).trans (qpStep_some _ hq)⟩

theorem qpBranch_some {s : State} {p : Interp} (imm : Nat) (c : Interp → Bool) (h : s.hub.interp = some p) :
    qpBranch s imm c = .next { s with hub := { s.hub with interp := some (p.goto (if c p then p.pc + imm else p.pc + 1)) } } := qpStep_some _ h

theorem goto_body {p : Interp} {first last left pc : Nat} {rest : List (Nat × Nat × Nat)} (h : p.loops = (first, last, left) :: rest) :
    (pc ≤ last → p.goto pc = { p with pc := pc })
    ∧ (last < pc → 1 < left → p.goto pc = { p with pc := first, loops := (first, last, left - 1) :: rest })
    ∧ (last < pc → left ≤ 1 → p.goto pc = { p with loops := rest }.goto pc) := by
  obtain ⟨_, _, _, loops, _, _⟩ := p
  subst h
  unfold Interp.goto
  refine ⟨fun hin => ?_, fun hout hleft => ?_, fun hout hleft => ?_⟩
  · simp [qpNext, hin]
  · simp [qpNext, Nat.not_le.mpr hout, hleft]
  · simp [qpNext, Nat.not_le.mpr hout, Nat.not_lt.mpr hleft]

/-- The state after a run's end with a fate: the packet stands ready, and q8 to q15 stay with the queue (R128). -/
def endedRun (s : State) (p : Interp) (fate : Option (Nat × Nat)) : State :=
  let s1 := s.modQueue p.queue (fun q => { q with heads := q.heads ++ [(fate, p.pkt)], q := p.q.filter (fun r => decide (8 ≤ r.1)) })
  { s1 with hub := { s1.hub with interp := none }, turn := .idle }

theorem qpEnd_some {s : State} {p : Interp} (fate : Option (Nat × Nat)) (h : s.hub.interp = some p) : qpEnd s fate = .next (endedRun s p fate) := by
  unfold qpEnd
  rw [h]
  rfl

theorem endedRun_queue (s : State) (p : Interp) (fate : Option (Nat × Nat)) (n : Nat) : (endedRun s p fate).queue n = if n = p.queue then
    { s.queue p.queue with heads := (s.queue p.queue).heads ++ [(fate, p.pkt)], q := p.q.filter (fun r => decide (8 ≤ r.1)) } else s.queue n :=
  setQueue_queue s p.queue n _

/-- Settles O14: a branch, a LOOP and the end of a word are one step of the interpreter, and an end of the run is one change of its queue. -/
theorem queueProgramControl : Obligations.QueueProgramControl := by
  unfold Obligations.QueueProgramControl
  refine ⟨?branch, fun s p d mx len h => qpStep_some _ h, fun p first last left pc rest h => goto_body h, ?ends⟩
  case branch =>
    intro s p a b imm h e he
    simp only [List.mem_cons, List.not_mem_nil, or_false] at he
    rcases he with rfl | rfl | rfl | rfl | rfl
    · exact qpBranch_some _ _ h
    · exact qpBranch_some _ _ h
    · exact qpBranch_some _ _ h
    · exact qpBranch_some _ _ h
    · exact qpStep_some _ h
  case ends =>
    intro s p imm h e he
    have hexec : exec e.1 s = qpEnd s e.2 := by
      simp only [List.mem_cons, List.not_mem_nil, or_false] at he
      rcases he with rfl | rfl | rfl <;> rfl
    refine ⟨endedRun s p e.2, hexec.trans (qpEnd_some e.2 h), rfl, rfl, rfl, rfl, rfl, rfl, ?_, fun n hn => ?_⟩
    · rw [endedRun_queue, if_pos rfl]
    · rw [endedRun_queue, if_neg hn]

end Sys2Proof.Proofs
end

section
/-! What accesses of the front end to memory leave of the state (R9, R119, R296, R321, R374). -/
namespace Sys2Proof.Proofs
open Laws
open Machine hiding Wf

/-- What an access to memory leaves of the state: bytes, lines and atomic-only marks change; monitors, waiting packets and sleeping loops
are told of it. -/
structure MemOnly (s t : State) : Prop where
  noted : NotedOnly s t
  rest : { t with hub := s.hub, mem := s.mem, l2 := s.l2, adit := s.adit, atomicOnly := s.atomicOnly, tiles := s.tiles } = s
  pkt : ∀ p, t.pkt p = { s.pkt p with seen := (t.pkt p).seen }
  tile : ∀ u, t.tile u = { s.tile u with rc := (t.tile u).rc, mon := (t.tile u).mon, wakes := (t.tile u).wakes }

theorem memOnly_refl (s : State) : MemOnly s s := ⟨notedOnly_refl s, rfl, fun _ => rfl, fun _ => rfl⟩

theorem memOnly_trans {s t u : State} (h : MemOnly s t) (h' : MemOnly t u) : MemOnly s u where
  noted := notedOnly_trans h.noted h'.noted
  rest := (congrArg (fun r : State => { r with
    hub := s.hub, mem := s.mem, l2 := s.l2, adit := s.adit, atomicOnly := s.atomicOnly, tiles := s.tiles }) h'.rest).trans h.rest
  pkt p := (h'.pkt p).trans (congrArg (fun r : Pkt => { r with seen := (u.pkt p).seen }) (h.pkt p))
  tile v := (h'.tile v).trans (congrArg (fun r : Tile => { r with rc := (u.tile v).rc, mon := (u.tile v).mon, wakes := (u.tile v).wakes }) (h.tile v))

theorem memOnly_foldl {α : Type} {f : State → α → State} (h : ∀ s a, MemOnly s (f s a)) (l : List α) (s : State) : MemOnly s (l.foldl f s) := by
  induction l generalizing s with
  | nil => exact memOnly_refl s
  | cons a l ih => exact memOnly_trans (h s a) (ih (f s a))

/-- Bytes, lines and marks alone. -/
theorem memOnly_caches (s : State) (mem : Memory) (l2 adit : SMap (SMap Line)) (ao : SMap Bool) :
    MemOnly s { s with mem := mem, l2 := l2, adit := adit, atomicOnly := ao } :=
  ⟨notedOnly_of_hub rfl, rfl, fun _ => rfl, fun _ => rfl⟩

theorem memOnly_setL2 (s : State) (d ln : Nat) (l : Line) : MemOnly s (s.setL2 d ln l) := memOnly_caches s s.mem _ s.adit s.atomicOnly

/-- A change of read caches and monitors, tile by tile. -/
theorem memOnly_tiles {s : State} {f : Nat → Tile → Tile} {F : Nat × Tile → Nat × Tile} (hF : ∀ e, F e = (e.1, f e.1 e.2))
    (hf : ∀ u t, f u t = { t with rc := (f u t).rc, mon := (f u t).mon, wakes := (f u t).wakes }) (h0 : ∀ u, f u {} = {}) :
    MemOnly s { s with tiles := s.tiles.map F } := by
  refine ⟨notedOnly_of_hub rfl, rfl, fun _ => rfl, fun u => ?_⟩
  have hu : State.tile { s with tiles := s.tiles.map F } u = f u (s.tile u) := sget_map_keys f hF (h0 u) s.tiles
  rw [hu]
  exact hf u (s.tile u)

/-- What a write to a line makes of a tile (R13, R321). -/
def wokenTile (held : Bool) (ln : Nat) (t : Tile) : Tile :=
  if held && t.mon.any (fun e => decide (e.line = ln)) then { t with wakes := t.wakes ++ [ln] } else t.wakeLine ln

theorem wakeLineIn_eq_map (held : Bool) (ln : Nat) (ts : SMap Tile) : wakeLineIn held ln ts = ts.map (fun e => (e.1, wokenTile held ln e.2)) := by
  induction ts with
  | nil => rfl
  | cons e ts ih =>
    rw [wakeLineIn, ih]
    rfl

theorem memOnly_wakeLine (s : State) (ln : Nat) : MemOnly s { s with tiles := wakeLineIn s.hub.stalled ln s.tiles } := by
  rw [wakeLineIn_eq_map]
  refine memOnly_tiles (f := fun _ => wokenTile s.hub.stalled ln) (fun _ => rfl) (fun u t => ?_) (fun u => ?_)
  · unfold wokenTile
    split <;> rfl
  · simp [wokenTile, Tile.wakeLine]

theorem memOnly_noteWaits (s : State) (ln : Nat) : MemOnly s (s.noteWaits ln) := by
  refine ⟨notedOnly_noteWaits s ln, ?_, fun p => ?_, fun u => ?_⟩
  · unfold State.noteWaits
    split <;> rfl
  · unfold State.noteWaits
    split
    · have hp : sget ({} : Pkt) (s.hub.pkts.map (fun q => (q.1, noteWait s.mem s.ptime ln q.2))) p = noteWait s.mem s.ptime ln (s.pkt p) :=
        sget_map_keys (fun _ => noteWait s.mem s.ptime ln) (fun _ => rfl) rfl s.hub.pkts
      simp only [State.pkt] at hp ⊢
      rw [hp]
      unfold noteWait
      split
      · split <;> rfl
      · rfl
    · rfl
  · unfold State.noteWaits
    split <;> rfl

theorem memOnly_noteLoops (s : State) (ln : Nat) : MemOnly s (s.noteLoops ln) := by
  refine ⟨notedOnly_noteLoops s ln, ?_, fun p => ?_, fun u => ?_⟩
  all_goals
    unfold State.noteLoops
    split <;> rfl

theorem memOnly_touchLine (s : State) (ln : Nat) : MemOnly s (s.touchLine ln) :=
  memOnly_trans (memOnly_wakeLine s ln) (memOnly_trans (memOnly_noteWaits _ ln) (memOnly_noteLoops _ ln))

theorem memOnly_putMem (s : State) (pa : Nat) (bs : List Byte) : MemOnly s (s.putMem pa bs) := by
  refine memOnly_trans (memOnly_caches s _ s.l2 s.adit s.atomicOnly) (memOnly_foldl (fun s j => ?_) _ _)
  dsimp only
  split
  · exact memOnly_touchLine s _
  · exact memOnly_refl s

theorem memOnly_hubWrite (s : State) (cid va : Nat) (bs : List Byte) : MemOnly s (s.hubWrite cid va bs) :=
  memOnly_trans (memOnly_caches s _ s.l2 s.adit s.atomicOnly) (memOnly_foldl (fun s ln => memOnly_touchLine s ln) _ _)

theorem memOnly_writeBack (s : State) (d ln : Nat) : MemOnly s (s.writeBack d ln) := by
  unfold State.writeBack
  extract_lets l
  split
  · exact memOnly_trans (memOnly_caches s _ s.l2 s.adit s.atomicOnly)
      (memOnly_trans (memOnly_setL2 _ d ln _) (memOnly_trans (memOnly_noteWaits _ ln) (memOnly_noteLoops _ ln)))
  · exact memOnly_refl s

theorem memOnly_flushL2 (s : State) (d ln : Nat) : MemOnly s (s.flushL2 d ln) := memOnly_trans (memOnly_writeBack s d ln) (memOnly_setL2 _ d ln {})

theorem memOnly_markAtomic (s : State) (ln : Nat) : MemOnly s (s.markAtomic ln) := by
  unfold State.markAtomic
  extract_lets s1
  have h1 : MemOnly s s1 := memOnly_foldl (fun s d => memOnly_flushL2 s d ln) (upTo 4) s
  clear_value s1
  have h2 := memOnly_caches s1 s1.mem s1.l2 (s1.adit.map (fun p => (p.1, sdrop p.2 ln))) (sset false s1.atomicOnly ln true)
  refine memOnly_trans h1 (memOnly_trans h2 ?_)
  exact memOnly_tiles (f := fun _ t => { t with rc := sdrop t.rc ln }) (fun _ => rfl) (fun _ _ => rfl) (fun _ => rfl)

theorem memOnly_setRc (s : State) (u : Nat) (rc : SMap Line) : MemOnly s (s.modTile u (fun t => { t with rc := rc })) := by
  refine ⟨notedOnly_of_hub rfl, rfl, fun _ => rfl, fun v => ?_⟩
  rw [modTile_eq, setTile_tile]
  split
  · next h => rw [h]
  · rfl

theorem memOnly_acquireAt (s : State) (u scope : Nat) : MemOnly s (acquireAt s u scope) := by
  unfold acquireAt
  split
  · exact memOnly_refl s
  · extract_lets s1 d s2
    have h1 : MemOnly s s1 := memOnly_setRc s u []
    split
    · exact h1
    · have h2 : MemOnly s1 s2 := memOnly_foldl (f := fun (s : State) (p : Nat × Line) => s.writeBack d p.1) (fun s p => memOnly_writeBack s d p.1) (sget [] s1.l2 d) s1
      exact memOnly_trans h1 (memOnly_trans h2 (memOnly_caches s2 s2.mem _ _ s2.atomicOnly))

section
variable {s t : State} (h : MemOnly s t)
include h

theorem memOnly_cores : t.cores = s.cores := by
  have hrest := congrArg State.cores h.rest
  exact hrest
theorem memOnly_ctxs : t.ctxs = s.ctxs := by
  have hrest := congrArg State.ctxs h.rest
  exact hrest
theorem memOnly_core (k : Nat) : t.core k = s.core k := by rw [State.core, memOnly_cores h, State.core]
theorem memOnly_ctx (c : Nat) : t.ctx c = s.ctx c := by rw [State.ctx, memOnly_ctxs h, State.ctx]
/-- The hub but for its packets and groups. -/
theorem memOnly_hub : t.hub = { s.hub with pkts := t.hub.pkts, groups := t.hub.groups } :=
  congrArg (fun r : Hub => { r with pkts := t.hub.pkts, groups := t.hub.groups }) h.noted.1
theorem memOnly_queue (n : Nat) : t.queue n = s.queue n := by rw [State.queue, memOnly_hub h, State.queue]
theorem memOnly_outcome (p : Nat) : (t.pkt p).outcome = (s.pkt p).outcome := by rw [h.pkt p]
theorem memOnly_groupSt (n : Nat) : (t.group n).st = (s.group n).st := by
  have hgroup := congrArg Machine.Group.st (h.noted.2 n).1
  exact hgroup
theorem memOnly_hostPath : t.hostPath = s.hostPath := by
  unfold State.hostPath State.destFenced State.outPort
  rw [memOnly_hub h]

end

/-! Walks and translations of the hub (R324): what they read. -/

/-- The context and the memory that the hub's accesses of context c read are the same. -/
structure SameSpace (s t : State) (c : Nat) : Prop where
  mem : t.mem = s.mem
  ptime : t.ptime = s.ptime
  secure : t.hub.secure = s.hub.secure
  root : (t.ctx c).root = (s.ctx c).root
  lease : (t.ctx c).lease = (s.ctx c).lease
  unmaps : (t.ctx c).unmaps = (s.ctx c).unmaps

/-- A walk reads memory alone. The proof opens the recursion itself: the equations that `unfold` would make of it are too dear. -/
theorem walkFrom_sameMem {s t : State} (h : t.mem = s.mem) : walkFrom t = walkFrom s := by
  have hm : t.memNat = s.memNat := by
    funext pa len
    unfold State.memNat State.memBytes
    rw [h]
  delta walkFrom walkFrom._f
  rw [hm]

/-- The hub has no walk cache (R325): its walks start at the root. -/
theorem walkStart_hub (s : State) (c va : Nat) : walkStart s 256 c va = (3, (s.ctx c).root) := rfl

section
variable {s t : State} {c : Nat} (h : SameSpace s t c)
include h

theorem walk_sameSpace (va : Nat) : walk t c va = walk s c va := by
  unfold walk walkBy Ctx.unmapping
  simp only [walkStart_hub, walkFrom_sameMem h.mem, h.ptime, h.root, h.lease, h.unmaps]

theorem translate_sameSpace (va kind : Nat) : Machine.translate t 256 c va kind = Machine.translate s 256 c va kind := by
  have hp : ∀ e, permitted t e kind = permitted s e kind := fun e => by unfold permitted; rw [h.secure]
  have hw : walkBy t 256 c va = walkBy s 256 c va := walk_sameSpace h va
  unfold Machine.translate
  simp only [hw, hp, Nat.le_refl, if_true]

theorem devPa_sameSpace (va : Nat) : t.devPa c va = s.devPa c va := by
  unfold State.devPa
  rw [translate_sameSpace h]

theorem hubRead_sameSpace (va len : Nat) : t.hubRead c va len = s.hubRead c va len := by
  unfold State.hubRead
  simp only [translate_sameSpace h, h.mem]

theorem hubNat_sameSpace (va len : Nat) : t.hubNat c va len = s.hubNat c va len := by
  unfold State.hubNat
  rw [hubRead_sameSpace h]

end

end Sys2Proof.Proofs
end

section
/-! The service of the software queues (O31), part 1: aging, the need of a gang to be mapped, and its mapping (R110, R112, R114). -/
namespace Sys2Proof.Proofs
open Laws
open Machine hiding Wf

/-- Only records of gangs differ. -/
def GangsOnly (s t : State) : Prop := t = { s with hub := { s.hub with gangs := t.hub.gangs } }

theorem gangsOnly_refl (s : State) : GangsOnly s s := rfl

theorem gangsOnly_trans {s t u : State} (h : GangsOnly s t) (h' : GangsOnly t u) : GangsOnly s u :=
  h'.trans (congrArg (fun r : State => { r with hub := { r.hub with gangs := u.hub.gangs } }) h)

theorem gangsOnly_setGang (s : State) (g : Nat) (v : Gang) : GangsOnly s (s.setGang g v) := rfl

section
variable {s t : State} (h : GangsOnly s t)
include h

theorem gangsOnly_ctxs : t.ctxs = s.ctxs := by rw [h]
theorem gangsOnly_ctx (c : Nat) : t.ctx c = s.ctx c := by rw [h]; rfl
theorem gangsOnly_queue (n : Nat) : t.queue n = s.queue n := by rw [h]; rfl
theorem gangsOnly_ptime : t.ptime = s.ptime := by rw [h]
theorem gangsOnly_mem : t.mem = s.mem := by rw [h]
theorem gangsOnly_cores : t.cores = s.cores := by rw [h]
theorem gangsOnly_queues : t.hub.queues = s.hub.queues := by rw [h]
theorem gangsOnly_hwslots : t.hub.hwslots = s.hub.hwslots := by rw [h]
theorem gangsOnly_gangQueues (g : Nat) : t.gangQueues g = s.gangQueues g := by rw [h]; rfl
theorem gangsOnly_freeSlots : freeSlots t = freeSlots s := by rw [h]; rfl
theorem gangsOnly_runningGangs (c : Nat) : runningGangs t c = runningGangs s c := by rw [h]; rfl

end

/-- A fold that leaves its start alone at every element. -/
theorem foldl_keeps {α β : Type} {f : β → α → β} {l : List α} {b : β} (h : ∀ a ∈ l, f b a = b) : l.foldl f b = b := by
  induction l with
  | nil => rfl
  | cons a l ih =>
    rw [List.foldl_cons, h a (List.mem_cons_self ..)]
    exact ih (fun c hc => h c (List.mem_cons_of_mem a hc))

/-- What aging leaves (R114): of a gang its effective priority, and the start of the 10 ms in progress, may change. -/
structure AgedOnly (s t : State) : Prop where
  rest : GangsOnly s t
  gang : ∀ g, t.gang g = { s.gang g with eff := (t.gang g).eff, agingFrom := (t.gang g).agingFrom }

theorem ageGang_aged (s : State) (g : Nat) : AgedOnly s (ageGang s g) := by
  unfold ageGang
  split
  · refine ⟨gangsOnly_setGang s g _, fun h => ?_⟩
    rw [modGang_eq, setGang_gang]
    split
    · next hg => rw [hg]
    · rfl
  · exact ⟨gangsOnly_refl s, fun _ => rfl⟩

theorem agedOnly_trans {s t u : State} (h : AgedOnly s t) (h' : AgedOnly t u) : AgedOnly s u :=
  ⟨gangsOnly_trans h.rest h'.rest, fun g =>
    (h'.gang g).trans (congrArg (fun v : Gang => { v with eff := (u.gang g).eff, agingFrom := (u.gang g).agingFrom }) (h.gang g))⟩

theorem ageGangs_aged (s : State) : AgedOnly s (ageGangs s) := by
  unfold ageGangs
  generalize s.hub.gangs = l
  induction l generalizing s with
  | nil => exact ⟨gangsOnly_refl s, fun _ => rfl⟩
  | cons p l ih => exact agedOnly_trans (ageGang_aged s p.1) (ih (ageGang s p.1))

/-- A gang that waits gains its levels, one for each full 10 ms (R114). -/
theorem ageGang_waits {s : State} {g : Nat} (hm : (s.gang g).mapped = true) (hw : s.gangWaits g = true) (he : (s.gang g).eff ≤ 7) :
    ageGang s g = s.setGang g { s.gang g with
      eff := min 7 ((s.gang g).eff + (s.ptime - (s.gang g).agingFrom) / 10000000),
      agingFrom := (s.gang g).agingFrom + 10000000 * ((s.ptime - (s.gang g).agingFrom) / 10000000) } := by
  have hmax : max (s.gang g).eff (min 7 ((s.gang g).eff + (s.ptime - (s.gang g).agingFrom) / 10000000))
      = min 7 ((s.gang g).eff + (s.ptime - (s.gang g).agingFrom) / 10000000) := by omega
  unfold ageGang
  rw [if_pos (by rw [hm, hw]; rfl), modGang_eq]
  simp only [hmax]

/-- Who serves a gang's need to be mapped, once raised: the host (R101), or the front end. -/
def askedBy (s : State) (g : Nat) (host : Bool) : Prop :=
  ((s.gang g).asks = none ∧ bitOf (s.ctx (g / 256)).split.toNat 1 = host) ∨ (s.gang g).asks = some host

theorem askMap_asked {s : State} {g : Nat} {host : Bool} (hm : (s.gang g).mapped = false) (hq : s.gangQueues g ≠ []) (h : askedBy s g host) :
    GangsOnly s (askMap s g) ∧ (askMap s g).gang g = { s.gang g with asks := some host } ∧ ∀ j, j ≠ g → (askMap s g).gang j = s.gang j := by
  obtain ⟨hnone, hbit⟩ | hsome := h
  · have hask : askMap s g = s.setGang g { s.gang g with asks := some host } := by
      unfold askMap
      rw [if_neg (by simp [hnone, hm, hq]), modGang_eq, hbit]
    rw [hask]
    exact ⟨gangsOnly_setGang s g _, by rw [setGang_gang, if_pos rfl], fun j hj => by rw [setGang_gang, if_neg hj]⟩
  · have hask : askMap s g = s := by
      unfold askMap
      rw [if_pos (by simp [hsome])]
    rw [hask]
    exact ⟨gangsOnly_refl s, by rw [← hsome], fun _ _ => rfl⟩

/-- A gang's queues as it is mapped (R110, R112). -/
def mappedQueue (q : Queue) : Queue :=
  { q with mapped := true, st := if q.st = .created then (if q.pending = 0 then .idle else .ready) else q.st }

theorem foldl_modQueue_rest (f : Queue → Queue) (l : List (Nat × Queue)) (s : State) :
    let t := l.foldl (fun s p => s.modQueue p.1 f) s
    t = { s with hub := { s.hub with queues := t.hub.queues } } := by
  induction l generalizing s with
  | nil => rfl
  | cons p l ih => exact ih (s.modQueue p.1 f)

theorem foldl_modQueue_mapped {l : List (Nat × Queue)} {s : State} {n : Nat} (h : (s.queue n).mapped = true ∨ ∃ p ∈ l, p.1 = n) :
    ((l.foldl (fun s p => s.modQueue p.1 mappedQueue) s).queue n).mapped = true := by
  induction l generalizing s with
  | nil => simpa using h
  | cons p l ih =>
    refine ih ?_
    dsimp only
    rw [modQueue_eq, setQueue_queue]
    by_cases hp : n = p.1
    · exact .inl (by rw [if_pos hp]; rfl)
    · rw [if_neg hp]
      obtain h | ⟨r, hr, hn⟩ := h
      · exact .inl h
      · obtain rfl | hr := List.mem_cons.mp hr
        · exact absurd hn.symm hp
        · exact .inr ⟨r, hr, hn⟩

/-- The gang and the slots of a mapping, before its queues turn (R110). -/
def slotsTaken (s : State) (g : Nat) : State :=
  let qs := s.gangQueues g
  let hw : SMap Nat := (((freeSlots s).take qs.length).zip qs).foldl (fun m p => sset 0 m p.1 (p.2.1 + 1)) s.hub.hwslots
  let s1 := { s with hub := { s.hub with hwslots := hw } }
  let s2 := s1.modGang g (fun v => { v with mapped := true, marked := false, asks := none, agingFrom := s.ptime })
  { s2 with hub := { s2.hub with mapReqs := s2.hub.mapReqs.filter (fun r => decide (r ≠ g)) } }

theorem mapGang_resident {s : State} {g : Nat} (h : (s.ctx (g / 256)).st = .resident) :
    mapGang s g = (s.gangQueues g).foldl (fun s p => s.modQueue p.1 mappedQueue) (slotsTaken s g) := by
  unfold mapGang
  exact if_neg (by rw [h]; decide)

theorem slotsTaken_gang (s : State) (g j : Nat) : (slotsTaken s g).gang j
    = if j = g then { s.gang g with mapped := true, marked := false, asks := none, agingFrom := s.ptime } else s.gang j := by
  have hset := setGang_gang s g j { s.gang g with mapped := true, marked := false, asks := none, agingFrom := s.ptime }
  exact hset

theorem mapGang_spec {s : State} {g : Nat} (h : (s.ctx (g / 256)).st = .resident) : let t := mapGang s g
    (t.gang g).mapped = true ∧ (t.gang g).marked = false ∧ (∀ q ∈ s.gangQueues g, (t.queue q.1).mapped = true)
      ∧ (∀ j, j ≠ g → t.gang j = s.gang j) ∧ t.cores = s.cores ∧ t.mem = s.mem := by
  extract_lets t
  have ht : t = (s.gangQueues g).foldl (fun s p => s.modQueue p.1 mappedQueue) (slotsTaken s g) := mapGang_resident h
  have hrest := foldl_modQueue_rest mappedQueue (s.gangQueues g) (slotsTaken s g)
  have hgang : ∀ j, t.gang j = (slotsTaken s g).gang j := fun j => by
    rw [ht, hrest]
    rfl
  refine ⟨?_, ?_, fun q hq => ?_, fun j hj => ?_, ?_, ?_⟩
  · rw [hgang, slotsTaken_gang, if_pos rfl]
  · rw [hgang, slotsTaken_gang, if_pos rfl]
  · rw [ht]
    exact foldl_modQueue_mapped (.inr ⟨q, hq, rfl⟩)
  · rw [hgang, slotsTaken_gang, if_neg hj]
  · rw [ht, hrest]
    rfl
  · rw [ht, hrest]
    rfl

/-- The gang stands among those the host is to map (R102). -/
def hostAsked (s : State) (g : Nat) : State :=
  if s.hub.mapReqs.contains g then s else { s with hub := { s.hub with mapReqs := s.hub.mapReqs ++ [g] } }

theorem hostAsked_spec (s : State) (g : Nat) : g ∈ (hostAsked s g).hub.mapReqs ∧ (hostAsked s g).gang g = s.gang g
    ∧ (hostAsked s g).hub.queues = s.hub.queues ∧ (hostAsked s g).hub.hwslots = s.hub.hwslots ∧ (hostAsked s g).mem = s.mem := by
  unfold hostAsked
  split
  · next hg => exact ⟨List.contains_iff_mem.mp hg, rfl, rfl, rfl, rfl⟩
  · exact ⟨List.mem_append_right _ (List.mem_singleton_self g), rfl, rfl, rfl, rfl⟩

section
variable {s : State} {g : Nat} (hm : (s.gang g).mapped = false) (hk : (s.gang g).marked = true) (hq : s.gangQueues g ≠ [])
  (hst : s.hub.stalled = false)
include hm hk hq hst

/-- A gang of a resident context with work, that the front end serves and for which slots are free, is mapped (R110). -/
theorem execGangMap_maps (hx : (s.ctx (g / 256)).st = .resident) (ha : askedBy s g false)
    (hfree : (s.gangQueues g).length ≤ (freeSlots s).length) : execGangMap g s = .next (mapGang (ageGangs (askMap s g)) g) := by
  obtain ⟨hrest, hasks, -⟩ := askMap_asked hm hq ha
  have haged := gangsOnly_trans hrest (ageGangs_aged (askMap s g)).rest
  have hroom : (s.gangQueues g).length ≤ (freeSlots (ageGangs (askMap s g))).length := by rwa [gangsOnly_freeSlots haged]
  unfold execGangMap
  extract_lets x qs wanted s1 _ s2 need idleGangs s3 s4
  have hwanted : wanted = true := by simp [wanted, hk]
  have h3 : s3 = s2 := foldl_keeps (fun _ _ => if_pos hroom)
  have h4 : s4 = s2 := by
    simp only [s4, h3]
    exact if_pos hroom
  rw [if_neg (by simp [hm, hq, qs, hwanted, x, hx, hst]), if_neg (by rw [hasks]; simp), if_neg (by simp [x, hx]), h4]
  exact if_pos hroom

/-- A need that was raised under SPLIT.GANG goes to the host (R101, R102). -/
theorem execGangMap_asks (hx : (s.ctx (g / 256)).st ≠ .absent) (hd : (s.ctx (g / 256)).st ≠ .destroyed) (ha : askedBy s g true) :
    execGangMap g s = .next (hostAsked (askMap s g) g) := by
  obtain ⟨-, hasks, -⟩ := askMap_asked hm hq ha
  unfold execGangMap
  extract_lets x qs wanted s1
  have hwanted : wanted = true := by simp [wanted, hk]
  rw [if_neg (by simp [hm, hq, qs, hwanted, x, hx, hd, hst]), if_pos (by rw [hasks])]
  rfl

end

end Sys2Proof.Proofs
end

section
/-! The service of the software queues (O31), part 2: doorbells, the dispatch of packets, quanta and pre-emption, and the stall (R111 to R115). -/
namespace Sys2Proof.Proofs
open Laws
open Machine hiding Wf

/-! ### Doorbells -/

theorem askActive_active {s : State} (h : s.hub.idle = false) : s.askActive = s := by
  unfold State.askActive
  rw [h]
  rfl

/-- The queue after a doorbell that showed write index w within the ring (R111). -/
def shownQueue (s : State) (q : Queue) (w : Nat) : Queue := { q with wptr := w, vis := if w = q.wptr then q.vis else q.vis ++ [(w, s.ptime)] }

/-- The queue after a doorbell with an index beyond the ring. -/
def overrunQueue (s : State) (q : Queue) (w : Nat) : Queue := { q with wptr := w, vis := q.vis ++ [(w, s.ptime)] }

section
variable {s : State} {n w : Nat} (hi : s.hub.idle = false) (hf : s.hub.fenced = false) (hp : s.hostPath = true)
  (hst : (s.queue n).st = .ready ∨ (s.queue n).st = .idle) (hw : s.hubNat (s.queue n).descCid ((s.queue n).desc + 8) 4 = some w)
include hi hf hp hst hw

theorem execDoorbell_shows (hle : (w + 2 ^ 32 - (s.queue n).rptr) % 2 ^ 32 ≤ 2 ^ (s.queue n).logn) :
    execDoorbell n s = .next (if (s.queue n).st = .idle then queueReady (s.setQueue n (shownQueue s (s.queue n) w)) n
      else s.setQueue n (shownQueue s (s.queue n) w)) := by
  unfold execDoorbell
  rw [askActive_active hi]
  extract_lets t q
  have hq : q.st = .ready ∨ q.st = .idle := hst
  rw [if_neg (by obtain h | h := hq <;> simp [h, hf, hp, t]), hw]
  dsimp only
  rw [if_neg (Nat.not_lt.mpr hle), if_neg (by obtain h | h := hq <;> simp [h])]
  split <;> rfl

theorem execDoorbell_overruns (hlt : 2 ^ (s.queue n).logn < (w + 2 ^ 32 - (s.queue n).rptr) % 2 ^ 32) :
    execDoorbell n s = .next (failPkt (s.setQueue n (overrunQueue s (s.queue n) w)) n (ringPacket s (s.queue n) (s.queue n).rptr) stBAD_VALUE 0) := by
  unfold execDoorbell
  rw [askActive_active hi]
  extract_lets t q
  have hq : q.st = .ready ∨ q.st = .idle := hst
  rw [if_neg (by obtain h | h := hq <;> simp [h, hf, hp, t]), hw]
  dsimp only
  rw [if_pos hlt, if_neg (by obtain h | h := hq <;> simp [h])]
  rfl

end

/-- A queue in another state (R112). Its lemmas stand for any state at once: no proof then computes the packets that decide it. -/
def withSt (q : Queue) (st : QueueSt) : Queue := { q with st := st }

theorem withSt_fields (q : Queue) (st : QueueSt) : (withSt q st).st = st ∧ (withSt q st).wptr = q.wptr ∧ (withSt q st).rptr = q.rptr
    ∧ (withSt q st).heads = q.heads ∧ (withSt q st).out = q.out := ⟨rfl, rfl, rfl, rfl, rfl⟩

/-- Idle or ready, as the queue has packets (R112). -/
def restSt (q : Queue) : QueueSt := if q.pending = 0 then .idle else .ready

/-- A gang without a ready queue begins to wait (R114). -/
def waitStarts (s : State) (g : Nat) : State := if s.gangWaits g then s else s.modGang g (fun v => { v with agingFrom := s.ptime })

theorem waitStarts_gangsOnly (s : State) (g : Nat) : GangsOnly s (waitStarts s g) := by
  unfold waitStarts
  split
  · exact gangsOnly_refl s
  · exact gangsOnly_setGang s _ _

theorem queueReady_eq (s : State) (n : Nat) : queueReady s n = (waitStarts s (s.queue n).gangOf).setQueue n (withSt (s.queue n) (restSt (s.queue n))) := rfl

theorem queueReady_queue (s : State) (n m : Nat) : (queueReady s n).queue m = if m = n then withSt (s.queue n) (restSt (s.queue n)) else s.queue m := by
  rw [queueReady_eq, setQueue_queue, gangsOnly_queue (waitStarts_gangsOnly s _)]

theorem gangsOnly_setQueue_frame {s t : State} (h : GangsOnly s t) (n : Nat) (q : Queue) : { t.setQueue n q with hub := s.hub } = s :=
  congrArg (fun t : State => { t with hub := s.hub }) h

theorem queueReady_frame (s : State) (n : Nat) : { queueReady s n with hub := s.hub } = s := by
  rw [queueReady_eq]
  exact gangsOnly_setQueue_frame (waitStarts_gangsOnly s _) n _

theorem addPkt_pkt (s : State) (k : Pkt) : (addPkt s k).1.pkt s.hub.nextPkt = k := by
  unfold addPkt State.pkt
  simp

/-- A packet that fails at the head puts its queue in error (R112). -/
theorem failPkt_spec (s : State) (n : Nat) (b : List Byte) (st d : Nat) : let t := failPkt s n b st d
    (t.queue n).st = .error ∧ (t.queue n).rptr = (s.queue n).rptr ∧ (t.pkt s.hub.nextPkt).outcome = some (st, d) := by
  extract_lets t
  have hq : t.queue n = { s.queue n with st := .error, out := (s.queue n).out ++ [s.hub.nextPkt] } :=
    (setQueue_queue (addPkt s _).1 n n _).trans (if_pos rfl)
  have hp : t.pkt s.hub.nextPkt = { queue := n, cid := (s.queue n).cid, bytes := b, outcome := some (st, d) } := addPkt_pkt s _
  rw [hq, hp]
  exact ⟨rfl, rfl, rfl⟩

/-! ### Dispatch -/

theorem unblock_keeps {s : State} (h : ∀ p ∈ s.hub.queues, p.2.st ≠ .blocked) : unblock s = s :=
  foldl_keeps fun p hp => if_neg fun hc => h p hp hc.1

theorem blockedLaunches_none {s : State} (h : ∀ p ∈ s.hub.queues, p.2.st ≠ .blocked) (hr : s.hub.replays = []) : blockedLaunches s = [] := by
  unfold blockedLaunches
  extract_lets one
  rw [hr, List.filterMap_nil, List.append_nil, List.filterMap_eq_nil_iff]
  intro p hp
  dsimp only
  split
  · rw [if_neg fun hc => h p hp hc.1]
  · rfl

/-- With nothing in hand, no program in progress, no replay and no blocked queue, the chosen queue is served (R113, R114). -/
theorem packetDispatch_serves {s : State} {n : Nat} (hh : s.hub.hand = none) (hi : s.hub.interp = none) (hf : s.hub.fenced = false)
    (hst : s.hub.stalled = false) (hid : s.hub.idle = false) (hr : s.hub.replays = []) (hq : ∀ p ∈ s.hub.queues, p.2.st ≠ .blocked)
    (hc : chooseQueue (ageGangs s) = some n) : exec .packetDispatch s = .next (tryQueue (ageGangs s) n) := by
  have haged := (ageGangs_aged s).rest
  have hqa : ∀ p ∈ (ageGangs s).hub.queues, p.2.st ≠ .blocked := by rwa [gangsOnly_queues haged]
  have hra : (ageGangs s).hub.replays = [] := by rw [haged, hr]
  have hida : (ageGangs s).hub.idle = false := by rw [haged, hid]
  have hpress : pressHeld (ageGangs s) = ageGangs s := by
    unfold pressHeld
    rw [blockedLaunches_none hqa hra]
    rfl
  show execPacketDispatch s = _
  unfold execPacketDispatch
  rw [if_neg (by simp [hh, hi, hf, hst])]
  simp only [unblock_keeps hqa, hpress, chooseNode, hra, List.findSome?_nil, hc, askActive_active hida]

/-- The read index moves past the head packet (R111); the descriptor's copy of it is a write of the front end. -/
theorem advance_memOnly (s : State) (n : Nat) : ∃ vis, MemOnly
    (s.setQueue n { s.queue n with rptr := ((s.queue n).rptr + 1) % 2 ^ 32, heads := (s.queue n).heads.drop 1, vis := vis }) (advance s n) :=
  ⟨_, memOnly_hubWrite _ _ _ _⟩

/-- A packet of queue n has its record, and stands among those dispatched and not completed (R113). -/
def queuedPkt (s : State) (n : Nat) (k : Pkt) : State := (addPkt s k).1.modQueue n (fun v => { v with out := v.out ++ [(addPkt s k).2] })

theorem queuedPkt_queue (s : State) (n : Nat) (k : Pkt) : (queuedPkt s n k).queue n = { s.queue n with out := (s.queue n).out ++ [s.hub.nextPkt] } :=
  (setQueue_queue (addPkt s k).1 n n _).trans (if_pos rfl)

theorem queuedPkt_pkt (s : State) (n : Nat) (k : Pkt) : (queuedPkt s n k).pkt s.hub.nextPkt = k := addPkt_pkt s k

/-- Queue n is idle or ready, as it has packets. -/
def restQueue (s : State) (n : Nat) : State := s.setQueue n (withSt (s.queue n) (restSt (s.queue n)))

theorem restQueue_queue (s : State) (n : Nat) : (restQueue s n).queue n = withSt (s.queue n) (restSt (s.queue n)) := (setQueue_queue s n n _).trans (if_pos rfl)

theorem restQueue_pkt (s : State) (n p : Nat) : (restQueue s n).pkt p = s.pkt p := setQueue_pkt s n p _

theorem takePkt_eq (s : State) (n : Nat) (b : List Byte) (o : Option (Nat × Nat)) : (takePkt s n b o).1
    = restQueue (advance (queuedPkt s n { queue := n, cid := (s.queue n).cid, bytes := b, outcome := o }) n) n := by
  unfold takePkt queuedPkt
  generalize addPkt s _ = r
  obtain ⟨s1, id⟩ := r
  dsimp only
  generalize advance _ n = s2
  rfl

/-- What the packet that leaves its queue's head is, and what the queue is then (R111, R113). -/
theorem advance_queuedPkt (s : State) (n : Nat) (k : Pkt) : let t := advance (queuedPkt s n k) n
    (∃ seen, t.pkt s.hub.nextPkt = { k with seen := seen })
      ∧ (t.queue n).rptr = ((s.queue n).rptr + 1) % 2 ^ 32 ∧ (t.queue n).heads = (s.queue n).heads.drop 1
      ∧ (t.queue n).out = (s.queue n).out ++ [s.hub.nextPkt] := by
  obtain ⟨vis, hadv⟩ := advance_memOnly (queuedPkt s n k) n
  have hpkt := hadv.pkt s.hub.nextPkt
  rw [setQueue_pkt, queuedPkt_pkt] at hpkt
  have hqueue := memOnly_queue hadv n
  rw [setQueue_queue, if_pos rfl, queuedPkt_queue] at hqueue
  dsimp only
  rw [hqueue]
  exact ⟨⟨_, hpkt⟩, rfl, rfl, rfl⟩

/-- The head packet leaves its queue with the next place in the front-end order (R111, R113). -/
theorem takePkt_spec (s : State) (n : Nat) (b : List Byte) (o : Option (Nat × Nat)) :
    (∃ seen, (takePkt s n b o).1.pkt s.hub.nextPkt = { queue := n, cid := (s.queue n).cid, bytes := b, outcome := o, seen := seen })
      ∧ ((takePkt s n b o).1.queue n).rptr = ((s.queue n).rptr + 1) % 2 ^ 32
      ∧ ((takePkt s n b o).1.queue n).heads = (s.queue n).heads.drop 1
      ∧ ((takePkt s n b o).1.queue n).out = (s.queue n).out ++ [s.hub.nextPkt] := by
  obtain ⟨hpkt, hrptr, hheads, hout⟩ := advance_queuedPkt s n { queue := n, cid := (s.queue n).cid, bytes := b, outcome := o }
  rw [takePkt_eq, restQueue_pkt, restQueue_queue]
  generalize restSt _ = st
  obtain ⟨-, -, hr, hh, ho⟩ := withSt_fields ((advance (queuedPkt s n { queue := n, cid := (s.queue n).cid, bytes := b, outcome := o }) n).queue n) st
  exact ⟨hpkt, hr.trans hrptr, hh.trans hheads, ho.trans hout⟩

/-- Packet p is in hand (R113). -/
def handed (s : State) (p : Nat) : State := { s with hub := { s.hub with hand := some p } }

theorem handed_hand (s : State) (p : Nat) : (handed s p).hub.hand = some p := rfl
theorem handed_pkt (s : State) (p q : Nat) : (handed s p).pkt q = s.pkt q := rfl
theorem handed_queue (s : State) (p n : Nat) : (handed s p).queue n = s.queue n := rfl

theorem queueDispatched_queue (s : State) (n m : Nat) : (queueDispatched s n).queue m = s.queue m := rfl
theorem queueDispatched_nextPkt (s : State) (n : Nat) : (queueDispatched s n).hub.nextPkt = s.hub.nextPkt := rfl

section
variable {s : State} {n : Nat} {b : List Byte} {rest : List (Option (Nat × Nat) × List Byte)} (hh : (s.queue n).heads = (none, b) :: rest)
  (hb : packetOk b = true) (h1 : pOP b ≠ 1) (h2 : pOP b ≠ 2) (hf : headHeld s (s.queue n) = false)
include hh hb h1 h2 hf

theorem tryQueue_dispatches : tryQueue s n = handed (takePkt (queueDispatched s n) n b none).1 s.hub.nextPkt := by
  unfold tryQueue
  simp only [hh, hb, h1, h2, hf]
  rfl

/-- The head packet of the chosen queue is in hand, and the queue goes on behind it (R111, R113). -/
theorem tryQueue_spec : (tryQueue s n).hub.hand = some s.hub.nextPkt
      ∧ (∃ seen, (tryQueue s n).pkt s.hub.nextPkt = { queue := n, cid := (s.queue n).cid, bytes := b, seen := seen })
      ∧ ((tryQueue s n).queue n).rptr = ((s.queue n).rptr + 1) % 2 ^ 32 ∧ ((tryQueue s n).queue n).heads = rest
      ∧ ((tryQueue s n).queue n).out = (s.queue n).out ++ [s.hub.nextPkt] := by
  obtain ⟨hpkt, hrptr, hheads, hout⟩ := takePkt_spec (queueDispatched s n) n b none
  rw [queueDispatched_nextPkt, queueDispatched_queue] at hpkt
  rw [queueDispatched_queue] at hrptr
  rw [queueDispatched_queue, hh, List.drop_one, List.tail_cons] at hheads
  rw [queueDispatched_nextPkt, queueDispatched_queue] at hout
  rw [tryQueue_dispatches hh hb h1 h2 hf, handed_hand, handed_pkt, handed_queue]
  exact ⟨rfl, hpkt, hrptr, hheads, hout⟩

end

end Sys2Proof.Proofs
end

section
/-! The service of the software queues (O31), part 3: quanta, pre-emption, and the front end in a stall (R12, R115). -/
namespace Sys2Proof.Proofs
open Laws
open Machine hiding Wf

/-! ### Pre-emption -/

/-- A running context begins to stop, or goes on with the stop in progress (R103, R104). -/
theorem beginStop_running {s : State} {c : Nat} (h : (s.ctx c).st = .running) :
    beginStop s c .preempted = s.setCtx c { s.ctx c with stopping := some ((s.ctx c).stopping.getD .preempted) } := by
  unfold beginStop
  cases hx : (s.ctx c).stopping with
  | none => simp [hx, h]
  | some f => simp [hx]

theorem preemptFor_running {s : State} {c : Nat} (keys : List (Nat × Nat × Nat)) (h : (s.ctx c).st = .running) : let t := preemptFor s c keys
    t.ctx c = { s.ctx c with stopping := some ((s.ctx c).stopping.getD .preempted), room := ((s.ctx c).room ++ keys).eraseDups }
      ∧ (∀ d, d ≠ c → t.ctx d = s.ctx d) ∧ { t with ctxs := s.ctxs } = s := by
  unfold preemptFor
  rw [beginStop_running h]
  refine ⟨?_, fun d hd => ?_, rfl⟩
  · rw [modCtx_eq, setCtx_ctx, if_pos rfl, setCtx_ctx, if_pos rfl]
  · rw [modCtx_eq, setCtx_ctx, if_neg hd, setCtx_ctx, if_neg hd]

theorem mem_room {room keys : List (Nat × Nat × Nat)} {key : Nat × Nat × Nat} (h : key ∈ keys) : key ∈ (room ++ keys).eraseDups :=
  List.mem_eraseDups.mpr (List.mem_append_right room h)

/-- What waits for the cores of gang g's context: LAUNCH and LOOPL packets of other contexts that are blocked on them, and contexts to
restore there, of equal or higher priority (R115, R456). -/
def quantumKeys (s : State) (gang : Nat) : List (Nat × Nat × Nat) :=
  let cid := gang / 256
  let g := s.gang gang
  ((blockedLaunches s).filter (fun b => decide (b.cid ≠ cid) && decide (g.eff ≤ effOf s b.gang) && b.holders.contains cid)).map (·.key)
    ++ (s.ctxs.filter (fun p => decide (p.2.st = .preempted) && !p.2.restoring && decide (p.1 ≠ cid) && decide (g.eff ≤ ctxEff s p.1)
      && (restoreHolders s p.1).contains cid && !(restoreGangs s p.1).isEmpty)).map (fun p => (2, p.1, 0))

theorem blocked_mem_quantumKeys {s : State} {gang : Nat} {b : Blocked} (hb : b ∈ blockedLaunches s) (hc : b.cid ≠ gang / 256)
    (he : (s.gang gang).eff ≤ effOf s b.gang) (hh : b.holders.contains (gang / 256) = true) : b.key ∈ quantumKeys s gang := by
  refine List.mem_append_left _ (List.mem_map.mpr ⟨b, List.mem_filter.mpr ⟨hb, ?_⟩, rfl⟩)
  simpa [hc, he] using hh

theorem restore_mem_quantumKeys {s : State} {gang : Nat} {p : Nat × Ctx} (hp : p ∈ s.ctxs) (hc : p.1 ≠ gang / 256) (hst : p.2.st = .preempted)
    (hr : p.2.restoring = false) (hg : restoreGangs s p.1 ≠ []) (he : (s.gang gang).eff ≤ ctxEff s p.1)
    (hh : (restoreHolders s p.1).contains (gang / 256) = true) : (2, p.1, 0) ∈ quantumKeys s gang := by
  refine List.mem_append_right _ (List.mem_map.mpr ⟨p, List.mem_filter.mpr ⟨hp, ?_⟩, rfl⟩)
  simpa [hst, hr, hc, he, hg] using hh

/-- A running gang past its quantum gives way to what waits (R115). -/
theorem quantumExpiry_yields {s : State} {g t0 : Nat} {key : Nat × Nat × Nat} (ht : (s.gang g).turnStart = some t0)
    (hx : (s.ctx (g / 256)).st = .running) (hq : t0 + (s.gang g).quant * 1000 ≤ s.ptime) (hr : (runningGangs s (g / 256)).contains g = true)
    (hs : s.hub.stalled = false) (hk : key ∈ quantumKeys (ageGangs s) g) :
    ∃ t, exec (.quantumExpiry g) s = .next t ∧ (t.gang g).turnStart = none
      ∧ (t.ctx (g / 256)).stopping = some ((s.ctx (g / 256)).stopping.getD .preempted) ∧ key ∈ (t.ctx (g / 256)).room
      ∧ (∀ d, d ≠ g / 256 → t.ctx d = s.ctx d) ∧ t.mem = s.mem ∧ t.cores = s.cores := by
  obtain ⟨hrest, hgang⟩ := ageGangs_aged s
  have hturn : ((ageGangs s).gang g).turnStart = some t0 := by rw [hgang, ht]
  have hquant : ((ageGangs s).gang g).quant = (s.gang g).quant := by rw [hgang]
  have hrun : ((ageGangs s).ctx (g / 256)).st = .running := by rw [gangsOnly_ctx hrest, hx]
  have hgangs : (runningGangs (ageGangs s) (g / 256)).contains g = true := by rw [gangsOnly_runningGangs hrest, hr]
  have hptime := gangsOnly_ptime hrest
  have hstalled : (ageGangs s).hub.stalled = false := by rw [hrest, hs]
  have hctx := gangsOnly_ctx hrest
  have hmem := gangsOnly_mem hrest
  have hcores := gangsOnly_cores hrest
  have hne : (!(quantumKeys (ageGangs s) g).isEmpty) = true := by
    simpa using List.ne_nil_of_mem hk
  obtain ⟨hc, hother, hframe⟩ := preemptFor_running (quantumKeys (ageGangs s) g) hrun
  have hexec : exec (.quantumExpiry g) s = .next ((preemptFor (ageGangs s) (g / 256) (quantumKeys (ageGangs s) g)).setGang g
      { (ageGangs s).gang g with turnStart := none }) := by
    show execQuantumExpiry g s = _
    unfold execQuantumExpiry
    simp only [hturn]
    exact if_pos ⟨hrun, by rw [hquant, hptime]; exact hq, hgangs, hne, by rw [hstalled]; rfl⟩
  refine ⟨_, hexec, ?_, ?_, ?_, fun d hd => ?_, ?_, ?_⟩
  · rw [setGang_gang, if_pos rfl]
  · rw [setGang_ctx, hc, hctx]
  · rw [setGang_ctx, hc]
    exact mem_room hk
  · rw [setGang_ctx, hother d hd, hctx]
  · have h := congrArg State.mem hframe
    exact h.trans hmem
  · have h := congrArg State.cores hframe
    exact h.trans hcores

/-- The head of a blocked queue, a LAUNCH or LOOPL that nothing but its cores holds, is among those that wait for cores (R115). -/
theorem blockedHead_mem {s : State} {p : Nat × Queue} {b : List Byte} {rest : List (Option (Nat × Nat) × List Byte)} (hp : p ∈ s.hub.queues)
    (hst : p.2.st = .blocked) (hw : waiting s p.2 = false) (hb : (pBAR b && !p.2.out.isEmpty) = false) (hh : p.2.heads = (none, b) :: rest) :
    { key := (0, p.1, p.2.rptr), gang := p.2.gangOf, cid := p.2.cid, holders := (coresWanted s p.2.cid b).map (busyFor s) } ∈ blockedLaunches s := by
  refine List.mem_append_left _ (List.mem_filterMap.mpr ⟨p, hp, ?_⟩)
  simp only [hh]
  exact if_pos ⟨hst, by rw [hw]; rfl, by rw [hb]; rfl⟩

/-- A blocked LAUNCH or LOOPL of higher priority presses the one context that holds its cores (R115). -/
theorem pressHeld_preempts {s : State} {b : Blocked} {h : Nat} (hb : h ≠ b.cid) (hh : b.holders = [h]) (hl : blockedLaunches s = [b])
    (hx : (s.ctx h).st = .running) (hr : runningGangs s h ≠ []) (he : ∀ g ∈ runningGangs s h, effOf s g < effOf s b.gang) :
    pressHeld s = preemptFor s h [b.key] := by
  have hgs : (!(runningGangs s h).isEmpty) = true := by simpa using hr
  have hall : (runningGangs s h).all (fun g => decide (effOf s g < effOf s b.gang)) = true := by simpa using he
  unfold pressHeld
  rw [hl]
  show contend s (effOf s b.gang) b.cid b.key b.holders = _
  unfold contend
  have hone : ([h].eraseDups.filter (fun k => decide (k ≠ b.cid))) = [h] := by simp [List.eraseDups_cons, hb]
  rw [hh, hone]
  exact if_pos ⟨hx, hgs, hall⟩

/-! ### The stall -/

section
variable {s : State} (h : s.hub.stalled = true)
include h

theorem inHand_stalled (op : Nat) : inHand s op = none := by
  unfold inHand
  cases s.hub.hand with
  | none => rfl
  | some p => simp [h]

theorem ctxcHand_stalled (sub : Nat) : ctxcHand s sub = none := by
  unfold ctxcHand
  rw [inHand_stalled h]

theorem onContext_stalled (sub : Nat) (f : Nat → Pkt → Nat → Ctx → State) : onContext s sub f = .next s := by
  unfold onContext
  rw [ctxcHand_stalled h]

theorem onQueue_stalled (sub : Nat) (f : Nat → Pkt → Nat → Queue → State) : onQueue s sub f = .next s := onContext_stalled h sub _

/-- A kernel is not launched in a stall, whether the device is fenced or not. -/
theorem launch_stalled : execLaunch s = .next s ∧ execLoopl s = .next s := by
  simp only [execLaunch, execLoopl, inHand_stalled h, ite_self, and_self]

theorem command_stalled : execPacketCopy s = .next s ∧ execGraphr s = .next s ∧ execGraphp s = .next s ∧ execBind s = .next s
    ∧ execUnmap s = .next s ∧ execSignal s = .next s ∧ execWait s = .next s := by
  simp only [execPacketCopy, execGraphr, execGraphp, execBind, execUnmap, execSignal, execWait, inHand_stalled h, and_self]

theorem ctxControl_stalled : execCtxcCreate s = .next s ∧ execCtxcDestroy s = .next s ∧ execCtxcSet s = .next s ∧ execCtxcResume s = .next s
    ∧ execCtxcCkpt s = .next s ∧ execCtxcQcreate s = .next s ∧ execCtxcQdestroy s = .next s ∧ execCtxcQprog s = .next s
    ∧ execCtxcQreset s = .next s ∧ execCtxcGmap s = .next s ∧ execCtxcGunmap s = .next s ∧ execCtxcHdrop s = .next s
    ∧ execCtxcFpool s = .next s := by
  simp only [execCtxcCreate, execCtxcDestroy, execCtxcSet, execCtxcResume, execCtxcCkpt, execCtxcQcreate, execCtxcQdestroy, execCtxcQprog,
    execCtxcQreset, execCtxcGmap, execCtxcGunmap, execCtxcHdrop, execCtxcFpool, ctxcHand_stalled h, onContext_stalled h, onQueue_stalled h, and_self]

theorem packetDispatch_stalled : execPacketDispatch s = .next s := by
  unfold execPacketDispatch
  exact if_pos (.inr (.inr (.inr h)))

/-- The front end stands still in a stall (R12, log 107). -/
theorem frontEnd_stalled {i : Instr} (hi : i ∈ [Instr.launch, .loopl, .packetCopy, .graphr, .graphp, .bind, .unmap, .signal, .wait, .ctxcCreate,
    .ctxcDestroy, .ctxcSet, .ctxcResume, .ctxcCkpt, .ctxcQcreate, .ctxcQdestroy, .ctxcQprog, .ctxcQreset, .ctxcGmap, .ctxcGunmap, .ctxcHdrop,
    .ctxcFpool, .packetDispatch]) : exec i s = .next s := by
  obtain ⟨hlaunch, hloopl⟩ := launch_stalled h
  obtain ⟨hcopy, hgraphr, hgraphp, hbind, hunmap, hsignal, hwait⟩ := command_stalled h
  obtain ⟨hcreate, hdestroy, hset, hresume, hckpt, hqcreate, hqdestroy, hqprog, hqreset, hgmap, hgunmap, hhdrop, hfpool⟩ := ctxControl_stalled h
  simp only [List.mem_cons, List.not_mem_nil, or_false] at hi
  rcases hi with rfl | rfl | rfl | rfl | rfl | rfl | rfl | rfl | rfl | rfl | rfl | rfl | rfl | rfl | rfl | rfl | rfl | rfl | rfl | rfl | rfl
    | rfl | rfl
  exacts [hlaunch, hloopl, hcopy, hgraphr, hgraphp, hbind, hunmap, hsignal, hwait, hcreate, hdestroy, hset, hresume, hckpt, hqcreate, hqdestroy,
    hqprog, hqreset, hgmap, hgunmap, hhdrop, hfpool, packetDispatch_stalled h]

end

theorem shownQueue_restSt (s : State) (q : Queue) (w : Nat) :
    restSt (shownQueue s q w) = if (w + 2 ^ 32 - q.rptr) % 2 ^ 32 = 0 then .idle else .ready := by
  unfold restSt Queue.pending shownQueue
  dsimp only

/-- A doorbell within the ring (R111): the queue has the new write index, and one that was idle is ready when it shows packets. -/
theorem doorbell_shows {s : State} {n w : Nat} (hi : s.hub.idle = false) (hf : s.hub.fenced = false) (hp : s.hostPath = true)
    (hst : (s.queue n).st = .ready ∨ (s.queue n).st = .idle) (hw : s.hubNat (s.queue n).descCid ((s.queue n).desc + 8) 4 = some w)
    (hle : (w + 2 ^ 32 - (s.queue n).rptr) % 2 ^ 32 ≤ 2 ^ (s.queue n).logn) :
    ∃ t st, exec (.doorbell n) s = .next t ∧ t.queue n = withSt (shownQueue s (s.queue n) w) st
      ∧ ((s.queue n).st = .ready → st = .ready)
      ∧ ((s.queue n).st = .idle → st = if (w + 2 ^ 32 - (s.queue n).rptr) % 2 ^ 32 = 0 then .idle else .ready)
      ∧ (∀ m, m ≠ n → t.queue m = s.queue m) ∧ { t with hub := s.hub } = s := by
  have hexec := execDoorbell_shows hi hf hp hst hw hle
  obtain hready | hidle := hst
  · rw [if_neg (by rw [hready]; decide)] at hexec
    refine ⟨_, .ready, hexec, ?_, fun _ => rfl, fun h => absurd (hready.symm.trans h) (by decide), fun m hm => ?_, rfl⟩
    · rw [setQueue_queue, if_pos rfl, ← hready]
      rfl
    · rw [setQueue_queue, if_neg hm]
  · rw [if_pos hidle] at hexec
    refine ⟨_, _, hexec, ?_, fun h => absurd (hidle.symm.trans h) (by decide), fun _ => shownQueue_restSt s (s.queue n) w, fun m hm => ?_, ?_⟩
    · rw [queueReady_queue, if_pos rfl, setQueue_queue, if_pos rfl]
    · rw [queueReady_queue, if_neg hm, setQueue_queue, if_neg hm]
    · have hframe := queueReady_frame (s.setQueue n (shownQueue s (s.queue n) w)) n
      exact congrArg (fun t : State => { t with hub := s.hub }) hframe

/-- Settles O31: each event of the service is one operation whose effect a lemma above says. -/
theorem queueService : Obligations.QueueService := by
  unfold Obligations.QueueService
  refine ⟨?doorbell, ?map, ?dispatch, ?take, ?aging, ?quantum, ?blocked, ?press, ?ask, fun s i hi h => frontEnd_stalled h hi⟩
  case doorbell =>
    intro s n w hi hf hp q hst hw
    refine ⟨fun hle => ?_, fun hlt => ?_⟩
    · obtain ⟨t, st, hexec, hq, hready, hidle, hother, hframe⟩ := doorbell_shows hi hf hp hst hw hle
      obtain ⟨hqst, hwptr, hrptr, -, -⟩ := withSt_fields (shownQueue s (s.queue n) w) st
      refine ⟨t, hexec, ?_, ?_, fun h => ?_, fun h => ?_, hother, ?_, ?_, ?_⟩
      · rw [hq, hwptr]
        rfl
      · rw [hq, hrptr]
        rfl
      · rw [hq, hqst, hready h]
      · rw [hq, hqst, hidle h]
      · have hmem := congrArg State.mem hframe
        exact hmem
      · have htiles := congrArg State.tiles hframe
        exact htiles
      · have hcores := congrArg State.cores hframe
        exact hcores
    · have hexec := execDoorbell_overruns hi hf hp hst hw hlt
      obtain ⟨herr, hrptr, hout⟩ := failPkt_spec (s.setQueue n (overrunQueue s (s.queue n) w)) n (ringPacket s (s.queue n) (s.queue n).rptr) stBAD_VALUE 0
      refine ⟨_, hexec, herr, ?_, hout⟩
      rw [hrptr, setQueue_queue, if_pos rfl]
      rfl
  case map =>
    intro s g hm hk hq hx hs ha hfree
    have hexec := execGangMap_maps hm hk hq hs hx ha hfree
    obtain ⟨hrest, hasks, hother⟩ := askMap_asked hm hq ha
    obtain ⟨haged, hgang⟩ := ageGangs_aged (askMap s g)
    have hboth := gangsOnly_trans hrest haged
    obtain ⟨hmapped, hmarked, hqueues, hgangs, hcores, hmem⟩ := mapGang_spec (s := ageGangs (askMap s g)) (g := g) (by rw [gangsOnly_ctx hboth, hx])
    refine ⟨_, hexec, hmapped, hmarked, ?_, fun j hj => ?_, hcores.trans (gangsOnly_cores hboth), hmem.trans (gangsOnly_mem hboth)⟩
    · rwa [gangsOnly_gangQueues hboth] at hqueues
    · rw [hgangs j hj, hgang, hother j hj]
  case dispatch =>
    intro s n hh hi hf hst hid hr hq a hc
    exact packetDispatch_serves hh hi hf hst hid hr hq hc
  case take =>
    intro s n b rest hh hb h1 h2 hf t
    obtain ⟨hhand, ⟨seen, hpkt⟩, hqueue⟩ := tryQueue_spec hh hb h1 h2 hf
    refine ⟨hhand, ?_, ?_, ?_, ?_, hqueue⟩
    all_goals rw [hpkt]
  case aging => exact fun s g hm hw he => congrArg Host.Outcome.next (ageGang_waits hm hw he)
  case quantum =>
    intro s g t0 a c after ht hx hq hr hs
    exact ⟨fun b hb hc he hh => quantumExpiry_yields ht hx hq hr hs (blocked_mem_quantumKeys hb hc he hh),
      fun p hp hc hst hrest hg he hh => quantumExpiry_yields ht hx hq hr hs (restore_mem_quantumKeys
        (by rwa [gangsOnly_ctxs (ageGangs_aged s).rest]) hc hst hrest hg he hh)⟩
  case blocked => exact fun s p b rest hp hst hw hb hh => blockedHead_mem hp hst hw hb hh
  case press =>
    intro s b h hb hh hl hx hr he
    obtain ⟨hctx, hother, -⟩ := preemptFor_running [b.key] hx
    rw [pressHeld_preempts hb hh hl hx hr he]
    refine ⟨?_, ?_, hother⟩
    · rw [hctx]
    · rw [hctx]
      exact mem_room (List.mem_singleton_self _)
  case ask =>
    intro s g hm hk hq hx hd hs ha
    obtain ⟨hrest, hasks, -⟩ := askMap_asked hm hq ha
    obtain ⟨hmapReqs, hgang, hqueues, hslots, hmem⟩ := hostAsked_spec (askMap s g) g
    exact ⟨_, execGangMap_asks hm hk hq hs hx hd ha, hgang.trans hasks, hmapReqs, hqueues.trans (gangsOnly_queues hrest),
      hslots.trans (gangsOnly_hwslots hrest), hmem.trans (gangsOnly_mem hrest)⟩

end Sys2Proof.Proofs
end

section
/-! COPY, BIND, SIGNAL and WAIT packets (O33; R118, R119, R296, R300). -/
namespace Sys2Proof.Proofs
open Laws
open Machine hiding Wf

/-! ### Numbers in memory -/

theorem leNat_lt (bs : List Byte) : leNat bs < 256 ^ bs.length := by
  induction bs with
  | nil => simp [leNat]
  | cons b bs ih =>
    rw [leNat, List.length_cons, pow_succ]
    have hb := b.isLt
    omega

theorem leBytes_length (n v : Nat) : (leBytes n v).length = n := by
  induction n generalizing v with
  | zero => rfl
  | succ n ih => rw [leBytes, List.length_cons, ih]

theorem leNat_leBytes (n v : Nat) : leNat (leBytes n v) = v % 256 ^ n := by
  induction n generalizing v with
  | zero => simp [leBytes, leNat, Nat.mod_one]
  | succ n ih =>
    have hb : (BitVec.ofNat 8 v).toNat = v % 256 := BitVec.toNat_ofNat v 8
    rw [leBytes, leNat, ih, hb, pow_succ', Nat.mod_mul]

theorem field_lt (b : List Byte) (off len : Nat) : field b off len < 256 ^ len :=
  (leNat_lt _).trans_le (Nat.pow_le_pow_right (by decide) (by simp))

theorem memNat_lt (s : State) (pa len : Nat) : s.memNat pa len < 256 ^ len := by
  have h := leNat_lt (s.memBytes pa len)
  rwa [State.memBytes, List.length_map, upTo, List.length_range] at h

theorem memBytes_putMem (s : State) (pa : Nat) (bs : List Byte) : (s.putMem pa bs).memBytes pa bs.length = bs := by
  refine List.ext_getElem (by simp [State.memBytes, upTo]) fun i h h' => ?_
  simp only [State.memBytes, upTo, List.getElem_map, List.getElem_range, putMem_get]
  rw [if_pos (by omega), Nat.add_sub_cancel_left, List.getD_eq_getElem _ _ h']

/-- A number is read back as it was written. -/
theorem memNat_putMemNat {s : State} {pa len v : Nat} (h : v < 256 ^ len) : (s.putMemNat pa len v).memNat pa len = v := by
  have hbytes := memBytes_putMem s pa (leBytes len v)
  rw [leBytes_length] at hbytes
  rw [State.memNat, State.putMemNat, hbytes, leNat_leBytes, Nat.mod_eq_of_lt h]

theorem memOnly_putMemNat (s : State) (pa len v : Nat) : MemOnly s (s.putMemNat pa len v) := memOnly_putMem s pa (leBytes len v)

theorem putMemNat_get {s : State} {pa len v x : Nat} (h : x < pa ∨ pa + len ≤ x) : sget 0 (s.putMemNat pa len v).mem x = sget 0 s.mem x := by
  rw [State.putMemNat, putMem_get, leBytes_length, if_neg (by omega)]

/-! ### Atomic-only lines (R296) -/

theorem touchLine_atomicOnly (s : State) (ln : Nat) : (s.touchLine ln).atomicOnly = s.atomicOnly := by
  have hw : ∀ t : State, (t.noteWaits ln).atomicOnly = t.atomicOnly := fun t => by
    unfold State.noteWaits
    split <;> rfl
  have hl : ∀ t : State, (t.noteLoops ln).atomicOnly = t.atomicOnly := fun t => by
    unfold State.noteLoops
    split <;> rfl
  unfold State.touchLine
  rw [hl, hw]

theorem putMem_atomicOnly (s : State) (pa : Nat) (bs : List Byte) : (s.putMem pa bs).atomicOnly = s.atomicOnly := by
  unfold State.putMem
  generalize upTo _ = l
  extract_lets s1
  have h : s1.atomicOnly = s.atomicOnly := rfl
  clear_value s1
  induction l generalizing s1 with
  | nil => exact h
  | cons j l ih =>
    refine ih _ ?_
    dsimp only
    split
    · rw [touchLine_atomicOnly, h]
    · exact h

theorem isAtomic_putMemNat (s : State) (pa len v ln : Nat) : (s.putMemNat pa len v).isAtomic ln = s.isAtomic ln := by
  rw [State.isAtomic, State.putMemNat, putMem_atomicOnly, State.isAtomic]

theorem isAtomic_markAtomic (s : State) (ln : Nat) : (s.markAtomic ln).isAtomic ln = true := by
  unfold State.markAtomic State.isAtomic
  simp

/-! ### The packet in hand is answered -/

theorem pktOutcome_frame (s : State) (p st d : Nat) : { pktOutcome s p st d with hub := s.hub } = s := by
  unfold pktOutcome
  dsimp only
  by_cases h : (s.pkt p).outcome.isSome
  · rw [if_pos h]
  · rw [if_neg h]
    rfl

theorem pktOutcome_outcome {s : State} {p : Nat} (h : (s.pkt p).outcome = none) (st d : Nat) :
    ((pktOutcome s p st d).pkt p).outcome = some (st, d) := by
  unfold pktOutcome
  dsimp only
  rw [if_neg (by simp [h]), setPkt_pkt, if_pos rfl]

/-- An answer leaves all but the hub. -/
theorem answer_frame (s : State) (p st d : Nat) : { answer s p st d with hub := s.hub } = s := pktOutcome_frame s p st d

theorem answer_cores (s : State) (p st d : Nat) : (answer s p st d).cores = s.cores := by
  have h := congrArg State.cores (answer_frame s p st d)
  exact h
theorem answer_ctx (s : State) (p st d c : Nat) : (answer s p st d).ctx c = s.ctx c := by
  have h := congrArg (fun t : State => t.ctx c) (answer_frame s p st d)
  exact h
theorem answer_isAtomic (s : State) (p st d ln : Nat) : (answer s p st d).isAtomic ln = s.isAtomic ln := by
  have h := congrArg (fun t : State => t.isAtomic ln) (answer_frame s p st d)
  exact h
theorem answer_memNat (s : State) (p st d pa len : Nat) : (answer s p st d).memNat pa len = s.memNat pa len := by
  have h := congrArg (fun t : State => t.memNat pa len) (answer_frame s p st d)
  exact h

/-! ### COPY -/

theorem handlesStatus_nil {x : Ctx} (h : x.handles.length ≤ 4096) : handlesStatus x [] = none := by
  unfold handlesStatus
  simp [namedRanges, h]

theorem useHandles_nil (s : State) (c p : Nat) : useHandles s c p [] = s.setPkt p { s.pkt p with hands := [] } := rfl

section
variable {s : State} {p : Nat} (hh : s.hub.hand = some p) (hs : s.hub.stalled = false) (ho : pOP (s.pkt p).bytes = 3)
  (hl : handlesOf s (s.pkt p).cid (s.pkt p).bytes = some []) (hn : (s.ctx (s.pkt p).cid).handles.length ≤ 4096)
include hh hs ho hl hn

/-- The COPY in hand without handles: its ranges decide (R118). -/
theorem execPacketCopy_inHand : exec .packetCopy s =
    (let b := (s.pkt p).bytes
     let c := (s.pkt p).cid
     let s1 := useHandles s c p []
     if !(hubMay s1 c (field b 16 8) (field b 32 8) 0) || !(hubMay s1 c (field b 24 8) (field b 32 8) 1) then .next (answer s1 p stBAD_VALUE 0)
     else .next (answer (s1.hubWrite c (field b 24 8) ((s1.hubRead c (field b 16 8) (field b 32 8)).getD [])) p stOK 0)) := by
  show execPacketCopy s = _
  unfold execPacketCopy
  rw [inHand_some hh ho hs]
  simp only [hl, Option.getD_some, handlesStatus_nil hn]
  rfl

end

/-! ### BIND -/

theorem sameSpace_regions (s : State) (c : Nat) (rs : SMap Region) : SameSpace s (s.setCtx c { s.ctx c with regions := rs }) c := by
  have hctx : (s.setCtx c { s.ctx c with regions := rs }).ctx c = { s.ctx c with regions := rs } := by rw [setCtx_ctx, if_pos rfl]
  refine ⟨rfl, rfl, rfl, ?_, ?_, ?_⟩
  all_goals rw [hctx]

/-- The word that a region's writes are told at, once the region stands (R300). -/
def syncMarked (s : State) (c sync : Nat) : State :=
  match s.devPa c sync with
  | some pa => s.markAtomic (pa / 64)
  | none => s

theorem memOnly_syncMarked (s : State) (c sync : Nat) : MemOnly s (syncMarked s c sync) := by
  unfold syncMarked
  split
  · exact memOnly_markAtomic s _
  · exact memOnly_refl s

theorem isAtomic_syncMarked {s : State} {c sync pa : Nat} (h : s.devPa c sync = some pa) : (syncMarked s c sync).isAtomic (pa / 64) = true := by
  unfold syncMarked
  rw [h]
  exact isAtomic_markAtomic s _

section
variable {s : State} {p : Nat} (hh : s.hub.hand = some p) (hs : s.hub.stalled = false) (ho : pOP (s.pkt p).bytes = 6)
  (hq : acquiring s (s.pkt p).cid = false)
include hh hs ho hq

/-- A BIND that makes a region entry invalid (R300). -/
theorem execBind_unbinds (hb : bitOf (field (s.pkt p).bytes 42 1) 0 = true) : exec .bind s =
    .next (answer (s.setCtx (s.pkt p).cid { s.ctx (s.pkt p).cid with
      regions := smod {} (s.ctx (s.pkt p).cid).regions (field (s.pkt p).bytes 40 2) (fun r => { r with valid := false }) }) p stOK 0) := by
  show execBind s = _
  unfold execBind
  rw [inHand_some hh ho hs]
  simp only [hb, hq]
  rfl

/-- A BIND of a range that passes its limits writes the region entry (R300). -/
theorem execBind_binds (hb : bitOf (field (s.pkt p).bytes 42 1) 0 = false) {base len sync idx : Nat}
    (ebase : field (s.pkt p).bytes 16 8 = base) (elen : field (s.pkt p).bytes 24 8 = len) (esync : field (s.pkt p).bytes 32 8 = sync)
    (eidx : field (s.pkt p).bytes 40 2 = idx) (h1 : base % 64 = 0) (h2 : len % 64 = 0) (h3 : 64 ≤ len) (h4 : len ≤ 2 ^ 40) (h5 : base + len ≤ 2 ^ 56)
    (h6 : ¬(base ≤ sync ∧ sync < base + len))
    (h7 : ∀ r ∈ (s.ctx (s.pkt p).cid).regions, r.2.valid = true → r.1 ≠ idx →
      overlaps base len r.2.base r.2.bytes = false ∧ ¬(r.2.base ≤ sync ∧ sync < r.2.base + r.2.bytes)) : exec .bind s =
    .next (answer (syncMarked (s.setCtx (s.pkt p).cid { s.ctx (s.pkt p).cid with
      regions := sset {} (s.ctx (s.pkt p).cid).regions idx { valid := true, base := base, bytes := len, sync := sync } }) (s.pkt p).cid sync) p stOK 0) := by
  have hover : ((s.ctx (s.pkt p).cid).regions.filter (fun r => r.2.valid && decide (r.1 ≠ idx))).any
      (fun r => overlaps base len r.2.base r.2.bytes) = false := by
    rw [List.any_eq_false]
    intro r hr
    obtain ⟨hmem, hcond⟩ := List.mem_filter.mp hr
    obtain ⟨hv, hne⟩ := Bool.and_eq_true_iff.mp hcond
    simp [(h7 r hmem hv (of_decide_eq_true hne)).1]
  have hword : ((s.ctx (s.pkt p).cid).regions.filter (fun r => r.2.valid && decide (r.1 ≠ idx))).any
      (fun r => decide (r.2.base ≤ sync) && decide (sync < r.2.base + r.2.bytes)) = false := by
    rw [List.any_eq_false]
    intro r hr
    obtain ⟨hmem, hcond⟩ := List.mem_filter.mp hr
    obtain ⟨hv, hne⟩ := Bool.and_eq_true_iff.mp hcond
    simpa using (h7 r hmem hv (of_decide_eq_true hne)).2
  have hown : (decide (base ≤ sync) && decide (sync < base + len)) = false := by simpa using h6
  show execBind s = _
  unfold execBind
  rw [inHand_some hh ho hs]
  simp only [hb, hq, ebase, elen, esync, eidx, hover, hword, hown, h1, h2, Nat.not_lt.mpr h3, Nat.not_lt.mpr h4, Nat.not_lt.mpr h5]
  rfl

end

/-! ### SIGNAL -/

/-- What a SIGNAL leaves in its word (R118). -/
def signalled (op old v : Nat) : Nat :=
  match op with
  | 0 => v
  | 1 => (old + v) % 2 ^ 64
  | _ => max old v

theorem signalled_store (old v : Nat) : signalled 0 old v = v := rfl
theorem signalled_add (old v : Nat) : signalled 1 old v = (old + v) % 2 ^ 64 := rfl
theorem signalled_max (old v : Nat) : signalled 2 old v = max old v := rfl

theorem signalled_lt {op old v : Nat} (ho : old < 256 ^ 8) (hv : v < 256 ^ 8) : signalled op old v < 256 ^ 8 := by
  unfold signalled
  split <;> omega

theorem execSignal_inHand {s : State} {p pa : Nat} {e : TlbEntry} (hh : s.hub.hand = some p) (hs : s.hub.stalled = false)
    (ho : pOP (s.pkt p).bytes = 8) (ht : Machine.translate s 256 (s.pkt p).cid (field (s.pkt p).bytes 16 8) 2 = .ok (pa, e)) :
    exec .signal s = .next (answer ((s.markAtomic (pa / 64)).putMemNat pa 8
      (signalled (field (s.pkt p).bytes 32 1) ((s.markAtomic (pa / 64)).memNat pa 8) (field (s.pkt p).bytes 24 8))) p stOK 0) := by
  show execSignal s = _
  unfold execSignal
  rw [inHand_some hh ho hs]
  simp only [ht]
  rfl

/-! ### WAIT -/

/-- A WAIT whose word translates compares it (R119). -/
theorem waitHolds_of_hubNat {s : State} {k : Pkt} {w : Nat} (h : s.hubNat k.cid (field k.bytes 16 8) 8 = some w) :
    waitHolds s k = some (waitCmp (field k.bytes 32 1) (field k.bytes 24 8) w) := by
  unfold waitHolds
  rw [h]
  rfl

/-- The packet of a WAIT that has begun: the word it watches and its deadline (R119). -/
def waitingPkt (s : State) (k : Pkt) : Pkt :=
  { k with
    started := true
    watch := (s.devPa k.cid (field k.bytes 16 8)).map (fun pa => (pa, field k.bytes 24 8, field k.bytes 32 1))
    deadline := if field k.bytes 40 8 = 0 then none else some (s.ptime + 1000 * field k.bytes 40 8) }

/-- A WAIT whose comparison does not hold waits; the hand is free (R119). -/
def waitBegun (s : State) (p : Nat) : State := handDone (s.setPkt p (waitingPkt s (s.pkt p)))

/-- A queue behind a WAIT that has begun is blocked (R112, R119). -/
def blockedBehind (q : Queue) : Queue := { q with st := if q.st = .ready ∨ q.st = .idle then .blocked else q.st }

section
variable {s : State} {p : Nat} (hh : s.hub.hand = some p) (hs : s.hub.stalled = false) (ho : pOP (s.pkt p).bytes = 9)
include hh hs ho

theorem execWait_holds (hw : waitHolds s (s.pkt p) = some true) : exec .wait s = .next (answer s p stOK 0) := by
  show execWait s = _
  unfold execWait
  rw [inHand_some hh ho hs]
  simp only [hw]

theorem execWait_waits (hw : waitHolds s (s.pkt p) = some false) : exec .wait s =
    .next (if (s.pkt p).node.isSome then waitBegun s p else (waitBegun s p).modQueue (s.pkt p).queue blockedBehind) := by
  have h : execWait s = if (s.pkt p).node.isSome then .next (waitBegun s p) else .next ((waitBegun s p).modQueue (s.pkt p).queue blockedBehind) := by
    unfold execWait
    rw [inHand_some hh ho hs]
    simp only [hw]
    rfl
  refine h.trans ?_
  split <;> rfl

end

theorem waitBegun_spec (s : State) (p : Nat) :
    (waitBegun s p).hub.hand = none ∧ (waitBegun s p).pkt p = waitingPkt s (s.pkt p) ∧ (waitBegun s p).mem = s.mem :=
  ⟨rfl, (setPkt_pkt s p p _).trans (if_pos rfl), rfl⟩

theorem queueReady_pkt (s : State) (n p : Nat) : (queueReady s n).pkt p = s.pkt p := by
  rw [queueReady_eq, setQueue_pkt, State.pkt, waitStarts_gangsOnly s _, State.pkt]

/-- A WAIT that is over has its outcome, and its queue may go on; nothing outside the hub changes (R119). -/
theorem waitOver_spec {s : State} {p : Nat} (h : (s.pkt p).outcome = none) (st : Nat) :
    ((waitOver s p st).pkt p).outcome = some (st, 0) ∧ (waitOver s p st).mem = s.mem ∧ (waitOver s p st).cores = s.cores := by
  have hframe := pktOutcome_frame s p st 0
  have hmem := congrArg State.mem hframe
  have hcores := congrArg State.cores hframe
  unfold waitOver
  extract_lets k s1
  have hs1 : (s1.pkt p).outcome = some (st, 0) ∧ s1.mem = s.mem ∧ s1.cores = s.cores := ⟨pktOutcome_outcome h st 0, hmem, hcores⟩
  clear_value s1
  obtain ⟨ho, hm, hc⟩ := hs1
  split
  · have hready := queueReady_frame s1 k.queue
    have hmem1 := congrArg State.mem hready
    have hcores1 := congrArg State.cores hready
    exact ⟨by rw [queueReady_pkt, ho], hmem1.trans hm, hcores1.trans hc⟩
  · exact ⟨ho, hm, hc⟩

/-- Before its deadline. -/
theorem inTime_of_not_late {k : Pkt} {now : Nat} (h : ¬ ∃ dl, k.deadline = some dl ∧ dl ≤ now) : k.inTime now = true := by
  unfold Pkt.inTime
  split
  · next dl hd => exact decide_eq_true (Nat.lt_of_not_le fun hle => h ⟨dl, hd, hle⟩)
  · rfl

/-- Settles O33, packet by packet. -/
theorem queueCommands : Obligations.QueueCommands := by
  unfold Obligations.QueueCommands
  refine ⟨?copy, ?bind, ?signal, ?wait, ?ended, ?compare⟩
  case copy =>
    intro s p hh hs ho hout hl hn b c s1
    have hexec := execPacketCopy_inHand hh hs ho hl hn
    have hout1 : (s1.pkt p).outcome = none := by
      simp only [s1, useHandles_nil, setPkt_pkt]
      exact hout
    refine ⟨fun hr hw => ?_, fun hr => ?_, fun hr hw => ?_⟩
    · have hcopy := memOnly_hubWrite s1 c (field b 24 8) ((s1.hubRead c (field b 16 8) (field b 32 8)).getD [])
      obtain ⟨hhand, hdone, -⟩ := answer_spec ((memOnly_outcome hcopy p).trans hout1) stOK 0
      refine ⟨_, hexec.trans (if_neg (by simp [b, c, s1] at hr hw ⊢; simp [hr, hw])), hhand, hdone, ?_, answer_mem _ _ _ _⟩
      rw [answer_cores, memOnly_cores hcopy]
      rfl
    · obtain ⟨hhand, hdone, -⟩ := answer_spec hout1 stBAD_VALUE 0
      exact ⟨_, hexec.trans (if_pos (by simp [b, c, s1] at hr ⊢; simp [hr])), hhand, hdone, answer_mem _ _ _ _⟩
    · obtain ⟨hhand, hdone, -⟩ := answer_spec hout1 stBAD_VALUE 0
      exact ⟨_, hexec.trans (if_pos (by simp [b, c, s1] at hr hw ⊢; simp [hw])), hhand, hdone, answer_mem _ _ _ _⟩
  case bind =>
    intro s p hh hs ho hout hq b c idx base len sync
    refine ⟨fun hb => ?_, fun hb h1 h2 h3 h4 h5 h6 h7 => ?_⟩
    · obtain ⟨hhand, hdone, -⟩ := answer_spec (s := s.setCtx c { s.ctx c with regions := smod {} (s.ctx c).regions idx (fun r => { r with valid := false }) }) hout stOK 0
      refine ⟨_, execBind_unbinds hh hs ho hq hb, hhand, hdone, ?_, fun j hj => ?_, fun d hd => ?_, answer_mem _ _ _ _⟩
      · rw [answer_ctx, setCtx_ctx, if_pos rfl, smod, sget_sset, if_pos rfl]
      · rw [answer_ctx, setCtx_ctx, if_pos rfl, smod, sget_sset, if_neg hj]
      · rw [answer_ctx, setCtx_ctx, if_neg hd]
    · let s1 := s.setCtx c { s.ctx c with regions := sset {} (s.ctx c).regions idx { valid := true, base := base, bytes := len, sync := sync } }
      have hmark := memOnly_syncMarked s1 c sync
      obtain ⟨hhand, hdone, -⟩ := answer_spec ((memOnly_outcome hmark p).trans hout) stOK 0
      refine ⟨_, execBind_binds hh hs ho hq hb rfl rfl rfl rfl h1 h2 h3 h4 h5 h6 h7, hhand, hdone, ?_, fun j hj => ?_, fun d hd => ?_, fun pa hpa => ?_⟩
      · rw [answer_ctx, memOnly_ctx hmark, setCtx_ctx, if_pos rfl, sget_sset, if_pos rfl]
      · rw [answer_ctx, memOnly_ctx hmark, setCtx_ctx, if_pos rfl, sget_sset, if_neg hj]
      · rw [answer_ctx, memOnly_ctx hmark, setCtx_ctx, if_neg hd]
      · rw [answer_isAtomic]
        exact isAtomic_syncMarked ((devPa_sameSpace (sameSpace_regions s c _) sync).trans hpa)
  case signal =>
    intro s p pa e hh hs ho hout ht v old
    have hmark := memOnly_markAtomic s (pa / 64)
    have hlt := signalled_lt (op := field (s.pkt p).bytes 32 1) (memNat_lt (s.markAtomic (pa / 64)) pa 8) (field_lt (s.pkt p).bytes 24 8)
    have hput := memOnly_trans hmark (memOnly_putMemNat _ pa 8 (signalled (field (s.pkt p).bytes 32 1) old v))
    obtain ⟨hhand, hdone, -⟩ := answer_spec ((memOnly_outcome hput p).trans hout) stOK 0
    refine ⟨_, execSignal_inHand hh hs ho ht, hhand, hdone, ?_, ?_, fun hop => ?_, fun hop => ?_, fun hop => ?_, fun a ha => ?_⟩
    · rw [answer_isAtomic, isAtomic_putMemNat, isAtomic_markAtomic]
    · rw [answer_cores, memOnly_cores hput]
    · rw [answer_memNat, memNat_putMemNat hlt, hop, signalled_store]
    · rw [answer_memNat, memNat_putMemNat hlt, hop, signalled_add]
    · rw [answer_memNat, memNat_putMemNat hlt, hop, signalled_max]
    · rw [answer_mem, putMemNat_get ha]
  case wait =>
    intro s p hh hs ho hout k
    refine ⟨fun hw => ?_, fun hw => ⟨_, execWait_waits hh hs ho hw, ?_⟩⟩
    · obtain ⟨hhand, hdone, -⟩ := answer_spec hout stOK 0
      exact ⟨_, execWait_holds hh hs ho hw, hhand, hdone, answer_mem _ _ _ _⟩
    · have hbegun := waitBegun_spec s p
      split <;> exact hbegun
  case ended =>
    intro s p ho hst hout hs late
    refine ⟨fun h => ?_, fun hl hseen => ?_⟩
    · have hmet : waitMet s (s.pkt p) = true := by
        unfold waitMet
        obtain hseen | ⟨hl, hw⟩ := h
        · rw [hseen, Bool.true_or]
        · rw [inTime_of_not_late hl, hw]
          simp
      exact ⟨_, if_pos (by simp [ho, hst, hout, hmet, hs]), waitOver_spec hout stOK⟩
    · obtain ⟨dl, hd, hle⟩ := hl
      have hmet : waitMet s (s.pkt p) = false := by
        simp [waitMet, Pkt.inTime, hseen, hd, Nat.not_lt.mpr hle]
      have hexec : execWaitTimeout p s = .next (waitOver s p stTIMEOUT) := by
        unfold execWaitTimeout
        simp only [hd]
        exact if_pos (by simp [ho, hst, hout, hmet, hle, hs])
      exact ⟨_, hexec, waitOver_spec hout stTIMEOUT⟩
  case compare =>
    intro s k w hw v
    have h := waitHolds_of_hubNat hw
    refine ⟨fun hop => ?_, fun hop => ?_, fun hop => ?_⟩
    all_goals
      rw [h, hop]
      rfl

end Sys2Proof.Proofs
end

section
/-! The completion of a packet (R120, R308), and task graphs (O34; R124, R125, R126). -/
namespace Sys2Proof.Proofs
open Laws
open Machine hiding Wf

/-! ### What settles after a packet: dropped handles, a gang's turn -/

/-- Only handles of contexts, and records of gangs, differ. -/
structure SettledOnly (s t : State) : Prop where
  rest : { t with ctxs := s.ctxs, hub := { t.hub with gangs := s.hub.gangs } } = s
  ctx : ∀ c, t.ctx c = { s.ctx c with handles := (t.ctx c).handles }

theorem settledOnly_refl (s : State) : SettledOnly s s := ⟨rfl, fun _ => rfl⟩

theorem settledOnly_trans {s t u : State} (h : SettledOnly s t) (h' : SettledOnly t u) : SettledOnly s u where
  rest := (congrArg (fun r : State => { r with ctxs := s.ctxs, hub := { r.hub with gangs := s.hub.gangs } }) h'.rest).trans h.rest
  ctx c := (h'.ctx c).trans (congrArg (fun x : Ctx => { x with handles := (u.ctx c).handles }) (h.ctx c))

section
variable {s t : State} (h : SettledOnly s t)
include h

theorem settledOnly_mem : t.mem = s.mem := by
  have hrest := congrArg State.mem h.rest
  exact hrest
theorem settledOnly_cores : t.cores = s.cores := by
  have hrest := congrArg State.cores h.rest
  exact hrest
theorem settledOnly_ptime : t.ptime = s.ptime := by
  have hrest := congrArg State.ptime h.rest
  exact hrest
theorem settledOnly_hub : { t.hub with gangs := s.hub.gangs } = s.hub := by
  have hrest := congrArg State.hub h.rest
  exact hrest
theorem settledOnly_pkt (p : Nat) : t.pkt p = s.pkt p := by
  have hrest := congrArg (fun r : State => r.pkt p) h.rest
  exact hrest
theorem settledOnly_queue (n : Nat) : t.queue n = s.queue n := by
  have hrest := congrArg (fun r : State => r.queue n) h.rest
  exact hrest
theorem settledOnly_replays : t.hub.replays = s.hub.replays := by
  have hrest := congrArg Hub.replays (settledOnly_hub h)
  exact hrest
theorem settledOnly_irqs : t.hub.irqs = s.hub.irqs := by
  have hrest := congrArg Hub.irqs (settledOnly_hub h)
  exact hrest

theorem settledOnly_sameSpace (c : Nat) : SameSpace s t c := by
  have hsecure := congrArg Hub.secure (settledOnly_hub h)
  refine ⟨settledOnly_mem h, settledOnly_ptime h, hsecure, ?_, ?_, ?_⟩
  all_goals rw [h.ctx c]

end

theorem sameSpace_trans {s t u : State} {c : Nat} (h : SameSpace s t c) (h' : SameSpace t u c) : SameSpace s u c :=
  ⟨h'.mem.trans h.mem, h'.ptime.trans h.ptime, h'.secure.trans h.secure, h'.root.trans h.root, h'.lease.trans h.lease, h'.unmaps.trans h.unmaps⟩

theorem settledOnly_gangsOnly {s t : State} (h : GangsOnly s t) : SettledOnly s t := by
  refine ⟨?_, fun c => ?_⟩
  · rw [h]
  · rw [gangsOnly_ctx h]

theorem settleHandle_settled (s : State) (c n : Nat) : SettledOnly s (settleHandle s c n) := by
  unfold settleHandle
  extract_lets e
  split
  · refine ⟨rfl, fun d => ?_⟩
    rw [modCtx_eq, setCtx_ctx]
    split
    · next hd => rw [hd]
    · rfl
  · exact settledOnly_refl s

theorem settleHandles_settled (s : State) (c : Nat) : SettledOnly s (settleHandles s c) := by
  unfold settleHandles
  generalize (s.ctx c).handles.filter _ = l
  induction l generalizing s with
  | nil => exact settledOnly_refl s
  | cons h l ih => exact settledOnly_trans (settleHandle_settled s c h.1) (ih _)

theorem settleDestroy_none {s : State} {c : Nat} (h : (s.ctx c).destroyPkt = none) : settleDestroy s c = s := by
  unfold settleDestroy
  simp only [h]

theorem settleTurn_settled (s : State) (g : Nat) : SettledOnly s (settleTurn s g) := by
  unfold settleTurn
  split
  · exact settledOnly_refl s
  · exact settledOnly_gangsOnly (gangsOnly_setGang s g _)

/-! ### A packet completes -/

theorem interrupt_eq (s : State) (w : Bool) :
    s.interrupt w = { s with hub := { s.hub with irqs := s.hub.irqs + (if w && s.hostPath then 1 else 0) } } := by
  unfold State.interrupt
  cases w <;> cases s.hostPath <;> rfl

/-- The completion record of a packet (R120). -/
def recordOf (s : State) (k : Pkt) (st d : Nat) : List Byte := leBytes 4 st ++ leBytes 2 (pTAG k.bytes) ++ leBytes 2 d ++ leBytes 8 s.ptime

/-- The record is written, where the packet asks for it. -/
def recorded (s : State) (k : Pkt) (st d : Nat) : State := if pCPL k.bytes then s.hubWrite k.cid (pCPLADDR k.bytes) (recordOf s k st d) else s

theorem memOnly_recorded (s : State) (k : Pkt) (st d : Nat) : MemOnly s (recorded s k st d) := by
  unfold recorded
  split
  · exact memOnly_hubWrite _ _ _ _
  · exact memOnly_refl s

/-- The packet leaves its queue, the records of packets and those of replays; the host may be interrupted (R120). -/
def packetGone (s : State) (p : Nat) (k : Pkt) : State :=
  let s3 := s.modQueue k.queue (fun q => { q with out := q.out.filter (fun x => decide (x ≠ p)) })
  { s3.interrupt (pIRQ k.bytes) with hub := { (s3.interrupt (pIRQ k.bytes)).hub with
      pkts := sset {} s3.hub.pkts p {}, replays := sset {} s3.hub.replays p {} } }

section
variable (s : State) (p : Nat) (k : Pkt)

/-- Where the host has a path, the packet's interrupt is counted. -/
theorem packetGone_eq : packetGone s p k =
    (let s3 := s.modQueue k.queue (fun q => { q with out := q.out.filter (fun x => decide (x ≠ p)) })
     { s3 with hub := { s3.hub with
       irqs := s.hub.irqs + (if pIRQ k.bytes && s.hostPath then 1 else 0), pkts := sset {} s.hub.pkts p {}, replays := sset {} s.hub.replays p {} } }) :=
  congrArg (fun t : State => { t with hub := { t.hub with pkts := sset {} s.hub.pkts p {}, replays := sset {} s.hub.replays p {} } })
    (interrupt_eq (s.modQueue k.queue (fun q => { q with out := q.out.filter (fun x => decide (x ≠ p)) })) (pIRQ k.bytes))

theorem packetGone_hub : (packetGone s p k).hub = { (s.modQueue k.queue (fun q => { q with out := q.out.filter (fun x => decide (x ≠ p)) })).hub with
    irqs := s.hub.irqs + (if pIRQ k.bytes && s.hostPath then 1 else 0), pkts := sset {} s.hub.pkts p {}, replays := sset {} s.hub.replays p {} } := by
  rw [packetGone_eq]

theorem packetGone_pkt : (packetGone s p k).pkt p = {} := by
  rw [State.pkt, packetGone_hub]
  exact (sget_sset {} s.hub.pkts p p {}).trans (if_pos rfl)

theorem packetGone_replay {r : Nat} (h : r ≠ p) : sget {} (packetGone s p k).hub.replays r = sget {} s.hub.replays r := by
  rw [packetGone_hub]
  exact (sget_sset {} s.hub.replays p r {}).trans (if_neg h)

theorem packetGone_irqs : (packetGone s p k).hub.irqs = s.hub.irqs + (if pIRQ k.bytes && s.hostPath then 1 else 0) := by
  rw [packetGone_hub]

theorem packetGone_out : ((packetGone s p k).queue k.queue).out = (s.queue k.queue).out.filter (fun x => decide (x ≠ p)) := by
  have hq : (packetGone s p k).queue k.queue
      = (s.setQueue k.queue { s.queue k.queue with out := (s.queue k.queue).out.filter (fun x => decide (x ≠ p)) }).queue k.queue := by
    rw [State.queue, packetGone_hub]
    rfl
  rw [hq, setQueue_queue, if_pos rfl]

theorem packetGone_frame : { packetGone s p k with hub := s.hub } = s := by
  rw [packetGone_eq]
  rfl

theorem packetGone_ctx (c : Nat) : (packetGone s p k).ctx c = s.ctx c := by
  have h := congrArg (fun t : State => t.ctx c) (packetGone_frame s p k)
  exact h

theorem packetGone_sameSpace (c : Nat) : SameSpace s (packetGone s p k) c := by
  have hmem := congrArg State.mem (packetGone_frame s p k)
  have hptime := congrArg State.ptime (packetGone_frame s p k)
  refine ⟨hmem, hptime, ?_, ?_, ?_, ?_⟩
  · rw [packetGone_hub]
    rfl
  all_goals rw [packetGone_ctx]

end

section
variable {s : State} {p st d : Nat} (hout : (s.pkt p).outcome = some (st, d)) (hhands : (s.pkt p).hands = [])
  (hdestroy : (s.ctx (s.pkt p).cid).destroyPkt = none)
include hout hhands hdestroy

/-- A completed packet without handles writes its record and is gone; the context's dropped handles and its gang's turn settle (R115, R120, R122). -/
theorem finishPkt_settled : SettledOnly (packetGone (recorded s (s.pkt p) st d) p (s.pkt p)) (finishPkt s p) := by
  have hleave : leaveHandles s p = s := by
    unfold leaveHandles
    simp only [hhands]
    rfl
  have hfinish : finishPkt s p = (let t := packetGone (recorded s (s.pkt p) st d) p (s.pkt p)
      settleTurn (settleDestroy (settleHandles t (s.pkt p).cid) (s.pkt p).cid) (t.queue (s.pkt p).queue).gangOf) := by
    unfold finishPkt
    simp only [hout, hleave]
    rfl
  have hgone : ((packetGone (recorded s (s.pkt p) st d) p (s.pkt p)).ctx (s.pkt p).cid).destroyPkt = none := by
    rw [packetGone_ctx, memOnly_ctx (memOnly_recorded s _ st d), hdestroy]
  rw [hfinish]
  dsimp only
  generalize packetGone (recorded s (s.pkt p) st d) p (s.pkt p) = t at hgone ⊢
  have hhandles := settleHandles_settled t (s.pkt p).cid
  rw [settleDestroy_none (by rw [hhandles.ctx]; exact hgone)]
  exact settledOnly_trans hhandles (settleTurn_settled _ _)

end

/-! ### GRAPHR -/

theorem sget_foldl_sset (f : Nat → Nat) (l : List Nat) (m : SMap Nat) (i : Nat) :
    sget 0 (l.foldl (fun m i => sset 0 m i (f i)) m) i = if i ∈ l then f i else sget 0 m i := by
  induction l generalizing m with
  | nil => rfl
  | cons j l ih =>
    rw [List.foldl_cons, ih, sget_sset]
    by_cases hl : i ∈ l
    · simp [hl]
    · by_cases hj : i = j
      · simp [hj]
      · simp [hl, hj]

/-- The counts of a replay that starts: of each node its predecessors (R124, R125). -/
def startCounts (s : State) (c : Nat) (h : GraphHdr) : SMap Nat :=
  (upTo h.nnode).foldl (fun m i => sset 0 m i ((s.hubNat c (h.deps + 16 * i) 2).getD 0)) []

/-- A replay that starts (R125). -/
def startedReplay (s : State) (c g : Nat) (h : GraphHdr) : Replay :=
  { graph := g, nnode := h.nnode, buf := h.curbuf, counts := startCounts s c h, waiting := upTo h.nnode }

theorem startCounts_get {s : State} {c i : Nat} {h : GraphHdr} (hi : i < h.nnode) :
    sget 0 (startCounts s c h) i = (s.hubNat c (h.deps + 16 * i) 2).getD 0 := by
  rw [startCounts, sget_foldl_sset]
  exact if_pos (List.mem_range.mpr hi)

theorem firstVersion_current {s : State} {c g : Nat} {h : GraphHdr} (hv : h.version ≠ 0) : firstVersion s c g h = some (s, h) := if_pos hv

/-- A replay with a node that can start goes on. -/
theorem settleReplay_goesOn {s : State} {rid i : Nat} (hr : (sget ({} : Replay) s.hub.replays rid).result = none)
    (hi : i ∈ (sget ({} : Replay) s.hub.replays rid).waiting) (hc : sget 0 (sget ({} : Replay) s.hub.replays rid).counts i = 0) :
    settleReplay s rid = s := by
  unfold settleReplay
  extract_lets r
  have hr' : r.result = none := hr
  split
  · rfl
  · rw [hr']
    dsimp only
    rw [if_neg (by
      intro he
      exact absurd (List.isEmpty_iff.mp he ▸ hi : i ∈ ([] : List Nat)) List.not_mem_nil), if_neg (by
      intro ha
      exact of_decide_eq_true (List.all_eq_true.mp ha i hi) hc)]

theorem settleReplay_replays (s : State) (rid : Nat) : (settleReplay s rid).hub.replays = s.hub.replays := by
  have hout : ∀ st d, (pktOutcome s rid st d).hub.replays = s.hub.replays := fun st d => by
    unfold pktOutcome
    extract_lets k
    split <;> rfl
  unfold settleReplay
  extract_lets r
  split
  · rfl
  · split
    · exact hout _ _
    · split
      · exact hout _ _
      · split
        · exact hout _ _
        · rfl

/-- A replay has the record r. -/
def withReplay (s : State) (rid : Nat) (r : Replay) : State := { s with hub := { s.hub with replays := sset {} s.hub.replays rid r } }

theorem withReplay_get (s : State) (rid : Nat) (r : Replay) : sget {} (withReplay s rid r).hub.replays rid = r :=
  (sget_sset {} s.hub.replays rid rid r).trans (if_pos rfl)

/-- GRAPHR of a graph of legal nodes in its current version (R124, R125). -/
theorem execGraphr_starts {s : State} {p : Nat} {h : GraphHdr} (hh : s.hub.hand = some p) (hs : s.hub.stalled = false)
    (ho : pOP (s.pkt p).bytes = 4) (hg : readGraph s (s.pkt p).cid (field (s.pkt p).bytes 16 8) = some h) (hv : h.version ≠ 0)
    (hops : ∀ i, i < h.nnode → (s.hubNat (s.pkt p).cid (h.nodes + 64 * i) 1).getD 0 ∈ [1, 2, 3, 6, 7, 8, 9]) : exec .graphr s =
    .next (settleReplay (withReplay (handDone s) p (startedReplay s (s.pkt p).cid (field (s.pkt p).bytes 16 8) h)) p) := by
  have hlegal : ((upTo h.nnode).map (fun i => (s.hubNat (s.pkt p).cid (h.nodes + 64 * i) 1).getD 0)).any
      (fun o => !([1, 2, 3, 6, 7, 8, 9].contains o)) = false := by
    rw [List.any_eq_false]
    intro o hmem
    obtain ⟨i, hi, rfl⟩ := List.mem_map.mp hmem
    rw [List.contains_iff_mem.mpr (hops i (List.mem_range.mp hi))]
    decide
  show execGraphr s = _
  unfold execGraphr
  rw [inHand_some hh ho hs]
  simp only [hg, hlegal, firstVersion_current hv]
  rfl

/-! ### GRAPH_NODE_COMPLETE -/

theorem any_key_of_sget_ne {β : Type} {d : β} {m : SMap β} {k : Nat} (h : sget d m k ≠ d) : m.any (fun x => decide (x.1 = k)) = true := by
  induction m with
  | nil => exact absurd rfl h
  | cons e m ih =>
    obtain ⟨j, v⟩ := e
    by_cases hj : j = k
    · simp [hj]
    · rw [sget, if_neg hj] at h
      rw [List.any_cons, ih h, Bool.or_true]

/-- A replay after a node that completed with OK: its successors' counts fall (R125). -/
def nodeOk (s : State) (c i : Nat) (r : Replay) : Replay :=
  { r with
    flying := r.flying.filter (fun j => decide (j ≠ i))
    counts := (successors s c ((s.hubNat c (r.graph + 16) 8).getD 0) i).foldl (fun m j => sset 0 m j (sget 0 m j - 1)) r.counts }

/-- A replay after a node that failed: nothing is dispatched any more (R125). -/
def nodeFailed (i st : Nat) (r : Replay) : Replay :=
  { r with flying := r.flying.filter (fun j => decide (j ≠ i)), waiting := [], result := some (r.result.getD (st, i)) }

/-- What the completion of a node makes of its replay (R125). -/
def nodeDone (s : State) (c i st : Nat) (r : Replay) : Replay := if st = stOK then nodeOk s c i r else nodeFailed i st r

theorem nodeDone_ok {s : State} {c i st : Nat} {r : Replay} (h : st = 0) : nodeDone s c i st r = nodeOk s c i r := if_pos h
theorem nodeDone_failed {s : State} {c i st : Nat} {r : Replay} (h : st ≠ 0) : nodeDone s c i st r = nodeFailed i st r := if_neg h

theorem nodeDone_sameSpace {s t : State} {c : Nat} (h : SameSpace s t c) (i st : Nat) (r : Replay) : nodeDone t c i st r = nodeDone s c i st r := by
  unfold nodeDone nodeOk successors
  simp only [hubNat_sameSpace h, hubRead_sameSpace h]

theorem execGraphNodeComplete_node {s : State} {p rid i st d : Nat} (hs : s.hub.stalled = false) (hn : (s.pkt p).node = some (rid, i))
    (ho : (s.pkt p).outcome = some (st, d)) (hr : sget {} (finishPkt s p).hub.replays rid ≠ ({} : Replay)) :
    exec (.graphNodeComplete p) s = .next (settleReplay (withReplay (finishPkt s p) rid
      (nodeDone (finishPkt s p) (s.pkt p).cid i st (sget {} (finishPkt s p).hub.replays rid))) rid) := by
  show execGraphNodeComplete p s = _
  unfold execGraphNodeComplete
  simp only [hs, hn, ho, any_key_of_sget_ne hr]
  rfl

/-! ### GRAPHP -/

/-- The lowest buffer that no replay holds. -/
theorem find_free {held : List Nat} {f : Nat} (hf : f < 4) (hfree : held.contains f = false) (hlow : ∀ e, e < f → held.contains e = true) :
    (upTo 4).find? (fun i => !(held.contains i)) = some f :=
  List.find?_range_eq_some.mpr ⟨by rw [hfree]; rfl, List.mem_range.mpr hf, fun e he => by rw [hlow e he]; rfl⟩

section
variable {s : State} {p : Nat} {h : GraphHdr} (hh : s.hub.hand = some p) (hs : s.hub.stalled = false) (ho : pOP (s.pkt p).bytes = 5)
  (hg : readGraph s (s.pkt p).cid (field (s.pkt p).bytes 16 8) = some h) (hv : h.version ≠ 0)
  (hn : field (s.pkt p).bytes 24 4 < h.nnode) (hind : bitOf (field (s.pkt p).bytes 40 1) 0 = false)
include hh hs ho hg hv hn hind

/-- GRAPHP of a graph whose current buffer no replay holds (R126). -/
theorem execGraphp_inPlace (hheld : (heldBufs s (s.pkt p).cid (field (s.pkt p).bytes 16 8)).contains h.curbuf = false) : exec .graphp s =
    .next (answer (putVersion (s.hubWrite (s.pkt p).cid
      (h.params + 48 * h.nnode * h.curbuf + 48 * field (s.pkt p).bytes 24 4 + field (s.pkt p).bytes 28 2) (((s.pkt p).bytes.drop 32).take 8))
      (s.pkt p).cid (field (s.pkt p).bytes 16 8) (h.version + 1) h.curbuf) p stOK 0) := by
  show execGraphp s = _
  unfold execGraphp
  rw [inHand_some hh ho hs]
  simp only [hg, Nat.not_le.mpr hn, hind, firstVersion_current hv, hheld]
  rfl

/-- GRAPHP of a graph whose current buffer a replay holds: the lowest free buffer takes its bytes, with the patch (R126). -/
theorem execGraphp_copies {f : Nat} (hheld : (heldBufs s (s.pkt p).cid (field (s.pkt p).bytes 16 8)).contains h.curbuf = true)
    (hfind : (upTo 4).find? (fun i => !((heldBufs s (s.pkt p).cid (field (s.pkt p).bytes 16 8)).contains i)) = some f) : exec .graphp s =
    .next (answer (putVersion ((s.hubWrite (s.pkt p).cid (h.params + 48 * h.nnode * f)
      ((s.hubRead (s.pkt p).cid (h.params + 48 * h.nnode * h.curbuf) (48 * h.nnode)).getD [])).hubWrite (s.pkt p).cid
      (h.params + 48 * h.nnode * f + 48 * field (s.pkt p).bytes 24 4 + field (s.pkt p).bytes 28 2) (((s.pkt p).bytes.drop 32).take 8))
      (s.pkt p).cid (field (s.pkt p).bytes 16 8) (h.version + 1) f) p stOK 0) := by
  show execGraphp s = _
  unfold execGraphp
  rw [inHand_some hh ho hs]
  simp only [hg, Nat.not_le.mpr hn, hind, firstVersion_current hv, hheld, hfind]
  rfl

end

/-- Settles O34, command by command. -/
theorem taskGraphs : Obligations.TaskGraphs := by
  unfold Obligations.TaskGraphs
  refine ⟨?replay, ?node, ?patch⟩
  case replay =>
    intro s p h hh hs ho hg hv hpos hops hstart
    obtain ⟨i, hi, hcount⟩ := hstart
    let r := startedReplay s (s.pkt p).cid (field (s.pkt p).bytes 16 8) h
    have hget : sget {} (withReplay (handDone s) p r).hub.replays p = r := withReplay_get _ p r
    have hkeep : settleReplay (withReplay (handDone s) p r) p = withReplay (handDone s) p r :=
      settleReplay_goesOn (i := i) (by rw [hget]; rfl) (by rw [hget]; exact List.mem_range.mpr hi)
        (by rw [hget]; exact (startCounts_get hi).trans hcount)
    have hexec := execGraphr_starts hh hs ho hg hv hops
    rw [hkeep] at hexec
    refine ⟨_, hexec, rfl, rfl, rfl, ?_⟩
    rw [hget]
    exact ⟨rfl, rfl, rfl, rfl, rfl, rfl, fun i hi => startCounts_get hi⟩
  case node =>
    intro s p rid i st d r hn hout hhands hcpl hne hr hr0 hdestroy hs r2
    have hsettled := finishPkt_settled hout hhands hdestroy
    have hrec : recorded s (s.pkt p) st d = s := if_neg (by rw [hcpl]; decide)
    rw [hrec] at hsettled
    have hreplay : sget {} (finishPkt s p).hub.replays rid = r := by
      rw [settledOnly_replays hsettled, packetGone_replay _ _ _ hne, hr]
    have hexec := execGraphNodeComplete_node hs hn hout (by rwa [hreplay])
    rw [hreplay, nodeDone_sameSpace (sameSpace_trans (packetGone_sameSpace s p _ _) (settledOnly_sameSpace hsettled _))] at hexec
    have hr2 : ∀ r' : Replay, r2 (settleReplay (withReplay (finishPkt s p) rid r') rid) = r' := fun r' => by
      simp only [r2, settleReplay_replays, withReplay_get]
    refine ⟨fun hst => ⟨_, hexec, ?_⟩, fun hst => ⟨_, hexec, ?_⟩⟩
    · rw [hr2, nodeDone_failed hst]
      exact ⟨rfl, rfl, rfl⟩
    · rw [hr2, nodeDone_ok hst]
      exact ⟨rfl, rfl, rfl, rfl⟩
  case patch =>
    intro s p h hh hs ho hout hg hv hn hind b c g off size v
    refine ⟨fun hheld => ?_, fun hheld f hf hfree hlow => ?_⟩
    · rw [execGraphp_inPlace hh hs ho hg hv hn hind hheld, Nat.add_assoc]
      rfl
    · rw [execGraphp_copies hh hs ho hg hv hn hind hheld (find_free hf hfree hlow), Nat.add_assoc]
      rfl

end Sys2Proof.Proofs
end

section
/-! LAUNCH and LOOPL (O32, part 1; R118, R130, R137, R361): the kernel's group, its first sections and the handles it uses. -/
namespace Sys2Proof.Proofs
open Laws
open Machine hiding Wf

/-! ### The handles of a packet (R122, R123) -/

/-- What the use of handles leaves: lines, contexts, and the handles that a packet holds may change. -/
structure HandlesUsed (s t : State) : Prop where
  rest : { t with l2 := s.l2, adit := s.adit, tiles := s.tiles, ctxs := s.ctxs, hub := { t.hub with pkts := s.hub.pkts } } = s
  pkt : ∀ p, t.pkt p = { s.pkt p with hands := (t.pkt p).hands }

theorem handlesUsed_refl (s : State) : HandlesUsed s s := ⟨rfl, fun _ => rfl⟩

theorem handlesUsed_trans {s t u : State} (h : HandlesUsed s t) (h' : HandlesUsed t u) : HandlesUsed s u where
  rest := (congrArg (fun r : State => { r with
    l2 := s.l2, adit := s.adit, tiles := s.tiles, ctxs := s.ctxs, hub := { r.hub with pkts := s.hub.pkts } }) h'.rest).trans h.rest
  pkt p := (h'.pkt p).trans (congrArg (fun r : Pkt => { r with hands := (u.pkt p).hands }) (h.pkt p))

theorem handlesUsed_foldl {α : Type} {f : State → α → State} (h : ∀ s a, HandlesUsed s (f s a)) (l : List α) (s : State) : HandlesUsed s (l.foldl f s) := by
  induction l generalizing s with
  | nil => exact handlesUsed_refl s
  | cons a l ih => exact handlesUsed_trans (h s a) (ih (f s a))

section
variable {s t : State} (h : HandlesUsed s t)
include h

theorem handlesUsed_cores : t.cores = s.cores := by
  have hrest := congrArg State.cores h.rest
  exact hrest
theorem handlesUsed_core (k : Nat) : t.core k = s.core k := by rw [State.core, handlesUsed_cores h, State.core]
theorem handlesUsed_nextKern : t.hub.nextKern = s.hub.nextKern := by
  have hrest := congrArg (fun r : State => r.hub.nextKern) h.rest
  exact hrest

end

theorem handlesUsed_setL2 (s : State) (d ln : Nat) : HandlesUsed s (s.setL2 d ln {}) := ⟨rfl, fun _ => rfl⟩

theorem handlesUsed_modCtx (s : State) (c : Nat) (f : Ctx → Ctx) : HandlesUsed s (s.modCtx c f) := ⟨rfl, fun _ => rfl⟩

/-- The lines of a range that no cache is to write back are dropped. -/
theorem handlesUsed_dropL2Range (s : State) (c va len : Nat) : HandlesUsed s (dropL2Range s c va len false) := by
  refine handlesUsed_foldl (fun s i => ?_) _ s
  extract_lets a
  split
  · split
    · exact handlesUsed_foldl (f := fun s d => s.setL2 d _ {}) (fun s d => handlesUsed_setL2 s d _) (upTo 4) s
    · exact handlesUsed_refl s
  · exact handlesUsed_refl s

theorem handlesUsed_hands (s : State) (p : Nat) (hs : List (Nat × Nat)) : HandlesUsed s (s.setPkt p { s.pkt p with hands := hs }) := by
  refine ⟨rfl, fun q => ?_⟩
  rw [setPkt_pkt]
  split
  · next hq => rw [hq]
  · rfl

theorem useHandles_used (s : State) (c p : Nat) (es : List HEntry) : HandlesUsed s (useHandles s c p es) := by
  unfold useHandles
  extract_lets s1 s2 _ s3
  have h1 : HandlesUsed s s1 := by
    refine handlesUsed_foldl (fun s' e => ?_) es s
    extract_lets h
    split
    · exact handlesUsed_dropL2Range s' c _ _
    · exact handlesUsed_refl s'
  have h2 : HandlesUsed s1 s2 := handlesUsed_foldl (fun s e => handlesUsed_modCtx s c _) es s1
  have h3 : HandlesUsed s2 s3 := handlesUsed_hands s2 p _
  refine handlesUsed_trans h1 (handlesUsed_trans h2 (handlesUsed_trans h3 (handlesUsed_foldl (fun s e => ?_) es s3)))
  split
  · exact ⟨rfl, fun _ => rfl⟩
  · exact handlesUsed_refl s

/-! ### The cores of a group, one after another -/

theorem foldl_modCore_core (f : Nat → CoreRec → CoreRec) {ks : List Nat} (hn : ks.Nodup) (s : State) (j : Nat) :
    (ks.foldl (fun s k => s.modCore k (f k)) s).core j = if j ∈ ks then f j (s.core j) else s.core j := by
  induction ks generalizing s with
  | nil => rfl
  | cons k ks ih =>
    obtain ⟨hk, hn⟩ := List.nodup_cons.mp hn
    rw [List.foldl_cons, ih hn, modCore_eq, setCore_core]
    by_cases hj : j = k
    · subst hj
      simp [hk]
    · simp [hj]

theorem foldl_modCore_frame (f : Nat → CoreRec → CoreRec) (ks : List Nat) (s : State) :
    { ks.foldl (fun s k => s.modCore k (f k)) s with cores := s.cores } = s := by
  induction ks generalizing s with
  | nil => rfl
  | cons k ks ih => exact congrArg (fun t : State => { t with cores := s.cores }) (ih (s.modCore k (f k)))

/-! ### The kernel starts (R137) -/

/-- The sections of an image's cores. -/
def sectionsOf (cs : List CoreImg) : SMap (List (List Bundle)) := cs.foldl (fun m c => sset [] m c.core c.secs) []

theorem sget_sections {cs : List CoreImg} (hn : (cs.map (·.core)).Nodup) {c : CoreImg} (hc : c ∈ cs) (m : SMap (List (List Bundle))) :
    sget [] (cs.foldl (fun m c => sset [] m c.core c.secs) m) c.core = c.secs := by
  have hskip : ∀ (cs : List CoreImg) (m : SMap (List (List Bundle))) (k : Nat), k ∉ cs.map (·.core) →
      sget [] (cs.foldl (fun m c => sset [] m c.core c.secs) m) k = sget [] m k := by
    intro cs
    induction cs with
    | nil => exact fun _ _ _ => rfl
    | cons e cs ih =>
      intro m k hk
      obtain ⟨hke, hks⟩ := not_or.mp (fun h => hk (List.mem_cons.mpr h))
      rw [List.foldl_cons, ih _ _ hks, sget_sset, if_neg hke]
  induction cs generalizing m with
  | nil => exact absurd hc List.not_mem_nil
  | cons e cs ih =>
    obtain ⟨he, hn⟩ := List.nodup_cons.mp hn
    obtain rfl | hc := List.mem_cons.mp hc
    · rw [List.foldl_cons, hskip _ _ _ he, sget_sset, if_pos rfl]
    · exact ih hn hc _

/-- The group of a kernel that starts alone. -/
def startedGroup (c : Nat) (pkts : List Nat) (a : Plan) (loop : Option LoopRec) : Group :=
  { st := .loading, cid := c, cores := a.img.cores.map (·.core), pkts := pkts, args := argsOf a.bytes, presets := a.presets ++ [],
    hstores := a.img.cores.foldl (fun m c => sset none m c.core c.handler) [], secs := sectionsOf a.img.cores, loop := loop }

/-- The group waits for its cores to be loaded. -/
def groupQueued (s : State) (kern : Nat) (g : Group) : State :=
  { s.setGroup kern g with hub := { (s.setGroup kern g).hub with loading := s.hub.loading ++ [kern] } }

theorem groupQueued_group (s : State) (kern : Nat) (g : Group) : (groupQueued s kern g).group kern = g :=
  (setGroup_group s kern kern g).trans (if_pos rfl)

/-- Section 0 of a core loads into its shadow plane. -/
def firstLoad (kern : Nat) (secs : SMap (List (List Bundle))) (k : Nat) (c : CoreRec) : CoreRec :=
  c.setShadow { st := .loading, sec := 0, kern := kern, code := nth [] (sget [] secs k) 0 }

theorem foldl_loadFirst {s : State} {kern : Nat} {secs : SMap (List (List Bundle))} (h : (s.group kern).secs = secs) (ks : List Nat) :
    ks.foldl (fun s k => loadFirst s kern k) s = ks.foldl (fun s k => s.modCore k (firstLoad kern secs k)) s := by
  induction ks generalizing s with
  | nil => rfl
  | cons k ks ih =>
    have hk : loadFirst s kern k = s.modCore k (firstLoad kern secs k) := by
      rw [← h]
      rfl
    rw [List.foldl_cons, List.foldl_cons, hk]
    exact ih h

theorem startKernel_alone (s : State) (kern c : Nat) (pkts : List Nat) (a : Plan) (loop : Option LoopRec) :
    startKernel s kern 0 c pkts { a := a } loop = (a.img.cores.map (·.core)).foldl
      (fun s k => s.modCore k (firstLoad kern (sectionsOf a.img.cores) k)) (groupQueued s kern (startedGroup c pkts a loop)) :=
  foldl_loadFirst (congrArg Group.secs (groupQueued_group s kern (startedGroup c pkts a loop))) _

section
variable (s : State) (kern c : Nat) (pkts : List Nat) (a : Plan) (loop : Option LoopRec)

theorem startKernel_frame : { startKernel s kern 0 c pkts { a := a } loop with cores := s.cores } = groupQueued s kern (startedGroup c pkts a loop) := by
  rw [startKernel_alone]
  exact foldl_modCore_frame _ _ (groupQueued s kern (startedGroup c pkts a loop))

theorem startKernel_group : (startKernel s kern 0 c pkts { a := a } loop).group kern = startedGroup c pkts a loop := by
  have h := congrArg (fun t : State => t.group kern) (startKernel_frame s kern c pkts a loop)
  exact h.trans (groupQueued_group s kern _)

theorem startKernel_pkt (p : Nat) : (startKernel s kern 0 c pkts { a := a } loop).pkt p = s.pkt p := by
  have h := congrArg (fun t : State => t.pkt p) (startKernel_frame s kern c pkts a loop)
  exact h

theorem startKernel_nextKern : (startKernel s kern 0 c pkts { a := a } loop).hub.nextKern = s.hub.nextKern := by
  have h := congrArg (fun t : State => t.hub.nextKern) (startKernel_frame s kern c pkts a loop)
  exact h

variable {a} (hn : (a.img.cores.map (·.core)).Nodup)
include hn

/-- Each core of the image loads its first section; the plane that runs stays (R137, R142). -/
theorem startKernel_loads {e : CoreImg} (he : e ∈ a.img.cores) :
    ((startKernel s kern 0 c pkts { a := a } loop).core e.core).shadow = { st := .loading, sec := 0, kern := kern, code := nth [] e.secs 0 }
      ∧ ((startKernel s kern 0 c pkts { a := a } loop).core e.core).active = (s.core e.core).active := by
  have hcore : (groupQueued s kern (startedGroup c pkts a loop)).core e.core = s.core e.core := rfl
  rw [startKernel_alone, foldl_modCore_core _ hn, if_pos (List.mem_map_of_mem he), firstLoad, setShadow_shadow, setShadow_active, hcore, sectionsOf,
    sget_sections hn he]
  exact ⟨rfl, rfl⟩

theorem startKernel_other {k : Nat} (hk : k ∉ a.img.cores.map (·.core)) : (startKernel s kern 0 c pkts { a := a } loop).core k = s.core k := by
  rw [startKernel_alone, foldl_modCore_core _ hn, if_neg hk]
  rfl

end

/-! ### LAUNCH and LOOPL in hand -/

theorem launchPlan_error {s : State} {c : Nat} {b : List Byte} {st : Nat} (h : planOf s c b [] = .error st) (next : Option (List Byte)) :
    launchPlan s c b next = .error st := by
  unfold launchPlan
  rw [h]

theorem launchPlan_alone {s : State} {c : Nat} {b : List Byte} {a : Plan} (h : planOf s c b [] = .ok a) : launchPlan s c b none = .ok { a := a } := by
  unfold launchPlan
  rw [h]

/-- The number is taken, and the packet is started with it (R137). -/
def kernelTaken (s : State) (p : Nat) : State :=
  (takeKern s).1.setPkt p { (takeKern s).1.pkt p with kern := s.hub.nextKern, started := true }

/-- The record of a loop that starts (R361, R364). -/
def startedLoop (s : State) (k : Pkt) (a : Plan) : LoopRec :=
  { seqt := field k.bytes 24 8, nseq := (s.hubNat k.cid (field k.bytes 24 8 + 4) 2).getD 0, vocab := field k.bytes 44 4,
    maxit := field k.bytes 48 8, tag := pTAG k.bytes, irq := pIRQ k.bytes, buckets := a.img.buckets, lanes := List.replicate 256 65535 }

/-- The packet starts its kernel on its own, and leaves the hand. -/
def launched (s u : State) (p : Nat) (a : Plan) (loop : Option LoopRec) : State :=
  handDone (startKernel (useHandles u (s.pkt p).cid p a.hands) s.hub.nextKern 0 (s.pkt p).cid [p] { a := a } loop)

section
variable {s : State} {p : Nat} (hh : s.hub.hand = some p) (hs : s.hub.stalled = false) (hf : s.hub.fenced = false)
include hh hs hf

theorem execLaunch_alone {a : Plan} (ho : pOP (s.pkt p).bytes = 1) (hq : (s.pkt p).node.isSome = true ∨ (s.queue (s.pkt p).queue).heads = [])
    (ha : planOf s (s.pkt p).cid (s.pkt p).bytes [] = .ok a) : exec .launch s = .next (launched s (kernelTaken s p) p a none) := by
  have hnext : (if (s.pkt p).node.isSome then none else nextHead (s.queue (s.pkt p).queue).heads) = none := by
    obtain hnode | hheads := hq
    · exact if_pos hnode
    · rw [hheads]
      exact ite_self _
  show execLaunch s = _
  unfold execLaunch
  rw [inHand_some hh ho hs]
  simp only [hf, hnext, launchPlan_alone ha]
  rfl

theorem execLoopl_starts {a : Plan} (ho : pOP (s.pkt p).bytes = 2) (ha : planOf s (s.pkt p).cid (s.pkt p).bytes [] = .ok a) : exec .loopl s =
    .next (launched s (((takeKern s).1.hubWrite (s.pkt p).cid (field (s.pkt p).bytes 24 8 + 168) (leBytes 8 0)).setPkt p
      { (takeKern s).1.pkt p with kern := s.hub.nextKern, started := true }) p a (some (startedLoop s (s.pkt p) a))) := by
  show execLoopl s = _
  unfold execLoopl
  rw [inHand_some hh ho hs]
  simp only [hf, launchPlan_alone ha]
  rfl

/-- A LAUNCH or LOOPL without a plan completes with the plan's status (R118, R130). -/
theorem exec_launch_fails {st op : Nat} {i : Instr} (hi : (op, i) ∈ [(1, Instr.launch), (2, Instr.loopl)]) (ho : pOP (s.pkt p).bytes = op)
    (ha : planOf s (s.pkt p).cid (s.pkt p).bytes [] = .error st) : exec i s = .next (answer s p st 0) := by
  have hcases : (op = 1 ∧ i = .launch) ∨ (op = 2 ∧ i = .loopl) := by simpa using hi
  obtain ⟨rfl, rfl⟩ | ⟨rfl, rfl⟩ := hcases
  · show execLaunch s = _
    unfold execLaunch
    rw [inHand_some hh ho hs]
    simp only [hf, launchPlan_error ha]
    rfl
  · show execLoopl s = _
    unfold execLoopl
    rw [inHand_some hh ho hs]
    simp only [hf, launchPlan_error ha]
    rfl

end

theorem launched_hand (s u : State) (p : Nat) (a : Plan) (loop : Option LoopRec) : (launched s u p a loop).hub.hand = none := rfl

theorem launched_group (s u : State) (p : Nat) (a : Plan) (loop : Option LoopRec) :
    (launched s u p a loop).group s.hub.nextKern = startedGroup (s.pkt p).cid [p] a loop := startKernel_group _ _ _ _ _ _

theorem launched_nextKern (s u : State) (p : Nat) (a : Plan) (loop : Option LoopRec) : (launched s u p a loop).hub.nextKern = u.hub.nextKern :=
  (startKernel_nextKern _ _ _ _ _ _).trans (handlesUsed_nextKern (useHandles_used u _ p _))

theorem launched_pkt (s u : State) (p : Nat) (a : Plan) (loop : Option LoopRec) :
    ((launched s u p a loop).pkt p).kern = (u.pkt p).kern ∧ ((launched s u p a loop).pkt p).started = (u.pkt p).started := by
  have hpkt : (launched s u p a loop).pkt p = (useHandles u (s.pkt p).cid p a.hands).pkt p := startKernel_pkt _ _ _ _ _ _ p
  rw [hpkt, (useHandles_used u _ p _).pkt p]
  exact ⟨rfl, rfl⟩

theorem launched_loads {s u : State} {p : Nat} {a : Plan} {loop : Option LoopRec} (hn : (a.img.cores.map (·.core)).Nodup) {e : CoreImg} (he : e ∈ a.img.cores) :
    ((launched s u p a loop).core e.core).shadow = { st := .loading, sec := 0, kern := s.hub.nextKern, code := nth [] e.secs 0 }
      ∧ ((launched s u p a loop).core e.core).active = (u.core e.core).active := by
  obtain ⟨hshadow, hactive⟩ := startKernel_loads (useHandles u (s.pkt p).cid p a.hands) s.hub.nextKern (s.pkt p).cid [p] loop hn he
  rw [handlesUsed_core (useHandles_used u _ p _)] at hactive
  exact ⟨hshadow, hactive⟩

theorem launched_other {s u : State} {p : Nat} {a : Plan} {loop : Option LoopRec} (hn : (a.img.cores.map (·.core)).Nodup) {k : Nat}
    (hk : k ∉ a.img.cores.map (·.core)) : (launched s u p a loop).core k = u.core k :=
  (startKernel_other _ _ _ _ _ hn hk).trans (handlesUsed_core (useHandles_used u _ p _) k)

end Sys2Proof.Proofs
end

section
/-! The release of a group (O32, part 2; R138, R139), and the settled obligation. -/
namespace Sys2Proof.Proofs
open Laws
open Machine hiding Wf

/-! ### A core is released (R139, R143) -/

/-- A core of a group that is released with section pl: it runs it at bundle 0, with the launch registers of the kernel (R139). -/
structure ReleasedCore (kern : Nat) (g : Group) (pl : Plane) (c' : CoreRec) : Prop where
  st : c'.st = .running
  pc : c'.pc = 0
  bn : c'.bn = 0
  group : c'.group = kern
  cid : c'.cid = g.cid
  active : c'.active = { pl with st := .active }
  karg0 : c'.karg0 = BitVec.ofNat 64 g.args
  kernid : c'.kernid = BitVec.ofNat 64 (g.later * 2 ^ 32 + kern)
  cause : c'.cause = 0
  handler : c'.handler = none
  inflight : c'.inflight = []

theorem releasedCore_setShadow {kern : Nat} {g : Group} {pl : Plane} {c' : CoreRec} (h : ReleasedCore kern g pl c') (p : Plane) :
    ReleasedCore kern g pl (c'.setShadow p) := by
  have hframe := setShadow_frame c' p
  exact ⟨(congrArg CoreRec.st hframe).trans h.st, (congrArg CoreRec.pc hframe).trans h.pc, (congrArg CoreRec.bn hframe).trans h.bn,
    (congrArg CoreRec.group hframe).trans h.group, (congrArg CoreRec.cid hframe).trans h.cid, (setShadow_active c' p).trans h.active,
    (congrArg CoreRec.karg0 hframe).trans h.karg0, (congrArg CoreRec.kernid hframe).trans h.kernid, (congrArg CoreRec.cause hframe).trans h.cause,
    (congrArg CoreRec.handler hframe).trans h.handler, (congrArg CoreRec.inflight hframe).trans h.inflight⟩

theorem foldl_modTile_frame (f : Nat → Tile → Tile) (k : Nat) (ds : List Nat) (s : State) :
    { ds.foldl (fun s d => s.modTile (unitOf k d) (f d)) s with tiles := s.tiles } = s := by
  induction ds generalizing s with
  | nil => rfl
  | cons d ds ih => exact congrArg (fun t : State => { t with tiles := s.tiles }) (ih (s.modTile (unitOf k d) (f d)))

/-- What a switch of a core's group changes of the core itself (R32, R169). -/
def switchedCore (c : CoreRec) : CoreRec :=
  { c with lvls := [], rstk := [], rdepth := 0, retLvl := none, benchFrom := none, benchOwed := [], issue := none }

theorem coreSwitch_frame (s : State) (k : Nat) (release : Bool) :
    { coreSwitch s k release with tiles := s.tiles } = s.setCore k (switchedCore (s.core k)) := by
  have hfold := foldl_modTile_frame (fun _ => Tile.groupSwitch release) k (upTo 4) s
  unfold coreSwitch
  generalize (upTo 4).foldl _ s = t at hfold ⊢
  exact congrArg (fun t : State => t.setCore k (switchedCore (t.core k))) hfold

theorem coreSwitch_hub (s : State) (k : Nat) (release : Bool) : (coreSwitch s k release).hub = s.hub := by
  have h := congrArg State.hub (coreSwitch_frame s k release)
  exact h

theorem coreSwitch_ctxs (s : State) (k : Nat) (release : Bool) : (coreSwitch s k release).ctxs = s.ctxs := by
  have h := congrArg State.ctxs (coreSwitch_frame s k release)
  exact h

theorem coreSwitch_core (s : State) (k : Nat) (release : Bool) (j : Nat) :
    (coreSwitch s k release).core j = if j = k then switchedCore (s.core k) else s.core j := by
  have h := congrArg (fun t : State => t.core j) (coreSwitch_frame s k release)
  exact h.trans (setCore_core s k j _)

/-- The tiles of a core acquire at package scope (R138). -/
def acquiredCore (s : State) (k : Nat) : State := (upTo 4).foldl (fun s d => acquireAt s (unitOf k d) 4) s

theorem memOnly_acquiredCore (s : State) (k : Nat) : MemOnly s (acquiredCore s k) := memOnly_foldl (fun s d => memOnly_acquireAt s (unitOf k d) 4) _ s

/-- A release: the acquires, the switch of the group, and the core's own record. -/
theorem releaseCore_eq (s : State) (kern : Nat) (g : Group) (k : Nat) :
    ∃ f : CoreRec → CoreRec, releaseCore s kern g k = (coreSwitch (acquiredCore s k) k true).modCore k f ∧ ∀ c, ReleasedCore kern g c.shadow (f c) := by
  unfold releaseCore acquiredCore
  refine ⟨_, rfl, fun c => ?_⟩
  dsimp only
  rw [loadSection_eq]
  apply releasedCore_setShadow
  apply releasedCore_setShadow
  exact ⟨rfl, rfl, rfl, rfl, rfl, (flip_active _).trans (setShadow_shadow _ _), rfl, rfl, rfl, rfl, rfl⟩

/-! ### What a release leaves -/

/-- Of a tile only its read cache, its monitors and the writes held for them differ. -/
def TileNoted (t t' : Tile) : Prop := t' = { t with rc := t'.rc, mon := t'.mon, wakes := t'.wakes }

theorem tileNoted_trans {a b c : Tile} (h : TileNoted a b) (h' : TileNoted b c) : TileNoted a c :=
  h'.trans (congrArg (fun t : Tile => { t with rc := c.rc, mon := c.mon, wakes := c.wakes }) h)

theorem tileNoted_groupSwitch {a b : Tile} (h : TileNoted a b) : TileNoted (Tile.groupSwitch true a) (Tile.groupSwitch true b) :=
  congrArg (Tile.groupSwitch true) h

theorem coreSwitch_tile (s : State) (k : Nat) (release : Bool) (u : Nat) :
    (coreSwitch s k release).tile u = if u / 4 = k then Tile.groupSwitch release (s.tile u) else s.tile u := by
  have hfold : (coreSwitch s k release).tile u
      = ((upTo 4).foldl (fun s d => s.modTile (unitOf k d) (Tile.groupSwitch release)) s).tile u := rfl
  rw [hfold]
  split
  · next hu =>
    have hunit : u = unitOf k (u % 4) := by
      rw [unitOf, ← hu]
      omega
    rw [hunit]
    exact foldl_dies_tile s k (fun _ => Tile.groupSwitch release) (Nat.mod_lt u (by decide))
  · next hu => exact foldl_dies_other s k (fun _ => Tile.groupSwitch release) hu

/-- Cores released one after another: each runs, with its tiles emptied; the rest of the state stays, but for what acquires note. -/
structure CoresReleased (s t : State) (kern : Nat) (g : Group) (ks : List Nat) : Prop where
  group : ∀ n, (t.group n).st = (s.group n).st
  loading : t.hub.loading = s.hub.loading
  ctxs : t.ctxs = s.ctxs
  core : ∀ k ∈ ks, ReleasedCore kern g (s.core k).shadow (t.core k)
  other : ∀ k, k ∉ ks → t.core k = s.core k
  tile : ∀ u, TileNoted (if u / 4 ∈ ks then Tile.groupSwitch true (s.tile u) else s.tile u) (t.tile u)

theorem releaseCore_releases (s : State) (kern : Nat) (g : Group) (k : Nat) : CoresReleased s (releaseCore s kern g k) kern g [k] := by
  obtain ⟨f, hf, hreleased⟩ := releaseCore_eq s kern g k
  have hacq := memOnly_acquiredCore s k
  rw [hf, modCore_eq]
  refine ⟨fun n => ?_, ?_, ?_, fun j hj => ?_, fun j hj => ?_, fun u => ?_⟩
  · rw [setCore_group, State.group, coreSwitch_hub]
    exact memOnly_groupSt hacq n
  · rw [setCore_hub, coreSwitch_hub, memOnly_hub hacq]
  · rw [setCore_ctxs, coreSwitch_ctxs, memOnly_ctxs hacq]
  · obtain rfl := List.mem_singleton.mp hj
    have h := hreleased ((coreSwitch (acquiredCore s j) j true).core j)
    rw [setCore_core, if_pos rfl]
    rw [coreSwitch_core, if_pos rfl, memOnly_core hacq] at h ⊢
    exact h
  · rw [List.mem_singleton] at hj
    rw [setCore_core, if_neg hj, coreSwitch_core, if_neg hj, memOnly_core hacq]
  · rw [setCore_tile, coreSwitch_tile]
    simp only [List.mem_singleton]
    split
    · exact tileNoted_groupSwitch (hacq.tile u)
    · exact hacq.tile u

theorem foldl_releaseCore (kern : Nat) (g : Group) {ks : List Nat} (hn : ks.Nodup) (s : State) :
    CoresReleased s (ks.foldl (fun s k => releaseCore s kern g k) s) kern g ks := by
  induction ks generalizing s with
  | nil => exact ⟨fun _ => rfl, rfl, rfl, fun _ h => absurd h List.not_mem_nil, fun _ _ => rfl, fun _ => rfl⟩
  | cons k ks ih =>
    obtain ⟨hk, hn⟩ := List.nodup_cons.mp hn
    have hone := releaseCore_releases s kern g k
    have hrest := ih hn (releaseCore s kern g k)
    rw [List.foldl_cons]
    generalize releaseCore s kern g k = u at hone hrest ⊢
    generalize ks.foldl _ u = t at hrest ⊢
    refine ⟨fun n => (hrest.group n).trans (hone.group n), hrest.loading.trans hone.loading, hrest.ctxs.trans hone.ctxs,
      fun j hj => ?_, fun j hj => ?_, fun v => ?_⟩
    · obtain rfl | hj := List.mem_cons.mp hj
      · rw [hrest.other _ hk]
        exact hone.core _ (List.mem_singleton_self _)
      · have hne : j ∉ [k] := fun h => hk (List.mem_singleton.mp h ▸ hj)
        rw [← hone.other j hne]
        exact hrest.core j hj
    · obtain ⟨hjk, hjs⟩ := not_or.mp (fun h => hj (List.mem_cons.mpr h))
      exact (hrest.other j hjs).trans (hone.other j (fun h => hjk (List.mem_singleton.mp h)))
    · have h1 := hone.tile v
      have h2 := hrest.tile v
      simp only [List.mem_singleton] at h1
      by_cases hu : v / 4 = k
      · rw [if_pos hu] at h1
        rw [if_neg (hu ▸ hk)] at h2
        rw [if_pos (List.mem_cons.mpr (.inl hu))]
        exact tileNoted_trans h1 h2
      · rw [if_neg hu] at h1
        by_cases hus : v / 4 ∈ ks
        · rw [if_pos hus] at h2
          rw [if_pos (List.mem_cons.mpr (.inr hus))]
          exact tileNoted_trans (tileNoted_groupSwitch h1) h2
        · rw [if_neg hus] at h2
          rw [if_neg (fun h => (List.mem_cons.mp h).elim hu hus)]
          exact tileNoted_trans h1 h2

/-- What a release empties in a tile, and what it leaves (R139). -/
theorem groupSwitch_fields (t : Tile) : let t' := Tile.groupSwitch true t
    t'.flags = 0 ∧ (∀ r, t'.getX r = 0) ∧ (∀ j, t'.getK j = allOnes) ∧ t'.spad = t.spad ∧ t'.acc = t.acc ∧ t'.slots = t.slots :=
  ⟨rfl, fun _ => ite_self _, fun _ => rfl, rfl, rfl, rfl⟩

/-- A tile of a released core. -/
theorem releasedTile {t t' : Tile} (h : TileNoted (Tile.groupSwitch true t) t') :
    t'.flags = 0 ∧ (∀ r, t'.getX r = 0) ∧ (∀ j, t'.getK j = allOnes) ∧ t'.spad = t.spad ∧ t'.acc = t.acc ∧ t'.slots = t.slots := by
  rw [h]
  exact groupSwitch_fields t

/-! ### GROUP_RELEASE (R138) -/

/-- The presets of a group are written (R138). -/
def presetsWritten (s : State) (g : Group) : State := g.presets.foldl (fun s f => s.hubWrite g.cid f.1 (leBytes 8 f.2)) s

theorem memOnly_presetsWritten (s : State) (g : Group) : MemOnly s (presetsWritten s g) :=
  memOnly_foldl (fun s (f : Nat × Nat) => memOnly_hubWrite s g.cid f.1 (leBytes 8 f.2)) _ s

/-- A group that runs, with no barrier in use (R138, R313). -/
def runningGroup (g : Group) : Group := { g with st := .running, barriers := [], left := [], held := [], regroup := none }

/-- The group runs, after its presets (R138). -/
def groupRuns (s : State) (kern : Nat) (g : Group) : State :=
  let s2 := (presetsWritten s g).setGroup kern (runningGroup g)
  { s2 with hub := { s2.hub with loading := s2.hub.loading.filter (fun n => decide (n ≠ kern)) } }

/-- The context runs, and has used the group's cores. -/
def ctxRuns (s : State) (g : Group) : State := s.modCtx g.cid (fun x => { x with st := .running, used := (x.used ++ g.cores).eraseDups })

theorem execGroupRelease_releases {s : State} {kern : Nat} (hst : (s.group kern).st = .loading)
    (hready : ∀ k ∈ (s.group kern).cores, (s.core k).st = .idle ∧ (s.core k).shadow.st = .shadowReady ∧ (s.core k).shadow.kern = kern ∧ nodesIdle s k = true)
    (hloading : s.hub.loading = [kern]) (hmay : mayRelease s kern = true) (hs : s.hub.stalled = false) (hf : s.hub.fenced = false) (hi : s.hub.idle = false) :
    exec (.groupRelease kern) s = .next (ctxRuns ((s.group kern).cores.foldl (fun t k => releaseCore t kern (s.group kern) k)
      (groupRuns s kern (s.group kern))) (s.group kern)) := by
  show execGroupRelease kern s = _
  unfold execGroupRelease
  extract_lets g ready earlier
  have hr : ready = true := List.all_eq_true.mpr fun k hk => by
    obtain ⟨h1, h2, h3, h4⟩ := hready k hk
    simp [h1, h2, h3, h4]
  have he : earlier = false := by simp [earlier, hloading]
  have hg : g.st = .loading := hst
  exact if_neg (by simp [hg, hr, he, hmay, hs, hf, hi])

theorem mayRelease_of {s : State} {kern : Nat} (hx : (s.ctx (s.group kern).cid).st = .resident ∨ (s.ctx (s.group kern).cid).st = .running)
    (hstop : (s.ctx (s.group kern).cid).stopping = none) (hrest : (s.ctx (s.group kern).cid).restoring = false) (hhalt : s.hub.haltCtx = none) :
    mayRelease s kern = true := by
  unfold mayRelease
  obtain h | h := hx <;> simp [h, hstop, hrest, hhalt]

theorem groupRuns_group (s : State) (kern : Nat) (g : Group) : (groupRuns s kern g).group kern = runningGroup g :=
  (setGroup_group (presetsWritten s g) kern kern (runningGroup g)).trans (if_pos rfl)

theorem groupRuns_core (s : State) (kern : Nat) (g : Group) (k : Nat) : (groupRuns s kern g).core k = s.core k :=
  memOnly_core (memOnly_presetsWritten s g) k

theorem groupRuns_tile (s : State) (kern : Nat) (g : Group) (u : Nat) : TileNoted (s.tile u) ((groupRuns s kern g).tile u) :=
  (memOnly_presetsWritten s g).tile u

theorem groupRuns_loading {s : State} {kern : Nat} (g : Group) (h : s.hub.loading = [kern]) : (groupRuns s kern g).hub.loading = [] := by
  have hfilter : (groupRuns s kern g).hub.loading = (presetsWritten s g).hub.loading.filter (fun n => decide (n ≠ kern)) := rfl
  rw [hfilter, memOnly_hub (memOnly_presetsWritten s g)]
  dsimp only
  rw [h]
  simp

theorem ctxRuns_ctx (s : State) (g : Group) : ((ctxRuns s g).ctx g.cid).st = .running := by
  rw [ctxRuns, modCtx_eq, setCtx_ctx, if_pos rfl]

/-- Settles O32, command by command. -/
theorem kernelLaunch : Obligations.KernelLaunch := by
  unfold Obligations.KernelLaunch
  refine ⟨?launch, ?fails, ?loop, ?release, ?complete⟩
  case launch =>
    intro s p a hh hs hf ho hq ha hn n
    have hexec := execLaunch_alone hh hs hf ho hq ha
    have hgroup := launched_group s (kernelTaken s p) p a none
    obtain ⟨hkern, hstarted⟩ := launched_pkt s (kernelTaken s p) p a none
    have hpkt : (kernelTaken s p).pkt p = { s.pkt p with kern := s.hub.nextKern, started := true } := (setPkt_pkt _ p p _).trans (if_pos rfl)
    rw [hpkt] at hkern hstarted
    refine ⟨_, hexec, launched_hand _ _ _ _ _, launched_nextKern _ _ _ _ _, ?_, ?_, ?_, ?_, hkern, hstarted,
      fun e he => launched_loads hn he, fun k hk => launched_other hn hk⟩
    all_goals
      rw [hgroup]
      rfl
  case fails =>
    intro s p st op i hi hh hs hf ho hout ha
    obtain ⟨hhand, hdone, -⟩ := answer_spec hout st 0
    exact ⟨_, exec_launch_fails hh hs hf hi ho ha, hhand, hdone, answer_cores _ _ _ _, answer_mem _ _ _ _⟩
  case loop =>
    intro s p a hh hs hf ho ha hn n
    refine ⟨_, startedLoop s (s.pkt p) a, execLoopl_starts hh hs hf ho ha, launched_hand _ _ _ _ _, ?_, ?_, rfl, rfl, rfl, rfl, rfl, rfl, rfl, rfl,
      fun e he => (launched_loads hn he).1⟩
    all_goals
      rw [launched_group]
      rfl
  case release =>
    intro s kern g hst hn hready hloading hx hstop hrest hhalt hs hf hi
    have hexec := execGroupRelease_releases hst hready hloading (mayRelease_of hx hstop hrest hhalt) hs hf hi
    obtain ⟨hgroup, hload, -, hcore, hother, htile⟩ := foldl_releaseCore kern g hn (groupRuns s kern g)
    refine ⟨_, hexec, ?_, ctxRuns_ctx _ _, ?_, fun k hk => ?_, fun k hk => ?_⟩
    · exact (hgroup kern).trans (congrArg Group.st (groupRuns_group s kern g))
    · exact hload.trans (groupRuns_loading g hloading)
    · have hk' := hcore k hk
      rw [groupRuns_core] at hk'
      have hfields : ∀ d, d < 4 → _ := fun d hd => releasedTile (t := s.tile (unitOf k d)) (tileNoted_trans
        (tileNoted_groupSwitch (groupRuns_tile s kern g (unitOf k d))) (by
          have h := htile (unitOf k d)
          rwa [unit_core hd, if_pos hk] at h))
      refine ⟨hk'.st, hk'.pc, hk'.bn, hk'.group, hk'.cid, hk'.active, hk'.karg0, hk'.kernid, hk'.cause, hk'.handler, hk'.inflight, hfields⟩
    · exact (hother k hk).trans (groupRuns_core s kern g k)
  case complete =>
    intro s p st d hout hnode hfused hhands hlater hdestroy hs k
    have hexec : exec (.packetComplete p) s = .next (finishPkt s p) := by
      show execPacketComplete p s = _
      unfold execPacketComplete
      simp only [hout, hnode, hfused, hlater, hs]
      rfl
    have hsettled := finishPkt_settled hout hhands hdestroy
    have hrec := memOnly_recorded s k st d
    refine ⟨_, hexec, ?_, ?_, ?_, ?_, ?_⟩
    · rw [settledOnly_pkt hsettled, packetGone_pkt]
    · rw [settledOnly_irqs hsettled, packetGone_irqs, memOnly_hostPath hrec, memOnly_hub hrec]
    · rw [settledOnly_queue hsettled, packetGone_out, memOnly_queue hrec]
    · have hmem := congrArg State.mem (packetGone_frame (recorded s k st d) p k)
      refine (settledOnly_mem hsettled).trans (hmem.trans ?_)
      unfold recorded
      split <;> rfl
    · have hcores := congrArg State.cores (packetGone_frame (recorded s k st d) p k)
      exact (settledOnly_cores hsettled).trans (hcores.trans (memOnly_cores hrec))

end Sys2Proof.Proofs
end

section
/-! The events of a group (O24; R139, R185, R304). The statement quantifies over every core number, and its start of a record fails past
core 63: units from 256 on are the Colts, on which an acquire invalidates nothing. -/
namespace Sys2Proof.Proofs
open Laws
open Machine hiding Wf

theorem acquireAt_colt (s : State) {u : Nat} (hu : 256 ≤ u) (scope : Nat) : acquireAt s u scope = s := if_pos hu

/-- The units of a core number past 63 are Colts. -/
theorem acquiredCore_colt (s : State) {k : Nat} (hk : 64 ≤ k) : acquiredCore s k = s := by
  have hunit : ∀ t d, acquireAt t (unitOf k d) 4 = t := fun t d => acquireAt_colt t (by unfold unitOf; omega) 4
  unfold acquiredCore
  simp only [hunit, List.foldl_fixed]

/-- A record whose line has no translation keeps its STATUS. -/
theorem setRecStatus_unmapped {s : State} {cid r : Nat} (h : s.devPa cid (r + 2) = none) (v : Nat) : setRecStatus s cid r v = s := by
  simp only [setRecStatus, State.devPut, h]

/-- Of the read caches of a core, a start changes what its acquire changes (R185). -/
theorem startRecord_rc (s : State) (k r : Nat) (all : Bool) {d : Nat} (hd : d < 4) :
    ((startRecord s k r all).tile (unitOf k d)).rc = ((acquiredCore (setRecStatus s (s.core k).cid r 2) k).tile (unitOf k d)).rc := by
  unfold startRecord acquiredCore
  extract_lets cid s1 s2 s3 args s4
  have hswitch : s3.tile (unitOf k d) = Tile.groupSwitch false (s2.tile (unitOf k d)) := by
    rw [coreSwitch_tile, unit_core hd, if_pos rfl]
  have hargs : (s4.tile (unitOf k d)).rc = (s3.tile (unitOf k d)).rc := by
    rw [foldl_dies_tile s3 k (fun _ t => ((upTo 4).foldl (fun t i => t.setX (i + 1) (BitVec.ofNat 64 (nth 0 args i))) t).setX 5 (BitVec.ofNat 64 r)) hd]
    simp [upTo, List.range_succ]
  rw [modCore_eq, setCore_tile, hargs, hswitch]
  rfl

/-- The record of Colt 0 holds a cached line. -/
def coltCaches : State where
  tiles := [(256, { rc := [(0, { bytes := [1] })] })]

/-- Core 64 starts a record: unit 256, which it counts as its first tile, still holds the line. -/
theorem startRecord_coltCaches_rc : ((startRecord coltCaches 64 0 false).tile (unitOf 64 0)).rc = [(0, { bytes := [1] })] := by
  have hpa : coltCaches.devPa (coltCaches.core 64).cid (0 + 2) = none := rfl
  rw [startRecord_rc coltCaches 64 0 false (by decide), setRecStatus_unmapped hpa, acquiredCore_colt coltCaches (by decide)]
  rfl

/-- Refutes O24: a start of core 64, which the device does not have, leaves the read cache of a Colt as it was, which the statement has
emptied on every unit of every core number. -/
theorem not_groupEvents : ¬ Obligations.GroupEvents := by
  unfold Obligations.GroupEvents
  intro h
  obtain ⟨-, -, -, -, -, hstart, -⟩ := h
  obtain ⟨-, -, -, -, -, -, hrc, -⟩ := hstart coltCaches 64 0 false
  have hempty := hrc 0 (by decide)
  rw [startRecord_coltCaches_rc] at hempty
  cases hempty

end Sys2Proof.Proofs
end

section
/-! The integer instructions of a bundle (O1): the answer of each operation, the wait of DSEL, and the landing of a register. -/
namespace Sys2Proof.Proofs
open Laws
open Machine hiding Wf

theorem opDsel_ok {c : OpCtx} {d a : Nat} {v : DWord} (h : rx c (a + c.die) = .ok v) : opDsel d a c = .ok [{ lat := 1, eff := .xreg d v }] := by
  simp only [opDsel, h, bind, Except.bind, xPost]

/-- A scalar register can be read, or its reader waits (R44). -/
theorem rx_ok_or_wait (c : OpCtx) (r : Nat) : (∃ v, rx c r = .ok v) ∨ rx c r = .error .wait := by
  unfold rx
  split
  · exact .inl ⟨_, rfl⟩
  · split
    · exact .inl ⟨_, rfl⟩
    · split
      · exact .inl ⟨_, rfl⟩
      · exact .inl ⟨_, rfl⟩
      · exact .inr rfl

theorem opDsel_wait {c : OpCtx} {d a : Nat} (h : rx c (a + c.die) = .error .wait) : opDsel d a c = .error .wait := by
  simp only [opDsel, h, bind, Except.bind]

theorem opDsel_ok_or_wait (d a : Nat) (c : OpCtx) : (∃ ps, opDsel d a c = .ok ps) ∨ opDsel d a c = .error .wait := by
  obtain ⟨v, h⟩ | h := rx_ok_or_wait c (a + c.die)
  · exact .inl ⟨_, opDsel_ok h⟩
  · exact .inr (opDsel_wait h)

section waiting
variable {s : State} {k sl n : Nat} {single : Bool} {op : OpCtx → Res (List Post)}

/-- A word whose dies answer or wait asks for no bank and holds no core; it waits where one of its dies does (R44). -/
theorem runOn_wait {dies : List Nat} (h : ∀ c, (∃ ps, op c = .ok ps) ∨ op c = .error .wait) :
    let r := runOn s k sl n single op dies
    r.held = false ∧ r.asks = []
      ∧ ((∃ e ∈ dies, op { s := s, u := unitOf k e, slot := sl, n := n, single := single } = .error .wait) → r.wait = true) := by
  induction dies using List.reverseRecOn with
  | nil => exact ⟨rfl, rfl, fun ⟨e, he, _⟩ => absurd he List.not_mem_nil⟩
  | append_singleton es d ih =>
    obtain ⟨hheld, hasks, hwait⟩ := ih
    have hlast : runOn s k sl n single op (es ++ [d]) = _ := List.foldl_append ..
    rw [hlast]
    obtain ⟨ps, hd⟩ | hd := h { s := s, u := unitOf k d, slot := sl, n := n, single := single }
    · simp only [List.foldl_cons, List.foldl_nil, hd]
      refine ⟨hheld, hasks, fun ⟨e, he, hop⟩ => hwait ⟨e, ?_, hop⟩⟩
      obtain hes | rfl := List.mem_append.mp he |>.imp_right List.mem_singleton.mp
      · exact hes
      · simp [hd] at hop
    · simp only [List.foldl_cons, List.foldl_nil, hd]
      exact ⟨hheld, hasks, fun _ => trivial⟩

/-- A slot in which a die waits for a register leaves its turn to the oldest result that can arrive (R44, logs 3 and 17). -/
theorem issueTiles_wait {i : Issue} {e : Nat} (ht : s.turn = .core k) (hh : (s.core k).handler = none) (hx : (s.core k).issue = some i)
    (hb : i.brtDone = true) (hs : i.slot = sl) (h : ∀ c, (∃ ps, op c = .ok ps) ∨ op c = .error .wait) (he : e ∈ i.dies sl)
    (hw : op (look s k sl e) = .error .wait) : issueTiles s sl op = .next (arriveOldest s k) := by
  obtain ⟨hheld, hasks, hwait⟩ := runOn_wait (s := s) (k := k) (sl := sl) (n := (s.core k).bn) (single := false) (dies := i.dies sl) h
  simp [issueTiles, issueWith, ht, hh, hx, hb, hs, hwait ⟨e, he, hw⟩, hheld, hasks, slotWaits, joinBanks]

end waiting

/-- The landing of a scalar register that carries no flags (R157). -/
theorem landEntry_xreg {s : State} {e : Entry} {d : Nat} {v : DWord} (h : e.eff = .xreg d v) (hf : e.fl = 0) (hm : e.mx = 0) :
    landEntry s e = s.writeX e.unit d v := by
  rw [landEntry_flags (s1 := s.writeX e.unit d v) (by rw [h]; rfl), if_pos ⟨hf, hm⟩]

/-- Settles O1: each instruction from the answer of its operation on each die, the wait of DSEL, and the landing of its register. -/
theorem intResults : Obligations.IntResults := by
  unfold Obligations.IntResults
  refine ⟨fun s k d a b i op lat f va vb hop hin ha hb => ?three, fun s k d a m i va hin ha => issueTiles_bundle hin fun e he => opAddi_ok (ha e he),
    fun s k d m i hin => issueTiles_bundle hin fun e he => rfl,
    fun s k d a b p i va vb vp hin ha hb hp => issueTiles_bundle hin fun e he => opSel_ok (ha e he) (hb e he) (hp e he),
    fun s k d a i va hin ha => issueTiles_bundle hin fun e he => opDsel_ok (ha e he),
    fun s k d a e i _ ht hh hx hb hs he hw => issueTiles_wait ht hh hx hb hs (opDsel_ok_or_wait d a) he (opDsel_wait hw),
    fun s e d v he hf hm => landEntry_xreg he hf hm⟩
  case three =>
    -- `intForms` has MULH after the shifts, the statement after MUL.
    have hform : (op, lat, f) ∈ intForms d a b :=
      (List.Perm.append_left [_, _, _] (List.perm_middle (l₁ := [_, _, _, _, _]))).mem_iff.mpr hop
    exact (exec_intForms (op, lat, f) hform).trans (issueTiles_bundle hin fun e he => opInt_ok (ha e he) (hb e he))

end Sys2Proof.Proofs
end

section
/-! The predicate instructions (O25) and branch targets (O21). -/
namespace Sys2Proof.Proofs
open Laws
open Machine hiding Wf

/-- The landing of a predicate that carries no flags (R171). -/
theorem landEntry_pred {s : State} {e : Entry} {d : Nat} {b : Bool} (h : e.eff = .pred d b) (hf : e.fl = 0) (hm : e.mx = 0) :
    landEntry s e = s.setTile e.unit ((s.tile e.unit).setP d b) := by
  rw [landEntry_flags (s1 := s.setTile e.unit ((s.tile e.unit).setP d b)) (by rw [h]; rfl), if_pos ⟨hf, hm⟩]

theorem opPmov_ok {c : OpCtx} {d a : Nat} {v : Bool} (h : rp c a = .ok v) : opPmov d a c = .ok [{ lat := 1, eff := .pred d v }] := by
  simp only [opPmov, h, bind, Except.bind, predPost]

/-- p0 to p5 read nothing of the predicate file (R52, R158). -/
theorem predOf_fixed (t t' : Tile) (u : Nat) {q : Nat} (h : q ≤ 5) : predOf t u q = predOf t' u q := by
  obtain h | h : q ≤ 4 ∨ q = 5 := by omega
  · simp only [predOf, h, if_true]
  · subst h
    rfl

theorem predOf_file (t : Tile) (u : Nat) {q : Nat} (h : 6 ≤ q) : predOf t u q = t.p.getLsbD q := by
  have h0 : q ≠ 0 := by omega
  have h4 : ¬ q ≤ 4 := by omega
  have h5 : q ≠ 5 := by omega
  simp only [predOf, h0, h4, h5, if_false]

/-- A write of a predicate of the file: bit d of 128, where there is one. -/
theorem setP_getLsbD (t : Tile) {d : Nat} (h : 6 ≤ d) (b : Bool) (q : Nat) :
    (t.setP d b).p.getLsbD q = if q = d ∧ d < 128 then b else t.p.getLsbD q := by
  have h5 : ¬ d ≤ 5 := by omega
  have hlt : t.p.getLsbD q = true → q < 128 := BitVec.lt_of_getLsbD
  by_cases hq : d = q
  · subst hq
    by_cases hd : d < 128
    · cases b <;> simp [Tile.setP, h5, hd]
    · cases b <;> simp [Tile.setP, h5, hd, BitVec.getLsbD_of_ge _ _ (Nat.not_lt.mp hd)]
  · cases b
    · simpa [Tile.setP, h5, hq, Ne.symm hq] using hlt
    · simp [Tile.setP, h5, hq, Ne.symm hq]

theorem predOf_setP (t : Tile) (d u q : Nat) (b : Bool) :
    predOf (t.setP d b) u q = if q = d ∧ 6 ≤ d ∧ d < 128 then b else predOf t u q := by
  by_cases hd : 6 ≤ d
  · by_cases hq : 6 ≤ q
    · simp only [predOf_file _ u hq, setP_getLsbD t hd, hd, true_and]
    · rw [if_neg (by omega)]
      exact predOf_fixed _ t u (by omega)
  · rw [if_neg (by omega), Tile.setP, if_pos (by omega)]

/-- Settles O25: each instruction from the answer of its operation on each die, and the bit that its landing writes. -/
theorem predicateResults : Obligations.PredicateResults := by
  unfold Obligations.PredicateResults
  refine ⟨fun s k d a b cc i va vb hcc hin ha hb => issueTiles_bundle hin fun e he => ?_,
    fun s k d a cc m i va hcc hin ha => issueTiles_bundle hin fun e he => ?_,
    fun s k d a b o i va vb ho hin ha hb => issueTiles_bundle hin fun e he => ?_,
    fun s k d a i va hin ha => issueTiles_bundle hin fun e he => opPmov_ok (ha e he),
    fun s k d v i hv hin => issueTiles_bundle hin fun e he => rfl, fun s e d b he hf hm => landEntry_pred he hf hm,
    fun t d u q b => predOf_setP t d u q b⟩
  · exact (opScmp_ok (ha e he) (hb e he)).trans (by rw [scmp_code hcc])
  · exact (opScmpi_ok (ha e he)).trans (by rw [scmp_code hcc])
  · exact (opPlog_ok (ha e he) (hb e he)).trans (by rw [plogOp_code ho])

end Sys2Proof.Proofs
end

section
/-! Branch targets (O21): what BTGT stages, and the landing that trees of the next bundle see. -/
namespace Sys2Proof.Proofs
open Laws
open Machine hiding Wf

/-- With nothing outstanding, no load has bytes to take before a landing (R43, R176). -/
theorem arriveEarlier_quiet {s : State} {k : Nat} (h : ∀ e ∈ (s.core k).inflight, e.pend = false) (due : List Entry) : arriveEarlier s k due = s := by
  unfold arriveEarlier
  refine (List.foldl_ext _ (fun s _ => s) s fun t e he => ?_).trans (List.foldl_fixed ..)
  simp only [h e (List.mem_reverse.mp he), Bool.false_and]
  split
  · next hneeded => exact absurd hneeded Bool.false_ne_true
  · rfl

/-- A lone result in flight that is due lands. -/
theorem landUpTo_single {s : State} {k m : Nat} {e : Entry} (hfl : (s.core k).inflight = [e]) (hp : e.pend = false) (hm : e.due ≤ m) :
    landUpTo s k m = landEntry (s.setCore k { s.core k with inflight := [] }) e := by
  have hquiet : ∀ f ∈ (s.core k).inflight, f.pend = false := by simp [hfl, hp]
  simp [landUpTo, arriveEarlier_quiet hquiet, hfl, hp, hm, sortEntries, insertEntry]

theorem landEntry_bt {s : State} {e : Entry} {j : Nat} {v : BitVec 12} (h : e.eff = .bt j v) (hf : e.fl = 0) (hm : e.mx = 0) :
    landEntry s e = s.writeBt e.unit j v := by
  rw [landEntry_flags (s1 := s.writeBt e.unit j v) (by rw [h]; rfl), if_pos ⟨hf, hm⟩]

/-- Outside handler mode a target is written to the program's own registers (R344). -/
theorem writeBt_eq {s : State} {u j : Nat} {v : BitVec 12} (h : s.banked u = false) :
    s.writeBt u j v = s.setTile u { s.tile u with bt := sset 0 (s.tile u).bt j v } := by
  simp [State.writeBt, h]

theorem banked_setTile (s : State) (u v : Nat) (t : Tile) : (s.setTile u t).banked v = s.banked v := rfl

theorem banked_normal {s : State} {k d : Nat} (hd : d < 4) (h : (s.core k).handler = none) : s.banked (unitOf k d) = false := by
  simp [State.banked, unit_core hd, h]

theorem readBt_setTile {s : State} {u : Nat} (t : Tile) (h : s.banked u = false) (j : Nat) : (s.setTile u t).readBt u j = t.getBt j := by
  simp [State.readBt, banked_setTile, h, Tile.getBt]

/-- Settles O21: what BTGT stages lands as its target, which the leaf reads. -/
theorem branchTargets : Obligations.BranchTargets := by
  unfold Obligations.BranchTargets
  refine ⟨fun s k j addr i hin => ?stages, fun s k d n m j addr hd hj ha hh hm hfl => ?lands⟩
  case stages =>
    have hres : resultsOf s k 0 i (fun _ => [{ lat := 1, eff := .bt j (BitVec.ofNat 12 addr) }]) = (i.dies 0).map (fun d =>
        { due := (s.core k).bn + 1, issue := (s.core k).bn, slot := 0, unit := unitOf k d, eff := .bt j (BitVec.ofNat 12 addr) }) :=
      List.map_eq_flatMap.symm
    exact hres ▸ issueTiles_bundle hin fun e he => rfl
  case lands =>
    have hland := landUpTo_single hfl rfl hm
    have hnormal : (s.setCore k { s.core k with inflight := [] }).banked (unitOf k d) = false := banked_normal hd (by simp [hh])
    rw [landEntry_bt rfl rfl rfl, writeBt_eq hnormal, setCore_tile] at hland
    have htarget : ((landUpTo s k m).readBt (unitOf k d) j).toNat = addr := by
      rw [hland, readBt_setTile _ hnormal]
      simp [Tile.getBt, Nat.mod_eq_of_lt ha]
    refine ⟨htarget, by simp [hland], fun harm => ?_, fun u b hub => ?_⟩
    · simp [leafTarget, harm, htarget, Nat.succ_le_of_lt hj]
    · rw [hland, setTile_tile]
      split
      · next hu => simp [Tile.getBt, hu, (hub.resolve_left (not_not.mpr hu))]
      · rfl

end Sys2Proof.Proofs
end

section
/-! The system registers (O47): what CSRR, CSRW and CSRS stage, and how each field takes a write. -/
namespace Sys2Proof.Proofs
open Laws
open Machine hiding Wf

/-- What CSRW and CSRS give a register: x[S], or its or with the register (R163). -/
def csrPut (s : State) (u n : Nat) (v : DWord) (orOld : Bool) : DWord := if orOld then BitVec.ofNat 64 (csrValue s u n) ||| v else v

/-- The number from which a write takes its fields. -/
def csrNum (s : State) (u n : Nat) (v : DWord) (orOld : Bool) : Nat := if orOld then Nat.lor (csrValue s u n) v.toNat else v.toNat

theorem ofNat_csrNum (s : State) (u n : Nat) (v : DWord) (o : Bool) : BitVec.ofNat 64 (csrNum s u n v o) = csrPut s u n v o := by
  cases o with
  | false => simp [csrNum, csrPut]
  | true =>
    show BitVec.ofNat 64 (csrValue s u n ||| v.toNat) = BitVec.ofNat 64 (csrValue s u n) ||| v
    rw [BitVec.ofNat_or, BitVec.ofNat_toNat, BitVec.setWidth_eq]

theorem csrPut_toNat (s : State) (u n : Nat) (v : DWord) (o : Bool) : (csrPut s u n v o).toNat = csrNum s u n v o % 2 ^ 64 := by
  rw [← ofNat_csrNum, BitVec.toNat_ofNat]

/-- A bit field of a register's low 64 bits. -/
theorem bitsOf_csrNum (s : State) (u n : Nat) (v : DWord) (o : Bool) {hi lo : Nat} (h : hi < 64) (hlo : lo ≤ hi) :
    bitsOf (csrNum s u n v o) hi lo = (csrPut s u n v o).toNat / 2 ^ lo % 2 ^ (hi + 1 - lo) := by
  have hsplit : 2 ^ 64 = 2 ^ lo * 2 ^ (64 - lo) := by rw [← pow_add]; congr 1; omega
  rw [csrPut_toNat, bitsOf, hsplit, Nat.mod_mul_right_div_self, Nat.mod_mod_of_dvd _ (pow_dvd_pow 2 (by omega))]

theorem lowBits_csrNum (s : State) (u n : Nat) (v : DWord) (o : Bool) {hi : Nat} (h : hi < 64) :
    bitsOf (csrNum s u n v o) hi 0 = (csrPut s u n v o).toNat % 2 ^ (hi + 1) := by
  rw [bitsOf_csrNum s u n v o h (Nat.zero_le hi), pow_zero, Nat.div_one, Nat.sub_zero]

theorem bitOf_csrNum (s : State) (u n : Nat) (v : DWord) (o : Bool) {b : Nat} (h : b < 64) :
    bitOf (csrNum s u n v o) b = (csrPut s u n v o).getLsbD b := by
  rw [← ofNat_csrNum, bitOf_eq_testBit, BitVec.getLsbD_ofNat, decide_eq_true h, Bool.true_and]

theorem setWidth_csrNum (s : State) (u n : Nat) (v : DWord) (o : Bool) {w : Nat} (h : w ≤ 64) :
    BitVec.ofNat w (csrNum s u n v o) = (csrPut s u n v o).setWidth w := by
  rw [← ofNat_csrNum, BitVec.setWidth_ofNat_of_le h]

section apply
variable (s : State) (u : Nat) (v : DWord) (o : Bool)

theorem csrApply_flags : csrApply s u 0x010 v o = s.setTile u { s.tile u with flags := (csrPut s u 0x010 v o).setWidth 6 } := by
  rw [← setWidth_csrNum s u _ v o (by decide)]
  rfl

theorem csrApply_mxcnt : csrApply s u 0x011 v o = s.setTile u { s.tile u with mx := MxCnt.unpack (csrPut s u 0x011 v o) } := by
  rw [← ofNat_csrNum]
  rfl

/-- TAGMODE: an LDT of 3 leaves its field (R163). -/
theorem csrApply_tagmode : csrApply s u 0x012 v o = s.setTile u { s.tile u with
    cvt := (csrPut s u 0x012 v o).getLsbD 0
    ldt := if (csrPut s u 0x012 v o).toNat / 2 % 4 = 3 then (s.tile u).ldt else (csrPut s u 0x012 v o).toNat / 2 % 4 } := by
  have hldt : bitsOf (csrNum s u 0x012 v o) 2 1 = (csrPut s u 0x012 v o).toNat / 2 % 4 := bitsOf_csrNum s u _ v o (by decide) (by decide)
  rw [← bitOf_csrNum s u _ v o (by decide), ← hldt]
  rfl

/-- BTCFG: the banked copy in handler mode (R344). -/
theorem csrApply_btcfg : csrApply s u 0x013 v o = s.setTile u (if s.banked u then { s.tile u with harm := (csrPut s u 0x013 v o).setWidth 4 }
    else { s.tile u with arm := (csrPut s u 0x013 v o).setWidth 4 }) := by
  rw [← setWidth_csrNum s u _ v o (by decide)]
  rfl

/-- PARKST: an SBASE above 8,152 leaves its field (R205). -/
theorem csrApply_parkst : csrApply s u 0x014 v o = s.setTile u { s.tile u with
    pool := (csrPut s u 0x014 v o).getLsbD 17
    abank := (csrPut s u 0x014 v o).toNat / 2 ^ 14 % 8
    sbase := if (csrPut s u 0x014 v o).toNat % 2 ^ 13 ≤ 8152 then (csrPut s u 0x014 v o).toNat % 2 ^ 13 else (s.tile u).sbase } := by
  have habank : bitsOf (csrNum s u 0x014 v o) 16 14 = (csrPut s u 0x014 v o).toNat / 2 ^ 14 % 8 :=
    bitsOf_csrNum s u _ v o (by decide) (by decide)
  have hsbase : bitsOf (csrNum s u 0x014 v o) 12 0 = (csrPut s u 0x014 v o).toNat % 2 ^ 13 := lowBits_csrNum s u _ v o (by decide)
  rw [← bitOf_csrNum s u _ v o (by decide), ← habank, ← hsbase]
  rfl

/-- TRAPPC: a value above 2,048 is not taken; a Colt has its own, a core one, which follows its lead die (log 8). -/
theorem csrApply_trappc : csrApply s u 0x041 v o = if 2048 < (csrPut s u 0x041 v o).toNat % 4096 then s
    else if 256 ≤ u then s.setColt (u - 256) { s.colt (u - 256) with trapPc := (csrPut s u 0x041 v o).setWidth 12 }
    else if u = leadUnit (u / 4) then s.setCore (u / 4) { s.core (u / 4) with trapPc := (csrPut s u 0x041 v o).setWidth 12 } else s := by
  have hpc : bitsOf (csrNum s u 0x041 v o) 11 0 = (csrPut s u 0x041 v o).toNat % 4096 := lowBits_csrNum s u _ v o (by decide)
  rw [← setWidth_csrNum s u _ v o (by decide), ← hpc]
  rfl

/-- A write to any other register is discarded (R4). -/
theorem csrApply_readOnly {n : Nat} (h : n ∉ [0x010, 0x011, 0x012, 0x013, 0x014, 0x041]) : csrApply s u n v o = s := by
  simp only [List.mem_cons, List.not_mem_nil, or_false, not_or] at h
  obtain ⟨hflags, hmx, htag, hbt, hpark, hpc⟩ := h
  unfold csrApply
  extract_lets old w
  split
  · exact absurd rfl hflags
  · exact absurd rfl hmx
  · exact absurd rfl htag
  · exact absurd rfl hbt
  · exact absurd rfl hpark
  · exact absurd rfl hpc
  · rfl

end apply

/-- The one TRAPPC of a core, from one of its tiles (log 8). -/
theorem csrApply_trappc_core (s : State) {k e : Nat} (v : DWord) (o : Bool) (hk : k < 64) (he : e < 4) :
    let p := csrPut s (unitOf k e) 0x041 v o
    csrApply s (unitOf k e) 0x041 v o = if e = k % 4 ∧ p.toNat % 4096 ≤ 2048 then s.setCore k { s.core k with trapPc := p.setWidth 12 } else s := by
  have htile : ¬ 256 ≤ unitOf k e := Nat.not_le.mpr (unit_lt hk he)
  have hlead : unitOf k e = leadUnit k ↔ e = k % 4 := by unfold leadUnit unitOf; omega
  dsimp only
  rw [csrApply_trappc, if_neg htile, unit_core he]
  by_cases hpc : 2048 < (csrPut s (unitOf k e) 0x041 v o).toNat % 4096
  · rw [if_pos hpc, if_neg (by omega)]
  · simp only [if_neg hpc, hlead, Nat.not_lt.mp hpc, and_true]

/-- Settles O47: each word from the answer of its operation on each die, and each register from the rule of its fields. -/
theorem systemRegisterAccess : Obligations.SystemRegisterAccess := by
  unfold Obligations.SystemRegisterAccess
  refine ⟨fun s k d n i hin => issueTiles_bundle hin fun e he => opCsrr_ok (csrHere_tile (look_colt hin.core (dies_lt he))),
    fun s k a n i va op orOld hop hin ha => ?write,
    fun s u v o => ⟨csrApply_flags s u v o, csrApply_mxcnt s u v o, csrApply_tagmode s u v o, csrApply_btcfg s u v o, csrApply_parkst s u v o,
      fun hu => (csrApply_trappc s u v o).trans (by rw [if_pos hu]; rfl)⟩,
    fun s k e v o hk he => csrApply_trappc_core s v o hk he, fun s u n v o h => csrApply_readOnly s u v o h⟩
  case write =>
    have hexec : exec op s = issueTiles s 0 (opCsrw a n orOld) := by
      simp only [List.mem_cons, List.not_mem_nil, or_false, Prod.mk.injEq] at hop
      obtain ⟨rfl, rfl⟩ | ⟨rfl, rfl⟩ := hop
      · rfl
      · rfl
    exact hexec.trans (issueTiles_bundle hin fun e he => opCsrw_ok (csrHere_tile (look_colt hin.core (dies_lt he))) (ha e he))

end Sys2Proof.Proofs
end

section
/-! The sequencer words and the return store (O48), and the control words (O49). -/
namespace Sys2Proof.Proofs
open Laws
open Machine hiding Wf

/-- What a word read on the lead die posts there, and on no other (R168, R350). -/
def leadPosts (k : Nat) (e : Eff) (d : Nat) : List Post := if d = k % 4 then [{ lat := 1, eff := e }] else []

/-- A word that looks at its operands on the lead die alone (R168, R350). -/
theorem issueTiles_lead {s : State} {k : Nat} {i : Issue} {op : OpCtx → Res (List Post)} {e : Eff} (hin : InSlot s k 0 i)
    (hlead : op (look s k 0 (k % 4)) = .ok [{ lat := 1, eff := e }]) (hother : ∀ c : OpCtx, c.isLead = false → op c = .ok []) :
    issueTiles s 0 op = .next (issued s k 0 i (resultsOf s k 0 i (leadPosts k e))) := by
  refine issueTiles_bundle hin fun d hd => ?_
  unfold leadPosts
  by_cases h : d = k % 4
  · rw [if_pos h, h, hlead]
  · rw [if_neg h]
    exact hother _ ((look_lead hin.core (dies_lt hd)).trans (decide_eq_false h))

theorem lead_isLead {s : State} {k : Nat} (hk : k < 64) : (look s k 0 (k % 4)).isLead = true :=
  (look_lead hk (Nat.mod_lt k (by decide))).trans (decide_eq_true rfl)

/-- The effect that a LOOP form posts on the lead die: the count of its level, or one of its two strides (R168, R169). -/
def loopEff (l : Nat) (which : Option Nat) (r : Nat) (v : DWord) : Eff :=
  match which with
  | none => .loopCount l (v.setWidth 24)
  | some w => .loopStride l w r v

theorem opLoop_other (l x : Nat) (which : Option Nat) (r : Nat) (c : OpCtx) (h : c.isLead = false) : opLoop l x which r c = .ok [] := by
  simp [opLoop, h]

theorem opLoop_lead {c : OpCtx} {l x r : Nat} {which : Option Nat} {v : DWord} (h : c.isLead = true) (hx : rx c x = .ok v) :
    opLoop l x which r c = .ok [{ lat := 1, eff := loopEff l which r v }] := by
  cases which <;> simp [opLoop, h, hx, loopEff, bind, Except.bind]

theorem opRstkw_other (x j : Nat) (c : OpCtx) (h : c.isLead = false) : opRstkw x j c = .ok [] := by
  simp [opRstkw, h]

/-- RSTKW passes its checks where each part that it writes is in range (R350). -/
theorem opRstkw_lead {c : OpCtx} {x j : Nat} {v : DWord} (h : c.isLead = true) (hx : rx c x = .ok v)
    (he : v.getLsbD 62 = true ∨ v.toNat % 4096 ≤ 2048) (hd : v.getLsbD 63 = false ∨ v.toNat / 2 ^ 16 % 32 ≤ 16) :
    opRstkw x j c = .ok [{ lat := 1, eff := .rstk j v }] := by
  have hentry : (v.getLsbD 62 || decide (bitsOf v.toNat 11 0 ≤ 2048)) = true := by
    simpa [bitsOf] using he
  have hdepth : (!v.getLsbD 63 || decide (bitsOf v.toNat 20 16 ≤ 16)) = true := by
    rw [Bool.or_eq_true, Bool.not_eq_true', decide_eq_true_eq]
    exact hd
  simp only [opRstkw, h, hx, hentry, hdepth, check, bind, Except.bind, Bool.not_true, Bool.false_eq_true, if_false, if_true]

/-- The lead die's tile stands for its core (R350). -/
theorem leadUnit_lt {k : Nat} (hk : k < 64) : leadUnit k < 256 := unit_lt hk (Nat.mod_lt k (by decide))

theorem rstkGet_unit {s : State} {u : Nat} (h : u < 256) (j : Nat) : s.rstkGet u j = sget 0 (s.core (u / 4)).rstk j :=
  if_neg (Nat.not_le.mpr h)

theorem rdepthOf_unit {s : State} {u : Nat} (h : u < 256) : s.rdepthOf u = (s.core (u / 4)).rdepth := if_neg (Nat.not_le.mpr h)

/-- RSTKR gives the entry and the depth of the core, whatever the die (R350). -/
theorem opRstkr_tile {s : State} {k sl d xd : Nat} (hk : k < 64) (hd : d < 4) (j : Nat) :
    opRstkr xd j (look s k sl d) = .ok [{ lat := 1, eff := .xreg xd (BitVec.ofNat 64 ((sget 0 (s.core k).rstk j).toNat + (s.core k).rdepth * 2 ^ 16)) }] := by
  have hget : s.rstkGet (leadUnit k) j = sget 0 (s.core k).rstk j := by rw [rstkGet_unit (leadUnit_lt hk), lead_core]
  have hdepth : s.rdepthOf (leadUnit k) = (s.core k).rdepth := by rw [rdepthOf_unit (leadUnit_lt hk), lead_core]
  unfold opRstkr
  rw [look_colt hk hd, look_k hd, ← hget, ← hdepth]
  rfl

/-- RSTKW lands on the return store of the tile's core (R350). -/
theorem rstkApply_core {s : State} {k e : Nat} (hk : k < 64) (he : e < 4) (j : Nat) (v : DWord) :
    (s.rstkApply (unitOf k e) j v).core k = { s.core k with
      rstk := if v.getLsbD 62 then (s.core k).rstk else sset 0 (s.core k).rstk j (v.setWidth 12)
      rdepth := if v.getLsbD 63 then v.toNat / 2 ^ 16 % 32 else (s.core k).rdepth } := by
  unfold State.rstkApply
  rw [if_neg (Nat.not_le.mpr (unit_lt hk he)), unit_core he, modCore_eq, setCore_core, if_pos rfl]
  rfl

/-- Settles O48: the words of the lead die, RSTKR on each die, and the landing of RSTKW. -/
theorem sequencerAndStore : Obligations.SequencerAndStore := by
  unfold Obligations.SequencerAndStore
  refine ⟨fun s k l x r i v op f hop hin hx => ?loop, fun s k j a i hin => issueTiles_bundle hin fun e he => rfl,
    fun s k d j i hin => issueTiles_bundle hin fun e he => opRstkr_tile hin.core (dies_lt he) j,
    fun s k x j i v hin hx he hd => issueTiles_lead hin (opRstkw_lead (lead_isLead hin.core) hx he hd) (opRstkw_other x j),
    fun s k e j v hk he => rstkApply_core hk he j v⟩
  case loop =>
    have hform : ∃ which r', exec op s = issueTiles s 0 (opLoop l x which r') ∧ f v = loopEff l which r' v := by
      simp only [List.mem_cons, List.not_mem_nil, or_false, Prod.mk.injEq] at hop
      obtain ⟨rfl, rfl⟩ | ⟨rfl, rfl⟩ | ⟨rfl, rfl⟩ := hop
      · exact ⟨none, 0, rfl, rfl⟩
      · exact ⟨some 0, r, rfl, rfl⟩
      · exact ⟨some 1, r, rfl, rfl⟩
    obtain ⟨which, r', hexec, heff⟩ := hform
    rw [hexec, heff]
    exact issueTiles_lead hin (opLoop_lead (lead_isLead hin.core) hx) (opLoop_other l x which r')

theorem opPlsw_ok {c : OpCtx} (h : c.core.active.sec + 1 < c.core.secs.length) : opPlsw c = .ok [] := by
  simp [opPlsw, h]

theorem opCall_ok {c : OpCtx} (h : c.s.rdepthOf c.u < 16) : opCall c = .ok [] := by
  simp [opCall, h, check, bind, Except.bind]

theorem opRet_ok {c : OpCtx} (h : 0 < c.s.rdepthOf c.u) : opRet c = .ok [] := by
  simp [opRet, h, check, bind, Except.bind]

theorem opEret_handler {s : State} {k sl d : Nat} (hk : k < 64) (hd : d < 4) : opEret (lookWord s k sl d) = .ok [] := by
  have hcolt : (lookWord s k sl d).isColt = false := decide_eq_false (Nat.not_le.mpr (unit_lt hk hd))
  have hsingle : (lookWord s k sl d).single = true := rfl
  simp only [opEret, hcolt, hsingle, check, bind, Except.bind, Bool.not_false, Bool.and_self, if_true]

theorem look_rdepth {s : State} {k sl d : Nat} (hk : k < 64) (hd : d < 4) : (look s k sl d).s.rdepthOf (look s k sl d).u = (s.core k).rdepth := by
  show s.rdepthOf (unitOf k d) = _
  rw [rdepthOf_unit (unit_lt hk hd), unit_core hd]

theorem look_core {s : State} {k sl d : Nat} (hd : d < 4) : (look s k sl d).core = s.core k := by
  rw [OpCtx.core, look_k hd]
  rfl

/-- A handler word that posts nothing: its core goes on as the word says. -/
theorem issueWith_handler_plain {s : State} {k sl : Nat} {op : OpCtx → Res (List Post)} {upd : Upd} {aft aftC : After} (hin : InHandler s k)
    (h : ∀ d, d < 4 → op (lookWord s k sl d) = .ok []) : issueWith s sl op upd aft aftC = .next (stepEnd (aft s k) k) :=
  issueWith_handler (ps := fun _ => []) hin fun d hd => h d ((List.mem_range (n := 4)).mp hd)

/-- HALT, END, TRAP and BRK read nothing (R142, R167, R348). -/
theorem opNone_dies (s : State) (k : Nat) (i : Issue) : ∀ d ∈ i.dies 0, opNone (look s k 0 d) = .ok [] := fun _ _ => rfl

/-- TRAP and BRK leave their trap on the bundle, for the dies on which they issue (R348). -/
theorem raiseNext_bundle {s : State} {k : Nat} {i : Issue} (hin : InSlot s k 0 i) (cause info : Nat) (syn : Bool) :
    raiseNext s cause info syn = .next (issuedBy s k 0 i [] (fun j => { j with post := some (cause, info, syn, i.dies 0) })) := by
  unfold raiseNext
  exact issueWith_plain hin (opNone_dies s k i)

/-- Settles O49: each word posts nothing and acts on its bundle; ERET leaves the handler. -/
theorem controlWords : Obligations.ControlWords := by
  unfold Obligations.ControlWords
  refine ⟨fun s k i op f hop hin => ?drain,
    fun s k i hin hsec => ?plsw, fun s k a i hin hdep => ?call, fun s k i hin hdep => ?ret,
    fun s k c n i hin => raiseNext_bundle hin c n true, fun s k n i hin => raiseNext_bundle hin 12 n false,
    fun s k hin hstep => ?eret⟩
  case drain =>
    simp only [List.mem_cons, List.not_mem_nil, or_false, Prod.mk.injEq] at hop
    obtain ⟨rfl, rfl⟩ | ⟨rfl, rfl⟩ := hop
    · show execHalt s = _
      exact issueWith_plain hin (opNone_dies s k i)
    · show execKend s = _
      exact issueWith_plain hin (opNone_dies s k i)
  case plsw =>
    show execPlsw s = _
    have hop : ∀ d ∈ i.dies 0, opPlsw (look s k 0 d) = .ok [] := fun d hd => opPlsw_ok (by rwa [look_core (dies_lt hd)])
    exact issueWith_plain hin hop
  case call =>
    show execCall a s = _
    have hop : ∀ d ∈ i.dies 0, opCall (look s k 0 d) = .ok [] := fun d hd => opCall_ok (by rwa [look_rdepth hin.core (dies_lt hd)])
    exact issueWith_plain hin hop
  case ret =>
    show execRet s = _
    have hop : ∀ d ∈ i.dies 0, opRet (look s k 0 d) = .ok [] := fun d hd => opRet_ok (by rwa [look_rdepth hin.core (dies_lt hd)])
    exact issueWith_plain hin hop
  case eret =>
    have hquiet : stepEnd (leaveHandler s k) k = leaveHandler s k := stepEnd_idle (by simpa [leaveHandler] using hstep)
    have hexec : execEret s = .next (stepEnd (leaveHandler s k) k) := issueWith_handler_plain hin fun d hd => opEret_handler hin.core hd
    refine ⟨leaveHandler s k, hquiet ▸ hexec, ?_⟩
    simp [leaveHandler]

end Sys2Proof.Proofs
end

section
/-! Loads and stores (O59): what LD and ST stage, the load that takes its bytes, and the first checks of an address. -/
namespace Sys2Proof.Proofs
open Laws
open Machine hiding Wf

theorem peek_lt (s : State) (u pa len : Nat) (nc : Bool) : leNat (s.peek u pa len nc) < 2 ^ (8 * len) := by
  have h := leNat_lt (s.peek u pa len nc)
  rwa [State.peek, List.length_map, upTo, List.length_range, show 256 = 2 ^ 8 from rfl, ← pow_mul] at h

/-- The sign of a number that fits its field (R93). -/
theorem sextNat_of_lt {v n : Nat} (h : v < 2 ^ n) : sextNat v n = if 2 ^ (n - 1) ≤ v then (v : Int) - 2 ^ n else v := by
  simp only [sextNat, Nat.mod_eq_of_lt h]

/-- The value of a load: its little-endian bytes, extended by zeros or by the sign (R174, R175). -/
theorem loadValue_eq (s : State) (u pa size : Nat) (sx nc : Bool) :
    let n := leNat (s.peek u pa size nc)
    loadValue s u pa size sx nc =
      if sx = true ∧ 2 ^ (8 * size - 1) ≤ n then BitVec.ofInt 64 ((n : Int) - 2 ^ (8 * size)) else BitVec.ofNat 64 n := by
  intro n
  unfold loadValue wrap64
  rw [sextNat_of_lt (peek_lt s u pa size nc)]
  cases sx with
  | false => simp [n]
  | true =>
    simp only [if_true, true_and]
    rw [apply_ite (BitVec.ofInt 64), BitVec.ofInt_natCast]

theorem arriveLoad_entry {s : State} {e : Entry} {d pa size : Nat} {sx nc : Bool} (h : e.eff = .load d pa size sx nc) :
    (arriveLoad s e).2 = { e with eff := .xreg d (loadValue s e.unit pa size sx nc), pend := false } := by
  unfold arriveLoad
  rw [h]
  rfl

theorem cacheOnly_cores {s t : State} (h : CacheOnly s t) : t.cores = s.cores := by
  have hrest := congrArg State.cores h.rest
  exact hrest

/-- An address outside the virtual range is no access (R175). -/
theorem accessCheck_range {c : OpCtx} {va : Int} {size kind : Nat} (h : va < 0 ∨ 2 ^ 56 ≤ va) :
    accessCheck c va size size kind = raiseR cACCESS (walkReason kind 3 6) (BitVec.ofInt 64 va).toNat := if_pos h

/-- Nor is one that is no multiple of the width (R175). -/
theorem accessCheck_align {c : OpCtx} {va size kind : Nat} (h : va < 2 ^ 56) (ha : ¬ size ∣ va) :
    accessCheck c va size size kind = raise cMISALIGN va := by
  have hrange : ¬ ((va : Int) < 0 ∨ 2 ^ 56 ≤ (va : Int)) := by omega
  have halign : (va : Int).toNat % size ≠ 0 := fun h0 => ha (Nat.dvd_of_mod_eq_zero h0)
  rw [accessCheck, if_neg hrange, if_pos halign]
  rfl

/-- Settles O59: LD and ST from the answers of their operations on each die, the arrival of a load, and the checks of its address. -/
theorem loadsAndStores : Obligations.LoadsAndStores := by
  unfold Obligations.LoadsAndStores
  refine ⟨fun s k d x w off size sx i v pa nc ps hw hin h => ?load, fun s k b x w off size i v y pa nc ps hw hin h => ?store,
    fun s e d pa size sx nc he _ => ?arrives, fun c va size kind h => accessCheck_range h, fun c va size kind h ha => accessCheck_align h ha⟩
  case load =>
    obtain ⟨rfl, rfl⟩ : widthOf w = size ∧ decide (4 ≤ w) = sx := widthOf_load _ hw
    exact issueTiles_bundle hin fun e he => opLd_ok (h e he).1 (h e he).2
  case store =>
    obtain rfl : widthOf w = size := widthOf_store _ hw
    refine issueTiles_bundle hin fun e he => ?_
    obtain ⟨hx, hb, ha⟩ := h e he
    rw [← cellsAt_leBytes_toNat]
    exact opSt_ok hx hb ha
  case arrives =>
    have hcache := cacheOnly_arriveLoad s e
    exact ⟨(arriveLoad_entry he).trans (by rw [loadValue_eq]), cacheOnly_cores hcache, hcache.tile⟩

end Sys2Proof.Proofs
end

section
/-! The words of group kernels (O12): FORK and JOIN on the lead die, STEAL on every tile, SUSP and YIELD. -/
namespace Sys2Proof.Proofs
open Laws
open Machine hiding Wf

/-- A word that acts on the lead die alone issues there: its posts are that die's, and `upd` acts on the bundle (R188). -/
theorem issueWith_lead {s : State} {k : Nat} {i : Issue} {op : OpCtx → Res (List Post)} {ps : List Post} {upd : Upd} {aft aftC : After}
    (hin : InSlot s k 0 i) (hlead : op (look s k 0 (k % 4)) = .ok ps) (hother : ∀ c : OpCtx, c.isLead = false → op c = .ok []) :
    issueWith s 0 op upd aft aftC =
      .next (issuedBy s k 0 i (resultsOf s k 0 i (fun e => if e = k % 4 then ps else [])) (upd s k (i.dies 0))) := by
  refine issueWith_bundle hin fun d hd => ?_
  by_cases h : d = k % 4
  · rw [if_pos h, h, hlead]
  · rw [if_neg h]
    exact hother _ ((look_lead hin.core (dies_lt hd)).trans (decide_eq_false h))

/-- Such a word posts nothing where its bundle does not take it on the lead die (R188). -/
theorem issueWith_offLead {s : State} {k : Nat} {i : Issue} {op : OpCtx → Res (List Post)} {upd : Upd} {aft aftC : After}
    (hin : InSlot s k 0 i) (hoff : k % 4 ∉ i.dies 0) (hother : ∀ c : OpCtx, c.isLead = false → op c = .ok []) :
    issueWith s 0 op upd aft aftC = .next (issuedBy s k 0 i [] (upd s k (i.dies 0))) := by
  refine issueWith_plain hin fun d hd => ?_
  have hne : d ≠ k % 4 := fun h => hoff (h ▸ hd)
  exact hother _ ((look_lead hin.core (dies_lt hd)).trans (decide_eq_false hne))

/-- The address that FORK and JOIN act on at the end of their bundle is the one that they checked (R188). -/
theorem leadX_ok {s : State} {k x : Nat} {a : DWord} (hx : rx (look s k 0 (k % 4)) x = .ok a) : leadX s k x = a.toNat := by
  have hlead : rx { s := s, u := leadUnit k, slot := 0, n := (s.core k).bn, single := false } x = .ok a := hx
  simp only [leadX, hlead]

theorem lead_core_look (s : State) (k : Nat) : (look s k 0 (k % 4)).core = s.core k := look_core (Nat.mod_lt k (by decide))

theorem lead_k_look (s : State) (k : Nat) : (look s k 0 (k % 4)).k = k := look_k (Nat.mod_lt k (by decide))

section fork
variable {s : State} {k x : Nat} {i : Issue} {a : DWord} {pa : Nat} {nc : Bool} {ps ps2 : List Post}

theorem opFork_other (x : Nat) (c : OpCtx) (h : c.isLead = false) : opFork x c = .ok [] := by
  simp [opFork, h]

/-- FORK reads the counter of the record that it has checked. -/
theorem forkJoinc_ok (hacc : accessCheck (look s k 0 (k % 4)) a.toNat 64 64 2 = .ok (pa, nc, ps)) :
    forkJoinc s k a.toNat = leNat (s.peek (leadUnit k) (pa + 40) 8 false) := by
  have hlead : accessCheck { s := s, u := leadUnit k, slot := 0, n := (s.core k).bn, single := false } a.toNat 64 64 2 = .ok (pa, nc, ps) := hacc
  simp only [forkJoinc, hlead]

/-- FORK checks its record, and the record's counter where it names one (R188). -/
theorem opFork_lead (hk : k < 64) (hx : rx (look s k 0 (k % 4)) x = .ok a)
    (hacc : accessCheck (look s k 0 (k % 4)) a.toNat 64 64 2 = .ok (pa, nc, ps)) {j : Nat}
    (hpeek : leNat (s.peek (leadUnit k) (pa + 40) 8 false) = j) (hnone : j = 0 → ps2 = [])
    (hsome : j ≠ 0 → ∃ pj ncj, accessCheck (look s k 0 (k % 4)) j 64 64 2 = .ok (pj, ncj, ps2)) :
    opFork x (look s k 0 (k % 4)) = .ok (ps ++ ps2) := by
  have hlook : leNat ((look s k 0 (k % 4)).s.peek (look s k 0 (k % 4)).u (pa + 40) 8 false) = j := hpeek
  simp only [opFork, lead_isLead hk, hx, hacc, hlook, bind, Except.bind, Bool.not_true, Bool.false_eq_true, if_false]
  by_cases h : j = 0
  · rw [if_pos h, hnone h, List.append_nil]
  · obtain ⟨pj, ncj, hcheck⟩ := hsome h
    rw [if_neg h, hcheck]

theorem execFork_lead (hin : InSlot s k 0 i) (hmem : k % 4 ∈ i.dies 0) (hx : rx (look s k 0 (k % 4)) x = .ok a)
    (hacc : accessCheck (look s k 0 (k % 4)) a.toNat 64 64 2 = .ok (pa, nc, ps)) (hop : opFork x (look s k 0 (k % 4)) = .ok (ps ++ ps2)) :
    execFork x s = .next (issuedBy s k 0 i (resultsOf s k 0 i (fun e => if e = k % 4 then ps ++ ps2 else []))
      (fun j => { j with after := j.after ++ [.forkWait a.toNat (leNat (s.peek (leadUnit k) (pa + 40) 8 false))] })) := by
  rw [execFork, issueWith_lead hin hop (opFork_other x), leadX_ok hx, forkJoinc_ok hacc]
  simp only [List.contains_iff_mem.mpr hmem, if_true]

theorem execFork_offLead (hin : InSlot s k 0 i) (hoff : k % 4 ∉ i.dies 0) : execFork x s = .next (issued s k 0 i []) := by
  rw [execFork, issueWith_offLead hin hoff (opFork_other x)]
  simp only [List.contains_iff_mem, hoff, if_false]
  rfl

end fork

section join
variable {s : State} {k x : Nat} {i : Issue} {a : DWord} {pa : Nat} {nc : Bool} {ps : List Post}

theorem opJoin_other (x : Nat) (c : OpCtx) (h : c.isLead = false) : opJoin x c = .ok [] := by
  simp [opJoin, h]

/-- JOIN checks its counter, and that it runs in a continuation where it may suspend (R188). -/
theorem opJoin_lead (hk : k < 64) (hx : rx (look s k 0 (k % 4)) x = .ok a)
    (hacc : accessCheck (look s k 0 (k % 4)) a.toNat 64 64 2 = .ok (pa, nc, ps))
    (hcont : joinCount s k a.toNat = 0 ∨ (s.core k).curRec.isSome = true ∧ (s.core k).curAll = false) :
    opJoin x (look s k 0 (k % 4)) = .ok ({ lat := 0, eff := .atomic pa } :: ps) := by
  have hs : (look s k 0 (k % 4)).s = s := rfl
  have hgo : (decide (joinCount s k a.toNat = 0) || ((s.core k).curRec.isSome && !(s.core k).curAll)) = true := by
    simpa using hcont
  simp only [opJoin, lead_isLead hk, hx, hacc, hs, lead_k_look, lead_core_look, hgo, check, bind, Except.bind, Bool.not_true,
    Bool.false_eq_true, if_false, if_true]

/-- A JOIN is split over its dies where it suspends, and issues on the lead die but not on every other (R188). -/
theorem joinSplit_lead (hin : InSlot s k 0 i) (hx : rx (look s k 0 (k % 4)) x = .ok a) {qs : List Post}
    (hop : opJoin x (look s k 0 (k % 4)) = .ok qs) :
    joinSplit x s = if k % 4 ∈ i.dies 0 ∧ (i.dies 0).length < 4 ∧ joinCount s k a.toNat ≠ 0 then
      some (k, nth 0 i.words 0, (upTo 4).filter (fun d => !((i.dies 0).contains d))) else none := by
  have hlead : opJoin x { s := s, u := leadUnit k, slot := 0, n := (s.core k).bn, single := false } = .ok qs := hop
  simp only [joinSplit, hin.turn, hin.issue, hlead, hin.branched, hin.slot, leadX_ok hx, List.contains_iff_mem, true_and]

theorem joinSplit_offLead (hin : InSlot s k 0 i) (hoff : k % 4 ∉ i.dies 0) : joinSplit x s = none := by
  simp only [joinSplit, hin.turn, hin.issue, List.contains_iff_mem, hoff, false_and, and_false, if_false]
  split <;> rfl

theorem execJoin_split {w : Nat} {ds : List Nat} (h : joinSplit x s = some (k, w, ds)) :
    execJoin x s = .next (takeTrap s k cILLEGAL_BUNDLE 0 (ds.map (fun d => ⟨d, 0, w⟩))) := by
  simp only [execJoin, h]

theorem execJoin_offLead (hin : InSlot s k 0 i) (hoff : k % 4 ∉ i.dies 0) : execJoin x s = .next (issued s k 0 i []) := by
  simp only [execJoin, joinSplit_offLead hin hoff]
  rw [issueWith_offLead hin hoff (opJoin_other x)]
  have hcontains : (i.dies 0).contains (k % 4) = false := by simp only [List.contains_eq_mem, hoff, decide_false]
  simp only [hcontains, Bool.not_false, if_true]
  rfl

/-- A JOIN that is not split issues: for an acquire where its counter is 0, else for the drain (R188). -/
theorem execJoin_lead (hin : InSlot s k 0 i) (hmem : k % 4 ∈ i.dies 0) (hx : rx (look s k 0 (k % 4)) x = .ok a) {qs : List Post}
    (hop : opJoin x (look s k 0 (k % 4)) = .ok qs) (hwhole : joinCount s k a.toNat = 0 ∨ (i.dies 0).length = 4) :
    execJoin x s = .next (issuedBy s k 0 i (resultsOf s k 0 i (fun e => if e = k % 4 then qs else [])) (fun j =>
      { j with after := j.after ++ [if joinCount s k a.toNat = 0 then .sync 0 4 [(0, 0), (1, 0), (2, 0), (3, 0)] else .joinDrain a.toNat j.addr] })) := by
  have hnone : joinSplit x s = none := by
    rw [joinSplit_lead hin hx hop, if_neg]
    rintro ⟨-, hlt, hne⟩
    exact hwhole.elim hne (fun h => absurd h hlt.ne)
  simp only [execJoin, hnone]
  rw [issueWith_lead hin hop (opJoin_other x), leadX_ok hx]
  simp only [List.contains_iff_mem.mpr hmem]
  by_cases h : joinCount s k a.toNat = 0
  · simp only [h, if_true]
    rfl
  · simp only [h, if_false]
    rfl

end join

section steal
variable {s : State} {k p d : Nat} {i : Issue}

/-- What STEAL stages on every tile: its predicate, pending (R188). -/
def stealEntry (s : State) (k p d : Nat) : Entry :=
  { due := (s.core k).bn + 1, issue := (s.core k).bn, slot := 0, unit := unitOf k d, eff := .predPending p 0, inter := true, pend := true }

/-- The dies on which STEAL does not issue. -/
def otherDies (i : Issue) : List Nat := (upTo 4).filter (fun d => !((i.dies 0).contains d))

theorem resultsOf_steal (s : State) (k p : Nat) (i : Issue) :
    resultsOf s k 0 i (fun _ => [{ lat := 1, eff := .predPending p 0, inter := true, pend := true }]) = (i.dies 0).map (stealEntry s k p) :=
  (List.map_eq_flatMap ..).symm

/-- STEAL stages its predicate on the dies on which it issues, and on the others (R188). -/
theorem execSteal_bundle (hin : InSlot s k 0 i) : execSteal p s =
    .next (issuedBy s k 0 i ((i.dies 0).map (stealEntry s k p)) (fun j => { j with staged := j.staged ++ (otherDies i).map (stealEntry s k p) })) := by
  rw [← resultsOf_steal]
  exact issueWith_bundle hin fun _ _ => rfl

theorem mem_otherDies (hd : d < 4) (h : d ∉ i.dies 0) : d ∈ otherDies i := by
  simp [otherDies, upTo, hd, h]

end steal

theorem opYield_ok {c : OpCtx} (hrec : c.core.curRec.isSome = true) (hone : c.core.curAll = false) : opYield c = .ok [] := by
  simp only [opYield, hrec, hone, check, bind, Except.bind, Bool.not_false, Bool.and_self, if_true]

theorem opYield_raises {c : OpCtx} (h : c.core.curRec = none ∨ c.core.curAll = true) : opYield c = raise cILLEGAL 0 := by
  have hno : (c.core.curRec.isSome && !c.core.curAll) = false := by
    obtain hrec | hall := h
    · rw [hrec]; rfl
    · rw [hall, Bool.not_true, Bool.and_false]
  simp only [opYield, hno, check, bind, Except.bind, raise, Bool.false_eq_true, if_false]

/-- Settles O12: FORK and JOIN from what they answer on the lead die, STEAL from its posts on all four, SUSP and YIELD from the drain
that they leave on their bundle. -/
theorem groupWords : Obligations.GroupWords := by
  unfold Obligations.GroupWords
  refine ⟨fun s k x i a pa nc ps ps2 hin hmem hx hacc => ?fork,
    fun s k x i hin hoff => ⟨execFork_offLead hin hoff, execJoin_offLead hin hoff⟩,
    fun s k x i a pa nc ps hin hmem hx hacc => ⟨fun hzero => ?acquires, fun hcount hall hrec hone => ?drains, fun hcount hsome hrec hone => ?splits⟩,
    fun s k p i hin hall => ?stealAll, fun s k p d i hin hd => ?stealEach,
    fun s k i hin => ?susp, fun s k i hin hrec hone => ?yields, fun s k e he hno => ?illegal⟩
  case fork =>
    have hexec := execFork_lead (ps2 := ps2) hin hmem hx hacc
    dsimp only
    split
    next h => exact fun hnone => hexec (opFork_lead hin.core hx hacc rfl (fun _ => hnone) (absurd h))
    next h => exact fun hsome => hexec (opFork_lead hin.core hx hacc rfl (fun h0 => absurd h0 h) (fun _ => hsome))
  case acquires =>
    have h := execJoin_lead hin hmem hx (opJoin_lead hin.core hx hacc (.inl hzero)) (.inl hzero)
    simp only [if_pos hzero] at h
    exact h
  case drains =>
    have h := execJoin_lead hin hmem hx (opJoin_lead hin.core hx hacc (.inr ⟨hrec, hone⟩)) (.inr hall)
    simp only [if_neg hcount] at h
    exact h
  case splits =>
    have hsplit := joinSplit_lead hin hx (opJoin_lead hin.core hx hacc (.inr ⟨hrec, hone⟩))
    exact execJoin_split (hsplit.trans (if_pos ⟨hmem, hsome, hcount⟩))
  case stealAll =>
    have hnone : otherDies i = [] := by rw [otherDies, hall]; rfl
    have h := execSteal_bundle (p := p) hin
    simp only [hnone, List.map_nil, List.append_nil, ← resultsOf_steal] at h
    exact h
  case stealEach =>
    refine ⟨_, stealEntry s k p d, execSteal_bundle hin, ?_, rfl, rfl, rfl, rfl⟩
    have hmem : stealEntry s k p d ∈ (i.dies 0).map (stealEntry s k p) ∨ stealEntry s k p d ∈ (otherDies i).map (stealEntry s k p) :=
      (em (d ∈ i.dies 0)).imp (List.mem_map_of_mem ·) (fun h => List.mem_map_of_mem (mem_otherDies hd h))
    simp only [List.mem_append]
    tauto
  case susp =>
    show execSusp s = _
    exact issueWith_plain hin (opNone_dies s k i)
  case yields =>
    show execYield s = _
    have hop : ∀ d ∈ i.dies 0, opYield (look s k 0 d) = .ok [] := fun d hd =>
      opYield_ok (by rwa [look_core (dies_lt hd)]) (by rwa [look_core (dies_lt hd)])
    exact issueWith_plain hin hop
  case illegal => exact opYield_raises (by rwa [look_core he])

end Sys2Proof.Proofs
end

section
/-! The float operations of VA and VB (O50): what each posts, and the lanes and flags of a result. -/
namespace Sys2Proof.Proofs
open Laws
open Machine hiding Wf

/-- The union of what the places with a property give: a bit is set where one of them sets it. -/
theorem getLsbD_foldl_or {w : Nat} (p : Nat → Bool) (g : Nat → BitVec w) (l : List Nat) (x : BitVec w) (b : Nat) :
    (l.foldl (fun x i => if p i then x ||| g i else x) x).getLsbD b = true
      ↔ x.getLsbD b = true ∨ ∃ i ∈ l, p i = true ∧ (g i).getLsbD b = true := by
  induction l generalizing x with
  | nil => simp
  | cons i l ih =>
    rw [List.foldl_cons, ih, List.exists_mem_cons_iff]
    by_cases h : p i = true
    · simp [h, or_assoc]
    · simp [h]

/-- A lane of a computed vector is the low 32 bits of what is computed for it. -/
theorem lane_mk'_mod (t : Tag) (f : Nat → Nat) {j : Nat} (hj : j < 128) : (Vec.mk' t f).lane j = f j % 2 ^ 32 := by
  unfold Vec.lane Vec.mk'
  rw [nth_upTo_map _ _ hj, BitVec.toNat_ofNat]

/-- A vector is the values of its lanes. -/
theorem mk'_congr {t : Tag} {f g : Nat → Nat} (h : ∀ j < 128, f j = g j) : Vec.mk' t f = Vec.mk' t g := by
  unfold Vec.mk'
  exact congrArg _ (List.map_congr_left fun j hj => by rw [h j (List.mem_range.mp hj)])

/-- A collection over the lanes is what it collects from each. -/
theorem foldl_lanes_congr {α : Type} {f g : α → Nat → α} (h : ∀ j < 128, ∀ x, f x j = g x j) (x : α) :
    (upTo 128).foldl f x = (upTo 128).foldl g x :=
  List.foldl_ext _ _ _ fun x j hj => h j (List.mem_range.mp hj) x

/-- The lanes of a lane-wise result (R193, R207). -/
theorem laneMap_vec (t : Tag) (m : Mask) (f : Nat → Fl) :
    (laneMap t m f).1 = Vec.mk' t (fun j => if m.getLsbD j then (f j).1 else 0) :=
  mk'_congr fun j hj => by rw [nth_upTo_map _ _ hj]; rfl

/-- The flags of a lane-wise result: those of its enabled lanes (R193). -/
theorem laneMap_flags (t : Tag) (m : Mask) (f : Nat → Fl) :
    (laneMap t m f).2 = (upTo 128).foldl (fun x j => if m.getLsbD j then x ||| (f j).2 else x) 0 := by
  dsimp only [laneMap, enabled]
  exact foldl_lanes_congr (fun j hj x => by simp only [nth_upTo_map _ _ hj]) _

theorem laneMap_lane (t : Tag) (m : Mask) (f : Nat → Fl) {j : Nat} (hj : j < 128) :
    (laneMap t m f).1.lane j = if m.getLsbD j then (f j).1 % 2 ^ 32 else 0 := by
  rw [laneMap_vec, lane_mk'_mod _ _ hj, apply_ite (· % 2 ^ 32), Nat.zero_mod]

theorem laneMap_flag (t : Tag) (m : Mask) (f : Nat → Fl) (b : Nat) :
    (laneMap t m f).2.getLsbD b = true ↔ ∃ j < 128, m.getLsbD j = true ∧ (f j).2.getLsbD b = true := by
  rw [laneMap_flags, getLsbD_foldl_or]
  simp [upTo]

section posts
variable {c : OpCtx} {d a b cc lat : Nat} {f : FFmt} {A B C : Src} {ps : List Post} (hA : readFloat c a (enabled (curMask c)) = .ok (f, A))
include hA

/-- A unary operation posts its result and the read of A (R210). -/
theorem floatOp1_ok {op : FFmt → Nat → Fl}
    (hd : let r := laneMap f.tag (curMask c) (fun j => onElems f (fun x _ _ => op f x) (A.v.lane j) 0 0)
      dstPosts c d lat r.1 (curMask c) (r.2 ||| A.fl) = .ok ps) :
    floatOp1 d a lat op c = .ok (ps ++ A.posts) := by
  simp only [floatOp1, hA, hd, bind, Except.bind]

/-- An operation of two sources posts its result and their reads (R208). -/
theorem floatOp2_ok {op : FFmt → Nat → Nat → Fl} (hB : readAs c b f.tag (enabled (curMask c)) = .ok B)
    (hd : let r := laneMap f.tag (curMask c) (fun j => onElems f (fun x y _ => op f x y) (A.v.lane j) (B.v.lane j) 0)
      dstPosts c d lat r.1 (curMask c) (r.2 ||| A.fl ||| B.fl) = .ok ps) :
    floatOp2 d a b lat op c = .ok (ps ++ A.posts ++ B.posts) := by
  simp only [floatOp2, hA, hB, hd, bind, Except.bind]

/-- A fused operation posts its result and the reads of its three sources (R209). -/
theorem floatOp3_ok {negP negC : Bool} (hB : readAs c b f.tag (enabled (curMask c)) = .ok B)
    (hC : readAs c (cSel cc) f.tag (enabled (curMask c)) = .ok C)
    (hd : let r := laneMap f.tag (curMask c) (fun j => onElems f (fun x y z => ffma f negP negC x y z) (A.v.lane j) (B.v.lane j) (C.v.lane j))
      dstPosts c d lat r.1 (curMask c) (r.2 ||| A.fl ||| B.fl ||| C.fl) = .ok ps) :
    floatOp3 d a b cc lat negP negC c = .ok (ps ++ A.posts ++ B.posts ++ C.posts) := by
  simp only [floatOp3, hA, hB, hC, hd, bind, Except.bind]

end posts

/-- The float operations of two sources, with their latencies and functions (R208). -/
def floatForms (u : VUnit) (d a b : Nat) : List (Instr × Nat × (FFmt → Nat → Nat → Fl)) :=
  [(.fadd u d a b, 4, fadd), (.fsub u d a b, 4, fsub), (.fmul u d a b, 4, fmul), (.fmin u d a b, 2, fun f => fminmax f false),
   (.fmax u d a b, 2, fun f => fminmax f true)]

theorem exec_floatForms {s : State} {u : VUnit} {d a b : Nat} :
    ∀ e ∈ floatForms u d a b, exec e.1 s = issueTiles s (vslot u) (floatOp2 d a b e.2.1 e.2.2) := by
  simp only [floatForms, List.forall_mem_cons]
  exact ⟨rfl, rfl, rfl, rfl, rfl, List.forall_mem_nil _⟩

/-- The fused operations: the slot, and whether the product and the addend are negated (R209). -/
def fusedForms (u : VUnit) (d a b cc : Nat) : List (Instr × Nat × Bool × Bool) :=
  [(.fma u d a b cc, vslot u, false, false), (.fms d a b cc, 2, false, true), (.fnma d a b cc, 2, true, false)]

theorem exec_fusedForms {s : State} {u : VUnit} {d a b cc : Nat} :
    ∀ e ∈ fusedForms u d a b cc, exec e.1 s = issueTiles s e.2.1 (floatOp3 d a b cc 4 e.2.2.1 e.2.2.2) := by
  simp only [fusedForms, List.forall_mem_cons]
  exact ⟨rfl, rfl, rfl, List.forall_mem_nil _⟩

/-- Settles O50: each operation from its posts on each die, and the lanes and flags of a lane-wise result. -/
theorem floatLaneOperations : Obligations.FloatLaneOperations := by
  unfold Obligations.FloatLaneOperations
  refine ⟨fun s k d a b lat u i op fn F A B ps hop hin h => ?two, fun s k d a b cc sl u i op np nc F A B C ps hop hin h => ?fused,
    fun s k d a fn u i F A ps hin h => ?unary, fun t m f j hj => laneMap_lane t m f hj, laneMap_flag⟩
  case two =>
    refine (exec_floatForms (op, lat, fn) hop).trans (issueTiles_bundle hin fun e he => ?_)
    obtain ⟨hA, hB, hd⟩ := h e he
    exact floatOp2_ok hA hB hd
  case fused =>
    refine (exec_fusedForms (op, sl, np, nc) hop).trans (issueTiles_bundle hin fun e he => ?_)
    obtain ⟨hA, hB, hC, hd⟩ := h e he
    exact floatOp3_ok hA hB hC hd
  case unary =>
    refine issueTiles_bundle hin fun e he => ?_
    obtain ⟨hA, hd⟩ := h e he
    exact floatOp1_ok (op := fun f => funa f fn) hA hd

end Sys2Proof.Proofs
end

section
/-! The integer operations of VA and VB (O51): their lane functions as 32-bit arithmetic. -/
namespace Sys2Proof.Proofs
open Laws
open Machine hiding Wf

/-- The signed reading of a lane (R93). -/
theorem sextNat_word (x : Word) : sextNat x.toNat 32 = x.toInt := by
  rw [sextNat_of_lt x.isLt, BitVec.toInt_eq_toNat_cond]
  have hx := x.isLt
  split <;> split <;> omega

/-- A lane function on numbers that computes a function of 32-bit words (R211). -/
def OnWords (op : Nat → Nat → Nat) (fn : Word → Word → Word) : Prop := ∀ x y : Word, op x.toNat y.toNat = (fn x y).toNat

theorem lIadd_onWords : OnWords lIadd (fun x y => x + y) := fun x y => (BitVec.toNat_add x y).symm

theorem lIsub_onWords : OnWords lIsub (fun x y => x - y) := fun x y => by
  have hy := y.isLt
  rw [lIsub, BitVec.toNat_sub]
  congr 1
  omega

theorem lImul_onWords : OnWords lImul (fun x y => x * y) := fun x y => (BitVec.toNat_mul x y).symm

theorem lIand_onWords : OnWords lIand (fun x y => x &&& y) := fun x y => (BitVec.toNat_and x y).symm

theorem lIor_onWords : OnWords lIor (fun x y => x ||| y) := fun x y => (BitVec.toNat_or x y).symm

theorem lIxor_onWords : OnWords lIxor (fun x y => x ^^^ y) := fun x y => (BitVec.toNat_xor x y).symm

theorem lIshl_onWords : OnWords lIshl (fun x y => x <<< (y.toNat % 32)) := fun x y => by
  rw [lIshl, BitVec.toNat_shiftLeft, Nat.shiftLeft_eq]

theorem lIshr_onWords : OnWords lIshr (fun x y => x >>> (y.toNat % 32)) := fun x y => by
  rw [lIshr, BitVec.toNat_ushiftRight, Nat.shiftRight_eq_div_pow]

theorem lIsra_onWords : OnWords lIsra (fun x y => x.sshiftRight (y.toNat % 32)) := fun x y => by
  have hshift : x.toInt / 2 ^ (y.toNat % 32) = (x.sshiftRight (y.toNat % 32)).toInt := by
    rw [BitVec.toInt_sshiftRight, Int.shiftRight_eq_div_pow]
    push_cast
    rfl
  rw [lIsra, sextNat_word, hshift, wrap32, BitVec.ofInt_toInt]

theorem lImin_onWords : OnWords lImin (fun x y => if x.toInt ≤ y.toInt then x else y) := fun x y => by
  rw [lImin, sextNat_word, sextNat_word, apply_ite BitVec.toNat]

theorem lImax_onWords : OnWords lImax (fun x y => if x.toInt ≥ y.toInt then x else y) := fun x y => by
  rw [lImax, sextNat_word, sextNat_word, apply_ite BitVec.toNat]

/-- The integer operations with their slots, latencies, lane functions and meanings on words (R211). -/
def laneForms (u : VUnit) (d a b : Nat) : List (Instr × Nat × Nat × (Word → Word → Word)) :=
  [(.iadd u d a b, vslot u, 1, fun x y => x + y), (.isub d a b, 2, 1, fun x y => x - y), (.imul d a b, 2, 3, fun x y => x * y),
   (.iand d a b, 2, 1, fun x y => x &&& y), (.ior d a b, 2, 1, fun x y => x ||| y), (.ixor d a b, 2, 1, fun x y => x ^^^ y),
   (.ishl d a b, 2, 1, fun x y => x <<< (y.toNat % 32)), (.ishr d a b, 2, 1, fun x y => x >>> (y.toNat % 32)),
   (.isra d a b, 2, 1, fun x y => x.sshiftRight (y.toNat % 32)), (.imin d a b, 2, 1, fun x y => if x.toInt ≤ y.toInt then x else y),
   (.imax d a b, 2, 1, fun x y => if x.toInt ≥ y.toInt then x else y)]

theorem exec_laneForms {u : VUnit} {d a b : Nat} : ∀ e ∈ laneForms u d a b,
    ∃ op, OnWords op e.2.2.2 ∧ ∀ s, exec e.1 s = issueTiles s e.2.1 (intOp2 d a b e.2.2.1 op) := by
  simp only [laneForms, List.forall_mem_cons]
  exact ⟨⟨_, lIadd_onWords, fun _ => rfl⟩, ⟨_, lIsub_onWords, fun _ => rfl⟩, ⟨_, lImul_onWords, fun _ => rfl⟩,
    ⟨_, lIand_onWords, fun _ => rfl⟩, ⟨_, lIor_onWords, fun _ => rfl⟩, ⟨_, lIxor_onWords, fun _ => rfl⟩,
    ⟨_, lIshl_onWords, fun _ => rfl⟩, ⟨_, lIshr_onWords, fun _ => rfl⟩, ⟨_, lIsra_onWords, fun _ => rfl⟩,
    ⟨_, lImin_onWords, fun _ => rfl⟩, ⟨_, lImax_onWords, fun _ => rfl⟩, List.forall_mem_nil _⟩

/-- The word in a lane. -/
theorem ofNat_lane_toNat (v : Vec) (j : Nat) : (BitVec.ofNat 32 (v.lane j) : Word).toNat = v.lane j :=
  Nat.mod_eq_of_lt (lane_lt v j)

/-- An integer operation posts its result, with the flags of the conversions of its sources, and their reads (R211, R74). -/
theorem intOp2_ok {c : OpCtx} {d a b lat : Nat} {op : Nat → Nat → Nat} {fn : Word → Word → Word} {A B : Src} {ps : List Post} (hop : OnWords op fn)
    (hA : readAs c a .i32 (enabled (curMask c)) = .ok A) (hB : readAs c b .i32 (enabled (curMask c)) = .ok B)
    (hd : dstPosts c d lat (Vec.mk' .i32 (fun j => if (curMask c).getLsbD j
      then (fn (BitVec.ofNat 32 (A.v.lane j)) (BitVec.ofNat 32 (B.v.lane j))).toNat else 0)) (curMask c) (A.fl ||| B.fl) = .ok ps) :
    intOp2 d a b lat op c = .ok (ps ++ A.posts ++ B.posts) := by
  simp only [← hop _ _, ofNat_lane_toNat] at hd
  simp only [intOp2, hA, hB, laneMap_vec, hd, bind, Except.bind]

/-- Settles O51: each operation from its lane function's meaning on words. -/
theorem integerLaneOperations : Obligations.IntegerLaneOperations := by
  unfold Obligations.IntegerLaneOperations
  intro s k d a b lat sl u i op fn A B v ps hform hin h
  obtain ⟨f, hf, hexec⟩ := exec_laneForms (op, sl, lat, fn) hform
  refine (hexec s).trans (issueTiles_bundle hin fun e he => ?_)
  obtain ⟨hA, hB, hv, hd⟩ := h e he
  exact intOp2_ok hf hA hB (hv ▸ hd)

end Sys2Proof.Proofs
end

section
/-! Compares, mask logic, moves and conversions (O52): the bits of a compare, the operations by their codes, and what each posts. -/
namespace Sys2Proof.Proofs
open Laws
open Machine hiding Wf

/-- A mask is the bits of its lanes. -/
theorem maskOf_getLsbD (f : Nat → Bool) {j : Nat} (hj : j < 128) : (maskOf f).getLsbD j = f j := by
  rw [Bool.eq_iff_iff, maskOf, getLsbD_foldl_or]
  simp [upTo, hj]

/-- The six compares of R212 on the words of two lanes, by their code. -/
theorem icmpCC_code {cc : Nat} (h : cc < 6) (x y : Word) :
    icmpCC cc x.toNat y.toNat = nth false [x == y, x != y, x.slt y, y.sle x, x.ult y, y.ule x] cc := by
  match cc, h with
  | 0, _ => simp [icmpCC, nth, BitVec.toNat_inj, beq_eq_decide]
  | 1, _ => simp [icmpCC, nth, BitVec.toNat_inj, bne, beq_eq_decide]
  | 2, _ => simp [icmpCC, nth, sextNat_word, BitVec.slt]
  | 3, _ => simp [icmpCC, nth, sextNat_word, BitVec.sle]
  | 4, _ => simp [icmpCC, nth, BitVec.ult]
  | 5, _ => simp [icmpCC, nth, BitVec.ule]

/-- The seven logic operations on masks, by their code (R213). -/
theorem maskLogic_code {o : Nat} (h : o < 7) (x y : Mask) :
    maskLogic o x y = nth 0 [x &&& y, x ||| y, x ^^^ y, x &&& ~~~y, x ||| ~~~y, ~~~(x &&& y), ~~~(x ||| y)] o := by
  match o, h with
  | 0, _ => rfl
  | 1, _ => rfl
  | 2, _ => rfl
  | 3, _ => rfl
  | 4, _ => rfl
  | 5, _ => rfl
  | 6, _ => rfl

/-- FCMP of a NaN holds for `ne` and `un` only, and signals where the compare is ordered or the NaN signalling (R212). -/
theorem fcmpCC_nan {cc x y : Nat} (hcc : cc < 8) (h : (nan32 x || nan32 y) = true) :
    fcmpCC cc x y = (decide (cc = 1 ∨ cc = 6), if ((dec32 x).isSnan || (dec32 y).isSnan) || decide (2 ≤ cc ∧ cc ≤ 5) then flIV else 0) := by
  unfold nan32 at h
  unfold fcmpCC
  simp only [h, if_true]
  match cc, hcc with
  | 0, _ | 1, _ | 2, _ | 3, _ | 4, _ | 5, _ | 6, _ | 7, _ => simp

theorem fcmpCC_quiet {cc x y : Nat} (h : (nan32 x || nan32 y) = false) : (fcmpCC cc x y).2 = 0 := by
  unfold nan32 at h
  unfold fcmpCC
  simp only [h, Bool.false_eq_true, if_false]
  split <;> rfl

section posts
variable {c : OpCtx} {d a b cc md : Nat} {A B : Src} {ps : List Post}

theorem opFcmp_ok (hA : readAs c a .fp32 (enabled (curMask c)) = .ok A) (hB : readAs c b .fp32 (enabled (curMask c)) = .ok B) :
    opFcmp d a b cc c = .ok ([{ lat := 2, eff := .mask d (maskOf (fun j =>
        enabled (curMask c) j && (fcmpCC cc (A.v.lane j) (B.v.lane j)).1)), fl := (upTo 128).foldl (fun f j =>
        if enabled (curMask c) j then f ||| (fcmpCC cc (A.v.lane j) (B.v.lane j)).2 else f) 0 ||| A.fl ||| B.fl }] ++ A.posts ++ B.posts) := by
  have hbit : maskOf (fun j => enabled (curMask c) j && (nth (false, 0) ((upTo 128).map fun j => fcmpCC cc (A.v.lane j) (B.v.lane j)) j).1)
      = maskOf (fun j => enabled (curMask c) j && (fcmpCC cc (A.v.lane j) (B.v.lane j)).1) :=
    foldl_lanes_congr (fun j hj x => by simp only [nth_upTo_map _ _ hj]) _
  have hflag := foldl_lanes_congr
    (f := fun (x : Flags) j => if enabled (curMask c) j then
      x ||| (nth (false, 0) ((upTo 128).map fun j => fcmpCC cc (A.v.lane j) (B.v.lane j)) j).2 else x)
    (g := fun x j => if enabled (curMask c) j then x ||| (fcmpCC cc (A.v.lane j) (B.v.lane j)).2 else x)
    (fun j hj x => by simp only [nth_upTo_map _ _ hj]) 0
  simp only [opFcmp, hA, hB, hbit, hflag, bind, Except.bind]

theorem opIcmp_ok (hA : readAs c a .i32 (enabled (curMask c)) = .ok A) (hB : readAs c b .i32 (enabled (curMask c)) = .ok B) :
    opIcmp d a b cc c = .ok ([{ lat := 2, eff := .mask d (maskOf (fun j =>
        enabled (curMask c) j && icmpCC cc (A.v.lane j) (B.v.lane j))), fl := A.fl ||| B.fl }] ++ A.posts ++ B.posts) := by
  simp only [opIcmp, hA, hB, bind, Except.bind]

theorem opVsel_ok {q : Nat} (hA : readNonEmpty c a = .ok A) (hB : readExact c b A.v.tag = .ok B)
    (hd : dstPosts c d 1 (Vec.mk' A.v.tag (fun j => if enabled (c.t.getK q) j then A.v.lane j else B.v.lane j)) (curMask c) = .ok ps) :
    opVsel d q a b c = .ok (ps ++ A.posts ++ B.posts) := by
  simp only [opVsel, hA, hB, hd, bind, Except.bind]

theorem opVmov_ok {v : Vec} {qs : List Post} (hA : readSel c a = .ok (v, qs)) (hd : dstPosts c d 1 v (curMask c) = .ok ps) :
    opVmov d a c = .ok (ps ++ qs) := by
  simp only [opVmov, hA, hd, bind, Except.bind]

theorem opVlane_ok {v : Vec} {qs : List Post} {j : Nat} (hA : readSel c a = .ok (v, qs))
    (hd : dstPosts c d 2 (Vec.mk' v.tag (fun _ => v.lane j)) (curMask c) = .ok ps) : opVlane d a j c = .ok (ps ++ qs) := by
  simp only [opVlane, hA, hd, bind, Except.bind]

/-- The conversions of one source: their codes, the tags they read and give, and their lane functions (R215). -/
def cvtForms : List (Nat × Tag × Tag × (RMode → Nat → Fl)) :=
  [(0, .fp32, .i32, f2i), (1, .i32, .fp32, i2f), (3, .bf16, .fp32, fun _ x => bf2f (x % 2 ^ 16)), (4, .bf16, .fp32, fun _ x => bf2f (x / 2 ^ 16))]

/-- A conversion of one source posts its result and the read (R215). -/
theorem opCvt_ok {kind : Nat} {src dst : Tag} {fn : RMode → Nat → Fl} (hform : (kind, src, dst, fn) ∈ cvtForms)
    (hA : readAs c a src (enabled (curMask c)) = .ok A) (hfl : A.fl = 0)
    (hd : let r := laneMap dst (curMask c) (fun j => fn (RMode.ofCode md) (A.v.lane j))
      dstPosts c d 3 r.1 (curMask c) r.2 = .ok ps) : opCvt kind md d a b c = .ok (ps ++ A.posts) := by
  simp only [cvtForms, List.mem_cons, Prod.mk.injEq, List.not_mem_nil, or_false] at hform
  obtain ⟨rfl, rfl, rfl, rfl⟩ | ⟨rfl, rfl, rfl, rfl⟩ | ⟨rfl, rfl, rfl, rfl⟩ | ⟨rfl, rfl, rfl, rfl⟩ := hform
  · simp [opCvt, hA, hfl, hd, bind, Except.bind]
  · simp [opCvt, hA, hfl, hd, bind, Except.bind]
  · simp only [Nat.reducePow] at hd
    simp [opCvt, hA, hd, bind, Except.bind]
  · simp only [Nat.reducePow] at hd
    simp [opCvt, hA, hd, bind, Except.bind]

/-- A pair of FP32 lanes rounds to a pair of BF16 elements (R215). -/
theorem opCvt_pair (hA : readAs c a .fp32 (enabled (curMask c)) = .ok A) (hB : readAs c b .fp32 (enabled (curMask c)) = .ok B)
    (hd : let r := laneMap .bf16 (curMask c) (fun j =>
        let lo := f2bf (RMode.ofCode md) (A.v.lane j)
        let hi := f2bf (RMode.ofCode md) (B.v.lane j)
        (lo.1 + 2 ^ 16 * hi.1, lo.2 ||| hi.2))
      dstPosts c d 3 r.1 (curMask c) (r.2 ||| A.fl ||| B.fl) = .ok ps) :
    opCvt 2 md d a b c = .ok (ps ++ A.posts ++ B.posts) := by
  dsimp only [Nat.reducePow] at hd
  simp only [opCvt, hA, hB, hd, bind, Except.bind]

end posts

/-- Settles O52: each operation from its posts on each die, the bits of its mask, and the compares by their codes. -/
theorem compareAndSelectOperations : Obligations.CompareAndSelectOperations := by
  unfold Obligations.CompareAndSelectOperations
  refine ⟨fun s k d a b cc u i A B hin h => ⟨_, issueTiles_bundle hin fun e he => opFcmp_ok (h e he).1 (h e he).2, fun e _ j hj => maskOf_getLsbD _ hj⟩,
    fun s k d a b cc u i A B hcc hin h => ⟨_, issueTiles_bundle hin fun e he => opIcmp_ok (h e he).1 (h e he).2, fun e _ j hj => ?icmp⟩,
    fun s k d a b o i ho hin => issueTiles_bundle hin fun e he => ?klog,
    fun s k v a i hin => issueTiles_bundle hin fun e he => rfl,
    fun s k d a b q u i A B ps hin h => issueTiles_bundle hin fun e he => ?vsel,
    fun s k d a u i A ps hin h => issueTiles_bundle hin fun e he => opVmov_ok (h e he).1 (h e he).2,
    fun s k d m i kind ps hin _ h => issueTiles_bundle hin h,
    fun s k d a j i A ps hin h => issueTiles_bundle hin fun e he => opVlane_ok (h e he).1 (h e he).2,
    fun s k d a b kind md u i src dst fn A ps hform hin h => issueTiles_bundle hin fun e he => ?cvt,
    fun s k d a b md u i A B ps hin h => issueTiles_bundle hin fun e he => ?pair,
    fun cc x y hcc => ⟨fcmpCC_nan hcc, fcmpCC_quiet⟩⟩
  case icmp =>
    have hcode := icmpCC_code hcc (BitVec.ofNat 32 ((A e).v.lane j)) (BitVec.ofNat 32 ((B e).v.lane j))
    rw [ofNat_lane_toNat, ofNat_lane_toNat] at hcode
    exact (maskOf_getLsbD _ hj).trans (congrArg _ hcode)
  case klog => rw [opKlog, maskLogic_code ho]
  case vsel =>
    obtain ⟨hA, hB, hd⟩ := h e he
    exact opVsel_ok hA hB hd
  case cvt =>
    obtain ⟨hA, hfl, hd⟩ := h e he
    exact opCvt_ok hform hA hfl hd
  case pair =>
    obtain ⟨hA, hB, hd⟩ := h e he
    exact opCvt_pair hA hB hd

end Sys2Proof.Proofs
end

section
/-! The scratchpad accesses of VA (O53), with parking and the walker, shape and broadcast words: what each posts. -/
namespace Sys2Proof.Proofs
open Laws
open Machine hiding Wf

/-- VLD and VST take an address inside the scratchpad, aligned, whose banks are open (R217). -/
theorem vmAddr_ok {c : OpCtx} {x off a : Nat} {v : DWord} (hx : rx c x = .ok v) (ha : (a : Int) = (v.toNat : Int) + sextNat off 12 * 512)
    (hin : a + 512 ≤ 2 ^ 22) (hal : 512 ∣ a) (hb : BanksOpen c c.u a 512) : vmAddr c x off = .ok a := by
  have hrange : ¬ ((a : Int) < 0 ∨ (a : Int) > (spadSize : Int) - 512) := by unfold spadSize; omega
  have halign : a % 512 = 0 := Nat.mod_eq_zero_of_dvd hal
  simp only [vmAddr, hx, ← ha, hrange, halign, spadFree_ok hb, Int.toNat_natCast, bind, Except.bind, if_false, ne_eq, not_true_eq_false]

/-- The tag that TAGMODE.LDT names (R191). -/
theorem tag_ofLdt (n : Nat) : Tag.ofCode (n + 1) = nth .empty [.fp32, .bf16, .i32] n := by
  match n with
  | 0 => rfl
  | 1 => rfl
  | 2 => rfl
  | _ + 3 => rfl

theorem opVld_ok {c : OpCtx} {d x off a : Nat} {ps : List Post} (ha : vmAddr c x off = .ok a)
    (hd : dstPosts c d 6 (vecOfBytes (nth .empty [.fp32, .bf16, .i32] c.t.ldt) (c.t.spadBytes a 512)) (curMask c) = .ok ps) :
    opVld d x off c = .ok ps := by
  simp only [opVld, ha, tag_ofLdt, hd, bind, Except.bind]

/-- The bytes that a vector stores at an address: those of its enabled lanes (R217). -/
def vecCells (en : Mask) (v : Vec) (a : Nat) : List (Nat × Byte) :=
  (upTo 512).filterMap (fun j => if enabled en (j / 4) then some (a + j, BitVec.ofNat 8 (v.lane (j / 4) / 256 ^ (j % 4))) else none)

theorem mem_vecCells (en : Mask) (v : Vec) (a j : Nat) (y : Byte) :
    (j, y) ∈ vecCells en v a ↔ ∃ q < 512, j = a + q ∧ enabled en (q / 4) = true ∧ y = BitVec.ofNat 8 (v.lane (q / 4) / 256 ^ (q % 4)) := by
  simp only [vecCells, List.mem_filterMap, upTo, List.mem_range, Option.ite_none_right_eq_some, Option.some.injEq, Prod.mk.injEq]
  refine exists_congr fun q => and_congr_right fun _ => ?_
  rw [eq_comm (a := j), eq_comm (a := y)]
  tauto

theorem opVst_ok {c : OpCtx} {b x off a : Nat} {v : Vec} {qs : List Post} (ha : vmAddr c x off = .ok a) (hb : readSel c b = .ok (v, qs)) :
    opVst b x off c = .ok ({ lat := 1, eff := .spad (vecCells (curMask c) v a) } :: qs) := by
  simp only [opVst, ha, hb, vecCells, bind, Except.bind]

/-- The landing of stored bytes that carry no flags (R217). -/
theorem landEntry_spad {s : State} {e : Entry} {cells : List (Nat × Byte)} (h : e.eff = .spad cells) (hf : e.fl = 0) (hm : e.mx = 0) :
    landEntry s e = s.setTile e.unit { s.tile e.unit with spad := putCells (s.tile e.unit).spad cells } := by
  rw [landEntry_flags (s1 := s.setTile e.unit { s.tile e.unit with spad := putCells (s.tile e.unit).spad cells }) (by rw [h]; rfl), if_pos ⟨hf, hm⟩]

/-- A check that a word makes under a condition, and that lets it go on wherever the condition holds. -/
theorem guard_ok {α : Type} {p : Bool} {x : Res Unit} {k : Unit → Res α} (h : p = true → x = .ok ()) : (if p then x >>= k else k ()) = k () := by
  split
  · next hp => rw [h hp]; rfl
  · rfl

/-- A register that can be read parks what is read (R206). -/
theorem opPark_ok {c : OpCtx} {v : Nat} {V : Vec} (hv : v < 40) (hr : readSel c v = .ok (V, []))
    (h : c.t.pool = true → BanksOpen c c.u (c.t.sbase * 512 + 512 * v) 512) :
    opPark v c = .ok [{ lat := 2, eff := .park v V c.t.pool c.t.abank c.t.sbase }] := by
  have hwalk : ¬ (40 ≤ v ∧ v < 48) := by omega
  rw [readSel, if_neg hwalk] at hr
  rw [opPark, guard_ok fun hp => spadFree_ok (h hp)]
  split at hr
  · next w hw =>
    cases hr
    simp only [hw]
  · cases hr
  · next hw =>
    rw [if_pos hv] at hr
    cases hr
    simp only [hw]

theorem opUnpark_ok {c : OpCtx} {v : Nat} (hp : c.t.parked.getLsbD v = true)
    (h : c.t.pool = true → BanksOpen c c.u (c.t.sbase * 512 + 512 * v) 512) :
    opUnpark v c = .ok [{ lat := 4, eff := .unpark v (parkRow c.t v) }] := by
  rw [opUnpark, hp, guard_ok fun hpool => spadFree_ok (h hpool)]
  rfl

theorem opWcfg_ok {c : OpCtx} {x p f : Nat} {v : DWord} (hp : portHeld c p = false) (hx : rx c x = .ok v) (hv : wcfgOk f v = true) :
    opWcfg x p f c = .ok [{ lat := 1, eff := .wcfg p f v }] := by
  simp only [opWcfg, check, hp, hx, hv, bind, Except.bind, Bool.not_false, if_true]

theorem opShw_ok {c : OpCtx} {x g n f : Nat} {v : DWord} (hx : rx c x = .ok v) :
    opShw x g n f c = .ok [{ lat := 1, eff := .shw (4 * g + n) f v }] := by
  simp only [opShw, hx, bind, Except.bind]

theorem opXbc_ok {c : OpCtx} {d x kind : Nat} {v : DWord} {ps : List Post} (hk : kind < 3) (hx : rx c x = .ok v)
    (hd : dstPosts c d 1 (Vec.mk' (nth .empty [.i32, .fp32, .bf16] kind) (fun _ => v.toNat % 2 ^ 32)) allOnes = .ok ps) :
    opXbc d x kind c = .ok ps := by
  unfold opXbc
  simp only [hx, bind, Except.bind]
  match kind, hk with
  | 0, _ => exact hd
  | 1, _ => exact hd
  | 2, _ => exact hd

/-- Settles O53: each operation from its posts on each die, the cells of a store, and their landing. -/
theorem scratchpadOperations : Obligations.ScratchpadOperations := by
  unfold Obligations.ScratchpadOperations
  refine ⟨fun s k d x off i v a ps hin h => issueTiles_bundle hin fun e he => ?vld,
    fun s k b x off i v a B hin h => ⟨_, issueTiles_bundle hin fun e he => ?vst, fun e _ j y => mem_vecCells ..⟩,
    fun s e cells a heff hf hm ha => ?lands,
    fun s k v i V hv hin h => issueTiles_bundle hin fun e he => opPark_ok hv (h e he).1 (h e he).2,
    fun s k v i _ hin h => issueTiles_bundle hin fun e he => opUnpark_ok (h e he).1 (h e he).2,
    fun s k x p f i v hin h => issueTiles_bundle hin fun e he => ?wcfg,
    fun s k x g n f i v hin h => issueTiles_bundle hin fun e he => opShw_ok (h e he),
    fun s k x d kind i v ps hin hk h => issueTiles_bundle hin fun e he => opXbc_ok hk (h e he).1 (h e he).2⟩
  case vld =>
    obtain ⟨hx, ha, hlen, hal, hb, hd⟩ := h e he
    exact opVld_ok (vmAddr_ok hx ha hlen hal hb) hd
  case vst =>
    obtain ⟨hx, ha, hlen, hal, hb, hr⟩ := h e he
    exact opVst_ok (vmAddr_ok hx ha hlen hal hb) hr
  case lands =>
    rw [landEntry_spad heff hf hm, setTile_tile, if_pos rfl]
    exact ⟨sget_putCells_other cells _ a ha, rfl, rfl⟩
  case wcfg =>
    obtain ⟨hp, hx, hv⟩ := h e he
    exact opWcfg_ok hp hx hv

end Sys2Proof.Proofs
end

section
/-! The tensor commands (O2): what COPY, GATH, SCAT and SCACC check, and what they post. -/
namespace Sys2Proof.Proofs
open Laws
open Machine hiding Wf

/-- A word goes on with what a part of it answers. -/
theorem ok_bind {α β : Type} (v : α) (k : α → Res β) : ((.ok v : Res α) >>= k) = k v := rfl

theorem check_true (cause arg : Nat) : check true cause arg = .ok () := rfl

/-- A range inside the scratchpad (R287). -/
theorem spadRange_ok {a len : Nat} (h : a + len ≤ 2 ^ 22) : spadRange a len = .ok () := by
  have hin : ¬ ((a : Int) < 0 ∨ (a : Int) + len > spadSize) := by unfold spadSize; omega
  rw [spadRange, if_neg hin]

/-- A choice between a part that is done and one that answers, before the rest `k` of a word. -/
theorem choose_bind {α β : Type} {p : Bool} {r : Res α} {v w : α} {t : Res β} {k : α → Res β} (h : (if p then .ok w else r) = .ok v)
    (ht : p = true → t = k w) : (if p then t else r >>= k) = k v := by
  split at h
  · next hp => cases h; rw [if_pos hp, ht hp]
  · next hp => rw [if_neg hp, h, ok_bind]

section copy
variable {c : OpCtx} {node x sh sw da : Nat} {D : List Byte} {xs xd : List (Nat × Nat)}

/-- What COPY checks of its two tensors on a die, with the translations that the checks find (R286, R287, R289). -/
structure CopyChecks (c : OpCtx) (D : List Byte) (A B : SMap DWord) (xs xd : List (Nat × Nat)) : Prop where
  header : headerOk D true = true
  srcOk : tensorOk A = true
  dstOk : tensorOk B = true
  formats : sf A 8 = sf B 8
  shares : ∀ j < 4, runsCount (dimShare A c.die j) = runsCount (dimShare B c.die j)
  src : tensorCheck c A ((dfield D 16 1).testBit 0) 0 = .ok xs
  dst : tensorCheck c B ((dfield D 16 1).testBit 1) 1 = .ok xd
  srcBanks : (dfield D 16 1).testBit 0 = true → piecesBanks (dBANKS D) (sharePieces A c.die) = .ok ()
  dstBanks : (dfield D 16 1).testBit 1 = true → piecesBanks (dBANKS D) (sharePieces B c.die) = .ok ()

theorem opCopy_ok {ins : Instr} (ho : Opens c node x D da) (h : CopyChecks c D (shapePair c sh sw).1 (shapePair c sh sw).2 xs xd) :
    opCopy ins node sh sw x c = .ok (swapPosts (8 + sh) sw ++
      postNode node { instr := ins, desc := D, shA := (shapePair c sh sw).1, shB := (shapePair c sh sw).2, xlate := xs ++ xd, reads := xs.length,
                      cid := c.s.cidOf c.u, progress := ((sharePieces (shapePair c sh sw).2 c.die).map (fun p => p.2)).sum }
      ++ leasePosts c 0 xs ++ leasePosts c 1 xd) := by
  have hshares : (upTo 4).all (fun j =>
      decide (runsCount (dimShare (shapePair c sh sw).1 c.die j) = runsCount (dimShare (shapePair c sh sw).2 c.die j))) = true := by
    simpa [upTo] using h.shares
  have hbytes (l : List (Int × Nat)) : l.foldl (fun n p => n + p.2) 0 = (l.map (fun p => p.2)).sum := by
    rw [List.sum_eq_foldl, List.foldl_map]
  simp only [opCopy, openDesc_ok ho, ok_bind, bitOf_eq_testBit, h.header, h.srcOk, h.dstOk, h.formats, hshares, check_true, Bool.and_self,
    decide_true, h.src, h.dst, guard_ok h.srcBanks, guard_ok h.dstBanks, hbytes]

end copy

section rows
variable {c : OpCtx} {node x sh sw da : Nat} {D : List Byte} {xs xd : List (Nat × Nat)} {gath : Bool}

/-- The rows of a tensor of GATH or SCAT, from those that its shape or its count names (R287, R288, log 12). -/
def rowsOf (m : SMap DWord) (n : Nat) : List (Int × Nat) := if emptyRows m then [] else allRows m n

theorem rowsOf_eq (m : SMap DWord) (n : Nat) : (if emptyRows m then [] else allRows m n) = rowsOf m n := rfl

/-- The rows of one side stand in open banks of the scratchpad, or translate (R286, R287). -/
def RowsReach (c : OpCtx) (D : List Byte) (spad : Bool) (kind : Nat) (rows : List (Int × Nat)) (xl : List (Nat × Nat)) : Prop :=
  if spad then xl = [] ∧ piecesBanks (dBANKS D) rows = .ok () else piecesXlate c kind rows = .ok xl

theorem RowsReach.xlate {spad : Bool} {kind : Nat} {rows : List (Int × Nat)} (h : RowsReach c D spad kind rows xs) :
    (if spad then .ok [] else piecesXlate c kind rows) = .ok xs := by
  unfold RowsReach at h
  split at h
  · next hs => rw [if_pos hs, h.1]
  · next hs => rw [if_neg hs, h]

theorem RowsReach.banks {spad : Bool} {kind : Nat} {rows : List (Int × Nat)} (h : RowsReach c D spad kind rows xs) (hs : spad = true) :
    piecesBanks (dBANKS D) rows = .ok () := by
  rw [RowsReach, if_pos hs] at h
  exact h.2

/-- What GATH and SCAT check of a shape: two dimensions, not split over the dies (R288). -/
structure RowShape (m : SMap DWord) : Prop where
  ok : tensorOk m = true
  dim3 : sf m 3 = 1
  dim4 : sf m 4 = 1
  whole : (sf m 10).toNat % 8 = 7
  aligned : tensorAligned m = true

/-- What GATH and SCAT check on a die (R286 to R288). -/
structure RowChecks (c : OpCtx) (gath : Bool) (D : List Byte) (da : Nat) (A B : SMap DWord) (xs xd : List (Nat × Nat)) : Prop where
  header : headerOk D false = true
  countPos : 1 ≤ dfield D 20 4
  countMax : dfield D 20 4 ≤ 65536
  srcShape : RowShape A
  dstShape : RowShape B
  formats : sf A 8 = sf B 8
  index : dIDX D + 4 * dfield D 20 4 ≤ 2 ^ 22
  srcRange : piecesOk ((dSPACE D).testBit 0) 0 (rowsOf A (if gath then 0 else dfield D 20 4)) = .ok ()
  dstRange : piecesOk ((dSPACE D).testBit 1) 1 (rowsOf B (if gath then dfield D 20 4 else 0)) = .ok ()
  src : RowsReach c D ((dSPACE D).testBit 0) 0 (rowsOf A (if gath then 0 else dfield D 20 4)) xs
  dst : RowsReach c D ((dSPACE D).testBit 1) 1 (rowsOf B (if gath then dfield D 20 4 else 0)) xd
  indexBanks : banksCover (dBANKS D) (dIDX D) (4 * dfield D 20 4) = .ok ()
  descBanks : banksCover (dBANKS D) (da + 28) 4 = .ok ()

theorem opGathScat_ok {ins : Instr} (ho : Opens c node x D da) (h : RowChecks c gath D da (shapePair c sh sw).1 (shapePair c sh sw).2 xs xd) :
    opGathScat ins gath node sh sw x c = .ok (swapPosts (8 + sh) sw ++
      postNode node { instr := ins, desc := D, shA := (shapePair c sh sw).1, shB := (shapePair c sh sw).2, xlate := xs ++ xd, reads := xs.length,
                      dpos := da, cid := c.s.cidOf c.u }
      ++ leasePosts c 0 xs ++ leasePosts c 1 xd) := by
  have hdim (n : Nat) : bitsOf n 2 0 = n % 8 := by rw [bitsOf, pow_zero, Nat.div_one]; rfl
  simp only [opGathScat, openDesc_ok ho, ok_bind, bitOf_eq_testBit, rowsOf_eq, h.header, h.countPos, h.countMax, h.formats, hdim, h.srcShape.ok, h.srcShape.dim3,
    h.srcShape.dim4, h.srcShape.whole, h.srcShape.aligned, h.dstShape.ok, h.dstShape.dim3, h.dstShape.dim4, h.dstShape.whole, h.dstShape.aligned,
    check_true, Bool.and_self, decide_true, spadRange_ok h.index, h.srcRange, h.dstRange, guard_ok h.src.banks, guard_ok h.dst.banks,
    h.indexBanks, h.descBanks]
  exact (choose_bind h.src.xlate fun _ => rfl).trans (choose_bind h.dst.xlate fun _ => rfl)

end rows

section accumulate
variable {c : OpCtx} {node x sh sw da : Nat} {D : List Byte} {m : SMap DWord}

/-- What SCACC checks on a die of its shape, its indices and its values (R286, R290). -/
structure ScaccChecks (D : List Byte) (da : Nat) (m : SMap DWord) (idx n val es base : Nat) : Prop where
  header : headerOk D false = true
  format : (sf m 8).toNat ≤ 2
  dim2 : sf m 2 = 1
  dim3 : sf m 3 = 1
  dim4 : sf m 4 = 1
  countPos : 1 ≤ n
  countMax : n ≤ 65536
  indexAligned : 4 ∣ idx
  valueAligned : es ∣ val
  baseAligned : es ∣ base
  index : idx + 4 * n ≤ 2 ^ 22
  value : val + es * n ≤ 2 ^ 22
  rows : base + es * (sf m 1).toNat ≤ 2 ^ 22
  indexBanks : banksCover (dBANKS D) idx (4 * n) = .ok ()
  valueBanks : banksCover (dBANKS D) val (es * n) = .ok ()
  rowBanks : banksCover (dBANKS D) base (es * (sf m 1).toNat) = .ok ()
  descBanks : banksCover (dBANKS D) (da + 28) 4 = .ok ()

theorem opScacc_ok {ins : Instr} (ho : Opens c node x D da) (hm : shapeAfter c.t (8 + sh) (8 + sh) sw = m)
    (h : ScaccChecks D da m (dfield D 16 4) (dfield D 20 4) (dfield D 24 4) (elemBits (sf m 8).toNat / 8) (sf m 0).toNat) :
    opScacc ins node sh sw x c = .ok (swapPosts (8 + sh) sw ++
      postNode node { instr := ins, desc := D, shA := m, dpos := da, cid := c.s.cidOf c.u }) := by
  simp only [opScacc, openDesc_ok ho, ok_bind, hm, h.header, h.format, h.dim2, h.dim3, h.dim4, h.countPos, h.countMax,
    Nat.mod_eq_zero_of_dvd h.indexAligned, Nat.mod_eq_zero_of_dvd h.valueAligned, Nat.mod_eq_zero_of_dvd h.baseAligned, check_true,
    Bool.and_self, decide_true, spadRange_ok h.index, spadRange_ok h.value, spadRange_ok h.rows, h.indexBanks, h.valueBanks, h.rowBanks,
    h.descBanks]

end accumulate

theorem look_cid {s : State} {k sl d : Nat} (hk : k < 64) (hd : d < 4) : (look s k sl d).s.cidOf (look s k sl d).u = (s.core k).cid := by
  have hu : ¬ 256 ≤ unitOf k d := Nat.not_le.mpr (unit_lt hk hd)
  show s.cidOf (unitOf k d) = _
  rw [State.cidOf, if_neg hu, unit_core hd]

theorem exec_rowForms {s : State} {node sh sw x : Nat} :
    ∀ e ∈ ([(.gath node sh sw x, true), (.scat node sh sw x, false)] : List (Instr × Bool)),
      exec e.1 s = issueTiles s 6 (opGathScat e.1 e.2 node sh sw x) := by
  simp only [List.forall_mem_cons]
  exact ⟨rfl, rfl, List.forall_mem_nil _⟩

/-- Settles O2: each command posts once its checks hold, and they hold by the statement's hypotheses. -/
theorem tensorCommands : Obligations.TensorCommands := by
  unfold Obligations.TensorCommands
  refine ⟨fun s k node sh sw x i D da xs xd hin h => issueTiles_bundle hin fun e he => ?copy,
    fun s k node sh sw x i op gath D da xs xd hform hin h =>
      (exec_rowForms (op, gath) hform).trans (issueTiles_bundle hin fun e he => ?rows),
    fun s k node sh sw x fn i D da hin h => issueTiles_bundle hin fun e he => ?accumulate⟩
  case copy =>
    have hdie := look_die (s := s) (k := k) (sl := 6) (dies_lt he)
    obtain ⟨hopen, hh, hA, hB, hfmt, hshare, hsrc, hdst, hsb, hdb⟩ := h e he
    have hchecks : CopyChecks (look s k 6 e) (D e) _ _ (xs e) (xd e) :=
      ⟨hh, hA, hB, hfmt, by rwa [hdie], hsrc, hdst, by rwa [hdie], by rwa [hdie]⟩
    have hop := opCopy_ok (ins := .copy node sh sw x) hopen hchecks
    rwa [look_cid hin.core (dies_lt he), hdie] at hop
  case rows =>
    obtain ⟨hopen, hh, h1, hmax, hA, hB, hfmt, hshape, hidx, hsrange, hdrange, hAal, hBal, hsrc, hdst, hib, hdb⟩ := h e he
    obtain ⟨hS3, hS4, hS7⟩ := hshape _ List.mem_cons_self
    obtain ⟨hT3, hT4, hT7⟩ := hshape _ (List.mem_cons_of_mem _ List.mem_cons_self)
    have hchecks : RowChecks (look s k 6 e) gath (D e) (da e) _ _ (xs e) (xd e) :=
      ⟨hh, h1, hmax, ⟨hA, hS3, hS4, hS7, hAal⟩, ⟨hB, hT3, hT4, hT7, hBal⟩, hfmt, hidx, hsrange, hdrange, hsrc, hdst, hib, hdb⟩
    have hop := opGathScat_ok (ins := op) hopen hchecks
    rwa [look_cid hin.core (dies_lt he)] at hop
  case accumulate =>
    obtain ⟨hopen, hh, hf, h2, h3, h4, h1, hmax, hia, hva, hba, hir, hvr, hbr, hib, hvb, hbb, hdb⟩ := h e he
    have hop := opScacc_ok (ins := .scacc node sh sw x fn) hopen rfl
      ⟨hh, hf, h2, h3, h4, h1, hmax, hia, hva, hba, hir, hvr, hbr, hib, hvb, hbb, hdb⟩
    rwa [look_cid hin.core (dies_lt he)] at hop

end Sys2Proof.Proofs
end

section
/-! The special functions of VB (O54): seeds, steps, the seed tables, the correction of a row, and scaling. -/
namespace Sys2Proof.Proofs
open Laws
open Machine hiding Wf

/-- The clamp of VSCL, branch by branch (R234). -/
theorem clamp_eq (x : Int) : (if x < -300 then -300 else if x > 300 then 300 else x) = max (-300) (min 300 x) := by
  split
  · omega
  · split <;> omega

section posts
variable {c : OpCtx} {d a b fn : Nat} {A B : Src} {ps : List Post}

/-- A seed posts its result, from the tables in force at issue, and the read of A (R221). -/
theorem opSfseed_ok {f : SfFn} (hf : SfFn.ofCode fn = some f) (hA : readAs c a .fp32 (enabled (curMask c)) = .ok A)
    (hd : let r := laneMap .fp32 (curMask c) (fun j => sfSeed c.t.seed f (A.v.lane j))
      dstPosts c d 3 r.1 (curMask c) (r.2 ||| A.fl) = .ok ps) :
    opSfseed d a fn c = .ok (ps ++ A.posts) := by
  simp only [opSfseed, hf, Option.getD_some, hA, hd, bind, Except.bind]

/-- A step posts its result, from the tables in force at issue, and the reads of A and B (R221). -/
theorem opSfstep_ok {f : SfFn} (hf : SfFn.ofCode fn = some f) (hA : readAs c a .fp32 (enabled (curMask c)) = .ok A)
    (hB : readAs c b .fp32 (enabled (curMask c)) = .ok B)
    (hd : let r := laneMap .fp32 (curMask c) (fun j => sfStep c.t.seed f (A.v.lane j) (B.v.lane j))
      dstPosts c d 4 r.1 (curMask c) (r.2 ||| A.fl ||| B.fl) = .ok ps) :
    opSfstep d a b fn c = .ok (ps ++ A.posts ++ B.posts) := by
  simp only [opSfstep, hf, Option.getD_some, hA, hB, hd, bind, Except.bind]

/-- A seed table is taken from an aligned range inside the scratchpad whose banks are open (R223). -/
theorem opSftld_ok {x len : Nat} {v : DWord} (hlen : len = if fn = 5 then 1024 else 512) (hx : rx c x = .ok v) (hin : v.toNat + len ≤ 2 ^ 22)
    (hal : 512 ∣ v.toNat) (hb : BanksOpen c c.u v.toNat len) :
    opSftld x fn c = .ok [{ lat := 16, eff := .seedTab fn (c.t.spadBytes v.toNat len) }] := by
  have hrange : ¬ v.toNat > spadSize - len := by unfold spadSize; omega
  have halign : v.toNat % 512 = 0 := Nat.mod_eq_zero_of_dvd hal
  simp only [opSftld, hx, ← hlen, hrange, halign, spadFree_ok hb, bind, Except.bind, if_false, ne_eq, not_true_eq_false]

/-- SMXFIX posts A times lane 2 of B (R228). -/
theorem opSmxfix_ok (hA : readAs c a .fp32 (enabled (curMask c)) = .ok A) (hB : readAs c b .fp32 (fun j => decide (j = 2)) = .ok B)
    (hd : let r := laneMap .fp32 (curMask c) (fun j => fmul .fp32 (A.v.lane j) (B.v.lane 2))
      dstPosts c d 4 r.1 (curMask c) (r.2 ||| A.fl ||| B.fl) = .ok ps) :
    opSmxfix d a b c = .ok (ps ++ A.posts ++ B.posts) := by
  simp only [opSmxfix, mul32, hA, hB, hd, bind, Except.bind]

/-- VSCL posts A scaled by the clamped exponents of B (R234). -/
theorem opVscl_ok {f : FFmt} (hA : readFloat c a (enabled (curMask c)) = .ok (f, A)) (hB : readAs c b .i32 (enabled (curMask c)) = .ok B)
    (hd : let r := laneMap f.tag (curMask c) (fun j =>
        onElems f (fun y _ _ => sclElem f y (max (-300) (min 300 (sextNat (B.v.lane j) 32)))) (A.v.lane j) 0 0)
      dstPosts c d 2 r.1 (curMask c) (r.2 ||| A.fl ||| B.fl) = .ok ps) :
    opVscl d a b c = .ok (ps ++ A.posts ++ B.posts) := by
  simp only [opVscl, clamp_eq, hA, hB, hd, bind, Except.bind]

end posts

/-- Settles O54: each operation from its posts on each die, and SFTLD from the checks of its range. -/
theorem specialFunctionOperations : Obligations.SpecialFunctionOperations := by
  unfold Obligations.SpecialFunctionOperations
  refine ⟨fun s k d a fn f i A ps hf hin h => issueTiles_bundle hin fun e he => opSfseed_ok hf (h e he).1 (h e he).2,
    fun s k d a b fn f i A B ps hf hin h => issueTiles_bundle hin fun e he => ?step,
    fun s k x fn len i v hlen hin h => issueTiles_bundle hin fun e he => ?table,
    fun s k d a b i A B ps hin h => issueTiles_bundle hin fun e he => ?fix,
    fun s k d a b i F A B ps hin h => issueTiles_bundle hin fun e he => ?scale⟩
  case step =>
    obtain ⟨hA, hB, hd⟩ := h e he
    exact opSfstep_ok hf hA hB hd
  case table =>
    obtain ⟨hx, hlast, hal, hb⟩ := h e he
    exact opSftld_ok hlen hx hlast hal hb
  case fix =>
    obtain ⟨hA, hB, hd⟩ := h e he
    exact opSmxfix_ok hA hB hd
  case scale =>
    obtain ⟨hA, hB, hd⟩ := h e he
    exact opVscl_ok hA hB hd

end Sys2Proof.Proofs
end

section
/-! Rows (O55): what the fixed tree keeps of its leaves, and what ROWSUM, ROWMAX, ROWSTAT and SMXUP post. -/
namespace Sys2Proof.Proofs
open Laws hiding Wf
open Machine

/-! ### The count of a row (R88, R226) -/

section tree
variable {α : Type} {f : α → α → α × Flags} {size : α → Nat}

/-- A level of the tree keeps a size that its node adds up. -/
theorem sum_pairUp (hf : ∀ x y, size (f x y).1 = size x + size y) : ∀ l : List α, ((pairUp f l).1.map size).sum = (l.map size).sum
  | [] => rfl
  | [_] => rfl
  | x :: y :: rest => by
    have ih := sum_pairUp hf rest
    simp only [pairUp, List.map_cons, List.sum_cons, hf, ih]
    omega

theorem length_pairUp : ∀ l : List α, 2 * (pairUp f l).1.length ≤ l.length + 1
  | [] => by simp [pairUp]
  | [_] => by simp [pairUp]
  | x :: y :: rest => by
    have ih := length_pairUp rest
    simp only [pairUp, List.length_cons]
    omega

/-- The tree keeps a size that its node adds up. -/
theorem sum_treeFold (hf : ∀ x y, size (f x y).1 = size x + size y) (n : Nat) (l : List α) :
    ((treeFold f n l).1.map size).sum = (l.map size).sum := by
  induction n generalizing l with
  | zero => rfl
  | succ n ih => exact (ih _).trans (sum_pairUp hf l)

/-- A tree deep enough for its leaves has one root. -/
theorem length_treeFold (n : Nat) (l : List α) (h : l.length ≤ 2 ^ n) : (treeFold f n l).1.length ≤ 1 := by
  induction n generalizing l with
  | zero => exact h
  | succ n ih =>
    have hlevel := length_pairUp (f := f) l
    exact ih _ (by omega)

/-- The size of the root is that of the leaves together. -/
theorem size_root (hf : ∀ x y, size (f x y).1 = size x + size y) {z : α} (hz : size z = 0) {n : Nat} {l : List α} (h : l.length ≤ 2 ^ n) :
    size (nth z (treeFold f n l).1 0) = (l.map size).sum := by
  have hone := length_treeFold (f := f) n l h
  rw [← sum_treeFold hf n l]
  match (treeFold f n l).1, hone with
  | [], _ => exact hz
  | [x], _ => simp [nth]

end tree

theorem welfordMerge_n (x y : Wf) : (welfordMerge x y).1.n = x.n + y.n := by
  unfold welfordMerge
  split
  · next h => simp [h]
  · split
    · next h => simp [h]
    · rfl

/-- The lanes of a row as states of one value each (R88). -/
def rowStates (m : Mask) (v : Vec) : List Wf :=
  (List.range 128).map (fun j => if m.getLsbD j then { n := 1, mean := v.lane j, m2 := 0 } else { n := 0, mean := 0, m2 := 0 })

theorem sum_states_n (m : Mask) (v : Vec) (l : List Nat) :
    ((l.map (fun j => if m.getLsbD j then { n := 1, mean := v.lane j, m2 := 0 } else { n := 0, mean := 0, m2 := 0 } : Nat → Wf)).map Wf.n).sum
      = (l.filter (fun j => m.getLsbD j)).length := by
  induction l with
  | nil => rfl
  | cons j l ih =>
    rw [List.map_cons, List.map_cons, List.sum_cons, ih, List.filter_cons]
    split
    · exact Nat.add_comm ..
    · exact Nat.zero_add _

/-- The count that a row statistic returns is that of the root of its tree. -/
theorem rowStat_n (st : List Wf) : (rowStat st).2.2.1 = (nth { n := 0, mean := 0, m2 := 0 } (treeFold welfordMerge 7 st).1 0).n := by
  unfold rowStat
  dsimp only
  split
  · next h => exact h.symm
  · rfl

/-- ROWSTAT counts the enabled lanes (R88). -/
theorem rowStat_count (m : Mask) (v : Vec) :
    (rowStat (rowStates m v)).2.2.1 = ((List.range 128).filter (fun j => m.getLsbD j)).length := by
  rw [rowStat_n, size_root welfordMerge_n rfl (by simp [rowStates])]
  exact sum_states_n m v _

/-! ### What the row operations post -/

/-- What SMXUP writes of an update: the weights, or the new state in lanes 0 to 2; every result NaN with a NaN maximum (R227). -/
def smxVec (m : Mask) (fn : Nat) (r : Nat × Nat × Nat × (Nat → Nat) × Flags) : Vec :=
  let orNan : Nat → Nat := fun x => if nan32 r.1 then fcnan .fp32 else x
  Vec.mk' .fp32 (fun j => if m.getLsbD j then (if fn % 2 = 1 then orNan (r.2.2.2.1 j) else nth 0 [r.1, orNan r.2.1, orNan r.2.2.1] j) else 0)

/-- The packed statistics by their lane (R226). -/
theorem packedStat_eq (m : Mask) (w x y z : Nat) :
    packedStat m (fun j => if j = 0 then w else if j = 1 then x else if j = 2 then y else z)
      = Vec.mk' .fp32 (fun j => if m.getLsbD j ∧ j < 4 then nth 0 [w, x, y, z] j else 0) :=
  mk'_congr fun j _ => by
    match j with
    | 0 | 1 | 2 | 3 => rfl
    | n + 4 => simp

/-- SMXUP writes the weights or the new state, lane by lane. -/
theorem smxVec_eq (m : Mask) (fn : Nat) (r : Nat × Nat × Nat × (Nat → Nat) × Flags) :
    Vec.mk' .fp32 (fun i => if !(enabled m i) then 0
      else if fn % 2 = 1 then (if nan32 r.1 then fcnan .fp32 else r.2.2.2.1 i)
      else if i = 0 then r.1 else if i = 1 then (if nan32 r.1 then fcnan .fp32 else r.2.1)
      else if i = 2 then (if nan32 r.1 then fcnan .fp32 else r.2.2.1) else 0) = smxVec m fn r :=
  mk'_congr fun j _ => by
    rw [enabled]
    cases m.getLsbD j with
    | false => rfl
    | true =>
      match j with
      | 0 | 1 | 2 | n + 3 => simp [nth]

section posts
variable {c : OpCtx} {d a b fn : Nat} {A B : Src} {ps : List Post}

/-- A row sum or maximum posts what its tree gives, canonical, or the value of an empty row (R225). -/
theorem opRow_ok {isMax : Bool} {r : Option Nat × Flags} {x : Nat} (hA : readAs c a .fp32 (enabled (curMask c)) = .ok A)
    (hd : dstPosts c d 6 (Vec.mk' .fp32 (fun j => if enabled (curMask c) j then x else 0)) (curMask c)
      (r.2 ||| snanFlag (curMask c) A.v ||| A.fl) = .ok ps)
    (hr : rowTree (if isMax then maxNode else add32) (present (curMask c) A.v) = r)
    (hx : x = (r.1.map canon32).getD (if isMax then ninf32 else 0)) :
    opRow isMax d a c = .ok (ps ++ A.posts) := by
  obtain ⟨_ | y, fl⟩ := r
  · rw [Option.map_none, Option.getD_none] at hx
    simp only [opRow, hA, hr, ← hx, hd, bind, Except.bind]
  · rw [Option.map_some, Option.getD_some] at hx
    simp only [opRow, hA, hr, ← hx, hd, bind, Except.bind]

/-- ROWSTAT of a row posts its statistics, with the count of its enabled lanes (R226). -/
theorem opRowstat_row {st : List Wf} (hA : readAs c a .fp32 (enabled (curMask c)) = .ok A)
    (hd : let m := curMask c
      let tree := treeFold welfordMerge 7 st
      let q := nth { n := 0, mean := 0, m2 := 0 } tree.1 0
      let r := rowStat st
      dstPosts c d 8 (Vec.mk' .fp32 (fun j => if m.getLsbD j ∧ j < 4 then
          nth 0 [canon32 r.1, canon32 r.2.1, ofInt32 ((List.range 128).filter (fun j => m.getLsbD j)).length, canon32 q.m2] j else 0)) m
        (tree.2 ||| r.2.2.2 ||| snanFlag m A.v ||| A.fl) = .ok ps)
    (hst : st = rowStates (curMask c) A.v) :
    opRowstat d a b 0 c = .ok (ps ++ A.posts) := by
  subst hst
  dsimp only at hd
  rw [← packedStat_eq, ← rowStat_count (curMask c) A.v] at hd
  have hst : (upTo 128).map (fun j => if enabled (curMask c) j then { n := 1, mean := A.v.lane j, m2 := 0 } else { n := 0, mean := 0, m2 := 0 })
      = rowStates (curMask c) A.v := rfl
  simp only [opRowstat, hA, hst, hd, bind, Except.bind, if_true]

/-- ROWSTAT of two states posts their merge (R226). -/
theorem opRowstat_merge {na nb : Nat} (hA : readAs c a .fp32 (fun j => decide (j = 0 ∨ j = 2 ∨ j = 3)) = .ok A)
    (hB : readAs c b .fp32 (fun j => decide (j = 0 ∨ j = 2 ∨ j = 3)) = .ok B)
    (hna : countOf (A.v.lane 2) = some na) (hnb : countOf (B.v.lane 2) = some nb)
    (hd : let m := curMask c
      let w := welfordMerge { n := na, mean := A.v.lane 0, m2 := A.v.lane 3 } { n := nb, mean := B.v.lane 0, m2 := B.v.lane 3 }
      let q : Fl := if w.1.n = 0 then (0, 0) else divInt32 w.1.m2 w.1.n
      let sn : Nat → Flags := fun x => if (dec32 x).isSnan then flIV else 0
      dstPosts c d 8 (Vec.mk' .fp32 (fun j => if m.getLsbD j ∧ j < 4 then
          nth 0 [canon32 w.1.mean, canon32 q.1, ofInt32 w.1.n, canon32 w.1.m2] j else 0)) m
        (w.2 ||| q.2 ||| sn w.1.mean ||| sn w.1.m2 ||| A.fl ||| B.fl) = .ok ps) :
    opRowstat d a b 1 c = .ok (ps ++ A.posts ++ B.posts) := by
  dsimp only at hd
  rw [← packedStat_eq] at hd
  simp only [opRowstat, one_ne_zero, if_false, hA, hB, hna, hnb, hd, bind, Except.bind]

/-- ROWSTAT of two states posts NaNs where a count is none (R226). -/
theorem opRowstat_noCount (hA : readAs c a .fp32 (fun j => decide (j = 0 ∨ j = 2 ∨ j = 3)) = .ok A)
    (hB : readAs c b .fp32 (fun j => decide (j = 0 ∨ j = 2 ∨ j = 3)) = .ok B)
    (hcount : countOf (A.v.lane 2) = none ∨ countOf (B.v.lane 2) = none)
    (hd : dstPosts c d 8 (packedStat (curMask c) (fun _ => fcnan .fp32)) (curMask c) (flIV ||| A.fl ||| B.fl) = .ok ps) :
    opRowstat d a b 1 c = .ok (ps ++ A.posts ++ B.posts) := by
  simp only [opRowstat, one_ne_zero, if_false, hA, hB, bind, Except.bind]
  obtain hna | hnb := hcount
  · simp only [hna, hd]
  · cases hna : countOf (A.v.lane 2) with
    | none => simp only [hd]
    | some na => simp only [hnb, hd]

/-- SMXUP from the state in B posts the new state or the weights (R227). -/
theorem opSmxup_state (hfn : fn < 2) (hA : readAs c a .fp32 (enabled (curMask c)) = .ok A)
    (hB : readAs c b .fp32 (fun j => decide (j < 2)) = .ok B)
    (hd : let r := smxPresent c.t.seed (B.v.lane 0) (B.v.lane 1) (curMask c) A.v
      dstPosts c d 8 (smxVec (curMask c) fn r) (curMask c) (r.2.2.2.2 ||| A.fl ||| B.fl) = .ok ps) :
    opSmxup d a b fn c = .ok (ps ++ A.posts ++ B.posts) := by
  have hform : fn ≤ 1 := Nat.le_of_lt_succ hfn
  simp only [opSmxup, hA, hB, hform, smxVec_eq, hd, bind, Except.bind, if_true]

/-- SMXUP in a start form posts the new state or the weights of the row alone: from minus infinity and a sum of zero (R227). -/
theorem opSmxup_start (hfn : ¬ fn < 2) (hA : readAs c a .fp32 (enabled (curMask c)) = .ok A)
    (hd : let r := smxPresent c.t.seed ninf32 0 (curMask c) A.v
      dstPosts c d 8 (smxVec (curMask c) fn r) (curMask c) (r.2.2.2.2 ||| A.fl ||| 0) = .ok ps) :
    opSmxup d a b fn c = .ok (ps ++ A.posts) := by
  have hform : ¬ fn ≤ 1 := fun h => hfn (Nat.lt_succ_of_le h)
  have hmax : (Vec.mk' .fp32 (fun j => if j = 0 then ninf32 else 0)).lane 0 = ninf32 := lane_mk' (by decide) (by decide)
  have hsum : (Vec.mk' .fp32 (fun j => if j = 0 then ninf32 else 0)).lane 1 = 0 := lane_mk' (by decide) (by decide)
  simp only [opSmxup, hA, hform, hmax, hsum, smxVec_eq, hd, bind, Except.bind, if_false, List.append_nil]

end posts

/-- The two row reductions: their node, and the value of a row without lanes (R225). -/
def reductionForms (d a : Nat) : List (Instr × (Nat → Nat → Fl) × Nat) := [(.rowsum d a, add32, 0), (.rowmax d a, maxNode, ninf32)]

theorem exec_reductionForms {d a : Nat} : ∀ e ∈ reductionForms d a, ∃ isMax : Bool, e.2.1 = (if isMax then maxNode else add32)
    ∧ e.2.2 = (if isMax then ninf32 else 0) ∧ ∀ s, exec e.1 s = issueTiles s 3 (opRow isMax d a) := by
  simp only [reductionForms, List.forall_mem_cons]
  exact ⟨⟨false, rfl, rfl, fun _ => rfl⟩, ⟨true, rfl, rfl, fun _ => rfl⟩, List.forall_mem_nil _⟩

/-- Settles O55: the row reductions from their trees, ROWSTAT by its form, and SMXUP from a state or from the start. -/
theorem rowOperations : Obligations.RowOperations := by
  unfold Obligations.RowOperations
  refine ⟨fun s k d a i op node z0 A ps hop hin h => ?reduce,
    fun s k d a b i A ps hin h => issueTiles_bundle hin fun e he => ?row,
    fun s k d a b i A B na nb ps hin h => issueTiles_bundle hin fun e he => ?merge,
    fun s k d a b i A B ps hin h => issueTiles_bundle hin fun e he => ?noCount,
    fun s k d a b fn i A B ps hfn hin h => issueTiles_bundle hin fun e he => ?softmax⟩
  case reduce =>
    obtain ⟨isMax, rfl, rfl, hexec⟩ := exec_reductionForms (op, node, z0) hop
    refine (hexec s).trans (issueTiles_bundle hin fun e he => ?_)
    obtain ⟨hA, hd⟩ := h e he
    refine opRow_ok hA hd rfl ?_
    split
    · next y hy => rw [hy, Option.map_some, Option.getD_some]
    · next hy => rw [hy, Option.map_none, Option.getD_none]
  case row =>
    obtain ⟨hA, hd⟩ := h e he
    exact opRowstat_row hA hd rfl
  case merge =>
    obtain ⟨hA, hB, hna, hnb, hd⟩ := h e he
    exact opRowstat_merge hA hB hna hnb hd
  case noCount =>
    obtain ⟨hA, hB, hcount, hd⟩ := h e he
    exact opRowstat_noCount hA hB hcount hd
  case softmax =>
    obtain ⟨hA, hB, hd⟩ := h e he
    by_cases hstate : fn < 2
    · simp only [hstate, if_true] at hB hd
      exact opSmxup_state hstate hA hB hd
    · simp only [hstate, if_false] at hB hd
      obtain ⟨hposts, hfl⟩ := hB
      rw [hposts, List.append_nil]
      rw [hfl] at hd
      exact opSmxup_start hstate hA hd

end Sys2Proof.Proofs
end

section
/-! The order of top-k (O56, part 1): values by their rank, candidates by their key, and the sort (R233). -/
namespace Sys2Proof.Proofs
open Laws
open Machine hiding Wf

/-! ### Values in order -/

/-- The exact number that a finite value is. -/
def finVal (neg : Bool) (m : Nat) (e : Int) : ℚ := (if neg then -(m : ℚ) else m) * 2 ^ e

/-- The rank of a value: NaN below minus infinity, a zero of either sign the same (R233). -/
def rankOf : FVal → WithTop (WithBot (WithBot ℚ))
  | .nan _ => ⊥
  | .inf true => (((⊥ : WithBot ℚ) : WithBot (WithBot ℚ)) : WithTop (WithBot (WithBot ℚ)))
  | .inf false => ⊤
  | .fin n m e => (((finVal n m e : WithBot ℚ) : WithBot (WithBot ℚ)) : WithTop (WithBot (WithBot ℚ)))

/-- An exact sum is the sum of its operands. -/
theorem exactAdd_val (n1 : Bool) (m1 : Nat) (e1 : Int) (n2 : Bool) (m2 : Nat) (e2 : Int) :
    ((exactAdd n1 m1 e1 n2 m2 e2).1 : ℚ) * 2 ^ (exactAdd n1 m1 e1 n2 m2 e2).2 = finVal n1 m1 e1 + finVal n2 m2 e2 := by
  unfold exactAdd finVal
  dsimp only
  generalize he : (if e1 ≤ e2 then e1 else e2) = e
  have hscale : ∀ x : Int, e ≤ x → (2 : ℚ) ^ (x - e).toNat * 2 ^ e = 2 ^ x := fun x hx => by
    rw [← zpow_natCast, Int.toNat_of_nonneg (by omega), ← zpow_add₀ two_ne_zero, sub_add_cancel]
  have h1 := hscale e1 (by omega)
  have h2 := hscale e2 (by omega)
  rw [← h1, ← h2]
  push_cast
  cases n1 <;> cases n2 <;> simp <;> ring

theorem finVal_not (n : Bool) (m : Nat) (e : Int) : finVal (!n) m e = -finVal n m e := by
  cases n <;> simp [finVal]

theorem fcmpV_fin_lt (n1 : Bool) (m1 : Nat) (e1 : Int) (n2 : Bool) (m2 : Nat) (e2 : Int) :
    fcmpV (.fin n1 m1 e1) (.fin n2 m2 e2) = .lt ↔ finVal n1 m1 e1 < finVal n2 m2 e2 := by
  have hsum := exactAdd_val n1 m1 e1 (!n2) m2 e2
  rw [finVal_not, ← sub_eq_add_neg] at hsum
  have hsign : (exactAdd n1 m1 e1 (!n2) m2 e2).1 < 0 ↔ finVal n1 m1 e1 < finVal n2 m2 e2 := by
    have hpos : (0 : ℚ) < 2 ^ (exactAdd n1 m1 e1 (!n2) m2 e2).2 := by positivity
    rw [← sub_neg (b := finVal n2 m2 e2), ← hsum, mul_neg_iff]
    simp [hpos, hpos.not_gt]
  rw [← hsign]
  simp only [fcmpV]
  split
  · next h => simp [h]
  · next h => split <;> simp [h]

/-- Of two numbers the lower compares as less. -/
theorem fcmpV_lt {x y : FVal} (hx : x.isNan = false) (hy : y.isNan = false) : fcmpV x y = .lt ↔ rankOf x < rankOf y := by
  match x, y, hx, hy with
  | .inf true, .inf true, _, _ | .inf true, .inf false, _, _ | .inf false, .inf true, _, _ | .inf false, .inf false, _, _ => simp [fcmpV, rankOf]
  | .inf true, .fin n m e, _, _ | .inf false, .fin n m e, _, _ => simp [fcmpV, rankOf]
  | .fin n m e, .inf true, _, _ | .fin n m e, .inf false, _, _ => simp [fcmpV, rankOf]
  | .fin n1 m1 e1, .fin n2 m2 e2, _, _ => simp [rankOf, fcmpV_fin_lt]

theorem rankOf_nan {x : FVal} (h : x.isNan = true) : rankOf x = ⊥ := by
  match x, h with
  | .nan _, _ => rfl

theorem rankOf_pos {x : FVal} (h : x.isNan = false) : ⊥ < rankOf x := by
  match x, h with
  | .inf true, _ | .inf false, _ | .fin n m e, _ => simp [rankOf, ← WithTop.coe_bot]

/-- A value ranks above another where its rank is higher (R233). -/
theorem valueAbove_iff (x y : Nat) : valueAbove x y = true ↔ rankOf (dec32 y) < rankOf (dec32 x) := by
  unfold valueAbove
  cases hx : nan32 x with
  | true => simp [rankOf_nan hx]
  | false =>
    cases hy : nan32 y with
    | true => simp [rankOf_nan hy, rankOf_pos hx]
    | false => simp [lt32, hx, hy, fcmpV_lt hy hx]

theorem valueTied_iff (x y : Nat) : valueTied x y = true ↔ rankOf (dec32 x) = rankOf (dec32 y) := by
  simp only [valueTied, Bool.and_eq_true, Bool.not_eq_true', ← Bool.not_eq_true, valueAbove_iff, not_lt]
  exact le_antisymm_iff.symm

/-! ### Candidates in order -/

/-- A signed id is its pattern. -/
theorem sextNat_inj {x y : Nat} (hx : x < 2 ^ 32) (hy : y < 2 ^ 32) : sextNat x 32 = sextNat y 32 ↔ x = y := by
  rw [sextNat_of_lt hx, sextNat_of_lt hy]
  split <;> split <;> omega

/-- The key by which candidates (value, id, lane) are ranked: the higher value, then the lower signed id, then the lower lane (R233). -/
def rankKey (q : Nat × Nat × Nat) : (WithTop (WithBot (WithBot ℚ)))ᵒᵈ ×ₗ ℤ ×ₗ ℕ :=
  toLex (OrderDual.toDual (rankOf (dec32 q.1)), toLex (sextNat q.2.1 32, q.2.2))

/-- Of candidates with 32-bit ids the one with the lower key ranks first. -/
theorem ranksBefore_iff {x y : Nat × Nat × Nat} (hx : x.2.1 < 2 ^ 32) (hy : y.2.1 < 2 ^ 32) :
    ranksBefore x y = true ↔ rankKey x < rankKey y := by
  simp only [rankKey, Prod.Lex.toLex_lt_toLex, OrderDual.toDual_lt_toDual, EmbeddingLike.apply_eq_iff_eq, sextNat_inj hx hy]
  unfold ranksBefore
  split
  · next ht =>
    rw [valueTied_iff] at ht
    simp only [ht, lt_irrefl, false_or, true_and]
    split
    · next hid => simp [hid]
    · next hid => simp [hid]
  · next ht =>
    rw [valueTied_iff] at ht
    simp [ht, valueAbove_iff]

/-! ### The sort -/

/-- Candidates are sorted by insertion. -/
theorem rankInsert_eq (x : Nat × Nat × Nat) (l : List (Nat × Nat × Nat)) :
    rankInsert x l = l.orderedInsert (fun p q => ranksBefore p q = true) x := by
  induction l with
  | nil => rfl
  | cons y l ih => rw [rankInsert, List.orderedInsert_cons, ih]

theorem rankSort_eq (l : List (Nat × Nat × Nat)) : rankSort l = l.insertionSort (fun p q => ranksBefore p q = true) := by
  induction l with
  | nil => rfl
  | cons x l ih => rw [rankSort, ih, rankInsert_eq, List.insertionSort_cons]

theorem rankSort_perm (l : List (Nat × Nat × Nat)) : (rankSort l).Perm l := rankSort_eq l ▸ List.perm_insertionSort _ l

theorem rankInsert_mem {x q : Nat × Nat × Nat} {l : List (Nat × Nat × Nat)} : q ∈ rankInsert x l ↔ q = x ∨ q ∈ l := by
  rw [rankInsert_eq, List.mem_orderedInsert]

/-- An insertion keeps the order of the keys. -/
theorem rankInsert_sorted {x : Nat × Nat × Nat} {l : List (Nat × Nat × Nat)} (hx : x.2.1 < 2 ^ 32) (hl : ∀ q ∈ l, q.2.1 < 2 ^ 32)
    (h : l.Pairwise (rankKey · ≤ rankKey ·)) : (rankInsert x l).Pairwise (rankKey · ≤ rankKey ·) := by
  induction l with
  | nil => exact List.pairwise_singleton ..
  | cons y l ih =>
    obtain ⟨hy, hrest⟩ := List.pairwise_cons.mp h
    obtain ⟨hyid, hlid⟩ := List.forall_mem_cons.mp hl
    rw [rankInsert]
    split
    · next hb =>
      have hxy : rankKey x ≤ rankKey y := ((ranksBefore_iff hx hyid).mp hb).le
      exact List.pairwise_cons.mpr ⟨List.forall_mem_cons.mpr ⟨hxy, fun q hq => hxy.trans (hy q hq)⟩, h⟩
    · next hb =>
      have hyx : rankKey y ≤ rankKey x := not_lt.mp fun hlt => hb ((ranksBefore_iff hx hyid).mpr hlt)
      refine List.pairwise_cons.mpr ⟨fun q hq => ?_, ih hlid hrest⟩
      obtain rfl | hq := rankInsert_mem.mp hq
      · exact hyx
      · exact hy q hq

theorem rankSort_sorted {l : List (Nat × Nat × Nat)} (hl : ∀ q ∈ l, q.2.1 < 2 ^ 32) : (rankSort l).Pairwise (rankKey · ≤ rankKey ·) := by
  induction l with
  | nil => exact .nil
  | cons x l ih =>
    obtain ⟨hx, hrest⟩ := List.forall_mem_cons.mp hl
    exact rankInsert_sorted hx (fun q hq => hrest q ((rankSort_perm l).mem_iff.mp hq)) (ih hrest)

/-- What the order of the keys says of two candidates (R233). -/
theorem rankKey_le {p q : Nat × Nat × Nat} (hp : p.2.1 < 2 ^ 32) (hq : q.2.1 < 2 ^ 32) (h : rankKey p ≤ rankKey q) :
    valueAbove p.1 q.1 = true ∨ (valueAbove q.1 p.1 = false
      ∧ (sextNat p.2.1 32 < sextNat q.2.1 32 ∨ (p.2.1 = q.2.1 ∧ p.2.2 ≤ q.2.2))) := by
  simp only [rankKey, Prod.Lex.toLex_le_toLex, OrderDual.toDual_lt_toDual, EmbeddingLike.apply_eq_iff_eq, sextNat_inj hp hq] at h
  rw [← Bool.not_eq_true, valueAbove_iff, valueAbove_iff]
  exact h.imp_right fun ⟨heq, hid⟩ => ⟨heq ▸ lt_irrefl _, hid⟩

end Sys2Proof.Proofs
end


section
/-! Lane movement (O56, part 2): permutes and shuffles, running sums and reductions over the enabled lanes, and the top-k vector (R229 to R233). -/
namespace Sys2Proof.Proofs
open Laws
open Machine hiding Wf

/-! ### Sums over lanes (R231, R232) -/

/-- The sum of the lanes of a list with a property. -/
def laneSum (v : Vec) (p : Nat → Bool) (l : List Nat) : Nat := ((l.filter p).map v.lane).sum

@[simp] theorem laneSum_nil (v : Vec) (p : Nat → Bool) : laneSum v p [] = 0 := rfl

@[simp] theorem laneSum_cons (v : Vec) (p : Nat → Bool) (i : Nat) (l : List Nat) :
    laneSum v p (i :: l) = (if p i then v.lane i else 0) + laneSum v p l := by
  unfold laneSum
  rw [List.filter_cons]
  split
  · rw [List.map_cons, List.sum_cons]
  · rw [Nat.zero_add]

theorem laneSum_none {v : Vec} {p : Nat → Bool} {l : List Nat} (h : ∀ i ∈ l, p i = false) : laneSum v p l = 0 := by
  rw [laneSum, List.filter_eq_nil_iff.mpr fun i hi => by simp [h i hi], List.map_nil, List.sum_nil]

/-- The integer sum of R232 is the sum of the enabled lanes in 32 bits. -/
theorem foldl_lIadd (m : Mask) (v : Vec) (l : List Nat) {z : Nat} (hz : z < 2 ^ 32) :
    l.foldl (fun s i => if enabled m i then lIadd s (v.lane i) else s) z = (z + laneSum v (fun i => m.getLsbD i) l) % 2 ^ 32 := by
  induction l generalizing z with
  | nil => exact (Nat.mod_eq_of_lt hz).symm
  | cons i l ih =>
    rw [List.foldl_cons, laneSum_cons, enabled]
    split
    · rw [ih (z := lIadd z (v.lane i)) (Nat.mod_lt _ (by decide)), lIadd, Nat.mod_add_mod, Nat.add_assoc]
    · rw [ih hz, Nat.zero_add]

section prefixes
variable {m : Mask} {v : Vec} {i j : Nat} {l : List Nat}

/-- VPFX passes over a disabled lane (R231). -/
theorem vpfxFrom_skip (hi : m.getLsbD i = false) (fn : Nat) (p : Option Nat) (sum : Nat) :
    vpfxFrom fn m v (i :: l) p sum = vpfxFrom fn m v l p sum := by
  rw [vpfxFrom, enabled, hi, if_neg Bool.false_ne_true]

/-- An enabled lane adds itself to the running sum, and the sum is its result (R231). -/
theorem vpfxFrom_sum_cons (hi : m.getLsbD i = true) (p : Option Nat) (sum : Nat) :
    let q := (p.getD 0 + v.lane i) % 2 ^ 32
    sget 0 (vpfxFrom 2 m v (i :: l) p sum).1 j = if i = j then q else sget 0 (vpfxFrom 2 m v l (some q) sum).1 j := by
  rw [vpfxFrom, enabled, hi]
  cases p with
  | none =>
    rw [Option.getD_none, Nat.zero_add, Nat.mod_eq_of_lt (lane_lt v i)]
    rfl
  | some y => rfl

/-- An enabled lane of the exclusive sum gets the sum before it (R231). -/
theorem vpfxFrom_exclusive_cons (hi : m.getLsbD i = true) (p : Option Nat) (sum : Nat) :
    sget 0 (vpfxFrom 4 m v (i :: l) p sum).1 j
      = if i = j then sum else sget 0 (vpfxFrom 4 m v l p ((sum + v.lane i) % 2 ^ 32)).1 j := by
  rw [vpfxFrom, enabled, hi]
  rfl

/-- A disabled lane of VPFX is zero (R231). -/
theorem vpfxFrom_disabled (fn : Nat) (hm : m.getLsbD j = false) (p : Option Nat) (sum : Nat) : sget 0 (vpfxFrom fn m v l p sum).1 j = 0 := by
  induction l generalizing p sum with
  | nil => rfl
  | cons i l ih =>
    cases hi : m.getLsbD i with
    | false => rw [vpfxFrom_skip hi, ih]
    | true =>
      have hne : i ≠ j := by rintro rfl; exact Bool.false_ne_true (hm.symm.trans hi)
      rw [vpfxFrom, enabled, hi, if_pos rfl]
      split
      · exact (if_neg hne).trans (ih ..)
      · exact (if_neg hne).trans (ih ..)

/-- The running sum of VPFX: the sum before the list, and that of the enabled lanes up to its own (R231). -/
theorem vpfxFrom_sum (hm : m.getLsbD j = true) (hl : l.Pairwise (· < ·)) (hj : j ∈ l) (p : Option Nat) (sum : Nat) :
    sget 0 (vpfxFrom 2 m v l p sum).1 j = (p.getD 0 + laneSum v (fun i => m.getLsbD i && decide (i ≤ j)) l) % 2 ^ 32 := by
  induction l generalizing p with
  | nil => exact absurd hj List.not_mem_nil
  | cons i l ih =>
    obtain ⟨hlt, hrest⟩ := List.pairwise_cons.mp hl
    rw [laneSum_cons]
    obtain rfl | hj := List.mem_cons.mp hj
    · have hnone : laneSum v (fun i => m.getLsbD i && decide (i ≤ j)) l = 0 := laneSum_none fun i h => by simp [hlt i h]
      rw [vpfxFrom_sum_cons hm, if_pos rfl, hnone]
      simp [hm]
    · have hij : i < j := hlt j hj
      cases hi : m.getLsbD i with
      | false => simp [vpfxFrom_skip hi, ih hrest hj]
      | true =>
        rw [vpfxFrom_sum_cons hi, if_neg hij.ne, ih hrest hj, Option.getD_some, Nat.mod_add_mod]
        simp [hij.le, Nat.add_assoc]

/-- The exclusive sum of VPFX: the sum before the list, and that of the enabled lanes below its own (R231). -/
theorem vpfxFrom_exclusive (hm : m.getLsbD j = true) (hl : l.Pairwise (· < ·)) (hj : j ∈ l) (p : Option Nat) {sum : Nat} (hsum : sum < 2 ^ 32) :
    sget 0 (vpfxFrom 4 m v l p sum).1 j = (sum + laneSum v (fun i => m.getLsbD i && decide (i < j)) l) % 2 ^ 32 := by
  induction l generalizing sum with
  | nil => exact absurd hj List.not_mem_nil
  | cons i l ih =>
    obtain ⟨hlt, hrest⟩ := List.pairwise_cons.mp hl
    rw [laneSum_cons]
    obtain rfl | hj := List.mem_cons.mp hj
    · have hnone : laneSum v (fun i => m.getLsbD i && decide (i < j)) l = 0 := laneSum_none fun i h => by simp [(hlt i h).le]
      rw [vpfxFrom_exclusive_cons hm, if_pos rfl, hnone]
      simpa using (Nat.mod_eq_of_lt hsum).symm
    · have hij : i < j := hlt j hj
      cases hi : m.getLsbD i with
      | false => simp [vpfxFrom_skip hi, ih hrest hj hsum]
      | true =>
        rw [vpfxFrom_exclusive_cons hi, if_neg hij.ne, ih hrest hj (Nat.mod_lt _ (by decide)), Nat.mod_add_mod]
        simp [hij, Nat.add_assoc]

end prefixes

/-! ### What the operations post -/

/-- The five patterns of VSHUF that read both sources, by their code (R230). -/
theorem shufLane_code {fn j : Nat} (hfn : fn < 5) (x y : Vec) :
    shufLane fn x y j = nth 0
      [if j % 2 = 0 then x.lane (j / 2) else y.lane (j / 2), if j % 2 = 0 then x.lane (64 + j / 2) else y.lane (64 + j / 2),
       if j < 64 then x.lane (2 * j) else y.lane (2 * j - 128), if j < 64 then x.lane (2 * j + 1) else y.lane (2 * j - 127),
       if j < 64 then x.lane j else y.lane (j - 64)] fn := by
  have hhalf : j % 2 ≠ 0 → (j - 1) / 2 = j / 2 := fun _ => by omega
  have heven : ¬ j < 64 → 2 * (j - 64) = 2 * j - 128 := fun _ => by omega
  have hodd : ¬ j < 64 → 2 * (j - 64) + 1 = 2 * j - 127 := fun _ => by omega
  match fn, hfn with
  | 0, _ => exact ite_congr rfl (fun _ => rfl) fun h => by rw [hhalf h]
  | 1, _ => exact ite_congr rfl (fun _ => rfl) fun h => by rw [hhalf h]
  | 2, _ => exact ite_congr rfl (fun _ => rfl) fun h => by rw [heven h]
  | 3, _ => exact ite_congr rfl (fun _ => rfl) fun h => by rw [hodd h]
  | 4, _ => rfl

/-- The exchange patterns of VSHUF (R230). -/
theorem shufLane_exchange (q j : Nat) (x y : Vec) : shufLane (8 + q) x y j = x.lane (j ^^^ 2 ^ q) := by
  have hcode : shufLane (8 + q) x y j = x.lane (Nat.xor j (2 ^ (8 + q - 8))) := by
    rw [Nat.add_comm]
    rfl
  rw [hcode, Nat.add_sub_cancel_left]
  rfl

/-- A candidate of the top-k vector, or the fill value past their number (R233). -/
theorem nth_topk (best : List (Nat × Nat × Nat)) (j fill : Nat) :
    (nth (fill, fill, 0) best j).1 = (best.map (fun q => q.1)).getD j fill
      ∧ (nth (fill, fill, 0) best j).2.1 = (best.map (fun q => q.2.1)).getD j fill := by
  rw [nth_eq_getD]
  exact ⟨(List.getD_map best (fill, fill, 0) (fun q => q.1)).symm, (List.getD_map best (fill, fill, 0) (fun q => q.2.1)).symm⟩

section posts
variable {c : OpCtx} {d a b fn : Nat} {A B : Src} {ps : List Post}

theorem opVperm_ok (hA : readNonEmpty c a = .ok A) (hB : readAs c b .i32 (enabled (curMask c)) = .ok B)
    (hd : dstPosts c d 3 (Vec.mk' A.v.tag (fun j => A.v.lane (B.v.lane j % 128))) (curMask c) B.fl = .ok ps) :
    opVperm d a b c = .ok (ps ++ A.posts ++ B.posts) := by
  simp only [opVperm, hA, hB, hd, bind, Except.bind]

/-- A shuffle of two sources posts its pattern and their reads (R230). -/
theorem opVshuf_two (hfn : fn < 5) (hA : readNonEmpty c a = .ok A) (hB : readExact c b A.v.tag = .ok B)
    (hd : dstPosts c d 3 (Vec.mk' A.v.tag (shufLane fn A.v B.v)) (curMask c) = .ok ps) :
    opVshuf d a b fn c = .ok (ps ++ A.posts ++ B.posts) := by
  have hform : fn ≤ 4 := Nat.le_of_lt_succ hfn
  simp only [opVshuf, hA, hB, hform, hd, bind, Except.bind, if_true]

/-- An exchange posts its pattern of the one source and its read (R230). -/
theorem opVshuf_exchange {q : Nat} (hA : readNonEmpty c a = .ok A)
    (hd : dstPosts c d 3 (Vec.mk' A.v.tag (fun j => A.v.lane (j ^^^ 2 ^ q))) (curMask c) = .ok ps) :
    opVshuf d a b (8 + q) c = .ok (ps ++ A.posts) := by
  have hform : ¬ 8 + q ≤ 4 := by omega
  have hlanes : shufLane (8 + q) A.v {} = fun j => A.v.lane (j ^^^ 2 ^ q) := funext fun j => shufLane_exchange q j A.v {}
  simp only [opVshuf, hA, hform, hlanes, hd, bind, Except.bind, if_false, List.append_nil]

theorem opVpfx_ok {t : Tag} (ht : t = if fn ≤ 1 then .fp32 else .i32) (hA : readAs c a t (enabled (curMask c)) = .ok A)
    (hd : let r := vpfxFrom fn (curMask c) A.v (List.range 128) none 0
      dstPosts c d 5 (Vec.mk' t (fun j => sget 0 r.1 j)) (curMask c) (r.2 ||| A.fl) = .ok ps) :
    opVpfx d a fn c = .ok (ps ++ A.posts) := by
  subst ht
  simp only [opVpfx, upTo, hA, hd, bind, Except.bind]

theorem opVred_ok (hA : readAs c a (if fn ≤ 2 ∨ fn = 8 then .fp32 else .i32) (enabled (curMask c)) = .ok A)
    (hd : let r := vredValue fn (curMask c) A.v
      dstPosts c d 6 (Vec.mk' (if fn ≤ 2 then .fp32 else .i32) (fun j => if j = 0 then r.1 else 0)) (curMask c) (r.2 ||| A.fl) = .ok ps) :
    opVred d a fn c = .ok (ps ++ A.posts) := by
  simp only [opVred, hA, hd, bind, Except.bind]

/-- The candidates of TOPKP: value, id and lane of each enabled lane (R233). -/
def candidates (m : Mask) (x y : Vec) : List (Nat × Nat × Nat) :=
  (List.range 128).filterMap (fun j => if enabled m j then some (x.lane j, y.lane j, j) else none)

/-- TOPKP posts the ids or the values of the best candidates, with the fill value above (R233). -/
theorem opTopkp_ok {best : List (Nat × Nat × Nat)} (hbest : best = (rankSort (candidates (curMask c) A.v B.v)).take (fn % 16 + 1))
    (hA : readAs c a .fp32 (enabled (curMask c)) = .ok A) (hB : readAs c b .i32 (enabled (curMask c)) = .ok B)
    (hd : dstPosts c d 8 (if 16 ≤ fn then Vec.mk' .i32 (fun j => (best.map (fun q => q.2.1)).getD j 0xFFFFFFFF)
      else Vec.mk' .fp32 (fun j => (best.map (fun q => q.1)).getD j ninf32)) (curMask c) (A.fl ||| B.fl) = .ok ps) :
    opTopkp d a b fn c = .ok (ps ++ A.posts ++ B.posts) := by
  have hsort : (rankSort ((upTo 128).filterMap (fun j => if enabled (curMask c) j then some (A.v.lane j, B.v.lane j, j) else none))).take
      (fn % 16 + 1) = best := hbest.symm
  simp only [opTopkp, hA, hB, hsort, bind, Except.bind]
  by_cases hids : 16 ≤ fn
  · rw [if_pos hids] at hd
    simp only [hids, decide_true, if_true, nth_topk, hd]
  · rw [if_neg hids] at hd
    simp only [hids, decide_false, Bool.false_eq_true, if_false, nth_topk, hd]

end posts

/-- Settles O56: each operation from its posts on each die, the sums over the lanes, and the order of the candidates. -/
theorem laneMovementOperations : Obligations.LaneMovementOperations := by
  unfold Obligations.LaneMovementOperations
  refine ⟨fun s k d a b i A B ps hin h => issueTiles_bundle hin fun e he => ?perm,
    fun s k d a b fn i A B v ps hfn hin h => issueTiles_bundle hin fun e he => ?shuffle,
    fun s k d a b q i A ps _ hin h => issueTiles_bundle hin fun e he => opVshuf_exchange (h e he).1 (h e he).2,
    fun s k d a fn i A ps _ hin h => issueTiles_bundle hin fun e he => opVpfx_ok rfl (h e he).1 (h e he).2,
    fun m v j hj => ⟨fun hm => ?running, fun hm => ?exclusive, fun hm fn => vpfxFrom_disabled fn hm none 0⟩,
    fun s k d a fn i A ps _ hin h => issueTiles_bundle hin fun e he => opVred_ok (h e he).1 (h e he).2,
    fun m v => ?total,
    fun s k d a b fn i A B best ps _ hin h => issueTiles_bundle hin fun e he => ?topk,
    fun l => ⟨rankSort_perm l, (rankSort_perm l).length_eq, fun hl => ?order⟩,
    fun x y => ⟨fun hx => ?below, fun hx hy => ?above, fun hx hy => ?numbers⟩, ?zeros⟩
  case perm =>
    obtain ⟨hA, hB, hd⟩ := h e he
    exact opVperm_ok hA hB hd
  case shuffle =>
    obtain ⟨hA, hB, hv, hd⟩ := h e he
    refine opVshuf_two hfn hA hB ?_
    rw [hv] at hd
    rwa [mk'_congr fun j _ => shufLane_code hfn (A e).v (B e).v]
  case running =>
    have hsum := vpfxFrom_sum (v := v) hm List.pairwise_lt_range (List.mem_range.mpr hj) none 0
    rwa [Option.getD_none, Nat.zero_add] at hsum
  case exclusive =>
    have hsum := vpfxFrom_exclusive (v := v) hm List.pairwise_lt_range (List.mem_range.mpr hj) none (sum := 0) (by decide)
    rwa [Nat.zero_add] at hsum
  case total =>
    have hsum := foldl_lIadd m v (List.range 128) (z := 0) (by decide)
    rwa [Nat.zero_add] at hsum
  case topk =>
    obtain ⟨hbest, hA, hB, hd⟩ := h e he
    exact opTopkp_ok hbest hA hB hd
  case order =>
    have hid : ∀ q ∈ rankSort l, q.2.1 < 2 ^ 32 := fun q hq => (hl q ((rankSort_perm l).mem_iff.mp hq)).2
    exact (rankSort_sorted fun q hq => (hl q hq).2).imp_of_mem fun hp hq hle => rankKey_le (hid _ hp) (hid _ hq) hle
  case below => simp only [valueAbove, hx]
  case above => simp only [valueAbove, hx, hy]
  case numbers => simp only [valueAbove, hx, hy]
  case zeros => decide

end Sys2Proof.Proofs
end

section
/-! The accumulator and the exchange of the planes (O57): what each operation posts, and what its landing leaves alone. -/
namespace Sys2Proof.Proofs
open Laws
open Machine hiding Wf

/-- Reading a map of which only the entries of some keys are kept. -/
theorem sget_filter_keys {β : Type} (d : β) (P : Nat → Bool) (m : SMap β) (k : Nat) :
    sget d (m.filter fun e => P e.1) k = if P k then sget d m k else d := by
  induction m with
  | nil => exact (ite_self d).symm
  | cons e m ih =>
    obtain ⟨j, v⟩ := e
    by_cases hj : j = k
    · subst hj
      cases hP : P j <;> simp [hP, sget, ih]
    · cases hP : P j <;> simp [hP, sget, ih, hj]

/-- Two elements of the accumulator share an index only where they are one (R241). -/
theorem accIndex_inj {b r c b' r' c' : Nat} (hr : r < 192) (hc : c < 256) (hr' : r' < 192) (hc' : c' < 256) :
    accIndex b r c = accIndex b' r' c' ↔ b = b' ∧ r = r' ∧ c = c' := by
  unfold accIndex
  omega

/-- The indices of whole rows are those of their elements (R241, R248). -/
theorem accIndex_rows {b r n b' r' c : Nat} (hn : r + n ≤ 192) (hr' : r' < 192) (hc : c < 256) :
    accIndex b r 0 ≤ accIndex b' r' c ∧ accIndex b' r' c < accIndex b (r + n) 0 ↔ b' = b ∧ r ≤ r' ∧ r' < r + n := by
  unfold accIndex
  omega

theorem accAt_setAcc (t : Tile) {b r c b' r' c' : Nat} (v : Nat) (hr : r < 192) (hc : c < 256) (hr' : r' < 192) (hc' : c' < 256) :
    (t.setAcc b r c v).accAt b' r' c' = if b' = b ∧ r' = r ∧ c' = c then v % 2 ^ 32 else t.accAt b' r' c' := by
  simp only [Tile.accAt, Tile.setAcc, sget_sset, accIndex_inj hr' hc' hr hc]
  split
  · rw [BitVec.toNat_ofNat]
  · rfl

/-- The columns written are those from `c0` on; every other element is left alone (R247). -/
theorem accAt_accSetCols {b r b' r' c : Nat} (hr : r < 192) (hr' : r' < 192) (hc : c < 256) (vals : List Nat) (t : Tile) {c0 : Nat}
    (hlen : c0 + vals.length ≤ 256) : (accSetCols t b r c0 vals).accAt b' r' c =
      if b' = b ∧ r' = r ∧ c0 ≤ c ∧ c < c0 + vals.length then vals.getD (c - c0) 0 % 2 ^ 32 else t.accAt b' r' c := by
  induction vals generalizing t c0 with
  | nil =>
    have hnone : ¬ (c0 ≤ c ∧ c < c0 + 0) := by omega
    simp only [accSetCols, List.length_nil, hnone, and_false, if_false]
  | cons v vs ih =>
    rw [List.length_cons] at hlen
    rw [accSetCols, ih _ (by omega), accAt_setAcc t v hr (by omega) hr' hc, List.length_cons]
    by_cases hrow : b' = b ∧ r' = r
    · obtain ⟨rfl, rfl⟩ := hrow
      simp only [true_and]
      obtain hlt | rfl | hgt := Nat.lt_trichotomy c c0
      · rw [if_neg (by omega), if_neg (by omega), if_neg (by omega)]
      · simp
      · have hsucc : c - c0 = c - (c0 + 1) + 1 := by omega
        rw [hsucc, List.getD_cons_succ, if_neg hgt.ne']
        exact if_congr (by omega) rfl rfl
    · have hother (p : Prop) : ¬ (b' = b ∧ r' = r ∧ p) := fun hp => hrow ⟨hp.1, hp.2.1⟩
      simp only [hother, if_false]

/-- The rows cleared read 0; every other element is left alone (R248). -/
theorem accAt_accClearRows (t : Tile) {b r n b' r' c : Nat} (hn : r + n ≤ 192) (hr' : r' < 192) (hc : c < 256) :
    (accClearRows t b r n).accAt b' r' c = if b' = b ∧ r ≤ r' ∧ r' < r + n then 0 else t.accAt b' r' c := by
  have hread := sget_filter_keys (0 : BitVec 32) (fun j => !(decide (accIndex b r 0 ≤ j) && decide (j < accIndex b (r + n) 0)))
    t.acc (accIndex b' r' c)
  rw [Tile.accAt, accClearRows, hread]
  simp only [← Bool.decide_and, accIndex_rows hn hr' hc]
  by_cases hin : b' = b ∧ r ≤ r' ∧ r' < r + n
  · simp [hin]
  · simp only [hin, decide_false, Bool.not_false, if_true, if_false, Tile.accAt]

/-- The exchange opens the plane that becomes shadow, and quantises the one that becomes live (R246). -/
theorem exchangePlanes_planes (t : Tile) : t.exchangePlanes.1.liveIs1 = !t.liveIs1 ∧ t.exchangePlanes.1.shadowPlane = {}
    ∧ t.exchangePlanes.1.livePlane = t.shadowPlane.quantise.1 ∧ t.exchangePlanes.1.acc = t.acc := by
  cases hlive : t.liveIs1 <;> simp [Tile.exchangePlanes, Tile.shadowPlane, Tile.livePlane, hlive]

section posts
variable {c : OpCtx} {a b d r h : Nat} {A : Src} {ps : List Post}

theorem opAcc_ok (hA : readAs c a .fp32 = .ok A) :
    opAcc a b r h c = .ok ([{ lat := 4, eff := .accAdd b r (128 * h) ((List.range 128).map A.v.lane), fl := A.fl }] ++ A.posts) := by
  simp only [opAcc, upTo, hA, ok_bind]

theorem opAcwr_ok (hA : readAs c a .fp32 = .ok A) :
    opAcwr a b r h c = .ok ([{ lat := 2, eff := .accSet b r (128 * h) ((List.range 128).map A.v.lane), fl := A.fl }] ++ A.posts) := by
  simp only [opAcwr, upTo, hA, ok_bind]

/-- DRAIN posts the half row read at issue, and with CLR the zeros of that half row (R247). -/
theorem opDrain_ok (clr : Nat) (hd : dstPosts c d 4 (halfRow c.t b r h) allOnes = .ok ps) :
    opDrain d b r h clr c
      = .ok (ps ++ if clr = 1 then [{ lat := 0, eff := .accSet b r (128 * h) (List.replicate 128 0) }] else []) := by
  simp only [opDrain, hd, ok_bind, upTo, List.map_const', List.length_range]

theorem opMscl_ok {x side g : Nat} {v : DWord} (hx : rx c x = .ok v) :
    opMscl x side g c = .ok [{ lat := 3, eff := .scalePtr (side = 1) g v true }] := by
  simp only [opMscl, hx, ok_bind]

end posts

/-- Settles O57: each operation from its posts on each die, and the elements of the accumulator that each landing writes. -/
theorem accumulatorOperations : Obligations.AccumulatorOperations := by
  unfold Obligations.AccumulatorOperations
  refine ⟨fun s k a b r h lat i op mk A hop hin hA => ?write, fun s k d b r h i op tail ps hop hin hd => ?read,
    fun s k b r n i hin => issueTiles_bundle hin fun e he => rfl,
    fun s k i hin => issueTiles_bundle hin fun e he => rfl,
    fun s k x side g i v hin hx => issueTiles_bundle hin fun e he => opMscl_ok (hx e he),
    fun t b r c0 vals b' r' c hr hr' hc hlen => accAt_accSetCols hr hr' hc vals t hlen,
    fun t b r n b' r' c hn hr' hc => accAt_accClearRows t hn hr' hc, exchangePlanes_planes⟩
  case write =>
    simp only [List.mem_cons, List.not_mem_nil, or_false, Prod.mk.injEq] at hop
    obtain ⟨rfl, rfl, rfl⟩ | ⟨rfl, rfl, rfl⟩ := hop
    · exact issueTiles_bundle hin fun e he => opAcc_ok (hA e he)
    · exact issueTiles_bundle hin fun e he => opAcwr_ok (hA e he)
  case read =>
    simp only [List.mem_cons, List.not_mem_nil, or_false, Prod.mk.injEq] at hop
    obtain ⟨rfl, rfl⟩ | ⟨rfl, rfl⟩ | ⟨rfl, rfl⟩ := hop
    · exact issueTiles_bundle hin fun e he => (hd e he).trans (congrArg _ (List.append_nil _).symm)
    · exact issueTiles_bundle hin fun e he => opDrain_ok 0 (hd e he)
    · exact issueTiles_bundle hin fun e he => opDrain_ok 1 (hd e he)

end Sys2Proof.Proofs
end

section
/-! The matrix slot (O58): the rows that PUSH and SHIFT read, their scale bytes, and what each posts. -/
namespace Sys2Proof.Proofs
open Laws
open Machine hiding Wf

section posts
variable {c : OpCtx} {a fmt row : Nat} {ps : List Post}

/-- A source that is read as a row carries a tag, which the checks of a TAG_MISMATCH name (R237, R339). -/
theorem carriedTag_readRow {src : RowSrc} (h : readRow c a fmt = .ok (src, ps)) : ∃ t, carriedTag c a = .ok t := by
  unfold readRow at h
  unfold carriedTag
  cases hr : readSel c a with
  | ok r => exact ⟨r.1.tag, rfl⟩
  | error x =>
    rw [hr] at h
    cases h

/-- Scale bytes inside the scratchpad, in open banks, are taken (R238). -/
theorem scaleBytes_ok {p len : Nat} (hin : p + len ≤ 2 ^ 22) (hb : BanksOpen c c.u p len) :
    scaleBytes c p len = .ok ((c.t.spadBytes p len).map BitVec.toNat) := by
  have hrange : ¬ p + len > spadSize := by unfold spadSize; omega
  rw [scaleBytes, if_neg hrange, spadFree_ok hb, ok_bind]

/-- PUSH of a row of float values posts the values, after the opening of an open plane (R244). -/
theorem opPush_float {v : List Nat} (hrow : readRow c a fmt = .ok (.float v, ps)) (hplane : planeFmtMatch c.t.shadowPlane fmt false = true) :
    opPush a fmt row c = .ok ((if c.t.shadowPlane.isOpen then [{ lat := 0, eff := .planeOpenAs (!c.t.liveIs1) fmt false }] else [])
      ++ [{ lat := 2, eff := .pushRow (!c.t.liveIs1) fmt false row [] [] v }] ++ ps) := by
  obtain ⟨t, ht⟩ := carriedTag_readRow hrow
  simp only [opPush, hrow, ht, hplane, check_true, ok_bind]

/-- PUSH of a raw row posts its codes with the scale bytes of its K-block, after the opening of an open plane (R238, R244). -/
theorem opPush_raw {v : List Int} {p : Nat} (hp : p = (sget 0#64 c.t.sb (a - 40)).toNat + row / 16 * matK fmt)
    (hrow : readRow c a fmt = .ok (.raw v, ps)) (hplane : planeFmtMatch c.t.shadowPlane fmt true = true)
    (hin : p + matK fmt ≤ 2 ^ 22) (hb : BanksOpen c c.u p (matK fmt)) :
    opPush a fmt row c = .ok ((if c.t.shadowPlane.isOpen then [{ lat := 0, eff := .planeOpenAs (!c.t.liveIs1) fmt true }] else [])
      ++ [{ lat := 2, eff := .pushRow (!c.t.liveIs1) fmt true row v ((c.t.spadBytes p (matK fmt)).map BitVec.toNat) [] }] ++ ps) := by
  obtain ⟨t, ht⟩ := carriedTag_readRow hrow
  subst hp
  simp only [opPush, hrow, ht, hplane, check_true, scaleBytes_ok hin hb, ok_bind]

/-- The products of the columns of a row with those of a plane (R245). -/
def productColumns (p : SPlane) (fmt : Nat) (blocks : List MxBlock) : List (List Nat × Flags × MxInc) :=
  (List.range (matK fmt)).map fun j => colProducts (matB fmt) blocks (colBlocks p fmt j)

/-- The post of a product row, with the flags and counts of its products joined to those of its blocks (R245). -/
def productPost (bank row h : Nat) (cols : List (List Nat × Flags × MxInc)) (fl : Flags) (mx : MxInc) : Post :=
  { lat := 24, eff := .accProd bank row (128 * h) (cols.map fun r => r.1),
    fl := cols.foldl (fun f r => f ||| r.2.1) fl, mx := cols.foldl (fun m r => m ||| r.2.2) mx }

/-- The blocks to which a row of 48 float values is quantised, quietly (R237, R246). -/
def quantisedRow (v : List Nat) : List (MxBlock × Flags) :=
  (List.range 3).map fun kb => mxQuantise (((v.drop (16 * kb)).take 16).map dec32) 16 true

variable {bank h : Nat}

/-- SHIFT of a raw row posts its products, and its scale pointer past the scale bytes used (R240, R245). -/
theorem opShift_raw {v : List Int} {q : DWord} (hq : q = sget 0#64 c.t.sa (a - 40)) (hrow : readRow c a fmt = .ok (.raw v, ps))
    (hopen : c.t.livePlane.isOpen = false) (hwidth : matB c.t.livePlane.fmt = matB fmt)
    (hin : q.toNat + matK fmt / 16 ≤ 2 ^ 22) (hb : BanksOpen c c.u q.toNat (matK fmt / 16)) :
    opShift a fmt bank row h c = .ok ([productPost bank row h (productColumns c.t.livePlane fmt
        (rawBlocks v ((c.t.spadBytes q.toNat (matK fmt / 16)).map BitVec.toNat))) 0 0,
      { lat := 1, eff := .scalePtr false (a - 40) (q + BitVec.ofNat 64 (matK fmt / 16)) false }] ++ ps) := by
  obtain ⟨t, ht⟩ := carriedTag_readRow hrow
  subst hq
  simp only [opShift, hrow, ht, hopen, hwidth, Bool.not_false, decide_true, Bool.and_self, check_true, scaleBytes_ok hin hb, ok_bind]
  rfl

/-- SHIFT of a row of float values posts the products of its quantised blocks (R237, R245). -/
theorem opShift_float {v : List Nat} (hrow : readRow c a fmt = .ok (.float v, ps))
    (hopen : c.t.livePlane.isOpen = false) (hwidth : matB c.t.livePlane.fmt = matB fmt) :
    opShift a fmt bank row h c = .ok ([productPost bank row h (productColumns c.t.livePlane fmt ((quantisedRow v).map fun r => r.1))
      ((quantisedRow v).foldl (fun f r => f ||| r.2) 0) ((quantisedRow v).foldl (fun m r => m ||| mxQuantInc r.2) 0)] ++ ps) := by
  obtain ⟨t, ht⟩ := carriedTag_readRow hrow
  simp only [opShift, hrow, ht, hopen, hwidth, Bool.not_false, decide_true, Bool.and_self, check_true, ok_bind]
  rfl

end posts

/-- Settles O58: each word from its posts on each die, for a raw row and for a row of float values. -/
theorem matrixOperations : Obligations.MatrixOperations := by
  unfold Obligations.MatrixOperations
  refine ⟨fun s k a fmt row i v ps hin h => issueTiles_bundle hin fun e he => opPush_float (h e he).1 (h e he).2,
    fun s k a fmt row i v ps hin h => issueTiles_bundle hin fun e he => ?push,
    fun s k a fmt bank row h i v ps hin hs => issueTiles_bundle hin fun e he => ?shiftRaw,
    fun s k a fmt bank row h i v ps hin hs => issueTiles_bundle hin fun e he => ?shiftFloat⟩
  case push =>
    obtain ⟨hrow, hplane, hlast, hb⟩ := h e he
    exact opPush_raw rfl hrow hplane hlast hb
  case shiftRaw =>
    obtain ⟨hrow, hopen, hwidth, hlast, hb⟩ := hs e he
    exact opShift_raw rfl hrow hopen hwidth hlast hb
  case shiftFloat =>
    obtain ⟨hrow, hopen, hwidth⟩ := hs e he
    exact opShift_float hrow hopen hwidth

end Sys2Proof.Proofs
end

section
/-! The words that wait or order (O11): WAITM, the barrier words, ACQ, REL and FENCE at issue; and what a slot does of which every die
raises, or of which one die holds the core. -/
namespace Sys2Proof.Proofs
open Laws
open Machine hiding Wf

section stops
variable {s : State} {k sl n : Nat} {single : Bool} {op : OpCtx → Res (List Post)}

/-- Where every die of a slot raises one cause, the word has these traps and nothing else (R342). -/
theorem runOn_raises {c re a : Nat} (dies : List Nat)
    (h : ∀ d ∈ dies, op { s := s, u := unitOf k d, slot := sl, n := n, single := single } = .error (.trap c re a)) :
    runOn s k sl n single op dies = { traps := dies.map (fun d => (d, c, re, a)) } := by
  induction dies using List.reverseRecOn with
  | nil => rfl
  | append_singleton ds d ih =>
    have hds := ih fun e he => h e (List.mem_append_left _ he)
    have hlast : runOn s k sl n single op (ds ++ [d]) = _ := List.foldl_append ..
    rw [hlast]
    show List.foldl _ (runOn s k sl n single op ds) [d] = _
    simp only [List.foldl_cons, List.foldl_nil, hds, h d (by simp), List.map_append, List.map_cons, List.map_nil]

/-- A slot whose word raises one cause on every die it issues on takes the trap of that cause on these dies (R342). -/
theorem issueWith_raises {i : Issue} {upd : Upd} {aft aftC : After} {c re a : Nat} (hin : InSlot s k sl i) (hne : i.dies sl ≠ [])
    (h : ∀ d ∈ i.dies sl, op (look s k sl d) = .error (.trap c re a)) :
    issueWith s sl op upd aft aftC = .next (trapOf s k sl (nth 0 i.words sl) ((i.dies sl).map (fun e => (e, c, re, a)))) := by
  have hr : runOn s k sl (s.core k).bn false op (i.dies sl) = { traps := (i.dies sl).map (fun d => (d, c, re, a)) } :=
    runOn_raises (i.dies sl) h
  simp [issueWith, hin.turn, hin.normal, hin.issue, hin.branched, hin.slot, hr, hne]

/-- A word whose dies answer or hold the core asks for no bank; where one of its dies holds, it waits and holds the core (R156). -/
theorem runOn_holds {dies : List Nat} (h : ∀ c, (∃ ps, op c = .ok ps) ∨ op c = .error .hold) :
    let r := runOn s k sl n single op dies
    r.asks = [] ∧ ((∃ e ∈ dies, op { s := s, u := unitOf k e, slot := sl, n := n, single := single } = .error .hold) →
      r.wait = true ∧ r.held = true) := by
  induction dies using List.reverseRecOn with
  | nil => exact ⟨rfl, fun ⟨e, he, _⟩ => absurd he List.not_mem_nil⟩
  | append_singleton es d ih =>
    obtain ⟨hasks, hheld⟩ := ih
    have hlast : runOn s k sl n single op (es ++ [d]) = _ := List.foldl_append ..
    rw [hlast]
    obtain ⟨ps, hd⟩ | hd := h { s := s, u := unitOf k d, slot := sl, n := n, single := single }
    · simp only [List.foldl_cons, List.foldl_nil, hd]
      refine ⟨hasks, fun ⟨e, he, hop⟩ => hheld ⟨e, ?_, hop⟩⟩
      obtain hes | rfl := List.mem_append.mp he |>.imp_right List.mem_singleton.mp
      · exact hes
      · simp [hd] at hop
    · simp only [List.foldl_cons, List.foldl_nil, hd]
      exact ⟨hasks, fun _ => ⟨trivial, trivial⟩⟩

/-- A core none of whose results is pending has none that can arrive (R176). -/
theorem no_arrival (h : ∀ e ∈ (s.core k).inflight, e.pend = false) : (s.core k).inflight.any (canArrive s) = false := by
  simp only [List.any_eq_false, Bool.not_eq_true]
  intro e he
  rw [canArrive, h e he, Bool.false_and]

/-- A slot of which a die holds the core leaves the core stalled, where no result can arrive (R156). -/
theorem issueWith_holds {i : Issue} {e : Nat} {upd : Upd} {aft aftC : After} (hin : InSlot s k sl i)
    (h : ∀ c, (∃ ps, op c = .ok ps) ∨ op c = .error .hold) (he : e ∈ i.dies sl) (hw : op (look s k sl e) = .error .hold) :
    issueWith s sl op upd aft aftC = .next (s.setCore k { s.core k with st := .stalled }) := by
  obtain ⟨hasks, hheld⟩ := runOn_holds (s := s) (k := k) (sl := sl) (n := (s.core k).bn) (single := false) (dies := i.dies sl) h
  obtain ⟨hwait, hheld⟩ := hheld ⟨e, he, hw⟩
  simp [issueWith, hin.turn, hin.normal, hin.issue, hin.branched, hin.slot, hwait, hheld, hasks, slotWaits, joinBanks, no_arrival hin.quiet]

end stops

section answers
variable {c : OpCtx}

theorem opWaitm_ok {x y : Nat} {v w : DWord} {pa : Nat} {nc : Bool} {ps : List Post} (hx : rx c x = .ok v) (hy : rx c y = .ok w)
    (hacc : accessCheck c (v.toNat / 64 * 64) 1 1 0 = .ok (pa, nc, ps)) (hload : loadLeft c = false) :
    opWaitm x y c = .ok ({ lat := 0, eff := .waitm pa w.toNat } :: ps) := by
  simp only [opWaitm, hx, hy, hacc, ok_bind, hload, Bool.false_eq_true, if_false]

/-- BARV arrives or holds its core (R317). -/
theorem opBarv_cases (scope bid : Nat) (c : OpCtx) : (∃ ps, opBarv scope bid c = .ok ps) ∨ opBarv scope bid c = .error .hold := by
  unfold opBarv
  split
  · exact .inr rfl
  · exact .inl ⟨_, rfl⟩

theorem opBarw_ok {scope bid : Nat} (h : (lastPh c.t scope bid).isSome = true) : opBarw scope bid c = .ok [] := by
  rw [opBarw, h, check_true, ok_bind]

theorem opBart_ok {scope bid pd : Nat} (h : (lastPh c.t scope bid).isSome = true) :
    opBart scope bid pd c = .ok [{ lat := 1, eff := .pred pd (phaseSeen c.s c.u scope bid) }] := by
  rw [opBart, h, check_true, ok_bind, predPost]

theorem opBarw_raises {scope bid : Nat} (h : lastPh c.t scope bid = none) : opBarw scope bid c = .error (.trap cILLEGAL 0 0) := by
  rw [opBarw, h]; rfl

theorem opBart_raises {scope bid pd : Nat} (h : lastPh c.t scope bid = none) : opBart scope bid pd c = .error (.trap cILLEGAL 0 0) := by
  rw [opBart, h]; rfl

theorem opSync_ok {kind scope x pa : Nat} {ps : List Post} (h : syncCheck c x (if kind = 1 then 1 else 0) = .ok (pa, ps))
    (hs : c.single = false) : opSync kind scope x c = .ok ps := by
  simp [opSync, h, ok_bind, hs]

theorem syncCheck_word {x kind : Nat} {v : DWord} {pa : Nat} {nc : Bool} {ps : List Post} (hx0 : x ≠ 0) (hx : rx c x = .ok v)
    (hacc : accessCheck c v.toNat 1 64 kind = .ok (pa, nc, ps)) : syncCheck c x kind = .ok (pa + 1, ps) := by
  simp only [syncCheck, if_neg hx0, hx, hacc, ok_bind]

end answers

/-- ACQ, REL and FENCE hold the core after their bundle, with the sync words that their dies name (R310). -/
theorem syncOp_bundle {s : State} {k kind scope x : Nat} {i : Issue} {pa : Nat → Nat} {ps : Nat → List Post} (hin : InSlot s k 1 i)
    (hne : i.dies 1 ≠ []) (h : ∀ e ∈ i.dies 1, syncCheck (look s k 1 e) x (if kind = 1 then 1 else 0) = .ok (pa e, ps e)) :
    syncOp kind scope x s = .next (issuedBy s k 1 i (resultsOf s k 1 i ps)
      (fun j => { j with after := j.after ++ [.sync kind scope ((i.dies 1).map (fun e => (e, pa e)))] })) := by
  have hwords : syncWords s k (s.core k).bn false x (if kind = 1 then 1 else 0) (i.dies 1) = (i.dies 1).map (fun e => (e, pa e)) :=
    List.map_congr_left fun e he => by
      show (e, match syncCheck (look s k 1 e) x (if kind = 1 then 1 else 0) with
        | .ok (p, _) => p
        | .error _ => 0) = _
      rw [h e he]
  rw [syncOp, issueWith_bundle hin fun d hd => opSync_ok (h d hd) rfl]
  simp [hne, hwords]

/-- Settles O11: each word from what it answers on each die. -/
theorem waitsAndBarriers : Obligations.WaitsAndBarriers := by
  unfold Obligations.WaitsAndBarriers
  refine ⟨fun s k x y i v w pa nc ps hin hne h => ?waitm, fun s k scope bid i hin h => ?arrives, fun s k scope bid e i hin he h => ?arrived,
    fun s k scope bid p i hin hne h => ⟨?barw, ?bart⟩, fun s k scope bid p i hin hne h => ⟨?barwEarly, ?bartEarly⟩,
    fun s k scope x kind i op pa ps hop hin hne h => ?sync, fun s k scope i hin hne => ?fence,
    fun c x kind v pa nc ps hx0 hx hacc => syncCheck_word hx0 hx hacc, fun c kind => rfl⟩
  case waitm =>
    have hop : ∀ e ∈ i.dies 0, opWaitm x y (look s k 0 e) = .ok ({ lat := 0, eff := .waitm (pa e) (w e).toNat } :: ps e) := fun e he =>
      let ⟨hx, hy, hacc, hload⟩ := h e he
      opWaitm_ok hx hy hacc hload
    show execWaitm x y s = _
    rw [execWaitm, issueWith_bundle hin hop]
    simp [hne]
  case arrives =>
    show execBarv scope bid s = _
    rw [execBarv, issueWith_bundle hin fun e he => if_neg (h e he)]
  case arrived =>
    show execBarv scope bid s = _
    rw [execBarv, issueWith_holds hin (opBarv_cases scope bid) he (if_pos h)]
  case barw =>
    show execBarw scope bid s = _
    rw [execBarw, issueWith_plain hin fun e he => opBarw_ok (h e he)]
    simp [hne]
  case bart =>
    show execBart scope bid p s = _
    rw [execBart, issueTiles_bundle hin fun e he => opBart_ok (h e he)]
    simp only [Bool.decide_and]
    rfl
  case barwEarly =>
    show execBarw scope bid s = _
    rw [execBarw, issueWith_raises hin hne fun e he => opBarw_raises (h e he)]
  case bartEarly =>
    show execBart scope bid p s = _
    rw [execBart, issueTiles, issueWith_raises hin hne fun e he => opBart_raises (h e he)]
  case sync =>
    simp only [List.mem_cons, List.not_mem_nil, or_false, Prod.mk.injEq] at hop
    obtain ⟨rfl, rfl⟩ | ⟨rfl, rfl⟩ := hop
    · exact syncOp_bundle hin hne h
    · exact syncOp_bundle hin hne h
  case fence =>
    have hissue := syncOp_bundle (kind := 2) (scope := scope) (x := 0) (pa := fun _ => 0) (ps := fun _ => []) hin hne fun e _ => rfl
    have hnone : resultsOf s k 1 i (fun _ => []) = [] := by simp [resultsOf, onePop]
    rw [hnone] at hissue
    exact hissue

end Sys2Proof.Proofs
end

section
/-! TRDY and COMMIT (O8): what they answer in a loop kernel and in another, and the arrival of a TRDY. -/
namespace Sys2Proof.Proofs
open Laws
open Machine hiding Wf

theorem loopHere_ok {s : State} {k sl d : Nat} {l : LoopRec} (hk : k < 64) (hd : d < 4) (h : (s.groupOf k).loop = some l) :
    loopHere (look s k sl d) = .ok l := by
  have hgroup : ((look s k sl d).s.groupOf (look s k sl d).k).loop = some l := by rwa [look_k hd]
  simp [loopHere, hgroup, look_colt hk hd]

theorem loopHere_raises {s : State} {k sl d : Nat} (hd : d < 4) (h : (s.groupOf k).loop = none) :
    loopHere (look s k sl d) = .error (.trap cILLEGAL 0 0) := by
  have hgroup : ((look s k sl d).s.groupOf (look s k sl d).k).loop = none := by rwa [look_k hd]
  simp [loopHere, hgroup, raise]

theorem raised_bind {α β : Type} (e : Stop) (f : α → Res β) : ((.error e : Res α) >>= f) = .error e := rfl

theorem opTrdy_ok {c : OpCtx} {d x : Nat} {l : LoopRec} {v : DWord} (hl : loopHere c = .ok l) (hx : rx c x = .ok v) (hv : v.toNat ≤ 255) :
    opTrdy d x c = .ok (if (laneRec l v.toNat).isNone then [{ lat := 2, eff := .pred d false, inter := true }]
      else [{ lat := 2, eff := .predPending d (1 + v.toNat), inter := true, pend := true }]) := by
  simp only [opTrdy, hl, hx, ok_bind, decide_eq_true hv, check_true]
  split <;> rfl

theorem opTrdy_raises {c : OpCtx} {d x : Nat} {e : Stop} (hl : loopHere c = .error e) : opTrdy d x c = .error e := by
  rw [opTrdy, hl, raised_bind]

theorem opCommit_ok {c : OpCtx} {l : LoopRec} (hl : loopHere c = .ok l) : opCommit c = .ok [] := by
  rw [opCommit, hl, ok_bind]

theorem opCommit_raises {c : OpCtx} {e : Stop} (hl : loopHere c = .error e) : opCommit c = .error e := by
  rw [opCommit, hl, raised_bind]

/-- A TRDY that is pending arrives where the READY bit of its lane is set (R372). -/
theorem canArrive_trdy {s : State} {e : Entry} {p j : Nat} {l : LoopRec} (hp : e.pend = true) (he : e.eff = .predPending p (1 + j))
    (hl : (s.groupOf (e.unit / 4)).loop = some l) (hready : laneReady s (s.groupOf (e.unit / 4)).cid l j = true) : canArrive s e = true := by
  have hsrc : ¬ 1 + j = 0 := by omega
  simp only [canArrive, hp, he, if_neg hsrc, hl, Nat.add_sub_cancel_left, hready, Bool.and_self]

/-- Its arrival acquires at package scope and settles the entry (R304, R372). -/
theorem arriveOne_trdy {s : State} {k p j : Nat} {e : Entry} {l : LoopRec} (hmem : e ∈ (s.core k).inflight) (he : e.eff = .predPending p (1 + j))
    (hcan : canArrive s e = true) (hl : (s.groupOf k).loop = some l) :
    arriveOne s k e = (acquireAt s e.unit 4).modCore k (fun c => { c with inflight := c.inflight.map (fun x => if x = e then
      { x with eff := .pred p (decide (seqGet s (s.groupOf k).cid (seqAddr l (nth 65535 l.lanes j) 216) 1 % 4 = 0)), pend := false } else x) }) := by
  have hsrc : ¬ 1 + j = 0 := by omega
  have hin : (s.core k).inflight.contains e = true := by simpa using hmem
  simp only [arriveOne, hcan, hin, Bool.and_self, Bool.not_true, Bool.false_eq_true, if_false, he, if_neg hsrc, hl, Nat.add_sub_cancel_left]

/-- Settles O8: TRDY and COMMIT by whether the kernel has a loop, and the arrival of a TRDY. -/
theorem loopKernelWords : Obligations.LoopKernelWords := by
  unfold Obligations.LoopKernelWords
  refine ⟨fun s k d x i l v hin hl h => ?trdy, fun s k i l hin hl => ?commit, fun s k d x i hin hl hne => ⟨?trdyOrdinary, ?commitOrdinary⟩,
    fun s k p j e l hmem hp he hunit hl hready => ?arrives⟩
  case trdy =>
    show execTrdy d x s = _
    rw [execTrdy, issueTiles_bundle hin fun e he => opTrdy_ok (loopHere_ok hin.core (dies_lt he) hl) (h e he).1 (h e he).2]
  case commit =>
    show execCommit s = _
    rw [execCommit, issueWith_plain hin fun e he => opCommit_ok (loopHere_ok hin.core (dies_lt he) hl)]
  case trdyOrdinary =>
    show execTrdy d x s = _
    rw [execTrdy, issueTiles, issueWith_raises hin hne fun e he => opTrdy_raises (loopHere_raises (dies_lt he) hl)]
  case commitOrdinary =>
    show execCommit s = _
    rw [execCommit, issueWith_raises hin hne fun e he => opCommit_raises (loopHere_raises (dies_lt he) hl)]
  case arrives =>
    have hcan : canArrive s e = true := by
      rw [← hunit] at hl hready
      exact canArrive_trdy hp he hl hready
    dsimp only
    rw [arriveOne_trdy hmem he hcan hl, modCore_eq, memOnly_core (memOnly_acquireAt s e.unit 4)]
    exact ⟨by simp [State.core, State.setCore], rfl⟩

end Sys2Proof.Proofs
end

section
/-! The commands that name a range of memory (O3): what AMO, the cache commands and the Mule commands check, and what they post. -/
namespace Sys2Proof.Proofs
open Laws
open Machine hiding Wf

section answers
variable {c : OpCtx} {node x fn da : Nat} {D : List Byte} {xl : List (Nat × Nat)} {ins : Instr}

/-- A check that does not raise: the rest `k` of the word goes on. -/
theorem pass_bind {α : Type} {p : Prop} [Decidable p] {r : Res Unit} {k : Unit → Res α} (h : ¬ p) : (if p then r >>= k else k ()) = k () := if_neg h

/-- What AMO checks of its operand and of its address (R286, R287, R291). -/
structure AmoChecks (c : OpCtx) (fn : Nat) (D : List Byte) (xl : List (Nat × Nat)) : Prop where
  header : headerOk D false = true
  operandAligned : 8 ∣ dfield D 24 4
  operand : dfield D 24 4 + 24 ≤ 2 ^ 22
  operandBanks : banksCover (dBANKS D) (dfield D 24 4) 24 = .ok ()
  inSpace : dfield D 16 8 < 2 ^ 56
  aligned : (if fn.testBit 4 then 4 else 8) ∣ dfield D 16 8
  xlated : xlateRange c (dfield D 16 8) (if fn.testBit 4 then 4 else 8) (if fn % 16 = 11 then 6 else 5) = .ok xl

theorem opAmo_ok (ho : Opens c node x D da) (h : AmoChecks c fn D xl) :
    opAmo ins node x fn c = .ok (postNode node { instr := ins, desc := D, xlate := xl, cid := c.s.cidOf c.u }
      ++ leasePosts c (if fn % 16 = 11 then 6 else 5) xl) := by
  simp only [opAmo, openDesc_ok ho, ok_bind, bitOf_eq_testBit, h.header, Nat.mod_eq_zero_of_dvd h.operandAligned, spadRange_ok h.operand,
    h.operandBanks, pass_bind (Nat.not_le.mpr h.inSpace), Nat.mod_eq_zero_of_dvd h.aligned, decide_true, check_true, h.xlated]

theorem opCache_range_ok (ho : Opens c node x D da) (hh : headerOk D false = true) (h1 : 1 ≤ dfield D 24 4) (hmax : dfield D 24 4 ≤ 2 ^ 31)
    (hx : xlateRange c (dfield D 16 8) (dfield D 24 4) 0 = .ok xl) :
    opCache ins false node x c = .ok (postNode node { instr := ins, desc := D, xlate := xl, cid := c.s.cidOf c.u } ++ leasePosts c 0 xl) := by
  simp only [opCache, openDesc_ok ho, ok_bind, hh, h1, hmax, decide_true, Bool.and_self, check_true, Bool.false_eq_true, if_false, hx]

theorem opCache_pref_ok (ho : Opens c node x D da) (hh : headerOk D false = true) (h1 : 1 ≤ dfield D 24 4) (hmax : dfield D 24 4 ≤ 2 ^ 31) :
    opCache ins true node x c = .ok (postNode node
      { instr := ins, desc := D, xlate := granulesMapped c (dfield D 16 8) (dfield D 24 4), cid := c.s.cidOf c.u }
      ++ leasePosts c 0 (granulesMapped c (dfield D 16 8) (dfield D 24 4))) := by
  simp only [opCache, openDesc_ok ho, ok_bind, hh, h1, hmax, decide_true, Bool.and_self, check_true, if_true]

/-- What a Mule command checks of its slots and of its range (R278). -/
structure MuleChecks (c : OpCtx) (fill : Bool) (D : List Byte) (xl : List (Nat × Nat)) : Prop where
  header : headerOk D false = true
  slots : dfield D 24 1 + dfield D 25 1 ≤ 63
  inSpace : dfield D 16 8 + 32768 * (dfield D 25 1 + 1) ≤ 2 ^ 56
  aligned : 512 ∣ dfield D 16 8
  xlated : xlateRange c (dfield D 16 8) (32768 * (dfield D 25 1 + 1)) (if fill then 3 else 4) = .ok xl

theorem opMule_ok {fill : Bool} (ho : Opens c node x D da) (h : MuleChecks c fill D xl) :
    opMule ins fill node x c = .ok (postNode node { instr := ins, desc := D, xlate := xl, cid := c.s.cidOf c.u }
      ++ leasePosts c (if fill then 3 else 4) xl) := by
  simp only [opMule, openDesc_ok ho, ok_bind, h.header, h.slots, decide_true, Bool.and_self, check_true, pass_bind (Nat.not_lt.mpr h.inSpace),
    Nat.mod_eq_zero_of_dvd h.aligned, h.xlated]

end answers

theorem exec_cacheForms {s : State} {node x : Nat} :
    ∀ op ∈ ([.rgwb node x, .rginv node x] : List Instr), exec op s = issueTiles s 6 (opCache op false node x) := by
  simp only [List.forall_mem_cons]
  exact ⟨rfl, rfl, List.forall_mem_nil _⟩

/-- The Mule commands, with the access that each makes of memory (R278). -/
theorem exec_muleForms {s : State} {node x : Nat} :
    ∀ e ∈ ([(.zspl node x, 4), (.zsplCopy node x, 4), (.zfil node x, 3)] : List (Instr × Nat)),
      ∃ fill : Bool, e.2 = (if fill then 3 else 4) ∧ exec e.1 s = issueTiles s 6 (opMule e.1 fill node x) := by
  simp only [List.forall_mem_cons]
  exact ⟨⟨false, rfl, rfl⟩, ⟨false, rfl, rfl⟩, ⟨true, rfl, rfl⟩, List.forall_mem_nil _⟩

/-- Settles O3: each command posts once its checks hold, and they hold by the statement's hypotheses. -/
theorem addressCommands : Obligations.AddressCommands := by
  unfold Obligations.AddressCommands
  refine ⟨fun s k node x fn i D da xl hin h => issueTiles_bundle hin fun e he => ?amo,
    fun s k node x i op D da xl hform hin h => (exec_cacheForms op hform).trans (issueTiles_bundle hin fun e he => ?cache),
    fun s k node x fn i D da hin h => issueTiles_bundle hin fun e he => ?pref,
    fun s k node x kind i op D da xl hform hin h =>
      let ⟨fill, hkind, hexec⟩ := exec_muleForms (s := s) (op, kind) hform
      hexec.trans (issueTiles_bundle hin fun e he => ?mule)⟩
  case amo =>
    obtain ⟨hopen, hh, hba, hb, hbb, ha, hal, hx⟩ := h e he
    have hop := opAmo_ok (ins := .amo node x fn) hopen ⟨hh, hba, hb, hbb, ha, hal, hx⟩
    rwa [look_cid hin.core (dies_lt he)] at hop
  case cache =>
    obtain ⟨hopen, hh, h1, hmax, hx⟩ := h e he
    have hop := opCache_range_ok (ins := op) hopen hh h1 hmax hx
    rwa [look_cid hin.core (dies_lt he)] at hop
  case pref =>
    obtain ⟨hopen, hh, h1, hmax⟩ := h e he
    have hop := opCache_pref_ok (ins := .pref node x fn) hopen hh h1 hmax
    rwa [look_cid hin.core (dies_lt he)] at hop
  case mule =>
    obtain ⟨hopen, hh, hz, hr, ha, hx⟩ := h e he
    subst hkind
    have hop := opMule_ok (ins := op) hopen ⟨hh, hz, hr, ha, hx⟩
    rwa [look_cid hin.core (dies_lt he)] at hop

end Sys2Proof.Proofs
end

section
/-! The Bench and the remote accesses (O6): what BTX, BSEL, RLD, RST and XWT answer. -/
namespace Sys2Proof.Proofs
open Laws
open Machine hiding Wf

/-- The Bench delay as a distance (R294). -/
theorem benchDelay_eq (k t : Nat) : benchDelay k t = 4 + ((k : Int) / 8 - t / 8).natAbs + ((k : Int) % 8 - t % 8).natAbs := by
  unfold benchDelay
  dsimp only
  split <;> split <;> omega

section answers
variable {c : OpCtx}

theorem opBtx_ok {a tile n : Nat} {A : Src} (hf : c.core.benchFrom = some n) (hA : readNonEmpty c a = .ok A) :
    opBtx a tile c = .ok ({ lat := 0, eff := .benchSend (64 * tile + c.k) A.v (benchDelay c.k tile) } :: A.posts) := by
  simp only [opBtx, hf, Option.isSome_some, check_true, ok_bind, hA]

theorem opBsel_ok {d tile n : Nat} {v : Vec} {ps : List Post} (hf : c.core.benchFrom = some n) (hv : sget none c.t.bench tile = some v)
    (hd : dstPosts c d 1 v allOnes = .ok ps) : opBsel d tile c = .ok ps := by
  simp only [opBsel, hf, Option.isSome_some, check_true, ok_bind, hv, hd]

theorem opBtx_raises {a tile : Nat} (hf : c.core.benchFrom = none) : opBtx a tile c = raise cILLEGAL 0 := by
  rw [opBtx, hf]; rfl

theorem opBsel_raises {d tile : Nat} (hf : c.core.benchFrom = none) : opBsel d tile c = raise cILLEGAL 0 := by
  rw [opBsel, hf]; rfl

theorem podDevice_bits (n : Nat) : bitsOf n 61 53 = n / 2 ^ 53 % 2 ^ 9 := rfl
theorem remoteOffset_bits (n : Nat) : bitsOf n 52 0 = n % 2 ^ 53 := by rw [bitsOf, pow_zero, Nat.div_one]

/-- A destination that is no walker takes one result (R37). -/
theorem dstPosts_register {d lat : Nat} {v : Vec} {en : Mask} {fl : Flags} {inter : Bool} (h : d < 40 ∨ 48 ≤ d) :
    dstPosts c d lat v en fl inter = .ok [{ lat := lat, eff := .vec d v en, fl := fl, inter := inter }] := by
  have hreg : ¬ (40 ≤ d ∧ d < 48) := by omega
  simp only [dstPosts, if_neg hreg]

/-- RLD answers where its destination does (R417). -/
theorem opRld_answers {d x : Nat} {ra : DWord} {ps : List Post} (hra : remoteCheck c x = .ok ra) (hq : linkFull c = false)
    (hd : dstPosts c d 64 { tag := Tag.ofCode (c.t.ldt + 1) } allOnes 0 true = .ok ps) : ∃ qs, opRld d x c = .ok qs := by
  simp only [opRld, hra, ok_bind, hq, Bool.false_eq_true, if_false, hd]
  exact ⟨_, rfl⟩

theorem opRld_register {d x : Nat} {ra : DWord} (hd : d < 40 ∨ 48 ≤ d) (hra : remoteCheck c x = .ok ra) (hq : linkFull c = false) :
    opRld d x c = .ok [{ lat := 64, eff := .remote d 0 (Tag.ofCode (c.t.ldt + 1)) 0 false 0 false, inter := true, pend := true },
      { lat := 0, eff := .rldPost ra }] := by
  simp only [opRld, hra, ok_bind, hq, Bool.false_eq_true, if_false, dstPosts_register hd]
  rfl

theorem opRst_ok {a x : Nat} {ra : DWord} {A : Src} (hra : remoteCheck c x = .ok ra) (hA : readNonEmpty c a = .ok A) (hq : linkFull c = false) :
    opRst a x c = .ok ({ lat := 1, eff := .rstPost ra ((List.range (remoteSize ra.toNat)).map (fun j =>
      BitVec.ofNat 8 (A.v.lane (j / 4) / 256 ^ (j % 4)))) } :: A.posts) := by
  simp only [opRst, hra, ok_bind, hq, Bool.false_eq_true, if_false, hA, upTo]

theorem opXwt_ok {n : Nat} (h : c.single = false) : opXwt n c = .ok [] := by simp [opXwt, h]

section remote
variable {x : Nat} {v : DWord} (hx : rx c x = .ok v)
include hx

theorem remoteCheck_far (h : c.s.podDevices ≤ v.toNat / 2 ^ 53 % 2 ^ 9) : remoteCheck c x = raiseR cACCESS 6 v.toNat := by
  rw [remoteCheck, hx, ok_bind, podDevice_bits, if_pos h]

theorem remoteCheck_misaligned (h : v.toNat / 2 ^ 53 % 2 ^ 9 < c.s.podDevices) (ha : ¬ remoteSize v.toNat ∣ v.toNat % 2 ^ 53) :
    remoteCheck c x = raise cMISALIGN v.toNat := by
  have hrest : v.toNat % 2 ^ 53 % remoteSize v.toNat ≠ 0 := fun h0 => ha (Nat.dvd_of_mod_eq_zero h0)
  simp only [remoteCheck, hx, ok_bind, podDevice_bits, if_neg (Nat.not_le.mpr h), remoteOffset_bits, if_pos hrest]

theorem remoteCheck_ok (h : v.toNat / 2 ^ 53 % 2 ^ 9 < c.s.podDevices) (ha : remoteSize v.toNat ∣ v.toNat % 2 ^ 53) :
    remoteCheck c x = .ok v := by
  have hrest : ¬ v.toNat % 2 ^ 53 % remoteSize v.toNat ≠ 0 := not_not.mpr (Nat.mod_eq_zero_of_dvd ha)
  simp only [remoteCheck, hx, ok_bind, podDevice_bits, if_neg (Nat.not_le.mpr h), remoteOffset_bits, if_neg hrest]

end remote

end answers

/-- What a slot that answers on every die it issues on leaves of memory and of the tiles. -/
theorem issueTiles_frame {s : State} {k sl : Nat} {i : Issue} {op : OpCtx → Res (List Post)} (hin : InSlot s k sl i)
    (h : ∀ e ∈ i.dies sl, ∃ ps, op (look s k sl e) = .ok ps) : ∃ t, issueTiles s sl op = .next t ∧ t.mem = s.mem ∧ t.tiles = s.tiles := by
  choose! ps hps using h
  exact ⟨_, issueTiles_bundle hin hps, rfl, rfl⟩

/-- Settles O6: each word from what it answers on each die. -/
theorem benchAndRemoteOperations : Obligations.BenchAndRemoteOperations := by
  unfold Obligations.BenchAndRemoteOperations
  refine ⟨fun s k a tile n i A hin hf hA => ?btx, fun s k d tile n i v ps hin hf h => ?bsel, fun s k e a tile d hk he hf => ⟨?btxIllegal, ?bselIllegal⟩,
    fun s k d x i ra hd hin hq h => ?rld, fun s k d x i ra ps hin hq h => ?rldAny, fun s k a x i ra A hin hq h => ?rst,
    fun c x v hx => ⟨remoteCheck_far hx, remoteCheck_misaligned hx, remoteCheck_ok hx⟩, fun s k n i hin hne => ?xwt⟩
  case btx =>
    have hop : ∀ e ∈ i.dies 6, opBtx a tile (look s k 6 e) = .ok _ := fun e he => opBtx_ok (by rwa [look_core (dies_lt he)]) (hA e he)
    show execBtx a tile s = _
    refine issueTiles_bundle hin fun e he => (hop e he).trans ?_
    rw [look_k (dies_lt he), benchDelay_eq]
  case bsel =>
    show execBsel d tile s = _
    rw [execBsel, issueTiles_bundle hin fun e he => opBsel_ok (by rwa [look_core (dies_lt he)]) (h e he).1 (h e he).2]
  case btxIllegal => exact opBtx_raises (by rwa [look_core he])
  case bselIllegal => exact opBsel_raises (by rwa [look_core he])
  case rld =>
    show execRld d x s = _
    rw [execRld, issueTiles_bundle hin fun e he => opRld_register hd (h e he) (hq e he)]
  case rldAny =>
    show ∃ t, execRld d x s = _ ∧ _
    exact issueTiles_frame hin fun e he => opRld_answers (h e he).1 (hq e he) (h e he).2
  case rst =>
    show execRst a x s = _
    rw [execRst, issueTiles_bundle hin fun e he => opRst_ok (h e he).1 (h e he).2 (hq e he)]
  case xwt =>
    show execXwt n s = _
    rw [execXwt, issueWith_plain hin fun e he => opXwt_ok rfl]
    cases hidle : (List.range 4).all (fun d => decide (((s.tile (unitOf k d)).getNode n).st = .idle)) <;>
      simp [upTo, hidle, hne, issued, issuedBy]

end Sys2Proof.Proofs
end

section
/-! The state slots (O4): what the moves, STEP, SDOT and ZOP post, and what a landed write leaves in its slot. -/
namespace Sys2Proof.Proofs
open Laws
open Machine hiding Wf

section moves
variable {c : OpCtx} {z : Nat}

theorem opZld_ok {row a : Nat} {A : Src} (hz : slotFree c z = .ok ()) (hA : readNonEmpty c a = .ok A) :
    opZld z row a c = .ok ({ lat := 3, eff := .slotBytes z (cellsAt (512 * row) ((List.range 512).map (fun j =>
      BitVec.ofNat 8 (A.v.lane (j / 4) / 256 ^ (j % 4))))) } :: A.posts) := by
  simp only [opZld, hz, hA, ok_bind, upTo]

theorem opZrd_ok {d row : Nat} {ps : List Post} (hz : slotFree c z = .ok ())
    (hd : dstPosts c d 3 (vecOfBytes (nth .empty [.fp32, .bf16, .i32] c.t.ldt) (slotBytes c.t z (512 * row) 512)) allOnes = .ok ps) :
    opZrd d z row c = .ok ps := by
  rw [opZrd, hz, ok_bind, tag_ofLdt, hd]

theorem opZclr_ok (hz : slotFree c z = .ok ()) : opZclr z c = .ok [{ lat := 1, eff := .slotClear z }] := by
  rw [opZclr, hz, ok_bind]

theorem opZmov_ok {y : Nat} (hy : slotFree c y = .ok ()) (hz : slotFree c z = .ok ()) :
    opZmov z y c = .ok [{ lat := 2, eff := .slotBytes z (cellsAt 0 (slotBytes c.t y 0 32768)) }] := by
  rw [opZmov, hy, ok_bind, hz, ok_bind]

end moves

section step
variable {c : OpCtx} {z zt a b d : Nat} {f : FFmt} {r w : Nat}

/-- What STEP checks and reads (R274). -/
structure StepReads (c : OpCtx) (z zt a b : Nat) (f : FFmt) (r w : Nat) (prog : List Word) (A B : Src) : Prop where
  shape : stepShape c.t = some (f, r, w)
  fits : r = 1 ∨ w ≤ 64
  program : c.t.prog = some prog
  source : slotFree c z = .ok ()
  target : slotFree c zt = .ok ()
  readA : readAs c a .fp32 (fun j => decide (j < w)) = .ok A
  readB : readAs c b .fp32 (fun j => decide (j < w) || (decide (1 < r) && decide (64 ≤ j) && decide (j < 64 + r))) = .ok B

/-- The positions of a state tile, by rows (R273). -/
def tilePositions (r w : Nat) : List (Nat × Nat) := (List.range r).flatMap (fun p => (List.range w).map (fun j => (p, j)))
/-- Lane j of A in the state format (R274). -/
def stepAlpha (f : FFmt) (A : Src) (j : Nat) : Fl := toFmt f (A.v.lane j)
/-- The factor of B at row p, position j: its lane, or the product of its lanes 64 + p and j (R274). -/
def stepBeta (f : FFmt) (r : Nat) (B : Src) (p j : Nat) : Fl :=
  if r = 1 then toFmt f (B.v.lane j) else mulTo f (B.v.lane (64 + p)) (B.v.lane j)
/-- The combination of the state value at row p, position j with the two operands (R252, R274). -/
def stepNew (c : OpCtx) (z : Nat) (f : FFmt) (r : Nat) (prog : List Word) (A B : Src) (p j : Nat) : Nat × Nat × Flags :=
  combine f prog (fmtOne f) (slotVal c.t z f p j) (stepAlpha f A j).1 (stepBeta f r B p j).1

theorem opStep_ok {prog : List Word} {A B : Src} (h : StepReads c z zt a b f r w prog A B) :
    opStep z zt a b c = .ok ([
      { lat := 7
        eff := .slotBytes zt ((tilePositions r w).flatMap (fun q =>
          cellsAt (512 * q.1 + f.size * q.2) (leBytes f.size (stepNew c z f r prog A B q.1 q.2).2.1)))
        fl := (tilePositions r w).foldl (fun g q => g ||| ((stepAlpha f A q.2).2 ||| (stepBeta f r B q.1 q.2).2 ||| (stepNew c z f r prog A B q.1 q.2).2.2)) 0
          ||| A.fl ||| B.fl }] ++ A.posts ++ B.posts) := by
  have hfits : (decide (r = 1) || decide (w ≤ 64)) = true := by simpa using h.fits
  simp only [opStep, h.shape, ok_bind, hfits, check_true, h.program, h.source, h.target, h.readA, h.readB, List.flatMap_map, List.foldl_map]
  rfl

/-- What SDOT reads (R276). -/
structure SdotReads (c : OpCtx) (z a : Nat) (f : FFmt) (r w : Nat) (A : Src) : Prop where
  shape : stepShape c.t = some (f, r, w)
  slot : slotFree c z = .ok ()
  read : readAs c a .fp32 (fun j => decide (j < if r = 1 then w else r)) = .ok A

/-- A state value of row p, position j as an FP32 operand (R76, R276). -/
def sdotVal (t : Tile) (z : Nat) (f : FFmt) (p j : Nat) : Fl := if f = .bf16 then bf2f (slotVal t z f p j) else (slotVal t z f p j, 0)
/-- Lane j of SDOT: a product, or a sum over the rows; zero beyond the width (R276). -/
def sdotLane (t : Tile) (z : Nat) (f : FFmt) (r w : Nat) (A : Src) (j : Nat) : Fl :=
  if w ≤ j then (0, 0)
  else if r = 1 then ((mul32 (A.v.lane j) (sdotVal t z f 0 j).1).1, (mul32 (A.v.lane j) (sdotVal t z f 0 j).1).2 ||| (sdotVal t z f 0 j).2)
  else (List.range r).foldl (fun (acc : Fl) p =>
    ((fma32 (A.v.lane p) (sdotVal t z f p j).1 acc.1).1, acc.2 ||| (fma32 (A.v.lane p) (sdotVal t z f p j).1 acc.1).2 ||| (sdotVal t z f p j).2)) (0, 0)

theorem opSdot_ok {A : Src} {ps : List Post} (h : SdotReads c z a f r w A)
    (hd : dstPosts c d 5 (Vec.mk' .fp32 (fun j => (nth (0, 0) ((List.range 128).map (sdotLane c.t z f r w A)) j).1)) allOnes
      (((List.range 128).map (sdotLane c.t z f r w A)).foldl (fun g x => g ||| x.2) 0 ||| A.fl) = .ok ps) :
    opSdot d z a c = .ok (ps ++ A.posts) := by
  have hlane : ∀ j, sdotLane c.t z f r w A j = if j < w then
      if r = 1 then ((mul32 (A.v.lane j) (sdotVal c.t z f 0 j).1).1, (mul32 (A.v.lane j) (sdotVal c.t z f 0 j).1).2 ||| (sdotVal c.t z f 0 j).2)
      else (List.range r).foldl (fun (acc : Fl) p =>
        ((fma32 (A.v.lane p) (sdotVal c.t z f p j).1 acc.1).1, acc.2 ||| (fma32 (A.v.lane p) (sdotVal c.t z f p j).1 acc.1).2 ||| (sdotVal c.t z f p j).2)) (0, 0)
      else (0, 0) := fun j => by
    rw [sdotLane, ← ite_not]
    simp only [Nat.not_le]
  rw [funext hlane] at hd
  simp only [opSdot, h.shape, ok_bind, h.slot, h.read, upTo]
  cases f with
  | fp32 => exact congrArg (fun x : Res (List Post) => x >>= fun ps => .ok (ps ++ A.posts)) hd
  | bf16 => exact congrArg (fun x : Res (List Post) => x >>= fun ps => .ok (ps ++ A.posts)) hd

end step

theorem opZop_ok {c : OpCtx} {x : Nat} {v : Nat → DWord} (hx : ∀ j < 4, rx c (x + j) = .ok (v j))
    (hp : progValid ((List.range 4).flatMap (fun j => [(v j).extractLsb' 0 32, (v j).extractLsb' 32 32])) = true) :
    opZop x c = .ok [{ lat := 2, eff := .zop ((List.range 4).flatMap (fun j => [(v j).extractLsb' 0 32, (v j).extractLsb' 32 32])) }] := by
  have h0 : rx c x = .ok (v 0) := hx 0 (by decide)
  have hwords : [v 0, v 1, v 2, v 3].flatMap (fun v => [v.extractLsb' 0 32, v.extractLsb' 32 32])
      = (List.range 4).flatMap (fun j => [(v j).extractLsb' 0 32, (v j).extractLsb' 32 32]) := rfl
  simp only [opZop, h0, hx 1 (by decide), hx 2 (by decide), hx 3 (by decide), ok_bind, hwords, hp, check_true]

/-- STEP writes its own slot, its speculative form the next one (R274). -/
theorem exec_stepForms {s : State} {z a b : Nat} :
    ∀ e ∈ ([(.step z a b, z), (.stepSpec z a b, z + 1)] : List (Instr × Nat)), exec e.1 s = issueTiles s 5 (opStep z e.2 a b) := by
  simp only [List.forall_mem_cons]
  exact ⟨rfl, rfl, List.forall_mem_nil _⟩

/-- Settles O4: each operation from its posts on each die, and the bytes of a written slot. -/
theorem stateSlotOperations : Obligations.StateSlotOperations := by
  unfold Obligations.StateSlotOperations
  refine ⟨fun s k a z row i A hin h => ?zld, fun s k d z row i ps hin h => ?zrd, fun s k z i hin h => ?zclr, fun s k z y i hin h => ?zmov,
    fun s k z zt a b i op f r w prog A B hform hin h => ?step, fun s k d z a i f r w A ps hin h => ?sdot, fun s k x i v hin h => ?zop,
    fun z cells a => ⟨rfl, fun h => sget_putCells_other cells z.bytes a h⟩⟩
  case zld =>
    show execZld a z row s = _
    rw [execZld, issueTiles_bundle hin fun e he => opZld_ok (h e he).1 (h e he).2]
  case zrd =>
    show execZrd d z row s = _
    rw [execZrd, issueTiles_bundle hin fun e he => opZrd_ok (h e he).1 (h e he).2]
  case zclr =>
    show execZclr z s = _
    rw [execZclr, issueTiles_bundle hin fun e he => opZclr_ok (h e he)]
  case zmov =>
    show execZmov z y s = _
    rw [execZmov, issueTiles_bundle hin fun e he => opZmov_ok (h e he).1 (h e he).2]
  case step =>
    rw [exec_stepForms (op, zt) hform]
    exact issueTiles_bundle hin fun e he =>
      let ⟨hshape, hfits, hprog, hz, hzt, hA, hB⟩ := h e he
      opStep_ok ⟨hshape, hfits, hprog, hz, hzt, hA, hB⟩
  case sdot =>
    show execSdot d z a s = _
    rw [execSdot, issueTiles_bundle hin fun e he =>
      let ⟨hshape, hz, hA, hd⟩ := h e he
      opSdot_ok ⟨hshape, hz, hA⟩ hd]
  case zop =>
    show execZop x s = _
    rw [execZop, issueTiles_bundle hin fun e he => opZop_ok (h e he).1 (h e he).2]

end Sys2Proof.Proofs
end

section
/-! The sequence commands and COLL (O7): what each checks and posts, and that the sequence commands are ILLEGAL outside a loop kernel. -/
namespace Sys2Proof.Proofs
open Laws
open Machine hiding Wf

section answers
variable {c : OpCtx} {node x da : Nat} {D : List Byte} {ins : Instr} {l : LoopRec}

theorem lane_le {n : Nat} (h : n < 256) : n ≤ 255 := Nat.le_of_lt_succ h

/-- What SMPQ checks (R286, R370). -/
structure SmpqChecks (c : OpCtx) (l : LoopRec) (D : List Byte) (da size : Nat) (xl : List (List (Nat × Nat))) : Prop where
  header : headerOk D false = true
  lane : dLANE D < 256
  format : dfield D 19 1 ≤ 1
  rowsPos : 1 ≤ dfield D 18 1
  rowsMax : dfield D 18 1 ≤ l.drl + 1
  aligned : 64 ∣ dfield D 24 8
  xlated : (List.range (dfield D 18 1)).mapM (fun p =>
    xlateRange c (dfield D 24 8 + p * ((l.vocab * size + 63) / 64 * 64)) (l.vocab * size) 0) = .ok xl
  descBanks : banksCover (dBANKS D) (da + 20) 4 = .ok ()

theorem opSmpq_ok {xl : List (List (Nat × Nat))} (ho : Opens c node x D da) (hl : loopHere c = .ok l)
    (h : SmpqChecks c l D da (if dfield D 19 1 = 1 then 2 else 4) xl) :
    opSmpq ins node x c = .ok (postNode node { instr := ins, desc := D, xlate := xl.flatten, dpos := da, cid := c.s.cidOf c.u }
      ++ leasePosts c 0 xl.flatten) := by
  simp only [opSmpq, openDesc_ok ho, hl, ok_bind, h.header, lane_le h.lane, h.format, h.rowsPos, h.rowsMax, decide_true, Bool.and_self, check_true,
    Nat.mod_eq_zero_of_dvd h.aligned, upTo, h.xlated, h.descBanks]

/-- What FLKQ checks of its output: none, or 36 bytes of the scratchpad in its banks (R378). -/
theorem opFlkq_ok (ho : Opens c node x D da) (hl : loopHere c = .ok l) (hh : headerOk D false = true) (hlane : dLANE D < 256)
    (hout : dfield D 20 4 = 2 ^ 32 - 1 ∨ (dfield D 20 4 % 4 = 0 ∧ dfield D 20 4 + 36 ≤ 2 ^ 22 ∧ banksCover (dBANKS D) (dfield D 20 4) 36 = .ok ())) :
    opFlkq ins node x c = .ok (postNode node { instr := ins, desc := D, dpos := da, cid := c.s.cidOf c.u }) := by
  simp only [opFlkq, openDesc_ok ho, hl, ok_bind, hh, lane_le hlane, decide_true, Bool.and_self, check_true]
  obtain hnone | ⟨ha, hr, hb⟩ := hout
  · exact if_neg (not_not.mpr hnone)
  · simp only [ha, decide_true, check_true, ok_bind, spadRange_ok hr, hb, ite_self]

theorem opWpset_ok (ho : Opens c node x D da) (hl : loopHere c = .ok l) (hh : headerOk D false = true) (hlane : dLANE D < 256)
    (hn : dfield D 18 1 ≤ 15) (hz : dfield D 19 1 = 0) (hz' : dfield D 24 4 = 0) (ha : dfield D 20 4 % 16 = 0) (hr : dfield D 20 4 + 128 ≤ 2 ^ 22)
    (hb : banksCover (dBANKS D) (dfield D 20 4) 128 = .ok ()) (hd : banksCover (dBANKS D) (da + 28) 4 = .ok ()) :
    opWpset ins node x c = .ok (postNode node { instr := ins, desc := D, dpos := da, cid := c.s.cidOf c.u }) := by
  simp only [opWpset, openDesc_ok ho, hl, ok_bind, hh, lane_le hlane, hn, hz, hz', ha, decide_true, Bool.and_self, check_true, spadRange_ok hr, hb, hd]

theorem opWpclr_ok (ho : Opens c node x D da) (hl : loopHere c = .ok l) (hh : headerOk D false = true) (hlane : dLANE D < 256)
    (hz : dfield D 20 8 = 0) (hd : banksCover (dBANKS D) (da + 28) 4 = .ok ()) :
    opWpclr ins node x c = .ok (postNode node { instr := ins, desc := D, dpos := da, cid := c.s.cidOf c.u }) := by
  simp only [opWpclr, openDesc_ok ho, hl, ok_bind, hh, lane_le hlane, hz, decide_true, Bool.and_self, check_true, hd]

/-- What MSKQ checks of its rows and of its destination, in the scratchpad or in memory (R407). -/
structure MskqChecks (c : OpCtx) (l : LoopRec) (D : List Byte) (da dest len : Nat) (xl : List (Nat × Nat)) : Prop where
  header : headerOk D false = true
  lane : dLANE D < 256
  place : dfield D 19 1 ≤ 1
  rowsPos : 1 ≤ dfield D 18 1
  rowsMax : dfield D 18 1 ≤ l.drl + 1
  aligned : 64 ∣ dest
  reach : if dfield D 19 1 = 1 then dest + len ≤ 2 ^ 22 ∧ banksCover (dBANKS D) dest len = .ok () ∧ xl = [] else xlateRange c dest len 1 = .ok xl
  descBanks : banksCover (dBANKS D) (da + 20) 4 = .ok ()

theorem bitOf_zero_of_le {n : Nat} (h : n ≤ 1) : bitOf n 0 = decide (n = 1) := by
  obtain rfl | rfl : n = 0 ∨ n = 1 := by omega
  · rfl
  · rfl

theorem opMskq_ok {xl : List (Nat × Nat)} (ho : Opens c node x D da) (hl : loopHere c = .ok l)
    (h : MskqChecks c l D da (dfield D 24 8) (dfield D 18 1 * maskLines l.vocab) xl) :
    opMskq ins node x c = .ok (postNode node { instr := ins, desc := D, xlate := xl, dpos := da, cid := c.s.cidOf c.u } ++ leasePosts c 1 xl) := by
  have hreach := h.reach
  simp only [opMskq, openDesc_ok ho, hl, ok_bind, h.header, lane_le h.lane, h.rowsPos, h.rowsMax, h.place, bitOf_zero_of_le h.place, decide_true,
    Bool.and_self, check_true, Nat.mod_eq_zero_of_dvd h.aligned, h.descBanks]
  split at hreach
  · next hspad =>
    obtain ⟨hr, hb, rfl⟩ := hreach
    simp only [hspad, decide_true, if_true, spadRange_ok hr, hb, ok_bind]
  · next hmem => simp only [hmem, decide_false, Bool.false_eq_true, if_false, hreach, ok_bind]

/-- What COLL checks of its destination, its peer and its source (R286, R287, R420, R421). -/
structure CollChecks (c : OpCtx) (D : List Byte) (m : SMap DWord) (xl : List (Nat × Nat)) : Prop where
  header : headerOk D false = true
  dest : dfield D 16 8 < 2 ^ 53
  peer : dfield D 24 2 < 2 ^ 13
  counts : dfield D 26 1 ≤ 1
  reserved : dfield D 27 5 = 0
  pod : dfield D 24 2 / 512 < c.s.pods
  device : dfield D 24 2 % 512 < c.s.podDevices
  format : (sf m 8).toNat ≤ 2
  dim2 : sf m 2 = 1
  dim3 : sf m 3 = 1
  dim4 : sf m 4 = 1
  tensor : tensorOk m = true
  aligned : 64 ∣ dfield D 16 8
  range : tensorCheck c m true 0 = .ok xl
  banks : piecesBanks (dBANKS D) (sharePieces m c.die) = .ok ()

theorem opColl_ok {sh sw : Nat} {m : SMap DWord} {xl : List (Nat × Nat)} (ho : Opens c node x D da) (hq : linkFull c = false)
    (hm : shapeAfter c.t (8 + sh) (8 + sh) sw = m) (h : CollChecks c D m xl) :
    opColl ins node sh sw x c = .ok (swapPosts (8 + sh) sw ++
      postNode node { instr := ins, desc := D, shA := m, dpos := da, cid := c.s.cidOf c.u }) := by
  simp only [opColl, openDesc_ok ho, ok_bind, hq, Bool.false_eq_true, if_false, hm, h.header, h.dest, h.peer, h.counts, h.reserved, h.pod, h.device,
    h.format, h.dim2, h.dim3, h.dim4, h.tensor, Nat.mod_eq_zero_of_dvd h.aligned, decide_true, Bool.and_self, check_true, h.range, h.banks]

end answers

/-- The five sequence commands, each by its operation. -/
theorem exec_sequenceForms {s : State} {node x fn : Nat} :
    ∀ op ∈ ([.smpq node x, .flkq node x fn, .wpset node x, .wpclr node x, .mskq node x] : List Instr),
      ∃ f : OpCtx → Res (List Post), exec op s = issueTiles s 6 f
        ∧ ∀ c D da e, Opens c node x D da → loopHere c = .error e → f c = .error e := by
  simp only [List.forall_mem_cons]
  refine ⟨⟨opSmpq (.smpq node x) node x, rfl, ?_⟩, ⟨opFlkq (.flkq node x fn) node x, rfl, ?_⟩, ⟨opWpset (.wpset node x) node x, rfl, ?_⟩,
    ⟨opWpclr (.wpclr node x) node x, rfl, ?_⟩, ⟨opMskq (.mskq node x) node x, rfl, ?_⟩, List.forall_mem_nil _⟩ <;>
    intro c D da e ho hl
  · simp only [opSmpq, openDesc_ok ho, ok_bind, hl, raised_bind]
  · simp only [opFlkq, openDesc_ok ho, ok_bind, hl, raised_bind]
  · simp only [opWpset, openDesc_ok ho, ok_bind, hl, raised_bind]
  · simp only [opWpclr, openDesc_ok ho, ok_bind, hl, raised_bind]
  · simp only [opMskq, openDesc_ok ho, ok_bind, hl, raised_bind]

/-- Settles O7: each command posts once its checks hold, and they hold by the statement's hypotheses. -/
theorem sequenceCommands : Obligations.SequenceCommands := by
  unfold Obligations.SequenceCommands
  refine ⟨fun s k node x i l D da xl hin hl h => issueTiles_bundle hin fun e he => ?smpq,
    fun s k node x fn i l op ok D da hform hin hl h => ?plain,
    fun s k node x i l D da xl hin hl h => issueTiles_bundle hin fun e he => ?mskq,
    fun s k node x fn i op D da hform hin hl hne h => ?illegal,
    fun s k node sh sw x fn i D da xl hin hq h => issueTiles_bundle hin fun e he => ?coll⟩
  case smpq =>
    obtain ⟨hopen, hh, hlane, hfmt, h1, hmax, ha, hx, hb⟩ := h e he
    have hop := opSmpq_ok (ins := .smpq node x) hopen (loopHere_ok hin.core (dies_lt he) hl) ⟨hh, hlane, hfmt, h1, hmax, ha, hx, hb⟩
    rwa [look_cid hin.core (dies_lt he)] at hop
  case plain =>
    simp only [List.mem_cons, List.not_mem_nil, or_false, Prod.mk.injEq] at hform
    obtain ⟨rfl, rfl⟩ | ⟨rfl, rfl⟩ | ⟨rfl, rfl⟩ := hform
    · refine issueTiles_bundle hin fun e he => ?_
      obtain ⟨hopen, hh, hlane, hok⟩ := h e he
      have hop := opFlkq_ok (ins := .flkq node x fn) hopen (loopHere_ok hin.core (dies_lt he) hl) hh hlane (of_decide_eq_true hok)
      rwa [look_cid hin.core (dies_lt he)] at hop
    · refine issueTiles_bundle hin fun e he => ?_
      obtain ⟨hopen, hh, hlane, hok⟩ := h e he
      obtain ⟨hn, hz, hz', ha, hr, hb, hd⟩ := of_decide_eq_true hok
      have hop := opWpset_ok (ins := .wpset node x) hopen (loopHere_ok hin.core (dies_lt he) hl) hh hlane hn hz hz' ha hr hb hd
      rwa [look_cid hin.core (dies_lt he)] at hop
    · refine issueTiles_bundle hin fun e he => ?_
      obtain ⟨hopen, hh, hlane, hok⟩ := h e he
      obtain ⟨hz, hd⟩ := of_decide_eq_true hok
      have hop := opWpclr_ok (ins := .wpclr node x) hopen (loopHere_ok hin.core (dies_lt he) hl) hh hlane hz hd
      rwa [look_cid hin.core (dies_lt he)] at hop
  case mskq =>
    obtain ⟨hopen, hh, hlane, hp, h1, hmax, ha, hx, hb⟩ := h e he
    have hop := opMskq_ok (ins := .mskq node x) hopen (loopHere_ok hin.core (dies_lt he) hl) ⟨hh, hlane, hp, h1, hmax, ha, hx, hb⟩
    rwa [look_cid hin.core (dies_lt he)] at hop
  case illegal =>
    obtain ⟨f, hexec, hraise⟩ := exec_sequenceForms (s := s) op hform
    rw [hexec, issueTiles, issueWith_raises hin hne fun e he => hraise _ _ _ _ (h e he) (loopHere_raises (dies_lt he) hl)]
  case coll =>
    have hdie := look_die (s := s) (k := k) (sl := 6) (dies_lt he)
    obtain ⟨hopen, hh, hdst, hpeer, hcnt, hres, hpod, hdev, hfmt, h2, h3, h4, ht, ha, hx, hb⟩ := h e he
    have hop := opColl_ok (ins := .coll node sh sw x fn) hopen (hq e he) rfl
      ⟨hh, hdst, hpeer, hcnt, hres, hpod, hdev, hfmt, h2, h3, h4, ht, ha, hx, by rwa [hdie]⟩
    rwa [look_cid hin.core (dies_lt he)] at hop

end Sys2Proof.Proofs
end

section
/-! A trap in handler mode (O20): the kernel is abandoned, its cores leave, its group retires, and its packets take TRAPPED (R340, R346). -/
namespace Sys2Proof.Proofs
open Laws
open Machine hiding Wf

/-- A predicate that every step keeps holds after a fold of steps. -/
theorem foldl_holds {α β : Type} {f : β → α → β} {P : β → Prop} (h : ∀ b a, P b → P (f b a)) (l : List α) {b : β} (hb : P b) : P (l.foldl f b) := by
  induction l generalizing b with
  | nil => exact hb
  | cons a l ih => exact ih (h b a hb)

/-- A predicate that one element's step brings about and every step keeps holds after a fold over a list that names the element. The
steps of the other elements keep what that one needs. -/
theorem foldl_reaches {α β : Type} {f : β → α → β} {P Q : β → Prop} {l : List α} {a : α} (ha : a ∈ l) (hkeep : ∀ b x, P b → P (f b x))
    (hready : ∀ b x, Q b → P (f b x) ∨ Q (f b x)) (hdo : ∀ b, Q b → P (f b a)) {b : β} (hb : Q b) : P (l.foldl f b) := by
  induction l generalizing b with
  | nil => exact absurd ha List.not_mem_nil
  | cons x l ih =>
    obtain rfl | ha := List.mem_cons.mp ha
    · exact foldl_holds hkeep l (hdo b hb)
    · obtain hp | hq := hready b x hb
      · exact foldl_holds hkeep l hp
      · exact ih ha hq

section reading
variable {s t : State}

theorem core_of_cores (h : t.cores = s.cores) (k : Nat) : t.core k = s.core k := by rw [State.core, h, State.core]
theorem tile_of_tiles (h : t.tiles = s.tiles) (u : Nat) : t.tile u = s.tile u := by rw [State.tile, h, State.tile]
theorem group_of_groups (h : t.hub.groups = s.hub.groups) (n : Nat) : t.group n = s.group n := by rw [State.group, h, State.group]
theorem pkt_of_pkts (h : t.hub.pkts = s.hub.pkts) (p : Nat) : t.pkt p = s.pkt p := by rw [State.pkt, h, State.pkt]

end reading

section leaving
variable (c : CoreRec)

theorem setActive_fields (p : Plane) : (c.setActive p).group = c.group ∧ (c.setActive p).cause = c.cause ∧ (c.setActive p).reason = c.reason := by
  cases h : c.activeIs1 <;> simp [CoreRec.setActive, h]

theorem dropOwnShadow_fields :
    c.dropOwnShadow.group = c.group ∧ c.dropOwnShadow.cause = c.cause ∧ c.dropOwnShadow.reason = c.reason := by
  unfold CoreRec.dropOwnShadow
  split
  · cases h : c.activeIs1 <;> simp [CoreRec.setShadow, h]
  · exact ⟨rfl, rfl, rfl⟩

theorem vacate_fields : c.vacate.group = c.group ∧ c.vacate.cause = c.cause ∧ c.vacate.reason = c.reason := by
  obtain ⟨hg, hc, hr⟩ := dropOwnShadow_fields (c.setActive {})
  obtain ⟨hg', hc', hr'⟩ := setActive_fields c {}
  exact ⟨hg.trans hg', hc.trans hc', hr.trans hr'⟩

end leaving

/-- What a core that left its kernel still shows of its record `c` (R142, R340). -/
structure LeftKernel (c c' : CoreRec) : Prop where
  handler : c'.handler = none
  idle : c'.st = .idle
  cause : c'.cause = c.cause
  reason : c'.reason = c.reason
  step : c'.stepPending = false

theorem leftKernel_vacate (c : CoreRec) : LeftKernel c c.vacate :=
  ⟨rfl, rfl, (vacate_fields c).2.1, (vacate_fields c).2.2, rfl⟩

theorem leftKernel_again {c c' : CoreRec} (h : LeftKernel c c') : LeftKernel c c'.vacate :=
  ⟨rfl, rfl, (vacate_fields c').2.1.trans h.cause, (vacate_fields c').2.2.trans h.reason, rfl⟩

theorem dropTiles_core (s : State) (k j : Nat) : (dropTiles s k).core j = s.core j := by
  unfold dropTiles
  exact core_of_cores (congrArg State.cores (foldl_modTile_frame (fun _ => Tile.dropWaiting) k (upTo 4) s)) j

theorem dropTiles_hub (s : State) (k : Nat) : (dropTiles s k).hub = s.hub := by
  have h := congrArg State.hub (foldl_modTile_frame (fun _ => Tile.dropWaiting) k (upTo 4) s)
  exact h

/-- One core of a group that ends (R178). -/
def endCore (kern : Nat) (s : State) (k : Nat) : State :=
  if (s.core k).group = kern then dropTiles (s.modCore k CoreRec.vacate) k else s

theorem endCore_hub (kern : Nat) (s : State) (k : Nat) : (endCore kern s k).hub = s.hub := by
  unfold endCore
  split
  · exact dropTiles_hub _ _
  · rfl

theorem endCore_core (kern : Nat) (s : State) (k j : Nat) :
    (endCore kern s k).core j = if j = k ∧ (s.core k).group = kern then (s.core k).vacate else s.core j := by
  unfold endCore
  split
  next h =>
    rw [dropTiles_core, modCore_eq, setCore_core]
    simp [h]
  next h => simp [h]

theorem groupEnd_eq (s : State) (kern : Nat) : groupEnd s kern = ((s.group kern).cores.foldl (endCore kern) s).setGroup kern
    { s.group kern with st := .retired, barriers := [], held := [], regroup := none, deques := [] } := rfl

/-- A core of a group that ends leaves it. -/
theorem groupEnd_core {s : State} {kern k : Nat} (hk : k ∈ (s.group kern).cores) (hg : (s.core k).group = kern) :
    LeftKernel (s.core k) ((groupEnd s kern).core k) := by
  have hcores : LeftKernel (s.core k) (((s.group kern).cores.foldl (endCore kern) s).core k) := by
    refine foldl_reaches (P := fun t : State => LeftKernel (s.core k) (t.core k)) (Q := fun t : State => t.core k = s.core k) hk ?_ ?_ ?_ rfl
    · intro t x h
      rw [endCore_core]
      split
      next hx => exact hx.1 ▸ leftKernel_again h
      next => exact h
    · intro t x h
      rw [endCore_core]
      split
      next hx => exact .inl (hx.1 ▸ h ▸ leftKernel_vacate (s.core k))
      next => exact .inr h
    · intro t h
      rw [endCore_core, if_pos ⟨rfl, by rw [h, hg]⟩, h]
      exact leftKernel_vacate (s.core k)
  rw [groupEnd_eq]
  exact hcores

theorem groupEnd_group (s : State) (kern : Nat) : ((groupEnd s kern).group kern).st = .retired := by
  rw [groupEnd_eq, setGroup_group, if_pos rfl]

theorem groupEnd_pkt (s : State) (kern p : Nat) : (groupEnd s kern).pkt p = s.pkt p := by
  have hhub : ((s.group kern).cores.foldl (endCore kern) s).hub = s.hub :=
    foldl_holds (P := fun t : State => t.hub = s.hub) (fun t k h => (endCore_hub kern t k).trans h) _ rfl
  rw [groupEnd_eq, setGroup_pkt, State.pkt, hhub, State.pkt]

/-- A fault record that is posted touches no core, group or packet. -/
theorem postFault_fields (s : State) (r : FaultRec) :
    (postFault s r).cores = s.cores ∧ (postFault s r).hub.groups = s.hub.groups ∧ (postFault s r).hub.pkts = s.hub.pkts := by
  unfold postFault
  dsimp only
  split <;> exact ⟨rfl, rfl, rfl⟩

theorem postFaults_fields (recs : List FaultRec) (s : State) : (recs.foldl postFault s).cores = s.cores
    ∧ (recs.foldl postFault s).hub.groups = s.hub.groups ∧ (recs.foldl postFault s).hub.pkts = s.hub.pkts := by
  refine foldl_holds (P := fun t : State => t.cores = s.cores ∧ t.hub.groups = s.hub.groups ∧ t.hub.pkts = s.hub.pkts) ?_ recs ⟨rfl, rfl, rfl⟩
  rintro t r ⟨hc, hg, hp⟩
  obtain ⟨hc', hg', hp'⟩ := postFault_fields t r
  exact ⟨hc'.trans hc, hg'.trans hg, hp'.trans hp⟩

theorem ctxSettle_fields (s : State) (cid : Nat) : (ctxSettle s cid).cores = s.cores ∧ (ctxSettle s cid).hub = s.hub := by
  unfold ctxSettle
  dsimp only
  split <;> exact ⟨rfl, rfl⟩

theorem pktOutcome_core (s : State) (p st d k : Nat) : (pktOutcome s p st d).core k = s.core k :=
  core_of_cores (congrArg State.cores (pktOutcome_frame s p st d)) k

theorem pktOutcome_group (s : State) (p st d n : Nat) : (pktOutcome s p st d).group n = s.group n := by
  unfold pktOutcome
  dsimp only
  split
  · rfl
  · exact setPkt_group ..

theorem pktOutcome_keeps {s : State} {p q st d : Nat} {o : Nat × Nat} (h : (s.pkt q).outcome = some o) :
    ((pktOutcome s p st d).pkt q).outcome = some o := by
  unfold pktOutcome
  dsimp only
  split
  next => exact h
  next hp =>
    rw [setPkt_pkt, if_neg]
    · exact h
    · rintro rfl
      simp [h] at hp

theorem pktOutcome_other {s : State} {p q : Nat} (h : q ≠ p) (st d : Nat) : (pktOutcome s p st d).pkt q = s.pkt q := by
  unfold pktOutcome
  dsimp only
  split
  next => rfl
  next => rw [setPkt_pkt, if_neg h]

/-- The packets of a list without an outcome take one (R120). -/
theorem pktOutcomes_outcome {s : State} {ps : List Nat} {p : Nat} (hp : p ∈ ps) (h : (s.pkt p).outcome = none) (st d : Nat) :
    ((ps.foldl (fun s p => pktOutcome s p st d) s).pkt p).outcome = some (st, d) := by
  refine foldl_reaches (f := fun t x => pktOutcome t x st d) (P := fun t : State => (t.pkt p).outcome = some (st, d)) (Q := fun t : State => (t.pkt p).outcome = none) hp
    (fun t x ht => pktOutcome_keeps ht) (fun t x ht => ?_) (fun t ht => pktOutcome_outcome ht st d) h
  by_cases hx : p = x
  · exact .inl (hx ▸ pktOutcome_outcome (hx ▸ ht) st d)
  · exact .inr (by rwa [pktOutcome_other hx])

/-- What stands of core k, its group and its group's packets after its kernel is abandoned (R340). -/
structure Abandoned (s t : State) (k cause : Nat) : Prop where
  core : LeftKernel (s.core k) (t.core k)
  group : (t.group (s.core k).group).st = .retired
  pkts : ∀ p ∈ (s.groupOf k).pkts, (s.pkt p).outcome = none → (t.pkt p).outcome = some (9, cause)

theorem abandon_abandons {s : State} {k : Nat} (hk : k ∈ (s.groupOf k).cores) (cause : Nat) (recs : List FaultRec) :
    Abandoned s (abandon s k cause recs) k cause := by
  unfold abandon
  extract_lets kern g s1 s2
  obtain ⟨hcores, hgroups, hpkts⟩ := postFaults_fields recs s
  have hcore : s1.core k = s.core k := core_of_cores hcores k
  have hgroup : s1.group kern = g := group_of_groups hgroups kern
  have hpkt (p : Nat) : s1.pkt p = s.pkt p := pkt_of_pkts hpkts p
  have hpkt2 (p : Nat) : s2.pkt p = s.pkt p := (groupEnd_pkt s1 kern p).trans (hpkt p)
  have hcore2 : LeftKernel (s.core k) (s2.core k) := hcore ▸ groupEnd_core (s := s1) (hgroup ▸ hk) (congrArg CoreRec.group hcore)
  have hgroup2 : (s2.group kern).st = .retired := by
    show (((groupEnd s1 kern).modGroup kern _).group kern).st = _
    rw [modGroup_eq, setGroup_group, if_pos rfl]
    exact groupEnd_group s1 kern
  obtain ⟨hsc, hsh⟩ := ctxSettle_fields (g.pkts.foldl (fun s p => pktOutcome s p 9 cause) s2) g.cid
  have hfold : ∀ t : State, t = g.pkts.foldl (fun s p => pktOutcome s p 9 cause) s2 → t.core k = s2.core k ∧ t.group kern = s2.group kern := by
    rintro t rfl
    exact foldl_holds (P := fun t : State => t.core k = s2.core k ∧ t.group kern = s2.group kern)
      (fun t p h => ⟨(pktOutcome_core t p 9 cause k).trans h.1, (pktOutcome_group t p 9 cause kern).trans h.2⟩) _ ⟨rfl, rfl⟩
  obtain ⟨hfc, hfg⟩ := hfold _ rfl
  refine ⟨?_, ?_, fun p hp ho => ?_⟩
  · rw [core_of_cores hsc, hfc]
    exact hcore2
  · rw [group_of_groups (congrArg Hub.groups hsh), hfg]
    exact hgroup2
  · rw [pkt_of_pkts (congrArg Hub.pkts hsh)]
    exact pktOutcomes_outcome hp ((congrArg Pkt.outcome (hpkt2 p)).trans ho) 9 cause

/-- The bundle that a trap drops leaves the core's handler, group and trap registers, and the hub. -/
theorem dropIssue_fields (s : State) (k : Nat) : ((dropIssue s k).core k).handler = (s.core k).handler
    ∧ ((dropIssue s k).core k).group = (s.core k).group ∧ ((dropIssue s k).core k).cause = (s.core k).cause
    ∧ ((dropIssue s k).core k).reason = (s.core k).reason ∧ (dropIssue s k).hub = s.hub := by
  cases hi : (s.core k).issue with
  | none =>
    rw [dropIssue_none hi]
    exact ⟨rfl, rfl, rfl, rfl, rfl⟩
  | some i =>
    rw [dropIssue_core hi]
    refine ⟨rfl, rfl, rfl, rfl, ?_⟩
    have h := congrArg State.hub (foldl_modTile_frame (fun d (t : Tile) => { t with walk := nth t.walk i.walks0 d }) k (upTo 4) s)
    unfold dropIssue
    simp only [hi]
    exact h

/-- A trap in handler mode abandons the kernel (R346). -/
theorem takeTrap_abandoned {s : State} {k : Nat} (hh : (s.core k).handler.isSome = true) (hk : k ∈ (s.groupOf k).cores) (cause slot : Nat)
    (rs : List Raiser) : Abandoned s (takeTrap s k cause slot rs) k cause := by
  obtain ⟨hhandler, hgroup, hcause, hreason, hhub⟩ := dropIssue_fields s k
  obtain ⟨recs, htrap⟩ := takeTrap_handler (cause := cause) (slot := slot) (rs := rs) (by rw [hhandler]; exact hh)
  have hgroupOf : (dropIssue s k).groupOf k = s.groupOf k := by rw [State.groupOf, hgroup, State.group, hhub, State.groupOf, State.group]
  obtain ⟨hcore, hretired, hpkts⟩ := abandon_abandons (hgroupOf ▸ hk) cause recs
  rw [htrap]
  refine ⟨⟨hcore.handler, hcore.idle, hcore.cause.trans hcause, hcore.reason.trans hreason, hcore.step⟩, hgroup ▸ hretired, fun p hp ho => ?_⟩
  exact hpkts p (hgroupOf ▸ hp) (by rw [State.pkt, hhub]; exact ho)

/-- A TRAP word in handler mode takes its trap at once (R346, R348). -/
theorem execTrap_handler {s : State} {k : Nat} (hin : InHandler s k) (code info : Nat) : execTrap code info s = .next
    (stepEnd (takeTrap (nextWord s k) k code 8 ([0, 1, 2, 3].map (fun d => ⟨d, 0, info⟩))) k) := by
  rw [execTrap, raiseNext, issueWith_handler_plain hin fun _ _ => rfl, if_pos rfl]

/-- Settles O20: a trap in handler mode, raised by any operation and by a TRAP word, abandons the kernel. -/
theorem trapInHandler : Obligations.TrapInHandler := by
  unfold Obligations.TrapInHandler
  refine ⟨fun s k cause sl rs hh hk => ?raised, fun s k code info hin hk => ?word⟩
  case raised =>
    obtain ⟨hcore, hgroup, hpkts⟩ := takeTrap_abandoned hh hk cause sl rs
    exact ⟨hcore.handler, hcore.idle, hcore.cause, hcore.reason, hgroup, hpkts⟩
  case word =>
    have hword : (nextWord s k).core k = { s.core k with handler := (s.core k).handler.map (· + 1) } := by
      rw [nextWord, modCore_eq, setCore_core, if_pos rfl]
    have hgroupOf : (nextWord s k).groupOf k = s.groupOf k := by rw [State.groupOf, hword]; rfl
    obtain ⟨hcore, hgroup, hpkts⟩ := takeTrap_abandoned (s := nextWord s k) (k := k) (by rw [hword]; simpa using hin.handler) (hgroupOf ▸ hk)
      code 8 ([0, 1, 2, 3].map (fun d => ⟨d, 0, info⟩))
    rw [hword] at hcore hgroup
    refine ⟨_, execTrap_handler hin code info, ?_⟩
    rw [stepEnd_idle hcore.step]
    exact ⟨hcore.handler, hcore.idle, hcore.cause, hgroup, fun p hp ho => hpkts p (hgroupOf ▸ hp) ho⟩

end Sys2Proof.Proofs
end

section
/-! A store that lands (O60): the byte of a store, past the home L2 of its die or in it, the room of a column, and what a write-back
writes (R296, R298, R321). -/
namespace Sys2Proof.Proofs
open Laws
open Machine hiding Wf

/-! ### Lists and maps -/

theorem nth_setNth {α : Type} (d v : α) (l : List α) (i j : Nat) : nth d (setNth v l i) j = if j = i ∧ i < l.length then v else nth d l j := by
  induction l generalizing i j with
  | nil => simp [setNth, nth]
  | cons a l ih =>
    match i, j with
    | 0, 0 => simp [setNth, nth]
    | 0, j + 1 => simp [setNth, nth]
    | i + 1, 0 => simp [setNth, nth]
    | i + 1, j + 1 => simp [setNth, nth, ih]

theorem length_sput_le {β : Type} (m : SMap β) (k : Nat) (v : β) : (sput m k v).length ≤ m.length + 1 := by
  induction m with
  | nil => simp [sput]
  | cons e m ih =>
    unfold sput
    split
    · simp
    · split
      · simp
      · simpa using ih

theorem length_sset_le {β : Type} [DecidableEq β] (d : β) (m : SMap β) (k : Nat) (v : β) : (sset d m k v).length ≤ m.length + 1 := by
  unfold sset
  split
  · exact (List.length_filter_le ..).trans (Nat.le_succ _)
  · exact length_sput_le m k v

/-! ### One byte of a store -/

section byte
variable {s : State} {u a : Nat} {b : Byte} {nc : Bool}

/-- A byte in line `ln` stored by a tile leaves its die's home L2 aside: it goes to the stack die (R296, R298). -/
def PastL2 (s : State) (u : Nat) (nc : Bool) (ln : Nat) : Prop := nc = true ∨ s.isAtomic ln = true ∨ homeDie ln ≠ u % 4

/-- The tile's read cache drops the line (R298). -/
def rcDropped (s : State) (u ln : Nat) : State := s.modTile u (fun t => { t with rc := sdrop t.rc ln })

theorem storeByte_colt (hu : 256 ≤ u) : s.storeByte u nc (a, b) = { s.modTile u (fun t => t) with mem := sset 0 s.mem a b } := by
  simp only [State.storeByte, if_pos hu]
  rfl

theorem storeByte_past (hu : u < 256) (h : PastL2 s u nc (a / 64)) :
    s.storeByte u nc (a, b) = { rcDropped s u (a / 64) with mem := sset 0 s.mem a b }.passPort (u % 4) (a / 64) := by
  have hatomic : (s.modTile u (fun t => { t with rc := sdrop t.rc (a / 64) })).isAtomic (a / 64) = s.isAtomic (a / 64) := rfl
  have hu' : ¬ 256 ≤ u := Nat.not_le.mpr hu
  simp only [State.storeByte, if_neg hu', hatomic]
  obtain h | h | h := h
  · rw [h, Bool.true_or, if_pos rfl]
    rfl
  · rw [h, Bool.or_true, if_pos rfl]
    rfl
  · rw [if_neg h, ite_self]
    rfl

/-- The line of the home L2 after the byte: the line held, or the bytes of memory, with the byte dirty in it (R298). -/
def storedLine (s : State) (d a : Nat) (b : Byte) : Line :=
  let l := s.l2Line d (a / 64)
  { bytes := setNth b (if l.held then l.bytes else s.memBytes (64 * (a / 64)) 64) (a % 64), dirty := sset false l.dirty (a % 64) true }

/-- The home L2 of a die has room for line `ln` (R7). -/
def HasRoom (s : State) (d ln : Nat) : Prop := (sget [] s.l2 d).length < columnLines ∨ (s.l2Line d ln).held = true

theorem roomL2_of_room {d ln : Nat} (h : HasRoom s d ln) : s.roomL2 d ln = s := if_pos h

theorem storeByte_home (hu : u < 256) (hnc : nc = false) (hatomic : s.isAtomic (a / 64) = false) (hhome : homeDie (a / 64) = u % 4)
    (hroom : HasRoom s (u % 4) (a / 64)) :
    s.storeByte u nc (a, b) = (rcDropped s u (a / 64)).setL2 (u % 4) (a / 64) (storedLine s (u % 4) a b) := by
  have hu' : ¬ 256 ≤ u := Nat.not_le.mpr hu
  have hat : (s.modTile u (fun t => { t with rc := sdrop t.rc (a / 64) })).isAtomic (a / 64) = false := hatomic
  have hrm : HasRoom (s.modTile u (fun t => { t with rc := sdrop t.rc (a / 64) })) (u % 4) (a / 64) := hroom
  simp only [State.storeByte, if_neg hu', hnc, hat, Bool.or_false, Bool.false_eq_true, if_false, if_pos hhome, roomL2_of_room hrm]
  rfl

/-- Whether a byte of a tile leaves the home L2 aside, or lies in it. -/
theorem past_or_home (s : State) (u : Nat) (nc : Bool) (ln : Nat) :
    PastL2 s u nc ln ∨ (nc = false ∧ s.isAtomic ln = false ∧ homeDie ln = u % 4) := by
  unfold PastL2
  by_cases hh : homeDie ln = u % 4
  · cases nc
    · cases hat : s.isAtomic ln
      · exact .inr ⟨rfl, rfl, hh⟩
      · exact .inl (.inr (.inl rfl))
    · exact .inl (.inl rfl)
  · exact .inl (.inr (.inr hh))

end byte

theorem passPort_l2 (s : State) (d ln : Nat) : (s.passPort d ln).l2 = s.l2 := by
  unfold State.passPort
  split <;> rfl

theorem passPort_tiles (s : State) (d ln : Nat) : (s.passPort d ln).tiles = s.tiles := by
  unfold State.passPort
  split <;> rfl

theorem setAdit_aditLine (s : State) (k n key ln : Nat) (l : Line) :
    (s.setAdit k n l).aditLine key ln = if key = k ∧ ln = n then l else s.aditLine key ln := by
  simp only [State.setAdit, State.aditLine, smod, sget_sset]
  by_cases hk : key = k
  · subst hk
    simp
  · simp [hk]

theorem passPort_aditLine (s : State) (d n key ln : Nat) : (s.passPort d n).aditLine key ln
    = if homeDie n ≠ d ∧ key = aditKey d (homeDie n) ∧ ln = n then {} else s.aditLine key ln := by
  unfold State.passPort
  by_cases h : homeDie n = d
  · rw [if_pos h]
    simp [h]
  · rw [if_neg h, setAdit_aditLine]
    simp [h]

/-! ### Its frame -/

theorem cacheOnly_setMem {s t : State} (m : Memory) (h : CacheOnly s t) : CacheOnly s { t with mem := m } := ⟨h.noted, h.rest, h.tile⟩

theorem cacheOnly_passPort (s : State) (d ln : Nat) : CacheOnly s (s.passPort d ln) := by
  unfold State.passPort
  split
  · exact cacheOnly_refl s
  · exact cacheOnly_setAdit s _ ln {}

theorem cacheOnly_storeByte (s : State) (u : Nat) (nc : Bool) (c : Nat × Byte) : CacheOnly s (s.storeByte u nc c) := by
  unfold State.storeByte
  extract_lets ln s1 s2 l bs
  have h1 : CacheOnly s s1 := by
    by_cases hu : 256 ≤ u
    · have hid : s1 = s.modTile u (fun t => { t with rc := t.rc }) := by simp only [s1, if_pos hu]
      rw [hid]
      exact cacheOnly_setRc s u id
    · have hdrop : s1 = s.modTile u (fun t => { t with rc := sdrop t.rc ln }) := by simp only [s1, if_neg hu]
      rw [hdrop]
      exact cacheOnly_setRc s u (fun m => sdrop m ln)
  split
  · exact cacheOnly_setMem _ h1
  · split
    · exact cacheOnly_trans (cacheOnly_setMem _ h1) (cacheOnly_passPort _ _ ln)
    · split
      · exact cacheOnly_trans h1 (cacheOnly_trans (cacheOnly_roomL2 s1 _ ln) (cacheOnly_of_l2Only (l2Only_setL2 _ _ ln _)))
      · exact cacheOnly_trans (cacheOnly_setMem _ h1) (cacheOnly_passPort _ _ ln)

theorem storeByte_isAtomic (s : State) (u : Nat) (nc : Bool) (c : Nat × Byte) (ln : Nat) : (s.storeByte u nc c).isAtomic ln = s.isAtomic ln := by
  have h := congrArg State.atomicOnly (cacheOnly_storeByte s u nc c).rest
  exact congrArg (sget false · ln) h

/-! ### Where the byte lies -/

/-- The bytes of memory and the lines held of a die after one byte: where the home L2 has room, no other byte of memory changes, and one
line more is held at most. -/
theorem storeByte_room {s : State} {u a : Nat} {b : Byte} {nc : Bool} (hroom : HasRoom s (u % 4) (a / 64)) :
    (∀ x, x ≠ a → sget 0 (s.storeByte u nc (a, b)).mem x = sget 0 s.mem x)
      ∧ (sget [] (s.storeByte u nc (a, b)).l2 (u % 4)).length ≤ (sget [] s.l2 (u % 4)).length + 1 := by
  by_cases hu : 256 ≤ u
  · rw [storeByte_colt hu]
    exact ⟨fun x hx => by simp [hx], Nat.le_succ _⟩
  · have hu := Nat.not_le.mp hu
    obtain hpast | ⟨hnc, hat, hhome⟩ := past_or_home s u nc (a / 64)
    · rw [storeByte_past hu hpast, passPort_mem, passPort_l2]
      exact ⟨fun x hx => by simp [hx], Nat.le_succ _⟩
    · rw [storeByte_home hu hnc hat hhome hroom]
      refine ⟨fun x hx => rfl, ?_⟩
      simp only [State.setL2, smod, sget_sset, if_true]
      exact length_sset_le ..

/-- A byte that leaves the home L2 aside lies in memory (R296, R298). -/
theorem storeByte_mem {s : State} {u a : Nat} {b : Byte} {nc : Bool} (h : 256 ≤ u ∨ PastL2 s u nc (a / 64)) :
    (s.storeByte u nc (a, b)).mem = sset 0 s.mem a b := by
  by_cases hu : 256 ≤ u
  · rw [storeByte_colt hu]
  · rw [storeByte_past (Nat.not_le.mp hu) (h.resolve_left hu), passPort_mem]

/-- The line of the home L2 that holds a stored byte (R298). -/
theorem storedLine_spec (s : State) (d a : Nat) (b : Byte) :
    let l := s.l2Line d (a / 64)
    let l' := storedLine s d a b
    (∀ j, sget false l'.dirty j = (decide (j = a % 64) || sget false l.dirty j))
      ∧ ((l.held = false ∨ l.bytes.length = 64) → ∀ j < 64, nth 0 l'.bytes j =
          if j = a % 64 then b else if l.held then nth 0 l.bytes j else sget 0 s.mem (64 * (a / 64) + j)) := by
  intro l l'
  constructor
  · intro j
    show sget false (sset false l.dirty (a % 64) true) j = _
    by_cases hj : j = a % 64 <;> simp [hj]
  · intro hlen j hj
    show nth 0 (setNth b (if l.held then l.bytes else s.memBytes (64 * (a / 64)) 64) (a % 64)) j = _
    have ha : a % 64 < 64 := Nat.mod_lt a (by decide)
    cases hheld : l.held with
    | true =>
      have h64 : l.bytes.length = 64 := hlen.resolve_left (by simp [hheld])
      simp [nth_setNth, h64, ha]
    | false =>
      have hmem : nth 0 (s.memBytes (64 * (a / 64)) 64) j = sget 0 s.mem (64 * (a / 64) + j) :=
        nth_upTo_map 0 (fun i => sget 0 s.mem (64 * (a / 64) + i)) hj
      have h64 : (s.memBytes (64 * (a / 64)) 64).length = 64 := by simp [State.memBytes, upTo]
      simp only [nth_setNth, h64, ha, and_true, hmem, Bool.false_eq_true, if_false]

/-! ### The whole store -/

theorem landEntry_mem {s : State} {e : Entry} {cells : List (Nat × Byte)} {nc : Bool} (h : e.eff = .mem cells nc) (hf : e.fl = 0) (hm : e.mx = 0) :
    landEntry s e = s.store e.unit nc cells := by
  rw [landEntry_flags (s1 := s.store e.unit nc cells) (by rw [h]; rfl), if_pos ⟨hf, hm⟩]

theorem store_mem (s : State) (u : Nat) (nc : Bool) (cells : List (Nat × Byte)) :
    (s.store u nc cells).mem = (cells.foldl (fun s c => s.storeByte u nc c) s).mem :=
  mem_foldl (fun t ln => touchLine_mem t ln) _ _

/-- A store with room for each of its bytes in the home L2 changes no byte of memory but its own. -/
theorem storeBytes_other {u : Nat} {nc : Bool} {x : Nat} (cells : List (Nat × Byte)) {s : State}
    (hroom : (sget [] s.l2 (u % 4)).length + cells.length ≤ columnLines) (hx : ∀ c ∈ cells, c.1 ≠ x) :
    sget 0 (cells.foldl (fun s c => s.storeByte u nc c) s).mem x = sget 0 s.mem x := by
  induction cells generalizing s with
  | nil => rfl
  | cons c cells ih =>
    obtain ⟨a, b⟩ := c
    rw [List.length_cons] at hroom
    obtain ⟨hmem, hlen⟩ := storeByte_room (s := s) (u := u) (a := a) (b := b) (nc := nc) (.inl (by omega))
    rw [List.foldl_cons, ih (by omega) (fun c hc => hx c (List.mem_cons_of_mem _ hc)), hmem x (hx _ List.mem_cons_self).symm]

/-- A store that leaves the home L2 aside writes its bytes to memory. -/
theorem storeBytes_past {u : Nat} {nc : Bool} (cells : List (Nat × Byte)) {s : State} (h : 256 ≤ u ∨ ∀ c ∈ cells, PastL2 s u nc (c.1 / 64)) :
    (cells.foldl (fun s c => s.storeByte u nc c) s).mem = putCells s.mem cells := by
  induction cells generalizing s with
  | nil => rfl
  | cons c cells ih =>
    obtain ⟨a, b⟩ := c
    have hnext : 256 ≤ u ∨ ∀ c ∈ cells, PastL2 (s.storeByte u nc (a, b)) u nc (c.1 / 64) := h.imp_right fun h c hc => by
      rw [PastL2, storeByte_isAtomic]
      exact h c (List.mem_cons_of_mem _ hc)
    rw [List.foldl_cons, ih hnext, storeByte_mem (h.imp_right fun h => h _ List.mem_cons_self)]
    rfl

/-- What a store leaves of a tile, of the cores and of the hub (R119, R298, R321, R374). -/
theorem store_frame (s : State) (u : Nat) (nc : Bool) (cells : List (Nat × Byte)) (v : Nat) :
    let t := s.store u nc cells
    t.tile v = { s.tile v with rc := (t.tile v).rc, mon := (t.tile v).mon, wakes := (t.tile v).wakes } ∧ t.cores = s.cores ∧ NotedOnly s t := by
  intro t
  have hbytes : CacheOnly s (cells.foldl (fun s c => s.storeByte u nc c) s) := cacheOnly_foldl (fun s c => cacheOnly_storeByte s u nc c) cells s
  have htouch : MemOnly (cells.foldl (fun s c => s.storeByte u nc c) s) t := memOnly_foldl (fun s ln => memOnly_touchLine s ln) _ _
  refine ⟨?_, (memOnly_cores htouch).trans (cacheOnly_cores hbytes), notedOnly_trans hbytes.noted htouch.noted⟩
  exact (htouch.tile v).trans
    (congrArg (fun r : Tile => { r with rc := (t.tile v).rc, mon := (t.tile v).mon, wakes := (t.tile v).wakes }) (hbytes.tile v))

/-! ### The lines of a column -/

theorem storeByte_other_line {s : State} {u a d ln : Nat} {b : Byte} (hroom : HasRoom s (u % 4) (a / 64)) (h : d ≠ u % 4 ∨ ln ≠ a / 64) :
    (s.storeByte u false (a, b)).l2Line d ln = s.l2Line d ln := by
  by_cases hu : 256 ≤ u
  · rw [storeByte_colt hu]
    rfl
  · have hu := Nat.not_le.mp hu
    obtain hpast | ⟨hnc, hat, hhome⟩ := past_or_home s u false (a / 64)
    · rw [storeByte_past hu hpast, State.l2Line, passPort_l2]
      rfl
    · have hother : ¬ (d = u % 4 ∧ ln = a / 64) := by tauto
      rw [storeByte_home hu hnc hat hhome hroom, setL2_l2Line, if_neg hother]
      rfl

/-- A write-back writes the dirty bytes of its line (log 10). -/
theorem writeBack_clean {s : State} {d ln a : Nat} (h : sget false (s.l2Line d ln).dirty (a % 64) = false) :
    sget 0 (s.writeBack d ln).mem a = sget 0 s.mem a := by
  unfold State.writeBack
  extract_lets l
  split
  · rw [noteLoops_mem, noteWaits_mem, setL2_mem]
    refine sget_putCells_other _ _ _ fun c hc => ?_
    have hdirty : sget false l.dirty (c.1 % 64) = true := (List.mem_filter.mp hc).2
    rintro rfl
    exact absurd (h.symm.trans hdirty) (by decide)
  · rfl

theorem nth_mem {α : Type} (d : α) {l : List α} {j : Nat} (h : j < l.length) : nth d l j ∈ l := by
  rw [nth_eq_getD, List.getD_eq_getElem _ _ h]
  exact List.getElem_mem h

/-- The line that leaves a column is one of those it holds (log 91). -/
theorem victim_mem (s : State) {m : SMap Line} (h : 0 < m.length) : victim s m ∈ m.map (fun p => p.1) :=
  List.mem_map_of_mem (nth_mem _ (Nat.mod_lt _ h))

theorem roomL2_cases (s : State) (d ln : Nat) : s.roomL2 d ln = s ∨ (columnLines ≤ (sget [] s.l2 d).length
    ∧ ∃ v ∈ (sget [] s.l2 d).map (fun p => p.1), s.roomL2 d ln = (s.flushL2 d v).fresh) := by
  unfold State.roomL2
  extract_lets m col
  split
  · exact .inl rfl
  next hfull =>
    split
    · exact .inl rfl
    next hcol =>
      have hpos : 0 < col.length := lt_of_lt_of_le (by decide) (Nat.not_lt.mp hcol)
      refine .inr ⟨Nat.not_lt.mp fun h => hfull (.inl h), victim s col, ?_, rfl⟩
      obtain ⟨p, hp, hv⟩ := List.mem_map.mp (victim_mem s hpos)
      exact hv ▸ List.mem_map_of_mem (List.mem_filter.mp hp).1

/-- Settles O60: the bytes of a store one after another, each past the home L2 of its die or in it, and the lines of that L2. -/
theorem storeLanding : Obligations.StoreLanding := by
  unfold Obligations.StoreLanding
  refine ⟨fun s e cells nc a he hf hm hroom ha => ?otherBytes, fun s e cells nc u he hf hm => ?frame,
    fun s e pa bs nc j he hf hm hj hpast => ?inMemory, fun s u a b hu hat hhome hroom => ?inL2, fun s u a b nc hu hpast => ?byteInMemory,
    fun s u a b d ln hroom h => storeByte_other_line hroom h, fun s d ln a h => writeBack_clean h, fun s d ln => roomL2_cases s d ln⟩
  case otherBytes =>
    rw [landEntry_mem he hf hm, store_mem]
    exact storeBytes_other cells hroom ha
  case frame =>
    rw [landEntry_mem he hf hm]
    exact store_frame s e.unit nc cells u
  case inMemory =>
    have hcells : 256 ≤ e.unit ∨ ∀ c ∈ cellsAt pa bs, PastL2 s e.unit nc (c.1 / 64) :=
      hpast.imp_right fun h c hc => h.imp_right fun h => h c hc
    rw [landEntry_mem he hf hm, store_mem, storeBytes_past _ hcells, sget_putCells_cellsAt, if_pos ⟨by omega, by omega⟩, Nat.add_sub_cancel_left]
  case inL2 =>
    dsimp only
    rw [storeByte_home hu rfl hat hhome hroom, setL2_l2Line, if_pos ⟨rfl, rfl⟩]
    exact ⟨rfl, storedLine_spec s (u % 4) a b⟩
  case byteInMemory =>
    dsimp only
    rw [storeByte_past hu hpast]
    refine ⟨passPort_mem .., passPort_l2 .., ?_, fun hne => ?_, fun key ln hkey => ?_⟩
    · rw [tile_of_tiles (passPort_tiles ..)]
      show ((s.modTile u (fun t => { t with rc := sdrop t.rc (a / 64) })).tile u).rc = _
      rw [modTile_eq, setTile_tile, if_pos rfl]
    · rw [passPort_aditLine, if_pos ⟨hne, rfl, rfl⟩]
    · rw [passPort_aditLine, if_neg (by tauto)]
      rfl

end Sys2Proof.Proofs
end

section
/-! The sampling instructions of a Colt (O9): what each answers, and what it leaves in XD (R397 to R400, R405, R406). -/
namespace Sys2Proof.Proofs
open Laws
open Machine hiding Wf

/-- A Colt instruction has left state `t` and value `v` in XD, and the next word is due (R345, R406). -/
def sampledColt (t : State) (c d : Nat) (v : DWord) : State := nextColt (t.modTile (coltUnit c) (fun r => r.setX d v)) c

section colt
variable {s : State} {c d : Nat} (ht : s.turn = .colt c)
include ht

theorem coltOp_ok {f : OpCtx → Nat → Res (State × Nat)} {t : State} {v : Nat} (h : f (lookColt s c 1) c = .ok (t, v)) :
    coltOp s d f = .next (sampledColt t c d (BitVec.ofNat 64 v)) := by
  have hf : f { s := s, u := coltUnit c, slot := 1, n := 0, single := true } c = .ok (t, v) := h
  simp only [coltOp, ht, hf]
  rfl

/-- A Colt instruction that raises ILLEGAL faults the Colt with its word (R64). -/
theorem coltOp_illegal {f : OpCtx → Nat → Res (State × Nat)} {a : Nat} (h : f (lookColt s c 1) c = .error (.trap cILLEGAL 0 a)) :
    coltOp s d f = .next (coltTrap s c cILLEGAL 0 (nth 0 s.hub.routine (s.colt c).pc) 1) := by
  have hf : f { s := s, u := coltUnit c, slot := 1, n := 0, single := true } c = .error (.trap cILLEGAL 0 a) := h
  simp only [coltOp, ht, hf, if_true]

end colt

theorem check_false (cause arg : Nat) : check false cause arg = .error (.trap cause 0 arg) := rfl

theorem bitsOf_low (n hi : Nat) : bitsOf n hi 0 = n % 2 ^ (hi + 1) := by rw [bitsOf, pow_zero, Nat.div_one, Nat.sub_zero]

theorem bit32 (n : Nat) : bitsOf n 32 32 = n / 2 ^ 32 % 2 := rfl

section config
variable {s : State} {c d a : Nat} {v : DWord} (ht : s.turn = .colt c) (hv : rx (lookColt s c 1) a = .ok v)
include ht hv

theorem execSamcfgPar_default (h0 : v = 0) :
    execSamcfgPar d a s = .next (sampledColt (s.modColt c (fun r => { r with par := {} })) c d 0) := by
  rw [execSamcfgPar]
  refine coltOp_ok ht ?_
  simp only [hv, ok_bind, if_pos h0]

theorem execSamcfgPar_loads {p : SPar} (h0 : v ≠ 0) (hr : coltRange (lookColt s c 1) v 64 64 0 = .ok ())
    (hp : readPar ((s.hubRead (s.coltCid c) v.toNat 64).getD []) = .ok p) :
    execSamcfgPar d a s = .next (sampledColt (s.modColt c (fun r => { r with par := p })) c d 0) := by
  rw [execSamcfgPar]
  refine coltOp_ok ht ?_
  simp only [hv, ok_bind, if_neg h0, hr, hp]

theorem execSamcfgPar_refuses {e : Nat} (h0 : v ≠ 0) (hr : coltRange (lookColt s c 1) v 64 64 0 = .ok ())
    (hp : readPar ((s.hubRead (s.coltCid c) v.toNat 64).getD []) = .error e) :
    execSamcfgPar d a s = .next (sampledColt (refuseCfg s c) c d (BitVec.ofNat 64 e)) := by
  rw [execSamcfgPar]
  refine coltOp_ok ht ?_
  simp only [hv, ok_bind, if_neg h0, hr, hp]


theorem execSamcfgVoc_refuses (h : v.toNat % 2 ^ 21 = 0 ∨ 2 ^ 20 < v.toNat % 2 ^ 21 ∨ v.toNat ≠ v.toNat % 2 ^ 21 + 2 ^ 32 * (v.toNat / 2 ^ 32 % 2)) :
    execSamcfgVoc d a s = .next (sampledColt (refuseCfg s c) c d 5) := by
  rw [execSamcfgVoc]
  refine coltOp_ok ht ?_
  simp only [hv, ok_bind, bitsOf_low, bit32]
  exact if_pos h

theorem execSamcfgVoc_loads {n fmt : Nat} (h1 : 1 ≤ n) (hmax : n ≤ 2 ^ 20) (hfmt : fmt ≤ 1) (h : v.toNat = n + 2 ^ 32 * fmt) :
    execSamcfgVoc d a s = .next (sampledColt (s.modColt c (fun r => { r with vocab := n, bf16 := decide (fmt = 1) })) c d 0) := by
  have hn : v.toNat % 2 ^ 21 = n := by omega
  have hf : v.toNat / 2 ^ 32 % 2 = fmt := by omega
  have hok : ¬ (n = 0 ∨ 2 ^ 20 < n ∨ v.toNat ≠ n + 2 ^ 32 * fmt) := by omega
  rw [execSamcfgVoc]
  refine coltOp_ok ht ?_
  simp only [hv, ok_bind, bitsOf_low, bit32, hn, hf, if_neg hok, bitOf]

theorem execSamcfgMask_none (h0 : v = 0) :
    execSamcfgMask d a s = .next (sampledColt (s.modColt c (fun r => { r with mask := none })) c d 0) := by
  subst h0
  rw [execSamcfgMask]
  refine coltOp_ok ht ?_
  simp only [hv, ok_bind]
  rfl

theorem execSamcfgMask_loads (h0 : v ≠ 0) (ha : 64 ∣ v.toNat) (hr : coltRange (lookColt s c 1) v (((s.colt c).vocab + 7) / 8) 1 0 = .ok ()) :
    execSamcfgMask d a s = .next (sampledColt (s.modColt c (fun r => { r with mask := some v.toNat })) c d 0) := by
  have hal : ¬ v.toNat % 64 ≠ 0 := not_not.mpr (Nat.mod_eq_zero_of_dvd ha)
  rw [execSamcfgMask]
  refine coltOp_ok ht ?_
  simp only [hv, ok_bind, if_neg hal, if_pos h0, hr, if_neg h0]

theorem execSamcfgMask_refuses (ha : ¬ 64 ∣ v.toNat) : execSamcfgMask d a s = .next (sampledColt (refuseCfg s c) c d 6) := by
  have hal : v.toNat % 64 ≠ 0 := fun h => ha (Nat.dvd_of_mod_eq_zero h)
  rw [execSamcfgMask]
  refine coltOp_ok ht ?_
  simp only [hv, ok_bind, if_pos hal]

end config

section pair
variable {s : State} {c d a b : Nat} {v w : DWord} (ht : s.turn = .colt c) (hv : rx (lookColt s c 1) a = .ok v) (hw : rx (lookColt s c 1) b = .ok w)

section both
include ht hv hw

theorem execSamcfgSeed_loads : execSamcfgSeed d a b s = .next (sampledColt (s.modColt c (fun r => { r with seed := v, id := w })) c d 0) := by
  rw [execSamcfgSeed]
  refine coltOp_ok ht ?_
  simp only [hv, hw, ok_bind]

theorem execSample_illegal {q : Nat} (h : (s.colt c).vocab = 0) :
    execSample d a b q s = .next (coltTrap s c cILLEGAL 0 (nth 0 s.hub.routine (s.colt c).pc) 1) := by
  rw [execSample]
  refine coltOp_illegal (a := 0) ht ?_
  simp only [hv, hw, ok_bind, h, ne_eq, not_true, decide_false, check_false, raised_bind]

theorem execSample_samples {q : Nat} {bits : Option (List Byte)} (hvoc : (s.colt c).vocab ≠ 0)
    (hr : coltRange (lookColt s c 1) v ((s.colt c).vocab * (if (s.colt c).bf16 then 2 else 4)) 64 0 = .ok ())
    (hbits : (match (s.colt c).mask with
      | none => .ok none
      | some m => coltRange (lookColt s c 1) (BitVec.ofNat 64 m) (((s.colt c).vocab + 7) / 8) 1 0 >>= fun _ =>
        .ok (s.hubRead (s.coltCid c) m (((s.colt c).vocab + 7) / 8)) : Res (Option (List Byte))) = .ok bits) :
    execSample d a b q s = .next (sampledColt s c d
      (match sampleRow (rowLogits (s.colt c).bf16 ((s.hubRead (s.coltCid c) v.toNat ((s.colt c).vocab * (if (s.colt c).bf16 then 2 else 4))).getD []))
          (fun t => match (generalizing := false) bits with
            | none => true
            | some bs => bitAt bs t) (s.colt c).par (draw (s.colt c).seed.toNat (s.colt c).id.toNat w.toNat q) with
        | some n => BitVec.ofNat 64 n
        | none => BitVec.allOnes 64)) := by
  have hop : ∀ o : Option Nat, (match o with
      | some t => (.ok (s, t) : Res (State × Nat))
      | none => .ok (s, 2 ^ 64 - 1)) = .ok (s, o.getD (2 ^ 64 - 1)) := fun o => by cases o <;> rfl
  have hval : ∀ o : Option Nat, BitVec.ofNat 64 (o.getD (2 ^ 64 - 1)) = (match o with
      | some n => BitVec.ofNat 64 n
      | none => BitVec.allOnes 64) := fun o => by cases o <;> rfl
  rw [execSample, ← hval]
  refine coltOp_ok ht ?_
  simp only [hv, hw, ok_bind, hvoc, ne_eq, not_false_eq_true, decide_true, check_true, hr]
  cases hm : (s.colt c).mask with
  | none =>
    simp only [hm] at hbits
    obtain rfl := Except.ok.inj hbits
    exact hop _
  | some m =>
    simp only [hm] at hbits
    refine (congrArg (fun x : Res (Option (List Byte)) => x >>= _) hbits).trans ?_
    exact hop _

omit w hw in
theorem execMaskg_illegal (h : (s.colt c).vocab = 0) :
    execMaskg d a b s = .next (coltTrap s c cILLEGAL 0 (nth 0 s.hub.routine (s.colt c).pc) 1) := by
  rw [execMaskg]
  refine coltOp_illegal (a := 0) ht ?_
  simp only [hv, ok_bind, h, ne_eq, not_true, decide_false, check_false, raised_bind]

end both

section bitmap
include hw

theorem maskTo_ok {cap : Nat} {p : Pda} (hvoc : (s.colt c).vocab ≠ 0) (hr : coltRange (lookColt s c 1) w (maskLines (s.colt c).vocab) 64 1 = .ok ()) :
    maskTo s (lookColt s c 1) c b cap p = .ok (s.hubWrite (s.coltCid c) w.toNat (maskBytes (s.colt c).vocab
      (legalTokens s (s.coltCid c) (s.colt c).vocab cap p)), ((legalTokens s (s.coltCid c) (s.colt c).vocab cap p).filter id).length) := by
  simp only [maskTo, hw, ok_bind, hvoc, ne_eq, not_false_eq_true, decide_true, check_true, hr]

theorem maskTo_illegal {cap : Nat} {p : Pda} (h : (s.colt c).vocab = 0) :
    maskTo s (lookColt s c 1) c b cap p = .error (.trap cILLEGAL 0 0) := by
  simp only [maskTo, hw, ok_bind, h, ne_eq, not_true, decide_false, check_false, raised_bind]

end bitmap

theorem execMaskg_masks (ht : s.turn = .colt c) (hv : rx (lookColt s c 1) a = .ok v) (hw : rx (lookColt s c 1) b = .ok w) (hvoc : (s.colt c).vocab ≠ 0)
    (ha : coltRange (lookColt s c 1) v 64 1 0 = .ok ()) (hr : coltRange (lookColt s c 1) w (maskLines (s.colt c).vocab) 64 1 = .ok ()) :
    let bits := legalTokens s (s.coltCid c) (s.colt c).vocab noCap (readPda s (s.coltCid c) v.toNat)
    execMaskg d a b s = .next (sampledColt (s.hubWrite (s.coltCid c) w.toNat (maskBytes (s.colt c).vocab bits)) c d
      (BitVec.ofNat 64 (bits.filter id).length)) := by
  intro bits
  rw [execMaskg]
  refine coltOp_ok ht ?_
  simp only [hv, ok_bind, hvoc, ne_eq, not_false_eq_true, decide_true, check_true, ha]
  exact maskTo_ok hw hvoc hr

section shadow
include ht hw

theorem execMaskgSh_masks (hvoc : (s.colt c).vocab ≠ 0) (hr : coltRange (lookColt s c 1) w (maskLines (s.colt c).vocab) 64 1 = .ok ()) :
    let bits := legalTokens s (s.coltCid c) (s.colt c).vocab shadowCap (s.colt c).shadow.pda
    execMaskgSh d b s = .next (sampledColt (s.hubWrite (s.coltCid c) w.toNat (maskBytes (s.colt c).vocab bits)) c d
      (BitVec.ofNat 64 (bits.filter id).length)) := by
  intro bits
  rw [execMaskgSh]
  exact coltOp_ok ht (maskTo_ok hw hvoc hr)

theorem execMaskgSh_illegal (h : (s.colt c).vocab = 0) :
    execMaskgSh d b s = .next (coltTrap s c cILLEGAL 0 (nth 0 s.hub.routine (s.colt c).pc) 1) := by
  rw [execMaskgSh]
  exact coltOp_illegal ht (maskTo_illegal hw h)

theorem execPdaadvSh_refuses (h : (s.colt c).shadow.pda.step s (s.coltCid c) (s.colt c).vocab shadowCap w.toNat = none) :
    execPdaadvSh d b s = .next (sampledColt s c d 1) := by
  rw [execPdaadvSh]
  refine coltOp_ok ht ?_
  simp only [hw, ok_bind, h]

theorem execPdaadvSh_advances {p : Pda} (h : (s.colt c).shadow.pda.step s (s.coltCid c) (s.colt c).vocab shadowCap w.toNat = some p) :
    execPdaadvSh d b s = .next (sampledColt (s.modColt c (fun r => { r with shadow := p.shadow })) c d 0) := by
  rw [execPdaadvSh]
  refine coltOp_ok ht ?_
  simp only [hw, ok_bind, h]

end shadow

theorem execPdaadvLd_loads (ht : s.turn = .colt c) (hv : rx (lookColt s c 1) a = .ok v) (hr : coltRange (lookColt s c 1) v 64 1 0 = .ok ()) :
    execPdaadvLd d a s = .next (sampledColt (s.modColt c (fun r => { r with shadow := (readPda s (s.coltCid c) v.toNat).shadow })) c d 0) := by
  rw [execPdaadvLd]
  refine coltOp_ok ht ?_
  simp only [hv, ok_bind, hr]

section memory
include ht hv hw

theorem execPdaadv_refuses (hr : coltRange (lookColt s c 1) v 64 1 1 = .ok ())
    (h : (readPda s (s.coltCid c) v.toNat).step s (s.coltCid c) (s.colt c).vocab noCap w.toNat = none) :
    execPdaadv d a b s = .next (sampledColt s c d 1) := by
  rw [execPdaadv]
  refine coltOp_ok ht ?_
  simp only [hv, hw, ok_bind, hr, h]

theorem execPdaadv_advances {p : Pda} {l : List (Nat × Bool × List Post)} (hr : coltRange (lookColt s c 1) v 64 1 1 = .ok ())
    (h : (readPda s (s.coltCid c) v.toNat).step s (s.coltCid c) (s.colt c).vocab noCap w.toNat = some p)
    (hx : p.syms.mapM (fun y => xlate (lookColt s c 1) (p.stack + y.1) 1) = .ok l) :
    execPdaadv d a b s = .next (sampledColt (storePda s (s.coltCid c) v.toNat p) c d 0) := by
  rw [execPdaadv]
  refine coltOp_ok ht ?_
  simp only [hv, hw, ok_bind, hr, h, hx]

theorem execTokw_refuses (hr : coltRange (lookColt s c 1) v 8 1 0 = .ok ()) (h : seqGet s (s.coltCid c) (v.toNat + 4) 2 ≤ w.toNat % 2 ^ 10) :
    execTokw d a b s = .next (sampledColt s c d 1) := by
  rw [execTokw]
  refine coltOp_ok ht ?_
  simp only [hv, hw, ok_bind, hr, bitsOf_low]
  exact if_pos h

theorem execTokw_reports {r q lane : Nat} (hrec : r = w.toNat % 2 ^ 10) (hq : q = v.toNat + 1024 + 256 * r) (hlane : lane = w.toNat / 2 ^ 16 % 256)
    (hr : coltRange (lookColt s c 1) v 8 1 0 = .ok ()) (h : r < seqGet s (s.coltCid c) (v.toNat + 4) 2)
    (hk : coltRange (lookColt s c 1) (BitVec.ofNat 64 (q + rK0)) 4 1 1 = .ok ())
    (hj : coltRange (lookColt s c 1) (BitVec.ofNat 64 (q + rJREP)) 1 1 1 = .ok ())
    (hl : coltRange (lookColt s c 1) (BitVec.ofNat 64 (v.toNat + 128 + lane / 8)) 1 1 1 = .ok ()) :
    let s1 := seqPut s (s.coltCid c) (q + rK0) 4 (w.toNat / 2 ^ 24 % 16)
    let s2 := seqPut s1 (s.coltCid c) (q + rJREP) 1 (seqGet s (s.coltCid c) (q + rJREP) 1 / 2 * 2 + w.toNat / 2 ^ 28 % 2)
    execTokw d a b s = .next (sampledColt (setReady s2 (s.coltCid c) { seqt := v.toNat } lane) c d 0) := by
  have hbits : bitsOf w.toNat 9 0 = r := (bitsOf_low ..).trans hrec.symm
  have hlow : bitsOf w.toNat 23 16 = lane := hlane.symm
  intro s1 s2
  rw [execTokw]
  refine coltOp_ok ht ?_
  simp only [hv, hw, ok_bind, hr, hbits, hlow, ← hq, if_neg (Nat.not_le.mpr h), hk, hj, hl]
  rfl

end memory

end pair

/-- Settles O9: each instruction from what it answers on the Colt in turn. -/
theorem coltSampling : Obligations.ColtSampling := by
  unfold Obligations.ColtSampling
  refine ⟨fun s c d a v ht hv => ?config, fun s c d a b v w ht hv hw => ?pair⟩
  case config =>
    exact ⟨fun h0 => execSamcfgPar_default ht hv h0, fun h0 hr p hp => execSamcfgPar_loads ht hv h0 hr hp,
      fun h0 hr e he => execSamcfgPar_refuses ht hv h0 hr he, fun h => execSamcfgVoc_refuses ht hv h,
      fun n fmt h1 hmax hfmt h => execSamcfgVoc_loads ht hv h1 hmax hfmt h, fun h0 => execSamcfgMask_none ht hv h0,
      fun h0 ha hr => execSamcfgMask_loads ht hv h0 ha hr, fun ha => execSamcfgMask_refuses ht hv ha⟩
  case pair =>
    refine ⟨execSamcfgSeed_loads ht hv hw,
      fun hvoc => ⟨fun q => execSample_illegal ht hv hw hvoc, execMaskg_illegal ht hv hvoc, execMaskgSh_illegal ht hw hvoc⟩,
      fun q bits hvoc hr hbits => ?sample, fun hvoc ha hr => execMaskg_masks ht hv hw hvoc ha hr, fun hvoc hr => execMaskgSh_masks ht hw hvoc hr,
      fun hr h => execPdaadv_refuses ht hv hw hr h, fun hr p l h hx => execPdaadv_advances ht hv hw hr h hx, fun hr => execPdaadvLd_loads ht hv hr,
      fun h => execPdaadvSh_refuses ht hw h, fun p h => execPdaadvSh_advances ht hw h, fun hr h => execTokw_refuses ht hv hw hr h,
      fun hr h hk hj hl => execTokw_reports ht hv hw rfl rfl rfl hr h hk hj hl⟩
    case sample =>
      refine execSample_samples (bits := bits) ht hv hw hvoc hr ?_
      cases hm : (s.colt c).mask with
      | none =>
        simp only [hm] at hbits
        exact congrArg Except.ok hbits.symm
      | some m =>
        simp only [hm] at hbits
        exact (congrArg (fun r : Res Unit => r >>= fun _ => .ok (s.hubRead (s.coltCid c) m (((s.colt c).vocab + 7) / 8))) hbits.1).trans
          (congrArg Except.ok hbits.2.symm)

end Sys2Proof.Proofs
end

section
/-! What the writes of the Mule, of a boundary and of the hub leave of the state (R277, R296, R366), and what the device does for the
sequences of a loop (R371, R389, R390, R405). -/
namespace Sys2Proof.Proofs
open Laws
open Machine hiding Wf

theorem memOnly_passPort (s : State) (d ln : Nat) : MemOnly s (s.passPort d ln) := by
  unfold State.passPort
  split
  · exact memOnly_refl s
  · exact memOnly_caches s s.mem s.l2 _ s.atomicOnly

theorem memOnly_dropL2Range (s : State) (cid va len : Nat) (back : Bool) : MemOnly s (dropL2Range s cid va len back) := by
  refine memOnly_foldl (fun s i => ?_) _ s
  dsimp only
  split
  · split
    · next pa _ =>
      refine memOnly_foldl (fun s d => ?_) _ s
      split
      · exact memOnly_flushL2 s d _
      · exact memOnly_setL2 s d _ {}
    · exact memOnly_refl s
  · exact memOnly_refl s

theorem memOnly_ctxWrite (s : State) (d cid va : Nat) (bs : List Byte) : MemOnly s (ctxWrite s d cid va bs) := by
  refine memOnly_trans (memOnly_trans (memOnly_dropL2Range s cid va bs.length true) (memOnly_hubWrite _ cid va bs)) (memOnly_foldl (fun s i => ?_) _ _)
  dsimp only
  split
  · split
    · exact memOnly_passPort s d _
    · exact memOnly_refl s
  · exact memOnly_refl s

theorem memOnly_dropDirty (s : State) (pas : List Nat) : MemOnly s (s.dropDirty pas) := by
  refine memOnly_foldl (fun s pa => ?_) pas s
  dsimp only
  split
  · exact memOnly_setL2 s _ _ _
  · exact memOnly_refl s

theorem memOnly_devWrite (s : State) (cid va : Nat) (bs : List Byte) : MemOnly s (s.devWrite cid va bs) :=
  memOnly_trans (memOnly_dropDirty s _) (memOnly_hubWrite _ cid va bs)

theorem memOnly_slots {s t : State} (h : MemOnly s t) (u : Nat) : (t.tile u).slots = (s.tile u).slots := by rw [h.tile u]

/-- The one owner of a slot leaves it. -/
theorem after_single (z v : Slot) {x : Nat} (h : z.owners = [x]) : z.after x v = { v with before := .free, owners := [] } := by
  simp [Slot.after, h]

theorem moved_slots (t : Tile) (x : Nat) : (t.moved x).slots = t.slots := rfl
theorem moved_getSlot (t : Tile) (x z : Nat) : (t.moved x).getSlot z = t.getSlot z := rfl

/-- The end of a transfer changes the launch order of tiles alone. -/
theorem modTile_moved_getSlot (s : State) (u v x z : Nat) : ((s.modTile u (fun t => t.moved x)).tile v).getSlot z = (s.tile v).getSlot z := by
  rw [modTile_eq, setTile_tile]
  split
  · next h => rw [moved_getSlot, h]
  · rfl

theorem movedAll_getSlot (s : State) (x v z : Nat) (keys : List Nat) : ((movedAll s x keys).tile v).getSlot z = (s.tile v).getSlot z := by
  unfold movedAll
  induction keys generalizing s with
  | nil => rfl
  | cons k ks ih => rw [List.foldl_cons, ih, modTile_moved_getSlot]

theorem slotRelease_getSlot (s : State) (u x z v y : Nat) (w : Slot) :
    ((slotRelease s u x z w).tile v).getSlot y = if v = u ∧ y = z then ((s.tile u).getSlot z).after x w else (s.tile v).getSlot y := by
  unfold slotRelease
  rw [modTile_eq, setTile_tile]
  by_cases hv : v = u
  · subst hv
    simp
  · simp [hv]

theorem slotRelease_seqTraps (s : State) (u x z : Nat) (w : Slot) : (slotRelease s u x z w).hub.seqTraps = s.hub.seqTraps := rfl

theorem slotRelease_tile (s : State) {u v : Nat} (x z : Nat) (w : Slot) (h : v ≠ u) : (slotRelease s u x z w).tile v = s.tile v := by
  unfold slotRelease
  rw [modTile_eq, setTile_tile, if_neg h]

theorem key_unit (u : Nat) {z : Nat} (hz : z < 64) : (64 * u + z) / 64 = u ∧ (64 * u + z) % 64 = z := by omega

/-- The state in which the oldest fork copy, from slot z of tile u to slot y of tile v, is complete. -/
def copied (s : State) (u z v y : Nat) (rest : List (Nat × Nat × Nat)) : State :=
  let x := forkXfer (64 * v + y)
  let src := (s.tile u).getSlot z
  let s1 := movedAll { s with hub := { s.hub with forkCopies := rest } } x [64 * u + z, 64 * v + y]
  let s2 := slotRelease s1 u x z { src with st := src.before }
  slotRelease s2 v x y { (s2.tile v).getSlot y with st := .live, bytes := src.bytes }

section fork
variable {s : State} {kern u z v y : Nat} {rest : List (Nat × Nat × Nat)} (hz : z < 64) (hy : y < 64)

include hz hy in
theorem execForkCopyDone_copies (hstall : s.hub.stalled = false) (hq : s.hub.forkCopies = (kern, 64 * u + z, 64 * v + y) :: rest)
    (hmule : forkXfer (64 * v + y) ∈ (s.tile v).mule) (hu : (s.tile u).mayMove (forkXfer (64 * v + y)) = true)
    (hv : (s.tile v).mayMove (forkXfer (64 * v + y)) = true)
    (hb : ((s.tile u).getSlot z).before = .live ∨ ((s.tile u).getSlot z).before = .loaded) :
    execForkCopyDone s = .next (copied s u z v y rest) := by
  have ⟨hau, haz⟩ := key_unit u hz
  have ⟨hbv, hby⟩ := key_unit v hy
  have hfind : s.hub.forkCopies.find? (fun c => (s.tile (c.2.2 / 64)).mule.contains (forkXfer c.2.2) && mayMoveAll s (forkXfer c.2.2) [c.2.1, c.2.2])
      = some (kern, 64 * u + z, 64 * v + y) := by
    rw [hq]
    refine List.find?_cons_of_pos ?_
    simp [mayMoveAll, hau, hbv, hmule, hu, hv]
  have hbytes : ¬(((s.tile u).getSlot z).before = .free ∨ ((s.tile u).getSlot z).before = .spilled) := by
    rcases hb with h | h <;> simp [h]
  unfold execForkCopyDone
  simp only [hfind]
  rw [if_neg (by simp [hstall]), hq, List.erase_cons_head]
  simp only [hau, haz, hbv, hby, if_neg hbytes]
  rfl

theorem copied_source (hne : u ≠ v ∨ z ≠ y) (ho : ((s.tile u).getSlot z).owners = [forkXfer (64 * v + y)]) :
    ((copied s u z v y rest).tile u).getSlot z
      = { (s.tile u).getSlot z with st := ((s.tile u).getSlot z).before, before := .free, owners := [] } := by
  unfold copied
  rw [slotRelease_getSlot, if_neg (by omega), slotRelease_getSlot, if_pos ⟨rfl, rfl⟩, movedAll_getSlot]
  exact after_single _ _ ho

theorem copied_destination (hne : u ≠ v ∨ z ≠ y) (ho : ((s.tile v).getSlot y).owners = [forkXfer (64 * v + y)]) :
    ((copied s u z v y rest).tile v).getSlot y
      = { (s.tile v).getSlot y with st := .live, bytes := ((s.tile u).getSlot z).bytes, before := .free, owners := [] } := by
  unfold copied
  rw [slotRelease_getSlot, if_pos ⟨rfl, rfl⟩, slotRelease_getSlot, if_neg (by omega), movedAll_getSlot]
  exact after_single _ _ ho

include hz hy in
theorem copied_tile {w : Nat} (hu : w ≠ u) (hv : w ≠ v) : (copied s u z v y rest).tile w = s.tile w := by
  unfold copied movedAll
  rw [slotRelease_tile _ _ _ _ hv, slotRelease_tile _ _ _ _ hu]
  simp [(key_unit u hz).1, (key_unit v hy).1, hu, hv]
  rfl

end fork

theorem memOnly_seqTraps {s t : State} (h : MemOnly s t) : t.hub.seqTraps = s.hub.seqTraps := by rw [memOnly_hub h]

/-- The record of a sequence trap in its queue, and the count of the queue (R390). -/
def trapRecorded (s : State) (q : SeqRef) (r when_ : Nat) : State :=
  let n := seqGet s q.cid (q.l.seqt + 168) 8
  (s.hubWrite q.cid (seqGet s q.cid (q.l.seqt + 160) 8 + 16 * (n % 256)) (leBytes 4 9 ++ leBytes 2 q.l.tag ++ leBytes 2 r ++ leBytes 8 when_)).devWrite
    q.cid (q.l.seqt + 168) (leBytes 8 (n + 1))

theorem memOnly_trapRecorded (s : State) (q : SeqRef) (r when_ : Nat) : MemOnly s (trapRecorded s q r when_) :=
  memOnly_trans (memOnly_hubWrite s _ _ _) (memOnly_devWrite _ _ _ _)

/-- A sequence trap posts its record where a trap queue is set. -/
def trapPosted (s : State) (q : SeqRef) (r when_ : Nat) : State :=
  if seqGet s q.cid (q.l.seqt + 160) 8 = 0 then s else (trapRecorded s q r when_).interrupt q.l.irq

theorem interrupt_tile (s : State) (w : Bool) (u : Nat) : (s.interrupt w).tile u = s.tile u := by
  rw [interrupt_eq]
  rfl

theorem interrupt_seqTraps (s : State) (w : Bool) : (s.interrupt w).hub.seqTraps = s.hub.seqTraps := by rw [interrupt_eq]

theorem trapPosted_getSlot (s : State) (q : SeqRef) (r when_ u z : Nat) : ((trapPosted s q r when_).tile u).getSlot z = (s.tile u).getSlot z := by
  unfold trapPosted
  split
  · rfl
  · rw [interrupt_tile, Tile.getSlot, memOnly_slots (memOnly_trapRecorded s q r when_) u, Tile.getSlot]

theorem trapPosted_seqTraps (s : State) (q : SeqRef) (r when_ : Nat) : (trapPosted s q r when_).hub.seqTraps = s.hub.seqTraps := by
  unfold trapPosted
  split
  · rfl
  · rw [interrupt_seqTraps, memOnly_seqTraps (memOnly_trapRecorded s q r when_)]

/-- The state in which the slots of a sequence trap have been spilled to its images. -/
def trapSpilled (s : State) (cid x : Nat) (slots : List (Nat × Nat)) : State :=
  slots.foldl (fun s k =>
    let z := (s.tile (k.1 / 64)).getSlot (k.1 % 64)
    slotRelease (ctxWrite s (k.1 / 64 % 4) cid k.2 ((upTo 32768).map (fun a => sget 0 z.bytes a))) (k.1 / 64) x (k.1 % 64)
      { z with st := .spilled, image := k.2, bytes := [] }) (movedAll s x (slots.map (·.1)))

theorem execSequenceTrapPost_oldest {s : State} {kern r when_ : Nat} {slots : List (Nat × Nat)} {rest : List (Nat × Nat × Nat × List (Nat × Nat))}
    (hstall : s.hub.stalled = false) (hq : s.hub.seqTraps = (kern, r, when_, slots) :: rest)
    (hmay : mayMoveAll s (trapXfer kern r) (slots.map (·.1)) = true) :
    execSequenceTrapPost s = .next (trapPosted (trapSpilled { s with hub := { s.hub with seqTraps := rest } } (s.seqRef kern r).cid (trapXfer kern r) slots)
      (s.seqRef kern r) r when_) := by
  have hfind : s.hub.seqTraps.find? (fun t => mayMoveAll s (trapXfer t.1 t.2.1) (t.2.2.2.map (·.1))) = some (kern, r, when_, slots) := by
    rw [hq]
    exact List.find?_cons_of_pos hmay
  unfold execSequenceTrapPost
  simp only [hfind]
  rw [if_neg (by simp [hstall]), hq, List.erase_cons_head]
  exact (apply_ite Host.Outcome.next _ _ _).symm

theorem trapSpilled_getSlot {s : State} {cid x u z a : Nat} (hz : z < 64) (ho : ((s.tile u).getSlot z).owners = [x]) :
    ((trapSpilled s cid x [(64 * u + z, a)]).tile u).getSlot z
      = { (s.tile u).getSlot z with st := .spilled, image := a, bytes := [], before := .free, owners := [] } := by
  have ⟨hau, haz⟩ := key_unit u hz
  unfold trapSpilled
  simp only [List.foldl_cons, List.foldl_nil, hau, haz]
  rw [slotRelease_getSlot, if_pos ⟨rfl, rfl⟩, Tile.getSlot, memOnly_slots (memOnly_ctxWrite _ _ _ _ _)]
  have hw := movedAll_getSlot s x u z (List.map (·.1) [(64 * u + z, a)])
  exact (after_single _ _ ((congrArg Slot.owners hw).trans ho)).trans (congrArg (fun w : Slot => { w with
    st := .spilled, image := a, bytes := [], before := .free, owners := [] }) hw)

theorem trapSpilled_nil (s : State) (cid x : Nat) : trapSpilled s cid x [] = s := rfl

theorem trapSpilled_seqTraps (s : State) (cid x : Nat) (k : Nat × Nat) : (trapSpilled s cid x [k]).hub.seqTraps = s.hub.seqTraps := by
  unfold trapSpilled
  simp only [List.foldl_cons, List.foldl_nil, List.map_cons, List.map_nil]
  rw [slotRelease_seqTraps, memOnly_seqTraps (memOnly_ctxWrite _ _ _ _ _)]
  rfl

section job
variable {s : State} {c : Nat} {j : Job} {rest : List Job} (hjobs : s.hub.jobs = j :: rest) (hc : c < 16) (hjob : (s.colt c).job = none)
  (hrun : (s.colt c).running = false) (hbusy : ∀ b, b < c → (s.colt b).job ≠ none ∨ (s.colt b).running = true)
  (hstall : s.hub.stalled = false) (hfence : s.hub.fenced = false)

include hc hjob hrun hbusy in
theorem freeColt_find : (upTo 16).find? (fun c => (s.colt c).job.isNone && !(s.colt c).running) = some c := by
  refine List.find?_range_eq_some.mpr ⟨by simp [hjob, hrun], by simpa using hc, fun b hb => ?_⟩
  rcases hbusy b hb with h | h
  · simp [Option.isSome_iff_ne_none, h]
  · simp [h]

include hjobs hc hjob hrun hbusy hstall hfence in
theorem execSamplingJob_takes : execSamplingJob c s =
    .next (if s.hub.routine.isEmpty then runJob { s with hub := { s.hub with jobs := rest } } j
      else startJob { s with hub := { s.hub with jobs := rest } } c j) := by
  unfold execSamplingJob
  rw [hjobs]
  simp only [freeColt_find hc hjob hrun hbusy]
  rw [if_neg (by simp [hstall, hfence])]
  split <;> rfl

end job

/-- The registers x1 to x8 that a job starts with (R405). -/
def jobArgs (s : State) (j : Job) : List Nat :=
  let l := (s.group j.group).loop.getD {}
  [l.seqt, nth 65535 l.lanes j.lane, j.lane, j.logits, j.npos + 256 * j.fmt, (l.vocab * (if j.fmt = 1 then 2 else 4) + 63) / 64 * 64, l.vocab,
    Config.freeValue s.freeCount]

/-- Registers from x1 on, each given its value. -/
theorem foldl_setX_getX (f : Nat → DWord) (t : Tile) (n r : Nat) :
    ((upTo n).foldl (fun t i => t.setX (i + 1) (f i)) t).getX r = if 1 ≤ r ∧ r ≤ n then f (r - 1) else t.getX r := by
  induction n with
  | zero => rw [if_neg (by omega)]; rfl
  | succ n ih =>
    rw [upTo, List.range_succ, List.foldl_append, List.foldl_cons, List.foldl_nil, setX_getX, ← upTo, ih]
    by_cases hr : r = n + 1
    · simp [hr]
    · rw [if_neg (by omega)]
      exact if_congr (by omega) rfl rfl

theorem startJob_getX (s : State) (c r : Nat) (j : Job) :
    ((startJob s c j).tile (coltUnit c)).getX r = if 1 ≤ r ∧ r ≤ 8 then BitVec.ofNat 64 (nth 0 (jobArgs s j) (r - 1)) else 0 := by
  have htile : (startJob s c j).tile (coltUnit c) = (upTo 8).foldl (fun t i => t.setX (i + 1) (BitVec.ofNat 64 (nth 0 (jobArgs s j) i))) {} := by
    unfold startJob
    rw [setColt_tile, setTile_tile, if_pos rfl]
    rfl
  rw [htile, foldl_setX_getX]
  split
  · rfl
  · unfold Tile.getX
    split <;> rfl

theorem startJob_colt (s : State) (c b : Nat) (j : Job) :
    (startJob s c j).colt b = if b = c then { cid := (s.group j.group).cid, job := some j, running := true, pc := 0 } else s.colt b := by
  unfold startJob
  rw [setColt_colt]
  rfl

/-- Settles O27: each service from the state it makes. -/
theorem sequenceServices : Obligations.SequenceServices := by
  unfold Obligations.SequenceServices
  refine ⟨?copy, ?spill, ?post, ?job⟩
  case copy =>
    intro s kern u z v y rest hz hy hne hstall hq src x hmule hu hv hb hsrc hdst
    exact ⟨copied s u z v y rest, execForkCopyDone_copies hz hy hstall hq hmule hu hv hb, rfl, copied_source hne hsrc, copied_destination hne hdst,
      fun w hu hv => copied_tile hz hy hu hv, rfl, rfl⟩
  case spill =>
    intro s kern r when_ u z a rest hz hstall hq hu ho
    exact ⟨_, execSequenceTrapPost_oldest hstall hq (by simpa [mayMoveAll, (key_unit u hz).1] using hu),
      (trapPosted_seqTraps _ _ _ _).trans (trapSpilled_seqTraps _ _ _ _), (trapPosted_getSlot _ _ _ _ _ _).trans (trapSpilled_getSlot hz ho)⟩
  case post =>
    intro s kern r when_ rest hstall hq q s1 trapq n
    have hexec : execSequenceTrapPost s = .next (trapPosted s1 q r when_) := by
      rw [execSequenceTrapPost_oldest hstall hq rfl, trapSpilled_nil]
    have hsame : SameSpace s s1 q.cid := ⟨rfl, rfl, rfl, rfl, rfl, rfl⟩
    have hget : ∀ a, seqGet s1 q.cid a 8 = seqGet s q.cid a 8 := fun a => by rw [seqGet, hubNat_sameSpace hsame, seqGet]
    refine ⟨fun h0 => ?_, fun h0 => ⟨trapRecorded s1 q r when_, ?_, ?_⟩⟩
    · rw [trapPosted, if_pos ((hget _).trans h0)] at hexec
      exact hexec
    · rw [trapPosted, if_neg (fun h => h0 ((hget _).symm.trans h)), interrupt_eq, memOnly_hostPath (memOnly_trapRecorded s1 q r when_)] at hexec
      exact hexec
    · unfold trapRecorded
      rw [hget, hget]
  case job =>
    intro s c j rest hjobs hc hjob hrun hbusy hstall hfence s1
    have hexec := execSamplingJob_takes hjobs hc hjob hrun hbusy hstall hfence
    refine ⟨fun h0 => ?_, fun h0 => ⟨startJob s1 c j, ?_, rfl, ?_⟩⟩
    · rw [if_pos (by rw [h0]; rfl)] at hexec
      exact hexec
    · rw [if_neg (by simpa using h0)] at hexec
      exact hexec
    · rw [startJob_colt, if_pos rfl]
      refine ⟨rfl, rfl, rfl, rfl, ?_, fun r hr => ?_, fun b hb => ?_, rfl⟩
      · exact List.map_congr_left (g := fun i => BitVec.ofNat 64 (nth 0 (jobArgs s j) i)) fun i hi => (startJob_getX s1 c (i + 1) j).trans
          (if_pos ⟨by omega, by have := List.mem_range.mp hi; omega⟩)
      · rw [startJob_getX, if_neg (by omega)]
      · rw [startJob_colt, if_neg hb]
        rfl

end Sys2Proof.Proofs
end

section
/-! How a running engine node carries out its command and completes (R270, R277, R278, R281, R282, R414, R420). -/
namespace Sys2Proof.Proofs
open Laws
open Machine hiding Wf

/-- Nothing changes but cores. -/
def CoresOnly (s t : State) : Prop := { t with cores := s.cores } = s

theorem coresOnly_refl (s : State) : CoresOnly s s := rfl

theorem coresOnly_modCore (s : State) (k : Nat) (f : CoreRec → CoreRec) : CoresOnly s (s.modCore k f) := rfl

theorem coresOnly_trans {s t u : State} (h : CoresOnly s t) (h' : CoresOnly t u) : CoresOnly s u := by
  have hcores := congrArg (fun r : State => { r with cores := s.cores }) h'
  exact hcores.trans h

theorem coresOnly_foldl {α : Type} {f : State → α → State} (h : ∀ s a, CoresOnly s (f s a)) (l : List α) (s : State) : CoresOnly s (l.foldl f s) := by
  induction l generalizing s with
  | nil => exact coresOnly_refl s
  | cons a l ih => exact coresOnly_trans (h s a) (ih (f s a))

section
variable {s t : State} (h : CoresOnly s t)
include h

theorem coresOnly_tile (u : Nat) : t.tile u = s.tile u := by
  have htile := congrArg (fun r : State => r.tile u) h
  exact htile
theorem coresOnly_mem : t.mem = s.mem := by
  have hmem := congrArg State.mem h
  exact hmem
theorem coresOnly_hub : t.hub = s.hub := by
  have hhub := congrArg State.hub h
  exact hhub

end

theorem coresOnly_enterPhase (s : State) (k bid : Nat) : CoresOnly s (enterPhase s k bid) := by
  refine coresOnly_foldl (f := fun t p => _) (fun t p => ?_) s.cores s
  dsimp only
  split
  · exact coresOnly_modCore t p.1 _
  · exact coresOnly_refl t

theorem coresOnly_retryHold (s : State) (k : Nat) : CoresOnly s (retryHold s k) := by
  unfold retryHold
  extract_lets c
  split
  · exact coresOnly_refl s
  · split
    · split
      · exact coresOnly_refl s
      · exact coresOnly_modCore s k _
    · split
      · split
        · exact coresOnly_modCore s k _
        · split
          · exact coresOnly_refl s
          · exact coresOnly_enterPhase s k _
      · exact coresOnly_refl s
    · split
      · exact coresOnly_modCore s k _
      · exact coresOnly_refl s
    · exact coresOnly_refl s

/-- A credit changes the nodes of a tile and its launch order alone. -/
theorem creditNode_frame (t : Tile) (m : Nat) (halted : Bool) : { t.creditNode m halted with nodes := t.nodes, mule := t.mule } = t := by
  unfold Tile.creditNode Tile.launch
  dsimp only
  split
  · split <;> rfl
  · rfl

/-- The tile of a node that completes, before its credits. -/
def nodeEnded (t : Tile) (n : Nat) (fl : Flags) : Tile :=
  { t with resv := t.resv.filter (fun r => decide (r.1 ≠ n)), flags := t.flags ||| fl }.setNode n {}

/-- The credits that the header of a descriptor asks for (R281). -/
def credited (t : Tile) (desc : List Byte) (halted : Bool) : Tile :=
  let b1 := leNat ((desc.drop 1).take 1)
  let t1 := if bitOf b1 5 then t.creditNode (leNat ((desc.drop 2).take 1)) halted else t
  if bitOf b1 6 then t1.creditNode (leNat ((desc.drop 3).take 1)) halted else t1

theorem credited_frame (t : Tile) (desc : List Byte) (halted : Bool) : { credited t desc halted with nodes := t.nodes, mule := t.mule } = t := by
  have hone : ∀ (b : Bool) (t : Tile) (m : Nat), { (if b then t.creditNode m halted else t) with nodes := t.nodes, mule := t.mule } = t := by
    intro b t m
    split
    · exact creditNode_frame t m halted
    · rfl
  unfold credited
  extract_lets b1 t1
  have h1 : { t1 with nodes := t.nodes, mule := t.mule } = t := hone _ t _
  exact (congrArg (fun r : Tile => { r with nodes := t.nodes, mule := t.mule }) (hone _ t1 _)).trans h1

theorem credited_none {t : Tile} {desc : List Byte} {halted : Bool} (h5 : bitOf (leNat ((desc.drop 1).take 1)) 5 = false)
    (h6 : bitOf (leNat ((desc.drop 1).take 1)) 6 = false) : credited t desc halted = t := by
  unfold credited
  simp only [h5, h6, Bool.false_eq_true, if_false]

theorem nodeDone_eq {s : State} {u n : Nat} {cmd : NodeCmd} (fl : Flags) (h : ((s.tile u).getNode n).cmd = some cmd) :
    Machine.nodeDone s u n fl = s.setTile u (credited (nodeEnded (s.tile u) n fl) cmd.desc (decide (s.hub.haltCtx = some (s.core (u / 4)).cid))) := by
  unfold Machine.nodeDone
  simp only [h]
  rfl

section node
variable {s : State} {u n : Nat} {cmd : NodeCmd} (hnode : (s.tile u).getNode n = { st := .running, cmd := some cmd })
  (hstall : s.hub.stalled = false) (hfence : s.hub.fenced = false) (hrel : ¬(dREL cmd.desc = true ∧ dSCOPE cmd.desc = 5))

include hnode hstall hfence hrel in
theorem execNodeComplete_runs {s1 : State} {fl : Flags} (hcoll : ∀ a b c d e, cmd.instr ≠ .coll a b c d e) (hres : cmd.result = 0)
    (hrun : runCmd (nodeAcquire s u cmd) u n cmd = some (s1, fl)) : execNodeComplete u n s = .next (nodeFinish s1 u n cmd fl) := by
  unfold execNodeComplete
  simp only [hnode]
  rw [if_neg (by simp only [hstall, hfence]; rintro (h | h | h | ⟨h, h', -⟩) <;> simp_all)]
  split
  · next hi _ => exact absurd hi (hcoll _ _ _ _ _)
  · rw [if_neg, hrun]
    simp only [hres, ne_eq, not_true, decide_false, Bool.false_or]
    exact Bool.false_ne_true

include hnode hstall hfence hrel in
theorem execNodeComplete_launches {nd sh sw xa fn : Nat} {r : Req} (hi : cmd.instr = .coll nd sh sw xa fn) (hr : collPlace s u n = some r) :
    execNodeComplete u n s = .next (launchColl s u n cmd fn r) := by
  unfold execNodeComplete
  simp only [hnode, hi, hr]
  rw [if_neg (by simp only [hstall, hfence]; rintro (h | h | h | ⟨h, h', -⟩) <;> simp_all)]

end node

theorem collPlace_first {s : State} {u n : Nat} {pre rest : List Req} {r : Req} (hreqs : s.hub.reqs = pre ++ r :: rest)
    (hof : r.ofNode u n = true) (hready : r.ready = false) (hpre : ∀ q ∈ pre, q.ofNode u n = false) : collPlace s u n = some r := by
  unfold collPlace
  rw [hreqs, List.find?_append, List.find?_eq_none.mpr (fun q hq => by simp [hpre q hq]), Option.none_or]
  exact List.find?_cons_of_pos (by simp [hof, hready])

/-- What a request of a running COLL is (R420, R421). -/
def IsCollReq (u n : Nat) (cmd : NodeCmd) (p : Req) : Prop :=
  p.kind = 5 ∧ p.unit = u ∧ p.node = n ∧ p.ready = true ∧ p.sent = false ∧ p.target = dfield cmd.desc 24 2 ∧ p.va = dfield cmd.desc 16 8

theorem collReqs_isCollReq {s : State} {u n fn : Nat} {cmd : NodeCmd} {p : Req} (h : p ∈ collReqs s u n cmd fn) : IsCollReq u n cmd p := by
  unfold collReqs at h
  obtain ⟨_, -, rfl⟩ := List.mem_map.mp h
  exact ⟨rfl, rfl, rfl, rfl, rfl, rfl, rfl⟩

theorem collPieces_ne_nil (runs : List (Nat × Nat)) : collPieces runs ≠ [] := by
  unfold collPieces
  exact List.append_ne_nil_of_right_ne_nil _ (List.cons_ne_nil _ _)

/-- A running COLL has a request at least: the one that carries its counter. -/
theorem collReqs_cons (s : State) (u n : Nat) (cmd : NodeCmd) (fn : Nat) : ∃ q qs, collReqs s u n cmd fn = q :: qs := by
  refine List.exists_cons_of_ne_nil ?_
  unfold collReqs
  dsimp only
  generalize hps : collPieces _ = ps
  obtain ⟨p, ps', rfl⟩ := List.exists_cons_of_ne_nil (hps ▸ collPieces_ne_nil _)
  simp [upTo, List.range_succ_eq_map]

/-- Requests take numbers: the first that of the place, the others new ones. -/
def numberReqs (place next : Nat) (rs : List Req) : List Req :=
  (rs.zip (upTo rs.length)).map (fun r => { r.1 with reqNo := if r.2 = 0 then place else next + r.2 - 1 })

theorem numberReqs_cons (place next : Nat) (q : Req) (qs : List Req) :
    ∃ more, numberReqs place next (q :: qs) = { q with reqNo := place } :: more := by
  simp [numberReqs, upTo, List.range_succ_eq_map]

theorem numberReqs_isCollReq {u n place next : Nat} {cmd : NodeCmd} {rs : List Req} (h : ∀ p ∈ rs, IsCollReq u n cmd p) {p : Req}
    (hp : p ∈ numberReqs place next rs) : IsCollReq u n cmd p := by
  obtain ⟨q, hq, rfl⟩ := List.mem_map.mp hp
  exact h q.1 (List.of_mem_zip hq).1

/-- The place of a COLL in the queue becomes its requests. -/
theorem flatMap_place {pre rest qs : List Req} {r : Req} (hother : ∀ q ∈ pre ++ rest, q.reqNo ≠ r.reqNo) :
    (pre ++ r :: rest).flatMap (fun q => if q.reqNo = r.reqNo then qs else [q]) = pre ++ qs ++ rest := by
  have hkeep : ∀ l : List Req, (∀ q ∈ l, q.reqNo ≠ r.reqNo) → l.flatMap (fun q => if q.reqNo = r.reqNo then qs else [q]) = l := fun l hl => by
    induction l with
    | nil => rfl
    | cons q l ih =>
      rw [List.flatMap_cons, if_neg (hl q List.mem_cons_self), ih (fun p hp => hl p (List.mem_cons_of_mem q hp))]
      rfl
  rw [List.flatMap_append, List.flatMap_cons, if_pos rfl, hkeep pre (fun q hq => hother q (List.mem_append_left _ hq)),
    hkeep rest (fun q hq => hother q (List.mem_append_right _ hq)), List.append_assoc]

theorem memOnly_nodeAcquire (s : State) (u : Nat) (cmd : NodeCmd) : MemOnly s (nodeAcquire s u cmd) := by
  unfold nodeAcquire
  split
  · exact memOnly_acquireAt s u _
  · exact memOnly_refl s

theorem launchColl_reqs (s : State) (u n fn : Nat) (cmd : NodeCmd) (r : Req) : (launchColl s u n cmd fn r).hub.reqs
    = s.hub.reqs.flatMap (fun q => if q.reqNo = r.reqNo then numberReqs r.reqNo s.hub.nextReq (collReqs (nodeAcquire s u cmd) u n cmd fn) else [q]) := by
  have hhub := memOnly_hub (memOnly_nodeAcquire s u cmd)
  have hreqs : (nodeAcquire s u cmd).hub.reqs = s.hub.reqs := by rw [hhub]
  have hnext : (nodeAcquire s u cmd).hub.nextReq = s.hub.nextReq := by rw [hhub]
  rw [← hreqs, ← hnext]
  rfl

theorem launchColl_getNode (s : State) (u n fn : Nat) (cmd : NodeCmd) (r : Req) :
    ((launchColl s u n cmd fn r).tile u).getNode n = (s.tile u).getNode n := by
  have h : ((nodeAcquire s u cmd).tile u).getNode n = (s.tile u).getNode n := by
    rw [(memOnly_nodeAcquire s u cmd).tile u]
    rfl
  exact h

theorem credit_waiting {nd : Node} (hst : nd.st = .waiting) (hcount : nd.count ≤ 1) :
    nd.credit = { nd with st := .running, count := nd.count - 1 } ∧ nd.credit true = { nd with count := nd.count - 1 } := by
  unfold Node.credit
  simp only [hst]
  exact ⟨if_pos ⟨by omega, rfl⟩, if_neg (by simp)⟩

/-- What the Mule makes of the slot of a command, and of memory (R278). -/
def muleMoved (s : State) (u : Nat) (cmd : NodeCmd) (z : Nat) : State × Slot :=
  let va := dfield cmd.desc 16 8
  let sl := (s.tile u).getSlot z
  let bytes := (upTo 32768).map (fun a => sget 0 sl.bytes a)
  match cmd.instr with
  | .zfil _ _ => ((muleRead s cmd.xlate va 32768).1, { st := .loaded, image := va, bytes := putCells [] (cellsAt 0 (muleRead s cmd.xlate va 32768).2) })
  | .zspl _ _ => (muleWrite s (u % 4) cmd.xlate va bytes, { st := .spilled, image := va })
  | _ => (muleWrite s (u % 4) cmd.xlate va bytes, { st := .loaded, image := va, bytes := sl.bytes })

theorem muleRun_one {s : State} {u n z : Nat} {cmd : NodeCmd} (hslots : cmd.slots = (z, 1)) :
    muleRun s u n cmd = slotRelease (muleMoved s u cmd z).1 u n z (muleMoved s u cmd z).2 := by
  unfold muleRun muleMoved
  simp only [hslots, show upTo 1 = [0] from rfl, List.foldl_cons, List.foldl_nil, Nat.add_zero, Nat.mul_zero]
  generalize muleRead s cmd.xlate (dfield cmd.desc 16 8) 32768 = r
  generalize (upTo 32768).map (fun a => sget 0 ((s.tile u).getSlot z).bytes a) = bytes
  split <;> simp_all only

theorem memOnly_muleFlush (s : State) (ln : Nat) : MemOnly s (muleFlush s ln) := memOnly_foldl (fun s d => memOnly_flushL2 s d ln) (upTo 4) s

theorem memOnly_muleWrite (s : State) (d : Nat) (xl : List (Nat × Nat)) (va : Nat) (bs : List Byte) : MemOnly s (muleWrite s d xl va bs) :=
  memOnly_foldl (fun s _ => memOnly_trans (memOnly_trans (memOnly_muleFlush s _) (memOnly_putMem _ _ _)) (memOnly_passPort _ _ _)) _ s

theorem memOnly_muleRead (s : State) (xl : List (Nat × Nat)) (va len : Nat) : MemOnly s (muleRead s xl va len).1 :=
  memOnly_foldl (fun s _ => memOnly_muleFlush s _) _ s

theorem memOnly_muleMoved (s : State) (u : Nat) (cmd : NodeCmd) (z : Nat) : MemOnly s (muleMoved s u cmd z).1 := by
  unfold muleMoved
  extract_lets va sl bytes
  have hread := memOnly_muleRead s cmd.xlate va 32768
  clear_value bytes
  generalize muleRead s cmd.xlate va 32768 = r at hread ⊢
  split
  · exact hread
  · exact memOnly_muleWrite s _ _ _ _
  · exact memOnly_muleWrite s _ _ _ _

section mule
variable {s : State} {u n z : Nat} {cmd : NodeCmd} {rest : List Nat} (hslots : cmd.slots = (z, 1))
  (hnode : (s.tile u).getNode n = { st := .running, cmd := some cmd }) (hmule : (s.tile u).mule = n :: rest)
  (hstall : s.hub.stalled = false) (hfence : s.hub.fenced = false) (hclaims : (s.tile u).claims n = true)
  (howners : ((s.tile u).getSlot z).owners = [n]) (hrel : dREL cmd.desc = false) (hacq : dACQ cmd.desc = false)
  (h5 : bitOf (leNat ((cmd.desc.drop 1).take 1)) 5 = false) (h6 : bitOf (leNat ((cmd.desc.drop 1).take 1)) 6 = false)

/-- The tile whose slot the Mule has left as `v`; `r` holds its cache and monitors. -/
def muleLeft (t r : Tile) (n z : Nat) (v : Slot) : Tile :=
  ({ t with rc := r.rc, mon := r.mon, wakes := r.wakes }.setSlot z { v with before := .free, owners := [] }).moved n

include howners in
/-- The tile once the Mule has left the slot. -/
theorem muleReleased_tile :
    ((slotRelease (muleMoved s u cmd z).1 u n z (muleMoved s u cmd z).2).modTile u (fun t => t.moved n)).tile u
      = muleLeft (s.tile u) ((muleMoved s u cmd z).1.tile u) n z (muleMoved s u cmd z).2 := by
  have hmoved := (memOnly_muleMoved s u cmd z).tile u
  generalize muleMoved s u cmd z = m at hmoved ⊢
  have howners' : ((m.1.tile u).getSlot z).owners = [n] := by
    rw [hmoved]
    exact howners
  rw [modTile_eq, setTile_tile, if_pos rfl, slotRelease, modTile_eq, setTile_tile, if_pos rfl, after_single _ _ howners', muleLeft, ← hmoved]

include hslots hnode hmule hstall hfence hclaims howners hrel hacq h5 h6 in
theorem execMuleTransferComplete_moves : ∃ t, execMuleTransferComplete u n s = .next t ∧ t.mem = (muleMoved s u cmd z).1.mem
    ∧ t.tile u = nodeEnded (muleLeft (s.tile u) ((muleMoved s u cmd z).1.tile u) n z (muleMoved s u cmd z).2) n 0 := by
  have hmay : (s.tile u).mayMove n = true := by simp [Tile.mayMove, hclaims, hmule]
  have hguard : ¬(¬Node.st { st := .running, cmd := some cmd } = .running ∨ (!(s.tile u).mule.contains n) = true ∨ (!(s.tile u).mayMove n) = true
      ∨ s.hub.stalled = true ∨ s.hub.fenced = true ∨ dREL cmd.desc = true ∧ dSCOPE cmd.desc = 5 ∧ rstOutstanding s u = true) := by
    simp [hmay, hmule, hstall, hfence, hrel]
  have htile := muleReleased_tile (s := s) (cmd := cmd) howners
  have hmem : ((slotRelease (muleMoved s u cmd z).1 u n z (muleMoved s u cmd z).2).modTile u (fun t => t.moved n)).mem = (muleMoved s u cmd z).1.mem := rfl
  refine ⟨nodeFinish ((slotRelease (muleMoved s u cmd z).1 u n z (muleMoved s u cmd z).2).modTile u (fun t => t.moved n)) u n cmd 0, ?_, ?_⟩
  · unfold execMuleTransferComplete
    simp only [hnode]
    rw [if_neg hguard, nodeAcquire, if_neg (by simp [hacq]), muleRun_one hslots]
  · generalize (slotRelease (muleMoved s u cmd z).1 u n z (muleMoved s u cmd z).2).modTile u (fun t => t.moved n) = x at htile hmem ⊢
    have hcmd : ((x.tile u).getNode n).cmd = some cmd := by
      rw [htile]
      exact congrArg Node.cmd hnode
    rw [nodeFinish, coresOnly_mem (coresOnly_retryHold _ _), coresOnly_tile (coresOnly_retryHold _ _), nodeRelease, if_neg (by simp [hrel]),
      nodeDone_eq 0 hcmd, credited_none h5 h6, setTile_tile, if_pos rfl, htile]
    exact ⟨hmem, rfl⟩

end mule

theorem nodeEnded_muleLeft_getSlot (t r : Tile) (n z y : Nat) (v : Slot) (fl : Flags) :
    (nodeEnded (muleLeft t r n z v) n fl).getSlot y = if y = z then { v with before := .free, owners := [] } else t.getSlot y :=
  setSlot_getSlot { t with rc := r.rc, mon := r.mon, wakes := r.wakes } z y { v with before := .free, owners := [] }

section moved
variable {s : State} {u z nd xa : Nat} {cmd : NodeCmd}

/-- The bytes of slot z of tile u. -/
def slotBytes (s : State) (u z : Nat) : List Byte := (upTo 32768).map (fun a => sget 0 ((s.tile u).getSlot z).bytes a)

theorem muleMoved_zspl (h : cmd.instr = .zspl nd xa) : muleMoved s u cmd z
    = (muleWrite s (u % 4) cmd.xlate (dfield cmd.desc 16 8) (slotBytes s u z), { st := .spilled, image := dfield cmd.desc 16 8 }) := by
  rw [muleMoved, h, slotBytes]

theorem muleMoved_zsplCopy (h : cmd.instr = .zsplCopy nd xa) : muleMoved s u cmd z
    = (muleWrite s (u % 4) cmd.xlate (dfield cmd.desc 16 8) (slotBytes s u z),
      { st := .loaded, image := dfield cmd.desc 16 8, bytes := ((s.tile u).getSlot z).bytes }) := by
  rw [muleMoved, h, slotBytes]

theorem muleMoved_zfil (h : cmd.instr = .zfil nd xa) : muleMoved s u cmd z
    = ((muleRead s cmd.xlate (dfield cmd.desc 16 8) 32768).1,
      { st := .loaded, image := dfield cmd.desc 16 8, bytes := putCells [] (cellsAt 0 (muleRead s cmd.xlate (dfield cmd.desc 16 8) 32768).2) }) := by
  rw [muleMoved, h]

theorem muleMoved_image (s : State) (u z : Nat) (cmd : NodeCmd) : (muleMoved s u cmd z).2.image = dfield cmd.desc 16 8 := by
  unfold muleMoved
  extract_lets va sl bytes
  split <;> rfl

end moved

/-- Settles O28: the command in turn, the requests of a COLL in its place, and the Mule command by what it makes of its slot. -/
theorem commandCompletion : Obligations.CommandCompletion := by
  unfold Obligations.CommandCompletion
  refine ⟨?run, ?coll, ?done, fun nd hst hcount => credit_waiting hst hcount, ?mule⟩
  case run =>
    intro s s1 u n cmd fl hnode hstall hfence hrel hcoll hres hrun
    exact execNodeComplete_runs hnode hstall hfence hrel hcoll hres hrun
  case coll =>
    intro s u n nd sh sw xa fn cmd hnode hstall hfence hrel hi pre rest r hreqs hof hready hother
    have hplace := collPlace_first hreqs hof hready fun q hq => (hother q (List.mem_append_left _ hq)).2
    obtain ⟨q, qs, hqs⟩ := collReqs_cons (nodeAcquire s u cmd) u n cmd fn
    obtain ⟨more, hmore⟩ := numberReqs_cons r.reqNo s.hub.nextReq q qs
    refine ⟨launchColl s u n cmd fn r, { q with reqNo := r.reqNo }, more, execNodeComplete_launches hnode hstall hfence hrel hi hplace,
      launchColl_getNode s u n fn cmd r, ?_, rfl, fun p hp => ?_⟩
    · rw [launchColl_reqs, hreqs, flatMap_place (fun q hq => (hother q hq).1), hqs, hmore]
    · rw [← hmore, ← hqs] at hp
      exact numberReqs_isCollReq (fun _ => collReqs_isCollReq) hp
  case done =>
    intro s u n cmd fl hcmd t b1
    have ht : t = s.setTile u (credited (nodeEnded (s.tile u) n fl) cmd.desc (decide (s.hub.haltCtx = some (s.core (u / 4)).cid))) := nodeDone_eq fl hcmd
    clear_value t
    subst ht
    have hframe := credited_frame (nodeEnded (s.tile u) n fl) cmd.desc (decide (s.hub.haltCtx = some (s.core (u / 4)).cid))
    have hspad := congrArg Tile.spad hframe
    rw [setTile_tile, if_pos rfl]
    refine ⟨fun h5 h6 => ?_, congrArg Tile.flags hframe, congrArg Tile.resv hframe, hspad, fun v hv => ?_, rfl, rfl, rfl⟩
    · rw [credited_none h5 h6]
      exact ⟨(setNode_getNode _ n n {}).trans (if_pos rfl), fun m hm => (setNode_getNode _ n m {}).trans (if_neg hm)⟩
    · rw [setTile_tile, if_neg hv]
  case mule =>
    intro s u n z nd xa cmd rest i hi hcmd hslots hnode hmule hstall hfence hclaims howners hrel hacq h5 h6
    obtain ⟨t, hexec, hmem, htile⟩ := execMuleTransferComplete_moves hslots hnode hmule hstall hfence hclaims howners hrel hacq h5 h6
    refine ⟨t, hexec, ?_⟩
    have himage := muleMoved_image s u z cmd
    rw [hmem, htile, nodeEnded_muleLeft_getSlot, if_pos rfl]
    generalize hm : muleMoved s u cmd z = m at himage ⊢
    refine ⟨?_, (setNode_getNode _ n n {}).trans (if_pos rfl), himage, rfl, ?_, fun y hy => ?_, fun y => rfl⟩
    · exact (congrArg (List.filter _) hmule).trans (List.filter_cons_of_neg (by simp))
    · intro w r
      have hw : w = muleWrite s (u % 4) cmd.xlate (dfield cmd.desc 16 8) (slotBytes s u z) := rfl
      have hr : r = muleRead s cmd.xlate (dfield cmd.desc 16 8) 32768 := rfl
      clear_value w r
      refine ⟨fun h => ?_, fun h => ?_, fun h => ?_⟩
      · rw [← hm, muleMoved_zspl (hcmd.trans h), ← hw]
        exact ⟨rfl, rfl, rfl⟩
      · rw [← hm, muleMoved_zsplCopy (hcmd.trans h), ← hw]
        exact ⟨rfl, rfl, rfl⟩
      · rw [← hm, muleMoved_zfil (hcmd.trans h), ← hr]
        exact ⟨rfl, rfl, rfl⟩
    · rw [nodeEnded_muleLeft_getSlot, if_neg hy]

end Sys2Proof.Proofs
end

section
/-! The carries of a package scan: a flit that arrives, the pairs of a scan, and what an operation that meets them lands (R256, R259,
R266, R422). -/
namespace Sys2Proof.Proofs
open Laws
open Machine hiding Wf

/-- Another carry in the hub leaves the SCRY records as they were. -/
theorem scryRecs_carriesIn (s : State) (cs : List CarryIn) (kern inst : Nat) :
    scryRecs { s with hub := { s.hub with carriesIn := cs } } kern inst = scryRecs s kern inst := rfl

section flit
variable {s : State} {kern inst : Nat}

theorem carriesTaken_none (h : scryRecs s kern inst = []) : carriesTaken s kern inst = s := by
  unfold carriesTaken
  rw [h]
  rfl

section
variable {k : Nat} {e : Entry} {r : ScryRec} {rest : List (Nat × Entry × ScryRec)} (h : scryRecs s kern inst = (k, e, r) :: rest)
include h

theorem carriesTaken_sends (hown : ∀ c ∈ s.hub.carriesIn, c.kern = kern → c.inst = inst → c.level ≠ 255 → c.pos ≠ r.pq) :
    carriesTaken s kern inst = scrySend s kern inst := by
  have hnone : (s.hub.carriesIn.any fun c => decide (c.kern = kern) && decide (c.inst = inst) && decide (c.level ≠ 255) && decide (c.pos = r.pq)) = false := by
    refine List.any_eq_false.mpr fun c hc hb => ?_
    simp only [Bool.and_eq_true, decide_eq_true_eq] at hb
    obtain ⟨⟨⟨hk, hi⟩, hl⟩, hp⟩ := hb
    exact hown c hc hk hi hl hp
  unfold carriesTaken
  rw [h]
  simp only [List.head?_cons, hnone, Bool.false_eq_true, if_false]

theorem carriesTaken_claims {c : CarryIn} (hc : c ∈ s.hub.carriesIn) (hk : c.kern = kern) (hi : c.inst = inst) (hl : c.level ≠ 255) (hp : c.pos = r.pq) :
    ∃ cs, carriesTaken s kern inst = claimRaises { s with hub := { s.hub with carriesIn := cs } } kern inst := by
  have hany : (s.hub.carriesIn.any fun c => decide (c.kern = kern) && decide (c.inst = inst) && decide (c.level ≠ 255) && decide (c.pos = r.pq)) = true :=
    List.any_eq_true.mpr ⟨c, hc, by simp [hk, hi, hl, hp]⟩
  unfold carriesTaken
  rw [h]
  simp only [List.head?_cons, hany, if_true]
  exact ⟨_, rfl⟩

end
end flit

/-- What another device's claim makes of a core: a participant loses its SCRY, and raises ILLEGAL at its next bundle (log 103). -/
def claimHit (kern inst : Nat) (r : ScryRec) (k : Nat) (c : CoreRec) : CoreRec :=
  if c.group = kern ∧ c.st ≠ .idle ∧ inst / 4 ≤ k ∧ k < inst / 4 + r.ncores then
    { c with inflight := c.inflight.filter (fun e => match e.eff with
               | .scry x => decide (x.inst ≠ inst)
               | _ => true)
             pendTrap := some (cILLEGAL, r.word, false, (upTo r.nroots).map (fun j => inst % 4 + j)) } else c

section claim
variable {s : State} {kern inst k : Nat} {e : Entry} {r : ScryRec} {rest : List (Nat × Entry × ScryRec)}
  (h : scryRecs s kern inst = (k, e, r) :: rest)
include h

theorem claimRaises_frame : (claimRaises s kern inst).tiles = s.tiles ∧ (claimRaises s kern inst).mem = s.mem := by
  unfold claimRaises
  rw [h]
  exact ⟨rfl, rfl⟩

theorem claimRaises_core (j : Nat) : (claimRaises s kern inst).core j = claimHit kern inst r j (s.core j) := by
  unfold claimRaises
  rw [h]
  exact sget_map_keys (claimHit kern inst r) (fun _ => rfl) (if_neg fun hh => hh.2.1 rfl) s.cores

end claim

/-- A participant that a claim reaches holds no entry of the SCRY. -/
theorem claimHit_participant {kern inst j : Nat} {r : ScryRec} {c : CoreRec} (hg : c.group = kern) (hst : c.st ≠ .idle) (hlo : inst / 4 ≤ j)
    (hhi : j < inst / 4 + r.ncores) :
    (claimHit kern inst r j c).pendTrap = some (cILLEGAL, r.word, false, (upTo r.nroots).map (fun i => inst % 4 + i))
      ∧ ∀ e ∈ (claimHit kern inst r j c).inflight, ∀ x, e.eff = .scry x → x.inst ≠ inst := by
  rw [claimHit, if_pos ⟨hg, hst, hlo, hhi⟩]
  refine ⟨rfl, fun e he x hx => ?_⟩
  have hkeep := (List.mem_filter.mp he).2
  rw [hx] at hkeep
  exact of_decide_eq_true hkeep

/-- The state in which the two pairs of the SCRY `e` of core k have taken its place, and its flits are gone. -/
def pairsArrived (s : State) (kern inst k : Nat) (e : Entry) (r : ScryRec) (es : List Entry) : State :=
  let s1 := rebase (s.setCore k { s.core k with inflight := (s.core k).inflight.flatMap (fun y => if y = e then es else [y]) }) k
  { s1 with hub := { s1.hub with carriesIn := takeCarries s1.hub.carriesIn r
                                 carriesOut := s1.hub.carriesOut.filter (fun c => !(decide (c.kern = kern) && decide (c.inst = inst))) } }

section arrival
variable {s : State} {kern inst k : Nat} {e : Entry} {r : ScryRec} (h : scryRecs s kern inst = [(k, e, r)]) (he : e ∈ (s.core k).inflight)
  (hroots : r.nroots = 1) (hstall : s.hub.stalled = false)
include h he hroots hstall

theorem arrivalGuard : ¬((scryRecs s kern inst).length ≠ r.nroots
    ∨ ((scryRecs s kern inst).any fun x => !((s.core x.1).inflight.contains x.2.1)) = true ∨ s.hub.stalled = true) := by
  simp [h, he, hroots, hstall]

theorem execScryCarryArrival_absent (hfail : scryFails s r = true) : execScryCarryArrival kern inst s
    = .next (pairsArrived s kern inst k e r [{ e with eff := pairEff true r.zs (scanFmt r.bf16) r.w none, pend := false, fl := 0 },
        { e with eff := pairEff false r.zx (scanFmt r.bf16) r.w none, pend := false }]) := by
  have hguard := arrivalGuard h he hroots hstall
  unfold execScryCarryArrival
  rw [h] at hguard ⊢
  simp only [List.head?_cons]
  rw [if_neg hguard]
  simp only [hfail, List.foldl_cons, List.foldl_nil, Bool.true_or, if_true]
  rfl

theorem execScryCarryArrival_pairs (hq : r.q = 0) (hfail : scryFails s r = false) {top x : Pair} {f : Flags}
    (hdone : (scryRun s kern inst).done = some (top, [(x, f)])) : execScryCarryArrival kern inst s
    = .next (pairsArrived s kern inst k e r
        [{ e with eff := if 0 < r.rightLevels then pairEff true r.zs (scanFmt r.bf16) r.w top else .none_, pend := false,
                  fl := (nth (none, 0) (scryRun s kern inst).us 0).2 ||| f ||| (scryRun s kern inst).top },
         { e with eff := pairEff false r.zx (scanFmt r.bf16) r.w x, pend := false }]) := by
  have hguard := arrivalGuard h he hroots hstall
  unfold execScryCarryArrival
  rw [h] at hguard ⊢
  simp only [List.head?_cons]
  rw [if_neg hguard]
  simp only [hfail, hdone, List.foldl_cons, List.foldl_nil, hq, hroots]
  by_cases hr : 0 < r.rightLevels
  · simp only [hr, decide_true, if_true]
    rfl
  · simp only [hr, decide_false, if_false]
    rfl

end arrival

/-- Flits are taken one by one, each of this scan. -/
theorem foldl_eraseP_mem (r : ScryRec) (used : List (Nat × Nat)) (cs : List CarryIn) :
    (∀ c ∈ used.foldl (fun (l : List CarryIn) u => l.eraseP (fun c => c.isFrom r u.1 u.2)) cs, c ∈ cs)
    ∧ ∀ c ∈ cs, ¬(c.kern = r.kern ∧ c.inst = r.inst) → c ∈ used.foldl (fun (l : List CarryIn) u => l.eraseP (fun c => c.isFrom r u.1 u.2)) cs := by
  induction used generalizing cs with
  | nil => exact ⟨fun _ hc => hc, fun _ hc _ => hc⟩
  | cons u used ih =>
    obtain ⟨hfrom, hkept⟩ := ih (cs.eraseP fun c => c.isFrom r u.1 u.2)
    refine ⟨fun c hc => List.mem_of_mem_eraseP (hfrom c hc), fun c hc hother => hkept c ?_ hother⟩
    refine (List.mem_eraseP_of_neg fun hp => hother ?_).mpr hc
    simp only [CarryIn.isFrom, Bool.and_eq_true, decide_eq_true_eq] at hp
    exact hp.1.1

theorem takeCarries_mem (cs : List CarryIn) (r : ScryRec) :
    (∀ c ∈ takeCarries cs r, c ∈ cs ∧ ¬(c.kern = r.kern ∧ c.inst = r.inst ∧ c.level = 255))
    ∧ ∀ c ∈ cs, ¬(c.kern = r.kern ∧ c.inst = r.inst) → c ∈ takeCarries cs r := by
  unfold takeCarries
  extract_lets used
  obtain ⟨hfrom, hkept⟩ := foldl_eraseP_mem r used cs
  refine ⟨fun c hc => ?_, fun c hc hother => List.mem_filter.mpr ⟨hkept c hc hother, ?_⟩⟩
  · obtain ⟨hm, hn⟩ := List.mem_filter.mp hc
    exact ⟨hfrom c hm, fun hh => by simp [hh] at hn⟩
  · rcases not_and_or.mp hother with hk | hi
    · simp [hk]
    · simp [hi]

/-- An absent pair lands as the absent bit of its component alone. -/
theorem landEntry_absent {s : State} {e : Entry} {sm : Bool} {z w : Nat} {f : FFmt} (h : e.eff = pairEff sm z f w none) (hf : e.fl = 0) (hm : e.mx = 0) :
    landEntry s e = s.setTile e.unit (if sm then { s.tile e.unit with sabs := true } else { s.tile e.unit with xabs := true }) := by
  have heff : applyEff s e.unit e.slot e.eff
      = (s.setTile e.unit (if sm then { s.tile e.unit with sabs := true } else { s.tile e.unit with xabs := true }), 0, 0) := by
    rw [h]
    rfl
  rw [landEntry_flags heff, if_pos ⟨hf, hm⟩]

/-- A ZLD meets an arrived pair of the slot it names. -/
theorem mem_metPairs_zld {s : State} {k d xd z xa zp : Nat} {i : Issue} {e : Entry} {sm : Bool}
    {p : Option (List (Nat × Byte) × List (Nat × Byte))} (he : e ∈ (s.core k).inflight) (hinter : e.inter = true) (hpend : e.pend = false)
    (heff : e.eff = .scanPair sm zp p) (hu : e.unit = unitOf k d) (hd : d ∈ i.dies 5) (hz : z = zp ∨ z = zp + 1) :
    e ∈ metPairs s k i (.zld xd z xa) := by
  refine List.mem_filter.mpr ⟨he, ?_⟩
  simp only [hinter, hpend, heff, Bool.not_false, Bool.true_and]
  refine List.any_eq_true.mpr ⟨d, hd, ?_⟩
  simp [hu, scnSlots, hz]

/-- Settles O29: each event from the state it makes; the claim reaches each core by itself. -/
theorem scanCarries : Obligations.ScanCarries := by
  unfold Obligations.ScanCarries
  refine ⟨?flit, ?absent, ?pairs, takeCarries_mem, ?landed, ?met, ?claim⟩
  case flit =>
    intro s kern inst level pos absent data s1
    refine ⟨fun h => ?_, fun k e r rest hstall hrec hown => ?_⟩
    · show execCarryFlit kern inst level pos absent data s = _
      unfold execCarryFlit
      rcases h with h | h
      · exact if_pos h
      · by_cases hstall : s.hub.stalled = true
        · exact if_pos hstall
        · exact (if_neg hstall).trans (congrArg _ (carriesTaken_none h))
    · show execCarryFlit kern inst level pos absent data s = _
      unfold execCarryFlit
      exact (if_neg (by simp [hstall])).trans (congrArg _ (carriesTaken_sends (s := s1) hrec hown))
  case absent =>
    intro s kern inst k e r h he hroots hstall hfail es
    exact execScryCarryArrival_absent h he hroots hstall hfail
  case pairs =>
    intro s kern inst k e r top x f h he hroots hq hstall hfail hdone o es
    exact execScryCarryArrival_pairs h he hroots hstall hq hfail hdone
  case landed =>
    intro s e sm z w f h _ hf hm _ t
    have ht : t = s.setTile e.unit (if sm then { s.tile e.unit with sabs := true } else { s.tile e.unit with xabs := true }) := landEntry_absent h hf hm
    clear_value t
    subst ht
    rw [setTile_tile, if_pos rfl]
    refine ⟨fun hs => ?_, fun hs => ?_, ?_, fun y => ?_, fun v hv => ?_, rfl, rfl⟩
    · rw [if_pos hs]
    · rw [if_neg (by simp [hs])]
    · split <;> rfl
    · split <;> rfl
    · rw [setTile_tile, if_neg hv]
  case met =>
    intro s k d xd z xa zp i e sm p he hinter hpend heff hu hd hz
    have hmet := mem_metPairs_zld (xd := xd) (xa := xa) he hinter hpend heff hu hd hz
    refine ⟨hmet, ?_, fun hsched hturn hcan hasleep hh hx hb hnext => ?_⟩
    · rw [modCore_eq, setCore_core, if_pos rfl]
      intro hin
      simpa [hmet] using (List.mem_filter.mp hin).2
    · refine step_quiet (.inl ⟨hsched, rfl⟩) ?_
      rw [fetch_core hturn, fetchCore_slot hcan hasleep hh hx hb, hnext]
      have hne : (!(metPairs s k i (.zld xd z xa)).isEmpty) = true := by
        rw [Bool.not_eq_true', List.isEmpty_eq_false_iff]
        exact List.ne_nil_of_mem hmet
      exact if_pos ⟨rfl, hne⟩
  case claim =>
    intro s kern inst level pos absent data k e r rest hstall h hpos hlevel
    let c : CarryIn := { kern := kern, inst := inst, level := level, pos := pos, absent := decide (absent = 1), data := data }
    let s1 : State := { s with hub := { s.hub with carriesIn := s.hub.carriesIn ++ [c] } }
    obtain ⟨cs, hcs⟩ := carriesTaken_claims (s := s1) (c := c) h (List.mem_append_right _ List.mem_cons_self) rfl rfl hlevel hpos.symm
    have hframe := claimRaises_frame (s := { s1 with hub := { s1.hub with carriesIn := cs } }) h
    have hcore := claimRaises_core (s := { s1 with hub := { s1.hub with carriesIn := cs } }) h
    refine ⟨claimRaises { s1 with hub := { s1.hub with carriesIn := cs } } kern inst, ?_, hframe.1, hframe.2, fun j hg hst hlo hhi => ?_⟩
    · show execCarryFlit kern inst level pos absent data s = _
      unfold execCarryFlit
      exact (if_neg (by simp [hstall])).trans (congrArg _ hcs)
    · rw [hcore]
      exact claimHit_participant hg hst hlo hhi

end Sys2Proof.Proofs
end

section
/-! How the five scan phases issue: the two streams, and the rendezvous of the three others (R254 to R266, R422). -/
namespace Sys2Proof.Proofs
open Laws
open Machine hiding Wf

section stream
variable {c : OpCtx} {sh sw rev a : Nat} {x : ScanSet} {prog : List Word} {ps : List Post}

theorem opSloc_ok (hprep : scanPrep c sh sw rev none = .ok (x, prog)) (hz : slotFree c x.zs = .ok ()) (hz1 : slotFree c (x.zs + 1) = .ok ())
    (hps : scanStream c x prog true a (1 + progLen prog) none = .ok ps) : opSloc sh sw rev a c = .ok (swapPosts (4 + sh) sw ++ ps) := by
  unfold opSloc
  simp only [hprep, ok_bind, hz, hz1, hps]

theorem opSapl_ok (hprep : scanPrep c sh sw rev (some .down) = .ok (x, prog)) (hz : slotFree c x.zx = .ok ()) (hz1 : slotFree c (x.zx + 1) = .ok ())
    (hps : scanStream c x prog false a 1 (readPair c.t c.t.xabs x.zx x) = .ok ps) : opSapl sh sw rev a c = .ok (swapPosts (4 + sh) sw ++ ps) := by
  unfold opSapl
  simp only [hprep, ok_bind, hz, hz1, hps]

end stream

/-- A phase of a rendezvous whose own checks hold on every die meets the others. -/
theorem treeIssue_meets {s : State} {k sh sw rev : Nat} {i : Issue} {ph : TreePhase} {X : Nat → ScanSet × List Word} (hin : InSlot s k 5 i)
    (h : ∀ e ∈ i.dies 5, treeLook ph sh sw rev (look s k 5 e) = .ok (X e)) : treeIssue s ph sh sw rev = .next (rendezvous s k) := by
  have hr : runOn s k 5 (s.core k).bn false (fun o => do
      let _ ← treeLook ph sh sw rev o
      .ok []) (i.dies 5) = { entries := resultsOf s k 5 i fun _ => [] } := runOn_ok (i.dies 5) fun e he => by
    show (treeLook ph sh sw rev (look s k 5 e) >>= fun _ => .ok []) = .ok []
    rw [h e he]
    rfl
  unfold treeIssue
  simp only [hin.turn, hin.issue, hin.branched, hin.slot, hr]
  rfl

section meeting
variable {s : State} {k : Nat} {a : AtPhase} {l : List AtPhase} (hph : phaseOf s k = a :: l) (hgone : spoiledHere s k = [])
  (hlap : overlapping s k = [])
include hph hgone hlap

/-- A phase that no overlapping scan spoils waits for its participants. -/
theorem rendezvous_waits (hg : gather s a.ph 65 [k] = none) : rendezvous s k = s := by
  unfold rendezvous
  simp only [hph, hgone, hlap, hg, List.isEmpty_nil, Bool.not_true, Bool.false_eq_true, if_false]

variable {ats : List AtPhase} (hg : gather s a.ph 65 [k] = some ats) (hbad : mismatched ats = [])
include hg hbad

theorem rendezvous_claimed (hc : claims s ats ≠ []) : rendezvous s k
    = phaseRaises { s with hub := { s.hub with carriesIn := s.hub.carriesIn.filter (fun c => !(claims s ats).contains c) } }
        (ats.map (fun b => (b.k, b.d))) := by
  have hne : (!(claims s ats).isEmpty) = true := by simpa using hc
  unfold rendezvous
  simp only [hph, hgone, hlap, hg, hbad, hne, List.isEmpty_nil, Bool.not_true, Bool.false_eq_true, if_false, if_true]

/-- The results of a phase on the tiles of core j: the new scan state of each among them (R257, R259). -/
def phaseResults (s : State) (ats : List AtPhase) (j : Nat) : List Entry :=
  (ats.filter (fun a => decide (a.k = j))).flatMap (fun a => match a.set with
    | none => []
    | some (x, prog) =>
      let start : List Post := if a.ph = .scry ∧ 1 < x.npkg then [{ lat := 0, eff := .scryStart (unitOf (x.base a.k) (x.dieBase a.d)) }] else []
      (swapPosts (4 + a.sh) a.sw ++ [({ lat := 0, eff := .scanState a.ph.to_ x.word } : Post)] ++ treePosts s ats a x prog ++ start).map
        (fun p : Post => p.entry (s.core j).bn 5 (unitOf a.k a.d)))

theorem rendezvous_issues (hc : claims s ats = []) : rendezvous s k
    = ((ats.map (·.k)).eraseDups).foldl (fun t j => t.modCore j (fun c =>
        { c with issue := c.issue.map (fun i => { i with slot := 6, staged := i.staged ++ phaseResults s ats j }) })) s := by
  unfold rendezvous
  simp only [hph, hgone, hlap, hg, hbad, hc, List.isEmpty_nil, Bool.not_true, Bool.false_eq_true, if_false]
  rfl

end meeting

theorem phaseResults_scanState {s : State} {ats : List AtPhase} {b : AtPhase} {x : ScanSet} {prog : List Word} (hb : b ∈ ats)
    (hres : b.res = .ok (x, prog)) : ∃ f ∈ phaseResults s ats b.k, f.unit = unitOf b.k b.d ∧ f.eff = .scanState b.ph.to_ x.word := by
  have hset : b.set = some (x, prog) := by rw [AtPhase.set, hres]
  refine ⟨({ lat := 0, eff := .scanState b.ph.to_ x.word } : Post).entry (s.core b.k).bn 5 (unitOf b.k b.d), ?_, rfl, rfl⟩
  refine List.mem_flatMap.mpr ⟨b, List.mem_filter.mpr ⟨hb, decide_eq_true rfl⟩, ?_⟩
  simp only [hset]
  exact List.mem_map_of_mem (List.mem_append_left _ (List.mem_append_left _ (List.mem_append_right _ List.mem_cons_self)))

theorem nodup_eraseDups (l : List Nat) : l.eraseDups.Nodup := by
  induction hn : l.length using Nat.strongRecOn generalizing l with
  | ind n ih =>
    cases l with
    | nil => exact List.nodup_nil
    | cons a l =>
      rw [List.eraseDups_cons]
      have hlen : (l.filter (fun b => !b == a)).length < n := by
        rw [← hn, List.length_cons]
        exact Nat.lt_succ_of_le (List.length_filter_le _ l)
      exact List.nodup_cons.mpr ⟨fun h => by simpa using (List.mem_filter.mp (List.mem_eraseDups.mp h)).2, ih _ hlen _ rfl⟩

/-- Settles O5: the two streams from their posts on each die, the three others from the rendezvous. -/
theorem scanOperations : Obligations.ScanOperations := by
  unfold Obligations.ScanOperations
  refine ⟨?stream, ?tree, ?waits, ?issues, ⟨rfl, rfl, rfl, rfl, rfl, rfl⟩, ?event, ?claimed⟩
  case stream =>
    intro s k sh sw rev a i op X prog ps sloc hop hin h
    simp only [List.mem_cons, Prod.mk.injEq, List.not_mem_nil, or_false] at hop
    obtain ⟨rfl, rfl⟩ | ⟨rfl, rfl⟩ := hop
    · refine issueTiles_bundle (op := opSloc sh sw rev a) hin fun e he => ?_
      obtain ⟨hprep, hz, hz1, hps⟩ := h e he
      exact opSloc_ok hprep hz hz1 hps
    · refine issueTiles_bundle (op := opSapl sh sw rev a) hin fun e he => ?_
      obtain ⟨hprep, hz, hz1, hps⟩ := h e he
      exact opSapl_ok hprep hz hz1 hps
  case tree =>
    intro s k sh sw rev a i op ph X hop hin h
    simp only [List.mem_cons, Prod.mk.injEq, List.not_mem_nil, or_false] at hop
    obtain ⟨rfl, rfl⟩ | ⟨rfl, rfl⟩ | ⟨rfl, rfl⟩ := hop
    all_goals exact treeIssue_meets hin h
  case waits =>
    intro s k a l hph hgone hlap hg
    exact rendezvous_waits hph hgone hlap hg
  case issues =>
    intro s k k' a l ats i' hph hgone hlap hg hbad hc hk hi
    refine ⟨phaseResults s ats k', ?_, fun b hb hbk x prog hres => ?_⟩
    · rw [rendezvous_issues hph hgone hlap hg hbad hc, foldl_modCore_core _ (nodup_eraseDups _), if_pos (List.mem_eraseDups.mpr hk)]
      simp only [hi, Option.map_some]
    · subst hbk
      exact phaseResults_scanState hb hres
  case event =>
    intro s k hstall
    show execScanRendezvous k s = _
    unfold execScanRendezvous State.unlessStalled
    rw [if_neg (by simp [hstall])]
  case claimed =>
    intro s k a l ats hph hgone hlap hg hbad hc
    exact rendezvous_claimed hph hgone hlap hg hbad hc

end Sys2Proof.Proofs
end

section
/-! The resume of a core number that the device does not have (R363, R374). -/
namespace Sys2Proof.Proofs
open Laws
open Machine hiding Wf

/-- A core number from 64 on names units from 256 on, where an acquire does nothing: the resume leaves their caches as they were. -/
theorem resumeCore_pastCores_rc (occ drl entry : Nat) (s : State) {k : Nat} (hk : 64 ≤ k) (u : Nat) :
    ((resumeCore occ drl entry s k).tile u).rc = (s.tile u).rc := by
  have hall : (upTo 4).foldl (fun s d => acquireAt s (unitOf k d) 4) s = s := acquiredCore_colt s hk
  unfold resumeCore
  rw [hall]
  rfl

/-- Refutes O26: a resume of core 64, which the device does not have, leaves the read cache of a Colt as it was, which the statement has
empty on every unit of every core number. -/
theorem not_loopBoundary : ¬ Obligations.LoopBoundary := by
  unfold Obligations.LoopBoundary
  intro h
  obtain ⟨-, -, -, hresume, -⟩ := h
  obtain ⟨-, -, -, -, -, -, hrc, -⟩ := hresume coltCaches 64 0 0 0
  have hempty := hrc 0 (by decide)
  rw [resumeCore_pastCores_rc 0 0 0 coltCaches (le_refl 64)] at hempty
  cases hempty

end Sys2Proof.Proofs
end

section
/-! UNMAP: the leaves of a range, their clearing, and the end of its drain (R327, R329, R330, R335). -/
namespace Sys2Proof.Proofs
open Laws
open Machine hiding Wf

/-! ### Leaves -/

/-- The step of the search for a leaf. The proof opens the recursion itself. -/
theorem leafFrom_eq (s : State) (va lvl t : Nat) : leafFrom s va lvl t =
    (let a := t + 8 * vaIndex va lvl
     let e := s.memNat a 8
     if e % 2 = 0 then none
     else if bitOf e 1 then some (a, lvl, bitsOf e 47 8 * 256, e)
     else if lvl = 0 then none else leafFrom s va (lvl - 1) (bitsOf e 47 8 * 256)) := by
  cases lvl <;> rfl

/-- Where the search finds a leaf: at this level, or below the table that the entry names. -/
theorem leafFrom_some {s : State} {va L t : Nat} {l : Nat × Nat × Nat × Nat} : leafFrom s va L t = some l ↔
    (let a := t + 8 * vaIndex va L
     let e := s.memNat a 8
     e % 2 = 1 ∧ ((bitOf e 1 = true ∧ (a, L, bitsOf e 47 8 * 256, e) = l)
       ∨ (bitOf e 1 = false ∧ ∃ n, L = n + 1 ∧ leafFrom s va n (bitsOf e 47 8 * 256) = some l))) := by
  rw [leafFrom_eq]
  dsimp only
  generalize s.memNat (t + 8 * vaIndex va L) 8 = e
  obtain he | he := Nat.mod_two_eq_zero_or_one e
  · simp [he]
  · cases hb : bitOf e 1 <;> cases L <;> simp [he]

/-- What a leaf that the search finds is: an odd word of memory, at an aligned address where the tables are aligned. -/
structure IsLeaf (s : State) (l : Nat × Nat × Nat × Nat) : Prop where
  value : l.2.2.2 = s.memNat l.1 8
  aligned : l.1 % 8 = 0

theorem leafFrom_isLeaf {s : State} {va L t : Nat} {l : Nat × Nat × Nat × Nat} (ht : t % 8 = 0) (h : leafFrom s va L t = some l) : IsLeaf s l := by
  induction L generalizing t with
  | zero =>
    obtain ⟨-, ⟨-, rfl⟩ | ⟨-, n, hn, -⟩⟩ := leafFrom_some.mp h
    · exact ⟨rfl, by dsimp only; omega⟩
    · cases hn
  | succ n ih =>
    obtain ⟨-, ⟨-, rfl⟩ | ⟨-, m, hm, hrest⟩⟩ := leafFrom_some.mp h
    · exact ⟨rfl, by dsimp only; omega⟩
    · obtain rfl := Nat.succ.inj hm
      exact ih (by omega) hrest

/-- Two addresses of one page of a level have one index at that level and above. -/
theorem vaIndex_samePage {va vb lvl L : Nat} (hlvl : lvl ≤ 2) (hL : lvl ≤ L) (hL3 : L ≤ 3) (h : va / pageSize lvl = vb / pageSize lvl) :
    vaIndex va L = vaIndex vb L := by
  interval_cases lvl <;> interval_cases L <;> simp only [pageSize, vaIndex, bitsOf] at h ⊢ <;> omega

theorem leafFrom_level {s : State} {va L t a lvl fr e : Nat} (h : leafFrom s va L t = some (a, lvl, fr, e)) : lvl ≤ L := by
  induction L generalizing t with
  | zero =>
    obtain ⟨-, ⟨-, hl⟩ | ⟨-, n, hn, -⟩⟩ := leafFrom_some.mp h
    · cases hl
      exact le_refl 0
    · cases hn
  | succ n ih =>
    obtain ⟨-, ⟨-, hl⟩ | ⟨-, m, hm, hrest⟩⟩ := leafFrom_some.mp h
    · cases hl
      exact le_refl (n + 1)
    · obtain rfl := Nat.succ.inj hm
      exact Nat.le_succ_of_le (ih hrest)

/-- Two addresses of the page of a leaf find that leaf. -/
theorem leafFrom_samePage {s : State} {va vb lvl L t a fr e : Nat} (hlvl : lvl ≤ 2) (hL : L ≤ 3) (hpage : va / pageSize lvl = vb / pageSize lvl)
    (h : leafFrom s va L t = some (a, lvl, fr, e)) : leafFrom s vb L t = some (a, lvl, fr, e) := by
  induction L generalizing t with
  | zero =>
    have hstep := leafFrom_some.mp h
    rw [vaIndex_samePage hlvl (leafFrom_level h) hL hpage] at hstep
    obtain ⟨hodd, ⟨hleaf, hl⟩ | ⟨-, n, hn, -⟩⟩ := hstep
    · exact leafFrom_some.mpr ⟨hodd, .inl ⟨hleaf, hl⟩⟩
    · cases hn
  | succ n ih =>
    have hstep := leafFrom_some.mp h
    rw [vaIndex_samePage hlvl (leafFrom_level h) hL hpage] at hstep
    obtain ⟨hodd, ⟨hleaf, hl⟩ | ⟨hleaf, m, hm, hrest⟩⟩ := hstep
    · exact leafFrom_some.mpr ⟨hodd, .inl ⟨hleaf, hl⟩⟩
    · obtain rfl := Nat.succ.inj hm
      exact leafFrom_some.mpr ⟨hodd, .inr ⟨hleaf, n, rfl, ih (by omega) hrest⟩⟩

/-! ### What an UNMAP starts -/

/-- The leaves of a range. -/
def rangeLeaves (s : State) (c base len : Nat) : List (Nat × Nat × Nat × Nat) := ((granuleBases base len).filterMap (fun a => leafAt s c a)).eraseDups

/-- The leaves cleared one after another. -/
def leavesCleared (s : State) (leaves : List (Nat × Nat × Nat × Nat)) : State := leaves.foldl (fun s l => s.putMemNat l.1 8 (l.2.2.2 - 1)) s

theorem memOnly_leavesCleared (s : State) (leaves : List (Nat × Nat × Nat × Nat)) : MemOnly s (leavesCleared s leaves) :=
  memOnly_foldl (f := fun (s : State) (l : Nat × Nat × Nat × Nat) => s.putMemNat l.1 8 (l.2.2.2 - 1)) (fun s l => memOnly_putMemNat s l.1 8 _) leaves s

theorem leavesCleared_outside {s : State} {leaves : List (Nat × Nat × Nat × Nat)} {a : Nat} (h : ∀ l ∈ leaves, a < l.1 ∨ l.1 + 8 ≤ a) :
    sget 0 (leavesCleared s leaves).mem a = sget 0 s.mem a := by
  induction leaves generalizing s with
  | nil => rfl
  | cons l ls ih =>
    exact (ih fun m hm => h m (List.mem_cons_of_mem l hm)).trans (putMemNat_get (h l List.mem_cons_self))

theorem memNat_putMemNat_other {s : State} {pa pb len v n : Nat} (h : pb + n ≤ pa ∨ pa + len ≤ pb) : (s.putMemNat pa len v).memNat pb n = s.memNat pb n := by
  unfold State.memNat State.memBytes
  refine congrArg leNat (List.map_congr_left fun i hi => putMemNat_get ?_)
  have := List.mem_range.mp hi
  omega

/-- Each leaf loses its valid bit, however often it is cleared; other leaves' words stay. -/
theorem leavesCleared_value {s0 s : State} {ls : List (Nat × Nat × Nat × Nat)} (hls : ∀ m ∈ ls, IsLeaf s0 m) {l : Nat × Nat × Nat × Nat} (hl : IsLeaf s0 l) :
    (leavesCleared s ls).memNat l.1 8 = if l.1 ∈ ls.map (·.1) then l.2.2.2 - 1 else s.memNat l.1 8 := by
  induction ls generalizing s with
  | nil => rfl
  | cons m ms ih =>
    have hm := hls m List.mem_cons_self
    have hstep : (leavesCleared s (m :: ms)).memNat l.1 8 = if l.1 ∈ ms.map (·.1) then l.2.2.2 - 1 else (s.putMemNat m.1 8 (m.2.2.2 - 1)).memNat l.1 8 :=
      ih fun x hx => hls x (List.mem_cons_of_mem m hx)
    rw [hstep, List.map_cons]
    by_cases hsame : l.1 = m.1
    · have hval : l.2.2.2 = m.2.2.2 := by rw [hl.value, hm.value, hsame]
      have hlt : m.2.2.2 - 1 < 256 ^ 8 := by
        have := memNat_lt s0 m.1 8
        rw [hm.value]
        omega
      rw [if_pos (List.mem_cons.mpr (.inl hsame)), hval, hsame, memNat_putMemNat hlt, ite_self]
    · have hfar : l.1 + 8 ≤ m.1 ∨ m.1 + 8 ≤ l.1 := by
        have := hl.aligned
        have := hm.aligned
        omega
      rw [memNat_putMemNat_other hfar]
      exact if_congr (List.mem_cons.trans (or_iff_right hsame)).symm rfl rfl

/-- The range that an UNMAP marks (R329). -/
def unmapRange (s : State) (p base len : Nat) (leaves : List (Nat × Nat × Nat × Nat)) : Unmapping :=
  { base := base, bytes := len, tm := s.ptime, pkt := p, frames := leaves.map (fun l => (l.2.2.1, pageSize l.2.1)) }

theorem startUnmap_mem (s : State) (p c base len : Nat) : (startUnmap s p c base len).mem = (leavesCleared s (rangeLeaves s c base len)).mem := rfl

theorem startUnmap_started (s : State) (p c base len : Nat) : ((startUnmap s p c base len).pkt p).started = true := by
  unfold startUnmap
  extract_lets
  rw [setPkt_pkt, if_pos rfl]

theorem startUnmap_unmaps (s : State) (p c base len : Nat) : ((startUnmap s p c base len).ctx c).unmaps
    = (s.ctx c).unmaps ++ [unmapRange s p base len (rangeLeaves s c base len)] := by
  have hctx := memOnly_ctx (memOnly_leavesCleared s (rangeLeaves s c base len)) c
  have hnew : ((startUnmap s p c base len).ctx c)
      = { (leavesCleared s (rangeLeaves s c base len)).ctx c with
          unmaps := ((leavesCleared s (rangeLeaves s c base len)).ctx c).unmaps ++ [unmapRange s p base len (rangeLeaves s c base len)] } := by
    exact (setCtx_ctx (leavesCleared s (rangeLeaves s c base len)) c c _).trans (if_pos rfl)
  rw [hnew, hctx]

/-- The range cuts the page of a leaf in it (R329). -/
def CutsPage (s : State) (c base len : Nat) : Prop := ∃ a ∈ granuleBases base len, ∃ l, leafAt s c a = some l
  ∧ (a / pageSize l.2.1 * pageSize l.2.1 < base ∨ base + len < a / pageSize l.2.1 * pageSize l.2.1 + pageSize l.2.1)

section unmap
variable {s : State} {p : Nat} (hhand : s.hub.hand = some p) (hstall : s.hub.stalled = false) (hop : pOP (s.pkt p).bytes = 7) {base len c : Nat}
  (hbase : base = field (s.pkt p).bytes 16 8) (hlen : len = field (s.pkt p).bytes 24 8) (hc : c = (s.pkt p).cid)
include hhand hstall hop hbase hlen hc

theorem execUnmap_refuses (h : base % 65536 ≠ 0 ∨ len % 65536 ≠ 0 ∨ 2 ^ 56 < base + len ∨ CutsPage s c base len) :
    execUnmap s = .next (answer s p stBAD_VALUE 0) := by
  unfold execUnmap
  rw [inHand_some hhand hop hstall]
  dsimp only
  rw [← hbase, ← hlen, ← hc]
  refine if_pos (h.imp_right (Or.imp_right (Or.imp_right ?_)))
  rintro ⟨a, ha, l, hl, hout⟩
  refine List.any_eq_true.mpr ⟨a, ha, ?_⟩
  simp only [hl, Bool.or_eq_true, decide_eq_true_eq]
  exact hout

theorem execUnmap_starts (hb : base % 65536 = 0) (hl : len % 65536 = 0) (hend : base + len ≤ 2 ^ 56) (hcut : ¬CutsPage s c base len)
    (hroom : (s.ctx c).unmaps.length < 64) : execUnmap s = .next (handDone (startUnmap s p c base len)) := by
  unfold execUnmap
  rw [inHand_some hhand hop hstall]
  dsimp only
  rw [← hbase, ← hlen, ← hc]
  refine (if_neg ?_).trans (if_neg (by omega))
  rintro (h | h | h | h)
  · exact h hb
  · exact h hl
  · omega
  · obtain ⟨a, ha, h⟩ := List.any_eq_true.mp h
    cases hleaf : leafAt s c a with
    | none =>
      rw [hleaf] at h
      cases h
    | some l =>
      simp only [hleaf, Bool.or_eq_true, decide_eq_true_eq] at h
      exact hcut ⟨a, ha, l, hleaf, h⟩

end unmap

/-! ### The granules of a page -/

theorem mem_granuleBases {a base len : Nat} (hb : base % 65536 = 0) (hl : 0 < len) (h : a ∈ granuleBases base len) : base ≤ a ∧ a < base + len := by
  simp only [granuleBases, granulesOf, granule, if_neg (Nat.ne_of_gt hl), List.mem_map, upTo, List.mem_range] at h
  obtain ⟨g, ⟨i, hi, rfl⟩, rfl⟩ := h
  omega

theorem base_mem_granuleBases {base len : Nat} (hb : base % 65536 = 0) (hl : 0 < len) : base ∈ granuleBases base len := by
  simp only [granuleBases, granulesOf, granule, if_neg (Nat.ne_of_gt hl), List.mem_map, upTo, List.mem_range]
  exact ⟨base / 65536, ⟨0, by omega, rfl⟩, by omega⟩

theorem pageSize_pos (lvl : Nat) : 0 < pageSize lvl ∧ pageSize lvl % 65536 = 0 := by
  unfold pageSize
  split <;> decide

theorem eraseDups_same {α : Type} [BEq α] [LawfulBEq α] {x : α} {l : List α} (hne : l ≠ []) (h : ∀ y ∈ l, y = x) : l.eraseDups = [x] := by
  obtain ⟨y, ys, rfl⟩ := List.exists_cons_of_ne_nil hne
  obtain rfl := h y List.mem_cons_self
  rw [List.eraseDups_cons, List.filter_eq_nil_iff.mpr fun z hz => by simp [h z (List.mem_cons_of_mem _ hz)], List.eraseDups_nil]

section page
variable {s : State} {c base a lvl fr e : Nat} (hlvl : lvl ≤ 2) (hb : base % pageSize lvl = 0) (h : leafAt s c base = some (a, lvl, fr, e))
include hlvl hb h

/-- Every granule of a leaf's page finds that leaf. -/
theorem leafAt_page {g : Nat} (hg : g ∈ granuleBases base (pageSize lvl)) : leafAt s c g = some (a, lvl, fr, e) ∧ g / pageSize lvl * pageSize lvl = base := by
  obtain ⟨hpos, hgran⟩ := pageSize_pos lvl
  obtain ⟨hlo, hhi⟩ := mem_granuleBases (Nat.mod_eq_zero_of_dvd ((Nat.dvd_of_mod_eq_zero hgran).trans (Nat.dvd_of_mod_eq_zero hb))) hpos hg
  have hdiv : g / pageSize lvl = base / pageSize lvl := by
    obtain ⟨q, rfl⟩ := Nat.dvd_of_mod_eq_zero hb
    rw [Nat.mul_div_cancel_left q hpos]
    exact Nat.div_eq_of_lt_le (by rw [Nat.mul_comm]; exact hlo) (by rw [Nat.add_mul, Nat.one_mul, Nat.mul_comm]; exact hhi)
  exact ⟨leafFrom_samePage hlvl (le_refl 3) hdiv.symm h, by rw [hdiv, Nat.div_mul_cancel (Nat.dvd_of_mod_eq_zero hb)]⟩

theorem rangeLeaves_page : rangeLeaves s c base (pageSize lvl) = [(a, lvl, fr, e)] := by
  obtain ⟨hpos, hgran⟩ := pageSize_pos lvl
  have hbase := base_mem_granuleBases (Nat.mod_eq_zero_of_dvd ((Nat.dvd_of_mod_eq_zero hgran).trans (Nat.dvd_of_mod_eq_zero hb))) hpos
  refine eraseDups_same (List.ne_nil_of_mem (List.mem_filterMap.mpr ⟨base, hbase, h⟩)) fun y hy => ?_
  obtain ⟨g, hg, hy⟩ := List.mem_filterMap.mp hy
  rw [(leafAt_page hlvl hb h hg).1] at hy
  exact (Option.some.inj hy).symm

theorem not_cutsPage_page : ¬CutsPage s c base (pageSize lvl) := by
  rintro ⟨g, hg, l, hl, hout⟩
  obtain ⟨hleaf, hvb⟩ := leafAt_page hlvl hb h hg
  obtain rfl := Option.some.inj (hleaf.symm.trans hl)
  dsimp only at hout
  omega

end page

/-! ### The end of the drain -/

/-- No packet of the context is an UNMAP that waits outside its queue (R329). -/
def NoneWaits (c : Nat) (s : State) : Prop := ∀ x ∈ s.hub.pkts, x.2.cid = c → pOP x.2.bytes = 7 → x.2.started = false → x.2.outcome ≠ none

theorem noneWaits_map {c : Nat} {s t : State} {f : Pkt → Pkt} (hf : ∀ k, ∃ seen watch, f k = { k with seen := seen, watch := watch })
    (ht : t.hub.pkts = s.hub.pkts.map (fun p => (p.1, f p.2))) (h : NoneWaits c s) : NoneWaits c t := by
  intro x hx hc hop hst
  rw [ht] at hx
  obtain ⟨y, hy, rfl⟩ := List.mem_map.mp hx
  obtain ⟨seen, watch, hk⟩ := hf y.2
  dsimp only at hc hop hst ⊢
  rw [hk] at hc hop hst ⊢
  exact h y hy hc hop hst

theorem noneWaits_of_pkts {c : Nat} {s t : State} (ht : t.hub.pkts = s.hub.pkts) (h : NoneWaits c s) : NoneWaits c t := fun x hx => h x (ht ▸ hx)

theorem noneWaits_noteWaits {c : Nat} {s : State} (ln : Nat) (h : NoneWaits c s) : NoneWaits c (s.noteWaits ln) := by
  unfold State.noteWaits
  split
  · refine noneWaits_map (f := noteWait s.mem s.ptime ln) (fun k => ?_) rfl h
    unfold noteWait
    split
    · split
      · exact ⟨_, _, rfl⟩
      · exact ⟨_, _, rfl⟩
    · exact ⟨_, _, rfl⟩
  · exact h

theorem noneWaits_writeBack {c : Nat} {s : State} (d ln : Nat) (h : NoneWaits c s) : NoneWaits c (s.writeBack d ln) := by
  unfold State.writeBack
  extract_lets l
  split
  · have hset : NoneWaits c (({ s with mem := putCells s.mem (l.written ln) }).setL2 d ln { l with dirty := [] }) := h
    refine noneWaits_of_pkts ?_ (noneWaits_noteWaits ln hset)
    unfold State.noteLoops
    split <;> rfl
  · exact h

theorem coresOnly_ctx {s t : State} (h : CoresOnly s t) (c : Nat) : t.ctx c = s.ctx c := by
  have hctx := congrArg (fun r : State => r.ctx c) h
  exact hctx

theorem coresOnly_l2 {s t : State} (h : CoresOnly s t) : t.l2 = s.l2 := by
  have hl2 := congrArg State.l2 h
  exact hl2

theorem coresOnly_atomicOnly {s t : State} (h : CoresOnly s t) : t.atomicOnly = s.atomicOnly := by
  have hmarks := congrArg State.atomicOnly h
  exact hmarks

theorem startWaiting_none {c : Nat} {s : State} (h : NoneWaits c s) (n : Nat) : startWaiting s c n = s := by
  cases n with
  | zero => rfl
  | succ n =>
    have hfind : s.hub.pkts.find? (fun p => decide (p.2.cid = c) && decide (pOP p.2.bytes = 7) && !p.2.started && p.2.outcome.isNone
        && decide (s.hub.hand ≠ some p.1)) = none := by
      refine List.find?_eq_none.mpr fun x hx hp => ?_
      simp only [Bool.and_eq_true, decide_eq_true_eq, Bool.not_eq_true', Option.isNone_iff_eq_none] at hp
      obtain ⟨⟨⟨⟨hc, hop⟩, hst⟩, ho⟩, -⟩ := hp
      exact h x hx hc hop hst ho
    unfold startWaiting
    rw [hfind]
    exact ite_self s

theorem coresOnly_retryHolds (s : State) : CoresOnly s (retryHolds s) := by
  unfold retryHolds State.unlessStalled
  split
  · exact coresOnly_refl s
  · exact coresOnly_foldl (f := fun (s : State) (p : Nat × CoreRec) => retryHold s p.1) (fun s p => coresOnly_retryHold s p.1) s.cores s

/-- Lines of a home L2 written back. -/
def linesWritten (s : State) (inF : Nat → Bool) (d : Nat) : State := (sget [] s.l2 d).foldl (fun s p => if inF p.1 then s.writeBack d p.1 else s) s

theorem memOnly_linesWritten (s : State) (inF : Nat → Bool) (d : Nat) : MemOnly s (linesWritten s inF d) := by
  refine memOnly_foldl (f := fun (s : State) (p : Nat × Line) => if inF p.1 then s.writeBack d p.1 else s) (fun s p => ?_) _ s
  split
  · exact memOnly_writeBack s d p.1
  · exact memOnly_refl s

theorem noneWaits_linesWritten {c : Nat} {s : State} (inF : Nat → Bool) (d : Nat) (h : NoneWaits c s) : NoneWaits c (linesWritten s inF d) := by
  refine foldl_holds (P := NoneWaits c) (fun t p ht => ?_) _ h
  split
  · exact noneWaits_writeBack d p.1 ht
  · exact ht

/-- A line of the frames (R330). -/
def inFrames (fr : List (Nat × Nat)) (ln : Nat) : Bool := fr.any (fun f => decide (f.1 ≤ 64 * ln) && decide (64 * ln < f.1 + f.2))

section purge
variable (s : State) (fr : List (Nat × Nat))

theorem memOnly_framesWritten : MemOnly s ((upTo 4).foldl (fun s d => linesWritten s (inFrames fr) d) s) :=
  memOnly_foldl (fun s d => memOnly_linesWritten s (inFrames fr) d) _ s

theorem purgeFrames_ctx (c : Nat) : (purgeFrames s fr).ctx c = { s.ctx c with saved := ((purgeFrames s fr).ctx c).saved } := by
  have hwritten := memOnly_ctx (memOnly_framesWritten s fr) c
  have hctx : ∃ saved, (purgeFrames s fr).ctx c = { ((upTo 4).foldl (fun s d => linesWritten s (inFrames fr) d) s).ctx c with saved := saved } := by
    unfold purgeFrames
    extract_lets inF keep s1 entries
    rw [show State.ctx (retryHolds _) c = _ from coresOnly_ctx (coresOnly_retryHolds _) c]
    exact ⟨_, sget_map_keys (fun _ (x : Ctx) => { x with saved := x.saved.map (fun v => { v with tiles := v.tiles.map (fun t => (t.1, entries t.2)) }) })
      (fun _ => rfl) rfl s1.ctxs⟩
  obtain ⟨saved, hs⟩ := hctx
  rw [hs, hwritten]

theorem purgeFrames_outcome (p : Nat) : ((purgeFrames s fr).pkt p).outcome = (s.pkt p).outcome := by
  have hwritten := memOnly_outcome (memOnly_framesWritten s fr) p
  unfold purgeFrames
  extract_lets inF keep s1 entries
  rw [State.pkt, coresOnly_hub (coresOnly_retryHolds _), ← hwritten]
  refine (congrArg Pkt.outcome (sget_map_keys (fun _ (k : Pkt) => match k.watch with
    | some w => if inF (w.1 / 64) then { k with watch := none } else k
    | none => k) (fun _ => rfl) rfl s1.hub.pkts)).trans ?_
  split
  · split <;> rfl
  · rfl

theorem noneWaits_purgeFrames {c : Nat} (h : NoneWaits c s) : NoneWaits c (purgeFrames s fr) := by
  have hwritten : NoneWaits c ((upTo 4).foldl (fun s d => linesWritten s (inFrames fr) d) s) :=
    foldl_holds (P := NoneWaits c) (fun t d ht => noneWaits_linesWritten (inFrames fr) d ht) _ h
  unfold purgeFrames
  extract_lets inF keep s1 entries
  refine noneWaits_of_pkts (congrArg Hub.pkts (coresOnly_hub (coresOnly_retryHolds _))) (noneWaits_map (s := s1) (f := fun k => match k.watch with
    | some w => if inF (w.1 / 64) then { k with watch := none } else k
    | none => k) (fun k => ?_) rfl hwritten)
  split
  · split
    · exact ⟨_, _, rfl⟩
    · exact ⟨_, _, rfl⟩
  · exact ⟨_, _, rfl⟩

variable {fr} in
/-- The lines of frames leave every home L2 and are atomic-only no more. -/
theorem purgeFrames_lines {ln : Nat} (h : inFrames fr ln = true) (d : Nat) : (purgeFrames s fr).l2Line d ln = {} ∧ (purgeFrames s fr).isAtomic ln = false := by
  unfold purgeFrames
  extract_lets inF keep s1 entries
  have hdrop : (!(inF ln)) = false := by rw [Bool.not_eq_false']; exact h
  constructor
  · rw [State.l2Line, coresOnly_l2 (coresOnly_retryHolds _)]
    refine (congrArg (fun m => sget ({} : Line) m ln) (sget_map_keys (fun _ m => keep m) (fun _ => rfl) rfl s1.l2)).trans ?_
    exact (sget_filter_keys ({} : Line) (fun n => !(inF n)) _ ln).trans (if_neg (by simp [hdrop]))
  · rw [State.isAtomic, coresOnly_atomicOnly (coresOnly_retryHolds _)]
    exact (sget_filter_keys false (fun n => !(inF n)) _ ln).trans (if_neg (by simp [hdrop]))

end purge

theorem mem_insertBy {α : Type} {key : α → Nat} {x y : α} {l : List α} : x ∈ insertBy key y l ↔ x = y ∨ x ∈ l := by
  induction l with
  | nil => simp [insertBy]
  | cons z l ih =>
    unfold insertBy
    split
    · exact List.mem_cons
    · rw [List.mem_cons, ih, List.mem_cons]
      exact or_left_comm

theorem mem_sortBy {α : Type} {key : α → Nat} {x : α} {l : List α} (h : x ∈ l) : x ∈ sortBy key l := by
  unfold sortBy
  exact foldl_reaches (f := fun acc a => insertBy key a acc) (P := fun acc : List α => x ∈ acc) (Q := fun _ => True) h (fun acc y hx => mem_insertBy.mpr (.inr hx)) (fun _ _ _ => .inr trivial)
    (fun acc _ => mem_insertBy.mpr (.inl rfl)) trivial

/-- A frame of the pool that a range held returns to it (R330, R335). -/
theorem poolBack_returns {x : Ctx} {fr : List (Nat × Nat)} {f : Nat} (hf : f ∈ x.taken) (hin : fr.any (fun r => decide (r.1 ≤ f) && decide (f < r.1 + r.2)) = true) :
    f ∈ (poolBack x fr).pool ∧ f ∉ (poolBack x fr).taken := by
  have hback : f ∈ x.taken.filter (fun t => fr.any (fun r => decide (r.1 ≤ t) && decide (t < r.1 + r.2))) := List.mem_filter.mpr ⟨hf, hin⟩
  refine ⟨mem_sortBy (List.mem_append_right _ hback), fun h => ?_⟩
  have hout := (List.mem_filter.mp h).2
  rw [Bool.not_eq_true', List.contains_eq_mem, decide_eq_false_iff_not] at hout
  exact hout hback

section drain
variable {s : State} {c : Nat} {u : Unmapping} {rest : List Unmapping} (hu : (s.ctx c).unmaps = u :: rest) (hleased : leased s c u = false)
  (hstall : s.hub.stalled = false)

theorem mem_sput {β : Type} {m : SMap β} {k : Nat} {v : β} {x : Nat × β} (h : x ∈ sput m k v) : x ∈ m ∨ x = (k, v) := by
  induction m with
  | nil => exact .inr (List.mem_singleton.mp h)
  | cons e m ih =>
    obtain ⟨j, w⟩ := e
    unfold sput at h
    split at h
    · obtain rfl | h := List.mem_cons.mp h
      · exact .inr rfl
      · exact .inl (List.mem_cons_of_mem _ h)
    · split at h
      · obtain rfl | h := List.mem_cons.mp h
        · exact .inr rfl
        · exact .inl h
      · obtain rfl | h := List.mem_cons.mp h
        · exact .inl List.mem_cons_self
        · exact (ih h).imp_left (List.mem_cons_of_mem _)

theorem mem_sset {β : Type} [DecidableEq β] {d : β} {m : SMap β} {k : Nat} {v : β} {x : Nat × β} (h : x ∈ sset d m k v) : x ∈ m ∨ x = (k, v) := by
  unfold sset at h
  split at h
  · exact .inl (List.mem_filter.mp h).1
  · exact mem_sput h

/-- The state in which the range u of context c is unmapped, and its packet done. -/
def unmapped (s : State) (c : Nat) (u : Unmapping) : State :=
  pktOutcome ((purgeFrames s u.frames).modCtx c (fun x => poolBack { x with unmaps := x.unmaps.filter (fun v => decide (v ≠ u)) } u.frames)) u.pkt stOK 0

theorem unmapped_ctx (s : State) (c : Nat) (u : Unmapping) : (unmapped s c u).ctx c
    = poolBack { (purgeFrames s u.frames).ctx c with unmaps := ((purgeFrames s u.frames).ctx c).unmaps.filter (fun v => decide (v ≠ u)) } u.frames := by
  unfold unmapped
  generalize purgeFrames s u.frames = t
  have hctxs := congrArg State.ctxs (pktOutcome_frame (t.modCtx c (fun x => poolBack { x with unmaps := x.unmaps.filter (fun v => decide (v ≠ u)) } u.frames)) u.pkt stOK 0)
  rw [State.ctx]
  refine (congrArg (fun m => sget ({} : Ctx) m c) hctxs).trans ?_
  exact (setCtx_ctx t c c _).trans (if_pos rfl)

theorem unmapped_outcome (h : (s.pkt u.pkt).outcome = none) : ((unmapped s c u).pkt u.pkt).outcome = some (0, 0) := by
  have hpurge := (purgeFrames_outcome s u.frames u.pkt).trans h
  unfold unmapped
  generalize purgeFrames s u.frames = t at hpurge ⊢
  exact pktOutcome_outcome (s := t.modCtx c _) hpurge stOK 0

theorem unmapped_l2Line (d ln : Nat) : (unmapped s c u).l2Line d ln = (purgeFrames s u.frames).l2Line d ln := by
  unfold unmapped
  generalize purgeFrames s u.frames = t
  have h := congrArg (fun r : State => r.l2Line d ln) (pktOutcome_frame (t.modCtx c fun x => poolBack { x with unmaps := x.unmaps.filter (fun v => decide (v ≠ u)) } u.frames) u.pkt stOK 0)
  exact h

theorem unmapped_isAtomic (ln : Nat) : (unmapped s c u).isAtomic ln = (purgeFrames s u.frames).isAtomic ln := by
  unfold unmapped
  generalize purgeFrames s u.frames = t
  have h := congrArg (fun r : State => r.isAtomic ln) (pktOutcome_frame (t.modCtx c fun x => poolBack { x with unmaps := x.unmaps.filter (fun v => decide (v ≠ u)) } u.frames) u.pkt stOK 0)
  exact h

theorem noneWaits_unmapped (h : NoneWaits c s) : NoneWaits c (unmapped s c u) := by
  have hpurge := noneWaits_purgeFrames s u.frames h
  unfold unmapped pktOutcome
  generalize purgeFrames s u.frames = t at hpurge ⊢
  extract_lets t1
  split
  · exact hpurge
  · intro x hx hc hop hst
    obtain hx | rfl := mem_sset hx
    · exact hpurge x hx hc hop hst
    · exact Option.some_ne_none _

include hu hleased hstall in
theorem execUnmapDrainDone_ends (h : NoneWaits c s) : execUnmapDrainDone c s = .next (unmapped s c u) := by
  have hfind : (s.ctx c).unmaps.find? (fun u => !(leased s c u)) = some u := by
    rw [hu]
    exact List.find?_cons_of_pos (by rw [hleased]; rfl)
  unfold execUnmapDrainDone
  simp only [hfind]
  rw [if_neg (by simp [hstall])]
  have hsame := startWaiting_none (noneWaits_unmapped (u := u) h) 64
  refine congrArg Host.Outcome.next ((if_pos (by rw [hu]; rfl)).trans hsame)

end drain

/-- What an UNMAP that starts makes of the state (R329, R330). -/
structure Started (s t : State) (p c base len : Nat) : Prop where
  hand : t.hub.hand = none
  started : (t.pkt p).started = true
  mem : t.mem = (leavesCleared s (rangeLeaves s c base len)).mem
  unmaps : (t.ctx c).unmaps = (s.ctx c).unmaps ++ [unmapRange s p base len (rangeLeaves s c base len)]

theorem handDone_startUnmap (s : State) (p c base len : Nat) : Started s (handDone (startUnmap s p c base len)) p c base len :=
  ⟨rfl, startUnmap_started s p c base len, startUnmap_mem s p c base len, startUnmap_unmaps s p c base len⟩

theorem rangeLeaves_nil {s : State} {c base len : Nat} (h : ∀ a ∈ granuleBases base len, leafAt s c a = none) : rangeLeaves s c base len = [] := by
  have hnone : (granuleBases base len).filterMap (fun a => leafAt s c a) = [] := List.filterMap_eq_nil_iff.mpr h
  rw [rangeLeaves, hnone, List.eraseDups_nil]

theorem unmapping_of_mem {x : Ctx} {u : Unmapping} (h : u ∈ x.unmaps) {va : Nat} (hlo : u.base ≤ va) (hhi : va < u.base + u.bytes) : x.unmapping va = true :=
  List.any_eq_true.mpr ⟨u, h, by simp [hlo, hhi]⟩

/-- Settles O35: an UNMAP from the leaves of its range, the end of its drain from the purge of its frames. -/
theorem unmapService : Obligations.UnmapService := by
  unfold Obligations.UnmapService
  have page : ∀ (s : State) (p a lvl fr e : Nat), s.hub.hand = some p → s.hub.stalled = false → pOP (s.pkt p).bytes = 7 → let base := field (s.pkt p).bytes 16 8
      let c := (s.pkt p).cid
      lvl ≤ 2 → field (s.pkt p).bytes 24 8 = pageSize lvl → base % pageSize lvl = 0 → base + pageSize lvl ≤ 2 ^ 56 → (s.ctx c).unmaps.length < 64 →
      leafAt s c base = some (a, lvl, fr, e) →
      ∃ t, exec .unmap s = .next t ∧ (t.ctx c).unmaps = (s.ctx c).unmaps ++ [{ base := base, bytes := pageSize lvl, tm := s.ptime, pkt := p, frames := [(fr, pageSize lvl)] }]
        ∧ t.mem = (s.putMemNat a 8 (e - 1)).mem := by
    intro s p a lvl fr e hhand hstall hop base c hlvl hlen hb hend hroom hleaf
    have hgran := (pageSize_pos lvl).2
    have hb16 := Nat.mod_eq_zero_of_dvd ((Nat.dvd_of_mod_eq_zero hgran).trans (Nat.dvd_of_mod_eq_zero hb))
    have hst := handDone_startUnmap s p c base (pageSize lvl)
    refine ⟨_, execUnmap_starts hhand hstall hop rfl hlen.symm rfl hb16 hgran hend (not_cutsPage_page hlvl hb hleaf) hroom, ?_, ?_⟩
    · rw [hst.unmaps, rangeLeaves_page hlvl hb hleaf]
      rfl
    · rw [hst.mem, rangeLeaves_page hlvl hb hleaf]
      rfl
  refine ⟨?free, ?granule, ?drain, ?leaves, page, ?refused, ?stalled⟩
  case free =>
    intro s p hhand hstall hop base len c hb hl hend hroom hnone
    have hst := handDone_startUnmap s p c base len
    have hnil := rangeLeaves_nil hnone
    refine ⟨_, execUnmap_starts hhand hstall hop rfl rfl rfl hb hl hend ?_ hroom, hst.hand, hst.started, ?_, ?_, fun va hlo hhi => ?_⟩
    · rintro ⟨a, ha, l, hleaf, -⟩
      rw [hnone a ha] at hleaf
      cases hleaf
    · rw [hst.unmaps, hnil]
      rfl
    · rw [hst.mem, hnil]
      rfl
    · refine unmapping_of_mem ?_ hlo hhi (u := unmapRange s p base len (rangeLeaves s c base len))
      rw [hst.unmaps]
      exact List.mem_append_right _ List.mem_cons_self
  case granule =>
    intro s p a fr e hhand hstall hop base c hlen hb
    exact page s p a 0 fr e hhand hstall hop (by decide) hlen hb
  case drain =>
    intro s c u rest hu hleased hstall hout hrest hpkts
    have hnone : NoneWaits c s := fun x hx hc hop hst => by
      rcases hpkts x hx hc with h | h
      · exact absurd hop h
      · rw [hst] at h
        cases h
    have hctx := unmapped_ctx s c u
    rw [purgeFrames_ctx s u.frames c, hu] at hctx
    refine ⟨unmapped s c u, execUnmapDrainDone_ends hu hleased hstall hnone, ?_, ?_, fun f hf hin => ?_, fun d ln hin => ?_⟩
    · rw [hctx]
      have hkeep : (u :: rest).filter (fun v => decide (v ≠ u)) = rest := by
        rw [List.filter_cons_of_neg (by simp), List.filter_eq_self]
        rintro v hv
        exact decide_eq_true (ne_of_mem_of_not_mem hv hrest)
      exact hkeep
    · exact unmapped_outcome hout
    · rw [hctx]
      exact poolBack_returns hf hin
    · rw [unmapped_l2Line, unmapped_isAtomic]
      exact purgeFrames_lines s hin d
  case leaves =>
    intro s p hhand hstall hop base len c leaves hb hl hend hroom hroot hwhole
    have hst := handDone_startUnmap s p c base len
    have hleaf : ∀ l ∈ leaves, IsLeaf s l := fun l hlm => by
      obtain ⟨a, -, ha⟩ := List.mem_filterMap.mp (List.mem_eraseDups.mp hlm)
      exact leafFrom_isLeaf hroot ha
    refine ⟨_, execUnmap_starts hhand hstall hop rfl rfl rfl hb hl hend ?_ hroom, hst.hand, hst.started, hst.unmaps, fun l hlm => ?_, fun a ha => ?_⟩
    · rintro ⟨a, ha, l, hleaf, hout⟩
      have := hwhole a ha l hleaf
      omega
    · have hval := leavesCleared_value (s := s) hleaf (hleaf l hlm)
      rw [if_pos (List.mem_map_of_mem hlm), (hleaf l hlm).value] at hval
      rw [State.memNat, State.memBytes, hst.mem]
      exact hval
    · rw [hst.mem]
      exact leavesCleared_outside ha
  case refused =>
    intro s p hhand hstall hop hout base len c h
    obtain ⟨hhand', houtcome, hframe⟩ := answer_spec hout stBAD_VALUE 0
    exact ⟨_, execUnmap_refuses hhand hstall hop rfl rfl rfl h, hhand', houtcome, hframe⟩
  case stalled =>
    intro s c hstall
    show execUnmapDrainDone c s = _
    unfold execUnmapDrainDone
    dsimp only
    split
    · rfl
    · exact if_pos hstall

end Sys2Proof.Proofs
end

section
/-! A core table that lists a core twice (R293, R317, R320, R321). -/
namespace Sys2Proof.Proofs
open Laws
open Machine hiding Wf

/-- The core table lists core 0 twice: it reads as a core in WAITM, and a second entry has it wait at a `.die` barrier, as core 1 does. A
write has reached the monitors of tile 0. -/
def sleeperTwice : State where
  tiles := [(0, { wakes := [0] })]
  cores := [(0, { hold := .waitm }), (1, { hold := .barw 3 0 [0] }), (0, { hold := .barw 3 0 [0] })]

/-- The end of core 1's wait opens a transfer phase for the second entry of core 0. -/
theorem exec_waitmWake_sleeperTwice : ∃ t, exec (.waitmWake 0 0) sleeperTwice = .next t ∧ (t.core 0).benchFrom = some 0 := ⟨_, rfl, rfl⟩

/-- Refutes O23: where the core table lists a core twice, once in WAITM and once at a `.die` barrier, the core that a write wakes enters a
transfer phase too, and the statement has the rest of it unchanged. -/
theorem not_waitAndBarrierEvents : ¬ Obligations.WaitAndBarrierEvents := by
  unfold Obligations.WaitAndBarrierEvents
  intro h
  obtain ⟨⟨-, hwake, -⟩, -⟩ := h
  obtain ⟨t, ht, -, -, -, -, -, hcore⟩ := hwake sleeperTwice 0 0 [] rfl rfl
  obtain ⟨t', ht', hphase⟩ := exec_waitmWake_sleeperTwice
  obtain rfl : t' = t := Host.Outcome.next.inj (ht'.symm.trans ht)
  have hnone : ∀ d e, d < 4 → e ∈ (sleeperTwice.tile (unitOf 0 d)).mon → e.asleep = true → unitOf 0 d = 0 ∧ e.line = 0 := by
    intro d e hd he
    interval_cases d <;> cases he
  rw [hcore 0 rfl rfl rfl rfl hnone] at hphase
  cases hphase

end Sys2Proof.Proofs
end

section
/-! How the cores stand (R156): landings and arrivals change no core's state, snapshot, context or bundle in issue (R352). -/
namespace Sys2Proof.Proofs
open Laws
open Machine hiding Wf

/-- The state of a core, the state a continue returns it to, whether it is frozen, its context and its bundle in issue. -/
def standing (c : CoreRec) : CoreSt × Option CoreSt × Bool × Nat × Option Issue := (c.st, c.haltedFrom, c.frozen, c.cid, c.issue)

/-- Every core stands in `t` as it stands in `s`. -/
def KeepsStanding (s t : State) : Prop := ∀ k, standing (t.core k) = standing (s.core k)

theorem keepsStanding_refl (s : State) : KeepsStanding s s := fun _ => rfl

theorem keepsStanding_trans {s t u : State} (h : KeepsStanding s t) (h' : KeepsStanding t u) : KeepsStanding s u :=
  fun k => (h' k).trans (h k)

theorem keepsStanding_foldl {α : Type} {f : State → α → State} (h : ∀ s a, KeepsStanding s (f s a)) (l : List α) (s : State) :
    KeepsStanding s (l.foldl f s) := by
  induction l generalizing s with
  | nil => exact keepsStanding_refl s
  | cons a l ih => exact keepsStanding_trans (h s a) (ih (f s a))

theorem keepsStanding_of_cores {s t : State} (h : t.cores = s.cores) : KeepsStanding s t := fun k => by rw [core_of_cores h k]

theorem keepsStanding_setCore {s : State} {k : Nat} {c : CoreRec} (h : standing c = standing (s.core k)) : KeepsStanding s (s.setCore k c) := by
  intro j
  rw [setCore_core]
  split
  next e => rw [h, e]
  next => rfl

theorem keepsStanding_modCore (s : State) (k : Nat) {f : CoreRec → CoreRec} (h : ∀ c, standing (f c) = standing c) : KeepsStanding s (s.modCore k f) :=
  keepsStanding_setCore (h (s.core k))

theorem keepsStanding_memOnly {s t : State} (h : MemOnly s t) : KeepsStanding s t := keepsStanding_of_cores (memOnly_cores h)

theorem keepsStanding_cacheOnly {s t : State} (h : CacheOnly s t) : KeepsStanding s t := fun k => by rw [cacheOnly_core h k]

theorem keepsStanding_store (s : State) (u : Nat) (nc : Bool) (cells : List (Nat × Byte)) : KeepsStanding s (s.store u nc cells) :=
  keepsStanding_trans (keepsStanding_foldl (fun t c => keepsStanding_cacheOnly (cacheOnly_storeByte t u nc c)) cells s)
    (keepsStanding_foldl (fun t ln => keepsStanding_memOnly (memOnly_touchLine t ln)) _ _)

theorem keepsStanding_csrApply (s : State) (u num : Nat) (v : DWord) (so : Bool) : KeepsStanding s (csrApply s u num v so) := by
  unfold csrApply
  extract_lets old w b
  split
  case h_6 =>
    split
    · exact keepsStanding_refl s
    · split
      · exact keepsStanding_refl s
      · split
        · exact keepsStanding_modCore s _ fun _ => rfl
        · exact keepsStanding_refl s
  all_goals exact keepsStanding_refl s

theorem keepsStanding_rstkApply (s : State) (u i : Nat) (v : DWord) : KeepsStanding s (s.rstkApply u i v) := by
  unfold State.rstkApply
  extract_lets put depth
  split
  · exact keepsStanding_refl s
  · exact keepsStanding_modCore s _ fun _ => rfl

theorem keepsStanding_barMod (s : State) (kern key : Nat) (f : Barrier → Barrier) : KeepsStanding s (s.barMod kern key f) :=
  fun k => by rw [barsOnly_core (barsOnly_barMod s kern key f) k]

theorem keepsStanding_nodePost (s : State) (u n : Nat) (cmd : NodeCmd) : KeepsStanding s (nodePost s u n cmd) := by
  unfold nodePost
  extract_lets nd pred count s1
  split
  · exact keepsStanding_barMod s1 _ _ _
  · unfold postColl
    split
    · exact keepsStanding_refl s
    · exact keepsStanding_refl s

theorem keepsStanding_benchLeave (s : State) (u code : Nat) (v : Vec) (delay : Nat) : KeepsStanding s (benchLeave s u code v delay) := by
  unfold benchLeave
  extract_lets a k b due
  split
  · exact keepsStanding_refl s
  · exact keepsStanding_modCore s _ fun _ => rfl

theorem keepsStanding_barArriveTile (s : State) (u scope bid : Nat) : KeepsStanding s (barArriveTile s u scope bid) := by
  unfold barArriveTile
  extract_lets key kern ph s0 s1
  have h0 : KeepsStanding s s0 := by
    unfold s0
    split
    · exact keepsStanding_modCore s _ fun _ => rfl
    · exact keepsStanding_refl s
  exact keepsStanding_trans h0 (keepsStanding_barMod s1 _ _ _)

theorem keepsStanding_linkPostRld (s : State) (u : Nat) (ra : DWord) : KeepsStanding s (linkPostRld s u ra) :=
  keepsStanding_modCore (s.queueReq _) _ fun _ => rfl

theorem keepsStanding_monitorWait (s : State) (u pa timeout : Nat) : KeepsStanding s (monitorWait s u pa timeout) := by
  have hmark := keepsStanding_memOnly (memOnly_markAtomic s (pa / 64))
  unfold monitorWait
  extract_lets ln s1
  exact keepsStanding_trans (t := s1) hmark (keepsStanding_of_cores (setTile_cores s1 u _))

theorem walkFill_cores (s : State) (u : Nat) (e : TlbEntry) : (s.walkFill u e).cores = s.cores := by
  unfold State.walkFill
  simp only
  repeat' split
  all_goals rfl

theorem keepsStanding_tlbKeep (s : State) (u : Nat) (e : TlbEntry) : KeepsStanding s (s.tlbKeep u e) := by
  refine keepsStanding_of_cores ?_
  unfold State.tlbKeep
  extract_lets known s1
  show s1.cores = s.cores
  unfold s1
  split
  · rfl
  · exact walkFill_cores s u e

/-- The landing of any effect leaves every core standing as it is: of the cores it reaches levels, return stores, results in flight and
what a phase is owed. -/
theorem keepsStanding_applyEff (s : State) (u slot : Nat) (e : Eff) : KeepsStanding s (applyEff s u slot e).1 := by
  cases e
  case mem cells nc => exact keepsStanding_store s u nc cells
  case waitm pa tm => exact keepsStanding_monitorWait s u pa tm
  case barArrive sc bid => exact keepsStanding_barArriveTile s u sc bid
  case csr n v so => exact keepsStanding_csrApply s u n v so
  case xpost n cmd => exact keepsStanding_nodePost s u n cmd
  case benchSend c v d => exact keepsStanding_benchLeave s u c v d
  case load r pa size sx nc => exact keepsStanding_foldl (fun s l => keepsStanding_cacheOnly (cacheOnly_fillLine s u l nc)) (linesOf pa size) s
  case fill lines nc => exact keepsStanding_foldl (fun s l => keepsStanding_cacheOnly (cacheOnly_fillLine s u l nc)) lines s
  case tlbFill e => exact keepsStanding_tlbKeep s u e
  case atomic pa => exact keepsStanding_memOnly (memOnly_markAtomic s (pa / 64))
  case rstk i v => exact keepsStanding_rstkApply s u i v
  case rldPost ra => exact keepsStanding_linkPostRld s u ra
  case loopCount l v => exact keepsStanding_modCore s _ fun _ => rfl
  case loopStride l w r v => exact keepsStanding_modCore s _ fun c => by dsimp only; split <;> rfl
  case scanPush n0 j bf16 w elem toMem aA aB ncA ncB =>
    unfold applyEff
    simp only
    split
    · exact keepsStanding_trans (keepsStanding_store (s.setTile u _) u ncA _) (keepsStanding_store _ u ncB _)
    · exact keepsStanding_refl s
  case scanPair summary z pair =>
    unfold applyEff
    simp only
    split <;> exact keepsStanding_refl s
  case scanEnd n0 sloc z m rows bf16 w =>
    unfold applyEff
    simp only
    split
    · split <;> exact keepsStanding_refl s
    · exact keepsStanding_refl s
  all_goals exact keepsStanding_refl s

theorem keepsStanding_landEntry (s : State) (e : Entry) : KeepsStanding s (landEntry s e) := by
  unfold landEntry
  dsimp only
  split
  · exact keepsStanding_applyEff s e.unit e.slot e.eff
  · exact keepsStanding_applyEff s e.unit e.slot e.eff

theorem keepsStanding_arriveLoad (s : State) (e : Entry) : KeepsStanding s (arriveLoad s e).1 := keepsStanding_cacheOnly (cacheOnly_arriveLoad s e)

theorem keepsStanding_arriveEarlier (s : State) (k : Nat) (due : List Entry) : KeepsStanding s (arriveEarlier s k due) := by
  unfold arriveEarlier
  refine keepsStanding_foldl (fun s e => ?_) _ s
  simp only
  split
  · exact keepsStanding_trans (keepsStanding_arriveLoad s e) (keepsStanding_modCore _ _ fun _ => rfl)
  · exact keepsStanding_refl s

theorem keepsStanding_landUpTo (s : State) (k m : Nat) : KeepsStanding s (landUpTo s k m) := by
  unfold landUpTo
  extract_lets s1 c due rest
  have hearly : KeepsStanding s s1 := keepsStanding_arriveEarlier s k _
  have hleft : KeepsStanding s1 (s1.setCore k { c with inflight := rest }) := keepsStanding_setCore rfl
  exact keepsStanding_trans hearly (keepsStanding_trans hleft (keepsStanding_foldl keepsStanding_landEntry _ _))

theorem keepsStanding_setDeq (s : State) (kern k : Nat) (d : Deq) : KeepsStanding s (s.setDeq kern k d) := by
  unfold State.setDeq
  split
  · exact keepsStanding_refl s
  · exact keepsStanding_modCore s _ fun _ => rfl

theorem keepsStanding_takeChain (s : State) (kern k : Nat) : KeepsStanding s (takeChain s kern k).1 := by
  unfold takeChain
  extract_lets d
  split
  · exact keepsStanding_refl s
  · split <;> exact keepsStanding_setDeq s kern k _

theorem keepsStanding_takeTail (s : State) (kern k : Nat) : KeepsStanding s (takeTail s kern k).1 := by
  unfold takeTail
  extract_lets d
  split
  · exact keepsStanding_takeChain s kern k
  · split
    · exact keepsStanding_setDeq s kern k _
    · exact keepsStanding_refl s

theorem keepsStanding_sweep (s : State) (kern : Nat) (ks : List Nat) : KeepsStanding s (sweep s kern ks).1 := by
  induction ks generalizing s with
  | nil => exact keepsStanding_refl s
  | cons v vs ih =>
    have ht := keepsStanding_takeTail s kern v
    unfold sweep
    split
    next e => rw [e] at ht; exact ht
    next s1 e => rw [e] at ht; exact keepsStanding_trans ht (ih s1)

theorem keepsStanding_devPut (s : State) (cid va len v : Nat) : KeepsStanding s (s.devPut cid va len v) := by
  unfold State.devPut
  split
  · exact keepsStanding_memOnly (memOnly_trans (memOnly_foldl (fun s d => memOnly_flushL2 s d _) (upTo 4) s) (memOnly_putMemNat _ _ _ _))
  · exact keepsStanding_refl s

theorem keepsStanding_pushHead (s : State) (k r : Nat) : KeepsStanding s (pushHead s k r) := by
  unfold pushHead
  extract_lets c t keep
  split
  · exact keepsStanding_setCore rfl
  · split
    · exact keepsStanding_setCore rfl
    · have hput := keepsStanding_devPut s c.cid (c.spHead + 48) 8 t
      exact keepsStanding_trans hput (keepsStanding_setCore (hput k).symm)

theorem keepsStanding_stealStep (s : State) (k : Nat) : KeepsStanding s (stealStep s k).1 := by
  have hs := keepsStanding_sweep s (s.core k).group (quadRing (s.groupOf k).cores k)
  unfold stealStep
  split
  next e => rw [e] at hs; exact keepsStanding_trans hs (keepsStanding_pushHead _ k _)
  next e => rw [e] at hs; exact hs

theorem keepsStanding_arriveOne (s : State) (k : Nat) (e : Entry) : KeepsStanding s (arriveOne s k e) := by
  unfold arriveOne
  split
  · exact keepsStanding_refl s
  · split
    · exact keepsStanding_trans (keepsStanding_arriveLoad s e) (keepsStanding_modCore _ _ fun _ => rfl)
    · split
      · exact keepsStanding_trans (keepsStanding_stealStep s k) (keepsStanding_modCore _ _ fun _ => rfl)
      · exact keepsStanding_trans (keepsStanding_memOnly (memOnly_acquireAt s e.unit 4)) (keepsStanding_modCore _ _ fun _ => rfl)
    · exact keepsStanding_refl s

theorem keepsStanding_arriveAll (s : State) (k : Nat) : KeepsStanding s (arriveAll s k) := keepsStanding_foldl (fun s e => keepsStanding_arriveOne s k e) _ s

theorem keepsStanding_settleBase (s : State) (k : Nat) : KeepsStanding s (settleBase s k) := by
  unfold settleBase
  extract_lets s1
  split
  · exact keepsStanding_arriveAll s k
  · exact keepsStanding_trans (keepsStanding_arriveAll s k) (keepsStanding_landUpTo s1 k _)

end Sys2Proof.Proofs
end
section
/-! The debugger's halts (R352, R358, R359): what one core's halt and the halt of a context leave of each core. -/
namespace Sys2Proof.Proofs
open Laws
open Machine hiding Wf

/-! ### The core table -/

theorem sget_of_nodup {β : Type} {d v : β} {m : SMap β} {k : Nat} (hn : (m.map (·.1)).Nodup) (h : (k, v) ∈ m) : sget d m k = v := by
  induction m with
  | nil => exact absurd h List.not_mem_nil
  | cons e m ih =>
    obtain ⟨hk, hn⟩ := List.nodup_cons.mp hn
    obtain rfl | h := List.mem_cons.mp h
    · exact if_pos rfl
    · have hne : e.1 ≠ k := fun he => hk (List.mem_map.mpr ⟨(k, v), h, he.symm⟩)
      exact (if_neg hne).trans (ih hn h)

theorem core_of_mem {s : State} {k : Nat} {c : CoreRec} (hn : (s.cores.map (·.1)).Nodup) (h : (k, c) ∈ s.cores) : s.core k = c := sget_of_nodup hn h

/-- A core that is not idle stands in the table. -/
theorem mem_of_awake {s : State} {k : Nat} (h : (s.core k).st ≠ .idle) : (k, s.core k) ∈ s.cores := by
  obtain hd | hm := sget_mem ({} : CoreRec) s.cores k
  · exact absurd (congrArg CoreRec.st hd) h
  · exact hm

/-! ### One core halts -/

/-- How a halted core `c'` stands where `c` stood: a suspended core stays so, and a bundle in issue without a scan phase is gone. -/
structure Halts (c c' : CoreRec) : Prop where
  st : c'.st = if c.st = .suspended then .suspended else .halted
  left : c.st ≠ .suspended → c'.haltedFrom = some c.st
  frozen : c'.frozen = true
  dropped : (∀ i, c.issue = some i → i.phased = false) → c'.issue = none

theorem standing_eq_iff {a b : CoreRec} :
    standing a = standing b ↔ a.st = b.st ∧ a.haltedFrom = b.haltedFrom ∧ a.frozen = b.frozen ∧ a.cid = b.cid ∧ a.issue = b.issue := by
  simp [standing]

theorem halts_of_standing {c d c' d' : CoreRec} (h : Halts c c') (hc : standing c = standing d) (hc' : standing d' = standing c') : Halts d d' := by
  obtain ⟨hst, -, -, -, hissue⟩ := standing_eq_iff.mp hc
  obtain ⟨hst', hfrom', hfrozen', -, hissue'⟩ := standing_eq_iff.mp hc'
  exact { st := by rw [hst', h.st, hst], left := by rw [hfrom', ← hst]; exact h.left, frozen := hfrozen'.trans h.frozen,
          dropped := by rw [hissue', ← hissue]; exact h.dropped }

/-- A stop of core `k` changes how no other core stands, and of `k` only the bundle in issue. -/
structure Stops (k : Nat) (s t : State) : Prop where
  other : ∀ j, j ≠ k → standing (t.core j) = standing (s.core j)
  own : (t.core k).st = (s.core k).st

theorem stops_refl (k : Nat) (s : State) : Stops k s s := ⟨fun _ _ => rfl, rfl⟩

theorem stops_trans {k : Nat} {s t u : State} (h : Stops k s t) (h' : Stops k t u) : Stops k s u :=
  ⟨fun j hj => (h'.other j hj).trans (h.other j hj), h'.own.trans h.own⟩

theorem stops_foldl {α : Type} {k : Nat} {f : State → α → State} (h : ∀ s a, Stops k s (f s a)) (l : List α) (s : State) : Stops k s (l.foldl f s) := by
  induction l generalizing s with
  | nil => exact stops_refl k s
  | cons a l ih => exact stops_trans (h s a) (ih (f s a))

theorem stops_of_standing {k : Nat} {s t : State} (h : KeepsStanding s t) : Stops k s t := ⟨fun j _ => h j, (standing_eq_iff.mp (h k)).1⟩

theorem stops_modCore (s : State) (k : Nat) {f : CoreRec → CoreRec} (h : ∀ c, (f c).st = c.st) : Stops k s (s.modCore k f) where
  other j hj := by rw [modCore_eq, setCore_core, if_neg hj]
  own := by rw [modCore_eq, setCore_core, if_pos rfl, h]

theorem dropIssue_other (s : State) {k j : Nat} (hj : j ≠ k) : (dropIssue s k).core j = s.core j := by
  cases hi : (s.core k).issue with
  | none => rw [dropIssue_none hi]
  | some i =>
    unfold dropIssue
    simp only [hi]
    rw [setCore_core, if_neg hj]
    rfl

theorem stops_dropIssue (s : State) (k : Nat) : Stops k s (dropIssue s k) := by
  refine ⟨fun j hj => by rw [dropIssue_other s hj], ?_⟩
  cases hi : (s.core k).issue with
  | none => rw [dropIssue_none hi]
  | some i => rw [dropIssue_core hi]

theorem stops_stopIssue (s : State) (k : Nat) : Stops k s (stopIssue s k) := by
  unfold stopIssue
  split
  · split
    · refine stops_foldl (fun s e => ?_) _ s
      split
      · exact stops_trans (stops_of_standing (keepsStanding_arriveLoad s e)) (stops_modCore _ k fun _ => rfl)
      · exact stops_refl k s
    · exact stops_dropIssue s k
  · exact stops_refl k s

theorem stopIssue_none {s : State} {k : Nat} (h : (s.core k).issue = none) : stopIssue s k = s := by
  unfold stopIssue
  simp only [h]

/-- A bundle in issue without a scan phase has no effect when its core stops. -/
theorem stopIssue_drops {s : State} {k : Nat} (h : ∀ i, (s.core k).issue = some i → i.phased = false) : ((stopIssue s k).core k).issue = none := by
  cases hi : (s.core k).issue with
  | none => rw [stopIssue_none hi, hi]
  | some i =>
    unfold stopIssue
    simp only [hi, h i hi]
    rw [if_neg (by decide), dropIssue_core hi]

/-- The record of a core that the debugger stops (R156, R352). -/
def haltedRec (c : CoreRec) : CoreRec :=
  match c.st with
  | .suspended => { c with frozen := true, stepPending := false }
  | _ => { c with haltedFrom := some c.st, st := .halted, frozen := true, stepPending := false }

theorem haltedRec_suspended {c : CoreRec} (h : c.st = .suspended) : haltedRec c = { c with frozen := true, stepPending := false } := by
  unfold haltedRec
  simp only [h]

theorem haltedRec_runs {c : CoreRec} (h : c.st ≠ .suspended) :
    haltedRec c = { c with haltedFrom := some c.st, st := .halted, frozen := true, stepPending := false } := by
  cases hc : c.st
  case suspended => exact absurd hc h
  all_goals (unfold haltedRec; simp only [hc])

theorem haltedRec_stepPending (c : CoreRec) : (haltedRec c).stepPending = false := by
  by_cases h : c.st = .suspended
  · rw [haltedRec_suspended h]
  · rw [haltedRec_runs h]

theorem haltCore_eq (s : State) (k : Nat) : haltCore s k = (settleBase (stopIssue s k) k).modCore k haltedRec := rfl

theorem haltCore_other (s : State) {k j : Nat} (hj : j ≠ k) : standing ((haltCore s k).core j) = standing (s.core j) := by
  rw [haltCore_eq, modCore_eq, setCore_core, if_neg hj]
  exact (keepsStanding_settleBase _ k j).trans ((stops_stopIssue s k).other j hj)

theorem haltCore_halts (s : State) (k : Nat) : Halts (s.core k) ((haltCore s k).core k) := by
  obtain ⟨hst, -, -, -, hissue⟩ := standing_eq_iff.mp (keepsStanding_settleBase (stopIssue s k) k k)
  have hwas := hst.trans (stops_stopIssue s k).own
  have hdrop := fun h => hissue.trans (stopIssue_drops (s := s) (k := k) h)
  rw [haltCore_eq, modCore_eq, setCore_core, if_pos rfl]
  generalize (settleBase (stopIssue s k) k).core k = c at hwas hdrop
  by_cases h : c.st = .suspended
  · rw [haltedRec_suspended h]
    exact { st := by rw [← hwas, if_pos h]; exact h, left := fun hn => absurd (hwas.symm.trans h) hn, frozen := rfl, dropped := hdrop }
  · rw [haltedRec_runs h]
    exact { st := by rw [← hwas, if_neg h], left := fun _ => by rw [← hwas], frozen := rfl, dropped := hdrop }

/-! ### A core with nothing in issue and nothing in flight -/

/-- Core `k` has no bundle in issue and nothing in flight. -/
def Bare (c : CoreRec) : Prop := c.issue = none ∧ c.inflight = []

theorem settleBase_bare {s : State} {k : Nat} (h : (s.core k).inflight = []) : settleBase s k = s.setCore k (s.core k) := by
  have harrive : arriveAll s k = s := arriveAll_quiet (by simp [h])
  have hearly : ∀ due, arriveEarlier s k due = s := fun due => by simp [arriveEarlier, h]
  have hsame : ({ s.core k with inflight := [] } : CoreRec) = s.core k := by rw [← h]
  unfold settleBase
  simp only [harrive]
  rw [if_neg (by simp [landsLate, h])]
  unfold landUpTo
  simp only [hearly]
  simp [h, sortEntries, hsame]

theorem haltCore_bare {s : State} {k : Nat} (h : Bare (s.core k)) :
    CoresOnly s (haltCore s k) ∧ ∀ j, (haltCore s k).core j = if j = k then haltedRec (s.core k) else s.core j := by
  rw [haltCore_eq, stopIssue_none h.1, settleBase_bare h.2]
  refine ⟨rfl, fun j => ?_⟩
  rw [modCore_eq, setCore_core, setCore_core, setCore_core, if_pos rfl]
  split <;> rfl

/-! ### A context halts -/

/-- What the halt of a context does at one core of the table (R358). -/
def haltAt (cid : Nat) (s : State) (p : Nat × CoreRec) : State :=
  if p.2.cid ≠ cid ∨ p.2.st = .idle then s else if p.2.haltedFrom.isNone then haltCore s p.1 else s.modCore p.1 (fun c => { c with frozen := true })

theorem haltCtx_eq (s : State) (cid : Nat) : haltCtx s cid = { s.cores.foldl (haltAt cid) s with
    hub := { (s.cores.foldl (haltAt cid) s).hub with
      haltCtx := some cid, dhalts := if s.hub.haltCtx.isSome then s.hub.dhalts else (s.hub.dhalts + 1) % 65536 } } := rfl

theorem haltAt_other (cid : Nat) (s : State) (p : Nat × CoreRec) {j : Nat} (hj : j ≠ p.1) : standing ((haltAt cid s p).core j) = standing (s.core j) := by
  unfold haltAt
  split
  · rfl
  · split
    · exact haltCore_other s hj
    · rw [modCore_eq, setCore_core, if_neg hj]

theorem foldl_haltAt_other (cid : Nat) {l : List (Nat × CoreRec)} {j : Nat} (hj : j ∉ l.map (·.1)) (s : State) :
    standing ((l.foldl (haltAt cid) s).core j) = standing (s.core j) := by
  induction l generalizing s with
  | nil => rfl
  | cons p l ih =>
    rw [List.map_cons, List.mem_cons, not_or] at hj
    exact (ih hj.2 _).trans (haltAt_other cid s p hj.1)

/-- A core of the context that the debugger has not stopped yet stops once, in its turn. -/
theorem foldl_haltAt_halts {cid : Nat} {l : List (Nat × CoreRec)} (hn : (l.map (·.1)).Nodup) {k : Nat} {c : CoreRec} (hm : (k, c) ∈ l)
    (hcid : c.cid = cid) (hst : c.st ≠ .idle) (hfrom : c.haltedFrom = none) (s : State) : Halts (s.core k) ((l.foldl (haltAt cid) s).core k) := by
  induction l generalizing s with
  | nil => exact absurd hm List.not_mem_nil
  | cons p l ih =>
    obtain ⟨hp, hn⟩ := List.nodup_cons.mp hn
    rw [List.foldl_cons]
    obtain rfl | hm := List.mem_cons.mp hm
    · have hstep : haltAt cid s (k, c) = haltCore s k := by simp [haltAt, hcid, hst, hfrom]
      rw [hstep]
      exact halts_of_standing (haltCore_halts s k) rfl (foldl_haltAt_other cid hp _)
    · have hne : k ≠ p.1 := fun he => hp (List.mem_map.mpr ⟨(k, c), hm, he⟩)
      exact halts_of_standing (ih hn hm _) (haltAt_other cid s p hne) rfl

/-- What the halt of a context leaves of a bare core. -/
def haltRec (cid : Nat) (c : CoreRec) : CoreRec :=
  if c.cid ≠ cid ∨ c.st = .idle then c else if c.haltedFrom.isNone then haltedRec c else { c with frozen := true }

theorem haltAt_bare {cid : Nat} {s : State} {k : Nat} (h : (s.core k).cid = cid → Bare (s.core k)) :
    CoresOnly s (haltAt cid s (k, s.core k)) ∧ ∀ j, (haltAt cid s (k, s.core k)).core j = if j = k then haltRec cid (s.core k) else s.core j := by
  unfold haltAt haltRec
  dsimp only
  split
  next => exact ⟨coresOnly_refl s, fun j => by split <;> simp [*]⟩
  next hc =>
    split
    next => exact haltCore_bare (h (not_not.mp (not_or.mp hc).1))
    next => exact ⟨rfl, fun j => by rw [modCore_eq, setCore_core]⟩

theorem foldl_haltAt_bare {cid : Nat} {l : List (Nat × CoreRec)} (hn : (l.map (·.1)).Nodup) {s : State} (hl : ∀ p ∈ l, s.core p.1 = p.2)
    (hb : ∀ p ∈ l, p.2.cid = cid → Bare p.2) :
    CoresOnly s (l.foldl (haltAt cid) s) ∧ ∀ j, (l.foldl (haltAt cid) s).core j = if j ∈ l.map (·.1) then haltRec cid (s.core j) else s.core j := by
  induction l generalizing s with
  | nil => exact ⟨coresOnly_refl s, fun _ => rfl⟩
  | cons p l ih =>
    obtain ⟨k, c⟩ := p
    obtain rfl : s.core k = c := hl (k, c) (by simp)
    obtain ⟨hk, hrest⟩ := List.nodup_cons.mp hn
    obtain ⟨hframe, hcore⟩ := haltAt_bare (hb (k, s.core k) (by simp))
    have hkeep : ∀ q ∈ l, (haltAt cid s (k, s.core k)).core q.1 = q.2 := by
      intro q hq
      have hne : q.1 ≠ k := fun he => hk (List.mem_map.mpr ⟨q, hq, he⟩)
      rw [hcore, if_neg hne]
      exact hl q (by simp [hq])
    obtain ⟨hframe', hcore'⟩ := ih hrest hkeep (fun q hq => hb q (by simp [hq]))
    rw [List.foldl_cons]
    refine ⟨coresOnly_trans hframe hframe', fun j => ?_⟩
    rw [hcore', hcore]
    by_cases hj : j = k
    · subst hj
      rw [if_neg hk]
      simp
    · rw [if_neg hj]
      simp only [List.map_cons, List.mem_cons, hj, false_or]

end Sys2Proof.Proofs
end
section
/-! The debugger's continues and steps (R354, R358, R359): what a resumed core and its tiles become. -/
namespace Sys2Proof.Proofs
open Laws
open Machine hiding Wf

/-- Nothing changes but cores and tiles. -/
def CoresTilesOnly (s t : State) : Prop := { t with cores := s.cores, tiles := s.tiles } = s

theorem coresTilesOnly_setCore (s : State) (k : Nat) (c : CoreRec) : CoresTilesOnly s (s.setCore k c) := rfl

theorem coresTilesOnly_trans {s t u : State} (h : CoresTilesOnly s t) (h' : CoresTilesOnly t u) : CoresTilesOnly s u := by
  have hput := congrArg (fun r : State => { r with cores := s.cores, tiles := s.tiles }) h'
  exact hput.trans h

theorem coresTilesOnly_mem {s t : State} (h : CoresTilesOnly s t) : t.mem = s.mem := by
  have hmem := congrArg State.mem h
  exact hmem

theorem coresTilesOnly_hub {s t : State} (h : CoresTilesOnly s t) : t.hub = s.hub := by
  have hhub := congrArg State.hub h
  exact hhub

theorem coresTilesOnly_ctx {s t : State} (h : CoresTilesOnly s t) (c : Nat) : t.ctx c = s.ctx c := by
  have hctx := congrArg (fun r : State => r.ctx c) h
  exact hctx

/-! ### One core goes on -/

/-- The record of a halted core that goes on in the state it left; `x` is its context. -/
def wokenRec (step : Bool) (x : Ctx) (c : CoreRec) : CoreRec :=
  match c.haltedFrom with
  | none => c
  | some st => { c with st := st, haltedFrom := none, stepPending := step, frozen := x.stopping.isSome || x.restoring }

theorem wokenRec_some {step : Bool} {x : Ctx} {c : CoreRec} {st : CoreSt} (h : c.haltedFrom = some st) :
    wokenRec step x c = { c with st := st, haltedFrom := none, stepPending := step, frozen := x.stopping.isSome || x.restoring } := by
  unfold wokenRec
  simp only [h]

theorem wokenRec_none {step : Bool} {x : Ctx} {c : CoreRec} (h : c.haltedFrom = none) : wokenRec step x c = c := by
  unfold wokenRec
  simp only [h]

theorem wokenRec_left (step : Bool) (x : Ctx) (c : CoreRec) : (wokenRec step x c).haltedFrom = none ∧ (wokenRec step x c).cid = c.cid := by
  cases h : c.haltedFrom with
  | none => rw [wokenRec_none h]; exact ⟨h, rfl⟩
  | some st => rw [wokenRec_some h]; exact ⟨rfl, rfl⟩

/-- Operations that let one core go on: what `f` makes of the core it names is `g` of its context and record, once; its tiles start their
ready nodes where the core was `held`. -/
structure Resumes (f : State → Nat → State) (g : Ctx → CoreRec → CoreRec) (held : CoreRec → Bool) : Prop where
  frame : ∀ s k, CoresTilesOnly s (f s k)
  core : ∀ s k j, (f s k).core j = if j = k then g (s.ctx (s.core k).cid) (s.core k) else s.core j
  tile : ∀ s k j d, d < 4 → (f s k).tile (unitOf j d) = if j = k ∧ held (s.core k) = true then (s.tile (unitOf j d)).startReady else s.tile (unitOf j d)
  cid : ∀ x c, (g x c).cid = c.cid
  once : ∀ x c, g x (g x c) = g x c
  freed : ∀ x c, held (g x c) = false

/-- The tiles of core `k` start the nodes that have all their credits (R284). -/
def readied (s : State) (k : Nat) : State := (upTo 4).foldl (fun s d => s.modTile (unitOf k d) Tile.startReady) s

theorem readied_frame (s : State) (k : Nat) : CoresTilesOnly s (readied s k) := by
  unfold readied
  generalize upTo 4 = ds
  induction ds generalizing s with
  | nil => rfl
  | cons d ds ih => exact coresTilesOnly_trans (t := s.modTile (unitOf k d) Tile.startReady) rfl (ih _)

theorem readied_tile (s : State) (j k : Nat) {d : Nat} (hd : d < 4) :
    (readied s k).tile (unitOf j d) = if j = k then (s.tile (unitOf j d)).startReady else s.tile (unitOf j d) := by
  split
  next h => rw [h]; exact foldl_dies_tile s k (fun _ => Tile.startReady) hd
  next h => exact foldl_dies_other s k (fun _ => Tile.startReady) (by rw [unit_core hd]; exact h)

theorem readied_core (s : State) (k j : Nat) : (readied s k).core j = s.core j := by
  unfold readied
  generalize upTo 4 = ds
  induction ds generalizing s with
  | nil => rfl
  | cons d ds ih => exact ih _

theorem debugResume_none {s : State} {k : Nat} (step : Bool) (h : (s.core k).haltedFrom = none) : debugResume step s k = s := by
  unfold debugResume
  simp only [h]

theorem debugResume_some {s : State} {k : Nat} {st : CoreSt} (step : Bool) (h : (s.core k).haltedFrom = some st) :
    debugResume step s k = (readied s k).setCore k (wokenRec step (s.ctx (s.core k).cid) (s.core k)) := by
  rw [wokenRec_some h]
  unfold debugResume
  simp only [h]
  rfl

theorem resumes_debugResume (step : Bool) : Resumes (debugResume step) (wokenRec step) (fun c => c.haltedFrom.isSome) where
  frame s k := by
    cases h : (s.core k).haltedFrom with
    | none => rw [debugResume_none step h]; rfl
    | some st =>
      rw [debugResume_some step h]
      exact coresTilesOnly_trans (readied_frame s k) (coresTilesOnly_setCore (readied s k) k _)
  core s k j := by
    cases h : (s.core k).haltedFrom with
    | none => rw [debugResume_none step h, wokenRec_none h]; split <;> simp [*]
    | some st => rw [debugResume_some step h, setCore_core, readied_core]
  tile s k j d hd := by
    cases h : (s.core k).haltedFrom with
    | none => rw [debugResume_none step h]; simp
    | some st =>
      rw [debugResume_some step h, setCore_tile, readied_tile s j k hd]
      simp
  cid x c := (wokenRec_left step x c).2
  once x c := wokenRec_none (wokenRec_left step x c).1
  freed x c := by rw [(wokenRec_left step x c).1]; rfl

/-- STEP lets a halted core go on for one bundle. -/
def stepOne (s : State) (k : Nat) : State := if (s.core k).st = .halted then debugResume true s k else s
/-- The record of a core that a step names. -/
def steppedRec (x : Ctx) (c : CoreRec) : CoreRec := if c.st = .halted then wokenRec true x c else c

theorem steppedRec_left (x : Ctx) (c : CoreRec) : (steppedRec x c).cid = c.cid ∧ ((steppedRec x c).st = .halted → (steppedRec x c).haltedFrom = none) := by
  unfold steppedRec
  split
  next h => exact ⟨(wokenRec_left true x c).2, fun _ => (wokenRec_left true x c).1⟩
  next h => exact ⟨rfl, fun e => absurd e h⟩

theorem resumes_stepOne : Resumes stepOne steppedRec (fun c => decide (c.st = .halted) && c.haltedFrom.isSome) where
  frame s k := by
    unfold stepOne
    split
    · exact (resumes_debugResume true).frame s k
    · rfl
  core s k j := by
    unfold stepOne steppedRec
    split
    · exact (resumes_debugResume true).core s k j
    · split <;> simp [*]
  tile s k j d hd := by
    unfold stepOne
    split
    next h => rw [(resumes_debugResume true).tile s k j d hd]; simp [h]
    next h => simp [h]
  cid x c := (steppedRec_left x c).1
  once x c := by
    by_cases h : (steppedRec x c).st = .halted
    · rw [steppedRec, if_pos h, wokenRec_none ((steppedRec_left x c).2 h)]
    · rw [steppedRec, if_neg h]
  freed x c := by
    by_cases h : (steppedRec x c).st = .halted
    · simp [(steppedRec_left x c).2 h]
    · simp [h]

/-! ### The cores of a context, one after another -/

section fold
variable {f : State → Nat → State} {g : Ctx → CoreRec → CoreRec} {held : CoreRec → Bool} (h : Resumes f g held)
include h

theorem foldl_resumes_frame (ks : List Nat) (s : State) : CoresTilesOnly s (ks.foldl f s) := by
  induction ks generalizing s with
  | nil => rfl
  | cons k ks ih => exact coresTilesOnly_trans (h.frame s k) (ih (f s k))

theorem foldl_resumes_core (ks : List Nat) (s : State) (j : Nat) :
    (ks.foldl f s).core j = if j ∈ ks then g (s.ctx (s.core j).cid) (s.core j) else s.core j := by
  induction ks generalizing s with
  | nil => rfl
  | cons k ks ih =>
    rw [List.foldl_cons, ih, h.core, coresTilesOnly_ctx (h.frame s k)]
    by_cases hj : j = k
    · subst hj
      simp only [if_pos, List.mem_cons, true_or, h.cid, h.once, ite_self]
    · simp only [List.mem_cons, hj, false_or, if_false]

theorem foldl_resumes_tile (ks : List Nat) (s : State) (j : Nat) {d : Nat} (hd : d < 4) : (ks.foldl f s).tile (unitOf j d)
    = if j ∈ ks ∧ held (s.core j) = true then (s.tile (unitOf j d)).startReady else s.tile (unitOf j d) := by
  induction ks generalizing s with
  | nil => simp
  | cons k ks ih =>
    rw [List.foldl_cons, ih, h.core, h.tile _ _ _ _ hd]
    by_cases hj : j = k
    · subst hj
      simp only [if_pos, h.freed, List.mem_cons, true_or, true_and, Bool.false_eq_true, and_false, if_false]
    · simp only [List.mem_cons, hj, false_or, false_and, if_false]

end fold

/-! ### CONTINUE -/

section cont
variable (s : State) (c : Nat)

theorem thaw_frame : CoresTilesOnly s (thaw s c) := rfl

theorem thaw_core {k : Nat} (h : (s.core k).cid ≠ c ∨ (s.core k).st ≠ .suspended) : (thaw s c).core k = s.core k := by
  unfold thaw
  extract_lets stays
  have hmap := sget_map_keys (d := ({} : CoreRec)) (k := k) (m := s.cores)
    (F := fun p => if p.2.cid = c ∧ p.2.st = .suspended then (p.1, { p.2 with frozen := stays }) else p)
    (fun _ r => if r.cid = c ∧ r.st = .suspended then { r with frozen := stays } else r) (fun e => by dsimp only; split <;> rfl)
    (if_neg fun e => by cases e.2)
  exact hmap.trans (if_neg fun e => h.elim (fun hc => hc e.1) (fun hs => hs e.2))

theorem continueCtx_frame : (continueCtx s c).mem = s.mem ∧ (continueCtx s c).hub = { s.hub with haltCtx := none } := by
  have hfold := foldl_resumes_frame (resumes_debugResume false) (haltedCores s c) (thaw s c)
  have hmem := coresTilesOnly_mem hfold
  refine ⟨hmem, ?_⟩
  have hhub := coresTilesOnly_hub hfold
  show { ((haltedCores s c).foldl (debugResume false) (thaw s c)).hub with haltCtx := none } = _
  rw [hhub]
  rfl

/-- No step stays pending on a core of the continued context. -/
def unstepped (r : CoreRec) : CoreRec := if r.cid = c then { r with stepPending := false } else r

theorem continueCtx_core (k : Nat) : (continueCtx s c).core k = unstepped c (((haltedCores s c).foldl (debugResume false) (thaw s c)).core k) := by
  refine sget_map_keys (d := ({} : CoreRec)) (fun _ => unstepped c) (fun e => ?_) ?_ _
  · unfold unstepped
    split <;> rfl
  · unfold unstepped
    split <;> rfl

theorem continueCtx_tile (u : Nat) : (continueCtx s c).tile u = ((haltedCores s c).foldl (debugResume false) (thaw s c)).tile u := rfl

theorem continueCtx_unstepped : ∀ p ∈ (continueCtx s c).cores, p.2.cid = c → p.2.stepPending = false := by
  intro p hp hc
  obtain ⟨q, -, rfl⟩ := List.mem_map.mp hp
  dsimp only at hc ⊢
  split at hc
  next h => rw [if_pos h]
  next h => exact absurd hc h

variable {s c}

theorem mem_haltedCores {k : Nat} (hn : (s.cores.map (·.1)).Nodup) : k ∈ haltedCores s c ↔ (s.core k).cid = c ∧ (s.core k).st = .halted := by
  simp only [haltedCores, List.mem_map, List.mem_filter, Bool.and_eq_true, decide_eq_true_eq]
  constructor
  · rintro ⟨p, ⟨hmem, hc, hst⟩, rfl⟩
    rw [core_of_mem hn hmem]
    exact ⟨hc, hst⟩
  · rintro ⟨hc, hst⟩
    exact ⟨(k, s.core k), ⟨mem_of_awake (by simp [hst]), hc, hst⟩, rfl⟩

theorem mem_haltedCores_of {k : Nat} (hc : (s.core k).cid = c) (hst : (s.core k).st = .halted) : k ∈ haltedCores s c := by
  simp only [haltedCores, List.mem_map, List.mem_filter, Bool.and_eq_true, decide_eq_true_eq]
  exact ⟨(k, s.core k), ⟨mem_of_awake (by simp [hst]), hc, hst⟩, rfl⟩

theorem continueCtx_halted {k : Nat} {st : CoreSt} (hc : (s.core k).cid = c) (hst : (s.core k).st = .halted) (hfrom : (s.core k).haltedFrom = some st) :
    (continueCtx s c).core k
      = { (s.core k) with st := st, haltedFrom := none, stepPending := false, frozen := (s.ctx c).stopping.isSome || (s.ctx c).restoring } := by
  have hthaw : (thaw s c).core k = s.core k := thaw_core s c (.inr (by simp [hst]))
  have hctx : (thaw s c).ctx c = s.ctx c := rfl
  rw [continueCtx_core, foldl_resumes_core (resumes_debugResume false), if_pos (mem_haltedCores_of hc hst), hthaw, hc, hctx, wokenRec_some hfrom]
  unfold unstepped
  split <;> rfl

theorem continueCtx_other {k : Nat} (hn : (s.cores.map (·.1)).Nodup) (hc : (s.core k).cid ≠ c) : (continueCtx s c).core k = s.core k := by
  have hthaw : (thaw s c).core k = s.core k := thaw_core s c (.inl hc)
  rw [continueCtx_core, foldl_resumes_core (resumes_debugResume false), if_neg (fun e => hc ((mem_haltedCores hn).mp e).1), hthaw]
  exact if_neg hc

theorem continueCtx_tiles {k d : Nat} (hn : (s.cores.map (·.1)).Nodup) (hd : d < 4) : (continueCtx s c).tile (unitOf k d)
    = if (s.core k).cid = c ∧ (s.core k).st = .halted ∧ (s.core k).haltedFrom.isSome then (s.tile (unitOf k d)).startReady else s.tile (unitOf k d) := by
  rw [continueCtx_tile, foldl_resumes_tile (resumes_debugResume false) _ _ _ hd]
  by_cases hk : (s.core k).cid = c ∧ (s.core k).st = .halted
  · have hthaw : (thaw s c).core k = s.core k := thaw_core s c (.inr (by simp [hk.2]))
    simp only [(mem_haltedCores hn).mpr hk, hthaw, hk.1, hk.2, true_and]
    rfl
  · rw [if_neg (fun e => hk ((mem_haltedCores hn).mp e.1)), if_neg (fun e => hk ⟨e.1, e.2.1⟩)]
    rfl

end cont

/-! ### STEP and WITHDRAW -/

section step
variable {s : State} {core all k : Nat}

/-- The cores that a step or a withdrawal names, by what the table holds of them. -/
theorem mem_steppedCores : k ∈ steppedCores s core all ↔ (∃ r, (k, r) ∈ s.cores ∧ r.cid = s.hub.dctx ∧ r.st ≠ .idle)
    ∧ (all ≠ 0 ∨ k = core ∨ ((s.core core).benchFrom.isSome = true ∧ (s.core k).group = (s.core core).group
      ∧ (s.core k).benchId = (s.core core).benchId ∧ (s.core k).benchFrom.isSome = true)) := by
  have hmine : k ∈ (s.cores.filter (fun p => decide (p.2.cid = s.hub.dctx) && decide (p.2.st ≠ .idle))).map (·.1)
      ↔ ∃ r, (k, r) ∈ s.cores ∧ r.cid = s.hub.dctx ∧ r.st ≠ .idle := by
    simp
  unfold steppedCores
  extract_lets cid mine
  change k ∈ mine ↔ _ at hmine
  rw [← hmine]
  split
  next h => simp [h]
  next h =>
    split
    next hb => rw [List.mem_filter]; simp [h, hb, and_assoc]
    next hb => rw [List.mem_filter]; simp [h, hb]

theorem debugStep_eq (h : s.hub.haltCtx = some s.hub.dctx) : debugStep core all s = (steppedCores s core all).foldl stepOne s := by
  unfold debugStep
  rw [if_neg (not_not.mpr h)]
  rfl

theorem steppedCores_single (hc : (s.core core).cid = s.hub.dctx) (hst : (s.core core).st ≠ .idle) (hb : (s.core core).benchFrom = none)
    (hn : (s.cores.map (·.1)).Nodup) : steppedCores s core 0 = [core] := by
  have hmine : ((s.cores.filter (fun p => decide (p.2.cid = s.hub.dctx) && decide (p.2.st ≠ .idle))).map (·.1)).Nodup :=
    hn.sublist (List.filter_sublist.map _)
  have hmem : core ∈ steppedCores s core 0 := mem_steppedCores.mpr ⟨⟨s.core core, mem_of_awake hst, hc, hst⟩, .inr (.inl rfl)⟩
  unfold steppedCores at hmem ⊢
  extract_lets _ mine at hmem ⊢
  simp only [ne_eq, not_true_eq_false, if_false, hb, Option.isSome_none, Bool.false_eq_true] at hmem ⊢
  have hnd : (mine.filter (fun k => decide (k = core))).Nodup := List.Nodup.filter _ hmine
  have hall : ∀ x ∈ mine.filter (fun k => decide (k = core)), x = core := fun x hx => of_decide_eq_true (List.mem_filter.mp hx).2
  generalize mine.filter (fun k => decide (k = core)) = l at hmem hnd hall
  match l, hmem, hnd, hall with
  | [x], _, _, hall => rw [hall x (by simp)]
  | x :: y :: l, _, hnd, hall =>
    have hxy : x = y := (hall x (by simp)).trans (hall y (by simp)).symm
    exact absurd (by simp [hxy]) (List.nodup_cons.mp hnd).1

end step

end Sys2Proof.Proofs
end
section
/-! The debugger's requests under R435, its data accesses and its registers (R359, R430, R435, R436). -/
namespace Sys2Proof.Proofs
open Laws
open Machine hiding Wf

/-- A request that the device takes up clears REF (R436). -/
def refCleared (s : State) : State := { s with hub := { s.hub with dref := false } }

/-! ### Rights -/

section right
variable {s : State} (hd : s.hub.dstate = 2) (hr : s.hub.selfRefresh = false) (hi : s.hub.idle = false)
include hd hr hi

theorem debugAsk_acts (hst : s.hub.stalled = false) (r : DebugReq) : debugAsk s r = r.act (refCleared s) := by
  have hright : debugRight s (r.memory s) = .allowed := by
    by_cases hc : s.hub.colmask = 255 <;> simp [debugRight, State.pstate, hd, hr, hi, hst, hc]
  unfold debugAsk
  simp only [hright]
  rfl

theorem debugAsk_held (hst : s.hub.stalled = true) (r : DebugReq) :
    debugAsk s r = { s with hub := { s.hub with debugWaits := s.hub.debugWaits ++ [r] } } := by
  have hright : debugRight s (r.memory s) = .waits := by simp [debugRight, State.pstate, hd, hr, hi, hst]
  unfold debugAsk
  simp only [hright]

end right

theorem debugAsk_refuses {s : State} {r : DebugReq}
    (h : s.hub.dstate ≠ 2 ∨ s.hub.selfRefresh = true ∨ (s.hub.idle = true ∧ r.memory s = false)) :
    debugAsk s r = { s with hub := { s.hub with derr := true, dref := true, ddata := if r = .read then 0 else s.hub.ddata } } := by
  have hright : debugRight s (r.memory s) = .refused := by
    unfold debugRight
    split
    · rfl
    next hd =>
      obtain hd' | hr | ⟨hi, hm⟩ := h
      · exact absurd hd' hd
      · simp [State.pstate, hr]
      · by_cases hr : s.hub.selfRefresh = true <;> simp [State.pstate, hr, hi, hm]
  unfold debugAsk
  simp only [hright]
  split
  · simp [debugRefuse]
  · simp [debugRefuse]

/-- The request that each instruction of the debug port makes. -/
theorem ask_of_instr {s : State} {c a v : Nat} {i : Instr} {r : DebugReq}
    (h : (i, r) ∈ [(Instr.debugHalt, DebugReq.halt), (.debugContinue, .cont), (.debugStep c a, .step c a), (.debugWithdraw c a, .withdraw c a),
      (.ddataWrite v, .write v), (.ddataRead, .read)]) :
    exec i s = .next (debugAsk s r) ∧ (r = .read ↔ i = .ddataRead)
      ∧ (r.memory s = true → (i = .ddataRead ∨ i = .ddataWrite v) ∧ dSpace s.hub.daddr = 6) := by
  simp only [List.mem_cons, Prod.mk.injEq, List.not_mem_nil, or_false] at h
  obtain ⟨rfl, rfl⟩ | ⟨rfl, rfl⟩ | ⟨rfl, rfl⟩ | ⟨rfl, rfl⟩ | ⟨rfl, rfl⟩ | ⟨rfl, rfl⟩ := h
  · exact ⟨rfl, by simp, by simp [DebugReq.memory]⟩
  · exact ⟨rfl, by simp, by simp [DebugReq.memory]⟩
  · exact ⟨rfl, by simp, by simp [DebugReq.memory]⟩
  · exact ⟨rfl, by simp, by simp [DebugReq.memory]⟩
  · exact ⟨rfl, by simp, by simp [DebugReq.memory]⟩
  · exact ⟨rfl, by simp, by simp [DebugReq.memory]⟩

/-! ### DCTX and the debug state -/

theorem bitsOf_ctxField (v : Nat) : bitsOf v 9 0 = v % 1024 := bitsOf_low v 9

theorem writeDctx_free {s : State} (v : Nat) (h : s.hub.haltCtx = none) : writeDctx s v = { s with hub := { s.hub with
    dctx := v % 1024, attach := bitOf v 63, dref := false, dhalts := if bitOf v 63 = true ∧ s.hub.attach = false then 0 else s.hub.dhalts } } := by
  unfold writeDctx
  simp only [h, bitsOf_ctxField]
  simp

theorem writeDctx_refuses {s : State} {v c : Nat} (h : s.hub.haltCtx = some c) (ha : bitOf v 63 = true ∨ s.hub.attach = false) :
    writeDctx s v = { s with hub := { s.hub with dref := true } } := by
  have hcond : (bitOf v 63 = true ∨ (!s.hub.attach) = true) := ha.imp_right fun e => by simp [e]
  unfold writeDctx
  simp only [h, if_pos hcond]
  simp

theorem writeDctx_continues {s : State} {v c : Nat} (h : s.hub.haltCtx = some c) (ha : s.hub.attach = true) (hv : bitOf v 63 = false) :
    writeDctx s v = { continueCtx s c with hub := { (continueCtx s c).hub with
      dctx := v % 1024, attach := false, dref := false, dhalts := (continueCtx s c).hub.dhalts } } := by
  have hhalt : (continueCtx s c).hub.haltCtx = none := by rw [(continueCtx_frame s c).2]
  unfold writeDctx
  simp only [h, hv, ha, bitsOf_ctxField]
  simp [hhalt]

theorem execDctx_now {s : State} {v : Nat} (h : ¬ (s.hub.stalled = true ∧ s.hub.haltCtx.isSome = true ∧ s.hub.attach = true ∧ bitOf v 63 = false)) :
    exec (.dctxWrite v) s = .next (writeDctx s v) := by
  show execDctxWrite v s = _
  unfold execDctxWrite
  exact if_neg (by simpa using h)

/-- The debug state `d` with its error cleared (R430). -/
def debugStateSet (s : State) (d : Nat) : State :=
  { s with hub := { s.hub with dstate := d, derr := false, haltPending := if d = 2 then s.hub.haltPending else [] } }

/-- Before the debug state falls, a halted context goes on, or asks for it where a package-wide stall holds it (R15, R430). -/
def releasedFor (s : State) (d : Nat) : State :=
  match s.hub.haltCtx with
  | some c => if s.hub.dstate ≤ d then s else if s.hub.stalled then { s with hub := { s.hub with debugWaits := s.hub.debugWaits ++ [DebugReq.free c] } }
    else continueCtx s c
  | none => s

theorem setDstate_eq (s : State) (d : Nat) : setDstate s d = debugStateSet (releasedFor s d) d := rfl

theorem setDstate_free {s : State} (d : Nat) (h : s.hub.haltCtx = none) : setDstate s d = debugStateSet s d := by
  rw [setDstate_eq, releasedFor, h]

theorem setDstate_lowers {s : State} {d c : Nat} (h : s.hub.haltCtx = some c) (hd : d < s.hub.dstate) : setDstate s d = debugStateSet
    (if s.hub.stalled then { s with hub := { s.hub with debugWaits := s.hub.debugWaits ++ [DebugReq.free c] } } else continueCtx s c) d := by
  rw [setDstate_eq, releasedFor, h]
  exact congrArg (debugStateSet · d) (if_neg (Nat.not_le.mpr hd))

section dreq
variable {s : State} {v : Nat}

/-- The unlock token of this device for a debug state (R430). -/
def unlocks (s : State) (d : Nat) : Bool := Config.signatureOk 8 s.token (leBytes 64 (Config.sha512 (unlockMessage s d)))

theorem execDreq_none (h : v % 4 = 3) : exec (.dbgctlDreq v) s = .next { s with hub := { s.hub with derr := true } } := if_pos h

theorem execDreq_lowers (h : v % 4 ≠ 3) (hd : v % 4 ≤ s.hub.dstate) : exec (.dbgctlDreq v) s = .next (setDstate s (v % 4)) := by
  show execDbgctlDreq v s = _
  unfold execDbgctlDreq
  exact (if_neg h).trans (if_pos hd)

theorem execDreq_raise (h : v % 4 ≠ 3) (hd : s.hub.dstate < v % 4) : exec (.dbgctlDreq v) s
    = if (v % 4 = 2 ∧ s.hub.secure = true) ∨ unlocks s (v % 4) = false then .next { s with hub := { s.hub with derr := true } } else .next (setDstate s (v % 4)) := by
  show execDbgctlDreq v s = _
  unfold execDbgctlDreq
  refine (if_neg h).trans ((if_neg (Nat.not_le.mpr hd)).trans ?_)
  simp only [Bool.not_eq_true']
  rfl

end dreq

/-! ### DDATA -/

/-- DADDR after an access (R436). -/
def nextAddr (s : State) : Nat := s.hub.daddr / 2 ^ 48 * 2 ^ 48 + (bitsOf s.hub.daddr 47 0 + 8) % 2 ^ 48

/-- The core that DADDR names belongs to the halted context, whose snapshots have closed and whose nodes have completed. -/
def Halted (s : State) : Prop :=
  s.hub.haltCtx = some s.hub.dctx ∧ (∀ p ∈ s.cores, p.2.cid = s.hub.dctx → pendingLeft s p.1 = false
    ∧ ∀ d, d < 4 → ∀ n ∈ (s.tile (unitOf p.1 d)).nodes, n.2.st ≠ .running) ∧ (s.core (dCore s.hub.daddr)).cid = s.hub.dctx

theorem ctxHalted_iff (s : State) (c : Nat) : ctxHalted s c = true ↔ s.hub.haltCtx = some c
    ∧ ∀ p ∈ s.cores, p.2.cid = c → pendingLeft s p.1 = false ∧ ∀ d, d < 4 → ∀ n ∈ (s.tile (unitOf p.1 d)).nodes, n.2.st ≠ .running := by
  simp only [ctxHalted, upTo, Bool.and_eq_true, decide_eq_true_eq, List.all_eq_true, Bool.or_eq_true, Bool.not_eq_true', List.mem_range, or_iff_not_imp_left,
    not_not]

theorem dReady_iff (s : State) : dReady s = true ↔ 6 ≤ dSpace s.hub.daddr ∨ Halted s := by
  simp only [dReady, Halted, Bool.or_eq_true, Bool.and_eq_true, decide_eq_true_eq, ctxHalted_iff, and_assoc]
  constructor
  · rintro ((h | h) | h)
    · exact .inl h.ge
    · exact .inl h.le
    · exact .inr h
  · rintro (h | h)
    · exact .inl ((Nat.eq_or_lt_of_le h).imp_left Eq.symm)
    · exact .inr h

/-- A read that the hub carries out leaves its value and the next address. -/
def dataRead (s : State) (ref : Bool) (w : Nat) : State := { s with hub := { s.hub with dref := ref, ddata := w, daddr := nextAddr s } }

/-- A write that the hub carries out leaves its value and the next address. -/
def dataWritten (s x : State) (v : Nat) : State := { x with hub := { x.hub with dref := false, ddata := v % 2 ^ 64, daddr := nextAddr s } }

/-- A write that the hub does not carry out advances the address alone. -/
def dataRefused (s : State) : State := { s with hub := { s.hub with dref := true, daddr := nextAddr s } }

theorem ddata_notReady {s : State} (h : dReady s = false) (v : Nat) :
    ddataRead s = { s with hub := { s.hub with dref := true, ddata := 0 } } ∧ ddataWrite v s = { s with hub := { s.hub with dref := true } } := by
  unfold ddataRead ddataWrite
  simp [h]

section data
variable {s : State} (hr : dReady (refCleared s) = true) (v : Nat)
include hr

theorem ddata_spad (h : dSpace s.hub.daddr = 3) :
    ddataRead (refCleared s) = (if dOffset s.hub.daddr ≤ spadSize - 8
      then dataRead s false ((s.tile (dUnit s.hub.daddr)).spadNat (dOffset s.hub.daddr) 8) else dataRead s true 0)
    ∧ ddataWrite v (refCleared s) = (if dOffset s.hub.daddr ≤ spadSize - 8
      then dataWritten s (s.setTile (dUnit s.hub.daddr) ((s.tile (dUnit s.hub.daddr)).putSpad (dOffset s.hub.daddr) (leBytes 8 v))) v else dataRefused s) := by
  unfold ddataRead ddataWrite
  have hs : dSpace (refCleared s).hub.daddr = 3 := h
  simp only [hr, hs]
  exact ⟨rfl, rfl⟩

theorem ddata_acc (h : dSpace s.hub.daddr = 4) :
    ddataRead (refCleared s) = (if dOffset s.hub.daddr + 8 ≤ 1572864
      then dataRead s false (accWord (s.tile (dUnit s.hub.daddr)) (dOffset s.hub.daddr) + 2 ^ 32 * accWord (s.tile (dUnit s.hub.daddr)) (dOffset s.hub.daddr + 4))
      else dataRead s true 0)
    ∧ (1572864 < dOffset s.hub.daddr + 8 → ddataWrite v (refCleared s) = dataRefused s) := by
  unfold ddataRead ddataWrite
  have hs : dSpace (refCleared s).hub.daddr = 4 := h
  simp only [hr, hs]
  exact ⟨rfl, fun ho => if_neg (Nat.not_le.mpr ho)⟩

theorem ddata_slots (h : dSpace s.hub.daddr = 5) :
    ddataRead (refCleared s) = (if dOffset s.hub.daddr + 8 ≤ 2097152
      then dataRead s false (leNat ((List.range 8).map (fun i => sget 0 ((s.tile (dUnit s.hub.daddr)).getSlot ((dOffset s.hub.daddr + i) / 32768)).bytes
        ((dOffset s.hub.daddr + i) % 32768))))
      else dataRead s true 0)
    ∧ (2097152 < dOffset s.hub.daddr + 8 → ddataWrite v (refCleared s) = dataRefused s) := by
  unfold ddataRead ddataWrite
  have hs : dSpace (refCleared s).hub.daddr = 5 := h
  simp only [hr, hs]
  exact ⟨rfl, fun ho => if_neg (Nat.not_le.mpr ho)⟩

theorem ddata_snapshot (h : dSpace s.hub.daddr = 2) :
    ddataRead (refCleared s) = dataRead s false (if dOffset s.hub.daddr < (snapshotOf s (dUnit s.hub.daddr)).length
      then leNat (((snapshotOf s (dUnit s.hub.daddr)).drop (dOffset s.hub.daddr)).take 8) else 0)
    ∧ ddataWrite v (refCleared s) = dataRefused s := by
  unfold ddataRead ddataWrite
  have hs : dSpace (refCleared s).hub.daddr = 2 := h
  have hsnap : ∀ u, snapshotOf (refCleared s) u = snapshotOf s u := fun _ => rfl
  simp only [hr, hs, hsnap]
  refine ⟨?_, rfl⟩
  by_cases ho : dOffset s.hub.daddr < (snapshotOf s (dUnit s.hub.daddr)).length
  · rw [if_pos ho]
    exact if_pos ho
  · rw [if_neg ho]
    exact if_neg ho

theorem ddata_beyond (h : 6 < dSpace s.hub.daddr) :
    ddataRead (refCleared s) = dataRead s true 0 ∧ ddataWrite v (refCleared s) = dataRefused s := by
  obtain ⟨n, hn⟩ := Nat.exists_eq_add_of_lt h
  have hs : dSpace (refCleared s).hub.daddr = n + 7 := by rw [show (refCleared s).hub.daddr = s.hub.daddr from rfl, hn]; omega
  unfold ddataRead ddataWrite
  simp only [hr, hs]
  exact ⟨rfl, rfl⟩

end data

/-! Space 6: the memory of the context. -/

theorem noteWaits_refCleared (s : State) (ln : Nat) : (refCleared s).noteWaits ln = refCleared (s.noteWaits ln) := by
  unfold State.noteWaits
  show (if s.hub.pkts.any (fun p => p.2.watch.isSome) then _ else _) = _
  split <;> rfl

theorem noteLoops_refCleared (s : State) (ln : Nat) : (refCleared s).noteLoops ln = refCleared (s.noteLoops ln) := by
  unfold State.noteLoops
  show (if s.hub.groups.any (fun g => g.2.sleepsOn ln) then _ else _) = _
  split <;> rfl

theorem touchLine_refCleared (s : State) (ln : Nat) : (refCleared s).touchLine ln = refCleared (s.touchLine ln) := by
  unfold State.touchLine
  rw [← noteLoops_refCleared, ← noteWaits_refCleared]
  rfl

theorem foldl_touchLine_refCleared (ls : List Nat) (s : State) :
    ls.foldl (fun s ln => s.touchLine ln) (refCleared s) = refCleared (ls.foldl (fun s ln => s.touchLine ln) s) := by
  induction ls generalizing s with
  | nil => rfl
  | cons ln ls ih => rw [List.foldl_cons, touchLine_refCleared, ih, List.foldl_cons]

theorem sameSpace_refCleared (s : State) (c : Nat) : SameSpace s (refCleared s) c := ⟨rfl, rfl, rfl, rfl, rfl, rfl⟩

theorem hubWrite_refCleared (s : State) (c va : Nat) (bs : List Byte) : (refCleared s).hubWrite c va bs = refCleared (s.hubWrite c va bs) := by
  unfold State.hubWrite
  simp only [translate_sameSpace (sameSpace_refCleared s c)]
  exact foldl_touchLine_refCleared _ { s with mem := putCells s.mem _ }

section memory
variable {s : State} (h : dSpace s.hub.daddr = 6) (v : Nat)
include h

theorem refCleared_ready : dReady (refCleared s) = true := (dReady_iff _).mpr (.inl h.ge)

theorem ddata_read_memory : ddataRead (refCleared s) = (match s.hubNat s.hub.dctx (dOffset s.hub.daddr) 8 with
    | some w => dataRead s false w
    | none => dataRead s true 0) := by
  unfold ddataRead
  have hs : dSpace (refCleared s).hub.daddr = 6 := h
  simp only [refCleared_ready h, hs]
  have hnat := hubNat_sameSpace (sameSpace_refCleared s s.hub.dctx) (dOffset s.hub.daddr) 8
  show (match (refCleared s).hubNat s.hub.dctx (dOffset s.hub.daddr) 8 with
    | some w => dGot (refCleared s) w
    | none => dFail (refCleared s)) = _
  rw [hnat]
  cases s.hubNat s.hub.dctx (dOffset s.hub.daddr) 8 <;> rfl

theorem ddata_write_memory : ddataWrite v (refCleared s) = (match dMemWrite (refCleared s) s.hub.dctx (dOffset s.hub.daddr) v with
    | some t => dAdvance { t with hub := { t.hub with ddata := v % 2 ^ 64 } }
    | none => dataRefused s) := by
  unfold ddataWrite
  have hs : dSpace (refCleared s).hub.daddr = 6 := h
  simp only [refCleared_ready h, hs]
  rfl

theorem ddata_write_mapped (hm : ∀ i, i < 8 → ∃ r, translate s 256 s.hub.dctx (dOffset s.hub.daddr + i) 1 = .ok r) :
    ddataWrite v (refCleared s) = dataWritten s (s.hubWrite s.hub.dctx (dOffset s.hub.daddr) (leBytes 8 v)) v := by
  have hput : dMemWrite (refCleared s) s.hub.dctx (dOffset s.hub.daddr) v
      = some (refCleared (s.hubWrite s.hub.dctx (dOffset s.hub.daddr) (leBytes 8 v))) := by
    rw [← hubWrite_refCleared]
    refine if_pos (List.all_eq_true.mpr fun i hi => ?_)
    obtain ⟨r, hr⟩ := hm i (List.mem_range.mp hi)
    simp only [translate_sameSpace (sameSpace_refCleared s s.hub.dctx), hr]
  have haddr : nextAddr (s.hubWrite s.hub.dctx (dOffset s.hub.daddr) (leBytes 8 v)) = nextAddr s := by
    unfold nextAddr
    rw [memOnly_hub (memOnly_hubWrite s s.hub.dctx (dOffset s.hub.daddr) (leBytes 8 v))]
  rw [ddata_write_memory h, hput]
  unfold dataWritten
  rw [← haddr]
  rfl

theorem ddata_write_unmapped {i : Nat} {e : WalkFault} (hi : i < 8) (he : translate s 256 s.hub.dctx (dOffset s.hub.daddr + i) 1 = .error e) :
    ddataWrite v (refCleared s) = dataRefused s := by
  have hput : dMemWrite (refCleared s) s.hub.dctx (dOffset s.hub.daddr) v = none := by
    refine if_neg fun hall => ?_
    have hone := List.all_eq_true.mp hall i (List.mem_range.mpr hi)
    simp [translate_sameSpace (sameSpace_refCleared s s.hub.dctx), he] at hone
  rw [ddata_write_memory h, hput]

end memory

end Sys2Proof.Proofs
end
section
/-! The debug port (O38): halts, continues, steps, DCTX, the debug state and DDATA (R352 to R360, R430, R435, R436). -/
namespace Sys2Proof.Proofs
open Laws
open Machine hiding Wf

/-! ### The halt of a context -/

theorem debugHalt_already {s : State} (h : s.hub.haltCtx = some s.hub.dctx) : debugHalt s = s := if_pos h

theorem debugHalt_waits {s : State} (h : s.hub.haltCtx ≠ some s.hub.dctx)
    (hr : ((s.ctx s.hub.dctx).st ≠ .resident ∧ (s.ctx s.hub.dctx).st ≠ .running) ∨ (s.ctx s.hub.dctx).restoring = true) :
    debugHalt s = { s with hub := { s.hub with haltPending := (s.hub.haltPending ++ [s.hub.dctx]).eraseDups } } := by
  refine (if_neg h).trans (if_pos (hr.imp_left fun ⟨hres, hrun⟩ => ?_))
  simp [isResident, hres, hrun]

theorem debugHalt_halts {s : State} (h : s.hub.haltCtx = none) (hr : (s.ctx s.hub.dctx).st = .resident ∨ (s.ctx s.hub.dctx).st = .running)
    (hres : (s.ctx s.hub.dctx).restoring = false) : debugHalt s = haltCtx s s.hub.dctx := by
  refine (if_neg (by simp [h])).trans (if_neg ?_)
  simpa [isResident, hres, or_iff_not_imp_left] using hr

section halt
variable {s : State} {c : Nat} (hn : (s.cores.map (·.1)).Nodup)
include hn

theorem haltCtx_halts {k : Nat} (hc : (s.core k).cid = c) (hst : (s.core k).st ≠ .idle) (hfrom : (s.core k).haltedFrom = none) :
    Halts (s.core k) ((haltCtx s c).core k) :=
  foldl_haltAt_halts hn (mem_of_awake hst) hc hst hfrom s

theorem haltCtx_bare (hb : ∀ k, (s.core k).cid = c → Bare (s.core k)) :
    (∀ k, (haltCtx s c).core k = haltRec c (s.core k)) ∧ (haltCtx s c).tiles = s.tiles ∧ (haltCtx s c).mem = s.mem := by
  have hcore : ∀ p ∈ s.cores, s.core p.1 = p.2 := fun p hp => core_of_mem hn hp
  obtain ⟨hframe, hrec⟩ := foldl_haltAt_bare hn hcore fun p hp hc => by
    rw [← hcore p hp] at hc ⊢
    exact hb p.1 hc
  have htiles := congrArg State.tiles hframe
  have hmem := congrArg State.mem hframe
  refine ⟨fun k => (hrec k).trans ?_, htiles, hmem⟩
  split
  next => rfl
  next hk =>
    have hidle : (s.core k).st = .idle := by
      by_contra hst
      exact hk (List.mem_map.mpr ⟨_, mem_of_awake hst, rfl⟩)
    exact (if_pos (.inr hidle)).symm

end halt

theorem haltRec_runs {c : CoreRec} {cid : Nat} (hc : c.cid = cid) (hst : c.st ≠ .idle) (hs : c.st ≠ .suspended) (hfrom : c.haltedFrom = none) :
    haltRec cid c = { c with haltedFrom := some c.st, st := .halted, frozen := true, stepPending := false } := by
  rw [← haltedRec_runs hs]
  simp [haltRec, hc, hst, hfrom]

theorem haltRec_other {c : CoreRec} {cid : Nat} (hc : c.cid ≠ cid) : haltRec cid c = c := if_pos (.inl hc)

theorem haltCore_stepPending (s : State) (k : Nat) : ((haltCore s k).core k).stepPending = false := by
  rw [haltCore_eq, modCore_eq, setCore_core, if_pos rfl]
  exact haltedRec_stepPending _

theorem stepEnd_halts {s : State} {k : Nat} (h : (s.core k).stepPending = true) (hfrom : (s.core k).haltedFrom = none) : stepEnd s k = haltCore s k := by
  simp [stepEnd, h, hfrom]

/-- Settles O38: each request under its cell of R435; a halt by the standing of the cores, which no landing changes; a continue and a step
by the records and tiles of the cores resumed one after another; data accesses by space. -/
theorem debugPort : Obligations.DebugPort := by
  unfold Obligations.DebugPort
  refine ⟨?_, ?_, ?_, ?_, ?_, ?_, ?_, ?_, ?_⟩
  · intro s c a v i r hmem memory
    obtain ⟨hexec, hread, hm⟩ := ask_of_instr (s := s) hmem
    refine ⟨fun h => ⟨_, hexec, ?_⟩, fun hd hr hi hst => by rw [hexec, debugAsk_held hd hr hi hst]⟩
    rw [debugAsk_refuses (h.imp_right (·.imp_right fun ⟨hi, hno⟩ => ⟨hi, Bool.eq_false_iff.mpr fun e => hno (hm e)⟩))]
    by_cases hi : i = .ddataRead
    · rw [if_pos (hread.mpr hi), if_pos hi]
    · rw [if_neg (hread.not.mpr hi), if_neg hi]
  · intro s hd hr hi hst c
    have hexec : exec .debugHalt s = .next (debugHalt (refCleared s)) := by
      show Host.Outcome.next (debugAsk s .halt) = _
      rw [debugAsk_acts hd hr hi hst]
      rfl
    refine ⟨fun h => by rw [hexec, debugHalt_already (s := refCleared s) h]; rfl,
      fun h hres => by rw [hexec, debugHalt_waits (s := refCleared s) h hres]; rfl, fun h hres hrest hn => ?_⟩
    rw [hexec, debugHalt_halts (s := refCleared s) h hres hrest]
    refine ⟨_, rfl, rfl, ?_, fun k hc hidle hfrom => ?_, fun hb => ?_⟩
    · rw [haltCtx_eq]
      show (if s.hub.haltCtx.isSome then _ else _) = _
      rw [h]
      rfl
    · have hk := haltCtx_halts (s := refCleared s) (c := c) (k := k) hn hc hidle hfrom
      exact ⟨hk.st, hk.frozen, hk.dropped⟩
    · obtain ⟨hcore, htiles, hmem⟩ := haltCtx_bare (s := refCleared s) (c := c) hn hb
      exact ⟨fun k hc hidle hs hfrom => (hcore k).trans (haltRec_runs hc hidle hs hfrom), fun k hc => (hcore k).trans (haltRec_other hc), htiles, hmem⟩
  · intro s hd hr hi hst c
    have hexec : exec .debugContinue s = .next (debugContinue (refCleared s)) := by
      show Host.Outcome.next (debugAsk s .cont) = _
      rw [debugAsk_acts hd hr hi hst]
      rfl
    refine ⟨fun h => ?_, fun h => ⟨continueCtx (refCleared s) c, ?_, ?_⟩⟩
    · rw [hexec, debugContinue]
      exact congrArg _ (if_neg h)
    · rw [hexec, debugContinue]
      exact congrArg _ (if_pos h)
    · obtain ⟨hmem, hhub⟩ := continueCtx_frame (refCleared s) c
      exact ⟨by rw [hhub], by rw [hhub]; rfl, hmem, fun k st hc hh hfrom => continueCtx_halted (s := refCleared s) hc hh hfrom,
        fun hn => ⟨fun k hc => continueCtx_other (s := refCleared s) hn hc, fun k d hd4 => continueCtx_tiles (s := refCleared s) hn hd4⟩,
        continueCtx_unstepped (refCleared s) c⟩
  · intro s core all hd hr hi hst c named
    have hexec : exec (.debugStep core all) s = .next (debugStep core all (refCleared s)) := by
      show Host.Outcome.next (debugAsk s (.step core all)) = _
      rw [debugAsk_acts hd hr hi hst]
      rfl
    refine ⟨fun h => by rw [hexec, debugStep]; exact congrArg _ (if_pos h), fun h => ?_⟩
    have hframe := foldl_resumes_frame resumes_stepOne (steppedCores (refCleared s) core all) (refCleared s)
    have hsame := coresTilesOnly_mem hframe
    have hcore := foldl_resumes_core resumes_stepOne (steppedCores (refCleared s) core all) (refCleared s)
    have htile := foldl_resumes_tile resumes_stepOne (steppedCores (refCleared s) core all) (refCleared s)
    rw [hexec, debugStep_eq (s := refCleared s) h]
    refine ⟨_, rfl, by rw [coresTilesOnly_hub hframe]; exact h, hsame, fun k st hk hh hfrom => ?_, fun k hn hk => ?_⟩
    · have hmem : k ∈ steppedCores (refCleared s) core all :=
        mem_steppedCores.mpr ⟨⟨s.core k, mem_of_awake (s := s) (by simp [hh]), hk.1, by simp [hh]⟩, hk.2⟩
      rw [hcore, if_pos hmem]
      refine (if_pos hh).trans ((wokenRec_some hfrom).trans ?_)
      rw [show ((refCleared s).core k).cid = c from hk.1]
      rfl
    · have hno : k ∉ steppedCores (refCleared s) core all := fun hmem => by
        obtain ⟨⟨r, hr, hc, -⟩, hnamed⟩ := mem_steppedCores.mp hmem
        have hrec : s.core k = r := core_of_mem hn hr
        exact hk ⟨by rw [hrec]; exact hc, hnamed⟩
      refine ⟨by rw [hcore, if_neg hno]; rfl, fun d hd4 => ?_⟩
      rw [htile k hd4, if_neg (fun e => hno e.1)]
      rfl
  · intro s core hd hr hi hst r hc hidle hs hb hn
    have hexec : exec (.debugWithdraw core 0) s = .next (stepEnd (refCleared s) core) := by
      show Host.Outcome.next (debugAsk s (.withdraw core 0)) = _
      rw [debugAsk_acts hd hr hi hst]
      show Host.Outcome.next ((steppedCores (refCleared s) core 0).foldl stepEnd (refCleared s)) = _
      rw [steppedCores_single (s := refCleared s) hc hidle hb hn]
      rfl
    refine ⟨fun hp => by rw [hexec, stepEnd_idle (s := refCleared s) hp]; rfl, fun hp hfrom => ?_⟩
    rw [hexec, stepEnd_halts (s := refCleared s) hp hfrom]
    have hk := haltCore_halts (refCleared s) core
    exact ⟨_, rfl, hk.st.trans (if_neg hs), hk.left hs, hk.frozen, haltCore_stepPending (refCleared s) core⟩
  · intro s v
    refine ⟨fun h => ?_, fun c h ha => ?_, fun c h ha hst hv => ?_, fun c h ha hst hv => ?_⟩
    · rw [execDctx_now (by simp [h]), writeDctx_free v h]
    · rw [execDctx_now (by rintro ⟨-, -, hatt, hv⟩; obtain e | e := ha <;> simp_all), writeDctx_refuses h ha]
    · exact if_pos (by simp [h, ha, hst, hv])
    · rw [execDctx_now (by simp [hst]), writeDctx_continues h ha hv]
      refine ⟨_, rfl, ?_, rfl, rfl, fun k st hc hh hfrom => ?_⟩
      · show (continueCtx s c).hub.haltCtx = none
        rw [(continueCtx_frame s c).2]
      · have hk := continueCtx_halted hc hh hfrom
        exact ⟨congrArg CoreRec.st hk, congrArg CoreRec.haltedFrom hk⟩
  · intro s v d signed
    have hsigned : signed = unlocks s d := rfl
    clear_value signed
    subst hsigned
    refine ⟨fun h => ?_, fun hd h hfree => ⟨debugStateSet s d, ?_, rfl⟩, fun c hlow hd h hst => ?_, fun c hlow hd h hst => ?_⟩
    · obtain h | ⟨hlow, href⟩ := h
      · exact execDreq_none h
      · by_cases hd : d = 3
        · exact execDreq_none hd
        · rw [execDreq_raise hd hlow]
          exact if_pos href
    · rw [← setDstate_free d hfree]
      by_cases hlow : d ≤ s.hub.dstate
      · exact execDreq_lowers hd hlow
      · obtain ⟨hopen, htok⟩ := h.resolve_left hlow
        rw [execDreq_raise hd (Nat.lt_of_not_le hlow)]
        exact if_neg (fun e => e.elim hopen fun hno => by rw [htok] at hno; cases hno)
    · rw [execDreq_lowers hd hlow.le, setDstate_lowers h hlow, if_pos hst]
      exact ⟨_, rfl, rfl⟩
    · rw [execDreq_lowers hd hlow.le, setDstate_lowers h hlow, if_neg (by simp [hst])]
      refine ⟨_, rfl, rfl, ?_, rfl⟩
      show (continueCtx s c).hub.haltCtx = none
      rw [(continueCtx_frame s c).2]
  · intro s v hd hr hi hst a u off sp halted up bad got wrote badW
    have hread : exec .ddataRead s = .next (ddataRead (refCleared s)) := by
      show Host.Outcome.next (debugAsk s .read) = _
      rw [debugAsk_acts hd hr hi hst]
      rfl
    have hwrite : exec (.ddataWrite v) s = .next (ddataWrite v (refCleared s)) := by
      show Host.Outcome.next (debugAsk s (.write v)) = _
      rw [debugAsk_acts hd hr hi hst]
      rfl
    have hbad : ddataRead (refCleared s) = dataRead s true 0 → bad := fun h => ⟨_, hread, h⟩
    have hgot : ∀ w, ddataRead (refCleared s) = dataRead s false w → got w := fun w h => ⟨_, hread, h⟩
    have hwrote : ∀ x, ddataWrite v (refCleared s) = dataWritten s x v → wrote x := fun x h => ⟨_, hwrite, h⟩
    have hbadW : ddataWrite v (refCleared s) = dataRefused s → badW := fun h => ⟨_, hwrite, h⟩
    have hready : halted → dReady (refCleared s) = true := fun h => (dReady_iff _).mpr (.inr h)
    clear_value bad got wrote badW
    refine ⟨fun hsp hno => ?_, fun hsp hh => ?_, fun hsp hh => ?_, fun hsp hh => ?_, fun hsp hh => ?_, fun hsp => ?_, fun hsp => ?_⟩
    · have hnot : dReady (refCleared s) = false := Bool.eq_false_iff.mpr fun e => ((dReady_iff _).mp e).elim (fun h6 => absurd h6 (Nat.not_le.mpr hsp)) hno
      obtain ⟨hr0, hw0⟩ := ddata_notReady hnot v
      exact ⟨⟨_, hread, hr0⟩, ⟨_, hwrite, hw0⟩⟩
    · obtain ⟨hr3, hw3⟩ := ddata_spad (hready hh) v hsp
      exact ⟨fun ho => ⟨hgot _ (hr3.trans (if_pos ho)), hwrote _ (hw3.trans (if_pos ho))⟩,
        fun ho => ⟨hbad (hr3.trans (if_neg (Nat.not_le.mpr ho))), hbadW (hw3.trans (if_neg (Nat.not_le.mpr ho)))⟩⟩
    · obtain ⟨hr4, hw4⟩ := ddata_acc (hready hh) v hsp
      exact ⟨fun ho => hgot _ (hr4.trans (if_pos ho)), fun ho => ⟨hbad (hr4.trans (if_neg (Nat.not_le.mpr ho))), hbadW (hw4 ho)⟩⟩
    · obtain ⟨hr5, hw5⟩ := ddata_slots (hready hh) v hsp
      exact ⟨fun ho => hgot _ (hr5.trans (if_pos ho)), fun ho => ⟨hbad (hr5.trans (if_neg (Nat.not_le.mpr ho))), hbadW (hw5 ho)⟩⟩
    · obtain ⟨hr2, hw2⟩ := ddata_snapshot (hready hh) v hsp
      exact ⟨hbadW hw2, hgot _ hr2⟩
    · have hr6 := ddata_read_memory (s := s) hsp
      exact ⟨fun w hw => hgot w (by rw [hr6]; exact congrArg (fun o => match o with | some w => dataRead s false w | none => dataRead s true 0) hw),
        fun hw => hbad (by rw [hr6]; exact congrArg (fun o => match o with | some w => dataRead s false w | none => dataRead s true 0) hw),
        fun hm => hwrote _ (ddata_write_mapped hsp v hm), fun i e hi he => hbadW (ddata_write_unmapped hsp v hi he)⟩
    · obtain ⟨hr7, hw7⟩ := ddata_beyond (s := s) ((dReady_iff _).mpr (.inl (Nat.le_of_lt hsp))) v hsp
      exact ⟨hbad hr7, hbadW hw7⟩
  · intro s
    refine ⟨fun h => by rw [serveDebug, h, List.foldl_nil, ← h], fun r rest h => ?_⟩
    intro serve
    have hserve : serveDebug s = s.hub.debugWaits.foldl serve { s with hub := { s.hub with debugWaits := [] } } := by
      unfold serveDebug
      congr 1
      funext t q
      cases q <;> rfl
    rw [hserve, h, List.foldl_cons]

end Sys2Proof.Proofs
end

section
/-! The link (O30): grants, requests served, replies, time-outs, COLL messages and ports (R411 to R417, R420, R421, R427). -/
namespace Sys2Proof.Proofs
open Laws
open Machine hiding Wf

/-! ### Routes and messages -/

/-- A device keeps its own number, its routes and its ports. -/
structure KeepsRoutes (s t : State) : Prop where
  selfid : t.hub.selfid = s.hub.selfid
  outPort : ∀ d, t.outPort d = s.outPort d

theorem keepsRoutes_memOnly {s t : State} (h : MemOnly s t) : KeepsRoutes s t where
  selfid := by rw [memOnly_hub h]
  outPort d := by
    unfold State.outPort
    rw [memOnly_hub h]

theorem keepsRoutes_postFault (s : State) (r : FaultRec) : KeepsRoutes s (postFault s r) := by
  unfold postFault
  extract_lets h
  split
  · exact ⟨rfl, fun _ => rfl⟩
  · exact ⟨rfl, fun _ => rfl⟩

theorem keepsRoutes_peerFault (s : State) (cid va kind : Nat) (f : WalkFault) : KeepsRoutes s (peerFault s cid va kind f) := by
  unfold peerFault
  split
  · exact keepsRoutes_postFault s _
  · have hfresh := keepsRoutes_postFault s.fresh (faultRecord va kind (Config.freeValue s.freeCount) 3 255 0 0 0 s.ptime)
    exact ⟨hfresh.selfid, hfresh.outPort⟩

theorem sendMsg_lost {s : State} {m : Msg} (hd : m.dest ≠ s.hub.selfid) (hp : s.outPort m.dest = none) : s.sendMsg m = s := by
  unfold State.sendMsg
  rw [if_neg hd, hp]

theorem sendMsg_leaves {s : State} {m : Msg} {p : Nat} (hd : m.dest ≠ s.hub.selfid) (hp : s.outPort m.dest = some p) :
    s.sendMsg m = State.portUsed { s with hub := { s.hub with sentMsgs := s.hub.sentMsgs ++ [{ m with port := p }] } } p := by
  unfold State.sendMsg
  rw [if_neg hd, hp]

/-- A message leaves a state whose routes are those of `s` by the port that `s` has for it. -/
theorem sendMsg_after {s t : State} {m : Msg} {p : Nat} (h : KeepsRoutes s t) (hd : m.dest ≠ s.hub.selfid) (hp : s.outPort m.dest = some p) :
    t.sendMsg m = State.portUsed { t with hub := { t.hub with sentMsgs := t.hub.sentMsgs ++ [{ m with port := p }] } } p :=
  sendMsg_leaves (by rw [h.selfid]; exact hd) (by rw [h.outPort]; exact hp)

/-! ### Grants (R413 to R415) -/

section grant
variable {s : State} {r : Req} {rest : List Req}

/-- The first request takes its slot. -/
def grantedState (s : State) (r : Req) : State :=
  { s with hub := { s.hub with reqs := s.hub.reqs.map (fun x => if x.reqNo = r.reqNo then { x with sent := true, sentAt := s.ptime } else x) } }

theorem grant_first (hq : s.hub.reqs = r :: rest) (hg : grantable s r = true) (hn : ∀ q ∈ s.hub.reqs, noRoute s q = false) :
    exec .linkQueueGrant s = if r.target = s.hub.selfid then .next (grantedState s r) else .next ((grantedState s r).sendMsg (r.msg s.hub.selfid)) := by
  have hroute : s.hub.reqs.find? (noRoute s) = none := List.find?_eq_none.mpr fun q hq' => by simp [hn q hq']
  have hfirst : s.hub.reqs.find? (grantable s) = some r := by rw [hq]; exact List.find?_cons_of_pos hg
  show execLinkQueueGrant s = _
  unfold execLinkQueueGrant
  simp only [hroute, hfirst]
  rfl

theorem grant_noRoute (hq : s.hub.reqs = r :: rest) (hsent : r.sent = false) (hready : r.ready = true) (ht : r.target ≠ s.hub.selfid)
    (hp : s.outPort r.target = none) : exec .linkQueueGrant s
      = .next (arriveReq { s with hub := { s.hub with reqs := s.hub.reqs.map (fun x => if x.reqNo = r.reqNo then { x with sent := true } else x) } } r none) := by
  have hno : noRoute s r = true := by simp [noRoute, hsent, hready, ht, State.destFenced, hp]
  have hroute : s.hub.reqs.find? (noRoute s) = some r := by rw [hq]; exact List.find?_cons_of_pos hno
  show execLinkQueueGrant s = _
  unfold execLinkQueueGrant
  simp only [hroute]

end grant

/-! ### Requests of peers (R416, R417) -/

section serve
variable {s : State} {src kind tag va size cid data p : Nat}

/-- The reply to an RLD or RST that has been performed, or could not be. -/
def remoteReplyMsg (s : State) (src kind tag : Nat) (d : Option (List Byte)) : Msg :=
  { dest := src, src := s.hub.selfid, vc := 1, kind := if d.isNone then 6 else if kind = 1 then 4 else 3, tag := tag % 2 ^ 32, data := d.getD [] }

theorem remoteRequest_serves (hf : s.hub.fenced = false) (hst : s.hub.stalled = false) (hs : src ≠ s.hub.selfid) (hpeer : podPeer s src = true)
    (hk : kind = 1 ∨ kind = 2) (hsize : size ∈ [64, 128, 256, 512]) (hva : va % size = 0) :
    exec (.remoteRequestServe src kind tag va size cid data) s
      = .next ((serveRemote s kind cid va size (leBytes size data)).1.sendMsg
          (remoteReplyMsg s src kind tag (serveRemote s kind cid va size (leBytes size data)).2)) := by
  have hlegal : ¬((!(podPeer s src)) = true ∨ (kind ≠ 1 ∧ kind ≠ 2) ∨ (!([64, 128, 256, 512].contains size)) = true ∨ va % size ≠ 0) := by
    have hsize' : [64, 128, 256, 512].contains size = true := List.contains_iff_mem.mpr hsize
    rw [hpeer, hsize']
    rintro (h | ⟨h1, h2⟩ | h | h)
    · cases h
    · exact hk.elim h1 h2
    · cases h
    · exact h hva
  show execRemoteRequestServe src kind tag va size cid data s = _
  unfold execRemoteRequestServe
  exact (if_neg (by simp [hf, hst])).trans ((if_neg hs).trans (if_neg hlegal))

/-- The kind of the access that a request makes (R416). -/
theorem remoteKind (hk : kind = 1 ∨ kind = 2) : (if kind = 1 then 0 else 1) = kind - 1 := by
  obtain rfl | rfl := hk <;> rfl

theorem serveRemote_faults {d : List Byte} {a : Nat} {f : WalkFault} (hk : kind = 1 ∨ kind = 2) (h : peerCheck s cid va size (kind - 1) = some (a, f)) :
    serveRemote s kind cid va size d = (peerFault s cid a (kind - 1) f, none) := by
  unfold serveRemote
  rw [remoteKind hk, h]

theorem serveRemote_performs {d : List Byte} (hk : kind = 1 ∨ kind = 2) (h : peerCheck s cid va size (kind - 1) = none) :
    serveRemote s kind cid va size d = if kind = 1 then (s, some ((s.hubRead cid va size).getD [])) else (s.hubWrite cid va d, some []) := by
  unfold serveRemote
  rw [remoteKind hk, h]

end serve

/-! ### Replies and time-outs (R415, R417) -/

theorem awaited_first {s : State} {r : Req} {rest : List Req} (hq : s.hub.reqs = r :: rest) (hsent : r.sent = true)
    (hh : ∀ h ∈ s.hub.heldReplies, h.1 ≠ r.reqNo) : awaited s r.reqNo = some r := by
  have hheld : (s.hub.heldReplies.any fun h => decide (h.1 = r.reqNo)) = false := List.any_eq_false.mpr fun h hm => by simp [hh h hm]
  unfold awaited
  rw [hq]
  exact List.find?_cons_of_pos (by simp [hsent, hheld])

/-- The slot of a request is free. -/
def slotFreed (s : State) (r : Req) : State := { s with hub := { s.hub with reqs := s.hub.reqs.filter (fun x => decide (x.reqNo ≠ r.reqNo)) } }

/-- The state in which a request's slot is free and its data, if it is an RLD, is with its results in flight. -/
def delivered (s : State) (r : Req) (data : Option (List Byte)) : State :=
  if r.kind = 1 then (slotFreed s r).modCore (r.unit / 4) (fun c => { c with inflight := c.inflight.flatMap (fun e => remoteEntries e r.reqNo data) })
  else slotFreed s r

section complete
variable (s : State) (r : Req) (d : Option (List Byte))

theorem delivered_rld (h : r.kind = 1) : (delivered s r d).core (r.unit / 4)
    = { s.core (r.unit / 4) with inflight := (s.core (r.unit / 4)).inflight.flatMap (fun e => remoteEntries e r.reqNo d) } := by
  unfold delivered
  rw [if_pos h, modCore_eq, setCore_core, if_pos rfl]
  rfl

theorem delivered_frame : (delivered s r d).hub.reqs = s.hub.reqs.filter (fun x => decide (x.reqNo ≠ r.reqNo)) ∧ (delivered s r d).mem = s.mem
    ∧ (delivered s r d).tiles = s.tiles ∧ (r.kind ≠ 1 → (delivered s r d).cores = s.cores) := by
  unfold delivered
  split
  next h => exact ⟨rfl, rfl, rfl, fun hn => absurd h hn⟩
  next => exact ⟨rfl, rfl, rfl, fun _ => rfl⟩

theorem completeReq_eq (ho : r.orphan = false) : completeReq s r d
    = if r.kind = 1 ∧ (s.core (r.unit / 4)).frozen = true then settleBase (delivered s r d) (r.unit / 4) else delivered s r d := by
  have hown : ¬(r.orphan = true) := by simp [ho]
  by_cases h : r.kind = 1
  · have hrld : completeReq s r d = rebase (delivered s r d) (r.unit / 4) := by
      rw [delivered, if_pos h]
      exact (if_neg hown).trans (if_pos h)
    rw [hrld, rebase, delivered_rld s r d h]
    simp only [h, true_and]
  · rw [if_neg (fun e => h e.1), delivered, if_neg h]
    exact (if_neg hown).trans (if_neg h)

variable {s r d} in
/-- A lone result that waits for the request has its vector. -/
theorem delivered_single {e : Entry} {dst : Nat} {tag : Tag} (hk : r.kind = 1) (hfl : (s.core (r.unit / 4)).inflight = [e])
    (he : e.eff = .remote dst (r.reqNo + 1) tag 0 false 0 false) : ((delivered s r d).core (r.unit / 4)).inflight
      = [{ e with eff := .vec dst (if d.isSome then vecOfBytes tag (d.getD []) else {}) allOnes, pend := false }] := by
  rw [delivered_rld s r d hk]
  simp [hfl, remoteEntries, he]

end complete

/-! ### COLL messages (R420, R421) -/

section coll
variable (s : State) (cid va fn fmt : Nat) (cnt : Bool) (runs : List (Nat × Nat)) (data : List Byte)

theorem memOnly_atomPut (va len v : Nat) : MemOnly s (s.atomPut cid va len v) := by
  unfold State.atomPut
  split
  · exact memOnly_trans (memOnly_markAtomic s _) (memOnly_putMemNat _ _ len v)
  · exact memOnly_refl s

/-- What a COLL makes of one run, elements in ascending order: the state, and the bytes that are left. -/
def collRun (cid va fn fmt : Nat) (acc : State × List Byte) (r : Nat × Nat) : State × List Byte :=
  let es := elemBits fmt / 8
  let part := acc.2.take r.2
  let t := (upTo (r.2 / es)).foldl (fun t i =>
    let a := va + r.1 + es * i
    let src := leNat ((part.drop (es * i)).take es)
    let new := if fn = 0 then src else (accumOp fmt (if fn = 1 then 0 else if fn = 2 then 2 else 1) ((t.hubNat cid a es).getD 0) src).1
    t.hubWrite cid a (leBytes es new)) acc.1
  (t, acc.2.drop r.2)

theorem memOnly_collRuns (acc : State × List Byte) : MemOnly acc.1 (runs.foldl (collRun cid va fn fmt) acc).1 := by
  induction runs generalizing acc with
  | nil => exact memOnly_refl acc.1
  | cons r runs ih => exact memOnly_trans (memOnly_foldl (fun t i => memOnly_hubWrite t cid _ _) _ acc.1) (ih (collRun cid va fn fmt acc r))

/-- The first byte of a COLL's range or counter that the peer context cannot access. -/
def collFault (s : State) (cid va fn : Nat) (cnt : Bool) (runs : List (Nat × Nat)) : Option (Nat × WalkFault) :=
  (runs.findSome? (fun r => peerCheck s cid (va + r.1) r.2 (if fn = 0 then 1 else 2))).or
    (if cnt then peerCheck s cid (va - 64) 8 2 else peerCheck s cid va 0 0)

theorem serveColl_faults {a : Nat} {f : WalkFault} (h : collFault s cid va fn cnt runs = some (a, f)) :
    serveColl s cid va fn fmt cnt runs data = (peerFault s cid a (if fn = 0 then 1 else 2) f, false) := by
  unfold collFault at h
  unfold serveColl
  extract_lets es kind bad op
  have hbad : bad = some (a, f) := h
  rw [hbad]

theorem serveColl_performs (h : collFault s cid va fn cnt runs = none) : serveColl s cid va fn fmt cnt runs data
    = (if cnt then (runs.foldl (collRun cid va fn fmt) (s, data)).1.atomPut cid (va - 64) 8
          ((((runs.foldl (collRun cid va fn fmt) (s, data)).1.hubNat cid (va - 64) 8).getD 0 + 1) % 2 ^ 64)
        else (runs.foldl (collRun cid va fn fmt) (s, data)).1, true) := by
  unfold collFault at h
  unfold serveColl
  extract_lets es kind bad op
  have hbad : bad = none := h
  rw [hbad]
  rfl

theorem keepsRoutes_serveColl : KeepsRoutes s (serveColl s cid va fn fmt cnt runs data).1 := by
  cases h : collFault s cid va fn cnt runs with
  | some b =>
    rw [serveColl_faults s cid va fn fmt cnt runs data h]
    exact keepsRoutes_peerFault s cid b.1 _ b.2
  | none =>
    rw [serveColl_performs s cid va fn fmt cnt runs data h]
    have hruns := memOnly_collRuns cid va fn fmt runs (s, data)
    cases cnt
    · exact keepsRoutes_memOnly hruns
    · exact keepsRoutes_memOnly (memOnly_trans hruns (memOnly_atomPut _ cid _ 8 _))

end coll

/-- The acknowledgement of a COLL message, or its error. -/
def collReplyMsg (s : State) (src tag : Nat) (okay : Bool) : Msg :=
  { dest := src, src := s.hub.selfid, vc := 2, kind := if okay then 3 else 6, tag := tag % 2 ^ 32 }

theorem collMessage_serves {s : State} {src tag fn fmt cnt dst off inter at_ cid size data : Nat} (hf : s.hub.fenced = false) (hst : s.hub.stalled = false)
    (hs : src ≠ s.hub.selfid) (hpod : src / 512 < s.pods) (hfn : fn ≤ 3) (hfmt : fmt ≤ 2) (hal : dst % 64 = 0) (hdst : dst < 2 ^ 53) (hsize : size ≤ 65536)
    (hd : at_ % 2 ^ 56 = dst) (ho : at_ / 2 ^ 57 = off) (hi : at_ / 2 ^ 56 % 2 = inter) :
    exec (.collMessage src tag fn fmt cnt at_ cid size data) s
      = .next ((serveColl s cid dst fn fmt (decide (cnt = 1)) (shareRuns fmt off inter size) (leBytes size data)).1.sendMsg
          (collReplyMsg s src tag (serveColl s cid dst fn fmt (decide (cnt = 1)) (shareRuns fmt off inter size) (leBytes size data)).2)) := by
  have hlegal : ¬(s.pods ≤ src / 512 ∨ 3 < fn ∨ 2 < fmt ∨ dst % 64 ≠ 0 ∨ 2 ^ 53 ≤ dst ∨ 65536 < size) := by
    rintro (h | h | h | h | h | h)
    · exact absurd hpod (Nat.not_lt.mpr h)
    · exact absurd hfn (Nat.not_le.mpr h)
    · exact absurd hfmt (Nat.not_le.mpr h)
    · exact h hal
    · exact absurd hdst (Nat.not_lt.mpr h)
    · exact absurd hsize (Nat.not_le.mpr h)
  show execCollMessage src tag fn fmt cnt at_ cid size data s = _
  unfold execCollMessage
  rw [hd, ho, hi]
  exact (if_neg (by simp [hf, hst])).trans ((if_neg hs).trans (if_neg hlegal))

/-- The address word of a COLL message gives back its parts. -/
theorem collAddress {dst inter off : Nat} (hd : dst < 2 ^ 53) (hi : inter < 2) :
    (dst + 2 ^ 56 * inter + 2 ^ 57 * off) % 2 ^ 56 = dst ∧ (dst + 2 ^ 56 * inter + 2 ^ 57 * off) / 2 ^ 57 = off
      ∧ (dst + 2 ^ 56 * inter + 2 ^ 57 * off) / 2 ^ 56 % 2 = inter := by
  refine ⟨?_, ?_, ?_⟩ <;> omega

/-! ### Ports (R411, R427) -/

section ports
variable {s : State} {p : Nat}

/-- One port has changed. -/
def portSet (s : State) (p : Nat) (q : Port) : State := { s with hub := { s.hub with ports := sset {} s.hub.ports p q } }

theorem portSet_port (q : Port) (j : Nat) : sget ({} : Port) (portSet s p q).hub.ports j = if j = p then q else sget {} s.hub.ports j :=
  sget_sset {} s.hub.ports p j q

/-- A port after a failed replay (R411). -/
def replayed (q : Port) : Port := { q with fails := q.fails + 1, down := decide (16 ≤ q.fails + 1), up := decide (q.fails + 1 < 16) }

theorem flitReplay_eq (hp : p < 16) (hu : portIsUp (sget {} s.hub.ports p) = true) : exec (.flitReplay p) s = .next (portSet s p (replayed (sget {} s.hub.ports p))) := by
  show execFlitReplay p s = _
  unfold execFlitReplay
  exact if_neg (by simp [hu, hp])

theorem portUp_eq (hp : p < 16) (he : (sget ({} : Port) s.hub.ports p).en = true) (hd : (sget ({} : Port) s.hub.ports p).down = false) :
    exec (.portUp p) s = .next (portSet s p { (sget ({} : Port) s.hub.ports p) with up := true }) := by
  show execPortUp p s = _
  unfold execPortUp
  exact if_neg (by simp [he, hd, hp])

theorem portUsed_eq : s.portUsed p = portSet s p { (sget ({} : Port) s.hub.ports p) with fails := 0 } := rfl

theorem portWorks_none {d : Nat} (h : s.outPort d = none) : portWorks s d = s := by
  unfold portWorks
  rw [h]

theorem portWorks_some {d : Nat} (h : s.outPort d = some p) : portWorks s d = s.portUsed p := by
  unfold portWorks
  rw [h]

end ports

/-- Settles O30: each event of the link by what it sends, serves, completes or makes of a port. -/
theorem linkEvents : Obligations.LinkEvents := by
  unfold Obligations.LinkEvents
  refine ⟨?_, ?_, ?_, fun _ _ _ => rfl, ?_, ?_, ?_, ?_, fun s m hd hp => sendMsg_lost hd hp, ?_⟩
  · intro s r rest hq s1
    refine ⟨fun hg hn ht => (grant_first hq hg hn).trans (if_pos ht), fun p hg hn ht hp => ?_, fun hsent hready ht hp => grant_noRoute hq hsent hready ht hp⟩
    rw [grant_first hq hg hn, if_neg ht, sendMsg_leaves (s := grantedState s r) (m := r.msg s.hub.selfid) (p := p) ht hp]
    rfl
  · intro s src kind tag va size cid data p hf hst hs hp hpeer hk hsize hva
    rw [remoteRequest_serves hf hst hs hpeer hk hsize hva]
    refine ⟨fun hok => ⟨?_, ?_⟩, fun a f hbad => ?_⟩
    · rintro rfl
      rw [serveRemote_performs hk hok, if_pos rfl, sendMsg_leaves (m := remoteReplyMsg s src 1 tag _) hs hp]
      rfl
    · rintro rfl
      rw [serveRemote_performs hk hok, if_neg (by decide),
        sendMsg_after (m := remoteReplyMsg s src 2 tag _) (keepsRoutes_memOnly (memOnly_hubWrite s cid va (leBytes size data))) hs hp]
      rfl
    · rw [serveRemote_faults hk hbad, sendMsg_after (m := remoteReplyMsg s src kind tag none) (keepsRoutes_peerFault s cid a (kind - 1) f) hs hp]
      rfl
  · rintro s req okay data r rest hq hsent rfl hheld
    have ha := awaited_first hq hsent hheld
    refine ⟨fun ht => ?_, fun hto => ?_⟩
    · show execRemoteReply r.reqNo okay data s = _
      unfold execRemoteReply
      rw [ha]
      exact if_neg ht
    · show execRemoteTimeout r.reqNo s = _
      unfold execRemoteTimeout
      rw [ha]
      exact if_pos hto
  · intro s r d ho
    obtain ⟨hreqs, hmem, htiles, hcores⟩ := delivered_frame s r d
    exact ⟨delivered s r d, completeReq_eq s r d ho, hreqs, hmem, htiles, hcores, fun e dst tag hk hfl he => delivered_single hk hfl he⟩
  · intro s src tag fn fmt cnt dst off inter cid size data p hf hst hp hs hpod hfn hfmt hal hdst hi hsize
    obtain ⟨hd, ho, hin⟩ := collAddress (off := off) hdst hi
    rw [collMessage_serves hf hst hs hpod hfn hfmt hal hdst hsize hd ho hin,
      sendMsg_after (m := collReplyMsg s src tag _) (keepsRoutes_serveColl s cid dst fn fmt _ _ _) hs hp]
    rfl
  · intro s p hp q
    refine ⟨fun hu => ⟨_, flitReplay_eq hp hu, (portSet_port _ p).trans (if_pos rfl), fun j hj => (portSet_port _ j).trans (if_neg hj), rfl⟩,
      fun he hd => ⟨_, portUp_eq hp he hd, (portSet_port _ p).trans (if_pos rfl), fun j hj => (portSet_port _ j).trans (if_neg hj), rfl⟩⟩
  · intro s d p
    refine ⟨portWorks_none, fun hp => ⟨_, portWorks_some hp, rfl, ?_⟩⟩
    rw [portUsed_eq]
    exact ⟨(portSet_port _ p).trans (if_pos rfl), fun j hj => (portSet_port _ j).trans (if_neg hj), rfl⟩
  · intro s src kind tag va size cid data fn fmt cnt dst hst
    exact ⟨if_pos (.inr hst), if_pos (.inr hst)⟩

end Sys2Proof.Proofs
end
